-- ==== Sys2Proof/Word.lean ====
section
/-! DEFINITION. The word types of the SNT192 and their plainest arithmetic (spec/00_scope.md R6 to R13). -/

namespace Sys2Proof

/-- A BAR0 register: 32 bits, bit 0 the least significant (R8). -/
abbrev Word := BitVec 32
/-- An angle in angle units, 2^32 to one electrical cycle (R13). -/
abbrev Angle := BitVec 32
/-- A time or a duration in nanoseconds. -/
abbrev Ns := Nat
/-- A setting, a measurement or a computed quantity, taken as an exact number (see the assumption log). -/
abbrev Num := Rat

/-- A counter of `w` bits that stops at its largest value. -/
def satInc (w n : Nat) : Nat := min (n + 1) (2 ^ w - 1)

/-- A counter of `w` bits that stops at its largest value, advanced by `k`. -/
def satAdd (w n k : Nat) : Nat := min (n + k) (2 ^ w - 1)

/-- A counter of `w` bits that wraps. -/
def wrapInc (w n : Nat) : Nat := (n + 1) % 2 ^ w

/-- Nanoseconds in one microsecond, one millisecond and one second. -/
abbrev usec (n : Nat) : Ns := n * 1000
abbrev msec (n : Nat) : Ns := n * 1000000
abbrev secs (n : Nat) : Ns := n * 1000000000

/-- The absolute value of a number. -/
def Num.mag (x : Num) : Num := if x < 0 then -x else x

/-- `x` held within `lo` to `hi`. -/
def Num.clamp (lo hi x : Num) : Num := if x < lo then lo else if hi < x then hi else x

/-- A single bit as a number. -/
def b2n (b : Bool) : Nat := if b then 1 else 0

/-- A single bit as a register field of width `w` at position `p`. -/
def fld (p v : Nat) : Word := BitVec.ofNat 32 (v <<< p)

/-- A flag at bit `p` of a register. -/
def flag (p : Nat) (b : Bool) : Word := fld p (b2n b)

/-- Replace the item at index `i` of a list by its image under `f`; nothing when there is none. -/
def updAt {α : Type} (l : List α) (i : Nat) (f : α → α) : List α := l.modify i f

/-- The item at index `i`, or `d` when there is none. -/
def nth {α : Type} (l : List α) (i : Nat) (d : α) : α := (l[i]?).getD d

end Sys2Proof
end

