-- ==== Sys2Proof/Cfg/Base.lean ====
section
/-! DEFINITION. Names shared by the Manifest's sections and the commands: channels, units, blocks, levels (spec/00_scope.md R15, spec/19_register_map.md R590). -/

namespace Sys2Proof

/-- The blocks of the register space, in the order of their block numbers 0 to 18 (R590). -/
inductive Blk where
  | sys | clk | tide | acq | prot | diff | form | gate | logic | fio | capt | log | net | ptp | chk | host
  | adeid | sec | diag
deriving DecidableEq, Repr, Inhabited

/-- The block number (R590). -/
def Blk.num : Blk → Nat
  | .sys => 0 | .clk => 1 | .tide => 2 | .acq => 3 | .prot => 4 | .diff => 5 | .form => 6 | .gate => 7
  | .logic => 8 | .fio => 9 | .capt => 10 | .log => 11 | .net => 12 | .ptp => 13 | .chk => 14 | .host => 15
  | .adeid => 16 | .sec => 17 | .diag => 18

/-- An analog channel as a consumer names it: a local channel or a subscribed SV channel (R50, R121, R142). -/
inductive ChanRef where
  | ain (n : Nat)
  | sv (i : Nat)
deriving DecidableEq, Repr, Inhabited

/-- The two lanes on which samples are released: 14,400 S/s and 4,800 S/s (R19). -/
inductive LaneRate where
  | fast | phasor
deriving DecidableEq, Repr, Inhabited

/-- Samples per second of a lane (R19, R376). -/
def LaneRate.hz : LaneRate → Nat
  | .fast => 14400 | .phasor => 4800

/-- The two protection lanes (R18). -/
inductive LaneId where
  | a | b
deriving DecidableEq, Repr, Inhabited

/-- The other lane. -/
def LaneId.other : LaneId → LaneId
  | .a => .b
  | .b => .a

/-- Severity of a record (R403). -/
inductive Severity where
  | info | warning | alarm | critical
deriving DecidableEq, Repr, Inhabited

/-- The encoding of a severity (R403). -/
def Severity.num : Severity → Nat
  | .info => 0 | .warning => 1 | .alarm => 2 | .critical => 3

/-- Quality of a sample or an input: good, questionable or invalid (R140, R313). -/
inductive Quality where
  | good | questionable | invalid
deriving DecidableEq, Repr, Inhabited

/-- The operating profiles (R34). -/
inductive Profile where
  | balanced | protect | form | economy
deriving DecidableEq, Repr, Inhabited

/-- The encoding of a profile (R34). -/
def Profile.num : Profile → Nat
  | .balanced => 0 | .protect => 1 | .form => 2 | .economy => 3

end Sys2Proof
end

