-- ==== Sys2Proof/Cfg/Acq.lean ====
section
/-! DEFINITION. The ACQ section of the Manifest (spec/04_acquisition.md R121, R145, R149). -/

namespace Sys2Proof

/-- Sensor types, in the order of ACQ_CH_CFG.SENSOR (R121, R151). -/
inductive Sensor where
  | lpvt | lpct | rogowski
deriving DecidableEq, Repr, Inhabited

/-- The encoding of a sensor type (R151). -/
def Sensor.num : Sensor → Nat
  | .lpvt => 0 | .lpct => 1 | .rogowski => 2

/-- Full-scale ranges, in the order of ACQ_CH_CFG.RANGE (R121, R151). -/
inductive AinRange where
  | v05 | v2 | v10
deriving DecidableEq, Repr, Inhabited

/-- The encoding of a range (R151). -/
def AinRange.num : AinRange → Nat
  | .v05 => 0 | .v2 => 1 | .v10 => 2

/-- The full scale in volts (R121). -/
def AinRange.volts : AinRange → Num
  | .v05 => 1 / 2 | .v2 => 2 | .v10 => 10

/-- A coefficient set: its tap count and its (N + 1)/2 unique 24-bit coefficients (R130). -/
structure CoefSet where
  taps : Nat
  coef : List (BitVec 24)
deriving DecidableEq, Repr, Inhabited

/-- A created local channel (R149). Voltages in V, PRIM_NOM in A or V, ROG_LEAK in mHz. -/
structure AinCfg where
  ch : Nat
  sensor : Sensor
  range : AinRange := .v10
  secNom : Num
  primNom : Num := 0
  bankA : CoefSet
  bankB : Option CoefSet := none
  fadeLen : Nat := 256
  rogLeak : Nat := 100
deriving DecidableEq, Repr, Inhabited

/-- What a place of a published dataset carries (R145). -/
inductive PubMap where
  | unmapped
  | chan (c : Nat)
  | derived
deriving DecidableEq, Repr, Inhabited

/-- A published stream: its lane and its 8-channel map (R145). -/
structure PubCfg where
  rate : LaneRate
  map : List PubMap
deriving DecidableEq, Repr, Inhabited

/-- The ACQ section (R149). ALIGN_WAIT in ns; `none` takes the default of R143. -/
structure AcqCfg where
  channels : List AinCfg := []
  alignFast : Option Ns := none
  alignPhasor : Option Ns := none
  pubs : List PubCfg := []
deriving DecidableEq, Repr, Inhabited

end Sys2Proof
end

