-- ==== Sys2Proof/Machine/Common.lean ====
section
/-! DEFINITION. State that many blocks share: W1C registers with their event counters (spec/00_scope.md R9, spec/19_register_map.md R595). -/

namespace Sys2Proof.Machine

open Sys2Proof

/-- A W1C register and the 8-bit event counter of each of its bits (R9, R595). -/
structure W1C where
  bits : Word := 0
  cnt : List Nat := List.replicate 32 0
deriving DecidableEq, Repr, Inhabited

/-- The hardware sets bit `i`: the bit reads 1 and its counter advances modulo 256 (R9, R595). -/
def W1C.raise (e : W1C) (i : Nat) : W1C :=
  { bits := e.bits ||| fld i 1, cnt := updAt e.cnt i (wrapInc 8) }

/-- A write of `v`: every bit written 1 clears; the counters stay (R9, R595). -/
def W1C.write (e : W1C) (v : Word) : W1C := { e with bits := e.bits &&& ~~~v }

/-- Requesters that keep a snapshot of their own (R111). -/
inductive Requester where
  | host
  | logicCore (k : Nat)
  | reader (k : Nat)
deriving DecidableEq, Repr, Inhabited

/-- A sample of a published stream: its value, its quality, and the details overflow and inaccurate (R140, R145). -/
structure PubPoint where
  value : Int := 0
  q : Quality := .invalid
  overflow : Bool := false
  inaccurate : Bool := false
deriving DecidableEq, Repr, Inhabited

/-- An ASDU of a published stream: smpCnt, and its samples (R145). -/
structure PubAsdu where
  cnt : Nat
  samples : List PubPoint
deriving DecidableEq, Repr, Inhabited

end Sys2Proof.Machine
end

