-- ==== Sys2Proof/Machine/AcqState.lean ====
section
/-! DEFINITION. The state of ACQ: channels with their filter chain, the aligned sample sets, published streams (spec/04_acquisition.md). -/

namespace Sys2Proof.Machine

open Sys2Proof

/-- The detail flags of a sample (R140). -/
structure Detail where
  overflow : Bool := false
  inaccurate : Bool := false
  unsync : Bool := false
  failure : Bool := false
deriving DecidableEq, Repr, Inhabited

/-- A value with the marks it carries: an overrange input in its support (R123); and, of an output of the waveform lane, the post-reset
hold, INACCURATE, and an instant that was not produced (R136, R139, R140). -/
structure Tap where
  value : Num := 0
  ovr : Bool := false
  hold : Bool := false
  inacc : Bool := false
  absent : Bool := false
deriving DecidableEq, Repr, Inhabited

/-- A sample of an aligned set (R140, R143): its value in pu, its code, the acquisition instant as a
local index and as PTP time, its quality, and the Tide angle and frequency at that instant (R49). -/
structure Sample where
  x : Num := 0
  code : Int := 0
  idx : Nat := 0
  time : Nat := 0
  q : Quality := .invalid
  det : Detail := {}
  theta : Angle := 0
  freq : Num := 0
  /-- No value came for the instant (R143, R377). -/
  absent : Bool := false
deriving DecidableEq, Repr, Inhabited

/-- A swap: pending until its commit, committed, or fading over `len` waveform-lane samples from the sample `first` on (R135). -/
inductive SwapPhase where
  | idle
  | pending
  | committed
  | fading (first len : Nat)
deriving DecidableEq, Repr, Inhabited

/-- A bank of coefficients with its own tap count (R131). -/
structure Bank where
  taps : Nat := 0
  coef : List (BitVec 24) := List.replicate 192 0
deriving DecidableEq, Repr, Inhabited

/-- The filter chain of a local channel, newest entry first in each history; `next…` is the grid index of the next output of
each lane (R126, R127, R131, R137). -/
structure Chain where
  /-- The integrators and the combs' delays of the CIC, 32 bits each, wrapping (R126 stage 2). -/
  cicInt : List (BitVec 32) := List.replicate 4 0
  cicComb : List (BitVec 32) := List.replicate 4 0
  /-- The last CIC outputs, after the integrator for a ROGOWSKI channel: 383 of history and the 16 of the present period. -/
  cic : List Tap := []
  cicCount : Nat := 0
  /-- The last CIC output before the integrator, and the integrator's state, 48 bits, in 2^−16 of a code (R137). -/
  lastIn : Num := 0
  integ : Int := 0
  /-- The integrator waits for a non-overrange input to be zeroed (R139). -/
  integDirty : Bool := false
  /-- Outputs of the waveform lane, newest first: the 512 last. -/
  wave : List Tap := []
  half : List Tap := []
  fast : List Tap := []
  nextWave : Nat := 0
  nextHalf : Nat := 0
  nextFast : Nat := 0
  nextPhasor : Nat := 0
deriving DecidableEq, Repr, Inhabited

/-- A local channel (R121 to R139, R150 to R153). -/
structure Ain where
  ch : Nat
  sensor : Sensor := .lpvt
  range : AinRange := .v10
  secNom : Num := 1
  primNom : Num := 0
  rogLeak : Nat := 100
  protected_ : Bool := false
  published : Bool := false
  bankA : Bank := {}
  bankB : Bank := {}
  /-- Bank B is active. -/
  activeB : Bool := false
  stageTaps : Nat := 0
  fadeLen : Nat := 256
  stageLock : Bool := false
  swap : SwapPhase := .idle
  settle : Bool := false
  /-- The waveform-lane index at which the last delay-class switch took effect, and its ΔD in Tm (R136). -/
  switchAt : Nat := 0
  delta : Int := 0
  /-- The fast-lane index from which the K periods of R141 count. -/
  flushFrom : Nat := 0
  ovr : Bool := false
  /-- An overrange sample has come in the present phasor-lane period. -/
  ovrNow : Bool := false
  ovrCnt : Nat := 0
  /-- Local time of the last overrange period and of the end of the integrator's hold. -/
  lastOvr : Option Ns := none
  integHold : Option Ns := none
  /-- Peak code of the present overrange period. -/
  peak : Int := 0
  chain : Chain := {}
deriving DecidableEq, Repr, Inhabited

/-- A sample that waits for the release of its acquisition instant (R143). -/
structure Waiting where
  chan : ChanRef
  lane : LaneRate
  sample : Sample
deriving DecidableEq, Repr, Inhabited

/-- A published stream (R145, R150). -/
structure Pub where
  rate : LaneRate := .phasor
  map : List PubMap := []
  synch : Nat := 0
  frames : Nat := 0
  /-- Lane index of the next sample to publish. -/
  next : Nat := 0
  /-- ASDUs gathered for the frame in preparation. -/
  asdus : List PubAsdu := []
deriving DecidableEq, Repr, Inhabited

/-- The ACQ block (R121 to R154). -/
structure AcqState where
  chans : List Ain := []
  alignFast : Ns := 0
  alignPhasor : Ns := 0
  waiting : List Waiting := []
  /-- Samples of 14,400 S/s SV channels as they arrived, newest first, for the copy of stage 6 (R142). -/
  svHist : List (Nat × Sample) := []
  /-- Fast-lane grid index of the last strobe, and of the first instant to be released (R127, R141). -/
  fastIdx : Nat := 0
  startIdx : Nat := 0
  /-- Grid indices of the last fast-lane and phasor-lane periods that have run. -/
  fastDone : Nat := 0
  phasorDone : Nat := 0
  running : Bool := false
  /-- PTP times of the last instants released on each lane. -/
  lastFast : Option Nat := none
  lastPhasor : Option Nat := none
  /-- The sets last released on each lane (R143). -/
  setFast : List (ChanRef × Sample) := []
  setPhasor : List (ChanRef × Sample) := []
  svLate : Nat := 0
  skip : Nat := 0
  skipCh : Nat := 0
  activeWr : Nat := 0
  activeWrCh : Nat := 0
  pubs : List Pub := []
  event : W1C := {}
deriving DecidableEq, Repr, Inhabited

/-- A released sample set: the instant and one sample per channel (R143). -/
structure SampleSet where
  lane : LaneRate
  time : Nat
  samples : List (ChanRef × Sample)
deriving DecidableEq, Repr, Inhabited

end Sys2Proof.Machine
end

