-- ==== Sys2Proof/Cfg/Prot.lean ====
section
/-! DEFINITION. The PROT section of the Manifest: elements with their settings per group, trip outputs, user tables (spec/05_protection_engine.md, spec/01_architecture_and_profiles.md R22 to R29). -/

namespace Sys2Proof

/-- The element types of the catalogue (R174). -/
inductive ElemType where
  | e50P | e51P | e50N | e51N | e46 | e67P | e67N | e21 | e87L | e87T | e27 | e59 | e59N | e81O | e81U
  | e81R | e50BF | e25 | e79
deriving DecidableEq, Repr, Inhabited

/-- The TYPE encoding (R174). -/
def ElemType.num : ElemType → Nat
  | .e50P => 1 | .e51P => 2 | .e50N => 3 | .e51N => 4 | .e46 => 5 | .e67P => 6 | .e67N => 7 | .e21 => 8
  | .e87L => 9 | .e87T => 10 | .e27 => 11 | .e59 => 12 | .e59N => 13 | .e81O => 14 | .e81U => 15
  | .e81R => 16 | .e50BF => 17 | .e25 => 18 | .e79 => 19

/-- The lane rate of a type (R156, R174). -/
def ElemType.rate : ElemType → LaneRate
  | .e50P | .e50N | .e87T | .e50BF => .fast
  | _ => .phasor

/-- An under-element picks up at M ≤ 1; the impedance of a 21 element against its reach is one (R164, R179, R182, R183). -/
def ElemType.isUnder : ElemType → Bool
  | .e27 | .e81U | .e21 => true
  | _ => false

/-- The types that have the setting ANY_ALL (R182). -/
def ElemType.isVolt : ElemType → Bool
  | .e27 | .e59 => true
  | _ => false

/-- Combine policies (R21). -/
inductive Policy where
  | dependability | security
deriving DecidableEq, Repr, Inhabited

/-- LANE_LOSS (R21). -/
inductive LaneLoss where
  | block | single
deriving DecidableEq, Repr, Inhabited

/-- BLOCK_MODE (R167). -/
inductive BlockMode where
  | reset | hold
deriving DecidableEq, Repr, Inhabited

/-- RESET_MODE (R172). -/
inductive ResetMode where
  | instant | timed | thermal | definite
deriving DecidableEq, Repr, Inhabited

/-- The encoding of RESET_MODE (R172). -/
def ResetMode.num : ResetMode → Nat
  | .instant => 0 | .timed => 1 | .thermal => 2 | .definite => 3

/-- What a unit publishes to PROT that an element can take as a block input (R31, R166, R251). -/
inductive UnitSignal where
  | limiting | forming | faultMode
deriving DecidableEq, Repr, Inhabited

/-- The source of a block input (R166). -/
inductive BlockSource where
  | field (ch : Nat)
  | goose (sub member : Nat)
  | logic (e : Nat)
  | pickup (e : Nat)
  | operate (e : Nat)
  | formUnit (u : Nat) (sig : UnitSignal)
  | zoneHealthy (z : Nat)
deriving DecidableEq, Repr, Inhabited

/-- A block input (R166). -/
structure BlockInput where
  source : BlockSource
  invert : Bool := false
deriving DecidableEq, Repr, Inhabited

/-- A start source of a 50BF element, or a source of a trip output (R22, R184). -/
inductive StartSource where
  | trip (k : Nat)
  | operate (e : Nat)
deriving DecidableEq, Repr, Inhabited

/-- Curve and timer settings (R164, R165, R170 to R172). Times in ns, angles in degrees. -/
structure TimingSet where
  pickup : Num := 1
  /-- PU_COUNT and DROPOUT_RATIO; none where the Manifest does not give them. -/
  puCount : Option Nat := none
  doCount : Nat := 1
  dropoutRatio : Option Num := none
  tDelay : Ns := 0
  /-- CURVE: 0 definite time, 1 to 6 standard, 16 to 31 user tables; none where the Manifest does not give it. -/
  curve : Option Nat := none
  /-- TMS, or TD. -/
  tms : Num := 1
  mMax : Num := 20
  tMin : Ns := 0
  tAdd : Ns := 0
  resetMode : ResetMode := .instant
  tauMem : Ns := secs 1
  resetT : Ns := 0
  pickupLim : Option Num := none
  hsSamples : Nat := 2
deriving DecidableEq, Repr, Inhabited

/-- PU_COUNT, by default 1 on the fast lane and 2 on the phasor lane (R164). -/
def TimingSet.puOf (t : TimingSet) (y : ElemType) : Nat := t.puCount.getD (match y.rate with | .fast => 1 | .phasor => 2)

/-- DROPOUT_RATIO, by default 0.95 for an over-element and 1.05 for an under-element (R164). -/
def TimingSet.ratioOf (t : TimingSet) (y : ElemType) : Num := t.dropoutRatio.getD (if y.isUnder then 105 / 100 else 95 / 100)

/-- CURVE; definite time where it is not given (R171, R622). -/
def TimingSet.curveNo (t : TimingSet) : Nat := t.curve.getD 0

/-- DIRECTION of a directional element (R177). -/
inductive Direction where
  | forward | reverse
deriving DecidableEq, Repr, Inhabited

/-- Directional settings (R177, R178). -/
structure DirSet where
  rca : Num := 60
  halfSector : Num := 85
  direction : Direction := .forward
  vpolMin : Num := 2 / 100
  /-- NODIR = NONDIRECTIONAL. -/
  nodirNondirectional : Bool := false
  /-- POL = NEG of a 67N element. -/
  polNeg : Bool := false
  /-- POL = MEMORY of a 21 element. -/
  polMemory : Bool := false
  memCycles : Nat := 10
deriving DecidableEq, Repr, Inhabited

/-- Distance settings (R179). -/
structure DistSet where
  mho : Bool := true
  reach : Num := 1
  lineAng : Num := 75
  xReach : Num := 1
  rReach : Num := 1
  tilt : Num := 0
  k0re : Num := 0
  k0im : Num := 0
  i0Min : Num := 1 / 10
  iMin : Num := 1 / 10
  dirLow : Num := -15
  dirHigh : Num := 115
deriving DecidableEq, Repr, Inhabited

/-- Transformer-differential settings (R181). -/
structure TrafoSet where
  idMin : Num := 3 / 10
  slope1 : Num := 1 / 4
  slope2 : Num := 6 / 10
  irBrk : Num := 2
  h2 : Num := 15 / 100
  h5 : Num := 35 / 100
  crossBlock : Bool := true
  idUnr : Num := 8
  zseqElim : Bool := true
deriving DecidableEq, Repr, Inhabited

/-- Line-differential settings (R226). -/
structure LineDiffSet where
  idMin : Num := 2 / 10
  k1 : Num := 3 / 10
  k2 : Num := 7 / 10
  irBrk : Num := 3
  idUnr : Num := 10
deriving DecidableEq, Repr, Inhabited

/-- SIGN of an 81R element (R183). -/
inductive RocofSign where
  | pos | neg | both
deriving DecidableEq, Repr, Inhabited

/-- Voltage and frequency settings (R163, R182, R183). -/
structure VoltSet where
  /-- VMODE phase-to-phase. -/
  phaseToPhase : Bool := true
  /-- ANY_ALL = ALL; none where the Manifest does not give it. -/
  all : Option Bool := none
  vDead : Num := 5 / 100
  deadBlock : Bool := true
  uvBlock : Num := 1 / 2
  avgCycles : Nat := 3
  rocofWindow : Nat := 10
  sign : RocofSign := .both
deriving DecidableEq, Repr, Inhabited

/-- ANY_ALL, by default ALL for a 27 element and ANY else (R182). -/
def VoltSet.allOf (v : VoltSet) (y : ElemType) : Bool := v.all.getD (y == .e27)

/-- Breaker-failure settings (R184). -/
structure BfSet where
  iBf : Num := 1 / 10
  t1 : Ns := 0
  t2 : Ns := msec 150
deriving DecidableEq, Repr, Inhabited

/-- Synchro-check settings (R185). -/
structure SyncSet where
  dvMax : Num := 1 / 10
  dfMax : Num := 1 / 10
  dangMax : Num := 20
  tCb : Ns := 0
  tSync : Ns := 0
  dlLb : Bool := false
  llDb : Bool := false
  dlDb : Bool := false
  deadLevel : Num := 2 / 10
  liveLevel : Num := 8 / 10
deriving DecidableEq, Repr, Inhabited

/-- One shot of a 79 element (R186). -/
structure Shot where
  dead : Ns
  needSync : Bool := false
deriving DecidableEq, Repr, Inhabited

/-- Reclose settings (R186). -/
structure RecloseSet where
  enable : Bool := false
  shots : List Shot := []
  syncWait : Ns := 0
  reclaim : Ns := secs 1
deriving DecidableEq, Repr, Inhabited

/-- The settings of an element in one group (R187). -/
structure ElemSet where
  policy : Policy := .dependability
  laneLoss : LaneLoss := .single
  blockMode : BlockMode := .reset
  blocks : List BlockInput := []
  timing : TimingSet := {}
  dir : DirSet := {}
  dist : DistSet := {}
  trafo : TrafoSet := {}
  line : LineDiffSet := {}
  volt : VoltSet := {}
  bf : BfSet := {}
  sync : SyncSet := {}
  reclose : RecloseSet := {}
deriving DecidableEq, Repr, Inhabited

/-- A winding of an 87T element (R181). -/
structure Winding where
  cset : List ChanRef
  kw : Num
  clock : Nat
deriving DecidableEq, Repr, Inhabited

/-- An element instance (R174, R166, R187, R622). -/
structure ElemCfg where
  index : Nat
  type : ElemType
  essential : Bool := false
  formVisible : Bool := false
  /-- SG_MASK, SG1 first. -/
  sgMask : List Bool := List.replicate 8 true
  /-- Current set, voltage set, bus voltage set of a 25 element, measured neutral. -/
  cset : List ChanRef := []
  vset : List ChanRef := []
  bset : List ChanRef := []
  neutral : Option ChanRef := none
  /-- The forming unit whose limiter state PICKUP_LIM follows (R169). -/
  limUnit : Option Nat := none
  zone : Option Nat := none
  windings : List Winding := []
  starts : List StartSource := []
  /-- CB_AUX: the breaker-closed input (R184); the breaker-open input of a 79 element (R186). -/
  cbAux : Option Nat := none
  /-- The trip output and the 25 element of a 79 element (R186). -/
  trip : Option Nat := none
  sync : Option Nat := none
  /-- Settings of SG1 to SG8. -/
  groups : List ElemSet := List.replicate 8 {}
deriving DecidableEq, Repr, Inhabited

/-- Gangs of a field output (R22, R206, R310). -/
inductive Gang where
  | single | pair | quad
deriving DecidableEq, Repr, Inhabited

/-- The encoding of a gang, and the channels it holds (R206). -/
def Gang.num : Gang → Nat
  | .single => 0 | .pair => 1 | .quad => 2

/-- The number of channels of a gang (R310). -/
def Gang.size : Gang → Nat
  | .single => 1 | .pair => 2 | .quad => 4

/-- A trip output (R22 to R26). -/
structure TripCfg where
  index : Nat
  channel : Nat
  gang : Gang := .single
  sealTime : Ns := msec 100
  maskGrant : Bool := false
  /-- Its sources, elements whose combined operate it draws on, up to 32. -/
  sources : List Nat := []
deriving DecidableEq, Repr, Inhabited

/-- A user table: its points (M, t in s) and its reset constant (s) (R173). -/
structure UserTable where
  points : List (Num × Num)
  tr : Num
deriving DecidableEq, Repr, Inhabited

/-- A mapped input that requests a group (R187). -/
structure SgInput where
  source : BlockSource
  group : Nat
deriving DecidableEq, Repr, Inhabited

/-- The PROT section. -/
structure ProtCfg where
  rotationAcb : Bool := false
  elements : List ElemCfg := []
  trips : List TripCfg := []
  tables : List UserTable := []
  sgDefer : Bool := true
  sgDeferMax : Ns := secs 2
  sgSelectLogic : Bool := false
  sgInputs : List SgInput := []
deriving DecidableEq, Repr, Inhabited

end Sys2Proof
end

