-- ==== Sys2Proof/Cfg/Logic.lean ====
section
/-! DEFINITION. The LOGIC section of the Manifest: tasks, stations, exports, variables (spec/10_logic_engine.md R338 to R352, R367). -/

namespace Sys2Proof

/-- Edges of an event source (R340). -/
inductive EdgeKind where
  | rising | falling | either
deriving DecidableEq, Repr, Inhabited

/-- Event sources of an EVENT task (R340). -/
inductive EventSource where
  | field (ch : Nat) (edge : EdgeKind)
  | goose (sub : Nat)
  | operate (e : Nat)
  | closeReq (u : Nat)
  | envTrip (u : Nat)
  | capture (e : Nat)
  | command
deriving DecidableEq, Repr, Inhabited

/-- Kinds of task with their release settings (R340). Times in ns; TIDE gives the period in cycles and the angle. -/
inductive TaskKind where
  | time (period phase : Ns)
  | tide (period : Nat) (angle : Nat) (mark : Nat)
  | event (minInterval : Ns) (sources : List EventSource)
deriving DecidableEq, Repr, Inhabited

/-- A task (R338, R367). `wcet` is C of R342, in ns. -/
structure TaskCfg where
  task : Nat
  kind : TaskKind
  core : Nat
  priority : Nat
  group : Nat
  writeAtNext : Bool := false
  /-- DEG = SUSPEND. -/
  degSuspend : Bool := false
  wcet : Ns := 0
deriving DecidableEq, Repr, Inhabited

/-- An input of a program as the snapshot names it (R346). -/
inductive InKey where
  | field (ch : Nat)
  | goose (sub member : Nat)
  | elem (e : Nat) (operate : Bool)
  | trip (k : Nat)
  | station (slot pos : Nat)
deriving DecidableEq, Repr, Inhabited

/-- Function blocks with state in their instance (R351). -/
inductive FbKind where
  | ton | tof | tp | ctu | ctd | ctud | rTrig | fTrig
deriving DecidableEq, Repr, Inhabited

/-- An instance of a function block: its path, its owning task and the retained line it lies in (R351, R359). -/
structure InstCfg where
  path : String
  kind : FbKind
  task : Nat := 0
  retained : Bool := false
  line : Nat := 0
deriving DecidableEq, Repr, Inhabited

/-- Substitute mode of an input (R347). -/
inductive Subst where
  | holdLast (initial : Int)
  | fixed (v : Int)
deriving DecidableEq, Repr, Inhabited

/-- A program variable (R350, R359): its symbol address, size, initial value, owning task, and the
retained lines it lies in. -/
structure VarCfg where
  addr : Nat
  /-- Instance path and type, as the Mowyn map names them (R364). -/
  path : String
  type : String
  initial : Int := 0
  task : Nat := 0
  retained : Bool := false
  line : Nat := 0
  hostWritable : Bool := false
deriving DecidableEq, Repr, Inhabited

/-- A remote station that this device declares as master (R352). -/
structure StationCfg where
  device : Nat
  node : Nat
  inputs : List Nat := []
  outputs : List Nat := []
  exportCrc : Word := 0
  timeout : Ns := msec 3
deriving DecidableEq, Repr, Inhabited

/-- An export of this device to a master (R352). -/
structure ExportCfg where
  device : Nat
  node : Nat
  inputs : List Nat := []
  outputs : List Nat := []
  exportCrc : Word := 0
  period : Ns := msec 1
  wd : Ns := msec 10
deriving DecidableEq, Repr, Inhabited

/-- The LOGIC section. `hash` is the program hash, `layout` the layout hash of each task group. -/
structure LogicCfg where
  tasks : List TaskCfg := []
  /-- START_MODE = COLD. -/
  startCold : Bool := false
  stations : List StationCfg := []
  exports : List ExportCfg := []
  vars : List VarCfg := []
  insts : List InstCfg := []
  substs : List (InKey × Subst) := []
  hash : BitVec 128 := 0
  layout : List (BitVec 128) := []
  /-- Bytes of retained variables and instances (R359). -/
  retainedBytes : Nat := 0
deriving DecidableEq, Repr, Inhabited

end Sys2Proof
end

