-- ==== Sys2Proof/Cfg/Capt.lean ====
section
/-! DEFINITION. The CAPT and LOG sections of the Manifest, and the names of the records (spec/11_capture.md R374 to R395, spec/12_logbook.md R404, R412). -/

namespace Sys2Proof

/-- A waveform channel of an engine (R376, R377). -/
structure CaptChan where
  src : ChanRef
  shift : Nat := 0
deriving DecidableEq, Repr, Inhabited

/-- Digital sources (R380). -/
inductive DigSource where
  | level (ch : Nat)
  /-- Any bit of FIO_CH_DIAG[ch] set. -/
  | diag (ch : Nat)
  | pickup (e : Nat)
  | operate (e : Nat)
  | trip (k : Nat)
  | goose (sub member : Nat)
deriving DecidableEq, Repr, Inhabited

/-- What an analog source shows (R380). -/
inductive AnaKind where
  | mag (c : ChanRef)
  | ang (c : ChanRef)
  | tideFreq
  | pilotFreq
  | unitP (u : Nat)
  | unitQ (u : Nat)
  | unitF (u : Nat)
  | unitState (u : Nat)
  | lplus (g : Nat)
  | vdc (b : Nat)
deriving DecidableEq, Repr, Inhabited

/-- An analog source with its deadband and interval (R380). -/
structure AnaSource where
  kind : AnaKind
  deadband : Num
  maxInterval : Ns := secs 1
deriving DecidableEq, Repr, Inhabited

/-- Conditions on a dataset bit (R382). -/
inductive BitChange where
  | rises | falls | changes | invalid
deriving DecidableEq, Repr, Inhabited

/-- Trigger conditions (R382). -/
inductive CaptCond where
  | level (c : ChanRef) (rms over_ : Bool) (level hyst : Num)
  | roc (c : ChanRef) (ratePu : Num) (window : Nat) (sign : RocofSign)
  | pickup (e : Nat)
  | operate (e : Nat)
  | trip (k : Nat)
  | edge (ch : Nat) (k : EdgeKind)
  | goose (sub member : Nat) (k : BitChange)
  | tide (mark : Nat)
  | form (u : Nat)
  | manual
  | logic
deriving DecidableEq, Repr, Inhabited

/-- A capture engine (R374, R376, R395). -/
structure CaptCfg where
  engine : Nat
  partMib : Nat
  waveMib : Nat
  rate : LaneRate := .fast
  chans : List CaptChan
  digital : List DigSource := []
  analog : List AnaSource := []
  conds : List CaptCond := []
  preRows : Nat := 2880
  postRows : Nat := 14400
  armAtStart : Bool := true
  lockMax : Ns := secs 600
deriving DecidableEq, Repr, Inhabited

/-- The names of the records that this manual uses (R404). -/
inductive Rec where
  -- SYS
  | supplySingle | supplyDual | supplyOver | sysStart | sysStageLate | sysWatchdogLoop
  -- CLK
  | lolActive | lolStby | degradedStart | degradedEnd | refSwitch | refLoss | mpllLol | retuneDone | clkGuard
  | partnerReset | domainStopped | loopFailed | spllQualified | spllRetry
  -- TIDE
  | tideStart | initAlign | handoverStart | handoverDone | coastStart | coastEnd | fallback | phaseJump
  | pilotTrack | pilotLost | markPast | mark | tideMapStep | tideRateClamp | tidePinLapsed | powAbort | powDone
  | powOutlier | powNoTouch
  -- ACQ
  | acqOverrange | acqSwap | acqIntegReset
  -- PROT
  | tripOn | tripOff | tripMasked | protDeadlineMiss | laneDisagree | laneSuspect | laneUnresolved | laneOut
  | laneRestored | protNoLane | sgSwitch | sgSuperseded | essentialStart | essentialEnd
  -- DIFF
  | zoneBlock | zoneHealthy | diffHeadChange
  -- FORM
  | formReady | formNotReady | formStart | formBlackStart | formForming | formEnergised | formBlocked | formIsland
  | formResyncStart | formResyncDone | formResyncFail | formUnsyncClose | frtStart | frtEnd | frtEnvelope | formStop
  | formStopped | formHold | formHoldEnd | formReset | formOverrun | formLockstep | formBridgeLost | formBind
  | formStepEmpty
  -- GATE
  | gateLinkUp | gateLinkDown | gateDelay | gateStageFault | gateStageBlocked
  -- LOGIC
  | logicStart | logicStop | logicHalt | logicOverrun | logicColdFallback | logicExchange | logicExchFail
  | logicStationDrop | logicStationBack | logicStationSafe
  -- FIO
  | fioDiag | fioSupply | fioWatchdog | fioGroupLost | fioEdgeLost | fioSchedLate | fioHandshakeFail | fioOvervolt
  -- CAPT
  | captArm | captTrigger | captDone | captDisarm | captDiscard | captClamped | captLockLapsed | captEcc
  -- LOG
  | logRepeat | logLost | logEpoch | powerLoss | logRecovered | logBankFail | logCheckFail
  -- NET
  | netLink | netPortAdmin | netRingOpen | netRingClosed | netGooseTal | netGooseConfig | netIntakeRate | netSvLost
  -- PTP
  | ptpLock | ptpUnlock | ptpStep | ptpOutlier | holdoverStart | holdoverEnd | ptpFree | ptpGmChange
  -- CHK
  | chkResync | chkKatFail
  -- HOST
  | hostRingError | hostRefusals | hostLate | hostLinkDown
  -- ADEID
  | adeidLink | adeidMiswired | adeidReach | adeidRing | doorClose | doorOpen
  -- SEC
  | secRoot | secKey | secKeyBad | secConfirmBad | secSigFail | secTallyFail | secPropose | secConfirm | secCommit | secCommitRefused | secLapse
  | secDevice | manifestLoaded | manifestReject | manifestEnvelope | manifestFallback | manifestBare | manifestActivate
  | manifestPromote | manifestLive
  -- DIAG
  | diagTest | diagEccCorr | diagEccUncorr | diagTemp | diagAge | diagRefreshDone | diagRefreshLate | diagLife
  | healthChange
  /-- <BLOCK>_REFUSED of R621. -/
  | refused (b : Blk)
deriving DecidableEq, Repr, Inhabited

/-- Settings of one event code in the LOG section (R412). -/
structure LogCodeCfg where
  record : Bool := true
  severity : Option Severity := none
  merge : Bool := true
  /-- SNAPSHOT: BAR0 offsets. -/
  snapshot : List Nat := []
deriving DecidableEq, Repr, Inhabited

/-- The LOG section (R412). -/
structure LogCfg where
  codes : List (Rec × LogCodeCfg) := []
  tailFoldMax : Ns := secs 60
deriving DecidableEq, Repr, Inhabited

end Sys2Proof
end

