-- ==== Sys2Proof/Machine/CaptState.lean ====
section
/-! DEFINITION. The state of CAPT and LOG: capture engines, the logbook (spec/11_capture.md, spec/12_logbook.md). -/

namespace Sys2Proof.Machine

open Sys2Proof

/-- Engine states in the order of CAPT_E_STATUS.STATE (R384, R399). -/
inductive CaptPhase where
  | disarmed | armed | triggered | done
deriving DecidableEq, Repr, Inhabited

/-- The encoding of an engine state (R399). -/
def CaptPhase.num : CaptPhase → Nat
  | .disarmed => 0 | .armed => 1 | .triggered => 2 | .done => 3

/-- Types of change records (R379). -/
inductive ChgType where
  | digital | analog | quality | waveGap | chgGap | snapshot | trigger | timeStep | degraded
deriving DecidableEq, Repr, Inhabited

/-- The encoding of a type (R379). -/
def ChgType.num : ChgType → Nat
  | .digital => 1 | .analog => 2 | .quality => 3 | .waveGap => 4 | .chgGap => 5 | .snapshot => 6 | .trigger => 7
  | .timeStep => 8 | .degraded => 9

/-- A change record (R379). `lo` and `hi` are VALUE [31:0] and [63:32]. -/
structure ChgRec where
  tag : Nat
  type : ChgType
  source : Nat
  lo : Word
  hi : Word := 0
  /-- Local time at which it was written. -/
  at_ : Ns := 0
deriving DecidableEq, Repr, Inhabited

/-- A stored row: its place among the row instants since arming, its acquisition instant, its tag, the Tide position at it,
and its samples, each 24 bits (R377, R378, R385, R389). -/
structure Row where
  idx : Nat
  time : Nat
  tag : Nat
  pos : BitVec 80
  samples : List (BitVec 24)
deriving DecidableEq, Repr, Inhabited

/-- The descriptor (R389). -/
structure Descriptor where
  valid : Bool := false
  preShort : Bool := false
  clamped : Bool := false
  waveGap : Bool := false
  chgGap : Bool := false
  chgFull : Bool := false
  degraded : Bool := false
  eccErr : Bool := false
  captNum : Nat := 0
  mask : BitVec 64 := 0
  primary : Nat := 0
  fast : Bool := true
  device : Nat := 0
  nch : Nat := 0
  ndig : Nat := 0
  nana : Nat := 0
  sg : Nat := 1
  manifestVer : Nat := 0
  start : Nat := 0
  startPos : BitVec 80 := 0
  startTag : Nat := 0
  baseTag : Nat := 0
  trigRow : Nat := 0
  rows : Nat := 0
  gapRows : Nat := 0
  waveFirst : Nat := 0
  chgFirst : Nat := 0
  chgCount : Nat := 0
  chgLost : Nat := 0
deriving DecidableEq, Repr, Inhabited

/-- A run of lost records: the tag of the first, the local times at which the first and the last were lost, and how many (R379, R381, R387). -/
structure LostRun where
  tag : Nat
  first : Ns
  last : Ns
  count : Nat
deriving DecidableEq, Repr, Inhabited

/-- A report of a met condition within the coincidence window (R383). -/
structure Report where
  cond : Nat
  time : Nat
  tag : Nat
deriving DecidableEq, Repr, Inhabited

/-- A capture engine (R374 to R399). -/
structure Engine where
  created : Bool := false
  cfg : CaptCfg := { engine := 0, partMib := 0, waveMib := 0, chans := [] }
  base : Nat := 0
  phase : CaptPhase := .disarmed
  pre : Nat := 0
  post : Nat := 0
  clampedCfg : Bool := false
  locked : Option Ns := none
  num : Nat := 0
  /-- Local time at which the engine was armed: TAG 0. -/
  armedAt : Ns := 0
  /-- Rows stored since arming, newest first, at most RING_ROWS, and rows stored and not stored so far. -/
  rows : List Row := []
  rowCount : Nat := 0
  gapCount : Nat := 0
  /-- A run of rows that could not be stored: the tag of the first, and how many. -/
  gapRun : Option (Nat × Nat) := none
  /-- Change records, newest first, at most the ring's size, and how many were written. -/
  chg : List ChgRec := []
  chgCount : Nat := 0
  /-- Records that wait in the FIFO of 4,096, oldest first; a run of lost records that no CHG_GAP record stands for yet (R381, R387). -/
  fifo : List ChgRec := []
  lostRun : Option LostRun := none
  /-- Met conditions that wait to be reported, oldest first (R382). -/
  met : List Report := []
  /-- Local time of the first report, and the coincidence window from then on while it is open. -/
  firstAt : Ns := 0
  window : Bool := false
  reports : List Report := []
  /-- Conditions LEVEL and ROC that now hold (R382). -/
  holding : List Nat := []
  /-- The trigger row's place among the row instants (R383). -/
  trigIdx : Nat := 0
  desc : Descriptor := {}
  /-- The descriptor as the partition holds it: written at the end of the window and at DONE (R389). -/
  written : Option Descriptor := none
  baseDigital : List Bool := []
  baseAnalog : List Num := []
  /-- Last recorded value and time of each analog source, quality of each channel, state of each digital source. -/
  lastAna : List (Num × Ns) := []
  lastQ : List (Nat × Nat) := []
  lastDig : List Bool := []
  waveGaps : Nat := 0
  lost : Nat := 0
  chgFull : Bool := false
  mask : BitVec 64 := 0
  primary : Nat := 0
deriving DecidableEq, Repr, Inhabited

/-- The CAPT block. -/
structure CaptState where
  engines : List Engine := List.replicate 4 {}
  event : W1C := {}
deriving DecidableEq, Repr, Inhabited

/-- A payload: sized fields (bytes, value) where the manual lays it out, or the values alone where the
catalogue does (R404). -/
inductive Payload where
  | sized (f : List (Nat × Nat))
  | values (v : List Int)
deriving DecidableEq, Repr, Inhabited

/-- An event as a block reports it to LOG (R403, R407). -/
structure Event where
  name : Rec
  /-- SOURCE, 0xFFFF when the event has none. -/
  source : Nat := 0xFFFF
  /-- PTP time of the cause; none takes the instant of intake. -/
  time : Option Nat := none
  payload : Payload := .values []
  /-- Snapshot words fixed by the SNT192 (R390). -/
  words : Option (List Word) := none
deriving DecidableEq, Repr, Inhabited

/-- A record (R402). `good`: CHECK is correct over what the slot holds. -/
structure LogRecord where
  seq : Nat := 0
  time : Nat := 0
  tq : Nat := 3
  opsec : Nat := 0
  pwrcyc : Nat := 0
  name : Rec := .logLost
  sev : Severity := .info
  snapPartial : Bool := false
  lastwords : Bool := false
  source : Nat := 0xFFFF
  payload : Payload := .values []
  snap : List Word := []
  good : Bool := true
deriving DecidableEq, Repr, Inhabited

/-- A staging entry with its repeats (R407, R408). -/
structure StageEntry where
  rcd : LogRecord
  count : Nat := 0
  lastTime : Nat := 0
  lastTq : Nat := 3
  lastSnap : List Word := []
  lastPartial : Bool := false
deriving DecidableEq, Repr, Inhabited

/-- Why a tail closes: the CAUSE of LOG_REPEAT (R409). -/
inductive TailCause where
  | another | age | count | lastwords | recovered | epoch
deriving DecidableEq, Repr, Inhabited

/-- The encoding of CAUSE (R409). -/
def TailCause.num : TailCause → Nat
  | .another => 0 | .age => 1 | .count => 2 | .lastwords => 3 | .recovered => 4 | .epoch => 5

/-- The tail of the last committed record: ready (count 0) or open (R409). -/
structure Tail where
  seq : Nat
  name : Rec
  sev : Severity
  source : Nat
  count : Nat := 0
  lastTime : Nat := 0
  lastTq : Nat := 3
  lastSnap : List Word := []
  lastPartial : Bool := false
  openedAt : Ns := 0
deriving DecidableEq, Repr, Inhabited

/-- A running overflow episode, also that before 30 ms (R407, R410). -/
structure Overflow where
  count : Nat := 0
  maxSev : Severity := .info
  firstTime : Nat := 0
  lastTime : Nat := 0
  fName : Rec := .logLost
  fSource : Nat := 0xFFFF
  alarms : Nat := 0
deriving DecidableEq, Repr, Inhabited

/-- A slot pair in MRAM: two members written alternately, each with its update count (R400). -/
structure TailSlot where
  updates : Nat := 0
  isOpen : Bool := false
  tail : Option Tail := none
deriving DecidableEq, Repr, Inhabited

/-- A header member in MRAM (R400). -/
structure LogHeader where
  updates : Nat := 0
  epoch : Nat := 0
  first : Nat := 0
  checkpoint : Nat := 0
  frozenFirst : Nat := 0
  switch : Nat := 0
deriving DecidableEq, Repr, Inhabited

/-- A Hatch (R414, R415). -/
structure Hatch where
  cursor : BitVec 64 := 0
  cursorHi : Word := 0
  stat : Word := 0
deriving DecidableEq, Repr, Inhabited

/-- The LOG block (R400 to R426). -/
structure LogState where
  cfg : LogCfg := {}
  /-- Records in the ring of bank A and of the reserve log, newest first (MRAM). -/
  bankA : List LogRecord := []
  bankB : List LogRecord := []
  headA : List LogHeader := [{}, {}]
  headB : List LogHeader := [{}, {}]
  tailSlots : List TailSlot := [{}, {}]
  epoch : Nat := 0
  next : Nat := 0
  oldest : Nat := 0
  /-- First sequence number of the frozen range, and of the reserve log (R420). -/
  frozenFirst : Nat := 0
  switch : Nat := 0
  reserve : Bool := false
  bankFail : Bool := false
  bothFail : Bool := false
  aonBoth : Bool := false
  aonA : Bool := false
  aonB : Bool := false
  /-- Staging open (30 ms), writer started. -/
  stagingOpen : Bool := false
  ready : Bool := false
  lastwords : Bool := false
  /-- Events reported and not yet taken in, oldest first. -/
  reported : List Event := []
  staging : List StageEntry := []
  peak : Nat := 0
  tail : Option Tail := none
  tailWritten : Ns := 0
  overflow : Option Overflow := none
  /-- Events refused in last-words (R418). -/
  refusedLw : Nat := 0
  lostTotal : Nat := 0
  merged : Nat := 0
  checkFail : Nat := 0
  unselected : Nat := 0
  /-- The CHECK_FAIL window: start, TIME of the first failure, first sequence number, count (R417). -/
  cfWindow : Option (Ns × Nat × Nat × Nat) := none
  hatches : List Hatch := List.replicate 4 {}
  event : W1C := {}
deriving DecidableEq, Repr, Inhabited

end Sys2Proof.Machine
end

