-- ==== Sys2Proof/Cfg/Fio.lean ====
section
/-! DEFINITION. The FIO section of the Manifest (spec/09_field_io.md R310, R330). -/

namespace Sys2Proof

/-- Owners of an output, in the order of FIO_CH_CFG.OWNER (R310, R335). -/
inductive Owner where
  | trip | logic | host
deriving DecidableEq, Repr, Inhabited

/-- The encoding of an owner (R335). -/
def Owner.num : Owner → Nat
  | .trip => 0 | .logic => 1 | .host => 2

/-- SAFE (R322, R335). -/
inductive SafeLevel where
  | off | on | hold
deriving DecidableEq, Repr, Inhabited

/-- The encoding of SAFE (R335). -/
def SafeLevel.num : SafeLevel → Nat
  | .off => 0 | .on => 1 | .hold => 2

/-- MODE with the settings that go with it (R310, R330). Times in ns, currents in µA. -/
inductive ChMode where
  | input (debounce : Ns)
  | output (owner : Owner) (gang : Gang) (safe : SafeLevel) (resumeManual : Bool) (darkPulse : Bool)
      (ovlRetry : Nat) (owOnLevel : Nat)
deriving DecidableEq, Repr, Inhabited

/-- A created channel (R330). -/
structure FioChCfg where
  ch : Nat
  mode : ChMode
  owEnable : Bool := true
  owTime : Ns := msec 100
deriving DecidableEq, Repr, Inhabited

/-- The settings of a group (R330). -/
structure FioGroupCfg where
  group : Nat
  wdTime : Ns := msec 10
  dpWidth : Ns := usec 100
  dpInterval : Ns := secs 1
deriving DecidableEq, Repr, Inhabited

/-- The FIO section. -/
structure FioCfg where
  channels : List FioChCfg := []
  groups : List FioGroupCfg := []
deriving DecidableEq, Repr, Inhabited

end Sys2Proof
end

