-- ==== Sys2Proof/Machine/FioState.lean ====
section
/-! DEFINITION. The state of FIO: twelve field groups and 192 channels (spec/09_field_io.md). -/

namespace Sys2Proof.Machine

open Sys2Proof

/-- The supply levels of a group, in their encoding order (R328, R334). -/
inductive LplusLevel where
  | normal | sag | diagSuspended | undervolt
deriving DecidableEq, Repr, Inhabited

/-- The encoding of a level (R334). -/
def LplusLevel.num : LplusLevel → Nat
  | .normal => 0 | .sag => 1 | .diagSuspended => 2 | .undervolt => 3

/-- An edge record (R314). -/
structure EdgeRec where
  ch : Nat
  level : Bool
  ts : Word
  unsync : Bool := false
deriving DecidableEq, Repr, Inhabited

/-- A scheduled edge (R323, R324). -/
structure SchedEdge where
  /-- Identifier: the mark that sent it. -/
  id : Nat
  ch : Nat
  level : Bool
  /-- PTP time of the edge. -/
  time : Nat
deriving DecidableEq, Repr, Inhabited

/-- A pulse that holds an output off (R326, R327). -/
inductive Pulse where
  | none | dark | probe
deriving DecidableEq, Repr, Inhabited

/-- A field channel (R310 to R337). -/
structure FioCh where
  cfg : Option FioChCfg := none
  /-- First member of a gang, or single (R317). -/
  lead : Bool := true
  level : Bool := false
  cmd : Bool := false
  driven : Bool := false
  /-- Commands on the channel's coupler, oldest first, each with the local time at which it was sent (R309). -/
  sent : List (Bool × Ns) := []
  /-- An input counts as GOOD again from this local time, when its debounce has run after UNDERVOLT (R329). -/
  goodAt : Ns := 0
  /-- The conditions OPEN_WIRE and INDETERMINATE now hold (R325). -/
  openWire : Bool := false
  indeterminate : Bool := false
  /-- Held at SAFE, with the level that stands for HOLD (R321, R322). -/
  safeState : Bool := false
  holdLevel : Bool := false
  heldOff : Bool := false
  /-- An OFF command has come while HELD_OFF, so the next ON releases it (R329). -/
  heldOffSeenOff : Bool := false
  /-- Locked off by OVERLOAD or by a third overtemperature restart, and since when (R319, R320). -/
  lockedOff : Option Ns := none
  lockOverload : Bool := false
  pulse : Pulse := .none
  /-- Local time at which the last dark pulse began, and at which the last scheduled edge was applied (R321, R326). -/
  pulseAt : Option Ns := none
  edgeAt : Option Ns := none
  partner : Option Nat := none
  unsync : Bool := false
  /-- Commanded off since (R319). -/
  offSince : Option Ns := none
  retries : Nat := 0
  overtemp : Bool := false
  /-- Local times of overtemperature restarts (R320). -/
  restarts : List Ns := []
  /-- Output or input current in µA per member, pulse budget B in ms and the local time of its last update (R318). -/
  current : Nat := 0
  budget : Num := 100
  budgetAt : Ns := 0
  pinMv : Int := 0
  lastEdge : Word := 0
  /-- Switching delays of the last 8 switchings on and off, newest first, in ns (R323). -/
  delaysOn : List Ns := []
  delaysOff : List Ns := []
  diag : W1C := {}
deriving DecidableEq, Repr, Inhabited

/-- A field group (R308 to R334). -/
structure FioGroup where
  created : Bool := false
  cfg : FioGroupCfg := { group := 0 }
  /-- Local time of the last valid frame from the field side, and to the field side. -/
  lastRx : Ns := 0
  lastTx : Ns := 0
  lost : Bool := false
  /-- Group coupler alive, handshake done. -/
  link : Bool := false
  accepted : Bool := false
  handshakeFail : Bool := false
  handshakeAt : Ns := 0
  /-- A handshake is due although the field side holds an accepted configuration (R535, R566). -/
  rehandshake : Bool := false
  level : LplusLevel := .undervolt
  undervolt : Bool := true
  overvolt : Bool := false
  recovering : Bool := false
  /-- Since when L+ has been at or above the lower thresholds of NORMAL, SAG and DIAG_SUSPENDED (R328). -/
  riseSince : List (Option Ns) := [none, none, none]
  wdSafe : Bool := false
  /-- The expiry to be logged at the next handshake: TS32 and local time (R322, R562). -/
  expiry : Option (Word × Ns) := none
  syncOk : Bool := false
  /-- An UNSYNC record has been made since the last synchronisation (R314). -/
  unsyncSeen : Bool := false
  lastSync : Ns := 0
  ctrlOvertemp : Bool := false
  diagSuspended : Bool := false
  lplusMv : Nat := 0
  temp : Int := 0
  wdExpiries : Nat := 0
  undervoltEntries : Nat := 0
  edgeLost : Nat := 0
  edgeLostEpisode : Bool := false
  fifoEmptySince : Option Ns := none
  /-- Field-side FIFO of edge records, oldest first, at most 256. -/
  fifo : List EdgeRec := []
  /-- Scheduled edges queued on the field side (at most 16), and those waiting for a slot. -/
  sched : List SchedEdge := []
  schedWait : List SchedEdge := []
deriving DecidableEq, Repr, Inhabited

/-- The FIO block. -/
structure FioState where
  groups : List FioGroup := List.replicate 12 {}
  chans : List FioCh := List.replicate 192 {}
  event : W1C := {}
deriving DecidableEq, Repr, Inhabited

end Sys2Proof.Machine
end

