-- ==== Sys2Proof/Cfg/Form.lean ====
section
/-! DEFINITION. The FORM and GATE sections of the Manifest (spec/07_forming_engine.md R237, R276; spec/08_gate_link.md R303). -/

namespace Sys2Proof

/-- The control rates (R238), in the order of FORM_U_CFG.CTRL_RATE (R280). -/
inductive CtrlRate where
  | k2 | k25 | k4 | k5 | k8 | k10 | k125 | k16 | k20
deriving DecidableEq, Repr, Inhabited

/-- The encoding of a control rate (R280). -/
def CtrlRate.num : CtrlRate → Nat
  | .k2 => 0 | .k25 => 1 | .k4 => 2 | .k5 => 3 | .k8 => 4 | .k10 => 5 | .k125 => 6 | .k16 => 7 | .k20 => 8

/-- The control rate in Hz (R238). -/
def CtrlRate.hz : CtrlRate → Nat
  | .k2 => 2000 | .k25 => 2500 | .k4 => 4000 | .k5 => 5000 | .k8 => 8000 | .k10 => 10000 | .k125 => 12500
  | .k16 => 16000 | .k20 => 20000

/-- The control period Ts in ns (R238). -/
def CtrlRate.ts (r : CtrlRate) : Ns := 1000000000 / r.hz

/-- Where a unit takes its output current (R239). -/
inductive Isrc where
  | bridgeSum
  | channels (c : List Nat)
deriving DecidableEq, Repr, Inhabited

/-- The position of a grid breaker (R276). -/
inductive BreakerInput where
  | field (ch : Nat)
  | goose (sub member : Nat)
deriving DecidableEq, Repr, Inhabited

/-- AUTOSTART (R265). -/
inductive Autostart where
  | none | start | blackStart
deriving DecidableEq, Repr, Inhabited

/-- The encoding of AUTOSTART (R280). -/
def Autostart.num : Autostart → Nat
  | .none => 0 | .start => 1 | .blackStart => 2

/-- Targets of a unit: P, Q, V in pu and f in Hz (R263). -/
structure Targets where
  p : Num := 0
  q : Num := 0
  v : Num := 1
  f : Num := 50
deriving DecidableEq, Repr, Inhabited

/-- Rotor and droop settings (R243, R246). Time constants in s. -/
structure RotorSet where
  h : Num := 5
  d : Num := 50
  tW : Num := 1
  droopP : Num := 4 / 100
  droopQ : Num := 4 / 100
  tPQ : Num := 1 / 100
  fLim : Num := 3
  pRamp : Num := 2 / 10
  fRestore : Num := 0
  bindAbsorb : Ns := msec 20
deriving DecidableEq, Repr, Inhabited

/-- Impedance and loop settings (R247 to R249). -/
structure LoopSet where
  rV : Num := 2 / 100
  xV : Num := 15 / 100
  iTvi : Num := 1
  kTvi : Num := 1 / 2
  xTviMax : Num := 6 / 10
  tviXr : Num := 5
  tviDecay : Num := 5 / 100
  kpv : Num := 1 / 2
  kiv : Num := 50
  kpi : Num := 6 / 10
  kii : Num := 100
  kri : Num := 200
  kaw : Num := 1
  xF : Num := 15 / 100
  bF : Num := 5 / 100
deriving DecidableEq, Repr, Inhabited

/-- Which envelope quantity is used (R257). -/
inductive EnvQty where
  | v1 | vpp
deriving DecidableEq, Repr, Inhabited

/-- Limit and ride-through settings (R250 to R258). Table points are (s, pu). -/
structure FrtSet where
  iLim : Num := 12 / 10
  limHold : Ns := msec 20
  limDampMult : Num := 5
  vFrtIn : Num := 85 / 100
  vFrtOut : Num := 9 / 10
  vHvIn : Num := 11 / 10
  vHvOut : Num := 108 / 100
  tFrtExit : Ns := msec 20
  pRecov : Num := 2
  k1 : Num := 2
  k2 : Num := 2
  negMax : Num := 4 / 10
  iMinF : Num := 1
  vMinF : Num := 1 / 2
  lvrt : List (Num × Num) := [(0, 0), (15 / 100, 0), (3, 85 / 100)]
  hvrt : List (Num × Num) := [(0, 13 / 10), (60, 11 / 10)]
  envQty : EnvQty := .vpp
  envConfirm : Ns := msec 5
  envMemory : Ns := 0
deriving DecidableEq, Repr, Inhabited

/-- State and protection-input settings (R259 to R275). -/
structure UnitPolicy where
  tConnect : Ns := msec 100
  deadV : Num := 5 / 100
  liveV : Num := 8 / 10
  tRamp : Ns := secs 5
  energTimeout : Ns := secs 30
  resync25 : Option Nat := none
  resyncTc : Num := 1
  resyncFmax : Num := 1 / 10
  resyncTimeout : Ns := secs 120
  frtSet : List Nat := []
  islandSet : List Nat := []
  blockSet : List Nat := []
  /-- LOC_ACTION = HOLD_RIDE. -/
  holdRide : Bool := false
  locHoldMax : Ns := secs 1
  /-- BRIDGE_LOSS = CONTINUE. -/
  lossContinue : Bool := false
  minBridges : Nat := 1
  circK : Num := 3 / 10
  circAlarm : Num := 1 / 10
  circTrip : Num := 3 / 10
  autostart : Autostart := .none
  autostartDelay : Ns := secs 30
  logicGrant : Bool := false
deriving DecidableEq, Repr, Inhabited

/-- A forming unit (R237, R239, R276). Voltages in V, powers in VA. -/
structure UnitCfg where
  unit : Nat
  rate : CtrlRate := .k10
  /-- Assigned bridges with their share weights. -/
  bridges : List (Nat × Num)
  sNom : Num
  vNom : Num
  bridgeVNom : Num
  vdcMin : Num
  vdcMax : Num
  vset : List Nat
  isrc : Isrc := .bridgeSum
  gridVset : List Nat := []
  gridBreaker : Option BreakerInput := none
  /-- The Pilot input lies on the same bus as VSET (R262; see the assumption log). -/
  pilotSameBus : Bool := true
  targets : Targets := {}
  rotor : RotorSet := {}
  loops : LoopSet := {}
  frt : FrtSet := {}
  policy : UnitPolicy := {}
deriving DecidableEq, Repr, Inhabited

/-- A gate-link (R303). Times in ns. -/
structure GateCfg where
  bridge : Nat
  port : Nat
  /-- LINE_RATE 2500BASE-X. -/
  fast : Bool := false
  threeLevel : Bool := false
  neutralLeg : Bool := false
  minPulse : Ns := 2000
  delayMax : Ns := 5000
deriving DecidableEq, Repr, Inhabited

end Sys2Proof
end

