-- ==== Sys2Proof/Machine/ProtState.lean ====
section
/-! DEFINITION. The state of PROT: lanes, elements, setting groups, trip outputs, the status vector (spec/05_protection_engine.md, spec/01_architecture_and_profiles.md R18 to R31). -/

namespace Sys2Proof.Machine

open Sys2Proof

/-- A complex number, as phasors are formed (R159). -/
structure Cx where
  re : Num := 0
  im : Num := 0
deriving DecidableEq, Repr, Inhabited

/-- Causes of a block, in the order of BLOCK_CAUSE (R208). -/
inductive BlockCause where
  | none | blockInput | input | uv | zone | nodir
deriving DecidableEq, Repr, Inhabited

/-- The encoding of BLOCK_CAUSE (R208). -/
def BlockCause.num : BlockCause → Nat
  | .none => 0 | .blockInput => 1 | .input => 2 | .uv => 3 | .zone => 4 | .nodir => 5

/-- One phase, or loop, of an element on one lane (R164, R170, R172, R175). Times are counted in evaluations of the element's lane. -/
structure PhaseState where
  /-- Consecutive evaluations with the condition, and past the dropout level. -/
  puRun : Nat := 0
  doRun : Nat := 0
  picked : Bool := false
  /-- Picked up under any of its conditions (R175, R181). -/
  on : Bool := false
  /-- Evaluations since the pickup. -/
  elapsed : Nat := 0
  /-- The time integral of an inverse-time element. -/
  g : Num := 0
  /-- Evaluations for which G ≥ 1 has been followed by pickup (T_ADD), and for which G has been held (RESET_T). -/
  addRun : Nat := 0
  heldFor : Nat := 0
  operate : Bool := false
  /-- Sample check: consecutive qualifying samples, their sign, and samples since the last one. -/
  hsRun : Nat := 0
  hsNeg : Bool := false
  hsPicked : Bool := false
  hsSince : Nat := 0
deriving DecidableEq, Repr, Inhabited

/-- Phases of the reclose sequence of a 79 element (R186). -/
inductive ReclosePhase where
  | idle | dead | waitSync | closing | reclaim | lockout
deriving DecidableEq, Repr, Inhabited

/-- Memory of an element that outlasts one evaluation, beyond its phases (R163, R178, R183 to R186). Times are counted in evaluations. -/
structure ElemMem where
  /-- Frequency estimates still to be averaged, newest first, and averaged frequencies for ROCOF. -/
  estimates : List Num := []
  averaged : List Num := []
  /-- Angles of V1 in degrees, newest first (R163), and dTheta (R185). -/
  angles : List Num := []
  dthetas : List Num := []
  /-- Positive-sequence voltages of the last 2 cycles, newest first, those that are valid; the memory; and per phase or loop the
  evaluations for which its live polarising voltage has been low (R178). -/
  v1hist : List (Option Cx) := []
  memory : Option Cx := none
  memoryFor : List Nat := List.replicate 6 0
  /-- 25: for the synchronous condition and each dead mode, the evaluations since it has been met (R185). -/
  syncRuns : List (Option Nat) := List.replicate 4 none
  /-- 50BF: evaluations since each phase had a sample at or above the detector level. -/
  sinceCurrent : List (Option Nat) := [none, none, none]
  /-- 79: shot number, phase, its timer, and the trip output's last state. -/
  shot : Nat := 0
  reclose : ReclosePhase := .idle
  recloseRun : Nat := 0
  tripWas : Bool := false
deriving DecidableEq, Repr, Inhabited

/-- An element on one lane (R164 to R186, R208). -/
structure ElemLane where
  pickup : Bool := false
  operate : Bool := false
  /-- Evaluations since the element's pickup; `none` while it is not picked up (R165). -/
  run : Option Nat := none
  /-- Phases A, B, C, N or the single quantity; of a 21 element, its six loops. -/
  phases : List PhaseState := List.replicate 6 {}
  mem : ElemMem := {}
  /-- M of the worst phase, and progress 0 to 1 (R200). -/
  m : Num := 0
  progress : Num := 0
  blocked : Bool := false
  cause : BlockCause := .none
  invalid : Bool := false
  questionable : Bool := false
  /-- 0 none, 1 forward, 2 reverse. -/
  dir : Nat := 0
  aux : Bool := false
  limAdapt : Bool := false
  /-- A sample of the window is INVALID on this lane under R18. -/
  sampleBad : Bool := false
deriving DecidableEq, Repr, Inhabited

/-- An element: both lanes and the combined outputs (R21, R191, R208). -/
structure Elem where
  index : Nat
  a : ElemLane := {}
  b : ElemLane := {}
  pickup : Bool := false
  operate : Bool := false
  disagree : Bool := false
  essOff : Bool := false
  /-- The combined outputs as they stood before the present strobe: what other elements see of this one (R166). -/
  wasPickup : Bool := false
  wasOperate : Bool := false
  /-- Local time of the last mismatch of a running episode (R191). -/
  episode : Option Ns := none
  /-- The LOGIC block request (R166). -/
  logicBlock : Bool := false
  /-- The LOGIC or host reset input of a 79 element (R186). -/
  lockoutReset : Bool := false
deriving DecidableEq, Repr, Inhabited

/-- States of a lane in the order of PROT_LANE_STATUS.STATE (R192, R204). -/
inductive LanePhase where
  | in_ | suspect | out
deriving DecidableEq, Repr, Inhabited

/-- The encoding of a lane state (R204). -/
def LanePhase.num : LanePhase → Nat
  | .in_ => 0 | .suspect => 1 | .out => 2

/-- Causes of a lane going OUT, in the order of OUT_CAUSE (R204). -/
inductive OutCause where
  | none | kat | ecc | deadline | samplebad
deriving DecidableEq, Repr, Inhabited

/-- The encoding of OUT_CAUSE (R204). -/
def OutCause.num : OutCause → Nat
  | .none => 0 | .kat => 1 | .ecc => 2 | .deadline => 3 | .samplebad => 4

/-- The recursive sum over the whole terms of a window, and how many they are (R160). -/
structure WinSum where
  sum : Cx := {}
  count : Nat := 0
deriving DecidableEq, Repr, Inhabited

/-- The rings of samples a lane keeps for one channel, newest first, and its window sums: on the fast lane of the full cycle, the half cycle
and the second and fifth harmonic, on the phasor lane of the full cycle (R159, R160). -/
structure Ring where
  chan : ChanRef
  fast : List Sample := []
  phasor : List Sample := []
  full : WinSum := {}
  half : WinSum := {}
  h2 : WinSum := {}
  h5 : WinSum := {}
  slow : WinSum := {}
deriving DecidableEq, Repr, Inhabited

/-- A protection lane (R18, R192, R204). -/
structure Lane where
  phase : LanePhase := .in_
  katPass : Bool := false
  /-- The known-answer test at boot, or that of a LANE_RESTORE since, has passed (R158, R194). -/
  bootKat : Bool := false
  katRunning : Bool := false
  ecc : Bool := false
  deadlineMiss : Bool := false
  /-- Consecutive fast-lane and phasor-lane periods with a miss (R192). -/
  missRun : Nat := 0
  missRunP : Nat := 0
  sampleBad : Nat := 0
  sampleBadRun : Nat := 0
  outCause : OutCause := .none
  /-- A committed LANE_RESTORE waits for the known-answer test, then for the boundary (R194). -/
  restoring : Bool := false
  restoreAtBoundary : Bool := false
  rings : List Ring := []
deriving DecidableEq, Repr, Inhabited

/-- Who requests a setting group, in ascending rank (R188). -/
inductive SgRequester where
  | input | logic | host
deriving DecidableEq, Repr, Inhabited

/-- The rank of a requester (R188). -/
def SgRequester.rank : SgRequester → Nat
  | .input => 0 | .logic => 1 | .host => 2

/-- A request for a setting group (R187, R188). -/
structure SgRequest where
  group : Nat
  by_ : SgRequester
  /-- The berth of a host SG_SELECT. -/
  berth : Option Nat := none
deriving DecidableEq, Repr, Inhabited

/-- A trip output (R22 to R26). -/
structure Trip where
  index : Nat
  e : Bool := false
  trip : Bool := false
  /-- The trip output as it stood before the present strobe. -/
  was : Bool := false
  /-- Local time at which the seal-in of the last rising source ends. -/
  sealEnd : Option Ns := none
  logicMask : Bool := false
  logicAdd : Bool := false
  mEff : Bool := false
  /-- Sources asserting, by their place in the source list. -/
  sources : List Bool := []
deriving DecidableEq, Repr, Inhabited

/-- The status vector (R30, R197): pickup and operate of the visible elements and the sequence number. -/
structure StatusVector where
  seq : Nat := 0
  elems : List (Nat × Bool × Bool) := []
deriving DecidableEq, Repr, Inhabited

/-- What a forming unit publishes to PROT each control cycle (R31, R251). -/
structure UnitPub where
  limiting : Bool := false
  forming : Bool := false
  faultMode : Bool := false
deriving DecidableEq, Repr, Inhabited

/-- The PROT block (R155 to R208). -/
structure ProtState where
  ready : Bool := false
  elems : List Elem := []
  trips : List Trip := []
  laneA : Lane := {}
  laneB : Lane := {}
  essentialOnly : Bool := false
  /-- The active group, 0 for SG1 to 7 for SG8. -/
  group : Nat := 0
  request : Option SgRequest := none
  /-- Berths of host requests that others replaced; they complete at the boundary (R188). -/
  replaced : List Nat := []
  deferred : Bool := false
  deferSince : Ns := 0
  switches : Nat := 0
  unresolved : Nat := 0
  disagreeCount : Nat := 0
  disagreeElem : Nat := 0
  maskIgnored : Nat := 0
  maskIgnoredTrip : Nat := 0
  vector : StatusVector := {}
  /-- What the units published, by unit, as latched at the present fast-lane period (R31). -/
  units : List (Nat × UnitPub) := []
  phSel : Word := 0
  /-- Fast-lane and phasor-lane evaluations so far. -/
  fastCount : Nat := 0
  phasorCount : Nat := 0
  /-- Grid index of the last protection-cycle boundary served, and its local time (R190, R543). -/
  boundary : Nat := 0
  boundaryAt : Ns := 0
  event : W1C := {}
deriving DecidableEq, Repr, Inhabited

/-- Both lanes are OUT (R193). -/
def ProtState.noLane (p : ProtState) : Bool := decide (p.laneA.phase = .out ∧ p.laneB.phase = .out)

/-- A lane of PROT. -/
def ProtState.lane (p : ProtState) : LaneId → Lane
  | .a => p.laneA | .b => p.laneB

/-- Replace a lane of PROT. -/
def ProtState.setLane (p : ProtState) (l : LaneId) (x : Lane) : ProtState :=
  match l with
  | .a => { p with laneA := x }
  | .b => { p with laneB := x }

/-- An element's state on a lane. -/
def Elem.on (e : Elem) : LaneId → ElemLane
  | .a => e.a | .b => e.b

/-- Replace an element's state on a lane. -/
def Elem.setOn (e : Elem) (l : LaneId) (x : ElemLane) : Elem :=
  match l with
  | .a => { e with a := x }
  | .b => { e with b := x }

end Sys2Proof.Machine
end

