-- ==== Sys2Proof/Machine/FormState.lean ====
section
/-! DEFINITION. The state of FORM and GATE: forming units, bridges, gate-links (spec/07_forming_engine.md, spec/08_gate_link.md). -/

namespace Sys2Proof.Machine

open Sys2Proof

/-- The forming states in their encoding order (R259). -/
inductive FormPhase where
  | off | preparing | ready | connecting | energising | formingGrid | formingIsland | rideThrough | resync
  | stopping | hold | blocked
deriving DecidableEq, Repr, Inhabited

/-- The encoding of a forming state (R259). -/
def FormPhase.num : FormPhase → Nat
  | .off => 0 | .preparing => 1 | .ready => 2 | .connecting => 3 | .energising => 4 | .formingGrid => 5
  | .formingIsland => 6 | .rideThrough => 7 | .resync => 8 | .stopping => 9 | .hold => 10 | .blocked => 11

/-- Pulses are enabled in a state (R259). -/
def FormPhase.pulses : FormPhase → Bool
  | .off | .preparing | .ready | .blocked => false
  | _ => true

/-- Limiter states in their encoding order (R251, R281). -/
inductive Limiter where
  | free | tvi | limiting
deriving DecidableEq, Repr, Inhabited

/-- The encoding of a limiter state (R281). -/
def Limiter.num : Limiter → Nat
  | .free => 0 | .tvi => 1 | .limiting => 2

/-- Fault-current modes in their encoding order (R251, R281). -/
inductive FaultMode where
  | none | normal | limit | frt | min
deriving DecidableEq, Repr, Inhabited

/-- The encoding of a fault-current mode (R281). -/
def FaultMode.num : FaultMode → Nat
  | .none => 0 | .normal => 1 | .limit => 2 | .frt => 3 | .min => 4

/-- HOLD_MODE (R275, R281). -/
inductive HoldMode where
  | none | gridFollow | free
deriving DecidableEq, Repr, Inhabited

/-- The encoding of HOLD_MODE (R281). -/
def HoldMode.num : HoldMode → Nat
  | .none => 0 | .gridFollow => 1 | .free => 2

/-- Causes of BLOCKED, one latch per bit of FORM_U_CAUSE [10:0] (R260, R282). -/
inductive FormCause where
  | lockstep | gateLoss | stageFault | dcRange | overrun | circ | protBlock | loc | envelope | energiseFail
  | command
deriving DecidableEq, Repr, Inhabited

/-- The bit of a cause (R282). -/
def FormCause.bit : FormCause → Nat
  | .lockstep => 0 | .gateLoss => 1 | .stageFault => 2 | .dcRange => 3 | .overrun => 4 | .circ => 5
  | .protBlock => 6 | .loc => 7 | .envelope => 8 | .energiseFail => 9 | .command => 10

/-- Where a command comes from: a berth, LOGIC, or the unit itself (R262, R265). -/
inductive CmdFrom where
  | berth (b : Nat)
  | logic
  | self
deriving DecidableEq, Repr, Inhabited

/-- A staged set of targets, each marked STEP or RAMP (R264). -/
structure Staged where
  targets : Targets
  stepP : Bool := false
  stepQ : Bool := false
  stepV : Bool := false
  stepF : Bool := false
deriving DecidableEq, Repr, Inhabited

/-- Commands that wait for a unit's control-cycle boundary (R261 to R264, R272). -/
inductive UnitCmd where
  | start
  | blackStart (mark : Option Nat)
  | resync
  | resyncCancel
  | stop
  | block
  | reset
  | setpoint (t : Targets)
  | stage (st : Staged)
  | restore (br : Nat)
deriving DecidableEq, Repr, Inhabited

/-- The rotor (R243 to R245). -/
structure Rotor where
  f : Num := 0
  fw : Num := 0
  /-- Position while unbound, 48-bit cycle count and 32-bit angle. -/
  pos : BitVec 80 := 0
  /-- Local time of the boundary to which `pos` belongs. -/
  posAt : Ns := 0
  /-- Phase correction φ_c in au, signed, its value at binding and the time of binding. -/
  phiC : Num := 0
  phiStart : Num := 0
  phiAt : Ns := 0
  pf : Num := 0
  qf : Num := 0
  fClamp : Bool := false
deriving DecidableEq, Repr, Inhabited

/-- Controller memories (R246 to R249). -/
structure Loops where
  e : Num := 0
  dX : Num := 0
  xv : Cx := {}
  xi : Cx := {}
  /-- State of the resonant path (R249). -/
  res : Cx := {}
  iRef : Cx := {}
  iPre : Cx := {}
  iRef1 : Num := 0
  iRef2 : Num := 0
  overmod : Bool := false
  /-- Limit in force and the time it started to rise (R258, R276 T_CONNECT). -/
  iLim : Num := 0
  limiter : Limiter := .free
  limHoldEnd : Ns := 0
  faultMode : FaultMode := .none
  limTime : Ns := 0
deriving DecidableEq, Repr, Inhabited

/-- Measurements of a unit at a boundary (R239, R240, R253). -/
structure UnitMeas where
  v1 : Cx := {}
  v2 : Cx := {}
  /-- A cycle has been measured since structure instantiation. -/
  any_ : Bool := false
  /-- The local time at which the voltage set was acquired, the rotor angle then, and the same time of GRID_VSET (R239, R240). -/
  at_ : Ns := 0
  vTheta : Angle := 0
  gridAt : Ns := 0
  v1Mag : Num := 0
  v2Mag : Num := 0
  fPcc : Num := 0
  /-- Phase and phase-to-phase magnitudes of VSET. -/
  vPhase : List Num := []
  vpp : List Num := []
  vDq : Cx := {}
  iO : Cx := {}
  iBr : Cx := {}
  gridV1 : Cx := {}
  gridMag : Num := 0
  gridF : Num := 0
  gridValid : Bool := false
  /-- Since when every phase of VSET has been below DEAD_V (R262). -/
  deadSince : Option Ns := none
deriving DecidableEq, Repr, Inhabited

/-- Ride-through memory (R254 to R258). -/
structure Frt where
  v1Pre : Num := 0
  i1dPre : Num := 0
  i1qPre : Num := 0
  start : Ns := 0
  /-- Local time that the envelope clock counts from (R255). -/
  clock : Ns := 0
  lastEnd : Option Ns := none
  lastElapsed : Ns := 0
  envSince : Option Ns := none
  exitSince : Option Ns := none
  from_ : FormPhase := .off
  islanded : Bool := false
  episodes : Nat := 0
  duration : Nat := 0
  margin : Num := 0
  hv : Bool := false
  envTripEnd : Option Ns := none
deriving DecidableEq, Repr, Inhabited

/-- A forming unit (R237 to R283). -/
structure FormUnit where
  cfg : UnitCfg
  phase : FormPhase := .off
  rotor : Rotor := {}
  loops : Loops := {}
  /-- What the unit published to PROT in its last control cycle (R31). -/
  pub : UnitPub := {}
  meas : UnitMeas := {}
  frt : Frt := {}
  /-- Latched causes of BLOCKED by bit, and the wait bits of PREPARING (R282). -/
  causes : List FormCause := []
  waitLink : Bool := true
  waitDc : Bool := true
  waitStage : Bool := false
  target : Targets := {}
  inForce : Targets := {}
  /-- Targets before RESYNC replaced f_set and V_set (R268). -/
  rampActive : Bool := false
  staged : Option Staged := none
  /-- A FORM_STEP mark has fired and waits for the boundary (R264). -/
  stepDue : Bool := false
  pending : List (UnitCmd × CmdFrom) := []
  startMark : Option Nat := none
  readySince : Option Ns := none
  autoAt : Option Ns := none
  stateSince : Ns := 0
  /-- Ramp progress of ENERGISING, in ns of unpaused time (R266). -/
  rampRun : Ns := 0
  closeReq : Bool := false
  permit : Bool := false
  islandDet : Bool := false
  vector : StatusVector := {}
  vecChanged : Ns := 0
  vecStale : Bool := false
  /-- The last state of BLOCK_SET (R274). -/
  blockSetOp : Bool := false
  holdMode : HoldMode := .none
  holdAt : Ns := 0
  /-- The boundary number, its place on the grid of R238 and its local time; in this cycle: the computation has started, the
downlinks have been handed over, an overrun has been counted (R241, R286). -/
  cycle : Nat := 0
  edge : Nat := 0
  t0 : Ns := 0
  computed : Bool := true
  handed : Bool := true
  overran : Bool := false
  /-- HOLD with the mode GRID_FOLLOW: the rotor angle less ∠V1 at entry (R275). -/
  holdOff : Angle := 0
  overrun : Nat := 0
  overrunRun : Nat := 0
  lockstepTest : Bool := false
  goodRun : Nat := 0
  dcBadRun : Nat := 0
  /-- Committed settings that the unit takes at its next boundary (R263). -/
  newCfg : Option UnitCfg := none
deriving DecidableEq, Repr, Inhabited

/-- A bridge as FORM sees it (R271, R272, R283). -/
structure Bridge where
  unit : Option Nat := none
  weight : Num := 1
  active : Bool := false
  lost : Bool := false
  stageFault : Bool := false
  stageFlags : Nat := 0
  circAlarm : Bool := false
  circSince : Option Ns := none
  /-- Since when the share rises after BRIDGE_RESTORE (R272). -/
  rampSince : Option Ns := none
  share : Num := 0
  losses : Nat := 0
  vdc : Num := 0
  iBr : Cx := {}
  iMag : Num := 0
  iCirc : Num := 0
  zeroSeq : Num := 0
  goodRun : Nat := 0
  badRun : Nat := 0
  indices : List Num := []
deriving DecidableEq, Repr, Inhabited

/-- The FORM block. -/
structure FormState where
  units : List FormUnit := []
  bridges : List Bridge := List.replicate 8 {}
  /-- DEGRADED seen by FORM. -/
  loc : Bool := false
  event : W1C := {}
deriving DecidableEq, Repr, Inhabited

/-- Levels of a leg in their encoding order (R289). -/
inductive LegLevel where
  | off | low | mid | high
deriving DecidableEq, Repr, Inhabited

/-- The encoding of a level (R289). -/
def LegLevel.num : LegLevel → Nat
  | .off => 0 | .low => 1 | .mid => 2 | .high => 3

/-- One leg of a downlink: its start level and at most two transitions (time in gu, level after) (R289). -/
structure Leg where
  start : LegLevel := .off
  trans : List (Nat × LegLevel) := []
deriving DecidableEq, Repr, Inhabited

/-- A downlink as sent (R289). -/
structure Downlink where
  alive : Nat := 0
  block : Bool := true
  repeat_ : Bool := false
  syncValid : Bool := false
  clear : Bool := false
  degraded : Bool := false
  cycle : Nat := 0
  lead : Int := 0
  half : Nat := 0
  falling : Bool := false
  legs : List Leg := []
deriving DecidableEq, Repr, Inhabited

/-- An uplink's fields (R290). Times in gu, values in mV, mA, 0.1 °C. -/
structure Uplink where
  type : Nat := 0xA2
  version : Nat := 1
  bridge : Nat
  alive : Nat
  blocked : Bool := false
  synced : Bool := true
  dlMissed : Bool := false
  faultLatched : Bool := false
  cycle : Nat
  turn : Nat := 0
  faults : Nat := 0
  dlAlive : Nat := 0
  dlArr : Nat := 0
  vdc : Int := 0
  vdcLow : Int := 0
  ia : Int := 0
  ib : Int := 0
  ic : Int := 0
  in_ : Int := 0
  temps : List Int := []
deriving DecidableEq, Repr, Inhabited

/-- A gate-link (R284 to R307). -/
structure GateLink where
  cfg : GateCfg
  up : Bool := false
  alive : Nat := 0
  /-- ALIVE of the last accepted uplink; none right after link-up. -/
  ulAlive : Option Nat := none
  /-- Departures of the downlinks still to be named by an uplink: ALIVE and time in ns (R292). -/
  departures : List (Nat × Num) := []
  /-- The last 64 delay measurements, newest first, in ns. -/
  delays : List Num := []
  d : Num := 0
  syncValid : Bool := false
  syncCount : Nat := 0
  /-- Cycles without a valid uplink (R292). -/
  silent : Nat := 0
  blockSent : Bool := true
  clearLeft : Nat := 0
  last : Downlink := {}
  /-- Levels of the legs at the end of the last half-period. -/
  levels : List LegLevel := [.off, .off, .off, .off]
  /-- The uplink admitted for the boundary just passed. -/
  uplink : Option Uplink := none
  /-- The last valid uplink, for the status register. -/
  lastUp : Option Uplink := none
  delayExceeded : Bool := false
  turnLast : Nat := 0
  turnMax : Nat := 0
  sent : Nat := 0
  repeats : Nat := 0
  good : Nat := 0
  badCheck : Nat := 0
  badOther : Nat := 0
  missing : Nat := 0
  late : Nat := 0
  dlMiss : Nat := 0
  /-- Boundary for which the last downlink left; local time of the last boundary of a port without a unit (R296). -/
  sentFor : Nat := 0
  idleAt : Ns := 0
deriving DecidableEq, Repr, Inhabited

/-- The GATE block. -/
structure GateState where
  links : List GateLink := []
  degraded : Bool := false
  event : W1C := {}
deriving DecidableEq, Repr, Inhabited

end Sys2Proof.Machine
end

