-- ==== Sys2Proof/Cfg/Net.lean ====
section
/-! DEFINITION. The NET section of the Manifest: ports, pairs, plant time, GOOSE and sampled values (spec/13_network_and_time.md R427 to R456). -/

namespace Sys2Proof

/-- Port modes in the order of NET_P_CFG.MODE 1 to 7 (R427, R459). -/
inductive PortMode where
  | fx100 | base1000x | sgmii | base2500x | base10g | gateLink | hostFrame
deriving DecidableEq, Repr, Inhabited

/-- The encoding of a port mode (R459). -/
def PortMode.num : PortMode → Nat
  | .fx100 => 1 | .base1000x => 2 | .sgmii => 3 | .base2500x => 4 | .base10g => 5 | .gateLink => 6 | .hostFrame => 7

/-- The line rate of a mode in Mb/s (R427, R460); SGMII takes its speed from the carrier PHY. -/
def PortMode.mbps : PortMode → Nat
  | .fx100 => 100 | .base1000x => 1000 | .sgmii => 1000 | .base2500x => 2500 | .base10g => 10000
  | .gateLink => 1000 | .hostFrame => 4000

/-- An entry of a gate control list: bit q opens queue q (R435). -/
structure GclEntry where
  gates : BitVec 8
  interval : Ns
deriving DecidableEq, Repr, Inhabited

/-- A gate control list: its entries and BASE_TIME in PTP time; CYCLE_TIME is the sum of the intervals (R435). -/
structure Gcl where
  entries : List GclEntry
  baseTime : Ns := 0
deriving DecidableEq, Repr, Inhabited

/-- CYCLE_TIME (R435). -/
def Gcl.cycleTime (g : Gcl) : Ns := (g.entries.map (·.interval)).sum

/-- Settings of a port (R456). -/
structure PortCfg where
  port : Nat
  mode : PortMode
  an : Bool := false
  pvid : Nat := 1
  defaultPcp : Nat := 0
  ingressFilter : Bool := true
  cutThrough : Bool := true
  /-- Percent of the line rate; 0 is off. -/
  stormLimit : Nat := 0
  gcl : Option Gcl := none
  /-- PTP_EN; `none` is the default: YES on pair ports. -/
  ptpEn : Option Bool := none
  portAsym : Num := 0
  delayIn : Ns := 0
  delayOut : Ns := 0
deriving DecidableEq, Repr, Inhabited

/-- A VLAN: its member ports with egress tagging, and MCAST_FILTER (R431, R432). -/
structure VlanCfg where
  vid : Nat
  members : List (Nat × Bool)
  mcastFilter : Bool := false
deriving DecidableEq, Repr, Inhabited

/-- A static MAC entry (R432). -/
structure StaticMac where
  mac : BitVec 48
  vid : Nat
  ports : List Nat
deriving DecidableEq, Repr, Inhabited

/-- KIND of a pair (R437). -/
inductive PairKind where
  | hsr | prp
deriving DecidableEq, Repr, Inhabited

/-- The encoding of KIND in NET_PAIR_CFG (R457). -/
def PairKind.num : PairKind → Nat
  | .hsr => 1 | .prp => 2

/-- A port pair (R437). -/
structure PairCfg where
  pair : Nat
  kind : PairKind
  first : Nat
  second : Nat
  redbox : Bool := false
  proxies : List Nat := []
deriving DecidableEq, Repr, Inhabited

/-- PTP_ROLE (R442); OC names its one port. -/
inductive PtpRole where
  | oc (port : Nat)
  | ocTc
  | bc
deriving DecidableEq, Repr, Inhabited

/-- The encoding of ROLE (R462). -/
def PtpRole.num : PtpRole → Nat
  | .oc _ => 0 | .ocTc => 1 | .bc => 2

/-- PTP settings (R456). -/
structure PtpCfg where
  role : PtpRole := .ocTc
  domain : Nat := 0
  vid : Option Nat := none
  pcp : Nat := 4
  logSync : Int := 0
  logPdelay : Int := 0
  announceTimeout : Nat := 3
  servoBw : Num := 1 / 10
  slewMaxPpm : Num := 20
  stepLimit : Ns := 10000
  holdRate : Nat := 50
  holdoverMax : Ns := secs 3600
deriving DecidableEq, Repr, Inhabited

/-- Types of a dataset member (R450). -/
inductive MemberType where
  | boolean | bitString | integer | unsigned | float32 | quality | utcTime
deriving DecidableEq, Repr, Inhabited

/-- A member of a subscribed dataset: its type, the Quality member paired with it and its FALLBACK (R450). -/
structure GooseMember where
  ty : MemberType := .boolean
  qualityAt : Option Nat := none
  fallback : Word := 0
deriving DecidableEq, Repr, Inhabited

/-- A GOOSE subscription (R450, R451, R454). -/
structure GooseSub where
  sub : Nat
  dst : BitVec 48
  appid : Nat
  gocbRef : String
  datSet : String
  confRev : Nat
  members : List GooseMember
  testAccept : Bool := false
  simAccept : Bool := false
  /-- GOOSE_RATE (frames/s). -/
  rate : Nat := 1000
deriving DecidableEq, Repr, Inhabited

/-- Sources of the members of a publisher (R452). -/
inductive PubSource where
  | pickup (e : Nat)
  | operate (e : Nat)
  | trip (k : Nat)
  | logicVar (task sym : Nat)
  | input (ch : Nat)
  | unitState (u : Nat)
deriving DecidableEq, Repr, Inhabited

/-- A GOOSE publisher (R452). -/
structure GoosePub where
  pub : Nat
  dst : BitVec 48
  appid : Nat
  gocbRef : String
  datSet : String
  goId : String
  confRev : Nat
  vid : Nat := 1
  pcp : Nat := 4
  members : List PubSource
  minTime : Ns := msec 2
  maxTime : Ns := secs 1
deriving DecidableEq, Repr, Inhabited

/-- An SV subscription: each channel takes a subscribed-channel index (R453). -/
structure SvSub where
  sub : Nat
  dst : BitVec 48
  appid : Nat
  svId : String
  confRev : Nat
  rate : LaneRate
  channels : List Nat
  testAccept : Bool := false
  simAccept : Bool := false
deriving DecidableEq, Repr, Inhabited

/-- noASDU of a stream (R453). -/
def SvSub.noAsdu (s : SvSub) : Nat :=
  match s.rate with
  | .phasor => 2
  | .fast => 6

/-- The addressing, VLAN and priority of a published stream of sampled values (R145). -/
structure SvPubCfg where
  dst : BitVec 48
  appid : Nat
  svId : String
  vid : Nat := 1
  pcp : Nat := 4
deriving DecidableEq, Repr, Inhabited

/-- The NET section (R456). -/
structure NetCfg where
  ports : List PortCfg := []
  vlans : List VlanCfg := []
  ageTime : Ns := secs 300
  staticMacs : List StaticMac := []
  /-- HOST_TX_RATE (Mb/s). -/
  hostTxRate : Nat := 1000
  pairs : List PairCfg := []
  lifeCheck : Ns := secs 2
  ptp : PtpCfg := {}
  gooseSubs : List GooseSub := []
  goosePubs : List GoosePub := []
  svSubs : List SvSub := []
  /-- The published streams, in the order of the ACQ section (R145). -/
  svPubs : List SvPubCfg := []
  /-- Destination and interval bounds of the health GOOSE (R452, R585). -/
  healthDst : BitVec 48 := 0
  healthVid : Nat := 1
  healthPcp : Nat := 4
  healthAppid : Nat := 0
  healthGocbRef : String := ""
  healthMinTime : Ns := msec 2
  healthMaxTime : Ns := secs 1
deriving DecidableEq, Repr, Inhabited

/-- The settings of port `p`, when the section creates it (R427). -/
def NetCfg.port? (c : NetCfg) (p : Nat) : Option PortCfg := c.ports.find? (·.port == p)

/-- The pair that port `p` belongs to (R437). -/
def NetCfg.pairOf? (c : NetCfg) (p : Nat) : Option PairCfg :=
  c.pairs.find? fun k => k.first == p || k.second == p

/-- PTP_EN of a port: its setting, or YES on pair ports (R456). -/
def NetCfg.ptpEn (c : NetCfg) (p : Nat) : Bool :=
  match c.port? p with
  | none => false
  | some q => q.ptpEn.getD (c.pairOf? p).isSome

end Sys2Proof
end

