-- ==== Sys2Proof/Machine/Crc.lean ====
section
/-! DEFINITION. The four CRC algorithms (spec/14_check_values.md R465, R466). -/

namespace Sys2Proof.Machine

open Sys2Proof

/-- CRC algorithms (R465, R478). -/
inductive CrcAlg where
  | crc32c | crc32 | crc16 | crc8
deriving DecidableEq, Repr, Inhabited

/-- Width, polynomial, initial value and final XOR; CRC-32C and CRC-32 reflect input and output (R465). -/
def CrcAlg.width : CrcAlg → Nat
  | .crc32c | .crc32 => 32 | .crc16 => 16 | .crc8 => 8

def CrcAlg.poly : CrcAlg → Nat
  | .crc32c => 0x1EDC6F41 | .crc32 => 0x04C11DB7 | .crc16 => 0x1021 | .crc8 => 0x2F

def CrcAlg.init : CrcAlg → Nat
  | .crc32c | .crc32 => 0xFFFFFFFF | .crc16 => 0xFFFF | .crc8 => 0xFF

def CrcAlg.finalXor : CrcAlg → Nat
  | .crc32c | .crc32 => 0xFFFFFFFF | .crc16 => 0 | .crc8 => 0xFF

def CrcAlg.reflected : CrcAlg → Bool
  | .crc32c | .crc32 => true | .crc16 | .crc8 => false

/-- The lowest `w` bits of `n` in reverse order. -/
def revBits : Nat → Nat → Nat
  | 0, _ => 0
  | w + 1, n => (n % 2) * 2 ^ w + revBits w (n / 2)

/-- One bit of the register (R465). -/
def crcBit (w poly reg : Nat) : Nat :=
  let s := 2 * reg % 2 ^ w
  if 2 ^ (w - 1) ≤ reg then s ^^^ poly else s

/-- `k` bits of the register. -/
def crcBits (w poly : Nat) : Nat → Nat → Nat
  | 0, reg => reg
  | k + 1, reg => crcBits w poly k (crcBit w poly reg)

/-- One byte is fed (R465). -/
def CrcAlg.byte (a : CrcAlg) (reg : Nat) (b : BitVec 8) : Nat :=
  let d := if a.reflected then revBits 8 b.toNat else b.toNat
  crcBits a.width a.poly 8 (reg ^^^ (d * 2 ^ (a.width - 8)))

/-- The register after the bytes, before reflection of the output and the final XOR (R474). -/
def CrcAlg.feed (a : CrcAlg) (reg : Nat) (l : List (BitVec 8)) : Nat := l.foldl a.byte reg

/-- The finished value of a register (R465). -/
def CrcAlg.finish (a : CrcAlg) (reg : Nat) : Nat := (if a.reflected then revBits a.width reg else reg) ^^^ a.finalXor

/-- The check value of a block of bytes (R465, R466). -/
def CrcAlg.check (a : CrcAlg) (l : List (BitVec 8)) : Nat := a.finish (a.feed a.init l)

/-- The `n` bytes of a number, little-endian. -/
def leBytes : Nat → Nat → List (BitVec 8)
  | 0, _ => []
  | n + 1, v => BitVec.ofNat 8 v :: leBytes n (v / 256)

/-- The big-endian bytes of a number. -/
def beBytes (n v : Nat) : List (BitVec 8) := (leBytes n v).reverse

/-- The number that little-endian bytes stand for. -/
def ofLe : List (BitVec 8) → Nat
  | [] => 0
  | b :: l => b.toNat + 256 * ofLe l

end Sys2Proof.Machine
end

