-- ==== Sys2Proof/Cfg/Diff.lean ====
section
/-! DEFINITION. The DIFF section of the Manifest (spec/06_differential_sum_frames.md R209, R231). -/

namespace Sys2Proof

/-- The ring that carries a zone (R211). -/
inductive ZoneRing where
  | hsr (pair : Nat)
  | adeid
deriving DecidableEq, Repr, Inhabited

/-- An own current set: three phase channels, polarity and scale (R209). -/
structure ZoneCset where
  ch : List ChanRef
  positive : Bool := true
  cscale : Num := 1
deriving DecidableEq, Repr, Inhabited

/-- The own voltage set (R209). -/
structure ZoneVset where
  ch : List ChanRef
  vscale : Num := 1
deriving DecidableEq, Repr, Inhabited

/-- A zone declaration (R209, R231). -/
structure ZoneCfg where
  zoneId : Nat
  members : List Nat
  /-- Pairs of member index and HEAD_RANK. -/
  heads : List (Nat × Nat) := [(0, 0)]
  ring : ZoneRing
  groupMac : Nat := 0
  vid : Nat := 0
  iBase : Num
  vBase : Num
  csets : List ZoneCset := []
  vset : Option ZoneVset := none
  bChg : Num := 0
  launch : Ns
  /-- ZONE_DEADLINE; `none` takes ZONE_LAUNCH + 1,500 µs. -/
  deadline : Option Ns := none
  unblockCount : Nat := 12
  headLossCount : Nat := 3
  etherType : Nat := 0x88B5
deriving DecidableEq, Repr, Inhabited

/-- ZONE_DEADLINE in force (R231). -/
def ZoneCfg.deadlineNs (z : ZoneCfg) : Ns := z.deadline.getD (z.launch + usec 1500)

end Sys2Proof
end

