-- ==== Sys2Proof/Machine/DiffState.lean ====
section
/-! DEFINITION. The state of DIFF: sum frames, the history of contributions, zones (spec/06_differential_sum_frames.md). -/

namespace Sys2Proof.Machine

open Sys2Proof

/-- A sum frame, field by field (R216). CHECK and TCHECK are computed from the fields by every sender;
a received frame carries whether each was valid. -/
structure SumFrame where
  turn : Nat := 0
  hops : Nat := 0
  copyB : Bool := false
  zoneId : Nat
  headDev : Nat
  headRank : Nat
  alive : Nat
  nmemb : Nat
  sec : Nat
  idx : Nat
  cfgTag : BitVec 16
  contrib : BitVec 64 := 0
  chgMask : BitVec 64 := 0
  /-- Re and Im for phases A, B, C, in Q15.16. -/
  sum : List Int := [0, 0, 0, 0, 0, 0]
  restr : List Int := [0, 0, 0]
  uncomp : Int := 0
  lap2 : Bool := false
  incomplete : Bool := false
  sat : Bool := false
  convDev : Nat := 0
  convTurn : Nat := 0xFF
deriving DecidableEq, Repr, Inhabited

/-- A sum frame as it leaves a port of an HSR pair: the zone's group address, VID and SUM_ETHERTYPE, and whether it is spoilt (R215, R217). -/
structure SumTx where
  frame : SumFrame
  group : Nat := 0
  vid : Nat := 0
  etherType : Nat := 0x88B5
  spoilt : Bool := false
deriving DecidableEq, Repr, Inhabited

/-- One lane's contribution: 12 integers in Q15.16 for phases A, B, C (Re, Im, Rs, and their phase), with validity (R212, R213). -/
structure Contribution where
  re : List Int := []
  im : List Int := []
  rs : List Int := []
  vValid : Bool := false
  /-- Every current phasor used was not INVALID. -/
  valid : Bool := false
deriving DecidableEq, Repr, Inhabited

/-- An entry of the DIFF history: the sum instant, and each lane's contribution to each zone slot (R214). -/
structure DiffEntry where
  sec : Nat
  idx : Nat
  laneA : List Contribution := []
  laneB : List Contribution := []
deriving DecidableEq, Repr, Inhabited

/-- States of a zone in the order of DIFF_Z_STATUS.STATE (R227, R236). -/
inductive ZonePhase where
  | off | joining | healthy | blocked
deriving DecidableEq, Repr, Inhabited

/-- The encoding of a zone state (R236). -/
def ZonePhase.num : ZonePhase → Nat
  | .off => 0 | .joining => 1 | .healthy => 2 | .blocked => 3

/-- Causes of BLOCKED in the order of BLOCK_CAUSE (R236). -/
inductive ZoneCause where
  | none | incomplete | noFrame | ptp | cfg | degraded | sat
deriving DecidableEq, Repr, Inhabited

/-- The encoding of a zone's block cause (R236). -/
def ZoneCause.num : ZoneCause → Nat
  | .none => 0 | .incomplete => 1 | .noFrame => 2 | .ptp => 3 | .cfg => 4 | .degraded => 5 | .sat => 6

/-- Causes of a withheld contribution, in their encoding order (R232). -/
inductive WithheldCause where
  | none | ptp | plant | degraded | invalid | lane | nohist | notready | cfg
deriving DecidableEq, Repr, Inhabited

/-- The encoding of a cause (R232). -/
def WithheldCause.num : WithheldCause → Nat
  | .none => 0 | .ptp => 1 | .plant => 2 | .degraded => 3 | .invalid => 4 | .lane => 5 | .nohist => 6
  | .notready => 7 | .cfg => 8

/-- Totals taken for evaluation (R222, R225). -/
structure ZoneTotals where
  sec : Nat
  idx : Nat
  sum : List Int
  restr : List Int
  uncomp : Int
  chgMask : BitVec 64
  contrib : BitVec 64
  headDev : Nat
  headRank : Nat
  /-- Local time of receipt. -/
  at_ : Ns
deriving DecidableEq, Repr, Inhabited

/-- What a zone keeps of a sum instant until it is decided (R222). -/
structure ZoneInstant where
  sec : Nat
  idx : Nat
  /-- PTP time of the instant. -/
  time : Nat
  done : Bool := false
  /-- Copies that arrived incomplete or saturated: the head, and whether it was copy B. -/
  bad : List (Nat × Bool) := []
  sat : Bool := false
  anyFrame : Bool := false
  /-- A frame with the own CFG_TAG, and one with another, arrived. -/
  cfgOk : Bool := false
  cfgBad : Bool := false
  contrib : BitVec 64 := 0
  /-- This member has added to a frame of the instant (R236). -/
  added : Bool := false
deriving DecidableEq, Repr, Inhabited

/-- A zone slot (R209, R222 to R229, R232, R235, R236). -/
structure Zone where
  cfg : ZoneCfg
  /-- The own member index; none on a device that is no member (R209). -/
  member : Option Nat := none
  cfgTag : BitVec 16 := 0
  phase : ZonePhase := .off
  cause : ZoneCause := .none
  unblockLeft : Nat := 0
  missing : BitVec 64 := 0
  heading : Bool := false
  contributing : Bool := false
  chgUncomp : Bool := false
  curHeadRank : Nat := 0
  curHeadDev : Nat := 0
  /-- Launch times that have passed since a first-lap frame of a lower rank (R223). -/
  quiet : Nat := 0
  /-- A lower-rank head's frame was seen: stop launching from the next instant (R224). -/
  stepDown : Bool := false
  /-- Consecutive instants whose every frame carried another CFG_TAG (R227). -/
  cfgRun : Nat := 0
  instants : List ZoneInstant := []
  totals : List ZoneTotals := []
  last : Option ZoneTotals := none
  frames : Nat := 0
  blocks : Nat := 0
  withheld : Nat := 0
  withheldCause : WithheldCause := .none
  /-- Frames admitted in the present sum interval, per ring port (R229). -/
  admitted : List Nat := [0, 0, 0, 0]
  /-- The last instant launched, as SEC × 1,200 + SUM_IDX. -/
  launched : Option Nat := none
deriving DecidableEq, Repr, Inhabited

/-- The DIFF block (R209 to R236). -/
structure DiffState where
  zones : List Zone := []
  hist : List DiffEntry := []
  ptpJoin : Bool := false
  ptpErr : Num := 0
  passOnly : Bool := false
  checkFail : Nat := 0
  aliveBad : Nat := 0
  cfgBad : Nat := 0
  late : Nat := 0
  refused : Nat := 0
  hopLimit : Nat := 0
  turns : Nat := 0
  event : W1C := {}
deriving DecidableEq, Repr, Inhabited

end Sys2Proof.Machine
end

