-- ==== Sys2Proof/Machine/NetState.lean ====
section
/-! DEFINITION. The state of NET, PTP and CHK (spec/13_network_and_time.md, spec/14_check_values.md). -/

namespace Sys2Proof.Machine

open Sys2Proof

/-- An Announce (R441, R442): the grandmaster's dataset, the sender's distance to it, and totalTimeInaccuracy. -/
structure Announce where
  gmId : BitVec 64
  priority1 : Nat := 128
  clockClass : Nat := 6
  accuracy : Nat := 0x21
  variance : Nat := 0
  priority2 : Nat := 128
  steps : Nat := 0
  sender : BitVec 80 := 0
  inacc : Option Nat := none
  domain : Nat := 0
  /-- 2^logAnnounceInterval s. -/
  interval : Ns := secs 1
deriving DecidableEq, Repr, Inhabited

/-- A PTP message (R441, R444). Corrections in ns. -/
inductive PtpMsg where
  | sync (portId : BitVec 80) (seq : Nat) (twoStep : Bool) (corr : Num)
  | followUp (portId : BitVec 80) (seq : Nat) (corr : Num)
  | announce (a : Announce)
  | peerDelay
  | endToEnd
  | management
deriving DecidableEq, Repr, Inhabited

/-- What a frame carries, as far as the switch must know it (R430 to R440, R455). -/
inductive FrameKind where
  | plain
  | goose (appid : Nat) (ref : String)
  | sv (appid : Nat) (id : String)
  | ptp (m : PtpMsg)
  | sum
  | supervision
deriving DecidableEq, Repr, Inhabited

/-- A redundancy tag or trailer: its sequence number and whether it carries the LAN identifier of its port (R438). -/
structure RedTag where
  seq : Nat
  lanOk : Bool := true
deriving DecidableEq, Repr, Inhabited

/-- A frame on the fabric (R430 to R438). -/
structure Frame where
  dst : BitVec 48
  src : BitVec 48
  /-- VID of the tag; `none` untagged, `some 0` priority-tagged. -/
  vid : Option Nat := none
  pcp : Nat := 0
  /-- Length in bytes with tags and FCS. -/
  len : Nat := 64
  kind : FrameKind := .plain
  red : Option RedTag := none
  /-- The FCS with which the frame ends is inverted (R430). -/
  fcsBad : Bool := false
deriving DecidableEq, Repr, Inhabited

/-- A frame waiting in an egress queue. -/
structure Queued where
  frame : Frame
  at_ : Ns := 0
  held : Bool := false
deriving DecidableEq, Repr, Inhabited

/-- A port of the switch (R428 to R435, R457, R460). -/
structure Port where
  port : Nat
  link : Bool := false
  /-- NET_P_STATUS.SPEED. -/
  speed : Nat := 0
  adminDown : Bool := false
  linkChanges : Nat := 0
  rxFrames : Word := 0
  txFrames : Word := 0
  fcsErr : Nat := 0
  drops : Nat := 0
  filtered : Nat := 0
  gateHold : Nat := 0
  /-- The 8 egress queues, 0 to 7, oldest frame first. -/
  queues : List (List Queued) := List.replicate 8 []
  /-- The port sends until this local time. -/
  busyUntil : Ns := 0
  /-- The gate list: entry in force, its end in PTP time, and whether BASE_TIME has passed. -/
  gclActive : Bool := false
  gclEntry : Nat := 0
  gclEnd : Ns := 0
  /-- A step makes the list restart at this PTP time (R435). -/
  gclRestart : Option Ns := none
  /-- Octets of capped traffic received in the present second of the storm limit. -/
  stormBits : Nat := 0
  stormAt : Ns := 0
deriving DecidableEq, Repr, Inhabited

/-- A learnt MAC entry; a pair is learnt under its first port (R432). -/
structure MacEntry where
  mac : BitVec 48
  vid : Nat
  port : Nat
  seen : Ns
deriving DecidableEq, Repr, Inhabited

/-- A duplicate-discard entry (R438). -/
structure DupEntry where
  src : BitVec 48
  seq : Nat
  /-- Port of the first copy, and whether the second has come. -/
  port : Nat
  at_ : Ns
  both : Bool := false
deriving DecidableEq, Repr, Inhabited

/-- A node of the nodes table (R439). -/
structure NodeEntry where
  mac : BitVec 48
  seen : Ns
deriving DecidableEq, Repr, Inhabited

/-- A port pair (R437 to R439, R457). -/
structure Pair where
  pair : Nat
  open_ : Bool := false
  /-- Sequence number of the device's own frames on the pair. -/
  seq : Nat := 0
  dups : Word := 0
  evict : Nat := 0
  wrongLan : Nat := 0
  onlyFirst : Nat := 0
  onlySecond : Nat := 0
  table : List DupEntry := []
  nodes : List NodeEntry := []
  proxies : List NodeEntry := []
  /-- Last supervision frame sent, and last one (own on HSR, any on PRP) received on each port. -/
  lifeSent : Ns := 0
  lifeFirst : Ns := 0
  lifeSecond : Ns := 0
  /-- Local time at which the device's own supervision frame last returned (R457). -/
  ownBack : Option Ns := none
deriving DecidableEq, Repr, Inhabited

/-- The value of a dataset member as received (R450). -/
structure MemberVal where
  value : Word := 0
  quality : Quality := .invalid
deriving DecidableEq, Repr, Inhabited

/-- A GOOSE frame as decoded (R450, R451). A Quality member's value is its validity: 0 good, 1 invalid, 2 reserved, 3 questionable. -/
structure GooseFrame where
  dst : BitVec 48
  appid : Nat
  gocbRef : String
  datSet : String
  confRev : Nat
  numEntries : Nat
  ndsCom : Bool := false
  stNum : BitVec 32
  sqNum : BitVec 32
  test : Bool := false
  simulation : Bool := false
  tal : Ns
  values : List Word
deriving DecidableEq, Repr, Inhabited

/-- A token bucket; the fill is kept in parts of a token per nanosecond (R454). -/
structure Bucket where
  tokens : Num := 0
  at_ : Ns := 0
  /-- Time of the last refusal by rate. -/
  refusedAt : Option Ns := none
deriving DecidableEq, Repr, Inhabited

/-- A GOOSE subscription (R450, R451, R457). -/
structure Gsub where
  sub : Nat
  valid : Bool := false
  values : List MemberVal := []
  stNum : BitVec 32 := 0
  sqNum : BitVec 32 := 0
  /-- A frame has been accepted, and the next is accepted whatever its stNum. -/
  anyNext : Bool := true
  cfgBad : Bool := false
  talExpired : Bool := false
  tal : Ns := 0
  discarded : Nat := 0
  rateRefused : Nat := 0
  lastRx : Option Ns := none
  lastTs : Word := 0
  bucket : Bucket := {}
deriving DecidableEq, Repr, Inhabited

/-- A GOOSE publisher (R452). -/
structure Gpub where
  pub : Nat
  stNum : BitVec 32 := 1
  sqNum : BitVec 32 := 0
  sent : Word := 0
  interval : Ns := 0
  nextAt : Option Ns := none
  values : List Word := []
  /-- Event time t of the last change, in PTP time. -/
  changeAt : Nat := 0
  /-- Fast-lane instant of the last change, since changes within one period are one change. -/
  changeIdx : Option Nat := none
deriving DecidableEq, Repr, Inhabited

/-- NET_SVSUB_STATUS (R457). -/
inductive SvPhase where
  | waiting | receiving | lost
deriving DecidableEq, Repr, Inhabited

/-- The encoding of the phase of a stream (R457). -/
def SvPhase.num : SvPhase → Nat
  | .waiting => 1 | .receiving => 2 | .lost => 3

/-- A sample of an ASDU: INT32 value with its validity and details (R453). -/
structure AsduSample where
  value : BitVec 32
  validity : Quality := .good
  overflow : Bool := false
  inaccurate : Bool := false
  failure : Bool := false
  otherDetail : Bool := false
  test : Bool := false
deriving DecidableEq, Repr, Inhabited

/-- An ASDU (R453). -/
structure Asdu where
  smpCnt : Nat
  smpSynch : Nat
  samples : List AsduSample
deriving DecidableEq, Repr, Inhabited

/-- An SV frame as decoded (R453). -/
structure SvFrame where
  dst : BitVec 48
  appid : Nat
  svId : String
  confRev : Nat
  noAsdu : Nat
  test : Bool := false
  simulation : Bool := false
  asdus : List Asdu
deriving DecidableEq, Repr, Inhabited

/-- An SV subscription (R453, R457). -/
structure Svsub where
  sub : Nat
  phase : SvPhase := .waiting
  smpSynch : Nat := 0
  cfgBad : Bool := false
  missing : Nat := 0
  discarded : Nat := 0
  rateRefused : Nat := 0
  lastRx : Option Ns := none
  lastTs : Word := 0
  lastCnt : Option Nat := none
  /-- smpCnt values accepted within the last second, with their times. -/
  seen : List (Nat × Ns) := []
  bucket : Bucket := {}
deriving DecidableEq, Repr, Inhabited

/-- A Sync held for its Follow_Up on an egress port (R444). -/
structure FollowEntry where
  egress : Nat
  portId : BitVec 80
  seq : Nat
  corr : Num
  at_ : Ns
deriving DecidableEq, Repr, Inhabited

/-- The frames the device sends of its own accord, in order, for a reader of the fabric. -/
inductive SentFrame where
  | goose (pub t : Nat) (stNum sqNum : BitVec 32) (tal : Ns) (values : List Word)
  | health (t : Nat) (stNum sqNum : BitVec 32) (tal : Ns) (values : List Word)
  | supervision (pair : Nat) (seq : Nat)
  | pdelayReq (port : Nat)
  | pdelayResp (port : Nat)
  | sync (port : Nat)
  | announce (port : Nat) (clockClass stepsRemoved : Nat) (inacc : Option Nat)
  | followUp (port : Nat) (corr : Num)
  | syncTc (port : Nat) (corr : Num)
  | sum (port : Nat) (f : SumTx)
  | sv (pub synch : Nat) (asdus : List PubAsdu)
deriving DecidableEq, Repr, Inhabited

/-- The state of NET (R457). -/
structure NetState where
  event : W1C := {}
  intakeOpen : Bool := false
  fabricDegraded : Bool := false
  intakeRefused : Nat := 0
  rateSv : Nat := 0
  rateGoose : Nat := 0
  notLearnt : Nat := 0
  macs : List MacEntry := []
  ports : List Port := []
  pairs : List Pair := []
  gsubs : List Gsub := []
  gpubs : List Gpub := []
  svsubs : List Svsub := []
  /-- The health publisher (R452, R585). -/
  health : Gpub := { pub := 64 }
  /-- The frames that the device has sent of its own accord, oldest first. -/
  sent : List SentFrame := []
deriving DecidableEq, Repr, Inhabited

/-- PTP_STATUS.STATE (R447, R462). -/
inductive PtpPhase where
  | off | listening | tracking | holdover | free
deriving DecidableEq, Repr, Inhabited

/-- The encoding of the PTP state (R462). -/
def PtpPhase.num : PtpPhase → Nat
  | .off => 0 | .listening => 1 | .tracking => 2 | .holdover => 3 | .free => 4

/-- A PTP port (R461, R464). -/
structure PtpPort where
  port : Nat
  portState : Nat := 0
  meanDelay : Option Num := none
  tcActive : Bool := false
  twoStepRx : Bool := false
  corrected : Nat := 0
  discarded : Nat := 0
  pdelayAt : Ns := 0
  syncAt : Ns := 0
  announceAt : Ns := 0
  /-- The Announce that stands on the port, and the local time of its receipt (R442). -/
  ann : Option Announce := none
  annRx : Ns := 0
deriving DecidableEq, Repr, Inhabited

/-- A slew in progress (R445). -/
structure Slew where
  start : Ns
  length : Ns
  offset : Num
deriving DecidableEq, Repr, Inhabited

/-- The state of PTP (R445 to R448, R461 to R464). -/
structure PtpState where
  event : W1C := {}
  phase : PtpPhase := .off
  locked : Bool := false
  timeKnown : Bool := false
  degraded : Bool := false
  slavePort : Nat := 63
  slew : Option Slew := none
  offsetLast : Num := 0
  /-- e_last of the last accepted Sync before any slew closed a part of it, and its time t_last. -/
  eLast : Num := 0
  tLast : Ns := 0
  /-- A Sync has been accepted since power-up. -/
  synced : Bool := false
  /-- Consecutive accepted Syncs with |e| within 1 µs. -/
  lockRun : Nat := 0
  candidate : Option Num := none
  outlierLogAt : Option Ns := none
  servoPpm : Num := 0
  /-- Offsets measured by the servo since it last started, newest first (its history). -/
  history : List Num := []
  /-- Servo rates of the last 16 Sync intervals, newest first (R447). -/
  rates : List Num := []
  steps : Nat := 0
  outliers : Nat := 0
  lastStep : Num := 0
  gmId : BitVec 64 := 0
  /-- The Announce of the parent, or of the last one (R442). -/
  parent : Option Announce := none
  gmInacc : Option Nat := none
  gmSteps : Nat := 0
  gmClass : Nat := 0
  /-- logSyncInterval last received from the master (R447). -/
  logSync : Int := 0
  holdSince : Ns := 0
  /-- Local time of the last accepted Sync. -/
  syncAt : Ns := 0
  ports : List PtpPort := []
  follow : List FollowEntry := []
  followLost : Nat := 0
deriving DecidableEq, Repr, Inhabited

/-- ERR of a host engine (R479). -/
inductive ChkErr where
  | none | readFailed | range | poisoned
deriving DecidableEq, Repr, Inhabited

/-- The encoding of ERR (R479). -/
def ChkErr.num : ChkErr → Nat
  | .none => 0 | .readFailed => 1 | .range => 2 | .poisoned => 3

/-- A host engine (R473, R474, R476). -/
structure ChkEngine where
  ctrl : Word := 0
  addrLo : Word := 0
  addrHi : Word := 0
  len : Word := 0
  raw : Word := 0
  result : Word := 0
  /-- The register value the run started with. -/
  start : Nat := 0
  busy : Bool := false
  done : Bool := false
  err : ChkErr := .none
deriving DecidableEq, Repr, Inhabited

/-- The state of CHK (R476, R477). -/
structure ChkState where
  event : W1C := {}
  resync : Nat := 0
  skip : Nat := 0
  stale : Nat := 0
  busyWr : Nat := 0
  busyWrEngine : Nat := 0
  katOk : Bool := false
  katAt : Ns := 0
  pathFail : List Nat := List.replicate 10 0
  engines : List ChkEngine := List.replicate 8 {}
deriving DecidableEq, Repr, Inhabited

end Sys2Proof.Machine
end

