-- ==== Sys2Proof/Machine/SumWire.lean ====
section
/-! DEFINITION. A sum frame as bytes, with its check values (spec/06_differential_sum_frames.md R215, R216). -/

namespace Sys2Proof.Machine

open Sys2Proof

/-- The big-endian bytes of a signed number of 4 bytes. -/
def beSigned (x : Int) : List (BitVec 8) := beBytes 4 (x % 2 ^ 32).toNat

/-- Offsets 2 to 77 of a sum frame (R216). -/
def SumFrame.body (f : SumFrame) : List (BitVec 8) :=
  beBytes 1 1 ++ beBytes 1 (if f.copyB then 1 else 0) ++ beBytes 2 f.zoneId ++ beBytes 2 (f.headDev % 2 ^ 14 + f.headRank * 2 ^ 14) ++
    beBytes 1 f.alive ++ beBytes 1 f.nmemb ++ beBytes 4 f.sec ++ beBytes 2 f.idx ++ beBytes 2 f.cfgTag.toNat ++ beBytes 8 f.contrib.toNat ++
    beBytes 8 f.chgMask.toNat ++ f.sum.flatMap beSigned ++ f.restr.flatMap beSigned ++ beSigned f.uncomp ++
    beBytes 1 ((if f.lap2 then 1 else 0) + (if f.incomplete then 2 else 0) + (if f.sat then 4 else 0)) ++ beBytes 1 0 ++
    beBytes 2 (f.convDev % 2 ^ 14)

/-- CHECK: the CRC-32C over offsets 2 to 77 (R216). -/
def SumFrame.check (f : SumFrame) : Word := BitVec.ofNat 32 (CrcAlg.crc32c.check f.body)

/-- TCHECK: the CRC-8 over TURN, HOPS and CONV_TURN (R216). -/
def SumFrame.tcheck (f : SumFrame) : BitVec 8 := BitVec.ofNat 8 (CrcAlg.crc8.check (beBytes 1 f.turn ++ beBytes 1 f.hops ++ beBytes 1 f.convTurn))

/-- The 84 bytes of a sum frame; one that is spoilt ends with an inverted CHECK (R216, R217). -/
def SumFrame.wire (f : SumFrame) (spoilt : Bool) : List (BitVec 8) :=
  beBytes 1 f.turn ++ beBytes 1 f.hops ++ f.body ++ beBytes 4 (if spoilt then ~~~f.check else f.check).toNat ++ beBytes 1 f.convTurn ++
    [f.tcheck]

/-- An Ethernet frame that carries a sum frame, without preamble and FCS: the zone's group address, the sender's address, the 802.1Q tag with
priority 7 and the zone's VID, SUM_ETHERTYPE and the 84 bytes (R215). -/
def SumTx.bytes (x : SumTx) (src : BitVec 48) : List (BitVec 8) :=
  beBytes 6 x.group ++ beBytes 6 src.toNat ++ beBytes 2 0x8100 ++ beBytes 2 (7 * 2 ^ 13 + x.vid) ++ beBytes 2 x.etherType ++
    x.frame.wire x.spoilt

/-- The FCS of it, invalid in a spoilt frame (R215, R217). -/
def SumTx.fcs (x : SumTx) (src : BitVec 48) : Word :=
  let c := BitVec.ofNat 32 (CrcAlg.crc32.check (x.bytes src))
  if x.spoilt then ~~~c else c

end Sys2Proof.Machine
end

