-- ==== Sys2Proof/Machine/GateWire.lean ====
section
/-! DEFINITION. The frames of a gate-link as bytes, with their check values (spec/08_gate_link.md R285, R288 to R290). -/

namespace Sys2Proof.Machine

open Sys2Proof

/-- A time of a transition, all ones for none (R289). -/
def legTime (l : Leg) (i : Nat) : Nat := ((l.trans[i]?).map (·.1)).getD (2 ^ 32 - 1)

/-- A level of a leg after a transition; without one, OFF (R289). -/
def legLevel (l : Leg) (i : Nat) : Nat := ((l.trans[i]?).map fun x => x.2.num).getD 0

/-- The 12 bytes of a leg (R289). -/
def Leg.bytes (l : Leg) : List (BitVec 8) :=
  beBytes 1 l.start.num ++ beBytes 1 (legLevel l 0) ++ beBytes 1 (legLevel l 1) ++ beBytes 1 0 ++ beBytes 4 (legTime l 0) ++ beBytes 4 (legTime l 1)

/-- Offsets 0 to 67 of a downlink of a bridge (R289). -/
def Downlink.body (d : Downlink) (c : GateCfg) : List (BitVec 8) :=
  beBytes 1 0xA1 ++ beBytes 1 (16 + c.bridge) ++ beBytes 1 d.alive ++
    beBytes 1 (d.block.toNat + 2 * d.repeat_.toNat + 4 * d.syncValid.toNat + 8 * d.clear.toNat + 16 * d.degraded.toNat) ++ beBytes 4 d.cycle ++
    beSigned d.lead ++ beBytes 4 d.half ++ beBytes 1 (d.falling.toNat + 2 * c.threeLevel.toNat + 4 * c.neutralLeg.toNat) ++ beBytes 3 0 ++
    ((List.range 4).map fun k => (nth d.legs k {}).bytes).flatten

/-- The 72 bytes of a downlink, with CHECK, the CRC-32C over offsets 0 to 67 (R288, R289). -/
def Downlink.bytes (d : Downlink) (c : GateCfg) : List (BitVec 8) := d.body c ++ beBytes 4 (CrcAlg.crc32c.check (d.body c))

/-- A temperature, 0x8000 when absent (R290). -/
def upTemp (f : Uplink) (i : Nat) : List (BitVec 8) := beBytes 2 (((f.temps[i]?).getD (-32768)) % 2 ^ 16).toNat

/-- Offsets 0 to 47 of an uplink (R290). -/
def Uplink.body (f : Uplink) : List (BitVec 8) :=
  beBytes 1 f.type ++ beBytes 1 (16 * f.version + f.bridge) ++ beBytes 1 f.alive ++
    beBytes 1 (f.blocked.toNat + 2 * f.synced.toNat + 4 * f.dlMissed.toNat + 8 * f.faultLatched.toNat) ++ beBytes 4 f.cycle ++ beBytes 2 f.turn ++
    beBytes 1 f.faults ++ beBytes 1 f.dlAlive ++ beBytes 4 f.dlArr ++ beSigned f.vdc ++ beSigned f.vdcLow ++ beSigned f.ia ++ beSigned f.ib ++
    beSigned f.ic ++ beSigned f.in_ ++ upTemp f 0 ++ upTemp f 1 ++ upTemp f 2 ++ upTemp f 3

/-- CHECK of an uplink: the CRC-32C over offsets 0 to 47 (R288, R290). -/
def Uplink.check (f : Uplink) : Word := BitVec.ofNat 32 (CrcAlg.crc32c.check f.body)

end Sys2Proof.Machine
end

