-- ==== Sys2Proof/Cfg/Tide.lean ====
section
/-! DEFINITION. The STRUCTURE settings of TIDE, CLK and point-on-wave closing (spec/02_tide.md R55, R56, R69, R74, R79; spec/03_clocks_and_crossings.md R116). -/

namespace Sys2Proof

/-- The sources of Tide (R54). -/
inductive TideSrc where
  | freerun
  | pilot
  | rotor (fu : Nat)
  | plant
deriving DecidableEq, Repr, Inhabited

/-- SRC and TARGET (R81). -/
def TideSrc.num : TideSrc → Nat
  | .freerun => 0 | .pilot => 1 | .rotor _ => 2 | .plant => 3

/-- The forming unit of a source, 0 for the others (R81). -/
def TideSrc.fu : TideSrc → Nat
  | .rotor u => u
  | _ => 0

/-- The actions of a mark, in the encoding order of TIDE_MARK_CFG.ACTION (R69, R84). -/
inductive MarkAction where
  | none | fioEdge | logicRelease | captSnapshot | formStep | logRecord
deriving DecidableEq, Repr, Inhabited

/-- The encoding of an action (R84). -/
def MarkAction.num : MarkAction → Nat
  | .none => 0 | .fioEdge => 1 | .logicRelease => 2 | .captSnapshot => 3 | .formStep => 4 | .logRecord => 5

/-- The owners of a mark (R69, R84). -/
inductive MarkOwner where
  | manifest | logic | host | pow
deriving DecidableEq, Repr, Inhabited

/-- The encoding of an owner (R84). -/
def MarkOwner.num : MarkOwner → Nat
  | .manifest => 0 | .logic => 1 | .host => 2 | .pow => 3

/-- What a mark asks for, before it is armed (R69). -/
structure MarkSpec where
  /-- Cycle count of the position, 48 bits. -/
  cycle : Nat
  angle : Angle
  /-- Period in cycles, 1 to 65,535, of a periodic mark. -/
  period : Option Nat
  action : MarkAction
  /-- FIO_EDGE level. -/
  level : Bool
  /-- Channel, task, engine or unit. -/
  target : Nat
  /-- LOG_RECORD is also selected for the mark (R72). -/
  log : Bool
deriving DecidableEq, Repr, Inhabited

/-- The edge that counts as a contact touch (R74). -/
inductive TouchEdge where
  | rising | falling | either
deriving DecidableEq, Repr, Inhabited

/-- The contact-touch source of a point-on-wave breaker (R74). -/
inductive TouchSource where
  | current (c : ChanRef)
  | aux (ch : Nat) (edge : TouchEdge := .rising)
deriving DecidableEq, Repr, Inhabited

/-- The failure action of a point-on-wave breaker (R74, R76). -/
inductive PowFailure where
  | abort | closeUntimed
deriving DecidableEq, Repr, Inhabited

/-- One point-on-wave breaker PWk (R74). Times in ns. -/
structure PowCfg where
  closeCh : Nat
  tNom : Ns
  gain : Num := 1 / 4
  touch : TouchSource
  rocofMax : Num := 1
  failure : PowFailure := .abort
deriving DecidableEq, Repr, Inhabited

/-- One segment of the plant schedule: its start in PTP seconds and its frequency in µHz (R56). -/
structure PlantSegment where
  start : Nat
  freq : Nat
deriving DecidableEq, Repr, Inhabited

/-- The Tide settings (R79). LOCK_WINDOW, PILOT_JUMP_LEVEL in degrees. -/
structure TideCfg where
  nominalFreq : Num
  /-- TIDE_PRIORITY, highest first, FREERUN appended where the list lacks it (R55). -/
  priority : List TideSrc := [.pilot, .freerun]
  coastCycles : Nat := 25
  lockWindow : Num := 1 / 10
  slewFmax : Num := 1 / 2
  slewAccel : Num := 2
  returnHold : Ns := secs 10
  /-- PILOT_INPUT: one or three voltage channels; empty when the Pilot is not used. -/
  pilotInput : List ChanRef := []
  pilotBw : Num := 8
  pilotLossLevel : Num := 1 / 5
  pilotJumpLevel : Num := 6
  plantSchedule : List PlantSegment := []
  /-- PW0 to PW7, in order. -/
  pow : List PowCfg := []
  /-- The Manifest's own marks, armed at 250 ms (R68). -/
  marks : List MarkSpec := []
deriving DecidableEq, Repr, Inhabited

/-- TIDE_PRIORITY with FREERUN appended where it is not in the list (R55). -/
def TideCfg.order (c : TideCfg) : List TideSrc :=
  if .freerun ∈ c.priority then c.priority else c.priority ++ [.freerun]

/-- Reference modes of a system loop, in the order of their encoding (R91). -/
inductive RefMode where
  | x1 | x2 | div2
deriving DecidableEq, Repr, Inhabited

/-- The encoding of a reference mode (R91). -/
def RefMode.num : RefMode → Nat
  | .x1 => 0 | .x2 => 1 | .div2 => 2

/-- The feedback divider N of a reference mode (R91). -/
def RefMode.divider : RefMode → Nat
  | .x1 => 240 | .x2 => 120 | .div2 => 480

/-- One PFD cycle of a reference mode, in ns (R91). -/
def RefMode.pfdNs : RefMode → Nat
  | .x1 => 40 | .x2 => 20 | .div2 => 80

/-- The clock settings (R116). -/
structure ClkCfg where
  xrefUsed : Bool := false
  xrefReturnHold : Ns := secs 10
  spll0Mode : RefMode := .x1
  spll1Mode : RefMode := .x1
  measSteerMax : Num := 50
  degradedReturn : Ns := msec 100
deriving DecidableEq, Repr, Inhabited

end Sys2Proof
end

