-- ==== Sys2Proof/Machine/ClkState.lean ====
section
/-! DEFINITION. The state of CLK and SYS: references, loops, domains, crossings, supplies, stages, resets (spec/03_clocks_and_crossings.md, spec/17_startup_power_reset.md). -/

namespace Sys2Proof.Machine

open Sys2Proof

/-- The loops (R15). -/
inductive LoopId where
  | spll0 | spll1 | mpll
deriving DecidableEq, Repr, Inhabited

/-- The states of a loop in the order of CLK_SPLL_STATUS.STATE (R94, R119). -/
inductive LoopPhase where
  | off | acquiring | locked | failed
deriving DecidableEq, Repr, Inhabited

/-- The encoding of a loop state (R119). -/
def LoopPhase.num : LoopPhase → Nat
  | .off => 0 | .acquiring => 1 | .locked => 2 | .failed => 3

/-- A loop: SPLL0, SPLL1 or the MPLL (R94, R103, R119). -/
structure Loop where
  phase : LoopPhase := .off
  qualified : Bool := false
  mode : RefMode := .x1
  /-- Failed acquisitions since the last QUALIFIED (R119). -/
  retries : Nat := 0
  /-- Relock count, 16 bits, saturating (R96). -/
  relocks : Nat := 0
  /-- A declared loss of lock has not yet been followed by a qualification (R96). -/
  lossDeclared : Bool := false
  /-- Local time at which the present acquisition started, and at which the loop locked. -/
  acqAt : Ns := 0
  lockAt : Ns := 0
  /-- Since when the loop has been QUALIFIED (R106). -/
  qualSince : Option Ns := none
  /-- CLK_LOOP_RESET has returned the loop to OFF and it waits for a usable reference (R94). -/
  waitRef : Bool := false
  /-- Measured VCO frequency (MHz). -/
  freq : Num := 0
deriving DecidableEq, Repr, Inhabited

/-- The references (R86). -/
inductive RefSrc where
  | tcxo | xref
deriving DecidableEq, Repr, Inhabited

/-- DEG_CAUSE (R104, R118). -/
inductive DegCause where
  | none | loopFail | refLoss
deriving DecidableEq, Repr, Inhabited

/-- The encoding of DEG_CAUSE (R118). -/
def DegCause.num : DegCause → Nat
  | .none => 0 | .loopFail => 1 | .refLoss => 2

/-- A retune in progress: a CLK_RETUNE with its berth, or a mode move of R91 without one. -/
structure Retune where
  loop : LoopId
  oldMode : RefMode
  newMode : RefMode
  berth : Option Nat
  /-- Local time at which the command reached its CTL stage. -/
  start : Ns
deriving DecidableEq, Repr, Inhabited

/-- Where MEAS takes its clock (R103, R104). -/
inductive MeasSrc where
  | mpll | alt | backup
deriving DecidableEq, Repr, Inhabited

/-- A Lock crossing of a register's value from one domain into another (R108, R109, R112). -/
structure Xing where
  /-- The crossing identifier, 16 bits. -/
  id : Nat
  /-- The source's domain, and the partner's. -/
  source : Nat := 3
  domain : Nat
  /-- The source register while a transfer holds it: the offset in BAR0 and the value (R108 step 1). -/
  held : Option (Nat × Word) := none
  /-- The destination has captured the value (R108 step 2). -/
  captured : Bool := false
  /-- Local time at which the transfer started. -/
  since : Ns := 0
  /-- The request toggle, and the acknowledge toggle as the source has it (R108). -/
  req : Bool := false
  ack : Bool := false
  /-- The one-deep shadow (R109). -/
  shadow : Option (Nat × Word) := none
  /-- The partner's 2-bit reset token as last seen. -/
  token : Nat := 0
  partnerReset : Bool := false
  /-- Toggles wait for re-alignment (R112 step 3). -/
  realign : Bool := false
  /-- The values lost in its shadow (R109), 8 bits, saturating. -/
  overwrite : Nat := 0
deriving DecidableEq, Repr, Inhabited

/-- The CLK block (R86 to R120). -/
structure ClkState where
  ref : RefSrc := .tcxo
  /-- No usable reference. -/
  refNone : Bool := false
  xrefOk : Bool := false
  tcxoOk : Bool := false
  /-- Since when XREF has been qualified without a break (R88). -/
  xrefSince : Option Ns := none
  /-- Since when a usable reference has been qualified (R106). -/
  refSince : Option Ns := none
  refPpm : Num := 0
  spll0 : Loop := {}
  spll1 : Loop := {}
  mpll : Loop := {}
  /-- The active loop is SPLL1 (CLK_STATUS.ACTIVE); no loop feeds the domains when `connected` is false. -/
  active1 : Bool := false
  connected : Bool := false
  degraded : Bool := false
  degCause : DegCause := .none
  degSince : Ns := 0
  meas : MeasSrc := .mpll
  measSlew : Bool := false
  retune : Option Retune := none
  /-- Mode moves of R91 that wait: the loop and its setting. -/
  moves : List (LoopId × RefMode) := []
  /-- Present steering (ppm), last strobe error (ns) and the one divider restart (R101, R102). -/
  steer : Num := 0
  pherr : Int := 0
  strobeRestarted : Bool := false
  /-- Domains in which the monitor finds no edge, that last-words has shed, or whose source is lost: one entry per domain 0 to 7 (R114). -/
  stopped : List Bool := List.replicate 8 false
  guardCount : Nat := 0
  guardDomain : Nat := 0
  /-- The measured frequencies of the reference and of the backup oscillator, in MHz (R92). -/
  refFreq : Num := 0
  backupFreq : Num := 0
  /-- Domains that a reset holds; each domain's reset token, 2 bits, and the token that crossings without an entry last saw (R112). -/
  inReset : List Bool := List.replicate 8 true
  tokens : List Nat := List.replicate 8 0
  seen : List Nat := List.replicate 8 0
  xings : List Xing := []
  overwriteCount : Nat := 0
  overwriteId : Nat := 0
  presetCount : Nat := 0
  presetDropped : Nat := 0
  presetId : Nat := 0
  accessErrCount : Nat := 0
  accessErrDomain : Nat := 0
  accessErrWrite : Bool := false
  dramRetraining : Bool := false
  event : W1C := {}
deriving DecidableEq, Repr, Inhabited

/-- A loop of the CLK block. -/
def ClkState.loop (c : ClkState) : LoopId → Loop
  | .spll0 => c.spll0 | .spll1 => c.spll1 | .mpll => c.mpll

/-- Replace a loop of the CLK block. -/
def ClkState.setLoop (c : ClkState) (i : LoopId) (l : Loop) : ClkState :=
  match i with
  | .spll0 => { c with spll0 := l }
  | .spll1 => { c with spll1 := l }
  | .mpll => { c with mpll := l }

/-- Supply levels in the order of their encoding (R553). -/
inductive SupplyLevel where
  | ok | low | over | absent
deriving DecidableEq, Repr, Inhabited

/-- The encoding of a supply level (R553). -/
def SupplyLevel.num : SupplyLevel → Nat
  | .ok => 0 | .low => 1 | .over => 2 | .absent => 3

/-- One logic supply input (R553, R554). -/
structure Supply where
  level : SupplyLevel := .absent
  mv : Nat := 0
  /-- Since when the input has been at 16.8 V or more. -/
  okSince : Option Ns := none
deriving DecidableEq, Repr, Inhabited

/-- Causes of a start, encoded as in SYS_RESET_CAUSE.CAUSE (R565). -/
inductive ResetCause where
  | powerOn | lastwordsEnd | rstN | watchdog
deriving DecidableEq, Repr, Inhabited

/-- The encoding of a cause (R565). -/
def ResetCause.num : ResetCause → Nat
  | .powerOn => 1 | .lastwordsEnd => 2 | .rstN => 3 | .watchdog => 4

/-- The SYS block (R553 to R574). -/
structure SysState where
  vla : Supply := {}
  vlb : Supply := {}
  supplyValid : Bool := false
  single : Bool := false
  /-- One input has been away from OK while the other stayed OK since this time. -/
  singleSince : Option Ns := none
  holdupOk : Bool := false
  /-- Local time of T0 of the running timeline (R554, R567). -/
  t0 : Ns := 0
  /-- Power-on reset is held (R563). -/
  held : Bool := true
  /-- The latest stage reached, 12 for BARE (R556). -/
  stage : Nat := 0
  /-- Times at which stages 0 to 15 were reached, in 0.1 ms from T0, 16 bits (R570). -/
  stageTimes : List Nat := List.replicate 16 0
  /-- The delay by which stages now run late, in ns (R556). -/
  delay : Ns := 0
  profile : Profile := .balanced
  live : Bool := false
  lastwords : Bool := false
  lastwordsAt : Ns := 0
  cause : ResetCause := .powerOn
  longRst : Bool := false
  logicColdForced : Bool := false
  /-- Local times of WATCHDOG starts within the last 600 s (R568). -/
  wdStarts : List Ns := []
  structRestarts : Nat := 0
  /-- Blocks that are not created because their SRAM test failed (R575). -/
  dead : List Blk := []
  uninstBlock : Nat := 0
  uninstCount : Nat := 0
  event : W1C := {}
deriving DecidableEq, Repr, Inhabited

end Sys2Proof.Machine
end

