-- ==== Sys2Proof/Machine/LogicState.lean ====
section
/-! DEFINITION. The state of LOGIC: tasks, snapshots, retained regions, stations (spec/10_logic_engine.md). -/

namespace Sys2Proof.Machine

open Sys2Proof

/-- Engine states in the order of LOGIC_STATUS.STATE (R356, R369). -/
inductive LogicPhase where
  | idle | running | stopped | halted
deriving DecidableEq, Repr, Inhabited

/-- The encoding of an engine state (R369). -/
def LogicPhase.num : LogicPhase → Nat
  | .idle => 0 | .running => 1 | .stopped => 2 | .halted => 3

/-- HALT_CAUSE (R369). -/
inductive HaltCause where
  | none | overlong | ecc
deriving DecidableEq, Repr, Inhabited

/-- The encoding of HALT_CAUSE (R369). -/
def HaltCause.num : HaltCause → Nat
  | .none => 0 | .overlong => 1 | .ecc => 2

/-- A value of a snapshot with its quality (R346). -/
structure SnapItem where
  value : Int := 0
  q : Quality := .good
deriving DecidableEq, Repr, Inhabited

/-- The input snapshot of a cycle (R345 to R347). -/
structure LogicSnap where
  tick : Ns := 0
  time : Nat := 0
  pos : BitVec 80 := 0
  timeQ : Quality := .good
  /-- The values that the program reads, an INVALID one as its substitute, each with its quality (R347). -/
  items : List (InKey × SnapItem) := []
  /-- Time of the last edge of every field input; CMD, DRIVEN and DIAG of every output. -/
  edges : List (Nat × Word) := []
  outputs : List (Nat × Bool × Bool × Word) := []
  /-- State, limiter, CLOSE_REQ and ENV_TRIP of every unit. -/
  units : List (Nat × Nat × Nat × Bool × Bool) := []
  eventMask : Nat := 0
  vars : List (Nat × Int) := []
  /-- Acceptance of each request of the previous output write (R349). -/
  results : List Bool := []
deriving DecidableEq, Repr, Inhabited

/-- What a call hands to a function block: IN, CLK, CU or S1 in `a`, CD in `b`, RESET, LOAD, and PT in 10 ns or PV (R351). -/
structure FbIn where
  a : Bool
  b : Bool := false
  reset : Bool := false
  load : Bool := false
  pt : Nat := 0
deriving DecidableEq, Repr, Inhabited

/-- The state of an instance: elapsed time in 10 ns, count, outputs and previous inputs (R351). `last`: the snapshot tick of its last
call; `prev` is none while the first call sets it (R358, R364). -/
structure Inst where
  path : String
  kind : FbKind
  elapsed : Nat := 0
  last : Option Ns := none
  count : Int := 0
  q : Bool := false
  qd : Bool := false
  prev : Option Bool := some false
  prevB : Option Bool := some false
deriving DecidableEq, Repr, Inhabited

/-- An instance of the conversion block with its outputs: those of TIDE_CONV_CTRL and the result, a PTP time in ns or a position (R49, R85). -/
structure ConvFb where
  path : String
  errRange : Bool := false
  predicted : Bool := false
  value : Nat := 0
deriving DecidableEq, Repr, Inhabited

/-- What a program writes or asks for in an output write (R349). -/
inductive LogicReq where
  | field (ch : Nat) (level : Bool)
  | station (slot pos : Nat) (level : Bool)
  | tripAdd (k : Nat) (on : Bool)
  | tripMask (k : Nat) (on : Bool)
  | block (e : Nat) (on : Bool)
  | lockoutReset (e : Nat)
  | group (g : Nat)
  | form (u : Nat) (c : UnitCmd)
  | setpoint (u : Nat) (t : Targets)
  | stage (u : Nat) (st : Staged)
  | bridgeRestore (b : Nat)
  | powClose (pw : Nat) (angle : Angle)
  | mark (n : Nat) (m : MarkSpec)
  | captArm (e : Nat)
  | captTrigger (e : Nat)
  | fioClear (ch : Nat)
  | variable (addr : Nat) (v : Int)
  /-- A call of a function block in the logic phase (R351). -/
  | call (path : String) (x : FbIn)
  /-- A call of the conversion block: position to time, or time to position (R49, R85). -/
  | convert (path : String) (toTime : Bool) (x : Nat)
deriving DecidableEq, Repr, Inhabited

/-- A task (R343, R344, R371, R372). -/
structure Task where
  cfg : TaskCfg
  running : Bool := false
  preempted : Bool := false
  overrun : Bool := false
  latched : Bool := false
  suspended : Bool := false
  held : Bool := false
  /-- A write that waits for the next release (R348). -/
  heldWrite : Option (List LogicReq) := none
  /-- Sources fired since the previous release, and those of the last release. -/
  mask : Nat := 0
  lastMask : Nat := 0
  lastRel : Option Ns := none
  lastRelTs : Word := 0
  /-- A TIDE release that its mark has given and that waits for LOGIC_TASK_RELEASE. -/
  due : Bool := false
  /-- Index of the last release instant of a TIME task. -/
  relIdx : Nat := 0
  exec : Nat := 0
  execMax : Nat := 0
  releases : Nat := 0
  skipped : Nat := 0
  merged : Nat := 0
  snap : LogicSnap := {}
  results : List Bool := []
deriving DecidableEq, Repr, Inhabited

/-- A retained variable as an image holds it: path, type and value (R359, R364). -/
structure KeptVar where
  path : String
  type : String
  value : Int
deriving DecidableEq, Repr, Inhabited

/-- One buffer of a retained region in MRAM (R359, R360). `valid`: header and lines pass the tests of R360. -/
structure Buffer where
  valid : Bool := false
  /-- A line tag or the header no longer checks (R360, R467). -/
  crcBad : Bool := false
  seq : BitVec 64 := 0
  layout : BitVec 128 := 0
  cycles : Nat := 0
  vars : List KeptVar := []
  insts : List Inst := []
deriving DecidableEq, Repr, Inhabited

/-- A commit of a task group: the values it writes, the lines dirtied in its cycle, the layout and the cycle count (R361). -/
structure Commit where
  vars : List KeptVar
  insts : List Inst
  lines : List Nat
  layout : BitVec 128
  cycles : Nat
deriving DecidableEq, Repr, Inhabited

/-- A task group (R359 to R361, R364). -/
structure Group where
  /-- The program that the group runs (R365). -/
  prog : LogicCfg := {}
  seq : BitVec 64 := 0
  /-- Buffer 1 holds S. -/
  inBuf1 : Bool := false
  buf0 : Buffer := {}
  buf1 : Buffer := {}
  /-- Lines dirtied in this cycle and in the previous committed cycle. -/
  dirty : List Nat := []
  prevDirty : List Nat := []
  cycles : Nat := 0
  busy : Option Commit := none
  busySince : Ns := 0
  busyLines : Nat := 0
  waiting : Option Commit := none
  lastLines : Nat := 0
  commitSkip : Nat := 0
  warm : Bool := false
  /-- An exchange of this group is pending (R364). -/
  exchPending : Bool := false
  /-- Local time at which the present swap ends (R364). -/
  swapEnd : Ns := 0
deriving DecidableEq, Repr, Inhabited

/-- Station states in the order of LOGIC_ST_STATUS.STATE (R354, R373). -/
inductive StationPhase where
  | none | joining | up | dropped
deriving DecidableEq, Repr, Inhabited

/-- The encoding of a station state (R373). -/
def StationPhase.num : StationPhase → Nat
  | .none => 0 | .joining => 1 | .up => 2 | .dropped => 3

/-- Offsets 0 to 31 of a remote-I/O payload, big-endian: KIND 0x32 OUT or 0x31 IN, ALIVE, STATION, TS32, VALUES, VALID and QUEST (R353). -/
def rioBody (out : Bool) (alive station : Nat) (ts : Word) (values valid quest : BitVec 64) : List (BitVec 8) :=
  beBytes 1 (if out then 0x32 else 0x31) ++ beBytes 1 alive ++ beBytes 2 (station % 2 ^ 14) ++ beBytes 4 ts.toNat ++ beBytes 8 values.toNat ++
    beBytes 8 valid.toNat ++ beBytes 8 quest.toNat

/-- CHECK: the CRC-32C over offsets 0 to 31 (R353). -/
def rioCheck (out : Bool) (alive station : Nat) (ts : Word) (values valid quest : BitVec 64) : Word :=
  BitVec.ofNat 32 (CrcAlg.crc32c.check (rioBody out alive station ts values valid quest))

/-- A remote-I/O payload (R353). `check` is the CHECK it carries: a sender's is computed. -/
structure RioPayload where
  out : Bool
  alive : Nat
  station : Nat
  ts : Word
  values : BitVec 64
  valid : BitVec 64
  quest : BitVec 64
  check : Word := rioCheck out alive station ts values valid quest
deriving DecidableEq, Repr, Inhabited

/-- CHECK fits the payload (R353). -/
def RioPayload.checkOk (p : RioPayload) : Bool := decide (p.check = rioCheck p.out p.alive p.station p.ts p.values p.valid p.quest)

/-- A receiver's alive counter (R469 to R471). -/
structure AliveRx where
  last : Option Nat := none
  /-- ALIVE of the last STALE frame, and how many STALE frames have come in a row. -/
  staleLast : Nat := 0
  staleRun : Nat := 0
deriving DecidableEq, Repr, Inhabited

/-- A station slot (R352 to R355, R368, R373). -/
structure Station where
  phase : StationPhase := .none
  /-- This device is the station (slots 32 to 35). -/
  isStation : Bool := false
  device : Nat := 0
  node : Nat := 0
  inputs : List Nat := []
  outputs : List Nat := []
  /-- STATION_TIMEOUT of a master slot, STATION_WD of an EXPORT slot. -/
  timeout : Ns := 0
  period : Ns := 0
  safe : Bool := false
  dropNode : Bool := false
  mismatch : Bool := false
  /-- ALIVE to send next, and the receiver's counter. -/
  aliveTx : Nat := 0
  aliveRx : AliveRx := {}
  /-- Local time of the last accepted payload, or of the slot's creation. -/
  since : Ns := 0
  lastRxTs : Word := 0
  lastTx : Ns := 0
  values : BitVec 64 := 0
  valid : BitVec 64 := 0
  quest : BitVec 64 := 0
  /-- The payload last sent in this slot: at the master, the values and the written positions. -/
  txValues : BitVec 64 := 0
  txValid : BitVec 64 := 0
  txQuest : BitVec 64 := 0
  outDrop : Nat := 0
  drops : Nat := 0
  checkFails : Nat := 0
deriving DecidableEq, Repr, Inhabited

/-- A staged program: `sigOk`: its ENGINEER signature and its section CRC are good (R363). -/
structure StagedProg where
  prog : LogicCfg
  sigOk : Bool := true
deriving DecidableEq, Repr, Inhabited

/-- A committed exchange whose groups have not all swapped; `failed`: one of them kept its old program (R364, R365). -/
structure Exchange where
  prog : LogicCfg
  committedAt : Ns
  failed : Bool := false
deriving DecidableEq, Repr, Inhabited

/-- The LOGIC block. -/
structure LogicState where
  phase : LogicPhase := .idle
  haltCause : HaltCause := .none
  mixed : Bool := false
  degSuspend : Bool := false
  tasks : List Task := []
  groups : List Group := []
  stations : List Station := List.replicate 36 {}
  /-- Program variables: symbol address and value; host writes that wait for a snapshot. -/
  vars : List (Nat × Int) := []
  hostWrites : List (Nat × Int) := []
  insts : List Inst := []
  convs : List ConvFb := []
  /-- Last GOOD or QUESTIONABLE value of every input (R347). -/
  lastGood : List (InKey × Int) := []
  /-- Event sources that have fired and wait to be taken: a task and a source's index (R340). -/
  fired : List (Nat × Nat) := []
  prog : LogicCfg := {}
  staged : Option StagedProg := none
  exch : Option Exchange := none
  wrTripCh : Nat := 0
  wrTripChLast : Nat := 0
  wrDenied : Nat := 0
  wrDeniedLast : Nat := 0
  event : W1C := {}
deriving DecidableEq, Repr, Inhabited

end Sys2Proof.Machine
end

