-- ==== Sys2Proof/Manifest.lean ====
section
/-! DEFINITION. The Manifest: its sections, its container and its signatures, and key certificates (spec/16_manifest_and_two_party.md R519 to R527). -/

namespace Sys2Proof

/-- Budget of a Breakwater source (R490, R511). RATE per second; `berths` is the reservation. -/
structure SourceCfg where
  rate : Nat := 0
  depth : Nat := 32
  berths : Nat := 4
deriving DecidableEq, Repr, Inhabited

/-- The STRUCTURE section (R34, R79, R116, R511, R548). -/
structure StructCfg where
  profile : Profile := .balanced
  tide : TideCfg := { nominalFreq := 50 }
  clk : ClkCfg := {}
  /-- RING_RATE, RING_DEPTH and RING_BERTHS of rings 0 to 15. -/
  rings : List SourceCfg := [{ rate := 10000 }, { rate := 5000 }]
  harbour : SourceCfg := { rate := 10000, berths := 8 }
  reg : SourceCfg := { rate := 250000, depth := 64, berths := 0 }
  /-- CLUSTER_NODES: device numbers in ring order; empty when none. -/
  clusterNodes : List Nat := []
  confirmWindow : Ns := secs 600
deriving DecidableEq, Repr, Inhabited

/-- What the sections of a Manifest hold (R521). -/
structure Manifest where
  struct : StructCfg := {}
  acq : AcqCfg := {}
  prot : ProtCfg := {}
  diff : List ZoneCfg := []
  form : List UnitCfg := []
  gate : List GateCfg := []
  logic : LogicCfg := {}
  fio : FioCfg := {}
  capt : List CaptCfg := []
  log : LogCfg := {}
  net : NetCfg := {}
deriving DecidableEq, Repr, Inhabited

/-- The section IDs (R521). -/
inductive Section where
  | structure_ | acq | prot | diff | form | gate | logic | fio | capt | log | net | signatures
deriving DecidableEq, Repr, Inhabited

/-- The ID of a section, 1 to 12 (R521). -/
def Section.num : Section → Nat
  | .structure_ => 1 | .acq => 2 | .prot => 3 | .diff => 4 | .form => 5 | .gate => 6 | .logic => 7 | .fio => 8
  | .capt => 9 | .log => 10 | .net => 11 | .signatures => 12

/-- Key roles (R523, R529). -/
inductive Role where
  | engineer | approver | operator | service
deriving DecidableEq, Repr, Inhabited

/-- The encoding of a role (R523). -/
def Role.num : Role → Nat
  | .engineer => 0 | .approver => 1 | .operator => 2 | .service => 3

/-- An entry of the SIGNATURES section. `valid`: SIG is the Ed25519 signature, under the public key `key`, of the
message of R524. -/
structure SigEntry where
  slot : Nat
  role : Role
  /-- Bit i: section ID i is covered. -/
  cover : BitVec 16
  key : BitVec 256
  valid : Bool := true
deriving DecidableEq, Repr, Inhabited

/-- A section entry of the header (R521). `good`: the section's bytes match its CRC. `versionOk`: VERSION is in the list of the hardware
revision, which Mowyn delivers (R522). -/
structure SectEntry where
  id : Nat
  rsv : BitVec 8 := 0
  version : Nat := 1
  offset : Nat := 0
  length : Nat := 0
  crc : Word := 0
  good : Bool := true
  versionOk : Bool := true
deriving DecidableEq, Repr, Inhabited

/-- A Manifest as written into a slot: its header, its signatures and what its sections hold (R520 to R523). -/
structure Image where
  /-- MAGIC, ASCII "RNMF" in little-endian order. -/
  magic : Word := 0x464D4E52
  format : Nat := 1
  nsect : Nat := 12
  totalLen : Nat := 0
  rollback : Nat := 0
  device : Nat := 0
  /-- FLAGS: bit 0 is RAISE_FLOOR. -/
  flags : BitVec 8 := 0
  build : Word := 0
  created : BitVec 64 := 0
  manifestId : BitVec 128 := 0
  systemId : BitVec 128 := 0
  /-- Sections 1 to 12. -/
  sects : List SectEntry := []
  /-- HDR_CRC as it stands in the header. -/
  hdrCrc : Word := 0
  sigs : List SigEntry := []
  body : Manifest := {}
  /-- The checks of Mowyn's checker that this manual does not list by number all pass (R531, cause 10). -/
  otherChecks : Bool := true
deriving DecidableEq, Repr, Inhabited

/-- RAISE_FLOOR (R520, R537). -/
def Image.raiseFloor (m : Image) : Bool := m.flags.getLsbD 0

/-- A key certificate. `rootSigOk`: the root signature verifies under the public key `root` (R527). -/
structure KeyCert where
  slot : Nat
  role : Role
  key : BitVec 256
  systemId : BitVec 128
  root : BitVec 256
  rootSigOk : Bool := true
deriving DecidableEq, Repr, Inhabited

end Sys2Proof
end

