-- ==== Sys2Proof/Machine/HostState.lean ====
section
/-! DEFINITION. Commands that travel through berths, and the state of HOST and ADEID (spec/15_host_cluster_berths.md). -/

namespace Sys2Proof.Machine

open Sys2Proof

/-- One item of a PROPOSE (R538, R539). A SETTING names its parameter and binary32 value, with the table it refers to. -/
inductive PropItem where
  | protSetting (elem group param : Nat) (value : Word) (table : List Num)
  | zoneSetting (zone param : Nat) (value : Word) (table : List Num)
  | unitSetting (unit param : Nat) (value : Word) (table : List Num)
  | acqSwap (ch : Nat) (crc : Word)
  | laneRestore (l : LaneId)
  | logicExchange (crc : Word)
  | logClear
  | keyReplace (cert : KeyCert)
  | deviceNumber (n : Nat)
deriving DecidableEq, Repr, Inhabited

/-- A PROPOSE: its bulk data as items, the first 16 bytes of their SHA-512, and the bytes it adds to the overlay (R539). -/
structure Propose where
  id : BitVec 64
  items : List PropItem
  digest : BitVec 128
  /-- Every value lies in its range (R540). -/
  inRange : Bool := true
  overlayBytes : Nat := 0
deriving DecidableEq, Repr, Inhabited

/-- The commands that reach the device through a berth, with their parameters (R488, R529, R538). -/
inductive BerthCmd where
  /-- A read of state: the register at a BAR0 offset (R488). -/
  | query (off : Nat)
  | clkRetune (l : LoopId) (m : RefMode)
  | clkLoopReset (l : LoopId)
  | tidePin (src : TideSrc)
  | tideUnpin
  | tideMark (n : Nat) (m : MarkSpec)
  | powClose (pw : Nat) (angle : Angle)
  | acqSwap (ch : Nat) (crc : Word)
  | sgSelect (g : Nat)
  | unit (u : Nat) (c : UnitCmd)
  | unitSetpoint (u : Nat) (t : Targets)
  | unitStage (u : Nat) (st : Staged)
  | bridgeRestore (b : Nat)
  | gateClear (b : Nat)
  | fioSet (ch : Nat) (level : Bool)
  | fioClear (ch : Nat)
  | fioResume (ch : Nat)
  | logicStart (warm : Bool)
  | logicStop
  | logicRead (addrs : List Nat)
  | logicWrite (addr : Nat) (v : Int)
  | logicEvent (task source : Nat)
  | logicStage (prog : LogicCfg) (sigOk : Bool)
  | captArm (e : Nat)
  | captDisarm (e : Nat)
  | captTrigger (e : Nat)
  | captSet (e pre post : Nat)
  | captLock (e : Nat)
  | captUnlock (e : Nat)
  | netPortAdmin (p : Nat) (up : Bool)
  | doorClose (d : Nat)
  | doorOpen (d : Nat)
  | provisionRoot (key : BitVec 256)
  | keyInstall (cert : KeyCert)
  | manifestLoad (slotB : Bool) (img : Image)
  | manifestActivate (slotB : Bool)
  | manifestPromote
  | propose (p : Propose)
  | confirm (id : BitVec 64) (digest : BitVec 128)
  | proposeWithdraw (id : BitVec 64)
  | diagBundle
  /-- A change that only PROPOSE and CONFIRM carry, asked for directly (R538). -/
  | direct (i : PropItem)
deriving DecidableEq, Repr, Inhabited

/-- Reasons of R489, and SIG_FAIL and EXEC_ERROR. -/
inductive Reason where
  | badOpcode | badFormat | notReady | clockDegraded | notCreated | tripChannel | notOwner | notWritable
  | twoPartyOnly | envelope | stateRefused | unreachable | forwardFull | rate | noBerth | deadline
  | sigFail | execError
deriving DecidableEq, Repr, Inhabited

/-- The code of a reason (R489). -/
def Reason.num : Reason → Nat
  | .badOpcode => 0x01 | .badFormat => 0x02 | .notReady => 0x03 | .clockDegraded => 0x04 | .notCreated => 0x05
  | .tripChannel => 0x06 | .notOwner => 0x07 | .notWritable => 0x08 | .twoPartyOnly => 0x09 | .envelope => 0x0A
  | .stateRefused => 0x0B | .unreachable => 0x0C | .forwardFull => 0x0D | .rate => 0x0E | .noBerth => 0x0F
  | .deadline => 0x10 | .sigFail => 0x11 | .execError => 0x12

/-- STATUS of a completion (R486). -/
inductive Status where
  | done | refused | failed | late | noAnswer
deriving DecidableEq, Repr, Inhabited

/-- The encoding of STATUS (R486). -/
def Status.num : Status → Nat
  | .done => 0 | .refused => 1 | .failed => 2 | .late => 3 | .noAnswer => 4

/-- A submission entry (R485). DEADLINE in µs. -/
structure Entry where
  /-- `none`: an OPCODE that is not in the catalogue. -/
  cmd : Option BerthCmd
  opcode : Nat := 0
  /-- Every reserved field is zero and every parameter in range (R489 test 2). -/
  formatOk : Bool := true
  signed : Bool := false
  bulk : Bool := false
  notify : Bool := false
  tag : Word := 0
  /-- 0 to 63, or 0xFF for this device. -/
  node : Nat := 0xFF
  keySlot : Nat := 0
  deadline : Nat := 0
  nonce : BitVec 64 := 0
  bulkLen : Nat := 0
deriving DecidableEq, Repr, Inhabited

/-- A completion entry (R486). -/
structure Completion where
  tag : Word
  opcode : Nat := 0
  status : Status
  reason : Nat := 0
  berth : Nat := 0xFF
  node : Nat := 0
  retry : Nat := 0
  tAdmit : Word := 0
  tDone : Word := 0
  result : BitVec 64 := 0
  phase : Bool := true
deriving DecidableEq, Repr, Inhabited

/-- How an admitted item ended. -/
structure Ending where
  status : Status
  reason : Option Reason := none
  result : BitVec 64 := 0
deriving DecidableEq, Repr, Inhabited

/-- The stage that an admitted item waits for (R488). -/
inductive Stage where
  | bulk | sig | ctl | target
deriving DecidableEq, Repr, Inhabited

/-- A berth that holds an admitted item (R487). -/
structure Item where
  /-- Breakwater source 0 to 16. -/
  src : Nat
  entry : Entry
  /-- REQ_ID of a forwarded command (R503). -/
  reqId : Option Word := none
  reserved : Bool := false
  tAdmit : Ns
  tsAdmit : Word := 0
  /-- t + D. -/
  due : Ns
  stage : Stage := .ctl
  ending : Option Ending := none
deriving DecidableEq, Repr, Inhabited

/-- A Breakwater source (R490, R492, R512). Tokens are exact. -/
structure Source where
  cfg : SourceCfg := {}
  tokens : Num := 0
  tTok : Ns := 0
  accepted : Word := 0
  refused : Nat := 0
  lastReason : Nat := 0
  /-- Local time of the last refusal; an episode ends 1 s after it. -/
  refusedAt : Option Ns := none
deriving DecidableEq, Repr, Inhabited

/-- A command ring (R483 to R486, R512). -/
structure CmdRing where
  enable : Bool := false
  error : Bool := false
  size : Nat := 0
  holdoff : Nat := 0
  sqBase : BitVec 64 := 0
  cqBase : BitVec 64 := 0
  /-- Indices: producer as last written, entries fetched, next completion slot, consumer. -/
  producer : Nat := 0
  head : Nat := 0
  tail : Nat := 0
  consumer : Nat := 0
  /-- Entries published and not yet fetched, and entries fetched and not yet decided. -/
  unfetched : Nat := 0
  waiting : Nat := 0
  /-- Completion slots reserved for entries that were fetched. -/
  reserved : Nat := 0
  /-- Completion slots written and not yet released. -/
  filled : Nat := 0
  phase : Bool := true
  /-- Local time of the last message of the ring's vector, and whether HOLDOFF holds one back. -/
  irqAt : Option Ns := none
  irqHeld : Bool := false
  /-- Completions written, newest first. -/
  written : List Completion := []
deriving DecidableEq, Repr, Inhabited

/-- The entries of a ring (R483, R512). -/
def CmdRing.entries (r : CmdRing) : Nat := 2 ^ (r.size + 4)

/-- A ring is disabled: entries that were fetched and not decided are dropped with their slots (R482, R484). -/
def CmdRing.off (r : CmdRing) : CmdRing := { r with enable := false, reserved := r.reserved - r.waiting, waiting := 0, unfetched := 0 }

/-- An entry of the harbour's forward table (R503). -/
structure Forward where
  reqId : Word
  ring : Nat
  entry : Entry
  tAdmit : Ns
  tsAdmit : Word := 0
  due : Ns
deriving DecidableEq, Repr, Inhabited

/-- A host access over BAR4 that waits for its answer (R504, R597). -/
structure RegWait where
  reqId : Word
  node : Nat
  offset : Nat
  /-- The value of a write. -/
  write : Option Word := none
  sentAt : Ns
deriving DecidableEq, Repr, Inhabited

/-- How a host access over a BAR completed (R481). -/
inductive AccessEnd where
  | data (w : Word)
  | written
  | abort
  | zeroErr
  | poisoned
deriving DecidableEq, Repr, Inhabited

/-- An MSI-X table entry (R512). -/
structure MsixEntry where
  addr : BitVec 64 := 0
  data : Word := 0
  masked : Bool := true
deriving DecidableEq, Repr, Inhabited

/-- A frame-ring descriptor as the SNT192 writes it back (R512). -/
structure FrameDesc where
  len : Nat
  own : Bool
  error : Bool := false
  ts : Word := 0
deriving DecidableEq, Repr, Inhabited

/-- The state of HOST (R512 to R514, R598 to R600). -/
structure HostState where
  event : W1C := {}
  linkUp : Bool := false
  ready : Bool := false
  err : Nat := 0
  errBar : Nat := 0
  errWrite : Bool := false
  errNode : Nat := 0
  errCount : Nat := 0
  errAddr : BitVec 64 := 0
  peak : Nat := 0
  cplDropped : Nat := 0
  noAnswer : Nat := 0
  irqMask : Word := 0
  rings : List CmdRing := List.replicate 16 {}
  sources : List Source := List.replicate 18 {}
  /-- B000 to B127. -/
  berths : List (Option Item) := List.replicate 128 none
  /-- F_BULK, F_SIG and F_CTL (R490). -/
  fBulk : Ns := 0
  fSig : Ns := 0
  fCtl : Ns := 0
  /-- Admitted items in each executor, oldest first (berth numbers). -/
  qBulk : List Nat := []
  qSig : List Nat := []
  qCtl : List Nat := []
  lateEpisode : Bool := false
  forwards : List Forward := []
  nextReq : Word := 0
  frTx : Bool := false
  frRx : Bool := false
  frTxSize : Nat := 0
  frRxSize : Nat := 0
  frTxBase : BitVec 64 := 0
  frRxBase : BitVec 64 := 0
  frTxProd : Nat := 0
  frTxHead : Nat := 0
  frRxCons : Nat := 0
  frRxHead : Nat := 0
  frRxFilled : Nat := 0
  /-- Descriptors written back on the TX ring and on the RX ring, newest first. -/
  frDone : List FrameDesc := []
  frRxDone : List FrameDesc := []
  msix : List MsixEntry := List.replicate 32 {}
  pba : Word := 0
  winBar4 : Bool := false
  winBar4Wr : Bool := false
  bar2Drop : Nat := 0
  bar2Poisoned : Nat := 0
  regSent : Nat := 0
  regErrors : Nat := 0
  bar0Bad : Nat := 0
  regs : List RegWait := []
  /-- Host accesses completed, newest first. -/
  accesses : List AccessEnd := []
deriving DecidableEq, Repr, Inhabited

/-- Frame classes of Adeid (R497). -/
inductive AdeidClass where
  | link | sum | rio | topo | cmd | reg | bulk
deriving DecidableEq, Repr, Inhabited

/-- The number of a class (R497). -/
def AdeidClass.num : AdeidClass → Nat
  | .link => 0 | .sum => 1 | .rio => 2 | .topo => 3 | .cmd => 4 | .reg => 5 | .bulk => 6

/-- The receiver's buffer of a class in frames (R498). -/
def AdeidClass.buffer : AdeidClass → Nat
  | .link => 0 | .sum => 4 | .rio => 8 | .topo => 8 | .cmd => 16 | .reg => 16 | .bulk => 16

/-- The priority of a class, 1 the highest (R497). -/
def AdeidClass.priority : AdeidClass → Nat
  | .link => 1 | .sum => 2 | .rio => 3 | .topo => 4 | .cmd => 5 | .reg => 5 | .bulk => 6

/-- Answers to REG requests (R504, R505). -/
inductive RegAnswer where
  | data (w : Word)
  | written
  | refused
  | notReady
deriving DecidableEq, Repr, Inhabited

/-- Payloads by class (R497). -/
inductive AdeidPayload where
  | link (node device : Nat) (freed : List (BitVec 16))
  | sum (f : SumFrame)
  | rio (p : RioPayload)
  | topo (seq : Nat) (links : List Bool)
  | cmd (reqId : Word) (e : Entry)
  | cmdDone (reqId : Word) (c : Completion)
  | reg (reqId : Word) (offset : Nat) (write : Option Word)
  | regDone (reqId : Word) (a : RegAnswer)
  | bulk (reqId : Word) (frag : Nat)
deriving DecidableEq, Repr, Inhabited

/-- The class of a payload (R497). -/
def AdeidPayload.cls : AdeidPayload → AdeidClass
  | .link _ _ _ => .link | .sum _ => .sum | .rio _ => .rio | .topo _ _ => .topo | .cmd _ _ => .cmd
  | .cmdDone _ _ => .cmd | .reg _ _ _ => .reg | .regDone _ _ => .reg | .bulk _ _ => .bulk

/-- An Adeid frame (R496). `payload` is none for a class 7 to 15. -/
structure AdeidFrame where
  alive : Nat
  secondary : Bool := false
  wrap : Bool := false
  bcast : Bool := false
  dst : Nat := 0
  src : Nat := 0
  hops : Nat := 0
  wraps : Nat := 0
  checkOk : Bool := true
  payload : Option AdeidPayload := none
deriving DecidableEq, Repr, Inhabited

/-- ADEID_LINK_STATUS (R515). -/
inductive AdeidLinkPhase where
  | down | training | up | miswired
deriving DecidableEq, Repr, Inhabited

/-- The encoding of a link state (R515). -/
def AdeidLinkPhase.num : AdeidLinkPhase → Nat
  | .down => 0 | .training => 1 | .up => 2 | .miswired => 3

/-- A link Q0 to Q3 (R496 to R500, R515). Lists over classes 0 to 6. -/
structure AdeidLink where
  phase : AdeidLinkPhase := .down
  neighbour : Nat := 0
  device : Nat := 0
  skipped : Bool := false
  checkFails : Nat := 0
  downs : Nat := 0
  tx : Word := 0
  rx : Word := 0
  /-- Consecutive valid LINK frames while training, and the local time of the last one. -/
  valid : Nat := 0
  lastLink : Ns := 0
  linkAt : Ns := 0
  aliveTx : List Nat := List.replicate 7 0
  aliveRx : List AliveRx := List.replicate 7 {}
  /-- Frames freed here, as each LINK frame states, and those the neighbour has freed. -/
  freed : List (BitVec 16) := List.replicate 7 0
  theirs : List (BitVec 16) := List.replicate 7 0
  sentCls : List (BitVec 16) := List.replicate 7 0
  /-- Frames that wait at egress, oldest first. -/
  egress : List AdeidFrame := []
  /-- Round-robin: the last of CMD and REG served was REG. -/
  lastReg : Bool := false
deriving DecidableEq, Repr, Inhabited

/-- What marks a frame as already accepted (R497): source, class, identifier and fragment. -/
structure SeenReq where
  src : Nat
  cls : AdeidClass
  id : Nat
  frag : Nat := 0
  at_ : Ns
deriving DecidableEq, Repr, Inhabited

/-- A node of the cluster as heartbeats show it (R501). -/
structure NodeState where
  /-- Local times of its last heartbeat on the primary and on the secondary ring. -/
  beatP : Option Ns := none
  beatS : Option Ns := none
  /-- Link states Q0 to Q3 as broadcast. -/
  links : List Bool := [false, false, false, false]
  reachP : Bool := false
  reachS : Bool := false
  seq : Nat := 0
deriving DecidableEq, Repr, Inhabited

/-- A fall-door (R506 to R510, R558, R560). -/
structure Door where
  open_ : Bool := false
  cmdClosed : Bool := false
  /-- Local time at which its hold is restored. -/
  openAt : Option Ns := none
deriving DecidableEq, Repr, Inhabited

/-- The state of ADEID (R515 to R518). -/
structure AdeidState where
  event : W1C := {}
  node : Nat := 0
  nodes : List Nat := []
  ready : Bool := false
  primaryWhole : Bool := false
  secondaryWhole : Bool := false
  discard : Nat := 0
  dups : Nat := 0
  wraps : Nat := 0
  links : List AdeidLink := List.replicate 4 {}
  seen : List SeenReq := []
  states : List NodeState := []
  topoSeq : Nat := 0
  topoAt : Ns := 0
  doors : List Door := List.replicate 6 {}
  lastCause : Nat := 0
  lastDoor : Nat := 0
  holdRenewed : Ns := 0
  holdLapsed : Bool := false
  /-- Frames sent, newest first, with their link. -/
  sent : List (Nat × AdeidFrame) := []
deriving DecidableEq, Repr, Inhabited

end Sys2Proof.Machine
end

