-- ==== Sys2Proof/Machine/SecState.lean ====
section
/-! DEFINITION. The state of SEC and DIAG, and the snapshots of register reads (spec/16_manifest_and_two_party.md, spec/18_health_and_service_life.md, spec/00_scope.md R10). -/

namespace Sys2Proof.Machine

open Sys2Proof

/-- A key slot (R527, R549). -/
structure KeySlot where
  present : Bool := false
  role : Role := .engineer
  key : BitVec 256 := 0
  bad : Bool := false
  nonce : BitVec 64 := 0
deriving DecidableEq, Repr, Inhabited

/-- SEC_SLOT (R549). -/
inductive SlotPhase where
  | empty | writing | verifying | valid
deriving DecidableEq, Repr, Inhabited

/-- The encoding of a slot's state (R549). -/
def SlotPhase.num : SlotPhase → Nat
  | .empty => 0 | .writing => 1 | .verifying => 2 | .valid => 3

/-- A record of an overlay. `good`: its CRC and both signatures verify (R544). An ACQ_SWAP keeps its coefficients and FADE_LEN, a
LOGIC_EXCHANGE its section (R538). -/
structure OverlayRec where
  item : PropItem
  coef : Option CoefSet := none
  fade : Nat := 0
  prog : Option LogicCfg := none
  propSlot : Nat
  confSlot : Nat
  propNonce : BitVec 64
  confNonce : BitVec 64
  bytes : Nat := 0
  good : Bool := true
deriving DecidableEq, Repr, Inhabited

/-- A Manifest slot with its overlay (R519, R531, R544). -/
structure Slot where
  phase : SlotPhase := .empty
  rejected : Bool := false
  /-- The cause of the last rejection, and what SEC_REJECT shows: the last cause but ENVELOPE, with its section ID. -/
  cause : Nat := 0
  shown : Nat := 0
  section_ : Nat := 0
  image : Option Image := none
  overlay : List OverlayRec := []
  /-- An uncorrectable MRAM error lies in the slot or its overlay. -/
  memError : Bool := false
deriving DecidableEq, Repr, Inhabited

/-- SEC_PROP_STATUS.STATE (R552). -/
inductive PropPhase where
  | empty | pending | committing
deriving DecidableEq, Repr, Inhabited

/-- The encoding of a proposal's state (R552). -/
def PropPhase.num : PropPhase → Nat
  | .empty => 0 | .pending => 1 | .committing => 2

/-- LAST_END (R552). -/
inductive PropEnd where
  | none | commit | window | withdraw | activate | refused
deriving DecidableEq, Repr, Inhabited

/-- The encoding of LAST_END (R552). -/
def PropEnd.num : PropEnd → Nat
  | .none => 0 | .commit => 1 | .window => 2 | .withdraw => 3 | .activate => 4 | .refused => 5

/-- A proposal (R540 to R543, R552). -/
structure Proposal where
  phase : PropPhase := .empty
  lastEnd : PropEnd := .none
  id : BitVec 64 := 0
  body : Option Propose := none
  propSlot : Nat := 0
  confSlot : Nat := 0
  propNonce : BitVec 64 := 0
  confNonce : BitVec 64 := 0
  /-- Local time at which the window ends. -/
  windowEnd : Ns := 0
  /-- A CONFIRM arrived in time and its signature is being checked: its berth (R541). -/
  stopped : Option Nat := none
  /-- The berth of the accepted CONFIRM and its admission order. -/
  confBerth : Option Nat := none
  confOrder : Nat := 0
deriving DecidableEq, Repr, Inhabited

/-- An activation that waits for a boundary (R535). -/
structure Activation where
  slotB : Bool
  berth : Nat
  /-- The last boundary served when its CTL stage ended. -/
  boundary : Nat
deriving DecidableEq, Repr, Inhabited

/-- The state of SEC (R549 to R552). -/
structure SecState where
  event : W1C := {}
  root : Option (BitVec 256) := none
  keys : List KeySlot := List.replicate 8 {}
  slotA : Slot := {}
  slotB : Slot := {}
  liveB : Bool := false
  live : Bool := false
  bare : Bool := false
  liveId : BitVec 128 := 0
  liveRollback : Nat := 0
  activations : List Activation := []
  floor : Nat := 0
  /-- The device-number fields filled so far, the newest first. -/
  devices : List Nat := []
  /-- Device-number counts that a failed burn has consumed. -/
  deviceLost : Nat := 0
  /-- Counts remaining (R545). -/
  tallyKey : List Nat := List.replicate 8 15
  tallyRollback : Nat := 255
  tallyEpoch : Nat := 63
  proposals : List Proposal := List.replicate 4 {}
  confirms : Nat := 0
  /-- The crypto known-vector test fails (R575). -/
  cryptoFail : Bool := false
deriving DecidableEq, Repr, Inhabited

/-- The device number, 0 before the first assignment (R546). -/
def SecState.device (s : SecState) : Nat := s.devices.headD 0

/-- Device-number counts remaining (R545, R546). -/
def SecState.deviceLeft (s : SecState) : Nat := (if s.devices = [] then 3 else 4 - s.devices.length) - s.deviceLost

/-- A Manifest slot by its letter. -/
def SecState.slot (s : SecState) (b : Bool) : Slot := if b then s.slotB else s.slotA

/-- Replace a Manifest slot. -/
def SecState.setSlot (s : SecState) (b : Bool) (x : Slot) : SecState :=
  if b then { s with slotB := x } else { s with slotA := x }

/-- The health state (R583). -/
inductive Health where
  | ok | warning | alarm | critical
deriving DecidableEq, Repr, Inhabited

/-- The encoding of HEALTH (R588). -/
def Health.num : Health → Nat
  | .ok => 0 | .warning => 1 | .alarm => 2 | .critical => 3

/-- The self-tests in the order of R575. -/
inductive SelfTest where
  | sram | dram | mram | crypto | protKat | chk | formLockstep | clkGuard | scrub
deriving DecidableEq, Repr, Inhabited

/-- The bit of a test in DIAG_TEST_FAIL (R575, R587). -/
def SelfTest.bit : SelfTest → Nat
  | .sram => 0 | .dram => 1 | .mram => 2 | .crypto => 3 | .protKat => 4 | .chk => 5 | .formLockstep => 6
  | .clkGuard => 7 | .scrub => 8

/-- An ECC-protected memory (R576). -/
structure EccMem where
  corrected : Nat := 0
  uncorrected : Nat := 0
  /-- Start of the present hour and corrected errors in it; last uncorrectable error. -/
  hourAt : Option Ns := none
  hourCount : Nat := 0
  uncorrAt : Option Ns := none
deriving DecidableEq, Repr, Inhabited

/-- A temperature sensor in 0.1 °C (R579). -/
structure TempSensor where
  now_ : Int := 0
  peak : Int := 0
deriving DecidableEq, Repr, Inhabited

/-- The life ledger in MRAM (R581). -/
structure Ledger where
  opsec : Nat := 0
  pwrcyc : Nat := 0
  refreshPasses : Nat := 0
  singles : Nat := 0
  lastwords : Nat := 0
  overs : Nat := 0
  hist : List Nat := List.replicate 32 0
  /-- Equivalent age in seconds (R582). -/
  age : Num := 0
  /-- Switching counts of the field channels. -/
  switches : List Nat := List.replicate 192 0
deriving DecidableEq, Repr, Inhabited

/-- The MRAM refresh pass (R577, R578). Times on the scale of R577, in seconds. -/
structure Refresh where
  active : Bool := false
  /-- Start of the last pass, on PTP time or on operating seconds. -/
  startPtp : Nat := 0
  startOps : Nat := 0
  cursor : Nat := 0
  stored : Nat := 0
  corrected : Nat := 0
  /-- Local time of the last line. -/
  lineAt : Ns := 0
  lateInPass : Bool := false
  skipped : List Nat := []
deriving DecidableEq, Repr, Inhabited

/-- A diagnosis bundle as written to BULK_ADDR: what its header says, the status and event registers of every block, the ledger with its histogram,
the memories' error counts, drifts and temperatures, and the newest logbook records, each with its Hatch status (R586). -/
structure Bundle where
  device : Nat
  ts : Word
  regs : List (Word × Word)
  ledger : Ledger
  ecc : List EccMem
  ages : List Nat
  temps : List TempSensor
  records : List (Nat × List (BitVec 8))
deriving DecidableEq, Repr, Inhabited

/-- The state of DIAG (R587 to R589). -/
structure DiagState where
  event : W1C := {}
  health : Health := .ok
  alertLow : Bool := true
  tempWarn : Bool := false
  ageWarn : Bool := false
  ageAlarm : Bool := false
  lifeWarn : Bool := false
  lifeEnd : Bool := false
  refresh : Refresh := {}
  testFail : Word := 0
  /-- Periodic self-tests that failed when they last ran, and the local time of each test's last run. -/
  failing : List SelfTest := []
  ranAt : List Ns := List.replicate 9 0
  ledger : Ledger := {}
  /-- The ledger as committed to MRAM (R581). -/
  stored : Ledger := {}
  lifeUsed : Nat := 0
  ecc : List EccMem := List.replicate 8 {}
  temps : List TempSensor := List.replicate 5 {}
  ages : List Nat := List.replicate 5 0
  /-- Local times of the last temperature reading, delay measurement and OPSEC commit; seconds since the last full commit. -/
  tempAt : Ns := 0
  ageAt : Option Ns := none
  opsAt : Ns := 0
  opsRun : Nat := 0
  /-- Sum and number of baseplate readings of the present 60 s (R582). -/
  tempSum : Int := 0
  tempCount : Nat := 0
  /-- Bundles written, and the last of them (R586). The bus address is the entry's. -/
  bundles : Nat := 0
  bundle : Option Bundle := none
deriving DecidableEq, Repr, Inhabited

/-- A snapshot that a requester's last low-word read has taken of a register (R10, R111). -/
structure RegSnap where
  who : Requester
  offset : Nat
  value : Word
deriving DecidableEq, Repr, Inhabited

end Sys2Proof.Machine
end

