-- ==== Sys2Proof/Machine/TideState.lean ====
section
/-! DEFINITION. The state of TIDE: the position and its rate, the Pilot, the 256 marks, point-on-wave closing, conversions (spec/02_tide.md). -/

namespace Sys2Proof.Machine

open Sys2Proof

/-- The states of Tide in the order of TIDE_STATUS.STATE (R61, R81). -/
inductive TidePhase where
  | init | aligned | converging | coasting
deriving DecidableEq, Repr, Inhabited

/-- The encoding of a Tide state (R81). -/
def TidePhase.num : TidePhase → Nat
  | .init => 0 | .aligned => 1 | .converging => 2 | .coasting => 3

/-- The states of the Pilot in the order of PILOT_STATUS.STATE (R52, R83). -/
inductive PilotPhase where
  | off | acquiring | tracking | lost
deriving DecidableEq, Repr, Inhabited

/-- The encoding of a Pilot state (R83). -/
def PilotPhase.num : PilotPhase → Nat
  | .off => 0 | .acquiring => 1 | .tracking => 2 | .lost => 3

/-- Reasons of the last entry into LOST, in the order of PILOT_STATUS.LOST_REASON (R83). -/
inductive LostReason where
  | none | lowMag | freqRange | jump | input
deriving DecidableEq, Repr, Inhabited

/-- The encoding of a reason (R83). -/
def LostReason.num : LostReason → Nat
  | .none => 0 | .lowMag => 1 | .freqRange => 2 | .jump => 3 | .input => 4

/-- The Pilot (R50 to R53, R83). -/
structure Pilot where
  phase : PilotPhase := .off
  lostReason : LostReason := .none
  /-- Consecutive Pilot cycles that met every criterion, saturating at 255. -/
  trackCycles : Nat := 0
  angle : Angle := 0
  /-- Frequency (Hz), ROCOF (Hz/s), magnitude (pu), phase error and last jump (degrees). -/
  freq : Num := 0
  rocof : Num := 0
  mag : Num := 0
  perr : Num := 0
  lastJump : Num := 0
  /-- Local time of the latest update, and the acquisition instant of its input samples (R50). -/
  at_ : Ns := 0
  sampled : Option Nat := none
  /-- Every criterion has held at every update since the last positive-going wrap. -/
  cycleGood : Bool := false
  /-- Frequency at the last positive-going wrap, for the change per cycle; none before the first. -/
  cycleFreq : Option Num := none
  /-- Since when the magnitude has been below PILOT_LOSS_LEVEL. -/
  lowSince : Option Ns := none
  /-- In LOST: since when magnitude and inputs have been good. -/
  goodSince : Option Ns := none
deriving DecidableEq, Repr, Inhabited

/-- One of the 256 marks (R69, R84). -/
structure Mark where
  armed : Bool := false
  action : MarkAction := .none
  owner : MarkOwner := .manifest
  cycle : Nat := 0
  angle : Angle := 0
  period : Option Nat := none
  level : Bool := false
  target : Nat := 0
  log : Bool := false
  /-- PTP time sent to the field group with the edge (R72). -/
  sent : Option Nat := none
  /-- TS32 of the last firing (R80). -/
  fired : Word := 0
deriving DecidableEq, Repr, Inhabited

/-- A close that a point-on-wave breaker has accepted (R76, R77). -/
structure PowPending where
  /-- The requested angle, an angle of the Pilot. -/
  reqAngle : Angle
  /-- The mark that carries the edge, and the cycle count of the target. -/
  mark : Nat
  cycle : Nat
  /-- PTP time of the target and of the edge command. -/
  tTarget : Nat
  tEdge : Nat
  /-- The edge has been sent or the breaker closed. -/
  sent : Bool := false
  /-- PTP time of the first touch that counts (R74, R77). -/
  touch : Option Nat := none
deriving DecidableEq, Repr, Inhabited

/-- A point-on-wave breaker: its learnt close time, kept in MRAM, and its pending close (R74, R77). -/
structure Pow where
  /-- T_b in ns. -/
  tb : Num := 0
  /-- T_NOM and the close channel for which T_b was learnt (R74). -/
  tNom : Ns := 0
  closeCh : Nat := 0
  pending : Option PowPending := none
deriving DecidableEq, Repr, Inhabited

/-- An entry of the history: the tick number, the rate word from then on, the position reached
and the local time at that tick (R47, R73). -/
structure HistEntry where
  tick : Nat
  rate : BitVec 64
  posQ : BitVec 112
  time : Nat
deriving DecidableEq, Repr, Inhabited

/-- A conversion (R85). -/
structure TideConv where
  go : Bool := false
  dir : Bool := false
  done : Bool := false
  errRange : Bool := false
  predicted : Bool := false
  ns : BitVec 64 := 0
  angle : Angle := 0
  cycle : BitVec 48 := 0
  /-- The inputs with which the running conversion started. -/
  runNs : BitVec 64 := 0
  runAngle : Angle := 0
  runCycle : BitVec 48 := 0
  runDir : Bool := false
deriving DecidableEq, Repr, Inhabited

/-- A bookkeeping entry per source: since when it has been eligible without a break (R58). -/
structure SrcHold where
  src : TideSrc
  since : Option Ns := none
deriving DecidableEq, Repr, Inhabited

/-- The TIDE block (R43 to R85). -/
structure TideState where
  /-- The position: 48-bit cycle count, 32-bit angle, and 32 fractional bits below the angle that
  the Q32.32 rate word adds to (R43, R44). -/
  posQ : BitVec 112 := 0
  /-- The rate word, au per tick in Q32.32 (R44). -/
  rate : BitVec 64 := 0
  phase : TidePhase := .init
  /-- The active source, and in CONVERGING the source converged to (R61). -/
  src : TideSrc := .freerun
  target : TideSrc := .freerun
  /-- The source whose loss is being coasted (R63). -/
  lost : Option TideSrc := none
  pin : Option TideSrc := none
  coastLeft : Nat := 0
  rateClamp : Bool := false
  /-- The forming unit whose rotor is bound to Tide (R59). -/
  bound : Option Nat := none
  degraded : Bool := false
  /-- The frequency offset of the handover law, in Hz (R60). -/
  df : Num := 0
  /-- Offset e, source minus Tide, in au as a signed number (R60, R80). -/
  offset : Int := 0
  /-- The last recomputation: the bound unit with its control cycle, or the fast-lane grid point (R45). -/
  rateAt : Option (Option Nat × Nat) := none
  /-- Consecutive recomputations with the offset within LOCK_WINDOW (R61). -/
  inWindow : Nat := 0
  /-- Eligibility times of the sources (R58). -/
  holds : List SrcHold := []
  /-- Tide has been aligned in one step (R67). -/
  aligned : Bool := false
  /-- A phasor has been released to a consumer (R67). -/
  phasorReleased : Bool := false
  /-- The cycle count up to which carries have been served, and the position up to which marks
  have been served (R46, R70). -/
  carried : Nat := 0
  fired : BitVec 80 := 0
  /-- The history, newest first, at most 4,096 entries (R47). -/
  hist : List HistEntry := []
  markStepLate : Nat := 0
  pilot : Pilot := {}
  marks : List Mark := List.replicate 256 {}
  pow : List Pow := List.replicate 8 {}
  conv : TideConv := {}
  event : W1C := {}
deriving DecidableEq, Repr, Inhabited

/-- The cycle count of the position (R13, R43). -/
def TideState.cycle (t : TideState) : Nat := (t.posQ >>> 64).toNat

/-- The angle of the position (R13, R43). -/
def TideState.angle (t : TideState) : Angle := (t.posQ >>> 32).setWidth 32

/-- The 80-bit position (R43). -/
def TideState.pos (t : TideState) : BitVec 80 := (t.posQ >>> 32).setWidth 80

end Sys2Proof.Machine
end

