-- ==== Sys2Proof/Machine/Operands.lean ====
section
/-! DEFINITION. The operand forms of the commands: what each step receives from outside the block, or from a part of it whose working the manual does not give (the analog front end, the phase detectors, a program of Mowyn, the bytes of host memory). -/

namespace Sys2Proof.Machine

open Sys2Proof

/-- The references that qualify at one measurement (R88). -/
inductive RefSeen where
  | tcxo | xref | both
deriving DecidableEq, Repr, Inhabited

def RefSeen.hasTcxo : RefSeen → Bool
  | .xref => false
  | _ => true

def RefSeen.hasXref : RefSeen → Bool
  | .tcxo => false
  | _ => true

/-- What the detectors of a loop find: its frequency beyond its limit, or the phase error of its PFD in ns (R94, R96). -/
structure LossSeen where
  loop : LoopId
  freq : Bool
  pfd : Num
deriving DecidableEq, Repr

/-- Who writes a register: the host over BAR0, or a block inside the device, from its domain (R113). -/
inductive Writer where
  | host
  | inner (domain : Nat)
deriving DecidableEq, Repr, Inhabited

/-- What the boot self-tests and the boot MRAM check find (R419, R556, R575). The command of stage 2 carries the tests of the memories,
the crypto vectors, the lanes, the CHK engines and the clock guard; that of stage 3 the keys; that of stage 4 the lockstep test. -/
structure BootIn where
  /-- Blocks whose SRAM test fails, and the lanes whose own SRAM fails. -/
  deadBlocks : List Blk := []
  deadA : Bool := false
  deadB : Bool := false
  dramFail : Bool := false
  /-- MRAM: bank A or B fails under the logbook; an uncorrectable error in slot A or B; a torn record at the logbook's end. -/
  bankAFail : Bool := false
  bankBFail : Bool := false
  slotAFail : Bool := false
  slotBFail : Bool := false
  torn : Bool := false
  cryptoFail : Bool := false
  katA : Bool := true
  katB : Bool := true
  chkFailed : List Nat := []
  /-- The loop that fails the clock guard calibration. -/
  guardFail : Option LoopId := none
  /-- Key slots whose key does not verify against the root (R527). -/
  badKeys : List Nat := []
  /-- Forming units that fail the lockstep self-test. -/
  lockstepFailed : List Nat := []
deriving DecidableEq, Repr, Inhabited

/-- What the Pilot's loop computes at one update from its input samples (R50, R53). -/
structure PilotIn where
  angle : Angle
  freq : Num
  rocof : Num
  mag : Num
  perr : Num
  /-- A step in the measured phase within one half-cycle (degrees, signed). -/
  jump : Option Num := none
deriving DecidableEq, Repr, Inhabited

/-- What a fault in a lane makes of an element's result; it differs from the other lane's in any case. -/
structure Upset where
  lane : LaneId
  elem : Nat
  pickup : Bool
  operate : Bool
deriving DecidableEq, Repr, Inhabited

/-- What a strobe brings (R18, R126, R157): for each local channel the 768 modulator bits of the fast-lane period that ends here, the
oldest in bit 0; the sample copies that fail their CRC-16 on each lane; whether a lane misses its limit; what faults make of results. -/
structure StrobeIn where
  bits : List (Nat × BitVec 768) := []
  badA : List ChanRef := []
  badB : List ChanRef := []
  /-- Zones whose copy of the totals fails on a lane (R225). -/
  badZoneA : List Nat := []
  badZoneB : List Nat := []
  missA : Bool := false
  missB : Bool := false
  upsets : List Upset := []
  /-- At a boundary that commits proposals: those whose fuse burn does not read back, and whether bank A passes its test (R422, R545). -/
  fuseBad : List Nat := []
  bankAGood : Bool := true
deriving DecidableEq, Repr, Inhabited
abbrev FastIn := StrobeIn
abbrev PhasorIn := StrobeIn
/-- The outcome of a known-answer test on each lane (R192). -/
structure KatIn where
  passA : Bool := true
  passB : Bool := true
deriving DecidableEq, Repr, Inhabited
/-- A sum frame that arrives (R215, R217): its ring, the port of arrival (0 and 1 for the first and second port of a pair, 0 to 3
for Q0 to Q3), its fields, and its CHECK and TCHECK. -/
structure SumIn where
  ring : ZoneRing
  port : Nat
  frame : SumFrame
  check : Word := frame.check
  tcheck : BitVec 8 := frame.tcheck
deriving DecidableEq, Repr, Inhabited
/-- CHECK and TCHECK are those of the fields (R216, R217). -/
def SumIn.checkOk (x : SumIn) : Bool := decide (x.check = x.frame.check ∧ x.tcheck = x.frame.tcheck)
/-- An uplink as it arrives on the port of bridge `br`, with its CHECK and its time stamp in ns of local time (R290, R292). -/
structure UplinkIn where
  br : Nat
  frame : Uplink
  tRx : Num
  check : Word := frame.check
deriving DecidableEq, Repr, Inhabited
/-- CHECK is that of the bytes before it (R288, R290). -/
def UplinkIn.checkOk (x : UplinkIn) : Bool := decide (x.check = x.frame.check)
/-- What a group coupler's diagnostics say of a channel: pin voltage in mV, current in µA per member, and whether an open wire or an
indeterminate level is still found (R325, R331). -/
structure ChMeasure where
  ch : Nat
  pinMv : Int
  current : Nat
  openWire : Bool := false
  indeterminate : Bool := false
deriving DecidableEq, Repr, Inhabited
/-- A group-coupler frame as it arrives on the logic side (R309): whether its check is correct, the measurements it carries, and the
controller's temperature in 0.1 °C. The edge records it carries are the oldest of the group's FIFO. -/
structure CouplerIn where
  g : Nat
  valid : Bool := true
  chans : List ChMeasure := []
  temp : Option Int := none
deriving DecidableEq, Repr, Inhabited
/-- A dark pulse of an output (R326): `fell` is none at its start; at its end it says whether the pin fell below 5.0 V.
`rises`: by how much (µA) the current of every other output of the group that is on has risen. -/
structure DarkIn where
  ch : Nat
  fell : Option Bool := none
  rises : List (Nat × Nat) := []
deriving DecidableEq, Repr, Inhabited
/-- The probing of a group for an output that is off (R327): the channels during whose probe its pin fell below 5.0 V. -/
structure ProbeIn where
  ch : Nat
  fellDuring : List Nat := []
deriving DecidableEq, Repr, Inhabited
/-- What the logic phase of a task's cycle yields: its writes, requests and calls in order, and its run time (R345, R348). -/
structure WriteIn where
  task : Nat
  reqs : List LogicReq := []
  exec : Ns := 0
deriving DecidableEq, Repr, Inhabited
/-- A frame that arrives on a port (R430): its port, what it is, and whether its FCS is correct. -/
structure FrameIn where
  port : Nat
  frame : Frame
  fcsOk : Bool := true
deriving DecidableEq, Repr, Inhabited
/-- A Sync, with its Follow_Up when two-step, on a port: the receive stamp, originTimestamp and correctionField in ns, and
logSyncInterval (R441, R445). -/
structure SyncIn where
  port : Nat
  tRx : Num
  origin : Num
  corr : Num := 0
  logSync : Int := 0
  domain : Nat := 0
  sender : BitVec 80 := 0
deriving DecidableEq, Repr, Inhabited
/-- A peer-delay message (R441): a request due here, a request of the partner, or an exchange completed, with the stamps of
Pdelay_Req out and Pdelay_Resp in and the partner's turnaround. -/
inductive PdelayIn where
  | send (port : Nat)
  | request (port : Nat)
  | done (port : Nat) (tOut tIn turnaround : Num)
deriving DecidableEq, Repr, Inhabited
/-- The end of an engine's run (R474): the bytes read from host memory, or why the run ended. -/
structure ChkIn where
  n : Nat
  bytes : List (BitVec 8) := []
  err : ChkErr := .none
deriving DecidableEq, Repr, Inhabited
/-- The engines that do not give the check value: host engines 0 to 7, fixed engines from 8 on (R475). -/
structure ChkKatIn where
  failed : List Nat := []
deriving DecidableEq, Repr, Inhabited
/-- A write of HOST_FR_DB with the frames that the newly published descriptors name (R434, R512). -/
structure FrDbIn where
  v : Word
  frames : List Frame := []
deriving DecidableEq, Repr, Inhabited
/-- A host access of one doubleword over BAR4 (R597): the value of a write. -/
structure Bar4In where
  offset : Nat
  write : Option Word := none
deriving DecidableEq, Repr, Inhabited
/-- A REG request as it arrives at its target (R504): the node that asks, REQ_ID, the BAR0 offset, the value of a write. -/
structure RegIn where
  src : Nat
  reqId : Word
  offset : Nat
  write : Option Word := none
deriving DecidableEq, Repr, Inhabited
/-- An Adeid frame as it arrives on link `q`, with the CHECK and TCHECK inside a sum frame (R216, R496). -/
structure AdeidIn where
  q : Nat
  frame : AdeidFrame
  sumCheck : Word := 0
  sumTcheck : BitVec 8 := 0
deriving DecidableEq, Repr, Inhabited
/-- The 64b/66b block lock of link `q` (R500). -/
structure AdeidLinkIn where
  q : Nat
  lock : Bool
deriving DecidableEq, Repr, Inhabited
/-- What lies at an address of an MRAM bank (R400, R421, R359, R531). -/
inductive MramPlace where
  /-- The logbook or the reserve log, with the slot of the record that lies there. -/
  | logbook (slot : Option Nat)
  | slot (b : Bool)
  | retained (group : Nat) (buf1 : Bool)
  | other
deriving DecidableEq, Repr, Inhabited
/-- An error of an ECC-protected memory, 0 to 7 (R576), with its address; for an MRAM bank, what lies there. -/
structure EccIn where
  m : Nat
  addr : Nat
  corrected : Bool
  place : MramPlace := .other
deriving DecidableEq, Repr, Inhabited

end Sys2Proof.Machine
end

