-- ==== Sys2Proof/Syntax.lean ====
section
/-! DEFINITION. The commands of the SNT192: one constructor for each step of spec/opcode_table.json, with the operands that come from outside the block. A berth command names its berth; what it asks for stands in the berth's entry (R485, R487). -/

namespace Sys2Proof

open Sys2Proof.Machine

/-- The commands. -/
inductive Instr where
  /-- SUPPLY_LEVEL_CHANGE (R553). -/
  | supplyLevelChange (vlb : Bool) (mv : Nat)
  /-- SUPPLY_VALID (R554). -/
  | supplyValid
  /-- SUPPLY_SINGLE (R554). -/
  | supplySingle
  /-- STARTUP_STAGE (R556). -/
  | startupStage (x : BootIn)
  /-- LASTWORDS_ENTRY (R562). -/
  | lastwordsEntry
  /-- LASTWORDS_END (R563). -/
  | lastwordsEnd
  /-- RST_N_RESET (R565). -/
  | rstNReset (held : Ns)
  /-- SYSTEM_WATCHDOG_EXPIRY (R565). -/
  | systemWatchdogExpiry
  /-- HOT_RESET (R566). -/
  | hotReset
  /-- PERST_RESET (R566). -/
  | perstReset
  /-- XREF_LOSS (R87). -/
  | xrefLoss
  /-- XREF_RETURN (R88). -/
  | xrefReturn
  /-- REF_QUALIFIED (R88). -/
  | refQualified (q : RefSeen)
  /-- TCXO_LOSS (R89). -/
  | tcxoLoss
  /-- SPLL_LOCKED (R94). -/
  | spllLocked (l : LoopId)
  /-- SPLL_QUALIFIED (R94). -/
  | spllQualified (l : LoopId)
  /-- SPLL_LOSS_OF_LOCK (R94). -/
  | spllLossOfLock (x : LossSeen)
  /-- SPLL_RETRY (R94). -/
  | spllRetry (l : LoopId)
  /-- CLK_GUARD (R93). -/
  | clkGuard (d : Nat)
  /-- CLK_RETUNE (R98). -/
  | clkRetune (b : Nat)
  /-- RETUNE_TIMEOUT (R99). -/
  | retuneTimeout
  /-- CLK_LOOP_RESET (R94). -/
  | clkLoopReset (b : Nat)
  /-- MEAS_STROBE (R101). -/
  | measStrobe (steer : Num)
  /-- MPLL_LOL (R103). -/
  | mpllLol
  /-- MPLL_REQUALIFIED (R103). -/
  | mpllRequalified
  /-- DEGRADED_END (R106). -/
  | degradedEnd
  /-- DRAM_RETRAIN_DONE (R104). -/
  | dramRetrainDone
  /-- PARTNER_RESET (R112). -/
  | partnerReset (x src d token : Nat) (aligned : Bool)
  /-- DOMAIN_STOPPED (R114). -/
  | domainStopped (d : Nat)
  /-- STOPPED_DOMAIN_ACCESS (R115). -/
  | stoppedDomainAccess (offset : Nat) (write : Bool)
  /-- TIDE_RATE_RECOMPUTE (R60). -/
  | tideRateRecompute
  /-- HANDOVER_START (R61). -/
  | handoverStart
  /-- TIDE_CYCLE_CARRY (R46). -/
  | tideCycleCarry
  /-- TIDE_FALLBACK (R64). -/
  | tideFallback
  /-- PILOT_UPDATE (R50). -/
  | pilotUpdate (x : PilotIn)
  /-- TIDE_PIN (R58). -/
  | tidePin (b : Nat)
  /-- TIDE_UNPIN (R58). -/
  | tideUnpin (b : Nat)
  /-- TIDE_MARK_ARM (R71). -/
  | tideMarkArm (b : Nat)
  /-- TIDE_MARK_FIRE (R70). -/
  | tideMarkFire
  /-- POW_CLOSE_REQUEST (R75). -/
  | powCloseRequest (b : Nat)
  /-- POW_TOUCH (R77). -/
  | powTouch (pw touch : Nat)
  /-- POW_NO_TOUCH (R77). -/
  | powNoTouch (pw : Nat)
  /-- TIDE_CONV_GO (R85). -/
  | tideConvGo (dir : Bool)
  /-- TIDE_CONV_DONE (R85). -/
  | tideConvDone
  /-- FAST_LANE_PERIOD (R19). -/
  | fastLanePeriod (x : FastIn)
  /-- PHASOR_LANE_PERIOD (R156). -/
  | phasorLanePeriod (x : PhasorIn)
  /-- ACQ_INTEG_HOLD_END (R139). -/
  | acqIntegHoldEnd (c : Nat)
  /-- ACQ_COEF_WRITE (R132). -/
  | acqCoefWrite (c : Nat) (bankB : Bool) (k : Nat) (v : Word)
  /-- ACQ_BANK_WRITE (R132). -/
  | acqBankWrite (c : Nat) (v : Word)
  /-- ACQ_SWAP (R134). -/
  | acqSwap (b : Nat)
  /-- ACQ_SWAP_START (R135). -/
  | acqSwapStart (c : Nat)
  /-- ACQ_FADE_DONE (R135). -/
  | acqFadeDone (c : Nat)
  /-- ACQ_SETTLE_END (R136). -/
  | acqSettleEnd (c : Nat)
  /-- LANE_DISAGREE_EPISODE_END (R191). -/
  | laneDisagreeEpisodeEnd (e : Nat)
  /-- PROT_KAT_DONE (R192). -/
  | protKatDone (x : KatIn)
  /-- PROT_KAT_PERIODIC (R192). -/
  | protKatPeriodic
  /-- SG_SELECT (R188). -/
  | sgSelect (b : Nat)
  /-- SG_DEFER_EXPIRY (R188). -/
  | sgDeferExpiry
  /-- DIFF_LAUNCH (R218). -/
  | diffLaunch (z : Nat)
  /-- SUM_FRAME_RX (R219). -/
  | sumFrameRx (x : SumIn)
  /-- DIFF_DEADLINE (R222). -/
  | diffDeadline (z : Nat)
  /-- FORM_CONTROL_CYCLE (R241). -/
  | formControlCycle (u : Nat)
  /-- FORM_COMPUTE (R241). -/
  | formCompute (u : Nat)
  /-- FORM_LOCKSTEP (R242). -/
  | formLockstep (u : Nat)
  /-- FORM_LOCKSTEP_TEST_DONE (R242). -/
  | formLockstepTestDone (u : Nat) (pass : Bool)
  /-- FRT_END (R258). -/
  | frtEnd (u : Nat)
  /-- FRT_ENVELOPE (R257). -/
  | frtEnvelope (u : Nat)
  /-- FORM_READY (R259). -/
  | formReady (u : Nat)
  /-- FORM_START (R262). -/
  | formStart (b : Nat)
  /-- FORM_BLACK_START (R262). -/
  | formBlackStart (b : Nat)
  /-- FORM_CONNECT_DONE (R259). -/
  | formConnectDone (u : Nat)
  /-- FORM_ENERGISE_TIMEOUT (R266). -/
  | formEnergiseTimeout (u : Nat)
  /-- FORM_RESYNC (R268). -/
  | formResync (b : Nat)
  /-- FORM_RESYNC_CANCEL (R259). -/
  | formResyncCancel (b : Nat)
  /-- FORM_RESYNC_TIMEOUT (R259). -/
  | formResyncTimeout (u : Nat)
  /-- FORM_STOP (R262). -/
  | formStop (b : Nat)
  /-- FORM_STOPPED (R259). -/
  | formStopped (u : Nat)
  /-- FORM_BLOCK (R262). -/
  | formBlock (b : Nat)
  /-- FORM_RESET (R262). -/
  | formReset (b : Nat)
  /-- FORM_SETPOINT (R263). -/
  | formSetpoint (b : Nat)
  /-- FORM_STAGE (R264). -/
  | formStage (b : Nat)
  /-- FORM_STEP_APPLY (R264). -/
  | formStepApply (u : Nat)
  /-- FORM_AUTOSTART (R265). -/
  | formAutostart (u : Nat)
  /-- BRIDGE_RESTORE (R272). -/
  | bridgeRestore (b : Nat)
  /-- FORM_CIRC_TRIP (R271). -/
  | formCircTrip (u : Nat)
  /-- FORM_HOLD_TIMEOUT (R275). -/
  | formHoldTimeout (u : Nat)
  /-- GATE_UPLINK_RX (R294). -/
  | gateUplinkRx (x : UplinkIn)
  /-- GATE_REPEAT (R295). -/
  | gateRepeat (br : Nat)
  /-- GATE_BLOCK_IDLE_SEND (R296). -/
  | gateBlockIdleSend (br : Nat)
  /-- GATE_LINK_DOWN (R302). -/
  | gateLinkDown (br : Nat)
  /-- GATE_LINK_UP (R302). -/
  | gateLinkUp (br : Nat)
  /-- GATE_CLEAR (R297). -/
  | gateClear (b : Nat)
  /-- FIO_COUPLER_FRAME (R309). -/
  | fioCouplerFrame (x : CouplerIn)
  /-- FIO_GROUP_LOST (R309). -/
  | fioGroupLost (g : Nat)
  /-- FIO_HANDSHAKE (R311). -/
  | fioHandshake (g : Nat) (ok : Bool)
  /-- FIO_INPUT_EDGE (R313). -/
  | fioInputEdge (ch : Nat) (level : Bool) (stamp : Word) (stable : Ns)
  /-- FIO_TIME_SYNC (R314). -/
  | fioTimeSync (g : Nat)
  /-- FIO_SYNC_LOST (R314). -/
  | fioSyncLost (g : Nat)
  /-- FIO_OUTPUT_COMMAND (R321). -/
  | fioOutputCommand (ch : Nat)
  /-- FIO_SET (R310). -/
  | fioSet (b : Nat)
  /-- FIO_OVERLOAD (R318). -/
  | fioOverload (ch : Nat) (limit : Bool)
  /-- FIO_OVL_RETRY (R319). -/
  | fioOvlRetry (ch : Nat)
  /-- FIO_CLEAR (R319). -/
  | fioClear (b : Nat)
  /-- FIO_OVERTEMP (R320). -/
  | fioOvertemp (ch : Nat) (hot : Bool)
  /-- FIO_WATCHDOG (R322). -/
  | fioWatchdog (g : Nat)
  /-- FIO_SCHED_EDGE (R323). -/
  | fioSchedEdge (g id : Nat)
  /-- FIO_DARK_PULSE (R326). -/
  | fioDarkPulse (x : DarkIn)
  /-- FIO_BACKFEED_PROBE (R327). -/
  | fioBackfeedProbe (x : ProbeIn)
  /-- FIO_OPEN_WIRE (R325). -/
  | fioOpenWire (ch : Nat)
  /-- FIO_INDETERMINATE (R325). -/
  | fioIndeterminate (ch : Nat)
  /-- FIO_SUPPLY (R328). -/
  | fioSupply (g mv : Nat)
  /-- FIO_RESUME (R329). -/
  | fioResume (b : Nat)
  /-- LOGIC_TASK_RELEASE (R343). -/
  | logicTaskRelease (t : Nat)
  /-- LOGIC_EVENT_SOURCE (R344). -/
  | logicEventSource (t src : Nat)
  /-- LOGIC_OUTPUT_WRITE (R348). -/
  | logicOutputWrite (x : WriteIn)
  /-- LOGIC_COMMIT_DONE (R361). -/
  | logicCommitDone (m : Nat)
  /-- LOGIC_HALT (R356). -/
  | logicHalt (ecc : Bool)
  /-- LOGIC_START (R356). -/
  | logicStart (b : Nat)
  /-- LOGIC_STOP (R357). -/
  | logicStop (b : Nat)
  /-- LOGIC_READ (R350). -/
  | logicRead (b : Nat)
  /-- LOGIC_WRITE (R350). -/
  | logicWrite (b : Nat)
  /-- LOGIC_EVENT (R340). -/
  | logicEvent (b : Nat)
  /-- LOGIC_STAGE (R363). -/
  | logicStage (b : Nat)
  /-- LOGIC_EXCHANGE (R364). -/
  | logicExchange (m : Nat)
  /-- LOGIC_EXCH_FAIL (R365). -/
  | logicExchFail (m : Nat)
  /-- RIO_IN_SEND (R353). -/
  | rioInSend (slot : Nat)
  /-- RIO_PAYLOAD_RX (R353). -/
  | rioPayloadRx (src : Nat) (p : RioPayload)
  /-- LOGIC_STATION_DROP (R354). -/
  | logicStationDrop (slot : Nat)
  /-- LOGIC_STATION_SAFE (R355). -/
  | logicStationSafe (slot : Nat)
  /-- CAPT_ARM (R384). -/
  | captArm (b : Nat)
  /-- CAPT_DISARM (R384). -/
  | captDisarm (b : Nat)
  /-- CAPT_MANUAL_TRIGGER (R382). -/
  | captManualTrigger (b : Nat)
  /-- CAPT_SET (R386). -/
  | captSet (b : Nat)
  /-- CAPT_LOCK (R391). -/
  | captLock (b : Nat)
  /-- CAPT_UNLOCK (R391). -/
  | captUnlock (b : Nat)
  /-- CAPT_LOCK_LAPSED (R391). -/
  | captLockLapsed (e : Nat)
  /-- CAPT_CONDITION_MET (R383). -/
  | captConditionMet (e cond : Nat)
  /-- CAPT_WINDOW_END (R383). -/
  | captWindowEnd (e : Nat)
  /-- CAPT_DONE (R384). -/
  | captDone (e : Nat)
  /-- BAR2_READ (R596). -/
  | bar2Read (offset : Nat) (ecc : Bool)
  /-- BAR2_WRITE (R596). -/
  | bar2Write (offset : Nat)
  /-- LOG_INTAKE (R407). -/
  | logIntake
  /-- LOG_COMMIT_DONE (R405). -/
  | logCommitDone (readback : Bool)
  /-- LOG_TAIL_UPDATE (R409). -/
  | logTailUpdate
  /-- LOG_TAIL_FOLD (R409). -/
  | logTailFold
  /-- LOG_H_CURSOR_WRITE (R414). -/
  | logHCursorWrite (h : Nat) (lo : Word)
  /-- LOG_H_STAT_READ (R415). -/
  | logHStatRead (h : Nat)
  /-- LOG_CHECK_FAIL_WINDOW_END (R417). -/
  | logCheckFailWindowEnd
  /-- LOG_STAGE_READ (R592). -/
  | logStageRead
  /-- NET_LINK (R428). -/
  | netLink (p : Nat) (up : Bool) (mbps : Nat)
  /-- NET_FRAME_RX (R433). -/
  | netFrameRx (x : FrameIn)
  /-- NET_MAC_AGE (R432). -/
  | netMacAge
  /-- NET_GCL_ENTRY (R435). -/
  | netGclEntry (p : Nat)
  /-- NET_PORT_ADMIN (R429). -/
  | netPortAdmin (b : Nat)
  /-- HSR_SUPERVISION_SEND (R439). -/
  | hsrSupervisionSend (k : Nat)
  /-- NET_RING_OPEN (R439). -/
  | netRingOpen (k : Nat)
  /-- HSR_DUP_EXPIRY (R438). -/
  | hsrDupExpiry (k : Nat)
  /-- HSR_NODE_EXPIRY (R439). -/
  | hsrNodeExpiry (k : Nat)
  /-- PTP_SYNC_RX (R445). -/
  | ptpSyncRx (x : SyncIn)
  /-- PTP_SLEW_DONE (R445). -/
  | ptpSlewDone
  /-- PTP_LOCK_CHANGE (R446). -/
  | ptpLockChange
  /-- PTP_FOLLOWUP_LOST (R444). -/
  | ptpFollowupLost
  /-- PTP_PDELAY (R441). -/
  | ptpPdelay (x : PdelayIn)
  /-- PTP_SEND (R441). -/
  | ptpSend (p : Nat)
  /-- HOLDOVER_START (R447). -/
  | holdoverStart
  /-- PTP_FREE (R447). -/
  | ptpFree
  /-- GOOSE_FRAME_RX (R451). -/
  | gooseFrameRx (f : GooseFrame)
  /-- GOOSE_TAL_EXPIRED (R451). -/
  | gooseTalExpired (n : Nat)
  /-- GOOSE_PUBLISH_CHANGE (R452). -/
  | goosePublishChange (q : Nat)
  /-- GOOSE_RETRANSMIT (R452). -/
  | gooseRetransmit (q : Nat)
  /-- SV_FRAME_RX (R453). -/
  | svFrameRx (f : SvFrame)
  /-- NET_SV_LOST (R453). -/
  | netSvLost (n : Nat)
  /-- HEALTH_GOOSE_PUBLISH (R585). -/
  | healthGoosePublish
  /-- CHK_E_GO (R474). -/
  | chkEGo (n : Nat) (v : Word)
  /-- CHK_E_DONE (R474). -/
  | chkEDone (x : ChkIn)
  /-- CHK_KAT (R475). -/
  | chkKat (x : ChkKatIn)
  /-- HOST_SQ_DB (R484). -/
  | hostSqDb (r : Nat) (v : Word)
  /-- HOST_ENTRY_ARRIVAL (R489). -/
  | hostEntryArrival (r : Nat) (e : Entry)
  /-- BERTH_BULK_DONE (R488). -/
  | berthBulkDone (b : Nat)
  /-- BERTH_SIG_DONE (R530). -/
  | berthSigDone (b : Nat) (valid : Bool)
  /-- HOST_COMPLETION_WRITE (R486). -/
  | hostCompletionWrite (b : Nat)
  /-- HOST_CQ_DB (R486). -/
  | hostCqDb (r : Nat) (v : Word)
  /-- HOST_RING_CTRL_WRITE (R483). -/
  | hostRingCtrlWrite (r : Nat) (v : Word)
  /-- HOST_FR_DB (R434). -/
  | hostFrDb (x : FrDbIn)
  /-- HOST_LINK_DOWN (R482). -/
  | hostLinkDown
  /-- HOST_FORWARD_NO_ANSWER (R503). -/
  | hostForwardNoAnswer (req : Word)
  /-- BAR4_ACCESS (R504). -/
  | bar4Access (x : Bar4In)
  /-- REG_REQUEST_RX (R504). -/
  | regRequestRx (x : RegIn)
  /-- REG_ANSWER_RX (R504). -/
  | regAnswerRx (req : Word) (a : RegAnswer)
  /-- REG_TIMEOUT (R504). -/
  | regTimeout (req : Word)
  /-- ADEID_FRAME_RX (R499). -/
  | adeidFrameRx (x : AdeidIn)
  /-- ADEID_LINK_FRAME_SEND (R498). -/
  | adeidLinkFrameSend (q : Nat)
  /-- ADEID_LINK (R500). -/
  | adeidLink (x : AdeidLinkIn)
  /-- TOPO_HEARTBEAT (R501). -/
  | topoHeartbeat
  /-- ADEID_HEARTBEAT_LOSS (R501). -/
  | adeidHeartbeatLoss (n : Nat) (secondary : Bool)
  /-- DOOR_HOLD_RENEW (R506). -/
  | doorHoldRenew
  /-- DOOR_HOLD_LAPSE (R506). -/
  | doorHoldLapse
  /-- DOOR_OPEN_SCHEDULED (R558). -/
  | doorOpenScheduled (d : Nat)
  /-- DOOR_CLOSE (R510). -/
  | doorClose (b : Nat)
  /-- DOOR_OPEN (R510). -/
  | doorOpen (b : Nat)
  /-- PROVISION_ROOT (R526). -/
  | provisionRoot (b : Nat)
  /-- KEY_INSTALL (R527). -/
  | keyInstall (b : Nat)
  /-- MANIFEST_LOAD (R534). -/
  | manifestLoad (b : Nat)
  /-- MANIFEST_VERIFY_DONE (R531). -/
  | manifestVerifyDone (slotB : Bool)
  /-- MANIFEST_ACTIVATE (R535). -/
  | manifestActivate (b : Nat)
  /-- MANIFEST_ACTIVATE_EFFECT (R535). -/
  | manifestActivateEffect
  /-- MANIFEST_PROMOTE (R536). -/
  | manifestPromote (b : Nat) (fuses : Nat)
  /-- PROPOSE (R540). -/
  | propose (b : Nat)
  /-- CONFIRM (R541). -/
  | confirm (b : Nat)
  /-- PROPOSE_WITHDRAW (R542). -/
  | proposeWithdraw (b : Nat)
  /-- PROPOSAL_WINDOW_LAPSE (R542). -/
  | proposalWindowLapse (p : Nat)
  /-- DIAG_SELFTEST_PERIODIC (R575). -/
  | diagSelftestPeriodic (t : SelfTest) (l : LoopId) (pass : Bool)
  /-- DIAG_ECC_ERROR (R576). -/
  | diagEccError (x : EccIn)
  /-- MRAM_REFRESH_LINE (R577). -/
  | mramRefreshLine (line : Nat) (corrected : Bool)
  /-- MRAM_REFRESH_START (R577). -/
  | mramRefreshStart
  /-- DIAG_TEMP_READ (R579). -/
  | diagTempRead (x : List Int)
  /-- DIAG_AGE_MEASURE (R580). -/
  | diagAgeMeasure (x : List Nat)
  /-- LEDGER_COMMIT (R581). -/
  | ledgerCommit
  /-- DIAG_BUNDLE (R586). -/
  | diagBundle (b : Nat)
  /-- SNAPSHOT_LOW_WORD_READ (R10). -/
  | snapshotLowWordRead (who : Requester) (offset : Nat)
  /-- EVCNT_WORD0_READ (R595). -/
  | evcntWord0Read (who : Requester) (slot : Nat)
  /-- HOST_BERTH_USE_READ (R592). -/
  | hostBerthUseRead
  /-- W1C_WRITE (R9). -/
  | w1cWrite (offset : Nat) (v : Word)
  /-- BAR0_BAD_WRITE (R591). -/
  | bar0BadWrite
  /-- UNINST_ACCESS (R32). -/
  | uninstAccess (blk : Blk)
  /-- REGISTER_WRITE (R9). -/
  | registerWrite (offset : Nat) (v : Word) (who : Writer)
  /-- TCXO_QUALIFIED (R89). -/
  | tcxoQualified
  /-- XREF_QUALIFIED (R86). -/
  | xrefQualified (ppm : Num)
  /-- HOST_LINK_UP (R482). -/
  | hostLinkUp
  /-- ADEID_REQ_ID_EXPIRY (R497). -/
  | adeidReqIdExpiry
  /-- DOMAIN_CLOCK_RETURN (R114). -/
  | domainClockReturn (d : Nat)
deriving DecidableEq, Repr, Inhabited

end Sys2Proof
end

