-- ==== Sys2Proof/Config.lean ====
section
/-! DEFINITION. What an implementation fixes and what the manual leaves open: constants without a body, of which no proof can see a value (notes/assumptions). -/

namespace Sys2Proof.Config

open Sys2Proof

/-- The revision letter of the module, as SYS_ID shows it (R1, R570). -/
opaque revision : BitVec 8

/-- Real functions whose rounding the manual does not state (R60, R155, R191, R243 to R258, R582). -/
opaque sqrt : Num → Num
opaque sin : Num → Num
opaque cos : Num → Num
opaque atan2 : Num → Num → Num
opaque exp : Num → Num
opaque log : Num → Num
opaque pow : Num → Num → Num

/-- π as the digital blocks hold it. -/
opaque pi : Num

/-- The coefficients of the fixed stages 4, 5 and 6, the rounding of a lane value to its 24-bit code and of the
integrator to its 48-bit state, and what stands in the
fixed stages for the waveform-lane samples that a shorter delay skips (R126, R128, R136). -/
opaque halfBand1 : Nat → Num
opaque halfBand2 : Nat → Num
opaque phasorFir : Nat → Num
opaque round24 : Num → Int
opaque round48 : Num → Int
opaque skippedWave : Nat → Nat → Num

/-- The value of a waveform-lane quantity between two samples, from the newer, the older and the part of a sample period (R253). -/
opaque betweenSamples : Num → Num → Num → Num

/-- sourcePortIdentity of a port of the device (R442). -/
opaque ownPort : Nat → BitVec 80

/-- The device's own MAC address, and the bucket of a MAC address and VID in the table of 4,096 buckets (R432, R438). -/
opaque ownMac : BitVec 48
opaque macBucket : BitVec 48 → Nat → Nat

/-- pu per LSB of a subscribed SV channel, from its declared nominal (R7, R453). -/
opaque svPu : Nat → Num

/-- The measured ratio of the backup oscillator to the reference, by which residences are scaled in DEGRADED (R444). -/
opaque backupRatio : Num

/-- The servo's rate in ppm for a bandwidth and the offsets measured since it started, newest first (R445). -/
opaque servoRate : Num → List Num → Num

/-- The resonant path of R249: its new output from KRI, 2·f_r, Ts, its last output and the error (real and imaginary parts). -/
opaque res2 : Num → Num → Num → Num × Num → Num × Num → Num × Num

/-- The modulation index of a neutral leg, from the common-mode term of its bridge (R287, R303). -/
opaque neutralIndex : Num → Num

/-- CRC-32C of the partner's side of an EXPORT, by station slot (R352). -/
opaque partnerExportCrc : Nat → Word

/-- CODE and default severity of the records that the catalogue of Mowyn numbers (R404). -/
opaque recCode : Rec → Nat
opaque recSeverity : Rec → Severity

/-- The bytes of a payload that the catalogue of Mowyn lays out (R402, R404). -/
opaque payloadByte : Rec → List Int → Nat → BitVec 8

/-- The first 4 bytes of SHA-512 over a public key (R549). -/
opaque keyFp : BitVec 256 → Word

/-- The first 16 bytes of SHA-512 over a root public key (R526). -/
opaque sha512id : BitVec 256 → BitVec 128

/-- The bytes read from a logbook slot that took an uncorrectable error, by sequence number (R417). -/
opaque spoiltByte : Nat → Nat → BitVec 8

/-- KIND and INDEX of a source as the tables of a capture partition hold them, and the UNIT of an SV channel: 1 A or 2 V (R377, R380). -/
opaque digEntry : DigSource → Nat × Nat
opaque anaEntry : AnaKind → Nat × Nat
opaque svVolts : Nat → Bool

/-- A SETTING of the catalogue of Mowyn applied to an element's settings in a group, a zone and a unit: parameter number, binary32 value
and the table that the item refers to (R538, R539). -/
opaque setElem : Nat → Word → List Num → ElemSet → ElemSet
opaque setZone : Nat → Word → List Num → ZoneCfg → ZoneCfg
opaque setUnit : Nat → Word → List Num → UnitCfg → UnitCfg

/-- The CRC-32C of a LOGIC section (R521, R539). -/
opaque logicCrc : LogicCfg → Word

/-- The identifier of the Lock crossing from a domain to the register at an offset of BAR0 (R108, R109). -/
opaque xingId : Nat → Nat → Nat

/-- Free values, drawn by a counter of the state. -/
opaque freeNum : Nat → Num
opaque freeNat : Nat → Nat

end Sys2Proof.Config
end

