-- ==== Sys2Proof/Machine/Num.lean ====
section
/-! DEFINITION. Rounding of exact numbers: to integers, to bits, and to IEEE 754 binary32 (R7, R44, R155, R213). -/

namespace Sys2Proof.Machine

open Sys2Proof

/-- The nearest integer, halves away from zero. -/
def roundInt (x : Num) : Int := if 0 ≤ x then (x + 1 / 2).floor else -((1 / 2 - x).floor)

/-- The nearest integer, halves to even. -/
def roundEven (x : Num) : Int :=
  let f := x.floor
  let d := x - f
  if d < 1 / 2 then f else if 1 / 2 < d then f + 1 else if f % 2 = 0 then f else f + 1

/-- 2 to an integer power. -/
def pow2 (e : Int) : Num := if 0 ≤ e then ((2 ^ e.toNat : Nat) : Num) else 1 / ((2 ^ (-e).toNat : Nat) : Num)

/-- The exponent of the binade of a positive number: 2^e ≤ x < 2^(e+1). -/
def binade (x : Num) : Int :=
  let e : Int := (Nat.log2 x.num.natAbs : Int) - (Nat.log2 x.den : Int)
  if x < pow2 e then e - 1 else e

/-- The significand and exponent of |x| in binary32: an integer below 2^24 and the power of its last place. -/
def f32parts (x : Num) : Nat × Int :=
  if x = 0 then (0, -149) else
    let e := binade x.mag
    let q : Int := (if e < -126 then -126 else e) - 23
    let n := (roundEven (x.mag / pow2 q)).toNat
    if n = 2 ^ 24 then (2 ^ 23, q + 1) else (n, q)

/-- The binary32 value nearest to `x`, ties to even; a magnitude beyond the largest finite value goes to 2^128, which stands for infinity. -/
def f32 (x : Num) : Num :=
  let p := f32parts x
  let m := if p.2 + 23 > 127 then pow2 128 else (p.1 : Num) * pow2 p.2
  if x < 0 then -m else m

/-- The binary32 pattern of the value nearest to `x` (R7). -/
def f32bits (x : Num) : Word :=
  let p := f32parts x
  let s : Nat := if x < 0 then 2 ^ 31 else 0
  let b : Nat :=
    if p.2 + 23 > 127 then 0x7F800000
    else if p.1 < 2 ^ 23 then p.1
    else ((p.2 + 23 + 127).toNat) * 2 ^ 23 + (p.1 - 2 ^ 23)
  BitVec.ofNat 32 (s + b)

/-- The number that a finite binary32 pattern stands for (R7). -/
def ofF32 (w : Word) : Num :=
  let n : Nat := w.toNat
  let e : Nat := n / 2 ^ 23 % 256
  let m : Nat := n % 2 ^ 23
  let v : Num := if e = 0 then (m : Num) * pow2 (-149) else ((m + 2 ^ 23 : Nat) : Num) * pow2 ((e : Int) - 150)
  if 2 ^ 31 ≤ n then -v else v

/-- The integer square root, by binary digits from the top. -/
def isqrtGo (n : Nat) : Nat → Nat → Nat
  | 0, r => r
  | k + 1, r =>
    let c := r + 2 ^ k
    isqrtGo n k (if c * c ≤ n then c else r)

def isqrt (n : Nat) : Nat := isqrtGo n (Nat.log2 n / 2 + 1) 0

/-- The square root rounded once to binary32 (R155): the exact root is compared with the midpoint of two neighbours. -/
def f32sqrt (x : Num) : Num :=
  if x ≤ 0 then 0 else
    let e := binade x / 2 - 25
    let n := (x / (pow2 e * pow2 e)).floor.toNat
    let r := isqrt n
    let exact := ((r * r : Nat) : Num) * (pow2 e * pow2 e) = x
    f32 ((if exact then (r : Num) else (r : Num) + 1 / 4) * pow2 e)

/-- A number as a signed field of width `w`, in two's complement. -/
def sfield (w : Nat) (x : Int) : Nat := (x % (2 ^ w : Int)).toNat

/-- A number held within the range of a signed field of width `w`. -/
def sclamp (w : Nat) (x : Int) : Int := max (-(2 ^ (w - 1) : Int)) (min (2 ^ (w - 1) - 1 : Int) x)

end Sys2Proof.Machine
end

