-- ==== Sys2Proof/Machine/State.lean ====
section
/-! DEFINITION. The state of the whole block, its faults and refusals, and the state right after reset. -/

namespace Sys2Proof.Machine

open Sys2Proof

/-- Why a run stops. -/
inductive Fault where
  /-- Raised by the register commands for an offset of 4 MiB or more: BAR0 ends there (R480, R590). Safe. -/
  | outsideBar0
  /-- Raised by BAR2_READ and BAR2_WRITE for an offset of 8 GiB or more: BAR2 ends there (R480). Safe. -/
  | outsideBar2
  /-- Raised by BAR4_ACCESS for an offset of 256 MiB or more: BAR4 ends there (R480). Safe. -/
  | outsideBar4
deriving DecidableEq, Repr, Inhabited

/-- Why a command has no meaning. -/
inductive Refusal where
  /-- Raised by Dispatch for a command without a meaning. Safe. -/
  | notModelled (mnemonic : String)
deriving DecidableEq, Repr, Inhabited

/-- The state: the blocks in the order of R590, the clocks, the live Manifest, and the waiting commands. -/
structure State where
  /-- Local time elapsed since power-up, in ns; it advances by 10 ns at each tick (R43). -/
  now : Ns := 0
  /-- PTP time as the local time counter holds it, in ns (R11, R445). -/
  ltc : Nat := 0
  /-- Free values drawn so far (the model's own; see the assumption log). -/
  fresh : Nat := 0
  /-- The live Manifest with its overlay applied (R532, R544). -/
  manifest : Manifest := {}
  sys : SysState := {}
  clk : ClkState := {}
  tide : TideState := {}
  acq : AcqState := {}
  prot : ProtState := {}
  diff : DiffState := {}
  form : FormState := {}
  gate : GateState := {}
  logic : LogicState := {}
  fio : FioState := {}
  capt : CaptState := {}
  log : LogState := {}
  net : NetState := {}
  ptp : PtpState := {}
  chk : ChkState := {}
  host : HostState := {}
  adeid : AdeidState := {}
  sec : SecState := {}
  diag : DiagState := {}
  /-- The snapshots that low-word reads have taken, per requester (R10). -/
  snaps : List RegSnap := []
  /-- The commands that wait, first in, first out. -/
  pending : List Instr := []
deriving DecidableEq, Repr, Inhabited

/-- The machine right after reset: a delivered module before its supply is valid (R526, R554). -/
def State.reset : State := {}

end Sys2Proof.Machine
end

