-- ==== Sys2Proof/Machine/Ops.lean ====
section
/-! DEFINITION. The named operations that the meanings share: time, the blocks' event registers, reports to the logbook, berths, refusals. -/

namespace Sys2Proof.Machine

open Sys2Proof

/-- The outcome of a command. -/
abbrev Out := Host.Outcome State Fault Refusal

/-! ### One block at a time -/

def State.onSys (s : State) (f : SysState → SysState) : State := { s with sys := f s.sys }
def State.onClk (s : State) (f : ClkState → ClkState) : State := { s with clk := f s.clk }
def State.onTide (s : State) (f : TideState → TideState) : State := { s with tide := f s.tide }
def State.onAcq (s : State) (f : AcqState → AcqState) : State := { s with acq := f s.acq }
def State.onProt (s : State) (f : ProtState → ProtState) : State := { s with prot := f s.prot }
def State.onDiff (s : State) (f : DiffState → DiffState) : State := { s with diff := f s.diff }
def State.onForm (s : State) (f : FormState → FormState) : State := { s with form := f s.form }
def State.onGate (s : State) (f : GateState → GateState) : State := { s with gate := f s.gate }
def State.onLogic (s : State) (f : LogicState → LogicState) : State := { s with logic := f s.logic }
def State.onFio (s : State) (f : FioState → FioState) : State := { s with fio := f s.fio }
def State.onCapt (s : State) (f : CaptState → CaptState) : State := { s with capt := f s.capt }
def State.onLog (s : State) (f : LogState → LogState) : State := { s with log := f s.log }
def State.onNet (s : State) (f : NetState → NetState) : State := { s with net := f s.net }
def State.onPtp (s : State) (f : PtpState → PtpState) : State := { s with ptp := f s.ptp }
def State.onChk (s : State) (f : ChkState → ChkState) : State := { s with chk := f s.chk }
def State.onHost (s : State) (f : HostState → HostState) : State := { s with host := f s.host }
def State.onAdeid (s : State) (f : AdeidState → AdeidState) : State := { s with adeid := f s.adeid }
def State.onSec (s : State) (f : SecState → SecState) : State := { s with sec := f s.sec }
def State.onDiag (s : State) (f : DiagState → DiagState) : State := { s with diag := f s.diag }

/-! ### Time -/

/-- TS32 of a PTP time (R11). -/
def ts32of (t : Nat) : Word := BitVec.ofNat 32 t

/-- TS32 of the present tick (R11). -/
def State.ts32 (s : State) : Word := ts32of s.ltc

/-- `d` ns have passed since the local time `t`. -/
def State.passed (s : State) (t d : Ns) : Bool := t + d ≤ s.now

/-- `d` ns have passed since the local time `t`, when there is one. -/
def State.passedSince (s : State) (t : Option Ns) (d : Ns) : Bool := t.any fun a => s.passed a d

/-- PTP whole seconds (R11). -/
def State.ptpSec (s : State) : Nat := s.ltc / 1000000000

/-! ### Event registers (R9, R595) -/

/-- Change the EVENT register of a block (R593). -/
def State.onEvent (s : State) (b : Blk) (f : W1C → W1C) : State :=
  match b with
  | .sys => s.onSys fun x => { x with event := f x.event }
  | .clk => s.onClk fun x => { x with event := f x.event }
  | .tide => s.onTide fun x => { x with event := f x.event }
  | .acq => s.onAcq fun x => { x with event := f x.event }
  | .prot => s.onProt fun x => { x with event := f x.event }
  | .diff => s.onDiff fun x => { x with event := f x.event }
  | .form => s.onForm fun x => { x with event := f x.event }
  | .gate => s.onGate fun x => { x with event := f x.event }
  | .logic => s.onLogic fun x => { x with event := f x.event }
  | .fio => s.onFio fun x => { x with event := f x.event }
  | .capt => s.onCapt fun x => { x with event := f x.event }
  | .log => s.onLog fun x => { x with event := f x.event }
  | .net => s.onNet fun x => { x with event := f x.event }
  | .ptp => s.onPtp fun x => { x with event := f x.event }
  | .chk => s.onChk fun x => { x with event := f x.event }
  | .host => s.onHost fun x => { x with event := f x.event }
  | .adeid => s.onAdeid fun x => { x with event := f x.event }
  | .sec => s.onSec fun x => { x with event := f x.event }
  | .diag => s.onDiag fun x => { x with event := f x.event }

/-- The EVENT register of a block. -/
def State.eventOf (s : State) : Blk → W1C
  | .sys => s.sys.event | .clk => s.clk.event | .tide => s.tide.event | .acq => s.acq.event
  | .prot => s.prot.event | .diff => s.diff.event | .form => s.form.event | .gate => s.gate.event
  | .logic => s.logic.event | .fio => s.fio.event | .capt => s.capt.event | .log => s.log.event
  | .net => s.net.event | .ptp => s.ptp.event | .chk => s.chk.event | .host => s.host.event
  | .adeid => s.adeid.event | .sec => s.sec.event | .diag => s.diag.event

/-- A vector is raised: a message leaves, or its pending bit stands while its entry is masked (R512). -/
def HostState.vector (h : HostState) (v : Nat) : HostState :=
  if (nth h.msix v {}).masked then { h with pba := h.pba ||| flag v true } else h

/-- The hardware sets bit `i` of a block's EVENT register (R9). A set of HOST_EVENT that its mask passes raises vector 18 (R512). -/
def State.raise (s : State) (b : Blk) (i : Nat) : State :=
  let s := s.onEvent b fun e => e.raise i
  if b = .host ∧ s.host.irqMask.getLsbD i then s.onHost fun h => h.vector 18 else s

/-! ### Reports to the logbook (R403, R407) -/

/-- A block reports an event at the present PTP time. -/
def State.report (s : State) (name : Rec) (source : Nat := 0xFFFF) (payload : List Int := []) : State :=
  s.onLog fun l => { l with reported := l.reported ++ [{ name, source, time := some s.ltc, payload := .values payload }] }

/-- A block reports an event that carries a time of its own. -/
def State.reportAt (s : State) (time : Nat) (name : Rec) (source : Nat := 0xFFFF) (payload : List Int := []) : State :=
  s.onLog fun l => { l with reported := l.reported ++ [{ name, source, time := some time, payload := .values payload }] }

/-- Run a change only when a condition holds. -/
def State.when (s : State) (c : Bool) (f : State → State) : State := if c then f s else s

/-- Apply a change for every item of a list, in order. -/
def State.forEach {α : Type} (s : State) (l : List α) (f : State → α → State) : State := l.foldl f s

/-- A report for which the manual lays the payload out, field by field. -/
def State.reportSized (s : State) (name : Rec) (source : Nat) (payload : List (Nat × Nat)) : State :=
  s.onLog fun l => { l with reported := l.reported ++ [{ name, source, time := some s.ltc, payload := .sized payload }] }

/-! ### Free values -/

/-- Take a fresh free number. -/
def State.drawNum (s : State) : Num × State := (Config.freeNum s.fresh, { s with fresh := s.fresh + 1 })

/-- Take a fresh free natural number. -/
def State.drawNat (s : State) : Nat × State := (Config.freeNat s.fresh, { s with fresh := s.fresh + 1 })

/-! ### Berths (R487, R488) -/

/-- The item in berth `b`. -/
def State.item (s : State) (b : Nat) : Option Item := (s.host.berths[b]?).join

/-- Change the item in berth `b`. -/
def State.onItem (s : State) (b : Nat) (f : Item → Item) : State :=
  s.onHost fun h => { h with berths := updAt h.berths b fun o => o.map f }

/-- The command of the item in berth `b`, when the item has reached its CTL stage and CTL serves it next (R488). -/
def State.ctlCmd (s : State) (b : Nat) : Option BerthCmd :=
  match s.item b with
  | some it => if it.stage = .ctl ∧ it.ending = none ∧ s.host.qCtl.head? = some b then it.entry.cmd else none
  | none => none

/-- The executor CTL finishes an item; when it has finished every admitted item, F_CTL falls back to the present (R490). -/
def State.leaveCtl (s : State) (b : Nat) : State :=
  s.onHost fun h =>
    let q := h.qCtl.filter (· != b)
    { h with qCtl := q, fCtl := if q.isEmpty then min h.fCtl s.now else h.fCtl }

/-- The item in berth `b` ends; its completion is then due (R486). -/
def State.endItem (s : State) (b : Nat) (e : Ending) : State := s.onItem b fun it => { it with ending := some e }

/-- The item in berth `b` is done, with a result. -/
def State.done (s : State) (b : Nat) (result : BitVec 64 := 0) : State := s.endItem b { status := .done, result }

/-- The item in berth `b` ends FAILED (R486). -/
def State.failed (s : State) (b : Nat) (r : Reason) : State := s.endItem b { status := .failed, reason := some r }

/-- The item in berth `b` waits at its target for a boundary (R488). -/
def State.toTarget (s : State) (b : Nat) : State := s.onItem b fun it => { it with stage := .target }

/-- A host access over a BAR completes (R481). -/
def State.answer (s : State) (a : AccessEnd) : State := s.onHost fun h => { h with accesses := a :: h.accesses }

/-! ### Refusals (R492, R621) -/

/-- Who asked (R621 REQUESTER). -/
inductive Asker where
  | ring | harbour | logic | internal
deriving DecidableEq, Repr, Inhabited

/-- The encoding of REQUESTER (R621). -/
def Asker.num : Asker → Nat
  | .ring => 0 | .harbour => 1 | .logic => 2 | .internal => 3

/-- What a refusing rule names: the block, the instance, the state registers, and of a PROPOSE its ID and first failing item (R621). -/
structure Refuse where
  blk : Blk
  src : Nat := 0xFFFF
  st0 : Word := 0
  st1 : Word := 0
  propId : BitVec 64 := 0
  item : Nat := 0xFF
deriving DecidableEq, Repr, Inhabited

/-- STAGE of R621: 0 admission, 1 start of CTL, 2 target boundary, 3 commit recheck. -/
inductive RefStage where
  | admission | ctl | target | commit
deriving DecidableEq, Repr, Inhabited

/-- The encoding of STAGE (R621). -/
def RefStage.num : RefStage → Nat
  | .admission => 0 | .ctl => 1 | .target => 2 | .commit => 3

/-- The refusal record of a block (R621). -/
def State.reportRefused (s : State) (r : Refuse) (opcode : Nat) (stage : RefStage) (a : Asker) (tag : Word) : State :=
  s.reportSized (.refused r.blk) r.src
    [(2, opcode), (1, stage.num), (1, a.num), (4, tag.toNat), (4, r.st0.toNat), (4, r.st1.toNat), (8, r.propId.toNat),
      (1, r.item), (7, 0)]

/-- A refusal of a LOGIC or internal request (R621). -/
def State.refuseInternal (s : State) (r : Refuse) (a : Asker) : State := s.reportRefused r 0xFFFF .target a 0

/-- The asker of an item (R621). -/
def Item.asker (it : Item) : Asker := if it.src = 16 then .harbour else .ring

/-- STATE_REFUSED sets its HOST_EVENT bits (R489, R514). -/
def State.raiseRefused (s : State) : State := (s.raise .host 0).raise .host 1

/-- The item in berth `b` ends REFUSED with STATE_REFUSED, and the block writes its refusal record (R489, R492). -/
def State.refuseItem (s : State) (b : Nat) (r : Refuse) (stage : RefStage) : State :=
  match s.item b with
  | none => s
  | some it =>
    ((s.endItem b { status := .refused, reason := some .stateRefused, result := r.st0.zeroExtend 64 }).raiseRefused).reportRefused
      r it.entry.opcode stage it.asker it.entry.tag

/-- The CTL stage of berth `b`: the target checks its state again, and either refuses or runs the command (R489). -/
def State.runCtl (s : State) (b : Nat) (r : Option Refuse) (f : State → State) : State :=
  match r with
  | some x => (s.leaveCtl b).refuseItem b x .ctl
  | none => f (s.leaveCtl b)

end Sys2Proof.Machine
end

