-- ==== Sys2Proof/Machine/FioOps.lean ====
section
/-! DEFINITION. Operations of the field channels: what governs an output, commands on the couplers, edge records, scheduled edges, diagnostics, and the registers (spec/09_field_io.md). -/

namespace Sys2Proof.Machine

open Sys2Proof

/-! ### Channels, groups and gangs (R308, R310, R317) -/

def State.fioCh (s : State) (n : Nat) : FioCh := nth s.fio.chans n {}
def State.fioGroup (s : State) (g : Nat) : FioGroup := nth s.fio.groups g {}
def State.onCh (s : State) (n : Nat) (f : FioCh → FioCh) : State := s.onFio fun x => { x with chans := updAt x.chans n f }
def State.onGroup (s : State) (g : Nat) (f : FioGroup → FioGroup) : State :=
  s.onFio fun x => { x with groups := updAt x.groups g f }

/-- The group of a channel (R308). -/
def groupOf (n : Nat) : Nat := n / 16

/-- The channels of a group (R308). -/
def groupChans (g : Nat) : List Nat := (List.range 16).map (16 * g + ·)

/-- The owner of an output channel. -/
def FioCh.owner (c : FioCh) : Option Owner :=
  match c.cfg with
  | some { mode := .output o .., .. } => some o
  | _ => none

/-- The gang of an output channel. -/
def FioCh.gang (c : FioCh) : Gang :=
  match c.cfg with
  | some { mode := .output _ g .., .. } => g
  | _ => .single

def FioCh.isInput (c : FioCh) : Bool :=
  match c.cfg with
  | some { mode := .input _, .. } => true
  | _ => false

def FioCh.isOutput (c : FioCh) : Bool := c.owner.isSome

def FioCh.debounce (c : FioCh) : Ns :=
  match c.cfg with
  | some { mode := .input d, .. } => d
  | _ => 0

def FioCh.safe (c : FioCh) : SafeLevel :=
  match c.cfg with
  | some { mode := .output _ _ x .., .. } => x
  | _ => .off

def FioCh.resumeManual (c : FioCh) : Bool :=
  match c.cfg with
  | some { mode := .output _ _ _ r .., .. } => r
  | _ => false

def FioCh.darkPulse (c : FioCh) : Bool :=
  match c.cfg with
  | some { mode := .output _ _ _ _ d .., .. } => d
  | _ => false

def FioCh.ovlRetry (c : FioCh) : Nat :=
  match c.cfg with
  | some { mode := .output _ _ _ _ _ r _, .. } => r
  | _ => 0

def FioCh.owOnLevel (c : FioCh) : Nat :=
  match c.cfg with
  | some { mode := .output _ _ _ _ _ _ l, .. } => l
  | _ => 0

/-- The first member of the gang that channel `n` belongs to (R317). -/
def State.gangLead (s : State) (n : Nat) : Nat := n - n % (s.fioCh n).gang.size

/-- The members of the gang led by `n` (R317). -/
def State.gangMembers (s : State) (n : Nat) : List Nat := (List.range (s.fioCh n).gang.size).map (n + ·)

/-! ### What governs an output (R320, R321) -/

/-- The level that the field side drives on an output, by the first row of R321 that applies; overtemperature stands with
the locks (R320). -/
def FioGroup.drives (g : FioGroup) (c : FioCh) : Bool :=
  if !g.accepted || decide (g.level = .undervolt) then false
  else if c.lockedOff.isSome || c.overtemp then false
  else if c.pulse ≠ .none then false
  else if c.heldOff then false
  else if c.safeState then
    match c.safe with
    | .off => false
    | .on => true
    | .hold => c.holdLevel
  else c.cmd

/-- An edge record joins the group's FIFO of 256, or is lost and counted once per episode (R314, R315). -/
def State.pushEdge (s : State) (n : Nat) (level : Bool) (ts : Word) : State :=
  let gi := groupOf n
  let g := s.fioGroup gi
  let unsync := !g.syncOk
  let s := s.onCh n fun c => { c with lastEdge := ts, unsync := unsync }
  let s := if unsync && !g.unsyncSeen then (s.onGroup gi fun g => { g with unsyncSeen := true }).raise .fio 7 else s
  if g.fifo.length < 256 then
    s.onGroup gi fun g => { g with fifo := g.fifo ++ [{ ch := n, level := level, ts := ts, unsync := unsync }], fifoEmptySince := none }
  else
    let s := (s.onGroup gi fun g => { g with edgeLost := satInc 16 g.edgeLost, edgeLostEpisode := true }).raise .fio 4
    if g.edgeLostEpisode then s else s.report .fioEdgeLost gi

/-- The switching delay of an output: at most 100 µs, its value free (R316, R323). -/
def State.switchDelay (s : State) : Ns × State :=
  let d := s.drawNat
  (min d.1 100000, d.2)

/-- Bring the switches of the gang led by `n` to the level that R321 gives. A change counts as a switching of every member
(R581), is stamped at its 50 % crossing (R323), and its delay joins the last 8 of its direction. -/
def State.drive (s : State) (n : Nat) : State :=
  let c := s.fioCh n
  let on := (s.fioGroup (groupOf n)).drives c
  if on = c.driven then s else
    let d := s.switchDelay
    let s := d.2
    let s := s.forEach (s.gangMembers n) fun s m =>
      (s.onCh m fun c => { c with driven := on, level := on }).onDiag fun x =>
        { x with ledger := { x.ledger with switches := updAt x.ledger.switches m (satInc 32) } }
    let s := s.onCh n fun c =>
      if on then { c with delaysOn := (d.1 :: c.delaysOn).take 8 } else { c with delaysOff := (d.1 :: c.delaysOff).take 8 }
    s.pushEdge n on (ts32of (s.ltc + d.1))

/-- Bring every output of a group to the level that R321 gives. -/
def State.driveGroup (s : State) (g : Nat) : State :=
  s.forEach ((groupChans g).filter fun n => (s.fioCh n).isOutput && (s.fioCh n).lead) State.drive

/-! ### Commands (R309, R319, R321, R322, R329) -/

/-- An owner sends a command over a channel's coupler (R309). -/
def State.sendFio (s : State) (n : Nat) (level : Bool) : State :=
  s.onCh (s.gangLead n) fun c => { c with sent := c.sent ++ [(level, s.now)] }

/-- The lockouts that an on command ends: the owner had commanded the channel off for at least 1 s (R319). -/
def FioCh.relock (c : FioCh) (now : Ns) : Option Ns :=
  if c.offSince.any fun t => t + secs 1 ≤ now then none else c.lockedOff

/-- What a level commanded on a channel does to it: the commanded level (R321), the start of an on period (R319), HELD_OFF
(R329), and the safe state, which the first command after a handshake ends (R322). -/
def FioCh.commanded (c : FioCh) (handshake : Bool) (level : Bool) (now : Ns) : FioCh :=
  let held := if level && c.heldOffSeenOff then false else c.heldOff
  { c with
    cmd := level
    lockedOff := if level then c.relock now else c.lockedOff
    retries := if level && !c.cmd then 0 else c.retries
    offSince := if level then none else if c.offSince.isSome then c.offSince else some now
    heldOff := held
    heldOffSeenOff := held && (c.heldOffSeenOff || !level)
    pulse := if level then c.pulse else .none
    safeState := if handshake then false else c.safeState }

/-- A command is applied at the field side; a scheduled edge of the same 10 ns tick stands over its level (R321). -/
def State.applyFio (s : State) (n : Nat) (level : Bool) : State :=
  let g := s.fioGroup (groupOf n)
  (s.onCh n fun c => c.commanded (g.accepted && !g.wdSafe) (if c.edgeAt = some s.now then c.cmd else level) s.now).drive n

/-! ### Diagnostics (R325) -/

/-- A detection: the bit of FIO_CH_DIAG, FIO_EVENT.DIAG and the record FIO_DIAG (R325, R337). -/
def State.fioDetect (s : State) (n bit : Nat) : State :=
  let c := s.fioCh n
  ((s.onCh n fun c => { c with diag := c.diag.raise bit }).raise .fio 1).report .fioDiag n [bit, c.pinMv, c.current]

/-! ### Scheduled edges (R72, R73, R323, R324) -/

/-- What a scheduled edge does to a channel: the commanded level, with the on period that it begins or ends. It is no command of the
owner, so locks, HELD_OFF and the safe state stand (R319, R321, R322, R329). -/
def FioCh.edged (c : FioCh) (level : Bool) (now : Ns) : FioCh :=
  { c with
    cmd := level, edgeAt := some now
    retries := if level && !c.cmd then 0 else c.retries
    offSince := if level then none else if c.offSince.isSome then c.offSince else some now
    pulse := if level then c.pulse else .none }

/-- A scheduled edge is applied. -/
def State.applyEdge (s : State) (e : SchedEdge) : State :=
  let n := s.gangLead e.ch
  (s.onCh n fun c => c.edged e.level s.now).drive n

/-- An edge that arrives less than 20 µs ahead is applied at once, SCHED_LATE sets and FIO_SCHED_LATE is logged (R324). -/
def State.edgeLate (s : State) (e : SchedEdge) : State :=
  let n := s.gangLead e.ch
  (((s.applyEdge e).onCh n fun c => { c with diag := c.diag.raise 8 }).raise .fio 5).report .fioSchedLate n [e.time, s.ltc]

/-- An edge command goes to its group: queued there when a slot is free, else held until one frees (R324). -/
def State.sendEdge (s : State) (e : SchedEdge) : State :=
  let gi := groupOf e.ch
  if e.time < s.ltc + 20000 then s.edgeLate e
  else s.onGroup gi fun g =>
    if g.sched.length < 16 then { g with sched := g.sched ++ [e] } else { g with schedWait := g.schedWait ++ [e] }

/-- A withdrawal removes an edge by its identifier (R73, R324). -/
def State.withdrawEdge (s : State) (id : Nat) : State :=
  s.onFio fun x => { x with groups := x.groups.map fun g =>
    { g with sched := g.sched.filter (·.id != id), schedWait := g.schedWait.filter (·.id != id) } }

/-- A slot has freed: the oldest edge that waits is sent (R324). -/
def State.refillEdges (s : State) (gi : Nat) : State :=
  let g := s.fioGroup gi
  match g.schedWait with
  | [] => s
  | e :: rest => if g.sched.length < 16 then (s.onGroup gi fun g => { g with schedWait := rest }).sendEdge e else s

/-! ### Levels and qualities (R309, R325, R328, R329) -/

/-- The quality of an input, and of an output (R309, R311, R325, R328, R329). -/
def State.fioQuality (s : State) (n : Nat) : Quality :=
  let c := s.fioCh n
  let g := s.fioGroup (groupOf n)
  if c.cfg.isNone || !g.accepted || g.lost then .invalid
  else if c.isOutput then .good
  else if g.level = .undervolt || c.openWire || decide (s.now < c.goodAt) then .invalid
  else if g.level = .diagSuspended || c.indeterminate then .questionable
  else .good

/-- The supply level of a mean L+ in mV (R328). -/
def lplusLevel (mv : Nat) : LplusLevel :=
  if 19200 ≤ mv then .normal else if 18000 ≤ mv then .sag else if 14000 ≤ mv then .diagSuspended else .undervolt

/-- The watchdog of a group expires, or a LASTWORDS frame arrives: every output takes its SAFE state, HOLD keeping the level
of that moment (R322, R562). -/
def State.fioSafe (s : State) (gi : Nat) : State :=
  let s := s.onGroup gi fun g => { g with wdSafe := true, expiry := some (s.ts32, s.now) }
  let s := s.forEach (groupChans gi) fun s n =>
    s.onCh n fun c => if c.isOutput then { c with safeState := true, holdLevel := c.driven } else c
  s.driveGroup gi

/-! ### Registers (R331 to R337) -/

def State.fioGCfg (s : State) (g : Nat) : Word :=
  let x := s.fioGroup g
  if x.created then
    fld 0 (x.cfg.wdTime / 1000000) ||| flag 8 true ||| fld 9 (x.cfg.dpWidth / 10000) ||| fld 16 (x.cfg.dpInterval / 1000000)
  else 0

def State.fioGStatus (s : State) (g : Nat) : Word :=
  let x := s.fioGroup g
  fld 0 x.level.num ||| flag 2 x.undervolt ||| flag 3 x.overvolt ||| flag 4 x.recovering ||| flag 5 x.link |||
    flag 6 x.wdSafe ||| flag 7 x.syncOk ||| flag 8 x.handshakeFail ||| flag 9 x.ctrlOvertemp ||| flag 10 x.diagSuspended

def State.fioGCounts (s : State) (g : Nat) : Word :=
  let x := s.fioGroup g
  fld 0 x.wdExpiries ||| fld 8 x.undervoltEntries ||| fld 16 x.edgeLost

def State.fioChCfg (s : State) (n : Nat) : Word :=
  let c := s.fioCh n
  match c.cfg with
  | none => 0
  | some k =>
    match k.mode with
    | .input d => fld 0 1 ||| flag 12 k.owEnable ||| flag 13 true ||| fld 16 (d / 10000)
    | .output o g sf r dp ret ow =>
      fld 0 2 ||| fld 2 o.num ||| fld 4 g.num ||| fld 6 sf.num ||| flag 8 r ||| flag 9 dp ||| fld 10 ret |||
        flag 12 k.owEnable ||| flag 13 c.lead ||| fld 16 (ow / 1000)

/-- QUALITY (R336). -/
def Quality.num : Quality → Nat
  | .good => 0 | .questionable => 1 | .invalid => 2

/-- A scheduled edge of the channel is queued (R336). -/
def State.schedPending (s : State) (n : Nat) : Bool :=
  let g := s.fioGroup (groupOf n)
  (g.sched ++ g.schedWait).any fun e => s.gangLead e.ch == n

def State.fioChStatus (s : State) (n : Nat) : Word :=
  let m := s.gangLead n
  let c := s.fioCh m
  if c.cfg.isNone then 0 else
    flag 0 c.level ||| flag 1 c.cmd ||| flag 2 c.driven ||| fld 3 (Quality.num (s.fioQuality m)) ||| flag 5 c.safeState |||
      flag 6 c.heldOff ||| flag 7 c.lockedOff.isSome ||| flag 8 (s.schedPending m) ||| flag 9 (decide (c.pulse ≠ .none)) |||
      fld 10 (c.partner.getD 0 % 16) ||| flag 14 c.partner.isSome ||| flag 15 c.unsync

def State.fioChCurrent (s : State) (n : Nat) : Word :=
  let c := s.fioCh (s.gangLead n)
  if c.cfg.isNone then 0
  else fld 0 (if c.isInput then c.current / 10 else c.current / 1000) ||| fld 16 (c.budget * 10).floor.toNat

/-- FIO_IN_STATE, FIO_OUT_CMD and FIO_OUT_LEVEL by word; a member of a gang shows the first member's (R317, R331). -/
def State.fioWord (s : State) (w : Nat) (f : FioCh → Bool) : Word :=
  (List.range 32).foldl (fun acc i => acc ||| flag i (f (s.fioCh (s.gangLead (32 * w + i))))) 0

def State.fioInState (s : State) (w : Nat) : Word := s.fioWord w fun c => c.isInput && c.level
def State.fioOutCmd (s : State) (w : Nat) : Word := s.fioWord w fun c => c.isOutput && c.cmd
def State.fioOutLevel (s : State) (w : Nat) : Word := s.fioWord w fun c => c.isOutput && c.level

/-- FIO_STATUS (R331). -/
def State.fioStatus (s : State) : Word :=
  (List.range 12).foldl (fun acc g =>
    let x := s.fioGroup g
    let alarm := x.created && (decide (x.level ≠ .normal) || (groupChans g).any fun n => (s.fioCh n).diag.bits ≠ 0)
    acc ||| flag g (x.created && x.link && !x.lost) ||| flag (12 + g) alarm) 0

end Sys2Proof.Machine
end

