-- ==== Sys2Proof/Machine/TideOps.lean ====
section
/-! DEFINITION. Operations of Tide: the position and its rate, the mapping between angle and time, sources and their eligibility, the registers (spec/02_tide.md R43 to R59, R80 to R84). -/

namespace Sys2Proof.Machine

open Sys2Proof

/-- The Tide settings in force (R79). -/
def State.tideCfg (s : State) : TideCfg := s.manifest.struct.tide

/-- The rate word of a frequency: 2^64 × f × 10^−8, rounded to the nearest integer (R44). -/
def rateWord (f : Num) : BitVec 64 := BitVec.ofInt 64 (roundInt (f * (2 ^ 64 : Nat) / 100000000))

/-- The frequency that a rate word stands for (R44). -/
def rateFreq (r : BitVec 64) : Num := (r.toNat : Num) * 100000000 / (2 ^ 64 : Nat)

/-- The Tide frequency (R44, R80). -/
def TideState.freq (t : TideState) : Num := rateFreq t.rate

/-- The 80-bit position as a number (R13, R43). -/
def TideState.posN (t : TideState) : Nat := t.pos.toNat

/-- Tide advances by one tick (R43). -/
def TideState.tick (t : TideState) : TideState := { t with posQ := t.posQ + t.rate.zeroExtend 112 }

/-- Degrees as a number of angle units (R13). -/
def degAu (d : Num) : Num := d * (2 ^ 32 : Nat) / 360

/-- The signed difference of two angles in au, in [−2^31, 2^31) (R60). -/
def angleDiff (a b : Angle) : Int := (a - b).toInt

/-! ### The plant angle (R56) -/

/-- The 80-bit plant position at PTP time `t` from segment `k` on, `acc` being its position at the segment's start. -/
def plantGo (t : Nat) : Nat → Nat → List PlantSegment → Option (Nat × Nat)
  | _, _, [] => none
  | acc, k, [g] => some ((acc + g.freq * (t - g.start * 1000000000) * 2 ^ 32 / 10 ^ 15) % 2 ^ 80, k)
  | acc, k, g :: h :: rest =>
    if h.start * 1000000000 ≤ t then
      plantGo t (acc + g.freq * ((h.start - g.start) * 1000000000) * 2 ^ 32 / 10 ^ 15) (k + 1) (h :: rest)
    else some ((acc + g.freq * (t - g.start * 1000000000) * 2 ^ 32 / 10 ^ 15) % 2 ^ 80, k)

/-- The plant position and the active segment at PTP time `t`; none before S_0 and without a schedule (R56). -/
def plantAt (l : List PlantSegment) (t : Nat) : Option (Nat × Nat) :=
  if (l.head?).any fun g => g.start * 1000000000 ≤ t then plantGo t 0 0 l else none

/-- The plant angle while it is valid: TIME_KNOWN set, not in DEGRADED, at or after S_0 (R56). -/
def State.plant (s : State) : Option (Nat × Nat) :=
  if s.ptp.timeKnown && !s.clk.degraded then plantAt s.tideCfg.plantSchedule s.ltc else none

/-- The scheduled frequency in Hz (R54, R56). -/
def State.plantFreq (s : State) : Num :=
  match s.plant with
  | some p => (((nth s.tideCfg.plantSchedule p.2 { start := 0, freq := 0 }).freq : Nat) : Num) / 1000000
  | none => s.tideCfg.nominalFreq

/-! ### Forming units as Tide sees them (R244) -/

/-- A created forming unit. -/
def State.fu? (s : State) (u : Nat) : Option FormUnit := s.form.units.find? (·.cfg.unit == u)

/-- Change a forming unit. -/
def State.onUnit (s : State) (u : Nat) (f : FormUnit → FormUnit) : State :=
  s.onForm fun x => { x with units := x.units.map fun y => if y.cfg.unit == u then f y else y }

/-- The unit's rotor runs (R244). -/
def FormUnit.rotorRuns (x : FormUnit) : Bool :=
  match x.phase with
  | .connecting | .energising | .formingGrid | .formingIsland | .rideThrough | .resync | .stopping => true
  | .hold => x.holdMode == .free
  | .off | .preparing | .ready | .blocked => false

/-! ### Sources (R54 to R58) -/

/-- How far an angle that turns at `f` has come in `d` ns, in au. -/
def advanced (a : Angle) (f : Num) (d : Ns) : Angle :=
  a + BitVec.ofInt 32 (roundInt (f * d * (2 ^ 32 : Nat) / 1000000000))

/-- The Pilot angle now, from its latest update (R50). -/
def State.pilotAngle (s : State) : Angle := advanced s.tide.pilot.angle s.tide.pilot.freq (s.now - s.tide.pilot.at_)

/-- The angle of a source now (R54). -/
def State.srcAngle (s : State) : TideSrc → Angle
  | .freerun => s.tide.angle
  | .pilot => s.pilotAngle
  | .plant => ((s.plant.map fun p => BitVec.ofNat 32 p.1)).getD s.tide.angle
  | .rotor u =>
    match s.fu? u with
    | none => s.tide.angle
    | some x =>
      if s.tide.bound = some u then s.tide.angle
      else advanced (x.rotor.pos.setWidth 32) x.rotor.f (s.now - x.rotor.posAt)

/-- The frequency of a source (R54). -/
def State.srcFreq (s : State) : TideSrc → Num
  | .freerun => s.tideCfg.nominalFreq
  | .pilot => s.tide.pilot.freq
  | .plant => s.plantFreq
  | .rotor u => ((s.fu? u).map (·.rotor.f)).getD s.tideCfg.nominalFreq

/-- A source is eligible (R54, R78). -/
def State.eligible (s : State) : TideSrc → Bool
  | .freerun => true
  | .pilot => s.tide.pilot.phase == .tracking
  | .plant => s.ptp.locked && !s.clk.degraded && s.plant.isSome
  | .rotor u => (s.fu? u).any (·.rotorRuns)

/-- The source that Tide follows: in CONVERGING the target, while coasting the lost one, else the active one (R61). -/
def TideState.followed (t : TideState) : TideSrc :=
  match t.phase with
  | .converging => t.target
  | .coasting => t.lost.getD t.src
  | .init | .aligned => t.src

/-- The place of a source in TIDE_PRIORITY; a lower place ranks higher (R55). -/
def State.rank (s : State) (x : TideSrc) : Nat := s.tideCfg.order.findIdx (· == x)

/-- Since when a source has been eligible without a break (R58). -/
def TideState.eligibleSince (t : TideState) (x : TideSrc) : Option Ns := (t.holds.find? (·.src == x)).bind (·.since)

/-- Keep, per source of TIDE_PRIORITY, the time since when it has been eligible (R58). -/
def State.refreshHolds (s : State) : State :=
  s.onTide fun t => { t with holds := s.tideCfg.order.map fun x =>
    { src := x, since := if s.eligible x then some ((t.eligibleSince x).getD s.now) else none } }

/-- The ROCOF used to look ahead: the Pilot's while the Pilot is the source; while coasting the frequency is held, so the
lost Pilot's ROCOF does not enter (R48, R62; DEDUCED, log entry 58). -/
def State.fdot (s : State) : Num := if s.tide.followed = .pilot ∧ s.tide.phase ≠ .coasting then s.tide.pilot.rocof else 0

/-! ### Mapping (R47, R48) -/

/-- The travel of Tide over `d` ns ahead, in au (R48). -/
def State.travel (s : State) (d : Num) : Num :=
  let t := d / 1000000000
  (s.tide.freq * t + s.fdot * t * t / 2) * (2 ^ 32 : Nat)

/-- The least number of ns, from `a` on and less than 2^fuel further, that meets a condition which stays met once it is: by halving. -/
def leastNs (p : Nat → Bool) : Nat → Nat → Nat
  | 0, a => a
  | fuel + 1, a => if p (a + 2 ^ fuel - 1) then leastNs p fuel a else leastNs p fuel (a + 2 ^ fuel)

/-- The horizon in ns after which Tide has travelled `au` more: the equation of R48 solved for T, in closed form while the frequency is
constant, else to the ns. -/
def State.horizon (s : State) (au : Num) : Num :=
  if s.fdot = 0 then au / (2 ^ 32 : Nat) / s.tide.freq * 1000000000
  else (leastNs (fun d => decide (au ≤ s.travel (d : Num))) 36 0 : Nat)

/-- The predicted time from now, in ns, at which Tide reaches a position ahead (R48, R72). -/
def State.predict (s : State) (m : Nat) : Num := s.horizon ((m : Num) - (s.tide.posN : Num))

/-- The history, for a lookup: the present rate segment included (R47). -/
def State.history (s : State) : List HistEntry := s.tide.hist

/-- The ticks after an entry at which Tide reached position `m`: by the entry's rate, but no later than the entry that follows it, whose own
position may lie beyond by a step (R47, R67). -/
def HistEntry.ticksTo (h : HistEntry) (next : Option HistEntry) (m : Nat) : Nat :=
  let need := m * 2 ^ 32 - h.posQ.toNat
  let n := if h.rate = 0 then 0 else (need + h.rate.toNat - 1) / h.rate.toNat
  match next with
  | some g => min n (g.tick - h.tick)
  | none => n

/-- The entry from which Tide reached position `m`, and the ticks from there, in a history with the newest entry first (R47). -/
def reachedFrom (m : Nat) : Option HistEntry → List HistEntry → Option (HistEntry × Nat)
  | _, [] => none
  | next, h :: l => if h.posQ.toNat / 2 ^ 32 ≤ m then some (h, h.ticksTo next m) else reachedFrom m (some h) l

/-- The PTP time of the tick at which Tide reached position `m`, within the history (R47). -/
def State.timeOf (s : State) (m : Nat) : Option Nat := (reachedFrom m none s.history).map fun r => r.1.time + 10 * r.2

/-- The number of the tick at which Tide reached position `m`, within the history (R47). -/
def State.tickOf (s : State) (m : Nat) : Option Nat := (reachedFrom m none s.history).map fun r => r.1.tick + r.2

/-- The position at the tick of PTP time `t`, within the history (R47). -/
def State.posOf (s : State) (t : Nat) : Option Nat :=
  (s.history.find? fun h => h.time ≤ t).map fun h =>
    ((h.posQ + BitVec.ofNat 112 (h.rate.toNat * ((t - h.time) / 10))) >>> 32).toNat % 2 ^ 80

/-- Record a rate recomputation, or a discontinuity of the local time counter, in the history of 4,096 entries (R47, R73). -/
def State.pushHist (s : State) : State :=
  s.onTide fun t => { t with hist :=
    ({ tick := s.now / 10, rate := t.rate, posQ := t.posQ, time := s.ltc } :: t.hist).take 4096 }

/-! ### Registers (R80, R81, R83, R84) -/

def State.tideStatus (s : State) : Word :=
  let t := s.tide
  let tg := if t.phase = .converging then t.target else t.src
  fld 0 t.src.num ||| fld 3 t.src.fu ||| fld 5 t.phase.num ||| flag 8 (t.phase == .coasting) ||| flag 9 t.pin.isSome |||
    flag 10 t.rateClamp ||| flag 11 t.bound.isSome ||| flag 12 t.degraded ||| flag 13 s.plant.isSome ||| fld 14 tg.num |||
    fld 17 tg.fu

def State.pilotStatus (s : State) : Word :=
  let p := s.tide.pilot
  fld 0 p.phase.num ||| flag 2 (s.tideCfg.pilotInput.length == 3) ||| fld 3 p.lostReason.num ||| fld 8 p.trackCycles

def Mark.cfgWord (m : Mark) : Word :=
  fld 0 m.action.num ||| flag 3 m.period.isSome ||| flag 4 m.level ||| flag 5 m.armed ||| fld 6 m.owner.num |||
    fld 8 (m.target % 256) ||| fld 16 (m.period.getD (m.cycle / 2 ^ 32) % 65536)

/-- TIDE_CONV_CTRL (R85). -/
def TideConv.ctrl (c : TideConv) : Word :=
  flag 0 c.go ||| flag 1 c.dir ||| flag 8 c.done ||| flag 9 c.errRange ||| flag 10 c.predicted

end Sys2Proof.Machine
end

