-- ==== Sys2Proof/Machine/CaptOps.lean ====
section
/-! DEFINITION. Operations of the capture engines: tags, rows, change records, reports of conditions, the descriptor, the registers (spec/11_capture.md). -/

namespace Sys2Proof.Machine

open Sys2Proof

/-! ### Engines (R374 to R378) -/

def State.engine (s : State) (e : Nat) : Engine := nth s.capt.engines e {}
def State.onEngine (s : State) (e : Nat) (f : Engine → Engine) : State :=
  s.onCapt fun c => { c with engines := updAt c.engines e f }

/-- RB (R377). -/
def Engine.rowBytes (e : Engine) : Nat := 3 * e.cfg.chans.length

/-- The bytes of the waveform region (R375). -/
def Engine.waveBytes (e : Engine) : Nat := e.cfg.waveMib * 2 ^ 20

/-- RING_ROWS (R378). -/
def Engine.ringRows (e : Engine) : Nat := if e.created then e.waveBytes / e.rowBytes else 0

/-- Records that the change region holds (R375). -/
def Engine.chgSize (e : Engine) : Nat := if e.created then (e.cfg.partMib * 2 ^ 20 - 65536 - e.waveBytes) / 16 else 0

/-- The least POST_ROWS: 100 ms of rows (R386). -/
def Engine.minPost (e : Engine) : Nat := e.cfg.rate.hz / 10

/-- min(RING_ROWS, 2^25) (R386). -/
def Engine.maxRows (e : Engine) : Nat := min e.ringRows (2 ^ 25)

/-- Records are written while the engine is ARMED or TRIGGERED (R382, R384). -/
def Engine.live (e : Engine) : Bool := e.phase = .armed || e.phase = .triggered

/-- The TAG of a PTP time: ticks mod 2^40 since arming; tags count ticks, so a step of PTP time does not move them (R379, R393). -/
def State.tagOf (s : State) (e : Engine) (t : Nat) : Nat :=
  ((((s.now - e.armedAt : Nat) : Int) - ((s.ltc : Int) - t)) / 10 % 2 ^ 40).toNat

/-- The TAG of the present tick. -/
def State.tagNow (s : State) (e : Engine) : Nat := s.tagOf e s.ltc

/-! ### Row instants and the start of a capture (R383, R385) -/

/-- The number, on a grid of `hz` instants a second, of the last acquisition instant at or before a PTP time (R127, R383). -/
def gridOf (hz t : Nat) : Nat := ((t + 1) * hz - 1) / 1000000000

/-- The place, among the row instants since arming, of the row whose interval holds the PTP time `t` (R383). -/
def Engine.idxOf (e : Engine) (t : Nat) : Nat :=
  match e.rows.find? (·.time ≤ t) with
  | some r => r.idx + (gridOf e.cfg.rate.hz t - gridOf e.cfg.rate.hz r.time)
  | none => 0

/-- The acquisition instant and the tag of a row instant (R383, R385). -/
def Engine.timeOfIdx (e : Engine) (k : Nat) : Nat × Nat :=
  match e.rows.find? (·.idx ≤ k) with
  | some r =>
    let g := gridOf e.cfg.rate.hz r.time
    let d := (g + (k - r.idx)) * 1000000000 / e.cfg.rate.hz - g * 1000000000 / e.cfg.rate.hz
    (r.time + d, (r.tag + d / 10) % 2 ^ 40)
  | none => (0, 0)

/-- The trigger row: the earliest row that holds the event time of a report within the window (R383). -/
def Engine.earliest (e : Engine) : Nat := (e.reports.map fun r => e.idxOf r.time).foldl min (e.idxOf ((e.reports.head?.map (·.time)).getD 0))

/-- The place of the capture's first row: PRE_ROWS before the trigger row, or the first row after arming (R385). -/
def Engine.startIdx (e : Engine) : Nat := e.trigIdx - e.pre

/-- Row instants seen since arming. -/
def Engine.instants (e : Engine) : Nat := e.rowCount + e.gapCount

/-- Post-trigger row instants elapsed, the trigger row included (R385, R396). -/
def Engine.fill (e : Engine) : Nat := if e.phase = .triggered || e.phase = .done then e.instants - e.trigIdx else 0

/-- A tag lies at or after the start of the capture (R387, R392). -/
def Engine.inSpan (e : Engine) (tag : Nat) : Bool :=
  let start := (e.timeOfIdx e.startIdx).2
  decide ((tag + 2 ^ 40 - start) % 2 ^ 40 < 2 ^ 40 - 2 ^ 38)

/-! ### The change stream (R379, R381, R387) -/

/-- Records from the oldest one of the capture to the newest (R387). -/
def Engine.spanCount (e : Engine) : Nat := e.chg.length - (e.chg.reverse.takeWhile fun r => !e.inSpan r.tag).length

/-- A record goes into the change ring. -/
def Engine.store (e : Engine) (r : ChgRec) (now : Ns) : Engine :=
  { e with chg := ({ r with at_ := now } :: e.chg).take e.chgSize, chgCount := e.chgCount + 1 }

/-- One more record is lost (R381, R387). -/
def Engine.lose (e : Engine) (r : ChgRec) (now : Ns) : Engine :=
  { e with
    lost := satInc 16 e.lost, desc := { e.desc with chgLost := e.desc.chgLost + 1 }
    lostRun := some (match e.lostRun with
      | none => { tag := r.tag, first := now, last := now, count := 1 }
      | some l => { l with last := now, count := l.count + 1 }) }

/-- The CHG_GAP record of a run of lost records: its first tag, how many, and their span in µs (R379, R381). -/
def LostRun.record (l : LostRun) : ChgRec :=
  { tag := l.tag, type := .chgGap, source := 0, lo := BitVec.ofNat 32 l.count, hi := BitVec.ofNat 32 (min ((l.last - l.first) / 1000) (2 ^ 32 - 1)) }

/-- A record is written; in TRIGGERED the ring keeps the capture's records and one free slot, and later records are lost (R387). -/
def Engine.put (e : Engine) (r : ChgRec) (now : Ns) : Engine :=
  if e.phase = .triggered && (e.chgFull || decide (e.chgSize < e.spanCount + 2)) then
    { e.lose r now with chgFull := true, desc := { (e.lose r now).desc with chgFull := true } }
  else e.store r now

/-- A record reaches the engine; while the DRAM PHY retrains it waits in the FIFO of 4,096, and past that it is lost (R381). -/
def State.captPut (s : State) (ei : Nat) (r : ChgRec) : State :=
  let e := s.engine ei
  if !e.live then s
  else if !s.clk.dramRetraining then s.onEngine ei fun e => e.put r s.now
  else if e.fifo.length < 4096 then s.onEngine ei fun e => { e with fifo := e.fifo ++ [r] }
  else
    (s.onEngine ei fun e =>
      { e.lose r s.now with desc := { (e.lose r s.now).desc with chgGap := e.desc.chgGap || e.phase = .triggered } }).when e.lostRun.isNone fun s => s.raise .capt 5

/-- A record with the tag of a PTP time, on every live engine that a function gives values for. -/
def State.captEach (s : State) (t : Nat) (type : ChgType) (f : Engine → List (Nat × Word × Word)) : State :=
  s.forEach (List.range 4) fun s ei =>
    let e := s.engine ei
    if e.live then
      s.forEach (f e) fun s v => s.captPut ei { tag := s.tagOf e t, type := type, source := v.1, lo := v.2.1, hi := v.2.2 }
    else s

/-- A digital source has changed: a DIGITAL record of every engine that holds the source (R380). -/
def State.captDigital (s : State) (src : DigSource) (level : Bool) (t : Nat) : State :=
  let s := s.captEach t .digital fun e =>
    ((e.cfg.digital.zipIdx.filter fun x => x.1 == src).map fun x => (x.2, flag 0 level, 0))
  s.onCapt fun c => { c with engines := c.engines.map fun e =>
    { e with lastDig := e.cfg.digital.zipIdx.map fun x => if x.1 == src then level else nth e.lastDig x.2 false } }

/-- A step of the local time counter, in ns (R393). -/
def State.captStep (s : State) (d : Int) : State :=
  s.captEach s.ltc .timeStep fun _ => [(0, BitVec.ofInt 32 d, BitVec.ofInt 32 (d / 2 ^ 32))]

/-- DEGRADED starts or ends (R393). -/
def State.captDegraded (s : State) (start : Bool) : State := s.captEach s.ltc .degraded fun _ => [(0, flag 0 start, 0)]

/-! ### Rows (R377, R378, R381) -/

/-- A row instant of an engine: the row is stored, or, while the DRAM PHY retrains, it joins a gap (R378, R381). -/
def State.captRow (s : State) (ei : Nat) (time : Nat) (samples : List (BitVec 24)) : State :=
  let e := s.engine ei
  if !e.live || (e.phase = .triggered && !e.window && decide (e.post ≤ e.fill)) then s
  else if s.clk.dramRetraining then
    (s.onEngine ei fun e =>
      { e with
        gapCount := e.gapCount + 1
        desc := { e.desc with waveGap := e.desc.waveGap || e.phase = .triggered }
        gapRun := match e.gapRun with
          | none => some (s.tagOf e time, 1)
          | some (t, n) => some (t, n + 1) }).when e.gapRun.isNone fun s => s.raise .capt 4
  else
    let pos := BitVec.ofNat 80 ((s.posOf time).getD s.tide.posN)
    let row : Row := { idx := e.instants, time := time, tag := s.tagOf e time, pos := pos, samples := samples }
    s.onEngine ei fun e => { e with rows := (row :: e.rows).take e.ringRows, rowCount := e.rowCount + 1 }

/-- Storing resumes after retraining: the FIFO drains, and a WAVE_GAP and a CHG_GAP record stand for what was missed (R381). -/
def State.captResume (s : State) (ei : Nat) : State :=
  let e := s.engine ei
  let s := s.onEngine ei fun e => e.fifo.foldl (fun e r => e.put r s.now) { e with fifo := [] }
  let s := match e.gapRun with
    | none => s
    | some (t, n) =>
      (s.captPut ei { tag := t, type := .waveGap, source := 0, lo := BitVec.ofNat 32 n }).onEngine ei fun e =>
        { e with gapRun := none, waveGaps := satInc 16 e.waveGaps }
  match (s.engine ei).lostRun with
  | some l => if (s.engine ei).chgFull then s else (s.onEngine ei fun e => { e with lostRun := none }).captPut ei l.record
  | none => s

/-! ### Registers (R396 to R399) -/

def State.captStatus (s : State) : Word :=
  (List.range 4).foldl (fun acc i =>
    let e := s.engine i
    acc ||| flag i e.created ||| flag (4 + i) (e.phase == .armed) ||| flag (8 + i) (e.phase == .triggered) |||
      flag (12 + i) (e.phase == .done) ||| flag (16 + i) e.locked.isSome) 0

/-- PRE_FULL: PRE_ROWS rows held behind the write pointer (R399). -/
def Engine.preFull (e : Engine) : Bool := e.live && decide (e.pre ≤ e.rows.length)

def Engine.status (e : Engine) : Word :=
  fld 0 e.phase.num ||| flag 2 e.preFull ||| flag 3 e.window ||| flag 4 e.locked.isSome ||| flag 5 e.clampedCfg |||
    flag 6 e.chgFull ||| fld 8 e.primary

def Engine.cfgWord (e : Engine) : Word :=
  if e.created then
    flag 0 true ||| flag 1 (e.cfg.rate == .fast) ||| flag 2 e.cfg.armAtStart ||| fld 3 e.cfg.chans.length |||
      fld 12 e.cfg.digital.length ||| fld 22 e.cfg.analog.length
  else 0

/-- Seconds until the lock lapses (R396). -/
def State.lockLeft (s : State) (e : Engine) : Nat :=
  match e.locked with
  | some t => (t + e.cfg.lockMax - s.now) / 1000000000
  | none => 0

/-! ### The descriptor (R389, R390) -/

/-- The bytes of a descriptor before its CHECK (R389). -/
def Descriptor.body (d : Descriptor) (engine : Nat) : List (BitVec 8) :=
  let flags := b2n d.valid + 2 * b2n d.preShort + 4 * b2n d.clamped + 8 * b2n d.waveGap + 16 * b2n d.chgGap +
    32 * b2n d.chgFull + 64 * b2n d.degraded + 128 * b2n d.eccErr
  let cycle := d.startPos.toNat / 2 ^ 32
  leBytes 2 1 ++ leBytes 1 engine ++ leBytes 1 flags ++ leBytes 4 d.captNum ++ leBytes 8 d.mask.toNat ++
    leBytes 1 d.primary ++ leBytes 1 (b2n d.fast) ++ leBytes 2 d.device ++ leBytes 2 d.nch ++ leBytes 2 d.ndig ++
    leBytes 1 d.nana ++ leBytes 1 d.sg ++ leBytes 2 0 ++ leBytes 4 d.manifestVer ++ leBytes 6 (d.start / 1000000000) ++
    leBytes 2 (cycle / 2 ^ 32) ++ leBytes 4 (d.start % 1000000000) ++ leBytes 4 cycle ++ leBytes 4 d.startPos.toNat ++
    leBytes 5 d.startTag ++ leBytes 5 d.baseTag ++ leBytes 2 0 ++ leBytes 4 d.trigRow ++ leBytes 4 d.rows ++
    leBytes 4 d.gapRows ++ leBytes 4 d.waveFirst ++ leBytes 4 d.chgFirst ++ leBytes 4 d.chgCount ++ leBytes 4 d.chgLost

/-- The 96 bytes of a descriptor (R389). -/
def Descriptor.bytes (d : Descriptor) (engine : Nat) : List (BitVec 8) :=
  d.body engine ++ leBytes 4 (CrcAlg.crc32c.check (d.body engine))

/-- The record of a capture: bytes 0 to 31 are the payload, bytes 32 to 95 the snapshot words (R390). -/
def State.captRecord (s : State) (r : Rec) (ei : Nat) : State :=
  let b := ((s.engine ei).written.getD {}).bytes ei
  let words := (List.range 16).map fun i => BitVec.ofNat 32 (ofLe ((b.drop (32 + 4 * i)).take 4))
  s.onLog fun l => { l with reported := l.reported ++
    [{ name := r, source := ei, time := some s.ltc, payload := .sized ((b.take 32).map fun x => (1, x.toNat)), words := some words }] }

/-- The fields that follow from the capture's span as it stands now (R385, R389). -/
def State.captSpan (s : State) (e : Engine) : Descriptor :=
  let k := e.startIdx
  let start := e.timeOfIdx k
  let rows := e.rows.filter fun r => decide (k ≤ r.idx)
  let pos := match rows.getLast? with
    | some r => if r.idx = k then r.pos else ((s.posOf start.1).map (BitVec.ofNat 80)).getD r.pos
    | none => ((s.posOf start.1).map (BitVec.ofNat 80)).getD s.tide.pos
  let recs := (e.chg.takeWhile fun r => decide (start.1 + s.now ≤ r.at_ + s.ltc)).length
  let span := min (e.instants - k) (e.trigIdx - k + e.post)
  { e.desc with
    start := start.1, startTag := start.2, startPos := pos
    preShort := decide (e.trigIdx < e.pre)
    trigRow := e.trigIdx - k
    rows := rows.length
    gapRows := span - rows.length
    waveFirst := if e.ringRows = 0 then 0 else (e.rowCount - rows.length) % e.ringRows * e.rowBytes
    chgFirst := if e.chgSize = 0 then 0 else (e.chgCount - recs) % e.chgSize
    chgCount := recs
    degraded := e.desc.degraded || s.clk.degraded || e.chg.any fun r => r.type == .degraded && e.inSpan r.tag
    waveGap := e.desc.waveGap || e.chg.any fun r => r.type == .waveGap && e.inSpan r.tag
    chgGap := e.desc.chgGap || e.chg.any fun r => r.type == .chgGap && e.inSpan r.tag }

/-! ### Arming and disarming (R384, R390) -/

/-- Re-arming or disarming a DONE engine discards its capture (R390). -/
def State.captDiscard (s : State) (ei : Nat) : State :=
  let e := s.engine ei
  if e.phase = .done then s.report .captDiscard ei [e.num] else s

/-- The engine is armed: TAG counts from zero, both rings empty, and every channel that is not GOOD has a QUALITY record
(R379, R384). -/
def State.captArmed (s : State) (ei : Nat) : State :=
  let s := s.captDiscard ei
  let s := s.onEngine ei fun e =>
    { e with
      phase := .armed, armedAt := s.now, rows := [], rowCount := 0, gapCount := 0, gapRun := none, chg := [], chgCount := 0
      fifo := [], lostRun := none, met := [], window := false, reports := [], trigIdx := 0
      desc := {}, written := none, lastAna := [], chgFull := false, lost := 0, waveGaps := 0 }
  let s := s.forEach (s.engine ei).lastQ.zipIdx fun s x =>
    if x.1.1 = 0 ∧ x.1.2 = 0 then s else
      s.captPut ei { tag := 0, type := .quality, source := x.2, lo := fld 0 x.1.1 ||| fld 2 x.1.2 }
  (s.raise .capt 0).report .captArm ei

/-- The engine goes to DISARMED on a command (R384, R390). -/
def State.captDisarmed (s : State) (ei : Nat) : State :=
  (((s.captDiscard ei).onEngine ei fun e => { e with phase := .disarmed }).raise .capt 3).report .captDisarm ei

/-- The engine stops and its data are lost: last-words (R384, R393). -/
def Engine.stop (e : Engine) : Engine :=
  { e with
    phase := .disarmed, window := false, met := [], reports := [], locked := none, rows := [], rowCount := 0, gapCount := 0, gapRun := none
    chg := [], chgCount := 0, fifo := [], lostRun := none, desc := {}, written := none }

/-! ### Conditions (R382, R383) -/

/-- The conditions of an engine that a test selects, by index (R382). -/
def Engine.condsOf (e : Engine) (p : CaptCond → Bool) : List Nat := (e.cfg.conds.zipIdx.filter fun x => p x.1).map (·.2)

/-- A condition's event has happened at PTP time `t`, while the engine is ARMED or TRIGGERED; its report waits (R382). -/
def State.captMet (s : State) (ei cond t : Nat) : State :=
  let e := s.engine ei
  if e.live then s.onEngine ei fun e => { e with met := e.met ++ [{ cond := cond, time := t, tag := s.tagOf e t }] } else s

/-- The conditions of all engines that a test selects are met at PTP time `t` (R382). -/
def State.captMetAll (s : State) (t : Nat) (p : CaptCond → Bool) : State :=
  s.forEach (List.range 4) fun s ei =>
    s.forEach ((s.engine ei).cfg.conds.zipIdx.filter fun x => (s.engine ei).created && p x.1) fun s x => s.captMet ei x.2 t

/-- An event source of LOGIC fires; every EVENT task that names it will take it (R340). -/
def State.fire (s : State) (p : EventSource → Bool) : State :=
  s.onLogic fun l => { l with fired := l.fired ++ l.tasks.zipIdx.flatMap fun x =>
    match x.1.cfg.kind with
    | .event _ srcs => (srcs.zipIdx.filter fun y => p y.1).map fun y => (x.1.cfg.task, y.2)
    | _ => [] }

/-- A report: the first opens the coincidence window and takes the next capture number; each writes a TRIGGER record (R383, R384). -/
def State.captReport (s : State) (ei : Nat) (r : Report) : State :=
  let e := s.engine ei
  if !e.live then s else
    let first := e.phase = .armed
    let s := if first then
      (s.onEngine ei fun e =>
        { e with
          phase := .triggered, firstAt := s.now, window := true, reports := [r], num := (e.num + 1) % 2 ^ 32
          trigIdx := e.idxOf r.time
          desc := { ({} : Descriptor) with waveGap := e.gapRun.isSome, chgGap := e.lostRun.isSome, clamped := e.clampedCfg, sg := s.prot.group + 1 } }).fire
        fun x => x == .capture ei
    else if e.window then
      s.onEngine ei fun e =>
        let e := { e with reports := e.reports ++ [r] }
        { e with trigIdx := e.earliest }
    else s
    s.captPut ei
      { tag := r.tag, type := .trigger, source := r.cond, lo := BitVec.ofNat 32 ((s.now - (s.engine ei).firstAt) / 10) }

/-- Every condition of an engine that a test selects is reported now, with the event time `t`: a trigger by hand or by the program (R382). -/
def State.captTriggerNow (s : State) (ei t : Nat) (p : CaptCond → Bool) : State :=
  s.forEach ((s.engine ei).condsOf p) fun s c => s.captReport ei { cond := c, time := t, tag := s.tagOf (s.engine ei) t }

end Sys2Proof.Machine
end

