-- ==== Sys2Proof/Machine/LogOps.lean ====
section
/-! DEFINITION. Operations of the logbook: codes and selection, staging, commits, tails, overflow, bank failure, epochs, the Hatch, the registers (spec/12_logbook.md). -/

namespace Sys2Proof.Machine

open Sys2Proof

/-! ### Codes and selection (R403, R404, R412, R621) -/

/-- CODE[11:0] of a record (R404, R621). -/
def recCode : Rec → Nat
  | .logRepeat => 0x580 | .logLost => 0x581 | .logEpoch => 0x582 | .powerLoss => 0x583 | .logRecovered => 0x584
  | .logBankFail => 0x585 | .logCheckFail => 0x586
  | .refused b => b.num * 128 + 0x7F
  | r => Config.recCode r

/-- The default severity of a record (R404, R621). -/
def recSeverity : Rec → Severity
  | .logRepeat | .logEpoch | .refused _ => .info
  | .logLost | .powerLoss | .logRecovered => .warning
  | .logBankFail => .critical
  | .logCheckFail => .alarm
  | r => Config.recSeverity r

/-- The records named as mandatory: LOG's own, the trip records, every CAPT and SEC record (R412). -/
def recMandatory : Rec → Bool
  | .logRepeat | .logLost | .logEpoch | .powerLoss | .logRecovered | .logBankFail | .logCheckFail
  | .tripOn | .tripOff | .tripMasked
  | .captArm | .captTrigger | .captDone | .captDisarm | .captDiscard | .captClamped | .captLockLapsed | .captEcc
  | .secRoot | .secKey | .secKeyBad | .secConfirmBad | .secSigFail | .secTallyFail | .secPropose | .secConfirm | .secCommit
  | .secCommitRefused | .secLapse | .secDevice | .manifestLoaded | .manifestReject | .manifestEnvelope | .manifestFallback
  | .manifestBare | .manifestActivate | .manifestPromote | .manifestLive | .refused .sec => true
  | r => 2 ≤ (recSeverity r).num

/-- The settings in force for a record (R412). -/
def State.logSetting (s : State) (r : Rec) : LogCodeCfg :=
  let c := ((s.log.cfg.codes.find? fun x => x.1 == r).map (·.2)).getD {}
  if recMandatory r then { c with record := true, merge := false } else c

/-- The severity written for a record (R412). -/
def State.logSeverity (s : State) (r : Rec) : Severity := ((s.logSetting r).severity).getD (recSeverity r)

/-- TQ: the state of the local time counter (R403). -/
def State.tq (s : State) : Nat :=
  if s.clk.degraded then 2 else if !s.ptp.timeKnown then 3 else if s.ptp.locked then 0 else 1

/-- TIME with TQ in [63:62] (R402). -/
def timeWord (t tq : Nat) : Nat := t % 2 ^ 62 + tq * 2 ^ 62

/-- A record taken in now (R402, R403). -/
def State.logRecord (s : State) (name : Rec) (source : Nat) (time : Option Nat) (payload : Payload) : LogRecord :=
  { time := time.getD s.ltc, tq := s.tq, opsec := s.diag.ledger.opsec, pwrcyc := s.diag.ledger.pwrcyc, name := name
    sev := s.logSeverity name, lastwords := s.log.lastwords, source := source, payload := payload }

/-! ### The rings (R400, R406, R420) -/

/-- RING of the bank in use (R406). -/
def LogState.ring (l : LogState) : Nat := if l.reserve then 32768 else 327680

/-- The header member with the smaller update count is rewritten (R400). -/
def writeHeader (h : List LogHeader) (epoch first next frozen switch : Nat) : List LogHeader :=
  let a := nth h 0 {}
  let b := nth h 1 {}
  let n := fun u => ({ updates := u + 1, epoch, first, checkpoint := next, frozenFirst := frozen, switch } : LogHeader)
  if a.updates ≤ b.updates then [n b.updates, b] else [a, n a.updates]

/-- The next-sequence checkpoint goes into the header pair of the bank in use (R400). -/
def LogState.checkpoint (l : LogState) : LogState :=
  let w := fun h => writeHeader h l.epoch (l.epoch * 2 ^ 58) l.next l.frozenFirst l.switch
  if l.reserve then { l with headB := w l.headB } else { l with headA := w l.headA }

/-- A record gets the next sequence number and lies in the ring; LOG_OLDEST makes room for it (R405, R406). -/
def LogState.commit (l : LogState) (r : LogRecord) : LogState :=
  let r := { r with seq := l.next }
  let oldest := if l.oldest + l.ring ≤ l.next then l.next + 1 - l.ring else l.oldest
  let l := if l.reserve then { l with bankB := (r :: l.bankB).take 32768 } else { l with bankA := (r :: l.bankA).take 327680 }
  let l := { l with next := l.next + 1, oldest := oldest }
  if l.next % 4096 = 0 then l.checkpoint else l

/-! ### The tail (R409) -/

/-- The tail slot with the smaller update count is rewritten (R400, R409). -/
def LogState.writeTail (l : LogState) (isOpen : Bool) (now : Ns) : LogState :=
  let a := nth l.tailSlots 0 {}
  let b := nth l.tailSlots 1 {}
  let n := fun u => ({ updates := u + 1, isOpen, tail := l.tail } : TailSlot)
  { l with tailSlots := if a.updates ≤ b.updates then [n b.updates, b] else [a, n a.updates], tailWritten := now }

/-- The LOG_REPEAT payload (R409). -/
def Tail.payload (t : Tail) (c : TailCause) : Payload :=
  .sized [(8, t.seq), (4, t.count), (2, recCode t.name + 4096 * t.sev.num), (2, t.source), (8, timeWord t.lastTime t.lastTq),
    (1, c.num), (7, 0)]

/-- The tail closes: an open one by a LOG_REPEAT record. For age or count a tail then stands ready on that record (R409). -/
def State.closeTail (s : State) (c : TailCause) : State :=
  match s.log.tail with
  | none => s
  | some t =>
    if t.count = 0 then s.onLog fun l => { l with tail := none } else
      let r := { s.logRecord .logRepeat t.source none (t.payload c) with snap := t.lastSnap, snapPartial := t.lastPartial }
      let ready := (c = .age || c = .count) && (s.logSetting t.name).merge
      s.onLog fun l =>
        let seq := l.next
        let l := (l.commit r).writeTail false s.now
        { l with tail := if ready then some { t with seq := seq, count := 0 } else none }

/-- The tail that stands after the commit of an entry: ready, or open with the entry's repeats (R409). -/
def State.tailAfter (s : State) (e : StageEntry) (seq : Nat) : State :=
  if !(s.logSetting e.rcd.name).merge then s.onLog fun l => { l with tail := none } else
    let t : Tail :=
      { seq := seq, name := e.rcd.name, sev := e.rcd.sev, source := e.rcd.source, count := e.count, lastTime := e.lastTime
        lastTq := e.lastTq, lastSnap := e.lastSnap, lastPartial := e.lastPartial, openedAt := s.now }
    let s := s.onLog fun l => { l with tail := some t }
    if e.count = 0 then s else s.onLog fun l => l.writeTail true s.now

/-! ### Overflow (R410) -/

/-- An event is lost in the running episode, or starts one (R407, R410). -/
def State.logLose (s : State) (r : LogRecord) : State :=
  let o := (s.log.overflow).getD { firstTime := timeWord r.time r.tq, fName := r.name, fSource := r.source }
  let o := { o with
    count := o.count + 1
    maxSev := if o.maxSev.num < r.sev.num then r.sev else o.maxSev
    lastTime := timeWord r.time r.tq
    alarms := if 2 ≤ r.sev.num then o.alarms + 1 else o.alarms }
  let s := if s.log.overflow.isNone then s.raise .log 2 else s
  s.onLog fun l => { l with overflow := some o, lostTotal := satInc 32 l.lostTotal }

/-- The LOG_LOST record of an episode (R410). -/
def State.lostRecord (s : State) (o : Overflow) : LogRecord :=
  s.logRecord .logLost 0xFFFF none <| .sized
    [(4, o.count), (1, o.maxSev.num), (3, 0), (8, o.firstTime), (8, o.lastTime), (2, recCode o.fName), (2, o.fSource), (4, o.alarms)]

/-- An entry takes a staging place (R407, R411). -/
def State.stagePut (s : State) (e : StageEntry) : State :=
  let s := s.onLog fun l =>
    let st := l.staging ++ [e]
    { l with staging := st, peak := max l.peak st.length }
  s.when (s.log.staging.length = 192) fun s => s.raise .log 3

/-- The episode ends at the first commit after which 191 or fewer places are in use (R410). -/
def State.endOverflow (s : State) : State :=
  match s.log.overflow with
  | some o => if s.log.staging.length ≤ 191 then (s.onLog fun l => { l with overflow := none }).stagePut { rcd := s.lostRecord o } else s
  | none => s

/-! ### Bank failure (R420, R421) -/

/-- The reserve log fails too: BOTH_FAIL is latched and ALERT_N driven low (R421). -/
def State.logBothFail (s : State) : State :=
  ((s.onLog fun l => { l with bothFail := true, aonBoth := true, aonB := true }).raise .log 1).onDiag fun d =>
    { d with alertLow := true }

/-- A bank fails; `first` commits the failed record, if there is one, as the first of the reserve ring; the cause is 1 read-back,
2 uncorrectable, 3 no response (R420, R421). -/
def State.logBankFail (s : State) (first : State → State) (cause : Nat) : State :=
  if s.log.reserve then s.logBothFail else
    let seq := s.log.next
    let s := (s.onLog fun l =>
      { l with bankFail := true, aonA := true, reserve := true, frozenFirst := l.oldest, switch := seq, oldest := seq }).raise .log 0
    let s := (first s).closeTail .another
    let b := s.logRecord .logBankFail 0xFFFF none (.sized [(8, seq), (1, cause), (23, 0)])
    s.onLog fun l => { (l.commit b).checkpoint with tail := none }

/-- An entry is committed, and its tail stands (R405, R409). -/
def State.commitEntry (s : State) (e : StageEntry) : State :=
  (s.onLog fun l => l.commit { e.rcd with lastwords := l.lastwords }).tailAfter e s.log.next

/-- A commit of the writer; one that does not read back is a bank failure (R405, R420). -/
def State.logCommit (s : State) (f : State → State) (readback : Bool) : State := if readback then f s else s.logBankFail f 1

/-! ### The Hatch (R414, R415, R417) -/

/-- The record with a sequence number, in whichever bank holds it (R414). -/
def LogState.find (l : LogState) (n : Nat) : Option LogRecord :=
  if l.reserve && decide (l.switch ≤ n) then l.bankB.find? (·.seq == n) else l.bankA.find? (·.seq == n)

/-- A sequence number lies in the frozen range (R420). -/
def LogState.frozen (l : LogState) (n : Nat) : Bool := l.bankFail && decide (l.frozenFirst ≤ n ∧ n < l.switch)

/-- The status of a sequence number: 0 VALID, 1 CHECK_FAIL, 2 NOT_YET, 3 GONE (R415). -/
def LogState.status (l : LogState) (n : Nat) : Nat :=
  if l.next ≤ n then 2
  else if n / 2 ^ 58 < l.epoch || (decide (n < l.oldest) && !l.frozen n) then 3
  else match l.find n with
    | some r => if r.good then 0 else 1
    | none => 1

/-- LOG_H_STAT: the status of the 8 records under the window (R415, R423). -/
def LogState.hatchStat (l : LogState) (h : Nat) : Word :=
  (List.range 8).foldl (fun acc i => acc ||| fld (4 * i) (l.status ((nth l.hatches h {}).cursor.toNat + i))) 0

/-- The bytes of a payload, 32 in all (R402). -/
def Payload.bytes (r : Rec) : Payload → List (BitVec 8)
  | .sized f => (f.flatMap (fun (x : Nat × Nat) => leBytes x.1 x.2) ++ List.replicate 32 0).take 32
  | .values v => (List.range 32).map (Config.payloadByte r v)

/-- Offsets 0 to 123 of a record (R402). -/
def LogRecord.body (r : LogRecord) : List (BitVec 8) :=
  let code := recCode r.name + 4096 * r.sev.num + 16384 * b2n r.snapPartial + 32768 * b2n r.lastwords + 65536 * r.source
  leBytes 8 r.seq ++ leBytes 8 (timeWord r.time r.tq) ++ leBytes 4 r.opsec ++ leBytes 4 r.pwrcyc ++ leBytes 4 code ++
    r.payload.bytes r.name ++ (List.range 16).flatMap fun i => leBytes 4 (nth r.snap i 0).toNat

/-- The 128 bytes of a record; of one whose slot took an uncorrectable error the bytes are as read, which the manual does not state (R402, R417). -/
def LogRecord.bytes (r : LogRecord) : List (BitVec 8) :=
  if r.good then r.body ++ leBytes 4 (CrcAlg.crc32c.check r.body) else (List.range 128).map (Config.spoiltByte r.seq)

/-! ### Last-words, start and epochs (R418, R419, R422) -/

/-- Every staging entry is committed in order, each with the tail that it opens and closes (R418, R422). -/
def State.logDrain (s : State) (c : TailCause) : State :=
  let s := s.forEach s.log.staging fun s e => (s.closeTail .another).commitEntry e
  (s.onLog fun l => { l with staging := [] }).closeTail c

/-- The CHECK_FAIL window ends: one LOG_CHECK_FAIL record is taken in (R417). -/
def State.endCheckWindow (s : State) : State :=
  match s.log.cfWindow with
  | none => s
  | some w =>
    s.onLog fun l =>
      { l with
        cfWindow := none
        reported := l.reported ++
          [{ name := .logCheckFail, time := some w.2.1, payload := .sized [(8, w.2.2.1), (4, w.2.2.2), (20, 0)] }] }

/-- Last-words: intake closes, the entries, the tail, LOG_LOST and POWER_LOSS are committed, when the writer has started (R418). -/
def State.logLastwords (s : State) (va vb : Nat) : State :=
  let refused := s.log.reported.length
  let flushed := s.log.staging.length
  let s := s.onLog fun l => { l with lastwords := true, refusedLw := refused, reported := [] }
  if !s.log.ready || s.log.bothFail then s else
    let s := s.logDrain .lastwords
    let s := match s.log.overflow with
      | some o => (s.onLog fun l => (l.commit (s.lostRecord o))).onLog fun l => { l with overflow := none }
      | none => s
    let p := s.logRecord .powerLoss 0xFFFF none <| .sized
      [(2, va), (2, vb), (2, flushed), (2, refused), (8, timeWord s.ltc s.tq), (16, 0)]
    s.onLog fun l => l.commit p

/-- The newest committed record, if the logbook holds one (R419). -/
def LogState.newest (l : LogState) : Option LogRecord := if l.reserve then l.bankB.head? <|> l.bankA.head? else l.bankA.head?

/-- The current member of the tail slot pair (R400). -/
def LogState.currentTail (l : LogState) : TailSlot :=
  let a := nth l.tailSlots 0 {}
  let b := nth l.tailSlots 1 {}
  if a.updates < b.updates then b else a

/-- The boot MRAM check: LOG finds LOG_NEXT and commits the records of recovery (R419). -/
def State.logBoot (s : State) (torn : Bool) : State :=
  let l := s.log
  let s := s.onLog fun l => { l with ready := true, next := ((l.newest.map (·.seq + 1)).getD (l.epoch * 2 ^ 58)) }
  match l.newest with
  | none => s
  | some r =>
    let slot := l.currentTail
    let noPower := decide (r.name ≠ .powerLoss)
    if !noPower && !slot.isOpen then s else
      let s := if slot.isOpen then (s.onLog fun l => { l with tail := slot.tail }).closeTail .recovered else s
      let rec_ := s.logRecord .logRecovered 0xFFFF none <| .sized
        [(1, b2n slot.isOpen + 2 * b2n torn + 4 * b2n noPower), (7, 0), (8, r.seq), (16, 0)]
      (s.onLog fun l => l.commit rec_).raise .log 6

/-- A committed LOG_CLEAR: the entries and the tail are committed, bank A is tested when it has failed, and a new epoch opens
(R422). The Tally count is consumed by the caller. -/
def State.logClear (s : State) (propSlot confSlot tallyLeft : Nat) (bankAGood : Bool) : State :=
  let s := s.logDrain .epoch
  let old := s.log
  let tested := old.bankFail
  let back := !old.reserve || bankAGood
  let valid := old.next - old.oldest + (if old.bankFail then old.switch - old.frozenFirst else 0)
  let s := s.onLog fun l =>
    let e := l.epoch + 1
    { l with
      epoch := e, next := e * 2 ^ 58, oldest := e * 2 ^ 58, tail := none
      reserve := !back, bankFail := l.bankFail && !back, aonA := l.aonA && !back
      frozenFirst := if back then 0 else l.frozenFirst, switch := if back then 0 else l.switch }
  let r := s.logRecord .logEpoch 0xFFFF none <| .sized
    [(1, old.epoch), (1, tallyLeft), (1, propSlot + 16 * confSlot), (1, b2n back + 2 * b2n tested), (4, 0), (8, old.next - 1),
      (8, valid), (8, 0)]
  (s.onLog fun l => (l.commit r).checkpoint).raise .log 5

/-! ### Registers (R423 to R426) -/

def State.logStatus (s : State) : Word :=
  let l := s.log
  flag 0 l.ready ||| flag 1 l.reserve ||| flag 2 l.bankFail ||| flag 3 l.bothFail ||| flag 4 (l.tail.any fun t => t.count ≠ 0) |||
    flag 5 l.overflow.isSome ||| flag 6 l.lastwords ||| fld 8 l.epoch

def LogState.aon (l : LogState) : Word := flag 0 l.aonBoth ||| flag 1 l.aonA ||| flag 2 l.aonB

end Sys2Proof.Machine
end

