-- ==== Sys2Proof/Machine/AcqOps.lean ====
section
/-! DEFINITION. Operations of acquisition: banks and their checks, the filter chain, sample quality, the release of aligned sets, the registers (spec/04_acquisition.md). -/

namespace Sys2Proof.Machine

open Sys2Proof

def State.ain? (s : State) (c : Nat) : Option Ain := s.acq.chans.find? (·.ch == c)
def State.onAin (s : State) (c : Nat) (f : Ain → Ain) : State :=
  s.onAcq fun a => { a with chans := a.chans.map fun x => if x.ch == c then f x else x }

/-- Full scale of a code (R122). -/
def fullScale : Int := 2 ^ 31 - 256

/-- K_pu (R122). -/
def Ain.kpu (a : Ain) : Num := a.range.volts / ((2 ^ 31 : Nat) * a.secNom)

/-! ### Banks (R130 to R134) -/

def Ain.active (a : Ain) : Bank := if a.activeB then a.bankB else a.bankA
def Ain.staged (a : Ain) : Bank := if a.activeB then a.bankA else a.bankB

/-- Replace the inactive bank. -/
def Ain.setStaged (a : Ain) (b : Bank) : Ain := if a.activeB then { a with bankA := b } else { a with bankB := b }

/-- h[i] of a set of `n` taps, by symmetry (R130). -/
def tapCoef (coef : List (BitVec 24)) (n i : Nat) : Int := (nth coef (min i (n - 1 - i)) 0).toInt

/-- The limits of R130, with the tap count of R132: odd, 1 to 383, the sum within 1 ± 2^−10, the magnitudes at most 4. -/
def coefOk (n : Nat) (coef : List (BitVec 24)) : Bool :=
  let l := (List.range n).map (tapCoef coef n)
  let sum := l.foldl (· + ·) 0
  let mags := (l.map Int.natAbs).sum
  decide (n % 2 = 1 ∧ n ≤ 383 ∧ 2 ^ 23 - 2 ^ 13 ≤ sum ∧ sum ≤ 2 ^ 23 + 2 ^ 13 ∧ mags ≤ 2 ^ 25)

/-- STAGE_OK (R132). -/
def Ain.stageOk (a : Ain) : Bool := decide (a.fadeLen ≤ 1024) && coefOk a.stageTaps a.staged.coef

/-- The CRC-32C of a bank with its tap count and fade length (R132). -/
def Ain.crcOf (a : Ain) (n : Nat) (b : Bank) : Word :=
  let words := n :: a.fadeLen :: ((b.coef.take ((n + 1) / 2)).map (·.toNat))
  BitVec.ofNat 32 (CrcAlg.crc32c.check (words.flatMap (leBytes 4)))

/-- ACQ_CH_STAGE_CRC (R132). -/
def Ain.stageCrc (a : Ain) : Word := a.crcOf a.stageTaps a.staged

/-- D_fast and D_phasor of a tap count, in Tm (R126). -/
def dWave (n : Nat) : Nat := 98 + 24 * (n - 1)
def dFast (n : Nat) : Nat := dWave n + 4416
def dPhasor (n : Nat) : Nat := dWave n + 17472

/-- ALIGN_WAIT of a lane, in ns and in whole lane periods, rounded up (R143, R150). -/
def State.alignPeriods (s : State) : LaneRate → Nat
  | .fast => (s.acq.alignFast * 14400 + 999999999) / 1000000000
  | .phasor => (s.acq.alignPhasor * 4800 + 999999999) / 1000000000

/-- A tap count keeps the delays within ALIGN_WAIT (R134). -/
def State.delayFits (s : State) (n : Nat) : Bool :=
  decide (dFast n * 1000000000 ≤ s.acq.alignFast * 11059200 ∧ dPhasor n * 1000000000 ≤ s.acq.alignPhasor * 11059200)

/-! ### Registers (R150 to R153) -/

/-- FADE_POS (R152). -/
def Ain.fadePos (a : Ain) : Nat :=
  match a.swap with
  | .fading w n => min n (a.chain.nextWave - w)
  | _ => 0

def Ain.status (a : Ain) : Word :=
  let fading := match a.swap with
    | .fading .. => true
    | _ => false
  flag 0 a.activeB ||| fld 1 a.active.taps ||| flag 10 fading ||| flag 11 a.settle ||| flag 12 a.ovr ||| flag 13 a.stageLock |||
    flag 14 a.stageOk ||| flag 15 a.integHold.isSome ||| fld 16 a.fadePos

def State.acqChCfg (s : State) (c : Nat) : Word :=
  match s.ain? c with
  | none => 0xF
  | some a =>
    fld 0 a.range.num ||| fld 2 a.sensor.num ||| flag 4 a.protected_ ||| flag 5 a.published |||
      fld 16 a.rogLeak

def State.acqStatus (s : State) : Word := s.acq.chans.foldl (fun acc a => acc ||| flag a.ch a.settle) 0

/-- Writes to the active or a locked bank are ignored and counted (R132, R134). -/
def State.bankWriteIgnored (s : State) (c : Nat) : State :=
  (s.onAcq fun a => { a with activeWr := satInc 16 a.activeWr, activeWrCh := c }).raise .acq 4

/-! ### Swaps (R133 to R136) -/

/-- Why an ACQ_SWAP of channel `c` with the carried CRC is refused (R134); `own` says that the proposal which locks the staged bank asks
itself. -/
def State.refuseSwap (s : State) (c : Nat) (crc : Word) (own : Bool := false) : Option Refuse :=
  match s.ain? c with
  | none => some { blk := .acq, src := c }
  | some a =>
    if a.stageOk && (own || !a.stageLock) && decide (crc = a.stageCrc ∧ a.swap = .idle) && s.delayFits a.stageTaps then none
    else some { blk := .acq, src := c, st0 := a.status }

/-- A swap is committed: its start follows (R135). -/
def State.commitSwap (s : State) (c : Nat) : State := s.onAin c fun a => { a with swap := .committed, stageLock := false }

/-! ### The chain (R126, R127, R131, R135, R137) -/

/-- The finite sum of a filter over a history, newest first; `off` is the place of the newest tap. -/
def fir (coef : Nat → Num) (n off : Nat) (l : List Tap) : Tap :=
  let taps := (l.drop off).take n
  { value := (taps.zipIdx.map fun x => coef x.2 * x.1.value).foldl (· + ·) 0, ovr := taps.any (·.ovr) }

/-- One bank over the history of CIC outputs, Q1.23 (R130). -/
def Bank.filter (b : Bank) (off : Nat) (l : List Tap) : Tap :=
  fir (fun i => (tapCoef b.coef b.taps i : Num) / (2 ^ 23 : Nat)) b.taps off l

/-- The index of the newest CIC output in the support of waveform sample `w` (R126, R127). -/
def newestCic (n w : Nat) : Nat := 4 * w + 2 + (n - 1) / 2

/-- The bank that serves waveform sample `w`: before a delay-class switch takes effect, the old one (R136). -/
def Ain.bankAt (a : Ain) (w : Nat) : Bank := if w < a.switchAt then a.staged else a.active

/-- Waveform sample `w` (R126, R135). -/
def Ain.waveOut (a : Ain) (w : Nat) : Tap :=
  let b := a.bankAt w
  let off := fun n => a.chain.cicCount - 1 - newestCic n w
  let y := b.filter (off b.taps) a.chain.cic
  match a.swap with
  | .fading f len =>
    if w < f then y else
      let z := a.staged.filter (off a.staged.taps) a.chain.cic
      let k : Num := if len ≤ w - f then 1 else ((w - f + 1 : Nat) : Num) / (len : Num)
      { value := (1 - k) * y.value + k * z.value, ovr := y.ovr || z.ovr }
  | _ => y

/-- Samples of a lane, with a grid step in Tm, that a shorter delay does not produce (R136). -/
def skipCount (delta : Int) (step : Nat) : Nat := if delta < 0 then (delta.natAbs + step - 1) / step else 0

/-- The first waveform sample after a delay-class switch that is produced (R136). -/
def Ain.firstAfterSwitch (a : Ain) : Nat := a.switchAt + skipCount a.delta 192

/-- An output of the waveform lane with its marks: `hold` while the integrator is in its post-reset hold, `inacc` where the sample's instant
and the clocks make every sample INACCURATE (R136, R139, R140). -/
def Ain.waveMarked (a : Ain) (w : Nat) (hold : Bool) (inacc : Nat → Bool) : Tap :=
  { a.waveOut w with hold := hold, inacc := inacc w || decide (a.switchAt ≠ 0 ∧ w = a.firstAfterSwitch) }

/-- Samples of the waveform lane that the chain keeps. -/
def waveKept : Nat := 512

/-- Waveform sample `w` of a channel, while the chain keeps it. -/
def Ain.waveAt (a : Ain) (w : Nat) : Option Tap := if w < a.chain.nextWave then a.chain.wave[a.chain.nextWave - 1 - w]? else none

/-- The index of the latest waveform sample that has been released; an instant that a swap skips has none (R136, R239). -/
def Ain.latestWave (a : Ain) : Nat := a.chain.nextWave - 1 - (a.chain.wave.takeWhile (·.absent)).length

/-- The next waveform samples, as long as their support is there (R127, R136). -/
def Ain.runWave (ch : Nat) (hold : Bool) (inacc : Nat → Bool) : Nat → Ain → Ain
  | 0, a => a
  | fuel + 1, a =>
    let w := a.chain.nextWave
    let n := (a.bankAt w).taps
    if a.chain.cicCount ≤ newestCic n w then a else
      let gap := if w = a.switchAt then skipCount a.delta 192 else 0
      if 0 < gap then
        let skipped := ((List.range gap).map fun i => ({ value := Config.skippedWave ch (w + i), absent := true } : Tap)).reverse
        Ain.runWave ch hold inacc fuel { a with chain := { a.chain with wave := (skipped ++ a.chain.wave).take waveKept, nextWave := w + gap } }
      else
        Ain.runWave ch hold inacc fuel
          { a with chain := { a.chain with wave := (a.waveMarked w hold inacc :: a.chain.wave).take waveKept, nextWave := w + 1 } }

/-- Half-band 1: sample `h` takes waveform samples 2h − 5 to 2h + 5 (R126). -/
def Chain.runHalf : Nat → Chain → Chain
  | 0, c => c
  | fuel + 1, c =>
    let h := c.nextHalf
    if c.nextWave ≤ 2 * h + 5 then c else
      let y := fir Config.halfBand1 11 (c.nextWave - 1 - (2 * h + 5)) c.wave
      Chain.runHalf fuel { c with half := (y :: c.half).take 64, nextHalf := h + 1 }

/-- Half-band 2: fast sample `f` takes 2f − 9 to 2f + 9 (R126). The new samples come with their indices. -/
def Chain.runFast : Nat → Chain → Chain × List (Nat × Tap)
  | 0, c => (c, [])
  | fuel + 1, c =>
    let f := c.nextFast
    if c.nextHalf ≤ 2 * f + 9 then (c, []) else
      let y := fir Config.halfBand2 19 (c.nextHalf - 1 - (2 * f + 9)) c.half
      let r := Chain.runFast fuel { c with fast := (y :: c.fast).take 64, nextFast := f + 1 }
      (r.1, (f, y) :: r.2)

/-- The last FIR: phasor sample `p` takes fast samples 3p − 17 to 3p + 17 (R126). -/
def Chain.runPhasor : Nat → Chain → Chain × List (Nat × Tap)
  | 0, c => (c, [])
  | fuel + 1, c =>
    let p := c.nextPhasor
    if c.nextFast ≤ 3 * p + 17 then (c, []) else
      let y := fir Config.phasorFir 35 (c.nextFast - 1 - (3 * p + 17)) c.fast
      let r := Chain.runPhasor fuel { c with nextPhasor := p + 1 }
      (r.1, (p, y) :: r.2)

/-- A chain with zeroed histories, whose next outputs are the first that reach beyond the strobe `k` (R141). -/
def Chain.start (n k : Nat) : Chain :=
  let w := (16 * k - 2 - (n - 1) / 2 + 3) / 4
  let h := (w - 4) / 2
  let f := (h - 8) / 2
  { cic := List.replicate 399 {}, cicCount := 16 * k, wave := List.replicate waveKept {}, half := List.replicate 64 {}
    fast := List.replicate 64 {}, nextWave := w, nextHalf := h, nextFast := f, nextPhasor := (f - 15) / 3 }

/-! ### Stage 2 (R126) -/

/-- One modulator bit, worth 1 or −1, passes the four integrators of the CIC. -/
def cicBit (l : List (BitVec 32)) (b : Bool) : List (BitVec 32) :=
  (l.foldl (fun (p : BitVec 32 × List (BitVec 32)) i => (p.1 + i, p.2 ++ [p.1 + i])) (if b then 1 else -1, [])).2

/-- The four combs of the CIC: their delays after an output, and the output. -/
def cicCombs : BitVec 32 → List (BitVec 32) → List (BitVec 32) × BitVec 32
  | x, [] => ([], x)
  | x, d :: l => let r := cicCombs (x - d) l
                 (x :: r.1, r.2)

/-- A CIC output as a code: the gain of 48^4 brings a constant bit-stream to the end of the range, where it is clamped (R122, R126). -/
def cicCode (y : BitVec 32) : Num := Num.clamp (-(fullScale : Num)) fullScale ((y.toInt : Num) * (2 ^ 31 : Nat) / (48 ^ 4 : Nat))

/-- 48 modulator bits, oldest first, make one CIC output (R126 stage 2). -/
def Chain.cicOut (c : Chain) (bits : List Bool) : Chain × Num :=
  let i := bits.foldl cicBit c.cicInt
  let r := cicCombs (nth i 3 0) c.cicComb
  ({ c with cicInt := i, cicComb := r.1 }, cicCode r.2)

/-! ### The integrator (R137 to R139) -/

/-- A CIC output is overrange (R123). -/
def overrange (x : Num) : Bool := decide ((98 : Num) / 100 * (fullScale : Num) ≤ x.mag)

/-- Full scale in the units of the integrator's state (R137, R138). -/
def integFull : Int := 2 ^ 16 * fullScale

/-- One step of the leaky trapezoidal integrator with its 48-bit state, clamped at full scale; the state is zeroed at the first input after
an overrange. The last component says that the output stands at the clamp (R137 to R139). -/
def Chain.integrate (c : Chain) (leak fnom x : Num) (bad : Bool) : Chain × Num × Bool :=
  if !bad && c.integDirty then ({ c with integ := 0, lastIn := x, integDirty := false }, 0, false) else
    let a := Config.exp (-2 * Config.pi * leak / 230400)
    let g := 2 * Config.pi * fnom / 230400
    let y := Config.round48 (a * (c.integ : Num) + g * (1 / 2) * (x + c.lastIn) * (2 ^ 16 : Nat))
    let z := max (-integFull) (min integFull y)
    ({ c with integ := z, lastIn := x, integDirty := c.integDirty || bad }, (z : Num) / (2 ^ 16 : Nat), decide (z.natAbs = integFull.natAbs))

/-- One CIC output enters the chain of a channel (R123, R126, R137 to R139). -/
def Ain.cicIn (a : Ain) (fnom : Num) (now : Ns) (x : Num) : Ain :=
  let bad := overrange x
  let r := if a.sensor = .rogowski then a.chain.integrate ((a.rogLeak : Num) / 1000) fnom x bad else (a.chain, x, false)
  let ovr := bad || r.2.2
  let code := if r.2.2 then r.2.1 else x
  let hold : Ns := (3 * 1000000000 / fnom).ceil.toNat
  { a with
    chain := { r.1 with cic := ({ value := r.2.1, ovr := ovr } :: r.1.cic).take 399, cicCount := r.1.cicCount + 1 }
    integHold := if a.sensor = .rogowski && bad then some (now + hold) else a.integHold
    peak := if ovr && decide (a.peak.natAbs < (roundInt code).natAbs) then roundInt code else a.peak
    ovrNow := a.ovrNow || ovr }

/-- 48 modulator bits of a channel pass stage 2 and enter the rest of its chain (R126). -/
def Ain.bitsIn (a : Ain) (fnom : Num) (now : Ns) (bits : List Bool) : Ain :=
  let r := a.chain.cicOut bits
  Ain.cicIn { a with chain := r.1 } fnom now r.2

/-! ### Quality and instants (R49, R127, R140, R141) -/

/-- The distance of the strobe from the nominal grid while MEAS_SLEW closes an error, in ns (R102). -/
def State.strobeOff (s : State) : Int := if s.clk.measSlew then s.clk.pherr else 0

/-- PTP time of the fast-lane instant with grid index `i`: the grid point, or during a slew the time of its actual strobe (R102, R127). -/
def State.instantOf (s : State) (i : Nat) : Nat := (((i * 1000000000 / 14400 : Nat) : Int) + s.strobeOff).toNat

/-- The error of a strobe that comes now: the local time less the nearest point of the nominal grid, in ns (R101). -/
def State.strobeError (s : State) : Int :=
  let k := (s.ltc * 4800 + 500000000) / 1000000000
  (s.ltc : Int) - roundInt ((k : Num) * 1000000000 / 4800)

/-- A grid index moves by `n`. -/
def moveIdx (n : Int) (i : Nat) : Nat := ((i : Int) + n).toNat

/-- The chain's grid indices after the local time counter has moved by `n` phasor-lane periods. -/
def Chain.shift (c : Chain) (n : Int) : Chain :=
  { c with
    cicCount := moveIdx (48 * n) c.cicCount, nextWave := moveIdx (12 * n) c.nextWave, nextHalf := moveIdx (6 * n) c.nextHalf
    nextFast := moveIdx (3 * n) c.nextFast, nextPhasor := moveIdx n c.nextPhasor }

def Ain.shift (a : Ain) (n : Int) : Ain :=
  { a with
    chain := a.chain.shift n, flushFrom := moveIdx (3 * n) a.flushFrom
    switchAt := if a.switchAt = 0 then 0 else moveIdx (12 * n) a.switchAt
    swap := match a.swap with
      | .fading f len => .fading (moveIdx (12 * n) f) len
      | x => x }

/-- A lane's grid step in phasor-lane periods, inverted. -/
def perPhasor : LaneRate → Int
  | .fast => 3
  | .phasor => 1

/-- The local time counter has moved by `d` ns, which is `n` phasor-lane periods to the nearest: what is counted on the grid is counted on
the new one (R102, R127). -/
def AcqState.shift (a : AcqState) (n d : Int) : AcqState :=
  { a with
    chans := a.chans.map fun x => x.shift n
    fastIdx := moveIdx (3 * n) a.fastIdx, startIdx := moveIdx (3 * n) a.startIdx, fastDone := moveIdx (3 * n) a.fastDone
    phasorDone := moveIdx n a.phasorDone, lastFast := a.lastFast.map (moveIdx d), lastPhasor := a.lastPhasor.map (moveIdx d)
    waiting := a.waiting.map fun w =>
      match w.chan with
      | .ain _ => { w with sample := { w.sample with idx := moveIdx (perPhasor w.lane * n) w.sample.idx, time := moveIdx d w.sample.time } }
      | .sv _ => w
    pubs := a.pubs.map fun p => { p with next := moveIdx (perPhasor p.rate * n) p.next } }

/-- The strobe divider restarts, once, so that the strobe lands on the grid; the K periods of R141 start again (R102, R141). -/
def State.strobeRestart (s : State) : State :=
  (s.onClk fun c => { c with strobeRestarted := true, pherr := 0, measSlew := false }).onAcq fun a =>
    { a with chans := a.chans.map fun x => { x with flushFrom := a.fastIdx } }

/-- The sample strobe after the local time counter has been stepped by `d` ns: before PROT local-element ready the divider restarts once;
else the error, changed by the step, is closed by frequency with MEAS_SLEW set. The error counts to the nearest grid point (R101, R102). -/
def State.strobeStep (s : State) (d : Int) : State :=
  let e := s.clk.pherr + d
  let n := roundInt ((e : Num) * 4800 / 1000000000)
  let s := (s.onAcq fun a => a.shift n d).onProt fun p => { p with boundary := moveIdx n p.boundary }
  if !s.prot.ready && !s.clk.strobeRestarted then s.strobeRestart
  else s.onClk fun c => { c with measSlew := true, pherr := e - roundInt ((n : Num) * 1000000000 / 4800) }

/-- The Tide angle and frequency at a PTP time, through the history (R47, R49). -/
def State.tideAt (s : State) (t : Nat) : Angle × Num :=
  match s.history.find? fun h => decide (h.time ≤ t) with
  | some h => (BitVec.ofNat 32 ((s.posOf t).getD s.tide.posN), rateFreq h.rate)
  | none =>
    let back := (((s.ltc : Int) - t : Int) : Num) * s.tide.freq * (2 ^ 32 : Nat) / 1000000000
    (s.tide.angle - BitVec.ofInt 32 (roundInt back), s.tide.freq)

/-- K of R141: the phasor-lane periods that cover twice D_phasor. -/
def flushPeriods (n : Nat) : Nat := (2 * dPhasor n + 2303) / 2304

/-- A sample index of a lane, with its grid step in fast periods, lies in the span of SETTLE: the first `n` samples after a
delay-class switch that are produced (R136). -/
def Ain.settling (a : Ain) (lane : LaneRate) (i : Nat) : Bool :=
  let step := match lane with
    | .fast => 1
    | .phasor => 3
  let first := a.switchAt / (4 * step) + skipCount a.delta (768 * step)
  decide (a.switchAt ≠ 0 ∧ first ≤ i ∧ i < first + (match lane with | .fast => 12 | .phasor => 16))

/-- A sample index that a shorter delay skips (R136). -/
def Ain.skipped (a : Ain) (lane : LaneRate) (i : Nat) : Bool :=
  let step := match lane with
    | .fast => 1
    | .phasor => 3
  let first := a.switchAt / (4 * step)
  decide (a.switchAt ≠ 0 ∧ first ≤ i ∧ i < first + skipCount a.delta (768 * step))

/-- The code of a lane value: 24 bits, left-justified, within full scale (R7, R122). -/
def laneCode (v : Num) : Int := max (-fullScale) (min fullScale (256 * Config.round24 (v / 256)))

/-- Every local sample is INACCURATE: MEAS runs on the system loop, or the device is DEGRADED (R103, R140, R144). -/
def State.measInaccurate (s : State) : Bool := decide (s.clk.meas = .alt) || s.clk.degraded

/-- The filter support of the fast-lane instant `fi` may reach before structure instantiation or across the strobe restart (R141). -/
def Ain.flushing (a : Ain) (fi : Nat) : Bool := decide (fi < a.flushFrom + 3 * flushPeriods a.active.taps)

/-- The integrator is in its post-reset hold (R139). -/
def Ain.holding (a : Ain) (now : Ns) : Bool := a.integHold.any fun e => decide (now < e)

/-- A local sample with its quality (R122, R123, R136, R139 to R141, R144). -/
def State.localSample (s : State) (a : Ain) (lane : LaneRate) (i : Nat) (y : Tap) : Sample :=
  let fi := match lane with
    | .fast => i
    | .phasor => 3 * i
  let t := s.instantOf fi
  let overflow := y.ovr || a.holding s.now
  let inaccurate := a.settling lane i || a.flushing fi || s.measInaccurate
  let th := s.tideAt t
  let code := laneCode y.value
  { x := (code : Num) * a.kpu, code := code, idx := i, time := t, theta := th.1, freq := th.2
    q := if overflow || inaccurate then .questionable else .good
    det := { overflow := overflow, inaccurate := inaccurate } }

/-! ### Sampled values on the lanes (R142 to R144) -/

/-- The SV channels that feed a lane: 14,400 S/s streams both lanes, 4,800 S/s streams the phasor lane (R142). -/
def State.svChans (s : State) (lane : LaneRate) : List Nat :=
  s.manifest.net.svSubs.flatMap fun x => if lane = .phasor || x.rate = .fast then x.channels else []

/-- An SV channel has a 14,400 S/s stream. -/
def State.svIsFast (s : State) (c : Nat) : Bool := s.manifest.net.svSubs.any fun x => decide (x.rate = .fast) && x.channels.contains c

/-- A sample for an instant for which no value came (R143, R144). -/
def State.missing (s : State) (t : Nat) : Sample :=
  let th := s.tideAt t
  { time := t, theta := th.1, freq := th.2, q := .invalid, det := { failure := true }, absent := true }

/-- Two times lie on the same instant of a lane. -/
def sameInstant (lane : LaneRate) (a b : Nat) : Bool := decide ((a - b + (b - a)) * 2 * lane.hz < 1000000000)

/-- The worse of two qualities (R140, R145). -/
def Quality.worse : Quality → Quality → Quality
  | .invalid, _ | _, .invalid => .invalid
  | .questionable, _ | _, .questionable => .questionable
  | .good, .good => .good

/-- The phasor-lane sample of a 14,400 S/s SV channel: a copy of stage 6 over its fast samples 17 before to 17 after (R142). -/
def State.svPhasor (s : State) (c t : Nat) : Sample :=
  let period : Num := 1000000000 / 14400
  let at_ := fun (i : Nat) => (t : Int) + roundInt (((17 : Int) - i : Int) * period)
  let taps := (List.range 35).map fun i =>
    (s.acq.svHist.find? fun x => x.1 == c && sameInstant .fast x.2.time (at_ i).toNat).map (·.2)
  if taps.all Option.isSome then
    let l := taps.filterMap id
    let v := (l.zipIdx.map fun x => Config.phasorFir x.2 * x.1.x).foldl (· + ·) 0
    let th := s.tideAt t
    let n := (l.zipIdx.map fun x => Config.phasorFir x.2 * x.1.code).foldl (· + ·) 0
    { x := v, code := sclamp 32 (roundInt n), time := t, theta := th.1, freq := th.2
      q := l.foldl (fun q x => Quality.worse q x.q) .good
      det := l.foldl (fun d x =>
        { overflow := d.overflow || x.det.overflow, inaccurate := d.inaccurate || x.det.inaccurate
          unsync := d.unsync || x.det.unsync, failure := d.failure || x.det.failure }) {} }
  else s.missing t

/-- The aligned sample set of an instant: local channels, then SV channels; in DEGRADED the SV samples are INVALID (R143, R144). -/
def State.sampleSet (s : State) (lane : LaneRate) (i : Nat) : SampleSet :=
  let fi := match lane with
    | .fast => i
    | .phasor => 3 * i
  let t := s.instantOf fi
  let locals := s.acq.chans.map fun a =>
    (ChanRef.ain a.ch, (((s.acq.waiting.find? fun w => w.chan == .ain a.ch && w.lane == lane && w.sample.idx == i).map (·.sample)).getD
      (s.missing t)))
  let svs := (s.svChans lane).map fun c =>
    let x := if s.clk.degraded then s.missing t
      else if lane = .phasor && s.svIsFast c then s.svPhasor c t
      else ((s.acq.waiting.find? fun w => w.chan == .sv c && w.lane == lane && sameInstant lane w.sample.time t).map (·.sample)).getD
        (s.missing t)
    (ChanRef.sv c, x)
  { lane := lane, time := t, samples := locals ++ svs }

/-- The instant that a lane releases at the present strobe; none before the first instant at or after the start (R141, R143). -/
def State.dueInstant (s : State) (lane : LaneRate) : Option Nat :=
  let k := match lane with
    | .fast => s.acq.fastIdx
    | .phasor => s.acq.fastIdx / 3
  let start := match lane with
    | .fast => s.acq.startIdx
    | .phasor => (s.acq.startIdx + 2) / 3
  let i := k - s.alignPeriods lane
  if s.acq.running && decide (s.alignPeriods lane ≤ k ∧ start ≤ i) then some i else none

/-- A released instant's samples leave the waiting list. -/
def State.dropReleased (s : State) (lane : LaneRate) (i t : Nat) : State :=
  let stays := fun (w : Waiting) => decide (w.lane ≠ lane) || (match w.chan with
    | .ain _ => decide (i < w.sample.idx)
    | .sv _ => decide (t < w.sample.time) && !sameInstant lane w.sample.time t)
  s.onAcq fun a => { a with waiting := a.waiting.filter stays }

/-- The quality of an output of the waveform lane (R140). -/
def Tap.q (y : Tap) : Quality := if y.absent then .invalid else if y.ovr || y.hold || y.inacc then .questionable else .good

/-- The local time at which waveform sample `w` was acquired (R102, R127). -/
def State.waveTime (s : State) (w : Nat) : Ns := ((w * 1000000000 / 57600 : Nat) + s.strobeOff).toNat

/-! ### Intake of a fast-lane period (R123, R126) -/

/-- The 16 groups of 48 modulator bits of a fast-lane period, oldest first. -/
def bitGroups (x : BitVec 768) : List (List Bool) := (List.range 16).map fun g => (List.range 48).map fun i => x.getLsbD (48 * g + i)

/-- The modulator bits of one fast-lane period of a channel pass its chain, oldest first; the new fast samples wait for their release. -/
def State.chainIn (s : State) (c : Nat) (bits : BitVec 768) : State :=
  let fnom := s.tideCfg.nominalFreq
  match s.ain? c with
  | none => s
  | some a =>
    let held := a.integHold
    let dirty := a.chain.integDirty
    let a := (bitGroups bits).foldl (fun a g => a.bitsIn fnom s.now g) a
    let a := Ain.runWave c (a.holding s.now) (fun w => a.flushing (w / 4) || s.measInaccurate) 8 a
    let r := (a.chain.runHalf 8).runFast 8
    let a := { a with chain := r.1 }
    let s := s.onAin c fun _ => a
    let new := (r.2.filter fun x => !a.skipped .fast x.1).map fun x =>
      ({ chan := .ain c, lane := .fast, sample := s.localSample a .fast x.1 x.2 } : Waiting)
    let s := s.onAcq fun q => { q with waiting := q.waiting ++ new }
    s.when (a.sensor = .rogowski && (dirty || decide (a.integHold ≠ held)) && !a.chain.integDirty) fun s =>
      (s.raise .acq 6).report .acqIntegReset c

/-- The phasor-lane period of a channel ends: one that held overrange samples is counted, and after 100 ms without one logged with the peak
code (R123). -/
def State.overrangeEnd (s : State) (a : Ain) : State :=
  let s := s.onAin a.ch fun x => { x with ovr := a.ovrNow, ovrNow := false, peak := 0 }
  if !a.ovrNow then s else
    let quiet := !(a.lastOvr.any fun t => decide (s.now < t + msec 100))
    let s := (s.onAin a.ch fun x => { x with ovrCnt := satInc 16 x.ovrCnt, lastOvr := some s.now }).raise .acq 0
    s.when quiet fun s => s.report .acqOverrange a.ch [a.peak]

/-- Stage 6 of every channel: the new phasor samples wait for their release; the overrange period ends (R123, R126). -/
def State.phasorIn (s : State) : State :=
  s.forEach s.acq.chans fun s a =>
    let r := a.chain.runPhasor 8
    let a := { a with chain := r.1 }
    let s := s.onAin a.ch fun _ => a
    let new := (r.2.filter fun x => !a.skipped .phasor x.1).map fun x =>
      ({ chan := .ain a.ch, lane := .phasor, sample := s.localSample a .phasor x.1 x.2 } : Waiting)
    (s.onAcq fun q => { q with waiting := q.waiting ++ new }).overrangeEnd a

end Sys2Proof.Machine
end

