-- ==== Sys2Proof/Machine/Acq.lean ====
section
/-! DEFINITION. Acquisition commands outside the lane periods: the integrator's hold, the staged bank, swaps (spec/04_acquisition.md R131 to R139). -/

namespace Sys2Proof.Machine

open Sys2Proof

/-- The 3 cycles of post-reset hold have passed (R139). -/
def execAcqIntegHoldEnd (c : Nat) (s : State) : Out :=
  .next <| if (s.ain? c).any fun a => a.integHold.any fun t => decide (t ≤ s.now) then
    s.onAin c fun a => { a with integHold := none }
  else s

/-- A write of a coefficient: into the inactive, unlocked bank, else ignored and counted (R132, R134). -/
def State.coefWrite (s : State) (c : Nat) (bankB : Bool) (i : Nat) (v : Word) : State :=
  match s.ain? c with
  | none => s
  | some a =>
    if a.activeB = bankB || a.stageLock then s.bankWriteIgnored c
    else s.onAin c fun a => a.setStaged { a.staged with coef := updAt a.staged.coef i fun _ => v.setWidth 24 }

/-- A write of ACQ_COEF (R132). -/
def execAcqCoefWrite (c : Nat) (bankB : Bool) (i : Nat) (v : Word) (s : State) : Out := .next (s.coefWrite c bankB i v)

/-- STAGE_TAPS and FADE_LEN are written, unless the staged bank is locked (R132, R134, R153). -/
def State.bankWrite (s : State) (c : Nat) (v : Word) : State :=
  match s.ain? c with
  | none => s
  | some a =>
    if a.stageLock then s.bankWriteIgnored c
    else s.onAin c fun a =>
      { a with stageTaps := (v.extractLsb' 0 9).toNat, fadeLen := (v.extractLsb' 10 11).toNat }

/-- A write of ACQ_CH_BANK (R132, R153). -/
def execAcqBankWrite (c : Nat) (v : Word) (s : State) : Out := .next (s.bankWrite c v)

/-- ACQ_SWAP of a channel that is not PROTECTED commits at once (R133, R135). -/
def execAcqSwap (b : Nat) (s : State) : Out :=
  .next <| match s.ctlCmd b with
  | some (.acqSwap c crc) =>
    let prot := (s.ain? c).any (·.protected_)
    let r := if prot then some { blk := .acq, src := c, st0 := ((s.ain? c).map Ain.status).getD 0 } else s.refuseSwap c crc
    s.runCtl b r fun s => (s.commitSwap c).done b
  | _ => s

/-- The delay class changes at waveform sample `w` (R136). DESIGN CHOICE: STAGE_TAPS keeps the count last written, which the bank that becomes
the staged one takes on (R153; log entry 23). -/
def State.delaySwitch (s : State) (c w : Nat) (a : Ain) : State :=
  let d : Int := 24 * ((a.stageTaps : Int) - a.active.taps)
  let skips := skipCount d 192 + skipCount d 768 + skipCount d 2304
  let s := s.onAin c fun a =>
    { a.setStaged { a.staged with taps := a.stageTaps } with
      activeB := !a.activeB, swap := .idle, switchAt := w, delta := d, settle := true }
  let s := s.when (decide (0 < skips)) fun s =>
    (s.onAcq fun q => { q with skip := satAdd 16 q.skip skips, skipCh := c }).raise .acq 5
  ((s.raise .acq 2).raise .acq 1).report .acqSwap c [a.active.taps, a.stageTaps, d]

/-- A committed swap starts at the first waveform sample on the phasor grid, which lies in the coming fast-lane period. DESIGN
CHOICE: L is FADE_LEN as it stands at that sample (R135; log entry 23). -/
def execAcqSwapStart (c : Nat) (s : State) : Out :=
  .next <| match s.ain? c with
  | none => s
  | some a =>
    let w := (a.chain.nextWave + 11) / 12 * 12
    if a.swap ≠ .committed ∨ a.chain.nextWave + 4 ≤ w then s
    else if a.stageTaps = a.active.taps then
      s.onAin c fun a => { a.setStaged { a.staged with taps := a.stageTaps } with swap := .fading w a.fadeLen }
    else s.delaySwitch c w a

/-- The fade has ended: the staged bank becomes active (R135). -/
def execAcqFadeDone (c : Nat) (s : State) : Out :=
  .next <| match s.ain? c with
  | none => s
  | some a =>
    match a.swap with
    | .fading w n =>
      if a.chain.nextWave < w + n then s else
        let old := a.crcOf a.active.taps a.active
        ((s.onAin c fun a => { a with activeB := !a.activeB, swap := .idle }).raise .acq 1).report .acqSwap c
          [old.toNat, a.stageCrc.toNat, n]
    | _ => s

/-- SETTLE clears after the 16th phasor-lane sample (R136). -/
def execAcqSettleEnd (c : Nat) (s : State) : Out :=
  .next <| if (s.ain? c).any fun a =>
      a.settle && decide (a.switchAt / 12 + skipCount a.delta 2304 + 16 ≤ a.chain.nextPhasor) then
    s.onAin c fun a => { a with settle := false }
  else s

end Sys2Proof.Machine
end

