-- ==== Sys2Proof/Machine/AdeidQueue.lean ====
section
/-! DEFINITION. How frames enter the egress of the Adeid links (spec/15_host_cluster_berths.md R497, R498). -/

namespace Sys2Proof.Machine

open Sys2Proof

def State.link (s : State) (q : Nat) : AdeidLink := nth s.adeid.links q {}
def State.onLink (s : State) (q : Nat) (f : AdeidLink → AdeidLink) : State :=
  s.onAdeid fun a => { a with links := updAt a.links q f }

/-- A link carries frames (R500). -/
def State.linkUp (s : State) (q : Nat) : Bool := (s.link q).phase = .up

/-- A frame joins the egress of a link, behind the frames of its class or of a higher priority (R497). -/
def State.adeidPut (s : State) (q : Nat) (f : AdeidFrame) : State :=
  s.onLink q fun l => { l with egress := l.egress ++ [f] }

/-- The other port of a ring (R495). -/
def otherLink (q : Nat) : Nat := if q % 2 = 0 then q + 1 else q - 1

/-- A frame of this node leaves on a ring through Q0 or Q2; when that link is down it leaves through the other one, wrapped (R495, R501). -/
def State.adeidOwn (s : State) (q : Nat) (f : AdeidFrame) : State :=
  let f := { f with secondary := decide (2 ≤ q) }
  if s.linkUp q then s.adeidPut q f
  else if s.linkUp (otherLink q) then
    (s.onAdeid fun a => { a with wraps := satInc 32 a.wraps }).adeidPut (otherLink q) { f with wrap := true, wraps := f.wraps + 1 }
  else s

/-- A frame of this node leaves on both rings (R497). -/
def State.adeidSend (s : State) (dst : Nat) (bcast : Bool) (p : AdeidPayload) : State :=
  let f : AdeidFrame := { alive := 0, bcast := bcast, dst := dst, src := s.adeid.node, payload := some p }
  (s.adeidOwn 0 f).adeidOwn 2 f

end Sys2Proof.Machine
end

