-- ==== Sys2Proof/Machine/NetOps.lean ====
section
/-! DEFINITION. Operations of the switch: ports and queues, VLANs and the MAC table, pairs, gates, the registers (spec/13_network_and_time.md R427 to R440, R457 to R460). -/

namespace Sys2Proof

/-- Member ports of a VLAN; VLAN 1 has every port, untagged, when the section names no VLAN (R431, R456). -/
def NetCfg.members (c : NetCfg) (vid : Nat) : List Nat :=
  match c.vlans.find? (·.vid == vid) with
  | some v => v.members.map (·.1)
  | none => if c.vlans = [] && vid = 1 then c.ports.map (·.port) else []

def NetCfg.mcastFilter (c : NetCfg) (vid : Nat) : Bool := (c.vlans.find? (·.vid == vid)).any (·.mcastFilter)

/-- The port under which a port is learnt: a pair is one port (R432). -/
def NetCfg.learnPort (c : NetCfg) (p : Nat) : Nat := ((c.pairOf? p).map (·.first)).getD p

/-- One port stands for each pair in a list of target ports (R432). -/
def NetCfg.onePerPair (c : NetCfg) (l : List Nat) : List Nat := (l.map c.learnPort).dedup

end Sys2Proof

namespace Sys2Proof.Machine

open Sys2Proof

def State.netCfg (s : State) : NetCfg := s.manifest.net
def State.port? (s : State) (p : Nat) : Option Port := s.net.ports.find? (·.port == p)
def State.onPort (s : State) (p : Nat) (f : Port → Port) : State :=
  s.onNet fun n => { n with ports := n.ports.map fun x => if x.port == p then f x else x }
def State.pair? (s : State) (k : Nat) : Option Pair := s.net.pairs.find? (·.pair == k)
def State.pairCfg? (s : State) (k : Nat) : Option PairCfg := s.netCfg.pairs.find? (·.pair == k)
def State.onPair (s : State) (k : Nat) (f : Pair → Pair) : State :=
  s.onNet fun n => { n with pairs := n.pairs.map fun x => if x.pair == k then f x else x }

/-- A port's link is up (R428). -/
def State.portUp (s : State) (p : Nat) : Bool := (s.port? p).any fun x => x.link && !x.adminDown

/-- Line rate from NET_P_STATUS.SPEED, in Mb/s; 10 and 100 Mb/s share an encoding (R460). -/
def Port.mbps (x : Port) : Nat :=
  match x.speed with
  | 0 => 100 | 1 => 1000 | 2 => 2500 | _ => 10000

/-- SPEED of a line rate (R460). -/
def speedCode (mbps : Nat) : Nat := if mbps ≤ 100 then 0 else if mbps ≤ 1000 then 1 else if mbps ≤ 2500 then 2 else 3

/-- A multicast or broadcast address. -/
def isGroup (mac : BitVec 48) : Bool := mac.getLsbD 40

/-! ### Queues (R433) -/

/-- Bytes that wait in a queue. -/
def queueBytes (q : List Queued) : Nat := (q.map (·.frame.len)).sum

/-- The buffer of a port has room: 16 KiB reserved per queue, 128 KiB shared (R433). -/
def Port.hasRoom (x : Port) (q len : Nat) : Bool :=
  let use := (nth x.queues q []) |> queueBytes
  let shared := (x.queues.map fun l => queueBytes l - 16384).sum
  decide (use + len ≤ 16384) || decide (shared - (use - 16384) + (use + len - 16384) ≤ 131072)

/-- A frame joins the egress queue of its PCP, or is tail-dropped and counted (R433). -/
def State.enqueue (s : State) (p : Nat) (f : Frame) : State :=
  match s.port? p with
  | none => s
  | some x =>
    if !(x.link && !x.adminDown) then s
    else if x.hasRoom f.pcp f.len then
      s.onPort p fun x => { x with queues := updAt x.queues f.pcp fun l => l ++ [{ frame := f, at_ := s.now }] }
    else s.onPort p fun x => { x with drops := satInc 16 x.drops }

/-! ### VLANs and the MAC table (R431, R432) -/

/-- A unicast source is learnt, or refreshed; a full bucket of 4 learns nothing (R432). -/
def State.learn (s : State) (mac : BitVec 48) (vid p : Nat) : State :=
  let at_ := s.netCfg.learnPort p
  if isGroup mac || s.netCfg.staticMacs.any (fun m => m.mac == mac && m.vid == vid) then s
  else if s.net.macs.any fun m => m.mac == mac && m.vid == vid then
    s.onNet fun n => { n with macs := n.macs.map fun m =>
      if m.mac == mac && m.vid == vid then { m with port := at_, seen := s.now } else m }
  else
    let bucket := Config.macBucket mac vid
    let used := (s.net.macs.filter fun m => Config.macBucket m.mac m.vid == bucket).length +
      (s.netCfg.staticMacs.filter fun m => Config.macBucket m.mac m.vid == bucket).length
    if used < 4 then s.onNet fun n => { n with macs := { mac, vid, port := at_, seen := s.now } :: n.macs }
    else (s.onNet fun n => { n with notLearnt := satInc 16 n.notLearnt }).raise .net 4

/-- The ports that a destination leads to, and whether it is flooded as unknown or broadcast (R432, R434). -/
def State.lookup (s : State) (mac : BitVec 48) (vid : Nat) : List Nat × Bool :=
  let c := s.netCfg
  match c.staticMacs.find? fun m => m.mac == mac && m.vid == vid with
  | some m => (m.ports, false)
  | none =>
    if isGroup mac then (if mac ≠ BitVec.allOnes 48 && c.mcastFilter vid then ([], false) else (c.members vid, true))
    else match s.net.macs.find? fun m => m.mac == mac && m.vid == vid with
      | some m => ([m.port], false)
      | none => (c.members vid, true)

/-! ### Pairs (R437 to R440) -/

/-- A frame of this device's own goes out on a port, or, as one frame with a sequence number, on both ports of its pair (R438). -/
def State.sendOn (s : State) (p : Nat) (f : Frame) : State :=
  match s.netCfg.pairOf? p with
  | none => s.enqueue p f
  | some k =>
    match f.kind with
    | .ptp _ | .sum => s.enqueue p f
    | _ =>
      let seq := ((s.pair? k.pair).map (·.seq)).getD 0
      let f := { f with red := some { seq := seq }, len := f.len + 6 }
      ((s.onPair k.pair fun x => { x with seq := (x.seq + 1) % 65536 }).enqueue k.first f).enqueue k.second f

/-- A frame of this device's own enters the fabric and leaves towards its destination (R431, R434, R438). -/
def State.sendOwn (s : State) (f : Frame) : State :=
  let vid := f.vid.getD 1
  let dest := s.netCfg.onePerPair ((s.lookup f.dst vid).1.filter fun p => (s.netCfg.members vid).contains p && p ≠ 44)
  s.forEach dest fun s p => s.sendOn p f

/-- A copy has been seen within 400 ms (R438). -/
def State.dupSeen (s : State) (x : Pair) (f : Frame) (seq : Nat) : Bool :=
  x.table.any fun e => e.src == f.src && e.seq == seq && decide (s.now < e.at_ + msec 400)

/-- The first copy of a frame enters the duplicate-discard table; a full table evicts its oldest entry (R438). -/
def State.dupEnter (s : State) (k p : Nat) (f : Frame) (seq : Nat) : State :=
  let e : DupEntry := { src := f.src, seq := seq, port := p, at_ := s.now }
  match s.pair? k with
  | none => s
  | some x =>
    if x.table.length < 4096 then s.onPair k fun x => { x with table := e :: x.table }
    else (s.onPair k fun x => { x with table := e :: x.table.dropLast, evict := satInc 16 x.evict }).raise .net 3

/-- The second copy is counted, and marks its entry (R438). -/
def State.dupCount (s : State) (k : Nat) (f : Frame) (seq : Nat) : State :=
  s.onPair k fun x =>
    { x with
      dups := x.dups + 1
      table := x.table.map fun e => if e.src == f.src && e.seq == seq then { e with both := true } else e }

/-- The conditions under which a pair is open, with the port concerned (R439). -/
def State.openCause (s : State) (k : PairCfg) (x : Pair) : Option Nat :=
  let late := fun (t : Ns) => decide (t + 2 * s.netCfg.lifeCheck ≤ s.now)
  if !s.portUp k.first then some k.first
  else if !s.portUp k.second then some k.second
  else if late x.lifeFirst then some k.first
  else if late x.lifeSecond then some k.second
  else none

/-- A pair whose conditions for OPEN have ended closes (R439). -/
def State.closePairs (s : State) : State :=
  s.forEach s.net.pairs fun s x =>
    match s.pairCfg? x.pair with
    | none => s
    | some k =>
      if x.open_ && (s.openCause k x).isNone then
        ((s.onPair x.pair fun x => { x with open_ := false }).raise .net 2).report .netRingClosed x.pair
      else s

/-- A supervision frame on a pair: the sender enters the nodes table, and the port's life check restarts. On HSR the
device's own frame counts, on PRP any (R439). -/
def State.supervised (s : State) (k : PairCfg) (p : Nat) (f : Frame) : State :=
  let own := f.src = Config.ownMac
  let counts := match k.kind with
    | .hsr => decide own
    | .prp => true
  let s := if own then s else s.onPair k.pair fun x =>
    let rest := x.nodes.filter (·.mac != f.src)
    { x with nodes := if rest.length < 1024 then { mac := f.src, seen := s.now } :: rest else rest }
  if counts then
    (s.onPair k.pair fun x =>
      let x := { x with ownBack := if own then some s.now else x.ownBack }
      if p = k.first then { x with lifeFirst := s.now } else { x with lifeSecond := s.now }).closePairs
  else s

/-! ### Gates (R435) -/

/-- The gate of a queue is open, and for how long yet; `none` when it stays open (R435). -/
def gateLeft (g : Gcl) (entry q : Nat) : Nat → Ns
  | 0 => 0
  | fuel + 1 =>
    let e := nth g.entries (entry % g.entries.length) { gates := 0, interval := 0 }
    if e.gates.getLsbD q then e.interval + gateLeft g (entry + 1) q fuel else 0

/-- How long the queue's gate stays open from now; `none` without a running list (R435). -/
def State.gateOpenFor (s : State) (x : Port) (q : Nat) : Option Ns :=
  match ((s.netCfg.port? x.port).bind (·.gcl)) with
  | none => none
  | some g =>
    if !x.gclActive then none else
      let e := nth g.entries x.gclEntry { gates := 0, interval := 0 }
      if !e.gates.getLsbD q then some 0
      else some (x.gclEnd - s.ltc + gateLeft g (x.gclEntry + 1) q (g.entries.length - 1))

/-- Time on the line of a frame with its preamble and interframe gap (R435). -/
def Port.lineTime (x : Port) (len : Nat) : Ns := (len + 20) * 8000 / x.mbps

/-! ### Registers (R457 to R460) -/

def State.netStatus (s : State) : Word :=
  let w := flag 0 s.net.intakeOpen ||| flag 1 s.net.fabricDegraded
  s.net.pairs.foldl (fun acc x => acc ||| flag (8 + x.pair) true ||| flag (16 + x.pair) x.open_) w

def State.netPCfg (s : State) (p : Nat) : Word :=
  match s.netCfg.port? p with
  | none => 0
  | some c =>
    let pair := s.netCfg.pairOf? p
    fld 0 c.mode.num ||| flag 3 c.an ||| flag 4 (s.netCfg.ptpEn p) ||| flag 5 pair.isSome |||
      fld 6 ((pair.map (·.pair)).getD 0) ||| flag 9 c.gcl.isSome ||| flag 10 c.cutThrough ||| fld 11 c.pvid ||| fld 23 c.defaultPcp

def State.netPStatus (s : State) (p : Nat) : Word :=
  match s.port? p with
  | none => 0
  | some x => flag 0 x.link ||| fld 1 x.speed ||| flag 3 x.adminDown ||| flag 4 x.gclActive ||| fld 8 x.linkChanges

/-- A pair carries a created differential zone (R211, R429). -/
def State.pairHasZone (s : State) (k : Nat) : Bool := s.manifest.diff.any fun z => z.ring = .hsr k

def State.netPairCfg (s : State) (k : Nat) : Word :=
  match s.pairCfg? k with
  | none => 0
  | some c => fld 0 c.first ||| fld 6 c.second ||| fld 12 c.kind.num ||| flag 14 c.redbox ||| flag 15 (s.pairHasZone k)

def State.netPairStatus (s : State) (k : Nat) : Word :=
  match s.pairCfg? k, s.pair? k with
  | some c, some x =>
    flag 0 (s.portUp c.first) ||| flag 1 (s.portUp c.second) ||| flag 2 x.open_ |||
      flag 3 (x.ownBack.any fun t => decide (s.now < t + 2 * s.netCfg.lifeCheck)) ||| fld 16 x.nodes.length
  | _, _ => 0

/-- NET_GSUB_STATUS [1:0]: the worst quality over the subscription's values (R457). -/
def Gsub.quality (g : Gsub) : Quality :=
  if !g.valid then .invalid else g.values.foldl (fun q v => Quality.worse q v.quality) .good

def State.netGsubStatus (s : State) (i : Nat) : Word :=
  match s.net.gsubs.find? (·.sub == i), s.netCfg.gooseSubs.find? (·.sub == i) with
  | some g, some c =>
    fld 0 (1 + (match g.quality with | .good => 0 | .questionable => 1 | .invalid => 2)) ||| flag 2 g.talExpired |||
      flag 3 g.cfgBad ||| flag 4 c.testAccept
  | _, _ => 0

def State.netSvsubStatus (s : State) (i : Nat) : Word :=
  match s.net.svsubs.find? (·.sub == i), s.netCfg.svSubs.find? (·.sub == i) with
  | some x, some c => fld 0 x.phase.num ||| fld 2 x.smpSynch ||| flag 4 x.cfgBad ||| flag 5 c.testAccept
  | _, _ => 0

end Sys2Proof.Machine
end

