-- ==== Sys2Proof/Machine/Tide.lean ====
section
/-! DEFINITION. Tide commands: the rate, handover, coasting, the Pilot, pins and conversions (spec/02_tide.md R43 to R67, R85). -/

namespace Sys2Proof.Machine

open Sys2Proof

/-- A record of R61: the old and new sources and the offset e. -/
def State.tideRecord (s : State) (r : Rec) (bit : Nat) (old new : TideSrc) : State :=
  (s.raise .tide bit).report r 0xFFFF [old.num, old.fu, new.num, new.fu, s.tide.offset]

/-! ### Binding a rotor (R59, R245) -/

/-- The binding ends when its rotor stops being the active source; the unit goes on from Tide's position (R59, R244). -/
def State.unbind (s : State) : State :=
  match s.tide.bound with
  | none => s
  | some u =>
    (s.onTide fun t => { t with bound := none }).onUnit u fun x =>
      { x with rotor := { x.rotor with pos := s.tide.pos, posAt := s.now } }

/-- ROTOR (FUn) is active and ALIGNED: the rotor is bound, and the unit absorbs the step b = θ_Tide − θ_rotor (R59, R245). -/
def State.bindRotor (s : State) : State :=
  match s.tide.src, s.tide.phase with
  | .rotor u, .aligned =>
    if s.tide.bound = some u then s else
      let b := angleDiff s.tide.angle (s.srcAngle (.rotor u))
      let s := (s.unbind.onTide fun t => { t with bound := some u }).onUnit u fun x =>
        { x with rotor := { x.rotor with phiC := -(b : Num), phiStart := -(b : Num), phiAt := s.now } }
      (s.raise .form 13).report .formBind u [b]
  | _, _ => s

/-! ### Changes of source (R58, R61 to R64, R67) -/

/-- The offset e in au to the source that Tide follows; zero for FREERUN (R60). -/
def State.offsetTo (s : State) (x : TideSrc) : Int := if x = .freerun then 0 else angleDiff (s.srcAngle x) s.tide.angle

/-- Tide converges to a source: df restarts at zero on a change of target, and the offset is the one to the target. DESIGN CHOICE: a binding
to another source ends here, where Tide stops following the rotor, while TIDE_STATUS.SRC still shows it (R59, R60, R61; log entry 58). -/
def State.convergeTo (s : State) (x : TideSrc) : State :=
  let same := s.tide.followed = x && decide (s.tide.phase ≠ .coasting)
  let s := if same then s else s.unbind
  let e := s.offsetTo x
  s.onTide fun t =>
    { t with phase := .converging, target := x, lost := none, df := if same then t.df else 0, inWindow := 0, offset := e }

/-- The mean Tide frequency over the two cycles that ended one half-cycle ago, from the ticks that they took (R62). DESIGN CHOICE: it is a
free value when Tide has not run so far yet (log entry 58). -/
def State.coastFreq (s : State) : Num × State :=
  let p := s.tide.posN
  if p < 5 * 2 ^ 31 then s.drawNum else
    match s.tickOf (p - 2 ^ 31), s.tickOf (p - 5 * 2 ^ 31) with
    | some a, some b => if b < a then (2 * 100000000 / ((a - b : Nat) : Num), s) else s.drawNum
    | _, _ => s.drawNum

/-- The frequency held within the limits of Tide (R46). -/
def clampTide (f : Num) : Num := f.clamp 40 70

/-- Set the Tide frequency; a rate outside 40 Hz to 70 Hz is clamped, shown and logged when the clamp begins (R46). -/
def State.setFreq (s : State) (f : Num) : State :=
  let c := decide (f < 40 ∨ 70 < f)
  let s := if c && !s.tide.rateClamp then (s.raise .tide 10).report .tideRateClamp 0xFFFF [roundInt (f * 1000)] else s
  s.onTide fun t => { t with rate := rateWord (Num.clamp 40 70 f), rateClamp := c }

/-- The followed source has become ineligible: Tide holds its mean frequency before the loss and coasts (R62). -/
def State.coastStart (s : State) : State :=
  let x := s.tide.followed
  let m := s.coastFreq
  let s := (m.2.setFreq m.1).unbind
  let s := s.onTide fun t => { t with phase := .coasting, lost := some x, coastLeft := s.tideCfg.coastCycles, df := 0 }
  s.pushHist.tideRecord .coastStart 2 x x

/-- The highest eligible source that passes a test, in the order of TIDE_PRIORITY (R55). -/
def State.highest (s : State) (p : TideSrc → Bool) : Option TideSrc := s.tideCfg.order.find? fun x => s.eligible x && p x

/-- The lost source or a higher one is eligible while coasting: Tide converges to it without RETURN_HOLD (R63). -/
def State.coastEnd (s : State) : State :=
  match s.highest fun x => s.rank x ≤ s.rank s.tide.followed with
  | none => s
  | some x =>
    let old := s.tide.followed
    (s.convergeTo x).tideRecord .coastEnd 3 old x

/-- The pinned source is no longer eligible: the pin lapses (R58). -/
def State.pinLapse (s : State) : State :=
  match s.tide.pin with
  | none => s
  | some x => if s.eligible x then s else (s.onTide fun t => { t with pin := none }).report .tidePinLapsed 0xFFFF [x.num, x.fu]

/-- PROT local-element ready, at stage 7, ends initial alignment (R61, R67, R68). -/
def State.alignOver (s : State) : Bool := s.prot.ready || decide (7 ≤ s.sys.stage)

/-- Initial alignment: the only step Tide ever takes, forward, onto the highest eligible source above FREERUN, before PROT is
ready, with no mark armed and no phasor released (R67). -/
def State.initAlign (s : State) : State :=
  if s.alignOver || s.tide.aligned || s.tide.phasorReleased || s.tide.marks.any (·.armed) then s else
    match s.highest fun x => s.rank x < s.rank .freerun with
    | none => s
    | some x =>
      let d := s.srcAngle x - s.tide.angle
      let s := s.onTide fun t =>
        { t with posQ := t.posQ + (d.zeroExtend 112 <<< 32), phase := .aligned, src := x, target := x, aligned := true }
      ((s.pushHist).raise .tide 13).report .initAlign 0xFFFF [TideSrc.num .freerun, 0, x.num, x.fu, d.toNat]

/-- What a change of eligibility does in each state of Tide (R58, R61 to R63, R67). -/
def State.checkSources (s : State) : State :=
  let s := s.refreshHolds.pinLapse
  match s.tide.phase with
  | .init => s.initAlign
  | .coasting => s.coastEnd
  | .aligned | .converging => if s.eligible s.tide.followed then s else s.coastStart.coastEnd

/-! ### The handover law (R60) -/

/-- T_upd: the control period of a bound unit, else the fast-lane period (R45, R60). In s. -/
def State.tUpd (s : State) : Num :=
  match s.tide.bound.bind s.fu? with
  | some x => (x.cfg.rate.ts : Num) / 1000000000
  | none => 1 / 14400

/-- df of R60: it rises no faster than SLEW_ACCEL and falls at once. `e` in cycles. -/
def handoverDf (c : TideCfg) (df e tUpd : Num) : Num :=
  let m := min c.slewFmax (min (Config.sqrt (2 * c.slewAccel * e.mag)) (e.mag / (2 / 100)))
  let dfc := if e < 0 then -m else if e = 0 then 0 else m
  let step := c.slewAccel * tUpd
  if df.mag < dfc.mag then (if df < dfc then min dfc (df + step) else max dfc (df - step)) else dfc

/-- LOCK_WINDOW in au (R79). -/
def State.lockWindow (s : State) : Num := degAu s.tideCfg.lockWindow

/-- In CONVERGING, |e| within LOCK_WINDOW at 3 consecutive recomputations makes Tide ALIGNED (R61). -/
def State.countWindow (s : State) : State :=
  if s.tide.phase ≠ .converging then s else
    let n := if (s.tide.offset : Num).mag ≤ s.lockWindow then s.tide.inWindow + 1 else 0
    let s := s.onTide fun t => { t with inWindow := n }
    if n < 3 then s else
      let old := s.tide.src
      (s.onTide fun t => { t with phase := .aligned, src := t.target, inWindow := 0 }).tideRecord .handoverDone 1 old s.tide.target

/-- One evaluation of R60 for the source that Tide follows; coasting and INIT keep their own rates (R61, R62, R66). -/
def State.applyLaw (s : State) : State :=
  match s.tide.phase with
  | .coasting => s
  | .init => s.setFreq s.tideCfg.nominalFreq
  | .aligned | .converging =>
    let x := s.tide.followed
    let e := s.offsetTo x
    let df := handoverDf s.tideCfg s.tide.df ((e : Num) / (2 ^ 32 : Nat)) s.tUpd
    (s.onTide fun t => { t with offset := e, df := df }).setFreq (s.srcFreq x + df)

/-- The parts of a recomputation that concern sources and rate. -/
def State.recompute (s : State) : State := ((s.checkSources.applyLaw).pushHist).countWindow.bindRotor

/-- HANDOVER_START: a higher source eligible for RETURN_HOLD, or |e| beyond 2 × LOCK_WINDOW on the active source (R58, R61). -/
def execHandoverStart (s : State) : Out :=
  let x := s.tide.followed
  let ready := fun y => decide (s.rank y < s.rank x) && s.passedSince (s.tide.eligibleSince y) s.tideCfg.returnHold
  .next <| match s.tide.phase with
  | .init | .coasting => s
  | .aligned | .converging =>
    match if s.tide.pin.isSome then none else s.highest ready with
    | some y => (s.convergeTo y).tideRecord .handoverStart 0 x y
    | none =>
      if s.tide.phase = .aligned ∧ 2 * s.lockWindow < (s.tide.offset : Num).mag then
        (s.convergeTo x).tideRecord .handoverStart 0 x x
      else s

/-- TIDE_COAST_LEFT is zero: Tide falls back to the highest eligible source, ALIGNED at once on FREERUN (R64). -/
def execTideFallback (s : State) : Out :=
  .next <| if s.tide.phase ≠ .coasting ∨ s.tide.coastLeft ≠ 0 then s else
    let old := s.tide.followed
    let x := (s.highest fun _ => true).getD .freerun
    let s := s.convergeTo x
    let s := if x = .freerun then
      (s.onTide fun t => { t with phase := .aligned, src := .freerun }).setFreq s.tideCfg.nominalFreq
    else s
    s.pushHist.tideRecord .fallback 4 old x

/-! ### The Pilot (R50 to R53) -/

/-- The criteria of the ACQUIRING row, at one update (R52). -/
def pilotGood (c : TideCfg) (p : Pilot) (x : PilotIn) (valid : Bool) : Bool :=
  decide (x.perr.mag < 2) && (p.cycleFreq.all fun f => decide ((x.freq - f).mag < 1 / 20)) && decide (c.pilotLossLevel ≤ x.mag) && valid &&
    decide (40 ≤ x.freq ∧ x.freq ≤ 70)

/-- A jump that the Pilot sees: in TRACKING, at a magnitude of at least PILOT_LOSS_LEVEL, of at least PILOT_JUMP_LEVEL (R53). -/
def pilotJump (c : TideCfg) (p : Pilot) (x : PilotIn) : Option Num :=
  if p.phase = .tracking ∧ c.pilotLossLevel ≤ x.mag then x.jump.filter fun j => decide (c.pilotJumpLevel ≤ j.mag) else none

/-- A positive-going wrap of the Pilot's own angle: it has moved forward, past zero (R52). -/
def pilotWrap (old new : Angle) : Bool := decide (0 < angleDiff new old ∧ new.toNat < old.toNat)

/-- The loop's output enters the Pilot: a jump of up to 60° moves the angle and keeps the estimates (R53). -/
def Pilot.take (p : Pilot) (x : PilotIn) (jump : Option Num) (now : Ns) : Pilot :=
  match jump with
  | some j =>
    { p with angle := x.angle + BitVec.ofInt 32 (roundInt (degAu j)), mag := x.mag, perr := x.perr, lastJump := j, at_ := now }
  | none => { p with angle := x.angle, freq := x.freq, rocof := x.rocof, mag := x.mag, perr := x.perr, at_ := now }

/-- Count the Pilot cycles in which every criterion held at every update; `next` says that they hold for a cycle that begins here (R52). -/
def Pilot.countCycle (p : Pilot) (old : Angle) (good next : Bool) : Pilot :=
  let p := if good then p else { p with cycleGood := false, trackCycles := 0 }
  if pilotWrap old p.angle then
    { p with trackCycles := if p.cycleGood then satInc 8 p.trackCycles else 0, cycleGood := next, cycleFreq := some p.freq }
  else p

/-- The reason for which a Pilot in TRACKING is lost (R52). DESIGN CHOICE: of two causes at one update, the one that stands first in the table
of R52 (log entry 58). -/
def pilotLoss (c : TideCfg) (p : Pilot) (x : PilotIn) (valid : Bool) (jump : Option Num) (now : Ns) : Option LostReason :=
  let half : Num := 500000000 / (if p.freq = 0 then c.nominalFreq else p.freq)
  if p.lowSince.any fun t => decide (half ≤ ((now - t : Nat) : Num)) then some .lowMag
  else if x.freq < 40 ∨ 70 < x.freq then some .freqRange
  else if jump.any fun j => decide (60 < j.mag) then some .jump
  else if !valid then some .input
  else none

/-- The lane on which the Pilot runs: the fast lane when every input reaches it (R50). -/
def State.pilotLane (s : State) : LaneRate :=
  if s.tideCfg.pilotInput.all fun c => match c with
    | .ain _ => true
    | .sv n => s.svIsFast n
  then .fast else .phasor

/-- The instant that the Pilot's lane released last, and the samples of that set. -/
def State.pilotInstant (s : State) : Option Nat := match s.pilotLane with
  | .fast => s.acq.lastFast
  | .phasor => s.acq.lastPhasor
def State.pilotSet (s : State) : List (ChanRef × Sample) := match s.pilotLane with
  | .fast => s.acq.setFast
  | .phasor => s.acq.setPhasor

/-- The Pilot is due: its lane has released an instant that it has not taken yet (R50). -/
def State.pilotDue (s : State) : Bool :=
  decide (s.tide.pilot.phase ≠ .off) && s.pilotInstant.isSome && decide (s.pilotInstant ≠ s.tide.pilot.sampled)

/-- Every input of the Pilot is valid at the instant that it takes (R52). -/
def State.pilotValid (s : State) : Bool :=
  s.tideCfg.pilotInput.all fun c => s.pilotSet.any fun y => y.1 == c && decide (y.2.q ≠ .invalid)

/-- The state table of R52 applied after an update. DESIGN CHOICE: TRACK_CYCLES starts again from 0 as the Pilot leaves LOST (log entry 58). -/
def State.pilotStep (s : State) (x : PilotIn) : State :=
  let c := s.tideCfg
  let p0 := s.tide.pilot
  let valid := s.pilotValid
  let jump := pilotJump c p0 x
  let good := pilotGood c p0 x valid
  let p := { (p0.take x jump s.now).countCycle p0.angle good (pilotGood c { p0 with cycleFreq := none } x valid) with sampled := s.pilotInstant }
  let p := { p with lowSince := if x.mag < c.pilotLossLevel then some (p0.lowSince.getD s.now) else none }
  match p0.phase with
  | .off => s
  | .acquiring =>
    if 5 ≤ p.trackCycles then (s.onTide fun t => { t with pilot := { p with phase := .tracking } }).report .pilotTrack
    else s.onTide fun t => { t with pilot := p }
  | .tracking =>
    match pilotLoss c p x valid jump s.now with
    | some r =>
      ((s.onTide fun t => { t with pilot := { p with phase := .lost, lostReason := r, goodSince := none } }).raise .tide 6).report
        .pilotLost 0xFFFF [r.num, roundInt (p.lastJump * 1000)]
    | none =>
      let s := s.onTide fun t => { t with pilot := p }
      match jump with
      | some j => (s.raise .tide 5).report .phaseJump 0xFFFF [roundInt (j * 1000)]
      | none => s
  | .lost =>
    let ok := decide (c.pilotLossLevel ≤ x.mag) && valid
    let since := if ok then some (p0.goodSince.getD s.now) else none
    let cycle : Num := 1000000000 / (if p.freq = 0 then c.nominalFreq else p.freq)
    if since.any fun t => decide (cycle ≤ ((s.now - t : Nat) : Num)) then
      s.onTide fun t => { t with pilot := { p with phase := .acquiring, goodSince := none, trackCycles := 0, cycleGood := false, cycleFreq := none } }
    else s.onTide fun t => { t with pilot := { p with goodSince := since } }

/-- PILOT_UPDATE, once per released instant of the Pilot's lane: the loop's new output, the Pilot's state, and what it means for Tide (R50,
R52, R53, R62, R67). -/
def execPilotUpdate (x : PilotIn) (s : State) : Out := .next <| if s.pilotDue then (s.pilotStep x).checkSources else s

/-! ### Pins (R58) -/

/-- Why TIDE_PIN is refused: the source is not in TIDE_PRIORITY or not eligible (R58). -/
def State.refusePin (s : State) (x : TideSrc) : Option Refuse :=
  if s.tideCfg.order.contains x && s.eligible x then none else some { blk := .tide, st0 := s.tideStatus }

/-- PROT local-element ready: a Tide still in INIT is ALIGNED on FREERUN, and a pinned source takes over by rate (R58, R61, R68). -/
def State.tideReady (s : State) : State :=
  if s.tide.phase ≠ .init then s else
    let s := (s.onTide fun t => { t with phase := .aligned, src := .freerun, target := .freerun, offset := 0 }).setFreq s.tideCfg.nominalFreq
    match s.tide.pin with
    | some x => (s.convergeTo x).tideRecord .handoverStart 0 .freerun x
    | none => s

/-- TIDE_PIN pins Tide to a source, and ends coasting (R58, R61). -/
def execTidePin (b : Nat) (s : State) : Out :=
  .next <| match s.ctlCmd b with
  | some (.tidePin x) => s.runCtl b (s.refusePin x) fun s =>
    let old := s.tide.followed
    let s := s.onTide fun t => { t with pin := some x }
    let s := match s.tide.phase with
      | .init => s
      | .coasting => (s.convergeTo x).tideRecord .coastEnd 3 old x
      | .aligned | .converging => (s.convergeTo x).tideRecord .handoverStart 0 old x
    s.done b
  | _ => s

/-- Why TIDE_UNPIN is refused: PINNED is clear (R58). -/
def State.refuseUnpin (s : State) : Option Refuse :=
  if s.tide.pin.isSome then none else some { blk := .tide, st0 := s.tideStatus }

/-- TIDE_UNPIN removes the pin (R58). -/
def execTideUnpin (b : Nat) (s : State) : Out :=
  .next <| match s.ctlCmd b with
  | some .tideUnpin => s.runCtl b s.refuseUnpin fun s => (s.onTide fun t => { t with pin := none }).done b
  | _ => s

/-! ### Conversions (R85) -/

/-- A write of GO starts a conversion on the inputs as they stand; while one runs it has no effect (R85). -/
def State.convGo (s : State) (dir : Bool) : State :=
  s.onTide fun t =>
    if t.conv.go then t else
      { t with conv := { t.conv with
          go := true, dir := dir, done := false, errRange := false, predicted := false,
          runNs := t.conv.ns, runAngle := t.conv.angle, runCycle := t.conv.cycle, runDir := dir } }

/-- A write of TIDE_CONV_CTRL with GO (R85). -/
def execTideConvGo (dir : Bool) (s : State) : Out := .next (s.convGo dir)

/-- Time to position: within the history, or at most 1 s ahead by R48 (R47, R48, R85). The result and whether it is predicted. -/
def State.convToPos (s : State) (t : Nat) : Option (Nat × Bool) :=
  if t ≤ s.ltc then (s.posOf t).map (·, false)
  else if t ≤ s.ltc + secs 1 then some ((s.tide.posN + (s.travel ((t - s.ltc : Nat) : Num)).floor.toNat) % 2 ^ 80, true)
  else none

/-- Position to time (R47, R48, R85). -/
def State.convToTime (s : State) (m : Nat) : Option (Nat × Bool) :=
  if m ≤ s.tide.posN then (s.timeOf m).map (·, false)
  else
    let d := s.predict m
    if d ≤ 1000000000 then some (s.ltc + (roundInt d).toNat, true) else none

/-- The conversion completes: its outputs, or ERR_RANGE with the outputs unchanged (R85). -/
def execTideConvDone (s : State) : Out :=
  let c := s.tide.conv
  .next <| if !c.go then s
  else if c.runDir then
    match s.convToTime (c.runCycle.toNat * 2 ^ 32 + c.runAngle.toNat) with
    | some r => s.onTide fun t =>
      { t with conv := { c with go := false, done := true, predicted := r.2, ns := BitVec.ofNat 64 r.1 } }
    | none => s.onTide fun t => { t with conv := { c with go := false, done := true, errRange := true } }
  else
    match s.convToPos c.runNs.toNat with
    | some r => s.onTide fun t =>
      { t with conv := { c with
          go := false, done := true, predicted := r.2, angle := BitVec.ofNat 32 r.1, cycle := BitVec.ofNat 48 (r.1 / 2 ^ 32) } }
    | none => s.onTide fun t => { t with conv := { c with go := false, done := true, errRange := true } }

end Sys2Proof.Machine
end

