-- ==== Sys2Proof/Machine/MarkOps.lean ====
section
/-! DEFINITION. Operations of Tide marks and of point-on-wave closing (spec/02_tide.md R69 to R78). -/

namespace Sys2Proof

/-- The owner of the output channel that an FIO_EDGE mark of this owner may drive (R71). -/
def MarkOwner.mayDrive : MarkOwner → Owner → Bool
  | .manifest, .logic | .logic, .logic | .pow, .logic | .host, .host => true
  | _, _ => false

end Sys2Proof

namespace Sys2Proof.Machine

open Sys2Proof

def State.mark (s : State) (n : Nat) : Mark := nth s.tide.marks n {}
def State.onMark (s : State) (n : Nat) (f : Mark → Mark) : State := s.onTide fun t => { t with marks := updAt t.marks n f }

/-- The position of a mark (R13, R69). -/
def Mark.pos (m : Mark) : Nat := m.cycle * 2 ^ 32 + m.angle.toNat

/-- Place a mark at a position. -/
def Mark.at_ (m : Mark) (p : Nat) : Mark := { m with cycle := p / 2 ^ 32 % 2 ^ 48, angle := BitVec.ofNat 32 p }

/-- An FIO_EDGE mark names a channel of another owner, or one that is no output (R71). -/
def State.markNotOwner (s : State) (m : MarkSpec) (o : MarkOwner) : Bool :=
  m.action = .fioEdge && !((s.fioCh (s.gangLead m.target)).owner.any fun w => o.mayDrive w)

/-- The least travel ahead at which a mark may be armed, in ns (R71). -/
def markLead (a : MarkAction) : Ns := if a = .fioEdge then 600000 else 100000

/-- TARGET lies within its range: channel 0 to 191, task 0 to 7, engine 0 to 3, unit 0 to 3, and else what the field holds (R84). -/
def markTargetOk (m : MarkSpec) : Bool :=
  match m.action with
  | .fioEdge => decide (m.target < 192)
  | .logicRelease => decide (m.target < 8)
  | .captSnapshot | .formStep => decide (m.target < 4)
  | .logRecord | .none => decide (m.target < 256)

/-- Why a mark is refused: held by another owner, on a foreign channel, or nearer than its lead (R71). -/
def State.refuseMark (s : State) (n : Nat) (m : MarkSpec) (o : MarkOwner) : Option Refuse :=
  let x := s.mark n
  let near := m.period.isNone && decide ((m.cycle * 2 ^ 32 + m.angle.toNat : Nat) < (s.tide.posN : Num) + s.travel (markLead m.action))
  if (x.armed && x.owner ≠ o) || s.markNotOwner m o || near || !markTargetOk m then some { blk := .tide, src := n, st0 := s.tideStatus } else none

/-- The refusal is for being past: MARK_PAST is set and logged (R71). -/
def State.markPast (s : State) (m : MarkSpec) : State :=
  let near := m.period.isNone && decide ((m.cycle * 2 ^ 32 + m.angle.toNat : Nat) < (s.tide.posN : Num) + s.travel (markLead m.action))
  s.when near fun s => (s.raise .tide 7).report .markPast 0xFFFF [m.cycle, m.angle.toNat]

/-- The position at which a mark is armed: a periodic one at its first occurrence beyond the lead (R71). -/
def State.armPos (s : State) (m : MarkSpec) : Nat :=
  let p := m.cycle * 2 ^ 32 + m.angle.toNat
  match m.period with
  | none => p
  | some k =>
    let far := s.tide.posN + (s.travel (markLead m.action)).ceil.toNat
    let step := k * 2 ^ 32
    if far ≤ p || step = 0 then p else p + (far - p + step - 1) / step * step

/-- A mark is armed (R69, R71). -/
def State.armMark (s : State) (n : Nat) (m : MarkSpec) (o : MarkOwner) : State :=
  let p := s.armPos m
  let s := s.when (s.mark n).sent.isSome fun s => s.withdrawEdge n
  s.onMark n fun x =>
    { x with
      armed := true, action := m.action, owner := o, period := m.period, level := m.level, target := m.target, log := m.log,
      sent := none, cycle := p / 2 ^ 32 % 2 ^ 48, angle := BitVec.ofNat 32 p }

end Sys2Proof.Machine

namespace Sys2Proof

/-- The mark that releases a TIDE task: periodic, of owner MANIFEST and action LOGIC_RELEASE (R340). -/
def Manifest.taskMark (t : TaskCfg) : Option (Nat × MarkSpec) :=
  match t.kind with
  | .tide k a n =>
    some (n, { cycle := 0, angle := BitVec.ofNat 32 a, period := some k, action := .logicRelease, level := false, target := t.task, log := false })
  | _ => none

/-- The marks of owner MANIFEST with their indexes: those of the Tide settings, and one for each TIDE task (R68, R69, R340). -/
def Manifest.marks (m : Manifest) : List (Nat × MarkSpec) :=
  (m.struct.tide.marks.zipIdx.map fun x => (x.2, x.1)) ++ m.logic.tasks.filterMap Manifest.taskMark

end Sys2Proof

namespace Sys2Proof.Machine

open Sys2Proof

/-! ### Edges of marks (R72, R73) -/

/-- The edge of an FIO_EDGE mark goes to its field group with a PTP time (R72). -/
def State.sendMark (s : State) (n t : Nat) : State :=
  let m := s.mark n
  (s.onMark n fun m => { m with sent := some t }).sendEdge { id := n, ch := m.target, level := m.level, time := t }

/-- An edge is sent when its predicted time is 600 µs or less ahead (R72). -/
def State.sendDueMarks (s : State) : State :=
  s.forEach (List.range 256) fun s n =>
    let m := s.mark n
    if m.armed && m.action = .fioEdge && m.sent.isNone then
      let d := s.predict m.pos
      if d ≤ 600000 then s.sendMark n (s.ltc + (roundInt d).toNat) else s
    else s

/-- The edge of a pending close that mark `n` carries has a new time: t_edge and the target T_b after it (R73, R76, R77). -/
def State.powEdgeMoved (s : State) (n t : Nat) : State :=
  s.onTide fun y => { y with pow := y.pow.map fun x => { x with pending := x.pending.map fun p =>
    if p.mark = n then { p with tEdge := t, tTarget := t + (roundInt x.tb).toNat } else p } }

/-- The local time counter has been stepped by `d` ns: the edge of a close that has already been made keeps its place against its touch (R77). -/
def State.powStepped (s : State) (d : Int) : State :=
  let then_ := (s.ltc : Int) - d
  s.onTide fun y => { y with pow := y.pow.map fun x => { x with pending := x.pending.map fun p =>
    if p.sent ∧ (p.tEdge : Int) ≤ then_ then { p with tEdge := ((p.tEdge : Int) + d).toNat, tTarget := ((p.tTarget : Int) + d).toNat } else p } }

/-- A step of the local time counter: the history marks it, and an edge already sent is re-sent at its re-predicted time when
that lies at least 100 µs ahead, else it executes late (R73). -/
def State.tideMapStep (s : State) (d : Int) : State :=
  let s := (((s.pushHist).raise .tide 9).report .tideMapStep 0xFFFF [d]).powStepped d
  s.forEach (List.range 256) fun s n =>
    let m := s.mark n
    if !(m.armed && m.sent.isSome) then s else
      let ahead := s.predict m.pos
      if 100000 ≤ ahead then
        let t := s.ltc + (roundInt ahead).toNat
        ((s.withdrawEdge n).sendMark n t).powEdgeMoved n t
      else s.onTide fun t => { t with markStepLate := satInc 16 t.markStepLate }

/-! ### Firing (R69, R70, R72) -/

/-- The PTP time of the tick at which Tide crossed a position (R47, R70). -/
def State.crossed (s : State) (p : Nat) : Nat := (s.timeOf p).getD s.ltc

/-- A mark has been crossed and not yet fired (R70). -/
def TideState.crossedMark (t : TideState) (m : Mark) : Bool := m.armed && decide (t.fired.toNat < m.pos ∧ m.pos ≤ t.posN)

/-- Marks that have been crossed and not yet fired, with the times of their crossings, by index. -/
def State.dueMarks (s : State) : List (Nat × Nat) :=
  (s.tide.marks.zipIdx.filter fun m => s.tide.crossedMark m.1).map fun m => (s.crossed m.1.pos, m.2)

/-- The first of them: by the tick of the crossing, and in one tick by index (R70). -/
def firstMark : List (Nat × Nat) → Option (Nat × Nat)
  | [] => none
  | x :: l => match firstMark l with
    | some y => some (if y.1 < x.1 then y else x)
    | none => some x

/-- The action of a mark at its firing tick `t` (R69, R72). -/
def State.markAction (s : State) (n t : Nat) : State :=
  let m := s.mark n
  match m.action with
  | .none | .logRecord => s
  | .fioEdge => if m.sent.isSome then s else s.sendMark n t
  | .logicRelease => s.onLogic fun l => { l with tasks := l.tasks.map fun k => if k.cfg.task == m.target then { k with due := true } else k }
  | .captSnapshot =>
    let e := s.engine m.target
    (s.captPut m.target { tag := s.tagOf e t, type := .snapshot, source := n, lo := m.angle, hi := BitVec.ofNat 32 m.cycle }).forEach
      (e.cfg.conds.zipIdx.filter fun x => x.1 == .tide n) fun s x => s.captMet m.target x.2 t
  | .formStep => s.onUnit m.target fun u => { u with stepDue := true }

/-- A mark fires: its action, its MARK record, and its disarming or its next position (R69, R70, R72). -/
def State.fireMark (s : State) (x : Nat × Nat) : State :=
  let m := s.mark x.2
  let s := s.markAction x.2 x.1
  let sent := (s.mark x.2).sent.getD 0
  let s := if m.log || m.action = .logRecord then s.reportAt x.1 .mark x.2 [m.cycle, m.angle.toNat, sent, x.1] else s
  s.onMark x.2 fun m =>
    let m := { m with fired := ts32of x.1, sent := none }
    match m.period with
    | some k => m.at_ (m.pos + k * 2 ^ 32)
    | none => { m with armed := false }

/-- An FIO_EDGE mark of a higher index crosses in the same tick and drives the same channel (R70). -/
def State.overruled (s : State) (l : List (Nat × Nat)) (x : Nat × Nat) : Bool :=
  decide ((s.mark x.2).action = .fioEdge) && l.any fun y =>
    decide (y.1 = x.1 ∧ x.2 < y.2 ∧ (s.mark y.2).action = .fioEdge) && s.gangLead (s.mark x.2).target == s.gangLead (s.mark y.2).target

/-- The edge of an overruled mark is withdrawn, or never sent, so that the level of the higher index stands (R70). -/
def State.overrule (s : State) (x : Nat × Nat) : State :=
  ((s.withdrawEdge x.2).onMark x.2 fun m => { m with sent := some (m.sent.getD x.1) }).raise .tide 8

/-- The marks that Tide has crossed fire one after the other; a periodic mark that Tide has crossed again fires again (R70). -/
def State.fireMarks : Nat → State → State
  | 0, s => s
  | fuel + 1, s =>
    let l := s.dueMarks
    match firstMark l with
    | none => s
    | some x => State.fireMarks fuel ((s.when (s.overruled l x) fun s => s.overrule x).fireMark x)

/-- The number of crossings that wait. -/
def State.crossings (s : State) : Nat :=
  ((s.tide.marks.filter s.tide.crossedMark).map fun m =>
    1 + match m.period with
      | some k => (s.tide.posN - m.pos) / (max k 1 * 2 ^ 32)
      | none => 0).sum

/-! ### Point-on-wave closing (R74 to R78) -/

def State.powCfg? (s : State) (k : Nat) : Option PowCfg := s.tideCfg.pow[k]?
def State.pow (s : State) (k : Nat) : Pow := nth s.tide.pow k {}
def State.onPow (s : State) (k : Nat) (f : Pow → Pow) : State := s.onTide fun t => { t with pow := updAt t.pow k f }

/-- The condition of R75 that fails, if any: 1 Tide, 2 the Pilot, 3 its ROCOF (R75, R76). -/
def State.powFails (s : State) (c : PowCfg) : Option Nat :=
  if s.tide.phase ≠ .aligned ∨ s.tide.src ≠ .pilot then some 1
  else if s.tide.pilot.phase ≠ .tracking then some 2
  else if c.rocofMax < s.tide.pilot.rocof.mag then some 3
  else none

/-- The refusal of a close request, with the Tide and Pilot states; in DEGRADED none is accepted (R75, R78). DESIGN CHOICE: it is refused
too when none of the 256 marks is free (log entry 58). -/
def State.refusePow (s : State) (k : Nat) : Option Refuse :=
  let r : Refuse := { blk := .tide, src := k, st0 := s.tideStatus, st1 := s.pilotStatus }
  match s.powCfg? k with
  | none => some r
  | some c =>
    if s.clk.degraded || (s.powFails c).isSome || (s.pow k).pending.isSome || !((List.range 256).any fun n => !(s.mark n).armed) then some r else none

/-- The angle on Tide that stands for an angle of the Pilot (R76). -/
def State.powAngle (s : State) (a : Angle) : Angle := a - BitVec.ofInt 32 s.tide.offset

/-- The first target, by cycle, whose edge lies at least 2 ms ahead: its position and the time to it (R76). -/
def State.powTarget (s : State) (a : Angle) (tb : Num) : Nat → Nat → Nat × Num
  | p, 0 => (p, s.predict p)
  | p, fuel + 1 =>
    let d := s.predict p
    if 2000000 ≤ d - tb then (p, d) else s.powTarget a tb (p + 2 ^ 32) fuel

/-- The position at which the edge of a target is due, that is T_b before it (R76). -/
def State.powEdge (s : State) (d tb : Num) : Nat × Nat :=
  let e := d - tb
  ((s.tide.posN + (s.travel e).floor.toNat) % 2 ^ 80, s.ltc + (roundInt e).toNat)

/-- A close request is accepted: the first target is chosen and a POW mark armed (R75, R76). -/
def State.powAccept (s : State) (k : Nat) (a : Angle) : State :=
  match s.powCfg? k, (List.range 256).find? fun n => !(s.mark n).armed with
  | some c, some n =>
    let tb := (s.pow k).tb
    let here := s.tide.posN / 2 ^ 32 * 2 ^ 32 + (s.powAngle a).toNat
    let first := if here ≤ s.tide.posN then here + 2 ^ 32 else here
    let t := s.powTarget a tb first 64
    let e := s.powEdge t.2 tb
    let s := s.onMark n fun x =>
      { x with
        armed := true, action := .fioEdge, owner := .pow, period := none, level := true, target := c.closeCh, log := false,
        sent := none, cycle := e.1 / 2 ^ 32 % 2 ^ 48, angle := BitVec.ofNat 32 e.1 }
    let q : PowPending := { reqAngle := a, mark := n, cycle := t.1 / 2 ^ 32, tTarget := s.ltc + (roundInt t.2).toNat, tEdge := e.2 }
    s.onPow k fun p => { p with pending := some q }
  | _, _ => s

/-- A condition fails before the edge is sent: no edge, or an untimed close at once (R76). -/
def State.powAbort (s : State) (k : Nat) (c : PowCfg) (p : PowPending) (why : Nat) : State :=
  let s := s.onMark p.mark fun m => { m with armed := false }
  let s := ((s.raise .tide 11).report .powAbort k [why])
  match c.failure with
  | .abort => s.onPow k fun x => { x with pending := none }
  | .closeUntimed => (s.sendFio c.closeCh true).onPow k fun x => { x with pending := some { p with sent := true, tEdge := s.ltc } }

/-! ### Contact touch (R74, R77) -/

/-- A touch at PTP time `t` counts for a pending close: after its edge, within T_nom + 20 ms, and the first (R77). -/
def PowPending.counts (p : PowPending) (c : PowCfg) (t : Nat) : Bool :=
  p.sent && p.touch.isNone && decide (p.tEdge < t ∧ t ≤ p.tEdge + c.tNom + msec 20)

/-- A touch at PTP time `t` enters a pending close for which it counts (R77). -/
def PowPending.touchedAt (p : PowPending) (c : PowCfg) (t : Nat) : PowPending := if p.counts c t then { p with touch := some t } else p

/-- A touch of a source at PTP time `t`: the pending close of each breaker that names the source has its time (R74, R77). -/
def State.touched (s : State) (names : TouchSource → Bool) (t : Nat) : State :=
  s.forEach (List.range s.tideCfg.pow.length) fun s k =>
    match s.powCfg? k with
    | some c =>
      s.when (names c.touch) fun s => s.onPow k fun x => { x with pending := x.pending.map fun p => p.touchedAt c t }
    | none => s

/-- Samples of a current channel, oldest first, with their instants and values in pu: each beyond 0.05 pu is a touch (R74). -/
def State.onset (s : State) (c : ChanRef) (l : List (Nat × Num)) : State :=
  s.forEach l fun s y => s.when (decide (1 / 20 < y.2.mag)) fun s => s.touched (· == .current c) y.1

/-- A stamped edge of an auxiliary input (R74). -/
def State.auxTouch (s : State) (ch : Nat) (level : Bool) (t : Nat) : State :=
  s.touched (fun x => match x with
    | .aux c e => c == ch && (e == .either || (e == .rising) == level)
    | .current _ => false) t

/-- Until its edge is sent, a pending close is checked again and its target recomputed within the same cycle (R76). -/
def State.powUpdate (s : State) : State :=
  s.forEach (List.range s.tideCfg.pow.length) fun s k =>
    match s.powCfg? k, (s.pow k).pending with
    | some c, some p =>
      if p.sent then s
      else if (s.mark p.mark).sent.isSome || !(s.mark p.mark).armed then s.onPow k fun x => { x with pending := some { p with sent := true } }
      else match s.powFails c with
        | some why => s.powAbort k c p why
        | none =>
          let target := p.cycle * 2 ^ 32 + (s.powAngle p.reqAngle).toNat
          let d := s.predict target
          let e := s.powEdge d (s.pow k).tb
          (s.onMark p.mark fun m => m.at_ e.1).onPow k fun x =>
            { x with pending := some { p with tTarget := s.ltc + (roundInt d).toNat, tEdge := e.2 } }
    | _, _ => s

/-- By how long a touch timed at the limit reaches the logic side later (R77). -/
def State.touchLatency (s : State) : TouchSource → Ns
  | .current (.ain c) => (dWave (((s.ain? c).map (·.active.taps)).getD 1) * 1000000000 + 11059199) / 11059200
  | .current (.sv c) => if s.svIsFast c then s.acq.alignFast else s.acq.alignPhasor
  | .aux ch _ => (s.fioCh ch).debounce + 5000

end Sys2Proof.Machine
end

