-- ==== Sys2Proof/Machine/ProtMath.lean ====
section
/-! DEFINITION. The arithmetic of PROT, every operation rounded to binary32: complex numbers, phasors, sequence components, curves (spec/05_protection_engine.md R155, R159 to R162, R170 to R173). -/

namespace Sys2Proof.Machine

open Sys2Proof

/-! ### Operations in binary32 (R155) -/

def fadd (a b : Num) : Num := f32 (a + b)
def fsub (a b : Num) : Num := f32 (a - b)
def fmul (a b : Num) : Num := f32 (a * b)
def fdiv (a b : Num) : Num := f32 (a / b)
/-- The sum of a list, first to last. -/
def fsum (l : List Num) : Num := l.foldl fadd 0

/-- Degrees in radians, and the functions of an angle in degrees. -/
def fpi : Num := f32 Config.pi
def frad (d : Num) : Num := fdiv (fmul d fpi) 180
def fsin (d : Num) : Num := f32 (Config.sin (frad d))
def fcos (d : Num) : Num := f32 (Config.cos (frad d))
def flog (x : Num) : Num := f32 (Config.log x)
def fexp (x : Num) : Num := f32 (Config.exp x)

def Cx.add (a b : Cx) : Cx := { re := fadd a.re b.re, im := fadd a.im b.im }
def Cx.sub (a b : Cx) : Cx := { re := fsub a.re b.re, im := fsub a.im b.im }
def Cx.mul (a b : Cx) : Cx :=
  { re := fsub (fmul a.re b.re) (fmul a.im b.im), im := fadd (fmul a.re b.im) (fmul a.im b.re) }
def Cx.scale (k : Num) (a : Cx) : Cx := { re := fmul k a.re, im := fmul k a.im }
/-- A complex number over a real one. -/
def Cx.over_ (a : Cx) (k : Num) : Cx := { re := fdiv a.re k, im := fdiv a.im k }
def Cx.conj (a : Cx) : Cx := { re := a.re, im := -a.im }
def Cx.neg (a : Cx) : Cx := { re := -a.re, im := -a.im }
def Cx.sq (a : Cx) : Num := fadd (fmul a.re a.re) (fmul a.im a.im)
def Cx.mag (a : Cx) : Num := f32sqrt a.sq
/-- The angle in degrees. -/
def Cx.arg (a : Cx) : Num := fdiv (fmul (f32 (Config.atan2 a.im a.re)) 180) fpi
/-- e^{jx} for an angle in degrees. -/
def expj (d : Num) : Cx := { re := fcos d, im := fsin d }
/-- The quotient; zero for a zero divisor. -/
def Cx.div (a b : Cx) : Cx := if b.sq = 0 then {} else (a.mul b.conj).over_ b.sq

/-- An angle in degrees wrapped to −180 to 180. -/
def wrap180 (d : Num) : Num := d - 360 * (((d + 180) / 360).floor : Num)
def fwrap (d : Num) : Num := f32 (wrap180 d)

end Sys2Proof.Machine

/-! ### Settings as the lanes hold them, in binary32 (R155) -/

namespace Sys2Proof

open Sys2Proof.Machine (f32)

def TimingSet.single (t : TimingSet) : TimingSet :=
  { t with pickup := f32 t.pickup, dropoutRatio := t.dropoutRatio.map f32, tms := f32 t.tms, mMax := f32 t.mMax, pickupLim := t.pickupLim.map f32 }
def DirSet.single (d : DirSet) : DirSet := { d with rca := f32 d.rca, halfSector := f32 d.halfSector, vpolMin := f32 d.vpolMin }
def DistSet.single (d : DistSet) : DistSet :=
  { d with
    reach := f32 d.reach, lineAng := f32 d.lineAng, xReach := f32 d.xReach, rReach := f32 d.rReach, tilt := f32 d.tilt, k0re := f32 d.k0re
    k0im := f32 d.k0im, i0Min := f32 d.i0Min, iMin := f32 d.iMin, dirLow := f32 d.dirLow, dirHigh := f32 d.dirHigh }
def TrafoSet.single (x : TrafoSet) : TrafoSet :=
  { x with
    idMin := f32 x.idMin, slope1 := f32 x.slope1, slope2 := f32 x.slope2, irBrk := f32 x.irBrk, h2 := f32 x.h2, h5 := f32 x.h5
    idUnr := f32 x.idUnr }
def LineDiffSet.single (x : LineDiffSet) : LineDiffSet :=
  { idMin := f32 x.idMin, k1 := f32 x.k1, k2 := f32 x.k2, irBrk := f32 x.irBrk, idUnr := f32 x.idUnr }
def VoltSet.single (x : VoltSet) : VoltSet := { x with vDead := f32 x.vDead, uvBlock := f32 x.uvBlock }
def BfSet.single (x : BfSet) : BfSet := { x with iBf := f32 x.iBf }
def SyncSet.single (x : SyncSet) : SyncSet :=
  { x with dvMax := f32 x.dvMax, dfMax := f32 x.dfMax, dangMax := f32 x.dangMax, deadLevel := f32 x.deadLevel, liveLevel := f32 x.liveLevel }

/-- The settings of an element with every number rounded to binary32 (R155). -/
def ElemSet.single (g : ElemSet) : ElemSet :=
  { g with
    timing := g.timing.single, dir := g.dir.single, dist := g.dist.single, trafo := g.trafo.single, line := g.line.single, volt := g.volt.single
    bf := g.bf.single, sync := g.sync.single }

end Sys2Proof

namespace Sys2Proof.Machine

open Sys2Proof

/-! ### Phasors (R159 to R161) -/

/-- A quantity with the quality it was formed from (R161). -/
structure Qx where
  x : Cx := {}
  q : Quality := .good
  det : Detail := {}
deriving DecidableEq, Repr, Inhabited

/-- The union of detail flags (R161). -/
def Detail.union (a b : Detail) : Detail :=
  { overflow := a.overflow || b.overflow, inaccurate := a.inaccurate || b.inaccurate, unsync := a.unsync || b.unsync,
    failure := a.failure || b.failure }

/-- A quantity of a channel that is not created, or that reaches before the first released instant (R161, R205). -/
def Qx.none : Qx := { q := .invalid, det := { failure := true } }

/-- Two quantities taken together: a result with the worst validity and the union of the flags (R161). -/
def Qx.map2 (f : Cx → Cx → Cx) (a b : Qx) : Qx := { x := f a.x b.x, q := Quality.worse a.q b.q, det := a.det.union b.det }

/-- The radians of h times an angle (R159). -/
def radians (h : Nat) (a : Angle) : Num := f32 (2 * Config.pi * ((h * a.toNat % 2 ^ 32 : Nat) : Num) / (2 ^ 32 : Nat))

/-- A product term x·e^{−jhθ} of a sample (R159). -/
def term (h : Nat) (y : Sample) : Cx :=
  let r := radians h y.theta
  { re := fmul y.x (f32 (Config.cos r)), im := -(fmul y.x (f32 (Config.sin r))) }

/-- L of a window at a Tide frequency (R159). -/
def winLen (hz : Nat) (half : Bool) (f : Num) : Num := fdiv hz (if half then fmul 2 (f32 f) else f32 f)

/-- M of a window that ends at a sample (R159). -/
def winWhole (hz : Nat) (half : Bool) (y : Sample) : Nat := (winLen hz half y.freq).floor.toNat

/-- Samples in the window that ends at a sample, the fractional one among them. -/
def winWidth (hz : Nat) (half : Bool) (y : Sample) : Nat := (winLen hz half y.freq).ceil.toNat

/-- The sum takes on or drops whole terms, the oldest of the window, until it holds `m`; `l` holds the samples, newest first (R160). -/
def WinSum.fit (h m : Nat) (l : List Sample) : Nat → WinSum → WinSum
  | 0, w => w
  | fuel + 1, w =>
    if m < w.count then
      WinSum.fit h m l fuel { sum := (l[w.count - 1]?).elim w.sum fun z => w.sum.sub (term h z), count := w.count - 1 }
    else if w.count < m then
      match l[w.count]? with
      | some z => WinSum.fit h m l fuel { sum := w.sum.add (term h z), count := w.count + 1 }
      | none => w
    else w

/-- The sum over the first `m` terms of a ring, newest first (R160). -/
def wholeSum (h m : Nat) (l : List Sample) : Cx := ((l.take m).map (term h)).foldl Cx.add {}

/-- A new sample, the head of `l`, enters a window sum: the newest term is added and the oldest dropped, and at a carry into the Tide cycle
count the sum is formed anew from the ring (R160). -/
def WinSum.push (w : WinSum) (hz h : Nat) (half : Bool) (l : List Sample) : WinSum :=
  match l with
  | [] => w
  | y :: rest =>
    let m := winWhole hz half y
    if rest.head?.any fun z => decide (y.theta.toNat < z.theta.toNat) then { sum := wholeSum h m l, count := min m l.length }
    else WinSum.fit h m l 400 { sum := w.sum.add (term h y), count := w.count + 1 }

/-- The phasor over the window that ends at the newest sample of `l`, from the sum of its whole terms (R159, R161). -/
def phasorFrom (whole : Cx) (hz h : Nat) (half : Bool) (l : List Sample) : Qx :=
  match l with
  | [] => Qx.none
  | y :: _ =>
    let len := winLen hz half y.freq
    let m := winWhole hz half y
    let s := match l[m]? with
      | some z => whole.add ((term h z).scale (fsub len m))
      | none => whole
    let x := (({ re := -s.im, im := s.re } : Cx).scale (f32sqrt 2)).over_ len
    let win := l.take (winWidth hz half y)
    let q := win.foldl (fun q z => Quality.worse q z.q) .good
    let det := win.foldl (fun d z => d.union z.det) {}
    if win.length < winWidth hz half y ∨ m = 0 then { x := x, q := .invalid, det := { det with failure := true } } else { x := x, q := q, det := det }

/-- The phasor of a window of samples, newest first, its whole terms summed anew (R159). -/
def phasorOf (hz h : Nat) (half : Bool) (l : List Sample) : Qx :=
  phasorFrom (wholeSum h ((l.head?.map (winWhole hz half)).getD 0) l) hz h half l

/-! ### Sequence components (R162) -/

/-- Zero, positive and negative sequence. -/
structure Seq where
  x0 : Cx := {}
  x1 : Cx := {}
  x2 : Cx := {}
deriving DecidableEq, Repr, Inhabited

def rotA : Cx := expj 120
def rotA2 : Cx := expj 240

/-- The components of three phasors; PHASE_ROTATION = ACB exchanges positive and negative (R162). -/
def seqOf (acb : Bool) (a b c : Cx) : Seq :=
  let x1 := ((a.add (rotA.mul b)).add (rotA2.mul c)).over_ 3
  let x2 := ((a.add (rotA2.mul b)).add (rotA.mul c)).over_ 3
  { x0 := ((a.add b).add c).over_ 3, x1 := if acb then x2 else x1, x2 := if acb then x1 else x2 }

/-! ### Curves (R171 to R173) -/

/-- M^α for the exponents of the standard curves. -/
def powM (m alpha : Num) : Num := if alpha = 1 then m else if alpha = 2 then fmul m m else f32 (Config.pow m (f32 alpha))

/-- k or A, α or p, c or B, and the reset constant of a standard curve (R171). -/
def curveConst : Nat → Option (Num × Num × Num × Num)
  | 1 => some (14 / 100, 2 / 100, 0, 135 / 10)
  | 2 => some (135 / 10, 1, 0, 473 / 10)
  | 3 => some (80, 2, 0, 80)
  | 4 => some (515 / 10000, 2 / 100, 114 / 1000, 485 / 100)
  | 5 => some (1961 / 100, 2, 491 / 1000, 216 / 10)
  | 6 => some (282 / 10, 2, 1217 / 10000, 291 / 10)
  | _ => none

/-- A user table: log t linear in log M between points, the end value outside (R173). -/
def tableTime (m : Num) : List (Num × Num) → Num
  | [] => 0
  | [p] => f32 p.2
  | p :: r :: l =>
    if m ≤ f32 p.1 then f32 p.2
    else if m ≤ f32 r.1 then
      let at_ := fun (x : Num) => flog (f32 x)
      let k := fdiv (fsub (flog m) (at_ p.1)) (fsub (at_ r.1) (at_ p.1))
      fexp (fadd (at_ p.2) (fmul k (fsub (at_ r.2) (at_ p.2))))
    else tableTime m (r :: l)

/-- t_op at an effective multiple, in seconds (R171, R173). -/
def opTime (tables : List UserTable) (t : TimingSet) (m : Num) : Num :=
  match curveConst t.curveNo with
  | some (k, a, c, _) => fmul t.tms (fadd (fdiv (f32 k) (fsub (powM m a) 1)) (f32 c))
  | none => fmul t.tms (tableTime m ((tables[t.curveNo - 16]?).map (·.points) |>.getD []))

/-- The reset constant of a curve (R171, R172). -/
def resetConst (tables : List UserTable) (curve : Nat) : Num :=
  match curveConst curve with
  | some (_, _, _, tr) => f32 tr
  | none => f32 (((tables[curve - 16]?).map (·.tr)).getD 0)

/-- Evaluations of a lane that cover a time, rounded up (R165). -/
def evals (hz : Nat) (t : Ns) : Nat := (t * hz + 999999999) / 1000000000

/-- The period of a lane in seconds. -/
def periodSec (hz : Nat) : Num := fdiv 1 hz

/-- G at an evaluation below dropout, under the reset mode; `held` counts the evaluations so far (R172). -/
def resetG (tables : List UserTable) (t : TimingSet) (hz held : Nat) (m g : Num) : Num :=
  match t.resetMode with
  | .instant => 0
  | .timed =>
    let c := if f32 (95 / 100) < m then f32 (95 / 100) else m
    let tr := fdiv (fmul t.tms (resetConst tables t.curveNo)) (fsub 1 (fmul c c))
    if tr = 0 then 0 else
      let g' := fsub g (fdiv (periodSec hz) tr)
      if g' < 0 then 0 else g'
  | .thermal => fmul g (fexp (-(fdiv (periodSec hz) (f32 ((t.tauMem : Num) / 1000000000)))))
  | .definite => if held < evals hz t.resetT then g else 0

end Sys2Proof.Machine
end

