-- ==== Sys2Proof/Machine/ProtElem.lean ====
section
/-! DEFINITION. One evaluation of an element on one lane: its quantity, pickup, timers and blocking (spec/05_protection_engine.md R163 to R186). -/

namespace Sys2Proof.Machine

open Sys2Proof

/-- The totals of a zone in pu as a lane has them: S and R per phase and U; `bad` when the lane's copy fails its check (R18, R225). -/
structure ZoneQ where
  sum : List Cx := []
  restr : List Num := []
  uncomp : Num := 0
  bad : Bool := false
deriving DecidableEq, Repr, Inhabited

/-- What an evaluation sees: the state at the start of stage 3, the lane, the lane rate, and the zone totals of an 87L element. -/
structure Ev where
  s : State
  lane : LaneId
  rate : LaneRate
  zone : Option ZoneQ := none

def Ev.hz (e : Ev) : Nat := e.rate.hz

/-- The lane's rings of a channel (R160). -/
def Ev.ring? (e : Ev) (c : ChanRef) : Option Ring := (e.s.prot.lane e.lane).rings.find? (·.chan == c)

/-- The samples of a lane rate in a ring, newest first. -/
def Ring.of (r : Ring) : LaneRate → List Sample
  | .fast => r.fast
  | .phasor => r.phasor

/-- The lane's samples of a channel, newest first (R160). -/
def Ev.ring (e : Ev) (c : ChanRef) : List Sample := ((e.ring? c).map (·.of e.rate)).getD []

/-- The window sum of a harmonic on a lane rate (R159, R160). -/
def Ring.sumOf (r : Ring) (rate : LaneRate) (h : Nat) (half : Bool) : WinSum :=
  match rate with
  | .phasor => r.slow
  | .fast => if half then r.half else if h = 2 then r.h2 else if h = 5 then r.h5 else r.full

/-- The phasor of a channel on this lane (R159, R160). -/
def Ev.ph (e : Ev) (h : Nat) (half : Bool) (c : ChanRef) : Qx :=
  match e.ring? c with
  | none => Qx.none
  | some r => phasorFrom (r.sumOf e.rate h half).sum e.hz h half (r.of e.rate)

/-- The newest sample of a channel on this lane. -/
def Ev.smp (e : Ev) (c : ChanRef) : Sample := (e.ring c).headD { det := { failure := true } }

/-- Tide's frequency at the acquisition instant under evaluation, in binary32 (R49, R155). -/
def Ev.freq (e : Ev) : Num :=
  f32 ((((e.s.prot.lane e.lane).rings.findSome? fun r => (r.of e.rate).head?).map (·.freq)).getD e.s.tide.freq)

/-- m of R163: phasor-lane samples in one cycle of NOMINAL_FREQ. -/
def Ev.m (e : Ev) : Nat := (roundInt (4800 / e.s.tideCfg.nominalFreq)).toNat

def Ev.acb (e : Ev) : Bool := e.s.manifest.prot.rotationAcb
def Ev.tables (e : Ev) : List UserTable := e.s.manifest.prot.tables

/-- Phase p of a set. -/
def Ev.phase (e : Ev) (set : List ChanRef) (h : Nat) (half : Bool) (p : Nat) : Qx :=
  match set[p]? with
  | some c => e.ph h half c
  | none => Qx.none

/-- A component of a set, or of its one channel. -/
def Ev.seqPart (e : Ev) (set : List ChanRef) (f : Seq → Cx) : Qx :=
  match set with
  | [c] => e.ph 1 false c
  | _ =>
    let a := e.phase set 1 false 0
    let b := e.phase set 1 false 1
    let c := e.phase set 1 false 2
    { x := f (seqOf e.acb a.x b.x c.x), q := Quality.worse (Quality.worse a.q b.q) c.q, det := (a.det.union b.det).union c.det }

/-- The residual quantity 3X0, or the named neutral channel (R162). -/
def Ev.residual (e : Ev) (set : List ChanRef) (neutral : Option ChanRef) (half : Bool) : Qx :=
  match neutral with
  | some n => e.ph 1 half n
  | none => Qx.map2 Cx.add (Qx.map2 Cx.add (e.phase set 1 half 0) (e.phase set 1 half 1)) (e.phase set 1 half 2)

/-- The residual of the newest samples (R175). -/
def Ev.residualSmp (e : Ev) (set : List ChanRef) (neutral : Option ChanRef) : Num × Bool :=
  match neutral with
  | some n => ((e.smp n).x, (e.smp n).q ≠ .invalid)
  | none => (fsum (set.map fun c => (e.smp c).x), set.all fun c => (e.smp c).q ≠ .invalid)

/-! ### Pickup, timers, integral (R164, R165, R170, R172, R175) -/

/-- What one phase or loop shows at an evaluation: its quantity, whether the condition holds, whether M has passed the
dropout level, its quality, and a sample for the check of R175 with its level. -/
structure PhaseQ where
  idx : Nat
  m : Num := 0
  cond : Bool := false
  past : Bool := true
  q : Quality := .good
  smp : Option (Num × Bool × Num) := none
  dir : Nat := 0

/-- The settings by which a phase is timed: those of R164 to R172 with the defaults of the element's type, and its lane. -/
structure Timing where
  t : TimingSet
  type : ElemType
  hz : Nat
  f : Num
  tables : List UserTable

/-- The condition and the dropout level of R164; without the gate the condition does not hold. -/
def item (t : TimingSet) (y : ElemType) (idx : Nat) (m : Num) (q : Quality) (gate : Bool := true) : PhaseQ :=
  { idx := idx, m := m, q := q
    cond := gate && (if y.isUnder then decide (m ≤ 1) else decide (1 ≤ m))
    past := !gate || (if y.isUnder then decide (f32 (t.ratioOf y) < m) else decide (m < f32 (t.ratioOf y))) }

/-- The sample check: consecutive samples of one sign at or above √2 × the level (R175). -/
def PhaseState.check (p : PhaseState) (n hz : Nat) (f x level : Num) (valid : Bool) : PhaseState :=
  if n = 0 then { p with hsRun := 0, hsPicked := false } else
    let hit := valid && decide (fmul (f32sqrt 2) level ≤ x.mag)
    let run := if !hit then 0 else if p.hsRun ≠ 0 && p.hsNeg = decide (x < 0) then p.hsRun + 1 else 1
    let since := if hit then 0 else p.hsSince + 1
    { p with
      hsRun := run, hsNeg := decide (x < 0), hsSince := since
      hsPicked := decide (n ≤ run) || (p.hsPicked && decide ((since : Num) * f < hz)) }

/-- The integral at an evaluation (R170, R172). -/
def PhaseState.integrate (p : PhaseState) (k : Timing) (z : PhaseQ) (picked : Bool) : PhaseState :=
  let g := if picked && z.cond then fadd p.g (fdiv (periodSec k.hz) (opTime k.tables k.t (Num.clamp (f32 (11 / 10)) k.t.mMax z.m)))
    else if z.past then resetG k.tables k.t k.hz p.heldFor z.m p.g
    else p.g
  { p with
    g := g, heldFor := if z.past && !(picked && z.cond) then p.heldFor + 1 else 0
    addRun := if picked && decide (1 ≤ p.g ∧ 1 ≤ g) then p.addRun + 1 else 0 }

/-- One evaluation of a phase (R164, R170, R175). -/
def PhaseState.step (p : PhaseState) (k : Timing) (z : PhaseQ) : PhaseState :=
  let p := match z.smp with
    | some (x, ok, level) => p.check k.t.hsSamples k.hz k.f x level ok
    | none => p
  let pu := if z.cond then p.puRun + 1 else 0
  let dn := if p.picked && z.past then p.doRun + 1 else 0
  let mag := if p.picked then decide (dn < k.t.doCount) else decide (k.t.puOf k.type ≤ pu)
  let picked := mag || p.hsPicked
  let p := { p with puRun := pu, doRun := dn, picked := mag, on := picked, elapsed := if picked && p.on then p.elapsed + 1 else 0 }
  if k.t.curveNo = 0 then { p with operate := picked && decide (evals k.hz k.t.tDelay ≤ p.elapsed) } else
    let p := p.integrate k z picked
    { p with
      operate := picked && decide (1 ≤ p.g) && decide (evals k.hz k.t.tMin ≤ p.elapsed) && decide (evals k.hz k.t.tAdd ≤ p.addRun) }

/-- The course of a 79 element starts again, but for LOCKOUT, which only a reset input clears (R167, R186). -/
def ElemMem.restart (m : ElemMem) : ElemMem :=
  if m.reclose = .lockout then { m with recloseRun := 0 } else { m with reclose := .idle, recloseRun := 0, shot := 0 }

/-- The element is blocked: its outputs are zero; RESET clears its pickup count, timers and integral, HOLD freezes them (R167). DESIGN CHOICE:
RESET also takes a 79 element back to idle (log entry 57). -/
def ElemLane.block (x : ElemLane) (c : BlockCause) (m : BlockMode) : ElemLane :=
  let x := { x with pickup := false, operate := false, aux := false, blocked := true, cause := c, dir := 0 }
  if m = .reset then
    { x with phases := List.replicate 6 {}, run := none, progress := 0, mem := { x.mem.restart with syncRuns := List.replicate 4 none } }
  else x

/-- The definite timer of the element and its progress (R165). -/
def definite (hz : Nat) (t : Ns) (run : Nat) : Bool × Num :=
  let need := evals hz t
  (decide (need ≤ run), if need = 0 then 1 else Num.clamp 0 1 (fdiv run need))

/-- The phases of an evaluation, and why the element as a whole is blocked, if it is. -/
structure Quantities where
  phases : List PhaseQ
  why : BlockCause := .none

/-- The blocks of an evaluation: a block input wins; then no valid phasor; then what the type adds. An INVALID input resets whatever
BLOCK_MODE is set (R166 to R168). -/
def blockOf (input allBad : Bool) (why : BlockCause) (mode : BlockMode) : Option (BlockCause × BlockMode) :=
  if input then some (.blockInput, if allBad then .reset else mode)
  else if allBad then some (.input, .reset)
  else if why = .none then none else some (why, mode)

/-- The outputs of an element from its phases: a phase whose phasor is INVALID is blocked and reset alone (R164, R165, R168, R170, R182). The
timer of a 21 element runs for each loop (R179). -/
def ElemLane.finish (x : ElemLane) (k : Timing) (all input : Bool) (mode : BlockMode) (w : Quantities) : ElemLane :=
  let l := w.phases
  let good : List PhaseQ := l.filter fun (z : PhaseQ) => decide (z.q ≠ .invalid)
  let bad : List PhaseQ := l.filter fun (z : PhaseQ) => decide (z.q = .invalid)
  let cleared : List PhaseState := bad.foldl (fun ps z => updAt ps z.idx fun _ => {}) x.phases
  let ms := good.map (·.m)
  let worst := ms.foldl (if k.type.isUnder then min else max) (ms.headD 0)
  let x : ElemLane :=
    { x with invalid := !bad.isEmpty, questionable := good.any fun z => decide (z.q = .questionable), phases := cleared, m := f32 worst }
  match blockOf input (good.isEmpty && !bad.isEmpty) w.why mode with
  | some b => x.block b.1 b.2
  | none =>
    let stepped : List PhaseState := good.foldl (fun ps z => updAt ps z.idx fun p => p.step k z) x.phases
    let at_ := fun (z : PhaseQ) => nth stepped z.idx {}
    let pu := if all then l.all fun z => decide (z.q ≠ .invalid) && (at_ z).on else good.any fun z => (at_ z).on
    let dir := ((good.filter fun z => z.dir ≠ 0).map (·.dir)).headD 0
    let run := if pu then some ((x.run.map (· + 1)).getD 0) else none
    let x := { x with phases := stepped, pickup := pu, dir := dir, run := run }
    if k.t.curveNo ≠ 0 then
      { x with
        operate := pu && (if all then good.all fun z => (at_ z).operate else good.any fun z => (at_ z).operate)
        progress := Num.clamp 0 1 ((x.phases.map (·.g)).foldl max 0) }
    else if k.type = .e21 then
      let on := good.filter fun z => (at_ z).on
      { x with
        operate := on.any fun z => (at_ z).operate
        progress := (on.map fun z => (definite k.hz k.t.tDelay (at_ z).elapsed).2).foldl max 0 }
    else
      let d := definite k.hz k.t.tDelay (run.getD 0)
      { x with operate := pu && d.1, progress := if pu then d.2 else 0 }

/-! ### Quantities (R175 to R185) -/

/-- θ_d of a directional element (R177). -/
def thetaD (d : DirSet) (i v : Cx) : Num := fwrap (fadd (fsub i.arg v.arg) d.rca)

/-- θ_d lies in the sector of a direction (R177). -/
def inSector (d : DirSet) (th : Num) : Direction → Bool
  | .forward => decide (th.mag ≤ d.halfSector)
  | .reverse => decide (fsub 180 d.halfSector ≤ th.mag)

/-- The encoding of a direction (R208). -/
def Direction.num : Sys2Proof.Direction → Nat
  | .forward => 1 | .reverse => 2

/-- DIR of a current against a polarising voltage: the set direction where θ_d lies in it, else the other, else none (R177, R208). -/
def sector (d : DirSet) (i v : Cx) : Nat :=
  let th := thetaD d i v
  let other : Direction := match d.direction with
    | .forward => .reverse
    | .reverse => .forward
  if inSector d th d.direction then Direction.num d.direction else if inSector d th other then Direction.num other else 0

/-- The memory voltage of a phase, rotated from the positive sequence (R178). -/
def memPhase (acb : Bool) (v1 : Cx) (p : Nat) : Cx :=
  match p, acb with
  | 0, _ => v1
  | 1, false | 2, true => rotA2.mul v1
  | _, _ => rotA.mul v1

/-- The quadrature voltage of phase p rotated by +90° (R177). -/
def quadrature (v : Nat → Cx) (p : Nat) : Cx :=
  let d := (v ((p + 1) % 3)).sub (v ((p + 2) % 3))
  { re := -d.im, im := d.re }

/-- The live polarising voltage of phase or loop `p`: the quadrature voltage of a 67P element, the loop voltage of a 21 (R177, R179). -/
def Ev.livePol (e : Ev) (c : ElemCfg) (p : Nat) : Qx :=
  let v := fun (k : Nat) => e.phase c.vset 1 false (k % 3)
  if c.type = .e67P then { x := quadrature (fun k => (v k).x) p, q := Quality.worse (v (p + 1)).q (v (p + 2)).q }
  else if p < 3 then v p
  else Qx.map2 Cx.sub (v p) (v (p + 1))

/-- The live polarising voltage is valid and below VPOL_MIN (R178). -/
def Ev.polLow (e : Ev) (c : ElemCfg) (d : DirSet) (p : Nat) : Bool :=
  let v := e.livePol c p
  decide (v.q ≠ .invalid) && decide (v.x.mag < d.vpolMin)

/-- The polarising voltage of phase or loop `p`: the live one, or the memory for up to MEM_CYCLES, or none (R178). -/
def Ev.polarise (e : Ev) (c : ElemCfg) (x : ElemLane) (d : DirSet) (p : Nat) (mem : Cx → Cx) : Option Cx :=
  if !e.polLow c d p then some (e.livePol c p).x
  else if nth x.mem.memoryFor p 0 ≤ d.memCycles * e.m then x.mem.memory.map mem
  else none

/-- The 67P quantities: phase magnitude with direction (R177, R178). -/
def Ev.items67P (e : Ev) (c : ElemCfg) (g : ElemSet) (pickup : Num) (x : ElemLane) : List PhaseQ :=
  (List.range 3).map fun p =>
    let i := e.phase c.cset 1 false p
    let dir := match e.polarise c x g.dir p fun v => quadrature (memPhase e.acb v) p with
      | some v => sector g.dir i.x v
      | none => 0
    let q := Quality.worse i.q (e.livePol c p).q
    { item g.timing c.type p (fdiv i.x.mag pickup) q (dir = Direction.num g.dir.direction) with dir := dir }

/-- The 67N quantity: residual or negative sequence with direction; without |Vpol| it has none (R177). -/
def Ev.items67N (e : Ev) (c : ElemCfg) (g : ElemSet) (pickup : Num) : Quantities :=
  let i := if g.dir.polNeg then e.seqPart c.cset (·.x2) else e.residual c.cset c.neutral false
  let v := if g.dir.polNeg then e.seqPart c.vset (·.x2) else e.residual c.vset none false
  let none_ := decide (v.x.mag < g.dir.vpolMin)
  let dir := if none_ then 0 else sector g.dir i.x v.x.neg
  let z := item g.timing c.type 3 (fdiv i.x.mag pickup) (Quality.worse i.q v.q) (none_ || dir = Direction.num g.dir.direction)
  { phases := [{ z with dir := dir }], why := if none_ && !g.dir.nodirNondirectional then .nodir else .none }

def ftan (d : Num) : Num := fdiv (fsin d) (fcos d)
def fcot (d : Num) : Num := fdiv (fcos d) (fsin d)

/-- A loop of a 21 element lies inside the characteristic and the directional limits (R179). -/
def loopInside (d : DistSet) (polMemory : Bool) (v i : Cx) (pol : Option Cx) : Bool :=
  let z := v.div i
  let th := z.arg
  decide (d.dirLow ≤ th ∧ th ≤ d.dirHigh) &&
    (if d.mho then
      match (if polMemory then pol else some v) with
      | some vp => decide (0 ≤ (((i.mul ((expj d.lineAng).scale d.reach)).sub v).mul vp.conj).re)
      | none => false
    else decide (z.im ≤ fsub d.xReach (fmul z.re (ftan d.tilt))) && decide (z.re ≤ fadd d.rReach (fmul z.im (fcot d.lineAng))))

/-- The reaches of a 21 element multiplied by a ratio. -/
def farReach (d : DistSet) (k : Num) : DistSet :=
  { d with reach := fmul k d.reach, xReach := fmul k d.xReach, rReach := fmul k d.rReach }

/-- M of a 21 loop: the multiple of the reaches on whose characteristic its impedance lies, the larger of the two lines of a QUAD. DESIGN
CHOICE: R179 names no M (log entry 57). -/
def loopMultiple (d : DistSet) (polMemory : Bool) (v i : Cx) (pol : Option Cx) : Num :=
  if d.mho then
    let vp := (if polMemory then pol else some v).getD {}
    fdiv (v.mul vp.conj).re ((i.mul ((expj d.lineAng).scale d.reach)).mul vp.conj).re
  else
    let z := v.div i
    max (fdiv (fadd z.im (fmul z.re (ftan d.tilt))) d.xReach) (fdiv (fsub z.re (fmul z.im (fcot d.lineAng))) d.rReach)

/-- The six loops of a 21 element: A, B, C to earth, AB, BC, CA. A loop drops out outside the reaches times DROPOUT_RATIO (R164, R179). -/
def Ev.items21 (e : Ev) (c : ElemCfg) (g : ElemSet) (x : ElemLane) : List PhaseQ :=
  let i := fun (p : Nat) => e.phase c.cset 1 false p
  let i0 := e.residual c.cset c.neutral false
  let k0 : Cx := { re := g.dist.k0re, im := g.dist.k0im }
  let far := farReach g.dist (f32 (g.timing.ratioOf .e21))
  let make := fun (idx : Nat) (il : Qx) (mem : Cx → Cx) (enabled : Bool) =>
    let vl := e.livePol c idx
    let pol := e.polarise c x g.dir idx mem
    let evaluated := enabled && decide (g.dist.iMin ≤ il.x.mag)
    let on := evaluated && loopInside g.dist g.dir.polMemory vl.x il.x pol
    ({ idx := idx, m := if evaluated then loopMultiple g.dist g.dir.polMemory vl.x il.x pol else 0, cond := on
       past := !(evaluated && loopInside far g.dir.polMemory vl.x il.x pol), q := Quality.worse vl.q il.q
       dir := if on then 1 else 0 } : PhaseQ)
  ((List.range 3).map fun p =>
    make p (Qx.map2 (fun a b => a.add (k0.mul b)) (i p) i0) (fun m => memPhase e.acb m p) (decide (g.dist.i0Min ≤ i0.x.mag))) ++
  ((List.range 3).map fun p =>
    let r := (p + 1) % 3
    make (3 + p) (Qx.map2 Cx.sub (i p) (i r)) (fun m => (memPhase e.acb m p).sub (memPhase e.acb m r)) true)

/-- A slope characteristic: the threshold at a restraint. -/
def slope (k1 k2 brk ir : Num) : Num := if ir ≤ brk then fmul k1 ir else fadd (fmul k1 brk) (fmul k2 (fsub ir brk))

/-- The compensated currents of a winding (R181). -/
def Ev.compensate (e : Ev) (w : Winding) (zseq : Bool) (h : Nat) (half : Bool) : List Qx :=
  let ph := fun (p : Nat) => (e.phase w.cset h half p)
  let kw := f32 w.kw
  let a := (ph 0).x.scale kw
  let b := (ph 1).x.scale kw
  let c := (ph 2).x.scale kw
  let q := Quality.worse (Quality.worse (ph 0).q (ph 1).q) (ph 2).q
  let s := seqOf e.acb a b c
  let i1 := s.x1.mul (expj (-30 * (w.clock : Num)))
  let i2 := s.x2.mul (expj (30 * (w.clock : Num)))
  let i0 := if zseq then {} else s.x0
  let p0 := (i0.add i1).add i2
  let p1 := (i0.add (rotA2.mul i1)).add (rotA.mul i2)
  let p2 := (i0.add (rotA.mul i1)).add (rotA2.mul i2)
  [{ x := p0, q := q }, { x := p1, q := q }, { x := p2, q := q }]

/-- The differential and the restraint of phase p over the windings (R181). -/
def Ev.diffOf (e : Ev) (c : ElemCfg) (zseq : Bool) (h : Nat) (half : Bool) (p : Nat) : Qx × Num :=
  let l := c.windings.map fun w => nth (e.compensate w zseq h half) p Qx.none
  (l.foldl (Qx.map2 Cx.add) {}, fmul (1 / 2) (fsum (l.map fun z => z.x.mag)))

/-- The angle by which the compensation of R181 weights input k in output p: its real form has the weight cos of it. -/
def compAngle (acb : Bool) (clock k p : Nat) : Num :=
  if acb then ((120 * (k + p) + 30 * clock : Nat) : Num) else ((120 * ((k : Int) - (p : Int)) - 30 * (clock : Int) : Int) : Num)

/-- The compensated differential of the newest samples of phase p: the real form of the compensation of R181. -/
def Ev.diffSmp (e : Ev) (c : ElemCfg) (zseq : Bool) (p : Nat) : Num × Bool :=
  let one := fun (w : Winding) =>
    let xs := w.cset.map fun ch => fmul (e.smp ch).x (f32 w.kw)
    let zero := if zseq then 0 else fdiv (fsum xs) 3
    fadd zero (fsum ((List.range 3).map fun k => fmul (fmul (f32 (2 / 3)) (fcos (compAngle e.acb w.clock k p))) (nth xs k 0)))
  (fsum (c.windings.map one), c.windings.all fun w => w.cset.all fun ch => (e.smp ch).q ≠ .invalid)

/-- The 87T quantities (R181). -/
def Ev.items87T (e : Ev) (c : ElemCfg) (g : ElemSet) : List PhaseQ :=
  let t := g.trafo
  let id := fun (p : Nat) => e.diffOf c t.zseqElim 1 false p
  let harm := fun (p : Nat) =>
    let d1 := (id p).1.x.mag
    let d2 := (e.diffOf c t.zseqElim 2 false p).1.x.mag
    let d5 := (e.diffOf c t.zseqElim 5 false p).1.x.mag
    decide (0 < d1) && (decide (t.h2 ≤ fdiv d2 d1) || decide (t.h5 ≤ fdiv d5 d1))
  (List.range 3).map fun p =>
    let d := id p
    let limit := max t.idMin (slope t.slope1 t.slope2 t.irBrk d.2)
    let blocked := if t.crossBlock then (List.range 3).any harm else harm p
    let half := e.diffOf c t.zseqElim 1 true p
    let fast := half.1.q ≠ .invalid && decide (t.idUnr ≤ half.1.x.mag)
    let fastPast := decide (half.1.x.mag < fmul (f32 (g.timing.ratioOf .e87T)) t.idUnr)
    let smp := e.diffSmp c t.zseqElim p
    let z := item g.timing c.type p (fdiv d.1.x.mag limit) d.1.q (!blocked)
    { z with cond := z.cond || fast, past := z.past && fastPast, smp := some (smp.1, smp.2, t.idUnr) }

/-- The 87L quantities: the characteristic of R226 on the zone totals (R180, R226). -/
def items87L (g : ElemSet) (x : ZoneQ) : List PhaseQ :=
  let l := g.line
  (List.range 3).map fun p =>
    let d := (nth x.sum p {}).mag
    let ir := fmul (1 / 2) (nth x.restr p 0)
    let low := max (fadd l.idMin x.uncomp) (slope l.k1 l.k2 l.irBrk ir)
    let z := item g.timing .e87L p (max (fdiv d low) (fdiv d l.idUnr)) (if x.bad then .invalid else .good)
    { z with cond := decide (low ≤ d) || decide (l.idUnr ≤ d) }

/-- The voltage quantities of types 27 and 59; phase-to-phase in pu of the phase-to-phase nominal (R182). -/
def Ev.itemsVolt (e : Ev) (c : ElemCfg) (g : ElemSet) (pickup : Num) : Quantities :=
  let v := fun (p : Nat) => e.phase c.vset 1 false p
  let qs := (List.range c.vset.length).map fun p =>
    if g.volt.phaseToPhase && c.vset.length = 3 then
      let d := Qx.map2 Cx.sub (v p) (v ((p + 1) % 3))
      (fdiv d.x.mag (f32sqrt 3), d.q)
    else ((v p).x.mag, (v p).q)
  let dead := c.type == .e27 && g.volt.deadBlock && qs.all fun x => decide (x.2 ≠ .invalid) && decide (x.1 < g.volt.vDead)
  { phases := qs.zipIdx.map fun x => item g.timing c.type x.2 (fdiv x.1.1 pickup) x.1.2, why := if dead then .uv else .none }

/-! ### Measured frequency and other memory (R163, R178, R183 to R185) -/

/-- The voltage set is the Pilot's input and the Pilot is TRACKING (R163). -/
def Ev.pilotFreq (e : Ev) (c : ElemCfg) : Option Num :=
  if c.vset ≠ [] && c.vset = e.s.tideCfg.pilotInput && e.s.tide.pilot.phase = .tracking then some (f32 e.s.tide.pilot.freq) else none

/-- The angle history, the estimates and their average at an evaluation (R163, R183). -/
def Ev.trackFreq (e : Ev) (c : ElemCfg) (g : ElemSet) (m : ElemMem) : ElemMem :=
  let v1 := e.seqPart c.vset (·.x1)
  if v1.q = .invalid then { m with angles := [], estimates := [], averaged := [] } else
    let phi := v1.x.arg
    let angles := phi :: m.angles.take e.m
    if v1.x.mag < g.volt.uvBlock then { m with angles := angles, estimates := [], averaged := [] }
    else match angles[e.m]? with
      | none => { m with angles := angles }
      | some old =>
        let n := g.volt.avgCycles * e.m
        let est := fadd e.freq (fdiv (fwrap (fsub phi old)) (fdiv (fmul 360 e.m) 4800))
        let estimates := (est :: m.estimates).take n
        if estimates.length < n then { m with angles := angles, estimates := estimates }
        else
          let f := (e.pilotFreq c).getD (fdiv (fsum estimates) n)
          { m with angles := angles, estimates := estimates, averaged := (f :: m.averaged).take (g.volt.rocofWindow * e.m + 1) }

/-- The quantity of a frequency element, or why it is blocked (R163, R183). -/
def Ev.itemsFreq (e : Ev) (c : ElemCfg) (g : ElemSet) (pickup : Num) (m : ElemMem) : Quantities :=
  let q := (e.seqPart c.vset (·.x1)).q
  let f := m.averaged.head?
  let v : Option Num := match c.type with
    | .e81R => (m.averaged[g.volt.rocofWindow * e.m]?).map fun old =>
      let r := fdiv (fsub (f.getD 0) old) (fdiv (g.volt.rocofWindow : Num) (f32 e.s.tideCfg.nominalFreq))
      match g.volt.sign with
      | .pos => r
      | .neg => -r
      | .both => r.mag
    | _ => f
  match v with
  | some x => { phases := [item g.timing c.type 3 (fdiv x pickup) q] }
  | none => { phases := [{ idx := 3, q := q }], why := .uv }

/-- The memory voltage: outside a pickup, the positive sequence of 2 cycles before; for each phase or loop the use of it is counted while its
live polarising voltage is low (R178). -/
def Ev.trackMemory (e : Ev) (c : ElemCfg) (g : ElemSet) (x : ElemLane) : ElemMem :=
  let v1 := e.seqPart c.vset (·.x1)
  let hist := ((if v1.q = .invalid then none else some v1.x) :: x.mem.v1hist).take (2 * e.m + 1)
  { x.mem with
    v1hist := hist
    memory := if x.pickup then x.mem.memory else nth hist (2 * e.m) none
    memoryFor := (List.range 6).map fun p =>
      let n := nth x.mem.memoryFor p 0
      if e.polLow c g.dir p then n + 1 else if (e.livePol c p).q = .invalid then n else 0 }

/-- The current detector of a 50BF element: evaluations since each phase had a sample at the level (R184). -/
def Ev.trackCurrent (e : Ev) (c : ElemCfg) (g : ElemSet) (m : ElemMem) : ElemMem :=
  { m with
    sinceCurrent := (List.range 3).map fun p =>
      let hit := (c.cset[p]?).any fun ch =>
        decide ((e.smp ch).q ≠ .invalid) && decide (fmul (f32sqrt 2) g.bf.iBf ≤ (e.smp ch).x.mag)
      if hit then some 0 else (nth m.sinceCurrent p none).map (· + 1) }

/-- dTheta of a 25 element (R185). -/
def Ev.trackAngle (e : Ev) (c : ElemCfg) (m : ElemMem) : ElemMem :=
  let a := e.phase c.vset 1 false 0
  let b := e.phase c.bset 1 false 0
  if a.q = .invalid || b.q = .invalid then { m with dthetas := [] }
  else { m with dthetas := (fwrap (fsub a.x.arg b.x.arg) :: m.dthetas).take (e.m + 1) }

/-- The synchronous condition of a 25 element and its enabled dead modes DL_LB, LL_DB and DL_DB (R185). -/
def Ev.permits (e : Ev) (c : ElemCfg) (t : SyncSet) (m : ElemMem) : List Bool :=
  let a := (e.phase c.vset 1 false 0).x.mag
  let b := (e.phase c.bset 1 false 0).x.mag
  let normal := match m.dthetas, m.dthetas[e.m]? with
    | d :: _, some old =>
      let df := fdiv (fsub d old) (fdiv (fmul 360 e.m) 4800)
      let pred := fadd d (fmul (fmul 360 df) (f32 ((t.tCb : Num) / 1000000000)))
      decide ((fsub a b).mag ≤ t.dvMax ∧ df.mag ≤ t.dfMax ∧ d.mag ≤ t.dangMax ∧ pred.mag ≤ t.dangMax)
    | _, _ => false
  let dead := fun (v : Num) => decide (v < t.deadLevel)
  let live := fun (v : Num) => decide (t.liveLevel < v)
  [normal, t.dlLb && dead a && live b, t.llDb && live a && dead b, t.dlDb && dead a && dead b]

/-! ### Elements with a course of their own (R184 to R186) -/

/-- A start source asserts, as it stood before the present strobe (R184). -/
def State.startOn (s : State) : StartSource → Bool
  | .trip k => s.prot.trips.any fun t => t.index == k && t.was
  | .operate e => s.prot.elems.any fun x => x.index == e && x.wasOperate

/-- A field input reads closed, that is 1. -/
def State.inputOn (s : State) (ch : Option Nat) : Bool := ch.any fun n => (s.fioCh n).level

/-- Evaluations for which something has lasted. -/
def lasting (on : Bool) (run : Option Nat) : Option Nat := if on then some ((run.map (· + 1)).getD 0) else none

/-- 50BF: while started with current present, T1 gives AUX and T2 the operate (R184). -/
def Ev.breakerFailure (e : Ev) (c : ElemCfg) (g : ElemSet) (input : Bool) (x : ElemLane) : ElemLane :=
  let recent := fun (p : Nat) => (nth x.mem.sinceCurrent p none).any fun n => decide ((n : Num) * e.freq * 10 ≤ 6 * e.hz)
  let present := (List.range 3).any recent || e.s.inputOn c.cbAux
  let on := present && c.starts.any e.s.startOn
  let x := { x with
    m := (c.cset.map fun ch => fdiv (e.smp ch).x.mag (fmul (f32sqrt 2) g.bf.iBf)).foldl max 0
    invalid := c.cset.any fun ch => decide ((e.smp ch).q = Quality.invalid), questionable := c.cset.any fun ch => decide ((e.smp ch).q = Quality.questionable) }
  if input then x.block .blockInput g.blockMode else
    let run := lasting on x.run
    let d := definite e.hz g.bf.t2 (run.getD 0)
    { x with
      run := run, pickup := on, operate := on && d.1, aux := on && (definite e.hz g.bf.t1 (run.getD 0)).1
      progress := if on then d.2 else 0, dir := 0
      phases := (List.range 6).map fun p => { on := decide (p < 3) && on && recent p } }

/-- 25: the permit holds once one of its conditions has held for T_SYNC (R185). -/
def Ev.syncCheck (e : Ev) (c : ElemCfg) (g : ElemSet) (input : Bool) (x : ElemLane) : ElemLane :=
  let a := e.phase c.vset 1 false 0
  let b := e.phase c.bset 1 false 0
  let bad := decide (a.q = Quality.invalid) || decide (b.q = Quality.invalid)
  let x := { x with invalid := bad, questionable := !bad && (decide (a.q = Quality.questionable) || decide (b.q = Quality.questionable)) }
  match blockOf input bad .none g.blockMode with
  | some k => x.block k.1 k.2
  | none =>
    let runs := (e.permits c g.sync x.mem).zipIdx.map fun (y : Bool × Nat) => lasting y.1 (nth x.mem.syncRuns y.2 none)
    let on := runs.any Option.isSome
    let done : List (Bool × Num) := runs.map fun (r : Option Nat) => r.elim ((false, 0) : Bool × Num) (definite e.hz g.sync.tSync)
    { x with
      mem := { x.mem with syncRuns := runs }, pickup := on, operate := done.any (·.1), progress := (done.map (·.2)).foldl max 0
      m := if on then 1 else 0 }

/-- The reclose sequence moves to a phase and its timer restarts. -/
def ElemMem.goto_ (m : ElemMem) (p : ReclosePhase) : ElemMem := { m with reclose := p, recloseRun := 0 }

/-- The next shot after a trip has fallen, or LOCKOUT after the last (R186). -/
def ElemMem.nextShot (m : ElemMem) (r : RecloseSet) : ElemMem :=
  if m.shot < r.shots.length then { m.goto_ .dead with shot := m.shot + 1 } else m.goto_ .lockout

/-- The trip output of a 79 element asserts. -/
def Ev.tripNow (e : Ev) (c : ElemCfg) : Bool := c.trip.any fun k => e.s.startOn (.trip k)

/-- One evaluation of the reclose sequence (R186). -/
def Ev.recloseStep (e : Ev) (c : ElemCfg) (r : RecloseSet) (reset : Bool) (m : ElemMem) : ElemMem :=
  let trip := e.tripNow c
  let fell := m.tripWas && !trip && e.s.inputOn c.cbAux
  let rose := !m.tripWas && trip
  let last := decide (r.shots.length ≤ m.shot)
  let shot := nth r.shots (m.shot - 1) { dead := 0 }
  let m := { m with tripWas := trip, recloseRun := m.recloseRun + 1 }
  let reached := fun (t : Ns) => decide (evals e.hz t ≤ m.recloseRun)
  match m.reclose with
  | .idle => if fell && decide (0 < r.shots.length) then { m.goto_ .dead with shot := 1 } else { m with recloseRun := 0, shot := 0 }
  | .dead => if reached shot.dead then m.goto_ (if shot.needSync then .waitSync else .closing) else m
  | .waitSync =>
    if c.sync.any fun k => e.s.startOn (.operate k) then m.goto_ .closing
    else if reached r.syncWait then m.goto_ .lockout else m
  | .closing =>
    if rose && last then m.goto_ .lockout
    else if fell then m.nextShot r
    else if reached (msec 100) then m.goto_ .reclaim else m
  | .reclaim =>
    if rose && last then m.goto_ .lockout
    else if fell then m.nextShot r
    else if !trip && reached r.reclaim then { m.goto_ .idle with shot := 0 } else m
  | .lockout => if reset then { m.goto_ .idle with shot := 0 } else m

/-- LOCKOUT clears at the reset input, whether the element is enabled or not (R186). -/
def ElemMem.unlock (m : ElemMem) (reset : Bool) : ElemMem := if reset && decide (m.reclose = .lockout) then { m.goto_ .idle with shot := 0 } else m

/-- 79: the close request lasts 100 ms; AUX shows LOCKOUT; while ENABLE is OFF the outputs are zero (R186). -/
def Ev.reclose (e : Ev) (c : ElemCfg) (g : ElemSet) (input reset : Bool) (x : ElemLane) : ElemLane :=
  let idle := { x with mem := { x.mem.unlock reset with tripWas := e.tripNow c } }
  if !g.reclose.enable then
    { idle with mem := idle.mem.restart, pickup := false, operate := false, aux := false, m := 0 }
  else if input then idle.block .blockInput g.blockMode
  else
    let m := e.recloseStep c g.reclose reset x.mem
    { x with
      mem := m, operate := m.reclose = .closing, aux := m.reclose = .lockout
      pickup := m.reclose ≠ .idle && m.reclose ≠ .lockout, m := (m.shot : Num) }

/-! ### Blocking and the evaluation (R166 to R169) -/

/-- What a forming unit published in its last control cycle, as PROT latched it at this fast-lane period (R31, R251). -/
def State.unitSignal (s : State) (u : Nat) (k : UnitSignal) : Bool :=
  (s.prot.units.find? (·.1 == u)).any fun x => match k with
    | .limiting => x.2.limiting
    | .forming => x.2.forming
    | .faultMode => x.2.faultMode

/-- A member of a subscription as PROT sees it: its value, or its FALLBACK while it is INVALID (R450). -/
def State.gooseBit (s : State) (sub member : Nat) : Bool :=
  let v := (s.net.gsubs.find? (·.sub == sub)).bind fun g => if g.valid then g.values[member]? else none
  let fallback := (((s.manifest.net.gooseSubs.find? (·.sub == sub)).bind (·.members[member]?)).map (·.fallback)).getD 0
  match v with
  | some x => if x.quality = .invalid then fallback ≠ 0 else x.value ≠ 0
  | none => fallback ≠ 0

/-- A zone is HEALTHY (R227). -/
def State.zoneHealthy (s : State) (z : Nat) : Bool := (s.diff.zones[z]?).any fun x => x.phase = .healthy

/-- The source of a block input; another element's output is the one before the present strobe (R166). -/
def State.blockOn (s : State) : BlockSource → Bool
  | .field ch => s.inputOn (some ch)
  | .goose sub member => s.gooseBit sub member
  | .logic e => s.prot.elems.any fun x => x.index == e && x.logicBlock
  | .pickup e => s.prot.elems.any fun x => x.index == e && x.wasPickup
  | .operate e => s.prot.elems.any fun x => x.index == e && x.wasOperate
  | .formUnit u k => s.unitSignal u k
  | .zoneHealthy z => s.zoneHealthy z

/-- A block input holds (R166). -/
def State.blockedBy (s : State) (l : List BlockInput) : Bool := l.any fun b => s.blockOn b.source ≠ b.invert

/-- The quantities of the types that are evaluated phase by phase. -/
def Ev.items (e : Ev) (c : ElemCfg) (g : ElemSet) (pickup : Num) (x : ElemLane) : Quantities :=
  let t := g.timing
  let phases := fun (half : Bool) => (List.range c.cset.length).map fun p =>
    let i := e.phase c.cset 1 half p
    let y := e.smp (nth c.cset p (.ain 0))
    { item t c.type p (fdiv i.x.mag pickup) i.q with smp := if half then some (y.x, y.q ≠ .invalid, pickup) else none }
  let single := fun (i : Qx) => item t c.type 3 (fdiv i.x.mag pickup) i.q
  match c.type with
  | .e50P => { phases := phases true }
  | .e51P => { phases := phases false }
  | .e50N =>
    let y := e.residualSmp c.cset c.neutral
    { phases := [{ single (e.residual c.cset c.neutral true) with smp := some (y.1, y.2, pickup) }] }
  | .e51N => { phases := [single (e.residual c.cset c.neutral false)] }
  | .e46 => { phases := [single (e.seqPart c.cset (·.x2))] }
  | .e67P => { phases := e.items67P c g pickup x }
  | .e67N => e.items67N c g pickup
  | .e21 => { phases := e.items21 c g x }
  | .e87T => { phases := e.items87T c g }
  | .e87L => match e.zone with
    | some x => { phases := items87L g x }
    | none => { phases := [], why := .zone }
  | .e27 | .e59 => e.itemsVolt c g pickup
  | .e59N => { phases := [single (e.residual c.vset c.neutral false)] }
  | .e81O | .e81U | .e81R => e.itemsFreq c g pickup x.mem
  | .e50BF | .e25 | .e79 => { phases := [] }

/-- What an element keeps between evaluations follows its input, blocked or not (R163, R178, R184, R185). -/
def Ev.track (e : Ev) (c : ElemCfg) (g : ElemSet) (x : ElemLane) : ElemMem :=
  match c.type with
  | .e81O | .e81U | .e81R => e.trackFreq c g x.mem
  | .e67P | .e21 => e.trackMemory c g x
  | .e50BF => e.trackCurrent c g x.mem
  | .e25 => e.trackAngle c x.mem
  | _ => x.mem

/-- The rate at which an element is evaluated: an 87L element once per sum interval (R156, R180). -/
def Ev.evalHz (e : Ev) (c : ElemCfg) : Nat := if c.type = .e87L then 1200 else e.hz

/-- The settings of an element in a group, in binary32 (R155, R187). -/
def ElemCfg.setOf (c : Sys2Proof.ElemCfg) (grp : Nat) : ElemSet := (nth c.groups grp {}).single

/-- PICKUP_LIM is in use: it is set, and the named unit's latched limiter state is LIMITING (R169). -/
def Ev.limAdapt (e : Ev) (c : ElemCfg) (g : ElemSet) : Bool := g.timing.pickupLim.isSome && c.limUnit.any fun u => e.s.unitSignal u .limiting

/-- One evaluation of an element on a lane under the settings of the active group (R164 to R169, R187). -/
def Ev.evaluate (e : Ev) (c : ElemCfg) (y : Elem) (x : ElemLane) : ElemLane :=
  let grp := e.s.prot.group
  if !nth c.sgMask grp false then {} else
    let g := ElemCfg.setOf c grp
    let lim := e.limAdapt c g
    let pickup := if lim then g.timing.pickupLim.getD g.timing.pickup else g.timing.pickup
    let x := if lim = x.limAdapt then x else { x with phases := x.phases.map fun p => { p with puRun := 0 } }
    let x := { x with mem := e.track c g x, limAdapt := lim, blocked := false, cause := .none, invalid := false, questionable := false }
    let input := e.s.blockedBy g.blocks
    match c.type with
    | .e50BF => e.breakerFailure c g input x
    | .e25 => e.syncCheck c g input x
    | .e79 => e.reclose c g input y.lockoutReset x
    | _ =>
      x.finish { t := g.timing, type := c.type, hz := e.evalHz c, f := e.freq, tables := e.tables } (g.volt.allOf c.type && c.type.isVolt) input
        g.blockMode (e.items c g pickup x)

end Sys2Proof.Machine
end

