-- ==== Sys2Proof/Machine/CaptFeed.lean ====
section
/-! DEFINITION. What a released sample set brings to the capture engines: rows, quality records, LEVEL and ROC conditions, analog sources (spec/11_capture.md R377 to R382). -/

namespace Sys2Proof.Machine

open Sys2Proof

/-- The sample that a row stores (R377). -/
def storedSample (c : CaptChan) (x : Sample) : BitVec 24 :=
  if x.absent then 0x800000 else match c.src with
    | .ain _ => BitVec.ofInt 24 (x.code / 256)
    | .sv _ =>
      let v := x.code / (2 ^ c.shift : Int)
      if 2 ^ 23 ≤ v then 0x7FFFFF else if v < -(2 ^ 23) then 0x800001 else BitVec.ofInt 24 v

/-- Validity and flags of a sample as a QUALITY record shows them (R379). -/
def qualityOf (x : Sample) : Nat × Nat :=
  ((match x.q with | .good => 0 | .questionable => 1 | .invalid => 2),
    b2n x.det.overflow + 2 * b2n x.det.inaccurate + 4 * b2n x.det.unsync + 8 * b2n x.det.failure)

def SampleSet.at_ (r : SampleSet) (c : ChanRef) : Sample := ((r.samples.find? (·.1 == c)).map (·.2)).getD { time := r.time, det := { failure := true }, absent := true }

/-- The lane from which phasor quantities are read: A, or B while A is OUT (R200, R382). -/
def State.readLane (s : State) : LaneId := if s.prot.laneA.phase = .out then .b else .a

/-- The full-cycle phasor of a channel on the phasor lane, `back` samples before the newest (R382). -/
def State.rms (s : State) (c : ChanRef) (back : Nat) : Qx :=
  phasorOf 4800 1 false (((Ev.mk s s.readLane .phasor none).ring c).drop back)

/-- A LEVEL or ROC condition of an engine of rate `own` at this release: it holds, or has been crossed back; `none` when it is not
evaluated here: samples at the engine's rate, phasors on the phasor lane (R382). -/
def State.condNow (s : State) (own rate : LaneRate) (r : SampleSet) : CaptCond → Option (Bool × Bool)
  | .level c rms over_ level hyst =>
    if rate ≠ (if rms then .phasor else own) then none else
      let v := if rms then (s.rms c 0).x.mag else (r.at_ c).x.mag
      let ok := if rms then decide ((s.rms c 0).q ≠ .invalid) else decide ((r.at_ c).q ≠ .invalid)
      if !ok then none
      else if over_ then some (decide (level < v), decide (v < level - hyst * level))
      else some (decide (v < level), decide (level + hyst * level < v))
  | .roc c rate_ window sign =>
    if rate = .fast then none else
      let m := (roundInt (4800 / s.tideCfg.nominalFreq)).toNat
      let a := s.rms c 0
      let b := s.rms c (window * m)
      if a.q = .invalid || b.q = .invalid then none else
        let d := a.x.mag - b.x.mag
        let v := match sign with
          | .pos => d
          | .neg => -d
          | .both => d.mag
        let on := decide (rate_ * (window : Num) < v)
        some (on, !on)
  | _ => none

/-- The conditions of an engine at a release, followed in every state of the engine: one that already holds at arming is first met after
it has cleared and holds again (R382). -/
def State.captConds (s : State) (ei : Nat) (rate : LaneRate) (r : SampleSet) : State :=
  s.forEach (s.engine ei).cfg.conds.zipIdx fun s x =>
    match s.condNow (s.engine ei).cfg.rate rate r x.1 with
    | none => s
    | some (on, off) =>
      let held := (s.engine ei).holding.contains x.2
      if on && !held then
        (s.onEngine ei fun e => { e with holding := x.2 :: e.holding }).captMet ei x.2 r.time
      else if off && held then s.onEngine ei fun e => { e with holding := e.holding.filter (· != x.2) }
      else s

/-- The value of an analog source (R380). -/
def State.analog (s : State) : AnaKind → Num
  | .mag c => (s.rms c 0).x.mag
  | .ang c => (s.rms c 0).x.arg
  | .tideFreq => f32 s.tide.freq
  | .pilotFreq => f32 s.tide.pilot.freq
  | .unitP u => ((s.fu? u).map (·.rotor.pf)).getD 0
  | .unitQ u => ((s.fu? u).map (·.rotor.qf)).getD 0
  | .unitF u => ((s.fu? u).map (·.rotor.f)).getD 0
  | .unitState u => (((s.fu? u).map (·.phase.num)).getD 0 : Nat)
  | .lplus g => ((s.fioGroup g).lplusMv : Num) / 1000
  | .vdc b => (nth s.form.bridges b {}).vdc

/-- An analog source is sampled: a record on a change of DEADBAND or after MAX_INTERVAL (R380). -/
def State.captAnalog (s : State) (ei t : Nat) : State :=
  s.forEach (s.engine ei).cfg.analog.zipIdx fun s x =>
    let v := s.analog x.1.kind
    let last := (s.engine ei).lastAna[x.2]?
    let due := match last with
      | none => true
      | some (w, at_) => decide (x.1.deadband ≤ (v - w).mag) || (decide (x.1.maxInterval ≠ 0) && s.passed at_ x.1.maxInterval)
    if !due then s else
      (s.captPut ei { tag := s.tagOf (s.engine ei) t, type := .analog, source := x.2, lo := f32bits v }).onEngine ei fun e =>
        { e with lastAna := if x.2 < e.lastAna.length then updAt e.lastAna x.2 fun _ => (v, s.now) else e.lastAna ++ [(v, s.now)] }

/-- A release of the engine's rate: its row, the changes of quality, the LEVEL and ROC conditions; analog sources are sampled
once per phasor-lane period (R377, R379, R380, R382). -/
def State.captRelease (s : State) (rate : LaneRate) (r : SampleSet) : State :=
  s.forEach (List.range 4) fun s ei =>
    let e := s.engine ei
    if !e.created then s else
      let s := if e.cfg.rate ≠ rate then s else
        let s := s.forEach e.cfg.chans.zipIdx fun s x =>
          let q := qualityOf (r.at_ x.1.src)
          let old := nth (s.engine ei).lastQ x.2 (0, 0)
          let s := if q = old then s else
            s.captPut ei { tag := s.tagOf e r.time, type := .quality, source := x.2, lo := fld 0 q.1 ||| fld 2 q.2 }
          s.onEngine ei fun e => { e with lastQ := if x.2 < e.lastQ.length then updAt e.lastQ x.2 fun _ => q else e.lastQ ++ [q] }
        s.captRow ei r.time (e.cfg.chans.map fun c => storedSample c (r.at_ c.src))
      let s := s.captConds ei rate r
      if rate = .phasor then s.captAnalog ei r.time else s

end Sys2Proof.Machine
end

