-- ==== Sys2Proof/Machine/ChkOps.lean ====
section
/-! DEFINITION. Alive counters and failed paths (spec/14_check_values.md R467 to R472). -/

namespace Sys2Proof.Machine

open Sys2Proof

/-- A check fails on path `i` (R467). -/
def State.pathFail (s : State) (i : Nat) : State := s.onChk fun c => { c with pathFail := updAt c.pathFail i (satInc 32) }

/-- How a frame stands to the last accepted one (R469, R471). -/
inductive AliveResult where
  | repeat_
  | next
  | skip (missed : Nat)
  | stale
  | resync (old : Nat)
deriving DecidableEq, Repr, Inhabited

/-- The frame is accepted. -/
def AliveResult.accepted : AliveResult → Bool
  | .next | .skip _ | .resync _ => true
  | .repeat_ | .stale => false

/-- The alive test: `w` bits, MAX_SKIP, and whether the path resynchronises; the first frame after a start point is accepted (R469 to R471). -/
def AliveRx.test (r : AliveRx) (w maxSkip : Nat) (resync : Bool) (a : Nat) : AliveResult × AliveRx :=
  match r.last with
  | none => (.next, { last := some a })
  | some l =>
    let d := (a + 2 ^ w - l % 2 ^ w) % 2 ^ w
    if d = 0 then (.repeat_, { r with staleRun := 0 })
    else if d = 1 then (.next, { last := some a })
    else if d ≤ maxSkip then (.skip (d - 1), { last := some a })
    else if resync && decide (2 ≤ r.staleRun) && decide (a = wrapInc w r.staleLast) then (.resync l, { last := some a })
    else (.stale, { r with staleLast := a, staleRun := r.staleRun + 1 })

/-- What CHK counts of a result, and the record of a resynchronisation, with the path and the old and new A_last (R471, R472). -/
def State.countAlive (s : State) (path a : Nat) : AliveResult → State
  | .repeat_ | .next => s
  | .skip k => (s.onChk fun c => { c with skip := satAdd 32 c.skip k }).raise .chk 1
  | .stale => (s.onChk fun c => { c with stale := satInc 32 c.stale }).raise .chk 2
  | .resync old => ((s.onChk fun c => { c with resync := satInc 16 c.resync }).raise .chk 0).report .chkResync 0xFFFF [path, old, a]

end Sys2Proof.Machine
end

