-- ==== Sys2Proof/Machine/ProtOps.lean ====
section
/-! DEFINITION. Operations of PROT around the elements: lanes and their combination, trip outputs, setting groups, the status vector, the registers (spec/05_protection_engine.md R187 to R208; spec/01_architecture_and_profiles.md R18 to R31). -/

namespace Sys2Proof

/-- The channels whose samples enter an element. -/
def ElemCfg.channels (c : ElemCfg) : List ChanRef :=
  c.cset ++ c.vset ++ c.bset ++ c.neutral.toList ++ c.windings.flatMap (·.cset)

/-- PROT_TRIP_CFG of a created trip output (R206). -/
def TripCfg.word (c : TripCfg) : Word :=
  fld 0 c.channel ||| fld 8 c.gang.num ||| flag 10 c.maskGrant ||| flag 11 true ||| fld 12 (c.sealTime / 1000000 % 512)

end Sys2Proof

namespace Sys2Proof.Machine

open Sys2Proof

def State.protCfg (s : State) : ProtCfg := s.manifest.prot
def State.elemCfg? (s : State) (e : Nat) : Option ElemCfg := s.protCfg.elements.find? (·.index == e)
def State.elem? (s : State) (e : Nat) : Option Elem := s.prot.elems.find? (·.index == e)
def State.onElem (s : State) (e : Nat) (f : Elem → Elem) : State :=
  s.onProt fun p => { p with elems := p.elems.map fun x => if x.index == e then f x else x }
def State.trip? (s : State) (k : Nat) : Option Trip := s.prot.trips.find? (·.index == k)
def State.onTrip (s : State) (k : Nat) (f : Trip → Trip) : State :=
  s.onProt fun p => { p with trips := p.trips.map fun x => if x.index == k then f x else x }
def State.onLane (s : State) (l : LaneId) (f : Lane → Lane) : State := s.onProt fun p => p.setLane l (f (p.lane l))

/-- The number of a lane (R200). -/
def laneNum : LaneId → Nat
  | .a => 0 | .b => 1

/-- Whether the combined outputs of an element changed is told to the capture engines and to LOGIC (R380, R382, R340). -/
def State.elemChanged (s : State) (e t : Nat) (pu op pu' op' : Bool) : State :=
  let s := s.when (pu ≠ pu') fun s => s.captDigital (.pickup e) pu' t
  let s := s.when (op ≠ op') fun s => s.captDigital (.operate e) op' t
  let s := s.when (!pu && pu') fun s => s.captMetAll t fun c => c == .pickup e
  s.when (!op && op') fun s => (s.captMetAll t fun c => c == .operate e).fire fun x => x == .operate e

/-- The combined outputs of every element are about to be zero (R193, R199, R380). -/
def State.elemsOff (s : State) (l : List Elem) : State := s.forEach l fun s e => s.elemChanged e.index s.ltc e.pickup e.operate false false

/-! ### Lanes (R18, R191 to R194) -/

/-- A lane goes OUT; with both OUT every combined output is zero (R192, R193). -/
def State.laneOut (s : State) (l : LaneId) (c : OutCause) : State :=
  if (s.prot.lane l).phase = .out then s else
    let s := s.onLane l fun x => { x with phase := .out, outCause := c, katRunning := false }
    let s := s.onProt fun p => { p with elems := p.elems.map fun e => { e with disagree := false } }
    let s := (s.raise .prot 1).report .laneOut (laneNum l) [c.num]
    if s.prot.noLane then
      let s := (s.elemsOff s.prot.elems).onProt fun p => { p with elems := p.elems.map fun e => { e with pickup := false, operate := false } }
      (s.raise .prot 10).report .protNoLane
    else s

/-- The known-answer test starts on a lane (R192). -/
def State.startKat (s : State) (l : LaneId) : State := s.onLane l fun x => { x with katRunning := true }

/-- An unexplained disagreement: both lanes SUSPECT, the known-answer test started on both (R192). -/
def State.suspect (s : State) (e : Nat) : State :=
  if s.prot.laneA.phase = .in_ && s.prot.laneB.phase = .in_ then
    let s := (s.onLane .a fun x => { x with phase := .suspect }).onLane .b fun x => { x with phase := .suspect }
    ((s.startKat .a).startKat .b).report .laneSuspect 0xFFFF [e]
  else s

/-- Samples that a lane keeps per channel: enough for the longest window of the fast lane, and for ROC conditions of 50 cycles
on the phasor lane. -/
def ringLen : LaneRate → Nat
  | .fast => 400
  | .phasor => 6300

/-- A sample enters a ring, and the window sums follow (R160). -/
def Ring.put (g : Ring) (rate : LaneRate) (y : Sample) : Ring :=
  match rate with
  | .fast =>
    let l := (y :: g.fast).take (ringLen .fast)
    let w := fun (k : WinSum) h half => k.push 14400 h half l
    { g with fast := l, full := w g.full 1 false, half := w g.half 1 true, h2 := w g.h2 2 false, h5 := w g.h5 5 false }
  | .phasor =>
    let l := (y :: g.phasor).take (ringLen .phasor)
    { g with phasor := l, slow := g.slow.push 4800 1 false l }

/-- A sample set enters the rings of a lane; a sample with a bad CRC-16 is INVALID there (R18, R160). -/
def Lane.push (x : Lane) (r : SampleSet) (bad : List ChanRef) : Lane :=
  { x with
    rings := r.samples.foldl (fun gs y =>
      let z := if bad.contains y.1 then { y.2 with q := .invalid } else y.2
      if gs.any (·.chan == y.1) then gs.map fun g => if g.chan == y.1 then g.put r.lane z else g
      else gs ++ [Ring.put { chan := y.1 } r.lane z]) x.rings }

/-- x of R159 in binary32: the sample code times K_pu, or the SV value in pu (R122, R155). -/
def State.laneValue (s : State) (c : ChanRef) (y : Sample) : Sample :=
  match c with
  | .ain n => { y with x := ((s.ain? n).map fun a => fmul (f32 y.code) (f32 a.kpu)).getD (f32 y.x) }
  | .sv _ => { y with x := f32 y.x }

/-- Intake of a sample set by one lane: copies that fail are counted; 16 consecutive fast-lane periods put the lane OUT (R18, R192, R467). -/
def State.laneIntake (s : State) (l : LaneId) (r : SampleSet) (bad : List ChanRef) : State :=
  let out := (s.prot.lane l).phase = .out
  let bad := (r.samples.map (·.1)).filter bad.contains
  let r := { r with samples := r.samples.map fun y => (y.1, s.laneValue y.1 y.2) }
  let s := s.onLane l fun x => x.push r bad
  let s := s.when (!bad.isEmpty) fun s =>
    (s.forEach bad fun s _ => (s.onLane l fun x => { x with sampleBad := satInc 32 x.sampleBad }).pathFail 8).raise .prot 7
  if r.lane = .fast && s.prot.ready && !out then
    let s := s.onLane l fun x => { x with sampleBadRun := if bad.isEmpty then 0 else x.sampleBadRun + 1 }
    if 16 ≤ (s.prot.lane l).sampleBadRun then s.laneOut l .samplebad else s
  else s

/-- A lane misses its limit, or keeps it (R157, R192). -/
def State.laneDeadline (s : State) (rate : LaneRate) (l : LaneId) (miss : Bool) : State :=
  if (s.prot.lane l).phase = .out then s else
    let next := fun (n : Nat) => if miss then n + 1 else 0
    let s := s.onLane l fun x => match rate with
      | .fast => { x with deadlineMiss := miss, missRun := next x.missRun }
      | .phasor => { x with deadlineMiss := miss, missRunP := next x.missRunP }
    if !miss then s else
      let s := (s.raise .prot 9).report .protDeadlineMiss (laneNum l)
      let x := s.prot.lane l
      if 2 ≤ (match rate with | .fast => x.missRun | .phasor => x.missRunP) then s.laneOut l .deadline else s

/-! ### Evaluation and combination (R21, R155, R191, R193) -/

/-- An element starts again from the reset state, its outputs zero; the LOGIC requests to it stand. -/
def Elem.restart (e : Elem) (off : Bool) : Elem :=
  { e with a := {}, b := {}, pickup := false, operate := false, wasPickup := false, wasOperate := false, essOff := off }

/-- The settings of the active group. -/
def State.activeSet (s : State) (c : ElemCfg) : ElemSet := nth c.groups s.prot.group {}

/-- A fast-lane period starts: PROT latches what the forming units have published, and elements and trip outputs are seen by other elements as
they stand now (R31, R166). -/
def State.latchOutputs (s : State) : State :=
  s.onProt fun p =>
    { p with
      units := s.form.units.map fun u => (u.cfg.unit, u.pub)
      elems := p.elems.map fun e => { e with wasPickup := e.pickup, wasOperate := e.operate }
      trips := p.trips.map fun t => { t with was := t.trip } }

/-- An element is evaluated at a release of its lane rate; in DEGRADED only an essential one is (R156, R199). -/
def State.isEvaluated (s : State) (c : ElemCfg) (rate : LaneRate) : Bool :=
  decide (c.type.rate = rate) && (!s.prot.essentialOnly || c.essential)

/-- The combined outcome of R21 for pickup or operate. -/
def combine (p : Policy) (loss : LaneLoss) (aOut bOut a b : Bool) : Bool :=
  if aOut && bOut then false
  else if aOut then b && (p = .dependability || loss = .single)
  else if bOut then a && (p = .dependability || loss = .single)
  else match p with
    | .dependability => a || b
    | .security => a && b

/-- Samples in the window of an element that ends at a sample: half a cycle for 50P and 50N, 0.6 cycle for 50BF, else a full cycle (R159,
R175, R184, R191). -/
def ElemCfg.window (c : Sys2Proof.ElemCfg) (y : Sample) : Nat :=
  let hz := c.type.rate.hz
  match c.type with
  | .e50P | .e50N => winWidth hz true y
  | .e50BF => if y.freq = 0 then 0 else ((6 : Num) / 10 * hz / y.freq).floor.toNat + 1
  | _ => winWidth hz false y

/-- In the element's window, a lane holds a sample INVALID that the other lane does not (R18, R191). -/
def State.sampleBadIn (s : State) (c : ElemCfg) : Bool :=
  let rate := c.type.rate
  let qs := fun (l : LaneId) (ch : ChanRef) =>
    let ys := (Ev.mk s l rate none).ring ch
    (ys.take ((ys.head?.map (ElemCfg.window c)).getD 0)).map fun y => decide (y.q = Quality.invalid)
  c.channels.any fun ch => qs .a ch ≠ qs .b ch

/-- A mismatch of the two lanes on an element (R191, R192). -/
def State.disagree (s : State) (c : ElemCfg) (a b : ElemLane) : State :=
  let bad := s.sampleBadIn c
  let fresh := ((s.elem? c.index).bind (·.episode)).isNone
  let s := s.onProt fun p => { p with disagreeCount := satInc 16 p.disagreeCount, disagreeElem := c.index }
  let s := (s.onElem c.index fun e => { e with disagree := true, episode := some s.now }).raise .prot 0
  let s := s.when fresh fun s => s.report .laneDisagree c.index
    [c.index, b2n a.pickup, b2n a.operate, b2n b.pickup, b2n b.operate, b2n (!bad)]
  if bad then s else s.suspect c.index

/-- The result of an element on a lane for this period (R155, R157). -/
def State.laneResult (s0 : State) (c : ElemCfg) (rate : LaneRate) (l : LaneId) (zone : Option ZoneQ)
    (ups : List Upset) (e : Elem) : ElemLane :=
  let x := (Ev.mk s0 l rate zone).evaluate c e (e.on l)
  match ups.find? fun u => u.lane == l && u.elem == c.index with
  | some u => { x with pickup := u.pickup, operate := u.operate }
  | none => x

/-- Stages 3 and 4 for one element: both lanes evaluate against the state at the start of stage 3, are compared, and are
combined (R21, R155, R157, R191). -/
def State.evalElem (s0 : State) (rate : LaneRate) (t : Nat) (missA missB : Bool) (ups : List Upset)
    (zone : LaneId → Option ZoneQ) (s : State) (c : ElemCfg) : State :=
  match s0.elem? c.index with
  | none => s
  | some e =>
    let aOut := s.prot.laneA.phase = .out
    let bOut := s.prot.laneB.phase = .out
    let a := if aOut then e.a else s0.laneResult c rate .a (zone .a) ups e
    let b := if bOut then e.b else s0.laneResult c rate .b (zone .b) ups e
    let forced := ups.any fun u => u.elem == c.index
    let compared := !aOut && !bOut && !missA && !missB
    let differ := compared && (decide (a ≠ b) || forced)
    let off := fun (miss v : Bool) => v && !miss
    let g := s0.activeSet c
    let pu := combine g.policy g.laneLoss aOut bOut (off missA a.pickup) (off missB b.pickup)
    let op := combine g.policy g.laneLoss aOut bOut (off missA a.operate) (off missB b.operate)
    let s := s.onElem c.index fun e => { e with a := a, b := b, pickup := pu, operate := op, disagree := false, lockoutReset := false }
    let s := s.when differ fun s => s.disagree c a b
    s.elemChanged c.index t e.pickup e.operate pu op

/-! ### Trip outputs (R22 to R28) -/

/-- The mask of a trip output's asserting sources. -/
def sourceMask (l : List Bool) : Nat := (l.zipIdx.map fun x => b2n x.1 * 2 ^ x.2).sum

/-- Stage 5 for one trip output: seal-in, mask, addition, the command and the records (R23, R24, R26, R27). -/
def State.stage5 (s : State) (t : Nat) (c : TripCfg) : State :=
  match s.trip? c.index with
  | none => s
  | some x =>
    let cur := c.sources.map fun e => ((s.elem? e).map (·.operate)).getD false
    let rising := (cur.zipIdx.any fun y => y.1 && !nth x.sources y.2 false)
    let sealEnd := if rising then some (s.now + c.sealTime) else x.sealEnd
    let e := cur.any id || sealEnd.any fun u => decide (s.now < u)
    let mEff := c.maskGrant && x.logicMask
    let trip := (e && !mEff) || x.logicAdd
    let s := s.onTrip c.index fun x => { x with e := e, trip := trip, sealEnd := sealEnd, mEff := mEff, sources := cur }
    let s := s.when (mEff && !x.mEff && e) fun s => s.report .tripMasked c.index [c.index, sourceMask cur]
    if trip = x.trip then s else
      let s := s.sendFio c.channel trip
      let s := s.report (if trip then .tripOn else .tripOff) c.index [c.index, sourceMask cur, b2n x.logicAdd]
      let s := s.captDigital (.trip c.index) trip t
      s.when trip fun s => s.captMetAll t fun y => y == .trip c.index

/-! ### The status vector (R30, R197) -/

/-- A list of elements in ascending element index. -/
def byIndex : List ElemCfg → List ElemCfg
  | [] => []
  | c :: l => let r := byIndex l
              r.takeWhile (fun d => d.index < c.index) ++ c :: r.dropWhile (fun d => d.index < c.index)

/-- Stage 6: the vector of the visible elements is published (R30, R197). -/
def State.stage6 (s : State) : State :=
  let vis := (byIndex (s.protCfg.elements.filter (·.formVisible))).map fun c =>
    let e := s.elem? c.index
    (c.index, (e.map (·.pickup)).getD false, (e.map (·.operate)).getD false)
  s.onProt fun p => { p with vector := { seq := wrapInc 16 p.vector.seq, elems := vis } }

/-! ### Setting groups (R187 to R189) -/

/-- An element is created in the group (R187). -/
def State.groupUsed (s : State) (g : Nat) : Bool := s.protCfg.elements.any fun c => nth c.sgMask g false

/-- A request for a group in which no element is created, or an ungranted one of LOGIC, is refused (R187). -/
def State.refuseGroup (s : State) (g : Nat) (by_ : SgRequester) (status : Word) : Option Refuse :=
  if !s.groupUsed g || (by_ = .logic && !s.protCfg.sgSelectLogic) then some { blk := .prot, st0 := status } else none

/-- A replaced request is logged; a host one completes at the boundary all the same. Only another host request can have replaced it, which is
of no higher rank, so that RESULT [2] stays clear (R188). -/
def State.supersede (s : State) (r : SgRequest) : State :=
  ((s.raise .prot 4).report .sgSuperseded 0xFFFF [r.group, r.by_.rank]).onProt fun p => { p with replaced := p.replaced ++ r.berth.toList }

/-- A request is latched for the next boundary: in one period the later one of the highest rank stands, and a deferred request of an
earlier period gives way (R188). -/
def State.requestGroup (s : State) (r : SgRequest) : State :=
  match s.prot.request with
  | none => s.onProt fun p => { p with request := some r, deferred := false }
  | some old =>
    if s.prot.deferred || decide (old.by_.rank ≤ r.by_.rank) then
      (s.supersede old).onProt fun p => { p with request := some r, deferred := false }
    else s.supersede r

/-- An element whose settings differ between two groups, or that only one of them enables, is picked up (R188). -/
def State.pickedDiffers (s : State) (g h : Nat) : Bool :=
  s.protCfg.elements.any fun c =>
    ((s.elem? c.index).map (·.pickup)).getD false &&
      (nth c.groups g {} ≠ nth c.groups h {} || nth c.sgMask g false ≠ nth c.sgMask h false)

/-- The switch: elements that become disabled drop their outputs at once (R189). -/
def State.switchGroup (s : State) (g : Nat) (by_ : SgRequester) (waited : Ns) : State :=
  let old := s.prot.group
  let s := s.onProt fun p => { p with group := g, switches := wrapInc 8 p.switches }
  let off := s.protCfg.elements.filter fun c => !nth c.sgMask g false
  let s := s.forEach off fun s c => s.onElem c.index fun e => e.restart e.essOff
  (s.raise .prot 3).report .sgSwitch 0xFFFF [old, g, by_.rank, waited]

/-- The deferred switch is applied (R188). -/
def State.applyDeferred (s : State) : State :=
  match s.prot.request with
  | some r =>
    let waited := s.now - s.prot.deferSince
    (s.onProt fun p => { p with request := none, deferred := false }).switchGroup r.group r.by_ waited
  | none => s.onProt fun p => { p with deferred := false }

/-- The host requests that others replaced complete (R188). -/
def State.replacedDone (s : State) : State := (s.forEach s.prot.replaced fun s b => s.done b).onProt fun p => { p with replaced := [] }

/-- The SG_SELECT of a request completes, with its RESULT bits (R188). -/
def State.endRequest (s : State) (r : SgRequest) (bits : Nat) : State :=
  match r.berth with
  | some b => s.done b (BitVec.ofNat 64 bits)
  | none => s

/-- The latched request at a protection-cycle boundary: applied, deferred, or, when deferred before, looked at again (R188). -/
def State.groupBoundary (s : State) : State :=
  let s := s.replacedDone
  match s.prot.request with
  | none => s
  | some r =>
    let free := !s.protCfg.sgDefer || !s.pickedDiffers s.prot.group r.group
    if s.prot.deferred then (if free then s.applyDeferred else s)
    else if r.group = s.prot.group then (s.onProt fun p => { p with request := none }).endRequest r 1
    else if free || s.protCfg.sgDeferMax = 0 then ((s.onProt fun p => { p with request := none }).switchGroup r.group r.by_ 0).endRequest r 1
    else
      (s.onProt fun p => { p with request := some { r with berth := none }, deferred := true, deferSince := s.now }).endRequest r 2

/-- A mapped input turns on: it requests its group (R187). -/
def State.mappedGroup (s : State) (src : BlockSource) : State :=
  s.forEach (s.protCfg.sgInputs.filter (·.source == src)) fun s x =>
    if s.groupUsed x.group then s.requestGroup { group := x.group, by_ := .input }
    else s.refuseInternal { blk := .prot } .internal

/-! ### The essential set (R199) -/

/-- The essential set starts: the instances outside it are reset and their outputs are zero; it ends: all instances start again (R199). -/
def State.setEssential (s : State) (on : Bool) : State :=
  let l := s.protCfg.elements.filter fun c => !on || !c.essential
  let s := s.elemsOff (s.prot.elems.filter fun e => l.any fun c => c.index == e.index)
  let s := s.forEach l fun s c => s.onElem c.index fun e => e.restart on
  let s := s.onProt fun p => { p with essentialOnly := on }
  if on then (s.raise .prot 5).report .essentialStart else (s.raise .prot 6).report .essentialEnd

/-! ### Readiness (R158) -/

/-- PROT local-element ready: elements leave reset (R158). -/
def State.protReady (s : State) : State :=
  s.onProt fun p => { p with ready := true, elems := p.elems.map fun e => { index := e.index, logicBlock := e.logicBlock } }

/-! ### Registers (R200 to R208) -/

def State.protStatus (s : State) : Word :=
  let p := s.prot
  flag 0 p.ready ||| flag 1 (p.laneA.phase == .out) ||| flag 2 (p.laneB.phase == .out) ||| flag 3 p.noLane ||| flag 4 p.essentialOnly |||
    flag 5 (p.laneA.katRunning || p.laneB.katRunning) ||| flag 6 p.request.isSome

def State.sgStatus (s : State) : Word :=
  fld 0 s.prot.group ||| fld 3 ((s.prot.request.map (·.group)).getD 0) ||| flag 6 s.prot.request.isSome ||| flag 7 s.prot.deferred |||
    fld 8 s.prot.switches

def Lane.status (x : Lane) : Word :=
  fld 0 x.phase.num ||| flag 2 x.katPass ||| flag 3 x.ecc ||| flag 4 x.deadlineMiss ||| fld 5 x.outCause.num

def State.tripState (s : State) (base : Nat) : Word :=
  s.prot.trips.foldl (fun acc t => if base ≤ t.index ∧ t.index < base + 32 then acc ||| flag (t.index - base) t.trip else acc) 0

/-- A channel is created: a local one by ACQ, an SV channel by a subscription (R205). -/
def State.chanCreated (s : State) : ChanRef → Bool
  | .ain c => (s.ain? c).isSome
  | .sv c => (s.svChans .phasor).contains c

/-- The phasor that PROT_PH_SEL names, with its instant. DESIGN CHOICE: KIND 1 to 3 without FAST reads as an index that is not created does (R205;
log entry 57). -/
def State.selectedPhasor (s : State) : Qx × Nat :=
  let w := s.prot.phSel.toNat
  let i := w % 2048
  let c : Option ChanRef := if i < 24 then some (.ain i) else if 32 ≤ i ∧ i ≤ 1055 then some (.sv (i - 32)) else none
  let kind := w / 4096 % 4
  let fast := w / 16384 % 2 = 1
  let rate : LaneRate := if fast then .fast else .phasor
  let l : LaneId := if w / 32768 % 2 = 1 then .b else .a
  match c with
  | none => (Qx.none, 0)
  | some c =>
    let e := Ev.mk s l rate none
    if !s.chanCreated c || (kind ≠ 0 && !fast) then (Qx.none, 0)
    else (e.ph (if kind = 2 then 2 else if kind = 3 then 5 else 1) (kind = 1) c, ((e.ring c).head?.map (·.time)).getD 0)

def Qx.word (q : Qx) : Word :=
  fld 0 (match q.q with | .good => 0 | .questionable => 1 | .invalid => 2) ||| flag 2 q.det.overflow ||| flag 3 q.det.inaccurate |||
    flag 4 q.det.unsync ||| flag 5 q.det.failure

/-- PROT_EL_CFG. DESIGN CHOICE: of what a group may override it shows the setting of the active group (R187, R207; log entry 57). -/
def State.elCfg (s : State) (c : ElemCfg) : Word :=
  let g := s.activeSet c
  let t := g.timing
  let masks := (c.sgMask.zipIdx.map fun x => b2n x.1 * 2 ^ x.2).sum
  fld 0 c.type.num ||| flag 8 (g.policy == .security) ||| flag 9 (g.laneLoss == .single) ||| flag 10 c.essential ||| flag 11 c.formVisible |||
    flag 12 (c.type.rate == .fast) ||| fld 13 t.resetMode.num ||| flag 15 (g.blockMode == .hold) ||| fld 16 t.curveNo ||| fld 24 masks

/-- PHASES of R208, none while the element is blocked. DESIGN CHOICE: a 21 element shows the phases of its loops, a phase-to-phase quantity shows
under its first phase, and the types without phases show none; DIR of a 21 element is forward (log entry 57). -/
def ElemLane.phaseBits (x : ElemLane) (t : ElemType) : Nat :=
  let on := fun (p : Nat) => !x.blocked && (nth x.phases p {}).on
  match t with
  | .e21 => b2n (on 0 || on 3 || on 5) + 2 * b2n (on 1 || on 3 || on 4) + 4 * b2n (on 2 || on 4 || on 5)
  | .e46 | .e81O | .e81U | .e81R | .e25 | .e79 => 0
  | _ => b2n (on 0) + 2 * b2n (on 1) + 4 * b2n (on 2) + 8 * b2n (on 3)

def State.elStatus (s : State) (c : ElemCfg) (e : Elem) : Word :=
  let x := e.on s.readLane
  flag 0 e.a.pickup ||| flag 1 e.a.operate ||| flag 2 e.b.pickup ||| flag 3 e.b.operate ||| flag 4 e.pickup ||| flag 5 e.operate |||
    flag 6 x.blocked ||| flag 7 x.invalid ||| flag 8 x.questionable ||| flag 9 e.disagree ||| flag 10 e.essOff ||| flag 11 x.limAdapt |||
    fld 12 (x.phaseBits c.type) ||| fld 16 x.dir ||| flag 18 x.aux ||| fld 19 x.cause.num

/-- A register of the PROT block by its offset, but for the event register (R200). -/
def State.protReg (s : State) (o : Nat) : Word :=
  let elem := fun (f : ElemCfg → Elem → Word) =>
    match s.elemCfg? ((o - 0x10000) / 16), s.elem? ((o - 0x10000) / 16) with
    | some c, some e => f c e
    | _, _ => 0
  let trip := (o - 0x1000) / 8
  if o = 0 then s.protStatus
  else if o = 8 then s.sgStatus
  else if o = 0xC then BitVec.ofNat 32 (s.protCfg.elements.filter (·.essential)).length
  else if o = 0x10 then s.prot.laneA.status
  else if o = 0x14 then s.prot.laneB.status
  else if o = 0x18 then BitVec.ofNat 32 s.prot.laneA.sampleBad
  else if o = 0x1C then BitVec.ofNat 32 s.prot.laneB.sampleBad
  else if o = 0x20 then fld 0 s.prot.disagreeCount ||| fld 16 s.prot.disagreeElem
  else if o = 0x24 then fld 0 s.prot.maskIgnored ||| fld 16 s.prot.maskIgnoredTrip
  else if o = 0x28 then BitVec.ofNat 32 s.prot.vector.seq
  else if o = 0x30 then s.tripState 0
  else if o = 0x34 then s.tripState 32
  else if o = 0x40 then s.prot.phSel
  else if o = 0x44 then f32bits s.selectedPhasor.1.x.re
  else if o = 0x48 then f32bits s.selectedPhasor.1.x.im
  else if o = 0x4C then s.selectedPhasor.1.word
  else if o = 0x50 then ts32of s.selectedPhasor.2
  else if o < 0x1000 then 0
  else if o < 0x1200 then
    if o % 8 = 0 then ((s.protCfg.trips.find? (·.index == trip)).map TripCfg.word).getD 0
    else if o % 8 = 4 then ((s.trip? trip).map fun t => BitVec.ofNat 32 (sourceMask t.sources)).getD 0
    else 0
  else if o < 0x10000 ∨ 0x20000 ≤ o then 0
  else if o % 16 = 0 then elem fun c _ => s.elCfg c
  else if o % 16 = 4 then elem s.elStatus
  else if o % 16 = 8 then elem fun _ e => f32bits (e.on s.readLane).m
  else if o % 16 = 12 then elem fun _ e => f32bits (e.on s.readLane).progress
  else 0

end Sys2Proof.Machine
end

