-- ==== Sys2Proof/Machine/PtpOps.lean ====
section
/-! DEFINITION. Operations of plant time: the offset estimate, steps of the local time counter, the election, the registers (spec/13_network_and_time.md R441 to R449, R461 to R464). -/

namespace Sys2Proof

/-- The first start of a cycle of a gate list at or after a PTP time (R435). -/
def Gcl.nextCycle (g : Gcl) (t : Nat) : Nat :=
  if t ≤ g.baseTime || g.cycleTime = 0 then g.baseTime
  else g.baseTime + (t - g.baseTime + g.cycleTime - 1) / g.cycleTime * g.cycleTime

end Sys2Proof

namespace Sys2Proof.Machine

open Sys2Proof

def State.ptpCfg (s : State) : PtpCfg := s.netCfg.ptp
def State.ptpPort? (s : State) (p : Nat) : Option PtpPort := s.ptp.ports.find? (·.port == p)
def State.onPtpPort (s : State) (p : Nat) (f : PtpPort → PtpPort) : State :=
  s.onPtp fun x => { x with ports := x.ports.map fun q => if q.port == p then f q else q }

/-! ### The offset estimate (R445, R446) -/

/-- The part of an offset that the running slew has closed (R445, R446). -/
def State.slewClosed (s : State) : Num :=
  match s.ptp.slew with
  | none => 0
  | some x => if x.length = 0 then x.offset else x.offset * Num.clamp 0 1 (((s.now - x.start : Nat) : Num) / (x.length : Num))

/-- e, in ns: e_last with its growth by HOLD_RATE away from zero (R446). -/
def State.ptpErr (s : State) : Num :=
  let base := s.ptp.eLast - s.slewClosed
  let grown := (s.ptpCfg.holdRate : Num) * ((s.now - s.ptp.tLast : Nat) : Num) / 1000000000
  if base < 0 then base - grown else base + grown

/-- e lies within ±1 µs (R446). -/
def State.ptpNear (s : State) : Bool := s.ptpErr.mag ≤ 1000

/-- LOCKED changes, with its event and record (R446, R447). -/
def State.setLocked (s : State) (v : Bool) : State :=
  let s := s.onPtp fun x => { x with locked := v }
  if v then (s.raise .ptp 0).report .ptpLock else (s.raise .ptp 1).report .ptpUnlock

/-! ### A step of the local time counter (R445, R449) -/

/-- Gate lists that run restart at the next cycle start on the new time (R435). -/
def State.gatesStep (s : State) : State :=
  s.onNet fun n => { n with ports := n.ports.map fun x =>
    match ((s.netCfg.port? x.port).bind (·.gcl)) with
    | some g => if x.gclActive then { x with gclRestart := some (g.nextCycle s.ltc) } else x
    | none => x }

/-- The local time counter moves by a whole number of nanoseconds, with its effects on the consumers (R73, R102, R393, R435, R445, R449). -/
def State.stepClock (s : State) (size : Num) : State :=
  let d := roundInt size
  let s := { s with ltc := ((s.ltc : Int) + d).toNat }
  let s := s.onPtp fun x => { x with steps := satInc 16 x.steps, lastStep := size, slew := none, eLast := 0, tLast := s.now }
  let s := ((s.raise .ptp 5).report .ptpStep 0xFFFF [d]).tideMapStep d
  ((s.strobeStep d).gatesStep).captStep d

/-! ### The election (R442) -/

/-- The order of datasets, the better first: priority1, clockClass, accuracy, variance, priority2, identity, then the steps. -/
def Announce.key (a : Announce) : List Nat :=
  [a.priority1, a.clockClass, a.accuracy, a.variance, a.priority2, a.gmId.toNat, a.steps, a.sender.toNat]

def keyLess : List Nat → List Nat → Bool
  | a :: l, b :: m => decide (a < b) || (a == b && keyLess l m)
  | _, _ => false

/-- The port may carry the device's own clock under PTP_ROLE (R442). -/
def State.ptpRuns (s : State) (p : Nat) : Bool :=
  s.netCfg.ptpEn p && p ≠ 44 && (match s.ptpCfg.role with
    | .oc q => p == q
    | .ocTc | .bc => true)

/-- The port takes part in the transparent function (R442). -/
def State.tcPort (s : State) (p : Nat) : Bool := s.ptpCfg.role = .ocTc && s.ptpRuns p

/-- An Announce still stands on a port: the receipt timeout has not passed and the link is up (R441, R442). -/
def State.annStands (s : State) (x : PtpPort) : Bool :=
  s.ptpRuns x.port && s.portUp x.port && x.ann.any fun a => decide (s.now < x.annRx + s.ptpCfg.announceTimeout * a.interval)

/-- The port and Announce that the election picks (R442). -/
def State.bestAnn (s : State) : Option (Nat × Announce) :=
  (s.ptp.ports.filter s.annStands).foldl (fun best x =>
    match x.ann, best with
    | some a, none => some (x.port, a)
    | some a, some b => if keyLess (a.key ++ [x.port]) (b.2.key ++ [b.1]) then some (x.port, a) else best
    | none, _ => best) none

/-- The state of a port that is not the slave port, in the encoding of R464. -/
def State.otherPort (s : State) (a : Announce) (x : PtpPort) : Nat :=
  match s.ptpCfg.role with
  | .bc =>
    let mine : Announce := { a with steps := a.steps + 1 }
    if s.annStands x && x.ann.any fun b => !keyLess (mine.key.take 7) (b.key.take 7) then 7 else 6
  | .oc _ | .ocTc => 4

/-- The BMCA elects the slave port and the grandmaster; a different one is GM_CHANGE in TRACKING (R442, R447). -/
def State.elect (s : State) : State :=
  match s.bestAnn with
  | none => s
  | some (p, a) =>
    let change := s.ptp.phase = .tracking && s.ptp.gmId ≠ a.gmId
    let s := s.onPtp fun x =>
      { x with
        slavePort := p, parent := some a, gmId := a.gmId, gmInacc := a.inacc, gmSteps := a.steps, gmClass := a.clockClass
        ports := x.ports.map fun q =>
          if !s.ptpRuns q.port then q
          else if q.port = p then { q with portState := if q.portState = 9 then 9 else 8 }
          else { q with portState := s.otherPort a q } }
    s.when change fun s => (s.raise .ptp 6).report .ptpGmChange 0xFFFF [a.gmId.toNat]

/-- An Announce of the device's own domain arrives (R441, R442). -/
def State.announceRx (s : State) (p : Nat) (a : Announce) : State :=
  if !s.ptpRuns p || a.domain ≠ s.ptpCfg.domain || s.ptp.phase = .off then s
  else (s.onPtpPort p fun x => { x with ann := some a, annRx := s.now }).elect

/-! ### Holdover (R447, R448) -/

/-- 2^k seconds. -/
def logNs (k : Int) : Ns := (pow2 k * 1000000000).floor.toNat

/-- The mean of the servo rates of the last Sync intervals, of up to 16 (R447). -/
def State.meanRate (s : State) : Num :=
  if s.ptp.rates.isEmpty then s.ptp.servoPpm else s.ptp.rates.sum / (s.ptp.rates.length : Num)

/-- PTP enters HOLDOVER and the counter keeps the mean servo rate (R447). -/
def State.enterHoldover (s : State) : State :=
  let s := s.onPtp fun x => { x with phase := .holdover, holdSince := s.now, servoPpm := s.meanRate, lockRun := 0 }
  (s.raise .ptp 2).report .holdoverStart

/-! ### Registers (R461 to R464) -/

def State.ptpStatus (s : State) : Word :=
  fld 0 s.ptp.phase.num ||| flag 3 s.ptp.locked ||| flag 4 s.ptp.timeKnown ||| flag 5 s.ptp.degraded |||
    fld 6 s.ptpCfg.role.num ||| fld 8 s.ptp.slavePort ||| flag 14 s.ptp.slew.isSome ||| fld 15 s.tq

def State.ptpHoldTime (s : State) : Word :=
  if s.ptp.synced then BitVec.ofNat 32 (min ((s.now - s.ptp.syncAt) / 1000000000) (2 ^ 32 - 1)) else 0

def PtpPort.status (x : PtpPort) : Word :=
  fld 0 x.portState ||| flag 4 x.meanDelay.isSome ||| flag 5 x.tcActive ||| flag 6 x.twoStepRx

/-- A register of the PTP block by its offset, but for the event register and the snapshots (R461). -/
def State.ptpReg (s : State) (o : Nat) : Word :=
  let port := fun (f : PtpPort → Word) => ((s.ptpPort? ((o - 0x100) / 16)).map f).getD 0
  if o = 0 then s.ptpStatus
  else if o = 0x18 then f32bits s.ptpErr
  else if o = 0x1C then f32bits s.ptp.offsetLast
  else if o = 0x20 then f32bits s.ptp.servoPpm
  else if o = 0x24 then s.ptpHoldTime
  else if o = 0x28 then fld 0 s.ptp.steps ||| fld 16 s.ptp.outliers
  else if o = 0x2C then f32bits s.ptp.lastStep
  else if o = 0x38 then BitVec.ofNat 32 (s.ptp.gmInacc.getD 0xFFFFFFFF)
  else if o = 0x3C then fld 0 s.ptp.gmSteps ||| fld 16 s.ptp.gmClass
  else if o < 0x100 ∨ 0x3C0 ≤ o then 0
  else if o % 16 = 0 then port PtpPort.status
  else if o % 16 = 4 then port fun x => f32bits (x.meanDelay.getD 0)
  else if o % 16 = 8 then port fun x => fld 0 x.corrected ||| fld 16 x.discarded
  else 0

end Sys2Proof.Machine
end

