-- ==== Sys2Proof/Machine/DiffOps.lean ====
section
/-! DEFINITION. Operations of DIFF: the canonical form, contributions, sum frames, zone states, the registers (spec/06_differential_sum_frames.md). -/

namespace Sys2Proof

open Sys2Proof.Machine (beBytes)

/-- The head candidates in ascending rank (R210). -/
def headsByRank (l : List (Nat × Nat)) : List (Nat × Nat) := (List.range 4).flatMap fun r => l.filter fun h => h.2 == r

/-- The canonical form of a zone, with the plant schedule; on Adeid it has no group address and no VID (R210). -/
def ZoneCfg.form (z : ZoneCfg) (plant : List PlantSegment) : List (BitVec 8) :=
  let heads := (headsByRank z.heads).flatMap fun h => beBytes 1 h.1 ++ beBytes 1 h.2
  let mac := match z.ring with
    | .hsr _ => z.groupMac
    | .adeid => 0
  let vid := match z.ring with
    | .hsr _ => z.vid
    | .adeid => 0
  beBytes 2 z.zoneId ++ beBytes 1 z.members.length ++ (z.members.flatMap fun m => beBytes 2 (m % 2 ^ 14)) ++
    (heads ++ List.replicate 8 0xFF).take 8 ++ beBytes 1 (match z.ring with | .hsr _ => 0 | .adeid => 1) ++
    beBytes 6 mac ++ beBytes 2 vid ++ beBytes 4 (Machine.f32bits z.iBase).toNat ++ beBytes 4 (Machine.f32bits z.vBase).toNat ++
    beBytes 4 z.launch ++ beBytes 4 z.deadlineNs ++ beBytes 1 z.unblockCount ++ beBytes 1 z.headLossCount ++ beBytes 2 z.etherType ++
    beBytes 1 plant.length ++ plant.flatMap fun g => beBytes 8 g.start ++ beBytes 4 g.freq

/-- CFG_TAG (R210). -/
def ZoneCfg.tag (z : ZoneCfg) (plant : List PlantSegment) : BitVec 16 :=
  BitVec.ofNat 16 (Machine.CrcAlg.crc32c.check (z.form plant))

/-- The mask of all members (R219). -/
def ZoneCfg.expected (z : ZoneCfg) : BitVec 64 := BitVec.ofNat 64 (2 ^ z.members.length - 1)

end Sys2Proof

namespace Sys2Proof.Machine

open Sys2Proof

def State.zone? (s : State) (z : Nat) : Option Zone := s.diff.zones[z]?
def State.onZone (s : State) (z : Nat) (f : Zone → Zone) : State := s.onDiff fun d => { d with zones := updAt d.zones z f }

/-! ### Sum instants -/

/-- The number of a sum instant, SEC × 1,200 + SUM_IDX, and its PTP time (R216). -/
def sumNumber (sec idx : Nat) : Nat := sec * 1200 + idx
def sumTime (sec idx : Nat) : Nat := sec * 1000000000 + idx * 1000000000 / 1200

/-- The sum instant that a phasor-lane instant is, when its index within the second is a multiple of 4. -/
def sumInstant (t : Nat) : Option (Nat × Nat) :=
  let k := (t * 4800 + 500000000) / 1000000000
  if k % 4 = 0 then some (k / 4800, k % 4800 / 4) else none

/-! ### The contribution (R212 to R214) -/

/-- Rounding to Q15.16, saturating (R212). -/
def q16 (x : Num) : Int := max (-(2 ^ 31 - 1 : Int)) (min (2 ^ 31 - 1) (roundInt (x * 65536)))

/-- Q15.16 as a number. -/
def ofQ16 (x : Int) : Num := f32 ((x : Num) / 65536)

/-- The voltage set is usable on a lane (R213). -/
def State.vsetGood (s : State) (l : LaneId) (z : ZoneCfg) : Bool :=
  match z.vset with
  | none => false
  | some v => v.ch.all fun c => decide (((Ev.mk s l .phasor none).ph 1 false c).q ≠ .invalid)

/-- One lane's contribution at the instant just released (R212). -/
def State.laneContribution (s : State) (l : LaneId) (z : ZoneCfg) (t : Nat) (vValid : Bool) : Contribution :=
  let e := Ev.mk s l .phasor none
  let plant := ((plantAt s.tideCfg.plantSchedule t).map (·.1)).getD 0
  let tide := s.tideAt t
  let d := f32 (2 * Config.pi * ((angleDiff tide.1 (BitVec.ofNat 32 plant) : Int) : Num) / (2 ^ 32 : Nat))
  let rot : Cx := { re := f32 (Config.cos d), im := f32 (Config.sin d) }
  let terms := fun (p : Nat) => z.csets.map fun c => ((e.phase c.ch 1 false p).x.scale ((if c.positive then 1 else -1) * f32 c.cscale)).mul rot
  let chg := fun (p : Nat) => match z.vset with
    | some v =>
      if vValid then
        let k := fmul (fmul (f32 z.bChg) (fdiv (f32 tide.2) (f32 s.tideCfg.nominalFreq))) (f32 v.vscale)
        let y := ((e.phase v.ch 1 false p).x.scale k).mul rot
        { re := -y.im, im := y.re }
      else {}
    | none => {}
  let ic := fun (p : Nat) => ((terms p).foldl Cx.add {}).sub (chg p)
  let rs := fun (p : Nat) => fsum ((terms p).map Cx.mag)
  { re := [0, 1, 2].map fun p => q16 (ic p).re
    im := [0, 1, 2].map fun p => q16 (ic p).im
    rs := [0, 1, 2].map fun p => q16 (rs p)
    vValid := vValid
    valid := z.csets.all fun c => c.ch.all fun ch => decide ((e.ph 1 false ch).q ≠ .invalid) }

/-- The lanes that are not OUT; lane A when both are (R214). -/
def State.diffLanes (s : State) : List LaneId :=
  let l := [LaneId.a, LaneId.b].filter fun l => decide ((s.prot.lane l).phase ≠ .out)
  if l.isEmpty then [.a] else l

/-- The member's contribution from the history, or why it is withheld (R214). -/
def State.mayAdd (s : State) (zi : Nat) (sec idx : Nat) : Except WithheldCause Contribution :=
  match s.diff.hist.find? fun e => e.sec = sec ∧ e.idx = idx with
  | none => .error (if !s.diff.ptpJoin then .ptp else if s.plant.isNone then .plant else if s.clk.degraded then .degraded else .nohist)
  | some e =>
    let on := fun (l : LaneId) => nth (match l with | .a => e.laneA | .b => e.laneB) zi {}
    let l := s.diffLanes.map on
    if !s.diff.ptpJoin then .error .ptp
    else if s.plant.isNone then .error .plant
    else if s.clk.degraded then .error .degraded
    else if l.any fun c => !c.valid then .error .invalid
    else if l.any fun c => decide (c ≠ l.headD {}) then .error .lane
    else if !s.prot.ready then .error .notready
    else .ok (l.headD {})

/-- A withheld contribution is counted with its cause (R214). -/
def State.withhold (s : State) (zi : Nat) (c : WithheldCause) : State :=
  (s.onZone zi fun z => { z with withheld := satInc 16 z.withheld, withheldCause := c, contributing := false }).raise .diff 7

/-! ### Sum frames (R216 to R221) -/

/-- Addition that stops at ±(2^31 − 1), and whether it did (R219). -/
def satAdd31 (a b : Int) : Int × Bool :=
  let x := a + b
  if 2 ^ 31 - 1 < x then (2 ^ 31 - 1, true) else if x < -(2 ^ 31 - 1) then (-(2 ^ 31 - 1), true) else (x, false)

/-- Re and Im of the phases in the order of SUM. -/
def Contribution.sums (c : Contribution) : List Int := [0, 1, 2].flatMap fun p => [nth c.re p 0, nth c.im p 0]

/-- A member's contribution enters a frame (R213, R219). -/
def SumFrame.add (f : SumFrame) (m : Nat) (c : Contribution) (bChg : Int) : SumFrame :=
  let su := f.sum.zipWith satAdd31 c.sums
  let re := f.restr.zipWith satAdd31 c.rs
  let un := if c.vValid then (f.uncomp, false) else satAdd31 f.uncomp bChg
  let bit := BitVec.ofNat 64 (2 ^ m)
  { f with
    sum := su.map (·.1), restr := re.map (·.1), uncomp := un.1, contrib := f.contrib ||| bit
    chgMask := if c.vValid then f.chgMask else f.chgMask ||| bit
    sat := f.sat || su.any (·.2) || re.any (·.2) || un.2 }

/-- What is kept of an instant; it is entered at the first frame for it, or at its release. -/
def Zone.enter (z : Zone) (sec idx : Nat) : Zone :=
  if z.instants.any fun x => x.sec = sec ∧ x.idx = idx then z
  else { z with instants := ({ sec, idx, time := sumTime sec idx } :: z.instants).take 64 }

def Zone.instant? (z : Zone) (sec idx : Nat) : Option ZoneInstant := z.instants.find? fun x => x.sec = sec ∧ x.idx = idx
def State.onInstant (s : State) (zi sec idx : Nat) (f : ZoneInstant → ZoneInstant) : State :=
  s.onZone zi fun z => { z with instants := z.instants.map fun x => if x.sec = sec ∧ x.idx = idx then f x else x }

/-- The member adds its contribution unless its bit is set, or withholds it; a device that is no member does neither (R211, R214, R219). -/
def State.addOwn (s : State) (zi : Nat) (z : Zone) (f : SumFrame) : State × SumFrame :=
  match z.member with
  | none => (s, f)
  | some m =>
    if f.contrib.getLsbD m then (s, f)
    else match s.mayAdd zi f.sec f.idx with
      | .error c => (s.withhold zi c, f)
      | .ok c =>
        let g := f.add m c (q16 z.cfg.bChg)
        let s := (s.onZone zi fun z => { z with chgUncomp := !c.vValid }).onInstant zi f.sec f.idx fun x => { x with added := true }
        (if g.sat && !f.sat then s.raise .diff 10 else s, g)

/-- The port of a ring that an index names is up (R221). -/
def State.ringUp (s : State) : ZoneRing → Nat → Bool
  | .hsr k, i => (s.pairCfg? k).any fun p => s.portUp (if i = 0 then p.first else p.second)
  | .adeid, i => s.linkUp i

/-- A sum frame leaves through a port of its ring, as a frame of the zone that it belongs to, or, spoilt, with invalid checks. A frame of a zone
that is not created keeps the header it came with, which the model does not hold (R215, R217, R229). -/
def State.sumOut (s : State) (r : ZoneRing) (i : Nat) (f : SumFrame) (spoilt : Bool := false) : State :=
  match r with
  | .hsr k =>
    match s.pairCfg? k with
    | some p =>
      let n := if i = 0 then p.first else p.second
      let tx : SumTx := match s.diff.zones.find? fun z => z.cfg.zoneId = f.zoneId ∧ z.cfg.ring = r with
        | some z => { frame := f, group := z.cfg.groupMac, vid := z.cfg.vid, etherType := z.cfg.etherType, spoilt := spoilt }
        | none => { frame := f, spoilt := spoilt }
      (s.onNet fun x => { x with sent := x.sent ++ [.sum n tx] }).onPort n fun x => { x with txFrames := x.txFrames + 1 }
    | none => s
  | .adeid =>
    s.adeidPut i
      { alive := 0, secondary := decide (2 ≤ i), src := s.adeid.node, hops := f.hops, payload := some (.sum f), checkOk := !spoilt }

/-- The port through which a frame that came in on port `i` goes on. -/
def ringOther (i : Nat) : Nat := if i % 2 = 0 then i + 1 else i - 1

/-- A frame is discarded whose forwarding has begun: it ends with an inverted CHECK and an invalid frame check. DESIGN CHOICE: it has begun
unless the device only stores and forwards (R104, R217; log entry 60). -/
def State.sumSpoil (s : State) (r : ZoneRing) (i : Nat) (f : SumFrame) : State :=
  s.when (!s.diff.passOnly && s.ringUp r (ringOther i)) fun s => s.sumOut r (ringOther i) { f with hops := (f.hops + 1) % 256 } true

/-- A frame beyond a limit is discarded and counted (R217). -/
def State.hopLimit (s : State) : State := (s.onDiff fun d => { d with hopLimit := satInc 16 d.hopLimit }).raise .diff 11

/-- A frame that came in on port `i` goes on through the other port, or turns back when that one has no link (R217, R221). -/
def State.sumForward (s : State) (r : ZoneRing) (i : Nat) (f : SumFrame) : State :=
  let out := ringOther i
  if s.ringUp r out then s.sumOut r out f
  else if 4 ≤ f.turn then s.hopLimit
  else
    let s := (s.onDiff fun d => { d with turns := satInc 32 d.turns }).raise .diff 9
    if s.ringUp r i then s.sumOut r i { f with turn := f.turn + 1 } else s

/-- Conversion to the second lap, when the mask is complete or the frame is back at its head (R219, R220). -/
def State.convert (s : State) (z : Zone) (f : SumFrame) : Option SumFrame :=
  let full := decide (f.contrib = z.cfg.expected)
  if full || (decide (f.headDev = s.sec.device) && f.turn % 2 == 0) then
    some { f with lap2 := true, incomplete := !full, convDev := s.sec.device, convTurn := f.turn }
  else none

/-! ### Zone states (R222, R227) -/

/-- A HEALTHY zone blocks; every cause makes the count of complete instants start again (R227). -/
def State.zoneBlock (s : State) (zi : Nat) (c : ZoneCause) (missing : BitVec 64) : State :=
  match s.zone? zi with
  | none => s
  | some z =>
    let s := s.onZone zi fun z => { z with unblockLeft := z.cfg.unblockCount }
    if z.phase ≠ .healthy then s else
      let s := s.onZone zi fun z => { z with phase := .blocked, cause := c, blocks := satInc 16 z.blocks }
      (s.raise .diff 0).report .zoneBlock zi [zi, c.num, missing.toNat]

/-- A complete instant is evaluated (R225, R227). -/
def State.zoneEvaluated (s : State) (zi : Nat) (t : ZoneTotals) : State :=
  match s.zone? zi with
  | none => s
  | some z =>
    let left := z.unblockLeft - 1
    let heals := decide (z.phase = .joining ∨ z.phase = .blocked) && left == 0
    let s := s.onZone zi fun z =>
      { z with
        last := some t, missing := z.cfg.expected &&& ~~~t.contrib, frames := wrapInc 32 z.frames, curHeadDev := t.headDev
        curHeadRank := t.headRank, unblockLeft := left, phase := if heals then .healthy else z.phase
        cause := if heals then .none else z.cause }
    if heals then (s.raise .diff 1).report .zoneHealthy zi [zi] else s

/-- An instant is decided: CONTRIBUTING shows whether this member has added to it (R222, R236). -/
def State.decideInstant (s : State) (zi : Nat) (x : ZoneInstant) : State :=
  (s.onInstant zi x.sec x.idx fun x => { x with done := true }).onZone zi fun z =>
    { z with contributing := (z.instant? x.sec x.idx).any (·.added) }

/-- An instant turns out incomplete (R222, R227). -/
def State.instantIncomplete (s : State) (zi : Nat) (x : ZoneInstant) (c : ZoneCause) : State :=
  match s.zone? zi with
  | none => s
  | some z => (s.decideInstant zi x).zoneBlock zi c (z.cfg.expected &&& ~~~x.contrib)

/-- The head whose frames count as the current head's: that of the last evaluated frame; any head before the first (R222, R236). -/
def Zone.isCurrent (z : Zone) (dev : Nat) : Bool := decide (z.curHeadDev = 0 ∨ z.curHeadDev = dev)

/-- Totals that are complete are taken for evaluation; incomplete ones of both copies of the current head end the instant (R222). -/
def State.takeTotals (s : State) (zi : Nat) (z : Zone) (f : SumFrame) : State :=
  match (s.zone? zi).bind fun z => z.instant? f.sec f.idx with
  | none => s
  | some x =>
    if x.done ∨ x.time + z.cfg.deadlineNs < s.ltc then s
    else if f.incomplete || f.sat then
      let x := { x with bad := (f.headDev, f.copyB) :: x.bad, sat := x.sat || f.sat, contrib := x.contrib ||| f.contrib }
      let s := s.onInstant zi f.sec f.idx fun _ => x
      if z.isCurrent f.headDev && x.bad.contains (f.headDev, !f.copyB) then s.instantIncomplete zi x (if x.sat then .sat else .incomplete) else s
    else
      let t : ZoneTotals :=
        { sec := f.sec, idx := f.idx, sum := f.sum, restr := f.restr, uncomp := f.uncomp, chgMask := f.chgMask, contrib := f.contrib
          headDev := f.headDev, headRank := f.headRank, at_ := s.now }
      (s.decideInstant zi x).onZone zi fun z => { z with totals := z.totals ++ [t], cfgRun := 0 }

/-! ### Head election (R223, R224) -/

/-- The HEAD_RANK of this device in the zone. -/
def Zone.rank (z : Zone) : Option Nat := (z.cfg.heads.find? fun h => z.member == some h.1).map (·.2)

/-- The device may head the zone (R223); in DEGRADED it only forwards (R104). -/
def State.canHead (s : State) (z : Zone) : Bool :=
  s.diff.ptpJoin && s.plant.isSome && s.prot.ready && !s.clk.degraded && !z.stepDown &&
    z.rank.any fun r => decide (z.cfg.headLossCount * r ≤ z.quiet)

/-- A change of head is recorded with the old and the new head (R224). -/
def State.headChange (s : State) (zi old new : Nat) : State := (s.raise .diff 2).report .diffHeadChange zi [zi, old, new]

/-- A first-lap frame of a head passes (R223, R224). -/
def State.headPasses (s : State) (zi : Nat) (z : Zone) (f : SumFrame) : State :=
  match z.rank with
  | some r =>
    if f.headRank < r then
      let s := s.onZone zi fun z => { z with quiet := 0, stepDown := z.heading || z.stepDown, heading := false }
      if z.heading then s.headChange zi s.sec.device f.headDev else s
    else s
  | none => s

/-- The PTP hysteresis of R223, from the present estimate; beyond ±2 µs every HEALTHY zone blocks (R227). -/
def State.diffJoin (s : State) : State :=
  let e := s.ptpErr
  let s := s.onDiff fun d => { d with ptpErr := e, ptpJoin := if e.mag ≤ 1000 then true else if 2000 < e.mag then false else d.ptpJoin }
  s.when (decide (2000 < e.mag)) fun s => s.forEach (List.range s.diff.zones.length) fun s z => s.zoneBlock z .ptp 0

/-! ### A sum instant is released (R212, R214, R227, R229) -/

/-- Each lane forms its contribution to every zone; the sum interval begins (R212, R214). -/
def State.diffContribute (s : State) (t sec idx : Nat) : State :=
  let s := s.diffJoin
  let zs := s.diff.zones
  let con := fun (l : LaneId) => zs.map fun z =>
    s.laneContribution l z.cfg t (s.diffLanes.all fun k => s.vsetGood k z.cfg)
  let e : DiffEntry := { sec := sec, idx := idx, laneA := con .a, laneB := con .b }
  let s := s.onDiff fun d =>
    { d with hist := (e :: d.hist).take 32, zones := d.zones.map fun z => { z.enter sec idx with admitted := [0, 0, 0, 0] } }
  s.forEach zs.zipIdx fun s x =>
    let a := nth e.laneA x.2 {}
    let b := nth e.laneB x.2 {}
    s.when (decide (s.diffLanes.length = 2 ∧ a ≠ b)) fun s =>
      match s.protCfg.elements.find? fun c => decide (c.type = .e87L ∧ c.zone = some x.2) with
      | some c => match s.elem? c.index with
        | some y => s.disagree c y.a y.b
        | none => s
      | none => s

/-- The totals of each zone that a release evaluates: those received at least 5 µs before it (R225). -/
def State.zonesDue (s : State) : List (Nat × ZoneTotals) :=
  s.diff.zones.zipIdx.flatMap fun z => ((z.1.totals.filter fun t => s.passed t.at_ 5000).map fun t => (z.2, t))

/-- Totals as an 87L element takes them (R226). -/
def ZoneTotals.quantities (t : ZoneTotals) : ZoneQ :=
  { sum := [0, 1, 2].map fun p => { re := ofQ16 (nth t.sum (2 * p) 0), im := ofQ16 (nth t.sum (2 * p + 1) 0) }
    restr := t.restr.map ofQ16, uncomp := ofQ16 t.uncomp }

/-! ### Registers (R232 to R236) -/

def Zone.cfgWord (z : Zone) : Word :=
  fld 0 z.cfg.zoneId ||| fld 16 (z.member.getD 0) ||| fld 22 (z.cfg.members.length - 1) ||| fld 28 (z.rank.getD 7) ||| flag 31 true

def Zone.status (z : Zone) : Word :=
  fld 0 z.phase.num ||| flag 2 z.heading ||| flag 3 z.contributing ||| fld 4 z.cause.num ||| flag 7 z.chgUncomp ||| fld 8 z.unblockLeft |||
    fld 16 z.curHeadRank ||| fld 18 z.curHeadDev

/-- Id and Ir of a phase, and UNCOMP, of the last evaluated instant (R226, R232). -/
def Zone.idiff (z : Zone) (p : Nat) : Word := (z.last.map fun t => f32bits (nth t.quantities.sum p {}).mag).getD 0
def Zone.ires (z : Zone) (p : Nat) : Word := (z.last.map fun t => f32bits (fmul (1 / 2) (nth t.quantities.restr p 0))).getD 0
def Zone.uncomp (z : Zone) : Word := (z.last.map fun t => f32bits t.quantities.uncomp).getD 0

def Zone.reg (z : Zone) (o : Nat) : Word :=
  if o = 0 then z.cfgWord
  else if o = 4 then z.status
  else if o = 8 then z.missing.setWidth 32
  else if o = 0xC then (z.missing >>> 32).setWidth 32
  else if o = 0x10 then BitVec.ofNat 32 ((z.last.map (·.sec)).getD 0)
  else if o = 0x14 then BitVec.ofNat 32 ((z.last.map (·.idx)).getD 0)
  else if o < 0x24 then z.idiff ((o - 0x18) / 4)
  else if o < 0x30 then z.ires ((o - 0x24) / 4)
  else if o = 0x30 then BitVec.ofNat 32 z.frames
  else if o = 0x34 then fld 0 z.blocks
  else if o = 0x38 then z.uncomp
  else fld 0 z.withheld ||| fld 16 z.withheldCause.num

/-- A register of the DIFF block by its offset, but for the event register (R232). -/
def State.diffReg (s : State) (o : Nat) : Word :=
  let d := s.diff
  if o = 0 then flag 0 d.ptpJoin ||| flag 1 s.plant.isSome ||| flag 2 d.passOnly ||| fld 3 d.zones.length
  else if o = 0x10 then BitVec.ofNat 32 d.checkFail
  else if o = 0x14 then fld 0 d.aliveBad ||| fld 16 d.cfgBad
  else if o = 0x18 then BitVec.ofNat 32 d.late
  else if o = 0x1C then fld 0 d.refused ||| fld 16 d.hopLimit
  else if o = 0x20 then f32bits d.ptpErr
  else if o = 0x24 then BitVec.ofNat 32 d.turns
  else if o < 0x1000 ∨ 0x2000 ≤ o then 0
  else ((s.zone? ((o - 0x1000) / 0x40)).map fun z => z.reg ((o - 0x1000) % 0x40)).getD 0

end Sys2Proof.Machine
end

