-- ==== Sys2Proof/Machine/Diff.lean ====
section
/-! DEFINITION. The commands of DIFF (spec/06_differential_sum_frames.md R217 to R224, R229). -/

namespace Sys2Proof.Machine

open Sys2Proof

/-- The sum instant that a zone launches next: the oldest of the history whose ZONE_LAUNCH has passed and that has not been launched (R218). -/
def State.launchDue (s : State) (z : Zone) : Option DiffEntry :=
  s.diff.hist.reverse.find? fun e =>
    decide (sumTime e.sec e.idx + z.cfg.launch ≤ s.ltc) && z.launched.all fun n => decide (n < sumNumber e.sec e.idx)

/-- At t + ZONE_LAUNCH a candidate decides whether it heads, and a head sends copies A and B with its own contribution (R218, R223, R224). -/
def execDiffLaunch (z : Nat) (s : State) : Out :=
  .next <| match s.zone? z with
  | none => s
  | some x =>
    match s.launchDue x with
    | none => s
    | some e =>
      if x.rank.isNone then s else
        let s := s.diffJoin.onZone z fun x => { x with launched := some (sumNumber e.sec e.idx), quiet := x.quiet + 1 }
        let heads := (s.zone? z).any s.canHead
        let s := s.onZone z fun x => { x with heading := heads, stepDown := false }
        if !heads then s else
          let s := s.when (!x.heading) fun s => s.headChange z x.curHeadDev s.sec.device
          let f : SumFrame :=
            { zoneId := x.cfg.zoneId, headDev := s.sec.device, headRank := x.rank.getD 0, alive := sumNumber e.sec e.idx % 256
              nmemb := x.cfg.members.length, sec := e.sec, idx := e.idx, cfgTag := x.cfgTag }
          let r := s.addOwn z x f
          let s := r.1.sumForward x.cfg.ring 1 r.2
          s.sumForward x.cfg.ring (match x.cfg.ring with | .hsr _ => 0 | .adeid => 3) { r.2 with copyB := true }

/-- A sum frame for a created zone, after the tests that every device makes: addition and conversion on the first lap, removal and
totals on the second (R219 to R222). -/
def State.sumMember (s : State) (zi : Nat) (z : Zone) (r : ZoneRing) (port : Nat) (f : SumFrame) : State :=
  let s := s.onZone zi fun z => z.enter f.sec f.idx
  let own := decide (f.cfgTag = z.cfgTag)
  let s := s.onInstant zi f.sec f.idx fun x => { x with anyFrame := true, cfgOk := x.cfgOk || own, cfgBad := x.cfgBad || !own }
  let s := if f.lap2 then s else s.headPasses zi z f
  if !own then
    let s := (s.onDiff fun d => { d with cfgBad := satInc 16 d.cfgBad }).raise .diff 5
    (if f.lap2 || z.member.isNone then s else s.withhold zi .cfg).sumForward r port f
  else
    let z := (s.zone? zi).getD z
    if f.lap2 then
      if f.convDev = s.sec.device ∧ (f.turn = f.convTurn ∨ f.turn = f.convTurn + 2) then s
      else if (z.instant? f.sec f.idx).any fun x => decide (x.time + z.cfg.deadlineNs < s.ltc) then
        (s.onDiff fun d => { d with late := satInc 32 d.late }).raise .diff 6
      else (s.takeTotals zi z f).sumForward r port f
    else
      let a := s.addOwn zi z f
      match a.1.convert z a.2 with
      | some g => (a.1.takeTotals zi z g).sumForward r port g
      | none => a.1.sumForward r port a.2

/-- What a device does with a sum frame that arrives on a port of a ring (R217, R219, R229). -/
def State.sumRx (s : State) (x : SumIn) : State :=
  if !s.ringUp x.ring x.port then s else
    let s := s.diffJoin
    let f := x.frame
    let zi := s.diff.zones.findIdx fun z => z.cfg.zoneId = f.zoneId ∧ z.cfg.ring = x.ring
    let z := s.zone? zi
    let used := (z.map fun z => nth z.admitted x.port 0).getD 0
    if 8 ≤ used then (s.onDiff fun d => { d with refused := satInc 16 d.refused }).raise .diff 8
    else
      let s := s.onZone zi fun z => { z with admitted := updAt z.admitted x.port (· + 1) }
      if !x.checkOk then (((s.onDiff fun d => { d with checkFail := satInc 32 d.checkFail }).raise .diff 3).pathFail 0).sumSpoil x.ring x.port f
      else if f.alive ≠ sumNumber f.sec f.idx % 256 then
        ((s.onDiff fun d => { d with aliveBad := satInc 16 d.aliveBad }).raise .diff 4).sumSpoil x.ring x.port f
      else if 255 ≤ f.hops then s.hopLimit
      else
        let f := { f with hops := f.hops + 1 }
        match z with
        | none => s.sumForward x.ring x.port f
        | some z => s.sumMember zi z x.ring x.port f

/-- A sum frame arrives on a port of a ring (R217, R219, R229). -/
def execSumFrameRx (x : SumIn) (s : State) : Out := .next (s.sumRx x)

/-- Frames came for the instant, and every one carried another CFG_TAG (R227). -/
def ZoneInstant.foreign (i : ZoneInstant) : Bool := i.anyFrame && i.cfgBad && !i.cfgOk

/-- The deadline of the oldest undecided instant has passed: it is incomplete (R222, R227). DESIGN CHOICE: an instant whose every frame carried
another CFG_TAG blocks the zone by the CFG row, at the third in a row, and not as NO_FRAME at the first (log entry 60). -/
def execDiffDeadline (z : Nat) (s : State) : Out :=
  .next <| match s.zone? z with
  | none => s
  | some x =>
    match x.instants.reverse.find? fun i => !i.done && decide (i.time + x.cfg.deadlineNs ≤ s.ltc) with
    | none => s
    | some i =>
      let s := s.onZone z fun x => { x with cfgRun := if i.foreign then x.cfgRun + 1 else 0 }
      if !i.foreign then s.instantIncomplete z i (if i.sat then .sat else if !i.bad.isEmpty then .incomplete else .noFrame)
      else if 2 ≤ x.cfgRun then s.instantIncomplete z i .cfg
      else (s.decideInstant z i).onZone z fun x => { x with unblockLeft := x.cfg.unblockCount }

end Sys2Proof.Machine
end

