-- ==== Sys2Proof/Machine/AdeidOps.lean ====
section
/-! DEFINITION. Operations of the Adeid cluster: topology, reachability, links, the registers (spec/15_host_cluster_berths.md R495 to R502, R515, R516). -/

namespace Sys2Proof.Machine

open Sys2Proof

/-! ### Topology (R495, R500, R501) -/

def State.clusterSize (s : State) : Nat := s.adeid.nodes.length
def State.clustered (s : State) : Bool := !s.adeid.nodes.isEmpty

/-- The harbour: node 0 with the host link up (R495, R516). -/
def State.harbour (s : State) : Bool := s.clustered && s.adeid.node == 0 && s.host.linkUp

/-- A link of a node is up, as broadcast, or as it stands for this node. -/
def State.nodeLink (s : State) (n q : Nat) : Bool :=
  if n = s.adeid.node then s.linkUp q else nth (nth s.adeid.states n {}).links q false

/-- A node has been heard on a ring within 3 ms (R501). -/
def State.heard (s : State) (n : Nat) (secondary : Bool) : Bool :=
  let x := nth s.adeid.states n {}
  n = s.adeid.node || (if secondary then x.beatS else x.beatP).any fun t => decide (s.now < t + msec 3)

/-- The ring joins node `a` to the next present node `b` in ring order: Q0 to Q1 on the primary ring, Q2 back from Q3 on the secondary (R495). -/
def State.joined (s : State) (secondary : Bool) (a b : Nat) : Bool :=
  if secondary then s.nodeLink a 2 && s.nodeLink b 3 else s.nodeLink a 0 && s.nodeLink b 1

/-- The nodes that a walk over `order` reaches from `cur` by joined links; absent nodes are passed behind their closed doors (R500, R501). -/
def State.walk (s : State) (secondary up : Bool) : Nat → List Nat → List Nat
  | _, [] => []
  | cur, n :: rest =>
    if !s.heard n secondary then s.walk secondary up cur rest
    else if if up then s.joined secondary cur n else s.joined secondary n cur then n :: s.walk secondary up n rest
    else []

/-- The other nodes in ring order from this one on. -/
def State.ringOrder (s : State) : List Nat :=
  (List.range (s.clusterSize - 1)).map fun i => (s.adeid.node + 1 + i) % s.clusterSize

/-- The nodes reachable on a ring, this one among them (R501). -/
def State.reachable (s : State) (secondary : Bool) : List Nat :=
  if !s.clustered then []
  else s.adeid.node :: (s.walk secondary true s.adeid.node s.ringOrder ++ s.walk secondary false s.adeid.node s.ringOrder.reverse)

/-- Every link of a ring between present nodes is up (R516). -/
def State.ringWhole (s : State) (secondary : Bool) : Bool :=
  let present := (s.ringOrder.filter fun n => s.heard n secondary)
  s.clustered && decide (present.length = (s.walk secondary true s.adeid.node s.ringOrder).length) &&
    (present.getLast?).any fun n => s.joined secondary n s.adeid.node

/-- A change of a node's reachability (R501). -/
def State.reachNode (s : State) (n : Nat) (p q : Bool) : State :=
  let x := nth s.adeid.states n {}
  let s' := s.onAdeid fun a => { a with states := updAt a.states n fun y => { y with reachP := p, reachS := q } }
  if x.reachP = p && x.reachS = q then s'
  else
    let s' := s'.when ((x.reachP && !p) || (x.reachS && !q)) fun s => s.raise .adeid 4
    let s' := s'.when ((!x.reachP && p) || (!x.reachS && q)) fun s => s.raise .adeid 5
    s'.report .adeidReach n [n, b2n p, b2n q]

/-- A change of a ring's wholeness (R501). -/
def State.wholeRing (s : State) (secondary new : Bool) : State :=
  let old := if secondary then s.adeid.secondaryWhole else s.adeid.primaryWhole
  if old = new then s
  else
    let s := s.onAdeid fun a => if secondary then { a with secondaryWhole := new } else { a with primaryWhole := new }
    (s.raise .adeid (if new then 3 else 2)).report .adeidRing 0xFFFF [b2n secondary, b2n new]

/-- Reachability and wholeness are recomputed (R501). -/
def State.recomputeReach (s : State) : State :=
  if !s.clustered then s else
    let p := s.reachable false
    let q := s.reachable true
    let s' := s.forEach (List.range s.clusterSize) fun s n => s.reachNode n (p.contains n) (q.contains n)
    (s'.wholeRing false (s.ringWhole false)).wholeRing true (s.ringWhole true)

/-- A node is reachable on one ring at least (R501). -/
def State.nodeReach (s : State) (n : Nat) : Bool :=
  let x := nth s.adeid.states n {}
  x.reachP || x.reachS

/-- This node broadcasts its link states on both rings (R501). -/
def State.sendTopo (s : State) : State :=
  if !s.clustered then s else
    let n := wrapInc 32 s.adeid.topoSeq
    let s := s.onAdeid fun a => { a with topoSeq := n, topoAt := s.now }
    s.adeidSend 0 true (.topo n ((List.range 4).map s.linkUp))

/-! ### Links (R500) -/

/-- A change of a link's state is flagged and logged, and the topology follows (R500, R501). -/
def State.linkChanged (s : State) (q : Nat) : State :=
  let s := (s.raise .adeid 0).report .adeidLink q [q, (s.link q).phase.num]
  s.recomputeReach.sendTopo

/-- A link goes down; what waited at its egress is lost (R500; the loss is the model's choice). -/
def State.adeidLinkDown (s : State) (q : Nat) : State :=
  if (s.link q).phase = .down then s
  else
    let s := s.onLink q fun l => { l with phase := .down, downs := satInc 16 l.downs, valid := 0, egress := [] }
    s.linkChanged q

/-- A link comes up: the alive tests start anew, and the credits follow the neighbour's counts (R470, R498, R500). -/
def State.adeidLinkUp (s : State) (q : Nat) : State :=
  let s := s.onLink q fun l => { l with phase := .up, aliveRx := List.replicate 7 {}, sentCls := l.theirs }
  s.linkChanged q

/-! ### Registers (R515, R516) -/

def State.adeidStatus (s : State) : Word :=
  let a := s.adeid
  fld 0 a.node ||| flag 6 s.harbour ||| flag 7 s.clustered ||| flag 8 a.primaryWhole ||| flag 9 a.secondaryWhole |||
    fld 10 s.clusterSize ||| flag 17 a.ready

def doorBits (l : List Door) (at_ : Nat) (f : Door → Bool) : Word := l.zipIdx.foldl (fun w d => w ||| flag (at_ + d.2) (f d.1)) 0

def AdeidState.doorWord (a : AdeidState) : Word :=
  doorBits a.doors 0 (·.open_) ||| doorBits a.doors 8 (·.open_) ||| fld 16 a.lastCause ||| fld 19 a.lastDoor ||| doorBits a.doors 22 (·.cmdClosed)

/-- 32 nodes of a ring's reachability, from `base` on. -/
def State.reachWord (s : State) (secondary : Bool) (base : Nat) : Word :=
  (List.range 32).foldl (fun w i =>
    let x := nth s.adeid.states (base + i) {}
    w ||| flag i (if secondary then x.reachS else x.reachP)) 0

def AdeidLink.reg (l : AdeidLink) (o : Nat) : Word :=
  if o = 0 then fld 0 l.phase.num ||| fld 2 l.neighbour ||| fld 8 l.device ||| flag 22 l.skipped
  else if o = 4 then fld 0 l.checkFails ||| fld 16 l.downs
  else if o = 8 then l.tx
  else if o = 0xC then l.rx
  else 0

/-- A register of the ADEID block by its offset, but for the event register (R515). -/
def State.adeidReg (s : State) (o : Nat) : Word :=
  let a := s.adeid
  if o = 0 then s.adeidStatus
  else if o = 8 then a.doorWord
  else if o = 0x10 then s.reachWord false 0
  else if o = 0x14 then s.reachWord false 32
  else if o = 0x18 then s.reachWord true 0
  else if o = 0x1C then s.reachWord true 32
  else if o = 0x20 then fld 0 a.discard ||| fld 16 a.dups
  else if o = 0x24 then BitVec.ofNat 32 a.wraps
  else if 0x100 ≤ o ∧ o < 0x180 then (s.link ((o - 0x100) / 0x20)).reg ((o - 0x100) % 0x20)
  else 0

end Sys2Proof.Machine
end

