-- ==== Sys2Proof/Machine/NetFrame.lean ====
section
/-! DEFINITION. What becomes of a frame that arrives on a port (spec/13_network_and_time.md R430 to R440, R444, R455). -/

namespace Sys2Proof.Machine

open Sys2Proof

/-! ### PTP messages (R441, R444) -/

def State.meanDelay (s : State) (p : Nat) : Num := (((s.ptpPort? p).bind (·.meanDelay))).getD 0

/-- The ports to which the transparent function carries a message that came in on port `p` (R442). -/
def State.tcTargets (s : State) (p : Nat) : List Nat :=
  if s.tcPort p then (s.netCfg.ports.map (·.port)).filter fun q => q ≠ p && s.tcPort q && s.portUp q else []

/-- A two-step Sync on its way out is held in the table of its egress port, which has 64 entries; beyond them the oldest is
discarded and counted (R444). -/
def State.followEnter (s : State) (e : FollowEntry) : State :=
  let mine := s.ptp.follow.filter (·.egress == e.egress)
  if mine.length < 64 then s.onPtp fun x => { x with follow := x.follow ++ [e] }
  else
    let oldest := s.ptp.follow.findIdx (·.egress == e.egress)
    (s.onPtp fun x => { x with follow := x.follow.eraseIdx oldest ++ [e], followLost := x.followLost + 1 }).raise .ptp 7

/-- The transparent function carries a message on; the mean delay of the ingress port is added to a Sync at once, the
residence as it leaves (R444). -/
def State.tcForward (s : State) (p : Nat) (f : Frame) : State :=
  s.forEach (s.tcTargets p) fun s q =>
    match f.kind with
    | .ptp (.sync id seq false corr) => s.enqueue q { f with kind := .ptp (.sync id seq false (corr + s.meanDelay p)) }
    | .ptp (.sync id seq true _) =>
      (s.followEnter { egress := q, portId := id, seq := seq, corr := s.meanDelay p, at_ := s.now }).enqueue q f
    | _ => s.enqueue q f

/-- A PTP message arrives on a port that runs PTP (R441, R444). -/
def State.ptpRx (s : State) (p : Nat) (f : Frame) (m : PtpMsg) : State :=
  match m with
  | .sync _ _ two _ => (s.onPtpPort p fun x => { x with twoStepRx := two }).tcForward p f
  | .followUp _ _ _ => s.tcForward p f
  | .announce a => (s.tcForward p f).announceRx p a
  | .peerDelay => s
  | .endToEnd | .management => s.onPtpPort p fun x => { x with discarded := satInc 16 x.discarded }

/-! ### Intake (R455) -/

/-- A GOOSE or SV frame that matches a subscription is consumed; one that matches none is counted once intake is open (R455). -/
def State.countUnsubscribed (s : State) (f : Frame) : State :=
  let subscribed := match f.kind with
    | .goose appid ref => s.netCfg.gooseSubs.any fun c => c.dst == f.dst && c.appid == appid && c.gocbRef == ref
    | .sv appid id => s.netCfg.svSubs.any fun c => c.dst == f.dst && c.appid == appid && c.svId == id
    | _ => true
  s.when (!subscribed && s.net.intakeOpen) fun s => s.onNet fun n => { n with intakeRefused := satInc 32 n.intakeRefused }

/-! ### Forwarding (R431 to R434, R437) -/

/-- A pair joins the other ports only through its RedBox and the host frame port (R437). -/
def State.mayCross (s : State) (p q : Nat) : Bool :=
  let side := fun (a b : Nat) => match s.netCfg.pairOf? a with
    | none => true
    | some k => b == 44 || (k.redbox && k.proxies.contains b)
  side p q && side q p

/-- Within STORM_LIMIT, counted over whole seconds of local time, flooded traffic passes (R434). -/
def State.stormPasses (s : State) (p len : Nat) : Bool :=
  match s.netCfg.port? p, s.port? p with
  | some c, some x =>
    let used := if s.now / 1000000000 = x.stormAt then x.stormBits else 0
    c.stormLimit = 0 || decide ((used + 8 * len) * 100 ≤ c.stormLimit * x.mbps * 1000000)
  | _, _ => true

/-- Account for flooded traffic (R434). -/
def State.stormCount (s : State) (p len : Nat) : State :=
  s.onPort p fun x =>
    let sec := s.now / 1000000000
    { x with stormBits := (if sec = x.stormAt then x.stormBits else 0) + 8 * len, stormAt := sec }

/-- A discarded frame of the storm limit or the ingress filter is counted (R431, R434). -/
def State.countFiltered (s : State) (p : Nat) : State := s.onPort p fun x => { x with filtered := satInc 16 x.filtered }

/-- The frame as it leaves on a port of its VLAN: tagged or untagged (R431). -/
def State.egressForm (s : State) (q vid : Nat) (f : Frame) : Frame :=
  let tagged := ((s.netCfg.vlans.find? (·.vid == vid)).bind fun v => (v.members.find? (·.1 == q)).map (·.2)).getD false
  let len := f.len - (if f.vid.isSome then 4 else 0) + (if tagged then 4 else 0)
  { f with vid := if tagged then some vid else none, len := len }

/-- A source behind a RedBox enters the proxy table of the pair, which has 512 entries (R437). -/
def State.proxyLearn (s : State) (q : Nat) (mac : BitVec 48) : State :=
  match s.netCfg.pairOf? q with
  | none => s
  | some k => s.onPair k.pair fun x =>
    let rest := x.proxies.filter (·.mac != mac)
    { x with proxies := if rest.length < 512 then { mac := mac, seen := s.now } :: rest else rest }

/-- A frame is forwarded within its VLAN to the ports that its destination leads to (R431, R432, R434). -/
def State.forward (s : State) (p vid : Nat) (f : Frame) : State :=
  let from_ := s.netCfg.learnPort p
  let s := s.learn f.src vid p
  let d := s.lookup f.dst vid
  if d.2 && !s.stormPasses p f.len then s.countFiltered p else
    let s := s.when d.2 fun s => s.stormCount p f.len
    let targets := (s.netCfg.onePerPair (d.1.filter fun q => (s.netCfg.members vid).contains q)).filter fun q =>
      q ≠ from_ && s.mayCross p q
    s.forEach targets fun s q =>
      let g := s.egressForm q vid f
      if p ≠ 44 && (s.netCfg.pairOf? q).isSome then (s.proxyLearn q f.src).sendOn q g else s.sendOn q g

/-- A frame within the fabric, once redundancy is off it: intake, then forwarding (R434, R455). -/
def State.deliver (s : State) (p vid : Nat) (f : Frame) : State :=
  let s := s.countUnsubscribed f
  if f.dst = Config.ownMac then s.learn f.src vid p else s.forward p vid f

/-! ### Pairs (R438, R439) -/

/-- A tagged frame of a pair: supervision, the device's own frame back from the ring, a second copy, or a first copy, which an
HSR node also forwards along the ring (R438, R439). -/
def State.pairRx (s : State) (k : PairCfg) (p vid : Nat) (f : Frame) (tag : RedTag) : State :=
  let other := if p = k.first then k.second else k.first
  let s := s.when (k.kind = .prp && !tag.lanOk) fun s => s.onPair k.pair fun x => { x with wrongLan := satInc 16 x.wrongLan }
  let onward := fun (s : State) => if k.kind = .hsr && f.dst ≠ Config.ownMac then s.enqueue other f else s
  let inner := { f with red := none, len := f.len - 6 }
  if f.src = Config.ownMac then (if f.kind = .supervision then s.supervised k p f else s)
  else match s.pair? k.pair with
    | none => s
    | some x =>
      if s.dupSeen x f tag.seq then s.dupCount k.pair f tag.seq
      else
        let s := onward (s.dupEnter k.pair p f tag.seq)
        if f.kind = .supervision then s.supervised k p f else s.deliver p vid inner

/-- A frame with its VLAN settled: sum frames are left to DIFF, frames of a pair take the redundancy rules (R438, R440). -/
def State.fabricRx (s : State) (p vid : Nat) (f : Frame) : State :=
  if f.kind = .sum then s else
    match s.netCfg.pairOf? p, f.red with
    | some k, some tag => s.pairRx k p vid f tag
    | some k, none => if f.kind = .supervision then s.supervised k p f else s.deliver p vid f
    | none, _ => s.deliver p vid f

/-- A frame from port `p` is cut through to port `q`, which transmits no faster: its queue is empty, and its gate stays open for the whole
frame (R433). -/
def State.cutThrough (s : State) (p q : Nat) (f : Frame) : Bool :=
  match s.port? p, s.port? q, s.netCfg.port? q with
  | some a, some b, some c =>
    c.cutThrough && decide (6 ≤ f.pcp ∧ b.mbps ≤ a.mbps) && (nth b.queues f.pcp []).isEmpty &&
      (match s.gateOpenFor b f.pcp with
        | none => true
        | some left => decide (b.lineTime f.len ≤ left))
  | _, _, _ => false

/-- The ports to which a frame has begun to leave when its FCS is found bad (R430, R432, R438). -/
def State.cutTargets (s : State) (p : Nat) (f : Frame) : List Nat :=
  let vid := (f.vid.filter (· ≠ 0)).getD (((s.netCfg.port? p).map (·.pvid)).getD 1)
  let l := match s.netCfg.pairOf? p with
    | some k => if k.kind == PairKind.hsr && f.dst ≠ Config.ownMac && f.src ≠ Config.ownMac then [if p = k.first then k.second else k.first] else []
    | none => (s.lookup f.dst vid).1.filter fun q => (s.netCfg.members vid).contains q && q ≠ p && (s.netCfg.pairOf? q).isNone
  if f.kind = .sum then [] else l.filter fun q => q ≠ 44 && s.cutThrough p q f

/-- A frame whose FCS fails is counted and discarded; one that is being cut through is ended with an inverted FCS (R430). -/
def State.badFcs (s : State) (p : Nat) (f : Frame) : State :=
  ((s.onPort p fun q => { q with fcsErr := satInc 32 q.fcsErr }).pathFail 4).forEach (s.cutTargets p f) fun s q => s.enqueue q { f with fcsBad := true }

/-- A frame with a good FCS and length: the reserved addresses, PTP, then its VLAN (R431, R432, R440). -/
def State.frameRx (s : State) (p : Nat) (f : Frame) : State :=
  match s.netCfg.port? p with
  | none => s
  | some c =>
    let reserved := f.dst.toNat / 16 = 0x0180C200000
    match f.kind with
    | .ptp m => if s.ptpRuns p then s.ptpRx p f m else if reserved then s else s.fabricRx p c.pvid f
    | _ =>
      if reserved then s else
        let vid := match f.vid with
          | none | some 0 => c.pvid
          | some v => v
        let f := if f.vid.isNone then { f with pcp := c.defaultPcp } else f
        if c.ingressFilter && !(s.netCfg.members vid).contains p then s.countFiltered p else s.fabricRx p vid f

/-- The port takes frames: it is up, is no gate-link, and the ports have trained (R428, R556). -/
def State.takesFrames (s : State) (p : Nat) : Bool :=
  s.portUp p && decide (6 ≤ s.sys.stage ∧ s.sys.stage ≤ 11) && (s.netCfg.port? p).any fun c => c.mode ≠ .gateLink

/-- A port goes down, its queued frames discarded and counted, or comes up (R428, R439). -/
def State.portLink (s : State) (p : Nat) (up : Bool) (mbps : Nat) : State :=
  match s.port? p with
  | none => s
  | some x =>
    if x.link = up then s else
      let flushed := (x.queues.map List.length).sum
      let s := s.onPort p fun x =>
        { x with
          link := up, linkChanges := satInc 8 x.linkChanges
          speed := if up then speedCode mbps else x.speed
          queues := if up then x.queues else List.replicate 8 []
          drops := if up then x.drops else satAdd 16 x.drops flushed }
      (((s.raise .net 0).report .netLink p [b2n up]).closePairs).elect

/-- The lanes of a port can train: the ports have started, the SerDes have their reference, and the port's door is open (R105, R506, R556). -/
def State.laneUsable (s : State) (p : Nat) : Bool :=
  decide (6 ≤ s.sys.stage ∧ s.sys.stage ≤ 11) && !s.clk.refNone &&
    (decide (8 ≤ p) || (nth s.adeid.doors (2 + p / 2) {}).open_)

end Sys2Proof.Machine
end

