-- ==== Sys2Proof/Machine/DoorOps.lean ====
section
/-! DEFINITION. Operations on the fall-doors (spec/15_host_cluster_berths.md R506 to R510; spec/17_startup_power_reset.md R558 to R560). -/

namespace Sys2Proof.Machine

open Sys2Proof

def State.door (s : State) (d : Nat) : Door := nth s.adeid.doors d {}
def State.onDoor (s : State) (d : Nat) (f : Door → Door) : State := s.onAdeid fun a => { a with doors := updAt a.doors d f }

/-- A port is created in any mode (R558). -/
def State.portCreated (s : State) (p : Nat) : Bool := (s.port? p).isSome

/-- The live Manifest opens a door (R558). -/
def State.doorWanted (s : State) (d : Nat) : Bool :=
  s.sec.live && if d < 2 then s.clustered else s.portCreated (2 * (d - 2)) || s.portCreated (2 * (d - 2) + 1)

/-- The doors that the live Manifest opens, in ascending order (R558). -/
def State.doorsWanted (s : State) : List Nat := (List.range 6).filter s.doorWanted

/-- The lanes of a closed door's pair are down to the device (R506). -/
def State.pairDown (s : State) (d : Nat) : State :=
  if d < 2 then (s.adeidLinkDown (2 * d)).adeidLinkDown (2 * d + 1)
  else (s.portLink (2 * (d - 2)) false 0).portLink (2 * (d - 2) + 1) false 0

/-- A door's hold is removed, and it closes (R506). -/
def State.closeDoor (s : State) (d cause : Nat) : State :=
  let was := (s.door d).open_
  let s := s.onDoor d fun x => { x with open_ := false, openAt := none }
  if !was then s else
    let s := s.onAdeid fun a => { a with lastCause := cause, lastDoor := d }
    ((s.raise .adeid 7).report .doorClose d [d, cause]).pairDown d

/-- Every door closes (R506). -/
def State.closeDoors (s : State) (cause : Nat) : State := s.forEach (List.range 6) fun s d => s.closeDoor d cause

/-- A door's hold is restored, and it opens (R506, R509). -/
def State.openDoor (s : State) (d : Nat) : State :=
  ((s.onDoor d fun x => { x with open_ := true, openAt := none }).raise .adeid 7).report .doorOpen d [d]

/-- H of R558, in ns, for `n` doors. -/
def State.holdOff (s : State) (n : Nat) : Ns := msec (20 * (s.sec.device % (12 - n)))

/-- The opening times of the doors from an origin; a door that DOOR_CLOSE holds keeps its place (R558, R560). -/
def State.scheduleDoors (s : State) (origin : Ns) : State :=
  let l := s.doorsWanted
  s.forEach l.zipIdx fun s p =>
    s.onDoor p.1 fun x =>
      if x.open_ then x else { x with openAt := some (origin + msec 300 + s.holdOff l.length + msec (20 * p.2)) }

/-- A cause of R506 other than the command holds for a door. -/
def State.doorBarred (s : State) (d : Nat) : Bool :=
  s.sys.lastwords || (s.clk.degraded && s.clk.degCause == .refLoss) || s.adeid.holdLapsed || s.sec.bare || !s.doorWanted d

/-- A created differential zone runs over the pair of a door (R510). -/
def State.doorHasZone (s : State) (d : Nat) : Bool :=
  s.manifest.diff.any fun z =>
    match z.ring with
    | .adeid => decide (d < 2)
    | .hsr k => (s.pairCfg? k).any fun p => decide (2 + p.first / 2 = d ∧ p.first < 8)

/-- Why DOOR_CLOSE is refused (R510). -/
def State.refuseClose (s : State) (d : Nat) : Option Refuse :=
  if s.doorHasZone d || (s.harbour && decide (d < 2)) then some { blk := .adeid, src := d, st0 := s.adeid.doorWord } else none

/-- Why DOOR_OPEN is refused (R510). -/
def State.refuseOpen (s : State) (d : Nat) : Option Refuse :=
  if !s.host.ready || s.doorBarred d then some { blk := .adeid, src := d, st0 := s.adeid.doorWord } else none

end Sys2Proof.Machine
end

