-- ==== Sys2Proof/Machine/Door.lean ====
section
/-! DEFINITION. The commands of the fall-doors (spec/15_host_cluster_berths.md R506 to R510; spec/17_startup_power_reset.md R558, R560). -/

namespace Sys2Proof.Machine

open Sys2Proof

/-- CORE renews the hold every 100 µs; the first renewal after a lapse starts the opening sequence (R506, R560). -/
def execDoorHoldRenew (s : State) : Out :=
  .next <| if nth s.clk.stopped 0 false || s.sys.held || s.sys.lastwords || !s.passed s.adeid.holdRenewed 100000 then s else
    let lapsed := s.adeid.holdLapsed
    let s := s.onAdeid fun a => { a with holdRenewed := s.now, holdLapsed := false }
    s.when (lapsed && decide (8 ≤ s.sys.stage ∧ s.sys.stage ≤ 11)) fun s => s.scheduleDoors s.now

/-- A hold not renewed for 1 ms lapses, and every door closes (R506). -/
def execDoorHoldLapse (s : State) : Out :=
  .next <| if s.adeid.holdLapsed || !s.passed s.adeid.holdRenewed (msec 1) || !s.adeid.doors.any (·.open_) then s else
    (s.onAdeid fun a => { a with holdLapsed := true }).closeDoors 4

/-- A door's opening time is reached (R558). -/
def execDoorOpenScheduled (d : Nat) (s : State) : Out :=
  .next <| if !(s.door d).openAt.any (fun t => decide (t ≤ s.now)) then s
  else if (s.door d).open_ || (s.door d).cmdClosed || s.doorBarred d then s.onDoor d fun x => { x with openAt := none }
  else s.openDoor d

/-- DOOR_CLOSE (R510). -/
def execDoorClose (b : Nat) (s : State) : Out :=
  .next <| match s.ctlCmd b with
  | some (.doorClose d) =>
    s.runCtl b (s.refuseClose d) fun s => ((s.closeDoor d 1).onDoor d fun x => { x with cmdClosed := true }).done b
  | _ => s

/-- DOOR_OPEN (R510). -/
def execDoorOpen (b : Nat) (s : State) : Out :=
  .next <| match s.ctlCmd b with
  | some (.doorOpen d) =>
    s.runCtl b (s.refuseOpen d) fun s =>
      let s := s.onDoor d fun x => { x with cmdClosed := false }
      (if (s.door d).open_ then s else s.openDoor d).done b
  | _ => s

end Sys2Proof.Machine
end

