-- ==== Sys2Proof/Machine/Log.lean ====
section
/-! DEFINITION. Logbook commands: commits, the tail, the Hatches, the staging register (spec/12_logbook.md). -/

namespace Sys2Proof.Machine

open Sys2Proof

/-- The writer's next commit ends: the LOG_REPEAT of an open tail when another entry waits, else the oldest entry, whose
place then frees (R405, R407, R409, R410). -/
def execLogCommitDone (readback : Bool) (s : State) : Out :=
  .next <| if !s.log.ready || s.log.bothFail then s else
    match s.log.staging with
    | [] => s
    | e :: rest =>
      if s.log.tail.any fun t => decide (t.count ≠ 0) then s.logCommit (fun s => s.closeTail .another) readback
      else
        let s := (s.onLog fun l => { l with staging := rest, tail := none }).logCommit (fun s => s.commitEntry e) readback
        if s.log.bothFail then s else s.endOverflow

/-- While repeats arrive, the tail slot pair is rewritten, at most once per 100 µs (R409). -/
def execLogTailUpdate (s : State) : Out :=
  let stale := decide (s.log.currentTail.tail ≠ s.log.tail)
  .next <| if (s.log.tail.any fun t => decide (t.count ≠ 0)) && stale && s.passed s.log.tailWritten 100000 then
    s.onLog fun l => l.writeTail true s.now
  else s

/-- TAIL_FOLD_MAX has passed since the tail opened, or its count is full: it closes (R409). -/
def execLogTailFold (s : State) : Out :=
  .next <| match s.log.tail with
  | none => s
  | some t =>
    if t.count = 0 then s
    else if t.count = 2 ^ 32 - 1 then s.closeTail .count
    else if s.passed t.openedAt s.log.cfg.tailFoldMax then s.closeTail .age
    else s

/-- A write of LOG_H_CURSOR_LO sets the cursor with the last high word written (R414). -/
def State.cursorWrite (s : State) (h : Nat) (lo : Word) : State :=
  s.onLog fun l => { l with hatches := updAt l.hatches h fun x => { x with cursor := x.cursorHi ++ lo } }

/-- A write of LOG_H_CURSOR_LO (R414). -/
def execLogHCursorWrite (h : Nat) (lo : Word) (s : State) : Out := .next (s.cursorWrite h lo)

/-- A failing entry that a STAT read reports is counted, and opens a window or is counted in it (R417). -/
def State.checkFailed (s : State) (n : Nat) : State :=
  ((s.pathFail 5).onLog fun l =>
    { l with
      checkFail := satInc 32 l.checkFail
      cfWindow := match l.cfWindow with
        | none => some (s.now, s.ltc, n, 1)
        | some w => some (w.1, w.2.1, w.2.2.1, w.2.2.2 + 1) }).raise .log 4

/-- A read of LOG_H_STAT checks the 8 records under the window (R415, R417, R592). -/
def execLogHStatRead (h : Nat) (s : State) : Out :=
  let w := s.log.hatchStat h
  let c := (nth s.log.hatches h {}).cursor.toNat
  let bad := ((List.range 8).map (c + ·)).filter fun n => s.log.status n == 1
  .next <| if h < 4 then
    ((s.forEach bad State.checkFailed).onLog fun l =>
      { l with hatches := updAt l.hatches h fun x => { x with stat := w } }).answer (.data w)
  else s

/-- The 1 s window of failing entries ends (R417). -/
def execLogCheckFailWindowEnd (s : State) : Out :=
  .next <| if s.log.cfWindow.any fun w => s.passed w.1 (secs 1) then s.endCheckWindow else s

/-- A read of LOG_STAGE returns the occupancy and the peak, and the peak starts again (R411, R592). -/
def execLogStageRead (s : State) : Out :=
  .next <| (s.onLog fun l => { l with peak := l.staging.length }).answer
    (.data (fld 0 s.log.staging.length ||| fld 16 s.log.peak))

end Sys2Proof.Machine
end

