-- ==== Sys2Proof/Machine/GateOps.lean ====
section
/-! DEFINITION. Operations of GATE: switching instants, downlinks, repeats, delay measurement, the registers (spec/08_gate_link.md). -/

namespace Sys2Proof.Machine

open Sys2Proof

def State.gateLink? (s : State) (br : Nat) : Option GateLink := s.gate.links.find? (·.cfg.bridge == br)
def State.onGateLink (s : State) (br : Nat) (f : GateLink → GateLink) : State :=
  s.onGate fun g => { g with links := g.links.map fun x => if x.cfg.bridge == br then f x else x }

/-- Nanoseconds as whole gate units of 1.25 ns (R285). -/
def guOf (t : Num) : Int := roundInt (t * 4 / 5)

/-! ### Switching instants (R287) -/

/-- The level a row of R287 starts from, the level it goes to, and τ before rounding. -/
def legRow (three falling : Bool) (half : Nat) (m : Num) : LegLevel × LegLevel × Num :=
  if !three then
    if falling then (.low, .high, half * (1 - m) / 2) else (.high, .low, half * (1 + m) / 2)
  else if 0 ≤ m then
    if falling then (.mid, .high, half * (1 - m)) else (.high, .mid, half * m)
  else if falling then (.low, .mid, half * (-m)) else (.mid, .low, half * (1 + m))

/-- The leg of a half-period from its level at the end of the last one and its index (R287). -/
def legOf (three falling : Bool) (half minPulse : Nat) (start : LegLevel) (m : Num) : Leg :=
  let r := legRow three falling half (Num.clamp (-1) 1 m)
  let t := (roundInt r.2.2).toNat
  let tau := if 2 * t < minPulse then some 0 else if 2 * half < 2 * t + minPulse then none else some t
  let first := if start = r.1 then [] else [(0, r.1)]
  { start := start, trans := first ++ (tau.map fun x => (x, r.2.1)).toList }

/-- The level at the end of a leg. -/
def Leg.final (l : Leg) : LegLevel := (l.trans.getLast?.map (·.2)).getD l.start

/-- The mirror of a leg onto the other carrier direction (R295). -/
def Leg.mirror (l : Leg) (half : Nat) : Leg :=
  let from_ := l.start :: l.trans.map (·.2)
  let back := (l.trans.zip from_).reverse.map fun x => (half - x.1.1, x.2)
  { start := l.final, trans := back.filter fun x => decide (x.1 < half) }

/-- A leg that is off (R289). -/
def Leg.off : Leg := {}

/-! ### Downlinks (R288, R289, R292, R295 to R297, R301) -/

/-- HALF: Ts in gu; in DEGRADED, Ts of backup-clock time measured in true gu, within 5 % of it (R286, R301). -/
def State.halfOf (s : State) (ts : Ns) : Nat × State :=
  let h := ts * 4 / 5
  if s.gate.degraded then
    let r := s.drawNat
    (h - h / 20 + r.1 % (h / 10 + 1), r.2)
  else (h, s)

/-- A downlink leaves for boundary `n`, which lies at the local time `at_`; its departure follows within 0.5 µs. LEAD counts in true gu, by
the half-period that stands for Ts (R292, R293, R301). -/
def State.sendDownlink (s : State) (br n : Nat) (at_ ts : Ns) (block repeat_ falling : Bool) (half : Nat) (legs : List Leg) : State :=
  match s.gateLink? br with
  | none => s
  | some g =>
    let r := s.drawNat
    let s := r.2
    let tx : Num := s.now + (r.1 % 501 : Nat)
    let legs := if block then List.replicate 4 Leg.off else legs
    let a := (g.alive + 1) % 256
    let dl : Downlink :=
      { alive := a, block := block, repeat_ := repeat_, syncValid := g.syncValid, clear := decide (g.clearLeft ≠ 0)
        degraded := s.gate.degraded, cycle := n, lead := guOf (((at_ : Num) - tx) * half / ((ts * 4 / 5 : Nat) : Num) - g.d), half := half, falling := falling, legs := legs }
    s.onGateLink br fun g =>
      { g with
        alive := a, last := dl, blockSent := block, clearLeft := g.clearLeft - 1, sent := wrapInc 32 g.sent
        departures := ((a, tx) :: g.departures).take 256, levels := legs.map Leg.final, sentFor := n }

/-- A downlink with the instants of its legs' indices (R287, R289). -/
def State.sendInstants (s : State) (br n : Nat) (at_ : Ns) (ts : Ns) (falling : Bool) (idx : List Num) : State :=
  match s.gateLink? br with
  | none => s
  | some g =>
    let h := s.halfOf ts
    let leg := fun (k : Nat) =>
      if k < 3 ∨ g.cfg.neutralLeg then
        legOf g.cfg.threeLevel falling h.1 (g.cfg.minPulse * 4 / 5) (nth g.levels k .off) (nth idx k 0)
      else Leg.off
    h.2.sendDownlink br n at_ ts false false falling h.1 ((List.range 4).map leg)

/-- A BLOCK downlink (R296). -/
def State.sendBlock (s : State) (br n : Nat) (at_ : Ns) (ts : Ns) (falling : Bool) : State :=
  let h := s.halfOf ts
  h.2.sendDownlink br n at_ ts true false falling h.1 []

/-- A repeat: the mirror of the previous downlink (R295). -/
def State.sendRepeat (s : State) (br n : Nat) (at_ : Ns) (ts : Ns) (falling : Bool) : State :=
  match s.gateLink? br with
  | none => s
  | some g =>
    let h := s.halfOf ts
    let s := h.2.sendDownlink br n at_ ts false true falling h.1 (g.last.legs.map fun l => l.mirror h.1)
    (s.onGateLink br fun g => { g with repeats := satInc 16 g.repeats }).raise .gate 6

/-! ### Delay measurement (R292) -/

def mean (l : List Num) : Num := if l.isEmpty then 0 else l.foldl (· + ·) 0 / l.length

/-- SYNC_VALID is cleared (R292). -/
def State.gateUnsync (s : State) (br : Nat) : State :=
  match s.gateLink? br with
  | none => s
  | some g =>
    let s := s.onGateLink br fun g => { g with syncValid := false, syncCount := 0 }
    s.when g.syncValid fun s => s.raise .gate 3

/-- A measurement of the one-way delay enters the average, SYNC_VALID and the test against DELAY_MAX (R292). -/
def State.gateDelay (s : State) (br : Nat) (d : Num) : State :=
  match s.gateLink? br with
  | none => s
  | some g =>
    let l := (d :: g.delays).take 64
    let run := l.take (g.syncCount + 1)
    let near := run.all fun x => decide ((x - mean run).mag ≤ 10)
    let n := if near then min 64 (g.syncCount + 1) else 1
    let gained := decide (n = 64) && !g.syncValid
    let far := decide ((g.cfg.delayMax : Num) < mean l)
    let s := s.onGateLink br fun g =>
      { g with delays := l, d := mean l, syncCount := n, syncValid := g.syncValid || gained, delayExceeded := far }
    let s := s.when gained fun s => s.raise .gate 2
    s.when (far && !g.delayExceeded) fun s => (s.raise .gate 9).report .gateDelay br [roundInt (mean l)]

/-- A gate-link goes down: its uplinks are missing from now on, and SYNC_VALID clears (R292, R302). -/
def State.gateDown (s : State) (br : Nat) : State :=
  match s.gateLink? br with
  | none => s
  | some g =>
    if !g.up then s else
      let s := s.onGateLink br fun g => { g with up := false, uplink := none }
      ((s.gateUnsync br).raise .gate 0).report .gateLinkDown br

/-! ### Uplinks (R288, R290, R294) -/

/-- An uplink meets the tests of R288 but for CHECK and ALIVE: TYPE and VERSION, BRIDGE, and CYCLE of the boundary just passed. -/
def GateLink.accepts (g : GateLink) (cycle : Nat) (f : Uplink) : Bool :=
  decide (f.type = 0xA2 ∧ f.version = 1) && decide (f.bridge = g.cfg.bridge) && decide (f.cycle = cycle)

/-- The alive test of an uplink: 8 bits, at most 16, no resynchronisation (R469, R470). -/
def GateLink.alive? (g : GateLink) (f : Uplink) : AliveResult := (AliveRx.test { last := g.ulAlive } 8 16 false f.alive).1

/-- An admitted uplink: the cycle's values, the delay, the stage's faults and its block (R292, R294). -/
def State.admitUplink (s : State) (br : Nat) (f : Uplink) (tRx : Num) : State :=
  match s.gateLink? br with
  | none => s
  | some g =>
    let faultsWere := (g.lastUp.map (·.faults)).getD 0
    let blockedWas := (g.lastUp.map (·.blocked)).getD false
    let s := s.onGateLink br fun g =>
      { g with
        ulAlive := some f.alive, uplink := some f, lastUp := some f, silent := 0, good := wrapInc 32 g.good, turnLast := f.turn
        turnMax := max g.turnMax f.turn, dlMiss := if f.dlMissed then satInc 16 g.dlMiss else g.dlMiss }
    let s := match g.departures.find? fun x => x.1 == f.dlAlive with
      | some x => s.gateDelay br ((tRx - x.2 - (f.dlArr : Num) * 5 / 4) / 2)
      | none => s
    let s := s.when (decide (f.faults ≠ faultsWere ∧ f.faults ≠ 0)) fun s => (s.raise .gate 4).report .gateStageFault br [f.faults]
    s.when (f.blocked && !blockedWas) fun s => (s.raise .gate 5).report .gateStageBlocked br

/-- The cycle of a bridge computes without its uplink; 64 such cycles clear SYNC_VALID (R292, R294). -/
def State.uplinkMissing (s : State) (br : Nat) : State :=
  let s := (s.onGateLink br fun g => { g with missing := satInc 16 g.missing, silent := g.silent + 1 }).raise .gate 7
  if (s.gateLink? br).any fun g => decide (64 ≤ g.silent) then s.gateUnsync br else s

/-! ### Registers (R304 to R307) -/

def bridgeBits (l : List GateLink) (f : GateLink → Bool) : Nat := (l.map fun g => b2n (f g) * 2 ^ g.cfg.bridge).sum

def State.gateStatus (s : State) : Word :=
  let l := s.gate.links
  fld 0 (bridgeBits l (·.up)) ||| fld 8 (bridgeBits l (·.syncValid)) ||| fld 16 (bridgeBits l (·.blockSent)) ||| flag 24 s.gate.degraded

def gateCfgWord (c : GateCfg) : Word :=
  fld 0 c.port ||| flag 6 true ||| flag 7 c.fast ||| flag 8 c.threeLevel ||| flag 9 c.neutralLeg ||| fld 12 (c.delayMax / 10 % 4096) |||
    fld 24 (c.minPulse / 50 % 256)

def GateLink.status (g : GateLink) : Word :=
  let u := g.lastUp
  fld 0 (if g.up then (if g.syncValid then 2 else 1) else 0) ||| flag 2 g.blockSent ||| flag 3 (u.any (·.blocked)) |||
    flag 4 (u.any (·.faultLatched)) ||| flag 5 (u.any (·.dlMissed)) ||| flag 6 (decide (g.clearLeft ≠ 0)) ||| flag 7 g.delayExceeded |||
    fld 8 ((u.map (·.faults)).getD 0) ||| fld 16 g.syncCount

/-- A temperature of the last valid uplink, 0x8000 when absent (R290). -/
def GateLink.temp (g : GateLink) (i : Nat) : Nat := sfield 16 (((g.lastUp.bind fun u => u.temps[i]?)).getD (-32768))

def GateLink.reg (g : GateLink) (o : Nat) : Word :=
  if o = 0 then gateCfgWord g.cfg
  else if o = 4 then g.status
  else if o = 8 then f32bits g.d
  else if o = 0xC then fld 0 g.turnLast ||| fld 16 g.turnMax
  else if o = 0x10 then BitVec.ofNat 32 g.sent
  else if o = 0x14 then fld 0 g.repeats
  else if o = 0x18 then BitVec.ofNat 32 g.good
  else if o = 0x1C then fld 0 g.badCheck ||| fld 16 g.badOther
  else if o = 0x20 then fld 0 g.missing ||| fld 16 g.late
  else if o = 0x24 then fld 0 g.dlMiss
  else if o = 0x28 then fld 0 (g.temp 0) ||| fld 16 (g.temp 1)
  else if o = 0x2C then fld 0 (g.temp 2) ||| fld 16 (g.temp 3)
  else 0

/-- A register of the GATE block by its offset, but for the event register (R304). -/
def State.gateReg (s : State) (o : Nat) : Word :=
  if o = 0 then s.gateStatus
  else if o < 0x100 ∨ 0x300 ≤ o then 0
  else ((s.gateLink? ((o - 0x100) / 0x40)).map fun g => g.reg ((o - 0x100) % 0x40)).getD 0

end Sys2Proof.Machine
end

