-- ==== Sys2Proof/Machine/FormMath.lean ====
section
/-! DEFINITION. The arithmetic of a forming unit: exact complex numbers, dq values, the rotor, the loops, the sequence allocation (spec/07_forming_engine.md R240 to R256). -/

namespace Sys2Proof.Machine

open Sys2Proof

/-! ### Complex numbers, without rounding -/

def Cx.plus (a b : Cx) : Cx := { re := a.re + b.re, im := a.im + b.im }
def Cx.minus (a b : Cx) : Cx := { re := a.re - b.re, im := a.im - b.im }
def Cx.times (a b : Cx) : Cx := { re := a.re * b.re - a.im * b.im, im := a.re * b.im + a.im * b.re }
def Cx.by_ (a : Cx) (k : Num) : Cx := { re := k * a.re, im := k * a.im }
def Cx.j : Cx := { re := 0, im := 1 }
def Cx.real (x : Num) : Cx := { re := x, im := 0 }
/-- |a|. -/
def Cx.abs (a : Cx) : Num := Config.sqrt (a.re * a.re + a.im * a.im)
/-- e^{jr} for r in radians. -/
def Cx.cis (r : Num) : Cx := { re := Config.cos r, im := Config.sin r }
/-- ∠a in radians. -/
def Cx.ang (a : Cx) : Num := Config.atan2 a.im a.re

/-- An angle in radians, and radians as an angle (R13). -/
def angRad (a : Angle) : Num := 2 * Config.pi * (a.toNat : Num) / (2 ^ 32 : Nat)
def radAng (r : Num) : Angle := BitVec.ofInt 32 (roundInt (r / (2 * Config.pi) * (2 ^ 32 : Nat)))

/-! ### Space vectors and sequence voltages (R240, R253) -/

/-- v_ab = j·s/√2 of three phase values (R240, R253). -/
def spaceVec (a b c : Num) : Cx :=
  let r3 := Config.sqrt 3 / 2
  let s : Cx := { re := 2 / 3 * (a - b / 2 - c / 2), im := 2 / 3 * (r3 * b - r3 * c) }
  (s.times .j).by_ (1 / Config.sqrt 2)

/-- The space vector of three phase values. -/
def spaceOf (l : List Num) : Cx := spaceVec (nth l 0 0) (nth l 1 0) (nth l 2 0)

/-- The phase values of a space vector: the inverse of R240. -/
def phasesOf (v : Cx) : List Num :=
  let s := (v.times { re := 0, im := -1 }).by_ (Config.sqrt 2)
  let r3 := Config.sqrt 3 / 2
  [s.re, -s.re / 2 + r3 * s.im, -s.re / 2 - r3 * s.im]

/-- V1 and V2 from the present vector and that of a quarter cycle ago (R253). -/
def seqVolt (v q : Cx) : Cx × Cx := (((v.plus (Cx.j.times q)).by_ (1 / 2)), ((v.minus (Cx.j.times q)).by_ (1 / 2)))

/-! ### First-order steps -/

/-- A value moves towards a target by at most `d`. -/
def towards (x target d : Num) : Num := if x ≤ target then (if target < x + d then target else x + d) else (if x - d < target then target else x - d)

/-- The larger and the smaller of two numbers. -/
def nmax (a b : Num) : Num := if a < b then b else a
def nmin (a b : Num) : Num := if b < a then b else a

/-! ### Ride-through references (R256) -/

/-- What step 3 of R250 gives: i1d, i1q, i2, and whether the minimum raised the current (R256). -/
structure FrtRef where
  i1d : Num
  i1q : Num
  i2 : Num
  raised : Bool

/-- The sequence allocation (R256); `lim` is I_LIM × a. -/
def frtRef (t : FrtSet) (lim v1 v2 v1Pre i1dPre i1qPre : Num) : FrtRef :=
  let i2 := if 2 / 100 ≤ v2 then nmin (t.k2 * v2) (t.negMax * lim) else 0
  let b := lim - i2
  let i1q := Num.clamp (-b) b (i1qPre + t.k1 * (v1Pre - v1))
  let r := Config.sqrt (b * b - i1q * i1q)
  let i1d := Num.clamp (-r) r i1dPre
  let imin := nmin t.iMinF lim
  let low := decide (v1 ≤ t.vMinF ∧ Config.sqrt (i1d * i1d + i1q * i1q) + i2 < imin)
  let q := Config.sqrt ((imin - i2) * (imin - i2) - i1d * i1d)
  { i1d := i1d, i1q := if low then (if 0 ≤ i1q then q else -q) else i1q, i2 := i2, raised := low }

/-- A limit table: linear between points, the last value after the last (R257). -/
def tableAt : List (Num × Num) → Num → Num
  | [], _ => 0
  | [p], _ => p.2
  | p :: q :: l, t =>
    if t ≤ p.1 then p.2
    else if t < q.1 then p.2 + (q.2 - p.2) * (t - p.1) / (q.1 - p.1)
    else tableAt (q :: l) t

end Sys2Proof.Machine
end

