-- ==== Sys2Proof/Machine/GooseOps.lean ====
section
/-! DEFINITION. Operations on GOOSE and SV: intake buckets, subscribed values, publishers (spec/13_network_and_time.md R450 to R455). -/

namespace Sys2Proof

open Sys2Proof.Machine

/-- The quality that a Quality member gives: validity 0 good, 1 invalid, 2 reserved, 3 questionable (R450). -/
def validity (w : Word) : Quality :=
  match w.toNat % 4 with
  | 0 => .good
  | 3 => .questionable
  | _ => .invalid

/-- The values of a frame with their qualities; those of a test frame are at best QUESTIONABLE (R450, R451). -/
def GooseSub.read (c : GooseSub) (f : GooseFrame) : List MemberVal :=
  c.members.zipIdx.map fun m =>
    let q := match m.1.qualityAt with
      | some j => validity (nth f.values j 0)
      | none => .good
    { value := nth f.values m.2 0, quality := if f.test then Quality.worse q .questionable else q }

/-- The frame agrees with the declaration (R450). -/
def GooseSub.agrees (c : GooseSub) (f : GooseFrame) : Bool :=
  decide (f.datSet = c.datSet ∧ f.confRev = c.confRev ∧ f.numEntries = c.members.length ∧ f.values.length = c.members.length) && !f.ndsCom

end Sys2Proof

namespace Sys2Proof.Machine

open Sys2Proof

/-! ### Intake admission (R454) -/

/-- A bucket refills at `rate` frames/s up to `depth` tokens. -/
def Bucket.refill (b : Bucket) (now : Ns) (rate depth : Nat) : Bucket :=
  let t := b.tokens + (rate : Num) * ((now - b.at_ : Nat) : Num) / 1000000000
  { b with tokens := if (depth : Num) < t then depth else t, at_ := now }

/-- A frame takes a token, when there is one. -/
def Bucket.take (b : Bucket) : Option Bucket := if 1 ≤ b.tokens then some { b with tokens := b.tokens - 1 } else none

/-- The refusal begins an episode: none within the last second. -/
def Bucket.newEpisode (b : Bucket) (now : Ns) : Bool := b.refusedAt.all fun t => decide (t + secs 1 < now)

def State.gsub? (s : State) (i : Nat) : Option Gsub := s.net.gsubs.find? (·.sub == i)
def State.gsubCfg? (s : State) (i : Nat) : Option GooseSub := s.netCfg.gooseSubs.find? (·.sub == i)
def State.onGsub (s : State) (i : Nat) (f : Gsub → Gsub) : State :=
  s.onNet fun n => { n with gsubs := n.gsubs.map fun x => if x.sub == i then f x else x }
def State.svsub? (s : State) (i : Nat) : Option Svsub := s.net.svsubs.find? (·.sub == i)
def State.svsubCfg? (s : State) (i : Nat) : Option SvSub := s.netCfg.svSubs.find? (·.sub == i)
def State.onSvsub (s : State) (i : Nat) (f : Svsub → Svsub) : State :=
  s.onNet fun n => { n with svsubs := n.svsubs.map fun x => if x.sub == i then f x else x }

/-- The record of a refusal by rate, once per episode (R454). -/
def State.rateRefused (s : State) (i : Nat) (sv fresh : Bool) : State :=
  (s.raise .net 8).when fresh fun s => s.report .netIntakeRate i [b2n sv]

/-! ### GOOSE subscriptions (R450, R451) -/

/-- `a` is newer than `b`, forward within 2^31 (R451). -/
def newer (a b : BitVec 32) : Bool := decide (0 < (a - b).toNat ∧ (a - b).toNat < 2 ^ 31)

/-- The subscription becomes INVALID: conditions on it are met (R382, R450, R451). -/
def State.gooseInvalid (s : State) (i : Nat) : State :=
  if (s.gsub? i).any (·.valid) then
    (s.onGsub i fun g => { g with valid := false }).captMetAll s.ltc fun c =>
      match c with
      | .goose j _ .invalid => j == i
      | _ => false
  else s

/-- The dataset bits that a change flips, with their new level. -/
def flips (old new : List MemberVal) : List (Nat × Bool) :=
  new.zipIdx.filterMap fun m =>
    let a := decide ((nth old m.2 {}).value ≠ 0)
    let b := decide (m.1.value ≠ 0)
    if a ≠ b then some (m.2, b) else none

/-- A change replaces the values: event sources, capture sources and conditions, and mapped group inputs follow (R187, R340, R380, R382, R451). -/
def State.gooseChange (s : State) (i : Nat) (old new : List MemberVal) : State :=
  let s := s.fire fun e => e == .goose i
  s.forEach (flips old new) fun s x =>
    let s := s.captDigital (.goose i x.1) x.2 s.ltc
    let s := s.captMetAll s.ltc fun c =>
      match c with
      | .goose j m k => j == i && m == x.1 && (match k with
        | .rises => x.2
        | .falls => !x.2
        | .changes => true
        | .invalid => false)
      | _ => false
    s.when x.2 fun s => s.mappedGroup (.goose i x.1)

/-- A frame is accepted: the time allowed to live starts again and the episode of expiry ends (R451). -/
def Gsub.accept (g : Gsub) (f : GooseFrame) (now : Ns) (ts : Word) : Gsub :=
  { g with sqNum := f.sqNum, stNum := f.stNum, tal := f.tal, lastRx := some now, lastTs := ts, talExpired := false }

/-- A frame that agrees with the declaration is a change, a retransmission, or discarded (R451). -/
def State.gooseTake (s : State) (c : GooseSub) (g : Gsub) (f : GooseFrame) : State :=
  let discard := s.onGsub c.sub fun g => { g with discarded := satInc 16 g.discarded }
  if (f.test && !c.testAccept) || (f.simulation && !c.simAccept) then discard
  else if g.anyNext || newer f.stNum g.stNum then
    let new := c.read f
    (s.onGsub c.sub fun g => { g.accept f s.now s.ts32 with values := new, valid := true, anyNext := false }).gooseChange c.sub g.values new
  else if f.stNum = g.stNum && newer f.sqNum g.sqNum then s.onGsub c.sub fun g => g.accept f s.now s.ts32
  else discard

/-! ### GOOSE publishers (R452) -/

def State.gpub? (s : State) (q : Nat) : Option Gpub := s.net.gpubs.find? (·.pub == q)
def State.gpubCfg? (s : State) (q : Nat) : Option GoosePub := s.netCfg.goosePubs.find? (·.pub == q)
def State.onGpub (s : State) (q : Nat) (f : Gpub → Gpub) : State :=
  s.onNet fun n => { n with gpubs := n.gpubs.map fun x => if x.pub == q then f x else x }

/-- The present value of a member of a publisher (R452). -/
def State.pubValue (s : State) : PubSource → Word
  | .pickup e => flag 0 ((s.elem? e).any (·.pickup))
  | .operate e => flag 0 ((s.elem? e).any (·.operate))
  | .trip k => flag 0 ((s.trip? k).any (·.trip))
  | .logicVar _ sym => BitVec.ofInt 32 (((s.logic.vars.find? (·.1 == sym)).map (·.2)).getD 0)
  | .input ch => flag 0 (s.fioCh ch).level
  | .unitState u => fld 0 (((s.fu? u).map (·.phase.num)).getD 0)

/-- A change: a new stNum, sqNum 0, and the first interval (R452). -/
def Gpub.change (g : Gpub) (v : List Word) (first : Bool) (minTime now : Ns) (t idx : Nat) : Gpub :=
  { g with
    stNum := if first then 1 else g.stNum + 1, sqNum := 0, values := v, interval := minTime, nextAt := some (now + minTime)
    changeAt := t, changeIdx := some idx, sent := g.sent + 1 }

/-- A retransmission: the interval doubles up to MAX_TIME (R452). -/
def Gpub.again (g : Gpub) (maxTime now : Ns) : Gpub :=
  let i := min (2 * g.interval) maxTime
  { g with sqNum := g.sqNum + 1, interval := i, nextAt := some (now + i), sent := g.sent + 1 }

/-- A publisher's frame goes out; timeAllowedtoLive is twice the interval to the next one (R452). -/
def State.sendGoose (s : State) (c : GoosePub) : State :=
  match s.gpub? c.pub with
  | none => s
  | some g =>
    (s.onNet fun n => { n with sent := n.sent ++ [.goose c.pub g.changeAt g.stNum g.sqNum (2 * g.interval) g.values] }).sendOwn
      { dst := c.dst, src := Config.ownMac, vid := some c.vid, pcp := c.pcp, kind := .goose c.appid c.gocbRef }

/-- Publishing starts with stNum = 1 (R452). -/
def State.startGoose (s : State) : State :=
  s.forEach s.netCfg.goosePubs fun s c =>
    (s.onGpub c.pub fun g => g.change (c.members.map s.pubValue) true c.minTime s.now s.ltc s.acq.fastIdx).sendGoose c

/-! ### Sampled values (R453) -/

/-- The quality and details of a sample of an ASDU (R140, R142, R453). -/
def AsduSample.mark (x : AsduSample) (synch : Nat) (test : Bool) : Quality × Detail :=
  let unsync := decide (synch ≠ 2)
  let q := if unsync || test || x.test then Quality.worse x.validity .questionable else x.validity
  (q, { overflow := x.overflow, inaccurate := x.inaccurate || x.otherDetail, unsync := unsync, failure := x.failure })

/-- The acquisition instant of a sample: the latest second that puts it at or before the arrival (R142). -/
def svInstant (arrival hz cnt : Nat) : Nat :=
  let off := cnt * 1000000000 / hz
  let sec := arrival / 1000000000
  if sec * 1000000000 + off ≤ arrival then sec * 1000000000 + off else (sec - 1) * 1000000000 + off

/-- The instant has been released on a lane already (R143). -/
def State.svLate (s : State) (lane : LaneRate) (t : Nat) : Bool :=
  let last := match lane with
    | .fast => s.acq.lastFast
    | .phasor => s.acq.lastPhasor
  last.any fun l => decide (t ≤ l)

/-- A sample of a subscribed channel reaches ACQ, or comes after its release (R142, R143). -/
def State.svSample (s : State) (lane : LaneRate) (ch t : Nat) (x : AsduSample) (synch : Nat) (test : Bool) : State :=
  if s.svLate lane t then (s.onAcq fun a => { a with svLate := satInc 32 a.svLate }).raise .acq 3
  else
    let m := x.mark synch test
    let v := x.value.toInt
    let th := s.tideAt t
    let y : Sample := { x := v * Config.svPu ch, code := v, time := t, theta := th.1, freq := th.2, q := m.1, det := m.2 }
    s.onAcq fun a =>
      { a with
        waiting := a.waiting ++ [{ chan := .sv ch, lane := lane, sample := y }]
        svHist := if lane = .fast then ((ch, y) :: a.svHist).take 65536 else a.svHist }

/-- An ASDU: a count accepted within the last second is discarded, a gap is counted, and its samples are passed on (R453). -/
def State.svAsdu (s : State) (c : SvSub) (test : Bool) (a : Asdu) : State :=
  match s.svsub? c.sub with
  | none => s
  | some x =>
    if x.seen.any fun y => y.1 == a.smpCnt && decide (s.now < y.2 + secs 1) then
      s.onSvsub c.sub fun x => { x with discarded := satInc 16 x.discarded }
    else
      let hz := c.rate.hz
      let gap := match x.lastCnt with
        | none => 0
        | some l => (a.smpCnt + hz - l - 1) % hz
      let ahead := decide (gap < hz / 2)
      let s := s.onSvsub c.sub fun x =>
        { x with
          phase := .receiving, smpSynch := a.smpSynch, lastRx := some s.now, lastTs := s.ts32
          missing := if ahead then satAdd 32 x.missing gap else x.missing
          lastCnt := if ahead then some a.smpCnt else x.lastCnt
          seen := (a.smpCnt, s.now) :: (x.seen.filter fun y => decide (s.now < y.2 + secs 1)) }
      let t := svInstant s.ltc hz a.smpCnt
      s.forEach (c.channels.zip a.samples) fun s y => s.svSample c.rate y.1 t y.2 a.smpSynch test

end Sys2Proof.Machine
end

