-- ==== Sys2Proof/Machine/FormOps.lean ====
section
/-! DEFINITION. Operations of FORM: states and their transitions, commands, one control cycle (spec/07_forming_engine.md). -/

namespace Sys2Proof.Machine

open Sys2Proof

/-! ### A unit and its bridges -/

def FormUnit.ts (x : FormUnit) : Ns := x.cfg.rate.ts
def FormUnit.tsSec (x : FormUnit) : Num := (x.ts : Num) / 1000000000
def FormUnit.bridgeNos (x : FormUnit) : List Nat := x.cfg.bridges.map (·.1)
def State.bridge (s : State) (b : Nat) : Bridge := nth s.form.bridges b {}
def State.onBridge (s : State) (b : Nat) (f : Bridge → Bridge) : State := s.onForm fun x => { x with bridges := updAt x.bridges b f }

/-- The active bridges of a unit: assigned and not lost (R272). -/
def State.activeBridges (s : State) (x : FormUnit) : List Nat := x.bridgeNos.filter fun b => (s.bridge b).active

/-- Availability a of R272. -/
def State.availability (s : State) (x : FormUnit) : Num := ((s.activeBridges x).length : Num) / (x.bridgeNos.length : Num)

/-- C_u in ns (R241). -/
def FormUnit.allowance (x : FormUnit) : Ns := 6000 + 1500 * x.bridgeNos.length

/-- An element's bit in the latched vector: pickup or operate. -/
def FormUnit.latched (x : FormUnit) (e : Nat) (op : Bool) : Bool :=
  x.vector.elems.any fun y => y.1 == e && (if op then y.2.2 else y.2.1)

/-- FRT_SET and ISLAND_SET count as not asserted while the vector is stale (R274). -/
def FormUnit.frtPicked (x : FormUnit) : Bool := !x.vecStale && x.cfg.policy.frtSet.any fun e => x.latched e false
def FormUnit.islandOp (x : FormUnit) : Bool := !x.vecStale && x.cfg.policy.islandSet.any fun e => x.latched e true

/-- The grid breaker's position, when it is known (R268, R269). -/
def State.gridClosed (s : State) (x : FormUnit) : Option Bool :=
  match x.cfg.gridBreaker with
  | none => none
  | some (.field ch) => if s.fioQuality ch = .invalid then none else some (s.fioCh ch).level
  | some (.goose sub m) =>
    ((s.gsub? sub).bind fun g => if g.valid then g.values[m]? else none).bind fun v =>
      if v.quality = .invalid then none else some (decide (v.value ≠ 0))

/-! ### The rotor's angle (R240, R244, R275) -/

/-- θ_r, `age` ns before now. In HOLD with the mode GRID_FOLLOW the frame follows ∠V1 of VSET. -/
def State.rotorAngle (s : State) (x : FormUnit) (age : Ns) : Angle :=
  if x.phase = .hold && x.holdMode = .gridFollow then
    radAng x.meas.v1.ang + x.holdOff + BitVec.ofInt 32 (roundInt (x.meas.fPcc * (((s.ltc : Int) - age - x.meas.at_ : Int) : Num) * (2 ^ 32 : Nat) / 1000000000))
  else if s.tide.bound = some x.cfg.unit || !x.rotorRuns then (s.tideAt (s.ltc - age)).1
  else advanced (x.rotor.pos.setWidth 32) x.rotor.f (s.now - x.rotor.posAt) - advanced 0 x.rotor.f age

/-! ### Transitions (R259 to R261) -/

/-- What changes with the state itself: on entry into a running state the rotor takes its angle and frequency from Tide, and the
controllers start from zero; with pulses blocked the limiter is free (R244, R251). -/
def FormUnit.enter (x : FormUnit) (s : State) (p : FormPhase) : FormUnit :=
  let y := { x with phase := p, stateSince := s.now, closeReq := false, readySince := if p = .ready then some s.now else none, autoAt := none,
                    startMark := if p = .ready then x.startMark else none, holdMode := if p = .hold then x.holdMode else .none }
  let y := if y.rotorRuns && !x.rotorRuns then
      { y with rotor := { y.rotor with f := s.tide.freq, fw := s.tide.freq, pos := s.tide.pos, posAt := s.now, phiC := 0, phiStart := 0 } }
    else y
  let y := if p.pulses && !x.phase.pulses then { y with loops := { iLim := if p = .connecting then 1 / 10 else x.cfg.frt.iLim, limTime := x.loops.limTime } } else y
  let y := if p.pulses then y else { y with loops := { y.loops with limiter := .free, faultMode := .none, overmod := false } }
  if p = .formingGrid || !p.pulses then { y with islandDet := false } else y

/-- A unit changes state, with the record of R259; `more` is what the record holds beside the old and the new state and the cause. -/
def State.formTo (s : State) (u : Nat) (p : FormPhase) (r : Rec) (cause : Nat) (more : List Int := []) : State :=
  match s.fu? u with
  | none => s
  | some x =>
    let s := (s.onUnit u fun x => x.enter s p).raise .form 0
    let s := s.report r u ([(x.phase.num : Int), p.num, cause] ++ more)
    s.when (decide (p = .rideThrough ∨ p = .blocked ∨ p = .hold)) fun s => s.captMetAll s.ltc fun c => c == .form u

/-- Entry into BLOCKED: the cause is latched (R260). -/
def State.formBlocked (s : State) (u : Nat) (c : FormCause) (r : Rec := .formBlocked) (more : List Int := []) : State :=
  match s.fu? u with
  | none => s
  | some x =>
    if x.phase = .off ∨ x.phase = .blocked then s else
      ((s.onUnit u fun x => { x with causes := if x.causes.contains c then x.causes else x.causes ++ [c] }).formTo u .blocked r c.bit more).raise .form 1

/-- Entry condition of R254: 1 a dip, 2 a swell, 3 a pickup. -/
def FormUnit.frtCause (x : FormUnit) : Option Nat :=
  if !x.meas.any_ then none
  else if x.meas.v1Mag < x.cfg.frt.vFrtIn then some 1
  else if x.cfg.frt.vHvIn < x.meas.v1Mag then some 2
  else if x.frtPicked then some 3
  else none

/-- The envelope clock's reading in ns (R255). -/
def FormUnit.envClock (x : FormUnit) (now : Ns) : Ns := now - x.frt.start + x.frt.clock

/-- The envelope quantities against the lower and the upper limit (R257). -/
def FormUnit.envLow (x : FormUnit) : Num :=
  match x.cfg.frt.envQty with
  | .v1 => x.meas.v1Mag
  | .vpp => x.meas.vpp.foldl nmin ((x.meas.vpp.head?).getD 0)
def FormUnit.envHigh (x : FormUnit) : Num :=
  match x.cfg.frt.envQty with
  | .v1 => x.meas.v1Mag
  | .vpp => x.meas.vpp.foldl nmax ((x.meas.vpp.head?).getD 0)

/-- The margin to the envelope, negative outside it (R257). -/
def FormUnit.envMargin (x : FormUnit) (now : Ns) : Num :=
  let t := (x.envClock now : Num) / 1000000000
  nmin (x.envLow - tableAt x.cfg.frt.lvrt t) (tableAt x.cfg.frt.hvrt t - x.envHigh)

/-- The energising ramp is complete (R266). -/
def FormUnit.rampDone (x : FormUnit) : Bool :=
  decide (x.cfg.policy.tRamp ≤ x.rampRun) && decide ((x.meas.v1Mag - x.inForce.v).mag ≤ 5 / 100)

/-- Automatic transitions. -/
inductive AutoStep where
  | block (c : FormCause)
  | frtStart (cause : Nat)
  | frtEnd
  | island
  | unsyncClose
  | energised
  | connected
  | resyncDone
  | resyncFail (timeout : Bool)
  | stopped
  | ready
  | notReady
deriving DecidableEq, Repr, Inhabited

/-- The causes of BLOCKED that the unit's own conditions show at this moment, beyond those that a computation finds (R257, R266, R271, R274, R275). -/
def State.blockCause (s : State) (x : FormUnit) : Option FormCause :=
  if x.phase = .off ∨ x.phase = .blocked then none
  else if x.blockSetOp then some .protBlock
  else if x.phase = .rideThrough && s.passedSince x.frt.envSince x.cfg.frt.envConfirm then some .envelope
  else if x.phase = .energising && s.passed x.stateSince (x.cfg.policy.tRamp + x.cfg.policy.energTimeout) then some .energiseFail
  else if x.phase.pulses && (s.activeBridges x).any fun b => s.passedSince (s.bridge b).circSince (msec 10) then some .circ
  else if x.phase = .hold && s.passed x.holdAt x.cfg.policy.locHoldMax then some .loc
  else none

/-- The state that entry conditions of R254 leave. -/
def FormPhase.mayRide : FormPhase → Bool
  | .connecting | .formingGrid | .formingIsland | .resync => true
  | _ => false

/-- The first applicable automatic transition (R261). -/
def State.autoStep (s : State) (x : FormUnit) : Option AutoStep :=
  match s.blockCause x with
  | some c => some (.block c)
  | none =>
    let closed := s.gridClosed x
    if x.phase.mayRide && x.frtCause.isSome then some (.frtStart (x.frtCause.getD 0))
    else match x.phase with
    | .rideThrough => if s.passedSince x.frt.exitSince x.cfg.frt.tFrtExit then some .frtEnd else none
    | .formingGrid => if closed = some false || x.islandOp then some .island else none
    | .formingIsland => if closed = some true then some .unsyncClose else none
    | .energising => if x.rampDone then some .energised else none
    | .connecting => if s.passed x.stateSince x.cfg.policy.tConnect then some .connected else none
    | .resync =>
      if closed = some true then some .resyncDone
      else if !x.meas.gridValid then some (.resyncFail false)
      else if s.passed x.stateSince x.cfg.policy.resyncTimeout then some (.resyncFail true)
      else none
    | .stopping =>
      if (x.rotor.pf.mag ≤ 2 / 100 && x.rotor.qf.mag ≤ 2 / 100) || s.passed x.stateSince (secs 10) then some .stopped else none
    | .preparing => if x.waitLink || x.waitDc || x.waitStage then none else some .ready
    | .ready => if x.waitLink || x.waitDc || x.waitStage then some .notReady else none
    | .off | .hold | .blocked => none

/-- Entry into RIDE_THROUGH: the envelope clock starts, or goes on from an episode that ended within ENV_MEMORY (R254, R255). -/
def State.frtStart (s : State) (u cause : Nat) : State :=
  match s.fu? u with
  | none => s
  | some x =>
    let again := x.frt.lastEnd.any fun t => decide (s.now < t + x.cfg.frt.envMemory)
    let s := s.onUnit u fun x =>
      { x with
        frt := { x.frt with
          start := s.now, clock := if again then x.frt.lastElapsed else 0, envSince := none, exitSince := none, from_ := x.phase
          islanded := false, episodes := satInc 16 x.frt.episodes, margin := x.envMargin s.now, hv := decide (x.cfg.frt.vHvIn < x.meas.v1Mag) } }
    (s.formTo u .rideThrough .frtStart cause).raise .form 2

/-- Exit from RIDE_THROUGH (R258). -/
def State.frtEnd (s : State) (u : Nat) : State :=
  match s.fu? u with
  | none => s
  | some x =>
    let island := x.frt.islanded || x.frt.from_ = .formingIsland || x.frt.from_ = .resync
    let ms := (s.now - x.frt.start) / 1000000
    let s := s.onUnit u fun x =>
      { x with
        frt := { x.frt with
          lastEnd := some s.now, lastElapsed := x.envClock s.now, duration := min ms 65535, envSince := none, exitSince := none, hv := false }
        loops := { x.loops with iLim := x.loops.iRef.abs } }
    let s := s.formTo u (if island then .formingIsland else .formingGrid) .frtEnd ms
    s.raise .form 3

/-- An automatic transition is taken. -/
def State.takeAuto (s : State) (u : Nat) : AutoStep → State
  | .block .envelope =>
    match s.fu? u with
    | some x =>
      let s := (s.onUnit u fun x => { x with frt := { x.frt with envTripEnd := some (s.now + msec 100) } }).raise .form 4
      let q := if x.envLow < tableAt x.cfg.frt.lvrt ((x.envClock s.now : Num) / 1000000000) then x.envLow else x.envHigh
      (s.formBlocked u .envelope .frtEnvelope [x.envClock s.now, (f32bits q).toNat]).fire fun e => e == .envTrip x.cfg.unit
    | none => s
  | .block c => s.formBlocked u c
  | .frtStart c => s.frtStart u c
  | .frtEnd => s.frtEnd u
  | .island => ((s.onUnit u fun x => { x with islandDet := true }).formTo u .formingIsland .formIsland 0).raise .form 5
  | .unsyncClose => (s.formTo u .formingGrid .formUnsyncClose 0).raise .form 15
  | .energised => s.formTo u .formingIsland .formEnergised 0
  | .connected => s.formTo u .formingGrid .formForming 0
  | .resyncDone => (s.formTo u .formingGrid .formResyncDone 0).raise .form 6
  | .resyncFail t => (s.formTo u .formingIsland .formResyncFail (b2n t)).raise .form 7
  | .stopped => s.formTo u .ready .formStopped 0
  | .ready => s.formTo u .ready .formReady 0
  | .notReady => s.formTo u .preparing .formNotReady 0

/-- A transition is taken when it is the first applicable one. -/
def State.autoIf (s : State) (u : Nat) (p : AutoStep → Bool) : State :=
  match (s.fu? u).bind s.autoStep with
  | some a => if p a then s.takeAuto u a else s
  | none => s

/-! ### Commands (R262 to R265, R272) -/

/-- Targets lie within the ranges of R276. -/
def State.targetsOk (s : State) (t : Targets) : Bool :=
  let fn := s.tideCfg.nominalFreq
  decide (-1 ≤ t.p ∧ t.p ≤ 1 ∧ -1 ≤ t.q ∧ t.q ≤ 1 ∧ 9 / 10 ≤ t.v ∧ t.v ≤ 11 / 10 ∧ fn - 2 ≤ t.f ∧ t.f ≤ fn + 2)

/-- A latched cause still holds (R260). -/
def State.causeHolds (s : State) (x : FormUnit) : FormCause → Bool
  | .lockstep => x.lockstepTest
  | .gateLoss => x.bridgeNos.any fun b => decide (2 ≤ (s.bridge b).badRun)
  | .stageFault =>
    (!x.cfg.policy.lossContinue && x.bridgeNos.any fun b => (s.bridge b).stageFault) ||
      decide ((s.activeBridges x).length < x.cfg.policy.minBridges)
  | .dcRange => (s.activeBridges x).any fun b => decide ((s.bridge b).vdc < x.cfg.vdcMin ∨ x.cfg.vdcMax < (s.bridge b).vdc)
  | .protBlock => x.blockSetOp
  | .loc => s.form.loc
  | .overrun | .circ | .envelope | .energiseFail | .command => false

/-- The condition of FORM_START on Tide (R262, R275). -/
def State.tideOnPilot (s : State) (x : FormUnit) : Bool :=
  s.tide.phase == .aligned && s.tide.src == .pilot && x.cfg.pilotSameBus

/-- A command is accepted in the unit's present state (R262). -/
def State.unitAccepts (s : State) (x : FormUnit) : UnitCmd → Bool
  | .start => x.phase = .ready && decide (x.cfg.policy.liveV ≤ x.meas.v1Mag) && s.tideOnPilot x
  | .blackStart mark =>
    x.phase = .ready && s.passedSince x.meas.deadSince (secs 1) && !(x.cfg.pilotSameBus && s.tide.pilot.phase == .tracking) &&
      s.form.units.all (fun y => y.cfg.unit == x.cfg.unit || decide (y.phase ≠ .formingGrid)) &&
      mark.all fun p => decide ((s.tide.posN : Num) + s.travel 100000000 ≤ p)
  | .resync => x.phase = .formingIsland && x.meas.gridValid && decide (x.cfg.policy.liveV ≤ x.meas.gridMag)
  | .resyncCancel => x.phase = .resync
  | .stop => x.phase.pulses && decide (x.phase ≠ .stopping ∧ x.phase ≠ .hold)
  | .block => decide (x.phase ≠ .off ∧ x.phase ≠ .blocked)
  | .reset => x.phase = .blocked && !x.causes.any (s.causeHolds x)
  | .setpoint t => s.targetsOk t
  | .stage st => s.targetsOk st.targets
  | .restore b =>
    x.bridgeNos.contains b && (s.bridge b).lost && decide (1000 ≤ (s.bridge b).goodRun) && !(s.bridge b).stageFault

/-- FORM_U_STATUS (R281). -/
def State.unitStatus (s : State) (x : FormUnit) : Word :=
  fld 0 x.phase.num ||| fld 4 x.loops.limiter.num ||| fld 6 x.loops.faultMode.num ||| flag 9 x.rotorRuns |||
    flag 10 (s.tide.bound == some x.cfg.unit) ||| flag 11 x.rampActive ||| flag 12 x.permit ||| flag 13 x.closeReq ||| flag 14 x.islandDet |||
    flag 15 x.frt.hv ||| flag 16 x.vecStale ||| flag 17 x.loops.overmod ||| flag 18 x.rotor.fClamp ||| fld 19 x.holdMode.num |||
    flag 21 (x.frt.envTripEnd.any fun t => decide (s.now < t)) ||| flag 22 (x.bridgeNos.any fun b => (s.bridge b).circAlarm) |||
    fld 23 (s.activeBridges x).length

/-- Why a unit's command is refused; a LOGIC request also needs LOGIC_GRANT (R262). -/
def State.refuseUnit (s : State) (u : Nat) (c : UnitCmd) (logic : Bool) : Option Refuse :=
  match s.fu? u with
  | none => some { blk := .form, src := u }
  | some x => if s.unitAccepts x c && (!logic || x.cfg.policy.logicGrant) then none else some { blk := .form, src := u, st0 := s.unitStatus x }

/-- A command waits for the unit's next boundary (R261). -/
def State.queueUnit (s : State) (u : Nat) (c : UnitCmd) (f : CmdFrom) : State :=
  s.onUnit u fun x => { x with pending := x.pending ++ [(c, f)] }

/-- A command takes effect (R259, R262 to R264, R272). -/
def State.applyUnit (s : State) (u : Nat) : UnitCmd → State
  | .start => s.formTo u .connecting .formStart 0
  | .blackStart none => (s.onUnit u fun x => { x with rampRun := 0 }).formTo u .energising .formBlackStart 0
  | .blackStart (some p) => s.onUnit u fun x => { x with startMark := some p }
  | .resync => s.formTo u .resync .formResyncStart 0
  | .resyncCancel => (s.formTo u .formingIsland .formResyncFail 2).raise .form 7
  | .stop => s.formTo u .stopping .formStop 0
  | .block => s.formBlocked u .command
  | .reset => (s.onUnit u fun x => { x with causes := [] }).formTo u .preparing .formReset 0
  | .setpoint t => s.onUnit u fun x => { x with target := t }
  | .stage st => s.onUnit u fun x => { x with staged := some st }
  | .restore b => s.onBridge b fun y => { y with lost := false, active := true, rampSince := some s.now }

/-- The waiting commands at the boundary, judged against the state that stands then (R261). -/
def State.unitCommands (s : State) (u : Nat) : State :=
  match s.fu? u with
  | none => s
  | some x =>
    let s := s.onUnit u fun x => { x with pending := [] }
    s.forEach x.pending fun s c =>
      match s.refuseUnit u c.1 false with
      | none =>
        let s := s.applyUnit u c.1
        match c.2 with
        | .berth b => s.done b
        | .logic | .self => s
      | some r =>
        match c.2 with
        | .berth b => s.refuseItem b r .target
        | .logic => s.refuseInternal r .logic
        | .self => s.refuseInternal r .internal

/-- A FORM command at its CTL stage: refused, or it waits at the unit (R261, R262). -/
def State.unitCtl (s : State) (b u : Nat) (c : UnitCmd) : State :=
  s.runCtl b (s.refuseUnit u c false) fun s => (s.toTarget b).queueUnit u c (.berth b)

/-- A black start that waits for its mark starts there (R259). -/
def State.markedStart (s : State) (u : Nat) : State :=
  match s.fu? u with
  | some x =>
    if x.phase = .ready && x.startMark.any (fun p => decide (p ≤ s.tide.posN)) then
      (s.onUnit u fun x => { x with rampRun := 0 }).formTo u .energising .formBlackStart 0
    else s
  | none => s

/-! ### The boundary (R239, R241, R253, R274) -/

/-- What a unit takes from three local channels: the latest instant at which all of them have a sample, the values in pu then and a quarter
cycle of Tide earlier; `ok` says that no sample is INVALID (R239, R253). -/
structure PhaseSet where
  at_ : Ns
  x : List Num := []
  xq : List Num := []
  ok : Bool := false

/-- Waveform sample `w` of a channel in pu, and what the channel held `back` sample periods before it (R122, R253). -/
def Ain.waveBack (a : Ain) (w : Nat) (back : Num) : Num :=
  let v := fun (i : Nat) => ((a.waveAt i).map fun y => y.value * a.kpu).getD 0
  let k := back.floor.toNat
  let part := back - (k : Num)
  if part = 0 then v (w - k) else Config.betweenSamples (v (w - k)) (v (w - k - 1)) part

/-- The samples of three channels that a unit uses at a boundary (R239, R253). -/
def State.phaseSet (s : State) (l : List Nat) : PhaseSet :=
  let as := l.filterMap s.ain?
  match as.map (·.latestWave) with
  | [] => { at_ := s.ltc }
  | w0 :: ws =>
    let w := ws.foldl min w0
    let t := s.waveTime w
    let t4 := 57600 / (4 * (s.tideAt t).2)
    { at_ := t, x := as.map fun a => a.waveBack w 0, xq := as.map fun a => a.waveBack w t4
      ok := decide (as.length = 3) && as.all fun a => (a.waveAt w).any fun y => decide (y.q ≠ Quality.invalid) }

/-- The rate of change of an angle over the time between two samples, in Hz; while no new sample has come, the value before (R253). -/
def angleRate (new old : Cx) (t t0 : Ns) (last : Num) : Num :=
  if t ≤ t0 then last else
    let d := (new.ang - old.ang) / (2 * Config.pi)
    (d - ((d + 1 / 2).floor : Num)) * 1000000000 / ((t - t0 : Nat) : Num)

/-- The unit's measurements at a boundary (R239, R240, R253). -/
def State.measure (s : State) (x : FormUnit) : UnitMeas :=
  let fn := s.tideCfg.nominalFreq
  let m := x.meas
  let p := s.phaseSet x.cfg.vset
  let g := s.phaseSet x.cfg.gridVset
  let v := spaceOf p.x
  let sv := seqVolt v (spaceOf p.xq)
  let theta := s.rotorAngle { x with meas := { m with v1 := sv.1, at_ := p.at_ } } (s.ltc - p.at_)
  let mag := fun (k : Nat) => (Cx.mk (nth p.x k 0) (nth p.xq k 0)).abs / Config.sqrt 2
  let pp := fun (a b : Nat) => (Cx.mk (nth p.x a 0 - nth p.x b 0) (nth p.xq a 0 - nth p.xq b 0)).abs / Config.sqrt 2 / Config.sqrt 3
  let gv := (seqVolt (spaceOf g.x) (spaceOf g.xq)).1
  let phases := [mag 0, mag 1, mag 2]
  let dead := phases.all fun a => decide (a < x.cfg.policy.deadV)
  { m with
    v1 := sv.1, v2 := sv.2, any_ := true, at_ := p.at_, vTheta := theta, gridAt := g.at_, v1Mag := sv.1.abs, v2Mag := sv.2.abs
    fPcc := if m.any_ then angleRate sv.1 m.v1 p.at_ m.at_ m.fPcc else fn
    vPhase := phases, vpp := [pp 0 1, pp 1 2, pp 2 0]
    vDq := v.times (Cx.cis (-(angRad theta)))
    iO := match x.cfg.isrc with
      | .bridgeSum => m.iO
      | .channels c =>
        let i := s.phaseSet c
        (spaceOf i.x).times (Cx.cis (-(angRad (s.rotorAngle x (s.ltc - i.at_)))))
    gridV1 := gv, gridMag := gv.abs, gridF := if m.any_ then angleRate gv m.gridV1 g.at_ m.gridAt m.gridF else fn
    gridValid := decide (x.cfg.gridVset.length = 3) && g.ok
    deadSince := if dead then some (m.deadSince.getD s.now) else none }

/-- The unit latches the status vector (R30, R274). -/
def FormUnit.latchVector (x : FormUnit) (s : State) : FormUnit :=
  let v := s.prot.vector
  let changed := decide (v.seq ≠ x.vector.seq)
  let at_ := if changed then s.now else x.vecChanged
  let stale := !changed && s.passed at_ (2 * 1000000000 / 14400 + 1)
  let y := { x with vector := v, vecChanged := at_, vecStale := stale }
  let op := x.cfg.policy.blockSet.any fun e => y.latched e true
  let permit := !stale && x.cfg.policy.resync25.any fun e => y.latched e true
  { y with blockSetOp := if stale then x.blockSetOp else op, permit := permit }

/-- Timers that follow from the measurements of a boundary: ride-through exit, envelope, island memory (R255, R257, R258, R261). -/
def State.frtTrack (s : State) (x : FormUnit) : FormUnit :=
  if x.phase ≠ .rideThrough then x else
    let t := x.cfg.frt
    let within := decide (t.vFrtOut ≤ x.meas.v1Mag ∧ x.meas.v1Mag ≤ t.vHvOut) && !x.frtPicked
    let mg := x.envMargin s.now
    { x with
      frt := { x.frt with
        exitSince := if within then some (x.frt.exitSince.getD s.now) else none
        envSince := if mg < 0 then some (x.frt.envSince.getD s.now) else none
        margin := nmin x.frt.margin mg, hv := x.frt.hv || decide (t.vHvIn < x.meas.v1Mag)
        islanded := x.frt.islanded || s.gridClosed x = some false || x.islandOp }
      islandDet := x.islandDet || s.gridClosed x = some false || x.islandOp }

/-- CLOSE_REQ follows the permit in RESYNC (R268). -/
def State.closeRequest (s : State) (u : Nat) : State :=
  match s.fu? u with
  | none => s
  | some x =>
    let on := x.phase = .resync && x.permit
    let s := s.onUnit u fun x => { x with closeReq := on }
    s.when (on && !x.closeReq) fun s => s.fire fun e => e == .closeReq u

/-- The place of a boundary on the grid of R238. -/
def State.gridEdge (s : State) (x : FormUnit) : Nat := s.ltc * x.cfg.rate.hz / 1000000000

/-- Transitions that the boundary itself brings; the timed ones are steps of their own. -/
def AutoStep.atBoundary : AutoStep → Bool
  | .block .protBlock | .frtStart _ | .island | .unsyncClose | .energised | .resyncDone | .resyncFail false | .notReady => true
  | _ => false

/-! ### The computation (R243 to R252, R256, R263, R266, R268, R270 to R272) -/

/-- i_B = UNIT_S_NOM / (√3 × UNIT_V_NOM) (R240). -/
def FormUnit.iBase (x : FormUnit) : Num := x.cfg.sNom / (Config.sqrt 3 * x.cfg.vNom)

/-- A bridge takes its uplink's values, or keeps the previous ones (R239, R241). -/
def State.takeUplink (s : State) (x : FormUnit) (b : Nat) : State :=
  match (s.gateLink? b).bind (·.uplink) with
  | none => (s.uplinkMissing b).onBridge b fun y => { y with goodRun := 0, badRun := y.badRun + 1 }
  | some f =>
    let pu := fun (i : Int) => (i : Num) / 1000 / x.iBase
    let i := (spaceVec (pu f.ia) (pu f.ib) (pu f.ic)).times (Cx.cis (-(angRad (s.rotorAngle x (s.now - x.t0)))))
    s.onBridge b fun y =>
      { y with
        goodRun := y.goodRun + 1, badRun := 0, vdc := (f.vdc : Num) / 1000, iBr := i, iMag := i.abs
        zeroSeq := (pu f.ia + pu f.ib + pu f.ic) / 3, stageFault := decide (f.faults ≠ 0), stageFlags := f.faults }

/-- A bridge of a unit with pulses enabled is lost: 1 its uplink, 2 a stage fault, 3 pulses blocked by the stage (R272). -/
def State.lossCause (s : State) (b : Nat) : Option Nat :=
  let y := s.bridge b
  if 2 ≤ y.badRun then some 1
  else if y.stageFault then some 2
  else if ((s.gateLink? b).bind (·.uplink)).any (·.blocked) then some 3
  else none

/-- Lost bridges are dropped, or the unit blocks (R272, R273). -/
def State.loseBridges (s : State) (u : Nat) : State :=
  match s.fu? u with
  | none => s
  | some x =>
    if !x.phase.pulses then s else
      let gone := (s.activeBridges x).filterMap fun b => (s.lossCause b).map fun c => (b, c)
      let s := s.forEach gone fun s y =>
        let s := s.onBridge y.1 fun z => { z with lost := true, active := false, losses := satInc 16 z.losses, circSince := none }
        (s.raise .form 10).report .formBridgeLost y.1 [u, y.2]
      match gone.head? with
      | none => s
      | some y =>
        if !x.cfg.policy.lossContinue then s.formBlocked u (if y.2 = 1 then .gateLoss else .stageFault)
        else if (s.activeBridges x).length < x.cfg.policy.minBridges then s.formBlocked u .stageFault
        else s

/-- The conditions of PREPARING, and V_DC of the active bridges (R259, R260). -/
def State.checkDc (s : State) (u : Nat) : State :=
  match s.fu? u with
  | none => s
  | some x =>
    let out := fun (b : Nat) => decide ((s.bridge b).vdc < x.cfg.vdcMin ∨ x.cfg.vdcMax < (s.bridge b).vdc)
    let bad := (s.activeBridges x).any out
    let s := s.onUnit u fun x =>
      { x with
        waitLink := x.bridgeNos.any fun b => decide ((s.bridge b).goodRun < 1000)
        waitDc := x.bridgeNos.any out, waitStage := x.bridgeNos.any fun b => (s.bridge b).stageFault
        dcBadRun := if bad then x.dcBadRun + 1 else 0 }
    s.when (x.phase.pulses && bad && decide (1 ≤ x.dcBadRun)) fun s => s.formBlocked u .dcRange

/-- Shares w_k of the active bridges, that of a readmitted one rising over 100 ms (R271, R272). -/
def State.setShares (s : State) (x : FormUnit) : State :=
  let total := (x.cfg.bridges.map fun p => if (s.bridge p.1).active then p.2 else 0).foldl (· + ·) 0
  s.forEach x.cfg.bridges fun s p =>
    s.onBridge p.1 fun y =>
      let w := if y.active then p.2 / total else 0
      match y.rampSince with
      | some t =>
        if t + msec 100 ≤ s.now then { y with share := w, rampSince := none }
        else { y with share := w * ((s.now - t : Nat) : Num) / 100000000 }
      | none => { y with share := w }

/-- Circulating currents with their alarm and the time they exceed CIRC_TRIP (R271). -/
def State.circulate (s : State) (x : FormUnit) : State :=
  let act := s.activeBridges x
  let sum : Cx := act.foldl (fun (a : Cx) b => a.plus (s.bridge b).iBr) ({} : Cx)
  s.forEach act fun s b =>
    let y := s.bridge b
    let m := (y.iBr.minus (sum.by_ y.share)).abs
    let al := decide (x.cfg.policy.circAlarm < m)
    let s := s.onBridge b fun y =>
      { y with iCirc := m, circAlarm := al, circSince := if x.cfg.policy.circTrip < m then some (y.circSince.getD s.now) else none }
    s.when (al && !y.circAlarm) fun s => s.raise .form 11

/-- Targets in force move one cycle; RESYNC and F_RESTORE replace the ramp of f, RESYNC that of V (R263, R268, R270). -/
def State.moveTargets (s : State) (x : FormUnit) : FormUnit :=
  let ts := x.tsSec
  let fn := s.tideCfg.nominalFreq
  let r := x.cfg.rotor
  let f := x.inForce
  let g : Targets :=
    { p := towards f.p x.target.p (r.pRamp * ts), q := towards f.q x.target.q (r.pRamp * ts)
      v := towards f.v x.target.v (5 / 100 * ts), f := towards f.f x.target.f (ts / 10) }
  let g : Targets :=
    if x.phase = .resync then
      let d := wrap180 ((x.meas.v1.ang - x.meas.gridV1.ang) * 180 / Config.pi)
      let lim := x.cfg.policy.resyncFmax
      { g with
        f := x.meas.gridF + x.rotor.pf * r.droopP * fn - g.p * r.droopP * fn - Num.clamp (-lim) lim (d / (360 * x.cfg.policy.resyncTc))
        v := x.meas.gridMag + r.droopQ * (x.rotor.qf - g.q) }
    else if x.phase = .formingIsland && r.fRestore ≠ 0 then { g with f := f.f + (fn - x.rotor.f) * ts / r.fRestore }
    else g
  { x with inForce := g, rampActive := decide (g ≠ x.target) }

/-- The rotor's step (R243, R245, R252). -/
def State.stepRotor (s : State) (x : FormUnit) : FormUnit :=
  let ts := x.tsSec
  let fn := s.tideCfg.nominalFreq
  let c := x.cfg.rotor
  let r := x.rotor
  let sv := x.meas.vDq.times { re := x.meas.iO.re, im := -x.meas.iO.im }
  let pf := r.pf + (sv.re - r.pf) * ts / c.tPQ
  let qf := r.qf + (sv.im - r.qf) * ts / c.tPQ
  let left := 1 - ((s.now - r.phiAt : Nat) : Num) / (c.bindAbsorb : Num)
  let phi := if left ≤ 0 then 0 else r.phiStart * left
  let r := { r with pf := pf, qf := qf, phiC := phi }
  if !x.rotorRuns || x.phase = .hold then { x with rotor := r }
  else
    let limiting := x.loops.limiter = .limiting && x.phase ≠ .rideThrough
    let pRef := x.inForce.p + (x.inForce.f - r.f) / (c.droopP * fn)
    let fw := r.fw + (r.f - r.fw) * ts / c.tW
    let fd := if limiting then x.meas.fPcc else fw
    let d := if limiting then c.d * x.cfg.frt.limDampMult else c.d
    let dfr := if x.phase = .rideThrough then 0 else fn / (2 * c.h) * (pRef - pf - d * (r.f - fd) / fn) * ts
    let f := r.f + dfr
    let held := Num.clamp (fn - c.fLim) (fn + c.fLim) f
    { x with rotor := { r with fw := fw, f := held, fClamp := decide (held ≠ f) } }

/-- I_LIM in force: it rises from 0.1 pu over T_CONNECT, and after a ride-through at P_RECOV (R258, R276). -/
def FormUnit.limitNow (x : FormUnit) (now : Ns) : Num :=
  let full := x.cfg.frt.iLim
  if x.phase = .connecting then
    nmin full (1 / 10 + (full - 1 / 10) * ((now - x.stateSince : Nat) : Num) / (x.cfg.policy.tConnect : Num))
  else if x.phase = .rideThrough then full
  else nmin full (x.loops.iLim + x.cfg.frt.pRecov * x.tsSec)

/-- E: the droop, the ramp of ENERGISING, or the value held (R246, R266, R275). -/
def FormUnit.internalE (x : FormUnit) : Num :=
  let droop := Num.clamp 0 (13 / 10) (x.inForce.v + x.cfg.rotor.droopQ * (x.inForce.q - x.rotor.qf))
  if x.phase = .energising then
    (if x.cfg.policy.tRamp ≤ x.rampRun then x.inForce.v else x.inForce.v * (x.rampRun : Num) / (x.cfg.policy.tRamp : Num))
  else if x.phase = .hold then x.loops.e
  else droop

/-- The reference and the limits of one cycle (R247, R248, R250 to R252, R256); `a` is the availability. A negative-sequence space vector
turns backwards, so that leading it by 90° is a turn by −90° (R256). -/
def State.stepLoops (s : State) (x : FormUnit) (a : Num) : FormUnit :=
  let ts := x.tsSec
  let fn := s.tideCfg.nominalFreq
  let c := x.cfg.loops
  let l := x.loops
  let w := x.rotor.f / fn
  let e := x.internalE
  let theta := angRad (s.rotorAngle x (s.now - x.t0))
  let thetaV := angRad x.meas.vTheta
  let prev := l.iPre.abs
  let rise := c.kTvi * nmax 0 (prev - c.iTvi)
  let dX := nmin (nmax rise (l.dX * Config.exp (-ts / c.tviDecay))) c.xTviMax
  let dR := dX / c.tviXr
  let eDq := (Cx.cis (x.rotor.phiC * 2 * Config.pi / (2 ^ 32 : Nat))).by_ e
  let vRef := eDq.minus (Cx.times { re := c.rV + dR, im := (c.xV + dX) * w } x.meas.iO)
  let ev := vRef.minus x.meas.vDq
  let iPre := ((x.meas.iO.plus ((Cx.j.times x.meas.vDq).by_ (c.bF * w))).plus (ev.by_ c.kpv)).plus l.xv
  let lim := x.limitNow s.now * a
  let riding := decide (x.phase = .rideThrough)
  let r := frtRef x.cfg.frt lim x.meas.v1Mag x.meas.v2Mag x.frt.v1Pre x.frt.i1dPre x.frt.i1qPre
  let a1 := if x.meas.v1Mag < 5 / 100 then 0 else x.meas.v1.ang - thetaV
  let i1 := (Cx.mk r.i1d (-r.i1q)).times (Cx.cis a1)
  let i2 := (Cx.cis (x.meas.v2.ang + thetaV - 2 * theta - Config.pi / 2)).by_ r.i2
  let frozen := x.phase = .hold && x.holdMode = .gridFollow
  let want := if frozen then l.iRef else if riding then i1.plus i2 else iPre
  let size := want.abs
  let over_ := decide (lim < size)
  let iRef := if over_ then want.by_ (lim / size) else want
  let clamping := over_ || riding
  let limHoldEnd := if clamping then s.now + x.cfg.frt.limHold else l.limHoldEnd
  let limiting := clamping || decide (s.now < limHoldEnd)
  let limiter : Limiter := if limiting then .limiting else if 0 < rise then .tvi else .free
  let xv := l.xv.plus ((ev.by_ (c.kiv * ts)).plus ((iRef.minus iPre).by_ (c.kaw * ts)))
  let act := iRef.times (Cx.cis (thetaV - x.meas.v1.ang))
  { x with
    rampRun := if x.phase = .energising && !limiting then x.rampRun + x.ts else x.rampRun
    frt := if riding then x.frt else { x.frt with v1Pre := x.meas.v1Mag, i1dPre := act.re, i1qPre := -act.im }
    loops := { l with
      e := e, dX := dX, xv := xv, iPre := iPre, iRef := iRef, iLim := x.limitNow s.now, limiter := limiter, limHoldEnd := limHoldEnd
      iRef1 := if riding then (Cx.mk r.i1d r.i1q).abs else iRef.abs, iRef2 := if riding then r.i2 else 0
      faultMode := if riding then (if r.raised then .min else .frt) else if limiting then .limit else .normal
      limTime := if limiting then l.limTime + x.ts else l.limTime } }

/-- The voltage command u of R249, and the current loop's memories as they follow when no index is clamped, and when one is. -/
def State.currentLoop (s : State) (x : FormUnit) : Cx × (Bool → Loops) :=
  let ts := x.tsSec
  let c := x.cfg.loops
  let l := x.loops
  let w := x.rotor.f / s.tideCfg.nominalFreq
  let ei := l.iRef.minus x.meas.iBr
  let r := Config.res2 c.kri (2 * x.rotor.f) ts (l.res.re, l.res.im) (ei.re, ei.im)
  let res : Cx := { re := r.1, im := r.2 }
  let u := (((x.meas.vDq.plus ((Cx.j.times x.meas.iBr).by_ (c.xF * w))).plus (ei.by_ c.kpi)).plus l.xi).plus res
  (u, fun clamped => { l with res := res, overmod := clamped, xi := if clamped then l.xi else l.xi.plus (ei.by_ (c.kii * ts)) })

/-- The indices of a bridge before their clamp: phases, then the neutral leg (R249, R271). -/
def State.bridgeIndices (s : State) (x : FormUnit) (u : Cx) (b : Nat) : List Num :=
  let y := s.bridge b
  let circ := y.iBr.minus (x.meas.iBr.by_ y.share)
  let k := x.cfg.bridgeVNom * Config.sqrt 2 / Config.sqrt 3 / (y.vdc / 2)
  let theta := angRad (s.rotorAngle x (s.now - x.t0))
  let ph := phasesOf ((u.minus (circ.by_ x.cfg.policy.circK)).times (Cx.cis theta))
  let hi := ph.foldl nmax ((ph.head?).getD 0)
  let lo := ph.foldl nmin ((ph.head?).getD 0)
  let cm := -(hi + lo) / 2 - x.cfg.policy.circK * y.zeroSeq
  let m := ph.map fun v => (v + cm) * k
  m ++ [Config.neutralIndex (cm * k)]

/-- One computation of a unit with its pulses enabled: the loops and the indices of its bridges (R243 to R252, R271). -/
def State.computeUnit (s : State) (u : Nat) : State :=
  match s.fu? u with
  | none => s
  | some x =>
    let s := s.setShares x
    let act := s.activeBridges x
    let sum : Cx := act.foldl (fun (a : Cx) b => a.plus (s.bridge b).iBr) ({} : Cx)
    let x := { x with meas := { x.meas with
      iBr := sum
      iO := match x.cfg.isrc with
        | .bridgeSum => sum
        | .channels _ => x.meas.iO } }
    let x := s.stepRotor (s.moveTargets x)
    if !x.phase.pulses then s.onUnit u fun _ => x
    else
      let x := s.stepLoops x (s.availability x)
      let r := s.currentLoop x
      let idx := act.map fun b => (b, s.bridgeIndices x r.1 b)
      let s := s.onUnit u fun _ => { x with loops := r.2 (idx.any fun p => p.2.any fun m => decide (1 < m.mag)) }
      let s := s.forEach idx fun s p => s.onBridge p.1 fun y => { y with indices := p.2.map (Num.clamp (-1) 1) }
      s.circulate x

/-- The half-period of the next boundary is FALLING: its index within the second is odd (R286). -/
def FormUnit.nextFalling (x : FormUnit) : Bool := (x.edge + 1) % 2 == 1

/-- What a unit publishes to PROT (R31, R251). -/
def FormUnit.published (x : FormUnit) : UnitPub :=
  { limiting := x.loops.limiter = .limiting, forming := x.rotorRuns, faultMode := x.loops.faultMode = .frt || x.loops.faultMode = .min }

/-- The downlinks of the cycle: instants for active bridges while pulses are enabled, BLOCK for the others; the unit publishes to PROT (R31,
R241, R289, R296). -/
def State.handOver (s : State) (u : Nat) : State :=
  match s.fu? u with
  | none => s
  | some x =>
    let s := s.forEach x.bridgeNos fun s b =>
      if x.phase.pulses && (s.bridge b).active then s.sendInstants b (x.cycle + 1) (x.t0 + x.ts) x.ts x.nextFalling (s.bridge b).indices
      else s.sendBlock b (x.cycle + 1) (x.t0 + x.ts) x.ts x.nextFalling
    s.onUnit u fun x => { x with handed := true, overrunRun := 0, pub := x.published }

/-! ### DEGRADED (R275) -/

/-- DEGRADED starts: every unit with pulses enabled takes its LOC_ACTION; with REF_LOSS the lost bridges decide (R275). -/
def State.formDegraded (s : State) (refLoss : Bool) : State :=
  let s := s.onForm fun f => { f with loc := true }
  s.forEach s.form.units fun s x =>
    if !x.phase.pulses then s
    else if !x.cfg.policy.holdRide then s.formBlocked x.cfg.unit .loc
    else if refLoss then s
    else
      let from_ := if x.phase = .rideThrough then x.frt.from_ else x.phase
      let follow := from_ = .formingGrid || from_ = .connecting
      let off := x.meas.vTheta - radAng x.meas.v1.ang
      let s := s.onUnit x.cfg.unit fun x => { x with holdMode := if follow then .gridFollow else .free, holdAt := s.now, holdOff := off }
      (s.formTo x.cfg.unit .hold .formHold (b2n follow)).raise .form 12

/-- DEGRADED ends: units in HOLD go on, or block when FORM_START's Tide condition fails (R259, R275). -/
def State.formDegradedEnd (s : State) : State :=
  let s := s.onForm fun f => { f with loc := false }
  s.forEach s.form.units fun s x =>
    if x.phase ≠ .hold then s
    else if s.passed x.holdAt x.cfg.policy.locHoldMax then s.formBlocked x.cfg.unit .loc
    else if x.holdMode = .free then s.formTo x.cfg.unit .formingIsland .formHoldEnd 0
    else if s.tideOnPilot x then s.formTo x.cfg.unit .connecting .formHoldEnd 0
    else s.formBlocked x.cfg.unit .loc

/-! ### Registers (R277 to R283) -/

def State.formStatus (s : State) : Word :=
  let l := s.form.units
  fld 0 ((l.map fun x => 2 ^ x.cfg.unit).sum) ||| flag 4 s.tide.bound.isSome ||| fld 5 (s.tide.bound.getD 0) ||| flag 7 s.form.loc |||
    fld 8 ((l.flatMap fun x => x.bridgeNos.map fun b => 2 ^ b).sum)

def FormUnit.cfgWord (x : FormUnit) : Word :=
  let p := x.cfg.policy
  fld 0 x.cfg.rate.num ||| fld 4 ((x.bridgeNos.map fun b => 2 ^ b).sum) ||| flag 12 true ||| flag 13 p.logicGrant ||| flag 14 p.holdRide |||
    flag 15 p.lossContinue ||| fld 16 (p.minBridges - 1) ||| fld 19 p.autostart.num

def FormUnit.causeWord (x : FormUnit) : Word :=
  x.causes.foldl (fun w c => w ||| flag c.bit true) 0 ||| flag 16 x.waitLink ||| flag 17 x.waitDc ||| flag 18 x.waitStage

def State.unitReg (s : State) (x : FormUnit) (o : Nat) : Word :=
  if o = 0 then x.cfgWord
  else if o = 4 then s.unitStatus x
  else if o = 8 then x.causeWord
  else if o = 0xC then f32bits x.rotor.f
  else if o = 0x10 then s.rotorAngle x 0
  else if o = 0x14 then f32bits x.rotor.pf
  else if o = 0x18 then f32bits x.rotor.qf
  else if o = 0x1C then f32bits x.meas.v1Mag
  else if o = 0x20 then f32bits x.meas.v2Mag
  else if o = 0x24 then f32bits x.loops.e
  else if o = 0x28 then f32bits x.loops.iRef1
  else if o = 0x2C then f32bits x.loops.iRef2
  else if o = 0x30 then f32bits (x.cfg.loops.xV + x.loops.dX)
  else if o = 0x34 then f32bits x.inForce.p
  else if o = 0x38 then f32bits x.inForce.q
  else if o = 0x3C then f32bits x.inForce.v
  else if o = 0x40 then f32bits x.inForce.f
  else if o = 0x44 then fld 0 x.overrun
  else if o = 0x48 then BitVec.ofNat 32 (min (x.loops.limTime / 1000000) (2 ^ 32 - 1))
  else if o = 0x4C then fld 0 x.frt.episodes ||| fld 16 x.frt.duration
  else if o = 0x50 then f32bits x.frt.margin
  else if o = 0x54 then fld 0 x.vector.seq
  else 0

def State.bridgeReg (s : State) (b o : Nat) : Word :=
  let y := s.bridge b
  if o = 0 then
    fld 0 (y.unit.getD 0) ||| flag 2 y.unit.isSome ||| flag 3 y.active ||| flag 4 y.lost ||| flag 5 y.stageFault ||| flag 6 y.circAlarm |||
      flag 7 y.rampSince.isSome ||| fld 8 y.stageFlags
  else if o = 4 then f32bits y.vdc
  else if o = 8 then f32bits y.iMag
  else if o = 0xC then f32bits y.iCirc
  else if o = 0x10 then f32bits y.share
  else if o = 0x14 then fld 0 y.losses
  else 0

/-- A register of the FORM block by its offset, but for the event register (R277). -/
def State.formReg (s : State) (o : Nat) : Word :=
  if o = 0 then s.formStatus
  else if 0x1000 ≤ o ∧ o < 0x1400 then ((s.fu? ((o - 0x1000) / 0x100)).map fun x => s.unitReg x ((o - 0x1000) % 0x100)).getD 0
  else if 0x3000 ≤ o ∧ o < 0x3200 then s.bridgeReg ((o - 0x3000) / 0x40) ((o - 0x3000) % 0x40)
  else 0

end Sys2Proof.Machine
end

