-- ==== Sys2Proof/Machine/ClkOps.lean ====
section
/-! DEFINITION. Operations of CLK: references, loops, retunes, DEGRADED, the registers (spec/03_clocks_and_crossings.md). -/

namespace Sys2Proof.Machine

open Sys2Proof

def State.clkCfg (s : State) : ClkCfg := s.manifest.struct.clk
def State.loop (s : State) (i : LoopId) : Loop := s.clk.loop i
def State.onLoop (s : State) (i : LoopId) (f : Loop → Loop) : State := s.onClk fun c => c.setLoop i (f (c.loop i))

def LoopId.num : LoopId → Nat
  | .spll0 => 0 | .spll1 => 1 | .mpll => 2

def LoopId.other : LoopId → LoopId
  | .spll0 => .spll1 | .spll1 => .spll0 | .mpll => .mpll

/-- The active system loop (R95). -/
def State.activeLoop (s : State) : LoopId := if s.clk.active1 then .spll1 else .spll0

/-- A system loop feeds the domains (R119). -/
def State.feeds (s : State) (i : LoopId) : Bool := s.clk.connected && s.activeLoop == i

/-- The standby loop is QUALIFIED (R118 STBY_OK). DESIGN CHOICE: while no loop feeds the domains there is no standby (log entry 21). -/
def State.stbyOk (s : State) : Bool := s.clk.connected && (s.loop s.activeLoop.other).qualified

/-- The number of a reference in a record. -/
def RefSrc.num : RefSrc → Nat
  | .tcxo => 0 | .xref => 1

/-- Causes of a loss of lock (R94). -/
inductive LolCause where
  | phase | freq | guard | refLost
deriving DecidableEq, Repr, Inhabited

def LolCause.num : LolCause → Nat
  | .phase => 0 | .freq => 1 | .guard => 2 | .refLost => 3

/-! ### Measured frequencies (R92, R117) -/

/-- A measured value within a relative tolerance of its target, otherwise free. -/
def State.drawNear (s : State) (target tol : Num) : Num × State :=
  let r := s.drawNum
  (Num.clamp (target * (1 - tol)) (target * (1 + tol)) r.1, r.2)

/-- The backup oscillator is measured: 400 MHz within ±5 % (R92, R104). -/
def State.measureBackup (s : State) : State :=
  let x := s.drawNear 400 (5 / 100)
  x.2.onClk fun c => { c with backupFreq := x.1 }

/-- The reference taken is measured: 25 MHz, the TCXO within ±0.1 ppm, XREF within ±20 ppm of it, or ±6 % where only the backup oscillator
measures it (R86, R88). -/
def State.measureRef (s : State) : State :=
  let tol : Num := match s.clk.ref with
    | .tcxo => 1 / 10000000
    | .xref => if s.clk.tcxoOk then 201 / 10000000 else 6 / 100
  let x := s.drawNear 25 tol
  x.2.onClk fun c => { c with refFreq := x.1 }

/-- CLK_DOMAIN_FREQ of a domain, in MHz: the fixed divide ratios of R92 on the loop that feeds the domains, the MPLL's steered 22.1184 MHz,
the reference's PHY clock and quad PLLs; on the backup oscillator its own ratios. Without a reference the quad PLLs read 0 (R92, R117). -/
def State.domainFreq (s : State) (d : Nat) : Num :=
  let c := s.clk
  let ref : Num := if c.refNone then 0 else c.refFreq
  if d = 7 then ref
  else if c.connected then
    let f := (s.loop s.activeLoop).freq
    nth [f / 6, f * 2 / 15, f / 12, f / 24, 221184 / 10000 * (1 + c.steer / 1000000), 2133 * ref / 25, f / 60] d 0
  else
    let b := c.backupFreq
    nth [b, b, b / 2, b / 2, b * 221184 / 4000000, b, b / 4] d 0

/-! ### Domains (R92, R112, R114) -/

/-- A domain is stopped (R114). -/
def ClkState.isStopped (c : ClkState) (d : Nat) : Bool := nth c.stopped d false || nth c.inReset d false

/-- The domain monitor finds no edge in a domain, neither reset nor last-words being the cause (R114). -/
def State.domainStop (s : State) (d : Nat) : State :=
  if 8 ≤ d ∨ s.clk.isStopped d then s else
    ((s.onClk fun c => { c with stopped := c.stopped.set d true }).raise .clk 11).report .domainStopped d

/-- The domains leave reset; the token of each that does advances (R112). On a start that no domain has outlived, every crossing has seen it. -/
def State.leaveReset (s : State) : State :=
  s.onClk fun c =>
    let t := (c.tokens.zip c.inReset).map fun x => if x.2 then (x.1 + 1) % 4 else x.1
    { c with tokens := t, seen := if nth c.inReset 3 false then t else c.seen, inReset := List.replicate 8 false }

/-! ### Lock crossings (R108, R109, R112) -/

/-- The crossing with an identifier; one without an entry is free, and has last seen the token that its like have. -/
def ClkState.xing (c : ClkState) (id source domain : Nat) : Xing :=
  (c.xings.find? (·.id == id)).getD { id, source, domain, token := nth c.seen domain 0 }

def State.onXing (s : State) (x : Xing) : State := s.onClk fun c => { c with xings := x :: c.xings.filter fun y => y.id != x.id }

/-- The period of a domain's clock in ns, by the table of R92. -/
def domainPeriod (backup : Bool) (d : Nat) : Num :=
  if backup then nth [5 / 2, 5 / 2, 5, 5, 1000 / (221184 / 10000), 5 / 2, 10, 40] d 10
  else nth [1, 5 / 4, 2, 4, 1000 / (221184 / 10000), 1000 / 2133, 10, 40] d 10

/-- The longest latency of a crossing: 4 periods of the destination and 4 of the source (R108). -/
def State.xingLatency (s : State) (x : Xing) : Num :=
  4 * (domainPeriod (!s.clk.connected) x.domain + domainPeriod (!s.clk.connected) x.source)

/-- The acknowledge has come back: the latency of the transfer has passed (R108 step 3). -/
def State.xingDone (s : State) (x : Xing) : Bool := x.captured && decide ((x.since : Num) + s.xingLatency x ≤ s.now)

/-! ### DEGRADED (R104 to R106) -/

/-- Every link lane goes down with the reference (R105). -/
def State.lanesDown (s : State) : State :=
  let s := s.closeDoors 3
  let s := s.forEach (s.net.ports.map (·.port)) fun s p => s.portLink p false 0
  let s := s.forEach (List.range 4) fun s q => s.adeidLinkDown q
  s.forEach (s.gate.links.map (·.cfg.bridge)) fun s br => s.gateDown br

/-- What DEGRADED does to PTP: the servo stops steering, LOCKED clears; without lanes PTP is in HOLDOVER (R448). -/
def State.ptpDegraded (s : State) (refLoss : Bool) : State :=
  let closed := s.slewClosed
  let s := s.onPtp fun q => { q with degraded := true, eLast := q.eLast - closed, slew := none, candidate := none, servoPpm := 0, history := [] }
  let s := s.when s.ptp.locked fun s => s.setLocked false
  s.when (refLoss && decide (s.ptp.phase = .tracking)) fun s => s.enterHoldover

/-- What DEGRADED does to the zones: they block, and the device only passes sum frames on (R104, R227). -/
def State.diffDegraded (s : State) : State :=
  let s := s.onDiff fun d => { d with passOnly := true }
  s.forEach (List.range s.diff.zones.length) fun s z => s.zoneBlock z .degraded 0

/-- Tasks with DEG = SUSPEND are not released in DEGRADED (R366). -/
def State.logicDegraded (s : State) (on : Bool) : State :=
  s.onLogic fun l =>
    { l with
      tasks := l.tasks.map fun t => { t with suspended := on && t.cfg.degSuspend }
      degSuspend := on && l.tasks.any fun t => t.cfg.degSuspend }

/-- DEGRADED starts (R104, R105). -/
def State.degradedStart (s : State) (cause : DegCause) : State :=
  let ref := cause == .refLoss
  if s.clk.degraded then
    -- The reference is lost while a loop failure already holds.
    if ref && s.clk.degCause != .refLoss then
      ((s.onClk fun c => { c with degCause := .refLoss }).onGate fun g => { g with degraded := false }).ptpDegraded true |>.lanesDown
    else s
  else
    let s := s.onClk fun c =>
      { c with degraded := true, degCause := cause, degSince := s.now, connected := false, meas := .backup, dramRetraining := true }
    let s := (s.measureBackup.raise .clk 2).report .degradedStart 0xFFFF [cause.num, s.clk.spll0.phase.num, s.clk.spll1.phase.num]
    let s := s.onTide fun t => { t with degraded := true }
    let s := s.onGate fun g => { g with degraded := !ref }
    let s := (((s.ptpDegraded ref).diffDegraded).logicDegraded true).captDegraded true
    let s := s.formDegraded ref
    (s.when ref fun s => s.lanesDown).refreshHolds

/-! ### Loops (R94 to R99) -/

/-- A loop that ran locked acquires again; the qualification that follows is a relock when the loop was QUALIFIED before (R94, R96). Its
failed acquisitions since the last QUALIFIED stay counted (R119). -/
def Loop.unlock (l : Loop) (now : Ns) : Loop :=
  { l with phase := .acquiring, qualified := false, qualSince := none, acqAt := now, lossDeclared := l.lossDeclared || l.qualified }

/-- A system loop is declared unlocked, with the PFD error in ns at the declaration: the standby takes over, or DEGRADED starts (R94, R96,
R97, R104). -/
def State.loopLost (s : State) (i : LoopId) (c : LolCause) (pfd : Num) : State :=
  let active := s.feeds i
  let standby := s.stbyOk
  let s := s.onLoop i fun l => l.unlock s.now
  let arg : List Int := [i.num, c.num, roundInt (pfd * 1000)]
  if active then
    let s := (s.raise .clk 0).report .lolActive i.num arg
    if standby then s.onClk fun c => { c with active1 := !c.active1 } else s.degradedStart .loopFail
  else (s.raise .clk 1).report .lolStby i.num arg

/-- A system loop is declared unlocked by the guard; the PFD error is a free value (R93). -/
def State.loopGuarded (s : State) (i : LoopId) : State := let r := s.drawNum
                                                         r.2.loopLost i .guard r.1

/-- The MPLL loses lock: MEAS moves to the divider of the active system loop (R103). -/
def State.mpllLost (s : State) : State :=
  let s := s.onLoop .mpll fun l => l.unlock s.now
  let s := s.onClk fun c => if c.degraded then c else { c with meas := .alt }
  (s.raise .clk 6).report .mpllLol

/-- No usable reference remains (R90): the loops are declared unlocked, with acquisition suspended, the quad PLLs stop (R92), and DEGRADED
starts. -/
def State.noReference (s : State) : State :=
  let s := s.onClk fun c => { c with refNone := true, refSince := none }
  let s := (s.raise .clk 5).report .refLoss 0xFFFF [2]
  let drop := fun (s : State) (i : LoopId) =>
    if (s.loop i).phase ≠ .locked then s else
      let active := s.feeds i
      let r := s.drawNum
      let s := r.2.onLoop i fun l => l.unlock s.now
      let arg : List Int := [i.num, LolCause.refLost.num, roundInt (r.1 * 1000)]
      if active then (s.raise .clk 0).report .lolActive i.num arg else (s.raise .clk 1).report .lolStby i.num arg
  let s := drop (drop s s.activeLoop.other) s.activeLoop
  let s := s.when (decide (s.clk.mpll.phase = .locked)) fun s => s.mpllLost
  (s.domainStop 7).degradedStart .refLoss

/-- The active reference changes, with phase build-out (R87, R88). `old` is 2 when there was none. -/
def State.refSwitch (s : State) (old : Nat) (new : RefSrc) : State :=
  let s := s.onClk fun c => { c with ref := new, refSince := if c.refSince.isSome then c.refSince else some s.now }
  (s.measureRef.raise .clk 4).report .refSwitch 0xFFFF [old, new.num, roundInt (s.clk.refPpm * 1000)]

/-- A reference is no longer qualified (R87, R89, R90). A lost XREF that is active shows as the switch. -/
def State.refLost (s : State) (src : RefSrc) : State :=
  let s := s.onClk fun c => match src with
    | .xref => { c with xrefOk := false, xrefSince := none }
    | .tcxo => { c with tcxoOk := false }
  if s.clk.ref = src then
    let s := s.when (src == .tcxo) fun s => (s.raise .clk 5).report .refLoss 0xFFFF [0]
    match src with
    | .xref => if s.clk.tcxoOk then s.refSwitch 1 .tcxo else s.noReference
    | .tcxo => if s.clk.xrefOk then s.refSwitch 0 .xref else s.noReference
  else (s.raise .clk 5).report .refLoss 0xFFFF [src.num]

/-- A 10 ms measurement of XREF against the TCXO (R86, R87). -/
def State.xrefMeasured (s : State) (ppm : Num) : State := s.when s.clk.tcxoOk fun s => s.onClk fun c => { c with refPpm := ppm }

/-- A measured offset of XREF within its limit: ±20 ppm against the TCXO, ±6 % against the backup oscillator (R86, R88). -/
def State.xrefInLimit (s : State) (ppm : Num) : Bool := decide (ppm.mag ≤ if s.clk.tcxoOk then 20 else 60000)

/-- The structure that goes live does not use XREF: the TCXO is the reference (R86). -/
def State.xrefUnused (s : State) : State :=
  if s.clkCfg.xrefUsed then s else
    let s := s.onClk fun c => { c with xrefOk := false, xrefSince := none }
    if s.clk.ref = .tcxo || s.clk.refNone then s else if s.clk.tcxoOk then s.refSwitch 1 .tcxo else s.noReference

/-- A reference exists again: suspended acquisitions start afresh (R90, R94). -/
def State.restartLoops (s : State) : State :=
  s.forEach [LoopId.spll0, LoopId.spll1, LoopId.mpll] fun s i =>
    s.onLoop i fun l =>
      if l.phase = .acquiring ∨ l.waitRef then { l with phase := .acquiring, acqAt := s.now, retries := 0, waitRef := false } else l

/-! ### Retunes and mode moves (R91, R98, R99) -/

/-- Steps 1 and 2 of R99: the domains leave the named loop, and it is reprogrammed. A move of R91 that still waits for it is superseded. -/
def State.beginRetune (s : State) (i : LoopId) (m : RefMode) (berth : Option Nat) : State :=
  let s := s.onClk fun c =>
    { c with
      active1 := if s.feeds i then !c.active1 else c.active1
      retune := some { loop := i, oldMode := (c.loop i).mode, newMode := m, berth := berth, start := s.now }
      moves := c.moves.filter fun p => p.1 != i }
  s.onLoop i fun l =>
    { l with phase := .acquiring, qualified := false, qualSince := none, mode := m, acqAt := s.now, lossDeclared := false }

/-- The next mode move of R91 starts, when the other loop is QUALIFIED and no retune runs. -/
def State.nextMove (s : State) : State :=
  match s.clk.moves with
  | [] => s
  | (i, m) :: _ =>
    if s.clk.retune.isSome || s.clk.degraded || !(s.loop i.other).qualified || decide ((s.loop i).phase = .failed) then s
    else s.beginRetune i m none

/-- Loops whose mode differs from their setting are moved to it, SPLL1 first (R91). -/
def State.startMoves (s : State) : State :=
  let c := s.clkCfg
  let want := [(LoopId.spll1, c.spll1Mode), (LoopId.spll0, c.spll0Mode)].filter fun p => decide ((s.loop p.1).mode ≠ p.2)
  (s.onClk fun c => { c with moves := want }).nextMove

/-- A retune ends without success (R99). -/
def State.retuneFailed (s : State) : State :=
  match s.clk.retune with
  | none => s
  | some r =>
    let s := s.onClk fun c => { c with retune := none }
    (match r.berth with
      | some b => s.failed b .execError
      | none => s).nextMove

/-- A retuned loop is QUALIFIED: it is the standby, and the retune is done (R99). -/
def State.retuneDone (s : State) (r : Retune) : State :=
  let s := s.onClk fun c => { c with retune := none }
  let s := (s.raise .clk 7).report .retuneDone r.loop.num [r.loop.num, r.oldMode.num, r.newMode.num]
  (match r.berth with
    | some b => s.done b
    | none => s).nextMove

/-- Why CLK_RETUNE is refused (R98). -/
def State.clkStatus (s : State) : Word :=
  let c := s.clk
  flag 0 c.active1 ||| flag 1 s.stbyOk ||| flag 2 c.degraded ||| fld 3 c.degCause.num ||| flag 5 (c.meas == .alt) ||| flag 6 c.measSlew |||
    flag 7 c.retune.isSome

def State.refuseRetune (s : State) (i : LoopId) : Option Refuse :=
  if !(s.loop i.other).qualified || s.clk.degraded || s.clk.retune.isSome || decide ((s.loop i).phase = .failed) || i == .mpll then
    some { blk := .clk, src := i.num, st0 := s.clkStatus }
  else none

/-- Why CLK_LOOP_RESET is refused: only a FAILED loop is reset (R94). -/
def State.refuseLoopReset (s : State) (i : LoopId) : Option Refuse :=
  if (s.loop i).phase = .failed then none else some { blk := .clk, src := i.num, st0 := s.clkStatus }

/-! ### The end of DEGRADED (R106) -/

/-- A loop has been QUALIFIED for DEGRADED_RETURN. -/
def State.loopReturned (s : State) (i : LoopId) : Bool :=
  (s.loop i).qualified && s.passedSince (s.loop i).qualSince s.clkCfg.degradedReturn

/-- The loop that the domains return to, the last active one first. -/
def State.returnLoop (s : State) : Option LoopId :=
  if !s.clk.degraded || s.clk.refNone then none
  else if s.clk.degCause = .refLoss && !s.passedSince s.clk.refSince s.clkCfg.degradedReturn then none
  else if s.loopReturned s.activeLoop then some s.activeLoop
  else if s.loopReturned s.activeLoop.other then some s.activeLoop.other
  else none

/-- DEGRADED ends on loop `i` (R106). -/
def State.degradedEnd (s : State) (i : LoopId) : State :=
  let ref := s.clk.degCause == .refLoss
  let spent := s.now - s.clk.degSince
  let s := s.onClk fun c =>
    { c with
      degraded := false, degCause := .none, connected := true, active1 := i == .spll1, dramRetraining := true
      meas := if c.mpll.qualified then .mpll else .alt }
  let s := (s.raise .clk 3).report .degradedEnd 0xFFFF [spent]
  let s := s.onTide fun t => { t with degraded := false }
  let s := (s.onGate fun g => { g with degraded := false }).onPtp fun q => { q with degraded := false }
  let s := ((s.onDiff fun d => { d with passOnly := false }).logicDegraded false).captDegraded false
  let s := (s.onHost fun h => { h with lateEpisode := false }).formDegradedEnd
  let s := s.when (ref && decide (8 ≤ s.sys.stage ∧ s.sys.stage ≤ 11)) fun s => s.scheduleDoors s.now
  s.nextMove.refreshHolds

/-! ### Registers (R117 to R119) -/

def State.loopStatus (s : State) (i : LoopId) : Word :=
  let l := s.loop i
  fld 0 l.phase.num ||| flag 2 l.qualified ||| flag 3 (s.feeds i) ||| fld 4 l.mode.num ||| fld 8 l.mode.divider ||| fld 17 l.retries

/-- A register of the CLK block by its offset, but for the event register (R117). -/
def State.clkReg (s : State) (o : Nat) : Word :=
  let c := s.clk
  if o = 0 then s.clkStatus
  else if o = 0x10 then fld 0 c.ref.num ||| flag 1 c.xrefOk ||| flag 2 c.tcxoOk ||| flag 3 c.refNone
  else if o = 0x14 then f32bits c.refPpm
  else if o = 0x20 then s.loopStatus .spll0
  else if o = 0x24 then f32bits c.spll0.freq
  else if o = 0x28 then fld 0 c.spll0.relocks
  else if o = 0x30 then s.loopStatus .spll1
  else if o = 0x34 then f32bits c.spll1.freq
  else if o = 0x38 then fld 0 c.spll1.relocks
  else if o = 0x40 then fld 0 c.mpll.phase.num ||| flag 2 c.mpll.qualified
  else if o = 0x44 then f32bits c.steer
  else if o = 0x48 then BitVec.ofInt 32 c.pherr
  else if o = 0x60 then (List.range 8).foldl (fun w d => w ||| flag d (c.isStopped d)) 0
  else if o = 0x64 then fld 0 c.guardCount ||| fld 16 c.guardDomain
  else if 0x80 ≤ o ∧ o < 0xA0 then f32bits (s.domainFreq ((o - 0x80) / 4))
  else if o = 0xA0 then fld 0 c.overwriteCount ||| fld 16 c.overwriteId
  else if o = 0xA4 then fld 0 c.presetCount ||| fld 8 c.presetDropped ||| fld 16 c.presetId
  else if o = 0xB0 then fld 0 c.accessErrCount ||| fld 16 c.accessErrDomain ||| flag 19 c.accessErrWrite
  else 0

end Sys2Proof.Machine
end

