-- ==== Sys2Proof/Machine/DiagOps.lean ====
section
/-! DEFINITION. Operations of DIAG: self-test results, memory errors, the ledger, the health state, ALERT_N, the registers (spec/18_health_and_service_life.md). -/

namespace Sys2Proof.Machine

open Sys2Proof

/-! ### Self-tests (R575) -/

/-- A self-test fails: its bit, the event and the record with the test and the part (R575). -/
def State.testFailed (s : State) (t : SelfTest) (part : Nat) : State :=
  let s := s.onDiag fun d =>
    { d with testFail := d.testFail ||| flag t.bit true, failing := if d.failing.contains t then d.failing else d.failing ++ [t] }
  (s.raise .diag 0).report .diagTest 0xFFFF [t.bit, part, 1]

/-- A self-test passes: its failure no longer stands, its bit stays (R575, R583). -/
def State.testPassed (s : State) (t : SelfTest) : State := s.onDiag fun d => { d with failing := d.failing.filter (· != t) }

/-- The result of a test. -/
def State.testResult (s : State) (t : SelfTest) (part : Nat) (pass : Bool) : State :=
  let s := s.onDiag fun d => { d with ranAt := d.ranAt.set t.bit s.now }
  if pass then s.testPassed t else s.testFailed t part

/-- The known-answer test of the CHK engines: those that fail are logged (R475). -/
def State.chkKat (s : State) (bad : List Nat) : State :=
  let s := s.forEach bad fun s e => (s.raise .chk 4).report .chkKatFail e [e]
  (s.onChk fun c => { c with katOk := bad.isEmpty, katAt := s.now }).testResult .chk (bad.headD 0) bad.isEmpty

/-! ### Memory errors (R576) -/

/-- An error of a memory is counted and logged: an uncorrectable one always, a corrected one once per hour (R576). -/
def State.eccCount (s : State) (m addr : Nat) (corrected : Bool) : State :=
  let e := nth s.diag.ecc m {}
  if corrected then
    let same := e.hourAt.any fun t => decide (s.now < t + secs 3600)
    let s := s.onDiag fun d => { d with
      ecc := updAt d.ecc m fun e =>
        { e with
          corrected := satInc 16 e.corrected, hourAt := if same then e.hourAt else some s.now
          hourCount := if same then e.hourCount + 1 else 1 } }
    s.when (!same) fun s => s.report .diagEccCorr m [addr]
  else
    let s := s.onDiag fun d => { d with ecc := updAt d.ecc m fun e => { e with uncorrected := satInc 16 e.uncorrected, uncorrAt := some s.now } }
    (s.raise .diag 1).report .diagEccUncorr m [addr]

/-! ### The ledger (R581, R582) -/

/-- The bin of a temperature in 0.1 °C (R581). -/
def tempBin (t : Int) : Nat := min 31 ((t + 450) / 50).toNat

/-- The weight of R582 at a mean baseplate temperature in 0.1 °C. -/
def ageWeight (t : Num) : Num :=
  Config.exp ((81235 : Num) / 10 * (100 / 32815 - 1 / (t / 10 + 27315 / 100)))

/-- 40 years in s, of 365.25 days each (R582). -/
def lifeSeconds : Num := 40 * 36525 / 100 * 86400

/-- LIFE_USED in per-mille (R582). -/
def Ledger.lifeUsed (l : Ledger) : Nat := (nmax (l.age / lifeSeconds) ((l.pwrcyc : Num) / 58440) * 1000).floor.toNat

/-! ### The health state and ALERT_N (R583, R584) -/

/-- The start-up has not yet reached PROT_READY (R584). -/
def State.starting (s : State) : Bool := s.sys.held || decide (s.sys.stage < 7) || decide (s.sys.stage = 12)

def State.healthCritical (s : State) : Bool := s.prot.noLane || s.log.aonBoth || s.sec.bare || s.sec.cryptoFail

def State.healthAlarm (s : State) : Bool :=
  decide (s.prot.laneA.phase = .out ∨ s.prot.laneB.phase = .out) || s.clk.degraded || s.log.bankFail || s.diag.ageAlarm || s.diag.lifeEnd ||
    s.diag.failing.any (fun t => t != .sram && t != .dram && t != .mram && t != .formLockstep) ||
    s.diag.ecc.any fun e => e.uncorrAt.any fun t => decide (s.now < t + secs 3600)

def State.healthWarning (s : State) : Bool :=
  s.sys.single || decide (s.prot.laneA.phase = .suspect ∨ s.prot.laneB.phase = .suspect) || s.diag.tempWarn || s.diag.ageWarn || s.diag.lifeWarn ||
    s.diag.refresh.lateInPass || !s.ptp.locked ||
    s.diag.ecc.any fun e => decide (100 < e.hourCount) && e.hourAt.any fun t => decide (s.now < t + secs 3600)

/-- The highest severity among the conditions present (R583). -/
def State.healthNow (s : State) : Health :=
  if s.healthCritical then .critical else if s.healthAlarm then .alarm else if s.healthWarning then .warning else .ok

/-- An input lies above 9 V, so that the always-on well has power (R555). -/
def State.powered (s : State) : Bool := decide (s.sys.vla.level ≠ .absent ∨ s.sys.vlb.level ≠ .absent)

/-- ALERT_N is driven low (R584, R421). -/
def State.alertDriven (s : State) : Bool :=
  s.powered && (s.starting || s.sys.lastwords || s.diag.health == .critical || s.log.aonBoth)

/-- The health state follows its conditions; a change is flagged and logged, and ALERT_N follows (R583, R584). -/
def State.updateHealth (s : State) : State :=
  let h := s.healthNow
  let s' := s.onDiag fun d => { d with health := h }
  let s' := s'.when (decide (h ≠ s.diag.health)) fun s => (s.raise .diag 3).report .healthChange 0xFFFF [h.num]
  s'.onDiag fun d => { d with alertLow := s'.alertDriven }

/-! ### Registers (R587, R588) -/

def DiagState.status (d : DiagState) : Word :=
  fld 0 d.health.num ||| flag 2 d.tempWarn ||| flag 3 d.ageWarn ||| flag 4 d.ageAlarm ||| flag 5 d.lifeWarn ||| flag 6 d.lifeEnd |||
    flag 7 d.refresh.active

def State.diagAlert (s : State) : Word :=
  flag 0 s.alertDriven ||| flag 1 s.prot.noLane ||| flag 2 s.log.aonBoth ||| flag 3 s.sec.bare ||| flag 4 s.sec.cryptoFail |||
    flag 5 s.starting ||| flag 6 s.sys.lastwords

/-- Seconds since the last pass started: on PTP time when TIME_KNOWN is set and was set at that start, on operating seconds otherwise
(R577). -/
def State.refreshAge (s : State) : Nat :=
  if s.ptp.timeKnown && s.diag.refresh.startPtp ≠ 0 then s.ptpSec - s.diag.refresh.startPtp else s.diag.ledger.opsec - s.diag.refresh.startOps

/-- A register of the DIAG block by its offset, but for the event register (R587). -/
def State.diagReg (s : State) (o : Nat) : Word :=
  let d := s.diag
  if o = 0 then d.status
  else if o = 8 then s.diagAlert
  else if o = 0xC then d.testFail
  else if o = 0x10 then BitVec.ofNat 32 d.ledger.opsec
  else if o = 0x14 then BitVec.ofNat 32 d.ledger.pwrcyc
  else if o = 0x18 then fld 0 (d.ledger.refreshPasses % 65536) ||| fld 16 (min 65535 (s.refreshAge / 86400))
  else if o = 0x1C then fld 0 (min 65535 d.lifeUsed) ||| fld 16 (min 65535 ((d.ledger.age / 86400 / 16).floor.toNat))
  else if 0x40 ≤ o ∧ o < 0x60 then
    let e := nth d.ecc ((o - 0x40) / 4) {}
    fld 0 e.corrected ||| fld 16 e.uncorrected
  else if 0x80 ≤ o ∧ o < 0x94 then
    let t := nth d.temps ((o - 0x80) / 4) {}
    fld 0 (sfield 16 t.now_) ||| fld 16 (sfield 16 t.peak)
  else if 0xA0 ≤ o ∧ o < 0xB4 then fld 0 (min 65535 (nth d.ages ((o - 0xA0) / 4) 0))
  else if 0x100 ≤ o ∧ o < 0x180 then BitVec.ofNat 32 (nth d.ledger.hist ((o - 0x100) / 4) 0)
  else 0

end Sys2Proof.Machine
end

