-- ==== Sys2Proof/Machine/Capt.lean ====
section
/-! DEFINITION. Capture commands: arming, triggers, the coincidence window, the end of a capture, locks (spec/11_capture.md R382 to R391). -/

namespace Sys2Proof.Machine

open Sys2Proof

/-- A refusal of an engine, with CAPT_E_STATUS (R384). -/
def State.captRefuse (s : State) (e : Nat) (accepts : Bool) : Option Refuse :=
  if (s.engine e).created && accepts then none else some { blk := .capt, src := e, st0 := (s.engine e).status }

/-- CAPT_ARM and a LOGIC re-arm: from DISARMED, or from DONE when not locked, unless the boot test of the DRAM failed (R384, R391, R575). -/
def State.refuseArm (s : State) (e : Nat) : Option Refuse :=
  let x := s.engine e
  s.captRefuse e (!s.diag.failing.contains .dram && (x.phase = .disarmed || (x.phase = .done && x.locked.isNone)))

/-- CAPT_DISARM: from ARMED or DONE, not locked (R384, R391). -/
def State.refuseDisarm (s : State) (e : Nat) : Option Refuse :=
  let x := s.engine e
  s.captRefuse e ((x.phase = .armed || x.phase = .done) && x.locked.isNone)

/-- CAPT_TRIGGER: only in ARMED, on an engine that has a MANUAL condition (R384). -/
def State.refuseTrigger (s : State) (e : Nat) : Option Refuse :=
  let x := s.engine e
  s.captRefuse e (x.phase = .armed && x.cfg.conds.contains .manual)

/-- A trigger that the program requests: while the engine is ARMED or TRIGGERED, on one that has a LOGIC condition (R349, R382, R384). -/
def State.refuseLogicTrigger (s : State) (e : Nat) : Option Refuse :=
  let x := s.engine e
  s.captRefuse e (x.live && x.cfg.conds.contains .logic)

/-- CAPT_SET: in DISARMED, ARMED and DONE (R386). -/
def State.refuseCaptSet (s : State) (e : Nat) : Option Refuse := s.captRefuse e ((s.engine e).phase ≠ .triggered)

/-- CAPT_LOCK: only in DONE (R391). -/
def State.refuseLock (s : State) (e : Nat) : Option Refuse := s.captRefuse e ((s.engine e).phase = .done)

/-- CAPT_SET lies beyond the envelope: the PRE_ROWS leave less than the least POST_ROWS, or POST_ROWS is less than it (R42, R386). -/
def Engine.setBeyond (e : Engine) (pre post : Nat) : Bool := decide (e.maxRows < pre + e.minPost ∨ post < e.minPost)

/-- CAPT_ARM (R384). -/
def execCaptArm (b : Nat) (s : State) : Out :=
  .next <| match s.ctlCmd b with
  | some (.captArm e) => s.runCtl b (s.refuseArm e) fun s => (s.captArmed e).done b
  | _ => s

/-- CAPT_DISARM (R384). -/
def execCaptDisarm (b : Nat) (s : State) : Out :=
  .next <| match s.ctlCmd b with
  | some (.captDisarm e) => s.runCtl b (s.refuseDisarm e) fun s => (s.captDisarmed e).done b
  | _ => s

/-- CAPT_TRIGGER reports the MANUAL condition, with the time of its admission (R382). -/
def execCaptManualTrigger (b : Nat) (s : State) : Out :=
  .next <| match s.ctlCmd b, s.item b with
  | some (.captTrigger e), some it => s.runCtl b (s.refuseTrigger e) fun s =>
    (s.captTriggerNow e (s.ltc - (s.now - it.tAdmit)) fun c => c == .manual).done b
  | _, _ => s

/-- CAPT_SET: POST_ROWS above the room left is clamped, shown and logged (R386). -/
def execCaptSet (b : Nat) (s : State) : Out :=
  .next <| match s.ctlCmd b with
  | some (.captSet e pre post) => s.runCtl b (s.refuseCaptSet e) fun s =>
    let room := (s.engine e).maxRows - pre
    let clip := decide (room < post)
    let s := s.onEngine e fun x => { x with pre := pre, post := min post room, clampedCfg := clip }
    (s.when clip fun s => (s.raise .capt 6).report .captClamped e [post, room]).done b
  | _ => s

/-- CAPT_LOCK (R391). -/
def execCaptLock (b : Nat) (s : State) : Out :=
  .next <| match s.ctlCmd b with
  | some (.captLock e) => s.runCtl b (s.refuseLock e) fun s => (s.onEngine e fun x => { x with locked := some s.now }).done b
  | _ => s

/-- CAPT_UNLOCK clears the lock (R391). -/
def execCaptUnlock (b : Nat) (s : State) : Out :=
  .next <| match s.ctlCmd b with
  | some (.captUnlock e) => s.runCtl b none fun s => (s.onEngine e fun x => { x with locked := none }).done b
  | _ => s

/-- A lock still held after LOCK_MAX lapses (R391). -/
def execCaptLockLapsed (e : Nat) (s : State) : Out :=
  let x := s.engine e
  .next <| if s.passedSince x.locked x.cfg.lockMax then
    ((s.onEngine e fun x => { x with locked := none }).raise .capt 7).report .captLockLapsed e
  else s

/-- A met condition is reported (R382, R383). -/
def execCaptConditionMet (e cond : Nat) (s : State) : Out :=
  .next <| match (s.engine e).met.find? (·.cond == cond) with
  | none => s
  | some r => (s.onEngine e fun x => { x with met := x.met.erase r }).captReport e r

/-- The coincidence window ends after 25 ms: the decision is final, the baseline is taken and the descriptor written (R383, R388). -/
def execCaptWindowEnd (e : Nat) (s : State) : Out :=
  let x := s.engine e
  .next <| if !(x.window && x.phase = .triggered && s.passed x.firstAt (msec 25)) then s else
    let hits := x.reports.filter fun r => x.idxOf r.time == x.trigIdx
    let mask := hits.foldl (fun (m : BitVec 64) r => m ||| BitVec.ofNat 64 (2 ^ r.cond)) 0
    let primary := (hits.map (·.cond)).foldl min ((hits.head?.map (·.cond)).getD 0)
    let s := s.onEngine e fun x =>
      { x with
        window := false, mask := mask, primary := primary
        baseDigital := (List.range x.cfg.digital.length).map fun i => nth x.lastDig i false
        baseAnalog := (List.range x.cfg.analog.length).map fun i => (nth x.lastAna i (0, 0)).1
        desc := { x.desc with
          valid := false, captNum := x.num, mask := mask, primary := primary, fast := x.cfg.rate == .fast
          device := s.sec.device, nch := x.cfg.chans.length, ndig := x.cfg.digital.length, nana := x.cfg.analog.length
          manifestVer := s.sec.liveRollback, baseTag := s.tagNow x } }
    let s := s.onEngine e fun x => { x with desc := s.captSpan x, written := some (s.captSpan x) }
    (s.raise .capt 1).captRecord .captTrigger e

/-- Records lost while the change ring was full: one CHG_GAP record goes into the kept slot (R387). -/
def State.captCloseRing (s : State) (e : Nat) : State :=
  match (s.engine e).chgFull, (s.engine e).lostRun with
  | true, some l => (s.onEngine e fun x => { x.store l.record s.now with lostRun := none }).raise .capt 5
  | _, _ => s

/-- The last post-trigger row has been released: the descriptor is rewritten with VALID (R384, R389, R390). -/
def execCaptDone (e : Nat) (s : State) : Out :=
  let x := s.engine e
  .next <| if !(x.phase = .triggered && !x.window && decide (x.post ≤ x.fill)) then s else
    let s := s.captCloseRing e
    let s := s.onEngine e fun x =>
      { x with phase := .done, desc := { s.captSpan x with valid := true }, written := some { s.captSpan x with valid := true } }
    (s.raise .capt 2).captRecord .captDone e

end Sys2Proof.Machine
end

