-- ==== Sys2Proof/Machine/Fio.lean ====
section
/-! DEFINITION. Field-channel commands: groups, handshake, synchronisation, outputs, watchdog, scheduled edges, diagnostics, supply (spec/09_field_io.md). -/

namespace Sys2Proof.Machine

open Sys2Proof

/-- No valid frame from the field side for 1 ms: the group is LOST and its inputs read INVALID (R309). -/
def execFioGroupLost (g : Nat) (s : State) : Out :=
  let x := s.fioGroup g
  .next <| if x.created && !x.lost && s.passed x.lastRx (msec 1) then
    ((s.onGroup g fun x => { x with lost := true, link := false }).raise .fio 3).report .fioGroupLost g
  else s

/-- On acceptance each output takes its safe state, HOLD taken as OFF, and stays there until its owner commands it; the
factory delays stand again (R311, R323). -/
def State.fioAccept (s : State) (g : Nat) : State :=
  let s := s.onGroup g fun x =>
    { x with accepted := true, rehandshake := false, handshakeFail := false, link := true, wdSafe := false, lost := false, lastRx := s.now, lastTx := s.now }
  let s := s.forEach (groupChans g) fun s n => s.onCh n fun c =>
    { c with safeState := c.isOutput, holdLevel := false, delaysOn := [], delaysOff := [] }
  s.driveGroup g

/-- The expiry that preceded a handshake is counted and logged with its time and duration (R322, R562). -/
def State.fioExpiryLogged (s : State) (g : Nat) : State :=
  match (s.fioGroup g).expiry with
  | none => s
  | some e =>
    ((s.onGroup g fun x => { x with expiry := none, wdExpiries := satInc 8 x.wdExpiries }).raise .fio 2).report .fioWatchdog g
      [e.1.toNat, s.now - e.2]

/-- The trip path sends trip[k] at once after a handshake, if PROT is READY (R322). -/
def State.fioResendTrips (s : State) (g : Nat) : State :=
  s.forEach (s.manifest.prot.trips.filter fun t => s.prot.ready && groupOf t.channel == g) fun s t =>
    match s.prot.trips.find? (·.index == t.index) with
    | some x => s.sendFio t.channel x.trip
    | none => s

/-- A handshake with a group: the configuration is accepted, or it fails and is retried every 1 s (R311). -/
def execFioHandshake (g : Nat) (ok : Bool) (s : State) : Out :=
  let x := s.fioGroup g
  let due := x.created && decide (5 ≤ s.sys.stage ∧ s.sys.stage < 12) && (!x.accepted || x.wdSafe || x.rehandshake) &&
    (!x.handshakeFail || s.passed x.handshakeAt (secs 1))
  .next <| if !due then s
  else if ok then ((s.fioAccept g).fioExpiryLogged g).fioResendTrips g
  else
    let s := s.onGroup g fun x => { x with accepted := false, link := false, handshakeFail := true, handshakeAt := s.now }
    (((s.driveGroup g).onChk fun c => { c with pathFail := updAt c.pathFail 9 (satInc 32) }).raise .fio 6).report .fioHandshakeFail g

/-- The logic side disciplines a group's time counter, and passes on a step of its own (R314). -/
def execFioTimeSync (g : Nat) (s : State) : Out :=
  .next <| if (s.fioGroup g).created then
    s.onGroup g fun x => { x with lastSync := s.now, syncOk := true, unsyncSeen := false }
  else s

/-- The last synchronisation is older than 5 ms: stamps are UNSYNC (R314). -/
def execFioSyncLost (g : Nat) (s : State) : Out :=
  let x := s.fioGroup g
  .next <| if x.syncOk && decide (x.lastSync + msec 5 < s.now) then s.onGroup g fun x => { x with syncOk := false } else s

/-- An owner's command reaches the field side, 1.2 µs after it was sent, and becomes the commanded level (R309, R321). -/
def execFioOutputCommand (ch : Nat) (s : State) : Out :=
  .next <| match (s.fioCh ch).sent with
  | [] => s
  | (level, t) :: rest =>
    if s.passed t 1200 then (s.onCh ch fun c => { c with sent := rest }).applyFio ch level else s

/-- FIO_SET sends a level to a HOST-owned output (R310). -/
def execFioSet (b : Nat) (s : State) : Out :=
  .next <| match s.ctlCmd b with
  | some (.fioSet ch level) => s.runCtl b none fun s => (s.sendFio ch level).done b
  | _ => s

/-- The pulse budget is exhausted, or the current limit has held for 200 µs: the channel is switched off and locked (R318). -/
def execFioOverload (ch : Nat) (limit : Bool) (s : State) : Out :=
  let n := s.gangLead ch
  let c := s.fioCh n
  .next <| if !(c.isOutput && c.driven) then s else
    let s := s.onCh n fun c => { c with lockedOff := some s.now, lockOverload := true, budget := if limit then c.budget else 0 }
    let s := (s.drive n).fioDetect n 0
    if limit then s else s.onCh n fun c => { c with diag := c.diag.raise 1 }

/-- 1 s after an OVERLOAD lockout the field side retries, up to OVL_RETRY times in one on period (R319). -/
def execFioOvlRetry (ch : Nat) (s : State) : Out :=
  let n := s.gangLead ch
  let c := s.fioCh n
  .next <| if c.lockOverload && c.cmd && decide (c.retries < c.ovlRetry) && s.passedSince c.lockedOff (secs 1) then
    (s.onCh n fun c => { c with lockedOff := none, lockOverload := false, retries := c.retries + 1, diag := c.diag.raise 9 }).drive n
  else s

/-- The lockout of a channel is cleared (R319, R320). -/
def State.fioUnlock (s : State) (ch : Nat) : State :=
  let n := s.gangLead ch
  (s.onCh n fun c => { c with lockedOff := none, lockOverload := false, restarts := [] }).drive n

/-- FIO_CLEAR clears an OVERLOAD or overtemperature lockout (R319). -/
def execFioClear (b : Nat) (s : State) : Out :=
  .next <| match s.ctlCmd b with
  | some (.fioClear ch) => s.runCtl b none fun s => (s.fioUnlock ch).done b
  | _ => s

/-- A junction passes 150 °C, or has cooled below 130 °C: off, restart, or a lock at the third restart within 60 s (R320). -/
def execFioOvertemp (ch : Nat) (hot : Bool) (s : State) : Out :=
  let n := s.gangLead ch
  let c := s.fioCh n
  .next <| if !c.isOutput then s
  else if hot then
    if c.overtemp then s else ((s.onCh n fun c => { c with overtemp := true }).drive n).fioDetect n 3
  else if !c.overtemp then s
  else
    let recent := c.restarts.filter fun t => s.now < t + secs 60
    let third := c.cmd && decide (2 ≤ recent.length)
    (s.onCh n fun c =>
      { c with
        overtemp := false
        restarts := if c.cmd then s.now :: recent else recent
        lockedOff := if third then some s.now else c.lockedOff
        lockOverload := c.lockOverload && !third }).drive n

/-- No valid frame from the logic side for WD_TIME: each output takes its SAFE state (R322). -/
def execFioWatchdog (g : Nat) (s : State) : Out :=
  let x := s.fioGroup g
  .next <| if x.accepted && !x.wdSafe && s.passed x.lastTx x.cfg.wdTime then s.fioSafe g else s

/-- The mean delay of the last 8 switchings in a direction, or the factory's before the first (R323). -/
def State.fioMeanDelay (s : State) (n : Nat) (on : Bool) : Ns × State :=
  let l := if on then (s.fioCh n).delaysOn else (s.fioCh n).delaysOff
  if l = [] then s.switchDelay else (l.sum / l.length, s)

/-- A queued scheduled edge is applied early by the mean switching delay, so that the pin crosses at its instant (R323). -/
def execFioSchedEdge (g id : Nat) (s : State) : Out :=
  .next <| match (s.fioGroup g).sched.find? (·.id == id) with
  | none => s
  | some e =>
    let d := s.fioMeanDelay (s.gangLead e.ch) e.level
    if e.time ≤ s.ltc + d.1 then
      ((d.2.onGroup g fun x => { x with sched := x.sched.filter (·.id != id) }).applyEdge e).refillEdges g
    else s

/-- A scheduled edge of the gang lies within 1 ms (R324). -/
def State.edgeNear (s : State) (n : Nat) : Bool :=
  (s.fioGroup (groupOf n)).sched.any fun e => s.gangLead e.ch == n && decide (e.time < s.ltc + msec 1)

/-- Tests of diagnosis run in a group (R328). -/
def FioGroup.testing (g : FioGroup) : Bool := g.accepted && (g.level = .normal || g.level = .sag)

/-- The partner that a dark pulse shows: the channel whose current rose by at least the larger of 10 mA and half of the
tested channel's previous current (R326). Currents in µA. -/
def DarkIn.partner (x : DarkIn) (prev : Nat) : Option Nat :=
  (x.rises.find? fun r => max 10000 (prev / 2) ≤ r.2).map (·.1)

/-- Two outputs are found joined: both report, each naming the other (R326, R327). -/
def State.fioPair (s : State) (n bitN m bitM : Nat) : State :=
  let s := (s.onCh n fun c => { c with partner := some m }).fioDetect n bitN
  (s.onCh m fun c => { c with partner := some n }).fioDetect m bitM

/-- A dark pulse of a channel may start: DP_INTERVAL has passed since its last, and the pulses of the group's other channels lie at least
2 × DP_WIDTH away (R326). -/
def State.pulseFree (s : State) (n : Nat) : Bool :=
  let g := (s.fioGroup (groupOf n)).cfg
  (groupChans (groupOf n)).all fun m =>
    (s.fioCh m).pulseAt.all fun t => s.passed t (if m = n then g.dpInterval else 3 * g.dpWidth)

/-- A dark pulse: off at its start, and judged at its end (R326). -/
def execFioDarkPulse (x : DarkIn) (s : State) : Out :=
  let n := s.gangLead x.ch
  let c := s.fioCh n
  .next <| match x.fell with
  | none =>
    if c.darkPulse && c.driven && (s.fioGroup (groupOf n)).testing && !s.edgeNear n && s.pulseFree n then
      (s.onCh n fun c => { c with pulse := .dark, pulseAt := some s.now }).drive n
    else s
  | some fell =>
    if c.pulse ≠ .dark || !s.passedSince c.pulseAt (s.fioGroup (groupOf n)).cfg.dpWidth then s else
      let prev := c.current
      let s := (s.onCh n fun c => { c with pulse := .none }).drive n
      if fell || !(s.fioGroup (groupOf n)).testing then s
      else match x.partner prev with
        | some m => s.fioPair n 5 (s.gangLead m) 5
        | none => s.fioDetect n 4

/-- Probing for an output that is off with its pin at 10 V: the probe that brings the pin down names the pair, else it is a
short to L+ (R327). -/
def execFioBackfeedProbe (x : ProbeIn) (s : State) : Out :=
  let n := s.gangLead x.ch
  let c := s.fioCh n
  .next <| if !(c.isOutput && !c.cmd && (s.fioGroup (groupOf n)).testing) then s
  else
    let probed := (groupChans (groupOf n)).filter fun m => (s.fioCh m).lead && (s.fioCh m).driven && (s.fioCh m).darkPulse
    match x.fellDuring.find? fun m => probed.contains (s.gangLead m) with
    | some m => s.fioPair n 6 (s.gangLead m) 5
    | none => s.fioDetect n 4

/-- Open-wire detection of a channel applies (R325, R328). -/
def State.owActive (s : State) (n : Nat) : Bool :=
  (s.fioCh n).cfg.any (·.owEnable) && (s.fioGroup (groupOf n)).testing

/-- An open-wire condition has held for OW_TIME (R325). -/
def execFioOpenWire (ch : Nat) (s : State) : Out :=
  let n := s.gangLead ch
  .next <| if s.owActive n then
    (if (s.fioCh n).isInput then s.onCh n fun c => { c with openWire := true } else s).fioDetect n 2
  else s

/-- An input pin has stayed between 5 V and 11 V for more than 10 ms (R325). -/
def execFioIndeterminate (ch : Nat) (s : State) : Out :=
  .next <| if (s.fioCh ch).isInput && (s.fioGroup (groupOf ch)).testing then
    (s.onCh ch fun c => { c with indeterminate := true }).fioDetect ch 7
  else s

/-- A group passes to another supply level, with its effects (R328, R329). -/
def State.fioToLevel (s : State) (g : Nat) (l : LplusLevel) (mv : Nat) : State :=
  let x := s.fioGroup g
  let back := x.level = .undervolt
  let s := s.onGroup g fun x =>
    { x with
      level := l
      undervolt := decide (l = .undervolt)
      undervoltEntries := if l = .undervolt then satInc 8 x.undervoltEntries else x.undervoltEntries
      diagSuspended := decide (l = .diagSuspended) }
  let s := s.forEach (groupChans g) fun s n => s.onCh n fun c =>
    { c with
      pulse := if l = .undervolt || l = .diagSuspended then .none else c.pulse
      goodAt := if back then s.now + c.debounce else c.goodAt
      heldOff := c.heldOff || (back && c.isOutput && c.cmd && c.resumeManual)
      heldOffSeenOff := c.heldOffSeenOff && c.heldOff }
  let s := s.driveGroup g
  (s.raise .fio 0).report .fioSupply g [x.level.num, l.num, mv]

/-- The lower thresholds of NORMAL, SAG and DIAG_SUSPENDED in mV (R328). -/
def lplusThreshold : List (LplusLevel × Nat) := [(.normal, 19200), (.sag, 18000), (.diagSuspended, 14000)]

/-- The levels that a group may rise to, each with the time since when L+ has been at or above its lower threshold; UNDERVOLT is left
only for NORMAL (R328). -/
def FioGroup.rises (g : FioGroup) : List (LplusLevel × Ns) :=
  (lplusThreshold.zip g.riseSince).filterMap fun x =>
    if decide (x.1.1.num < g.level.num) && (decide (g.level ≠ .undervolt) || decide (x.1.1 = .normal)) then x.2.map fun t => (x.1.1, t) else none

/-- A 100 µs mean of L+: a fall takes effect at once, a rise after 10 ms at or above the new level's threshold; below 9 V the controller
stops and its handshake is lost (R308, R311, R328). -/
def execFioSupply (g mv : Nat) (s : State) : Out :=
  let x := s.fioGroup g
  let l := lplusLevel mv
  let ovr := decide (32000 < mv)
  let s := if ovr && !x.overvolt then s.report .fioOvervolt g [mv] else s
  let s := s.onGroup g fun x =>
    { x with
      lplusMv := mv, overvolt := ovr, accepted := x.accepted && decide (9000 ≤ mv)
      riseSince := (lplusThreshold.zip x.riseSince).map fun y => if y.1.2 ≤ mv then some (y.2.getD s.now) else none }
  let s :=
    if x.level.num < l.num then s.fioToLevel g l mv
    else match (s.fioGroup g).rises.find? fun y => s.passed y.2 (msec 10) with
      | some y => s.fioToLevel g y.1 mv
      | none => s
  .next (s.onGroup g fun x => { x with recovering := !x.rises.isEmpty })

/-- FIO_RESUME releases a HELD_OFF output (R329). -/
def execFioResume (b : Nat) (s : State) : Out :=
  .next <| match s.ctlCmd b with
  | some (.fioResume ch) => s.runCtl b none fun s =>
    let n := s.gangLead ch
    ((s.onCh n fun c => { c with heldOff := false, heldOffSeenOff := false }).drive n).done b
  | _ => s

end Sys2Proof.Machine
end

