-- ==== Sys2Proof/Machine/LogicOps.lean ====
section
/-! DEFINITION. Operations of LOGIC: function blocks, snapshots, releases, output writes, retained commits, start and stop, exchange, stations, the registers (spec/10_logic_engine.md). -/

namespace Sys2Proof.Machine

open Sys2Proof

def State.task? (s : State) (t : Nat) : Option Task := s.logic.tasks.find? (·.cfg.task == t)
def State.onTask (s : State) (t : Nat) (f : Task → Task) : State :=
  s.onLogic fun l => { l with tasks := l.tasks.map fun x => if x.cfg.task == t then f x else x }
def State.taskGroup (s : State) (m : Nat) : Group := nth s.logic.groups m {}
def State.onTaskGroup (s : State) (m : Nat) (f : Group → Group) : State :=
  s.onLogic fun l => { l with groups := updAt l.groups m f }
def State.station (s : State) (i : Nat) : Station := nth s.logic.stations i {}
def State.onStation (s : State) (i : Nat) (f : Station → Station) : State :=
  s.onLogic fun l => { l with stations := updAt l.stations i f }

/-- The program's variables and instances, by task group (R339, R365). -/
def State.groupVars (s : State) (m : Nat) : List VarCfg :=
  let g := s.taskGroup m
  g.prog.vars.filter fun v => g.prog.tasks.any fun t => t.task == v.task && t.group == m
def State.groupInsts (s : State) (m : Nat) : List InstCfg :=
  let g := s.taskGroup m
  g.prog.insts.filter fun v => g.prog.tasks.any fun t => t.task == v.task && t.group == m

/-! ### Function blocks (R351) -/

end Sys2Proof.Machine

namespace Sys2Proof

/-- The index of the last release instant of a TIME task at a local time counter of `t` (R340). -/
def TaskKind.index (k : TaskKind) (t : Nat) : Nat :=
  match k with
  | .time p ph => if p = 0 || t < ph then 0 else (t - ph) / p + 1
  | _ => 0

/-- An edge detector (R351). -/
def FbKind.edge : FbKind → Bool
  | .rTrig | .fTrig => true
  | _ => false

/-- PERIOD of LOGIC_T_CFG (R371). -/
def TaskKind.periodField : TaskKind → Nat
  | .time p _ => p / 100000
  | .tide k _ _ => k
  | .event i _ => i / 100000

def TaskKind.num : TaskKind → Nat
  | .time .. => 1 | .tide .. => 2 | .event .. => 3

end Sys2Proof

namespace Sys2Proof.Machine

open Sys2Proof

/-- The time that a timer has run since its last call, added to its elapsed time in 10 ns and held at PT. -/
def Inst.ran (i : Inst) (tick : Ns) (pt : Nat) : Nat := min pt (i.elapsed + (tick - i.last.getD tick) / 10)

/-- A call of an instance at the snapshot tick of the cycle; the functions are those of IEC 61131-3 (R351, R358). -/
def Inst.call (i : Inst) (tick : Ns) (x : FbIn) : Inst :=
  let was := i.prev.getD x.a
  let wasB := i.prevB.getD x.b
  let up := x.a && !was
  let upB := x.b && !wasB
  let i' := { i with last := some tick, prev := some x.a, prevB := some x.b }
  match i.kind with
  | .ton =>
    let e := if x.a && was then i.ran tick x.pt else 0
    { i' with elapsed := e, q := x.a && decide (x.pt ≤ e) }
  | .tof =>
    let e := if x.a || was then 0 else i.ran tick x.pt
    { i' with elapsed := e, q := x.a || (i.q && decide (e < x.pt)) }
  | .tp =>
    if i.q then
      let e := i.ran tick x.pt
      { i' with elapsed := e, q := decide (e < x.pt) }
    else { i' with elapsed := 0, q := up && decide (0 < x.pt) }
  | .ctu =>
    let c : Int := if x.reset then 0 else if up then min 32767 (i.count + 1) else i.count
    { i' with count := c, q := decide ((x.pt : Int) ≤ c) }
  | .ctd =>
    let c : Int := if x.load then x.pt else if up then max (-32768) (i.count - 1) else i.count
    { i' with count := c, q := decide (c ≤ 0) }
  | .ctud =>
    let c : Int :=
      if x.reset then 0 else if x.load then x.pt
      else if up && !upB then min 32767 (i.count + 1)
      else if upB && !up then max (-32768) (i.count - 1)
      else i.count
    { i' with count := c, q := decide ((x.pt : Int) ≤ c), qd := decide (c ≤ 0) }
  | .rTrig => { i' with q := up }
  | .fTrig => { i' with q := was && !x.a }

/-! ### The snapshot (R345 to R347) -/

/-- A field input with its quality (R313, R346). -/
def State.snapInputs (s : State) : List (InKey × SnapItem) :=
  (s.fio.chans.zipIdx.filter fun c => c.1.isInput).map fun c => (.field c.2, { value := b2n c.1.level, q := s.fioQuality c.2 })

/-- The members of the GOOSE subscriptions: the last accepted values, INVALID once the time allowed to live has expired (R346, R450). -/
def State.snapGoose (s : State) : List (InKey × SnapItem) :=
  s.net.gsubs.flatMap fun g => g.values.zipIdx.map fun v =>
    (.goose g.sub v.2, { value := v.1.value.toNat, q := if g.valid && !g.talExpired then v.1.quality else .invalid })

/-- Combined pickup and operate of every element, and trip[k]; all INVALID while NO_LANE is set (R346). -/
def State.snapProt (s : State) : List (InKey × SnapItem) :=
  let q : Quality := if s.prot.noLane then .invalid else .good
  (s.prot.elems.flatMap fun e =>
    [(.elem e.index false, { value := b2n e.pickup, q := q }), (.elem e.index true, { value := b2n e.operate, q := q })]) ++
    s.prot.trips.map fun t => (.trip t.index, { value := b2n t.trip, q := q })

/-- The inputs of the remote stations: from the last accepted IN payload, INVALID unless the station is UP (R346, R353, R354). -/
def State.snapStations (s : State) : List (InKey × SnapItem) :=
  (s.logic.stations.zipIdx.filter fun x => !x.1.isStation && x.1.phase != .none).flatMap fun x =>
    (List.range x.1.inputs.length).map fun p =>
      (.station x.2 p,
        { value := b2n (x.1.values.getLsbD p)
          q := if x.1.phase != .up || !x.1.valid.getLsbD p then .invalid else if x.1.quest.getLsbD p then .questionable else .good })

/-- The substitute of an INVALID input: its FIXED value, or the last value that was not INVALID, or the declared initial value (R347). -/
def LogicState.substitute (l : LogicState) (p : LogicCfg) (k : InKey) : Int :=
  let sub : Option Subst := (p.substs.find? (·.1 == k)).map (·.2)
  match sub with
  | some (.fixed v) => v
  | some (.holdLast v) => ((l.lastGood.find? (·.1 == k)).map (·.2)).getD v
  | none => ((l.lastGood.find? (·.1 == k)).map (·.2)).getD 0

/-- The last value of every input that was not INVALID (R347). -/
def keepGood (old : List (InKey × Int)) (l : List (InKey × SnapItem)) : List (InKey × Int) :=
  let now := (l.filter fun x => x.2.q != .invalid).map fun x => (x.1, x.2.value)
  now ++ old.filter fun x => !now.any fun y => y.1 == x.1

/-- The snapshot of a task's cycle at the present tick; host writes to its variables enter here (R345 to R347, R350). -/
def State.snapshot (s : State) (t : Nat) : State :=
  match s.task? t with
  | none => s
  | some x =>
    let p := (s.taskGroup x.cfg.group).prog
    let mine := fun (w : Nat × Int) => p.vars.any fun v => v.addr == w.1 && v.task == t
    let s := s.onLogic fun l =>
      { l with
        vars := (l.hostWrites.filter mine).foldl (fun (vs : List (Nat × Int)) w => (w :: vs.filter (·.1 != w.1))) l.vars
        hostWrites := l.hostWrites.filter fun w => !mine w }
    let raw := s.snapInputs ++ s.snapGoose ++ s.snapProt ++ s.snapStations
    let items := raw.map fun i => (i.1, { i.2 with value := if i.2.q = .invalid then s.logic.substitute p i.1 else i.2.value })
    let snap : LogicSnap :=
      { tick := s.now, time := s.ltc, pos := s.tide.pos
        timeQ := if s.clk.degraded then .questionable else .good
        items := items
        edges := (s.fio.chans.zipIdx.filter fun c => c.1.isInput).map fun c => (c.2, c.1.lastEdge)
        outputs := (s.fio.chans.zipIdx.filter fun c => c.1.isOutput).map fun c => (c.2, c.1.cmd, c.1.driven, c.1.diag.bits)
        units := s.form.units.map fun u =>
          (u.cfg.unit, u.phase.num, u.loops.limiter.num, u.closeReq, u.frt.envTripEnd.any fun e => decide (s.now < e))
        eventMask := x.mask
        vars := s.logic.vars.filter fun w => p.vars.any fun v => v.addr == w.1 && v.hostWritable
        results := x.results }
    (s.onLogic fun l => { l with lastGood := keepGood l.lastGood raw }).onTask t fun x => { x with snap := snap, results := [] }

/-! ### Retained commits (R359 to R362) -/

/-- The retained variables and instances of a group. -/
def State.kept (s : State) (m : Nat) : List KeptVar × List Inst :=
  ((s.groupVars m |>.filter (·.retained)).map fun v =>
      { path := v.path, type := v.type, value := ((s.logic.vars.find? (·.1 == v.addr)).map (·.2)).getD v.initial },
    (s.groupInsts m |>.filter (·.retained)).filterMap fun c => s.logic.insts.find? fun i => i.path == c.path)

/-- A commit starts: it writes the lines dirtied in its cycle and in the previous committed cycle (R361). -/
def State.startCommit (s : State) (m : Nat) (c : Commit) : State :=
  s.onTaskGroup m fun g =>
    { g with busy := some c, busySince := s.now, busyLines := (c.lines ++ g.prevDirty).dedup.length, prevDirty := c.lines }

/-- A cycle of a group asks for its commit: it starts, waits, or replaces the one that waits (R361). -/
def State.askCommit (s : State) (m : Nat) (lines : List Nat) : State :=
  let g := s.taskGroup m
  let k := s.kept m
  let c : Commit := { vars := k.1, insts := k.2, lines := lines, layout := nth g.prog.layout m 0, cycles := g.cycles + 1 }
  let s := s.onTaskGroup m fun g => { g with dirty := [], cycles := g.cycles + 1 }
  if g.busy.isNone then s.startCommit m c
  else
    match g.waiting with
    | none => s.onTaskGroup m fun g => { g with waiting := some c }
    | some w => s.onTaskGroup m fun g =>
        { g with waiting := some { c with lines := (c.lines ++ w.lines).dedup }, commitSkip := satInc 16 g.commitSkip }

/-- How long a commit takes: 2 µs and 0.25 µs for each line (R361). -/
def Group.commitTime (g : Group) : Ns := 2000 + 250 * g.busyLines

/-- A commit completes: the other buffer holds S + 1, and a waiting commit starts (R361). -/
def State.commitDone (s : State) (m : Nat) : State :=
  match (s.taskGroup m).busy with
  | none => s
  | some c =>
    let s := s.onTaskGroup m fun g =>
      let b : Buffer := { valid := true, seq := g.seq + 1, layout := c.layout, cycles := c.cycles, vars := c.vars, insts := c.insts }
      { g with
        seq := g.seq + 1
        inBuf1 := !g.inBuf1
        buf0 := if g.inBuf1 then b else g.buf0
        buf1 := if g.inBuf1 then g.buf1 else b
        busy := none
        lastLines := g.busyLines }
    match (s.taskGroup m).waiting with
    | some w => (s.onTaskGroup m fun g => { g with waiting := none }).startCommit m w
    | none => s

/-- What MRAM holds of a group after a reset: an interrupted commit leaves its buffer invalid (R360). -/
def Group.afterReset (g : Group) : Group :=
  { buf0 := { g.buf0 with valid := g.buf0.valid && !(g.busy.isSome && g.inBuf1) }
    buf1 := { g.buf1 with valid := g.buf1.valid && !(g.busy.isSome && !g.inBuf1) } }

/-- The buffer that a warm start restores: the valid one with the larger S (R360). -/
def Group.image (g : Group) : Option Buffer :=
  match g.buf0.valid, g.buf1.valid with
  | true, true => some (if g.buf0.seq.toNat < g.buf1.seq.toNat then g.buf1 else g.buf0)
  | true, false => some g.buf0
  | false, true => some g.buf1
  | false, false => none

/-! ### Releases (R341 to R344) -/

/-- Running cycles that wait for a task of a higher priority on their core (R338, R372). -/
def State.preempt (s : State) : State :=
  s.onLogic fun l => { l with tasks := l.tasks.map fun x =>
    { x with preempted := x.running && l.tasks.any fun y => y.running && y.cfg.core == x.cfg.core && decide (y.cfg.priority < x.cfg.priority) } }

/-- T of R342: the period of a TIME task, that of a TIDE task at the present Tide frequency, MIN_INTERVAL of an EVENT task. -/
def State.taskPeriod (s : State) (x : Task) : Ns :=
  match x.cfg.kind with
  | .time p _ => p
  | .tide k _ _ => if s.tide.freq = 0 then 0 else ((k : Num) * 1000000000 / s.tide.freq).floor.toNat
  | .event mi _ => mi

/-- A release is skipped (R343). -/
def State.skipRelease (s : State) (t : Nat) : State :=
  match s.task? t with
  | none => s
  | some x =>
    let s := (s.onTask t fun x => { x with overrun := true, skipped := satInc 16 x.skipped, due := false }).raise .logic 0
    if x.overrun then s else s.report .logicOverrun t [t, if x.running then s.now - x.lastRel.getD s.now else 0]

/-- `n` releases are skipped at one instant (R343, R449). -/
def State.skipReleases (s : State) (t n : Nat) : State :=
  if n = 0 then s else
    let s := s.skipRelease t
    (s.onTask t fun x => { x with skipped := satAdd 16 x.skipped (n - 1) }).onEvent .logic fun e =>
      { e with cnt := updAt e.cnt 0 fun c => (c + (n - 1)) % 256 }

/-- The next release instant of a task has fallen due. -/
def State.instantDue (s : State) (x : Task) : Bool :=
  match x.cfg.kind with
  | .time .. => decide (x.relIdx < x.cfg.kind.index s.ltc)
  | .tide .. => x.due
  | .event mi _ => x.latched && !x.running && x.lastRel.all fun t => s.passed t mi

/-! ### The output write (R27, R348, R349, R353) -/

/-- The output channels that the station lends to a master (R352). -/
def State.exportedOut (s : State) (ch : Nat) : Bool := s.logic.stations.any fun x => x.isStation && x.outputs.contains ch

/-- A write to a channel that the program does not own (R349). -/
def State.denyWrite (s : State) (ch : Nat) : State :=
  (s.onLogic fun l => { l with wrDenied := satInc 16 l.wrDenied, wrDeniedLast := ch }).raise .logic 10

/-- A request to a target that refuses it logs there and takes nothing (R349). -/
def State.logicAsk (s : State) (r : Option Refuse) (f : State → State) : State × Bool :=
  match r with
  | some x => (s.refuseInternal x .logic, false)
  | none => (f s, true)

/-- A write of a field output (R27, R349). -/
def State.writeField (s : State) (ch : Nat) (level : Bool) : State × Bool :=
  let lead := s.gangLead ch
  match (s.fioCh lead).owner with
  | some .trip => (s.onLogic fun l => { l with wrTripCh := satInc 16 l.wrTripCh, wrTripChLast := ch }, false)
  | some .logic => if s.exportedOut lead then (s.denyWrite ch, false) else (s.sendFio lead level, true)
  | _ => (s.denyWrite ch, false)

/-- A variable that lies in the retained region dirties its line (R361). -/
def State.dirtyLine (s : State) (m line : Nat) : State := s.onTaskGroup m fun g => { g with dirty := (line :: g.dirty).dedup }

/-- The outputs of a call of the conversion block: those of a conversion through TIDE_CONV_CTRL; beyond the range the result stands as it was
(R49, R85). -/
def State.convertFb (s : State) (path : String) (r : Option (Nat × Bool)) : State :=
  s.onLogic fun l =>
    let old := (l.convs.find? (·.path == path)).getD { path := path }
    let new : ConvFb := match r with
      | some y => { path := path, predicted := y.2, value := y.1 }
      | none => { old with errRange := true, predicted := false }
    { l with convs := new :: l.convs.filter (·.path != path) }

/-- One write or request of a cycle of task `t` of group `m` (R349, R351). Values for stations go out together afterwards. -/
def State.logicReq (s : State) (t m : Nat) (snapTick : Ns) : LogicReq → State × Bool
  | .field ch level => s.writeField ch level
  | .station slot pos level =>
    let x := s.station slot
    if x.isStation || x.phase = .none || x.outputs.length ≤ pos then (s.denyWrite pos, false)
    else if x.phase = .dropped then (s, false)
    else (s.onStation slot fun x =>
      { x with
        txValues := if level then x.txValues ||| (1#64 <<< pos) else x.txValues &&& ~~~(1#64 <<< pos)
        txValid := x.txValid ||| (1#64 <<< pos) }, true)
  | .tripAdd k on => (s.onTrip k fun x => { x with logicAdd := on }, true)
  | .tripMask k on =>
    let granted := s.protCfg.trips.any fun c => c.index == k && c.maskGrant
    let s := s.onTrip k fun x => { x with logicMask := on }
    if granted then (s, true)
    else (s.when on fun s => (s.onProt fun p => { p with maskIgnored := satInc 16 p.maskIgnored, maskIgnoredTrip := k }).raise .prot 8, !on)
  | .block e on =>
    if s.protCfg.elements.any fun c => c.groups.any fun g => g.blocks.any fun b => b.source == .logic e then
      (s.onElem e fun x => { x with logicBlock := on }, true)
    else (s, false)
  | .lockoutReset e => (s.onElem e fun x => { x with lockoutReset := true }, true)
  | .group g => s.logicAsk (s.refuseGroup g .logic s.sgStatus) fun s => s.requestGroup { group := g, by_ := .logic }
  | .form u c => s.logicAsk (s.refuseUnit u c true) fun s => s.queueUnit u c .logic
  | .setpoint u x => s.logicAsk (s.refuseUnit u (.setpoint x) true) fun s => s.queueUnit u (.setpoint x) .logic
  | .stage u x => s.logicAsk (s.refuseUnit u (.stage x) true) fun s => s.queueUnit u (.stage x) .logic
  | .bridgeRestore b =>
    let u := ((s.bridge b).unit).getD 8
    s.logicAsk (s.refuseUnit u (.restore b) true) fun s => s.queueUnit u (.restore b) .logic
  | .powClose k a => s.logicAsk (s.refusePow k) fun s => s.powAccept k a
  | .mark n x =>
    let r := s.refuseMark n x .logic
    (s.when r.isSome fun s => s.markPast x).logicAsk r fun s => s.armMark n x .logic
  | .captArm e => s.logicAsk (s.refuseArm e) fun s => s.captArmed e
  | .captTrigger e => s.logicAsk (s.refuseLogicTrigger e) fun s => s.captTriggerNow e s.ltc fun c => c == .logic
  | .fioClear ch =>
    if (s.fioCh (s.gangLead ch)).owner = some .logic && !s.exportedOut (s.gangLead ch) then (s.fioUnlock ch, true) else (s.denyWrite ch, false)
  | .variable addr v =>
    match (s.taskGroup m).prog.vars.find? fun c => c.addr == addr && c.task == t with
    | none => (s, false)
    | some c =>
      let s := s.onLogic fun l => { l with vars := (addr, v) :: l.vars.filter (·.1 != addr) }
      (if c.retained then s.dirtyLine m c.line else s, true)
  | .call path x =>
    match (s.taskGroup m).prog.insts.find? fun c => c.path == path && c.task == t with
    | none => (s, false)
    | some c =>
      let s := s.onLogic fun l => { l with insts := l.insts.map fun i => if i.path == path then i.call snapTick x else i }
      (if c.retained then s.dirtyLine m c.line else s, true)
  | .convert path toTime x => (s.convertFb path (if toTime then s.convToTime x else s.convToPos x), true)

/-- The station slots that a write names. -/
def stationSlots (l : List LogicReq) : List Nat :=
  (l.filterMap fun r => match r with
    | .station slot _ _ => some slot
    | _ => none).dedup

/-- The OUT payload of a write, sent on both rings; for a DROPPED station the values are discarded and counted (R353, R354). -/
def State.sendStationOut (s : State) (slot : Nat) : State :=
  let x := s.station slot
  if x.isStation || x.phase = .none then s
  else if x.phase = .dropped then (s.onStation slot fun x => { x with outDrop := satInc 16 x.outDrop }).raise .logic 9
  else
    let p : RioPayload :=
      { out := true, alive := x.aliveTx, station := x.device, ts := s.ts32, values := x.txValues, valid := x.txValid, quest := 0 }
    (s.onStation slot fun x => { x with aliveTx := wrapInc 8 x.aliveTx, lastTx := s.now }).adeidSend x.node false (.rio p)

/-- The output write of a task: everything leaves together, then the group's commit (R348, R349, R361). -/
def State.outputWrite (s : State) (t : Nat) (reqs : List LogicReq) : State :=
  match s.task? t with
  | none => s
  | some x =>
    let m := x.cfg.group
    let r := reqs.foldl (fun (a : State × List Bool) q =>
      let y := a.1.logicReq t m x.snap.tick q
      (y.1, a.2 ++ [y.2])) (s, [])
    let s := r.1.forEach (stationSlots reqs) State.sendStationOut
    let s := s.onTask t fun x => { x with results := r.2 }
    s.askCommit m (s.taskGroup m).dirty

/-- A release is admitted: a held write leaves first, then the snapshot is taken (R343, R344, R348). -/
def State.admitCycle (s : State) (t : Nat) : State :=
  match s.task? t with
  | none => s
  | some x =>
    let s := match x.heldWrite with
      | some w => s.outputWrite t w
      | none => s
    let s := s.snapshot t
    (s.onTask t fun x =>
      { x with
        running := true, overrun := false, latched := false, held := false, due := false, heldWrite := none, mask := 0, lastMask := x.mask
        lastRel := some s.now, lastRelTs := s.ts32, releases := wrapInc 32 x.releases }).preempt

/-- A release of a task: held while its group is being swapped, skipped while its cycle runs, else admitted (R343, R364, R449). -/
def State.releaseTask (s : State) (t : Nat) : State :=
  match s.task? t with
  | none => s
  | some x =>
    let i := x.cfg.kind.index s.ltc
    let s := s.onTask t fun x => { x with relIdx := i, due := false }
    -- Release instants that a forward step of the counter has passed over (R449).
    let s := s.skipReleases t (i - x.relIdx - 1)
    if s.now < (s.taskGroup x.cfg.group).swapEnd then
      (s.when x.held fun s => s.skipRelease t).onTask t fun x => { x with held := true }
    else if x.running then s.skipRelease t
    else s.admitCycle t

/-! ### Start, stop and restart (R356 to R358) -/

/-- An exchange is pending: proposed, confirmed, or not yet over in every group (R363, R364, R540). -/
def State.exchPending (s : State) : Bool :=
  s.logic.exch.isSome || s.sec.proposals.any fun p => p.phase != .empty && p.body.any fun b =>
    b.items.any fun i => match i with
      | .logicExchange _ => true
      | _ => false

/-- LOGIC_STATUS (R369). -/
def State.logicStatus (s : State) : Word :=
  let l := s.logic
  fld 0 l.phase.num ||| flag 2 s.exchPending ||| flag 3 l.mixed ||| flag 4 l.degSuspend ||| fld 5 l.haltCause.num |||
    l.tasks.foldl (fun w x => w ||| flag (8 + x.cfg.task) true) 0 ||| fld 16 l.groups.length

/-- Running cycles are abandoned (R357, R362). -/
def State.abandonCycles (s : State) : State :=
  s.onLogic fun l => { l with fired := [], tasks := l.tasks.map fun x =>
    { x with running := false, preempted := false, heldWrite := none, latched := false, due := false, held := false, mask := 0 } }

/-- An output is commanded to its SAFE setting, HOLD being its present level (R322, R355, R357). -/
def State.commandSafe (s : State) (n : Nat) : State :=
  let c := s.fioCh n
  s.sendFio n (match c.safe with
    | .off => false
    | .on => true
    | .hold => c.driven)

/-- On entry to STOPPED or HALTED: outputs to SAFE, and every addition, mask, block request and group request is cleared (R357). -/
def State.logicQuiet (s : State) : State :=
  let s := s.abandonCycles
  let outs := (List.range 192).filter fun n => (s.fioCh n).owner == some .logic && s.gangLead n == n
  let s := s.forEach outs State.commandSafe
  s.onProt fun p =>
    let drop := p.request.any fun r => r.by_ = .logic
    { p with
      trips := p.trips.map fun t => { t with logicAdd := false, logicMask := false }
      elems := p.elems.map fun e => { e with logicBlock := false, lockoutReset := false }
      request := if drop then none else p.request
      deferred := p.deferred && !drop }

/-- The engine halts (R356). -/
def State.logicHalt (s : State) (c : HaltCause) : State :=
  let s := s.onLogic fun l => { l with phase := .halted, haltCause := c }
  (((s.logicQuiet).raise .logic 3).report .logicHalt 0xFFFF [c.num])

/-- An instance at its declared initial state; `edge`: its previous input comes from its first call (R358, R364). -/
def freshInst (c : InstCfg) (firstCall : Bool) : Inst :=
  let p := if firstCall && c.kind.edge then none else some false
  { path := c.path, kind := c.kind, prev := p, prevB := p }

/-- A restored instance: a timer resumes its elapsed time, and the time away does not count (R358). -/
def Inst.resumed (i : Inst) : Inst := { i with last := none }

/-- A group starts, warm or cold, from its image; a buffer whose check fails is counted (R358, R364, R467). -/
def State.startGroup (s : State) (warm : Bool) (m : Nat) : State :=
  let g := s.taskGroup m
  let img := if warm then g.image else none
  let full := img.any fun b => b.layout = nth g.prog.layout m 0
  let var := fun (v : VarCfg) =>
    let kept := if v.retained then (img.bind fun b => b.vars.find? fun k => k.path == v.path && k.type == v.type) else none
    (v.addr, (kept.map (·.value)).getD v.initial)
  let inst := fun (c : InstCfg) =>
    let kept := if c.retained then (img.bind fun b => b.insts.find? fun k => k.path == c.path && k.kind == c.kind) else none
    (kept.map Inst.resumed).getD (freshInst c full)
  let s := s.onLogic fun l =>
    { l with vars := l.vars ++ (s.groupVars m).map var, insts := l.insts ++ (s.groupInsts m).map inst }
  let s := s.forEach ([g.buf0, g.buf1].filter fun b => warm && b.crcBad) fun s _ => s.pathFail 7
  let s := s.onTaskGroup m fun g => { g with warm := full, dirty := [], swapEnd := 0, exchPending := false }
  s.when (warm && img.isNone) fun s => (s.raise .logic 4).report .logicColdFallback m [m]

/-- The engine starts with the live program; tasks release from here on (R356, R358, R365, R366). -/
def State.startLogic (s : State) (warm : Bool) : State :=
  let p := s.manifest.logic
  let s := s.onLogic fun l =>
    { l with
      phase := .running, haltCause := .none, mixed := false, exch := none, prog := p, vars := [], insts := [], convs := [], fired := [], lastGood := []
      tasks := p.tasks.map fun c =>
        let x := (l.tasks.find? (·.cfg.task == c.task)).getD { cfg := c }
        { x with
          cfg := c, running := false, preempted := false, overrun := false, latched := false, held := false, heldWrite := none, mask := 0
          due := false, lastRel := none, execMax := 0, results := [], relIdx := c.kind.index s.ltc, suspended := s.clk.degraded && c.degSuspend }
      groups := l.groups.map fun g => { g with prog := p } }
  let s := s.forEach (List.range s.logic.groups.length) fun s m => s.startGroup warm m
  (s.raise .logic 1).report .logicStart 0xFFFF [b2n warm]

/-- Stations, exports and groups as the LOGIC section declares them, before the start (R352, R368). -/
def State.makeLogic (s : State) (images : List (Buffer × Buffer)) : State :=
  let p := s.manifest.logic
  let n := (p.tasks.map (·.group + 1)).foldl max 0
  let masters : List Station := p.stations.zipIdx.map fun c =>
    { phase := .joining, device := c.1.device, node := c.1.node, inputs := c.1.inputs, outputs := c.1.outputs, timeout := c.1.timeout
      mismatch := decide (Config.partnerExportCrc c.2 ≠ c.1.exportCrc), since := s.now }
  let serves : List Station := p.exports.zipIdx.map fun c =>
    { phase := .joining, isStation := true, device := c.1.device, node := c.1.node, inputs := c.1.inputs, outputs := c.1.outputs
      timeout := c.1.wd, period := c.1.period
      mismatch := decide (Config.partnerExportCrc (32 + c.2) ≠ c.1.exportCrc), since := s.now }
  s.onLogic fun l =>
    { l with
      prog := p
      tasks := p.tasks.map fun c => { cfg := c }
      groups := (List.range n).map fun m =>
        let b := nth images m ({}, {})
        let g : Group := { prog := p, buf0 := b.1, buf1 := b.2 }
        let one := b.2.valid && (!b.1.valid || decide (b.1.seq.toNat < b.2.seq.toNat))
        { g with inBuf1 := one, seq := if one then b.2.seq else b.1.seq, cycles := if one then b.2.cycles else b.1.cycles }
      stations := masters ++ List.replicate (32 - masters.length) {} ++ serves ++ List.replicate (4 - serves.length) {} }

/-! ### Exchange (R363 to R365) -/

/-- Tasks agree in number, kind, period, core, priority and group (R363). -/
def sameTasks (a b : List TaskCfg) : Bool :=
  a.length == b.length && (a.zip b).all fun x =>
    x.1.task == x.2.task && x.1.core == x.2.core && x.1.priority == x.2.priority && x.1.group == x.2.group &&
      match x.1.kind, x.2.kind with
      | .time p q, .time p' q' => p == p' && q == q'
      | .tide p a n, .tide p' a' n' => p == p' && a == a' && n == n'
      | .event i _, .event i' _ => i == i'
      | _, _ => false

/-- A committed exchange is pending in every group (R364). -/
def State.commitExchange (s : State) (p : LogicCfg) : State :=
  s.onLogic fun l =>
    { l with exch := some { prog := p, committedAt := s.now }, groups := l.groups.map fun g => { g with exchPending := true } }

/-- The exchange is over when no group waits any more; MIXED clears when every group has swapped (R365). -/
def State.endExchange (s : State) : State :=
  if s.logic.groups.any (·.exchPending) then s
  else s.onLogic fun l => { l with mixed := l.mixed && l.exch.all (·.failed), exch := none }

/-- No task of the group is running or released (R364). -/
def State.groupQuiet (s : State) (m : Nat) : Bool :=
  s.logic.tasks.all fun x => x.cfg.group != m || (!x.running && !x.due && !x.held && x.heldWrite.isNone)

/-- The counts of an exchange: carried, new, dropped, retyped (R365). -/
structure SwapCounts where
  carried : Nat := 0
  new : Nat := 0
  dropped : Nat := 0
  retyped : Nat := 0
deriving DecidableEq, Repr, Inhabited

/-- A group runs the new program: its state moves by path and type, and its retained region is committed in full (R364, R365). -/
def State.swapGroup (s : State) (m : Nat) (p : LogicCfg) : State :=
  let g := s.taskGroup m
  let oldV := s.groupVars m
  let oldI := s.groupInsts m
  let d := s.drawNat
  let s := d.2
  let s := s.onTaskGroup m fun g => { g with prog := p, exchPending := false, swapEnd := s.now + min d.1 200000 }
  let newV := s.groupVars m
  let newI := s.groupInsts m
  let held := fun (v : VarCfg) => oldV.find? fun o => o.path == v.path && o.type == v.type
  let heldI := fun (c : InstCfg) => oldI.find? fun o => o.path == c.path && o.kind == c.kind
  let counts : SwapCounts :=
    { carried := (newV.filter fun v => (held v).isSome).length + (newI.filter fun c => (heldI c).isSome).length
      retyped := (newV.filter fun v => v.retained && (held v).isNone && oldV.any fun o => o.path == v.path).length
      new := (newV.filter fun v => (held v).isNone && !(v.retained && oldV.any fun o => o.path == v.path)).length +
        (newI.filter fun c => (heldI c).isNone).length
      dropped := (oldV.filter fun o => !newV.any fun v => v.path == o.path).length +
        (oldI.filter fun o => !newI.any fun c => c.path == o.path && c.kind == o.kind).length }
  let val := fun (l : LogicState) (v : VarCfg) =>
    match held v with
    | some o => ((l.vars.find? (·.1 == o.addr)).map (·.2)).getD v.initial
    | none => v.initial
  let inst := fun (l : LogicState) (c : InstCfg) =>
    match heldI c with
    | some o => (l.insts.find? fun i => i.path == o.path).getD (freshInst c true)
    | none => freshInst c true
  let s := s.onLogic fun l =>
    { l with
      prog := p
      vars := (l.vars.filter fun w => !oldV.any fun o => o.addr == w.1) ++ newV.map fun v => (v.addr, val l v)
      insts := (l.insts.filter fun i => !oldI.any fun o => o.path == i.path) ++ newI.map fun c => inst l c
      tasks := l.tasks.map fun x => if x.cfg.group == m then { x with cfg := (p.tasks.find? (·.task == x.cfg.task)).getD x.cfg } else x }
  let s := s.askCommit m ((newV.filter (·.retained)).map (·.line) ++ (newI.filter (·.retained)).map (·.line)).dedup
  ((s.raise .logic 5).report .logicExchange m
    [g.prog.hash.toNat, p.hash.toNat, counts.carried, counts.new, counts.dropped, counts.retyped]).endExchange

/-! ### Stations (R352 to R355) -/

/-- The IN payload that a slot would send now: values, VALID and QUEST by export position (R353). -/
def State.exportNow (s : State) (x : Station) : BitVec 64 × BitVec 64 × BitVec 64 :=
  let bits := fun (f : Nat → Bool) => x.inputs.zipIdx.foldl (fun (w : BitVec 64) c => if f c.1 then w ||| (1#64 <<< c.2) else w) 0
  (bits fun n => (s.fioCh n).level, bits fun n => s.fioQuality n ≠ .invalid, bits fun n => s.fioQuality n = .questionable)

/-- A master's station drops (R354). -/
def State.stationDrop (s : State) (slot : Nat) (node : Bool) : State :=
  let s := s.onStation slot fun x => { x with phase := .dropped, dropNode := node, drops := satInc 8 x.drops, aliveRx := {} }
  (s.raise .logic 7).report .logicStationDrop slot [slot, b2n node]

/-- An accepted payload: it is kept, and the slot is UP; a dropped station is back (R353, R354). -/
def State.stationAccept (s : State) (slot : Nat) (p : RioPayload) : State :=
  let x := s.station slot
  let s := s.onStation slot fun x =>
    { x with phase := .up, since := s.now, lastRxTs := p.ts, values := p.values, valid := p.valid, quest := p.quest, safe := false }
  if x.isStation then
    -- Exported outputs follow the written positions (R355).
    s.forEach (x.outputs.zipIdx.filter fun o => p.valid.getLsbD o.2) fun s o => s.sendFio (s.gangLead o.1) (p.values.getLsbD o.2)
  else s.when (x.phase = .dropped) fun s => (s.raise .logic 8).report .logicStationBack slot [slot]

/-- A payload that arrives from node `src`: check, alive test with its record, acceptance; an OUT payload before the LOGIC start is
discarded and counted; a REPEAT counts as a duplicate (R353, R469 to R472, R497, R561). -/
def State.rioRx (s : State) (src : Nat) (p : RioPayload) : State :=
  let mine := s.logic.stations.zipIdx.find? fun x =>
    x.1.phase != .none && x.1.node == src && x.1.isStation == p.out && (if p.out then p.station == s.sec.device else x.1.device == p.station)
  match mine with
  | none => s
  | some (x, slot) =>
    if !p.checkOk then (s.onStation slot fun x => { x with checkFails := satInc 8 x.checkFails }).pathFail 3
    else if x.mismatch then s
    else if p.out && s.logic.phase = .idle then s.onAdeid fun a => { a with discard := satInc 16 a.discard }
    else
      let r := x.aliveRx.test 8 16 true p.alive
      let s := (s.onStation slot fun x => { x with aliveRx := r.2 }).countAlive 3 p.alive r.1
      if r.1.accepted then s.stationAccept slot p
      else s.when (r.1 = .repeat_) fun s => s.onAdeid fun a => { a with dups := satInc 16 a.dups }

/-! ### Registers (R368 to R373) -/

def Task.reg (x : Task) (o : Nat) : Word :=
  if o = 0 then
    fld 0 x.cfg.kind.num ||| fld 2 x.cfg.core ||| fld 3 x.cfg.priority ||| fld 6 x.cfg.group ||| flag 9 x.cfg.writeAtNext |||
      flag 10 x.cfg.degSuspend ||| fld 11 (x.cfg.kind.periodField % 2 ^ 17)
  else if o = 4 then
    flag 0 x.running ||| flag 1 x.preempted ||| flag 2 x.overrun ||| flag 3 x.latched ||| flag 4 x.suspended ||| flag 5 x.held |||
      fld 8 (x.lastMask % 65536)
  else if o = 8 then x.lastRelTs
  else if o = 0xC then fld 0 x.exec ||| fld 16 x.execMax
  else if o = 0x10 then fld 0 x.releases
  else if o = 0x14 then fld 0 x.skipped ||| fld 16 x.merged
  else if o = 0x18 then fld 0 x.cfg.wcet
  else 0

def Station.reg (x : Station) (o : Nat) : Word :=
  if o = 0 then
    fld 0 x.phase.num ||| flag 2 x.isStation ||| flag 3 x.safe ||| flag 4 x.dropNode ||| flag 5 x.mismatch ||| fld 8 x.device ||| fld 22 x.node
  else if o = 4 then fld 0 x.outDrop ||| fld 16 x.drops ||| fld 24 x.checkFails
  else if o = 8 then x.lastRxTs
  else 0

def Group.commitWord (g : Group) : Word :=
  fld 0 g.lastLines ||| flag 11 g.inBuf1 ||| flag 12 g.busy.isSome ||| flag 13 g.warm ||| fld 16 g.commitSkip

/-- The registers of LOGIC by offset in the block (R368). -/
def State.logicReg (s : State) (o : Nat) : Word :=
  let l := s.logic
  if o = 0 then s.logicStatus
  else if o = 4 then l.event.bits
  else if o = 8 then fld 0 l.wrTripCh ||| fld 16 l.wrTripChLast
  else if o = 0xC then fld 0 l.wrDenied ||| fld 16 l.wrDeniedLast
  else if 0x10 ≤ o ∧ o < 0x20 then (l.prog.hash >>> (8 * (o - 0x10))).truncate 32
  else if 0x100 ≤ o ∧ o < 0x200 then ((s.task? ((o - 0x100) / 0x20)).map fun x => x.reg (o % 0x20)).getD 0
  else if 0x300 ≤ o ∧ o < 0x380 then
    let g := s.taskGroup ((o - 0x300) / 0x10)
    if o % 0x10 = 0 then g.seq.truncate 32
    else if o % 0x10 = 4 then (g.seq >>> 32).truncate 32
    else if o % 0x10 = 8 then g.commitWord
    else 0
  else if 0x400 ≤ o ∧ o < 0x640 then (s.station ((o - 0x400) / 0x10)).reg (o % 0x10)
  else 0

end Sys2Proof.Machine
end

