-- ==== Sys2Proof/Machine/Build.lean ====
section
/-! DEFINITION. Structure instantiation: every block is created from the live Manifest (spec/17_startup_power_reset.md R556, R567, R569; spec/16_manifest_and_two_party.md R535). -/

namespace Sys2Proof.Machine

open Sys2Proof

/-- A block whose SRAM test failed is not created (R32, R575). -/
def State.make (s : State) (b : Blk) (f : State → State) : State := if s.sys.dead.contains b then s else f s

/-! ### Tide and acquisition -/

/-- The learnt close time of a breaker stands unless T_NOM or its close channel differs (R74). -/
def Pow.kept (p : Pow) (c : PowCfg) : Pow :=
  { tb := if p.tNom = c.tNom ∧ p.closeCh = c.closeCh then p.tb else (c.tNom : Num), tNom := c.tNom, closeCh := c.closeCh }

/-- Tide starts in INIT on FREERUN at (0, 0) (R66). -/
def State.makeTide (s : State) : State :=
  let c := s.tideCfg
  let pow := s.tide.pow.zipIdx.map fun p => ((c.pow[p.2]?).map p.1.kept).getD {}
  let s := s.onTide fun _ =>
    { rate := rateWord c.nominalFreq, degraded := s.clk.degraded, pow := pow
      pilot := { phase := if c.pilotInput.isEmpty then .off else .acquiring, freq := c.nominalFreq, at_ := s.now } }
  ((s.refreshHolds).pushHist).tideRecord .tideStart 14 .freerun .freerun

/-- A local channel feeds a PROT element, a zone, a forming unit or the Pilot (R133). -/
def protects (m : Manifest) (c : Nat) : Bool :=
  (m.prot.elements.any fun e => e.channels.contains (.ain c)) ||
    (m.diff.any fun z => (z.csets.any fun k => k.ch.contains (.ain c)) || z.vset.any fun v => v.ch.contains (.ain c)) ||
    (m.form.any fun u => u.vset.contains c || u.gridVset.contains c || match u.isrc with
      | .channels l => l.contains c
      | .bridgeSum => false) ||
    m.struct.tide.pilotInput.contains (.ain c)

/-- A bank as the Manifest gives it (R130, R131). -/
def bankOf (c : CoefSet) : Bank := { taps := c.taps, coef := (c.coef ++ List.replicate 192 0).take 192 }

/-- A channel as the ACQ section creates it (R121, R149). -/
def ainOf (c : AinCfg) (m : Manifest) : Ain :=
  let b := (c.bankB.map bankOf).getD {}
  { ch := c.ch, sensor := c.sensor, range := c.range, secNom := c.secNom, primNom := c.primNom, rogLeak := c.rogLeak, fadeLen := c.fadeLen
    bankA := bankOf c.bankA, bankB := b, stageTaps := b.taps
    protected_ := protects m c.ch
    published := m.acq.pubs.any fun p => p.map.contains (.chan c.ch) }

/-- The default ALIGN_WAIT of a lane: the largest delay rounded up to whole lane periods of `k` Tm (R143). -/
def alignDefault (delays : List Nat) (k hz : Nat) : Ns := (delays.foldl max 0 + k - 1) / k * 1000000000 / hz

/-- The chain starts with zeroed histories (R141). -/
def State.makeAcq (s : State) : State :=
  let c := s.manifest.acq
  let k := s.ltc * 14400 / 1000000000
  let first := (s.ltc * 14400 + 999999999) / 1000000000
  let chans := c.channels.map fun x => ainOf x s.manifest
  s.onAcq fun a =>
    { a with
      chans := chans.map fun (x : Ain) => { x with chain := .start x.active.taps k, flushFrom := first }
      alignFast := c.alignFast.getD (alignDefault (chans.map fun x => dFast x.active.taps) 768 14400)
      alignPhasor := c.alignPhasor.getD (alignDefault (chans.map fun x => dPhasor x.active.taps) 2304 4800)
      waiting := [], svHist := [], fastIdx := k, fastDone := k, phasorDone := k / 3, startIdx := first, running := true
      lastFast := none, lastPhasor := none
      pubs := c.pubs.map fun p =>
        { rate := p.rate, map := p.map, next := match p.rate with | .fast => first | .phasor => (first + 2) / 3 } }

/-! ### Protection, differential, forming -/

/-- Every element is in reset, and the trip outputs are off, until PROT_READY; the lanes keep their states (R158, R187). -/
def State.makeProt (s : State) : State :=
  let c := s.manifest.prot
  s.onProt fun p =>
    { p with
      ready := false, group := 0, request := none, deferred := false, essentialOnly := false, vector := {}
      elems := c.elements.map fun e => { index := e.index }
      trips := c.trips.map fun t => { index := t.index }
      laneA := { p.laneA with rings := [], restoring := false, restoreAtBoundary := false }
      laneB := { p.laneB with rings := [], restoring := false, restoreAtBoundary := false } }

/-- Zones start in JOINING (R227). -/
def State.makeDiff (s : State) : State :=
  let zs := s.manifest.diff
  s.onDiff fun d =>
    { d with
      hist := []
      passOnly := s.clk.degraded
      zones := zs.map fun z =>
        { cfg := z, member := z.members.idxOf? s.sec.device, cfgTag := z.tag s.tideCfg.plantSchedule, phase := .joining
          unblockLeft := z.unblockCount } }

/-- Units start in PREPARING, and their bridges follow their assignment (R259, R271). -/
def State.makeForm (s : State) : State :=
  let us := s.manifest.form
  let s := s.onForm fun f =>
    { f with
      loc := s.clk.degraded
      units := us.map fun u =>
        { cfg := u, phase := .preparing, target := u.targets, inForce := u.targets, stateSince := s.now, t0 := s.now
          edge := s.ltc * u.rate.hz / 1000000000 }
      bridges := (List.range 8).map fun b =>
        match us.find? fun u => u.bridges.any (·.1 == b) with
        | some u => { unit := some u.unit, weight := ((u.bridges.find? (·.1 == b)).map (·.2)).getD 1, active := true }
        | none => {} }
  s.forEach us fun s _ => s.raise .form 0

/-- The gate-links of the GATE section, down until their ports train (R301). -/
def State.makeGate (s : State) : State :=
  s.onGate fun g =>
    { g with
      degraded := s.clk.degraded && s.clk.degCause != .refLoss
      links := s.manifest.gate.map fun c => { cfg := c, idleAt := s.now } }

/-! ### Logic, field channels, capture, logbook -/

/-- The LOGIC section; the retained regions in MRAM stand (R359, R566). -/
def State.makeLogicBlock (s : State) : State :=
  let images := s.logic.groups.map fun g => (g.buf0, g.buf1)
  (s.onLogic fun _ => {}).makeLogic images

/-- The settings of a group. -/
def fioGroupCfg (c : FioCfg) (g : Nat) : FioGroupCfg := (c.groups.find? (·.group == g)).getD { group := g }

/-- A group is created when it has a channel (R310). -/
def fioCreates (c : FioCfg) (g : Nat) : Bool := c.channels.any fun x => groupOf x.ch == g

/-- A channel is the first of its gang, or single (R317). -/
def fioLead (c : FioChCfg) : Bool :=
  match c.mode with
  | .input _ => true
  | .output _ gang _ _ _ _ _ => c.ch % gang.size == 0

/-- The configuration of a channel: its own, or that of the gang that it belongs to (R310, R317). -/
def fioChannel (c : FioCfg) (n : Nat) : Option FioChCfg :=
  c.channels.find? fun x => match x.mode with
    | .input _ => x.ch == n
    | .output _ gang _ _ _ _ _ => decide (x.ch ≤ n ∧ n < x.ch + gang.size)

/-- A group whose configuration is loaded anew: its outputs stand in the field-side safe state, and it repeats the handshake
(R311, R566). -/
def State.makeFioGroup (s : State) (gi : Nat) : State :=
  let c := s.manifest.fio
  let was := (s.fioGroup gi).accepted
  let s := if was then (s.fioSafe gi).onGroup gi fun g => { g with expiry := none } else s
  let s := s.onGroup gi fun g =>
    { g with
      created := fioCreates c gi, cfg := fioGroupCfg c gi, rehandshake := true, link := false, handshakeFail := false, sched := [], schedWait := []
      fifo := [], edgeLostEpisode := false }
  s.forEach (groupChans gi) fun s n =>
    s.onCh n fun x => { x with cfg := fioChannel c n, lead := ((fioChannel c n).map fun k => fioLead k && k.ch == n).getD true, sent := [], cmd := false }

/-- The FIO section (R310, R330). -/
def State.makeFio (s : State) : State := s.forEach (List.range 12) State.makeFioGroup

/-- A capture engine as its section creates it; its capture number stands in MRAM (R374, R384). -/
def captEngine (c : CaptCfg) (base num : Nat) : Engine :=
  { created := true, cfg := c, base := base, num := num, pre := c.preRows, post := c.postRows, lastQ := c.chans.map fun _ => (0, 0) }

/-- The state in which a digital source stands when the engines are created: a dataset bit is at its declared fallback (R380, R450). -/
def State.digitalNow (s : State) : DigSource → Bool
  | .level ch => (s.fioCh ch).level
  | .diag ch => decide ((s.fioCh ch).diag.bits ≠ 0)
  | .pickup e => (s.elem? e).any (·.pickup)
  | .operate e => (s.elem? e).any (·.operate)
  | .trip k => (s.trip? k).any (·.trip)
  | .goose i m => ((s.manifest.net.gooseSubs.find? (·.sub == i)).bind fun g => g.members[m]?).any fun x => decide (x.fallback ≠ 0)

/-- The bytes of the partitions before engine `e` (R374). -/
def partBase (l : List CaptCfg) (e : Nat) : Nat := ((l.filter fun c => decide (c.engine < e)).map (·.partMib)).sum * 2 ^ 20

/-- The CAPT section: engines DISARMED, their data lost (R384, R535). -/
def State.makeCapt (s : State) : State :=
  let l := s.manifest.capt
  s.onCapt fun c => { c with engines := (List.range 4).map fun e =>
    ((l.find? (·.engine == e)).map fun k =>
      { captEngine k (partBase l e) (nth c.engines e {}).num with lastDig := k.digital.map s.digitalNow }).getD { num := (nth c.engines e {}).num } }

/-- The LOG section's selection (R412). -/
def State.makeLog (s : State) : State := s.onLog fun l => { l with cfg := s.manifest.log }

/-! ### Network, time, host, cluster -/

/-- The switch with its pairs, subscriptions and publishers; its tables are empty (R427, R437, R450 to R454). -/
def State.makeNet (s : State) : State :=
  let c := s.manifest.net
  s.onNet fun n =>
    { n with
      intakeOpen := false, fabricDegraded := s.clk.degraded, macs := []
      ports := c.ports.map fun p => { port := p.port }
      pairs := c.pairs.map fun k => { pair := k.pair, lifeSent := s.now, lifeFirst := s.now, lifeSecond := s.now }
      gsubs := c.gooseSubs.map fun g =>
        { sub := g.sub, values := g.members.map fun m => { value := m.fallback }, bucket := { tokens := 32, at_ := s.now } }
      gpubs := c.goosePubs.map fun p => { pub := p.pub }
      svsubs := c.svSubs.map fun v => { sub := v.sub, bucket := { tokens := 16, at_ := s.now } }
      health := { pub := 64 } }

/-- PTP listens; the counter, what is known of time and the servo's last rate stand (R447, R566). -/
def State.makePtp (s : State) : State :=
  s.onPtp fun p =>
    { event := p.event, phase := .listening, timeKnown := p.timeKnown, synced := p.synced, degraded := s.clk.degraded
      eLast := p.eLast, tLast := p.tLast, servoPpm := p.servoPpm
      ports := (s.netCfg.ports.filter fun q => s.netCfg.ptpEn q.port && q.port != 44).map fun q =>
        { port := q.port, portState := if s.ptpRuns q.port then 4 else 3, tcActive := s.tcPort q.port } }

/-- Breakwater sources: rings 0 to 15, the harbour and REG (R490, R511). -/
def breakwaterSources (c : StructCfg) : List SourceCfg :=
  (c.rings ++ List.replicate 16 ({} : SourceCfg)).take 16 ++ [c.harbour, c.reg]

/-- The sources take their budgets with full buckets; a ring with RATE 0 has no reservation (R490, R491, R511). -/
def State.makeHost (s : State) : State :=
  s.onHost fun h =>
    { h with sources := ((breakwaterSources s.manifest.struct).zip h.sources).map fun x =>
        { x.2 with cfg := if x.1.rate = 0 then { x.1 with berths := 0 } else x.1, tokens := x.1.depth, tTok := s.now } }

/-- The cluster's nodes in ring order, with this device's place among them; doors and their hold are not changed (R495, R501). -/
def State.makeAdeid (s : State) : State :=
  let ns := s.manifest.struct.clusterNodes
  s.onAdeid fun a =>
    { event := a.event, doors := a.doors, lastCause := a.lastCause, lastDoor := a.lastDoor, holdRenewed := a.holdRenewed
      holdLapsed := a.holdLapsed, nodes := ns, node := ns.idxOf s.sec.device, states := ns.map fun _ => {}, topoAt := s.now }

/-! ### The STRUCTURE stage -/

/-- SYS_STAGE_TIME of a stage, in 0.1 ms from T0, saturating (R570). -/
def State.stageTime (s : State) (n : Nat) : Nat := nth s.sys.stageTimes n 0

/-- A stage is reached now (R556, R570). -/
def State.reach (s : State) (n : Nat) : State :=
  s.onSys fun y => { y with stage := n, stageTimes := y.stageTimes.set n (min 65535 ((s.now - y.t0) / 100000)) }

/-- Every block of the structure is created from the live Manifest. -/
def State.makeAll (s : State) : State :=
  let s := (s.make .tide State.makeTide).make .acq State.makeAcq
  let s := ((s.make .prot State.makeProt).make .diff State.makeDiff).make .form State.makeForm
  let s := ((s.make .gate State.makeGate).make .logic State.makeLogicBlock).make .fio State.makeFio
  let s := ((s.make .capt State.makeCapt).make .log State.makeLog).make .net State.makeNet
  ((s.make .ptp State.makePtp).make .host State.makeHost).make .adeid State.makeAdeid

/-- Structure instantiation: the blocks are created, the reference is the one that the structure uses, mode moves start, and SYS_START is logged (R86, R91, R556, R569). -/
def State.instantiate (s : State) : State :=
  let s := (s.reach 4).onSys fun y => { y with profile := s.manifest.struct.profile, live := true }
  let s := s.makeAll
  let s := s.xrefUnused.startMoves
  (s.raise .sys 3).report .sysStart 0xFFFF
    [s.sys.cause.num, b2n s.sec.liveB, s.sec.liveId.toNat, s.stageTime 1, s.stageTime 2, s.stageTime 3]

/-- The state of the blocks that a structure restart takes back to their start, before they are created again (R566, R567). -/
def State.clearStructure (s : State) : State :=
  { s with
    tide := { pow := s.tide.pow }
    acq := {}
    prot := { laneA := { s.prot.laneA with rings := [] }, laneB := { s.prot.laneB with rings := [] } }
    diff := {}, form := {}, gate := {}
    logic := { groups := s.logic.groups.map fun g => { buf0 := g.buf0, buf1 := g.buf1 } }
    fio := { s.fio with event := {} }
    capt := { engines := s.capt.engines.map fun e => { num := e.num } }
    net := {}
    ptp := { timeKnown := s.ptp.timeKnown, synced := s.ptp.synced, eLast := s.ptp.eLast, tLast := s.ptp.tLast, servoPpm := s.ptp.servoPpm }
    adeid := { doors := s.adeid.doors, lastCause := s.adeid.lastCause, lastDoor := s.adeid.lastDoor, holdRenewed := s.adeid.holdRenewed
               holdLapsed := s.adeid.holdLapsed } }

/-- A structure restart: every door closes, and the stages run again from STRUCTURE, counted from now − 100 ms (R506, R567). -/
def State.structureRestart (s : State) : State :=
  let s := (s.closeDoors 5).onAdeid fun a => { a with doors := a.doors.map fun d => { d with cmdClosed := false } }
  let s := s.clearStructure
  let s := s.onSys fun y =>
    { y with t0 := s.now - msec 100, delay := 0, structRestarts := satInc 16 y.structRestarts, stageTimes := y.stageTimes.take 4 ++ List.replicate 12 0 }
  ((s.onHost fun h => { h with ready := false }).raise .sys 4).instantiate

end Sys2Proof.Machine
end

