-- ==== Sys2Proof/Machine/RegTable.lean ====
section
/-! DEFINITION. The offsets at which a register lies, block by block as the register tables of every chapter give them (spec/19_register_map.md R590), which a SNAPSHOT list may name (spec/12_logbook.md R412). -/

namespace Sys2Proof.Machine

open Sys2Proof

/-! ### Blocks and offsets (R590, R593) -/

/-- The blocks in the order of their bases. -/
def allBlks : List Blk :=
  [.sys, .clk, .tide, .acq, .prot, .diff, .form, .gate, .logic, .fio, .capt, .log, .net, .ptp, .chk, .host, .adeid, .sec, .diag]

/-- The base of a block (R590). -/
def blkBase : Blk → Nat
  | .sys => 0 | .clk => 0x10000 | .tide => 0x20000 | .acq => 0x40000 | .prot => 0x80000 | .diff => 0xC0000 | .form => 0x100000
  | .gate => 0x140000 | .logic => 0x180000 | .fio => 0x200000 | .capt => 0x240000 | .log => 0x280000 | .net => 0x2C0000 | .ptp => 0x340000
  | .chk => 0x380000 | .host => 0x3A0000 | .adeid => 0x3C0000 | .sec => 0x3E0000 | .diag => 0x3F0000

/-- The size of BAR0 (R480). -/
def bar0Size : Nat := 0x400000

/-- The block whose span holds an offset (R590). -/
def blkAt (off : Nat) : Blk := (allBlks.filter fun b => decide (blkBase b ≤ off)).getLastD .sys

/-! ### Registers -/

/-- `count` items from `first`, `stride` bytes apart, with registers at the offsets `regs` of each item. -/
structure RegGroup where
  first : Nat
  stride : Nat
  count : Nat
  regs : List Nat
deriving DecidableEq, Repr

/-- One register. -/
def oneReg (o : Nat) : RegGroup := ⟨o, 4, 1, [0]⟩

/-- Registers at consecutive words from `a` to `b`. -/
def regWords (a b : Nat) : RegGroup := ⟨a, 4, (b - a) / 4 + 1, [0]⟩

/-- Items whose first `n` words are registers. -/
def regItems (first stride count n : Nat) : RegGroup := ⟨first, stride, count, (List.range n).map (4 * ·)⟩

/-- The offset, relative to the base of the group's block, is one of a register. -/
def RegGroup.has (g : RegGroup) (o : Nat) : Bool :=
  decide (g.first ≤ o ∧ (o - g.first) / g.stride < g.count) && g.regs.contains ((o - g.first) % g.stride)

/-- The register groups of each block (R590; the Registers section of each chapter). -/
def blkRegs : Blk → List RegGroup
  | .sys => [regWords 0x000 0x018, regWords 0x020 0x03C, regWords 0x8000 0xFFFC]
  | .clk =>
    [ regWords 0x000 0x004, regWords 0x010 0x014, regItems 0x020 0x10 2 3, regWords 0x040 0x048, regWords 0x060 0x064, regWords 0x080 0x09C
    , regWords 0x0A0 0x0A4, oneReg 0x0B0 ]
  | .tide =>
    [ regWords 0x000 0x018, regWords 0x020 0x024, regWords 0x030 0x038, regWords 0x080 0x094, regWords 0x0A0 0x0A8, regWords 0x0C0 0x0D4
    , regWords 0x100 0x11C, regWords 0x1000 0x1FFC ]
  | .acq =>
    [ regWords 0x000 0x004, regWords 0x010 0x020, regWords 0x100 0x3FC, regItems 0x600 0x10 4 2, regWords 0x8000 0x10FFC ]
  | .prot => [regWords 0x000 0x028, regWords 0x030 0x034, regWords 0x040 0x050, regWords 0x1000 0x11FC, regWords 0x10000 0x1FFFC]
  | .diff => [regWords 0x000 0x004, regWords 0x010 0x024, regWords 0x1000 0x1FFC]
  | .form => [regWords 0x000 0x004, regItems 0x1000 0x100 4 22, regItems 0x3000 0x40 8 6]
  | .gate => [regWords 0x000 0x004, regItems 0x100 0x40 8 12]
  | .logic => [regWords 0x000 0x01C, regItems 0x100 0x20 8 7, regItems 0x300 0x10 8 3, regItems 0x400 0x10 36 3]
  | .fio => [regWords 0x000 0x004, regItems 0x100 0x20 12 5, regItems 0x1000 0x20 192 7, regWords 0x3000 0x3014, regWords 0x3020 0x3034, regWords 0x3040 0x3054]
  | .capt => [regWords 0x000 0x008, regItems 0x100 0x40 4 14]
  | .log =>
    [ regWords 0x000 0x038, regWords 0x040 0x050, oneReg 0x060, regItems 0x1000 0x800 4 3
    , ⟨0x1400, 0x800, 4, (List.range 256).map (4 * ·)⟩ ]
  | .net => [regWords 0x000 0x010, regItems 0x100 0x20 45 7, regItems 0x800 0x20 8 5, regWords 0x1000 0x2FFC, regWords 0x3000 0x37FC, regItems 0x4000 0x10 64 2]
  | .ptp => [regWords 0x000 0x03C, regItems 0x100 0x10 44 3]
  | .chk => [regWords 0x000 0x014, regWords 0x040 0x064, regItems 0x100 0x20 8 7]
  | .host =>
    [ regWords 0x000 0x020, regWords 0x030 0x03C, regItems 0x100 0x40 16 9, regWords 0x800 0x814, regItems 0x1000 0x10 18 3, regWords 0x2000 0x21FC
    , oneReg 0x3000, regWords 0x4000 0x4010 ]
  | .adeid => [regWords 0x000 0x008, regWords 0x010 0x024, regItems 0x100 0x20 4 4]
  | .sec => [regWords 0x000 0x034, regItems 0x100 0x10 8 4, regItems 0x200 0x10 4 4]
  | .diag => [regWords 0x000 0x00C, regWords 0x010 0x01C, regWords 0x040 0x05C, regWords 0x080 0x090, regWords 0x0A0 0x0B0, regWords 0x100 0x17C]

/-- A register lies at a BAR0 offset (R412). -/
def isRegister (off : Nat) : Bool :=
  let b := blkAt off
  decide (off % 4 = 0 ∧ off < bar0Size) && (blkRegs b).any fun g => g.has (off - blkBase b)

end Sys2Proof.Machine
end

