-- ==== Sys2Proof/Machine/Checks.lean ====
section
/-! DEFINITION. The checks of a Manifest that hold between settings and between sections, as the rules of each chapter name them (spec/02_tide.md to spec/13_network_and_time.md, "The Manifest checker rejects"). -/

namespace Sys2Proof.Machine

open Sys2Proof

/-- A number lies in a range, bounds included. -/
def inRange {α : Type} [LE α] [DecidableLE α] (lo hi x : α) : Bool := decide (lo ≤ x ∧ x ≤ hi)

/-! ### Names of other sections -/

/-- A local channel is created (R121). -/
def ainCfg? (m : Manifest) (c : Nat) : Option AinCfg := m.acq.channels.find? (·.ch == c)

/-- The rate of a subscribed SV channel (R142, R453). -/
def svRate? (m : Manifest) (i : Nat) : Option LaneRate := (m.net.svSubs.find? fun x => x.channels.contains i).map (·.rate)

/-- A channel reference names a created local channel or a subscribed SV channel. -/
def chanExists (m : Manifest) : ChanRef → Bool
  | .ain c => (ainCfg? m c).isSome
  | .sv i => (svRate? m i).isSome

/-- A channel reference names a voltage channel: a local one of an LPVT, or an SV channel in volts (R79, R377). -/
def isVoltage (m : Manifest) : ChanRef → Bool
  | .ain c => (ainCfg? m c).any fun x => x.sensor == .lpvt
  | .sv i => Config.svVolts i

/-- A channel reference is an SV channel. -/
def isSvChan : ChanRef → Bool
  | .sv _ => true
  | .ain _ => false

/-- A channel can feed a lane: a 4,800 S/s stream does not feed the fast lane (R142). -/
def feedsLane (m : Manifest) (l : LaneRate) : ChanRef → Bool
  | .ain _ => true
  | .sv i => l == .phasor || svRate? m i == some .fast

/-- OWNER of an output channel of the FIO section (R310). -/
def chanOwner? (m : Manifest) (n : Nat) : Option Owner :=
  (fioChannel m.fio n).bind fun x => match x.mode with
    | .output o _ _ _ _ _ _ => some o
    | .input _ => none

/-- A time in ns is at least a delay in Tm (R126, R143). -/
def coversTm (t : Ns) (d : Nat) : Bool := decide (d * 10000000 ≤ t * 110592)

/-! ### STRUCTURE -/

/-- An entry of TIDE_PRIORITY names a created unit, and none in PROTECT (R55). -/
def sourceNamed (m : Manifest) : TideSrc → Bool
  | .rotor u => m.struct.profile != .protect && m.form.any (·.unit == u)
  | _ => true

/-- A Manifest mark: its period, its TARGET, and the owner of the channel that it drives (R69, R71, R84). -/
def markChecked (m : Manifest) (x : MarkSpec) : Bool :=
  x.period.all (inRange 1 65535) && markTargetOk x && (x.action != .fioEdge || chanOwner? m x.target == some .logic)

/-- Relations of the STRUCTURE section (R55, R68, R71, R74, R79, R340). -/
def structChecked (m : Manifest) : Bool :=
  let t := m.struct.tide
  decide t.priority.Nodup && t.priority.all (sourceNamed m) && t.pilotInput.all (fun c => chanExists m c && isVoltage m c) &&
    t.pow.all (fun w => chanOwner? m w.closeCh == some .logic) && m.marks.all (fun x => decide (x.1 < 256) && markChecked m x.2) &&
    decide (m.marks.map (·.1)).Nodup

/-! ### ACQ -/

/-- SEC_NOM lies within the range, and PRIM_NOM within its own; it is set where the channel is published (R122, R149). -/
def ainChecked (m : Manifest) (c : AinCfg) : Bool :=
  let published := m.acq.pubs.any fun p => p.map.contains (.chan c.ch)
  let prim := if c.sensor = .lpvt then inRange 100 500000 c.primNom else inRange 1 100000 c.primNom
  decide (2 * c.secNom * c.secNom ≤ c.range.volts * c.range.volts) && (prim || (!published && decide (c.primNom = 0)))

/-- Relations of the ACQ section (R122, R143, R145, R149). -/
def acqChecked (m : Manifest) : Bool :=
  let c := m.acq
  c.channels.all (ainChecked m) && c.alignFast.all (fun t => c.channels.all fun x => coversTm t (dFast x.bankA.taps)) &&
    c.alignPhasor.all (fun t => c.channels.all fun x => coversTm t (dPhasor x.bankA.taps)) &&
    c.pubs.all fun p => p.map.all fun x => match x with
      | .chan n => (ainCfg? m n).isSome
      | _ => true

/-! ### PROT -/

/-- A user table (R173). -/
def tableChecked (t : UserTable) : Bool :=
  inRange 2 64 t.points.length && inRange 0 600 t.tr && t.points.all (fun p => inRange 1 40 p.1 && inRange (1 / 100) 1000 p.2) &&
    (t.points.zip t.points.tail).all fun x => decide (x.1.1 < x.2.1 ∧ x.2.2 ≤ x.1.2)

/-- The types with an inverse-time curve (R171, R622). -/
def hasCurve : ElemType → Bool
  | .e51P | .e51N | .e46 | .e27 | .e59 | .e59N | .e67P | .e67N => true
  | _ => false

/-- The types that pick up on a multiple of a pickup setting (R164). -/
def hasPickup : ElemType → Bool
  | .e25 | .e79 | .e50BF => false
  | _ => true

/-- Pickup counts, levels and timers (R164, R165). -/
def pickupChecked (y : ElemType) (t : TimingSet) : Bool :=
  inRange 1 16 (t.puOf y) && inRange 1 16 t.doCount && decide (t.tDelay ≤ secs 600) &&
    (!hasPickup y || if y.isUnder then inRange (101 / 100) (12 / 10) (t.ratioOf y) else inRange (8 / 10) (99 / 100) (t.ratioOf y))

/-- The types whose CURVE is a required setting (R171, R622). -/
def needsCurve : ElemType → Bool
  | .e51P | .e51N | .e46 => true
  | _ => false

/-- Curve settings (R170 to R172, R622). -/
def curveChecked (tables : Nat) (y : ElemType) (t : TimingSet) : Bool :=
  let k := t.curveNo
  (t.curve.isSome || !needsCurve y) && (decide (k ≤ 6) || (inRange 16 31 k && decide (k - 16 < tables))) &&
    (k == 0 ||
      inRange 2 40 t.mMax && decide (t.tMin ≤ secs 10 ∧ t.tAdd ≤ secs 10) &&
        (if k = 4 ∨ k = 5 ∨ k = 6 then inRange (1 / 10) 15 t.tms else inRange (1 / 100) 10 t.tms) &&
        (t.resetMode != .thermal || inRange (secs 1) (secs 3600) t.tauMem) && (t.resetMode != .definite || decide (t.resetT ≤ secs 600)))

/-- Directional settings (R177, R178). -/
def dirChecked (c : TideCfg) (y : ElemType) (d : DirSet) : Bool :=
  inRange (-90) 90 d.rca && inRange 60 90 d.halfSector && inRange (5 / 1000) (2 / 10) d.vpolMin &&
    (y == .e67N || inRange 1 50 d.memCycles && decide (d.memCycles ≤ c.coastCycles))

/-- Distance settings (R178, R179). -/
def distChecked (c : TideCfg) (g : ElemSet) : Bool :=
  let d := g.dist
  inRange (1 / 20) 1 d.iMin && inRange (-45) 0 d.dirLow && inRange 90 135 d.dirHigh && inRange (-30) 30 d.tilt &&
    (!g.dir.polMemory || inRange 1 50 g.dir.memCycles && decide (g.dir.memCycles ≤ c.coastCycles))

/-- Transformer-differential settings (R181). -/
def trafoChecked (x : TrafoSet) : Bool :=
  inRange (1 / 10) 1 x.idMin && inRange (1 / 10) (1 / 2) x.slope1 && inRange (3 / 10) 1 x.slope2 && inRange 1 10 x.irBrk &&
    inRange (5 / 100) (30 / 100) x.h2 && inRange (1 / 10) (1 / 2) x.h5 && inRange 3 20 x.idUnr

/-- Line-differential settings (R226). -/
def lineChecked (x : LineDiffSet) : Bool :=
  inRange (5 / 100) 2 x.idMin && inRange (1 / 10) (1 / 2) x.k1 && inRange (3 / 10) 1 x.k2 && inRange 1 20 x.irBrk && inRange 2 40 x.idUnr

/-- Frequency settings (R163, R183). -/
def freqChecked (y : ElemType) (g : ElemSet) : Bool :=
  inRange (1 / 20) (9 / 10) g.volt.uvBlock && inRange 1 10 g.volt.avgCycles &&
    if y = .e81R then inRange 2 50 g.volt.rocofWindow && inRange (5 / 100) 10 g.timing.pickup else inRange 40 70 g.timing.pickup

/-- Synchro-check settings (R185). -/
def syncChecked (x : SyncSet) : Bool :=
  inRange (1 / 100) (3 / 10) x.dvMax && inRange (1 / 100) 1 x.dfMax && inRange 1 60 x.dangMax && decide (x.tCb ≤ msec 500 ∧ x.tSync ≤ secs 10) &&
    inRange (5 / 100) (1 / 2) x.deadLevel && inRange (6 / 10) (12 / 10) x.liveLevel

/-- Reclose settings (R186). -/
def recloseChecked (x : RecloseSet) : Bool :=
  decide (x.shots.length ≤ 4) && x.shots.all (fun k => inRange (msec 100) (secs 600) k.dead) && inRange (secs 1) (secs 600) x.reclaim

/-- The settings of one group of an element, those that its type has (R163 to R186, R226, R622). -/
def elemSetChecked (c : TideCfg) (tables : Nat) (y : ElemType) (g : ElemSet) : Bool :=
  pickupChecked y g.timing && (!hasCurve y || curveChecked tables y g.timing) &&
    match y with
    | .e50P | .e50N => decide (g.timing.hsSamples ≤ 4)
    | .e67P | .e67N => dirChecked c y g.dir
    | .e21 => distChecked c g
    | .e87T => trafoChecked g.trafo && decide (g.timing.hsSamples ≤ 4)
    | .e87L => lineChecked g.line
    | .e27 => inRange 0 (3 / 10) g.volt.vDead
    | .e81O | .e81U | .e81R => freqChecked y g
    | .e50BF => inRange (5 / 100) 2 g.bf.iBf && decide (g.bf.t1 ≤ secs 1) && inRange (msec 50) (secs 1) g.bf.t2
    | .e25 => syncChecked g.sync
    | .e79 => recloseChecked g.reclose
    | _ => true

/-- The settings of an element in the groups of its SG_MASK (R187). -/
def setsInMask (e : ElemCfg) : List ElemSet := ((e.sgMask.zip e.groups).filter (·.1)).map (·.2)

/-- An element: its settings, its channels, its zone, its windings and its sources (R142, R163 to R186, R198). -/
def elemChecked (m : Manifest) (e : ElemCfg) : Bool :=
  let ch := e.channels
  (setsInMask e).all (elemSetChecked m.struct.tide m.prot.tables.length e.type) && (setsInMask e).all (fun g => decide (g.blocks.length ≤ 4)) && decide (e.starts.length ≤ 8) &&
    ch.all (fun c => chanExists m c && feedsLane m e.type.rate c) &&
    (e.type != .e87L || e.zone.any fun z => decide (z < m.diff.length)) &&
    (e.type != .e87T || inRange 2 3 e.windings.length && e.windings.all fun w => decide (w.clock < 12)) &&
    (!e.essential || e.type != .e87L && (ch.isEmpty || ch.any fun c => !(isSvChan c)))

/-- Relations of the PROT section (R22, R173, R197, R198). -/
def protChecked (m : Manifest) : Bool :=
  let c := m.prot
  c.tables.all tableChecked && c.elements.all (elemChecked m) &&
    decide ((c.elements.filter (·.formVisible)).length ≤ 128 ∧ (c.elements.filter (·.essential)).length ≤ 512) &&
    c.trips.all (fun t => chanOwner? m t.channel == some .trip && t.sources.all fun e => c.elements.any (·.index == e)) &&
    decide (c.trips.map (·.index)).Nodup

/-! ### DIFF -/

/-- A zone: its pair and the modes of its ports, its group address, its current sets (R209, R211, R231). -/
def zoneChecked (m : Manifest) (z : ZoneCfg) : Bool :=
  (match z.ring with
    | .adeid => true
    | .hsr k => z.groupMac / 2 ^ 40 % 2 == 1 && m.net.pairs.any fun p =>
        p.pair == k && p.kind == .hsr && (m.net.port? p.first).any fun q => q.mode == .base1000x || q.mode == .base2500x) &&
    decide (z.csets.length ≤ 4 ∧ z.members.Nodup) && z.csets.all (fun k => k.ch.length == 3 && k.ch.all (chanExists m)) &&
    z.vset.all (fun v => v.ch.length == 3 && v.ch.all (chanExists m)) && z.heads.all (fun h => decide (h.1 < z.members.length)) && z.members.all (fun d => inRange 1 16383 d)

/-- Relations of the DIFF section: one SUM_ETHERTYPE per device, and each zone once (R209, R231). -/
def diffChecked (m : Manifest) : Bool :=
  m.diff.all (zoneChecked m) && decide (m.diff.map (·.zoneId)).Nodup && m.diff.all fun z => m.diff.all fun y => z.etherType == y.etherType

/-! ### FORM and GATE -/

/-- C_u of a unit (R241). -/
def allowanceOf (u : UnitCfg) : Ns := usec 6 + 1500 * u.bridges.length

/-- Three created local channels whose D_wave is within 4·Ts (R239). -/
def waveSet (m : Manifest) (ts : Ns) (l : List Nat) : Bool :=
  l.length == 3 && l.all fun c => (ainCfg? m c).any fun x => coversTm (4 * ts) (dWave x.bankA.taps)

/-- The element of RESYNC_25 (R268). -/
def resyncChecked (e : ElemCfg) : Bool :=
  decide (e.type = .e25) && e.formVisible &&
    (setsInMask e).all fun g => decide (g.sync.dvMax ≤ 5 / 100 ∧ g.sync.dfMax ≤ 5 / 100 ∧ g.sync.dangMax ≤ 2)

/-- A unit: its channels, its allowance, its RESYNC_25 element and its bridges (R237, R239, R241, R268). -/
def unitChecked (m : Manifest) (u : UnitCfg) : Bool :=
  let ts := u.rate.ts
  waveSet m ts u.vset && (u.gridVset.isEmpty || waveSet m ts u.gridVset) &&
    (match u.isrc with
      | .bridgeSum => true
      | .channels c => waveSet m ts c) &&
    decide (allowanceOf u * 10 ≤ ts * 4) && u.policy.resync25.all (fun k => m.prot.elements.any fun e => e.index == k && resyncChecked e) &&
    u.bridges.all fun b => m.gate.any (·.bridge == b.1)

/-- Relations of the FORM section: a bridge belongs to one unit (R237). -/
def formChecked (m : Manifest) : Bool :=
  m.form.all (unitChecked m) && decide ((m.form.flatMap fun u => u.bridges.map (·.1)).Nodup) && decide (m.form.map (·.unit)).Nodup

/-- A gate-link: its port is usable and in no other use, and its delay leaves the unit its time (R284, R293). -/
def gateChecked (m : Manifest) (g : GateCfg) : Bool :=
  let wire := if g.fast then 192 else 480
  let unit := m.form.find? fun u => u.bridges.any (·.1 == g.bridge)
  (m.net.port? g.port).all (fun q => q.mode == .gateLink) && (m.struct.profile != .economy || decide (g.port ≤ 15)) &&
    unit.all fun u => decide (g.delayMax + allowanceOf u + usec 4 + wire + 500 ≤ u.rate.ts / 2)

/-- Relations of the GATE section: one bridge for each port (R284). -/
def gatesChecked (m : Manifest) : Bool :=
  m.gate.all (gateChecked m) && decide (m.gate.map (·.bridge)).Nodup && decide (m.gate.map (·.port)).Nodup

/-! ### LOGIC, FIO, CAPT, LOG, NET -/

/-- The tasks of one group run on one core (R339). -/
def oneCore (l : List TaskCfg) : Bool := l.all fun t => l.all fun u => t.group != u.group || t.core == u.core

/-- The shortest period of a task of a profile (R35, R340). -/
def periodsChecked (m : Manifest) : Bool :=
  m.logic.stations.all (fun x => decide (usec 200 ≤ x.timeout)) && decide (m.logic.tasks.map (·.task)).Nodup

/-- The outputs that stations and exports name are LOGIC's, and a channel is exported once (R352). -/
def exportsChecked (m : Manifest) : Bool :=
  let all := m.logic.exports.flatMap fun x => x.inputs ++ x.outputs
  decide all.Nodup && m.logic.exports.all fun x => decide (x.inputs.length ≤ 64 ∧ x.outputs.length ≤ 64) && x.outputs.all fun n => chanOwner? m n == some .logic

/-- Relations of the LOGIC section (R339, R352, R354). -/
def logicChecked (m : Manifest) : Bool := oneCore m.logic.tasks && periodsChecked m && exportsChecked m

/-- A channel: open-wire settings, and RESUME of a trip channel (R325, R329). -/
def channelChecked (c : FioChCfg) : Bool :=
  inRange (msec 10) (secs 10) c.owTime && match c.mode with
    | .input _ => true
    | .output o _ _ manual _ _ level => (o != .trip || !manual) && inRange 2000 50000 level

/-- Relations of the FIO section: no channel lies in the gang of another, DP_WIDTH in steps of 10 µs (R317, R326, R329). -/
def fioChecked (m : Manifest) : Bool :=
  m.fio.channels.all channelChecked && m.fio.groups.all (fun g => decide (g.dpWidth % 10000 = 0)) && decide (m.fio.groups.map (·.group)).Nodup &&
    m.fio.channels.all fun c => match c.mode with
      | .input _ => true
      | .output _ gang _ _ _ _ _ => !m.fio.channels.any fun d => decide (c.ch < d.ch ∧ d.ch < c.ch + gang.size)

/-- A waveform channel runs at the engine's rate (R376). -/
def captChecked (m : Manifest) : Bool :=
  decide (m.capt.map (·.engine)).Nodup && m.capt.all fun e => e.chans.all fun c => match c.src with
    | .ain n => (ainCfg? m n).isSome
    | .sv i => svRate? m i == some e.rate

/-- A SNAPSHOT names offsets at which registers lie (R412). -/
def logChecked (m : Manifest) : Bool := m.log.codes.all fun x => x.2.snapshot.all isRegister

/-- A pair: two ports of one mode among P00 to P39 and X0 to X3, in gate-link mode neither (R437). -/
def pairChecked (m : Manifest) (k : PairCfg) : Bool :=
  decide (k.first < 44 ∧ k.second < 44) && [k.first, k.second].all fun p => (m.net.port? p).any fun q => q.mode != .gateLink

/-- Relations of the NET section (R284, R431, R437, R450, R453). -/
def netChecked (m : Manifest) : Bool :=
  let c := m.net
  c.pairs.all (pairChecked m) && decide ((c.pairs.flatMap fun k => [k.first, k.second]).Nodup) && decide (c.pairs.map (·.pair)).Nodup &&
    c.ports.all (fun q => q.mode != .gateLink || inRange 8 39 q.port) && c.vlans.all (fun v => inRange 1 4094 v.vid) &&
    c.gooseSubs.all (fun g => decide (g.members.length ≤ 64)) && c.svSubs.all (fun x => inRange 1 16 x.channels.length) &&
    c.svSubs.all (fun x => x.channels.all fun i => decide (i < 1024)) && decide (c.svSubs.flatMap (·.channels)).Nodup

end Sys2Proof.Machine
end

