-- ==== Sys2Proof/Machine/Checker.lean ====
section
/-! DEFINITION. What the verification of a slot checks of a Manifest's content: the envelope of its profile, and the ranges of its settings (spec/01_architecture_and_profiles.md R35, R36, R39; the settings tables of every chapter). -/

namespace Sys2Proof.Machine

open Sys2Proof

/-! ### The envelope (R35, R36, R39, R511) -/

/-- A ceiling by profile: BALANCED, PROTECT, FORM, ECONOMY. -/
def ceiling (p : Profile) (a b c d : Nat) : Nat :=
  match p with
  | .balanced => a | .protect => b | .form => c | .economy => d

/-- The ceiling of capture channels of a profile (R35). -/
def captCeiling : Profile → Nat
  | .balanced => 256 | .protect => 384 | .form | .economy => 128

/-- The shortest cycle that a task is given, in ns (R35, R340). -/
def shortestCycle (l : LogicCfg) : Ns :=
  (l.tasks.map fun t => match t.kind with
    | .time p _ => p
    | .tide n _ _ => n * 1000000000 / 70
    | .event m _ => m).foldl min (secs 10)

/-- Each row of the two tables as what the Manifest asks for and what its profile allows, in the order of the tables. -/
def envelopeRows (m : Manifest) : List (Nat × Nat) :=
  let p := m.struct.profile
  let ports := (m.net.ports.map (·.port)).filter (· != 44)
  [ (m.prot.elements.length, ceiling p 2048 4096 1024 1024)
  , (m.net.svSubs.length, ceiling p 96 128 48 48)
  , ((m.net.svSubs.map fun x => x.channels.length).sum, ceiling p 768 1024 384 384)
  , (m.diff.length, ceiling p 32 64 16 16)
  , (m.form.length, ceiling p 2 0 4 1)
  , ((m.form.map fun u => u.rate.hz).foldl max 0, ceiling p 20000 20000 20000 10000)
  , (m.gate.length, ceiling p 4 0 8 2)
  , (ceiling p 500000 500000 1000000 2000000, shortestCycle m.logic)
  , ((m.capt.map fun c => c.chans.length).sum, captCeiling p)
  , ((m.capt.map fun c => c.rate.hz).foldl max 0, ceiling p 14400 14400 14400 4800)
  , (m.capt.length, 4)
  , ((m.diff.map fun z => z.members.length).foldl max 0, 64)
  , (m.prot.trips.length, 64)
  , (m.net.gooseSubs.length, ceiling p 512 512 256 256)
  , (m.net.goosePubs.length, ceiling p 64 64 32 32)
  , (m.acq.pubs.length, ceiling p 4 4 4 2)
  , (m.net.pairs.length, ceiling p 8 8 8 4)
  , ((ports.filter (decide <| · < 40)).foldl max 0, ceiling p 39 39 39 15)
  , ((ports.filter (decide <| 40 ≤ ·)).foldl max 0, ceiling p 43 43 43 41)
  , (m.logic.tasks.length, 8)
  , (m.logic.retainedBytes, 65536)
  , (m.marks.length, 256)
  , ((m.prot.elements.map fun e => e.groups.length).foldl max 0, 8)
  , ((m.struct.rings.map (·.berths)).sum + m.struct.harbour.berths, 128)
  , (((m.struct.rings.map (·.rate)).sum + m.struct.harbour.rate), ceiling p 100000 100000 50000 25000) ]

/-- The first exceeded row (R39). -/
def envelopeExceeded (m : Manifest) : Option Nat := ((envelopeRows m).zipIdx.find? fun r => decide (r.1.2 < r.1.1)).map (·.2)

/-! ### Ranges of the settings -/

/-- The Tide settings (R79, R56, R74). -/
def tideInRange (c : TideCfg) : Bool :=
  (c.nominalFreq == 50 || c.nominalFreq == 60) && decide (c.priority.length ≤ 4) && inRange 1 500 c.coastCycles &&
    inRange (1 / 100) 2 c.lockWindow && inRange (1 / 100) 2 c.slewFmax && inRange (1 / 10) 20 c.slewAccel && decide (c.returnHold ≤ secs 600) &&
    [0, 1, 3].contains c.pilotInput.length && inRange 2 20 c.pilotBw && inRange (1 / 20) (1 / 2) c.pilotLossLevel && inRange 2 20 c.pilotJumpLevel &&
    decide (c.plantSchedule.length ≤ 16 ∧ c.pow.length ≤ 8) &&
    c.plantSchedule.all (fun x => inRange 40000000 70000000 x.freq) &&
    (c.plantSchedule.zip c.plantSchedule.tail).all (fun x => decide (x.1.start < x.2.start)) &&
    c.pow.all fun w => inRange (msec 10) (msec 200) w.tNom && inRange 0 (1 / 2) w.gain && inRange (1 / 10) 5 w.rocofMax

/-- A budget of a source (R511). -/
def sourceInRange (c : SourceCfg) (lo hi : Nat) : Bool := inRange lo hi c.rate && inRange 1 256 c.depth && decide (c.berths ≤ 32)

/-- The STRUCTURE section (R79, R116, R511, R548). -/
def structInRange (c : StructCfg) : Bool :=
  let k := c.clk
  let enabled := c.rings.filter fun r => r.rate != 0
  tideInRange c.tide && inRange (secs 1) (secs 600) k.xrefReturnHold && inRange 10 100 k.measSteerMax && inRange (msec 10) (secs 10) k.degradedReturn &&
    decide (c.rings.length ≤ 16) && enabled.all (fun r => sourceInRange r 10 100000) && sourceInRange c.harbour 10 100000 &&
    inRange 10000 1000000 c.reg.rate && inRange 1 256 c.reg.depth && decide ((enabled.map (·.berths)).sum + c.harbour.berths ≤ 96) &&
    (c.clusterNodes.isEmpty || (inRange 2 64 c.clusterNodes.length && decide c.clusterNodes.Nodup)) && inRange (secs 30) (secs 3600) c.confirmWindow

/-- A coefficient set (R130). -/
def coefInRange (c : CoefSet) : Bool := coefOk c.taps (bankOf c).coef

/-- The ACQ section (R121, R130, R149). -/
def acqInRange (c : AcqCfg) : Bool :=
  (c.channels.all fun x =>
    decide (x.ch < 24) && inRange (1 / 1000) (707 / 100) x.secNom && coefInRange x.bankA && x.bankB.all coefInRange && decide (x.fadeLen ≤ 1024) &&
      inRange 50 1000 x.rogLeak) &&
    decide (c.channels.map (·.ch)).Nodup && c.alignFast.all (fun t => decide (t ≤ usec 3000)) && c.alignPhasor.all (fun t => decide (t ≤ usec 6000)) &&
    c.pubs.all fun p => p.map.length == 8

/-- The PROT section (R22, R24, R173, R187, R188, R622). -/
def protInRange (c : ProtCfg) : Bool :=
  (c.elements.all fun e =>
    decide (e.index < 4096 ∧ e.sgMask.length = 8 ∧ e.groups.length = 8) && e.sgMask.any id) &&
    decide (c.elements.map (·.index)).Nodup && decide (c.tables.length ≤ 16 ∧ c.sgDeferMax ≤ secs 10) &&
    c.trips.all fun t => decide (t.index < 64 ∧ t.channel < 192 ∧ t.sources.length ≤ 32) && inRange (msec 20) (msec 500) t.sealTime

/-- A zone (R231); the launch leaves the device's own alignment and 150 µs. -/
def zoneInRange (align : Ns) (z : ZoneCfg) : Bool :=
  inRange 1 65535 z.zoneId && inRange 2 64 z.members.length && inRange 1 4 z.heads.length && z.heads.all (fun h => decide (h.2 ≤ 3)) &&
    (match z.ring with
      | .hsr k => decide (k < 8) && inRange 1 4094 z.vid
      | .adeid => true) &&
    inRange 1 100000 z.iBase && inRange 100 500000 z.vBase && !z.csets.isEmpty && inRange 0 (1 / 2) z.bChg && inRange (usec 500) (usec 6500) z.launch &&
    inRange (z.launch + usec 100) (z.launch + usec 5000) z.deadlineNs && inRange 1 255 z.unblockCount && inRange 1 16 z.headLossCount &&
    inRange 0x600 0xFFFF z.etherType && decide (align + usec 150 ≤ z.launch)

/-- Points of a ride-through table: times increase from 0, voltages lie in a range (R276). -/
def tableInRange (l : List (Num × Num)) (most : Nat) (lo hi : Num) : Bool :=
  inRange 2 most l.length && ((l.head?.map (·.1)) == some 0) && l.all (fun x => inRange lo hi x.2) && (l.zip l.tail).all fun x => decide (x.1.1 < x.2.1)

/-- A forming unit (R276). -/
def unitInRange (fn : Num) (u : UnitCfg) : Bool :=
  let r := u.rotor
  let l := u.loops
  let f := u.frt
  let y := u.policy
  decide (u.unit < 4) && inRange 1 8 u.bridges.length && u.bridges.all (fun b => decide (b.1 < 8) && inRange (1 / 10) 10 b.2) &&
    inRange 100000 50000000 u.sNom && inRange 100 72500 u.vNom && inRange 100 10000 u.bridgeVNom && inRange 50 20000 u.vdcMin &&
    inRange 50 20000 u.vdcMax && decide (u.vdcMin < u.vdcMax) && inRange (1 / 10) 30 r.h && inRange 0 500 r.d && inRange (1 / 10) 10 r.tW &&
    inRange (1 / 100) (1 / 10) r.droopP && inRange 0 (2 / 10) r.droopQ && inRange (1 / 1000) (1 / 10) r.tPQ && inRange (1 / 2) 10 r.fLim &&
    inRange (-1) 1 u.targets.p && inRange (-1) 1 u.targets.q && inRange (9 / 10) (11 / 10) u.targets.v && inRange (fn - 2) (fn + 2) u.targets.f &&
    inRange (1 / 100) 10 r.pRamp && (r.fRestore == 0 || inRange 1 600 r.fRestore) && inRange (msec 5) (msec 200) r.bindAbsorb &&
    inRange 0 (1 / 2) l.rV && inRange 0 (1 / 2) l.xV && inRange (1 / 2) 2 l.iTvi && inRange 0 5 l.kTvi && inRange 0 1 l.xTviMax && inRange 1 20 l.tviXr &&
    inRange (1 / 1000) (1 / 2) l.tviDecay && inRange 0 10 l.kpv && inRange 0 1000 l.kiv && inRange 0 5 l.kpi && inRange 0 2000 l.kii &&
    inRange 0 2000 l.kri && inRange 0 10 l.kaw && inRange (1 / 20) (1 / 2) l.xF && inRange 0 (3 / 10) l.bF && inRange 1 2 f.iLim &&
    inRange (msec 1) (msec 200) f.limHold && inRange 1 20 f.limDampMult && inRange (1 / 2) (95 / 100) f.vFrtIn && decide (f.vFrtIn < f.vFrtOut) &&
    inRange (105 / 100) (13 / 10) f.vHvIn && decide (f.vHvOut < f.vHvIn ∧ f.tFrtExit ≤ msec 500) && inRange (1 / 10) 20 f.pRecov && inRange 0 10 f.k1 &&
    inRange 0 10 f.k2 && inRange 0 (1 / 2) f.negMax && inRange (1 / 2) f.iLim f.iMinF && inRange (1 / 10) (8 / 10) f.vMinF &&
    tableInRange f.lvrt 16 0 1 && tableInRange f.hvrt 8 1 (3 / 2) && decide (f.envConfirm ≤ msec 20 ∧ f.envMemory ≤ secs 2) &&
    inRange (msec 20) (secs 1) y.tConnect && inRange (2 / 100) (2 / 10) y.deadV && inRange (6 / 10) (95 / 100) y.liveV && inRange (msec 100) (secs 60) y.tRamp &&
    inRange (secs 1) (secs 600) y.energTimeout && inRange (2 / 10) 10 y.resyncTc && inRange (1 / 100) (1 / 2) y.resyncFmax &&
    inRange (secs 10) (secs 600) y.resyncTimeout && decide (y.frtSet.length ≤ 16 ∧ y.islandSet.length ≤ 16 ∧ y.blockSet.length ≤ 16) &&
    inRange (msec 100) (secs 10) y.locHoldMax && inRange 1 8 y.minBridges && inRange 0 5 y.circK && inRange (1 / 100) (1 / 2) y.circAlarm &&
    inRange y.circAlarm 1 y.circTrip && inRange (secs 1) (secs 3600) y.autostartDelay

/-- A gate-link (R303). -/
def gateInRange (c : GateCfg) : Bool :=
  decide (c.bridge < 8) && inRange 8 39 c.port && decide (c.minPulse ≤ usec 10 ∧ c.minPulse % 50 = 0 ∧ c.delayMax % 10 = 0) && inRange 100 (usec 40) c.delayMax

/-- T of R342. -/
def taskT (t : TaskCfg) : Ns :=
  match t.kind with
  | .time p _ => p
  | .tide n _ _ => n * 1000000000 / 70
  | .event m _ => m

/-- The demand of the tasks in `l` within a time `r`, 10 µs for snapshot and output write included (R342). -/
def demand (l : List TaskCfg) (r : Nat) : Nat :=
  (l.map fun t => if (taskT t) = 0 then 0 else (r + (taskT t) - 1) / (taskT t) * (t.wcet + usec 10)).sum

/-- The response time of R342 by iteration from below: at most `fuel` steps, since each step either stands or adds a release. -/
def response (t : TaskCfg) (higher : List TaskCfg) : Nat → Nat → Nat
  | 0, r => r
  | fuel + 1, r =>
    let r' := t.wcet + usec 10 + demand higher r
    if r' = r ∨ (taskT t) < r' then r' else response t higher fuel r'

/-- The test of R342 on one core. -/
def coreAdmitted (l : List TaskCfg) : Bool :=
  (l.all fun t =>
    decide (response t (l.filter fun u => decide (u.priority < t.priority)) 4096 (t.wcet + usec 10) ≤ (taskT t))) &&
    decide ((l.map fun t => ((t.wcet + usec 10 : Nat) : Num) / ((taskT t) : Num)).sum ≤ 85 / 100)

/-- The program passes the test of R342, and priorities are distinct on each core (R338). -/
def logicAdmitted (l : List TaskCfg) : Bool :=
  [0, 1].all fun k =>
    let c := l.filter (·.core == k)
    coreAdmitted c && decide (c.map (·.priority)).Nodup

/-- A task (R338, R340, R367). -/
def taskInRange (t : TaskCfg) : Bool :=
  decide (t.task < 8 ∧ t.core < 2 ∧ t.priority < 8) && match t.kind with
    | .time p q => decide (p ≤ secs 10 ∧ p % 100000 = 0 ∧ q % 100000 = 0 ∧ q < p)
    | .tide n a _ => inRange 1 65535 n && decide (a < 2 ^ 32)
    | .event m l => decide (m ≤ secs 10 ∧ m % 100000 = 0 ∧ l.length ≤ 16)

/-- The LOGIC section (R338 to R342, R352, R359, R367). -/
def logicInRange (c : LogicCfg) : Bool :=
  c.tasks.all taskInRange && logicAdmitted c.tasks && decide (c.retainedBytes ≤ 65536 ∧ c.stations.length ≤ 32 ∧ c.exports.length ≤ 4) &&
    c.stations.all (fun x => decide (x.inputs.length ≤ 64 ∧ x.outputs.length ≤ 64 ∧ x.timeout ≤ secs 1)) &&
    c.exports.all fun x => inRange 100000 (msec 100) x.period && decide (x.period % 100000 = 0) && inRange (msec 1) (msec 255) x.wd

/-- A field channel; a gang starts at an even channel or a multiple of 4, which keeps it within a group (R330). -/
def channelInRange (c : FioChCfg) : Bool :=
  decide (c.ch < 192) && match c.mode with
    | .input d => decide (d ≤ msec 20 ∧ d % 10000 = 0)
    | .output _ gang _ _ _ retry _ => decide (c.ch % gang.size = 0 ∧ retry ≤ 3)

/-- The FIO section (R326, R330). -/
def fioInRange (c : FioCfg) : Bool :=
  c.channels.all channelInRange && decide (c.channels.map (·.ch)).Nodup &&
    c.groups.all fun g =>
      decide (g.group < 12) && inRange (msec 1) (msec 255) g.wdTime && inRange (usec 20) (usec 200) g.dpWidth && inRange (msec 10) (secs 60) g.dpInterval

/-- A capture engine (R374 to R376, R380, R386, R395). -/
def captInRange (c : CaptCfg) : Bool :=
  let e := captEngine c 0 0
  decide (c.engine < 4 ∧ c.waveMib < c.partMib) && inRange 1 6144 c.partMib && inRange 1 384 c.chans.length && c.chans.all (fun x => decide (x.shift ≤ 8)) &&
    decide (c.digital.length ≤ 512 ∧ c.analog.length ≤ 64 ∧ c.conds.length ≤ 64) && c.analog.all (fun a => decide (0 < a.deadband ∧ a.maxInterval ≤ secs 60)) &&
    decide (65536 ≤ e.chgSize ∧ c.preRows + c.postRows ≤ e.maxRows ∧ e.minPost ≤ c.postRows) && inRange (secs 10) (secs 3600) c.lockMax

/-- The LOG section: a mandatory code keeps its settings, its severity is not lowered, and offsets are multiples of 4 (R412). -/
def logInRange (c : LogCfg) : Bool :=
  inRange (secs 1) (secs 3600) c.tailFoldMax && c.codes.all fun x =>
    decide (x.2.snapshot.length ≤ 16) && x.2.snapshot.all (fun o => decide (o % 4 = 0 ∧ o < 0x400000)) &&
      (!recMandatory x.1 || (x.2.record && !x.2.merge && x.2.severity.all fun v => decide ((recSeverity x.1).num ≤ v.num)))

/-- A gate control list (R435). -/
def gclInRange (g : Gcl) : Bool :=
  inRange 1 64 g.entries.length && g.entries.all (fun e => inRange (usec 1) (secs 1) e.interval && decide (e.interval % 8 = 0)) && decide (g.cycleTime ≤ secs 1)

/-- The ports of the NET section (R427, R435, R456). -/
def portInRange (p : PortCfg) : Bool :=
  ((p.mode == .hostFrame) == (p.port == 44)) &&
  decide (p.port ≤ 44 ∧ p.stormLimit ≤ 100 ∧ p.defaultPcp ≤ 7 ∧ p.delayIn ≤ 10000 ∧ p.delayOut ≤ 10000) && inRange 1 4094 p.pvid &&
    inRange (-10000) 10000 p.portAsym && p.gcl.all gclInRange

/-- The PTP settings (R456). -/
def ptpInRange (c : PtpCfg) : Bool :=
  decide (c.domain ≤ 255 ∧ c.pcp ≤ 7) && c.vid.all (inRange 1 4094) && inRange (-4) 1 c.logSync && inRange (-3) 1 c.logPdelay &&
    inRange 2 10 c.announceTimeout && inRange (1 / 100) 1 c.servoBw && inRange 1 100 c.slewMaxPpm && inRange (usec 1) (secs 1) c.stepLimit &&
    inRange 1 1000 c.holdRate && inRange (secs 10) (secs 86400) c.holdoverMax

/-- The NET section (R437, R456). -/
def netInRange (c : NetCfg) : Bool :=
  c.ports.all portInRange && decide (c.ports.map (·.port)).Nodup && inRange (secs 10) (secs 1000000) c.ageTime && decide (c.staticMacs.length ≤ 1024) &&
    inRange 100 4000 c.hostTxRate && inRange (secs 1) (secs 10) c.lifeCheck && ptpInRange c.ptp && c.gooseSubs.all (fun g => inRange 100 10000 g.rate) &&
    c.goosePubs.all (fun p => inRange (msec 1) (msec 100) p.minTime && inRange (msec 100) (secs 60) p.maxTime) &&
    c.pairs.all fun k => decide (k.pair < 8 ∧ k.first ≠ k.second) && (c.port? k.first).map (·.mode) == (c.port? k.second).map (·.mode)

/-- The device's own ALIGN_WAIT_PHASOR as its ACQ section gives it (R143, R231). -/
def ownAlign (c : AcqCfg) : Ns := c.alignPhasor.getD (alignDefault (c.channels.map fun x => dPhasor x.bankA.taps) 2304 4800)

/-- Each section with whether its settings lie in their ranges and agree with one another, in the order of the IDs. -/
def sectionVerdicts (m : Manifest) : List (Section × Bool) :=
  [ (.structure_, structInRange m.struct && structChecked m)
  , (.acq, acqInRange m.acq && acqChecked m)
  , (.prot, protInRange m.prot && protChecked m)
  , (.diff, m.diff.all (zoneInRange (ownAlign m.acq)) && diffChecked m)
  , (.form, m.form.all (unitInRange m.struct.tide.nominalFreq) && formChecked m)
  , (.gate, m.gate.all gateInRange && gatesChecked m)
  , (.logic, logicInRange m.logic && logicChecked m)
  , (.fio, fioInRange m.fio && fioChecked m)
  , (.capt, m.capt.all captInRange && decide ((m.capt.map (·.partMib)).sum ≤ 6144) && captChecked m)
  , (.log, logInRange m.log && logChecked m)
  , (.net, netInRange m.net && netChecked m) ]

/-- The first section of a Manifest that the checks reject. -/
def outOfRange (m : Manifest) : Option Section := ((sectionVerdicts m).find? fun x => !x.2).map (·.1)

end Sys2Proof.Machine
end

