-- ==== Sys2Proof/Machine/RegMap.lean ====
section
/-! DEFINITION. The register map of BAR0: blocks and offsets, what each register reads, which items are created, snapshots, and reads with their side effects (spec/19_register_map.md; register tables of every chapter). -/

namespace Sys2Proof.Machine

open Sys2Proof

/-! ### Blocks and offsets (R590, R593) -/

/-- The offset of a block's EVENT register. -/
def eventAt : Blk → Nat
  | .sys => 8 | .tide => 0x24 | _ => 4

/-- The clock domain of a block (R17, R92); FIO is counted to CORE. -/
def blkDomain : Blk → Nat
  | .sys | .clk | .tide | .sec | .diag | .log | .capt | .logic | .form | .fio => 0
  | .prot => 1
  | .net | .ptp | .diff | .gate | .adeid | .chk => 2
  | .host => 3
  | .acq => 4

/-- The part of a 64-bit quantity in its low and its high register. -/
def lo64 (n : Nat) : Word := BitVec.ofNat 32 n
def hi64 (n : Nat) : Word := BitVec.ofNat 32 (n / 2 ^ 32)

/-! ### SYS and TIDE (R570 to R573, R80) -/

def State.sysStatus (s : State) : Word :=
  fld 0 s.sys.stage ||| fld 4 s.sys.profile.num ||| flag 6 s.sys.live ||| flag 7 s.sys.lastwords

def State.sysSupply (s : State) : Word :=
  fld 0 s.sys.vla.level.num ||| fld 2 s.sys.vlb.level.num ||| flag 4 s.sys.single ||| flag 5 s.sys.holdupOk

/-- WATCHDOG starts within the last 600 s (R568, R573). -/
def State.wdRecent (s : State) : Nat := (s.sys.wdStarts.filter fun t => decide (s.now < t + secs 600)).length

def State.sysResetCause (s : State) : Word :=
  fld 0 s.sys.cause.num ||| flag 3 s.sys.longRst ||| flag 4 s.sys.logicColdForced ||| fld 8 (min 255 s.wdRecent) |||
    fld 16 s.sys.structRestarts

/-- A register of the SYS block, but for the event register and its counters. -/
def State.sysReg (s : State) (o : Nat) : Word :=
  if o = 0 then fld 0 Config.revision.toNat ||| fld 8 0x0192
  else if o = 4 then s.sysStatus
  else if o = 0xC then s.sysResetCause
  else if o = 0x10 then s.sysSupply
  else if o = 0x14 then fld 0 (min 65535 s.sys.vla.mv) ||| fld 16 (min 65535 s.sys.vlb.mv)
  else if o = 0x18 then fld 0 s.sys.uninstBlock ||| fld 16 s.sys.uninstCount
  else if 0x20 ≤ o ∧ o < 0x40 then
    let k := (o - 0x20) / 4
    fld 0 (s.stageTime (2 * k)) ||| fld 16 (s.stageTime (2 * k + 1))
  else 0

/-- The plant angle of the active segment: position and segment (R56, R80). -/
def State.plantPos (s : State) : Nat := (s.plant.map (·.1)).getD 0
def State.plantSegment (s : State) : Nat := (s.plant.map (·.2)).getD 0

def State.markReg (s : State) (o : Nat) : Word :=
  let m := nth s.tide.marks (o / 16) {}
  if o % 16 = 0 then m.cfgWord
  else if o % 16 = 4 then m.angle
  else if o % 16 = 8 then BitVec.ofNat 32 m.cycle
  else m.fired

/-- A register of the TIDE block, but for the event register. -/
def State.tideReg (s : State) (o : Nat) : Word :=
  let t := s.tide
  if o = 0 then t.angle
  else if o = 4 then lo64 (t.posN / 2 ^ 32)
  else if o = 8 then hi64 (t.posN / 2 ^ 32)
  else if o = 0xC then s.ts32
  else if o = 0x10 then lo64 t.rate.toNat
  else if o = 0x14 then hi64 t.rate.toNat
  else if o = 0x18 then f32bits t.freq
  else if o = 0x20 then s.tideStatus
  else if o = 0x30 then BitVec.ofInt 32 t.offset
  else if o = 0x34 then fld 0 t.coastLeft
  else if o = 0x38 then fld 0 t.markStepLate
  else if o = 0x80 then s.pilotStatus
  else if o = 0x84 then f32bits t.pilot.freq
  else if o = 0x88 then f32bits t.pilot.rocof
  else if o = 0x8C then f32bits t.pilot.mag
  else if o = 0x90 then f32bits t.pilot.perr
  else if o = 0x94 then f32bits t.pilot.lastJump
  else if o = 0xA0 then BitVec.ofNat 32 s.plantPos
  else if o = 0xA4 then lo64 (s.plantPos / 2 ^ 32)
  else if o = 0xA8 then fld 0 (s.plantPos / 2 ^ 64 % 65536) ||| fld 16 (s.plantSegment % 16)
  else if o = 0xC0 then t.conv.ctrl
  else if o = 0xC4 then lo64 t.conv.ns.toNat
  else if o = 0xC8 then hi64 t.conv.ns.toNat
  else if o = 0xCC then t.conv.angle
  else if o = 0xD0 then lo64 t.conv.cycle.toNat
  else if o = 0xD4 then hi64 t.conv.cycle.toNat
  else if 0x100 ≤ o ∧ o < 0x120 then f32bits ((nth t.pow ((o - 0x100) / 4) {}).tb / 1000000)
  else if 0x1000 ≤ o ∧ o < 0x2000 then s.markReg (o - 0x1000)
  else 0

/-! ### ACQ (R150 to R153) -/

def Ain.bankWord (a : Ain) : Word := fld 0 a.stageTaps ||| fld 10 a.fadeLen

def State.acqChReg (s : State) (c o : Nat) : Word :=
  if o = 0 then s.acqChCfg c
  else ((s.ain? c).map fun a =>
    if o = 4 then a.status
    else if o = 8 then a.bankWord
    else if o = 0xC then a.stageCrc
    else if o = 0x10 then f32bits a.kpu
    else if o = 0x14 then fld 0 (dFast a.active.taps)
    else if o = 0x18 then fld 0 (dPhasor a.active.taps)
    else fld 0 a.ovrCnt).getD 0

/-- ACQ_COEF[c][b][i]. -/
def State.acqCoef (s : State) (o : Nat) : Word :=
  ((s.ain? (o / 0x600)).map fun a =>
    let b := if o % 0x600 < 0x300 then a.bankA else a.bankB
    (nth b.coef (o % 0x300 / 4) 0).setWidth 32).getD 0

def Pub.reg (p : Pub) (o : Nat) : Word :=
  if o = 0 then flag 0 true ||| flag 1 (p.rate == .fast) ||| fld 2 p.synch
  else if o = 4 then BitVec.ofNat 32 p.frames
  else 0

/-- A register of the ACQ block, but for the event register. -/
def State.acqReg (s : State) (o : Nat) : Word :=
  let a := s.acq
  if o = 0 then s.acqStatus
  else if o = 0x10 then fld 0 (s.alignPeriods .fast)
  else if o = 0x14 then fld 0 (s.alignPeriods .phasor)
  else if o = 0x18 then BitVec.ofNat 32 a.svLate
  else if o = 0x1C then fld 0 a.skip ||| fld 16 a.skipCh
  else if o = 0x20 then fld 0 a.activeWr ||| fld 16 a.activeWrCh
  else if 0x100 ≤ o ∧ o < 0x400 then s.acqChReg ((o - 0x100) / 0x20) (o % 0x20)
  else if 0x600 ≤ o ∧ o < 0x640 then ((a.pubs[(o - 0x600) / 16]?).map fun p => p.reg (o % 16)).getD 0
  else if 0x8000 ≤ o ∧ o < 0x11000 then s.acqCoef (o - 0x8000)
  else 0

/-! ### FIO (R331 to R336) -/

def State.fioGroupReg (s : State) (g o : Nat) : Word :=
  let x := s.fioGroup g
  if o = 0 then s.fioGCfg g
  else if o = 4 then s.fioGStatus g
  else if o = 8 then fld 0 (x.lplusMv % 65536)
  else if o = 0xC then s.fioGCounts g
  else if o = 0x10 then fld 0 (sfield 16 x.temp)
  else 0

/-- A register of a field channel; commands, status and diagnostics of a gang are those of its first member (R317). -/
def State.fioChReg (s : State) (n o : Nat) : Word :=
  let x := s.fioCh (s.gangLead n)
  if o = 0 then s.fioChCfg n
  else if o = 4 then s.fioChStatus n
  else if o = 8 then x.diag.bits
  else if o = 0xC then s.fioChCurrent n
  else if o = 0x10 then fld 0 (sfield 16 x.pinMv)
  else if o = 0x14 then x.lastEdge
  else if o = 0x18 then BitVec.ofNat 32 (nth s.diag.ledger.switches n 0)
  else 0

/-- A register of the FIO block, but for the event register. -/
def State.fioReg (s : State) (o : Nat) : Word :=
  if o = 0 then s.fioStatus
  else if 0x100 ≤ o ∧ o < 0x280 then s.fioGroupReg ((o - 0x100) / 0x20) (o % 0x20)
  else if 0x1000 ≤ o ∧ o < 0x2800 then s.fioChReg ((o - 0x1000) / 0x20) (o % 0x20)
  else if 0x3000 ≤ o ∧ o < 0x3018 then s.fioInState ((o - 0x3000) / 4)
  else if 0x3020 ≤ o ∧ o < 0x3038 then s.fioOutCmd ((o - 0x3020) / 4)
  else if 0x3040 ≤ o ∧ o < 0x3058 then s.fioOutLevel ((o - 0x3040) / 4)
  else 0

/-! ### CAPT and LOG (R396, R423) -/

def State.captEngReg (s : State) (ei o : Nat) : Word :=
  let e := s.engine ei
  if o = 0 then e.cfgWord
  else if o = 4 then e.status
  else if o = 8 then lo64 e.base
  else if o = 0xC then hi64 e.base
  else if o = 0x10 then BitVec.ofNat 32 e.ringRows
  else if o = 0x14 then BitVec.ofNat 32 e.chgSize
  else if o = 0x18 then BitVec.ofNat 32 e.pre
  else if o = 0x1C then BitVec.ofNat 32 e.post
  else if o = 0x20 then BitVec.ofNat 32 e.num
  else if o = 0x24 then fld 0 e.fill
  else if o = 0x28 then fld 0 (min 65535 e.waveGaps) ||| fld 16 (min 65535 e.lost)
  else if o = 0x2C then e.mask.setWidth 32
  else if o = 0x30 then (e.mask >>> 32).setWidth 32
  else if o = 0x34 then fld 0 (s.lockLeft e)
  else 0

/-- A register of the CAPT block, but for the event register. -/
def State.captReg (s : State) (o : Nat) : Word :=
  if o = 0 then s.captStatus
  else if o = 8 then
    fld 0 ((s.capt.engines.filter (·.created)).map fun e => e.cfg.chans.length).sum ||| fld 16 (captCeiling s.sys.profile)
  else if 0x100 ≤ o ∧ o < 0x200 then s.captEngReg ((o - 0x100) / 0x40) (o % 0x40)
  else 0

/-- What the ring slot of a sequence number holds: the window is a view of the slots (R406, R414). No record at or above LOG_NEXT and none of an
earlier epoch is visible: zeros (R419, R422). -/
def LogState.slotAt (l : LogState) (n : Nat) : List (BitVec 8) :=
  let byPlace := fun (bank : List LogRecord) (ring : Nat) => bank.find? fun r => decide (r.seq % ring = n % ring ∧ r.seq / 2 ^ 58 = l.epoch)
  let r := if l.next ≤ n || n / 2 ^ 58 != l.epoch then none else if l.reserve && decide (l.switch ≤ n) then byPlace l.bankB 32768 else byPlace l.bankA 327680
  (r.map LogRecord.bytes).getD (List.replicate 128 0)

def State.hatchReg (s : State) (o : Nat) : Word :=
  let h := nth s.log.hatches (o / 0x800) {}
  let r := o % 0x800
  if r = 0 then lo64 h.cursor.toNat
  else if r = 4 then h.cursorHi
  else if r = 8 then s.log.hatchStat (o / 0x800)
  else if 0x400 ≤ r then
    BitVec.ofNat 32 (ofLe (((s.log.slotAt (h.cursor.toNat + (r - 0x400) / 128)).drop (r % 128)).take 4))
  else 0

/-- TIME of the last repeat of an open tail, with TQ (R402, R409). -/
def LogState.tailTime (l : LogState) : Nat := (l.tail.map fun t => if t.count = 0 then 0 else timeWord t.lastTime t.lastTq).getD 0

/-- A register of the LOG block, but for the event register. -/
def State.logReg (s : State) (o : Nat) : Word :=
  let l := s.log
  let tailSeq := (l.tail.map (·.seq)).getD 0
  if o = 0 then s.logStatus
  else if o = 8 then lo64 l.next
  else if o = 0xC then hi64 l.next
  else if o = 0x10 then lo64 l.oldest
  else if o = 0x14 then hi64 l.oldest
  else if o = 0x18 then lo64 l.frozenFirst
  else if o = 0x1C then hi64 l.frozenFirst
  else if o = 0x20 then lo64 l.switch
  else if o = 0x24 then hi64 l.switch
  else if o = 0x28 then fld 0 l.staging.length ||| fld 16 l.peak
  else if o = 0x2C then BitVec.ofNat 32 l.lostTotal
  else if o = 0x30 then BitVec.ofNat 32 l.merged
  else if o = 0x34 then BitVec.ofNat 32 l.checkFail
  else if o = 0x38 then BitVec.ofNat 32 l.unselected
  else if o = 0x40 then lo64 tailSeq
  else if o = 0x44 then hi64 tailSeq
  else if o = 0x48 then BitVec.ofNat 32 ((l.tail.map (·.count)).getD 0)
  else if o = 0x4C then lo64 l.tailTime
  else if o = 0x50 then hi64 l.tailTime
  else if o = 0x60 then l.aon
  else if 0x1000 ≤ o ∧ o < 0x3000 then s.hatchReg (o - 0x1000)
  else 0

/-! ### NET and PTP (R457, R461) -/

def State.netPortReg (s : State) (p o : Nat) : Word :=
  let reg := fun (f : Port → Word) => ((s.port? p).map f).getD 0
  if o = 0 then s.netPCfg p
  else if o = 4 then s.netPStatus p
  else if o = 8 then reg (·.rxFrames)
  else if o = 0xC then reg (·.txFrames)
  else if o = 0x10 then reg fun x => BitVec.ofNat 32 x.fcsErr
  else if o = 0x14 then reg fun x => fld 0 x.drops ||| fld 16 x.filtered
  else if o = 0x18 then reg fun x => BitVec.ofNat 32 x.gateHold
  else 0

def State.netPairReg (s : State) (k o : Nat) : Word :=
  let reg := fun (f : Pair → Word) => ((s.pair? k).map f).getD 0
  if o = 0 then s.netPairCfg k
  else if o = 4 then s.netPairStatus k
  else if o = 8 then reg (·.dups)
  else if o = 0xC then reg fun x => fld 0 x.evict ||| fld 16 x.wrongLan
  else if o = 0x10 then reg fun x => fld 0 x.onlyFirst ||| fld 16 x.onlySecond
  else 0

def State.netGsubReg (s : State) (i o : Nat) : Word :=
  let reg := fun (f : Gsub → Word) => ((s.gsub? i).map f).getD 0
  if o = 0 then s.netGsubStatus i
  else if o = 4 then reg (·.stNum)
  else if o = 8 then reg fun x => fld 0 x.discarded ||| fld 16 x.rateRefused
  else reg (·.lastTs)

def State.netSvsubReg (s : State) (i o : Nat) : Word :=
  let reg := fun (f : Svsub → Word) => ((s.svsub? i).map f).getD 0
  if o = 0 then s.netSvsubStatus i
  else if o = 4 then reg fun x => BitVec.ofNat 32 x.missing
  else if o = 8 then reg fun x => fld 0 x.discarded ||| fld 16 x.rateRefused
  else reg (·.lastTs)

/-- A register of the NET block, but for the event register. -/
def State.netReg (s : State) (o : Nat) : Word :=
  let n := s.net
  if o = 0 then s.netStatus
  else if o = 8 then BitVec.ofNat 32 n.intakeRefused
  else if o = 0xC then fld 0 n.rateSv ||| fld 16 n.rateGoose
  else if o = 0x10 then fld 0 n.macs.length ||| fld 16 n.notLearnt
  else if 0x100 ≤ o ∧ o < 0x6A0 then s.netPortReg ((o - 0x100) / 0x20) (o % 0x20)
  else if 0x800 ≤ o ∧ o < 0x900 then s.netPairReg ((o - 0x800) / 0x20) (o % 0x20)
  else if 0x1000 ≤ o ∧ o < 0x3000 then s.netGsubReg ((o - 0x1000) / 16) (o % 16)
  else if 0x3000 ≤ o ∧ o < 0x3800 then s.netSvsubReg ((o - 0x3000) / 16) (o % 16)
  else if 0x4000 ≤ o ∧ o < 0x4400 then
    ((s.gpub? ((o - 0x4000) / 16)).map fun x => if o % 16 = 0 then x.stNum else if o % 16 = 4 then x.sent else 0).getD 0
  else 0

/-- The registers of PTP with the snapshot registers of the time and the grandmaster (R461). -/
def State.ptpWord (s : State) (o : Nat) : Word :=
  if o = 8 then BitVec.ofNat 32 (s.ltc % 1000000000)
  else if o = 0xC then lo64 s.ptpSec
  else if o = 0x10 then fld 0 (s.ptpSec / 2 ^ 32 % 65536)
  else if o = 0x14 then s.ts32
  else if o = 0x30 then lo64 s.ptp.gmId.toNat
  else if o = 0x34 then hi64 s.ptp.gmId.toNat
  else s.ptpReg o

/-! ### CHK (R476, R478, R479) -/

def ChkEngine.reg (e : ChkEngine) (o : Nat) : Word :=
  if o = 0 then e.ctrl
  else if o = 4 then e.addrLo
  else if o = 8 then e.addrHi
  else if o = 0xC then e.len
  else if o = 0x10 then e.raw
  else if o = 0x14 then e.result
  else if o = 0x18 then flag 0 e.busy ||| flag 1 e.done ||| fld 2 e.err.num
  else 0

/-- A register of the CHK block, but for the event register. -/
def State.chkReg (s : State) (o : Nat) : Word :=
  let c := s.chk
  let each := fun (p : Nat) (f : ChkEngine → Bool) => c.engines.zipIdx.foldl (fun w x => w ||| flag (p + x.2) (f x.1)) (0 : Word)
  if o = 0 then each 0 (·.busy) ||| each 8 (·.done) ||| each 16 (fun e => e.err != .none) ||| flag 24 c.katOk
  else if o = 8 then fld 0 c.resync
  else if o = 0xC then BitVec.ofNat 32 c.skip
  else if o = 0x10 then BitVec.ofNat 32 c.stale
  else if o = 0x14 then fld 0 c.busyWr ||| fld 16 c.busyWrEngine
  else if 0x40 ≤ o ∧ o < 0x68 then BitVec.ofNat 32 (nth c.pathFail ((o - 0x40) / 4) 0)
  else if 0x100 ≤ o ∧ o < 0x200 then (nth c.engines ((o - 0x100) / 0x20) {}).reg (o % 0x20)
  else 0

/-! ### HOST (R512, R513, R598 to R600) -/

def State.hostStatus (s : State) : Word :=
  let h := s.host
  flag 0 h.linkUp ||| flag 1 h.ready ||| flag 2 s.sec.bare ||| flag 3 s.clk.degraded |||
    h.rings.zipIdx.foldl (fun w r => w ||| flag (4 + r.2) r.1.enable) 0 ||| flag 20 (h.rings.any (·.error))

/-- Berths in use, and those of the shared ones that are free (R487, R491). -/
def HostState.inUse (h : HostState) : Nat := (h.berths.filter Option.isSome).length
def HostState.sharedFree (h : HostState) : Nat :=
  128 - (h.sources.map fun x => x.cfg.berths).sum - (h.berths.filter fun b => b.any fun i => !i.reserved).length

/-- The tokens of a source now (R490, R512). -/
def State.tokensNow (s : State) (x : Source) : Num :=
  let t := x.tokens + (x.cfg.rate : Num) * ((s.now - x.tTok : Nat) : Num) / 1000000000
  if (x.cfg.depth : Num) < t then x.cfg.depth else t

def CmdRing.reg (r : CmdRing) (o : Nat) : Word :=
  if o = 0 then flag 0 r.enable ||| flag 1 r.error ||| fld 2 r.size ||| fld 8 r.holdoff
  else if o = 4 then lo64 r.sqBase.toNat
  else if o = 8 then hi64 r.sqBase.toNat
  else if o = 0xC then lo64 r.cqBase.toNat
  else if o = 0x10 then hi64 r.cqBase.toNat
  else if o = 0x18 then fld 0 r.head
  else if o = 0x20 then fld 0 r.tail
  else 0

def State.sourceReg (s : State) (x : Source) (o : Nat) : Word :=
  if o = 0 then x.accepted
  else if o = 4 then fld 0 x.refused ||| fld 24 x.lastReason
  else if o = 8 then f32bits (s.tokensNow x)
  else 0

def MsixEntry.reg (m : MsixEntry) (o : Nat) : Word :=
  if o = 0 then lo64 m.addr.toNat
  else if o = 4 then hi64 m.addr.toNat
  else if o = 8 then m.data
  else flag 0 m.masked

/-- A register of the HOST block, but for the event register. -/
def State.hostReg (s : State) (o : Nat) : Word :=
  let h := s.host
  if o = 0 then s.hostStatus
  else if o = 8 then fld 0 h.err ||| fld 3 h.errBar ||| flag 5 h.errWrite ||| fld 6 h.errNode ||| fld 16 h.errCount
  else if o = 0xC then lo64 h.errAddr.toNat
  else if o = 0x10 then hi64 h.errAddr.toNat
  else if o = 0x14 then fld 0 h.inUse ||| fld 8 h.peak ||| fld 16 h.sharedFree
  else if o = 0x18 then BitVec.ofNat 32 h.cplDropped
  else if o = 0x1C then fld 0 h.forwards.length ||| fld 16 h.noAnswer
  else if o = 0x20 then h.irqMask
  else if 0x30 ≤ o ∧ o < 0x40 then
    (List.range 32).foldl (fun w i => w ||| flag i ((h.berths[(o - 0x30) / 4 * 32 + i]?).join).isSome) 0
  else if 0x100 ≤ o ∧ o < 0x500 then (nth h.rings ((o - 0x100) / 0x40) {}).reg (o % 0x40)
  else if o = 0x800 then flag 0 h.frTx ||| flag 1 h.frRx ||| fld 2 h.frTxSize ||| fld 6 h.frRxSize
  else if o = 0x804 then lo64 h.frTxBase.toNat
  else if o = 0x808 then hi64 h.frTxBase.toNat
  else if o = 0x80C then lo64 h.frRxBase.toNat
  else if o = 0x810 then hi64 h.frRxBase.toNat
  else if 0x1000 ≤ o ∧ o < 0x1120 then s.sourceReg (nth h.sources ((o - 0x1000) / 16) {}) (o % 16)
  else if 0x2000 ≤ o ∧ o < 0x2200 then (nth h.msix ((o - 0x2000) / 16) {}).reg (o % 16)
  else if o = 0x3000 then h.pba
  else if o = 0x4000 then flag 0 h.winBar4 ||| flag 1 h.winBar4Wr
  else if o = 0x4004 then fld 0 h.regs.length ||| flag 6 s.harbour ||| flag 7 (!s.clk.dramRetraining && !s.clk.isStopped 5)
  else if o = 0x4008 then fld 0 h.bar2Drop ||| fld 16 h.bar2Poisoned
  else if o = 0x400C then fld 0 h.regSent ||| fld 16 h.regErrors
  else if o = 0x4010 then fld 0 h.bar0Bad
  else 0

/-! ### SEC (R549, R550, R552) -/

/-- The slot and overlay that are live, the latter empty in the bare state (R544). -/
def SecState.liveOverlay (x : SecState) : List OverlayRec := if x.live then (x.slot x.liveB).overlay else []

/-- A Manifest in slot B is live and not yet promoted (R536). -/
def SecState.trial (x : SecState) : Bool := x.live && x.liveB

def SecState.status (x : SecState) : Word :=
  flag 0 (x.live && x.liveB) ||| flag 1 x.bare ||| flag 2 x.trial ||| flag 3 x.root.isSome ||| flag 4 (!x.activations.isEmpty) |||
    x.proposals.zipIdx.foldl (fun w p => w ||| flag (5 + p.2) (p.1.phase != .empty)) 0 ||| flag 9 (decide (4096 ≤ x.liveOverlay.length))

def Slot.word (x : Slot) : Word :=
  fld 0 x.phase.num ||| flag 2 x.rejected ||| (x.image.map fun i => fld 3 i.body.struct.profile.num ||| fld 8 i.rollback).getD 0

def KeySlot.reg (k : KeySlot) (o : Nat) : Word :=
  if o = 0 then flag 0 k.present ||| (if k.present then fld 1 k.role.num else 0) ||| flag 3 k.bad
  else if o = 4 then (if k.present then Config.keyFp k.key else 0)
  else if o = 8 then lo64 k.nonce.toNat
  else hi64 k.nonce.toNat

/-- SEC_PROP_LEFT: seconds left in the window, rounded up (R552). -/
def Proposal.left (p : Proposal) (now : Ns) : Nat := if p.phase = .pending then (p.windowEnd - now + 999999999) / 1000000000 else 0

def State.propReg (s : State) (p : Proposal) (o : Nat) : Word :=
  if o = 0 then
    fld 0 p.phase.num ||| fld 2 p.lastEnd.num ||| fld 8 ((p.body.map (·.items.length)).getD 0) ||| fld 17 p.propSlot ||| fld 20 p.confSlot
  else if o = 4 then lo64 p.id.toNat
  else if o = 8 then hi64 p.id.toNat
  else fld 0 (p.left s.now)

/-- A register of the SEC block, but for the event register. -/
def State.secReg (s : State) (o : Nat) : Word :=
  let x := s.sec
  if o = 0 then x.status
  else if o = 8 then fld 0 x.slotA.shown ||| fld 4 x.slotA.section_ ||| fld 8 x.slotB.shown ||| fld 12 x.slotB.section_
  else if o = 0xC then x.slotA.word
  else if o = 0x10 then x.slotB.word
  else if 0x14 ≤ o ∧ o < 0x24 then (x.liveId >>> (8 * (o - 0x14))).setWidth 32
  else if o = 0x24 then fld 0 x.floor ||| fld 8 (if x.live then x.liveRollback else 0)
  else if o = 0x28 then fld 0 x.device ||| fld 16 x.deviceLeft
  else if o = 0x2C then x.tallyKey.zipIdx.foldl (fun w k => w ||| fld (4 * k.2) k.1) 0
  else if o = 0x30 then fld 0 x.tallyRollback ||| fld 8 x.tallyEpoch
  else if o = 0x34 then fld 0 x.liveOverlay.length ||| fld 16 (((x.liveOverlay.map (·.bytes)).sum + 1023) / 1024)
  else if 0x100 ≤ o ∧ o < 0x180 then (nth x.keys ((o - 0x100) / 16) {}).reg (o % 16)
  else if 0x200 ≤ o ∧ o < 0x240 then s.propReg (nth x.proposals ((o - 0x200) / 16) {}) (o % 16)
  else 0

/-! ### Items that are created (R32) -/

/-- A block is created: always for the blocks that the structure does not make; else by the live Manifest, when it has an item of the block. -/
def State.blkCreated (s : State) (b : Blk) : Bool :=
  match b with
  | .sys | .clk | .log | .chk | .host | .sec | .diag => true
  | .tide | .adeid => s.sys.live && !s.sys.dead.contains b
  | .acq => s.sys.live && !(s.acq.chans.isEmpty && s.acq.pubs.isEmpty)
  | .prot => s.sys.live && !(s.prot.elems.isEmpty && s.prot.trips.isEmpty)
  | .diff => s.sys.live && !s.diff.zones.isEmpty
  | .form => s.sys.live && !s.form.units.isEmpty
  | .gate => s.sys.live && !s.gate.links.isEmpty
  | .logic => s.sys.live && (!s.logic.tasks.isEmpty || s.logic.stations.any fun x => x.phase != .none)
  | .fio => s.sys.live && s.fio.groups.any (·.created)
  | .capt => s.sys.live && s.capt.engines.any (·.created)
  | .net => s.sys.live && !s.net.ports.isEmpty
  | .ptp => s.sys.live && !s.ptp.ports.isEmpty

/-! ### Event counters (R593, R594) -/

/-- The W1C register of a counter slot; the counters of a block that is not created read zero (R593, R595). -/
def State.slotEvent (s : State) (j : Nat) : Option W1C :=
  if j < 19 then (allBlks[j]?).bind fun b => if s.blkCreated b then some (s.eventOf b) else none
  else if j < 211 then (if s.blkCreated .fio then some (s.fioCh (j - 19)).diag else none)
  else none

/-- The block that answers for a BAR0 offset: an event counter is held in its owning block (R595). -/
def servingBlk (off : Nat) : Blk :=
  let j := (off - 0x8000) / 0x20
  if 0x8000 ≤ off ∧ off < 0x10000 then (if j < 19 then (allBlks[j]?).getD .sys else if j < 211 then .fio else .sys) else blkAt off

/-- SYS_EVCNT[j][i], live (R594). -/
def State.evcnt (s : State) (j i : Nat) : Word :=
  match s.slotEvent j with
  | none => 0
  | some e => (List.range 4).foldl (fun w k => w ||| fld (8 * k) (nth e.cnt (4 * i + k) 0)) 0

/-! ### Every register -/

/-- The live value of a register, by its block and its offset within it (R591): an offset that no register occupies reads zero. -/
def State.blkReg (s : State) (b : Blk) (o : Nat) : Word :=
  if o = eventAt b then (s.eventOf b).bits else
    match b with
    | .sys => if o < 0x8000 then s.sysReg o else s.evcnt ((o - 0x8000) / 0x20) (o % 0x20 / 4)
    | .clk => s.clkReg o
    | .tide => s.tideReg o
    | .acq => s.acqReg o
    | .prot => s.protReg o
    | .diff => s.diffReg o
    | .form => s.formReg o
    | .gate => s.gateReg o
    | .logic => s.logicReg o
    | .fio => s.fioReg o
    | .capt => s.captReg o
    | .log => s.logReg o
    | .net => s.netReg o
    | .ptp => s.ptpWord o
    | .chk => s.chkReg o
    | .host => s.hostReg o
    | .adeid => s.adeidReg o
    | .sec => s.secReg o
    | .diag => s.diagReg o

/-! ### Items and their offsets (R32) -/

/-- The item that an offset belongs to is created; an offset outside every item goes with its block. -/
def State.itemCreated (s : State) (b : Blk) (o : Nat) : Bool :=
  s.blkCreated b && match b with
  | .acq =>
    if 0x100 ≤ o ∧ o < 0x400 then (s.ain? ((o - 0x100) / 0x20)).isSome
    else if 0x600 ≤ o ∧ o < 0x640 then decide ((o - 0x600) / 16 < s.acq.pubs.length)
    else if 0x8000 ≤ o ∧ o < 0x11000 then (s.ain? ((o - 0x8000) / 0x600)).isSome
    else true
  | .prot =>
    if 0x1000 ≤ o ∧ o < 0x1200 then (s.trip? ((o - 0x1000) / 8)).isSome
    else if 0x10000 ≤ o ∧ o < 0x20000 then (s.elem? ((o - 0x10000) / 16)).isSome
    else true
  | .tide => if 0x100 ≤ o ∧ o < 0x120 then decide ((o - 0x100) / 4 < s.tideCfg.pow.length) else true
  | .diff => if 0x1000 ≤ o ∧ o < 0x2000 then (s.zone? ((o - 0x1000) / 0x40)).isSome else true
  | .form =>
    if 0x1000 ≤ o ∧ o < 0x1400 then (s.fu? ((o - 0x1000) / 0x100)).isSome
    else if 0x3000 ≤ o ∧ o < 0x3200 then (s.bridge ((o - 0x3000) / 0x40)).unit.isSome || (s.gateLink? ((o - 0x3000) / 0x40)).isSome
    else true
  | .gate => if 0x100 ≤ o ∧ o < 0x300 then (s.gateLink? ((o - 0x100) / 0x40)).isSome else true
  | .logic =>
    if 0x100 ≤ o ∧ o < 0x200 then (s.task? ((o - 0x100) / 0x20)).isSome
    else if 0x300 ≤ o ∧ o < 0x380 then decide ((o - 0x300) / 0x10 < s.logic.groups.length)
    else if 0x400 ≤ o ∧ o < 0x640 then (s.station ((o - 0x400) / 16)).phase != .none
    else true
  | .fio =>
    if 0x100 ≤ o ∧ o < 0x280 then (s.fioGroup ((o - 0x100) / 0x20)).created
    else if 0x1000 ≤ o ∧ o < 0x2800 then (s.fioCh ((o - 0x1000) / 0x20)).cfg.isSome
    else true
  | .capt => if 0x100 ≤ o ∧ o < 0x200 then (s.engine ((o - 0x100) / 0x40)).created else true
  | .net =>
    if 0x100 ≤ o ∧ o < 0x6A0 then (s.port? ((o - 0x100) / 0x20)).isSome
    else if 0x800 ≤ o ∧ o < 0x900 then (s.pair? ((o - 0x800) / 0x20)).isSome
    else if 0x1000 ≤ o ∧ o < 0x3000 then (s.gsub? ((o - 0x1000) / 16)).isSome
    else if 0x3000 ≤ o ∧ o < 0x3800 then (s.svsub? ((o - 0x3000) / 16)).isSome
    else if 0x4000 ≤ o ∧ o < 0x4400 then (s.gpub? ((o - 0x4000) / 16)).isSome
    else true
  | .ptp => if 0x100 ≤ o ∧ o < 0x3C0 then (s.ptpPort? ((o - 0x100) / 16)).isSome else true
  | _ => true

/-- What a register reads without any snapshot: zero for an item that is not created (R32); of a channel that is not created, ACQ_CH_CFG
says so in its own fields (R151). -/
def State.liveReg (s : State) (b : Blk) (o : Nat) : Word :=
  if s.itemCreated b o then s.blkReg b o
  else if b = .acq ∧ s.blkCreated .acq ∧ 0x100 ≤ o ∧ o < 0x400 ∧ o % 0x20 = 0 then s.blkReg b o
  else 0

/-! ### Snapshots (R10, R111) -/

/-- The registers, by offset in the block, of which a read of offset `o` takes a snapshot. -/
def snapGroup (b : Blk) (o : Nat) : List Nat :=
  match b with
  | .sys => if o = 4 then [0x10, 0x14] else if 0x8000 ≤ o ∧ o % 0x20 = 0 then (List.range 7).map fun i => o + 4 * (i + 1) else []
  | .tide =>
    if o = 0 then [4, 8, 0xC, 0x10, 0x14] else if o = 0xA0 then [0xA4, 0xA8] else if o = 0xC4 then [0xC8] else if o = 0xD0 then [0xD4] else []
  | .prot => if o = 0x30 then [0x34] else if o = 0x44 then [0x48, 0x4C, 0x50] else []
  | .diff => if 0x1000 ≤ o ∧ o < 0x2000 ∧ o % 0x40 = 0x10 then [8, 0xC, 0x14, 0x18, 0x1C, 0x20, 0x24, 0x28, 0x2C, 0x38].map (o - 0x10 + ·) else []
  | .form => if 0x1000 ≤ o ∧ o < 0x1400 ∧ o % 0x100 = 0x10 then [o - 4, o + 4, o + 8] else []
  | .logic => if 0x300 ≤ o ∧ o < 0x380 ∧ o % 0x10 = 0 then [o + 4] else []
  | .fio => if o = 0x3000 then (List.range 5).map (fun i => 0x3004 + 4 * i) ++ (List.range 6).map (fun i => 0x3020 + 4 * i) ++ (List.range 6).map fun i => 0x3040 + 4 * i else []
  | .capt => if 0x100 ≤ o ∧ o < 0x200 ∧ (o % 0x40 = 0x2C ∨ o % 0x40 = 8) then [o + 4] else []
  | .log =>
    if o = 8 then [0xC, 0x10, 0x14] else if o = 0x10 then [0x14] else if o = 0x18 then [0x1C] else if o = 0x20 then [0x24]
    else if o = 0x40 then [0x44, 0x48, 0x4C, 0x50] else if 0x1000 ≤ o ∧ o < 0x3000 ∧ o % 0x800 = 0 then [o + 4] else []
  | .chk => if 0x100 ≤ o ∧ o < 0x200 ∧ o % 0x20 = 4 then [o + 4] else []
  | .ptp => if o = 8 then [0xC, 0x10, 0x14] else if o = 0x30 then [0x34] else []
  | .host =>
    if o = 0xC then [8, 0x10] else if 0x100 ≤ o ∧ o < 0x500 ∧ (o % 0x40 = 4 ∨ o % 0x40 = 0xC) then [o + 4]
    else if o = 0x804 ∨ o = 0x80C ∨ (0x2000 ≤ o ∧ o < 0x2200 ∧ o % 16 = 0) then [o + 4] else []
  | .adeid => if o = 0x10 then [0x14] else if o = 0x18 then [0x1C] else []
  | .sec => if 0x100 ≤ o ∧ o < 0x180 ∧ o % 16 = 8 then [o + 4] else if 0x200 ≤ o ∧ o < 0x240 ∧ o % 16 = 4 then [o + 4] else []
  | _ => []

/-- A register that is read only from a snapshot: its low word is among the registers before or after it in its item. -/
def snapLow (b : Blk) (o : Nat) : Bool :=
  match b with
  | .sys => o = 0x10 || o = 0x14 || (decide (0x8000 ≤ o) && o % 0x20 != 0)
  | .tide => [4, 8, 0xC, 0x10, 0x14, 0xA4, 0xA8, 0xC8, 0xD4].contains o
  | .prot => [0x34, 0x48, 0x4C, 0x50].contains o
  | .diff => decide (0x1000 ≤ o ∧ o < 0x2000) && [8, 0xC, 0x14, 0x18, 0x1C, 0x20, 0x24, 0x28, 0x2C, 0x38].contains (o % 0x40)
  | .form => decide (0x1000 ≤ o ∧ o < 0x1400) && [0xC, 0x14, 0x18].contains (o % 0x100)
  | .logic => decide (0x300 ≤ o ∧ o < 0x380 ∧ o % 0x10 = 4)
  | .fio => decide (0x3004 ≤ o ∧ o < 0x3018 ∨ 0x3020 ≤ o ∧ o < 0x3038 ∨ 0x3040 ≤ o ∧ o < 0x3058)
  | .capt => decide (0x100 ≤ o ∧ o < 0x200 ∧ (o % 0x40 = 0x30 ∨ o % 0x40 = 0xC))
  | .log => [0xC, 0x14, 0x1C, 0x24, 0x44, 0x48, 0x4C, 0x50].contains o || decide (0x1000 ≤ o ∧ o < 0x3000 ∧ o % 0x800 = 4)
  | .chk => decide (0x100 ≤ o ∧ o < 0x200 ∧ o % 0x20 = 8)
  | .ptp => [0xC, 0x10, 0x14, 0x34].contains o
  | .host =>
    [8, 0x10, 0x808, 0x810].contains o ||
      decide (0x100 ≤ o ∧ o < 0x500 ∧ (o % 0x40 = 8 ∨ o % 0x40 = 0x10) ∨ 0x2000 ≤ o ∧ o < 0x2200 ∧ o % 16 = 4)
  | .adeid => o = 0x14 || o = 0x1C
  | .sec => decide (0x100 ≤ o ∧ o < 0x180 ∧ o % 16 = 12 ∨ 0x200 ≤ o ∧ o < 0x240 ∧ o % 16 = 8)
  | _ => false

/-- The requester's snapshot of a register, zero when it has none (R111). -/
def State.snapOf (s : State) (who : Requester) (off : Nat) : Word :=
  ((s.snaps.find? fun x => x.who == who && x.offset == off).map (·.value)).getD 0

/-- The requester takes a snapshot of a register (R10, R111). -/
def State.takeSnap (s : State) (who : Requester) (off : Nat) (v : Word) : State :=
  { s with snaps := { who, offset := off, value := v } :: s.snaps.filter fun x => !(x.who == who && x.offset == off) }

/-- A read of a low word: the registers of its group are snapshotted for the requester at this instant. -/
def State.takeGroup (s : State) (who : Requester) (b : Blk) (o : Nat) : State :=
  s.forEach (snapGroup b o) fun t o' => t.takeSnap who (blkBase b + o') (s.liveReg b o')

/-- The last read in the LOG block by a requester, kept beside its snapshots under the offset at which BAR0 ends (R423). -/
def State.lastLogRead (s : State) (who : Requester) : Option Nat :=
  (s.snaps.find? fun x => x.who == who && x.offset == bar0Size).map (·.value.toNat)

def State.noteLogRead (s : State) (who : Requester) (b : Blk) (o : Nat) : State :=
  s.when (b = .log) fun s => s.takeSnap who bar0Size (BitVec.ofNat 32 o)

/-- LOG_OLDEST_LO directly after LOG_NEXT returns the snapped value (R423). -/
def State.oldestSnapped (s : State) (who : Requester) (b : Blk) (o : Nat) : Bool :=
  decide (b = .log ∧ o = 0x10) && ((s.lastLogRead who == some 8) || (s.lastLogRead who == some 0xC))

/-- What a read of a register returns, and the snapshot that it takes (R10, R111, R423). -/
def State.readSnap (s : State) (who : Requester) (b : Blk) (o : Nat) : Word × State :=
  let t := s.noteLogRead who b o
  if s.oldestSnapped who b o || snapLow b o then ((if s.itemCreated b o then s.snapOf who (blkBase b + o) else 0), t)
  else (s.liveReg b o, t.takeGroup who b o)

end Sys2Proof.Machine
end

