-- ==== Sys2Proof/Machine/RegRead.lean ====
section
/-! DEFINITION. Operations of register reads: side effects, failed accesses, and the intake of events into the logbook with its snapshot words (spec/19_register_map.md R591, R592; spec/12_logbook.md R407, R408, R413). -/

namespace Sys2Proof.Machine

open Sys2Proof

/-! ### Failed accesses (R481, R113, R115) -/

/-- An access over a BAR ends in error: HOST_ERR and its address are written (R481). -/
def State.hostErr (s : State) (cause bar : Nat) (write : Bool) (node addr : Nat) : State :=
  (s.onHost fun h =>
    { h with err := cause, errBar := bar, errWrite := write, errNode := node, errAddr := BitVec.ofNat 64 addr
             errCount := satInc 16 h.errCount }).raise .host 6

/-- The domain of a block is stopped (R114); a block that is not created is not stopped. -/
def State.blkStopped (s : State) (b : Blk) : Bool := s.blkCreated b && s.clk.isStopped (blkDomain b)

/-- A crossing into the block's domain waits for its re-alignment after a partner reset (R112, R113). -/
def State.blkRealigns (s : State) (b : Blk) : Bool :=
  s.blkCreated b && s.clk.xings.any fun x => x.domain == blkDomain b && x.partnerReset

/-- A host access to a stopped domain is counted with the domain (R115). -/
def State.accessErr (s : State) (b : Blk) (write : Bool) : State :=
  s.onClk fun c =>
    { c with accessErrCount := satInc 16 c.accessErrCount, accessErrDomain := blkDomain b, accessErrWrite := write }

/-- An internal write that a partner reset discards is counted (R113). -/
def State.xingDropped (s : State) : State := s.onClk fun c => { c with presetDropped := satInc 8 c.presetDropped }

/-- How a failed access completes: a read with Completer Abort, a write dropped (R115). -/
def failedEnd (write : Bool) : AccessEnd := if write then .written else .abort

/-- A host access to BAR0 whose block cannot answer: its domain is stopped, or a crossing realigns (R113, R115). -/
def State.bar0Blocked (s : State) (off : Nat) (write : Bool) : Option State :=
  let b := servingBlk off
  if s.blkStopped b then some (((s.accessErr b write).hostErr 1 0 write 0 off).answer (failedEnd write))
  else if s.blkRealigns b then some ((s.hostErr 2 0 write 0 off).answer (failedEnd write))
  else none

/-- SYS_UNINST records an access to an item that is not created (R32). -/
def State.noteUninst (s : State) (b : Blk) : State :=
  (s.onSys fun y => { y with uninstBlock := b.num, uninstCount := satInc 16 y.uninstCount }).raise .sys 5

/-! ### Reads (R592) -/

/-- The Hatch whose STAT register lies at an offset of LOG. -/
def hatchStatAt (o : Nat) : Option Nat := if 0x1000 ≤ o ∧ o < 0x3000 ∧ o % 0x800 = 8 then some ((o - 0x1000) / 0x800) else none

/-- The side effects of a BAR0 read on counts and peaks (R411, R417, R512, R592). -/
def State.readEffect (s : State) (b : Blk) (o : Nat) : State :=
  match b with
  | .log =>
    if o = 0x28 then s.onLog fun l => { l with peak := l.staging.length }
    else match hatchStatAt o with
      | some h =>
        let c := (nth s.log.hatches h {}).cursor.toNat
        let bad := ((List.range 8).map (c + ·)).filter fun n => s.log.status n == 1
        (s.forEach bad State.checkFailed).onLog fun l => { l with hatches := updAt l.hatches h fun x => { x with stat := s.log.hatchStat h } }
      | none => s
  | .host => if o = 0x14 then s.onHost fun h => { h with peak := h.inUse } else s
  | _ => s

/-- A BAR0 read by a host, or by the harbour's host from another node: the value and its effects (R10, R32, R591, R592). -/
def State.readReg (s : State) (who : Requester) (off : Nat) : Word × State :=
  let b := blkAt off
  let o := off - blkBase b
  let r := s.readSnap who b o
  (r.1, if s.itemCreated b o then r.2.readEffect b o else r.2.noteUninst b)

/-- A read by a requester inside the device: into a stopped domain it waits, and during a re-alignment it returns zero with an error flag
(R113, R114). -/
def State.internalRead (s : State) (who : Requester) (off : Nat) : State :=
  let b := servingBlk off
  if s.blkStopped b then s
  else if s.blkRealigns b then s.answer .zeroErr
  else let r := s.readReg who off
       r.2.answer (.data r.1)

/-- A read of one register by a requester: the host over BAR0, a LOGIC core or an internal reader (R111, R113, R115, R481, R591). -/
def State.bar0Read (s : State) (who : Requester) (off : Nat) : State :=
  match who with
  | .host =>
    match s.bar0Blocked off false with
    | some t => t
    | none => let r := s.readReg who off
              r.2.answer (.data r.1)
  | _ => s.internalRead who off

/-! ### Intake of events (R403, R407, R408, R410, R413) -/

/-- A snapshot word, and whether it could not be read (R413). The logbook is a requester of its own (R111). -/
def State.snapWord (s : State) (off : Nat) : (Word × Bool) × State :=
  let b := blkAt off
  let o := off - blkBase b
  if s.clk.isStopped (blkDomain (servingBlk off)) || s.blkRealigns (servingBlk off) || !s.itemCreated b o then ((0, true), s)
  else let r := s.readSnap (.reader 0) b o
       ((r.1, false), r.2)

/-- The snapshot words of a list of registers, in order, and whether one could not be read. -/
def State.snapWords : List Nat → State → (List Word × Bool) × State
  | [], s => (([], false), s)
  | o :: l, s =>
    let r := s.snapWord o
    let t := r.2.snapWords l
    ((r.1.1 :: t.1.1, r.1.2 || t.1.2), t.2)

/-- The record of an event as LOG takes it in (R402, R403, R412, R413). -/
def State.takeRecord (s : State) (e : Event) : LogRecord × State :=
  let r := s.logRecord e.name e.source e.time e.payload
  match e.words with
  | some w => ({ r with snap := w }, s)
  | none =>
    let w := s.snapWords (((s.logSetting e.name).snapshot).take 16)
    ({ r with snap := w.1.1, snapPartial := w.1.2 }, w.2)

/-- An occurrence merges into a staging entry: its count, last time and last words (R408). -/
def StageEntry.merge (e : StageEntry) (r : LogRecord) : StageEntry :=
  { e with count := e.count + 1, lastTime := r.time, lastTq := r.tq, lastSnap := r.snap, lastPartial := r.snapPartial }

/-- An occurrence merges into the tail; a ready tail opens (R408, R409). -/
def Tail.merge (t : Tail) (r : LogRecord) (now : Ns) : Tail :=
  { t with count := t.count + 1, lastTime := r.time, lastTq := r.tq, lastSnap := r.snap, lastPartial := r.snapPartial
           openedAt := if t.count = 0 then now else t.openedAt }

def State.countMerge (s : State) : State := s.onLog fun l => { l with merged := wrapInc 32 l.merged }

/-- Whether an event merges, and into what (R408): the newest staging entry, or with an empty ring the tail. -/
def State.logMerge (s : State) (r : LogRecord) : Option State :=
  if !(s.logSetting r.name).merge then none else
    match s.log.staging.getLast? with
    | some e =>
      if e.rcd.name = r.name ∧ e.rcd.source = r.source then
        some ((s.onLog fun l => { l with staging := l.staging.dropLast ++ [e.merge r] }).countMerge)
      else none
    | none =>
      match s.log.tail with
      | none => none
      | some t =>
        if t.name = r.name ∧ t.source = r.source then
          let s := if t.count = 2 ^ 32 - 1 then s.closeTail .count else s
          let s := (s.onLog fun l => { l with tail := l.tail.map fun t => t.merge r s.now }).countMerge
          some (s.when (s.passed s.log.tailWritten 100000) fun s => s.onLog fun l => l.writeTail true s.now)
        else none

/-- LOG takes in an event (R407, R408, R410, R412, R421). -/
def State.logTake (s : State) (e : Event) : State :=
  if s.log.lastwords then s.onLog fun l => { l with refusedLw := l.refusedLw + 1 }
  else if !(s.logSetting e.name).record then s.onLog fun l => { l with unselected := satInc 32 l.unselected }
  else
    let x := s.takeRecord e
    let s := x.2
    if !s.log.stagingOpen then s.logLose x.1
    else if s.log.bothFail then s.onLog fun l => { l with lostTotal := satInc 32 l.lostTotal }
    else match s.logMerge x.1 with
      | some t => t
      | none =>
        if s.log.overflow.isSome || decide (255 ≤ s.log.staging.length) then s.logLose x.1
        else s.stagePut { rcd := x.1 }

/-- The oldest reported event is taken in. -/
def State.logIntake (s : State) : State :=
  match s.log.reported with
  | [] => s
  | e :: rest => (s.onLog fun l => { l with reported := rest }).logTake e

/-- Every reported event is taken in, in order. -/
def State.logIntakeAll (s : State) : State :=
  (s.onLog fun l => { l with reported := [] }).forEach s.log.reported State.logTake

/-- Staging opens at 30 ms: the LOG_LOST record of the interval since T0 is its first entry (R407). -/
def State.openStaging (s : State) : State :=
  let s := s.logIntakeAll
  let s := s.onLog fun l => { l with stagingOpen := true }
  match s.log.overflow with
  | none => s
  | some o => (s.onLog fun l => { l with overflow := none }).stagePut { rcd := s.lostRecord o }

end Sys2Proof.Machine
end

