-- ==== Sys2Proof/Machine/Reg.lean ====
section
/-! DEFINITION. Register reads with a side effect, accesses that find no item or a stopped domain, the capture window, and the intake of events (spec/19_register_map.md R591 to R596, spec/12_logbook.md R407). -/

namespace Sys2Proof.Machine

open Sys2Proof

/-- Inside BAR0, an access has its effect; beyond it there is no register (R480, R590). -/
def inBar0 (off : Nat) (s : State) : Out := if off < bar0Size then .next s else .fault .outsideBar0

/-- A read of a register by a requester: a low word takes the requester's snapshot of the words that go with it, and those words read
from that snapshot (R10, R111, R423). -/
def execSnapshotLowWordRead (who : Requester) (offset : Nat) (s : State) : Out := inBar0 offset (s.bar0Read who (offset / 4 * 4))

/-- A read of word 0 of a slot returns the live counters and snapshots words 1 to 7; a slot from 211 on reads zero (R593, R595). -/
def execEvcntWord0Read (who : Requester) (slot : Nat) (s : State) : Out := .next (s.bar0Read who (0x8000 + 0x20 * (slot % 1024)))

/-- A read of HOST_BERTH_USE returns use, peak and free shared berths, and the peak starts again (R512, R592). -/
def execHostBerthUseRead (s : State) : Out := .next (s.bar0Read .host (blkBase .host + 0x14))

/-- A write with partial byte enables, or of more than 2 doublewords, is dropped and counted (R591). -/
def execBar0BadWrite (s : State) : Out := .next <| (s.onHost fun h => { h with bar0Bad := satInc 16 h.bar0Bad }).answer .written

/-- An access to a register of an item that is not created reads zero and has no effect; the block is recorded (R32). -/
def execUninstAccess (blk : Blk) (s : State) : Out := .next ((s.noteUninst blk).answer (.data 0))

/-- A host access to a register in a stopped domain ends after 4 µs: a read with Completer Abort, a write dropped (R115). -/
def execStoppedDomainAccess (offset : Nat) (write : Bool) (s : State) : Out :=
  inBar0 offset ((s.bar0Blocked offset write).getD s)

/-- LOG takes in the oldest event that a block has reported (R407). -/
def execLogIntake (s : State) : Out := .next s.logIntake

/-- A BAR2 write is dropped and counted (R596). -/
def execBar2Write (offset : Nat) (s : State) : Out :=
  if offset < 2 ^ 33 then .next ((s.onHost fun h => { h with bar2Drop := satInc 16 h.bar2Drop }).answer .written) else .fault .outsideBar2

end Sys2Proof.Machine
end

