-- ==== Sys2Proof/Machine/CaptMem.lean ====
section
/-! DEFINITION. The capture partition as BAR2 shows it, byte for byte (spec/11_capture.md R375 to R391, spec/19_register_map.md R596). -/

namespace Sys2Proof.Machine

open Sys2Proof

/-- Byte `i` of a list, zero past its end: reserved bytes, and DRAM that nothing has written, read zero. -/
def byteAt (l : List (BitVec 8)) (i : Nat) : BitVec 8 := nth l i 0

/-- The bytes of a channel-table entry (R377). -/
def State.chanEntry (s : State) (c : CaptChan) : List (BitVec 8) :=
  match c.src with
  | .ain n =>
    let a := (s.ain? n).getD { ch := n }
    leBytes 2 n ++ leBytes 1 c.shift ++ leBytes 1 0 ++ leBytes 4 (f32bits (a.kpu * 256)).toNat ++ leBytes 4 (f32bits a.primNom).toNat ++ leBytes 4 0
  | .sv i =>
    let v := Config.svVolts i
    let lsb : Num := (if v then 1 / 100 else 1 / 1000) * (2 ^ c.shift : Nat)
    leBytes 2 (32768 + i) ++ leBytes 1 c.shift ++ leBytes 1 (if v then 2 else 1) ++ leBytes 4 (f32bits lsb).toNat ++ leBytes 8 0

/-- The bytes of a digital and of an analog source entry (R380). -/
def digBytes (d : DigSource) : List (BitVec 8) :=
  leBytes 1 (Config.digEntry d).1 ++ leBytes 1 0 ++ leBytes 2 (Config.digEntry d).2 ++ leBytes 4 0
def anaBytes (a : AnaSource) : List (BitVec 8) :=
  leBytes 1 (Config.anaEntry a.kind).1 ++ leBytes 1 0 ++ leBytes 2 (Config.anaEntry a.kind).2 ++ leBytes 4 (f32bits a.deadband).toNat ++
    leBytes 4 (a.maxInterval / 1000000) ++ leBytes 4 0

/-- Byte `i` of the table `l` whose entries have `n` bytes. -/
def tableByte {α : Type} (l : List α) (n : Nat) (f : α → List (BitVec 8)) (i : Nat) : BitVec 8 :=
  ((l[i / n]?).map fun x => byteAt (f x) (i % n)).getD 0

/-- The bytes of a change record (R379). -/
def ChgRec.bytes (r : ChgRec) : List (BitVec 8) :=
  leBytes 5 r.tag ++ leBytes 1 r.type.num ++ leBytes 2 r.source ++ leBytes 4 r.lo.toNat ++ leBytes 4 r.hi.toNat

/-- How long ago slot `slot` of a ring of `size` slots was filled, counted in entries, when `count` entries have been written in turn. -/
def slotAge (count size slot : Nat) : Nat := (count - 1 + size - slot) % size

/-- A byte of the header block (R375). -/
def State.captHeader (s : State) (ei : Nat) (e : Engine) (r : Nat) : BitVec 8 :=
  if r < 96 then (e.written.map fun d => byteAt (d.bytes ei) r).getD 0
  else if 0x80 ≤ r ∧ r < 0xC0 then BitVec.ofNat 8 ((List.range 8).map fun i => b2n (nth e.baseDigital (8 * (r - 0x80) + i) false) * 2 ^ i).sum
  else if 0x100 ≤ r ∧ r < 0x200 then tableByte e.baseAnalog 4 (fun x => leBytes 4 (f32bits x).toNat) (r - 0x100)
  else if 0x1000 ≤ r ∧ r < 0x3000 then tableByte e.cfg.chans 16 s.chanEntry (r - 0x1000)
  else if 0x3000 ≤ r ∧ r < 0x4000 then tableByte e.cfg.digital 8 digBytes (r - 0x3000)
  else if 0x4000 ≤ r ∧ r < 0x4400 then tableByte e.cfg.analog 16 anaBytes (r - 0x4000)
  else 0

/-- A byte of the waveform region: three bytes a sample, stored rows in a ring (R377, R378). -/
def Engine.waveByte (e : Engine) (w : Nat) : BitVec 8 :=
  if e.ringRows * e.rowBytes ≤ w then 0 else
    let i := w % e.rowBytes
    ((e.rows[slotAge e.rowCount e.ringRows (w / e.rowBytes)]?).map fun row => byteAt (leBytes 3 (nth row.samples (i / 3) 0).toNat) (i % 3)).getD 0

/-- A byte of the change region (R379). -/
def Engine.chgByte (e : Engine) (c : Nat) : BitVec 8 :=
  if e.chgSize * 16 ≤ c then 0 else ((e.chg[slotAge e.chgCount e.chgSize (c / 16)]?).map fun r => byteAt r.bytes (c % 16)).getD 0

/-- The engine in whose partition a byte of the capture partition lies (R374). -/
def State.captAt (s : State) (off : Nat) : Option Nat :=
  (List.range 4).find? fun e =>
    let x := s.engine e
    x.created && decide (x.base ≤ off ∧ off < x.base + x.cfg.partMib * 2 ^ 20)

/-- A byte of the capture partition (R375, R596). -/
def State.captByte (s : State) (off : Nat) : BitVec 8 :=
  match s.captAt off with
  | none => 0
  | some ei =>
    let e := s.engine ei
    let r := off - e.base
    if r < 0x10000 then s.captHeader ei e r
    else if r < 0x10000 + e.waveBytes then e.waveByte (r - 0x10000)
    else e.chgByte (r - 0x10000 - e.waveBytes)

/-- The bytes of a block of the capture partition. -/
def State.captBytes (s : State) (off len : Nat) : List (BitVec 8) := (List.range len).map fun i => s.captByte (off + i)

/-- A read meets an uncorrectable DRAM error in a capture: the event, the mark in its descriptor and the record with the address (R391). -/
def State.captEcc (s : State) (off : Nat) : State :=
  let s := match s.captAt off with
    | some e => s.onEngine e fun x =>
      { x with desc := { x.desc with eccErr := true }, written := x.written.map fun (d : Descriptor) => { d with eccErr := true } }
    | none => s
  (s.raise .capt 8).report .captEcc ((s.captAt off).getD 0xFFFF) [off]

/-- A read of a doubleword over BAR2 (R391, R596). `ecc`: the read meets an uncorrectable error. -/
def execBar2Read (offset : Nat) (ecc : Bool) (s : State) : Out :=
  let off := offset / 4 * 4
  if 2 ^ 33 ≤ offset then .fault .outsideBar2
  else .next <|
    if s.clk.dramRetraining || s.clk.isStopped 5 then (s.hostErr 1 1 false 0 off).answer .abort
    else if ecc && (s.captAt off).isSome then
      let s := (s.captEcc off).onHost fun h => { h with bar2Poisoned := satInc 16 h.bar2Poisoned }
      s.answer .poisoned
    else s.answer (.data (BitVec.ofNat 32 (ofLe (s.captBytes off 4))))

end Sys2Proof.Machine
end

