-- ==== Sys2Proof/Machine/Chk.lean ====
section
/-! DEFINITION. The CHK engines (spec/14_check_values.md R473 to R479). -/

namespace Sys2Proof.Machine

open Sys2Proof

def State.chkEngine (s : State) (n : Nat) : ChkEngine := nth s.chk.engines n {}
def State.onChkEngine (s : State) (n : Nat) (f : ChkEngine → ChkEngine) : State :=
  s.onChk fun c => { c with engines := updAt c.engines n f }

/-- The algorithm of CHK_E_CTRL.ALG (R478). -/
def ChkEngine.alg (e : ChkEngine) : CrcAlg :=
  match (e.ctrl.extractLsb' 1 2).toNat with
  | 0 => .crc32c
  | 1 => .crc32
  | 2 => .crc16
  | _ => .crc8

/-- SRC and CONTINUE (R478). -/
def ChkEngine.fromCapture (e : ChkEngine) : Bool := e.ctrl.getLsbD 3
def ChkEngine.continues (e : ChkEngine) : Bool := e.ctrl.getLsbD 4

/-- The address or partition offset. -/
def ChkEngine.addr (e : ChkEngine) : Nat := (e.addrHi ++ e.addrLo).toNat

/-- A run ends: GO reads 0 again, DONE sets (R474, R478). -/
def ChkEngine.finish (e : ChkEngine) (err : ChkErr) : ChkEngine :=
  { e with ctrl := e.ctrl &&& ~~~1, busy := false, done := true, err }

/-- GO: DONE and ERR clear and the run starts; a length outside 1 to 2^30 ends it at once (R474, R478). -/
def ChkEngine.go (e : ChkEngine) : ChkEngine :=
  let start := if e.continues then e.raw.toNat % 2 ^ e.alg.width else e.alg.init
  let e := { e with ctrl := e.ctrl ||| 1, busy := true, done := false, err := .none, start }
  if e.len.toNat = 0 ∨ 2 ^ 30 < e.len.toNat then e.finish .range else e

/-- A write while BUSY has no effect and is counted (R474). -/
def State.chkBusyWrite (s : State) (n : Nat) : State :=
  (s.onChk fun c => { c with busyWr := satInc 16 c.busyWr, busyWrEngine := n }).raise .chk 3

/-- A write of a register of an engine by its offset: while BUSY, all but RAW are refused (R474, R476, R478). -/
def State.chkWrite (s : State) (n o : Nat) (v : Word) : State :=
  if 8 ≤ n then s
  else if (s.chkEngine n).busy && o < 0x10 then s.chkBusyWrite n
  else s.onChkEngine n fun e =>
    if o = 0 then
      let e := { e with ctrl := v &&& 0x1E }
      if v.getLsbD 0 then e.go else e
    else if o = 4 then { e with addrLo := v }
    else if o = 8 then { e with addrHi := v }
    else if o = 0xC then { e with len := v &&& 0x7FFFFFFF }
    else if o = 0x10 then { e with raw := v }
    else e

/-- A write of CHK_E_CTRL with GO (R474). -/
def execChkEGo (n : Nat) (v : Word) (s : State) : Out := .next (s.chkWrite n 0 (v ||| 1))

/-- A block of the capture partition that lies outside it ends the run with ERR = 2 (R391, R474). -/
def ChkEngine.outside (e : ChkEngine) : Bool := e.fromCapture && decide (6 * 2 ^ 30 < e.addr + e.len.toNat)

/-- A run ends: RAW holds the register and RESULT the finished value, or ERR says why it ended (R474). -/
def execChkEDone (x : ChkIn) (s : State) : Out :=
  let e := s.chkEngine x.n
  .next <| if !e.busy then s
  else if e.outside then s.onChkEngine x.n fun e => e.finish .range
  else if x.err ≠ .none then s.onChkEngine x.n fun e => e.finish x.err
  else if !e.fromCapture && decide (x.bytes.length < e.len.toNat) then s.onChkEngine x.n fun e => e.finish .readFailed
  else
    let bytes := if e.fromCapture then s.captBytes e.addr e.len.toNat else x.bytes.take e.len.toNat
    let reg := e.alg.feed e.start bytes
    s.onChkEngine x.n fun e => { e.finish .none with raw := BitVec.ofNat 32 reg, result := BitVec.ofNat 32 (e.alg.finish reg) }

/-- Once per second the known answer goes through every fixed engine and every idle host engine (R475). -/
def execChkKat (x : ChkKatIn) (s : State) : Out :=
  .next <| if s.sys.held || !s.passed s.chk.katAt (secs 1) then s
  else s.chkKat (x.failed.filter fun n => decide (8 ≤ n) || !(s.chkEngine n).busy)

end Sys2Proof.Machine
end

