-- ==== Sys2Proof/Machine/Form.lean ====
section
/-! DEFINITION. The commands of FORM (spec/07_forming_engine.md). -/

namespace Sys2Proof.Machine

open Sys2Proof

/-! ### The control cycle (R238 to R242) -/

/-- A new boundary: its number and place, the bridges' uplinks belong to it, an unbound rotor's position moves on (R238, R244, R286). -/
def State.newBoundary (s : State) (x : FormUnit) : State :=
  let s := s.forEach x.bridgeNos fun s b => s.onGateLink b fun g => { g with uplink := none }
  let step := roundInt (x.rotor.f * x.tsSec * (2 ^ 32 : Nat))
  let own := x.rotorRuns && decide (s.tide.bound ≠ some x.cfg.unit)
  s.onUnit x.cfg.unit fun y =>
    { y with
      cfg := y.newCfg.getD y.cfg, newCfg := none
      cycle := wrapInc 32 y.cycle, edge := s.gridEdge x, t0 := s.now, computed := false, handed := false, overran := false
      rotor := if own then { y.rotor with pos := y.rotor.pos + BitVec.ofInt 80 step, posAt := s.now } else y.rotor }

/-- At a control-cycle boundary a unit latches the status vector and its voltages, and applies its transitions, then its commands
(R239, R241, R261, R274). -/
def execFormControlCycle (u : Nat) (s : State) : Out :=
  .next <| match s.fu? u with
  | none => s
  | some y =>
    if s.gridEdge y = y.edge then s else
      let s := s.newBoundary y
      let s := s.onUnit u fun y =>
        let y := y.latchVector s
        s.frtTrack { y with meas := s.measure y }
      (((s.autoIf u AutoStep.atBoundary).markedStart u).unitCommands u).closeRequest u

/-- The computation may start: every active bridge's uplink is in, or the latest start has come (R241). -/
def State.mayCompute (s : State) (x : FormUnit) : Bool :=
  !x.computed && decide (s.now ≤ x.t0 + x.ts / 2) &&
    ((s.activeBridges x).all (fun b => ((s.gateLink? b).bind (·.uplink)).isSome) || s.passed x.t0 (x.ts / 2 - x.allowance))

/-- The unit computes, and hands the downlinks to GATE (R241, R254, R272). -/
def execFormCompute (u : Nat) (s : State) : Out :=
  .next <| match s.fu? u with
  | none => s
  | some x =>
    if !s.mayCompute x then s else
      let s := s.onUnit u fun y => { y with computed := true }
      let s := s.forEach x.bridgeNos fun s b => s.takeUplink x b
      let s := ((s.loseBridges u).checkDc u).autoIf u fun a => match a with
        | .frtStart _ => true
        | _ => false
      (s.computeUnit u).handOver u

/-- The cores of a pair disagree: the unit blocks, with BLOCK downlinks in this cycle while its handover is open (R242). -/
def execFormLockstep (u : Nat) (s : State) : Out :=
  .next <| match s.fu? u with
  | none => s
  | some x =>
    let s := (s.raise .form 9).report .formLockstep u
    let s := (s.formBlocked u .lockstep).onUnit u fun y =>
      { y with lockstepTest := true, causes := if y.causes.contains .lockstep then y.causes else y.causes ++ [.lockstep] }
    if x.handed then s else (s.onUnit u fun y => { y with computed := true }).handOver u

/-! ### Timed transitions (R254 to R259, R266, R271, R275) -/

/-- RIDE_THROUGH ends (R258). -/
def execFrtEnd (u : Nat) (s : State) : Out := .next (s.autoIf u fun a => a == .frtEnd)

/-- The envelope quantity has been beyond its limit for ENV_CONFIRM (R257). -/
def execFrtEnvelope (u : Nat) (s : State) : Out := .next (s.autoIf u fun a => a == .block .envelope)

/-- The conditions of READY hold (R259). -/
def execFormReady (u : Nat) (s : State) : Out := .next (s.autoIf u fun a => a == .ready)

/-- T_CONNECT has elapsed (R259). -/
def execFormConnectDone (u : Nat) (s : State) : Out := .next (s.autoIf u fun a => a == .connected)

/-- The ramp has not completed in time (R266). -/
def execFormEnergiseTimeout (u : Nat) (s : State) : Out := .next (s.autoIf u fun a => a == .block .energiseFail)

/-- RESYNC_TIMEOUT elapses (R259). -/
def execFormResyncTimeout (u : Nat) (s : State) : Out := .next (s.autoIf u fun a => a == .resyncFail true)

/-- STOPPING is over (R259). -/
def execFormStopped (u : Nat) (s : State) : Out := .next (s.autoIf u fun a => a == .stopped)

/-- A circulating current has exceeded CIRC_TRIP for 10 ms (R271). -/
def execFormCircTrip (u : Nat) (s : State) : Out := .next (s.autoIf u fun a => a == .block .circ)

/-- LOC_HOLD_MAX elapses in HOLD (R275). -/
def execFormHoldTimeout (u : Nat) (s : State) : Out := .next (s.autoIf u fun a => a == .block .loc)

/-! ### Berth commands (R262 to R265, R268, R272) -/

/-- FORM_START (R262). -/
def execFormStart (b : Nat) (s : State) : Out :=
  .next <| match s.ctlCmd b with
  | some (.unit u .start) => s.unitCtl b u .start
  | _ => s

/-- FORM_BLACK_START, with or without a start mark (R262, R267). -/
def execFormBlackStart (b : Nat) (s : State) : Out :=
  .next <| match s.ctlCmd b with
  | some (.unit u (.blackStart m)) => s.unitCtl b u (.blackStart m)
  | _ => s

/-- FORM_RESYNC (R262, R268). -/
def execFormResync (b : Nat) (s : State) : Out :=
  .next <| match s.ctlCmd b with
  | some (.unit u .resync) => s.unitCtl b u .resync
  | _ => s

/-- FORM_RESYNC_CANCEL (R262). -/
def execFormResyncCancel (b : Nat) (s : State) : Out :=
  .next <| match s.ctlCmd b with
  | some (.unit u .resyncCancel) => s.unitCtl b u .resyncCancel
  | _ => s

/-- FORM_STOP (R262). -/
def execFormStop (b : Nat) (s : State) : Out :=
  .next <| match s.ctlCmd b with
  | some (.unit u .stop) => s.unitCtl b u .stop
  | _ => s

/-- FORM_BLOCK (R262). -/
def execFormBlock (b : Nat) (s : State) : Out :=
  .next <| match s.ctlCmd b with
  | some (.unit u .block) => s.unitCtl b u .block
  | _ => s

/-- FORM_RESET (R260, R262). -/
def execFormReset (b : Nat) (s : State) : Out :=
  .next <| match s.ctlCmd b with
  | some (.unit u .reset) => s.unitCtl b u .reset
  | _ => s

/-- FORM_SETPOINT (R263). -/
def execFormSetpoint (b : Nat) (s : State) : Out :=
  .next <| match s.ctlCmd b with
  | some (.unitSetpoint u t) => s.unitCtl b u (.setpoint t)
  | _ => s

/-- FORM_STAGE (R264). -/
def execFormStage (b : Nat) (s : State) : Out :=
  .next <| match s.ctlCmd b with
  | some (.unitStage u st) => s.unitCtl b u (.stage st)
  | _ => s

/-- BRIDGE_RESTORE (R272): the unit is the one that the bridge is assigned to. -/
def execBridgeRestore (b : Nat) (s : State) : Out :=
  .next <| match s.ctlCmd b with
  | some (.bridgeRestore br) =>
    match s.form.units.find? fun x => x.bridgeNos.contains br with
    | some x => s.unitCtl b x.cfg.unit (.restore br)
    | none => s.runCtl b (some { blk := .form, src := br }) id
  | _ => s

/-- A boundary of the unit stands at this moment. -/
def State.atUnitBoundary (s : State) (x : FormUnit) : Bool := decide (s.gridEdge x ≠ x.edge ∨ x.t0 = s.now)

/-- A staged set takes effect: STEP at once, RAMP under R263 (R264). -/
def FormUnit.applyStaged (x : FormUnit) (st : Staged) : FormUnit :=
  let t := st.targets
  let g := x.inForce
  { x with
    target := t, staged := none, stepDue := false
    inForce :=
      { p := if st.stepP then t.p else g.p, q := if st.stepQ then t.q else g.q, v := if st.stepV then t.v else g.v
        f := if st.stepF then t.f else g.f } }

/-- The boundary after a FORM_STEP mark has fired (R264). -/
def execFormStepApply (u : Nat) (s : State) : Out :=
  .next <| match s.fu? u with
  | none => s
  | some x =>
    if !x.stepDue || !s.atUnitBoundary x then s else
      match x.staged with
      | some st => s.onUnit u fun y => y.applyStaged st
      | none => ((s.onUnit u fun y => { y with stepDue := false }).raise .form 14).report .formStepEmpty u

/-- The command that AUTOSTART issues. -/
def autostartCmd : Autostart → Option UnitCmd
  | .none => Option.none
  | .start => some .start
  | .blackStart => some (.blackStart Option.none)

/-- READY has held for AUTOSTART_DELAY, or that long since the last refused attempt: the unit issues its own command (R265). -/
def execFormAutostart (u : Nat) (s : State) : Out :=
  .next <| match s.fu? u with
  | none => s
  | some x =>
    match autostartCmd x.cfg.policy.autostart with
    | none => s
    | some c =>
      let since := if x.autoAt.isSome then x.autoAt else x.readySince
      if x.phase ≠ .ready || !s.passedSince since x.cfg.policy.autostartDelay then s else
        let s := s.onUnit u fun y => { y with autoAt := some s.now }
        match s.refuseUnit u c false with
        | some r => s.refuseInternal r .internal
        | none => s.queueUnit u c .self

end Sys2Proof.Machine
end

