-- ==== Sys2Proof/Machine/Gate.lean ====
section
/-! DEFINITION. The commands of GATE (spec/08_gate_link.md R292 to R302). -/

namespace Sys2Proof.Machine

open Sys2Proof

/-- The created unit that a bridge is assigned to. -/
def State.unitOfBridge (s : State) (br : Nat) : Option FormUnit := s.form.units.find? fun x => x.bridgeNos.contains br

/-- A bad uplink is discarded and counted (R294). -/
def State.uplinkBad (s : State) (br : Nat) (check : Bool) : State :=
  let s := (s.onGateLink br fun g =>
    if check then { g with badCheck := satInc 16 g.badCheck } else { g with badOther := satInc 16 g.badOther }).raise .gate 8
  s.when check fun s => s.pathFail 1

/-- An uplink arrives on the port of a bridge (R288, R294). A bridge of no unit has no boundary that its CYCLE could name. -/
def execGateUplinkRx (x : UplinkIn) (s : State) : Out :=
  .next <| match s.gateLink? x.br with
  | none => s
  | some g =>
    if !g.up then s
    else if !x.checkOk then s.uplinkBad x.br true
    else
      let u := s.unitOfBridge x.br
      let cycle := (u.map (·.cycle)).getD (g.sentFor - 1)
      let r := g.alive? x.frame
      let s := s.countAlive 1 x.frame.alive r
      if !r.accepted || !g.accepts cycle x.frame || g.uplink.isSome then s.uplinkBad x.br false
      else if u.any (·.computed) then s.onGateLink x.br fun g => { g with late := satInc 16 g.late, ulAlive := some x.frame.alive }
      else s.admitUplink x.br x.frame x.tRx

/-- A control cycle of a unit overruns: counted once, and two in a row block the unit (R241). -/
def State.formOverrun (s : State) (x : FormUnit) : State :=
  if x.overran then s else
    let u := x.cfg.unit
    let s := s.onUnit u fun y => { y with overran := true, overrun := satInc 16 y.overrun, overrunRun := y.overrunRun + 1 }
    let s := (s.raise .form 8).report .formOverrun u
    s.when (decide (1 ≤ x.overrunRun)) fun s => s.formBlocked u .overrun

/-- No downlink has been handed over by t0 + 0.5 × Ts: GATE repeats the last one, or blocks (R295, R296). -/
def execGateRepeat (br : Nat) (s : State) : Out :=
  .next <| match s.gateLink? br, s.unitOfBridge br with
  | some g, some x =>
    if x.handed || !s.passed x.t0 (x.ts / 2) || g.sentFor = x.cycle + 1 then s else
      let s := s.formOverrun x
      let n := x.cycle + 1
      let at_ := x.t0 + x.ts
      if ((s.fu? x.cfg.unit).any fun y => y.phase.pulses) && (s.bridge br).active then
        s.sendRepeat br n at_ x.ts x.nextFalling
      else s.sendBlock br n at_ x.ts x.nextFalling
  | _, _ => s

/-- A gate-link port of no created unit sends BLOCK downlinks at 10 kHz (R296). -/
def execGateBlockIdleSend (br : Nat) (s : State) : Out :=
  .next <| match s.gateLink? br with
  | none => s
  | some g =>
    if !g.up || (s.unitOfBridge br).isSome || !s.passed g.idleAt 100000 then s else
      let s := s.onGateLink br fun g => { g with idleAt := s.now, uplink := none }
      s.sendBlock br (wrapInc 32 g.sentFor) (s.now + 100000) 100000 (g.sentFor % 2 == 0)

/-- A gate-link goes down (R302). -/
def execGateLinkDown (br : Nat) (s : State) : Out := .next (s.gateDown br)

/-- A gate-link comes up, and its delay measurement restarts (R302). -/
def execGateLinkUp (br : Nat) (s : State) : Out :=
  .next <| match s.gateLink? br with
  | none => s
  | some g =>
    if g.up || s.clk.refNone || decide (s.sys.stage < 6 ∨ 11 < s.sys.stage) then s else
      let s := s.onGateLink br fun g =>
        { g with up := true, ulAlive := none, departures := [], delays := [], d := 0, syncCount := 0, silent := 0, idleAt := s.now }
      (s.raise .gate 1).report .gateLinkUp br

/-- GATE_CLEAR is refused unless the bridge's downlinks carry BLOCK (R297). -/
def State.refuseClear (s : State) (br : Nat) : Option Refuse :=
  match s.gateLink? br with
  | some g => if g.blockSent then none else some { blk := .gate, src := br, st0 := g.status }
  | none => some { blk := .gate, src := br }

/-- GATE_CLEAR: the next 16 downlinks of the bridge carry CLEAR (R297). -/
def execGateClear (b : Nat) (s : State) : Out :=
  .next <| match s.ctlCmd b with
  | some (.gateClear br) =>
    s.runCtl b (s.refuseClear br) fun s => (s.onGateLink br fun g => { g with clearLeft := 16 }).done b
  | _ => s

end Sys2Proof.Machine
end

