-- ==== Sys2Proof/Machine/Logic.lean ====
section
/-! DEFINITION. The logic engine: releases, event sources, output writes, commits, start and stop, exchange (spec/10_logic_engine.md R338 to R366). -/

namespace Sys2Proof.Machine

open Sys2Proof

/-- A release instant of task `t` has fallen due, or the swap that held its release has ended (R341, R343, R344, R364). -/
def execLogicTaskRelease (t : Nat) (s : State) : Out :=
  .next <| match s.task? t with
  | none => s
  | some x =>
    if s.logic.phase ≠ .running || x.suspended then s
    else if x.held && decide ((s.taskGroup x.cfg.group).swapEnd ≤ s.now) then
      -- The held release is given now, unless the next one has fallen due as well.
      if s.instantDue x then ((s.skipRelease t).onTask t fun x => { x with held := false }).releaseTask t
      else (s.onTask t fun x => { x with held := false }).releaseTask t
    else if s.instantDue x then s.releaseTask t else s

/-- An event source of an EVENT task fires: it releases the task, or is latched, or is merged into the latched event (R344). -/
def execLogicEventSource (t src : Nat) (s : State) : Out :=
  .next <| match s.task? t with
  | none => s
  | some x =>
    if !s.logic.fired.contains (t, src) then s else
      let s := s.onLogic fun l => { l with fired := l.fired.erase (t, src) }
      let s := s.onTask t fun x => { x with mask := x.mask ||| 2 ^ src }
      match x.cfg.kind with
      | .event mi _ =>
        if x.latched then s.onTask t fun x => { x with merged := satInc 16 x.merged }
        else if s.logic.phase = .running && !x.suspended && !x.running && x.lastRel.all (fun a => s.passed a mi) then s.releaseTask t
        else s.onTask t fun x => { x with latched := true }
      | _ => s

/-- The logic phase of a task ends: its write leaves at once, or waits for the next release instant (R348). -/
def execLogicOutputWrite (x : WriteIn) (s : State) : Out :=
  .next <| match s.task? x.task with
  | none => s
  | some k =>
    if s.logic.phase ≠ .running || !k.running || k.preempted then s else
      let run := min (x.exec / 1000) 65535
      let s := s.onTask x.task fun k => { k with running := false, preempted := false, exec := run, execMax := max run k.execMax }
      let s := if k.cfg.writeAtNext then s.onTask x.task fun k => { k with heldWrite := some x.reqs } else s.outputWrite x.task x.reqs
      s.preempt

/-- The commit of group `m` completes (R361). -/
def execLogicCommitDone (m : Nat) (s : State) : Out :=
  .next <| if s.passed (s.taskGroup m).busySince (s.taskGroup m).commitTime then s.commitDone m else s

/-- A cycle still runs 8 periods after its release, or a logic core's memory has an uncorrectable ECC error (R343, R356). -/
def execLogicHalt (ecc : Bool) (s : State) : Out :=
  .next <| if s.logic.phase ≠ .running then s
  else if ecc then s.logicHalt .ecc
  else if s.logic.tasks.any fun x => x.running && s.passedSince x.lastRel (8 * s.taskPeriod x) then s.logicHalt .overlong
  else s

/-- A command that the present engine state does not accept is refused (R356). -/
def State.refuseLogic (s : State) (accepts : Bool) : Option Refuse :=
  if accepts then none else some { blk := .logic, st0 := s.logicStatus }

/-- LOGIC_START starts a STOPPED or HALTED engine (R356, R358). -/
def execLogicStart (b : Nat) (s : State) : Out :=
  .next <| match s.ctlCmd b with
  | some (.logicStart warm) =>
    s.runCtl b (s.refuseLogic (s.logic.phase = .stopped || s.logic.phase = .halted)) fun s => (s.startLogic warm).done b
  | _ => s

/-- LOGIC_STOP stops a running engine (R356, R357). -/
def execLogicStop (b : Nat) (s : State) : Out :=
  .next <| match s.ctlCmd b with
  | some .logicStop =>
    s.runCtl b (s.refuseLogic (s.logic.phase = .running)) fun s =>
      ((((s.onLogic fun l => { l with phase := .stopped }).logicQuiet).raise .logic 2).report .logicStop 0xFFFF []).done b
  | _ => s

/-- The values of the variables that LOGIC_READ names, in the order of the command (R350). -/
def State.logicValues (s : State) (addrs : List Nat) : List Int :=
  addrs.map fun a => ((s.logic.vars.find? (·.1 == a)).map (·.2)).getD 0

/-- LOGIC_READ returns program variables; RESULT holds the first (R350). -/
def execLogicRead (b : Nat) (s : State) : Out :=
  .next <| match s.ctlCmd b with
  | some (.logicRead addrs) => s.runCtl b none fun s => s.done b (BitVec.ofInt 64 ((s.logicValues addrs).headD 0))
  | _ => s

/-- LOGIC_WRITE: the value enters the owning task's next snapshot (R350). -/
def execLogicWrite (b : Nat) (s : State) : Out :=
  .next <| match s.ctlCmd b with
  | some (.logicWrite addr v) => s.runCtl b none fun s =>
    (s.onLogic fun l => { l with hostWrites := l.hostWrites.filter (·.1 != addr) ++ [(addr, v)] }).done b
  | _ => s

/-- LOGIC_EVENT fires the command source of the EVENT task that it names (R340). -/
def execLogicEvent (b : Nat) (s : State) : Out :=
  .next <| match s.ctlCmd b with
  | some (.logicEvent t _) =>
    let src := (s.task? t).bind fun x => match x.cfg.kind with
      | .event _ l => if l.contains .command then some (l.idxOf .command) else none
      | _ => none
    match src with
    | some i => s.runCtl b none fun s => (s.onLogic fun l => { l with fired := l.fired ++ [(t, i)] }).done b
    | none => s.runCtl b (s.refuseLogic false) id
  | _ => s

/-- LOGIC_STAGE stages a signed LOGIC section (R363). -/
def execLogicStage (b : Nat) (s : State) : Out :=
  .next <| match s.ctlCmd b with
  | some (.logicStage p sigOk) => s.runCtl b none fun s => (s.onLogic fun l => { l with staged := some { prog := p, sigOk := sigOk } }).done b
  | _ => s

/-- Group `m` finds its instant: it runs the new program from its next cycle (R364, R365). -/
def execLogicExchange (m : Nat) (s : State) : Out :=
  .next <| match s.logic.exch with
  | some x => if (s.taskGroup m).exchPending && s.groupQuiet m then s.swapGroup m x.prog else s
  | none => s

/-- Group `m` has found no instant within 1 s of the commit and keeps its old program (R365). -/
def execLogicExchFail (m : Nat) (s : State) : Out :=
  .next <| match s.logic.exch with
  | some x =>
    if (s.taskGroup m).exchPending && s.passed x.committedAt (secs 1) then
      let s := s.onTaskGroup m fun g => { g with exchPending := false }
      let s := s.onLogic fun l => { l with mixed := true, exch := l.exch.map fun x => { x with failed := true } }
      ((s.raise .logic 6).report .logicExchFail m [m]).endExchange
    else s
  | none => s

end Sys2Proof.Machine
end

