-- ==== Sys2Proof/Machine/Net.lean ====
section
/-! DEFINITION. The commands of the switch: links, frames, tables, gates, pairs (spec/13_network_and_time.md R427 to R440). -/

namespace Sys2Proof.Machine

open Sys2Proof

/-- A port goes down, or it comes up where its lanes can train (R105, R428, R439, R506, R556). -/
def execNetLink (p : Nat) (up : Bool) (mbps : Nat) (s : State) : Out :=
  .next <| if up && !s.laneUsable p then s else s.portLink p up mbps

/-- A frame arrives on a port (R430 to R440, R444, R455). -/
def execNetFrameRx (x : FrameIn) (s : State) : Out :=
  .next <| if !s.takesFrames x.port then s else
    let s := s.onPort x.port fun q => { q with rxFrames := q.rxFrames + 1 }
    if x.frame.len < 64 ∨ 2048 < x.frame.len then s
    else if !x.fcsOk then s.badFcs x.port x.frame
    else s.frameRx x.port x.frame

/-- Learnt entries age out after AGE_TIME (R432). -/
def execNetMacAge (s : State) : Out :=
  .next <| s.onNet fun n => { n with macs := n.macs.filter fun m => !s.passed m.seen s.netCfg.ageTime }

/-- Where a gate list stands at an offset within its cycle: the entry and the end of its interval. -/
def gclSeek (start off : Nat) : List GclEntry → Nat → Nat × Nat
  | [], k => (k, start)
  | e :: l, k => if off < e.interval then (k, start + e.interval) else gclSeek (start + e.interval) (off - e.interval) l (k + 1)

/-- An interval of a gate list ends, a list passes BASE_TIME, or a list restarts after a step (R435). -/
def execNetGclEntry (p : Nat) (s : State) : Out :=
  .next <| match s.port? p, (s.netCfg.port? p).bind (·.gcl) with
  | some x, some g =>
    let len := fun (k : Nat) => (nth g.entries k { gates := 0, interval := 0 }).interval
    match x.gclRestart with
    | some t => if t ≤ s.ltc then s.onPort p fun x => { x with gclEntry := 0, gclEnd := t + len 0, gclRestart := none } else s
    | none =>
      if !x.gclActive then
        if g.baseTime ≤ s.ltc && decide (0 < g.cycleTime) then
          let off := (s.ltc - g.baseTime) % g.cycleTime
          let at_ := gclSeek (s.ltc - off) off g.entries 0
          s.onPort p fun x => { x with gclActive := true, gclEntry := at_.1, gclEnd := at_.2 }
        else s
      else if x.gclEnd ≤ s.ltc then
        let k := if x.gclEntry + 1 < g.entries.length then x.gclEntry + 1 else 0
        s.onPort p fun x => { x with gclEntry := k, gclEnd := x.gclEnd + len k }
      else s
  | _, _ => s

/-- NET_PORT_ADMIN is refused in gate-link mode and on a pair that carries a created zone (R429). -/
def State.refusePort (s : State) (p : Nat) : Option Refuse :=
  let gate := (s.netCfg.port? p).any fun c => c.mode = .gateLink
  let zone := (s.netCfg.pairOf? p).any fun k => s.pairHasZone k.pair
  if gate || zone then some { blk := .net, src := p, st0 := s.netPStatus p } else none

/-- NET_PORT_ADMIN sets a port DOWN or UP (R429). -/
def execNetPortAdmin (b : Nat) (s : State) : Out :=
  .next <| match s.ctlCmd b with
  | some (.netPortAdmin p up) =>
    s.runCtl b (s.refusePort p) fun s =>
      (((s.onPort p fun x => { x with adminDown := !up }).report .netPortAdmin p [b2n up]).closePairs).done b
  | _ => s

/-- The supervision frame of a pair (R439). -/
def supervisionFrame : Frame := { dst := 0x01154E000100, src := Config.ownMac, kind := .supervision }

/-- Every LIFE_CHECK a pair sends its supervision frame on both ports (R439). -/
def execHsrSupervisionSend (k : Nat) (s : State) : Out :=
  .next <| match s.pairCfg? k, s.pair? k with
  | some c, some x =>
    if s.passed x.lifeSent s.netCfg.lifeCheck && decide (6 ≤ s.sys.stage ∧ s.sys.stage ≤ 11) then
      let s := s.onPair k fun x => { x with lifeSent := s.now }
      (s.onNet fun n => { n with sent := n.sent ++ [.supervision k x.seq] }).sendOn c.first supervisionFrame
    else s
  | _, _ => s

/-- A pair whose port is down, or whose supervision has been missing for 2 × LIFE_CHECK, is OPEN (R439). -/
def execNetRingOpen (k : Nat) (s : State) : Out :=
  .next <| match s.pairCfg? k, s.pair? k with
  | some c, some x =>
    match s.openCause c x with
    | some p =>
      if x.open_ then s else ((s.onPair k fun x => { x with open_ := true }).raise .net 1).report .netRingOpen k [p]
    | none => s.closePairs
  | _, _ => s

/-- Duplicate-discard entries are forgotten 400 ms after their first copy; one without a second copy is counted (R438, R439). -/
def execHsrDupExpiry (k : Nat) (s : State) : Out :=
  .next <| match s.pairCfg? k, s.pair? k with
  | some c, some x =>
    let old := x.table.filter fun e => s.passed e.at_ (msec 400)
    let alone := old.filter fun e => !e.both
    s.onPair k fun x =>
      { x with
        table := x.table.filter fun e => !s.passed e.at_ (msec 400)
        onlyFirst := satAdd 16 x.onlyFirst (alone.filter (·.port == c.first)).length
        onlySecond := satAdd 16 x.onlySecond (alone.filter (·.port == c.second)).length }
  | _, _ => s

/-- Nodes-table entries are forgotten after 60 s (R439). -/
def execHsrNodeExpiry (k : Nat) (s : State) : Out :=
  .next <| s.onPair k fun x => { x with nodes := x.nodes.filter fun e => !s.passed e.seen (secs 60) }

end Sys2Proof.Machine
end

