-- ==== Sys2Proof/Machine/SecOps.lean ====
section
/-! DEFINITION. Operations of SEC: verification of a slot, going live or bare, activation, keys, Tallies, proposals and their commit (spec/16_manifest_and_two_party.md). -/

namespace Sys2Proof.Machine

open Sys2Proof

/-! ### Readiness of PROT (R158) -/

/-- The filter histories of every channel are flushed: the K periods of R141 have passed. -/
def State.historiesFlushed (s : State) : Bool := s.acq.chans.all fun a => !a.flushing s.acq.fastIdx

/-- From stage 7 on PROT becomes ready once the boot test of each lane has passed and the filter histories are flushed (R141, R158). -/
def State.protBegin (s : State) : State :=
  s.when (!s.prot.ready && s.blkCreated .prot && decide (7 ≤ s.sys.stage ∧ s.sys.stage ≤ 11) && s.prot.laneA.bootKat && s.prot.laneB.bootKat &&
    s.historiesFlushed) State.protReady

/-! ### Verification (R525, R531) -/

/-- Why a slot is rejected: the code of R531, the first failing section ID, 0 when it is no section's, and for cause 9 the row. -/
structure Reject where
  cause : Nat
  sect : Nat := 0
  row : Nat := 0
deriving DecidableEq, Repr, Inhabited

/-- A section is present in the image (R522). -/
def sectPresent (m : Image) (i : Nat) : Bool := decide (0 < (nth m.sects (i - 1) { id := i }).length)

/-- A signature entry covers a section (R523). -/
def covers (e : SigEntry) (i : Nat) : Bool := e.cover.getLsbD i

/-- An entry verifies against the key of its slot, which has its role (R525). -/
def entryOk (keys : List KeySlot) (e : SigEntry) : Bool :=
  let k := nth keys e.slot {}
  k.present && k.key == e.key && k.role == e.role && e.valid

/-- A section that is present has the signatures that R525 asks for. -/
def coverOk (m : Image) (i : Nat) : Bool :=
  let eng := m.sigs.filter fun e => e.role == .engineer && covers e i
  let app := m.sigs.filter fun e => e.role == .approver && covers e i
  !sectPresent m i || (if [3, 4, 5].contains i then eng.any fun e => app.any fun a => a.slot != e.slot else !eng.isEmpty)

/-- The first section for which the image is not properly signed (R525). -/
def unsigned (keys : List KeySlot) (m : Image) : Option Nat :=
  if m.sigs.isEmpty || !m.sigs.all (entryOk keys) then some 12
  else (List.range 11).map (· + 1) |>.find? fun i => !coverOk m i

/-- The device that an image is built for, against the device's own number (R531 cause 4). -/
def deviceFits (device : Nat) (m : Image) : Bool :=
  (m.device == 0 || m.device == device) && (device != 0 || (m.body.diff.isEmpty && m.body.struct.clusterNodes.isEmpty))

/-- A section entry as it stands in the header: ID, RSV, VERSION, OFFSET, LENGTH, CRC, little-endian (R519, R521). -/
def sectBytes (e : SectEntry) : List (BitVec 8) :=
  [BitVec.ofNat 8 e.id, e.rsv] ++ leBytes 2 e.version ++ leBytes 4 e.offset ++ leBytes 4 e.length ++ leBytes 4 e.crc.toNat

/-- Header bytes 0 to 267 (R520). -/
def imageHeader (m : Image) : List (BitVec 8) :=
  leBytes 4 m.magic.toNat ++ leBytes 2 m.format ++ leBytes 2 m.nsect ++ leBytes 4 m.totalLen ++ leBytes 4 m.rollback ++
    leBytes 2 (m.device % 2 ^ 14) ++ leBytes 1 m.body.struct.profile.num ++ [m.flags] ++ leBytes 4 m.build.toNat ++ leBytes 8 m.created.toNat ++
    leBytes 16 m.manifestId.toNat ++ leBytes 16 m.systemId.toNat ++ m.sects.flatMap sectBytes ++ leBytes 12 0

/-- HDR_CRC: the CRC-32C over them (R520). -/
def imageCrc (m : Image) : Word := BitVec.ofNat 32 (CrcAlg.crc32c.check (imageHeader m))

/-- The end of each section in the order of the table; an unused one ends where the one before it does (R522). -/
def sectEnds : Nat → List SectEntry → List (Nat × SectEntry)
  | _, [] => []
  | prev, e :: l => (prev, e) :: sectEnds (if e.length = 0 then prev else e.offset + e.length) l

/-- A section entry obeys R521 and R522: an unused section is all zeros, another starts on a 64-byte boundary after the header and after the
sections before it. -/
def sectOk (x : Nat × SectEntry) : Bool :=
  let e := x.2
  e.rsv == 0 && e.versionOk && if e.length = 0 then e.offset == 0 && e.crc == 0 else decide (e.offset % 64 = 0 ∧ x.1 ≤ e.offset)

/-- The section table obeys R521 and R522: twelve entries in ID order, STRUCTURE and SIGNATURES never empty, TOTAL_LEN at the end of the last,
at most 16 MiB (R519, R520). -/
def layoutOk (m : Image) : Bool :=
  let ends := sectEnds 272 m.sects
  m.nsect == 12 && m.sects.map (·.id) == (List.range 12).map (· + 1) && ends.all sectOk && sectPresent m 1 && sectPresent m 12 &&
    decide (m.totalLen = ((m.sects.filter fun e => e.length != 0).getLast?.map fun e => e.offset + e.length).getD 0 ∧ m.totalLen ≤ 16 * 2 ^ 20)

/-- The tests of R531 on an image, in their order. -/
def SecState.rejectImage (x : SecState) (m : Image) : Option Reject :=
  if m.magic ≠ 0x464D4E52 ∨ m.format ≠ 1 then some { cause := 1 }
  else if m.hdrCrc ≠ imageCrc m then some { cause := 2 }
  else if x.root.all fun r => decide (m.systemId ≠ Config.sha512id r) then some { cause := 3 }
  else if !deviceFits x.device m then some { cause := 4 }
  else if m.rollback < x.floor then some { cause := 5 }
  else if !layoutOk m then some { cause := 6 }
  else if m.sects.any fun e => !e.good then some { cause := 7, sect := m.sects.findIdx (fun e => !e.good) + 1 }
  else if x.cryptoFail then some { cause := 8, sect := 12 }
  else match unsigned x.keys m with
  | some i => some { cause := 8, sect := i }
  | none => match envelopeExceeded m.body with
    | some r => some { cause := 9, row := r }
    | none => match outOfRange m.body with
      | some i => some { cause := 10, sect := i.num }
      | none => if m.body.diff.any fun z => !z.members.contains x.device then some { cause := 10, sect := Section.diff.num } else if m.otherChecks then none else some { cause := 10 }

/-- The tests of R531 on a slot: those of its image, then its overlay and its memory. -/
def SecState.rejectSlot (x : SecState) (b : Bool) : Option Reject :=
  let k := x.slot b
  match k.image with
  | none => some { cause := 1 }
  | some m => match x.rejectImage m with
    | some r => some r
    | none =>
      if k.overlay.any fun o => !o.good then some { cause := 11 }
      else if k.memError then some { cause := 12 }
      else none

/-- A slot that is rejected: SEC_REJECT shows every cause but ENVELOPE, which has its own record (R39, R531). -/
def Slot.reject (k : Slot) (r : Reject) : Slot :=
  { k with
    phase := .empty, rejected := true, cause := r.cause
    shown := if r.cause = 9 then k.shown else r.cause, section_ := if r.cause = 9 then k.section_ else r.sect }

/-- The slot is rejected: each section whose CRC fails is counted; the envelope's rejection is logged as MANIFEST_ENVELOPE, every other one as
MANIFEST_REJECT, with SEC_EVENT.REJECT (R39, R467, R531). -/
def State.rejected (s : State) (b : Bool) (r : Reject) : State :=
  let bad := if r.cause = 7 then ((s.sec.slot b).image.map fun m => m.sects.filter fun e => !e.good).getD [] else []
  let s := s.forEach bad fun s _ => s.pathFail 6
  let s := s.onSec fun x => x.setSlot b ((x.slot b).reject r)
  if r.cause = 9 then s.report .manifestEnvelope 0xFFFF [b2n b, r.row] else (s.raise .sec 0).report .manifestReject 0xFFFF [b2n b, r.cause, r.sect]

/-- The slot is verified: VALID, or rejected (R531). -/
def State.verifySlot (s : State) (b : Bool) : State :=
  match s.sec.rejectSlot b with
  | some r => s.rejected b r
  | none => s.onSec fun x => x.setSlot b { x.slot b with phase := .valid, rejected := false }

/-! ### Overlays (R544) -/

/-- A committed setting as it stands in the Manifest (R538, R543). -/
def applySetting (m : Manifest) : PropItem → Manifest
  | .protSetting e g p v t =>
    { m with prot := { m.prot with elements := m.prot.elements.map fun c =>
        if c.index = e then { c with groups := updAt c.groups (g - 1) (Config.setElem p v t) } else c } }
  | .zoneSetting z p v t => { m with diff := updAt m.diff z (Config.setZone p v t) }
  | .unitSetting u p v t => { m with form := m.form.map fun c => if c.unit = u then Config.setUnit p v t c else c }
  | _ => m

/-- A record of an overlay reapplied: a swapped bank stands as bank A of its channel, an exchanged program as the LOGIC section (R544). -/
def applyOverlay (m : Manifest) (r : OverlayRec) : Manifest :=
  let m := applySetting m r.item
  let m := match r.item, r.coef with
    | .acqSwap c _, some k =>
      { m with acq := { m.acq with channels := m.acq.channels.map fun x => if x.ch = c then { x with bankA := k, fadeLen := r.fade } else x } }
    | _, _ => m
  match r.prog with
  | some p => { m with logic := p }
  | none => m

/-- What a slot puts into force: its image with its overlay applied (R532). -/
def Slot.manifest (k : Slot) : Manifest := k.overlay.foldl applyOverlay ((k.image.map (·.body)).getD {})

/-! ### Going live, going bare (R532, R533) -/

/-- A slot goes live: what SEC shows of it (R522, R550). -/
def State.setLive (s : State) (b : Bool) : State :=
  let m := ((s.sec.slot b).image).getD {}
  s.onSec fun x => { x with live := true, liveB := b, bare := false, liveId := m.manifestId, liveRollback := m.rollback }

/-- In the bare state each ring and the harbour run with RATE 1,000, DEPTH 8 and no reservation (R494). -/
def HostState.bareSources (h : HostState) (now : Ns) : HostState :=
  { h with
    ready := false
    sources := h.sources.zipIdx.map fun x =>
      if x.2 < 17 then { x.1 with cfg := { rate := 1000, depth := 8, berths := 0 }, tokens := 8, tTok := now } else x.1 }

/-- Neither slot is valid, or the live one no longer is: no structure, doors closed, field outputs off (R533, R546). -/
def State.goBare (s : State) : State :=
  let s := (s.closeDoors 6).clearStructure
  let s := s.forEach (List.range 12) fun s g => s.onGroup g fun x => { x with created := false, link := false }
  let s := s.onSec fun x => { x with live := false, bare := true, activations := [] }
  let s := { s with manifest := {} }
  let s := ((s.onSys fun y => { y with live := false }).reach 12).onHost fun h => h.bareSources s.now
  (s.raise .sec 2).report .manifestBare 0xFFFF [s.sec.slotA.cause, s.sec.slotB.cause]

/-! ### Refusals of SEC (R621) -/

/-- A refusal by SEC names SEC_STATUS, and of a PROPOSE or CONFIRM its PROP_ID and failing item (R621). -/
def State.secRefuse (s : State) (id : BitVec 64 := 0) (item : Nat := 0xFF) : Refuse := { blk := .sec, st0 := s.sec.status, propId := id, item }

/-! ### Root and keys (R526, R527) -/

/-- PROVISION_ROOT is refused once the root is set (R526). -/
def State.refuseRoot (s : State) : Option Refuse := if s.sec.root.isSome then some s.secRefuse else none

/-- A certificate: its root signature, its SYSTEM_ID, and no other slot with its key (R527). -/
def SecState.certOk (x : SecState) (c : KeyCert) : Bool :=
  x.root == some c.root && c.rootSigOk && c.systemId == Config.sha512id c.root &&
    x.keys.zipIdx.all fun k => k.2 == c.slot || !k.1.present || k.1.key != c.key

/-- KEY_INSTALL fills an empty slot only (R527). -/
def State.refuseInstall (s : State) (c : KeyCert) : Option Refuse :=
  if s.sec.certOk c && !(nth s.sec.keys c.slot {}).present then none else some s.secRefuse

/-- A key enters its slot; the last nonce accepted there stands (R527, R530). -/
def State.setKey (s : State) (c : KeyCert) : State :=
  let s := s.onSec fun x =>
    { x with keys := updAt x.keys c.slot fun k => { k with present := true, bad := false, role := c.role, key := c.key } }
  (s.raise .sec 11).report .secKey c.slot [c.slot, c.role.num]

/-! ### Loading and activation (R534, R535) -/

/-- A slot is being written or verified (R534). -/
def Slot.loading (k : Slot) : Bool := k.phase = .writing || k.phase = .verifying

/-- Why MANIFEST_LOAD is refused (R534). -/
def State.refuseLoad (s : State) (b : Bool) : Option Refuse :=
  if (s.sec.live && s.sec.liveB == b) || s.sec.slotA.loading || s.sec.slotB.loading then some s.secRefuse else none

/-- The section entries of a slot, in ID order. -/
def Slot.crc (k : Slot) (i : Section) : Word := (nth ((k.image.map (·.sects)).getD []) (i.num - 1) { id := i.num }).crc

/-- A section of a slot differs from the live one (R535). -/
def State.sectionDiffers (s : State) (b : Bool) (i : Section) : Bool := (s.sec.slot b).crc i != (s.sec.slot s.sec.liveB).crc i

/-- The activation restarts the structure: the profile or the STRUCTURE section differs, or no Manifest is live (R535). -/
def State.fullRestart (s : State) (b : Bool) : Bool :=
  !s.sec.live || s.sectionDiffers b .structure_ || (s.sec.slot b).manifest.struct.profile != s.sys.profile

/-- Why MANIFEST_ACTIVATE is refused: the slot is not valid or is live, or it reloads FORM or GATE while pulses are enabled (R535). -/
def State.refuseActivate (s : State) (b : Bool) : Option Refuse :=
  let isLive := s.sec.live && s.sec.liveB == b
  let pulses := s.form.units.any fun u => u.phase.pulses
  if (s.sec.slot b).phase ≠ .valid || isLive || (!s.fullRestart b && pulses && (s.sectionDiffers b .form || s.sectionDiffers b .gate)) then
    some s.secRefuse
  else none

/-! ### Proposals (R540 to R543) -/

/-- A proposal by its number. -/
def State.proposal (s : State) (i : Nat) : Proposal := nth s.sec.proposals i {}
def State.onProposal (s : State) (i : Nat) (f : Proposal → Proposal) : State := s.onSec fun x => { x with proposals := updAt x.proposals i f }

/-- The items of a proposal. -/
def Proposal.items (p : Proposal) : List PropItem := (p.body.map (·.items)).getD []

/-- The proposal that holds a PROP_ID, not EMPTY. -/
def State.proposalOf? (s : State) (id : BitVec 64) : Option Nat := s.sec.proposals.findIdx? fun p => p.phase != .empty && p.id == id

/-- A record of R542 with its SEC_EVENT bit: PROP_ID, both key slots and NITEMS. -/
def State.secRecord (s : State) (bit : Nat) (r : Rec) (p : Proposal) : State :=
  (s.raise .sec bit).report r 0xFFFF [p.id.toNat, p.propSlot, p.confSlot, p.items.length]

/-- The channels whose staged bank a proposal locks (R134). -/
def Proposal.swaps (p : Proposal) : List Nat := p.items.filterMap fun i => match i with
  | .acqSwap c _ => some c
  | _ => none

/-- The staged banks of a proposal are locked or released (R134). -/
def State.lockStages (s : State) (p : Proposal) (on : Bool) : State := s.forEach p.swaps fun s c => s.onAin c fun a => { a with stageLock := on }

/-- A proposal becomes EMPTY (R542). -/
def State.endProposal (s : State) (i : Nat) (e : PropEnd) : State :=
  (s.lockStages (s.proposal i) false).onProposal i fun p =>
    { p with phase := .empty, lastEnd := e, stopped := none, confBerth := none, body := p.body }

/-- A proposal lapses (R542). -/
def State.lapse (s : State) (i : Nat) (e : PropEnd) : State := (s.endProposal i e).secRecord 7 .secLapse (s.proposal i)

/-- MANIFEST_ACTIVATE takes effect: every proposal lapses, and the CONFIRM of a committing one ends refused (R535, R542). -/
def State.lapseAll (s : State) : State :=
  s.forEach (List.range 4) fun s i =>
    let p := s.proposal i
    if p.phase = .empty then s else
      let s := s.lapse i .activate
      match p.confBerth with
      | some b => s.refuseItem b (s.secRefuse p.id) .target
      | none => s

/-- Two items touch the same target, group and parameter (R540). -/
def PropItem.clash : PropItem → PropItem → Bool
  | .protSetting e g p _ _, .protSetting e' g' p' _ _ => e == e' && g == g' && p == p'
  | .zoneSetting z p _ _, .zoneSetting z' p' _ _ => z == z' && p == p'
  | .unitSetting u p _ _, .unitSetting u' p' _ _ => u == u' && p == p'
  | .acqSwap c _, .acqSwap c' _ => c == c'
  | .laneRestore l, .laneRestore l' => l == l'
  | .logicExchange _, .logicExchange _ => true
  | .logClear, .logClear => true
  | .keyReplace c, .keyReplace c' => c.slot == c'.slot
  | .deviceNumber _, .deviceNumber _ => true
  | _, _ => false

/-- An item goes to the overlay (R538). -/
def PropItem.persisted : PropItem → Bool
  | .protSetting .. | .zoneSetting .. | .unitSetting .. | .acqSwap .. | .logicExchange _ => true
  | _ => false

/-- The state tests of an item's own rule (R134, R194, R363, R422, R527, R546). -/
def State.itemOk (s : State) (i : PropItem) : Bool :=
  match i with
  | .protSetting e _ _ _ _ => (s.elem? e).isSome
  | .zoneSetting z _ _ _ => decide (z < s.manifest.diff.length)
  | .unitSetting u _ _ _ => s.manifest.form.any (·.unit == u)
  | .acqSwap c crc => (s.refuseSwap c crc (own := s.sec.proposals.any fun q => q.phase == .committing && q.items.contains i)).isNone
  | .laneRestore l => (s.prot.lane l).phase == .out
  | .logicExchange crc =>
    !s.clk.degraded && s.logic.exch.isNone && s.logic.staged.any fun g =>
      g.sigOk && Config.logicCrc g.prog == crc && sameTasks s.manifest.logic.tasks g.prog.tasks && logicAdmitted g.prog.tasks &&
        decide (g.prog.retainedBytes ≤ 65536)
  | .logClear => decide (0 < s.sec.tallyEpoch) && !s.log.bothFail
  | .keyReplace c => s.sec.certOk c && (nth s.sec.keys c.slot {}).present && decide (0 < nth s.sec.tallyKey c.slot 0)
  | .deviceNumber n => inRange 1 16383 n && n != s.sec.device

/-- The first item of a PROPOSE that fails a state test or touches what a pending proposal holds (R540). -/
def State.failingItem (s : State) (p : Propose) : Option Nat :=
  p.items.findIdx? fun i => !s.itemOk i || s.sec.proposals.any fun q => q.phase != .empty && q.items.any i.clash

/-- The items persisted in an overlay fit beside those it holds (R540, R544). -/
def State.overlayFits (s : State) (p : Propose) : Bool :=
  let o := s.sec.liveOverlay
  decide (o.length + (p.items.filter (·.persisted)).length ≤ 4096 ∧ (o.map (·.bytes)).sum + p.overlayBytes ≤ 4 * 2 ^ 20)

/-- A refusal for the item at a place of a proposal; for a coefficient swap it names the channel's status (R134, R540, R621). -/
def State.itemRefuse (s : State) (id : BitVec 64) (l : List PropItem) (k : Nat) : Refuse :=
  let r := s.secRefuse id k
  match l[k]? with
  | some (.acqSwap c _) => { r with st0 := ((s.ain? c).map (·.status)).getD 0 }
  | _ => r

/-- Why a PROPOSE is refused (R540). -/
def State.refusePropose (s : State) (p : Propose) : Option Refuse :=
  if s.sec.proposals.all (fun q => q.phase != .empty) || (s.proposalOf? p.id).isSome || !s.overlayFits p then some (s.secRefuse p.id)
  else (s.failingItem p).map fun i => s.itemRefuse p.id p.items i

/-- A proposal is PENDING and its window has not ended: now lies within it, or a CONFIRM that arrived in time has stopped it (R540, R541). -/
def Proposal.waits (p : Proposal) (now : Ns) : Bool := p.phase == .pending && (decide (now ≤ p.windowEnd) || p.stopped.isSome)

/-- Why a CONFIRM or PROPOSE_WITHDRAW is refused: no PENDING proposal holds its PROP_ID (R541, R542). -/
def State.refuseConfirm (s : State) (id : BitVec 64) : Option Refuse :=
  if (s.proposalOf? id).any fun i => (s.proposal i).waits s.now then none else some (s.secRefuse id)

/-- A CONFIRM that arrives at or before the window's end stops the window (R541). -/
def State.stopWindow (s : State) (id : BitVec 64) (b : Nat) : State :=
  match s.proposalOf? id with
  | some i => s.onProposal i fun p => if p.phase = .pending ∧ s.now ≤ p.windowEnd then { p with stopped := some b } else p
  | none => s

/-- The CONFIRM in berth `b` has failed: its proposal stays PENDING, and lapses at once when the window has ended (R541). -/
def State.confirmFailed (s : State) (id : BitVec 64) (b : Nat) : State :=
  match s.proposalOf? id with
  | some i =>
    if (s.proposal i).phase = .pending ∧ (s.proposal i).stopped = some b then
      let s := s.onProposal i fun p => { p with stopped := none }
      if (s.proposal i).windowEnd < s.now then s.lapse i .window else s
    else s
  | none => s

/-! ### Commit (R543 to R546) -/

/-- The item consumes a Tally count (R545, R546). -/
def SecState.burns (x : SecState) : PropItem → Bool
  | .logClear | .keyReplace _ => true
  | .deviceNumber _ => !x.devices.isEmpty
  | _ => false

/-- A count of the item's Tally is consumed, whether the burn reads back or not (R545). -/
def State.consume (s : State) (i : PropItem) (good : Bool) : State :=
  (s.onSec fun x => match i with
    | .logClear => { x with tallyEpoch := x.tallyEpoch - 1 }
    | .keyReplace c => { x with tallyKey := updAt x.tallyKey c.slot (· - 1) }
    | _ => if good then x else { x with deviceLost := x.deviceLost + 1 }).raise .sec 10

/-- The recheck at the boundary: the item's own tests, and a count left for a further device number (R543, R545). -/
def State.recheck (s : State) (i : PropItem) : Bool :=
  s.itemOk i && match i with
    | .deviceNumber _ => s.sec.devices.isEmpty || decide (0 < s.sec.deviceLeft)
    | _ => true

/-- A commit is refused: RESULT holds the failing item's index (R542, R543). -/
def State.commitRefused (s : State) (i k : Nat) : State :=
  let p := s.proposal i
  let s := (s.endProposal i .refused).secRecord 8 .secCommitRefused p
  match p.confBerth with
  | some b => (s.refuseItem b (s.itemRefuse p.id p.items k) .commit).endItem b { status := .refused, reason := some .stateRefused, result := BitVec.ofNat 64 k }
  | none => s

/-- The overlay record of a persisted item; the bytes of the proposal count with its first record (R544). -/
def State.overlayRec (s : State) (p : Proposal) (bytes : Nat) (i : PropItem) : OverlayRec :=
  let r : OverlayRec :=
    { item := i, propSlot := p.propSlot, confSlot := p.confSlot, propNonce := p.propNonce, confNonce := p.confNonce, bytes := bytes }
  match i with
  | .acqSwap c _ =>
    match s.ain? c with
    | some a => { r with coef := some { taps := a.stageTaps, coef := a.staged.coef }, fade := a.fadeLen }
    | none => r
  | .logicExchange _ => { r with prog := s.logic.staged.map (·.prog) }
  | _ => r

/-- The persisted items are appended to the live slot's overlay before the commit takes effect (R544). -/
def State.persist (s : State) (p : Proposal) : State :=
  let items := p.items.filter (·.persisted)
  let recs := items.zipIdx.map fun x => s.overlayRec p (if x.2 = 0 then (p.body.map (·.overlayBytes)).getD 0 else 0) x.1
  s.onSec fun x => x.setSlot x.liveB { x.slot x.liveB with overlay := (x.slot x.liveB).overlay ++ recs }

/-- The device takes a new number: the next field is filled, the live slot is verified again, and the structure restarts (R546). -/
def State.renumber (s : State) (n : Nat) : State :=
  let s := (s.onSec fun x => { x with devices := n :: x.devices }).report .secDevice 0xFFFF [n]
  if !s.sec.live then s else
    match s.sec.rejectSlot s.sec.liveB with
    | some r => (s.rejected s.sec.liveB r).goBare
    | none => s.structureRestart

/-- A committed item takes effect (R543): settings in the evaluation of this boundary, a unit's at its next control-cycle boundary (R263). -/
def State.applyItem (s : State) (p : Proposal) (bankAGood : Bool) (i : PropItem) : State :=
  let s := { s with manifest := applySetting s.manifest i }
  match i with
  | .zoneSetting z _ _ _ =>
    match s.manifest.diff[z]? with
    | some c => s.onDiff fun d => { d with zones := updAt d.zones z fun y => { y with cfg := c, cfgTag := c.tag s.tideCfg.plantSchedule } }
    | none => s
  | .unitSetting u _ _ _ =>
    s.onForm fun f => { f with units := f.units.map fun y => if y.cfg.unit = u then { y with newCfg := s.manifest.form.find? (·.unit == u) } else y }
  | .acqSwap c _ => s.commitSwap c
  | .laneRestore l => (s.onLane l fun x => { x with restoring := true }).startKat l
  | .logicExchange _ =>
    match s.logic.staged with
    | some g => { s.commitExchange g.prog with manifest := { s.manifest with logic := g.prog } }
    | none => s
  | .logClear => s.logClear p.propSlot p.confSlot s.sec.tallyEpoch bankAGood
  | .keyReplace c => s.setKey c
  | .deviceNumber n => s.renumber n
  | _ => s

/-- A COMMITTING proposal at its boundary: every item checked again, the fuses burnt, the overlay written, and every item applied, or none
(R543 to R545). `fuseBad`: the first burn does not read back. -/
def State.commitProposal (s : State) (i : Nat) (fuseBad bankAGood : Bool) : State :=
  let p := s.proposal i
  match p.items.findIdx? fun x => !s.recheck x with
  | some k => s.commitRefused i k
  | none =>
    let burns := p.items.filter s.sec.burns
    match p.items.findIdx? s.sec.burns, fuseBad with
    | some k, true =>
      let s := s.forEach (burns.take 1) fun s x => s.consume x false
      (s.report .secTallyFail 0xFFFF [p.id.toNat, k]).commitRefused i k
    | _, _ =>
      let s := s.forEach burns fun s x => s.consume x true
      let s := s.persist p
      let s := (s.endProposal i .commit).secRecord 6 .secCommit p
      let s := match p.confBerth with
        | some b => s.done b
        | none => s
      s.forEach p.items fun s x => s.applyItem p bankAGood x

/-- The proposals that wait for this boundary, in the admission order of their CONFIRMs (R543). -/
def State.committing (s : State) : List Nat :=
  let l := (List.range 4).filter fun i => (s.proposal i).phase = .committing
  l.mergeSort fun i j => (s.proposal i).confOrder ≤ (s.proposal j).confOrder

/-- The commits of a protection-cycle boundary (R543). -/
def State.commitBoundary (s : State) (fuseBad : List Nat) (bankAGood : Bool) : State :=
  s.forEach s.committing fun s i => if (s.proposal i).phase = .committing then s.commitProposal i (fuseBad.contains i) bankAGood else s

/-! ### Activation (R535) -/

/-- A group's configuration differs (R535). -/
def fioGroupDiffers (a b : FioCfg) (g : Nat) : Bool :=
  fioGroupCfg a g != fioGroupCfg b g || (a.channels.filter fun x => groupOf x.ch == g) != (b.channels.filter fun x => groupOf x.ch == g)

/-- A reload of PROT: every element reset; trip outputs that stay hold under their seal-in (R24, R535). -/
def State.reloadProt (s : State) : State :=
  let c := s.manifest.prot
  s.onProt fun p =>
    { p with
      vector := {}, request := none, deferred := false
      elems := c.elements.map fun e => { index := e.index, essOff := p.essentialOnly && !e.essential }
      trips := c.trips.map fun t => (p.trips.find? (·.index == t.index)).getD { index := t.index } }

/-- The marks of TIDE tasks follow a reload of LOGIC after 250 ms: those no longer declared disarm, those not yet declared are armed
(R68, R340, R535). -/
def State.reloadMarks (s : State) (old : LogicCfg) : State :=
  let was := old.tasks.filterMap Manifest.taskMark
  let now := s.manifest.logic.tasks.filterMap Manifest.taskMark
  let s := s.forEach (was.filter fun m => !now.contains m) fun s m =>
    s.onMark m.1 fun x => if x.owner = .manifest then { x with armed := false } else x
  s.when (decide (7 ≤ s.sys.stage ∧ s.sys.stage ≤ 11)) fun s => s.forEach (now.filter fun m => !was.contains m) fun s m =>
    if (s.refuseMark m.1 m.2 .manifest).isNone then s.armMark m.1 m.2 .manifest else s.markPast m.2

/-- A reload of LOGIC: an exchange where the task set passes R363, else a restart under R358 (R535). -/
def State.reloadLogic (s : State) (old : LogicCfg) : State :=
  let p := s.manifest.logic
  if s.logic.phase = .running && sameTasks old.tasks p.tasks && logicAdmitted p.tasks && decide (p.retainedBytes ≤ 65536) && !s.clk.degraded &&
      s.logic.exch.isNone then
    s.commitExchange p
  else
    let s := s.makeLogicBlock
    s.when (decide (s.sys.stage = 10 ∨ s.sys.stage = 11)) fun s => s.startLogic (!p.startCold)

/-- A reload of NET: every door closes and reopens in sequence; the switch and its time functions restart (R509, R535). -/
def State.reloadNet (s : State) : State :=
  let s := (s.closeDoors 5).makeNet.makePtp
  let s := s.when (decide (9 ≤ s.sys.stage ∧ s.sys.stage ≤ 11)) fun s => (s.onNet fun n => { n with intakeOpen := true }).startGoose
  s.when (decide (8 ≤ s.sys.stage ∧ s.sys.stage ≤ 11)) fun s => s.scheduleDoors (s.now - msec 100)

/-- The Manifest that runs after a section reload: the sections that differ from the slot, the others as they run (R535). -/
def State.reloaded (s : State) (b : Bool) : Manifest :=
  let d := s.sectionDiffers b
  let o := s.manifest
  let n := (s.sec.slot b).manifest
  { struct := o.struct
    acq := if d .acq then n.acq else o.acq
    prot := if d .prot then n.prot else o.prot
    diff := if d .diff then n.diff else o.diff
    form := if d .form then n.form else o.form
    gate := if d .gate then n.gate else o.gate
    logic := if d .logic then n.logic else o.logic
    fio := if d .fio then n.fio else o.fio
    capt := if d .capt then n.capt else o.capt
    log := if d .log then n.log else o.log
    net := if d .net then n.net else o.net }

/-- The rings of both lanes whose channel does not fulfil `p` go, with the block that fed them (R205, R535). -/
def State.keepRings (s : State) (p : ChanRef → Bool) : State :=
  let keep := fun (l : Lane) => { l with rings := l.rings.filter fun r => p r.chan }
  (s.onLane .a keep).onLane .b keep

/-- A section reload: the blocks of the sections that differ restart, the others run on (R535). -/
def State.reloadSections (s : State) (b : Bool) : State :=
  let d := s.sectionDiffers b
  let o := s.manifest
  let s := { s with manifest := s.reloaded b }
  let s := (s.when (d .acq) fun s => s.make .acq State.makeAcq).onAcq fun a =>
    { a with chans := a.chans.map fun (c : Ain) => { c with protected_ := protects s.manifest c.ch } }
  let s := s.when (d .acq) fun s => s.keepRings isSvChan
  let s := s.when (d .prot) fun s => s.make .prot State.reloadProt
  let s := s.when (d .diff) fun s => s.make .diff State.makeDiff
  let s := s.when (d .gate) fun s => s.make .gate State.makeGate
  let s := s.when (d .form || d .gate) fun s => s.make .form State.makeForm
  let s := s.when (d .logic) fun s => s.make .logic fun s => (s.reloadMarks o.logic).reloadLogic o.logic
  let s := s.when (d .fio) fun s => s.make .fio fun s =>
    s.forEach ((List.range 12).filter (fioGroupDiffers o.fio s.manifest.fio)) State.makeFioGroup
  let s := s.when (d .capt) fun s => s.make .capt State.makeCapt
  let s := s.when (d .log) fun s => s.make .log State.makeLog
  s.when (d .net) fun s => (s.make .net State.reloadNet).keepRings fun c => !isSvChan c

/-- The structure is instantiated out of the bare state, from the 100 ms stage of the timeline (R533). -/
def State.leaveBare (s : State) : State :=
  (s.onSys fun y => { y with t0 := s.now - msec 100, delay := 0, stageTimes := y.stageTimes.take 4 ++ List.replicate 12 0 }).instantiate

/-- The sections that differ, by ID (R535). -/
def State.changedMask (s : State) (b : Bool) : Nat :=
  ([.structure_, .acq, .prot, .diff, .form, .gate, .logic, .fio, .capt, .log, .net].map fun i => b2n (s.sectionDiffers b i) * 2 ^ i.num).sum

/-- An activation takes effect (R535). -/
def State.activate (s : State) (a : Activation) : State :=
  match s.refuseActivate a.slotB with
  | some r => s.refuseItem a.berth r .target
  | none =>
    let mask := s.changedMask a.slotB
    let full := s.fullRestart a.slotB
    let bare := !s.sec.live
    let s := s.lapseAll
    let s := if full then
        let s := { s.setLive a.slotB with manifest := (s.sec.slot a.slotB).manifest }
        if bare then s.leaveBare else s.structureRestart
      else (s.reloadSections a.slotB).setLive a.slotB
    ((s.raise .sec 3).report .manifestActivate 0xFFFF [b2n a.slotB, b2n full, mask]).done a.berth

end Sys2Proof.Machine
end

