-- ==== Sys2Proof/Machine/Sec.lean ====
section
/-! DEFINITION. The commands of SEC: root, keys, Manifest slots, proposals (spec/16_manifest_and_two_party.md R526 to R546). -/

namespace Sys2Proof.Machine

open Sys2Proof

/-- PROVISION_ROOT burns the system root once (R526). -/
def execProvisionRoot (b : Nat) (s : State) : Out :=
  .next <| match s.ctlCmd b with
  | some (.provisionRoot k) =>
    s.runCtl b s.refuseRoot fun s => ((s.onSec fun x => { x with root := some k }).report .secRoot).done b
  | _ => s

/-- KEY_INSTALL fills an empty slot with a root-signed key (R527). -/
def execKeyInstall (b : Nat) (s : State) : Out :=
  .next <| match s.ctlCmd b with
  | some (.keyInstall c) => s.runCtl b (s.refuseInstall c) fun s => (s.setKey c).done b
  | _ => s

/-- MANIFEST_LOAD writes a slot and clears its overlay; verification follows (R534). -/
def execManifestLoad (b : Nat) (s : State) : Out :=
  .next <| match s.ctlCmd b with
  | some (.manifestLoad slot img) =>
    s.runCtl b (s.refuseLoad slot) fun s =>
      (s.onSec fun x => x.setSlot slot
        { phase := .verifying, image := some img, cause := (x.slot slot).cause, shown := (x.slot slot).shown
          section_ := (x.slot slot).section_ }).done b
  | _ => s

/-- A written slot is verified: MANIFEST_LOADED, or the rejection (R531, R534). -/
def execManifestVerifyDone (slotB : Bool) (s : State) : Out :=
  .next <| if (s.sec.slot slotB).phase ≠ .verifying then s else
    let s := s.verifySlot slotB
    s.when ((s.sec.slot slotB).phase == .valid) fun s => s.report .manifestLoaded 0xFFFF [b2n slotB]

/-- MANIFEST_ACTIVATE: the activation waits for the next protection-cycle boundary (R535). -/
def execManifestActivate (b : Nat) (s : State) : Out :=
  .next <| match s.ctlCmd b with
  | some (.manifestActivate slot) =>
    s.runCtl b (s.refuseActivate slot) fun s =>
      (s.onSec fun x => { x with activations := x.activations ++ [{ slotB := slot, berth := b, boundary := s.prot.boundary }] }).toTarget b
  | _ => s

/-- The first waiting activation takes effect at its boundary, or at once where no boundaries are served (R535). -/
def execManifestActivateEffect (s : State) : Out :=
  .next <| match s.sec.activations with
  | [] => s
  | a :: rest =>
    if a.boundary < s.prot.boundary || s.sec.bare || !s.acq.running then
      (s.onSec fun x => { x with activations := rest }).activate a
    else s

/-- Counts of the anti-rollback Tally that a promotion needs (R537). -/
def SecState.floorNeed (x : SecState) : Nat :=
  match x.slotB.image with
  | some m => if m.raiseFloor then m.rollback - x.floor else 0
  | none => 0

/-- Why MANIFEST_PROMOTE is refused (R536, R537). -/
def State.refusePromote (s : State) : Option Refuse :=
  if s.sec.live && s.sec.liveB && decide (s.sec.floorNeed ≤ s.sec.tallyRollback) then none else some s.secRefuse

/-- The copy in slot A is good: the floor rises, slot A is live, and slot B is verified again (R536, R537). -/
def State.promoted (s : State) (need : Nat) : State :=
  let s := s.onSec fun x => { x with floor := x.floor + need, liveB := false }
  let s := s.when (decide (0 < need) && s.sec.slotB.phase == .valid) fun s => s.verifySlot true
  s.report .manifestPromote 0xFFFF [s.sec.liveRollback, s.sec.floor]

/-- MANIFEST_PROMOTE: the fuses are burnt, slot B and its overlay are copied into slot A, and the copy is verified (R536, R537, R545).
`fuses`: the first burn, counted from 1, that does not read back; 0 where all do. -/
def execManifestPromote (b fuses : Nat) (s : State) : Out :=
  .next <| match s.ctlCmd b with
  | some .manifestPromote =>
    let need := s.sec.floorNeed
    s.runCtl b s.refusePromote fun s =>
      if 0 < fuses ∧ fuses ≤ need then
        let s := ((s.onSec fun x => { x with tallyRollback := x.tallyRollback - fuses }).raise .sec 10).report .secTallyFail 0xFFFF [fuses]
        s.refuseItem b s.secRefuse .ctl
      else
        let s := s.onSec fun x => { x with slotA := { x.slotB with phase := .verifying, cause := x.slotA.cause, shown := x.slotA.shown, section_ := x.slotA.section_ } }
        let s := s.verifySlot false
        if s.sec.slotA.phase = .valid then
          let s := (s.onSec fun x => { x with tallyRollback := x.tallyRollback - need }).when (decide (0 < need)) fun s => s.raise .sec 10
          (s.promoted need).done b
        else s.failed b .execError
  | _ => s

/-- PROPOSE takes the first EMPTY proposal, and its window starts (R134, R540, R542). -/
def execPropose (b : Nat) (s : State) : Out :=
  .next <| match s.ctlCmd b, s.item b with
  | some (.propose p), some it =>
    s.runCtl b (s.refusePropose p) fun s =>
      match s.sec.proposals.findIdx? fun q => q.phase == .empty with
      | none => s
      | some i =>
        let s := s.onProposal i fun q =>
          { phase := .pending, lastEnd := q.lastEnd, id := p.id, body := some p, propSlot := it.entry.keySlot, propNonce := it.entry.nonce
            windowEnd := s.now + s.manifest.struct.confirmWindow }
        ((s.lockStages (s.proposal i) true).secRecord 4 .secPropose (s.proposal i)).done b
  | _, _ => s

/-- CONFIRM by another key, with the digest of the bytes proposed: the proposal is COMMITTING (R541, R542). -/
def execConfirm (b : Nat) (s : State) : Out :=
  .next <| match s.ctlCmd b, s.item b with
  | some (.confirm id digest), some it =>
    s.runCtl b (s.refuseConfirm id) fun s =>
      match s.proposalOf? id with
      | none => s
      | some i =>
        let p := s.proposal i
        let bad := [p.id.toNat, p.propSlot, it.entry.keySlot]
        if it.entry.keySlot = p.propSlot then ((s.failed b .sigFail).report .secConfirmBad 0xFFFF bad).confirmFailed id b
        else if p.body.all fun x => x.digest ≠ digest then ((s.failed b .execError).report .secConfirmBad 0xFFFF bad).confirmFailed id b
        else
          let s := s.onProposal i fun p =>
            { p with
              phase := .committing, stopped := none, confSlot := it.entry.keySlot, confNonce := it.entry.nonce, confBerth := some b, confOrder := it.tAdmit }
          (s.secRecord 5 .secConfirm (s.proposal i)).toTarget b
  | _, _ => s

/-- PROPOSE_WITHDRAW of a PENDING proposal (R542). -/
def execProposeWithdraw (b : Nat) (s : State) : Out :=
  .next <| match s.ctlCmd b with
  | some (.proposeWithdraw id) =>
    s.runCtl b (s.refuseConfirm id) fun s =>
      match s.proposalOf? id with
      | some i => (s.lapse i .withdraw).done b
      | none => s
  | _ => s

/-- The window of a PENDING proposal has ended, and no CONFIRM that arrived in time is being checked (R541, R542). -/
def execProposalWindowLapse (p : Nat) (s : State) : Out :=
  .next <| if (s.proposal p).phase = .pending ∧ (s.proposal p).windowEnd < s.now ∧ (s.proposal p).stopped = none then s.lapse p .window else s

end Sys2Proof.Machine
end

