-- ==== Sys2Proof/Machine/TideMarks.lean ====
section
/-! DEFINITION. Tide commands that meet marks: the rate recomputation, the cycle carry, arming and firing, point-on-wave closing (spec/02_tide.md R45, R46, R60 to R78). -/

namespace Sys2Proof.Machine

open Sys2Proof

/-- The fast-lane grid point that has come last. -/
def State.gridNow (s : State) : Nat := ((((s.ltc : Int) - s.strobeOff).toNat) * 14400) / 1000000000

/-- What a recomputation is counted by: the control cycle of the bound unit, else the fast-lane strobe (R45). -/
def State.rateMark (s : State) : Option Nat × Nat :=
  match s.tide.bound.bind s.fu? with
  | some x => (some x.cfg.unit, x.cycle)
  | none => (none, s.gridNow)

/-- Once per fast-lane period, or control cycle of the bound unit, the rate is recomputed by the handover law, and with it the targets of
pending closes and the edges that are due (R45, R60, R61, R72, R76). -/
def execTideRateRecompute (s : State) : Out :=
  .next <| if s.tide.rateAt = some s.rateMark then s else
    let s := s.recompute.powUpdate.sendDueMarks.powUpdate
    s.onTide fun t => { t with rateAt := some s.rateMark }

/-- A carry into the cycle count; while coasting, TIDE_COAST_LEFT counts down (R46, R62). -/
def execTideCycleCarry (s : State) : Out :=
  .next <| if s.tide.cycle ≤ s.tide.carried then s else
    s.onTide fun t =>
      { t with carried := t.carried + 1, coastLeft := if t.phase = .coasting then t.coastLeft - 1 else t.coastLeft }

/-- A host command arms a mark (R69, R71). -/
def execTideMarkArm (b : Nat) (s : State) : Out :=
  .next <| match s.ctlCmd b with
  | some (.tideMark n m) =>
    let r := s.refuseMark n m .host
    (if r.isSome then s.markPast m else s).runCtl b r fun s => (s.armMark n m .host).done b
  | _ => s

/-- The marks that Tide has crossed fire, in the order of their ticks and then of their indices (R70). -/
def execTideMarkFire (s : State) : Out := .next <| (State.fireMarks s.crossings s).onTide fun t => { t with fired := t.pos }

/-- A close request through a berth (R75, R76). -/
def execPowCloseRequest (b : Nat) (s : State) : Out :=
  .next <| match s.ctlCmd b with
  | some (.powClose k a) => s.runCtl b (s.refusePow k) fun s => (s.powAccept k a).done b
  | _ => s

/-- The touch that has come within T_nom + 20 ms after the edge, at PTP time `touch`, gives δ and the learnt close time (R77). -/
def execPowTouch (k touch : Nat) (s : State) : Out :=
  .next <| match s.powCfg? k, (s.pow k).pending with
  | some c, some p =>
    if p.touch ≠ some touch then s else
      let tb := (s.pow k).tb
      let d : Num := ((touch : Int) : Num) - ((p.tEdge : Num) + tb)
      let tb' := Num.clamp (9 / 10 * (c.tNom : Num)) (11 / 10 * (c.tNom : Num)) (tb + Num.clamp (-2000000) 2000000 (c.gain * d))
      let s := if d.mag ≤ 5000000 then s.onPow k fun x => { x with tb := tb' } else s.report .powOutlier k [roundInt d]
      ((s.onPow k fun x => { x with pending := none }).raise .tide 12).report .powDone k [p.tEdge, p.tTarget, touch, roundInt d]
  | _, _ => s

/-- No touch has counted by the time at which one timed at the limit would have come (R77). -/
def execPowNoTouch (k : Nat) (s : State) : Out :=
  .next <| match s.powCfg? k, (s.pow k).pending with
  | some c, some p =>
    if p.sent && p.touch.isNone && decide (p.tEdge + c.tNom + msec 20 + s.touchLatency c.touch ≤ s.ltc) then
      (s.onPow k fun x => { x with pending := none }).report .powNoTouch k
    else s
  | _, _ => s

end Sys2Proof.Machine
end

