-- ==== Sys2Proof/Machine/Admit.lean ====
section
/-! DEFINITION. The Breakwater: classes, service times, and the tests that an entry must pass to be admitted (spec/15_host_cluster_berths.md R488 to R494). -/

namespace Sys2Proof.Machine

open Sys2Proof

/-! ### Classes, times and roles (R488, R490, R502, R529) -/

/-- The classes of R488. -/
inductive CmdClass where
  | query | command | bulk
deriving DecidableEq, Repr, Inhabited

/-- The class of an entry (R488). -/
def Entry.cls (e : Entry) : CmdClass :=
  match e.cmd with
  | some (.query _) | some (.logicRead _) => .query
  | _ => if e.bulk then .bulk else .command

/-- The default deadline and the range of a class (R488). -/
def CmdClass.deadline : CmdClass → Ns
  | .query => usec 100 | .command => msec 1 | .bulk => msec 200
def CmdClass.range : CmdClass → Ns × Ns
  | .query => (usec 20, secs 1) | .command => (usec 50, secs 1) | .bulk => (msec 1, secs 10)

/-- The time on CTL (R488). -/
def CmdClass.ctl : CmdClass → Ns
  | .query => usec 5 | .command => usec 10 | .bulk => usec 20

/-- T_AD (R502). -/
def tAd : Ns := usec 40

/-- The key role that a command needs (R529). -/
def BerthCmd.role : BerthCmd → Option Role
  | .query _ | .logicRead _ | .captArm _ | .captDisarm _ | .captTrigger _ | .captSet _ _ _ | .captLock _ | .captUnlock _
  | .provisionRoot _ | .keyInstall _ | .diagBundle => none
  | .propose _ | .proposeWithdraw _ | .logicStage _ _ | .acqSwap _ _ | .direct _ => some .engineer
  | .confirm _ _ => some .approver
  | .manifestLoad _ _ | .manifestActivate _ | .manifestPromote | .clkRetune _ _ | .clkLoopReset _ => some .service
  | .tidePin _ | .tideUnpin | .tideMark _ _ | .powClose _ _ | .sgSelect _ | .unit _ _ | .unitSetpoint _ _ | .unitStage _ _
  | .bridgeRestore _ | .gateClear _ | .fioSet _ _ | .fioClear _ | .fioResume _ | .logicStart _ | .logicStop | .logicWrite _ _
  | .logicEvent _ _ | .netPortAdmin _ _ | .doorClose _ | .doorOpen _ => some .operator

/-- The entry passes through SIG: it is signed, or its command needs a signature (R488, R529). -/
def Entry.passesSig (e : Entry) : Bool := e.signed || (e.cmd.bind BerthCmd.role).isSome

/-- The command carries bulk data: always, never, or at the driver's choice (R488, R529, R586). -/
def BerthCmd.bulkOk (c : BerthCmd) (bulk : Bool) : Bool :=
  match c with
  | .logicStage _ _ | .manifestLoad _ _ | .propose _ | .diagBundle => bulk
  | .keyInstall _ => true
  | _ => !bulk

/-- The wait at the target (R488). -/
def State.targetWait (s : State) : BerthCmd → Ns
  | .sgSelect _ | .confirm _ _ => usec 210
  | .unit u _ | .unitSetpoint u _ | .unitStage u _ => ((s.fu? u).map (·.cfg.rate.ts)).getD 0
  | .bridgeRestore b => ((s.form.units.find? fun x => x.bridgeNos.contains b).map (·.cfg.rate.ts)).getD 0
  | .clkRetune _ _ => msec 18
  | _ => 0

/-- The deadline in ns: the one requested, else the default of the class, for another node with 2 × T_AD added; CLK_RETUNE has its
own (R98, R488). -/
def Entry.deadlineNs (e : Entry) (remote : Bool) : Ns :=
  match e.cmd with
  | some (.clkRetune _ _) => msec 20
  | _ => if e.deadline = 0 then e.cls.deadline + (if remote then 2 * tAd else 0) else usec e.deadline

/-! ### Tests 1 to 3 (R489, R494) -/

/-- The numbers that an item of a PROPOSE carries lie in the range of what they name (R538, R539). -/
def PropItem.inRange : PropItem → Bool
  | .protSetting e g _ _ _ => decide (e < 4096 ∧ 1 ≤ g ∧ g ≤ 8)
  | .zoneSetting z _ _ _ => decide (z < 64)
  | .unitSetting u _ _ _ => decide (u < 4)
  | .acqSwap c _ => decide (c < 24)
  | .keyReplace k => decide (k.slot < 8)
  | .laneRestore _ | .logicExchange _ | .logClear | .deviceNumber _ => true

/-- A PROPOSE: PROP_ID nonzero, 1 to 256 items within 64 KiB of bulk data, every value in its range (R539, R540). -/
def Propose.formatOk (p : Propose) (len : Nat) : Bool :=
  p.id != 0 && decide (1 ≤ p.items.length ∧ p.items.length ≤ 256 ∧ 16 * p.items.length ≤ len ∧ len ≤ 65536) && p.inRange &&
    p.items.all PropItem.inRange

/-- Parameters in range, deadline in range, bulk as the command has it (R488, R489). -/
def State.formatOk (s : State) (e : Entry) (c : BerthCmd) : Bool :=
  let r := e.cls.range
  let d := usec e.deadline
  let dl := match c with
    | .clkRetune _ _ => true
    | _ => e.deadline = 0 || decide (r.1 ≤ d ∧ d ≤ r.2)
  let param := match c with
    | .query off => decide (off < bar0Size ∧ off % 4 = 0)
    | .tideMark n m => decide (n < 256 ∧ m.cycle < 2 ^ 48) && markTargetOk m && m.period.all fun k => inRange 1 65535 k
    | .sgSelect g => decide (g < 8)
    | .fioSet n _ | .fioClear n | .fioResume n => decide (n < 192)
    | .captArm e | .captDisarm e | .captTrigger e | .captLock e | .captUnlock e => decide (e < 4)
    | .captSet e pre post => decide (e < 4 ∧ 1 ≤ pre + post)
    | .doorClose d | .doorOpen d => decide (d < 6)
    | .powClose k _ | .bridgeRestore k | .gateClear k => decide (k < 8)
    | .acqSwap c _ => decide (c < 24)
    | .unit u _ => decide (u < 4)
    | .unitSetpoint u t => decide (u < 4) && s.targetsOk t
    | .unitStage u st => decide (u < 4) && s.targetsOk st.targets
    | .logicEvent t _ => decide (t < 8)
    | .netPortAdmin p _ => decide (p < 45)
    | .propose p => p.formatOk e.bulkLen
    | .keyInstall k => decide (k.slot < 8)
    | .clkRetune _ _ | .clkLoopReset _ | .tidePin _ | .tideUnpin | .logicStart _ | .logicStop | .logicRead _ | .logicWrite _ _ | .logicStage _ _
    | .provisionRoot _ | .manifestLoad _ _ | .manifestActivate _ | .manifestPromote | .confirm _ _ | .proposeWithdraw _ | .diagBundle
    | .direct _ => true
  e.formatOk && dl && param && c.bulkOk e.bulk && (!e.bulk || inRange 1 (16 * 2 ^ 20) e.bulkLen) && decide (e.keySlot < 8)

/-- What the bare state admits (R494). -/
def bareAdmits : BerthCmd → Bool
  | .provisionRoot _ | .keyInstall _ | .manifestLoad _ _ | .manifestActivate _ => true
  | .query off => blkAt off == .sys || blkAt off == .sec
  | _ => false

/-- Before all berths are open every entry is refused, with the time to 600 ms; the bare state has no such stage (R494). -/
def State.notReady (s : State) (c : BerthCmd) : Option Nat :=
  if s.host.ready then none
  else if s.sec.bare then (if bareAdmits c then none else some 0xFFFF)
  else some (max 10 ((s.sys.t0 + msec 600 - s.now + 999999) / 1000000))

/-! ### Tests 5 to 11: the target (R489) -/

/-- Why a command is refused: the reason, the delay in ms after which it would pass, and for STATE_REFUSED what the target names. -/
structure Verdict where
  reason : Reason
  retry : Nat := 0
  why : Option Refuse := none
deriving DecidableEq, Repr, Inhabited

/-- The state of the target refuses. -/
def stateTest (r : Option Refuse) : Option Verdict := r.map fun x => { reason := .stateRefused, why := some x }

/-- A created target is tested further. -/
def created (c : Bool) (next : Option Verdict) : Option Verdict := if c then next else some { reason := .notCreated }

/-- The owner tests of a field channel for the host (R27, R310). -/
def State.hostChannel (s : State) (n : Nat) : Option Verdict :=
  let c := s.fioCh (s.gangLead n)
  created c.cfg.isSome <|
    if c.owner = some .trip then some { reason := .tripChannel }
    else if c.owner = some .host then none
    else some { reason := .notOwner }

/-- The items of a PROPOSE name targets that are created (R489, R540). -/
def State.itemsCreated (s : State) (p : Propose) : Bool :=
  p.items.all fun i => match i with
    | .protSetting e _ _ _ _ => (s.elem? e).isSome
    | .zoneSetting z _ _ _ => decide (z < s.manifest.diff.length)
    | .unitSetting u _ _ _ => (s.fu? u).isSome
    | .acqSwap c _ => (s.ain? c).isSome
    | .logicExchange _ => s.blkCreated .logic
    | _ => true

/-- The first of tests 5 to 11 that fails, with its reason (R489). -/
def State.targetTest (s : State) (c : BerthCmd) : Option Verdict :=
  match c with
  | .query off => created (s.blkCreated (blkAt off)) none
  | .clkRetune l _ => stateTest (s.refuseRetune l)
  | .clkLoopReset l => stateTest (s.refuseLoopReset l)
  | .tidePin x => created (s.blkCreated .tide) (stateTest (s.refusePin x))
  | .tideUnpin => created (s.blkCreated .tide) (stateTest s.refuseUnpin)
  | .tideMark n m =>
    created (s.blkCreated .tide) <|
      match m.action with
      | .fioEdge => (s.hostChannel m.target).orElse fun _ => stateTest (s.refuseMark n m .host)
      | .captSnapshot => created (s.engine m.target).created (stateTest (s.refuseMark n m .host))
      | .formStep => created (s.fu? m.target).isSome (stateTest (s.refuseMark n m .host))
      | .logicRelease => created (s.task? m.target).isSome (stateTest (s.refuseMark n m .host))
      | .none | .logRecord => stateTest (s.refuseMark n m .host)
  | .powClose k _ => created (s.powCfg? k).isSome (stateTest (s.refusePow k))
  | .acqSwap ch crc =>
    match s.ain? ch with
    | none => some { reason := .notCreated }
    | some a => if a.protected_ then some { reason := .twoPartyOnly } else stateTest (s.refuseSwap ch crc)
  | .sgSelect g => created (s.blkCreated .prot) (stateTest (s.refuseGroup g .host s.sgStatus))
  | .unit u x => created (s.fu? u).isSome (stateTest (s.refuseUnit u x false))
  | .unitSetpoint u t => created (s.fu? u).isSome (stateTest (s.refuseUnit u (.setpoint t) false))
  | .unitStage u st => created (s.fu? u).isSome (stateTest (s.refuseUnit u (.stage st) false))
  | .bridgeRestore b =>
    match s.form.units.find? fun x => x.bridgeNos.contains b with
    | none => some { reason := .notCreated }
    | some x => stateTest (s.refuseUnit x.cfg.unit (.restore b) false)
  | .gateClear b => created (s.gateLink? b).isSome (stateTest (s.refuseClear b))
  | .fioSet n _ | .fioClear n | .fioResume n => s.hostChannel n
  | .logicStart _ => created (s.blkCreated .logic) (stateTest (s.refuseLogic (s.logic.phase = .stopped || s.logic.phase = .halted)))
  | .logicStop => created (s.blkCreated .logic) (stateTest (s.refuseLogic (s.logic.phase = .running)))
  | .logicRead addrs =>
    created (s.blkCreated .logic && addrs.all fun a => s.manifest.logic.vars.any (·.addr == a)) none
  | .logicWrite a _ =>
    match s.manifest.logic.vars.find? (·.addr == a) with
    | none => some { reason := .notCreated }
    | some v => created (s.blkCreated .logic) (if v.hostWritable then none else some { reason := .notWritable })
  | .logicEvent t _ =>
    match s.task? t with
    | none => some { reason := .notCreated }
    | some x => match x.cfg.kind with
      | .event _ l => stateTest (s.refuseLogic (l.contains .command))
      | _ => stateTest (s.refuseLogic false)
  | .logicStage _ _ => created (s.blkCreated .logic) none
  | .captArm e => created (s.engine e).created (stateTest (s.refuseArm e))
  | .captDisarm e => created (s.engine e).created (stateTest (s.refuseDisarm e))
  | .captTrigger e => created (s.engine e).created (stateTest (s.refuseTrigger e))
  | .captSet e pre post =>
    created (s.engine e).created (if (s.engine e).setBeyond pre post then some { reason := .envelope } else stateTest (s.refuseCaptSet e))
  | .captLock e => created (s.engine e).created (stateTest (s.refuseLock e))
  | .captUnlock e => created (s.engine e).created none
  | .netPortAdmin p _ => created (s.port? p).isSome (stateTest (s.refusePort p))
  | .doorClose d => created (s.blkCreated .adeid) (stateTest (s.refuseClose d))
  | .doorOpen d => created (s.blkCreated .adeid) (stateTest (s.refuseOpen d))
  | .provisionRoot _ => stateTest s.refuseRoot
  | .keyInstall k => stateTest (s.refuseInstall k)
  | .manifestLoad b _ => stateTest (s.refuseLoad b)
  | .manifestActivate b => stateTest (s.refuseActivate b)
  | .manifestPromote => stateTest s.refusePromote
  | .propose p => created (s.itemsCreated p) (stateTest (s.refusePropose p))
  | .confirm id _ => stateTest (s.refuseConfirm id)
  | .proposeWithdraw id => stateTest (s.refuseConfirm id)
  | .diagBundle => none
  | .direct _ => some { reason := .twoPartyOnly }

/-! ### Tests 14 to 16: tokens, berths, the deadline (R490, R491) -/

/-- A delay in ns as a RETRY of at least 1 ms (R490). -/
def retryMs (d : Ns) : Nat := max 1 ((d + 999999) / 1000000)

/-- The delay after which a source has a whole token; a source without a rate never has (R490). -/
def State.tokenRetry (s : State) (x : Source) : Nat :=
  if x.cfg.rate = 0 then 0 else max 1 (((1 - s.tokensNow x) * 1000 / (x.cfg.rate : Num)).ceil.toNat)

/-- A source's bucket holds a token. -/
def State.rateTest (s : State) (src : Nat) : Option Verdict :=
  let x := nth s.host.sources src {}
  if s.tokensNow x < 1 then some { reason := .rate, retry := s.tokenRetry x } else none

/-- Reserved berths of a source that are free (R491). -/
def HostState.reservedFree (h : HostState) (src : Nat) : Nat :=
  (nth h.sources src {}).cfg.berths - (h.berths.filter fun b => b.any fun i => i.reserved && i.src == src).length

/-- The berth that an item of a source takes, the free one of the lowest number, and whether it is a reserved one (R491). -/
def HostState.freeBerth (h : HostState) (src : Nat) : Option (Nat × Bool) :=
  let res := decide (0 < h.reservedFree src)
  if res || decide (0 < h.sharedFree) then (h.berths.findIdx? (·.isNone)).map fun b => (b, res) else none

/-- What the deadline test computes: the end on each executor, and the sum of the service times (R490). -/
structure Plan where
  fb : Ns
  fs : Ns
  fc : Ns
  service : Ns
deriving DecidableEq, Repr, Inhabited

/-- The plan of an entry that arrives now (R490). -/
def State.plan (s : State) (e : Entry) : Plan :=
  let h := s.host
  let sB := if e.bulk then usec 10 + 2 * e.bulkLen else 0
  let sS := if e.passesSig then usec 150 + (if e.bulk then 4 * e.bulkLen else 0) else 0
  let sC := e.cls.ctl
  let fb := if e.bulk then max s.now h.fBulk + sB else s.now
  let fs := if e.passesSig then max fb h.fSig + sS else fb
  { fb, fs, fc := max fs h.fCtl + sC, service := sB + sS + sC }

/-- The deadline test; an item whose service alone exceeds its deadline would never pass (R490). -/
def State.deadlineTest (s : State) (e : Entry) (c : BerthCmd) (d : Ns) : Option Verdict :=
  let p := s.plan e
  let w := s.targetWait c + usec 2
  if p.fc + w ≤ s.now + d then none
  else some { reason := .deadline, retry := if d < p.service + w then 0 else retryMs (p.fc + w - (s.now + d)) }

/-- Tests 1 to 3 (R489). -/
def State.entryTest (s : State) (e : Entry) : Option Verdict :=
  match e.cmd with
  | none => some { reason := .badOpcode }
  | some c =>
    if !s.formatOk e c then some { reason := .badFormat }
    else (s.notReady c).map fun r => { reason := .notReady, retry := r }

/-- Tests 4 to 11 and 14 to 16 at the node that carries the command out (R489). -/
def State.localTest (s : State) (src : Nat) (e : Entry) (c : BerthCmd) (d : Ns) : Option Verdict :=
  if s.clk.degraded then some { reason := .clockDegraded }
  else (s.targetTest c).orElse fun _ => (s.rateTest src).orElse fun _ =>
    if (s.host.freeBerth src).isNone then some { reason := .noBerth, retry := 1 } else s.deadlineTest e c d

/-- Every test of an entry that this node carries out (R489). -/
def State.admission (s : State) (src : Nat) (e : Entry) (d : Ns) : Option Verdict :=
  (s.entryTest e).orElse fun _ => e.cmd.bind fun c => s.localTest src e c d

end Sys2Proof.Machine
end

