-- ==== Sys2Proof/Machine/SysOps.lean ====
section
/-! DEFINITION. Operations of SYS: supplies, start-up stages, last-words, resets, the host link's loss (spec/17_startup_power_reset.md; spec/15_host_cluster_berths.md R482). -/

namespace Sys2Proof.Machine

open Sys2Proof

/-! ### The logic supply (R553, R554) -/

/-- The level of a voltage in mV, without the 10 ms of qualification (R553). -/
def rawLevel (mv : Nat) : SupplyLevel := if mv < 9000 then .absent else if mv < 16800 then .low else if mv ≤ 32000 then .ok else .over

/-- An input counts towards a valid supply (R553). -/
def SupplyLevel.counts : SupplyLevel → Bool
  | .ok | .over => true
  | _ => false

/-- An input leaves LOW or ABSENT for OK only after 10 ms at 16.8 V or more (R553). -/
def Supply.settle (x : Supply) (now : Ns) : Supply :=
  if x.okSince.any fun t => decide (t + msec 10 ≤ now) then { x with level := rawLevel x.mv } else x

/-- The 10 µs mean of an input becomes `mv` (R553). -/
def Supply.measure (x : Supply) (mv : Nat) (now : Ns) : Supply :=
  let raw := rawLevel mv
  let x := { x with mv := mv, okSince := if raw.counts then (if x.okSince.isSome then x.okSince else some now) else none }
  if raw = .ok ∧ !x.level.counts then x.settle now else { x with level := raw }

/-- An input of the logic supply. -/
def SysState.supply (y : SysState) (vlb : Bool) : Supply := if vlb then y.vlb else y.vla
def SysState.setSupply (y : SysState) (vlb : Bool) (x : Supply) : SysState := if vlb then { y with vlb := x } else { y with vla := x }

/-- Both inputs, and exactly one of them, are OK (R554). -/
def SysState.dual (y : SysState) : Bool := y.vla.level.counts && y.vlb.level.counts
def SysState.onlyOne (y : SysState) : Bool := y.vla.level.counts != y.vlb.level.counts

/-- Both inputs are OK again (R554). -/
def State.supplyDual (s : State) : State :=
  if s.sys.single && s.sys.dual then ((s.onSys fun y => { y with single := false }).raise .sys 1).report .supplyDual else s

/-! ### The host link is gone (R482, R566) -/

/-- The rings are disabled, fetching stops, and the loss is logged (R482). -/
def State.hostGone (s : State) : State :=
  let s := s.onHost fun h => { h with linkUp := false, frTx := false, frRx := false, rings := h.rings.map CmdRing.off }
  (s.raise .host 9).report .hostLinkDown

/-- The HOST block's registers at their reset values, MSI-X cleared; berths in flight and what they depend on run on (R482, R566). -/
def HostState.cleared (h : HostState) : HostState :=
  { ready := h.ready, berths := h.berths, fBulk := h.fBulk, fSig := h.fSig, fCtl := h.fCtl, qBulk := h.qBulk, qSig := h.qSig, qCtl := h.qCtl
    lateEpisode := h.lateEpisode, forwards := h.forwards, nextReq := h.nextReq, regs := h.regs, accesses := h.accesses
    sources := h.sources.map fun x => { cfg := x.cfg, tokens := x.tokens, tTok := x.tTok } }

/-! ### Resets (R563 to R566) -/

/-- The logbook after a reset of CORE: what lies in MRAM, and LOG_AON (R400, R566). -/
def LogState.afterReset (l : LogState) (well : Bool) : LogState :=
  { bankA := l.bankA, bankB := l.bankB, headA := l.headA, headB := l.headB, tailSlots := l.tailSlots, epoch := l.epoch, next := l.next, oldest := l.oldest
    frozenFirst := l.frozenFirst, switch := l.switch, reserve := l.reserve, bankFail := l.bankFail, bothFail := l.aonBoth && well
    aonBoth := l.aonBoth && well, aonA := l.aonA && well, aonB := l.aonB && well }

/-- SEC after a reset of CORE: antifuses, keys, slots and overlays; proposals are lost (R542, R566). -/
def SecState.afterReset (x : SecState) : SecState :=
  { root := x.root, keys := x.keys, slotA := x.slotA, slotB := x.slotB, floor := x.floor, devices := x.devices, deviceLost := x.deviceLost
    tallyKey := x.tallyKey, tallyRollback := x.tallyRollback, tallyEpoch := x.tallyEpoch }

/-- DIAG after a reset of CORE: the ledger as committed and the refresh pass (R577, R581). -/
def DiagState.afterReset (d : DiagState) : DiagState :=
  { ledger := d.stored, stored := d.stored, refresh := { d.refresh with cursor := d.refresh.stored, skipped := [] }, lifeUsed := d.stored.lifeUsed }

/-- FIO after a reset of CORE: the field side keeps its configuration and its outputs; the logic side knows nothing (R311, R322, R566). -/
def FioState.afterReset (f : FioState) : FioState :=
  { f with
    event := {}
    groups := f.groups.map fun g => { g with link := false, lost := false, handshakeFail := false, rehandshake := true, sched := [], schedWait := [] }
    chans := f.chans.map fun c => { c with sent := [], cmd := false } }

/-- What a lane shows after a reset of CORE: one that was OUT is so until its boot test has passed (R192). -/
def Lane.afterReset (x : Lane) : Lane := if x.phase = .out then { phase := .out, outCause := x.outCause } else {}

/-- Every domain but TIME is reset; what lies in MRAM, in antifuses and on the field side stays (R566). `well`: the always-on well had
power. The caller sets SYS, HOST and the local time counter. -/
def State.coreReset (s : State) (well : Bool) : State :=
  { now := s.now, ltc := s.ltc, fresh := s.fresh, pending := s.pending
    clk := { tokens := s.clk.tokens, seen := s.clk.seen }
    tide := { pow := s.tide.pow }
    prot := { laneA := s.prot.laneA.afterReset, laneB := s.prot.laneB.afterReset }
    logic := { groups := s.logic.groups.map Group.afterReset }
    fio := s.fio.afterReset
    capt := { engines := s.capt.engines.map fun e => { num := e.num } }
    log := s.log.afterReset well
    sec := s.sec.afterReset
    diag := s.diag.afterReset
    adeid := { holdRenewed := s.now } }

/-- Last-words ends, or the supply has gone: power-on reset is held until the supply is valid (R563). -/
def State.powerReset (s : State) : State :=
  let y := s.sys
  { s.coreReset s.powered with ltc := 0, sys := { vla := y.vla, vlb := y.vlb, cause := .lastwordsEnd } }

/-- The domains that a restart resets: all but TIME, and on WATCHDOG all but PCIE as well (R566). -/
def resetDomains (c : ResetCause) : List Bool := (List.range 8).map fun d => d != 6 && !(c == .watchdog && d == 3)

/-- RST_N or the system watchdog: TIME keeps counting, and the timeline starts anew. On WATCHDOG the host's side of the crossings goes on, and
holds what waits for the parts that are reset (R112, R114, R565, R566). -/
def State.restart (s : State) (c : ResetCause) (longRst : Bool) : State :=
  let y := s.sys
  let t := (s.coreReset true).measureBackup
  { t with
    clk := { t.clk with inReset := resetDomains c, xings := if c = .watchdog then s.clk.xings else [] }
    ptp := { timeKnown := s.ptp.timeKnown, synced := s.ptp.synced, eLast := s.ptp.eLast, tLast := s.ptp.tLast, servoPpm := s.ptp.servoPpm }
    sys :=
      { vla := y.vla, vlb := y.vlb, single := y.single, singleSince := y.singleSince, supplyValid := true, held := false, t0 := s.now, cause := c
        longRst := longRst, wdStarts := if c = .watchdog then s.now :: y.wdStarts.filter fun t => decide (s.now < t + secs 600) else y.wdStarts } }

/-! ### Start-up (R556, R557, R568, R575) -/

/-- The time of a stage from T0 (R556). -/
def stageDue (n : Nat) : Ns := msec (nth [0, 25, 30, 70, 100, 100, 150, 250, 300, 400, 500, 600] n 600)

/-- Stage 1: the hold-up store is charged, and the loops start on the TCXO in mode ×1 (R91, R94, R556, R562). -/
def State.stageLoops (s : State) : State :=
  let s := s.onSys fun y => { y with holdupOk := true }
  let start : Loop := { phase := if s.clk.tcxoOk then .acquiring else .off, waitRef := !s.clk.tcxoOk, acqAt := s.now }
  s.onClk fun c => { c with spll0 := start, spll1 := start, mpll := start }

/-- Since when a system loop is QUALIFIED, or DEGRADED holds: what stage 2 waits for (R557). -/
def State.loopsReady (s : State) : Option Ns :=
  if s.clk.degraded then some s.clk.degSince
  else match s.clk.spll0.qualSince, s.clk.spll1.qualSince with
    | some a, some b => some (min a b)
    | some a, none => some a
    | none, r => r

/-- Stage 2 has waited for its loops: it and every later stage begin later by the same delay (R556, R557). -/
def State.stageLate (s : State) : State :=
  let due := s.sys.t0 + stageDue 2 + s.sys.delay
  let late := s.loopsReady.getD due - due
  if late = 0 then s else
    ((s.onSys fun y => { y with delay := y.delay + late }).raise .sys 6).report .sysStageLate 2 [2, late]

/-- One loop QUALIFIED at stage 2 becomes the active one (R557). -/
def State.connectLoop (s : State) : State :=
  if s.clk.connected || s.clk.degraded then s
  else s.onClk fun c => { c with connected := true, active1 := !c.spll0.qualified }

/-- A lane after its known-answer test at boot (R158, R192, R575). -/
def State.bootLane (s : State) (l : LaneId) (pass dead : Bool) : State :=
  let was := (s.prot.lane l).phase = .out
  let s := s.onLane l fun _ => { katPass := pass, bootKat := pass, ecc := dead }
  if !pass then s.laneOut l .kat
  else if dead then s.laneOut l .ecc
  else s.when was fun s => s.report .laneRestored (laneNum l) [laneNum l, 0]

/-- The boot MRAM check: slots, logbook, records of recovery (R419, R420, R531, R575). -/
def State.bootMram (s : State) (x : BootIn) : State :=
  let bad := x.bankAFail || x.bankBFail || x.slotAFail || x.slotBFail
  let s := s.testResult .mram (if x.bankAFail || x.slotAFail then 6 else 7) (!bad)
  let s := s.onSec fun k => { k with slotA := { k.slotA with memError := x.slotAFail }, slotB := { k.slotB with memError := x.slotBFail } }
  let s := s.logBoot x.torn
  s.when (if s.log.reserve then x.bankBFail else x.bankAFail) fun s => s.logBankFail id 2

/-- The boot self-tests (R575). -/
def State.bootTests (s : State) (x : BootIn) : State :=
  let s := (s.forEach x.deadBlocks fun s b => s.testFailed .sram b.num).onSys fun y => { y with dead := x.deadBlocks }
  let s := s.when (x.deadA || x.deadB) fun s => s.testFailed .sram Blk.prot.num
  let s := s.when x.dramFail fun s => s.testFailed .dram 0
  let s := s.bootMram x
  let s := (s.testResult .crypto 0 (!x.cryptoFail)).onSec fun k => { k with cryptoFail := x.cryptoFail }
  let s := s.testResult .protKat (b2n x.katA) (x.katA && x.katB)
  let s := (s.bootLane .a x.katA x.deadA).bootLane .b x.katB x.deadB
  let s := s.chkKat x.chkFailed
  match x.guardFail with
  | some l =>
    let s := s.testFailed .clkGuard l.num
    if (s.loop l).phase ≠ .locked then s else if l = .mpll then s.mpllLost else s.loopGuarded l
  | none => s.testResult .clkGuard 0 true

/-- Keys are verified against the root; a slot whose key fails is treated as empty (R527). -/
def State.bootKeys (s : State) (bad : List Nat) : State :=
  s.forEach (List.range 8) fun s i =>
    let k := nth s.sec.keys i {}
    if !(k.present || k.bad) then s else
      let fails := bad.contains i
      let s := s.onSec fun x => { x with keys := updAt x.keys i fun k => { k with present := !fails, bad := fails } }
      s.when fails fun s => s.report .secKeyBad i [i]

/-- A slot goes live at start-up: its Manifest with its overlay, and MANIFEST_LIVE (R532). -/
def State.bootLive (s : State) (b : Bool) : State :=
  let s := { s.setLive b with manifest := (s.sec.slot b).manifest }
  s.report .manifestLive 0xFFFF [b2n b, s.sec.liveId.toNat, s.sec.liveRollback]

/-- Stage 3: slot A, else slot B (R40, R532). -/
def State.bootChoice (s : State) (x : BootIn) : State :=
  let s := s.bootKeys x.badKeys
  let s := s.verifySlot false
  if s.sec.slotA.phase = .valid then s.bootLive false
  else
    let s := s.verifySlot true
    if s.sec.slotB.phase ≠ .valid then s else
      let s := s.bootLive true
      (s.raise .sec 1).report .manifestFallback 0xFFFF [s.sec.slotA.manifest.struct.profile.num, s.manifest.struct.profile.num]

/-- Units that fail the lockstep self-test are BLOCKED with the cause LOCKSTEP (R242, R575). -/
def State.bootLockstep (s : State) (bad : List Nat) : State :=
  s.forEach bad fun s u =>
    ((s.testFailed .formLockstep u).formBlocked u .lockstep).onUnit u fun y => { y with lockstepTest := true }

/-- Stage 4: the domains are out of reset for every access, and the structure is instantiated from the live Manifest, or the device stays bare
(R533, R556, R561, R566). -/
def State.stageStructure (s : State) (x : BootIn) : State :=
  let s := s.leaveReset
  if s.sec.live then s.instantiate.bootLockstep x.lockstepFailed else s.goBare

/-- Stage 7: PROT ready, the Manifest's marks, the capture engines with ARM_AT_START (R68, R158, R384). -/
def State.stageProt (s : State) : State :=
  let s := s.protBegin.tideReady
  let s := s.forEach s.manifest.marks fun s m =>
    if (s.refuseMark m.1 m.2 .manifest).isNone then s.armMark m.1 m.2 .manifest else s.markPast m.2
  s.forEach (List.range 4) fun s e =>
    let x := s.engine e
    if x.created && x.cfg.armAtStart && decide (x.phase = .disarmed) && (s.refuseArm e).isNone then s.captArmed e else s

/-- The third WATCHDOG start within 600 s (R568). -/
def State.watchdogLoop (s : State) : Bool := decide (s.sys.cause = .watchdog ∧ 3 ≤ s.wdRecent)

/-- Stage 10: the LOGIC start asks for WARM or COLD (R358, R568). -/
def State.stageLogic (s : State) : State :=
  let forced := s.sys.longRst || s.watchdogLoop
  let s := s.when forced fun s => s.onSys fun y => { y with logicColdForced := true }
  let s := s.when s.watchdogLoop fun s => s.report .sysWatchdogLoop
  s.when (s.blkCreated .logic) fun s => s.startLogic (!forced && !s.manifest.logic.startCold)

/-- What happens as a stage begins (R556). -/
def State.stageAction (s : State) (n : Nat) (x : BootIn) : State :=
  match n with
  | 1 => (s.reach 1).stageLoops
  | 2 => ((s.stageLate.connectLoop.reach 2).openStaging).bootTests x
  | 3 => (s.reach 3).bootChoice x
  | 4 => s.stageStructure x
  | 7 => (s.reach 7).stageProt
  | 8 => (s.reach 8).scheduleDoors (s.sys.t0 + s.sys.delay)
  | 9 => ((s.reach 9).onNet fun n => { n with intakeOpen := true }).startGoose
  | 10 => (s.reach 10).stageLogic
  | 11 => ((s.reach 11).onHost fun h => { h with ready := true }).onAdeid fun a => { a with ready := true }
  | n => s.reach n

/-- The TCXO has never qualified by the time of stage 2: no reference exists (R89, R557). -/
def State.missReference (s : State) : State :=
  if s.sys.stage = 1 ∧ !s.clk.tcxoOk ∧ !s.clk.refNone then s.noReference else s

/-! ### Last-words (R562) -/

/-- One downlink carrying BLOCK to every bridge of a created unit, for the next boundary (R562). -/
def State.blockBridges (s : State) : State :=
  s.forEach s.form.units fun s x => s.forEach x.bridgeNos fun s br => s.sendBlock br (x.cycle + 1) (x.t0 + x.cfg.rate.ts) x.cfg.rate.ts false

/-- The retained commits in progress and waiting are completed (R362). -/
def State.finishCommits (s : State) : State :=
  s.forEach (List.range s.logic.groups.length) fun s m => (s.commitDone m).commitDone m

/-- The domains that are shed: SerDes, FABRIC, PCIE, DSP, MEAS and DRAM (R562). -/
def shedDomains : List Nat := [1, 2, 3, 4, 5, 7]

/-- The steps of last-words, in their order (R562, R564). -/
def State.lastWords (s : State) : State :=
  let va := s.sys.vla.mv
  let vb := s.sys.vlb.mv
  let records := s.log.ready && s.sys.holdupOk
  let s := s.endCheckWindow.logIntakeAll
  let s := s.onSys fun y => { y with lastwords := true, lastwordsAt := s.now }
  let s := (s.closeDoors 2).blockBridges
  let s := s.forEach ((List.range 12).filter fun g => (s.fioGroup g).accepted) fun s g => s.fioSafe g
  let s := s.onCapt fun c => { c with engines := c.engines.map Engine.stop }
  let s := s.abandonCycles.finishCommits
  let s := s.onClk fun c => { c with stopped := c.stopped.zipIdx.map fun x => x.1 || shedDomains.contains x.2 }
  let s := s.onDiag fun d => { d with ledger := { d.ledger with lastwords := d.ledger.lastwords + 1 } }
  let s := s.onDiag fun d => { d with stored := d.ledger }
  let s := if records then s.logLastwords va vb else s.onLog fun l => { l with lastwords := true }
  (s.onAcq fun a => { a with running := false }).onDiag fun d => { d with alertLow := true }

end Sys2Proof.Machine
end

