-- ==== Sys2Proof/Machine/HostOps.lean ====
section
/-! DEFINITION. Operations of the host port: completions, refusals, admission, the forward table, rings and their doorbells (spec/15_host_cluster_berths.md R482 to R494, R503, R512). -/

namespace Sys2Proof.Machine

open Sys2Proof

def State.ring (s : State) (r : Nat) : CmdRing := nth s.host.rings r {}
def State.onRing (s : State) (r : Nat) (f : CmdRing → CmdRing) : State := s.onHost fun h => { h with rings := updAt h.rings r f }

/-! ### Completions (R482, R484, R486) -/

/-- Completion slots that no entry has reserved and no completion fills. -/
def CmdRing.slotsFree (r : CmdRing) : Nat := r.entries - r.filled - r.reserved

/-- As many published entries are fetched as completion slots can be reserved for them (R484). -/
def CmdRing.fetch (r : CmdRing) : CmdRing :=
  if !r.enable || r.error then r else
    let k := min r.unfetched r.slotsFree
    { r with unfetched := r.unfetched - k, waiting := r.waiting + k, reserved := r.reserved + k, head := (r.head + k) % r.entries }

/-- A completion takes the next slot; PHASE changes after each pass through the ring (R486). -/
def CmdRing.complete (r : CmdRing) (c : Completion) : CmdRing :=
  let last := decide (r.tail + 1 = r.entries)
  { r with
    written := { c with phase := r.phase } :: r.written, tail := (r.tail + 1) % r.entries, phase := r.phase != last
    filled := r.filled + 1, reserved := r.reserved - 1 }

/-- The vector of a ring is raised, or held back until HOLDOFF has passed since its last message (R512). -/
def State.ringVector (s : State) (r : Nat) : State :=
  let x := s.ring r
  if x.irqAt.any fun t => decide (s.now < t + usec x.holdoff) then s.onRing r fun x => { x with irqHeld := true }
  else (s.onRing r fun x => { x with irqAt := some s.now, irqHeld := false }).onHost fun h => h.vector r

/-- A completion is written to its ring, or, where it cannot be, dropped and counted (R482, R486). -/
def State.ringComplete (s : State) (r : Nat) (c : Completion) (notify : Bool) : State :=
  if s.host.linkUp && (s.ring r).enable && !s.sys.lastwords then
    (s.onRing r fun x => x.complete c).when notify fun s => s.ringVector r
  else
    ((s.onRing r fun x => { x with reserved := x.reserved - 1 }).onHost fun h => { h with cplDropped := satInc 32 h.cplDropped }).raise .host 7

/-! ### Refusals (R489, R490, R492) -/

/-- HOST_EVENT bits of a refusal beside REFUSED (R514). -/
def Reason.eventBit : Reason → Option Nat
  | .rate => some 2
  | .deadline => some 3
  | _ => none

/-- A refusal other than STATE_REFUSED is counted per source, and logged once per episode of the source (R492). -/
def State.countRefusal (s : State) (src : Nat) (v : Verdict) : State :=
  let x := nth s.host.sources src {}
  let fresh := x.refusedAt.all fun t => decide (t + secs 1 ≤ s.now)
  let s := s.onHost fun h => { h with sources := updAt h.sources src fun x =>
    { x with refused := satInc 24 x.refused, lastReason := v.reason.num, refusedAt := some s.now } }
  let s := match v.reason.eventBit with
    | some i => s.raise .host i
    | none => s
  (s.raise .host 0).when fresh fun s => s.report .hostRefusals src [src, v.reason.num]

/-- STATE_REFUSED at admission is logged by the target block; a mark that is past has a record of its own (R71, R492, R621). -/
def State.stateRefused (s : State) (src : Nat) (e : Entry) (r : Refuse) : State :=
  let s := s.raiseRefused
  let s := match e.cmd with
    | some (.tideMark _ m) => s.markPast m
    | _ => s
  s.reportRefused r e.opcode .admission (if src = 16 then .harbour else .ring) e.tag

/-- The traces that a refusal leaves. -/
def State.noteRefusal (s : State) (src : Nat) (e : Entry) (v : Verdict) : State :=
  match v.why with
  | some r => s.stateRefused src e r
  | none => s.countRefusal src v

/-- The completion of a refused entry (R486, R490). -/
def State.refusedCompletion (s : State) (e : Entry) (v : Verdict) : Completion :=
  { tag := e.tag, opcode := e.opcode, status := .refused, reason := v.reason.num, node := s.adeid.node, retry := v.retry
    tAdmit := s.ts32, tDone := s.ts32, result := (v.why.map fun r => r.st0.zeroExtend 64).getD 0 }

/-! ### Admission (R487, R490, R491) -/

/-- The first stage of an entry (R488). -/
def Entry.firstStage (e : Entry) : Stage := if e.bulk then .bulk else if e.passesSig then .sig else .ctl

/-- A source spends a token on an admission (R490). -/
def State.spendToken (s : State) (src : Nat) : State :=
  let t := s.tokensNow (nth s.host.sources src {})
  s.onHost fun h => { h with sources := updAt h.sources src fun x => { x with tokens := t - 1, tTok := s.now, accepted := x.accepted + 1 } }

/-- An entry that passes every test takes its berth and its place in the executors that it passes through (R487, R488, R490). A CONFIRM
stops the window of its proposal (R541). -/
def State.admitItem (s : State) (src : Nat) (e : Entry) (d : Ns) (req : Option Word) : State :=
  match s.host.freeBerth src with
  | none => s
  | some (b, res) =>
    let p := s.plan e
    let it : Item :=
      { src, entry := e, reqId := req, reserved := res, tAdmit := s.now, tsAdmit := s.ts32, due := s.now + d, stage := e.firstStage }
    let s := (s.spendToken src).onHost fun h =>
      let h := { h with
        berths := h.berths.set b (some it)
        fBulk := if e.bulk then p.fb else h.fBulk, fSig := if e.passesSig then p.fs else h.fSig, fCtl := p.fc
        qBulk := if e.bulk then h.qBulk ++ [b] else h.qBulk, qSig := if e.passesSig then h.qSig ++ [b] else h.qSig, qCtl := h.qCtl ++ [b] }
      { h with peak := max h.peak h.inUse }
    match e.cmd with
    | some (.confirm id _) => s.stopWindow id b
    | _ => s

/-! ### Forwarding (R503) -/

/-- The entry is for another node (R485, R503): not for this device by 0xFF, nor by its own node number. -/
def State.elsewhere (s : State) (e : Entry) : Bool := e.node ≠ 0xFF && !(s.clustered && e.node == s.adeid.node)

/-- The harbour's tests of an entry that it forwards: 1, 2, 3, 12, 13 and 14; a node that is no harbour reaches no other (R489, R503). -/
def State.forwardTest (s : State) (r : Nat) (e : Entry) : Option Verdict :=
  (s.entryTest e).orElse fun _ =>
    if !s.harbour || !s.nodeReach e.node then some { reason := .unreachable }
    else if 256 ≤ s.host.forwards.length then some { reason := .forwardFull }
    else s.rateTest r

/-- A forwarded entry enters the forward table and leaves as CMD, its bulk data as fragments of 256 bytes, on both rings (R497, R503). -/
def State.forwardEntry (s : State) (r : Nat) (e : Entry) : State :=
  let req := s.host.nextReq
  let f : Forward := { reqId := req, ring := r, entry := e, tAdmit := s.now, tsAdmit := s.ts32, due := s.now + e.deadlineNs true }
  let s := (s.spendToken r).onHost fun h => { h with forwards := h.forwards ++ [f], nextReq := h.nextReq + 1 }
  let s := s.adeidSend e.node false (.cmd req e)
  s.forEach (List.range (if e.bulk then (e.bulkLen + 255) / 256 else 0)) fun s i => s.adeidSend e.node false (.bulk req i)

/-- A forwarded entry leaves the table with a completion in its ring (R503). -/
def State.forwardDone (s : State) (req : Word) (c : Completion) : State :=
  match s.host.forwards.find? (·.reqId == req) with
  | none => s
  | some f =>
    (s.onHost fun h => { h with forwards := h.forwards.filter (·.reqId != req) }).ringComplete f.ring
      { c with tag := f.entry.tag, opcode := f.entry.opcode } f.entry.notify

/-! ### Arrival (R489, R503) -/

/-- An entry of ring `r` is decided: forwarded, admitted, or refused with its completion (R489, R503). -/
def State.ringEntry (s : State) (r : Nat) (e : Entry) : State :=
  let far := s.elsewhere e
  let d := e.deadlineNs false
  match if far then s.forwardTest r e else s.admission r e d with
  | some v => (s.noteRefusal r e v).ringComplete r (s.refusedCompletion e v) e.notify
  | none => if far then s.forwardEntry r e else s.admitItem r e d none

/-- A forwarded command arrives at its target: every test as source 16 with the deadline less 2 × T_AD; a refusal is answered at once (R503, R505). -/
def State.cmdArrives (s : State) (from_ : Nat) (req : Word) (e : Entry) : State :=
  let d := e.deadlineNs true - 2 * tAd
  match s.admission 16 e d with
  | some v => (s.noteRefusal 16 e v).adeidSend from_ false (.cmdDone req (s.refusedCompletion e v))
  | none => s.admitItem 16 e d (some req)

/-! ### The end of an item (R486, R487, R493) -/

/-- A query is carried out on CTL: RESULT holds the register that it names (R488). -/
def State.runQuery (s : State) (b : Nat) : State :=
  match s.ctlCmd b with
  | some (.query off) =>
    let k := blkAt off
    let s := s.leaveCtl b
    if s.blkStopped k || s.blkRealigns k then s.failed b .execError
    else s.done b ((s.liveReg k (off - blkBase k)).zeroExtend 64)
  | _ => s

/-- In DEGRADED an item that is done after its deadline is LATE (R493). -/
def State.endStatus (s : State) (it : Item) (e : Ending) : Status :=
  if e.status = .done && s.clk.degraded && decide (it.due < s.now) then .late else e.status

/-- LATE is flagged, and logged once per episode (R493). -/
def State.noteLate (s : State) (st : Status) (src : Nat) : State :=
  if st ≠ .late then s else
    let s' := (s.raise .host 4).onHost fun h => { h with lateEpisode := true }
    s'.when (!s.host.lateEpisode) fun s => s.report .hostLate src

/-- The completion of an item that has ended is written, to its ring or back to the harbour, and its berth is free (R486, R487, R503). -/
def State.completeItem (s : State) (b : Nat) : State :=
  match s.item b with
  | none => s
  | some it =>
    match it.ending with
    | none => s
    | some e =>
      let st := s.endStatus it e
      let c : Completion :=
        { tag := it.entry.tag, opcode := it.entry.opcode, status := st, reason := (e.reason.map (·.num)).getD 0, berth := b, node := s.adeid.node
          tAdmit := it.tsAdmit, tDone := s.ts32, result := e.result }
      let s := (s.noteLate st it.src).onHost fun h => { h with berths := h.berths.set b none }
      match it.reqId with
      | some req => s.adeidSend 0 false (.cmdDone req c)
      | none => s.ringComplete it.src c it.entry.notify

/-! ### SIG (R529, R530) -/

/-- An executor has served an item; when it has none left, its F falls back to the present (R490). -/
def fallBack (q : List Nat) (f now : Ns) : Ns := if q.isEmpty then min f now else f

/-- Signature, key role and nonce pass (R529, R530); none does after a failed crypto self-test. `valid`: the signature verifies. -/
def State.sigPasses (s : State) (e : Entry) (valid : Bool) : Bool :=
  let k := nth s.sec.keys e.keySlot {}
  e.signed && valid && !s.sec.cryptoFail && k.present && decide (k.nonce < e.nonce) &&
    ((e.cmd.bind BerthCmd.role).all fun r => r == k.role)

/-- SIG fails an item: no stage follows, and the failure is flagged and logged (R530, R541). -/
def State.sigFailed (s : State) (b : Nat) (e : Entry) : State :=
  let s := (((s.leaveCtl b).failed b .sigFail).raise .sec 9).report .secSigFail e.keySlot [e.keySlot, e.opcode]
  match e.cmd with
  | some (.confirm id _) => s.confirmFailed id b
  | _ => s

/-! ### Doorbells and ring control (R483, R484, R486) -/

/-- A ring in ERROR is served no further until it is disabled and enabled again (R484). -/
def State.ringError (s : State) (r : Nat) : State :=
  ((s.onRing r fun x => { x with error := true }).raise .host 5).report .hostRingError r

/-- A new producer index publishes entries, and those are fetched; a bad one puts the ring in ERROR (R484). -/
def State.sqDoorbell (s : State) (r : Nat) (v : Word) : State :=
  let x := s.ring r
  let i := (v.extractLsb' 0 12).toNat
  if !x.enable || x.error then s
  else
    let new := (i + x.entries - x.producer) % x.entries
    if x.entries ≤ i || decide (x.entries < x.unfetched + new) then s.ringError r
    else s.onRing r fun x => { x with producer := i, unfetched := x.unfetched + new }.fetch

/-- A new consumer index releases completion slots; when every slot is filled, the unchanged index releases them all. An index beyond the
ring is a bad doorbell, and so is one beyond the completions written, which has no effect (R484, R486). -/
def State.cqDoorbell (s : State) (r : Nat) (v : Word) : State :=
  let x := s.ring r
  let i := (v.extractLsb' 0 12).toNat
  if !x.enable || x.error then s
  else if x.entries ≤ i then s.ringError r
  else
    let d := (i + x.entries - x.consumer) % x.entries
    let d := if d = 0 ∧ x.filled = x.entries then x.entries else d
    if x.filled < d then s.raise .host 5
    else s.onRing r fun x => { x with consumer := i, filled := x.filled - d }.fetch

/-- A ring starts empty when it is enabled (R483, R484). -/
def CmdRing.on (r : CmdRing) : CmdRing :=
  { r with
    enable := true, error := false, producer := 0, head := 0, tail := 0, consumer := 0, unfetched := 0, waiting := 0, filled := 0, phase := true
    written := [] }

/-- A write of HOST_RING_CTRL: SIZE cannot change while the ring is enabled; ENABLE starts or stops the ring (R483, R512). -/
def State.ringCtrl (s : State) (r : Nat) (v : Word) : State :=
  let x := s.ring r
  let size := (v.extractLsb' 2 4).toNat
  let hold := min 1000 (v.extractLsb' 8 10).toNat
  let sizeOk := !x.enable && decide (size ≤ 8)
  let s := s.when (x.enable && size != x.size) fun s => s.raise .host 5
  let s := s.onRing r fun x => { x with holdoff := hold, size := if sizeOk then size else x.size }
  if v.getLsbD 0 then (if x.enable then s else s.onRing r CmdRing.on) else s.onRing r CmdRing.off

end Sys2Proof.Machine
end

