-- ==== Sys2Proof/Machine/RegWrite.lean ====
section
/-! DEFINITION. Register writes (spec/00_scope.md R9, spec/19_register_map.md R591), and the frame rings (spec/13_network_and_time.md R434, spec/15_host_cluster_berths.md R512). -/

namespace Sys2Proof.Machine

open Sys2Proof

/-! ### Fields -/

/-- A new low or high half of a 64-bit register pair. -/
def setLo (x : BitVec 64) (v : Word) : BitVec 64 := x.extractLsb' 32 32 ++ v
def setHi (x : BitVec 64) (v : Word) : BitVec 64 := v ++ x.extractLsb' 0 32

/-! ### Frame rings (R434, R512) -/

/-- The entries of a frame ring by its SIZE field. -/
def frEntries (size : Nat) : Nat := 2 ^ (size + 4)

/-- A published frame enters the fabric through HP, and its descriptor is written back; a frame that HP cannot take is marked with ERROR
(R430, R434, R512). -/
def State.frSend (s : State) (f : Frame) : State :=
  let ok := s.takesFrames 44 && decide (64 ≤ f.len ∧ f.len ≤ 2048)
  let s := s.onHost fun h => { h with frDone := { len := f.len, own := false, error := !ok, ts := s.ts32 } :: h.frDone }
  s.when ok fun s => s.frameRx 44 f

/-- HOST_FR_DB: the TX index publishes frames while TX is enabled, the RX index frees descriptors; an index beyond its ring is a bad
doorbell (R484, R512). -/
def State.frDoorbell (s : State) (v : Word) (frames : List Frame) : State :=
  let h := s.host
  let tx := (v.extractLsb' 0 12).toNat
  let rx := (v.extractLsb' 16 12).toNat
  let nTx := frEntries h.frTxSize
  let nRx := frEntries h.frRxSize
  if (h.frTx && decide (nTx ≤ tx)) || (h.frRx && decide (nRx ≤ rx)) then s.raise .host 5
  else
    let k := (tx + nTx - h.frTxProd % nTx) % nTx
    let freed := min h.frRxFilled ((rx + nRx - h.frRxCons % nRx) % nRx)
    let s := s.when h.frRx fun s => s.onHost fun h => { h with frRxCons := rx, frRxFilled := h.frRxFilled - freed }
    s.when (h.frTx && decide (0 < k)) fun s =>
      let s := (s.onHost fun h => { h with frTxProd := tx, frTxHead := tx }).forEach (frames.take k) State.frSend
      s.onHost fun h => h.vector 16

/-- HOST_FR_CTRL: a ring that is enabled starts empty (R512). -/
def HostState.frCtrl (h : HostState) (v : Word) : HostState :=
  let tx := v.getLsbD 0
  let rx := v.getLsbD 1
  let sz := fun (p old : Nat) => let n := (v.extractLsb' p 4).toNat
                                 if n ≤ 8 then n else old
  let newTx := tx && !h.frTx
  let newRx := rx && !h.frRx
  { h with
    frTx := tx, frRx := rx, frTxSize := sz 2 h.frTxSize, frRxSize := sz 6 h.frRxSize
    frTxProd := if newTx then 0 else h.frTxProd, frTxHead := if newTx then 0 else h.frTxHead
    frRxCons := if newRx then 0 else h.frRxCons, frRxHead := if newRx then 0 else h.frRxHead
    frRxFilled := if newRx then 0 else h.frRxFilled }

/-! ### HOST (R483, R512, R599) -/

/-- A write of a ring's bases: while the ring is enabled it is ignored and counted as a bad doorbell (R483). -/
def State.ringBase (s : State) (r : Nat) (f : CmdRing → CmdRing) : State :=
  if (s.ring r).enable then s.raise .host 5 else s.onRing r f

/-- A write within a ring's registers (R512). -/
def State.ringWrite (s : State) (r o : Nat) (v : Word) : State :=
  if o = 0 then s.ringCtrl r v
  else if o = 4 then s.ringBase r fun x => { x with sqBase := setLo x.sqBase v }
  else if o = 8 then s.ringBase r fun x => { x with sqBase := setHi x.sqBase v }
  else if o = 0xC then s.ringBase r fun x => { x with cqBase := setLo x.cqBase v }
  else if o = 0x10 then s.ringBase r fun x => { x with cqBase := setHi x.cqBase v }
  else if o = 0x14 then s.sqDoorbell r v
  else if o = 0x1C then s.cqDoorbell r v
  else s

/-- A write of an MSI-X entry; unmasking it sends a message that is pending (R512). -/
def HostState.msixWrite (h : HostState) (i o : Nat) (v : Word) : HostState :=
  let h := { h with msix := updAt h.msix i fun m =>
    if o = 0 then { m with addr := setLo m.addr v }
    else if o = 4 then { m with addr := setHi m.addr v }
    else if o = 8 then { m with data := v }
    else { m with masked := v.getLsbD 0 } }
  if (nth h.msix i {}).masked then h else { h with pba := h.pba &&& ~~~(flag i true) }

def State.hostWrite (s : State) (o : Nat) (v : Word) : State :=
  if o = 0x20 then s.onHost fun h => { h with irqMask := v &&& 0x3FF }
  else if 0x100 ≤ o ∧ o < 0x500 then s.ringWrite ((o - 0x100) / 0x40) (o % 0x40) v
  else if o = 0x800 then s.onHost fun h => h.frCtrl v
  else if o = 0x804 then s.onHost fun h => { h with frTxBase := setLo h.frTxBase v }
  else if o = 0x808 then s.onHost fun h => { h with frTxBase := setHi h.frTxBase v }
  else if o = 0x80C then s.onHost fun h => { h with frRxBase := setLo h.frRxBase v }
  else if o = 0x810 then s.onHost fun h => { h with frRxBase := setHi h.frRxBase v }
  else if o = 0x814 then s.frDoorbell v []
  else if 0x2000 ≤ o ∧ o < 0x2200 then s.onHost fun h => h.msixWrite ((o - 0x2000) / 16) (o % 16) v
  else if o = 0x4000 then s.onHost fun h => { h with winBar4 := v.getLsbD 0, winBar4Wr := v.getLsbD 1 }
  else s

/-! ### Every register (R9, R591) -/

/-- TIDE_CONV (R85). -/
def State.convWrite (s : State) (o : Nat) (v : Word) : State :=
  let conv := fun (f : TideConv → TideConv) => s.onTide fun t => { t with conv := f t.conv }
  if o = 0xC0 then
    if v.getLsbD 0 then s.convGo (v.getLsbD 1) else conv fun c => { c with dir := v.getLsbD 1 }
  else if o = 0xC4 then conv fun c => { c with ns := setLo c.ns v }
  else if o = 0xC8 then conv fun c => { c with ns := setHi c.ns v }
  else if o = 0xCC then conv fun c => { c with angle := v }
  else if o = 0xD0 then conv fun c => { c with cycle := c.cycle.extractLsb' 32 16 ++ v }
  else if o = 0xD4 then conv fun c => { c with cycle := v.extractLsb' 0 16 ++ c.cycle.extractLsb' 0 32 }
  else s

/-- A write of a W1C register: bits written 1 clear, the counters stay (R9, R595). -/
def State.w1cWrite (s : State) (b : Blk) (o : Nat) (v : Word) : Option State :=
  if o = eventAt b then some (s.onEvent b fun e => e.write v)
  else if b = .fio ∧ 0x1000 ≤ o ∧ o < 0x2800 ∧ o % 0x20 = 8 then
    some (s.onCh (s.gangLead ((o - 0x1000) / 0x20)) fun c => { c with diag := c.diag.write v })
  else none

/-- A write of a register by its block and its offset within it. A read-only register, and an offset that no register occupies, ignore it
(R9, R591). -/
def State.blkWrite (s : State) (b : Blk) (o : Nat) (v : Word) : State :=
  match s.w1cWrite b o v with
  | some t => t
  | none =>
    match b with
    | .tide => s.convWrite o v
    | .acq =>
      if 0x100 ≤ o ∧ o < 0x400 ∧ o % 0x20 = 8 then s.bankWrite ((o - 0x100) / 0x20) v
      else if 0x8000 ≤ o ∧ o < 0x11000 then
        s.coefWrite ((o - 0x8000) / 0x600) (decide (0x300 ≤ (o - 0x8000) % 0x600)) ((o - 0x8000) % 0x300 / 4) v
      else s
    | .prot => if o = 0x40 then s.onProt fun p => { p with phSel := v &&& 0xF7FF } else s
    | .log =>
      if 0x1000 ≤ o ∧ o < 0x3000 ∧ o % 0x800 = 0 then s.cursorWrite ((o - 0x1000) / 0x800) v
      else if 0x1000 ≤ o ∧ o < 0x3000 ∧ o % 0x800 = 4 then
        s.onLog fun l => { l with hatches := updAt l.hatches ((o - 0x1000) / 0x800) fun x => { x with cursorHi := v } }
      else s
    | .chk => if 0x100 ≤ o ∧ o < 0x200 then s.chkWrite ((o - 0x100) / 0x20) (o % 0x20) v else s
    | .host => s.hostWrite o v
    | _ => s

/-- A write that reaches its block: on an item that is not created it has no effect and is recorded (R32). -/
def State.storeReg (s : State) (off : Nat) (v : Word) : State :=
  let b := blkAt off
  let o := off - blkBase b
  if s.itemCreated b o then s.blkWrite b o v else s.noteUninst b

/-! ### Lock crossings (R108, R109) -/

/-- The destination synchronises the request toggle and captures the value (R108 step 2). -/
def State.xingCapture (s : State) (x : Xing) : State :=
  match x.held with
  | some v => (s.onXing { x with captured := true, since := s.now }).storeReg v.1 v.2
  | none => s

/-- A transfer starts: the source register takes the value, and the request toggle flips. A stopped domain does not capture it (R108, R114). -/
def State.xingStart (s : State) (x : Xing) (off : Nat) (v : Word) : State :=
  let x := { x with held := some (off, v), captured := false, since := s.now, req := !x.req }
  if s.clk.isStopped x.domain then s.onXing x else s.xingCapture x

/-- A write while the register is held goes to the shadow; one that finds the shadow occupied replaces its value, which is lost and counted
(R109). -/
def State.xingShadow (s : State) (x : Xing) (off : Nat) (v : Word) : State :=
  let y := { x with shadow := some (off, v) }
  if x.shadow.isNone then s.onXing y else
    let s := s.onXing { y with overwrite := satInc 8 y.overwrite }
    (s.onClk fun c => { c with overwriteCount := satInc 16 c.overwriteCount, overwriteId := x.id }).raise .clk 9

/-- The crossing that serves the register at an offset from a source domain. -/
def State.regXing (s : State) (src off : Nat) : Xing := s.clk.xing (Config.xingId src off % 65536) src (blkDomain (blkAt off))

/-- A register is written from domain `src`: within its domain at once, into another through its crossing (R107 to R109). -/
def State.crossWrite (s : State) (src off : Nat) (v : Word) : State :=
  if blkDomain (blkAt off) = src then s.storeReg off v else
    let x := s.regXing src off
    if x.held.isSome then s.xingShadow x off v else s.xingStart x off v

/-- A host write of an offset takes effect at once: within HOST's own domain, or over a crossing that is free and whose domain runs. -/
def State.wayOpen (s : State) (off : Nat) : Bool :=
  blkDomain (blkAt off) = 3 || (!(s.regXing 3 off).held.isSome && !s.clk.isStopped (s.regXing 3 off).domain)

/-- A crossing as time passes: a waiting value is captured once the domain runs, and at the acknowledge the register is released and the
shadow's value crosses next (R108, R109, R114). -/
def State.xingTick (s : State) (id : Nat) : State :=
  match s.clk.xings.find? (·.id == id) with
  | none => s
  | some x =>
    if x.held.isNone || s.clk.isStopped x.domain then s
    else if !x.captured then s.xingCapture x
    else if !s.xingDone x then s
    else
      let free := { x with held := none, captured := false, shadow := none, ack := x.req }
      match x.shadow with
      | none => s.onXing free
      | some w => s.xingStart free w.1 w.2

/-- A host write of one register over BAR0: posted; to a stopped domain it is dropped and recorded (R113, R115, R481, R591). -/
def State.bar0Write (s : State) (off : Nat) (v : Word) : State :=
  match s.bar0Blocked off true with
  | some t => t
  | none => (s.crossWrite 3 off v).answer .written

/-- A write of one register by a block in domain `d`: within its domain at once; over a crossing that waits for its re-alignment it is
discarded and counted (R108, R113, R114). -/
def State.innerWrite (s : State) (d off : Nat) (v : Word) : State :=
  if blkDomain (blkAt off) ≠ d && s.blkRealigns (blkAt off) then s.xingDropped else s.crossWrite d off v

end Sys2Proof.Machine
end

