-- ==== Sys2Proof/Machine/Host.lean ====
section
/-! DEFINITION. The commands of HOST: rings, berths, the forward table, BAR4, register writes (spec/15_host_cluster_berths.md R480 to R494, R503 to R505, spec/19_register_map.md R591, R597). -/

namespace Sys2Proof.Machine

open Sys2Proof

/-! ### The link (R482) -/

/-- The PCI Express link comes up with Bus Master Enable set (R482, R513). -/
def execHostLinkUp (s : State) : Out := .next <| if s.sys.held then s else s.onHost fun h => { h with linkUp := true }

/-- The link is gone: rings are disabled, berths in flight run on (R482). -/
def execHostLinkDown (s : State) : Out := .next <| if s.host.linkUp then s.hostGone else s

/-! ### Rings (R483, R484, R486) -/

/-- A submission doorbell publishes entries, which are fetched, or puts the ring in ERROR (R484). -/
def execHostSqDb (r : Nat) (v : Word) (s : State) : Out := .next (s.sqDoorbell r v)

/-- A completion doorbell releases slots, so that more entries can be fetched (R484, R486). -/
def execHostCqDb (r : Nat) (v : Word) (s : State) : Out := .next (s.cqDoorbell r v)

/-- A write of HOST_RING_CTRL (R483, R512). -/
def execHostRingCtrlWrite (r : Nat) (v : Word) (s : State) : Out := .next (s.ringCtrl r v)

/-- A write of HOST_FR_DB (R434, R512). -/
def execHostFrDb (x : FrDbIn) (s : State) : Out := .next (s.frDoorbell x.v x.frames)

/-- A fetched entry arrives, and the Breakwater decides it (R484, R489). -/
def execHostEntryArrival (r : Nat) (e : Entry) (s : State) : Out :=
  .next <| if 16 ≤ r || !(s.ring r).enable || decide ((s.ring r).waiting = 0) then s
  else (s.onRing r fun x => { x with waiting := x.waiting - 1 }).ringEntry r e

/-! ### Berths (R486 to R488, R530) -/

/-- The BULK stage of the item that BULK serves ends (R488). -/
def execBerthBulkDone (b : Nat) (s : State) : Out :=
  .next <| match s.item b with
  | none => s
  | some it =>
    if it.stage ≠ .bulk ∨ s.host.qBulk.head? ≠ some b then s else
      let s := s.onHost fun h =>
        let q := h.qBulk.filter (· != b)
        { h with qBulk := q, fBulk := fallBack q h.fBulk s.now }
      s.onItem b fun x => { x with stage := if it.entry.passesSig then .sig else .ctl }

/-- The SIG stage of the item that SIG serves ends: the nonce is recorded, or the item ends FAILED (R488, R530). -/
def execBerthSigDone (b : Nat) (valid : Bool) (s : State) : Out :=
  .next <| match s.item b with
  | none => s
  | some it =>
    if it.stage ≠ .sig ∨ s.host.qSig.head? ≠ some b then s else
      let s := s.onHost fun h =>
        let q := h.qSig.filter (· != b)
        { h with qSig := q, fSig := fallBack q h.fSig s.now }
      if s.sigPasses it.entry valid then
        let s := s.when it.entry.signed fun s =>
          s.onSec fun x => { x with keys := updAt x.keys it.entry.keySlot fun k => { k with nonce := it.entry.nonce } }
        s.onItem b fun x => { x with stage := .ctl }
      else s.sigFailed b it.entry

/-- The completion of berth `b` is written, and the berth is free; a query is carried out on CTL first (R486 to R488). -/
def execHostCompletionWrite (b : Nat) (s : State) : Out := .next ((s.runQuery b).completeItem b)

/-! ### Forwarded commands (R503) -/

/-- No completion has come back by t + D: NO_ANSWER is written (R503). -/
def execHostForwardNoAnswer (req : Word) (s : State) : Out :=
  .next <| match s.host.forwards.find? (·.reqId == req) with
  | none => s
  | some f =>
    if s.now < f.due then s else
      let s := (s.onHost fun h => { h with noAnswer := satInc 16 h.noAnswer }).raise .host 8
      s.forwardDone req
        { tag := f.entry.tag, opcode := f.entry.opcode, status := .noAnswer, node := f.entry.node, tAdmit := f.tsAdmit, tDone := s.ts32 }

/-! ### BAR4 and REG (R504, R505, R597) -/

/-- A host access over BAR4 ends in error (R481, R504, R597). -/
def State.bar4Error (s : State) (cause node off : Nat) (write : Bool) : State :=
  (s.hostErr cause 2 write node off).answer (failedEnd write)

/-- A REG request leaves for its node on both rings (R504). -/
def State.regSend (s : State) (node off : Nat) (w : Option Word) : State :=
  let req := s.host.nextReq
  let s := s.onHost fun h =>
    { h with
      nextReq := h.nextReq + 1, regSent := wrapInc 16 h.regSent
      regs := h.regs ++ [{ reqId := req, node, offset := off, write := w, sentAt := s.now }] }
  s.adeidSend node false (.reg req (off % bar0Size) w)

/-- An access to slot n of BAR4: refused here, served by the harbour's own BAR0, or sent to node n. With 32 requests outstanding it waits,
that is, it has not been taken yet (R504, R597). -/
def execBar4Access (x : Bar4In) (s : State) : Out :=
  let n := x.offset / bar0Size
  let wr := x.write.isSome
  if 64 * bar0Size ≤ x.offset then .fault .outsideBar4
  else .next <|
    if !s.harbour || !s.host.winBar4 || decide (s.clusterSize ≤ n) then s.bar4Error 5 n x.offset wr
    else if wr && !s.host.winBar4Wr then s.bar4Error 4 n x.offset wr
    else if n = 0 then
      match x.write with
      | some v => s.bar0Write (x.offset % bar0Size) v
      | none => s.bar0Read .host (x.offset % bar0Size)
    else if !s.nodeReach n then s.bar4Error 5 n x.offset wr
    else if 32 ≤ s.host.regs.length then s
    else s.regSend n x.offset x.write

/-- Before its berths open a node answers only reads in SYS, HOST, ADEID and SEC (R505). -/
def State.regOpen (s : State) (off : Nat) (write : Bool) : Bool :=
  s.host.ready || (!write && decide (4 ≤ s.sys.stage) && [Blk.sys, .host, .adeid, .sec].contains (blkAt off))

/-- The answer of a target that has admitted a REG request, a requester of its own: a crossing that re-aligns refuses it, and one into a stopped
domain waits, so that no answer comes (R111, R113 to R115, R504, R597). -/
def State.regServe (s : State) (off : Nat) (w : Option Word) : Option RegAnswer × State :=
  let b := blkAt off
  match w with
  | some v =>
    if s.blkRealigns b then (some .refused, s.xingDropped)
    else (if s.blkStopped b then none else some .written, s.crossWrite 2 off v)
  | none =>
    if s.blkStopped b then (none, s)
    else if s.blkRealigns b then (some .refused, s)
    else let r := s.readReg (.reader 1) off
         (some (.data r.1), r.2)

/-- A REG request at its target: not ready, refused for want of a token of source 17, or served; the answer leaves on both rings (R504, R505). -/
def State.regRequest (s : State) (x : RegIn) : State :=
  let off := x.offset % bar0Size
  let reply := fun (s : State) (a : RegAnswer) => s.adeidSend x.src false (.regDone x.reqId a)
  if !s.regOpen off x.write.isSome then reply s .notReady
  else match s.rateTest 17 with
    | some v => reply (s.countRefusal 17 v) .refused
    | none =>
      let r := (s.spendToken 17).regServe off x.write
      match r.1 with
      | some a => reply r.2 a
      | none => r.2

/-- A REG request arrives (R504). -/
def execRegRequestRx (x : RegIn) (s : State) : Out := .next (s.regRequest x)

/-- An outstanding REG request ends. -/
def State.regEnd (s : State) (req : Word) : State := s.onHost fun h => { h with regs := h.regs.filter (·.reqId != req) }

/-- A REG request ends in error (R504, R598). -/
def State.regError (s : State) (x : RegWait) (cause : Nat) : State :=
  ((s.regEnd x.reqId).onHost fun h => { h with regErrors := satInc 16 h.regErrors }).bar4Error cause x.node x.offset x.write.isSome

/-- An answer completes the host access; one that nothing waits for is ignored (R504, R505). -/
def State.regAnswer (s : State) (req : Word) (a : RegAnswer) : State :=
  match s.host.regs.find? (·.reqId == req) with
  | none => s
  | some x =>
    match a with
    | .data w => (s.regEnd req).answer (.data w)
    | .written => (s.regEnd req).answer .written
    | .refused => s.regError x 4
    | .notReady => s.regError x 6

/-- A REG answer arrives at the harbour (R504). -/
def execRegAnswerRx (req : Word) (a : RegAnswer) (s : State) : Out := .next (s.regAnswer req a)

/-- No answer has come 100 µs after the request (R504). -/
def execRegTimeout (req : Word) (s : State) : Out :=
  .next <| match s.host.regs.find? (·.reqId == req) with
  | none => s
  | some x => if s.passed x.sentAt (usec 100) then s.regError x 3 else s

/-! ### Register writes (R9, R591) -/

/-- A write of a W1C register over BAR0 (R9, R593). -/
def execW1cWrite (offset : Nat) (v : Word) (s : State) : Out := inBar0 offset (s.bar0Write (offset / 4 * 4) v)

/-- A write of any register, by the host over BAR0 or by a block inside the device (R9, R108, R109, R113, R591). -/
def execRegisterWrite (offset : Nat) (v : Word) (who : Writer) (s : State) : Out :=
  inBar0 offset <| match who with
    | .host => s.bar0Write (offset / 4 * 4) v
    | .inner d => s.innerWrite d (offset / 4 * 4) v

end Sys2Proof.Machine
end

