-- ==== Sys2Proof/Machine/Rio.lean ====
section
/-! DEFINITION. Remote stations: IN and OUT payloads, drops, the station's safe state (spec/10_logic_engine.md R352 to R355). -/

namespace Sys2Proof.Machine

open Sys2Proof

/-- A station sends an IN payload every STATION_PERIOD and at each change of an exported input, from the OPEN-to-lanes stage on (R353, R561). -/
def execRioInSend (slot : Nat) (s : State) : Out :=
  let x := s.station slot
  let v := s.exportNow x
  let changed := (x.txValues, x.txValid, x.txQuest) ≠ v
  .next <| if !x.isStation || s.sys.stage < 9 || !(changed || s.passed x.lastTx x.period) then s else
    let p : RioPayload :=
      { out := false, alive := x.aliveTx, station := s.sec.device, ts := s.ts32, values := v.1, valid := v.2.1, quest := v.2.2 }
    let s := s.onStation slot fun x =>
      { x with aliveTx := wrapInc 8 x.aliveTx, lastTx := s.now, txValues := v.1, txValid := v.2.1, txQuest := v.2.2 }
    s.adeidSend x.node false (.rio p)

/-- A payload arrives from node `src` (R353 to R355). -/
def execRioPayloadRx (src : Nat) (p : RioPayload) (s : State) : Out := .next <| s.rioRx src p

/-- No IN payload for STATION_TIMEOUT, or the node is unreachable on both rings: the station is DROPPED (R354). -/
def execLogicStationDrop (slot : Nat) (s : State) : Out :=
  let x := s.station slot
  .next <| if x.isStation || x.phase ≠ .up then s
  else if !s.nodeReach x.node then s.stationDrop slot true
  else if s.passed x.since x.timeout then s.stationDrop slot false
  else s

/-- No OUT payload for STATION_WD: the exported outputs are commanded to SAFE (R355). -/
def execLogicStationSafe (slot : Nat) (s : State) : Out :=
  let x := s.station slot
  .next <| if !x.isStation || x.safe || s.logic.phase = .idle || !s.passed x.since x.timeout then s else
    let s := s.forEach x.outputs fun s n => s.commandSafe (s.gangLead n)
    let s := s.onStation slot fun x => { x with safe := true, phase := .dropped, drops := satInc 8 x.drops, aliveRx := {} }
    (s.raise .logic 11).report .logicStationSafe slot [slot]

end Sys2Proof.Machine
end

