-- ==== Sys2Proof/Machine/Adeid.lean ====
section
/-! DEFINITION. The commands of the Adeid links (spec/15_host_cluster_berths.md R495 to R505). -/

namespace Sys2Proof.Machine

open Sys2Proof

/-! ### Links (R500) -/

/-- A link's lanes reach the device: the device is in a cluster and the door of its pair is open (R495, R506). -/
def State.lanesOpen (s : State) (q : Nat) : Bool := s.clustered && (s.door (q / 2)).open_

/-- How many places further along the neighbour of a link stands than this node, in the direction of the link (R495). -/
def State.linkSteps (s : State) (q n : Nat) : Nat :=
  let k := s.clusterSize
  if q = 0 ∨ q = 3 then (n + k - s.adeid.node) % k else (s.adeid.node + k - n) % k

/-- A LINK frame whose node and device numbers agree with CLUSTER_NODES (R500). -/
def State.linkValid (s : State) (node device : Nat) : Bool := s.adeid.nodes[node]? = some device

/-- A LINK frame arrives (R498, R500). -/
def State.linkRx (s : State) (q node device : Nat) (freed : List (BitVec 16)) : State :=
  if !s.linkValid node device then s.onLink q fun l => { l with valid := 0, neighbour := node, device := device }
  else
    s.onLink q fun l =>
      { l with
        valid := l.valid + 1, lastLink := s.now, neighbour := node, device := device, theirs := freed
        skipped := decide (1 < s.linkSteps q node) }

/-- The neighbour stands behind its expected position: the only node that no step along the ring reaches is this node itself (R500). -/
def State.linkBehind (s : State) (q : Nat) : Bool := decide (s.linkSteps q (s.link q).neighbour = 0)

/-- A link is held down by its wiring (R500). -/
def State.linkMiswired (s : State) (q : Nat) : State :=
  let l := s.link q
  ((s.onLink q fun l => { l with phase := .miswired, valid := 0 }).raise .adeid 1).report .adeidMiswired q
    [s.adeid.node, s.sec.device, l.neighbour, l.device]

/-- A link is judged: block lock, 3 consecutive valid LINK frames, 4 µs without one (R500). -/
def execAdeidLink (x : AdeidLinkIn) (s : State) : Out :=
  .next <|
    let l := s.link x.q
    let silent := s.passed l.lastLink 4000
    if !x.lock || !s.lanesOpen x.q then s.adeidLinkDown x.q
    else match l.phase with
      | .down => s.onLink x.q fun l => { l with phase := .training, valid := 0 }
      | .up => if silent then s.adeidLinkDown x.q else s
      | .training =>
        if l.valid < 3 then s.when silent fun s => s.onLink x.q fun l => { l with valid := 0 }
        else if s.linkBehind x.q then s.linkMiswired x.q
        else s.adeidLinkUp x.q
      | .miswired => if 3 ≤ l.valid ∧ !s.linkBehind x.q then s.adeidLinkUp x.q else s

/-- Every 0.5 µs a LINK frame restates this node's identity and the frames freed in each class; it precedes what waits (R497, R498). -/
def execAdeidLinkFrameSend (q : Nat) (s : State) : Out :=
  .next <|
    let l := s.link q
    if !s.lanesOpen q || l.phase = .down || !s.passed l.linkAt 500 then s
    else
      let f : AdeidFrame :=
        { alive := 0, secondary := decide (2 ≤ q), src := s.adeid.node, payload := some (.link s.adeid.node s.sec.device l.freed) }
      s.onLink q fun l => { l with linkAt := s.now, egress := f :: l.egress }

/-! ### Frames (R497 to R499, R501) -/

def State.adeidDiscard (s : State) : State := s.onAdeid fun a => { a with discard := satInc 16 a.discard }
def State.adeidDup (s : State) : State := s.onAdeid fun a => { a with dups := satInc 16 a.dups }

/-- A frame goes on through the other port of its ring, or back out of its own, wrapped; a third wrap and HOPS beyond 255 discard it (R499, R501). -/
def State.adeidForward (s : State) (q : Nat) (f : AdeidFrame) : State :=
  if 255 ≤ f.hops then s.adeidDiscard
  else
    let f := { f with hops := f.hops + 1, alive := 0 }
    if s.linkUp (otherLink q) then s.adeidPut (otherLink q) f
    else if 2 ≤ f.wraps then s
    else (s.onAdeid fun a => { a with wraps := satInc 32 a.wraps }).adeidPut q { f with wrap := true, wraps := f.wraps + 1 }

/-- The identifier of a frame that travels on both rings with a REQ_ID, and its fragment index (R497). -/
def AdeidPayload.reqId : AdeidPayload → Option (Word × Nat)
  | .cmd i _ => some (i, 0)
  | .cmdDone i _ => some (i, 0)
  | .reg i _ _ => some (i, 0)
  | .regDone i _ => some (i, 0)
  | .bulk i n => some (i, n)
  | .link _ _ _ | .sum _ | .rio _ | .topo _ _ => none

/-- A REQ_ID of a source is remembered for its class, for 1 ms (R497). -/
def State.adeidSeen (s : State) (src : Nat) (c : AdeidClass) (id : Word × Nat) : Bool :=
  s.adeid.seen.any fun x => x.src = src ∧ x.cls = c ∧ x.id = id.1.toNat ∧ x.frag = id.2 ∧ s.now < x.at_ + msec 1

def State.adeidRemember (s : State) (src : Nat) (c : AdeidClass) (id : Word × Nat) : State :=
  s.onAdeid fun a => { a with seen := a.seen ++ [{ src := src, cls := c, id := id.1.toNat, frag := id.2, at_ := s.now }] }

/-- A TOPO frame of a node: its heartbeat on the ring, and its link states from the first copy (R497, R501). -/
def State.topoRx (s : State) (src : Nat) (secondary : Bool) (seq : Nat) (links : List Bool) : State :=
  let x := nth s.adeid.states src {}
  let dup := x.seq = seq ∧ (x.beatP.isSome ∨ x.beatS.isSome)
  let s := s.onAdeid fun a =>
    { a with
      states := updAt a.states src fun y =>
        { y with
          seq := seq, links := if dup then y.links else links
          beatP := if secondary then y.beatP else some s.now, beatS := if secondary then some s.now else y.beatS } }
  (s.when dup State.adeidDup).recomputeReach

/-- What a node does with a frame addressed to it (R497, R503, R504). -/
def State.adeidTake (s : State) (f : AdeidFrame) : AdeidPayload → State
  | .topo n links => s.topoRx f.src f.secondary n links
  | .rio p => s.rioRx f.src p
  | .cmd req e => s.cmdArrives f.src req e
  | .cmdDone req c => s.forwardDone req c
  | .reg req off w => s.regRequest { src := f.src, reqId := req, offset := off, write := w }
  | .regDone req a => s.regAnswer req a
  | .bulk _ _ | .link _ _ _ | .sum _ => s

/-- The first valid copy is taken; a later one is a duplicate (R497). -/
def State.adeidAccept (s : State) (f : AdeidFrame) (p : AdeidPayload) : State :=
  match p.reqId with
  | none => s.adeidTake f p
  | some id => if s.adeidSeen f.src p.cls id then s.adeidDup else (s.adeidRemember f.src p.cls id).adeidTake f p

/-- An accepted frame of classes 2 to 6 is taken off, taken and forwarded, or forwarded. A broadcast on its way back from a wrap
passes its source, so that it reaches the nodes on both sides of a break (R499, R501). -/
def State.adeidRoute (s : State) (q : Nat) (f : AdeidFrame) (p : AdeidPayload) : State :=
  if f.bcast then
    if f.src = s.adeid.node then (if f.wraps = 1 then s.adeidForward q f else s)
    else (s.adeidAccept f p).adeidForward q f
  else if f.dst = s.adeid.node then s.adeidAccept f p
  else s.adeidForward q f

/-- A frame of a class with a payload, after its CHECK: the alive test of its class, direction and ring, then its own way (R469 to R472, R499). -/
def State.adeidAlive (s : State) (x : AdeidIn) (p : AdeidPayload) : State :=
  let c := p.cls.num
  let r := (nth (s.link x.q).aliveRx c {}).test 4 7 true x.frame.alive
  let s := (s.onLink x.q fun l => { l with aliveRx := updAt l.aliveRx c fun _ => r.2 }).countAlive 2 x.frame.alive r.1
  if !r.1.accepted then s.when (r.1 = .repeat_) State.adeidDup
  else
    let s := s.onLink x.q fun l => { l with rx := l.rx + 1 }
    match p with
    | .link n d freed => s.linkRx x.q n d freed
    | .sum f => s.sumRx { ring := .adeid, port := x.q, frame := f, check := x.sumCheck, tcheck := x.sumTcheck }
    | p => s.adeidRoute x.q x.frame p

/-- A frame frees its place in the buffer of its class (R498). -/
def State.adeidFree (s : State) (q : Nat) (f : AdeidFrame) : State :=
  match f.payload with
  | none => s
  | some p => s.when (p.cls != .link) fun s => s.onLink q fun l => { l with freed := updAt l.freed p.cls.num (· + 1) }

/-- An Adeid frame arrives: CHECK, class, alive test, then taken off, forwarded or wrapped; a link in training hears LINK frames only
(R496 to R501). -/
def execAdeidFrameRx (x : AdeidIn) (s : State) : Out :=
  .next <|
    if !s.lanesOpen x.q || (s.link x.q).phase = .down then s
    else if !x.frame.checkOk then
      let s := if s.linkUp x.q then s.adeidFree x.q x.frame else s
      ((s.onLink x.q fun l => { l with checkFails := satInc 16 l.checkFails, valid := if s.linkUp x.q then l.valid else 0 }).raise
        .adeid 6).pathFail 2
    else if s.linkUp x.q then
      match x.frame.payload with
      | none => s.adeidDiscard
      | some p => (s.adeidFree x.q x.frame).adeidAlive x p
    else match x.frame.payload with
      | some (.link n d freed) => (s.onLink x.q fun l => { l with rx := l.rx + 1 }).linkRx x.q n d freed
      | _ => s

/-! ### Heartbeats and identifiers (R497, R501) -/

/-- Every 1 ms a node broadcasts TOPO on both rings (R501). -/
def execTopoHeartbeat (s : State) : Out := .next <| if !s.clustered || !s.passed s.adeid.topoAt (msec 1) then s else s.sendTopo

/-- No heartbeat of node `n` on a ring for 3 ms: the node is unreachable on it (R501). -/
def execAdeidHeartbeatLoss (n : Nat) (secondary : Bool) (s : State) : Out :=
  .next <| if !s.clustered || s.heard n secondary then s else s.recomputeReach

/-- A REQ_ID recorded 1 ms ago is forgotten (R497). -/
def execAdeidReqIdExpiry (s : State) : Out :=
  .next <| s.onAdeid fun a => { a with seen := a.seen.filter fun x => decide (s.now < x.at_ + msec 1) }

end Sys2Proof.Machine
end

