-- ==== Sys2Proof/Machine/Clk.lean ====
section
/-! DEFINITION. The commands of CLK (spec/03_clocks_and_crossings.md). -/

namespace Sys2Proof.Machine

open Sys2Proof

/-! ### The reference (R86 to R90) -/

/-- XREF is lost: 3 of its edges are missing (R87). A measurement that falls outside its limit comes with XREF_QUALIFIED. -/
def execXrefLoss (s : State) : Out := .next (if s.clk.xrefOk then s.refLost .xref else s)

/-- The TCXO is lost (R89). -/
def execTcxoLoss (s : State) : Out := .next (if s.clk.tcxoOk then s.refLost .tcxo else s)

/-- A 10 ms measurement of XREF, `ppm` off the TCXO: within its limit XREF qualifies, or stays qualified; outside it, a qualified XREF is
lost (R86 to R88). -/
def execXrefQualified (ppm : Num) (s : State) : Out :=
  .next <| if !s.clkCfg.xrefUsed || s.clk.refNone then s else
    let s := s.xrefMeasured ppm
    if s.xrefInLimit ppm then s.onClk fun c => { c with xrefOk := true, xrefSince := if c.xrefOk then c.xrefSince else some s.now }
    else if s.clk.xrefOk then s.refLost .xref
    else s

/-- The TCXO qualifies, from 21 ms on, while a reference exists or none has been missed yet (R89). -/
def execTcxoQualified (s : State) : Out :=
  .next <| if s.clk.tcxoOk || s.clk.refNone || s.sys.held || !s.passed s.sys.t0 (msec 21) then s
  else
    let s := s.onClk fun c => { c with tcxoOk := true, refSince := if c.refSince.isSome then c.refSince else some s.now }
    let s := s.when (decide (s.clk.ref = .tcxo)) State.measureRef
    s.when (s.clk.spll0.waitRef && s.clk.spll1.waitRef) State.restartLoops

/-- XREF has stayed qualified for XREF_RETURN_HOLD: the device returns to it, but not during start-up (R88). -/
def execXrefReturn (s : State) : Out :=
  .next <| if s.clk.ref = .tcxo && s.clkCfg.xrefUsed && s.clk.xrefOk && !s.clk.refNone && decide (4 ≤ s.sys.stage) &&
      s.passedSince s.clk.xrefSince s.clkCfg.xrefReturnHold then s.refSwitch 0 .xref
  else s

/-- One measurement qualifies the TCXO, XREF or both while no reference exists: one is taken at once, XREF when it is used, and acquisition
starts afresh (R88, R90). -/
def execRefQualified (q : RefSeen) (s : State) : Out :=
  let x := q.hasXref && s.clkCfg.xrefUsed
  .next <| if !s.clk.refNone || !(q.hasTcxo || x) then s else
    let s := s.onClk fun c =>
      { c with
        refNone := false, refSince := some s.now, xrefOk := c.xrefOk || x, tcxoOk := c.tcxoOk || q.hasTcxo
        xrefSince := if x then some s.now else c.xrefSince, stopped := c.stopped.set 7 false }
    (s.refSwitch 2 (if x then .xref else .tcxo)).restartLoops

/-! ### The loops (R94 to R99, R103) -/

/-- 1,024 PFD cycles within 0.5 ns: LOCKED (R94). -/
def execSpllLocked (l : LoopId) (s : State) : Out :=
  .next <| if (s.loop l).phase ≠ .acquiring || s.clk.refNone || !s.passed (s.loop l).acqAt (1024 * (s.loop l).mode.pfdNs) then s else
    let r := if l = .mpll then (56623104 / 10000 * (1 + s.clk.steer / 1000000), s) else s.drawNear 6000 (5 / 1000)
    r.2.onLoop l fun x => { x with phase := .locked, lockAt := s.now, freq := r.1 }

/-- 10 µs more within 0.5 %: QUALIFIED; the loop becomes active or standby, and a retune of it is done (R94 to R96, R99). -/
def execSpllQualified (l : LoopId) (s : State) : Out :=
  .next <| if (s.loop l).phase ≠ .locked || (s.loop l).qualified || !s.passed (s.loop l).lockAt 10000 then s else
    let s := s.onLoop l fun x =>
      { x with
        qualified := true, qualSince := some s.now, retries := 0, lossDeclared := false
        relocks := if x.lossDeclared then satInc 16 x.relocks else x.relocks }
    let s := s.report .spllQualified l.num
    let both := s.clk.spll0.qualified && s.clk.spll1.qualified
    let s := s.when (both && !s.clk.connected && !s.clk.degraded) fun s =>
      s.onClk fun c => { c with connected := true, active1 := false }
    match s.clk.retune with
    | some r => if r.loop = l then s.retuneDone r else s.nextMove
    | none => s.nextMove

/-- A locked loop is declared unlocked by its frequency, or by a phase error of more than 2 ns (R94, R96, R97, R103, R104). -/
def execSpllLossOfLock (x : LossSeen) (s : State) : Out :=
  .next <| if (s.loop x.loop).phase ≠ .locked || !x.freq && decide (x.pfd.mag ≤ 2) then s
  else if x.loop = .mpll then s.mpllLost else s.loopLost x.loop (if x.freq then .freq else .phase) x.pfd

/-- 1 ms in ACQUIRING without lock: a retry, and after the sixteenth FAILED (R94, R99, R557). -/
def execSpllRetry (l : LoopId) (s : State) : Out :=
  .next <| if (s.loop l).phase ≠ .acquiring || s.clk.refNone || !s.passed (s.loop l).acqAt (msec 1) then s else
    let n := (s.loop l).retries
    let s := s.onLoop l fun x => { x with retries := n + 1, acqAt := s.now, phase := if n < 16 then .acquiring else .failed }
    if n < 16 then s.report .spllRetry l.num [n + 1]
    else
      let s := (s.raise .clk 12).report .loopFailed l.num
      let s := s.when (s.clk.retune.any fun r => r.loop == l) fun s => s.retuneFailed
      s.when (!s.clk.connected && decide (s.clk.spll0.phase = .failed ∧ s.clk.spll1.phase = .failed)) fun s => s.degradedStart .loopFail

/-- The guard suppresses an edge of domain `d`; on an output of a system loop it declares that loop unlocked (R93). -/
def execClkGuard (d : Nat) (s : State) : Out :=
  .next <|
    let s := s.onClk fun c => { c with guardCount := satInc 16 c.guardCount, guardDomain := d % 8 }
    let s := (s.raise .clk 8).report .clkGuard d
    let fed := decide (d < 4 ∨ d = 6) || (decide (d = 4) && s.clk.meas == .alt)
    s.when (s.clk.connected && fed && decide ((s.loop s.activeLoop).phase = .locked)) fun s => s.loopGuarded s.activeLoop

/-- CLK_RETUNE (R98, R99): the item waits until the loop is QUALIFIED or has failed. -/
def execClkRetune (b : Nat) (s : State) : Out :=
  .next <| match s.ctlCmd b with
  | some (.clkRetune i m) => s.runCtl b (s.refuseRetune i) fun s => (s.toTarget b).beginRetune i m (some b)
  | _ => s

/-- The retuned loop is not QUALIFIED after 18 ms (R99). -/
def execRetuneTimeout (s : State) : Out :=
  .next <| match s.clk.retune with
  | some r => if s.passed r.start (msec 18) then s.retuneFailed else s
  | none => s

/-- CLK_LOOP_RESET: a FAILED loop returns to OFF, and acquires as soon as a reference exists (R94). -/
def execClkLoopReset (b : Nat) (s : State) : Out :=
  .next <| match s.ctlCmd b with
  | some (.clkLoopReset i) =>
    s.runCtl b (s.refuseLoopReset i) fun s =>
      (s.onLoop i fun l =>
        { l with
          phase := if s.clk.refNone then .off else .acquiring, waitRef := s.clk.refNone, retries := 0, acqAt := s.now, lossDeclared := false }).done b
  | _ => s

/-! ### The measurement loop (R101 to R103) -/

/-- A sample strobe: its error is measured against the local time counter, and the MPLL is steered with a resolution of 10^−6 ppm, or the
divider restarts once before PROT is ready. `steer`, in ppm, is what the filter of the error asks for (R101, R102). -/
def execMeasStrobe (steer : Num) (s : State) : Out :=
  .next <|
    let m := s.clkCfg.measSteerMax
    let err := s.strobeError
    if !s.prot.ready && !s.clk.strobeRestarted && decide (20 < err.natAbs) then s.strobeRestart
    else
      let slew := s.clk.measSlew && decide (20 < err.natAbs)
      let free := (roundInt (Num.clamp (-m) m steer * 1000000) : Num) / 1000000
      s.onClk fun c => { c with pherr := err, measSlew := slew, steer := if slew then (if 0 < err then m else -m) else free }

/-- The MPLL loses lock (R103). -/
def execMpllLol (s : State) : Out := .next (if s.clk.mpll.phase = .locked then s.mpllLost else s)

/-- The MPLL is QUALIFIED again: MEAS returns to it (R103). -/
def execMpllRequalified (s : State) : Out :=
  .next <| if s.clk.mpll.qualified && s.clk.meas == .alt && !s.clk.degraded then s.onClk fun c => { c with meas := .mpll } else s

/-! ### DEGRADED (R106) -/

/-- A loop, and a reference where needed, have been QUALIFIED for DEGRADED_RETURN (R106). -/
def execDegradedEnd (s : State) : Out :=
  .next <| match s.returnLoop with
  | some i => s.degradedEnd i
  | none => s

/-- The DRAM PHY has retrained: the captures store again (R104, R381). -/
def execDramRetrainDone (s : State) : Out :=
  .next <| if !s.clk.dramRetraining then s else
    let s := s.onClk fun c => { c with dramRetraining := false }
    s.forEach (List.range s.capt.engines.length) fun s e => s.captResume e

/-! ### Crossings and domains (R112 to R114) -/

/-- The surviving side of crossing `x`, in domain `src`, receives its partner's token, one that it has not last seen, or sees its partner,
domain `d`, held in reset: what is pending is discarded; later it re-aligns its toggles to the partner's (R112). -/
def execPartnerReset (x src d token : Nat) (aligned : Bool) (s : State) : Out :=
  .next <|
    let old := s.clk.xing (x % 65536) src d
    let now := nth s.clk.tokens d 0
    if aligned then
      if !old.partnerReset || s.clk.isStopped d then s
      else s.onXing { old with partnerReset := false, realign := false, token := now, req := old.ack }
    else if 8 ≤ d || old.partnerReset || !(nth s.clk.inReset d false || token == now && old.token != now) then s
    else
      let lost := b2n (old.held.isSome && !old.captured) + b2n old.shadow.isSome
      let s := s.onXing { old with partnerReset := true, realign := true, token := now, held := none, shadow := none, captured := false }
      let s := s.onClk fun c => { c with presetCount := satInc 8 c.presetCount, presetId := x % 65536 }
      (s.raise .clk 10).report .partnerReset x [lost]

/-- The domain monitor finds no clock edge in a domain (R114). -/
def execDomainStopped (d : Nat) (s : State) : Out := .next (s.domainStop d)

/-- The domain monitor finds clock edges again in a domain that it had found stopped (R114). Without a reference the quad PLLs have none. -/
def execDomainClockReturn (d : Nat) (s : State) : Out :=
  .next <| if s.sys.held || s.sys.lastwords || (d == 7 && s.clk.refNone) then s else s.onClk fun c => { c with stopped := c.stopped.set d false }

end Sys2Proof.Machine
end

