-- ==== Sys2Proof/Machine/Diag.lean ====
section
/-! DEFINITION. The commands of DIAG: self-tests, memory errors, the MRAM refresh, temperature and ageing, the ledger, the bundle, the health GOOSE (spec/18_health_and_service_life.md R575 to R586; spec/07_forming_engine.md R242). -/

namespace Sys2Proof.Machine

open Sys2Proof

/-! ### Self-tests (R242, R575) -/

/-- The pair's self-test after a LOCKSTEP completes; a pass ends the cause (R242, R575). -/
def execFormLockstepTestDone (u : Nat) (pass : Bool) (s : State) : Out :=
  .next <| match s.fu? u with
  | none => s
  | some x =>
    if !x.lockstepTest then s else
      let s := s.testResult .formLockstep u pass
      s.when pass fun s => s.onUnit u fun y => { y with lockstepTest := false, causes := y.causes.filter (· != .lockstep) }

/-- The interval of a test that DIAG itself repeats (R575). -/
def SelfTest.interval : SelfTest → Option Ns
  | .crypto => some (secs 60)
  | .clkGuard => some (secs 1)
  | .scrub => some (secs 86400)
  | .sram | .dram | .mram | .protKat | .chk | .formLockstep => none

/-- The action on the failure of a periodic test (R93, R94, R575). -/
def State.testAction (s : State) (t : SelfTest) (l : LoopId) (pass : Bool) : State :=
  match t with
  | .crypto => s.onSec fun x => { x with cryptoFail := !pass }
  | .clkGuard => if pass || decide ((s.loop l).phase ≠ .locked) then s else if l = .mpll then s.mpllLost else s.loopGuarded l
  | _ => s

/-- A periodic self-test runs (R575). `l`: the loop concerned by the clock guard calibration. -/
def execDiagSelftestPeriodic (t : SelfTest) (l : LoopId) (pass : Bool) (s : State) : Out :=
  .next <| match t.interval with
  | none => s
  | some d =>
    if s.sys.held || !s.passed (nth s.diag.ranAt t.bit 0) d then s
    else ((s.testResult t (if t = .clkGuard then l.num else 0) pass).testAction t l pass).updateHealth

/-! ### Memory errors (R576) -/

/-- The record in a slot of a ring no longer reads with a correct CHECK (R402, R417). -/
def spoil (slot : Option Nat) (ring : Nat) (l : List LogRecord) : List LogRecord :=
  l.map fun r => if slot = some (r.seq % ring) then { r with good := false } else r

/-- An uncorrectable error in MRAM (R360, R420, R421, R531): the logbook's bank fails when it is the one in use, a slot fails its next
verification, a retained buffer is no longer valid. -/
def State.mramError (s : State) (bankB : Bool) : MramPlace → State
  | .logbook slot =>
    let s := s.onLog fun l => if bankB then { l with bankB := spoil slot 32768 l.bankB } else { l with bankA := spoil slot 327680 l.bankA }
    if s.log.reserve = bankB && !s.log.bothFail then s.logBankFail id 2 else s
  | .slot b => s.onSec fun x => x.setSlot b { x.slot b with memError := true }
  | .retained g buf1 => s.onTaskGroup g fun x => if buf1 then { x with buf1 := { x.buf1 with valid := false, crcBad := true } } else { x with buf0 := { x.buf0 with valid := false, crcBad := true } }
  | .other => s

/-- The owner of a memory handles an uncorrectable error (R576). -/
def State.eccOwner (s : State) (x : EccIn) : State :=
  match x.m with
  | 0 => s.captEcc x.addr
  | 2 => (s.onLane .a fun l => { l with ecc := true }).laneOut .a .ecc
  | 3 => (s.onLane .b fun l => { l with ecc := true }).laneOut .b .ecc
  | 4 => if s.logic.phase = .running then s.logicHalt .ecc else s
  | 6 => s.mramError false x.place
  | 7 => s.mramError true x.place
  | _ => s

/-- A memory reports an error (R576). -/
def execDiagEccError (x : EccIn) (s : State) : Out :=
  .next <| if 8 ≤ x.m then s else
    let s := s.eccCount x.m x.addr x.corrected
    (if x.corrected then s else s.eccOwner x).updateHealth

/-! ### MRAM refresh (R577, R578) -/

/-- Lines of both banks, and the interval between starts in s (R577). -/
def mramLines : Nat := 2097152
def refreshInterval : Nat := 450 * 86400

/-- The refresh pass runs with CORE, and stops at last-words (R578). -/
def State.refreshMay (s : State) : Bool := !s.sys.held && !s.sys.lastwords

/-- A pass starts 450 days after the last start; one that starts later is REFRESH_LATE (R577). -/
def execMramRefreshStart (s : State) : Out :=
  let age := s.refreshAge
  .next <| if s.diag.refresh.active || !s.refreshMay || decide (age < refreshInterval) then s else
    let late := decide (refreshInterval < age)
    let s := s.onDiag fun d =>
      { d with refresh :=
        { active := true, startPtp := if s.ptp.timeKnown then s.ptpSec else 0, startOps := d.ledger.opsec, lineAt := s.now, lateInPass := late } }
    (s.when late fun s => (s.raise .diag 2).report .diagRefreshLate 0xFFFF [(age - refreshInterval) / 86400]).updateHealth

/-- The pass after the rewrite of a line: lines that it has passed over for a pending write wait for their turn (R578). -/
def Refresh.line (r : Refresh) (line : Nat) (corrected : Bool) (now : Ns) : Refresh :=
  let r := { r with lineAt := now, corrected := r.corrected + b2n corrected }
  if r.skipped.contains line then { r with skipped := r.skipped.filter (· != line) }
  else
    let over_ := (List.range (line - r.cursor)).map (r.cursor + ·)
    { r with
      skipped := r.skipped ++ over_, cursor := line + 1
      stored := if (line + 1) / 4096 = r.cursor / 4096 then r.stored else (line + 1) / 4096 * 4096 }

/-- One line is rewritten, every 2 s; the last ends the pass (R577, R578). -/
def execMramRefreshLine (line : Nat) (corrected : Bool) (s : State) : Out :=
  let r := s.diag.refresh
  let due := r.skipped.contains line || decide (r.cursor ≤ line ∧ line < mramLines)
  .next <| if !r.active || !s.refreshMay || !due || !s.passed r.lineAt (secs 2) then s else
    let s := s.onDiag fun d => { d with refresh := d.refresh.line line corrected s.now }
    let s := s.when corrected fun s => s.eccCount (if line < mramLines / 2 then 6 else 7) (line * 64) true
    let r := s.diag.refresh
    if r.cursor = mramLines ∧ r.skipped = [] then
      (s.onDiag fun d =>
        { d with
          refresh := { d.refresh with active := false, stored := 0 }
          ledger := { d.ledger with refreshPasses := d.ledger.refreshPasses + 1 } }).report .diagRefreshDone 0xFFFF [r.corrected]
    else s

/-! ### Temperature and ageing (R579, R580) -/

/-- A sensor takes a reading; its peak is since the start. -/
def TempSensor.read (x : TempSensor) (first : Bool) (t : Int) : TempSensor := { now_ := t, peak := if first then t else max x.peak t }

/-- The sensors are read every 100 ms: main die, three AFE dies, baseplate (R579). -/
def execDiagTempRead (x : List Int) (s : State) : Out :=
  .next <| if s.sys.held || !s.passed s.diag.tempAt (msec 100) || x.length ≠ 5 then s else
    let first := decide (s.diag.tempAt = 0)
    let base := nth x 4 0
    let warn := decide (850 < base) || (x.take 4).any fun t => decide (1100 < t)
    let rises := warn && !s.diag.tempWarn
    let s := s.onDiag fun d =>
      { d with
        temps := (d.temps.zip x).map fun p => p.1.read first p.2
        tempAt := s.now, tempWarn := warn, tempSum := d.tempSum + base, tempCount := d.tempCount + 1 }
    (s.when rises fun s => s.report .diagTemp 0xFFFF x).updateHealth

/-- The delay monitors are measured at boot and every 24 h (R580). Drifts in 0.01 %. -/
def execDiagAgeMeasure (x : List Nat) (s : State) : Out :=
  let due := s.diag.ageAt.all fun t => s.passed t (secs 86400)
  .next <| if s.sys.held || !due || x.length ≠ 5 then s else
    let warn := x.any fun a => decide (500 ≤ a)
    let alarm := x.any fun a => decide (800 ≤ a)
    let change := decide (warn ≠ s.diag.ageWarn ∨ alarm ≠ s.diag.ageAlarm)
    let s := s.onDiag fun d => { d with ages := x, ageAt := some s.now, ageWarn := warn, ageAlarm := alarm }
    (s.when change fun s => (s.raise .diag 4).report .diagAge 0xFFFF (x.map fun a => (a : Int))).updateHealth

/-! ### The ledger (R581, R582) -/

/-- One operating second more, with the baseplate's bin (R581). -/
def Ledger.second (l : Ledger) (base : Int) : Ledger :=
  { l with opsec := satInc 32 l.opsec, hist := updAt l.hist (tempBin base) (satInc 32) }

/-- The equivalent age and what follows from it, every 60 s; the whole ledger is committed. LIFE_USED is kept over a reset, so that each of
its two marks is logged once (R581, R582). -/
def State.ageMinute (s : State) : State :=
  let d := s.diag
  let mean : Num := if d.tempCount = 0 then ((nth d.temps 4 {}).now_ : Num) else (d.tempSum : Num) / (d.tempCount : Num)
  let l : Ledger := { d.ledger with age := d.ledger.age + 60 * ageWeight mean }
  let used := l.lifeUsed
  let warn := decide (800 ≤ used)
  let lifeEnd := decide (1000 ≤ used)
  let s := s.onDiag fun d =>
    { d with
      ledger := l, stored := l, lifeUsed := used, lifeWarn := d.lifeWarn || warn, lifeEnd := d.lifeEnd || lifeEnd, tempSum := 0, tempCount := 0, opsRun := 0 }
  let s := s.when (warn && decide (d.lifeUsed < 800)) fun s => (s.raise .diag 5).report .diagLife 0xFFFF [used]
  (s.when (lifeEnd && decide (d.lifeUsed < 1000)) fun s => (s.raise .diag 5).report .diagLife 0xFFFF [used]).updateHealth

/-- OPSEC is committed every second, the rest every 60 s (R581, R582). -/
def execLedgerCommit (s : State) : Out :=
  .next <| if s.sys.held || s.sys.lastwords || !s.passed s.diag.opsAt (secs 1) then s else
    let s := s.onDiag fun d =>
      let l := d.ledger.second (nth d.temps 4 {}).now_
      { d with ledger := l, stored := { d.stored with opsec := l.opsec }, opsAt := s.now, opsRun := d.opsRun + 1 }
    if 60 ≤ s.diag.opsRun then s.ageMinute else s

/-! ### The bundle (R586) -/

/-- The offset of a block's STATUS register. -/
def statusAt : Blk → Nat
  | .sys => 4 | .tide => 0x20 | _ => 0

/-- The sequence numbers of the 256 newest logbook records (R586). -/
def LogState.newestSeqs (l : LogState) : List Nat :=
  let n := min 256 (l.next - l.oldest)
  (List.range n).map (l.next - n + ·)

/-- The bundle as the state gives it (R586). -/
def State.bundleNow (s : State) : Bundle :=
  { device := s.sec.device, ts := s.ts32, ledger := s.diag.ledger, ecc := s.diag.ecc, ages := s.diag.ages, temps := s.diag.temps
    regs := allBlks.map fun b => (s.liveReg b (statusAt b), s.liveReg b (eventAt b))
    records := s.log.newestSeqs.map fun n => (s.log.status n, s.log.slotAt n) }

/-- DIAG_BUNDLE writes the bundle to BULK_ADDR (R586). -/
def execDiagBundle (b : Nat) (s : State) : Out :=
  .next <| match s.ctlCmd b with
  | some .diagBundle => s.runCtl b none fun s => (s.onDiag fun d => { d with bundles := d.bundles + 1, bundle := some s.bundleNow }).done b
  | _ => s

/-! ### The health GOOSE (R452, R585) -/

/-- The members of the health dataset, in the order of R585. -/
def State.healthValues (s : State) : List Word :=
  let hot := (s.diag.temps.map (·.now_)).foldl max ((s.diag.temps.map (·.now_)).headD 0)
  [ BitVec.ofNat 32 s.sec.device, BitVec.ofNat 32 s.diag.health.num, s.diag.status, s.diagAlert
  , fld 0 s.prot.laneA.phase.num ||| fld 2 s.prot.laneB.phase.num, s.log.aon, f32bits ((hot : Num) / 10)
  , BitVec.ofNat 32 s.diag.lifeUsed, s.sysSupply, flag 0 s.ptp.locked, BitVec.ofNat 32 s.sys.stage ]

/-- Every link lane is down: no port, Adeid link or gate link is up (R105, R585). -/
def State.allLanesDown (s : State) : Bool :=
  !(s.net.ports.any fun p => s.portUp p.port) && !((List.range 4).any s.linkUp) && !(s.gate.links.any (·.up))

/-- The health publisher is at work: from 400 ms, not in the bare state, and while a lane is up (R585). -/
def State.healthMay (s : State) : Bool :=
  decide (9 ≤ s.sys.stage ∧ s.sys.stage ≤ 11) && s.sys.live && !s.sec.bare && !s.allLanesDown

/-- The health GOOSE goes out on a change of any member and at its retransmission intervals (R452, R585). -/
def execHealthGoosePublish (s : State) : Out :=
  .next <| if !s.healthMay then s else
    let c := s.netCfg
    let g := s.net.health
    let v := s.healthValues
    let first := g.nextAt.isNone
    let change := first || decide (v ≠ g.values)
    if !change && !(g.nextAt.any fun t => decide (t ≤ s.now)) then s else
      let g := if change then g.change v first c.healthMinTime s.now s.ltc s.acq.fastIdx else g.again c.healthMaxTime s.now
      (s.onNet fun n =>
        { n with health := g, sent := n.sent ++ [.health g.changeAt g.stNum g.sqNum (2 * g.interval) g.values] }).sendOwn
        { dst := c.healthDst, src := Config.ownMac, vid := some c.healthVid, pcp := c.healthPcp, kind := .goose c.healthAppid c.healthGocbRef }

end Sys2Proof.Machine
end

