-- ==== Sys2Proof/Machine/FioFrame.lean ====
section
/-! DEFINITION. What reaches the logic side from the field side: input levels over the channel couplers, and the frames of a group
coupler with their edge records and measurements (spec/09_field_io.md R309, R313 to R315, spec/11_capture.md R380, R382). -/

namespace Sys2Proof.Machine

open Sys2Proof

/-- An edge of the given direction answers to an edge kind (R340, R382). -/
def edgeFits (level : Bool) : EdgeKind → Bool
  | .rising => level
  | .falling => !level
  | .either => true

/-- The PTP time of a TS32, by a reference within 2 s (R12). -/
def extendTs (ref : Nat) (ts : Word) : Nat := ((ref : Int) + (ts - ts32of ref).toInt).toNat

/-- An input's new level reaches the logic side: mapped group inputs and event tasks follow (R187, R309, R340). -/
def State.inputLevel (s : State) (ch : Nat) (level : Bool) : State :=
  (s.when level fun s => s.mappedGroup (.field ch)).fire fun e =>
    match e with
    | .field c k => c == ch && edgeFits level k
    | _ => false

/-- An input has stayed across its threshold for DEBOUNCE: its level changes, and the crossing that began the run is the edge (R313, R314). -/
def execFioInputEdge (ch : Nat) (level : Bool) (stamp : Word) (stable : Ns) (s : State) : Out :=
  let c := s.fioCh ch
  .next <| if c.isInput && (s.fioGroup (groupOf ch)).accepted && decide (c.level ≠ level) && decide (c.debounce ≤ stable) then
    ((s.onCh ch fun c => { c with level := level }).pushEdge ch level stamp).inputLevel ch level
  else s

/-- An edge record reaches the logic side: capture sources and conditions take its stamp, and so does a breaker whose auxiliary input it is
(R74, R314, R380, R382). -/
def State.edgeArrives (s : State) (e : EdgeRec) : State :=
  let t := extendTs s.ltc e.ts
  ((s.auxTouch e.ch e.level t).captDigital (.level e.ch) e.level t).captMetAll t fun c =>
    match c with
    | .edge ch k => ch == e.ch && edgeFits e.level k
    | _ => false

/-- The channels of a group whose FIO_CH_DIAG differs, in having a bit set or none, from what CAPT last recorded of them become records (R380). -/
def State.diagArrives (s : State) (g : Nat) : State :=
  s.forEach (List.range 4) fun s ei =>
    let e := s.engine ei
    s.forEach e.cfg.digital.zipIdx fun s x =>
      match x.1 with
      | .diag ch =>
        let b := decide ((s.fioCh ch).diag.bits ≠ 0)
        if groupOf ch = g && nth e.lastDig x.2 false != b then s.captDigital x.1 b s.ltc else s
      | _ => s

/-- The pulse budget since its last update: it falls by 1 per ms above 0.55 A and rises by 1/9 per ms at or below, up to 100 (R318). -/
def FioCh.budgetNow (c : FioCh) (now : Ns) : Num :=
  let dt : Num := ((now - c.budgetAt : Nat) : Num) / 1000000
  Num.clamp 0 100 (if 550000 < c.current then c.budget - dt else c.budget + dt / 9)

/-- The measurements of a frame take their registers (R325, R331). -/
def State.fioMeasure (s : State) (m : ChMeasure) : State :=
  s.onCh m.ch fun c =>
    { c with
      budget := c.budgetNow s.now, budgetAt := s.now, pinMv := m.pinMv, current := m.current
      openWire := c.openWire && m.openWire, indeterminate := c.indeterminate && m.indeterminate }

/-- Up to 8 edge records leave the FIFO; an episode of losses ends when the FIFO has been empty for 10 ms (R315). -/
def State.takeEdges (s : State) (g : Nat) : State :=
  let x := s.fioGroup g
  let rest := x.fifo.drop 8
  let since := if rest.isEmpty then some (x.fifoEmptySince.getD s.now) else none
  (s.onGroup g fun x =>
    { x with
      fifo := rest, fifoEmptySince := since
      edgeLostEpisode := x.edgeLostEpisode && !(since.any fun t => s.passed t (msec 10)) }).forEach (x.fifo.take 8) State.edgeArrives

/-- A group-coupler frame: an invalid one is counted; a valid one shows the group alive and brings its measurements and edge records. The
logic side's own frames go out at the same rate (R309, R314, R315). -/
def execFioCouplerFrame (x : CouplerIn) (s : State) : Out :=
  .next <| if !(s.fioGroup x.g).created then s else
    let sends := !s.sys.held && !s.sys.lastwords
    let s := s.onGroup x.g fun y => { y with lastTx := if sends then s.now else y.lastTx }
    if !x.valid then s.onChk fun c => { c with pathFail := updAt c.pathFail 9 (satInc 32) }
    else
      let s := s.onGroup x.g fun y =>
        { y with
          lastRx := s.now, lost := false, link := y.accepted, temp := x.temp.getD y.temp
          ctrlOvertemp := decide (1250 < x.temp.getD y.temp) }
      ((s.forEach (x.chans.filter fun m => groupOf m.ch == x.g) State.fioMeasure).takeEdges x.g).diagArrives x.g

end Sys2Proof.Machine
end

