-- ==== Sys2Proof/Machine/Goose.lean ====
section
/-! DEFINITION. The commands of GOOSE and SV (spec/13_network_and_time.md R450 to R455). -/

namespace Sys2Proof.Machine

open Sys2Proof

/-- A GOOSE frame of a subscription is admitted, checked and accepted (R450, R451, R454). -/
def execGooseFrameRx (f : GooseFrame) (s : State) : Out :=
  .next <| if !s.net.intakeOpen then s else
    match s.netCfg.gooseSubs.find? fun c => c.dst == f.dst && c.appid == f.appid && c.gocbRef == f.gocbRef with
    | none => s
    | some c =>
      match s.gsub? c.sub with
      | none => s
      | some g =>
        let b := g.bucket.refill s.now c.rate 32
        match b.take with
        | none =>
          let s := s.onGsub c.sub fun g => { g with bucket := { b with refusedAt := some s.now }, rateRefused := satInc 16 g.rateRefused }
          (s.onNet fun n => { n with rateGoose := satInc 16 n.rateGoose }).rateRefused c.sub false (b.newEpisode s.now)
        | some b =>
          let s := s.onGsub c.sub fun g => { g with bucket := b }
          if !c.agrees f then
            let s := ((s.gooseInvalid c.sub).onGsub c.sub fun g => { g with cfgBad := true, anyNext := true }).raise .net 5
            if g.cfgBad then s else s.report .netGooseConfig c.sub
          else (s.onGsub c.sub fun g => { g with cfgBad := false }).gooseTake c g f

/-- No frame within the time allowed to live of the last accepted one: the values become INVALID (R451). -/
def execGooseTalExpired (i : Nat) (s : State) : Out :=
  .next <| match s.gsub? i with
  | none => s
  | some g =>
    if s.passedSince g.lastRx g.tal && !g.talExpired then
      (((s.gooseInvalid i).onGsub i fun g => { g with talExpired := true, anyNext := true }).raise .net 6).report .netGooseTal i
    else s

/-- A published member has changed since the last frame, and not yet in this fast-lane period (R452). -/
def execGoosePublishChange (q : Nat) (s : State) : Out :=
  .next <| match s.gpub? q, s.gpubCfg? q with
  | some g, some c =>
    let v := c.members.map s.pubValue
    if g.nextAt.isSome && v ≠ g.values && g.changeIdx ≠ some s.acq.fastIdx then
      (s.onGpub q fun g => g.change v false c.minTime s.now s.ltc s.acq.fastIdx).sendGoose c
    else s
  | _, _ => s

/-- The retransmission interval expires (R452). -/
def execGooseRetransmit (q : Nat) (s : State) : Out :=
  .next <| match s.gpub? q, s.gpubCfg? q with
  | some g, some c =>
    if g.nextAt.any fun t => decide (t ≤ s.now) then (s.onGpub q fun g => g.again c.maxTime s.now).sendGoose c else s
  | _, _ => s

/-- An SV frame of a subscription is admitted, checked, and its ASDUs are passed to ACQ (R453, R454). -/
def execSvFrameRx (f : SvFrame) (s : State) : Out :=
  .next <| if !s.net.intakeOpen then s else
    match s.netCfg.svSubs.find? fun c => c.dst == f.dst && c.appid == f.appid && c.svId == f.svId with
    | none => s
    | some c =>
      match s.svsub? c.sub with
      | none => s
      | some x =>
        let b := x.bucket.refill s.now 2448 16
        let discard := fun (s : State) => s.onSvsub c.sub fun x => { x with discarded := satInc 16 x.discarded }
        match b.take with
        | none =>
          let s := s.onSvsub c.sub fun x => { x with bucket := { b with refusedAt := some s.now }, rateRefused := satInc 16 x.rateRefused }
          (s.onNet fun n => { n with rateSv := satInc 16 n.rateSv }).rateRefused c.sub true (b.newEpisode s.now)
        | some b =>
          let s := s.onSvsub c.sub fun x => { x with bucket := b }
          let fits := decide (f.confRev = c.confRev ∧ f.noAsdu = c.noAsdu ∧ f.asdus.length = c.noAsdu) &&
            f.asdus.all fun a => decide (a.samples.length = c.channels.length)
          if !fits then (discard (s.onSvsub c.sub fun x => { x with cfgBad := true })).raise .net 5
          else
            let s := s.onSvsub c.sub fun x => { x with cfgBad := false }
            if (f.test && !c.testAccept) || (f.simulation && !c.simAccept) then discard s
            else s.forEach f.asdus fun s a => s.svAsdu c f.test a

/-- A stream with no accepted frame for 10 ms is LOST (R453). -/
def execNetSvLost (i : Nat) (s : State) : Out :=
  .next <| match s.svsub? i with
  | none => s
  | some x =>
    if x.phase = .receiving && s.passedSince x.lastRx (msec 10) then
      ((s.onSvsub i fun x => { x with phase := .lost }).raise .net 7).report .netSvLost i
    else s

end Sys2Proof.Machine
end

