-- ==== Sys2Proof/Machine/Lanes.lean ====
section
/-! DEFINITION. The lane periods: intake, publishing, release, evaluation, trips, and the changes of a protection-cycle boundary (spec/01_architecture_and_profiles.md R19; spec/04_acquisition.md R143 to R145; spec/05_protection_engine.md R156 to R199). -/

namespace Sys2Proof.Machine

open Sys2Proof

/-! ### Publishing (R145) -/

/-- The index of the next sample of a lane that a chain produces. -/
def Chain.nextOf (c : Chain) : LaneRate → Nat
  | .fast => c.nextFast
  | .phasor => c.nextPhasor

/-- The primary value of a sample in the units of its place, currents first, and the marks it is sent with (R145). -/
def State.pubValueOf (s : State) (lane : LaneRate) (i place c : Nat) : Num × PubPoint :=
  match s.ain? c, s.acq.waiting.find? fun w => w.chan == .ain c && w.lane == lane && w.sample.idx == i with
  | some a, some w =>
    (w.sample.x * a.primNom * (if place < 4 then 1000 else 100), { q := w.sample.q, overflow := w.sample.det.overflow, inaccurate := w.sample.det.inaccurate })
  | _, _ => (0, {})

/-- A place of the dataset; DERIVED is the sum of the three phases, of their worst quality (R145). -/
def State.pubPlace (s : State) (p : Pub) (i place : Nat) : PubPoint :=
  let one := fun (k : Nat) => match nth p.map k .unmapped with
    | .chan c => s.pubValueOf p.rate i k c
    | _ => (0, {})
  let r : Num × PubPoint := match nth p.map place .unmapped with
    | .derived =>
      let l := (List.range 3).map fun k => one (4 * (place / 4) + k)
      ((l.map (·.1)).foldl (· + ·) 0,
        { q := l.foldl (fun q x => Quality.worse q x.2.q) .good, overflow := l.any (·.2.overflow), inaccurate := l.any (·.2.inaccurate) })
    | _ => one place
  let v := roundInt r.1
  { r.2 with value := sclamp 32 v, overflow := r.2.overflow || decide (2 ^ 31 - 1 < v ∨ v < -(2 ^ 31)) }

/-- Every channel that the stream carries has produced its sample `i`. -/
def State.pubReady (s : State) (p : Pub) (i : Nat) : Bool :=
  (p.map.any fun m => match m with | .chan _ => true | _ => false) && p.map.all fun m => match m with
    | .chan c => (s.ain? c).all fun a => decide (i < a.chain.nextOf p.rate)
    | _ => true

/-- smpCnt of sample `i`: 0 at the PTP second (R145). -/
def smpCnt (hz i : Nat) : Nat := i % hz

/-- smpSynch of the device's own streams (R145). -/
def State.ownSynch (s : State) : Nat := if s.ptp.locked && s.ptpNear && !s.clk.degraded then 2 else 0

/-- ASDUs of a frame (R145). -/
def asdusOf : LaneRate → Nat
  | .fast => 6
  | .phasor => 2

/-- One sample of a stream, and the frame that it completes (R145). -/
def State.pubSample (s : State) (k : Nat) (p : Pub) : State :=
  let asdu : PubAsdu := { cnt := smpCnt p.rate.hz p.next, samples := (List.range 8).map fun j => s.pubPlace p p.next j }
  let l := p.asdus ++ [asdu]
  let set := fun (s : State) (f : Pub → Pub) => s.onAcq fun a => { a with pubs := updAt a.pubs k f }
  if l.length < asdusOf p.rate then set s fun p => { p with next := p.next + 1, asdus := l }
  else
    let y := s.ownSynch
    let s := set s fun p => { p with next := p.next + 1, asdus := [], synch := y, frames := wrapInc 32 p.frames }
    let s := s.onNet fun n => { n with sent := n.sent ++ [.sv k y l] }
    match s.netCfg.svPubs[k]? with
    | some c => s.sendOwn { dst := c.dst, src := Config.ownMac, vid := some c.vid, pcp := c.pcp, kind := .sv c.appid c.svId }
    | none => s

/-- The samples of a stream that have become available, at most `fuel` of them. -/
def State.publish (k : Nat) : Nat → State → State
  | 0, s => s
  | fuel + 1, s =>
    match s.acq.pubs[k]? with
    | some p => if s.pubReady p p.next then State.publish k fuel (s.pubSample k p) else s
    | none => s

/-- The streams of a lane take the lane's new outputs (R145). -/
def State.publishAll (s : State) (lane : LaneRate) : State :=
  s.forEach s.acq.pubs.zipIdx fun s p => if p.1.rate = lane then State.publish p.2 4 s else s

/-! ### Boundaries (R156, R188 to R194, R199, R543) -/

/-- A restored lane takes the other lane's element states, or starts every element from reset while that lane is OUT too, and is IN
(R194). -/
def State.restoreLane (s : State) (l : LaneId) : State :=
  if !(s.prot.lane l).restoreAtBoundary then s else
    let alone := (s.prot.lane l.other).phase = .out
    let s := s.onProt fun p => { p with elems := p.elems.map fun e => if alone then { e with a := {}, b := {} } else e.setOn l (e.on l.other) }
    let s := s.onLane l fun x =>
      { x with
        phase := .in_, outCause := .none, restoreAtBoundary := false, deadlineMiss := false, missRun := 0, missRunP := 0, sampleBadRun := 0
        ecc := false }
    s.report .laneRestored (laneNum l) [laneNum l, b2n alone]

/-- The essential set starts at the first phasor-lane period after DEGRADED starts, and ends at the first after it ends (R199). -/
def State.essentialBoundary (s : State) : State :=
  if s.prot.ready && s.clk.degraded != s.prot.essentialOnly then s.setEssential s.clk.degraded else s

/-- The changes that apply at a protection-cycle boundary: committed proposals, the group request, restored lanes, the essential set. The
flag says that the structure has been restarted meanwhile, or has gone (R190, R546). -/
def State.boundary (s : State) (x : StrobeIn) : State × Bool :=
  let k := s.acq.fastIdx / 3
  if s.acq.fastIdx % 3 ≠ 0 || k ≤ s.prot.boundary then (s, false) else
    let s := s.onProt fun p => { p with boundary := k, boundaryAt := s.now }
    let t := s.commitBoundary x.fuseBad x.bankAGood
    if t.sys.t0 ≠ s.sys.t0 || t.sec.bare then (t, true)
    else (((t.groupBoundary.restoreLane .a).restoreLane .b).protBegin.essentialBoundary, false)

/-! ### Intake (R19 stage 1) -/

/-- The strobe with the next grid index has come (R102, R127). -/
def State.strobeDue (s : State) : Bool := s.acq.running && decide (((s.acq.fastIdx + 1) * 1000000000 : Int) + 14400 * s.strobeOff ≤ s.ltc * 14400)

/-- The new outputs of the waveform lane of a channel from index `w0` on, in pu, with the times of their instants: a touch of a breaker whose
source it is (R74, R127). -/
def State.waveOnset (s : State) (c w0 : Nat) : State :=
  match s.ain? c with
  | none => s
  | some a =>
    let n := a.chain.nextWave - w0
    s.onset (.ain c) ((List.range n).filterMap fun k =>
      (a.waveAt (w0 + k)).bind fun y => if y.absent then none else some (s.waveTime (w0 + k), y.value * a.kpu))

/-- The modulator bits of the period that ends at the next strobe enter the chains; PROT latches what others publish (R31, R126, R166). -/
def State.intake (s : State) (x : StrobeIn) : State :=
  let s := (s.onAcq fun a => { a with fastIdx := a.fastIdx + 1 }).latchOutputs
  (s.forEach x.bits fun s c =>
    let w0 := ((s.ain? c.1).map fun a => a.chain.nextWave).getD 0
    (s.chainIn c.1 c.2).waveOnset c.1 w0).publishAll .fast

/-! ### Release and evaluation (R19 stages 1 to 6) -/

/-- The samples of SV channels on their own lane, as touches of the breakers that name them (R74). -/
def State.svOnset (s : State) (lane : LaneRate) (r : SampleSet) : State :=
  s.forEach r.samples fun s y => match y.1 with
    | .ain _ => s
    | .sv c => s.when (decide (lane = .fast) == s.svIsFast c && decide (y.2.q ≠ .invalid)) fun s => s.onset y.1 [(y.2.time, y.2.x)]

/-- The aligned set of an instant leaves ACQ for both lanes and for CAPT (R19, R143). -/
def State.release (s : State) (lane : LaneRate) (i : Nat) (x : StrobeIn) : State × SampleSet :=
  let r := s.sampleSet lane i
  let s := (s.dropReleased lane i r.time).onAcq fun a => match lane with
    | .fast => { a with lastFast := some r.time, setFast := r.samples }
    | .phasor => { a with lastPhasor := some r.time, setPhasor := r.samples }
  ((((s.laneIntake .a r x.badA).laneIntake .b r x.badB).captRelease lane r).svOnset lane r, r)

/-- Phasors have been released to a consumer (R67). -/
def State.phasorsOut (s : State) : State := s.onTide fun t => { t with phasorReleased := true }

/-- Stages 3 and 4 for the elements `l`: all are evaluated against the state at the start of the stage (R19, R155). -/
def State.evaluateAll (s : State) (rate : LaneRate) (t : Nat) (x : StrobeIn) (l : List ElemCfg) (zone : LaneId → Option ZoneQ) : State :=
  s.phasorsOut.forEach l fun t' c => State.evalElem s rate t x.missA x.missB x.upsets zone t' c

/-- The lanes' limits of a period, then stages 3 and 4 (R157). -/
def State.evaluate (s : State) (rate : LaneRate) (t : Nat) (x : StrobeIn) (l : List ElemCfg) : State :=
  ((s.laneDeadline rate .a x.missA).laneDeadline rate .b x.missB).evaluateAll rate t x l fun _ => none

/-- Stages 5 and 6, in every fast-lane period (R23, R30, R193, R197). -/
def State.tripStages (s : State) (t : Nat) : State :=
  ((s.forEach s.protCfg.trips fun s c => s.stage5 t c).onProt fun p => { p with fastCount := p.fastCount + 1 }).stage6

/-- The fast-lane part of a period (R19, R156, R157). -/
def State.fastPart (s : State) (x : StrobeIn) : State :=
  let s := s.onAcq fun a => { a with fastDone := a.fastIdx }
  match s.dueInstant .fast with
  | none => s.tripStages s.ltc
  | some i =>
    let r := s.release .fast i x
    let s := r.1
    (s.when s.prot.ready fun s => s.evaluate .fast r.2.time x (s.protCfg.elements.filter fun c => s.isEvaluated c .fast)).tripStages r.2.time

/-- A lane's copy of a zone's totals fails its check: counted as a sample with a bad CRC-16 is (R18, R225). -/
def State.badTotals (s : State) (l : LaneId) (bad : Bool) : State :=
  s.when bad fun s => ((s.onLane l fun x => { x with sampleBad := satInc 32 x.sampleBad }).pathFail 8).raise .prot 7

/-- Totals that are due: the 87L elements of the zone evaluate them while it is HEALTHY, and its state follows (R180, R225, R227, R228). -/
def State.takeTotalsDue (s : State) (t : Nat) (x : StrobeIn) (z : Nat) (d : ZoneTotals) : State :=
  let s := s.onZone z fun y => { y with totals := y.totals.drop 1 }
  let bad := fun (l : LaneId) => (match l with | .a => x.badZoneA | .b => x.badZoneB).contains z
  let s := (s.badTotals .a (bad .a)).badTotals .b (bad .b)
  let own := s.protCfg.elements.filter fun c => s.isEvaluated c .phasor && decide (c.type = .e87L ∧ c.zone = some z)
  let s := s.when (s.prot.ready && s.zoneHealthy z) fun s =>
    s.evaluateAll .phasor t x own fun l => some { d.quantities with bad := bad l }
  s.zoneEvaluated z d

/-- An element is evaluated at every phasor-lane release: any but an 87L element, and an 87L element while its zone is not HEALTHY, which
blocks it (R180, R228). -/
def State.everyRelease (s : State) (c : ElemCfg) : Bool := decide (c.type ≠ .e87L) || !(c.zone.any s.zoneHealthy)

/-- The phasor-lane part of a period (R19, R156, R212, R225). -/
def State.phasorPart (s : State) (x : StrobeIn) : State :=
  let s := (s.onAcq fun a => { a with phasorDone := a.fastIdx / 3 }).phasorIn.publishAll .phasor
  match s.dueInstant .phasor with
  | none => s
  | some i =>
    let r := s.release .phasor i x
    let s := r.1
    let s := match sumInstant r.2.time with
      | some (sec, idx) => (s.diffContribute r.2.time sec idx).when (!s.diff.zones.isEmpty) State.phasorsOut
      | none => s
    let s := s.when s.prot.ready fun s =>
      (s.evaluate .phasor r.2.time x (s.protCfg.elements.filter fun c => s.isEvaluated c .phasor && s.everyRelease c)).onProt fun p =>
        { p with phasorCount := p.phasorCount + 1 }
    s.forEach s.zonesDue fun s d => s.takeTotalsDue r.2.time x d.1 d.2

end Sys2Proof.Machine
end

