-- ==== Sys2Proof/Machine/Prot.lean ====
section
/-! DEFINITION. The commands of PROT: lane periods, known-answer tests, setting groups (spec/01_architecture_and_profiles.md R19; spec/05_protection_engine.md). -/

namespace Sys2Proof.Machine

open Sys2Proof

/-- A fast-lane period: the strobe, or at a strobe whose phasor-lane period has run already only the fast-lane part (R19, R156). -/
def execFastLanePeriod (x : FastIn) (s : State) : Out :=
  .next <| if s.acq.fastDone < s.acq.fastIdx then (if s.acq.running then s.fastPart x else s)
  else if !s.strobeDue then s
  else
    let b := (s.intake x).boundary x
    if b.2 then b.1 else b.1.fastPart x

/-- A phasor-lane period at a protection-cycle boundary, every third strobe (R156). -/
def execPhasorLanePeriod (x : PhasorIn) (s : State) : Out :=
  let k := s.acq.fastIdx
  .next <| if !s.acq.running then s
  else if k % 3 = 0 ∧ s.acq.phasorDone < k / 3 then
    let b := s.boundary x
    if b.2 then b.1 else b.1.phasorPart x
  else if (k + 1) % 3 = 0 ∧ s.acq.fastDone = k ∧ s.strobeDue then
    let b := (s.intake x).boundary x
    if b.2 then b.1 else b.1.phasorPart x
  else s

/-- 1 s without a mismatch on an element: its episode ends (R191). -/
def execLaneDisagreeEpisodeEnd (e : Nat) (s : State) : Out :=
  .next <| if (s.elem? e).any fun x => s.passedSince x.episode (secs 1) then s.onElem e fun x => { x with episode := none } else s

/-- The known-answer test of a lane ends (R192, R194). -/
def State.katEnds (s : State) (l : LaneId) (pass : Bool) : State :=
  let x := s.prot.lane l
  if !x.katRunning then s else
    let s := s.onLane l fun x => { x with katRunning := false, katPass := pass }
    match x.phase with
    | .out =>
      if !x.restoring then s
      else if pass then s.onLane l fun x => { x with restoring := false, restoreAtBoundary := true, bootKat := true }
      else (s.onLane l fun x => { x with restoring := false }).report .secCommit (laneNum l) [laneNum l, 0]
    | _ => if pass then s.onLane l fun x => { x with phase := .in_ } else s.laneOut l .kat

/-- The known-answer tests that run are complete; two lanes that were SUSPECT and both pass leave the cause unresolved (R192, R575). -/
def execProtKatDone (x : KatIn) (s : State) : Out :=
  let a := s.prot.laneA
  let b := s.prot.laneB
  .next <| if !(a.katRunning || b.katRunning) then s else
    let badA := a.katRunning && !x.passA
    let badB := b.katRunning && !x.passB
    let t := s.testResult .protKat (b2n (!badA && badB)) (!badA && !badB)
    let t := (t.katEnds .a x.passA).katEnds .b x.passB
    if a.phase = .suspect ∧ b.phase = .suspect ∧ t.prot.laneA.phase = .in_ ∧ t.prot.laneB.phase = .in_ then
      ((t.onProt fun p => { p with unresolved := satInc 16 p.unresolved }).raise .prot 2).report .laneUnresolved
    else t

/-- Once per second the known-answer test starts on the lanes that are not OUT (R192, R575). -/
def execProtKatPeriodic (s : State) : Out :=
  .next <| if !s.prot.ready || !s.passed (nth s.diag.ranAt SelfTest.protKat.bit 0) (secs 1) then s else
    s.forEach [LaneId.a, LaneId.b] fun s l => if (s.prot.lane l).phase = .out then s else s.startKat l

/-- SG_SELECT requests a group for the next boundary (R187, R188). -/
def execSgSelect (b : Nat) (s : State) : Out :=
  .next <| match s.ctlCmd b with
  | some (.sgSelect g) =>
    s.runCtl b (s.refuseGroup g .host s.sgStatus) fun s => (s.toTarget b).requestGroup { group := g, by_ := .host, berth := some b }
  | _ => s

/-- A deferred switch has waited SG_DEFER_MAX (R188). -/
def execSgDeferExpiry (s : State) : Out :=
  .next <| if s.prot.deferred && s.passed s.prot.deferSince s.protCfg.sgDeferMax then s.applyDeferred else s

end Sys2Proof.Machine
end

