-- ==== Sys2Proof/Machine/Ptp.lean ====
section
/-! DEFINITION. The commands of plant time: Sync, slew, lock, peer delay, sending, holdover (spec/13_network_and_time.md R441 to R449). -/

namespace Sys2Proof.Machine

open Sys2Proof

/-- The offset measured at a Sync, with the stamp corrected for the carrier PHY (R443, R445). -/
def State.measured (s : State) (x : SyncIn) : Num :=
  let c := s.netCfg.port? x.port
  let asym := (c.map (·.portAsym)).getD 0
  let late : Num := (((c.map (·.delayIn)).getD 0 : Nat) : Num)
  x.tRx - late - (x.origin + x.corr + s.meanDelay x.port + asym)

/-- A Sync is accepted on the slave port, from its qualified master in the device's domain, at a logSyncInterval of −7 to 1
(R441, R445, R447). -/
def State.syncAccepted (s : State) (x : SyncIn) : Bool :=
  decide (s.ptp.phase ≠ .off ∧ x.port = s.ptp.slavePort ∧ -7 ≤ x.logSync ∧ x.logSync ≤ 1 ∧ x.domain = s.ptpCfg.domain) &&
    (s.ptpPort? x.port).any fun p => s.annStands p && p.ann.any fun a => a.sender == x.sender

/-- The state table at an accepted Sync (R447). -/
def State.syncPhase (s : State) (x : SyncIn) : State :=
  let back := s.ptp.phase = .holdover || s.ptp.phase = .free
  let s := s.onPtp fun q =>
    { q with
      phase := .tracking, logSync := x.logSync, syncAt := s.now, synced := true
      history := if back then [] else q.history
      ports := q.ports.map fun p => if p.port == x.port then { p with portState := 9 } else p }
  s.when back fun s => (s.raise .ptp 3).report .holdoverEnd

/-- A step candidate that is not confirmed is counted, and logged once per minute at most (R445). -/
def State.dropCandidate (s : State) : State :=
  match s.ptp.candidate with
  | none => s
  | some c =>
    let due := s.ptp.outlierLogAt.all fun t => s.passed t (secs 60)
    let s := s.onPtp fun q => { q with candidate := none, outliers := satInc 16 q.outliers }
    s.when due fun s => (s.onPtp fun q => { q with outlierLogAt := some s.now }).report .ptpOutlier 0xFFFF [roundInt c]

/-- The servo and, beyond 1 µs, a slew (R445). -/
def State.steer (s : State) (o : Num) : State :=
  s.onPtp fun q =>
    let hist := o :: q.history
    let slew : Option Slew :=
      if o.mag ≤ 1000 then none
      else some { start := s.now, length := (o.mag * 1000000 / s.ptpCfg.slewMaxPpm).ceil.toNat, offset := o }
    { q with
      rates := (q.servoPpm :: q.rates).take 16
      history := hist
      servoPpm := Num.clamp (-200) 200 (Config.servoRate s.ptpCfg.servoBw hist)
      slew := slew, eLast := o, tLast := s.now
      lockRun := if o.mag ≤ 1000 then q.lockRun + 1 else 0 }

/-- A step by −o; the Sync counts as the last accepted one with an estimate of zero (R445, R446). -/
def State.syncStep (s : State) (o : Num) : State :=
  (s.stepClock (-o)).onPtp fun q => { q with candidate := none, timeKnown := true, lockRun := q.lockRun + 1, history := [] }

/-- A Sync, or its Follow_Up, is taken on the slave port: the estimate is replaced, with the steps of R445 (R445 to R448). -/
def State.takeSync (s : State) (x : SyncIn) : State :=
  if !s.syncAccepted x then s else
    let o := s.measured x
    let large := decide ((s.ptpCfg.stepLimit : Num) < o.mag)
    let s := (s.syncPhase x).onPtp fun q => { q with offsetLast := o }
    if s.ptp.degraded then s.onPtp fun q => { q with eLast := o, tLast := s.now, slew := none, lockRun := 0 }
    else if !s.ptp.timeKnown then s.syncStep o
    else if large then
      match s.ptp.candidate with
      | some _ => s.syncStep o
      | none => s.onPtp fun q => { q with candidate := some o, lockRun := 0 }
    else s.dropCandidate.steer o

/-- A Sync, or its Follow_Up, is received (R445 to R448). The differential zones see the estimate it replaces and the new one (R223,
R227). -/
def execPtpSyncRx (x : SyncIn) (s : State) : Out :=
  .next <| if s.syncAccepted x then (s.diffJoin.takeSync x).diffJoin else s

/-- A slew completes after |o| / PTP_SLEW_MAX (R445, R446). -/
def execPtpSlewDone (s : State) : Out :=
  .next <| match s.ptp.slew with
  | none => s
  | some x => if s.passed x.start x.length then (s.onPtp fun q => { q with slew := none, eLast := q.eLast - x.offset }).diffJoin else s

/-- LOCKED sets after 8 Syncs within ±1 µs, or clears when e passes 1 µs (R446). -/
def execPtpLockChange (s : State) : Out :=
  .next <| if s.ptp.locked && (!s.ptpNear || s.ptp.degraded) then (s.setLocked false).refreshHolds
  else if !s.ptp.locked && decide (8 ≤ s.ptp.lockRun) && s.ptpNear && !s.ptp.degraded then (s.setLocked true).refreshHolds
  else s

/-- A two-step entry without a Follow_Up for 1 s is discarded and counted (R444). -/
def execPtpFollowupLost (s : State) : Out :=
  let old := s.ptp.follow.filter fun e => s.passed e.at_ (secs 1)
  .next <| s.when (!old.isEmpty) fun s =>
    (s.onPtp fun x =>
      { x with follow := x.follow.filter fun e => !s.passed e.at_ (secs 1), followLost := x.followLost + old.length }).raise .ptp 7

/-- A peer-delay message of this device, to the peer-delay address (R441). -/
def State.sendPeerDelay (s : State) (p : Nat) : State :=
  s.enqueue p { dst := 0x0180C200000E, src := Config.ownMac, vid := s.ptpCfg.vid, pcp := s.ptpCfg.pcp, len := 72, kind := .ptp .peerDelay }

/-- Pdelay_Req goes out at PTP_LOG_PDELAY, a partner's request is answered, and an exchange gives meanLinkDelay (R441, R443). -/
def execPtpPdelay (x : PdelayIn) (s : State) : Out :=
  .next <| match x with
  | .send p =>
    match s.ptpPort? p with
    | none => s
    | some q =>
      if s.ptpRuns p && s.portUp p && decide (s.ptp.phase ≠ .off) && s.passed q.pdelayAt (logNs s.ptpCfg.logPdelay) then
        let s := (s.onPtpPort p fun q => { q with pdelayAt := s.now }).onNet fun n => { n with sent := n.sent ++ [.pdelayReq p] }
        s.sendPeerDelay p
      else s
  | .request p =>
    if s.ptpRuns p && s.portUp p && decide (s.ptp.phase ≠ .off) then
      (s.onNet fun n => { n with sent := n.sent ++ [.pdelayResp p] }).sendPeerDelay p
    else s
  | .done p tOut tIn turn =>
    let c := s.netCfg.port? p
    let out : Num := (((c.map (·.delayOut)).getD 0 : Nat) : Num)
    let inn : Num := (((c.map (·.delayIn)).getD 0 : Nat) : Num)
    if s.ptpRuns p && s.portUp p && decide (s.ptp.phase ≠ .off) then
      s.onPtpPort p fun q => { q with meanDelay := some (((tIn - inn) - (tOut + out) - turn) / 2) }
    else s

/-- The clockClass that a boundary clock announces, `none` when its master ports are silent (R442). -/
def State.bcClass (s : State) : Option Nat :=
  if s.clk.degraded then none
  else match s.ptp.phase with
    | .tracking => some s.ptp.gmClass
    | .holdover => some (if s.ptpNear then 7 else 187)
    | .off | .listening | .free => none

/-- A message of a master port (R441). -/
def State.sendPtp (s : State) (p : Nat) (m : PtpMsg) (f : SentFrame) : State :=
  (s.onNet fun n => { n with sent := n.sent ++ [f] }).enqueue p
    { dst := 0x011B19000000, src := Config.ownMac, vid := s.ptpCfg.vid, pcp := s.ptpCfg.pcp, len := 90, kind := .ptp m }

/-- As BC, a master port sends Sync at PTP_LOG_SYNC and Announce every second (R441, R442). -/
def execPtpSend (p : Nat) (s : State) : Out :=
  .next <| match s.ptpPort? p, s.bcClass with
  | some q, some cls =>
    if !(s.ptpCfg.role = .bc && q.portState = 6 && s.portUp p) then s else
      let a : Announce :=
        { s.ptp.parent.getD { gmId := s.ptp.gmId } with
          clockClass := cls, steps := s.ptp.gmSteps + 1, inacc := s.ptp.gmInacc.map (· + 50), domain := s.ptpCfg.domain, interval := secs 1
          sender := Config.ownPort p }
      let s := s.when (s.passed q.announceAt (secs 1)) fun s =>
        (s.onPtpPort p fun q => { q with announceAt := s.now }).sendPtp p (.announce a) (.announce p cls a.steps a.inacc)
      s.when (s.passed q.syncAt (logNs s.ptpCfg.logSync)) fun s =>
        (s.onPtpPort p fun q => { q with syncAt := s.now }).sendPtp p (.sync 0 0 false 0) (.sync p)
  | _, _ => s

/-- No Sync for 3 intervals, or an Announce timeout with no other port qualified, puts PTP in HOLDOVER; where another port
qualifies, the BMCA elects it (R447). -/
def execHoldoverStart (s : State) : Out :=
  .next <| if s.ptp.phase ≠ .tracking then s
  else if s.passed s.ptp.syncAt (3 * logNs s.ptp.logSync) || s.bestAnn.isNone then s.enterHoldover
  else s.elect

/-- HOLDOVER_MAX elapses in HOLDOVER (R447). -/
def execPtpFree (s : State) : Out :=
  .next <| if s.ptp.phase = .holdover && s.passed s.ptp.holdSince s.ptpCfg.holdoverMax then
    ((s.onPtp fun x => { x with phase := .free }).raise .ptp 4).report .ptpFree
  else s

end Sys2Proof.Machine
end

