-- ==== Sys2Proof/Machine/Sys.lean ====
section
/-! DEFINITION. The commands of SYS: supplies, stages, last-words, resets (spec/17_startup_power_reset.md). -/

namespace Sys2Proof.Machine

open Sys2Proof

/-- The mean of an input crosses a threshold, or its 10 ms of qualification end (R553, R554). While power-on reset is held, both inputs
ABSENT make the next start a POWER_ON, and the always-on well loses LOG_AON (R555, R565). -/
def execSupplyLevelChange (vlb : Bool) (mv : Nat) (s : State) : Out :=
  .next <|
    let old := (s.sys.supply vlb).level
    let x := (s.sys.supply vlb).measure mv s.now
    let s := s.onSys fun y => y.setSupply vlb x
    let s := s.onSys fun y =>
      { y with
        singleSince := if !y.onlyOne then none else if old.counts && !x.level.counts then some s.now else y.singleSince
        cause := if y.held && !s.powered then .powerOn else y.cause }
    let s := s.when (s.sys.held && !s.powered) fun s => s.onLog fun l => { l with aonBoth := false, aonA := false, aonB := false, bothFail := false }
    let s := s.when (decide (x.level = .over ∧ old ≠ .over)) fun s =>
      ((s.onDiag fun d => { d with ledger := { d.ledger with overs := d.ledger.overs + 1 } }).raise .sys 2).report .supplyOver (b2n vlb) [b2n vlb, mv]
    s.supplyDual

/-- At least one input has been OK for 10 ms: T0, and the start of the timeline (R554, R556, R566, R581). -/
def execSupplyValid (s : State) : Out :=
  .next <|
    let a := s.sys.vla.settle s.now
    let b := s.sys.vlb.settle s.now
    if !s.sys.held || !(a.level.counts || b.level.counts) then s else
      let s := s.onSys fun y => { y with vla := a, vlb := b, supplyValid := true, held := false, t0 := s.now }
      let s := s.onDiag fun d => { d with ledger := { d.ledger with pwrcyc := satInc 32 d.ledger.pwrcyc } }
      { s.measureBackup with ltc := 0 }

/-- One input has left OK while the other has stayed OK for 10 ms (R554). -/
def execSupplySingle (s : State) : Out :=
  .next <| if s.sys.single || !s.sys.onlyOne || !s.passedSince s.sys.singleSince (msec 10) then s else
    let s := s.onSys fun y => { y with single := true }
    let s := s.onDiag fun d => { d with ledger := { d.ledger with singles := d.ledger.singles + 1 } }
    (s.raise .sys 0).report .supplySingle 0xFFFF [s.sys.vla.mv, s.sys.vlb.mv]

/-- The next stage begins, when its time has come and its prerequisite is met (R556, R557). -/
def execStartupStage (x : BootIn) (s : State) : Out :=
  let n := s.sys.stage + 1
  .next <| if s.sys.held || s.sys.lastwords || decide (11 < n) || !s.passed s.sys.t0 (stageDue n + s.sys.delay) then s else
    let s := s.missReference
    if n = 2 ∧ s.loopsReady = none then s else s.stageAction n x

/-- The higher input has stayed below 16.0 V for 10 µs: last-words (R562, R564). -/
def execLastwordsEntry (s : State) : Out :=
  .next <| if s.sys.held || s.sys.lastwords || decide (16000 ≤ max s.sys.vla.mv s.sys.vlb.mv) then s else s.lastWords

/-- Last-words has run to its end: power-on reset is held (R563). -/
def execLastwordsEnd (s : State) : Out := .next <| if s.sys.lastwords then s.powerReset else s

/-- RST_N held low for at least 1 ms (R565, R568). -/
def execRstNReset (held : Ns) (s : State) : Out :=
  .next <| if s.sys.held || s.sys.lastwords || decide (held < msec 1) then s else s.restart .rstN (decide (secs 2 ≤ held))

/-- CORE has not renewed the system watchdog for 100 ms: every domain but PCIE and TIME is reset; the link stays up (R565, R566). -/
def execSystemWatchdogExpiry (s : State) : Out :=
  .next <| if s.sys.held || s.sys.lastwords then s else
    let h := s.host
    (s.restart .watchdog false).onHost fun _ =>
      { h with
        ready := false, berths := List.replicate 128 none, qBulk := [], qSig := [], qCtl := [], fBulk := 0, fSig := 0, fCtl := 0
        forwards := [], regs := [], lateEpisode := false }

/-- PCI Express hot reset, Function Level Reset or link-down: the HOST block only (R482, R566). -/
def execHotReset (s : State) : Out := .next <| (s.onHost HostState.cleared).hostGone

/-- PERST_N low: the HOST block and the PCI Express PHY (R482, R566). -/
def execPerstReset (s : State) : Out := .next <| (s.onHost HostState.cleared).hostGone

end Sys2Proof.Machine
end

