-- ==== Sys2Proof/Machine/Dispatch.lean ====
section
/-! DEFINITION. Dispatch: one arm for each command, each a direct call of its meaning (or a rejection by name). -/

namespace Sys2Proof.Machine

open Sys2Proof

def exec (i : Instr) (s : State) : Host.Outcome State Fault Refusal :=
  match i with
  | .supplyLevelChange vlb mv => Sys2Proof.Machine.execSupplyLevelChange vlb mv s
  | .supplyValid => Sys2Proof.Machine.execSupplyValid s
  | .supplySingle => Sys2Proof.Machine.execSupplySingle s
  | .startupStage x => Sys2Proof.Machine.execStartupStage x s
  | .lastwordsEntry => Sys2Proof.Machine.execLastwordsEntry s
  | .lastwordsEnd => Sys2Proof.Machine.execLastwordsEnd s
  | .rstNReset held => Sys2Proof.Machine.execRstNReset held s
  | .systemWatchdogExpiry => Sys2Proof.Machine.execSystemWatchdogExpiry s
  | .hotReset => Sys2Proof.Machine.execHotReset s
  | .perstReset => Sys2Proof.Machine.execPerstReset s
  | .xrefLoss => Sys2Proof.Machine.execXrefLoss s
  | .xrefReturn => Sys2Proof.Machine.execXrefReturn s
  | .refQualified q => Sys2Proof.Machine.execRefQualified q s
  | .tcxoLoss => Sys2Proof.Machine.execTcxoLoss s
  | .spllLocked l => Sys2Proof.Machine.execSpllLocked l s
  | .spllQualified l => Sys2Proof.Machine.execSpllQualified l s
  | .spllLossOfLock x => Sys2Proof.Machine.execSpllLossOfLock x s
  | .spllRetry l => Sys2Proof.Machine.execSpllRetry l s
  | .clkGuard d => Sys2Proof.Machine.execClkGuard d s
  | .clkRetune b => Sys2Proof.Machine.execClkRetune b s
  | .retuneTimeout => Sys2Proof.Machine.execRetuneTimeout s
  | .clkLoopReset b => Sys2Proof.Machine.execClkLoopReset b s
  | .measStrobe steer => Sys2Proof.Machine.execMeasStrobe steer s
  | .mpllLol => Sys2Proof.Machine.execMpllLol s
  | .mpllRequalified => Sys2Proof.Machine.execMpllRequalified s
  | .degradedEnd => Sys2Proof.Machine.execDegradedEnd s
  | .dramRetrainDone => Sys2Proof.Machine.execDramRetrainDone s
  | .partnerReset x src d token aligned => Sys2Proof.Machine.execPartnerReset x src d token aligned s
  | .domainStopped d => Sys2Proof.Machine.execDomainStopped d s
  | .stoppedDomainAccess offset write => Sys2Proof.Machine.execStoppedDomainAccess offset write s
  | .tideRateRecompute => Sys2Proof.Machine.execTideRateRecompute s
  | .handoverStart => Sys2Proof.Machine.execHandoverStart s
  | .tideCycleCarry => Sys2Proof.Machine.execTideCycleCarry s
  | .tideFallback => Sys2Proof.Machine.execTideFallback s
  | .pilotUpdate x => Sys2Proof.Machine.execPilotUpdate x s
  | .tidePin b => Sys2Proof.Machine.execTidePin b s
  | .tideUnpin b => Sys2Proof.Machine.execTideUnpin b s
  | .tideMarkArm b => Sys2Proof.Machine.execTideMarkArm b s
  | .tideMarkFire => Sys2Proof.Machine.execTideMarkFire s
  | .powCloseRequest b => Sys2Proof.Machine.execPowCloseRequest b s
  | .powTouch pw touch => Sys2Proof.Machine.execPowTouch pw touch s
  | .powNoTouch pw => Sys2Proof.Machine.execPowNoTouch pw s
  | .tideConvGo dir => Sys2Proof.Machine.execTideConvGo dir s
  | .tideConvDone => Sys2Proof.Machine.execTideConvDone s
  | .fastLanePeriod x => Sys2Proof.Machine.execFastLanePeriod x s
  | .phasorLanePeriod x => Sys2Proof.Machine.execPhasorLanePeriod x s
  | .acqIntegHoldEnd c => Sys2Proof.Machine.execAcqIntegHoldEnd c s
  | .acqCoefWrite c bankB k v => Sys2Proof.Machine.execAcqCoefWrite c bankB k v s
  | .acqBankWrite c v => Sys2Proof.Machine.execAcqBankWrite c v s
  | .acqSwap b => Sys2Proof.Machine.execAcqSwap b s
  | .acqSwapStart c => Sys2Proof.Machine.execAcqSwapStart c s
  | .acqFadeDone c => Sys2Proof.Machine.execAcqFadeDone c s
  | .acqSettleEnd c => Sys2Proof.Machine.execAcqSettleEnd c s
  | .laneDisagreeEpisodeEnd e => Sys2Proof.Machine.execLaneDisagreeEpisodeEnd e s
  | .protKatDone x => Sys2Proof.Machine.execProtKatDone x s
  | .protKatPeriodic => Sys2Proof.Machine.execProtKatPeriodic s
  | .sgSelect b => Sys2Proof.Machine.execSgSelect b s
  | .sgDeferExpiry => Sys2Proof.Machine.execSgDeferExpiry s
  | .diffLaunch z => Sys2Proof.Machine.execDiffLaunch z s
  | .sumFrameRx x => Sys2Proof.Machine.execSumFrameRx x s
  | .diffDeadline z => Sys2Proof.Machine.execDiffDeadline z s
  | .formControlCycle u => Sys2Proof.Machine.execFormControlCycle u s
  | .formCompute u => Sys2Proof.Machine.execFormCompute u s
  | .formLockstep u => Sys2Proof.Machine.execFormLockstep u s
  | .formLockstepTestDone u pass => Sys2Proof.Machine.execFormLockstepTestDone u pass s
  | .frtEnd u => Sys2Proof.Machine.execFrtEnd u s
  | .frtEnvelope u => Sys2Proof.Machine.execFrtEnvelope u s
  | .formReady u => Sys2Proof.Machine.execFormReady u s
  | .formStart b => Sys2Proof.Machine.execFormStart b s
  | .formBlackStart b => Sys2Proof.Machine.execFormBlackStart b s
  | .formConnectDone u => Sys2Proof.Machine.execFormConnectDone u s
  | .formEnergiseTimeout u => Sys2Proof.Machine.execFormEnergiseTimeout u s
  | .formResync b => Sys2Proof.Machine.execFormResync b s
  | .formResyncCancel b => Sys2Proof.Machine.execFormResyncCancel b s
  | .formResyncTimeout u => Sys2Proof.Machine.execFormResyncTimeout u s
  | .formStop b => Sys2Proof.Machine.execFormStop b s
  | .formStopped u => Sys2Proof.Machine.execFormStopped u s
  | .formBlock b => Sys2Proof.Machine.execFormBlock b s
  | .formReset b => Sys2Proof.Machine.execFormReset b s
  | .formSetpoint b => Sys2Proof.Machine.execFormSetpoint b s
  | .formStage b => Sys2Proof.Machine.execFormStage b s
  | .formStepApply u => Sys2Proof.Machine.execFormStepApply u s
  | .formAutostart u => Sys2Proof.Machine.execFormAutostart u s
  | .bridgeRestore b => Sys2Proof.Machine.execBridgeRestore b s
  | .formCircTrip u => Sys2Proof.Machine.execFormCircTrip u s
  | .formHoldTimeout u => Sys2Proof.Machine.execFormHoldTimeout u s
  | .gateUplinkRx x => Sys2Proof.Machine.execGateUplinkRx x s
  | .gateRepeat br => Sys2Proof.Machine.execGateRepeat br s
  | .gateBlockIdleSend br => Sys2Proof.Machine.execGateBlockIdleSend br s
  | .gateLinkDown br => Sys2Proof.Machine.execGateLinkDown br s
  | .gateLinkUp br => Sys2Proof.Machine.execGateLinkUp br s
  | .gateClear b => Sys2Proof.Machine.execGateClear b s
  | .fioCouplerFrame x => Sys2Proof.Machine.execFioCouplerFrame x s
  | .fioGroupLost g => Sys2Proof.Machine.execFioGroupLost g s
  | .fioHandshake g ok => Sys2Proof.Machine.execFioHandshake g ok s
  | .fioInputEdge ch level stamp stable => Sys2Proof.Machine.execFioInputEdge ch level stamp stable s
  | .fioTimeSync g => Sys2Proof.Machine.execFioTimeSync g s
  | .fioSyncLost g => Sys2Proof.Machine.execFioSyncLost g s
  | .fioOutputCommand ch => Sys2Proof.Machine.execFioOutputCommand ch s
  | .fioSet b => Sys2Proof.Machine.execFioSet b s
  | .fioOverload ch limit => Sys2Proof.Machine.execFioOverload ch limit s
  | .fioOvlRetry ch => Sys2Proof.Machine.execFioOvlRetry ch s
  | .fioClear b => Sys2Proof.Machine.execFioClear b s
  | .fioOvertemp ch hot => Sys2Proof.Machine.execFioOvertemp ch hot s
  | .fioWatchdog g => Sys2Proof.Machine.execFioWatchdog g s
  | .fioSchedEdge g id => Sys2Proof.Machine.execFioSchedEdge g id s
  | .fioDarkPulse x => Sys2Proof.Machine.execFioDarkPulse x s
  | .fioBackfeedProbe x => Sys2Proof.Machine.execFioBackfeedProbe x s
  | .fioOpenWire ch => Sys2Proof.Machine.execFioOpenWire ch s
  | .fioIndeterminate ch => Sys2Proof.Machine.execFioIndeterminate ch s
  | .fioSupply g mv => Sys2Proof.Machine.execFioSupply g mv s
  | .fioResume b => Sys2Proof.Machine.execFioResume b s
  | .logicTaskRelease t => Sys2Proof.Machine.execLogicTaskRelease t s
  | .logicEventSource t src => Sys2Proof.Machine.execLogicEventSource t src s
  | .logicOutputWrite x => Sys2Proof.Machine.execLogicOutputWrite x s
  | .logicCommitDone m => Sys2Proof.Machine.execLogicCommitDone m s
  | .logicHalt ecc => Sys2Proof.Machine.execLogicHalt ecc s
  | .logicStart b => Sys2Proof.Machine.execLogicStart b s
  | .logicStop b => Sys2Proof.Machine.execLogicStop b s
  | .logicRead b => Sys2Proof.Machine.execLogicRead b s
  | .logicWrite b => Sys2Proof.Machine.execLogicWrite b s
  | .logicEvent b => Sys2Proof.Machine.execLogicEvent b s
  | .logicStage b => Sys2Proof.Machine.execLogicStage b s
  | .logicExchange m => Sys2Proof.Machine.execLogicExchange m s
  | .logicExchFail m => Sys2Proof.Machine.execLogicExchFail m s
  | .rioInSend slot => Sys2Proof.Machine.execRioInSend slot s
  | .rioPayloadRx src p => Sys2Proof.Machine.execRioPayloadRx src p s
  | .logicStationDrop slot => Sys2Proof.Machine.execLogicStationDrop slot s
  | .logicStationSafe slot => Sys2Proof.Machine.execLogicStationSafe slot s
  | .captArm b => Sys2Proof.Machine.execCaptArm b s
  | .captDisarm b => Sys2Proof.Machine.execCaptDisarm b s
  | .captManualTrigger b => Sys2Proof.Machine.execCaptManualTrigger b s
  | .captSet b => Sys2Proof.Machine.execCaptSet b s
  | .captLock b => Sys2Proof.Machine.execCaptLock b s
  | .captUnlock b => Sys2Proof.Machine.execCaptUnlock b s
  | .captLockLapsed e => Sys2Proof.Machine.execCaptLockLapsed e s
  | .captConditionMet e cond => Sys2Proof.Machine.execCaptConditionMet e cond s
  | .captWindowEnd e => Sys2Proof.Machine.execCaptWindowEnd e s
  | .captDone e => Sys2Proof.Machine.execCaptDone e s
  | .bar2Read offset ecc => Sys2Proof.Machine.execBar2Read offset ecc s
  | .bar2Write offset => Sys2Proof.Machine.execBar2Write offset s
  | .logIntake => Sys2Proof.Machine.execLogIntake s
  | .logCommitDone readback => Sys2Proof.Machine.execLogCommitDone readback s
  | .logTailUpdate => Sys2Proof.Machine.execLogTailUpdate s
  | .logTailFold => Sys2Proof.Machine.execLogTailFold s
  | .logHCursorWrite h lo => Sys2Proof.Machine.execLogHCursorWrite h lo s
  | .logHStatRead h => Sys2Proof.Machine.execLogHStatRead h s
  | .logCheckFailWindowEnd => Sys2Proof.Machine.execLogCheckFailWindowEnd s
  | .logStageRead => Sys2Proof.Machine.execLogStageRead s
  | .netLink p up mbps => Sys2Proof.Machine.execNetLink p up mbps s
  | .netFrameRx x => Sys2Proof.Machine.execNetFrameRx x s
  | .netMacAge => Sys2Proof.Machine.execNetMacAge s
  | .netGclEntry p => Sys2Proof.Machine.execNetGclEntry p s
  | .netPortAdmin b => Sys2Proof.Machine.execNetPortAdmin b s
  | .hsrSupervisionSend k => Sys2Proof.Machine.execHsrSupervisionSend k s
  | .netRingOpen k => Sys2Proof.Machine.execNetRingOpen k s
  | .hsrDupExpiry k => Sys2Proof.Machine.execHsrDupExpiry k s
  | .hsrNodeExpiry k => Sys2Proof.Machine.execHsrNodeExpiry k s
  | .ptpSyncRx x => Sys2Proof.Machine.execPtpSyncRx x s
  | .ptpSlewDone => Sys2Proof.Machine.execPtpSlewDone s
  | .ptpLockChange => Sys2Proof.Machine.execPtpLockChange s
  | .ptpFollowupLost => Sys2Proof.Machine.execPtpFollowupLost s
  | .ptpPdelay x => Sys2Proof.Machine.execPtpPdelay x s
  | .ptpSend p => Sys2Proof.Machine.execPtpSend p s
  | .holdoverStart => Sys2Proof.Machine.execHoldoverStart s
  | .ptpFree => Sys2Proof.Machine.execPtpFree s
  | .gooseFrameRx f => Sys2Proof.Machine.execGooseFrameRx f s
  | .gooseTalExpired n => Sys2Proof.Machine.execGooseTalExpired n s
  | .goosePublishChange q => Sys2Proof.Machine.execGoosePublishChange q s
  | .gooseRetransmit q => Sys2Proof.Machine.execGooseRetransmit q s
  | .svFrameRx f => Sys2Proof.Machine.execSvFrameRx f s
  | .netSvLost n => Sys2Proof.Machine.execNetSvLost n s
  | .healthGoosePublish => Sys2Proof.Machine.execHealthGoosePublish s
  | .chkEGo n v => Sys2Proof.Machine.execChkEGo n v s
  | .chkEDone x => Sys2Proof.Machine.execChkEDone x s
  | .chkKat x => Sys2Proof.Machine.execChkKat x s
  | .hostSqDb r v => Sys2Proof.Machine.execHostSqDb r v s
  | .hostEntryArrival r e => Sys2Proof.Machine.execHostEntryArrival r e s
  | .berthBulkDone b => Sys2Proof.Machine.execBerthBulkDone b s
  | .berthSigDone b valid => Sys2Proof.Machine.execBerthSigDone b valid s
  | .hostCompletionWrite b => Sys2Proof.Machine.execHostCompletionWrite b s
  | .hostCqDb r v => Sys2Proof.Machine.execHostCqDb r v s
  | .hostRingCtrlWrite r v => Sys2Proof.Machine.execHostRingCtrlWrite r v s
  | .hostFrDb x => Sys2Proof.Machine.execHostFrDb x s
  | .hostLinkDown => Sys2Proof.Machine.execHostLinkDown s
  | .hostForwardNoAnswer req => Sys2Proof.Machine.execHostForwardNoAnswer req s
  | .bar4Access x => Sys2Proof.Machine.execBar4Access x s
  | .regRequestRx x => Sys2Proof.Machine.execRegRequestRx x s
  | .regAnswerRx req a => Sys2Proof.Machine.execRegAnswerRx req a s
  | .regTimeout req => Sys2Proof.Machine.execRegTimeout req s
  | .adeidFrameRx x => Sys2Proof.Machine.execAdeidFrameRx x s
  | .adeidLinkFrameSend q => Sys2Proof.Machine.execAdeidLinkFrameSend q s
  | .adeidLink x => Sys2Proof.Machine.execAdeidLink x s
  | .topoHeartbeat => Sys2Proof.Machine.execTopoHeartbeat s
  | .adeidHeartbeatLoss n secondary => Sys2Proof.Machine.execAdeidHeartbeatLoss n secondary s
  | .doorHoldRenew => Sys2Proof.Machine.execDoorHoldRenew s
  | .doorHoldLapse => Sys2Proof.Machine.execDoorHoldLapse s
  | .doorOpenScheduled d => Sys2Proof.Machine.execDoorOpenScheduled d s
  | .doorClose b => Sys2Proof.Machine.execDoorClose b s
  | .doorOpen b => Sys2Proof.Machine.execDoorOpen b s
  | .provisionRoot b => Sys2Proof.Machine.execProvisionRoot b s
  | .keyInstall b => Sys2Proof.Machine.execKeyInstall b s
  | .manifestLoad b => Sys2Proof.Machine.execManifestLoad b s
  | .manifestVerifyDone slotB => Sys2Proof.Machine.execManifestVerifyDone slotB s
  | .manifestActivate b => Sys2Proof.Machine.execManifestActivate b s
  | .manifestActivateEffect => Sys2Proof.Machine.execManifestActivateEffect s
  | .manifestPromote b fuses => Sys2Proof.Machine.execManifestPromote b fuses s
  | .propose b => Sys2Proof.Machine.execPropose b s
  | .confirm b => Sys2Proof.Machine.execConfirm b s
  | .proposeWithdraw b => Sys2Proof.Machine.execProposeWithdraw b s
  | .proposalWindowLapse p => Sys2Proof.Machine.execProposalWindowLapse p s
  | .diagSelftestPeriodic t l pass => Sys2Proof.Machine.execDiagSelftestPeriodic t l pass s
  | .diagEccError x => Sys2Proof.Machine.execDiagEccError x s
  | .mramRefreshLine line corrected => Sys2Proof.Machine.execMramRefreshLine line corrected s
  | .mramRefreshStart => Sys2Proof.Machine.execMramRefreshStart s
  | .diagTempRead x => Sys2Proof.Machine.execDiagTempRead x s
  | .diagAgeMeasure x => Sys2Proof.Machine.execDiagAgeMeasure x s
  | .ledgerCommit => Sys2Proof.Machine.execLedgerCommit s
  | .diagBundle b => Sys2Proof.Machine.execDiagBundle b s
  | .snapshotLowWordRead who offset => Sys2Proof.Machine.execSnapshotLowWordRead who offset s
  | .evcntWord0Read who slot => Sys2Proof.Machine.execEvcntWord0Read who slot s
  | .hostBerthUseRead => Sys2Proof.Machine.execHostBerthUseRead s
  | .w1cWrite offset v => Sys2Proof.Machine.execW1cWrite offset v s
  | .bar0BadWrite => Sys2Proof.Machine.execBar0BadWrite s
  | .uninstAccess blk => Sys2Proof.Machine.execUninstAccess blk s
  | .registerWrite offset v who => Sys2Proof.Machine.execRegisterWrite offset v who s
  | .tcxoQualified => Sys2Proof.Machine.execTcxoQualified s
  | .xrefQualified ppm => Sys2Proof.Machine.execXrefQualified ppm s
  | .hostLinkUp => Sys2Proof.Machine.execHostLinkUp s
  | .adeidReqIdExpiry => Sys2Proof.Machine.execAdeidReqIdExpiry s
  | .domainClockReturn d => Sys2Proof.Machine.execDomainClockReturn d s

end Sys2Proof.Machine
end

