-- ==== Sys2Proof/Machine/Tick.lean ====
section
/-! DEFINITION. What passes with time while no command waits: one tick of the local time counter (spec/02_tide.md R43), the egress of the
switch (spec/13_network_and_time.md R433 to R435, R444), of the Adeid links (spec/15_host_cluster_berths.md R497, R498), the vectors that
HOLDOFF held back (R512), the Lock crossings (R108), and the health state that follows its conditions (R583). -/

namespace Sys2Proof.Machine

open Sys2Proof

/-! ### Egress of the switch (R433 to R435, R444) -/

/-- The head of a queue may start now: its gate is open and stays open for the whole frame (R435). -/
def State.mayStart (s : State) (x : Port) (q : Nat) : Option Queued :=
  match nth x.queues q [] with
  | [] => none
  | h :: _ =>
    match s.gateOpenFor x q with
    | none => some h
    | some left => if x.lineTime h.frame.len ≤ left then some h else none

/-- A head that its gate holds back is counted, once for each frame (R435). -/
def holdHead : List Queued → List Queued
  | [] => []
  | h :: l => { h with held := true } :: l

def State.countHeld (s : State) (p : Nat) : State :=
  match s.port? p with
  | none => s
  | some x =>
    let stuck := (List.range 8).filter fun q => (s.mayStart x q).isNone && (nth x.queues q []).head?.any fun h => !h.held
    if stuck.isEmpty then s else
      s.onPort p fun x => { x with gateHold := satAdd 32 x.gateHold stuck.length, queues := stuck.foldl (fun l q => updAt l q holdHead) x.queues }

/-- The residence of a frame, scaled in DEGRADED with the cause LOOP_FAIL (R444). -/
def State.residence (s : State) (h : Queued) : Num :=
  let r : Num := ((s.now - h.at_ : Nat) : Num)
  if s.clk.degraded && s.clk.degCause != .refLoss then r * Config.backupRatio else r

/-- The transparent function as a message of another device leaves (R444). -/
def State.tcLeave (s : State) (p : Nat) (h : Queued) : State :=
  let count := fun (s : State) => s.onPtpPort p fun x => { x with corrected := wrapInc 16 x.corrected }
  if h.frame.src = Config.ownMac then s
  else match h.frame.kind with
    | .ptp (.sync _ _ false corr) =>
      (count s).onNet fun n => { n with sent := n.sent ++ [.syncTc p (corr + s.residence h)] }
    | .ptp (.sync id seq true _) =>
      s.onPtp fun x => { x with follow := x.follow.map fun e =>
        if e.egress = p ∧ e.portId = id ∧ e.seq = seq then { e with corr := e.corr + s.residence h } else e }
    | .ptp (.followUp id seq corr) =>
      match s.ptp.follow.find? fun e => e.egress = p ∧ e.portId = id ∧ e.seq = seq with
      | none => s.onNet fun n => { n with sent := n.sent ++ [.followUp p corr] }
      | some e =>
        let s := s.onPtp fun x => { x with follow := x.follow.erase e }
        (count s).onNet fun n => { n with sent := n.sent ++ [.followUp p (corr + e.corr)] }
    | _ => s

/-- A frame reaches the host through HP: the next free descriptor of the RX ring is written (R434, R512). -/
def HostState.frReceive (h : HostState) (len : Nat) (ts : Word) : HostState :=
  let h := { h with
    frRxDone := { len := len, own := false, ts := ts } :: h.frRxDone
    frRxHead := (h.frRxHead + 1) % frEntries h.frRxSize, frRxFilled := h.frRxFilled + 1 }
  h.vector 17

/-- The host has a descriptor for a frame (R512). -/
def HostState.frRoom (h : HostState) : Bool := h.linkUp && h.frRx && decide (h.frRxFilled < frEntries h.frRxSize)

/-- A frame starts on a port (R433, R435). -/
def State.portStart (s : State) (p q : Nat) (h : Queued) : State :=
  let s := s.onPort p fun x =>
    { x with txFrames := x.txFrames + 1, busyUntil := s.now + x.lineTime h.frame.len, queues := updAt x.queues q List.tail }
  if p = 44 then s.onHost fun x => x.frReceive h.frame.len s.ts32 else s.tcLeave p h

/-- A port serves the highest queue whose head may start (R433). -/
def State.portServe (s : State) (p : Nat) : State :=
  match s.port? p with
  | none => s
  | some x =>
    if !(x.link && !x.adminDown) || decide (s.now < x.busyUntil) || (p = 44 && !s.host.frRoom) then s
    else match ((List.range 8).reverse.filterMap fun q => (s.mayStart x q).map fun h => (q, h)).head? with
      | none => s
      | some (q, h) => s.portStart p q h

/-- Every port of the switch for one tick. -/
def State.netTick (s : State) : State := s.forEach (s.net.ports.map (·.port)) fun s p => (s.countHeld p).portServe p

/-! ### Egress of the Adeid links (R497, R498) -/

/-- A class has a credit: the receiver's buffer less the frames sent but not yet freed; LINK needs none (R498). -/
def AdeidLink.credit (l : AdeidLink) (c : AdeidClass) : Bool :=
  c == .link || decide (((nth l.sentCls c.num 0) - (nth l.theirs c.num 0)).toNat < c.buffer)

def AdeidFrame.cls (f : AdeidFrame) : AdeidClass := (f.payload.map AdeidPayload.cls).getD .bulk

/-- The oldest frame of a class that waits. -/
def AdeidLink.oldest (l : AdeidLink) (c : AdeidClass) : Option AdeidFrame := l.egress.find? fun f => f.cls == c

/-- The order of service: by priority, CMD and REG in round-robin (R497). -/
def AdeidLink.order (l : AdeidLink) : List AdeidClass :=
  [.link, .sum, .rio, .topo] ++ (if l.lastReg then [.cmd, .reg] else [.reg, .cmd]) ++ [.bulk]

/-- The frame that a link serves next. A link that is not up carries LINK frames only (R497, R498, R500). -/
def AdeidLink.next (l : AdeidLink) : Option AdeidFrame :=
  (l.order.filterMap fun c => if l.credit c && (l.phase == .up || c == .link) then l.oldest c else none).head?

/-- A frame leaves on a link with the next ALIVE of its class (R469, R496 to R498). -/
def State.adeidLeave (s : State) (q : Nat) (f : AdeidFrame) : State :=
  let c := f.cls
  let g := { f with alive := nth (s.link q).aliveTx c.num 0 }
  let s := s.onLink q fun l =>
    { l with
      egress := l.egress.erase f, tx := l.tx + 1, aliveTx := updAt l.aliveTx c.num (wrapInc 4)
      sentCls := updAt l.sentCls c.num (· + 1)
      lastReg := if c = .reg then true else if c = .cmd then false else l.lastReg }
  s.onAdeid fun a => { a with sent := (q, g) :: a.sent }

/-- Every Adeid link for one tick. -/
def State.adeidTick (s : State) : State :=
  s.forEach (List.range 4) fun s q =>
    if (s.link q).phase = .down then s
    else match (s.link q).next with
      | none => s
      | some f => s.adeidLeave q f

/-! ### The tick -/

/-- The vectors of completion rings whose HOLDOFF has passed (R512). -/
def State.vectorTick (s : State) : State :=
  s.forEach (List.range 16) fun s r => if (s.ring r).irqHeld then s.ringVector r else s

/-- Every Lock crossing that holds a value (R108, R109). -/
def State.xingsTick (s : State) : State := s.forEach (s.clk.xings.map (·.id)) State.xingTick

/-- The local time counter counts, and Tide advances with it; both stand while the supply is held off (R43, R445, R554). -/
def State.countTick (s : State) : State :=
  let s := { s with now := s.now + 10 }
  if s.sys.held then s else { s with ltc := s.ltc + 10, tide := s.tide.tick }

/-- One tick of 10 ns; the health state follows what the tick and the commands since the last one have left (R583). -/
def tick (s : State) : State :=
  let s := s.countTick
  if s.sys.held then s else s.xingsTick.netTick.adeidTick.vectorTick.updateHealth

end Sys2Proof.Machine
end

