-- ==== Sys2Proof/Safety.lean ====
section
/-! DEFINITION. What claims about the model speak of: the parts of its state, what an operation leaves untouched, and what no step may undo. -/

namespace Sys2Proof.Machine

open Sys2Proof

/-- The parts of the state beside the queue: time, the drawn free values, the Manifest, the blocks, and the register snapshots. -/
inductive Part where
  | now | ltc | fresh | manifest | sys | clk | tide | acq | prot | diff | form | gate | logic | fio | capt | log | net | ptp | chk | host | adeid | sec | diag | snaps
deriving DecidableEq, Repr

/-- The part that holds a block. -/
abbrev blkPart : Blk → Part
  | .sys => .sys | .clk => .clk | .tide => .tide | .acq => .acq | .prot => .prot | .diff => .diff | .form => .form | .gate => .gate
  | .logic => .logic | .fio => .fio | .capt => .capt | .log => .log | .net => .net | .ptp => .ptp | .chk => .chk | .host => .host
  | .adeid => .adeid | .sec => .sec | .diag => .diag

/-- A part has the same value in both states. -/
def Part.same (a b : State) : Part → Prop
  | .now => b.now = a.now
  | .ltc => b.ltc = a.ltc
  | .fresh => b.fresh = a.fresh
  | .manifest => b.manifest = a.manifest
  | .sys => b.sys = a.sys
  | .clk => b.clk = a.clk
  | .tide => b.tide = a.tide
  | .acq => b.acq = a.acq
  | .prot => b.prot = a.prot
  | .diff => b.diff = a.diff
  | .form => b.form = a.form
  | .gate => b.gate = a.gate
  | .logic => b.logic = a.logic
  | .fio => b.fio = a.fio
  | .capt => b.capt = a.capt
  | .log => b.log = a.log
  | .net => b.net = a.net
  | .ptp => b.ptp = a.ptp
  | .chk => b.chk = a.chk
  | .host => b.host = a.host
  | .adeid => b.adeid = a.adeid
  | .sec => b.sec = a.sec
  | .diag => b.diag = a.diag
  | .snaps => b.snaps = a.snaps

/-- Beside the parts listed, nothing differs between two states: the frame of an operation. The queue is never an operation's. -/
structure OnlyTouches (l : List Part) (a b : State) : Prop where
  parts : ∀ p, p ∉ l → p.same a b
  queue : b.pending = a.pending

/-- How the item in berth `b` has ended, when it has (R486). -/
def State.endingOf (s : State) (b : Nat) : Option Ending := (s.item b).bind (·.ending)

/-- The item in berth `b` has ended DONE with the result `r`, and CTL has gone on to the next item (R486, R488). -/
structure DoneOn (b : Nat) (r : BitVec 64) (t : State) : Prop where
  ending : t.endingOf b = some { status := .done, result := r }
  left : b ∉ t.host.qCtl

/-- The command of berth `b` has left CTL and waits, as `c`, for the next control-cycle boundary of unit `u`, which was `x` (R261). -/
structure WaitsAtUnit (b u : Nat) (x : FormUnit) (c : UnitCmd) (s t : State) : Prop where
  waits : t.fu? u = some { x with pending := x.pending ++ [(c, .berth b)] }
  open_ : t.endingOf b = none
  left : b ∉ t.host.qCtl
  frame : OnlyTouches [.form, .host] s t

/-- The items refused at admission or later end so: STATE_REFUSED, with the block's status as RESULT (R489). -/
def RefusedOn (b : Nat) (status : Word) (t : State) : Prop :=
  t.endingOf b = some { status := .refused, reason := some .stateRefused, result := status.zeroExtend 64 }

/-- The switches of an output stand where the first applicable row of R321 puts them. -/
def State.Governed (s : State) (n : Nat) : Prop := (s.fioCh n).driven = (s.fioGroup (groupOf n)).drives (s.fioCh n)

/-- Antifuses only blow: a root stays, the floor does not fall, no count comes back (R526, R537, R545). -/
structure SecKept (a b : SecState) : Prop where
  root : a.root.isSome → b.root = a.root
  floor : a.floor ≤ b.floor
  rollback : b.tallyRollback ≤ a.tallyRollback
  epoch : b.tallyEpoch ≤ a.tallyEpoch
  keys : ∀ k, nth b.tallyKey k 0 ≤ nth a.tallyKey k 0

/-- The shape of the state: 128 berths (R487), 256 Tide marks (R69). -/
structure Shape (s : State) : Prop where
  berths : s.host.berths.length = 128
  marks : s.tide.marks.length = 256

end Sys2Proof.Machine
end

