-- ==== Sys2Proof/WellFormed.lean ====
section
/-! DEFINITION. Well-formed commands: every index lies in the range that the manual gives for it. -/

namespace Sys2Proof

open Sys2Proof.Machine

/-! ### Index ranges -/

/-- Berths B000 to B127 (R487). -/
def isBerth (b : Nat) : Bool := decide (b < 128)
/-- Forming units FU0 to FU3 and bridges BR0 to BR7 (R237). -/
def isUnit (u : Nat) : Bool := decide (u < 4)
def isBridge (b : Nat) : Bool := decide (b < 8)
/-- Field groups FG0 to FG11 and field channels FCH000 to FCH191 (R4). -/
def isFieldGroup (g : Nat) : Bool := decide (g < 12)
def isField (n : Nat) : Bool := decide (n < 192)
/-- Local channels AIN00 to AIN23 with 192 coefficients in a bank (R121, R132). -/
def isAin (c : Nat) : Bool := decide (c < 24)
def isCoef (k : Nat) : Bool := decide (k < 192)
/-- Protection elements, at most 4,096, and zones, at most 64 (R35). -/
def isElement (e : Nat) : Bool := decide (e < 4096)
def isZone (z : Nat) : Bool := decide (z < 64)
/-- Tasks T0 to T7 and their groups, stations, event sources of a task (R338, R352, R344). -/
def isTask (t : Nat) : Bool := decide (t < 8)
def isTaskGroup (m : Nat) : Bool := decide (m < 8)
def isStation (n : Nat) : Bool := decide (n < 36)
def isEventSource (n : Nat) : Bool := decide (n < 16)
/-- Capture engines and their conditions (R36, R382). -/
def isEngine (e : Nat) : Bool := decide (e < 4)
def isCondition (n : Nat) : Bool := decide (n < 64)
/-- Hatches (R413). -/
def isHatch (h : Nat) : Bool := decide (h < 4)
/-- Ports P00 to P39, X0 to X3 and HP; port pairs; subscriptions and publishers (R36, R427, R437). -/
def isPort (p : Nat) : Bool := decide (p < 45)
def isPair (k : Nat) : Bool := decide (k < 8)
def isGooseSub (n : Nat) : Bool := decide (n < 512)
def isSvSub (n : Nat) : Bool := decide (n < 128)
def isPub (q : Nat) : Bool := decide (q < 64)
/-- Host engines of CHK (R473), rings (R483), proposals (R540), memories with ECC (R576), MRAM lines (R577). -/
def isChkEngine (n : Nat) : Bool := decide (n < 8)
def isRing (r : Nat) : Bool := decide (r < 16)
def isProposal (p : Nat) : Bool := decide (p < 4)
def isMemory (m : Nat) : Bool := decide (m < 8)
def isMramLine (n : Nat) : Bool := decide (n < 2 ^ 21)
def isEvcntSlot (n : Nat) : Bool := decide (n < 1024)
/-- Clock domains (R92), POW channels (R74), links Q0 to Q3, nodes and doors (R495, R506). -/
def isDomain (d : Nat) : Bool := decide (d < 8)
def isWriter : Writer → Bool
  | .host => true
  | .inner d => isDomain d
def isPow (p : Nat) : Bool := decide (p < 8)
def isLink (q : Nat) : Bool := decide (q < 4)
def isNode (n : Nat) : Bool := decide (n < 64)
def isDoor (d : Nat) : Bool := decide (d < 6)
/-- Offsets within BAR0, BAR2 and BAR4 (R480). -/
def inBar0 (o : Nat) : Bool := decide (o < 4 * 2 ^ 20)
def inBar2 (o : Nat) : Bool := decide (o < 8 * 2 ^ 30)
def inBar4 (o : Nat) : Bool := decide (o < 256 * 2 ^ 20)

/-- A command's indices lie in their ranges. -/
def Instr.wf : Instr → Bool
  | .supplyLevelChange _ _ => true
  | .supplyValid => true
  | .supplySingle => true
  | .startupStage _ => true
  | .lastwordsEntry => true
  | .lastwordsEnd => true
  | .rstNReset _ => true
  | .systemWatchdogExpiry => true
  | .hotReset => true
  | .perstReset => true
  | .xrefLoss => true
  | .xrefReturn => true
  | .refQualified _ => true
  | .tcxoLoss => true
  | .spllLocked _ => true
  | .spllQualified _ => true
  | .spllLossOfLock _ => true
  | .spllRetry _ => true
  | .clkGuard d => isDomain d
  | .clkRetune b => isBerth b
  | .retuneTimeout => true
  | .clkLoopReset b => isBerth b
  | .measStrobe _ => true
  | .mpllLol => true
  | .mpllRequalified => true
  | .degradedEnd => true
  | .dramRetrainDone => true
  | .partnerReset x src d token _ => decide (x < 65536) && isDomain src && isDomain d && decide (token < 4)
  | .domainStopped d => isDomain d
  | .stoppedDomainAccess offset _ => inBar0 offset
  | .tideRateRecompute => true
  | .handoverStart => true
  | .tideCycleCarry => true
  | .tideFallback => true
  | .pilotUpdate _ => true
  | .tidePin b => isBerth b
  | .tideUnpin b => isBerth b
  | .tideMarkArm b => isBerth b
  | .tideMarkFire => true
  | .powCloseRequest b => isBerth b
  | .powTouch pw _ => isPow pw
  | .powNoTouch pw => isPow pw
  | .tideConvGo _ => true
  | .tideConvDone => true
  | .fastLanePeriod _ => true
  | .phasorLanePeriod _ => true
  | .acqIntegHoldEnd c => isAin c
  | .acqCoefWrite c _ k _ => isAin c && isCoef k
  | .acqBankWrite c _ => isAin c
  | .acqSwap b => isBerth b
  | .acqSwapStart c => isAin c
  | .acqFadeDone c => isAin c
  | .acqSettleEnd c => isAin c
  | .laneDisagreeEpisodeEnd e => isElement e
  | .protKatDone _ => true
  | .protKatPeriodic => true
  | .sgSelect b => isBerth b
  | .sgDeferExpiry => true
  | .diffLaunch z => isZone z
  | .sumFrameRx x => (match x.ring with | .hsr k => isPair k && decide (x.port < 2) | .adeid => isLink x.port)
  | .diffDeadline z => isZone z
  | .formControlCycle u => isUnit u
  | .formCompute u => isUnit u
  | .formLockstep u => isUnit u
  | .formLockstepTestDone u _ => isUnit u
  | .frtEnd u => isUnit u
  | .frtEnvelope u => isUnit u
  | .formReady u => isUnit u
  | .formStart b => isBerth b
  | .formBlackStart b => isBerth b
  | .formConnectDone u => isUnit u
  | .formEnergiseTimeout u => isUnit u
  | .formResync b => isBerth b
  | .formResyncCancel b => isBerth b
  | .formResyncTimeout u => isUnit u
  | .formStop b => isBerth b
  | .formStopped u => isUnit u
  | .formBlock b => isBerth b
  | .formReset b => isBerth b
  | .formSetpoint b => isBerth b
  | .formStage b => isBerth b
  | .formStepApply u => isUnit u
  | .formAutostart u => isUnit u
  | .bridgeRestore b => isBerth b
  | .formCircTrip u => isUnit u
  | .formHoldTimeout u => isUnit u
  | .gateUplinkRx x => isBridge x.br
  | .gateRepeat br => isBridge br
  | .gateBlockIdleSend br => isBridge br
  | .gateLinkDown br => isBridge br
  | .gateLinkUp br => isBridge br
  | .gateClear b => isBerth b
  | .fioCouplerFrame x => isFieldGroup x.g
  | .fioGroupLost g => isFieldGroup g
  | .fioHandshake g _ => isFieldGroup g
  | .fioInputEdge ch _ _ _ => isField ch
  | .fioTimeSync g => isFieldGroup g
  | .fioSyncLost g => isFieldGroup g
  | .fioOutputCommand ch => isField ch
  | .fioSet b => isBerth b
  | .fioOverload ch _ => isField ch
  | .fioOvlRetry ch => isField ch
  | .fioClear b => isBerth b
  | .fioOvertemp ch _ => isField ch
  | .fioWatchdog g => isFieldGroup g
  | .fioSchedEdge g _ => isFieldGroup g
  | .fioDarkPulse x => isField x.ch
  | .fioBackfeedProbe x => isField x.ch
  | .fioOpenWire ch => isField ch
  | .fioIndeterminate ch => isField ch
  | .fioSupply g _ => isFieldGroup g
  | .fioResume b => isBerth b
  | .logicTaskRelease t => isTask t
  | .logicEventSource t src => isTask t && isEventSource src
  | .logicOutputWrite x => isTask x.task
  | .logicCommitDone m => isTaskGroup m
  | .logicHalt _ => true
  | .logicStart b => isBerth b
  | .logicStop b => isBerth b
  | .logicRead b => isBerth b
  | .logicWrite b => isBerth b
  | .logicEvent b => isBerth b
  | .logicStage b => isBerth b
  | .logicExchange m => isTaskGroup m
  | .logicExchFail m => isTaskGroup m
  | .rioInSend slot => isStation slot
  | .rioPayloadRx src _ => isNode src
  | .logicStationDrop slot => isStation slot
  | .logicStationSafe slot => isStation slot
  | .captArm b => isBerth b
  | .captDisarm b => isBerth b
  | .captManualTrigger b => isBerth b
  | .captSet b => isBerth b
  | .captLock b => isBerth b
  | .captUnlock b => isBerth b
  | .captLockLapsed e => isEngine e
  | .captConditionMet e cond => isEngine e && isCondition cond
  | .captWindowEnd e => isEngine e
  | .captDone e => isEngine e
  | .bar2Read offset _ => inBar2 offset
  | .bar2Write offset => inBar2 offset
  | .logIntake => true
  | .logCommitDone _ => true
  | .logTailUpdate => true
  | .logTailFold => true
  | .logHCursorWrite h _ => isHatch h
  | .logHStatRead h => isHatch h
  | .logCheckFailWindowEnd => true
  | .logStageRead => true
  | .netLink p _ _ => isPort p
  | .netFrameRx x => isPort x.port
  | .netMacAge => true
  | .netGclEntry p => isPort p
  | .netPortAdmin b => isBerth b
  | .hsrSupervisionSend k => isPair k
  | .netRingOpen k => isPair k
  | .hsrDupExpiry k => isPair k
  | .hsrNodeExpiry k => isPair k
  | .ptpSyncRx x => isPort x.port
  | .ptpSlewDone => true
  | .ptpLockChange => true
  | .ptpFollowupLost => true
  | .ptpPdelay x => (match x with | .send p => isPort p | .request p => isPort p | .done p _ _ _ => isPort p)
  | .ptpSend p => isPort p
  | .holdoverStart => true
  | .ptpFree => true
  | .gooseFrameRx _ => true
  | .gooseTalExpired n => isGooseSub n
  | .goosePublishChange q => isPub q
  | .gooseRetransmit q => isPub q
  | .svFrameRx _ => true
  | .netSvLost n => isSvSub n
  | .healthGoosePublish => true
  | .chkEGo n _ => isChkEngine n
  | .chkEDone x => isChkEngine x.n
  | .chkKat _ => true
  | .hostSqDb r _ => isRing r
  | .hostEntryArrival r _ => isRing r
  | .berthBulkDone b => isBerth b
  | .berthSigDone b _ => isBerth b
  | .hostCompletionWrite b => isBerth b
  | .hostCqDb r _ => isRing r
  | .hostRingCtrlWrite r _ => isRing r
  | .hostFrDb _ => true
  | .hostLinkDown => true
  | .hostForwardNoAnswer _ => true
  | .bar4Access x => inBar4 x.offset
  | .regRequestRx x => isNode x.src && inBar0 x.offset
  | .regAnswerRx _ _ => true
  | .regTimeout _ => true
  | .adeidFrameRx x => isLink x.q
  | .adeidLinkFrameSend q => isLink q
  | .adeidLink x => isLink x.q
  | .topoHeartbeat => true
  | .adeidHeartbeatLoss n _ => isNode n
  | .doorHoldRenew => true
  | .doorHoldLapse => true
  | .doorOpenScheduled d => isDoor d
  | .doorClose b => isBerth b
  | .doorOpen b => isBerth b
  | .provisionRoot b => isBerth b
  | .keyInstall b => isBerth b
  | .manifestLoad b => isBerth b
  | .manifestVerifyDone _ => true
  | .manifestActivate b => isBerth b
  | .manifestActivateEffect => true
  | .manifestPromote b _ => isBerth b
  | .propose b => isBerth b
  | .confirm b => isBerth b
  | .proposeWithdraw b => isBerth b
  | .proposalWindowLapse p => isProposal p
  | .diagSelftestPeriodic _ _ _ => true
  | .diagEccError x => isMemory x.m
  | .mramRefreshLine line _ => isMramLine line
  | .mramRefreshStart => true
  | .diagTempRead _ => true
  | .diagAgeMeasure _ => true
  | .ledgerCommit => true
  | .diagBundle b => isBerth b
  | .snapshotLowWordRead _ offset => inBar0 offset
  | .evcntWord0Read _ slot => isEvcntSlot slot
  | .hostBerthUseRead => true
  | .w1cWrite offset _ => inBar0 offset
  | .bar0BadWrite => true
  | .uninstAccess _ => true
  | .registerWrite offset _ who => inBar0 offset && isWriter who
  | .tcxoQualified => true
  | .xrefQualified _ => true
  | .hostLinkUp => true
  | .adeidReqIdExpiry => true
  | .domainClockReturn d => isDomain d

end Sys2Proof
end

