-- ==== Sys2Proof/Certificates/Slice0/Obligations.lean ====
section
/-! DEFINITION. The statements about the model that the provers settle: what the commands of each family do, what they leave alone, what every step
keeps. Each holds for every state and operand that meets its hypotheses. -/

open Sys2Proof Sys2Proof.Machine

/-- R553 and R554: the 10 µs mean of an input puts it in its level; OK is left at once and reached from LOW or ABSENT only after 10 ms. When both
inputs are OK again, SINGLE clears, and SUPPLY_DUAL is set and logged. The other input is untouched. R554, R555, R566, R581: with an input OK for
10 ms, the supply is valid, T0 is now, the local time counter starts from 0, and the power cycle is counted. R554: when one input leaves OK while
the other stays OK for 10 ms, SINGLE is set and logged with both voltages. -/
def Obligations.SuppliesFollowTheirInputs : Prop :=
  (∀ (x : Supply) (mv : Nat) (n : Ns), (x.measure mv n).mv = mv ∧
    (mv < 9000 → (x.measure mv n).level = .absent) ∧ (9000 ≤ mv → mv < 16800 → (x.measure mv n).level = .low) ∧
    (32000 < mv → (x.measure mv n).level = .over) ∧
    (16800 ≤ mv → mv ≤ 32000 → x.level = .ok ∨ x.level = .over → (x.measure mv n).level = .ok) ∧
    (∀ u, 16800 ≤ mv → mv ≤ 32000 → x.level = .low ∨ x.level = .absent → x.okSince = some u →
      (u + msec 10 ≤ n → (x.measure mv n).level = .ok) ∧ (n < u + msec 10 → (x.measure mv n).level = x.level))) ∧
  (∀ (s : State) (vlb : Bool) (mv : Nat), ∃ t, exec (.supplyLevelChange vlb mv) s = .next t ∧
    t.sys.supply vlb = (s.sys.supply vlb).measure mv s.now ∧ t.sys.supply (!vlb) = s.sys.supply (!vlb) ∧
    (s.sys.single → t.sys.dual →
      t.sys.single = false ∧ (∃ e : W1C, t.sys.event = e.raise 1) ∧ ∃ l e, t.log.reported = l ++ [e] ∧ e.name = .supplyDual) ∧
    OnlyTouches [.sys, .log, .diag] s t) ∧
  (∀ (s : State) (u : Ns), s.sys.held → s.sys.vla.okSince = some u → u + msec 10 ≤ s.now → 16800 ≤ s.sys.vla.mv →
    ∃ t, exec .supplyValid s = .next t ∧ t.ltc = 0 ∧
      t.sys = { s.sys with vla := s.sys.vla.settle s.now, vlb := s.sys.vlb.settle s.now, supplyValid := true, held := false, t0 := s.now } ∧
      t.diag = { s.diag with ledger := { s.diag.ledger with pwrcyc := satInc 32 s.diag.ledger.pwrcyc } } ∧ OnlyTouches [.ltc, .fresh, .sys, .clk, .diag] s t) ∧
  ∀ (s : State) (u : Ns), s.sys.single = false → s.sys.onlyOne → s.sys.singleSince = some u → u + msec 10 ≤ s.now →
    ∃ t, exec .supplySingle s = .next t ∧
      t.sys = { s.sys with single := true, event := s.sys.event.raise 0 } ∧
      t.log = (s.report .supplySingle 0xFFFF [s.sys.vla.mv, s.sys.vlb.mv]).log ∧
      t.diag = { s.diag with ledger := { s.diag.ledger with singles := s.diag.ledger.singles + 1 } } ∧ OnlyTouches [.sys, .log, .diag] s t

/-- R556: a stage never begins before its time, counted from T0 with the delay of the earlier stages; the stage OPEN admits commands (R494), and the
stages FIELD and TRAIN are shown with their times. R562: last-words is entered when both inputs lie below 16.0 V: LASTWORDS is set, the logbook's
intake closes, every door closes, the domains FABRIC, PCIE, DSP, MEAS, DRAM and the SerDes are shed, protection stops, and ALERT_N goes low
(R584). R563: it runs to its end; then power-on reset is held, the local time counter stands at 0, and antifuses and the written slots stay
(R566). -/
def Obligations.StagesAndLastWordsRunTheirCourse : Prop :=
  (List.range 12).map stageDue = [0, 25, 30, 70, 100, 100, 150, 250, 300, 400, 500, 600].map msec ∧
  (∀ (s : State) (x : BootIn), s.passed s.sys.t0 (stageDue (s.sys.stage + 1) + s.sys.delay) = false → exec (.startupStage x) s = .next s) ∧
  (∀ (s : State) (x : BootIn), s.sys.held = false → s.sys.lastwords = false → s.sys.stage = 10 → s.passed s.sys.t0 (stageDue 11 + s.sys.delay) →
    ∃ t, exec (.startupStage x) s = .next t ∧ t.sys.stage = 11 ∧ t.host = { s.host with ready := true } ∧
      t.adeid = { s.adeid with ready := true } ∧ OnlyTouches [.sys, .host, .adeid] s t) ∧
  (∀ (s : State) (x : BootIn) (n : Nat), s.sys.held = false → s.sys.lastwords = false → s.sys.stage = n → (n = 4 ∨ n = 5) →
    s.passed s.sys.t0 (stageDue (n + 1) + s.sys.delay) →
    ∃ t, exec (.startupStage x) s = .next t ∧ t.sys.stage = n + 1 ∧ OnlyTouches [.sys] s t) ∧
  (∀ s : State, s.sys.held = false → s.sys.lastwords = false → s.sys.vla.mv < 16000 → s.sys.vlb.mv < 16000 →
    ∃ t, exec .lastwordsEntry s = .next t ∧ t.sys.lastwords = true ∧ t.sys.lastwordsAt = s.now ∧ t.log.lastwords = true ∧
      t.acq.running = false ∧ t.diag.alertLow = true ∧ t.diag.stored = t.diag.ledger ∧
      t.clk.stopped = s.clk.stopped.zipIdx.map (fun x => x.1 || [1, 2, 3, 4, 5, 7].contains x.2) ∧
      (∀ d < 6, (t.door d).open_ = false) ∧ t.sec = s.sec) ∧
  ∀ s : State, s.sys.lastwords = true →
    ∃ t, exec .lastwordsEnd s = .next t ∧ t.sys.held = true ∧ t.sys.supplyValid = false ∧ t.sys.lastwords = false ∧ t.sys.stage = 0 ∧
      t.sys.cause = .lastwordsEnd ∧ t.ltc = 0 ∧ t.now = s.now ∧
      t.sec = { ({} : SecState) with
        root := s.sec.root, keys := s.sec.keys, slotA := s.sec.slotA, slotB := s.sec.slotB, floor := s.sec.floor, devices := s.sec.devices
        deviceLost := s.sec.deviceLost, tallyKey := s.sec.tallyKey, tallyRollback := s.sec.tallyRollback, tallyEpoch := s.sec.tallyEpoch } ∧
      t.log.bankA = s.log.bankA ∧ t.log.bankB = s.log.bankB ∧ t.log.next = s.log.next

/-- R565, R566, R568: RST_N held low for 1 ms and the system watchdog start the timeline anew with their cause, and neither changes an antifuse, a
Manifest slot, the logbook's records or the local time counter; RST_N resets HOST, the watchdog keeps the link and its rings; 2 s on RST_N force
LOGIC to COLD. R482, R566: a PCI Express reset resets HOST alone: every ring is disabled and the HOST registers return to their reset values;
berths in flight run on. A link that goes down disables the rings; it is up again when it comes up. A host resets only the HOST block. -/
def Obligations.ResetsKeepWhatSurvives : Prop :=
  (∀ (s : State) (d : Ns), s.sys.held = false → s.sys.lastwords = false → msec 1 ≤ d →
    ∃ t, exec (.rstNReset d) s = .next t ∧ t.sys.cause = .rstN ∧ t.sys.t0 = s.now ∧ t.sys.stage = 0 ∧ t.sys.longRst = decide (secs 2 ≤ d) ∧
      t.sys.held = false ∧ t.host = {} ∧ t.sec.root = s.sec.root ∧ t.sec.floor = s.sec.floor ∧ t.sec.slotA = s.sec.slotA ∧
      t.sec.slotB = s.sec.slotB ∧ t.log.bankA = s.log.bankA ∧ t.log.bankB = s.log.bankB ∧ t.ptp.timeKnown = s.ptp.timeKnown ∧
      t.clk.connected = false ∧ t.clk.degraded = false ∧ t.prot.ready = false ∧ t.ltc = s.ltc ∧ t.now = s.now) ∧
  (∀ s : State, s.sys.held = false → s.sys.lastwords = false →
    ∃ t, exec .systemWatchdogExpiry s = .next t ∧ t.sys.cause = .watchdog ∧ t.sys.t0 = s.now ∧ t.sys.stage = 0 ∧
      t.host.linkUp = s.host.linkUp ∧ t.host.rings = s.host.rings ∧ t.host.berths = List.replicate 128 none ∧ t.sec.root = s.sec.root ∧
      t.sec.slotA = s.sec.slotA ∧ t.sec.slotB = s.sec.slotB ∧ t.log.bankA = s.log.bankA ∧ t.ltc = s.ltc ∧ t.now = s.now ∧
      s.now ∈ t.sys.wdStarts) ∧
  (∀ (s : State) (c : Instr), c = .hotReset ∨ c = .perstReset →
    ∃ t, exec c s = .next t ∧ t.host.rings = ({} : HostState).rings.map CmdRing.off ∧ t.host.linkUp = false ∧ t.host.berths = s.host.berths ∧
      t.host.qCtl = s.host.qCtl ∧ t.host.irqMask = ({} : HostState).irqMask ∧ t.host.msix = ({} : HostState).msix ∧
      t.log = (s.report .hostLinkDown).log ∧ OnlyTouches [.host, .log] s t) ∧
  (∀ s : State, s.host.linkUp = true →
    ∃ t, exec .hostLinkDown s = .next t ∧ t.host.linkUp = false ∧ t.host.rings = s.host.rings.map CmdRing.off ∧
      t.host.berths = s.host.berths ∧ t.log = (s.report .hostLinkDown).log ∧ OnlyTouches [.host, .log] s t) ∧
  ∀ s : State, s.sys.held = false →
    ∃ t, exec .hostLinkUp s = .next t ∧ t.host = { s.host with linkUp := true } ∧ OnlyTouches [.host] s t

/-- R86 to R89: the loss of the active reference switches to the other one while it is qualified, and the loss is flagged and logged with the offset
last measured; a measurement within the limit is no loss, and the loss of the idle reference changes only its qualification. XREF qualifies within
20 ppm, and the device returns to it after XREF_RETURN_HOLD, not during start-up; of two that qualify at once while none was left, XREF is taken
when it is used. The measured reference frequency is a free value within its limits. R93, R101 to R103: the clock guard counts and logs, and does
not touch a loop that the domain does not hang on; the MPLL's loss moves MEAS to the divider of the active loop, and its return brings MEAS back;
a strobe error beyond 20 ns restarts the divider once before PROT is ready. -/
def Obligations.ReferencesAreTakenAndMeasFollows : Prop :=
  (∀ s : State, s.clk.xrefOk → s.clk.ref = .xref → s.clk.tcxoOk →
    ∃ t f, exec .xrefLoss s = .next t ∧
    t.clk = { s.clk with
      xrefOk := false, xrefSince := none, ref := .tcxo, refFreq := f
      refSince := if s.clk.refSince.isSome then s.clk.refSince else some s.now, event := s.clk.event.raise 4 } ∧
    t.log = (s.report .refSwitch 0xFFFF [1, 0, roundInt (s.clk.refPpm * 1000)]).log ∧ OnlyTouches [.fresh, .clk, .log] s t) ∧
  (∀ (s : State) (p : Sys2Proof.Num), s.clkCfg.xrefUsed → s.clk.refNone = false → s.clk.xrefOk → s.clk.ref = .xref → s.clk.tcxoOk → 20 < p.mag →
    ∃ t f, exec (.xrefQualified p) s = .next t ∧
    t.clk = { s.clk with
      xrefOk := false, xrefSince := none, ref := .tcxo, refPpm := p, refFreq := f
      refSince := if s.clk.refSince.isSome then s.clk.refSince else some s.now, event := s.clk.event.raise 4 } ∧
    t.log = (s.report .refSwitch 0xFFFF [1, 0, roundInt (p * 1000)]).log ∧ OnlyTouches [.fresh, .clk, .log] s t) ∧
  (∀ (s : State) (x : Sys2Proof.Num), s.clkCfg.xrefUsed → s.clk.refNone = false → s.clk.xrefOk → s.clk.tcxoOk → x.mag ≤ 20 →
    ∃ t, exec (.xrefQualified x) s = .next t ∧ t.clk = { s.clk with refPpm := x } ∧ OnlyTouches [.clk] s t) ∧
  (∀ s : State, s.clk.tcxoOk → s.clk.ref = .xref → ∃ t, exec .tcxoLoss s = .next t ∧
    t.clk = { s.clk with tcxoOk := false, event := s.clk.event.raise 5 } ∧ t.log = (s.report .refLoss 0xFFFF [0]).log ∧ OnlyTouches [.clk, .log] s t) ∧
  (∀ s : State, s.clk.ref = .tcxo → s.clkCfg.xrefUsed → s.clk.xrefOk → s.clk.refNone = false → 4 ≤ s.sys.stage →
    s.passedSince s.clk.xrefSince s.clkCfg.xrefReturnHold → ∃ t f, exec .xrefReturn s = .next t ∧
    t.clk = { s.clk with
      ref := .xref, refFreq := f, refSince := if s.clk.refSince.isSome then s.clk.refSince else some s.now, event := s.clk.event.raise 4 } ∧
    t.log = (s.report .refSwitch 0xFFFF [0, 1, roundInt (s.clk.refPpm * 1000)]).log ∧ OnlyTouches [.fresh, .clk, .log] s t) ∧
  (∀ (s : State) (ppm : Sys2Proof.Num), s.clkCfg.xrefUsed → s.clk.xrefOk = false → s.clk.refNone = false → ppm.mag ≤ 20 →
    ∃ t, exec (.xrefQualified ppm) s = .next t ∧
    t.clk = { s.clk with xrefOk := true, xrefSince := some s.now, refPpm := if s.clk.tcxoOk then ppm else s.clk.refPpm } ∧ OnlyTouches [.clk] s t) ∧
  (∀ s : State, s.clk.tcxoOk = false → s.clk.refNone = false → s.sys.held = false → s.passed s.sys.t0 (msec 21) →
    s.clk.spll0.waitRef = false → ∃ t f, exec .tcxoQualified s = .next t ∧
    t.clk = { s.clk with
      tcxoOk := true, refSince := if s.clk.refSince.isSome then s.clk.refSince else some s.now, refFreq := f } ∧ OnlyTouches [.fresh, .clk] s t) ∧
  (∀ (s : State) (q : RefSeen), s.clk.refNone → q.hasTcxo ∨ q.hasXref ∧ s.clkCfg.xrefUsed → ∃ t, exec (.refQualified q) s = .next t ∧
    t.clk.refNone = false ∧ t.clk.ref = (if q.hasXref ∧ s.clkCfg.xrefUsed then .xref else .tcxo) ∧ t.clk.tcxoOk = (s.clk.tcxoOk || q.hasTcxo) ∧
    t.clk.refSince = some s.now ∧ t.clk.xrefOk = (s.clk.xrefOk || q.hasXref && s.clkCfg.xrefUsed) ∧
    t.clk.event = s.clk.event.raise 4 ∧ OnlyTouches [.fresh, .clk, .log] s t) ∧
  (∀ s : State, s.clk.mpll.phase = .locked → s.clk.degraded = false → ∃ t, exec .mpllLol s = .next t ∧
    t.clk = { s.clk with mpll := s.clk.mpll.unlock s.now, meas := .alt, event := s.clk.event.raise 6 } ∧
    t.log = (s.report .mpllLol).log ∧ OnlyTouches [.clk, .log] s t) ∧
  (∀ s : State, s.clk.mpll.qualified → s.clk.meas = .alt → s.clk.degraded = false →
    ∃ t, exec .mpllRequalified s = .next t ∧ t.clk = { s.clk with meas := .mpll } ∧ OnlyTouches [.clk] s t) ∧
  (∀ (s : State) (f : Sys2Proof.Num), s.prot.ready = false → s.clk.strobeRestarted = false → 20 < s.strobeError.natAbs →
    ∃ t, exec (.measStrobe f) s = .next t ∧ t.clk = { s.clk with strobeRestarted := true, pherr := 0, measSlew := false } ∧ OnlyTouches [.clk, .acq] s t) ∧
  (∀ (s : State) (f : Sys2Proof.Num), s.prot.ready → ∃ t, exec (.measStrobe f) s = .next t ∧ t.clk.pherr = s.strobeError ∧
    (s.clk.measSlew = false → 0 ≤ s.clkCfg.measSteerMax →
      -s.clkCfg.measSteerMax - 1 / 1000000 ≤ t.clk.steer ∧ t.clk.steer ≤ s.clkCfg.measSteerMax + 1 / 1000000) ∧
    (s.clk.measSlew → 20 < s.strobeError.natAbs →
      t.clk.steer = if 0 < s.strobeError then s.clkCfg.measSteerMax else -s.clkCfg.measSteerMax) ∧ OnlyTouches [.clk] s t) ∧
  ∀ (s : State) (d : Nat), d = 5 ∨ d = 7 → ∃ t, exec (.clkGuard d) s = .next t ∧
    t.clk = { s.clk with guardCount := satInc 16 s.clk.guardCount, guardDomain := d, event := s.clk.event.raise 8 } ∧
    t.log = (s.report .clkGuard d).log ∧ OnlyTouches [.clk, .log] s t

/-- R90, R104, R105: when the only reference is lost, no reference remains, DEGRADED starts with the cause REF_LOSS on the backup oscillator, and the
domains leave the loops. R94, R96, R97: SPLL_LOSS_OF_LOCK, by frequency or by a phase error beyond 2 ns, completes: the loop acquires again and
the record holds the error; on the standby loop it leaves the active loop and the domains alone; without a standby DEGRADED starts. R106, R104:
DEGRADED_END and DRAM_RETRAIN_DONE complete: DEGRADED ends when the loop has been QUALIFIED for DEGRADED_RETURN: the domains are on it again, and
Tide, PTP, DIFF and LOGIC leave DEGRADED. When the DRAM has retrained, it stores again. -/
def Obligations.LossesStartAndEndDegraded : Prop :=
  (∀ s : State, s.clk.tcxoOk → s.clk.ref = .tcxo → s.clk.xrefOk = false → s.clk.degraded = false →
    ∃ t, exec .tcxoLoss s = .next t ∧ t.clk.refNone = true ∧ t.clk.tcxoOk = false ∧ t.clk.degraded = true ∧ t.clk.degCause = .refLoss ∧
      t.clk.degSince = s.now ∧ t.clk.connected = false ∧ t.clk.meas = .backup ∧ t.clk.dramRetraining = true) ∧
  (∀ (s : State) (f : Bool) (e : Sys2Proof.Num), s.clk.spll0.phase = .locked → s.clk.connected → s.clk.active1 = false → s.clk.spll1.qualified →
    f ∨ 2 < e.mag → ∃ t, exec (.spllLossOfLock ⟨.spll0, f, e⟩) s = .next t ∧
      t.clk = { s.clk with spll0 := s.clk.spll0.unlock s.now, active1 := true, event := s.clk.event.raise 0 } ∧
      t.log = (s.report .lolActive 0 [0, b2n f, roundInt (e * 1000)]).log ∧ OnlyTouches [.clk, .log] s t) ∧
  (∀ (s : State) (f : Bool) (e : Sys2Proof.Num), s.clk.spll1.phase = .locked → s.clk.connected → s.clk.active1 = false → f ∨ 2 < e.mag →
    ∃ t, exec (.spllLossOfLock ⟨.spll1, f, e⟩) s = .next t ∧
      t.clk = { s.clk with spll1 := s.clk.spll1.unlock s.now, event := s.clk.event.raise 1 } ∧
      t.log = (s.report .lolStby 1 [1, b2n f, roundInt (e * 1000)]).log ∧ OnlyTouches [.clk, .log] s t) ∧
  (∀ (s : State) (f : Bool) (e : Sys2Proof.Num), s.clk.spll0.phase = .locked → s.clk.connected → s.clk.active1 = false →
    s.clk.spll1.qualified = false → s.clk.degraded = false → f ∨ 2 < e.mag →
    ∃ t, exec (.spllLossOfLock ⟨.spll0, f, e⟩) s = .next t ∧ t.clk.degraded = true ∧ t.clk.degCause = .loopFail ∧ t.clk.connected = false ∧
      t.clk.meas = .backup ∧ t.tide.degraded = true ∧ t.diff.passOnly = true ∧ t.ptp.degraded = true) ∧
  (∀ s : State, s.clk.degraded → s.clk.refNone = false → s.clk.degCause = .loopFail → s.clk.active1 = false → s.clk.spll0.qualified →
    s.passedSince s.clk.spll0.qualSince s.clkCfg.degradedReturn →
    ∃ t, exec .degradedEnd s = .next t ∧ t.clk.degraded = false ∧ t.clk.connected = true ∧ t.clk.degCause = .none ∧ t.tide.degraded = false ∧
      t.ptp.degraded = false ∧ t.diff.passOnly = false ∧ t.host.lateEpisode = false ∧ t.sec = s.sec ∧ t.fio = s.fio ∧ t.prot = s.prot) ∧
  ∀ s : State, s.clk.dramRetraining → ∃ t, exec .dramRetrainDone s = .next t ∧ t.clk = { s.clk with dramRetraining := false } ∧
    OnlyTouches [.clk, .capt] s t

/-- R94, R95, R96: SPLL_LOSS_OF_LOCK completes on every locked loop: it acquires again and is QUALIFIED no more; an error within 2 ns is no loss. A
loop that has held phase for 1,024 PFD cycles is LOCKED with a frequency within 0.5 % of its target, and QUALIFIED 10 µs later; 1 ms without lock
is a retry, and the sixteenth failed retry makes it FAILED, logged. -/
def Obligations.LoopsLockQualifyAndRetry : Prop :=
  (∀ (s : State) (l : LoopId) (f : Bool) (e : Sys2Proof.Num), (s.loop l).phase = .locked →
    ∃ t, exec (.spllLossOfLock ⟨l, f, e⟩) s = .next t ∧ t.now = s.now ∧
      (f ∨ 2 < e.mag → (t.loop l).phase = .acquiring ∧ (t.loop l).qualified = false ∧ (t.loop l).acqAt = s.now) ∧
      (f = false → e.mag ≤ 2 → t = s)) ∧
  (∀ (s : State) (l : LoopId), (s.loop l).phase = .acquiring → s.clk.refNone = false → s.passed (s.loop l).acqAt (1024 * (s.loop l).mode.pfdNs) →
    ∃ t f, exec (.spllLocked l) s = .next t ∧
      t.clk = s.clk.setLoop l { s.loop l with phase := .locked, lockAt := s.now, freq := f } ∧
      (l ≠ .mpll → 5970 ≤ f ∧ f ≤ 6030) ∧ OnlyTouches [.fresh, .clk] s t) ∧
  (∀ (s : State) (l : LoopId), (s.loop l).phase = .locked → (s.loop l).qualified = false → s.passed (s.loop l).lockAt 10000 →
    s.clk.connected → s.clk.retune = none → s.clk.moves = [] →
    ∃ t, exec (.spllQualified l) s = .next t ∧
      t.clk = s.clk.setLoop l { s.loop l with
        qualified := true, qualSince := some s.now, retries := 0, lossDeclared := false
        relocks := if (s.loop l).lossDeclared then satInc 16 (s.loop l).relocks else (s.loop l).relocks } ∧
      t.log = (s.report .spllQualified l.num).log ∧ OnlyTouches [.clk, .log] s t) ∧
  (∀ (s : State) (l : LoopId), (s.loop l).phase = .acquiring → s.clk.refNone = false → s.passed (s.loop l).acqAt (msec 1) → (s.loop l).retries < 16 →
    ∃ t, exec (.spllRetry l) s = .next t ∧
      t.clk = s.clk.setLoop l { s.loop l with retries := (s.loop l).retries + 1, acqAt := s.now } ∧
      t.log = (s.report .spllRetry l.num [(s.loop l).retries + 1]).log ∧ OnlyTouches [.clk, .log] s t) ∧
  ∀ (s : State) (l : LoopId), (s.loop l).phase = .acquiring → s.clk.refNone = false → s.passed (s.loop l).acqAt (msec 1) → (s.loop l).retries = 16 →
    s.clk.retune = none → s.clk.connected →
    ∃ t, exec (.spllRetry l) s = .next t ∧ (t.loop l).phase = .failed ∧ t.clk.event = s.clk.event.raise 12 ∧
      t.log = (s.report .loopFailed l.num).log ∧ OnlyTouches [.clk, .log] s t

/-- R98, R99, R94: CLK_RETUNE of an idle standby loop starts its acquisition in the new mode and leaves the active loop alone; its item waits. 18 ms
without QUALIFIED end it FAILED. CLK_LOOP_RESET takes a FAILED loop back to acquiring. R112 to R115: a partner held in reset or with a new token
is flagged, counted and logged, what was pending is discarded, and its toggles align later; an old token changes nothing. DEGRADED_END on the loop
that fed the domains, and DRAM_RETRAIN_DONE, complete (R104, R106). A stopped domain is shown, flagged and logged, and shown no more when its
clock returns; an access to a register of a stopped domain ends with an abort or a dropped write. -/
def Obligations.RetunesAndCrossingsKeepTheirDomains : Prop :=
  (∀ (s : State) (b : Nat) (m : RefMode), s.ctlCmd b = some (.clkRetune .spll1 m) → s.refuseRetune .spll1 = none → s.clk.active1 = false →
    ∃ t, exec (.clkRetune b) s = .next t ∧ t.clk.spll0 = s.clk.spll0 ∧ t.clk.active1 = false ∧
      t.clk.spll1 = { s.clk.spll1 with
        phase := .acquiring, qualified := false, qualSince := none, mode := m, acqAt := s.now, lossDeclared := false } ∧
      t.clk.retune = some { loop := .spll1, oldMode := s.clk.spll1.mode, newMode := m, berth := some b, start := s.now } ∧
      t.endingOf b = none ∧ OnlyTouches [.clk, .log, .host] s t) ∧
  (∀ (s : State) (r : Retune) (b : Nat), s.clk.retune = some r → r.berth = some b → s.passed r.start (msec 18) → s.clk.moves = [] →
    ∃ t, exec .retuneTimeout s = .next t ∧ t.clk = { s.clk with retune := none } ∧ t.host = (s.failed b .execError).host ∧
      OnlyTouches [.clk, .host] s t) ∧
  (∀ (s : State) (b : Nat) (l : LoopId), s.ctlCmd b = some (.clkLoopReset l) → (s.loop l).phase = .failed → s.clk.refNone = false →
    ∃ t, exec (.clkLoopReset b) s = .next t ∧ DoneOn b 0 t ∧
      t.clk = s.clk.setLoop l { s.loop l with phase := .acquiring, waitRef := false, retries := 0, acqAt := s.now, lossDeclared := false } ∧
      OnlyTouches [.clk, .log, .host] s t) ∧
  (∀ (s : State) (x r d k : Nat), let o := s.clk.xing x r d
    x < 65536 → d < 8 → o.partnerReset = false → nth s.clk.inReset d false ∨ k = nth s.clk.tokens d 0 ∧ o.token ≠ k →
    ∃ t, exec (.partnerReset x r d k false) s = .next t ∧
      t.clk = { s.clk with
        xings := { o with partnerReset := true, realign := true, token := nth s.clk.tokens d 0, held := none, shadow := none, captured := false }
          :: s.clk.xings.filter (fun y => y.id != o.id)
        presetCount := satInc 8 s.clk.presetCount, presetId := x, event := s.clk.event.raise 10 } ∧
      t.log = (s.report .partnerReset x [b2n (o.held.isSome && !o.captured) + b2n o.shadow.isSome]).log ∧ OnlyTouches [.clk, .log] s t) ∧
  (∀ (s : State) (x r d k : Nat), let o := s.clk.xing x r d
    x < 65536 → d < 8 → o.partnerReset = false → nth s.clk.inReset d false = false → o.token = k →
    exec (.partnerReset x r d k false) s = .next s) ∧
  (∀ (s : State) (x r d k : Nat), let o := s.clk.xing x r d
    x < 65536 → d < 8 → o.partnerReset → s.clk.isStopped d = false →
    ∃ t, exec (.partnerReset x r d k true) s = .next t ∧
      t.clk = { s.clk with
        xings := { o with partnerReset := false, realign := false, token := nth s.clk.tokens d 0, req := o.ack }
          :: s.clk.xings.filter (fun y => y.id != o.id) } ∧ OnlyTouches [.clk] s t) ∧
  (∀ (s : State) (d : Nat), d < 8 → s.clk.isStopped d = false → ∃ t, exec (.domainStopped d) s = .next t ∧
    t.clk = { s.clk with stopped := s.clk.stopped.set d true, event := s.clk.event.raise 11 } ∧
    t.log = (s.report .domainStopped d).log ∧ OnlyTouches [.clk, .log] s t) ∧
  (∀ (s : State) (d : Nat), s.sys.held = false → s.sys.lastwords = false → d ≠ 7 ∨ s.clk.refNone = false → ∃ t, exec (.domainClockReturn d) s = .next t ∧
    t.clk = { s.clk with stopped := s.clk.stopped.set d false } ∧ OnlyTouches [.clk] s t) ∧
  (∀ (s : State) (o : Nat), o < 4194304 → s.blkStopped (servingBlk o) → ∃ t l, exec (.stoppedDomainAccess o false) s = .next t ∧
    t.host.accesses = .abort :: l ∧ OnlyTouches [.clk, .host] s t) ∧
  (∀ (s : State) (o : Nat), o < 4194304 → s.blkStopped (servingBlk o) → ∃ t l, exec (.stoppedDomainAccess o true) s = .next t ∧
    t.host.accesses = .written :: l ∧ OnlyTouches [.clk, .host] s t) ∧
  (∀ s : State, s.returnLoop = some s.activeLoop →
    ∃ t, exec .degradedEnd s = .next t ∧ t.clk.degraded = false ∧ t.clk.connected = true ∧ t.clk.dramRetraining = true ∧ t.now = s.now) ∧
  (∀ s : State, s.clk.dramRetraining → ∃ t, exec .dramRetrainDone s = .next t ∧ t.clk.dramRetraining = false ∧ t.clk.event = s.clk.event) ∧
  ∀ (s : State) (o : Nat) (w : Bool), 4194304 ≤ o → exec (.stoppedDomainAccess o w) s = .fault .outsideBar0

/-- R43, R44: with no command waiting, 10 ns pass: the local time counter counts 10 ns, and the rate word is added to the position, whose angle
carries into the cycle count. While power-on reset is held the counter stands (R554). That an empty queue stands for a tick is the model's choice
(log entry 2). R45 to R47, R67: a recomputation, once per fast-lane grid point or control cycle of the bound unit, leaves the rate word of a
frequency within 40 Hz to 70 Hz (a coasting Tide may keep its own), enters it in the history, and moves the position only by initial alignment,
which comes once and before PROT is ready. R50, R52, R53: an update, once per released instant of the Pilot's lane, enters the Pilot's estimates;
a jump that the Pilot sees is taken into its angle and leaves its estimates of frequency and ROCOF; an input invalid at that instant makes a
tracking Pilot LOST, flagged, with its reason. -/
def Obligations.TideAdvancesWithinItsLimits : Prop :=
  (∀ s : State, s.pending = [] → s.sys.held = false → ∃ t, step s = .next t ∧ t.now = s.now + 10 ∧ t.ltc = s.ltc + 10 ∧
    (s.clk.xings.all (·.held.isNone) → t.tide = { s.tide with posQ := t.tide.posQ }) ∧ t.tide.posQ.toNat = (s.tide.posQ.toNat + s.tide.rate.toNat) % 2 ^ 112 ∧
    t.tide.cycle = (s.tide.cycle + (s.tide.posQ.toNat % 2 ^ 64 + s.tide.rate.toNat) / 2 ^ 64) % 2 ^ 48 ∧ t.pending = []) ∧
  (∀ s : State, s.pending = [] → s.sys.held → step s = .next { s with now := s.now + 10 }) ∧
  (∀ s : State, s.tide.rateAt = some s.rateMark → exec .tideRateRecompute s = .next s) ∧
  (∀ s : State, s.tide.rateAt ≠ some s.rateMark → ∃ t, exec .tideRateRecompute s = .next t ∧
    ((t.tide.phase = .coasting ∧ t.tide.rate = s.tide.rate) ∨ ∃ f : Sys2Proof.Num, 40 ≤ f ∧ f ≤ 70 ∧ t.tide.rate = rateWord f) ∧
    (s.tide.aligned ∨ s.prot.ready → t.tide.posQ = s.tide.posQ) ∧
    (∃ h l, t.tide.hist = h :: l ∧ h = { tick := s.now / 10, rate := t.tide.rate, posQ := t.tide.posQ, time := s.ltc }) ∧
    OnlyTouches [.fresh, .tide, .form, .fio, .log, .diag] s t) ∧
  (∀ (s : State) (x : PilotIn), s.pilotDue = false → exec (.pilotUpdate x) s = .next s) ∧
  (∀ (s : State) (x : PilotIn), s.pilotDue → ∃ t, exec (.pilotUpdate x) s = .next t ∧
    t.tide.pilot.mag = x.mag ∧ t.tide.pilot.perr = x.perr ∧ t.tide.pilot.at_ = s.now ∧ t.tide.pilot.sampled = s.pilotInstant ∧
    (pilotJump s.tideCfg s.tide.pilot x = none →
      t.tide.pilot.angle = x.angle ∧ t.tide.pilot.freq = x.freq ∧ t.tide.pilot.rocof = x.rocof) ∧
    (∀ j, pilotJump s.tideCfg s.tide.pilot x = some j → t.tide.pilot.angle = x.angle + BitVec.ofInt 32 (roundInt (degAu j)) ∧
      t.tide.pilot.freq = s.tide.pilot.freq ∧ t.tide.pilot.rocof = s.tide.pilot.rocof ∧ t.tide.pilot.lastJump = j) ∧
    OnlyTouches [.fresh, .tide, .form, .log] s t) ∧
  ∀ (s : State) (x : PilotIn), s.pilotDue → s.tide.pilot.phase = .tracking → s.pilotValid = false → s.tideCfg.pilotLossLevel ≤ x.mag → 40 ≤ x.freq → x.freq ≤ 70 →
    x.jump = none → ∃ t, exec (.pilotUpdate x) s = .next t ∧ t.tide.pilot.phase = .lost ∧ t.tide.pilot.lostReason = .input ∧
      t.tide.event.bits.getLsbD 6 = true

/-- R55, R58, R60 to R64, R46: a higher source that has held for RETURN_HOLD takes over without a step, df restarting at zero; coasting counts its
cycles; at zero Tide falls back to the highest eligible source, ALIGNED at once on FREERUN. R58, R61: TIDE_PIN of an eligible source of
TIDE_PRIORITY makes Tide converge to it, and ends coasting; in INIT it sets the pin alone (the model's reading, log entry 58). TIDE_UNPIN removes
the pin and nothing else. -/
def Obligations.SourcesHandOverWithoutAStep : Prop :=
  (∀ (s : State) (y : TideSrc), s.tide.phase = .aligned ∨ s.tide.phase = .converging → s.tide.pin = none →
    s.highest (fun y => decide (s.rank y < s.rank s.tide.followed) && s.passedSince (s.tide.eligibleSince y) s.tideCfg.returnHold) = some y →
    ∃ t, exec .handoverStart s = .next t ∧ t.tide.phase = .converging ∧ t.tide.target = y ∧ t.tide.df = 0 ∧ t.tide.posQ = s.tide.posQ ∧
      t.tide.rate = s.tide.rate ∧ t.tide.event = s.tide.event.raise 0 ∧
      t.log = (s.report .handoverStart 0xFFFF [s.tide.followed.num, s.tide.followed.fu, y.num, y.fu, t.tide.offset]).log ∧
      OnlyTouches [.tide, .form, .log] s t) ∧
  (∀ s : State, s.tide.carried < s.tide.cycle → ∃ t, exec .tideCycleCarry s = .next t ∧
    t.tide = { s.tide with
      carried := s.tide.carried + 1, coastLeft := if s.tide.phase = .coasting then s.tide.coastLeft - 1 else s.tide.coastLeft } ∧
    OnlyTouches [.tide] s t) ∧
  (∀ (s : State) (y : TideSrc), s.tide.phase = .coasting → s.tide.coastLeft = 0 → s.highest (fun _ => true) = some y →
    ∃ t, exec .tideFallback s = .next t ∧ t.tide.posQ = s.tide.posQ ∧ t.tide.lost = none ∧
      (y = .freerun → t.tide.phase = .aligned ∧ t.tide.src = .freerun ∧ t.tide.rate = rateWord (Num.clamp 40 70 s.tideCfg.nominalFreq)) ∧
      (y ≠ .freerun → t.tide.phase = .converging ∧ t.tide.target = y ∧ t.tide.rate = s.tide.rate ∧ t.tide.event = s.tide.event.raise 4) ∧
      OnlyTouches [.tide, .form, .log] s t) ∧
  (∀ (s : State) (b : Nat) (x : TideSrc), s.ctlCmd b = some (.tidePin x) → s.refusePin x = none → s.tide.phase ≠ .init →
    ∃ t, exec (.tidePin b) s = .next t ∧ DoneOn b 0 t ∧ t.tide.pin = some x ∧ t.tide.phase = .converging ∧ t.tide.target = x ∧
      t.tide.lost = none ∧ t.tide.posQ = s.tide.posQ ∧
      t.tide.event = s.tide.event.raise (if s.tide.phase = .coasting then 3 else 0) ∧ OnlyTouches [.tide, .form, .log, .host] s t) ∧
  (∀ (s : State) (b : Nat) (x : TideSrc), s.ctlCmd b = some (.tidePin x) → s.refusePin x = none → s.tide.phase = .init →
    ∃ t, exec (.tidePin b) s = .next t ∧ DoneOn b 0 t ∧ t.tide = { s.tide with pin := some x } ∧ OnlyTouches [.tide, .host] s t) ∧
  ∀ (s : State) (b : Nat) (x : TideSrc), s.ctlCmd b = some .tideUnpin → s.tide.pin = some x →
    ∃ t, exec (.tideUnpin b) s = .next t ∧ DoneOn b 0 t ∧ t.tide = { s.tide with pin := none } ∧ OnlyTouches [.tide, .host] s t

/-- R69, R71: a mark that the host may arm is armed with its action, owner HOST, and the one-shot position asked for; the other marks stay. One that
is nearer than its lead is refused, flagged MARK_PAST, and arms nothing. R70: every armed mark that Tide has crossed fires: a one-shot mark
disarms, a periodic one moves on by its period, each with the stamp of the tick of its crossing. A mark that is not crossed is untouched, and
marks are served up to the present position. The clause on a fired mark is about states in which no periodic mark has been crossed twice since
marks were last served. -/
def Obligations.MarksFireOnceWhenCrossed : Prop :=
  (∀ (s : State) (b n : Nat) (m : MarkSpec), s.ctlCmd b = some (.tideMark n m) → s.refuseMark n m .host = none → n < s.tide.marks.length →
    ∃ t, exec (.tideMarkArm b) s = .next t ∧ DoneOn b 0 t ∧ (t.mark n).armed = true ∧ (t.mark n).action = m.action ∧ (t.mark n).owner = .host ∧
      (t.mark n).period = m.period ∧ (t.mark n).level = m.level ∧ (t.mark n).target = m.target ∧ (t.mark n).sent = none ∧
      (m.period = none → m.cycle < 2 ^ 48 → (t.mark n).cycle = m.cycle ∧ (t.mark n).angle = m.angle) ∧
      (∀ k, k ≠ n → t.mark k = s.mark k) ∧ OnlyTouches [.tide, .fio, .log, .host] s t) ∧
  (∀ (s : State) (b n : Nat) (m : MarkSpec), s.ctlCmd b = some (.tideMark n m) → m.period = none →
    ((m.cycle * 2 ^ 32 + m.angle.toNat : Nat) : Sys2Proof.Num) < (s.tide.posN : Sys2Proof.Num) + s.travel (markLead m.action) →
    ∃ t, exec (.tideMarkArm b) s = .next t ∧ t.tide.marks = s.tide.marks ∧ t.tide.event = s.tide.event.raise 7 ∧
      RefusedOn b s.tideStatus t) ∧
  ∀ s : State, s.tide.marks.length = 256 → ∃ t, exec .tideMarkFire s = .next t ∧ t.tide.fired = s.tide.pos ∧ t.tide.marks.length = 256 ∧
    (∀ n < 256, (s.mark n).armed = false ∨ s.tide.posN < (s.mark n).pos ∨ (s.mark n).pos ≤ s.tide.fired.toNat → t.mark n = s.mark n) ∧
    ((∀ k < 256, ∀ p, (s.mark k).armed → s.tide.fired.toNat < (s.mark k).pos → (s.mark k).pos ≤ s.tide.posN → (s.mark k).period = some p →
        s.tide.posN < (s.mark k).pos + p * 2 ^ 32 ∧ (s.mark k).pos + p * 2 ^ 32 < 2 ^ 80) →
      ∀ n < 256, (s.mark n).armed → s.tide.fired.toNat < (s.mark n).pos → (s.mark n).pos ≤ s.tide.posN →
      t.mark n = match (s.mark n).period with
        | some k => ({ s.mark n with fired := ts32of (s.crossed (s.mark n).pos), sent := none } : Mark).at_ ((s.mark n).pos + k * 2 ^ 32)
        | none => { s.mark n with fired := ts32of (s.crossed (s.mark n).pos), sent := none, armed := false }) ∧
    OnlyTouches [.fresh, .tide, .form, .logic, .fio, .capt, .log, .diag] s t

/-- R75 to R77: an accepted close arms a mark of owner POW on the breaker's close channel; a touch that counts (after the edge, within T_NOM + 20 ms,
and the first) updates T_b by the learning law when it lies within 5 ms of the expected time and leaves T_b otherwise, logging δ; with no touch
T_b stays. R85: GO starts a conversion on the inputs as they stand; it ends with its outputs, or with ERR_RANGE and the outputs unchanged. -/
def Obligations.ClosingsAndConversionsEndInTime : Prop :=
  (∀ (s : State) (b k : Nat) (a : Angle) (c : PowCfg), s.ctlCmd b = some (.powClose k a) → s.powCfg? k = some c → s.refusePow k = none →
    k < s.tide.pow.length → s.tide.marks.length = 256 → ∃ t q, exec (.powCloseRequest b) s = .next t ∧ DoneOn b 0 t ∧
      (t.pow k).pending = some q ∧ q.reqAngle = a ∧ q.sent = false ∧ q.mark < 256 ∧ (s.mark q.mark).armed = false ∧
      (t.mark q.mark).armed = true ∧ (t.mark q.mark).owner = .pow ∧ (t.mark q.mark).action = .fioEdge ∧ (t.mark q.mark).target = c.closeCh ∧
      (∀ n, n ≠ q.mark → t.mark n = s.mark n) ∧ OnlyTouches [.tide, .host] s t) ∧
  (∀ (s : State) (k touch : Nat) (c : PowCfg) (p : PowPending), s.powCfg? k = some c → (s.pow k).pending = some p → p.touch = some touch →
    k < s.tide.pow.length → ∃ t, exec (.powTouch k touch) s = .next t ∧
      (t.pow k).pending = none ∧ t.tide.event = s.tide.event.raise 12 ∧
      (∀ d : Sys2Proof.Num, d = ((touch : Int) : Sys2Proof.Num) - ((p.tEdge : Sys2Proof.Num) + (s.pow k).tb) →
        (d.mag ≤ 5000000 → (t.pow k).tb =
          Num.clamp (9 / 10 * (c.tNom : Sys2Proof.Num)) (11 / 10 * (c.tNom : Sys2Proof.Num)) ((s.pow k).tb + Num.clamp (-2000000) 2000000 (c.gain * d))) ∧
        (5000000 < d.mag → (t.pow k).tb = (s.pow k).tb)) ∧ OnlyTouches [.tide, .log] s t) ∧
  (∀ (s : State) (k : Nat) (c : PowCfg) (p : PowPending), s.powCfg? k = some c → (s.pow k).pending = some p → p.sent → p.touch = none →
    p.tEdge + c.tNom + msec 20 + s.touchLatency c.touch ≤ s.ltc → k < s.tide.pow.length → ∃ t, exec (.powNoTouch k) s = .next t ∧
      (t.pow k).pending = none ∧ (t.pow k).tb = (s.pow k).tb ∧ t.log = (s.report .powNoTouch k).log ∧ OnlyTouches [.tide, .log] s t) ∧
  (∀ (s : State) (dir : Bool), s.tide.conv.go = false → ∃ t, exec (.tideConvGo dir) s = .next t ∧
    t.tide = { s.tide with conv := { s.tide.conv with
      go := true, dir := dir, done := false, errRange := false, predicted := false
      runNs := s.tide.conv.ns, runAngle := s.tide.conv.angle, runCycle := s.tide.conv.cycle, runDir := dir } } ∧ OnlyTouches [.tide] s t) ∧
  (∀ s : State, s.tide.conv.go → s.tide.conv.runDir = false → ∃ t, exec .tideConvDone s = .next t ∧ t.tide.conv.go = false ∧ t.tide.conv.done = true ∧
    (∀ m p, s.convToPos s.tide.conv.runNs.toNat = some (m, p) → t.tide.conv.predicted = p ∧ t.tide.conv.errRange = s.tide.conv.errRange ∧
      t.tide.conv.angle = BitVec.ofNat 32 m ∧ t.tide.conv.cycle = BitVec.ofNat 48 (m / 2 ^ 32)) ∧
    (s.convToPos s.tide.conv.runNs.toNat = none → t.tide.conv.errRange = true ∧ t.tide.conv.angle = s.tide.conv.angle ∧
      t.tide.conv.cycle = s.tide.conv.cycle) ∧ t.tide.conv.ns = s.tide.conv.ns ∧ OnlyTouches [.tide] s t) ∧
  ∀ s : State, s.tide.conv.go → s.tide.conv.runDir → ∃ t, exec .tideConvDone s = .next t ∧ t.tide.conv.go = false ∧ t.tide.conv.done = true ∧
    (∀ n p, s.convToTime (s.tide.conv.runCycle.toNat * 2 ^ 32 + s.tide.conv.runAngle.toNat) = some (n, p) →
      t.tide.conv.predicted = p ∧ t.tide.conv.ns = BitVec.ofNat 64 n) ∧
    (s.convToTime (s.tide.conv.runCycle.toNat * 2 ^ 32 + s.tide.conv.runAngle.toNat) = none →
      t.tide.conv.errRange = true ∧ t.tide.conv.ns = s.tide.conv.ns) ∧
    t.tide.conv.angle = s.tide.conv.angle ∧ t.tide.conv.cycle = s.tide.conv.cycle ∧ OnlyTouches [.tide] s t

/-- R19, R23, R26, R156, R193: at a due strobe that is no protection-cycle boundary, the fast-lane part of the period runs, and every trip output
follows the equations of R23, before PROT is ready as after. R19, R156: every third strobe has a phasor-lane period. Once its boundary has been
served, it evaluates the phasor-lane elements and takes sum-frame totals; it drives no trip output itself and commands no field channel. -/
def Obligations.LanePeriodsServeTheirInstants : Prop :=
  (∀ (s : State) (x : FastIn), s.strobeDue → s.acq.fastDone = s.acq.fastIdx → (s.acq.fastIdx + 1) % 3 ≠ 0 →
    ∃ t, exec (.fastLanePeriod x) s = .next t ∧ t.acq.fastIdx = s.acq.fastIdx + 1 ∧ t.acq.fastDone = s.acq.fastIdx + 1 ∧
      t.acq.phasorDone = s.acq.phasorDone ∧ t.prot.group = s.prot.group ∧
      t.prot.fastCount = s.prot.fastCount + 1 ∧ t.prot.vector.seq = wrapInc 16 s.prot.vector.seq ∧
      ((s.protCfg.trips.map (·.index)).Nodup → ∀ c ∈ s.protCfg.trips, ∀ y, t.trip? c.index = some y →
        y.mEff = (c.maskGrant && y.logicMask) ∧ y.trip = ((y.e && !y.mEff) || y.logicAdd)) ∧
      OnlyTouches [.tide, .acq, .prot, .logic, .fio, .capt, .log, .net, .chk] s t) ∧
  ∀ (s : State) (x : PhasorIn) (k : Nat), s.acq.running → s.acq.fastIdx = 3 * k → s.acq.phasorDone < k → k ≤ s.prot.boundary →
    ∃ t, exec (.phasorLanePeriod x) s = .next t ∧ t.acq.phasorDone = k ∧ t.acq.fastIdx = s.acq.fastIdx ∧ t.acq.fastDone = s.acq.fastDone ∧
      t.prot.trips = s.prot.trips ∧ t.prot.group = s.prot.group ∧
      (∀ i, s.prot.ready → s.dueInstant .phasor = some i → t.prot.phasorCount = s.prot.phasorCount + 1) ∧
      OnlyTouches [.tide, .acq, .prot, .diff, .logic, .capt, .log, .net, .chk] s t

/-- R132 to R134, R139: a coefficient goes into the inactive bank, and a write to the active or a locked bank is ignored, counted and flagged; an
unprotected channel whose staged bank agrees with the carried CRC is committed, and a direct swap of a PROTECTED one is refused. R135, R136: a
committed swap starts at a waveform sample on the phasor grid; with equal tap counts it fades over the FADE_LEN it starts with, and the staged
bank is active after it; with other tap counts it switches at once and SETTLE stands until the 16th phasor-lane sample. -/
def Obligations.BanksStageFadeAndSwap : Prop :=
  (∀ (s : State) (c : Nat) (a : Ain) (bankB : Bool) (i : Nat) (v : Word), s.ain? c = some a → a.activeB ≠ bankB → a.stageLock = false →
    ∃ t, exec (.acqCoefWrite c bankB i v) s = .next t ∧
      t.ain? c = some (a.setStaged { a.staged with coef := updAt a.staged.coef i fun _ => v.setWidth 24 }) ∧ OnlyTouches [.acq] s t) ∧
  (∀ (s : State) (c : Nat) (a : Ain) (bankB : Bool) (i : Nat) (v : Word), s.ain? c = some a → a.activeB = bankB ∨ a.stageLock →
    ∃ t, exec (.acqCoefWrite c bankB i v) s = .next t ∧
      t.acq = { s.acq with activeWr := satInc 16 s.acq.activeWr, activeWrCh := c, event := s.acq.event.raise 4 } ∧ OnlyTouches [.acq] s t) ∧
  (∀ (s : State) (c : Nat) (a : Ain) (v : Word), s.ain? c = some a → a.stageLock = false →
    ∃ t, exec (.acqBankWrite c v) s = .next t ∧
      t.ain? c = some { a with stageTaps := (v.extractLsb' 0 9).toNat, fadeLen := (v.extractLsb' 10 11).toNat } ∧ OnlyTouches [.acq] s t) ∧
  (∀ (s : State) (b c : Nat) (crc : Word) (a : Ain), s.ctlCmd b = some (.acqSwap c crc) → s.ain? c = some a → a.protected_ = false →
    s.refuseSwap c crc = none → ∃ t, exec (.acqSwap b) s = .next t ∧ DoneOn b 0 t ∧
      t.ain? c = some { a with swap := .committed, stageLock := false } ∧ OnlyTouches [.acq, .host] s t) ∧
  (∀ (s : State) (b c : Nat) (crc : Word) (a : Ain), s.ctlCmd b = some (.acqSwap c crc) → s.ain? c = some a → a.protected_ →
    ∃ t, exec (.acqSwap b) s = .next t ∧ t.acq = s.acq ∧
      RefusedOn b a.status t) ∧
  (∀ (s : State) (c : Nat) (a : Ain) (u : Ns), s.ain? c = some a → a.integHold = some u → u ≤ s.now →
    ∃ t, exec (.acqIntegHoldEnd c) s = .next t ∧ t.ain? c = some { a with integHold := none } ∧ OnlyTouches [.acq] s t) ∧
  (∀ (s : State) (c w : Nat) (a : Ain), s.ain? c = some a → a.swap = .committed → w % 12 = 0 → a.chain.nextWave ≤ w → w < a.chain.nextWave + 4 →
    a.stageTaps = a.active.taps → ∃ t, exec (.acqSwapStart c) s = .next t ∧
      t.ain? c = some { a.setStaged { a.staged with taps := a.stageTaps } with swap := .fading w a.fadeLen } ∧ OnlyTouches [.acq] s t) ∧
  (∀ (s : State) (c w : Nat) (a : Ain), s.ain? c = some a → a.swap = .committed → w % 12 = 0 → a.chain.nextWave ≤ w → w < a.chain.nextWave + 4 →
    a.stageTaps ≠ a.active.taps → ∃ t y, exec (.acqSwapStart c) s = .next t ∧ t.ain? c = some y ∧
      y.activeB = !a.activeB ∧ y.active.taps = a.stageTaps ∧ y.swap = .idle ∧ y.settle = true ∧ y.switchAt = w ∧
      y.delta = 24 * ((a.stageTaps : Int) - a.active.taps) ∧ t.acq.event.bits.getLsbD 1 = true ∧ t.acq.event.bits.getLsbD 2 = true ∧
      t.log = (s.report .acqSwap c [a.active.taps, a.stageTaps, y.delta]).log ∧ OnlyTouches [.acq, .log] s t) ∧
  (∀ (s : State) (c w n : Nat) (a : Ain), s.ain? c = some a → a.swap = .fading w n → w + n ≤ a.chain.nextWave →
    ∃ t, exec (.acqFadeDone c) s = .next t ∧ t.ain? c = some { a with activeB := !a.activeB, swap := .idle } ∧
      t.acq.event = s.acq.event.raise 1 ∧
      t.log = (s.report .acqSwap c [(a.crcOf a.active.taps a.active).toNat, a.stageCrc.toNat, n]).log ∧ OnlyTouches [.acq, .log] s t) ∧
  ∀ (s : State) (c : Nat) (a : Ain), s.ain? c = some a → a.settle → a.switchAt / 12 + skipCount a.delta 2304 + 16 ≤ a.chain.nextPhasor →
    ∃ t, exec (.acqSettleEnd c) s = .next t ∧ t.ain? c = some { a with settle := false } ∧ OnlyTouches [.acq] s t

/-- R191, R192, R575: known-answer tests start once per second on the lanes that are not OUT, and end on both; two SUSPECT lanes that both pass are IN
again with the cause unresolved; a lane that fails is OUT with the cause KAT and leaves the other alone; an episode ends after 1 s. R187 to R189:
SG_SELECT latches the request and waits for the next boundary; a deferred switch that has waited SG_DEFER_MAX is applied: the group is active, the
switch is counted, flagged and logged, and every element that the group does not enable has no output. -/
def Obligations.LanesAndGroupsOfProtection : Prop :=
  (∀ s : State, s.prot.ready → s.passed (nth s.diag.ranAt SelfTest.protKat.bit 0) (secs 1) → ∃ t, exec .protKatPeriodic s = .next t ∧
    t.prot = { s.prot with
      laneA := { s.prot.laneA with katRunning := s.prot.laneA.katRunning || s.prot.laneA.phase != .out }
      laneB := { s.prot.laneB with katRunning := s.prot.laneB.katRunning || s.prot.laneB.phase != .out } } ∧ OnlyTouches [.prot] s t) ∧
  (∀ (s : State) (x : KatIn), s.prot.laneA.katRunning ∨ s.prot.laneB.katRunning → ∃ t, exec (.protKatDone x) s = .next t ∧
    t.prot.laneA.katRunning = false ∧ t.prot.laneB.katRunning = false ∧ OnlyTouches [.prot, .logic, .capt, .log, .diag] s t) ∧
  (∀ s : State, s.prot.laneA.katRunning → s.prot.laneB.katRunning → s.prot.laneA.phase = .suspect → s.prot.laneB.phase = .suspect →
    ∃ t, exec (.protKatDone { passA := true, passB := true }) s = .next t ∧ t.prot.laneA.phase = .in_ ∧ t.prot.laneB.phase = .in_ ∧
      t.prot.unresolved = satInc 16 s.prot.unresolved ∧ t.prot.event = s.prot.event.raise 2) ∧
  (∀ (s : State) (y : Bool), s.prot.laneA.katRunning → s.prot.laneB.katRunning = false → s.prot.laneA.phase = .in_ →
    ∃ t, exec (.protKatDone { passA := false, passB := y }) s = .next t ∧ t.prot.laneA.phase = .out ∧ t.prot.laneA.outCause = .kat ∧
      t.prot.laneB = s.prot.laneB ∧ t.prot.event.bits.getLsbD 1 = true) ∧
  (∀ (s : State) (e : Nat) (y : Elem) (u : Ns), s.elem? e = some y → y.episode = some u → s.passed u (secs 1) →
    ∃ t, exec (.laneDisagreeEpisodeEnd e) s = .next t ∧ t.elem? e = some { y with episode := none } ∧ OnlyTouches [.prot] s t) ∧
  (∀ (s : State) (b g : Nat), s.ctlCmd b = some (.sgSelect g) → s.groupUsed g → s.prot.request = none →
    ∃ t, exec (.sgSelect b) s = .next t ∧ t.prot = { s.prot with request := some { group := g, by_ := .host, berth := some b }, deferred := false } ∧
      t.endingOf b = none ∧ b ∉ t.host.qCtl ∧ OnlyTouches [.prot, .host] s t) ∧
  ∀ (s : State) (r : SgRequest), s.prot.deferred → s.passed s.prot.deferSince s.protCfg.sgDeferMax → s.prot.request = some r →
    ∃ t, exec .sgDeferExpiry s = .next t ∧ t.prot.group = r.group ∧ t.prot.request = none ∧ t.prot.deferred = false ∧
      t.prot.switches = wrapInc 8 s.prot.switches ∧ t.prot.event = s.prot.event.raise 3 ∧ t.prot.trips = s.prot.trips ∧
      (∀ c ∈ s.protCfg.elements, nth c.sgMask r.group false = false → ∀ y, t.elem? c.index = some y → y.pickup = false ∧ y.operate = false) ∧
      t.log = (s.report .sgSwitch 0xFFFF [s.prot.group, r.group, r.by_.rank, (s.now - s.prot.deferSince : Nat)]).log ∧ OnlyTouches [.prot, .log] s t

/-- R218, R223, R224: at ZONE_LAUNCH a candidate counts the launch time and decides whether it heads; only a head sends, and never in DEGRADED. A PTP
error beyond 2 µs blocks the zone at once (R227). R217, R219, R222, R229: a frame of a zone that is not created goes on with one more hop; a frame
with a bad check value is counted, and ends spoilt where its forwarding has begun (the model's choice of when that is, log entry 60) and nowhere
else; complete totals that come in time are kept for evaluation once. R222, R227: an instant undecided at its deadline is incomplete: the count of
complete instants starts again, and a HEALTHY zone blocks, counted and flagged, with the cause; MISSING stays that of the last evaluated instant.
An instant whose every frame carried another CFG_TAG blocks only as the third in a row, by the CFG row (the model's choice, log entry 60). -/
def Obligations.ZonesPassSumsAndBlockWhenLate : Prop :=
  (∀ (s : State) (z : Nat) (x : Zone) (e : DiffEntry), s.zone? z = some x → s.launchDue x = some e → x.rank.isSome →
    ∃ t y, exec (.diffLaunch z) s = .next t ∧ t.zone? z = some y ∧ y.launched = some (sumNumber e.sec e.idx) ∧ y.quiet = x.quiet + 1 ∧
      y.stepDown = false ∧ y.totals = x.totals ∧
      y.phase = (if 2000 < s.ptpErr.mag ∧ x.phase = .healthy then .blocked else x.phase) ∧
      y.heading = s.diffJoin.canHead { x with launched := some (sumNumber e.sec e.idx), quiet := x.quiet + 1 } ∧
      (y.heading = false → t.net = s.net ∧ t.adeid = s.adeid ∧ y.instants = x.instants ∧ (s.ptpErr.mag ≤ 2000 → t.log = s.log)) ∧ (s.clk.degraded → y.heading = false) ∧
      OnlyTouches [.diff, .log, .net, .adeid] s t) ∧
  (∀ (s : State) (x : SumIn), s.ringUp x.ring x.port → (∀ z ∈ s.diff.zones, z.cfg.zoneId ≠ x.frame.zoneId ∨ z.cfg.ring ≠ x.ring) → x.checkOk →
    x.frame.alive = sumNumber x.frame.sec x.frame.idx % 256 → x.frame.hops < 255 →
    s.ringUp x.ring (ringOther x.port) →
    exec (.sumFrameRx x) s = .next (s.diffJoin.sumOut x.ring (ringOther x.port) { x.frame with hops := x.frame.hops + 1 })) ∧
  (∀ (s : State) (x : SumIn), s.ringUp x.ring x.port → (∀ z ∈ s.diff.zones, nth z.admitted x.port 0 < 8) → x.checkOk = false →
    s.ptpErr.mag ≤ 2000 → ∃ t, exec (.sumFrameRx x) s = .next t ∧ t.diff.checkFail = satInc 32 s.diff.checkFail ∧ t.diff.event = s.diff.event.raise 3 ∧
      (s.diff.passOnly ∨ s.ringUp x.ring (ringOther x.port) = false → t.net = s.net ∧ t.adeid = s.adeid) ∧
      (s.diff.passOnly = false → s.ringUp x.ring (ringOther x.port) →
        let u := s.sumOut x.ring (ringOther x.port) { x.frame with hops := (x.frame.hops + 1) % 256 } true
        t.net = u.net ∧ t.adeid = u.adeid) ∧ OnlyTouches [.diff, .log, .net, .chk, .adeid] s t) ∧
  (∀ (s : State) (x : SumIn) (zi : Nat) (z : Zone), s.ringUp x.ring x.port →
    s.diff.zones.findIdx (fun z => decide (z.cfg.zoneId = x.frame.zoneId ∧ z.cfg.ring = x.ring)) = zi → s.zone? zi = some z →
    nth z.admitted x.port 0 < 8 → x.checkOk → x.frame.alive = sumNumber x.frame.sec x.frame.idx % 256 → x.frame.hops < 255 → x.frame.lap2 →
    x.frame.incomplete = false → x.frame.sat = false → x.frame.cfgTag = z.cfgTag → x.frame.convDev ≠ s.sec.device →
    (∀ i ∈ z.instants, i.sec ≠ x.frame.sec ∨ i.idx ≠ x.frame.idx) → s.ltc ≤ sumTime x.frame.sec x.frame.idx + z.cfg.deadlineNs →
    s.ptpErr.mag ≤ 2000 →
    ∃ t y, exec (.sumFrameRx x) s = .next t ∧ t.zone? zi = some y ∧ y.cfgRun = 0 ∧ y.phase = z.phase ∧
      y.totals = z.totals ++ [{ sec := x.frame.sec, idx := x.frame.idx, sum := x.frame.sum, restr := x.frame.restr, uncomp := x.frame.uncomp
                                chgMask := x.frame.chgMask, contrib := x.frame.contrib, headDev := x.frame.headDev
                                headRank := x.frame.headRank, at_ := s.now }] ∧
      OnlyTouches [.diff, .net, .adeid] s t) ∧
  (∀ (f : SumFrame) (m : Nat) (c : Contribution) (b : Int), m < 64 → (f.add m c b).contrib.getLsbD m = true ∧
    (∀ k, k ≠ m → (f.add m c b).contrib.getLsbD k = f.contrib.getLsbD k) ∧
    (∀ v ∈ (f.add m c b).sum, -(2 ^ 31 - 1) ≤ v ∧ v ≤ 2 ^ 31 - 1) ∧ (f.sat → (f.add m c b).sat = true)) ∧
  ∀ (s : State) (z : Nat) (x : Zone) (i : ZoneInstant), s.zone? z = some x →
    x.instants.reverse.find? (fun i => !i.done && decide (i.time + x.cfg.deadlineNs ≤ s.ltc)) = some i →
    ∃ t y, exec (.diffDeadline z) s = .next t ∧ t.zone? z = some y ∧ y.missing = x.missing ∧
      y.cfgRun = (if i.foreign then x.cfgRun + 1 else 0) ∧
      y.unblockLeft = x.cfg.unblockCount ∧ (∀ j ∈ y.instants, j.sec = i.sec → j.idx = i.idx → j.done = true) ∧
      (x.phase = .healthy → i.foreign = false ∨ 2 ≤ x.cfgRun → y.phase = .blocked ∧
        y.cause = (if i.foreign then .cfg else if i.sat then .sat else if i.bad ≠ [] then .incomplete else .noFrame) ∧ y.blocks = satInc 16 x.blocks ∧ t.diff.event = s.diff.event.raise 0) ∧
      (x.phase ≠ .healthy ∨ i.foreign ∧ x.cfgRun < 2 → y.phase = x.phase ∧ y.blocks = x.blocks ∧ t.diff.event = s.diff.event ∧ t.log = s.log) ∧
      OnlyTouches [.diff, .log] s t

/-- R261 to R264, R272: a command of the host that the unit accepts in its present state leaves CTL and waits for the unit's next control-cycle
boundary; one that it does not accept is refused, and the unit stays as it is. R264, R265: a staged set takes effect at the boundary after its
mark, STEP values at once, and is then cleared; a mark with nothing staged is flagged and logged. In READY for AUTOSTART_DELAY the unit issues its
own command, which waits like one of the host or is refused and logged. -/
def Obligations.UnitsTakeCommandsAtBoundaries : Prop :=
  (∀ (s : State) (b u : Nat) (x : FormUnit) (k : Instr) (c : UnitCmd), s.fu? u = some x → s.ctlCmd b = some (.unit u c) →
    (k = .formStart b ∧ c = .start) ∨ (k = .formBlackStart b ∧ ∃ m, c = .blackStart m) ∨ (k = .formResync b ∧ c = .resync) ∨
      (k = .formResyncCancel b ∧ c = .resyncCancel) ∨ (k = .formStop b ∧ c = .stop) ∨ (k = .formBlock b ∧ c = .block) ∨
      (k = .formReset b ∧ c = .reset) →
    (s.unitAccepts x c → ∃ t, exec k s = .next t ∧ WaitsAtUnit b u x c s t) ∧
    (s.unitAccepts x c = false → ∃ t, exec k s = .next t ∧ RefusedOn b (s.unitStatus x) t ∧ t.form = s.form)) ∧
  (∀ (s : State) (b u : Nat) (x : FormUnit) (g : Targets), s.fu? u = some x → s.ctlCmd b = some (.unitSetpoint u g) → s.targetsOk g →
    ∃ t, exec (.formSetpoint b) s = .next t ∧ WaitsAtUnit b u x (.setpoint g) s t) ∧
  (∀ (s : State) (b u : Nat) (x : FormUnit) (g : Staged), s.fu? u = some x → s.ctlCmd b = some (.unitStage u g) → s.targetsOk g.targets →
    ∃ t, exec (.formStage b) s = .next t ∧ WaitsAtUnit b u x (.stage g) s t) ∧
  (∀ (s : State) (b u br : Nat) (x : FormUnit), s.ctlCmd b = some (.bridgeRestore br) → s.form.units.find? (fun x => x.bridgeNos.contains br) = some x →
    x.cfg.unit = u → s.fu? u = some x → s.unitAccepts x (.restore br) →
    ∃ t, exec (.bridgeRestore b) s = .next t ∧ WaitsAtUnit b u x (.restore br) s t) ∧
  (∀ (s : State) (u : Nat) (x : FormUnit) (st : Staged), s.fu? u = some x → x.stepDue → s.atUnitBoundary x → x.staged = some st →
    ∃ t y, exec (.formStepApply u) s = .next t ∧ t.fu? u = some y ∧ y.staged = none ∧ y.stepDue = false ∧ y.target = st.targets ∧
      y.inForce.p = (if st.stepP then st.targets.p else x.inForce.p) ∧ y.inForce.q = (if st.stepQ then st.targets.q else x.inForce.q) ∧
      y.inForce.v = (if st.stepV then st.targets.v else x.inForce.v) ∧ y.inForce.f = (if st.stepF then st.targets.f else x.inForce.f) ∧
      y.phase = x.phase ∧ y.cfg = x.cfg ∧ OnlyTouches [.form] s t) ∧
  (∀ (s : State) (u : Nat) (x : FormUnit), s.fu? u = some x → x.stepDue → s.atUnitBoundary x → x.staged = none →
    ∃ t, exec (.formStepApply u) s = .next t ∧ t.fu? u = some { x with stepDue := false } ∧ t.form.event = s.form.event.raise 14 ∧
      t.log = (s.report .formStepEmpty u).log ∧ OnlyTouches [.form, .log] s t) ∧
  (∀ (s : State) (u : Nat) (x : FormUnit) (c : UnitCmd), s.fu? u = some x → autostartCmd x.cfg.policy.autostart = some c → x.phase = .ready →
    x.autoAt = none → s.passedSince x.readySince x.cfg.policy.autostartDelay → s.unitAccepts x c →
    ∃ t, exec (.formAutostart u) s = .next t ∧
      t.fu? u = some { x with autoAt := some s.now, pending := x.pending ++ [(c, .self)] } ∧ OnlyTouches [.form] s t) ∧
  ∀ (s : State) (u : Nat) (x : FormUnit) (c : UnitCmd), s.fu? u = some x → autostartCmd x.cfg.policy.autostart = some c → x.phase = .ready →
    x.autoAt = none → s.passedSince x.readySince x.cfg.policy.autostartDelay → s.unitAccepts x c = false →
    ∃ t e l, exec (.formAutostart u) s = .next t ∧ t.fu? u = some { x with autoAt := some s.now } ∧
      t.log.reported = l ++ [e] ∧ e.name = .refused .form ∧ e.source = u ∧ OnlyTouches [.form, .log] s t

/-- R258, R259, R261: with no cause of BLOCKED and no entry condition of ride-through, PREPARING becomes READY, CONNECTING becomes FORMING_GRID after
T_CONNECT, RESYNC falls back after RESYNC_TIMEOUT, STOPPING ends after 10 s, and RIDE_THROUGH returns where R258 says; each is logged. -/
def Obligations.UnitsFollowTheTransitionTable : Prop :=
  (∀ (s : State) (u : Nat) (x : FormUnit), s.fu? u = some x → s.blockCause x = none → x.phase = .preparing →
    x.waitLink = false → x.waitDc = false → x.waitStage = false → ∃ t y, exec (.formReady u) s = .next t ∧ t.fu? u = some y ∧
      y.phase = .ready ∧ y.readySince = some s.now ∧ t.form.event = s.form.event.raise 0 ∧ t.log = (s.report .formReady u [1, 2, 0]).log ∧
      OnlyTouches [.form, .log] s t) ∧
  (∀ (s : State) (u : Nat) (x : FormUnit), s.fu? u = some x → s.blockCause x = none → x.phase = .connecting → x.frtCause = none →
    s.passed x.stateSince x.cfg.policy.tConnect → ∃ t y, exec (.formConnectDone u) s = .next t ∧ t.fu? u = some y ∧
      y.phase = .formingGrid ∧ y.stateSince = s.now ∧ y.rotor = x.rotor ∧ y.loops = x.loops ∧ t.form.event = s.form.event.raise 0 ∧
      t.log = (s.report .formForming u [3, 5, 0]).log ∧ OnlyTouches [.form, .log] s t) ∧
  (∀ (s : State) (u : Nat) (x : FormUnit), s.fu? u = some x → s.blockCause x = none → x.phase = .resync → x.frtCause = none →
    s.gridClosed x ≠ some true → x.meas.gridValid → s.passed x.stateSince x.cfg.policy.resyncTimeout →
    ∃ t y, exec (.formResyncTimeout u) s = .next t ∧ t.fu? u = some y ∧ y.phase = .formingIsland ∧ y.rotor = x.rotor ∧
      t.form.event = (s.form.event.raise 0).raise 7 ∧ t.log = (s.report .formResyncFail u [8, 6, 1]).log ∧ OnlyTouches [.form, .log] s t) ∧
  (∀ (s : State) (u : Nat) (x : FormUnit), s.fu? u = some x → s.blockCause x = none → x.phase = .stopping → s.passed x.stateSince (secs 10) →
    ∃ t y, exec (.formStopped u) s = .next t ∧ t.fu? u = some y ∧ y.phase = .ready ∧ y.loops.limiter = .free ∧
      t.form.event = s.form.event.raise 0 ∧ t.log = (s.report .formStopped u [9, 2, 0]).log ∧ OnlyTouches [.form, .log] s t) ∧
  ∀ (s : State) (u : Nat) (x : FormUnit), s.fu? u = some x → s.blockCause x = none → x.phase = .rideThrough →
    s.passedSince x.frt.exitSince x.cfg.frt.tFrtExit → ∃ t y, exec (.frtEnd u) s = .next t ∧ t.fu? u = some y ∧
      y.phase = (if x.frt.islanded ∨ x.frt.from_ = .formingIsland ∨ x.frt.from_ = .resync then .formingIsland else .formingGrid) ∧
      y.frt.lastEnd = some s.now ∧ y.frt.duration = min ((s.now - x.frt.start) / 1000000) 65535 ∧
      t.form.event = (s.form.event.raise 0).raise 3 ∧ OnlyTouches [.form, .log] s t

/-- R242, R257, R259, R260, R266, R271, R275: the cause that the unit's conditions show blocks it: the cause is latched, the pulses end, and the state
change and the block are flagged. A lockstep fault blocks in any state from PREPARING to HOLD, and its cause ends with a passed self-test. R239,
R241, R261, R274: a new boundary counts the cycle, latches the status vector, and serves every waiting command. The computation runs once per
cycle and hands the downlinks over; a unit whose pulses are blocked hands BLOCK to each of its bridges (R296). -/
def Obligations.CausesBlockTheUnitAndCyclesHandOver : Prop :=
  (∀ (s : State) (u : Nat) (x : FormUnit) (k : Instr) (c : FormCause), s.fu? u = some x → s.blockCause x = some c →
    (k = .formEnergiseTimeout u ∧ c = .energiseFail) ∨ (k = .formCircTrip u ∧ c = .circ) ∨ (k = .formHoldTimeout u ∧ c = .loc) →
    ∃ t y, exec k s = .next t ∧ t.fu? u = some y ∧ y.phase = .blocked ∧ c ∈ y.causes ∧ (∀ d ∈ x.causes, d ∈ y.causes) ∧
      y.loops.limiter = .free ∧ y.stateSince = s.now ∧ t.form.event = (s.form.event.raise 0).raise 1 ∧
      t.log = (s.report .formBlocked u [x.phase.num, 11, c.bit]).log ∧ OnlyTouches [.form, .log, .capt] s t) ∧
  (∀ (s : State) (u : Nat) (x : FormUnit), s.fu? u = some x → s.blockCause x = some .envelope →
    ∃ t y, exec (.frtEnvelope u) s = .next t ∧ t.fu? u = some y ∧ y.phase = .blocked ∧ .envelope ∈ y.causes ∧
      y.frt.envTripEnd = some (s.now + msec 100) ∧ t.form.event = ((s.form.event.raise 4).raise 0).raise 1 ∧
      OnlyTouches [.form, .log, .capt, .logic] s t) ∧
  (∀ (s : State) (u : Nat) (x : FormUnit), s.fu? u = some x → x.phase ≠ .off → x.handed →
    ∃ t y, exec (.formLockstep u) s = .next t ∧ t.fu? u = some y ∧ y.phase = .blocked ∧ .lockstep ∈ y.causes ∧ y.lockstepTest = true ∧
      t.form.event.bits.getLsbD 9 = true ∧ OnlyTouches [.form, .log, .capt] s t) ∧
  (∀ (s : State) (u : Nat) (x : FormUnit), s.fu? u = some x → x.lockstepTest →
    ∃ t, exec (.formLockstepTestDone u true) s = .next t ∧
      t.fu? u = some { x with lockstepTest := false, causes := x.causes.filter (· != .lockstep) } ∧ OnlyTouches [.form, .diag] s t) ∧
  (∀ (s : State) (u : Nat) (y : FormUnit), s.fu? u = some y → s.gridEdge y ≠ y.edge →
    ∃ t z, exec (.formControlCycle u) s = .next t ∧ t.fu? u = some z ∧ z.cycle = wrapInc 32 y.cycle ∧ z.edge = s.gridEdge y ∧ z.t0 = s.now ∧
      z.computed = false ∧ z.handed = false ∧ z.pending = [] ∧ z.vector = s.prot.vector ∧ z.cfg = y.newCfg.getD y.cfg ∧
      OnlyTouches [.form, .gate, .logic, .capt, .log, .host] s t) ∧
  ∀ (s : State) (u : Nat) (x : FormUnit), s.fu? u = some x → s.mayCompute x →
    ∃ t z, exec (.formCompute u) s = .next t ∧ t.fu? u = some z ∧ z.computed = true ∧ z.handed = true ∧ z.cycle = x.cycle ∧
      (x.phase.pulses = false → ∀ b ∈ x.bridgeNos, ∀ g, t.gateLink? b = some g → g.last.block = true ∧ g.blockSent = true ∧
        g.last.cycle = x.cycle + 1) ∧ OnlyTouches [.fresh, .form, .gate, .logic, .capt, .log] s t

/-- R288, R294 to R296: the first valid uplink of the boundary is admitted, one with a bad check is counted, one after the computation start is late;
a bridge whose downlink was not handed over in time gets a repeat or BLOCK; a port of no unit sends BLOCK downlinks. -/
def Obligations.UplinksEnterAndDownlinksLeave : Prop :=
  (∀ (s : State) (x : UplinkIn) (g : GateLink) (y : FormUnit), s.gateLink? x.br = some g → s.unitOfBridge x.br = some y → g.up → x.checkOk →
    (g.alive? x.frame).accepted → g.accepts y.cycle x.frame → g.uplink = none → y.computed = false →
    ∃ t h, exec (.gateUplinkRx x) s = .next t ∧ t.gateLink? x.br = some h ∧ h.uplink = some x.frame ∧ h.ulAlive = some x.frame.alive ∧
      h.good = wrapInc 32 g.good ∧ h.silent = 0 ∧ h.turnMax = max g.turnMax x.frame.turn ∧ OnlyTouches [.gate, .log, .chk] s t) ∧
  (∀ (s : State) (x : UplinkIn) (g : GateLink) (y : FormUnit), s.gateLink? x.br = some g → s.unitOfBridge x.br = some y → g.up → x.checkOk →
    (g.alive? x.frame).accepted → g.accepts y.cycle x.frame → g.uplink = none → y.computed →
    ∃ t, exec (.gateUplinkRx x) s = .next t ∧
      t.gateLink? x.br = some { g with late := satInc 16 g.late, ulAlive := some x.frame.alive } ∧ OnlyTouches [.gate, .log, .chk] s t) ∧
  (∀ (s : State) (x : UplinkIn) (g : GateLink), s.gateLink? x.br = some g → g.up → x.checkOk = false →
    ∃ t, exec (.gateUplinkRx x) s = .next t ∧ t.gateLink? x.br = some { g with badCheck := satInc 16 g.badCheck } ∧
      t.gate.event = s.gate.event.raise 8 ∧ OnlyTouches [.gate, .log, .chk] s t) ∧
  (∀ (s : State) (br : Nat) (g : GateLink) (x : FormUnit), s.gateLink? br = some g → s.unitOfBridge br = some x → s.fu? x.cfg.unit = some x →
    x.handed = false → s.passed x.t0 (x.ts / 2) → g.sentFor ≠ x.cycle + 1 → x.phase.pulses = false →
    ∃ t h, exec (.gateRepeat br) s = .next t ∧ t.gateLink? br = some h ∧ h.last.block = true ∧ h.last.repeat_ = false ∧
      h.last.cycle = x.cycle + 1 ∧ h.sentFor = x.cycle + 1 ∧ h.repeats = g.repeats ∧
      OnlyTouches [.fresh, .form, .gate, .capt, .log] s t) ∧
  (∀ (s : State) (br : Nat) (g : GateLink) (x : FormUnit), s.gateLink? br = some g → s.unitOfBridge br = some x → s.fu? x.cfg.unit = some x →
    x.handed = false → s.passed x.t0 (x.ts / 2) → g.sentFor ≠ x.cycle + 1 → x.phase.pulses → x.overrunRun = 0 → (s.bridge br).active →
    ∃ t h y, exec (.gateRepeat br) s = .next t ∧ t.gateLink? br = some h ∧ t.fu? x.cfg.unit = some y ∧ y.overran = true ∧ h.last.block = false ∧
      h.last.repeat_ = true ∧ h.last.legs = g.last.legs.map (fun l => l.mirror h.last.half) ∧ h.last.cycle = x.cycle + 1 ∧
      h.repeats = satInc 16 g.repeats ∧ t.gate.event = s.gate.event.raise 6 ∧ OnlyTouches [.fresh, .form, .gate, .capt, .log] s t) ∧
  ∀ (s : State) (br : Nat) (g : GateLink), s.gateLink? br = some g → g.up → s.unitOfBridge br = none → s.passed g.idleAt 100000 →
    ∃ t h, exec (.gateBlockIdleSend br) s = .next t ∧ t.gateLink? br = some h ∧ h.last.block = true ∧ h.blockSent = true ∧
      h.idleAt = s.now ∧ h.sent = wrapInc 32 g.sent ∧ OnlyTouches [.fresh, .gate] s t

/-- R297, stated: GATE_CLEAR is accepted only while the bridge's downlinks carry BLOCK, and otherwise refused before any side effect. When accepted,
the next 16 downlinks of the bridge carry CLEAR, and CLEAR_ACTIVE shows while they do. -/
def Obligations.GateClearNeedsBlock : Prop :=
  (∀ (s : State) (b br : Nat) (g : GateLink), s.ctlCmd b = some (.gateClear br) → s.gateLink? br = some g → g.blockSent →
    ∃ t, exec (.gateClear b) s = .next t ∧ DoneOn b 0 t ∧ t.gateLink? br = some { g with clearLeft := 16 } ∧ OnlyTouches [.gate, .host] s t) ∧
  (∀ (s : State) (b br : Nat) (g : GateLink), s.ctlCmd b = some (.gateClear br) → s.gateLink? br = some g → g.blockSent = false →
    ∃ t, exec (.gateClear b) s = .next t ∧ RefusedOn b g.status t ∧ t.gate = s.gate ∧ OnlyTouches [.log, .host] s t) ∧
  (∀ (s : State) (br n : Nat) (d ts : Ns) (block rep falling : Bool) (half : Nat) (legs : List Leg) (g : GateLink), s.gateLink? br = some g →
    ∃ h, (s.sendDownlink br n d ts block rep falling half legs).gateLink? br = some h ∧ h.last.clear = decide (g.clearLeft ≠ 0) ∧
      h.clearLeft = g.clearLeft - 1) ∧
  ∀ g : GateLink, g.status.getLsbD 6 = decide (g.clearLeft ≠ 0)

/-- R302, stated: when a link goes down its uplinks are missing from then on, LINK_DOWN is set and GATE_LINK_DOWN logged; when it comes up, LINK_UP is
set, GATE_LINK_UP logged and the delay measurement restarts. -/
def Obligations.GateLinksGoDownAndUp : Prop :=
  (∀ (s : State) (br : Nat) (g : GateLink), s.gateLink? br = some g → g.up → ∃ t h, exec (.gateLinkDown br) s = .next t ∧
    t.gateLink? br = some h ∧ h.up = false ∧ h.uplink = none ∧ h.syncValid = false ∧ t.gate.event.bits.getLsbD 0 = true ∧
    t.log = (s.report .gateLinkDown br).log ∧ OnlyTouches [.gate, .log] s t) ∧
  (∀ (s : State) (x : UplinkIn) (g : GateLink), s.gateLink? x.br = some g → g.up = false → exec (.gateUplinkRx x) s = .next s) ∧
  ∀ (s : State) (br : Nat) (g : GateLink), s.gateLink? br = some g → g.up = false → s.clk.refNone = false → 6 ≤ s.sys.stage → s.sys.stage ≤ 11 →
    ∃ t h, exec (.gateLinkUp br) s = .next t ∧ t.gateLink? br = some h ∧ h.up = true ∧ h.delays = [] ∧ h.departures = [] ∧ h.syncCount = 0 ∧
      t.gate.event = s.gate.event.raise 1 ∧ t.log = (s.report .gateLinkUp br).log ∧ OnlyTouches [.gate, .log] s t

/-- R309, R313 to R315: a valid group frame shows the group alive and takes up to 8 edge records; an invalid one is counted and shows nothing. After 1
ms without one the group is LOST. An edge is the level after DEBOUNCE with the stamp of its crossing. A synchronisation lasts 5 ms. -/
def Obligations.GroupsLiveByTheirFrames : Prop :=
  (∀ (s : State) (x : CouplerIn), (s.fioGroup x.g).created → x.valid → ∃ t, exec (.fioCouplerFrame x) s = .next t ∧
    (t.fioGroup x.g).lastRx = s.now ∧ (t.fioGroup x.g).lost = false ∧ (t.fioGroup x.g).link = (s.fioGroup x.g).accepted ∧
    (t.fioGroup x.g).fifo = (s.fioGroup x.g).fifo.drop 8 ∧ OnlyTouches [.tide, .fio, .capt, .chk] s t) ∧
  (∀ (s : State) (x : CouplerIn), (s.fioGroup x.g).created → x.valid = false → ∃ t, exec (.fioCouplerFrame x) s = .next t ∧
    (t.fioGroup x.g).lastRx = (s.fioGroup x.g).lastRx ∧ t.chk = { s.chk with pathFail := updAt s.chk.pathFail 9 (satInc 32) } ∧
    OnlyTouches [.fio, .chk] s t) ∧
  (∀ (s : State) (g : Nat), (s.fioGroup g).created → (s.fioGroup g).lost = false → s.passed (s.fioGroup g).lastRx (msec 1) →
    ∃ t, exec (.fioGroupLost g) s = .next t ∧ t.fioGroup g = { s.fioGroup g with lost := true, link := false } ∧
      t.fio.event = s.fio.event.raise 3 ∧ t.log = (s.report .fioGroupLost g).log ∧ OnlyTouches [.fio, .log] s t) ∧
  (∀ (s : State) (ch : Nat) (level : Bool) (stamp : Word) (stable : Ns), (s.fioCh ch).isInput → (s.fioGroup (groupOf ch)).accepted →
    (s.fioCh ch).level ≠ level → (s.fioCh ch).debounce ≤ stable → ∃ t, exec (.fioInputEdge ch level stamp stable) s = .next t ∧
      (t.fioCh ch).level = level ∧ (t.fioCh ch).lastEdge = stamp ∧ (∀ n, n ≠ ch → t.fioCh n = s.fioCh n) ∧
      OnlyTouches [.prot, .logic, .fio, .log, .host] s t) ∧
  (∀ (s : State) (g : Nat), (s.fioGroup g).created → ∃ t, exec (.fioTimeSync g) s = .next t ∧
    t.fioGroup g = { s.fioGroup g with lastSync := s.now, syncOk := true, unsyncSeen := false } ∧ OnlyTouches [.fio] s t) ∧
  ∀ (s : State) (g : Nat), (s.fioGroup g).syncOk → (s.fioGroup g).lastSync + msec 5 < s.now → ∃ t, exec (.fioSyncLost g) s = .next t ∧
    t.fioGroup g = { s.fioGroup g with syncOk := false } ∧ OnlyTouches [.fio] s t

/-- R311, R321, R322, R328: an accepted handshake puts every output of the group into its safe state, HOLD as OFF; a failed one, and UNDERVOLT, open
every output; a watchdog expiry puts the outputs into SAFE, HOLD keeping the level of that moment. The switches stand as R321 says. -/
def Obligations.GroupsTakeTheirSafeStates : Prop :=
  (∀ (s : State) (g : Nat), (s.fioGroup g).created → 5 ≤ s.sys.stage → s.sys.stage < 12 → (s.fioGroup g).accepted = false →
    (s.fioGroup g).handshakeFail = false → ∃ t, exec (.fioHandshake g true) s = .next t ∧ (t.fioGroup g).accepted = true ∧
      (t.fioGroup g).wdSafe = false ∧ (t.fioGroup g).link = true ∧
      (∀ n ∈ groupChans g, (s.fioCh n).isOutput → (t.fioCh n).safeState = true ∧ (t.fioCh n).holdLevel = false ∧
        ((s.fioCh n).lead → t.Governed n)) ∧ OnlyTouches [.fresh, .fio, .log, .chk, .diag] s t) ∧
  (∀ (s : State) (g : Nat), (s.fioGroup g).created → 5 ≤ s.sys.stage → s.sys.stage < 12 → (s.fioGroup g).accepted = false →
    (s.fioGroup g).handshakeFail = false → ∃ t, exec (.fioHandshake g false) s = .next t ∧ (t.fioGroup g).accepted = false ∧
      (t.fioGroup g).handshakeFail = true ∧ (t.fioGroup g).handshakeAt = s.now ∧ t.fio.event.bits.getLsbD 6 = true ∧
      (∀ n ∈ groupChans g, (s.fioCh n).isOutput → (s.fioCh n).lead → (t.fioCh n).driven = false) ∧
      OnlyTouches [.fresh, .fio, .log, .chk, .diag] s t) ∧
  (∀ (s : State) (g : Nat), (s.fioGroup g).accepted → (s.fioGroup g).wdSafe = false → s.passed (s.fioGroup g).lastTx (s.fioGroup g).cfg.wdTime →
    ∃ t, exec (.fioWatchdog g) s = .next t ∧ (t.fioGroup g).wdSafe = true ∧ (t.fioGroup g).expiry = some (s.ts32, s.now) ∧
      (∀ n ∈ groupChans g, (s.fioCh n).isOutput → (t.fioCh n).safeState = true ∧ (t.fioCh n).holdLevel = (s.fioCh n).driven ∧
        (t.fioCh n).cmd = (s.fioCh n).cmd ∧ ((s.fioCh n).lead → t.Governed n)) ∧ OnlyTouches [.fresh, .fio, .log, .diag] s t) ∧
  ∀ (s : State) (g mv : Nat), g < s.fio.groups.length → (s.fioGroup g).level.num < (lplusLevel mv).num →
    ∃ t, exec (.fioSupply g mv) s = .next t ∧ (t.fioGroup g).level = lplusLevel mv ∧ (t.fioGroup g).lplusMv = mv ∧
      (t.fioGroup g).accepted = ((s.fioGroup g).accepted && decide (9000 ≤ mv)) ∧ t.fio.event.bits.getLsbD 0 = true ∧
      (∀ n ∈ groupChans g, (s.fioCh n).isOutput → (s.fioCh n).lead →
        t.Governed n ∧ (lplusLevel mv = .undervolt → (t.fioCh n).driven = false)) ∧ OnlyTouches [.fresh, .fio, .log, .diag] s t

/-- R309, R318 to R321, R323, R329: a command becomes the commanded level 1.2 µs after it was sent, unless a scheduled edge acted in the same tick;
the lockouts, overtemperature and HELD_OFF keep an output off until what ends them; after each of these the switches stand as the first applicable
row of R321 says. -/
def Obligations.OutputsFollowTheirGovernor : Prop :=
  (∀ (s : State) (ch : Nat) (level : Bool) (u : Ns) (l : List (Bool × Ns)), (s.fioCh ch).sent = (level, u) :: l → s.passed u 1200 →
    ∃ t, exec (.fioOutputCommand ch) s = .next t ∧ (t.fioCh ch).cmd = (if (s.fioCh ch).edgeAt = some s.now then (s.fioCh ch).cmd else level) ∧ (t.fioCh ch).sent = l ∧ t.Governed ch ∧
      OnlyTouches [.fresh, .fio, .log, .diag] s t) ∧
  (∀ (s : State) (b ch : Nat) (level : Bool), s.ctlCmd b = some (.fioSet ch level) → s.gangLead ch < s.fio.chans.length →
    ∃ t, exec (.fioSet b) s = .next t ∧ DoneOn b 0 t ∧
      t.fioCh (s.gangLead ch) = { s.fioCh (s.gangLead ch) with sent := (s.fioCh (s.gangLead ch)).sent ++ [(level, s.now)] } ∧
      OnlyTouches [.fio, .host] s t) ∧
  (∀ (s : State) (ch n : Nat) (limit : Bool), s.gangLead ch = n → (s.fioCh n).isOutput → (s.fioCh n).driven →
    ∃ t, exec (.fioOverload ch limit) s = .next t ∧ (t.fioCh n).lockedOff = some s.now ∧ (t.fioCh n).lockOverload = true ∧
      (t.fioCh n).driven = false ∧ (t.fioCh n).diag.bits.getLsbD 0 = true ∧ (t.fioCh n).cmd = (s.fioCh n).cmd ∧
      (limit = false → (t.fioCh n).budget = 0 ∧ (t.fioCh n).diag.bits.getLsbD 1 = true) ∧ OnlyTouches [.fresh, .fio, .log, .diag] s t) ∧
  (∀ (s : State) (ch n : Nat), s.gangLead ch = n → (s.fioCh n).lockOverload → (s.fioCh n).cmd → (s.fioCh n).retries < (s.fioCh n).ovlRetry →
    s.passedSince (s.fioCh n).lockedOff (secs 1) → ∃ t, exec (.fioOvlRetry ch) s = .next t ∧ (t.fioCh n).lockedOff = none ∧
      (t.fioCh n).retries = (s.fioCh n).retries + 1 ∧ t.Governed n ∧ OnlyTouches [.fresh, .fio, .log, .diag] s t) ∧
  (∀ (s : State) (b ch n : Nat), s.ctlCmd b = some (.fioClear ch) → s.gangLead ch = n → n < s.fio.chans.length →
    ∃ t, exec (.fioClear b) s = .next t ∧ DoneOn b 0 t ∧ (t.fioCh n).lockedOff = none ∧ (t.fioCh n).lockOverload = false ∧
      (t.fioCh n).restarts = [] ∧ t.Governed n ∧ OnlyTouches [.fresh, .fio, .log, .host, .diag] s t) ∧
  (∀ (s : State) (ch n : Nat), s.gangLead ch = n → (s.fioCh n).isOutput → (s.fioCh n).overtemp = false →
    ∃ t, exec (.fioOvertemp ch true) s = .next t ∧ (t.fioCh n).overtemp = true ∧ (t.fioCh n).driven = false ∧
      (t.fioCh n).diag.bits.getLsbD 3 = true ∧ OnlyTouches [.fresh, .fio, .log, .diag] s t) ∧
  (∀ (s : State) (ch n : Nat), s.gangLead ch = n → (s.fioCh n).isOutput → (s.fioCh n).overtemp →
    ∃ t, exec (.fioOvertemp ch false) s = .next t ∧ (t.fioCh n).overtemp = false ∧ t.Governed n ∧
      ((s.fioCh n).cmd → 2 ≤ ((s.fioCh n).restarts.filter fun u => s.now < u + secs 60).length → (t.fioCh n).lockedOff = some s.now) ∧
      OnlyTouches [.fresh, .fio, .log, .diag] s t) ∧
  (∀ (s : State) (g id n : Nat) (e : SchedEdge), (s.fioGroup g).sched.find? (·.id == id) = some e → (s.fioGroup g).schedWait = [] →
    s.gangLead e.ch = n → n < s.fio.chans.length → e.time ≤ s.ltc → ∃ t, exec (.fioSchedEdge g id) s = .next t ∧
      (t.fioGroup g).sched = (s.fioGroup g).sched.filter (·.id != id) ∧ (t.fioCh n).cmd = e.level ∧ t.Governed n ∧
      OnlyTouches [.fresh, .fio, .log, .diag] s t) ∧
  ∀ (s : State) (b ch n : Nat), s.ctlCmd b = some (.fioResume ch) → s.gangLead ch = n → n < s.fio.chans.length →
    ∃ t, exec (.fioResume b) s = .next t ∧ DoneOn b 0 t ∧ (t.fioCh n).heldOff = false ∧ t.Governed n ∧
      OnlyTouches [.fresh, .fio, .log, .host, .diag] s t

/-- R325 to R328: tests run only in a group with its handshake and its supply at NORMAL or SAG; a dark pulse opens the output and ends on it again;
one that does not show off is a detection, naming the partner whose current rose; open wire, indeterminate pins and backfeed set their bits,
flagged. -/
def Obligations.DiagnosisSetsItsBits : Prop :=
  (∀ (s : State) (ch n : Nat) (l : List (Nat × Nat)), s.gangLead ch = n → (s.fioCh n).darkPulse → (s.fioCh n).driven →
    (s.fioGroup (groupOf n)).testing → s.edgeNear n = false → s.pulseFree n →
    ∃ t, exec (.fioDarkPulse { ch := ch, fell := none, rises := l }) s = .next t ∧ (t.fioCh n).pulse = .dark ∧ (t.fioCh n).pulseAt = some s.now ∧
      (t.fioCh n).driven = false ∧ (t.fioCh n).cmd = (s.fioCh n).cmd ∧ OnlyTouches [.fresh, .fio, .log, .diag] s t) ∧
  (∀ (s : State) (ch n : Nat) (l : List (Nat × Nat)), s.gangLead ch = n → (s.fioCh n).pulse = .dark →
    s.passedSince (s.fioCh n).pulseAt (s.fioGroup (groupOf n)).cfg.dpWidth →
    ∃ t, exec (.fioDarkPulse { ch := ch, fell := some true, rises := l }) s = .next t ∧ (t.fioCh n).pulse = .none ∧ t.Governed n ∧
      (t.fioCh n).diag = (s.fioCh n).diag ∧ OnlyTouches [.fresh, .fio, .log, .diag] s t) ∧
  (∀ (s : State) (ch n m : Nat), s.gangLead ch = n → (s.fioCh n).pulse = .dark → (s.fioGroup (groupOf n)).testing →
    s.passedSince (s.fioCh n).pulseAt (s.fioGroup (groupOf n)).cfg.dpWidth → s.gangLead m = m → m ≠ n → m < s.fio.chans.length →
    10000 ≤ (s.fioCh n).current →
    ∃ t, exec (.fioDarkPulse { ch := ch, fell := some false, rises := [(m, (s.fioCh n).current)] }) s = .next t ∧
      (t.fioCh n).partner = some m ∧ (t.fioCh m).partner = some n ∧ (t.fioCh n).diag.bits.getLsbD 5 = true ∧
      (t.fioCh m).diag.bits.getLsbD 5 = true ∧ t.fio.event.bits.getLsbD 1 = true ∧ OnlyTouches [.fresh, .fio, .log, .diag] s t) ∧
  (∀ (s : State) (ch n : Nat), s.gangLead ch = n → (s.fioCh n).isOutput → (s.fioCh n).cmd = false → (s.fioGroup (groupOf n)).testing →
    ∃ t, exec (.fioBackfeedProbe { ch := ch, fellDuring := [] }) s = .next t ∧ t.fioCh n = { s.fioCh n with diag := (s.fioCh n).diag.raise 4 } ∧
      t.fio.event = s.fio.event.raise 1 ∧ t.log = (s.report .fioDiag n [4, (s.fioCh n).pinMv, (s.fioCh n).current]).log ∧ OnlyTouches [.fio, .log] s t) ∧
  (∀ (s : State) (ch n : Nat), s.gangLead ch = n → s.owActive n → ∃ t, exec (.fioOpenWire ch) s = .next t ∧
    t.fioCh n = { s.fioCh n with diag := (s.fioCh n).diag.raise 2, openWire := (s.fioCh n).openWire || (s.fioCh n).isInput } ∧
    t.fio.event = s.fio.event.raise 1 ∧ t.log = (s.report .fioDiag n [2, (s.fioCh n).pinMv, (s.fioCh n).current]).log ∧ OnlyTouches [.fio, .log] s t) ∧
  ∀ (s : State) (ch : Nat), (s.fioCh ch).isInput → (s.fioGroup (groupOf ch)).testing → ∃ t, exec (.fioIndeterminate ch) s = .next t ∧
    t.fioCh ch = { s.fioCh ch with diag := (s.fioCh ch).diag.raise 7, indeterminate := true } ∧ t.fioQuality ch ≠ .good ∧
    t.fio.event = s.fio.event.raise 1 ∧ OnlyTouches [.fio, .log] s t

/-- R341, R343 to R345: a release instant that finds the task's cycle over starts the next one, its snapshot taken at that tick; one that finds the
cycle still running is skipped, flagged and counted. An event releases an EVENT task, is latched, or is merged into the latched one. -/
def Obligations.TasksReleaseLatchAndSkip : Prop :=
  (∀ (s : State) (n : Nat) (x : Task), s.logic.phase = .running → s.task? n = some x → x.suspended = false → x.held = false → s.instantDue x →
    x.running = false → x.heldWrite = none → (s.taskGroup x.cfg.group).swapEnd ≤ s.now →
    ∃ t y, exec (.logicTaskRelease n) s = .next t ∧ t.task? n = some y ∧ y.running = true ∧ y.due = false ∧ y.latched = false ∧
      y.overrun = false ∧ y.lastRel = some s.now ∧ y.lastRelTs = s.ts32 ∧ y.releases = wrapInc 32 x.releases ∧ y.lastMask = x.mask ∧
      y.mask = 0 ∧ y.snap.tick = s.now ∧ y.snap.time = s.ltc ∧ y.snap.pos = s.tide.pos ∧ OnlyTouches [.logic, .log] s t) ∧
  (∀ (s : State) (n : Nat) (x : Task), s.logic.phase = .running → s.task? n = some x → x.suspended = false → x.held = false → s.instantDue x →
    x.running → x.cfg.kind.index s.ltc ≤ x.relIdx + 1 → (s.taskGroup x.cfg.group).swapEnd ≤ s.now →
    ∃ t y, exec (.logicTaskRelease n) s = .next t ∧ t.task? n = some y ∧ y.running = true ∧ y.overrun = true ∧
      y.skipped = satInc 16 x.skipped ∧ y.lastRel = x.lastRel ∧ y.releases = x.releases ∧ y.snap = x.snap ∧
      t.logic.event = s.logic.event.raise 0 ∧ (x.overrun → t.log = s.log) ∧ OnlyTouches [.logic, .log] s t) ∧
  (∀ (s : State) (n src mi : Nat) (l : List EventSource) (x : Task), s.task? n = some x → (n, src) ∈ s.logic.fired → x.cfg.kind = .event mi l →
    x.latched → ∃ t, exec (.logicEventSource n src) s = .next t ∧
      t.task? n = some { x with mask := x.mask ||| 2 ^ src, merged := satInc 16 x.merged } ∧
      t.logic.fired = s.logic.fired.erase (n, src) ∧ OnlyTouches [.logic] s t) ∧
  (∀ (s : State) (n src mi : Nat) (l : List EventSource) (x : Task), s.task? n = some x → (n, src) ∈ s.logic.fired → x.cfg.kind = .event mi l →
    x.latched = false → x.running → ∃ t, exec (.logicEventSource n src) s = .next t ∧
      t.task? n = some { x with mask := x.mask ||| 2 ^ src, latched := true } ∧
      t.logic.fired = s.logic.fired.erase (n, src) ∧ OnlyTouches [.logic] s t) ∧
  ∀ (s : State) (n src mi : Nat) (l : List EventSource) (x : Task), s.task? n = some x → (n, src) ∈ s.logic.fired → x.cfg.kind = .event mi l →
    x.latched = false → s.logic.phase = .running → x.suspended = false → x.running = false → x.lastRel.all (fun a => s.passed a mi) →
    x.heldWrite = none → (s.taskGroup x.cfg.group).swapEnd ≤ s.now → ∃ t y, exec (.logicEventSource n src) s = .next t ∧
      t.task? n = some y ∧ y.running = true ∧ y.lastMask = x.mask ||| 2 ^ src ∧ y.mask = 0 ∧ y.lastRel = some s.now ∧
      y.releases = wrapInc 32 x.releases ∧ y.snap.tick = s.now ∧ y.snap.eventMask = x.mask ||| 2 ^ src ∧
      t.logic.fired = s.logic.fired.erase (n, src) ∧ OnlyTouches [.logic, .log] s t

/-- R27, R348, R349, R361: the logic phase ends and its write leaves at once or waits for the next release; a write to a channel of owner TRIP is
counted and not sent, one to an own channel is sent. A commit completes in the buffer that does not hold S, which then holds S + 1. -/
def Obligations.WritesLeaveAndCommit : Prop :=
  (∀ (s : State) (x : WriteIn) (k : Task), s.logic.phase = .running → s.task? x.task = some k → k.running → k.preempted = false →
    k.cfg.writeAtNext → ∃ t y, exec (.logicOutputWrite x) s = .next t ∧ t.task? x.task = some y ∧ y.running = false ∧
      y.heldWrite = some x.reqs ∧ y.exec = min (x.exec / 1000) 65535 ∧ y.execMax = max (min (x.exec / 1000) 65535) k.execMax ∧
      OnlyTouches [.logic] s t) ∧
  (∀ (s : State) (w ch : Nat) (e : Ns) (level : Bool) (k : Task), s.logic.phase = .running → s.task? w = some k → k.running →
    k.preempted = false → k.cfg.writeAtNext = false → (s.fioCh (s.gangLead ch)).owner = some .trip →
    ∃ t y, exec (.logicOutputWrite { task := w, exec := e, reqs := [.field ch level] }) s = .next t ∧ t.task? w = some y ∧
      y.running = false ∧ y.results = [false] ∧ t.logic.wrTripCh = satInc 16 s.logic.wrTripCh ∧ t.logic.wrTripChLast = ch ∧
      OnlyTouches [.logic] s t) ∧
  (∀ (s : State) (w ch m : Nat) (e : Ns) (level : Bool) (k : Task), s.logic.phase = .running → s.task? w = some k → k.running →
    k.preempted = false → k.cfg.writeAtNext = false → m = s.gangLead ch → (s.fioCh m).owner = some .logic → s.exportedOut m = false →
    s.gangLead m = m → m < s.fio.chans.length →
    ∃ t y, exec (.logicOutputWrite { task := w, exec := e, reqs := [.field ch level] }) s = .next t ∧ t.task? w = some y ∧
      y.running = false ∧ y.results = [true] ∧ t.fioCh m = { s.fioCh m with sent := (s.fioCh m).sent ++ [(level, s.now)] } ∧
      (∀ n, n ≠ m → t.fioCh n = s.fioCh n) ∧ OnlyTouches [.logic, .fio] s t) ∧
  ∀ (s : State) (m : Nat) (g : Group) (c : Commit), m < s.logic.groups.length → s.taskGroup m = g → g.busy = some c → g.waiting = none →
    s.passed g.busySince g.commitTime → ∃ t h, exec (.logicCommitDone m) s = .next t ∧ t.taskGroup m = h ∧ h.seq = g.seq + 1 ∧
      h.inBuf1 = !g.inBuf1 ∧ h.busy = none ∧ h.lastLines = g.busyLines ∧ (if g.inBuf1 then h.buf1 else h.buf0) = (if g.inBuf1 then g.buf1 else g.buf0) ∧
      (if g.inBuf1 then h.buf0 else h.buf1) =
        { valid := true, seq := g.seq + 1, layout := c.layout, cycles := c.cycles, vars := c.vars, insts := c.insts } ∧
      OnlyTouches [.logic] s t

/-- R356 to R358: a halt and a stop abandon the running cycles, command every output of LOGIC to its SAFE setting and clear LOGIC's additions and
masks; a start runs the live program. Each sets its bit; a command that the state does not accept is refused. -/
def Obligations.EngineStopsHaltsAndStarts : Prop :=
  (∀ (s : State) (ecc : Bool), s.logic.phase = .running →
    ecc = true ∨ s.logic.tasks.any (fun x => x.running && s.passedSince x.lastRel (8 * s.taskPeriod x)) →
    ∃ t, exec (.logicHalt ecc) s = .next t ∧ t.logic.phase = .halted ∧ t.logic.haltCause = (if ecc then .ecc else .overlong) ∧
      (∀ x ∈ t.logic.tasks, x.running = false ∧ x.heldWrite = none ∧ x.due = false) ∧
      (∀ x ∈ t.prot.trips, x.logicAdd = false ∧ x.logicMask = false) ∧ (∀ x ∈ t.prot.elems, x.logicBlock = false) ∧
      (∀ n < 192, n < s.fio.chans.length → (s.fioCh n).owner = some .logic → s.gangLead n = n →
        (t.fioCh n).sent = (s.fioCh n).sent ++ [((match (s.fioCh n).safe with
          | .off => false
          | .on => true
          | .hold => (s.fioCh n).driven), s.now)]) ∧
      t.logic.event = s.logic.event.raise 3 ∧ t.log = (s.report .logicHalt 0xFFFF [if ecc then 2 else 1]).log ∧
      OnlyTouches [.prot, .logic, .fio, .log] s t) ∧
  (∀ (s : State) (b : Nat), s.ctlCmd b = some .logicStop → s.logic.phase = .running → ∃ t, exec (.logicStop b) s = .next t ∧ DoneOn b 0 t ∧
    t.logic.phase = .stopped ∧ (∀ x ∈ t.logic.tasks, x.running = false ∧ x.heldWrite = none) ∧
    (∀ x ∈ t.prot.trips, x.logicAdd = false ∧ x.logicMask = false) ∧ t.logic.event = s.logic.event.raise 2 ∧
    t.log = (s.report .logicStop 0xFFFF []).log ∧ OnlyTouches [.prot, .logic, .fio, .log, .host] s t) ∧
  (∀ (s : State) (b : Nat), s.ctlCmd b = some .logicStop → s.logic.phase ≠ .running → ∃ t, exec (.logicStop b) s = .next t ∧
    RefusedOn b s.logicStatus t ∧ t.logic = s.logic ∧ OnlyTouches [.log, .host] s t) ∧
  (∀ (s : State) (b : Nat) (warm : Bool), s.ctlCmd b = some (.logicStart warm) → s.logic.phase = .stopped ∨ s.logic.phase = .halted →
    ∃ t, exec (.logicStart b) s = .next t ∧ DoneOn b 0 t ∧ t.logic.phase = .running ∧ t.logic.haltCause = .none ∧
      t.logic.prog = s.manifest.logic ∧ t.logic.tasks.map (·.cfg) = s.manifest.logic.tasks ∧ (∀ x ∈ t.logic.tasks, x.running = false) ∧
      t.logic.event.bits.getLsbD 1 = true ∧ OnlyTouches [.logic, .log, .chk, .host] s t) ∧
  ∀ (s : State) (b : Nat) (warm : Bool), s.ctlCmd b = some (.logicStart warm) → s.logic.phase = .running ∨ s.logic.phase = .idle →
    ∃ t, exec (.logicStart b) s = .next t ∧ RefusedOn b s.logicStatus t ∧ t.logic = s.logic ∧ OnlyTouches [.log, .host] s t

/-- R340, R350, R363 to R365: the host reads variables, writes one for the next snapshot, fires a command source and stages a program; a group swaps
to the new program at an instant at which none of its tasks runs, or keeps its old one after 1 s and MIXED shows. -/
def Obligations.HostReachesProgramsAndExchanges : Prop :=
  (∀ (s : State) (b : Nat) (l : List Nat), s.ctlCmd b = some (.logicRead l) → ∃ t, exec (.logicRead b) s = .next t ∧
    DoneOn b (BitVec.ofInt 64 ((s.logicValues l).headD 0)) t ∧ OnlyTouches [.host] s t) ∧
  (∀ (s : State) (b a : Nat) (v : Int), s.ctlCmd b = some (.logicWrite a v) → ∃ t, exec (.logicWrite b) s = .next t ∧ DoneOn b 0 t ∧
    t.logic = { s.logic with hostWrites := s.logic.hostWrites.filter (·.1 != a) ++ [(a, v)] } ∧ OnlyTouches [.logic, .host] s t) ∧
  (∀ (s : State) (b n mi p : Nat) (l : List EventSource) (x : Task), s.ctlCmd b = some (.logicEvent n p) → s.task? n = some x →
    x.cfg.kind = .event mi l → .command ∈ l → ∃ t, exec (.logicEvent b) s = .next t ∧ DoneOn b 0 t ∧
      t.logic = { s.logic with fired := s.logic.fired ++ [(n, l.idxOf .command)] } ∧ OnlyTouches [.logic, .host] s t) ∧
  (∀ (s : State) (b : Nat) (p : LogicCfg) (ok : Bool), s.ctlCmd b = some (.logicStage p ok) → ∃ t, exec (.logicStage b) s = .next t ∧
    DoneOn b 0 t ∧ t.logic = { s.logic with staged := some { prog := p, sigOk := ok } } ∧ OnlyTouches [.logic, .host] s t) ∧
  (∀ (s : State) (m : Nat) (x : Exchange), s.logic.exch = some x → (s.taskGroup m).exchPending → s.groupQuiet m →
    ∃ t, exec (.logicExchange m) s = .next t ∧ (t.taskGroup m).prog = x.prog ∧ (t.taskGroup m).exchPending = false ∧
      s.now ≤ (t.taskGroup m).swapEnd ∧ (t.taskGroup m).swapEnd ≤ s.now + 200000 ∧ t.logic.prog = x.prog ∧
      t.logic.event = s.logic.event.raise 5 ∧ (∀ k, k ≠ m → t.taskGroup k = s.taskGroup k) ∧ OnlyTouches [.fresh, .logic, .log] s t) ∧
  ∀ (s : State) (m : Nat) (x : Exchange), s.logic.exch = some x → (s.taskGroup m).exchPending → s.passed x.committedAt (secs 1) →
    ∃ t, exec (.logicExchFail m) s = .next t ∧ t.taskGroup m = { s.taskGroup m with exchPending := false } ∧ t.logic.mixed = true ∧
      t.logic.event = s.logic.event.raise 6 ∧ t.log = (s.report .logicExchFail m [m]).log ∧ t.logic.tasks = s.logic.tasks ∧
      OnlyTouches [.logic, .log] s t

/-- R353 to R355: a station sends its exported inputs each period; an accepted payload brings its slot UP and an OUT payload moves the outputs; a bad
check is counted. Without payloads for its time the master's slot drops, and the station commands its exported outputs to SAFE. -/
def Obligations.StationsExchangePayloads : Prop :=
  (∀ (s : State) (n : Nat) (x : Station), s.station n = x → x.isStation → 9 ≤ s.sys.stage → s.passed x.lastTx x.period →
    ∃ t, exec (.rioInSend n) s = .next t ∧
      t.station n = { x with
        aliveTx := wrapInc 8 x.aliveTx, lastTx := s.now
        txValues := (s.exportNow x).1, txValid := (s.exportNow x).2.1, txQuest := (s.exportNow x).2.2 } ∧
      t.adeid = (s.adeidSend x.node false (.rio {
        out := false, alive := x.aliveTx, station := s.sec.device, ts := s.ts32
        values := (s.exportNow x).1, valid := (s.exportNow x).2.1, quest := (s.exportNow x).2.2 })).adeid ∧ OnlyTouches [.logic, .adeid] s t) ∧
  (∀ (s : State) (src n : Nat) (p : RioPayload) (x : Station), s.logic.stations.zipIdx.find? (fun x => x.1.phase != .none && x.1.node == src &&
      x.1.isStation == p.out && (if p.out then p.station == s.sec.device else x.1.device == p.station)) = some (x, n) →
    p.checkOk → x.mismatch = false → (p.out → s.logic.phase ≠ .idle) → (x.aliveRx.test 8 16 true p.alive).1.accepted →
    ∃ t y, exec (.rioPayloadRx src p) s = .next t ∧ t.station n = y ∧ y.phase = .up ∧ y.since = s.now ∧ y.lastRxTs = p.ts ∧
      y.values = p.values ∧ y.valid = p.valid ∧ y.quest = p.quest ∧ y.safe = false ∧
      (p.out = false → t.fio = s.fio ∧ t.logic.event = if x.phase = .dropped then s.logic.event.raise 8 else s.logic.event) ∧
      (p.out → t.fio = (s.forEach (x.outputs.zipIdx.filter fun o => p.valid.getLsbD o.2) fun s o =>
        s.sendFio (s.gangLead o.1) (p.values.getLsbD o.2)).fio) ∧ OnlyTouches [.logic, .fio, .log, .chk, .adeid] s t) ∧
  (∀ (s : State) (src n : Nat) (p : RioPayload) (x : Station), s.logic.stations.zipIdx.find? (fun x => x.1.phase != .none && x.1.node == src &&
      x.1.isStation == p.out && (if p.out then p.station == s.sec.device else x.1.device == p.station)) = some (x, n) →
    p.checkOk = false → ∃ t, exec (.rioPayloadRx src p) s = .next t ∧ t.station n = { x with checkFails := satInc 8 x.checkFails } ∧
      t.chk = { s.chk with pathFail := updAt s.chk.pathFail 3 (satInc 32) } ∧ OnlyTouches [.logic, .chk] s t) ∧
  (∀ (s : State) (n : Nat) (x : Station), s.station n = x → x.isStation = false → x.phase = .up →
    s.nodeReach x.node = false ∨ s.passed x.since x.timeout → ∃ t y, exec (.logicStationDrop n) s = .next t ∧ t.station n = y ∧
      y.phase = .dropped ∧ y.dropNode = !s.nodeReach x.node ∧ y.drops = satInc 8 x.drops ∧ y.values = x.values ∧
      t.logic.event = s.logic.event.raise 7 ∧ t.log = (s.report .logicStationDrop n [n, b2n (!s.nodeReach x.node)]).log ∧
      OnlyTouches [.logic, .log] s t) ∧
  ∀ (s : State) (n : Nat) (x : Station), s.station n = x → x.isStation → x.safe = false → s.logic.phase ≠ .idle → s.passed x.since x.timeout →
    ∃ t y, exec (.logicStationSafe n) s = .next t ∧ t.station n = y ∧ y.safe = true ∧ y.phase = .dropped ∧ y.drops = satInc 8 x.drops ∧
      t.fio = (s.forEach x.outputs fun s n => s.commandSafe (s.gangLead n)).fio ∧ t.logic.event = s.logic.event.raise 11 ∧
      t.log = (s.report .logicStationSafe n [n]).log ∧ OnlyTouches [.logic, .fio, .log] s t

/-- R384, R386, R390, R391: an accepted CAPT_ARM empties both rings and arms the engine, CAPT_DISARM disarms it, CAPT_SET clamps POST_ROWS to the room
left, CAPT_LOCK and CAPT_UNLOCK lock and unlock; a lock lapses after LOCK_MAX. The other engines stay as they are, and a refused command changes
no engine. -/
def Obligations.EnginesArmSetAndLock : Prop :=
  (∀ (s : State) (b e : Nat), s.ctlCmd b = some (.captArm e) → s.refuseArm e = none → ∃ t, exec (.captArm b) s = .next t ∧ DoneOn b 0 t ∧
    (t.engine e).phase = .armed ∧ (t.engine e).armedAt = s.now ∧ (t.engine e).rows = [] ∧ (t.engine e).rowCount = 0 ∧
    (t.engine e).window = false ∧ (t.engine e).chgFull = false ∧ (t.engine e).num = (s.engine e).num ∧ (t.engine e).pre = (s.engine e).pre ∧
    (t.engine e).post = (s.engine e).post ∧ t.capt.event.bits.getLsbD 0 = true ∧ (∀ k, k ≠ e → t.engine k = s.engine k) ∧
    OnlyTouches [.capt, .log, .host] s t) ∧
  (∀ (s : State) (b e : Nat) (r : Refuse), s.ctlCmd b = some (.captArm e) → s.refuseArm e = some r → ∃ t, exec (.captArm b) s = .next t ∧
    RefusedOn b (s.engine e).status t ∧ t.capt = s.capt ∧ OnlyTouches [.log, .host] s t) ∧
  (∀ (s : State) (b e : Nat), s.ctlCmd b = some (.captDisarm e) → s.refuseDisarm e = none → ∃ t, exec (.captDisarm b) s = .next t ∧
    DoneOn b 0 t ∧ t.engine e = { s.engine e with phase := .disarmed } ∧ t.capt.event = s.capt.event.raise 3 ∧
    (∀ k, k ≠ e → t.engine k = s.engine k) ∧ OnlyTouches [.capt, .log, .host] s t) ∧
  (∀ (s : State) (b e pre post : Nat), s.ctlCmd b = some (.captSet e pre post) → s.refuseCaptSet e = none →
    ∃ t, exec (.captSet b) s = .next t ∧ DoneOn b 0 t ∧
      t.engine e = { s.engine e with
        pre := pre, post := min post ((s.engine e).maxRows - pre), clampedCfg := decide ((s.engine e).maxRows - pre < post) } ∧
      ((s.engine e).maxRows - pre < post → t.capt.event = s.capt.event.raise 6) ∧
      (∀ k, k ≠ e → t.engine k = s.engine k) ∧ OnlyTouches [.capt, .log, .host] s t) ∧
  (∀ (s : State) (b e : Nat), s.ctlCmd b = some (.captLock e) → s.refuseLock e = none → ∃ t, exec (.captLock b) s = .next t ∧ DoneOn b 0 t ∧
    t.engine e = { s.engine e with locked := some s.now } ∧ (∀ k, k ≠ e → t.engine k = s.engine k) ∧ OnlyTouches [.capt, .host] s t) ∧
  (∀ (s : State) (b e : Nat), s.ctlCmd b = some (.captUnlock e) → ∃ t, exec (.captUnlock b) s = .next t ∧ DoneOn b 0 t ∧
    (t.engine e).locked = none ∧ (∀ k, k ≠ e → t.engine k = s.engine k) ∧ OnlyTouches [.capt, .host] s t) ∧
  ∀ (s : State) (e : Nat), s.passedSince (s.engine e).locked (s.engine e).cfg.lockMax → ∃ t, exec (.captLockLapsed e) s = .next t ∧
    t.engine e = { s.engine e with locked := none } ∧ t.capt.event = s.capt.event.raise 7 ∧
    t.log = (s.report .captLockLapsed e).log ∧ (∀ k, k ≠ e → t.engine k = s.engine k) ∧ OnlyTouches [.capt, .log] s t

/-- R382 to R384, R388 to R390: the first report of an armed engine triggers it, opens the coincidence window and takes the next capture number; later
ones join the window and, past it, change neither trigger nor number. After 25 ms the decision is final and names every condition that met the
trigger row; the last post-trigger row ends the capture with a valid descriptor. -/
def Obligations.TriggersOpenOneWindow : Prop :=
  (∀ (s : State) (b e : Nat) (it : Item), s.ctlCmd b = some (.captTrigger e) → s.item b = some it → s.refuseTrigger e = none →
    ∃ t, exec (.captManualTrigger b) s = .next t ∧ DoneOn b 0 t ∧ (t.engine e).phase = .triggered ∧ (t.engine e).window = true ∧
      (t.engine e).firstAt = s.now ∧ (t.engine e).num = ((s.engine e).num + 1) % 2 ^ 32 ∧
      (t.engine e).reports.map (·.cond) = (s.engine e).condsOf (fun c => c == .manual) ∧
      (∀ r ∈ (t.engine e).reports, r.time = s.ltc - (s.now - it.tAdmit)) ∧ (∀ k, k ≠ e → t.engine k = s.engine k) ∧
      OnlyTouches [.logic, .capt, .host] s t) ∧
  (∀ (s : State) (e c : Nat) (r : Report), (s.engine e).met.find? (·.cond == c) = some r → (s.engine e).phase = .armed →
    ∃ t, exec (.captConditionMet e c) s = .next t ∧ (t.engine e).phase = .triggered ∧ (t.engine e).window = true ∧ (t.engine e).firstAt = s.now ∧
      (t.engine e).reports = [r] ∧ (t.engine e).num = ((s.engine e).num + 1) % 2 ^ 32 ∧ (t.engine e).met = (s.engine e).met.erase r ∧
      (t.engine e).trigIdx = (s.engine e).idxOf r.time ∧ (∀ k, k ≠ e → t.engine k = s.engine k) ∧ OnlyTouches [.logic, .capt] s t) ∧
  (∀ (s : State) (e c : Nat) (r : Report), (s.engine e).met.find? (·.cond == c) = some r → (s.engine e).phase = .triggered →
    ∃ t, exec (.captConditionMet e c) s = .next t ∧ (t.engine e).phase = .triggered ∧ (t.engine e).window = (s.engine e).window ∧
      (t.engine e).firstAt = (s.engine e).firstAt ∧ (t.engine e).num = (s.engine e).num ∧ (t.engine e).met = (s.engine e).met.erase r ∧
      (t.engine e).reports = (if (s.engine e).window then (s.engine e).reports ++ [r] else (s.engine e).reports) ∧
      ((s.engine e).window = false → (t.engine e).trigIdx = (s.engine e).trigIdx) ∧
      (∀ k, k ≠ e → t.engine k = s.engine k) ∧ OnlyTouches [.capt] s t) ∧
  (∀ (s : State) (e : Nat), (s.engine e).window → (s.engine e).phase = .triggered → s.passed (s.engine e).firstAt (msec 25) →
    ∃ t, exec (.captWindowEnd e) s = .next t ∧ (t.engine e).window = false ∧ (t.engine e).phase = .triggered ∧
      (∀ r ∈ (s.engine e).reports, r.cond < 64 → (s.engine e).idxOf r.time = (s.engine e).trigIdx →
        (t.engine e).mask.getLsbD r.cond = true ∧ (t.engine e).primary ≤ r.cond) ∧
      (t.engine e).desc.valid = false ∧ (t.engine e).desc.captNum = (s.engine e).num ∧ (t.engine e).desc.mask = (t.engine e).mask ∧
      (t.engine e).desc.device = s.sec.device ∧ (t.engine e).written = some (t.engine e).desc ∧ t.capt.event = s.capt.event.raise 1 ∧
      (∀ k, k ≠ e → t.engine k = s.engine k) ∧ OnlyTouches [.capt, .log] s t) ∧
  ∀ (s : State) (e : Nat), (s.engine e).phase = .triggered → (s.engine e).window = false → (s.engine e).post ≤ (s.engine e).fill →
    ∃ t, exec (.captDone e) s = .next t ∧ (t.engine e).phase = .done ∧ (t.engine e).desc.valid = true ∧ (t.engine e).written = some (t.engine e).desc ∧
      (t.engine e).rows = (s.engine e).rows ∧
      (t.engine e).num = (s.engine e).num ∧ t.capt.event.bits.getLsbD 2 = true ∧
      (∀ k, k ≠ e → t.engine k = s.engine k) ∧ OnlyTouches [.capt, .log] s t

/-- R391, R480, R596: BAR2 reads the capture partition little-endian and drops writes; while the DRAM PHY retrains a read aborts with its cause, an
uncorrectable error poisons the read and marks the capture. An offset of 8 GiB or more is outside the BAR, which the model stops on by name. -/
def Obligations.Bar2ReadsAndDropsWrites : Prop :=
  (∀ (s : State) (o : Nat), o < 2 ^ 33 → s.clk.dramRetraining = false → s.clk.isStopped 5 = false →
    ∃ t, exec (.bar2Read o false) s = .next t ∧
      t.host.accesses = .data (BitVec.ofNat 32 (ofLe ((List.range 4).map fun i => s.captByte (o / 4 * 4 + i)))) :: s.host.accesses ∧
      OnlyTouches [.host] s t) ∧
  (∀ (s : State) (o : Nat) (e : Bool), o < 2 ^ 33 → s.clk.dramRetraining → ∃ t, exec (.bar2Read o e) s = .next t ∧
    t.host.accesses = .abort :: s.host.accesses ∧ t.host.err = 1 ∧ t.host.errBar = 1 ∧ t.host.errWrite = false ∧
    t.host.errCount = satInc 16 s.host.errCount ∧ t.host.event.bits.getLsbD 6 = true ∧ OnlyTouches [.host] s t) ∧
  (∀ (s : State) (o e : Nat), o < 2 ^ 33 → s.clk.dramRetraining = false → s.clk.isStopped 5 = false → s.captAt (o / 4 * 4) = some e →
    ∃ t, exec (.bar2Read o true) s = .next t ∧ t.host.accesses = .poisoned :: s.host.accesses ∧
      t.host.bar2Poisoned = satInc 16 s.host.bar2Poisoned ∧ (t.engine e).desc.eccErr = true ∧ t.capt.event = s.capt.event.raise 8 ∧
      t.log = (s.report .captEcc e [o / 4 * 4]).log ∧ OnlyTouches [.capt, .log, .host] s t) ∧
  (∀ (s : State) (o : Nat), o < 2 ^ 33 → ∃ t, exec (.bar2Write o) s = .next t ∧
    t.host = { s.host with bar2Drop := satInc 16 s.host.bar2Drop, accesses := .written :: s.host.accesses } ∧ OnlyTouches [.host] s t) ∧
  ∀ (s : State) (o : Nat) (e : Bool), 2 ^ 33 ≤ o → exec (.bar2Read o e) s = .fault .outsideBar2 ∧ exec (.bar2Write o) s = .fault .outsideBar2

/-- R407, R408, R410 to R412: LOG takes in the oldest reported event: it is left unselected, counted as lost, merged into the newest entry of its
identity, or placed behind the staged ones; the ring never takes an event while 255 places are in use. -/
def Obligations.EventsAreTakenMergedOrLost : Prop :=
  (∀ (s : State) (e : Event) (l : List Event), s.log.reported = e :: l → s.log.lastwords = false → (s.logSetting e.name).record →
    s.log.stagingOpen → s.log.bothFail = false → (s.logSetting e.name).merge = false → s.log.overflow = none → s.log.staging.length < 255 →
    ∃ t n, exec .logIntake s = .next t ∧ t.log.reported = l ∧ t.log.staging = s.log.staging ++ [n] ∧ n.rcd.name = e.name ∧
      n.rcd.source = e.source ∧ n.rcd.time = e.time.getD s.ltc ∧ n.rcd.payload = e.payload ∧ n.rcd.sev = s.logSeverity e.name ∧
      n.rcd.tq = s.tq ∧ n.count = 0 ∧ t.log.lostTotal = s.log.lostTotal ∧ OnlyTouches [.log, .snaps] s t) ∧
  (∀ (s : State) (e : Event) (l : List Event) (n : StageEntry), s.log.reported = e :: l → s.log.lastwords = false →
    (s.logSetting e.name).record → s.log.stagingOpen → s.log.bothFail = false → (s.logSetting e.name).merge →
    s.log.staging.getLast? = some n → n.rcd.name = e.name → n.rcd.source = e.source →
    ∃ t m, exec .logIntake s = .next t ∧ t.log.reported = l ∧ t.log.staging = s.log.staging.dropLast ++ [m] ∧ m.rcd = n.rcd ∧
      m.count = n.count + 1 ∧ m.lastTime = e.time.getD s.ltc ∧ t.log.merged = wrapInc 32 s.log.merged ∧
      t.log.lostTotal = s.log.lostTotal ∧ OnlyTouches [.log, .snaps] s t) ∧
  (∀ (s : State) (e : Event) (l : List Event), s.log.reported = e :: l → s.log.lastwords = false → (s.logSetting e.name).record = false →
    ∃ t, exec .logIntake s = .next t ∧ t.log = { s.log with reported := l, unselected := satInc 32 s.log.unselected } ∧ OnlyTouches [.log] s t) ∧
  (∀ (s : State) (e : Event) (l : List Event), s.log.reported = e :: l → s.log.lastwords = false → (s.logSetting e.name).record →
    s.log.bothFail = false → (s.logSetting e.name).merge = false →
    s.log.stagingOpen = false ∨ s.log.overflow.isSome ∨ 255 ≤ s.log.staging.length →
    ∃ t o, exec .logIntake s = .next t ∧ t.log.reported = l ∧ t.log.staging = s.log.staging ∧
      t.log.lostTotal = satInc 32 s.log.lostTotal ∧ t.log.overflow = some o ∧ o.count = (s.log.overflow.map (·.count)).getD 0 + 1 ∧
      (s.log.overflow = none → t.log.event.bits.getLsbD 2 = true) ∧ OnlyTouches [.log, .snaps] s t) ∧
  ∀ s : State, ∃ t, exec .logStageRead s = .next t ∧ t.log = { s.log with peak := s.log.staging.length } ∧
    t.host.accesses = .data (fld 0 s.log.staging.length ||| fld 16 s.log.peak) :: s.host.accesses ∧ OnlyTouches [.log, .host] s t

/-- R405, R406, R409, R414, R415, R417, R420, R421: a commit gives the oldest entry the next sequence number and frees its place, an open tail closing
first; a commit that does not read back changes the bank, and in the reserve log latches BOTH_FAIL. A tail that has stood its time closes, and the
Hatches show records by sequence number. -/
def Obligations.CommitsNumberRecordsAndTailsClose : Prop :=
  (∀ (s : State) (e : StageEntry) (l : List StageEntry), s.log.ready → s.log.bothFail = false → s.log.staging = e :: l →
    (∀ x, s.log.tail = some x → x.count = 0) → s.log.overflow = none →
    ∃ t, exec (.logCommitDone true) s = .next t ∧ t.log.staging = l ∧ t.log.next = s.log.next + 1 ∧
      (if s.log.reserve then t.log.bankB else t.log.bankA).head? =
        some { e.rcd with seq := s.log.next, lastwords := s.log.lastwords } ∧
      (t.log.tail.isSome ↔ (s.logSetting e.rcd.name).merge) ∧ OnlyTouches [.log] s t) ∧
  (∀ (s : State) (e : StageEntry) (l : List StageEntry) (x : Tail), s.log.ready → s.log.bothFail = false → s.log.staging = e :: l →
    s.log.tail = some x → x.count ≠ 0 → ∃ t r, exec (.logCommitDone true) s = .next t ∧ t.log.staging = e :: l ∧ t.log.tail = none ∧
      t.log.next = s.log.next + 1 ∧ (if s.log.reserve then t.log.bankB else t.log.bankA).head? = some r ∧ r.name = .logRepeat ∧
      r.seq = s.log.next ∧ r.source = x.source ∧ r.payload = x.payload .another ∧ OnlyTouches [.log] s t) ∧
  (∀ (s : State) (e : StageEntry) (l : List StageEntry), s.log.ready → s.log.bothFail = false → s.log.staging = e :: l →
    (∀ x, s.log.tail = some x → x.count = 0) → s.log.overflow = none → s.log.reserve = false →
    ∃ t, exec (.logCommitDone false) s = .next t ∧ t.log.reserve = true ∧ t.log.bankFail = true ∧ t.log.frozenFirst = s.log.oldest ∧
      t.log.switch = s.log.next ∧ t.log.oldest = s.log.next ∧ t.log.bankA = s.log.bankA ∧ t.log.event = s.log.event.raise 0 ∧
      (e.count = 0 ∨ (s.logSetting e.rcd.name).merge = false →
        (t.log.bankB.take 2).map (fun r => (r.name, r.seq)) = [(.logBankFail, s.log.next + 1), (e.rcd.name, s.log.next)]) ∧
      (e.count ≠ 0 → (s.logSetting e.rcd.name).merge → (t.log.bankB.take 3).map (fun r => (r.name, r.seq)) =
        [(.logBankFail, s.log.next + 2), (.logRepeat, s.log.next + 1), (e.rcd.name, s.log.next)]) ∧ t.log.tail = none ∧
      OnlyTouches [.log] s t) ∧
  (∀ (s : State) (e : StageEntry) (l : List StageEntry), s.log.ready → s.log.bothFail = false → s.log.staging = e :: l → s.log.reserve →
    ∃ t, exec (.logCommitDone false) s = .next t ∧ t.log.bothFail = true ∧ t.log.event = s.log.event.raise 1 ∧ t.log.next = s.log.next ∧
      t.diag = { s.diag with alertLow := true } ∧ OnlyTouches [.log, .diag] s t) ∧
  (∀ (s : State) (x : Tail), s.log.tail = some x → x.count ≠ 0 → s.log.currentTail.tail ≠ some x → s.passed s.log.tailWritten 100000 →
    ∃ t, exec .logTailUpdate s = .next t ∧ t.log.currentTail.tail = some x ∧ t.log.currentTail.isOpen = true ∧ t.log.tailWritten = s.now ∧
      t.log.tail = s.log.tail ∧ t.log.next = s.log.next ∧ OnlyTouches [.log] s t) ∧
  (∀ (s : State) (x : Tail), s.log.tail = some x → x.count ≠ 0 → s.passed x.openedAt s.log.cfg.tailFoldMax →
    ∃ t, exec .logTailFold s = .next t ∧ t.log.next = s.log.next + 1 ∧
      t.log.tail = (if (s.logSetting x.name).merge then some { x with seq := s.log.next, count := 0 } else none) ∧ OnlyTouches [.log] s t) ∧
  (∀ (s : State) (h : Nat) (lo : Word), h < s.log.hatches.length → ∃ t, exec (.logHCursorWrite h lo) s = .next t ∧
    (nth t.log.hatches h {}).cursor = (nth s.log.hatches h {}).cursorHi ++ lo ∧ (∀ k, k ≠ h → nth t.log.hatches k {} = nth s.log.hatches k {}) ∧
    OnlyTouches [.log] s t) ∧
  (∀ (s : State) (h : Nat), h < 4 → (∀ i < 8, s.log.status ((nth s.log.hatches h {}).cursor.toNat + i) ≠ 1) →
    ∃ t, exec (.logHStatRead h) s = .next t ∧ t.host.accesses = .data (s.log.hatchStat h) :: s.host.accesses ∧
      t.log.checkFail = s.log.checkFail ∧ OnlyTouches [.log, .host] s t) ∧
  ∀ (s : State) (a : Ns) (tm n c : Nat), s.log.cfWindow = some (a, tm, n, c) → s.passed a (secs 1) →
    ∃ t e, exec .logCheckFailWindowEnd s = .next t ∧ t.log.cfWindow = none ∧ t.log.reported = s.log.reported ++ [e] ∧
      e.name = .logCheckFail ∧ e.time = some tm ∧ e.payload = .sized [(8, n), (4, c), (20, 0)] ∧ OnlyTouches [.log] s t

/-- R428 to R432, R435: a port goes down with its queues discarded and counted, or comes up where its lanes may train; an administered port goes DOWN
or UP, one of a gate-link or a zone's pair is refused; a damaged frame is counted and goes no further, but where it was being cut through; a frame
for a learnt unicast destination enters the one egress queue of its priority. Learnt addresses age out, and a gate list goes on to its next
interval. -/
def Obligations.PortsLinkFilterAndForward : Prop :=
  (∀ (s : State) (p m : Nat) (x : Port), s.port? p = some x → x.link → ∃ t, exec (.netLink p false m) s = .next t ∧
    t.port? p = some { x with
      link := false, linkChanges := satInc 8 x.linkChanges, queues := List.replicate 8 []
      drops := satAdd 16 x.drops (x.queues.map List.length).sum } ∧
    (∀ q, q ≠ p → t.port? q = s.port? q) ∧ t.net.event.bits.getLsbD 0 = true ∧ OnlyTouches [.log, .net, .ptp] s t) ∧
  (∀ (s : State) (p m : Nat) (x : Port), s.port? p = some x → x.link = false → s.laneUsable p → ∃ t, exec (.netLink p true m) s = .next t ∧
    t.port? p = some { x with link := true, linkChanges := satInc 8 x.linkChanges, speed := speedCode m } ∧
    (∀ q, q ≠ p → t.port? q = s.port? q) ∧ t.net.event.bits.getLsbD 0 = true ∧ OnlyTouches [.log, .net, .ptp] s t) ∧
  (∀ (s : State) (p m : Nat), s.laneUsable p = false → exec (.netLink p true m) s = .next s) ∧
  (∀ (s : State) (b p : Nat) (up : Bool), s.ctlCmd b = some (.netPortAdmin p up) → s.refusePort p = none →
    ∃ t, exec (.netPortAdmin b) s = .next t ∧ DoneOn b 0 t ∧ t.port? p = (s.port? p).map (fun x => { x with adminDown := !up }) ∧
      (∀ q, q ≠ p → t.port? q = s.port? q) ∧ OnlyTouches [.log, .net, .host] s t) ∧
  (∀ (s : State) (b p : Nat) (up : Bool) (r : Refuse), s.ctlCmd b = some (.netPortAdmin p up) → s.refusePort p = some r →
    ∃ t, exec (.netPortAdmin b) s = .next t ∧ RefusedOn b (s.netPStatus p) t ∧ t.net = s.net ∧ OnlyTouches [.log, .host] s t) ∧
  (∀ (s : State) (p : Nat) (f : Frame) (x : Port), s.takesFrames p → s.port? p = some x → 64 ≤ f.len → f.len ≤ 2048 → p ∉ s.cutTargets p f →
    ∃ t, exec (.netFrameRx { port := p, frame := f, fcsOk := false }) s = .next t ∧
      t.port? p = some { x with rxFrames := x.rxFrames + 1, fcsErr := satInc 32 x.fcsErr } ∧
      (∀ q, q ≠ p → q ∉ s.cutTargets p f → t.port? q = s.port? q) ∧
      t.chk = { s.chk with pathFail := updAt s.chk.pathFail 4 (satInc 32) } ∧ OnlyTouches [.net, .chk] s t) ∧
  (∀ (s : State) (p q : Nat) (f : Frame) (c : PortCfg) (y : Port), s.takesFrames p → 64 ≤ f.len → f.len ≤ 2048 → f.kind = .plain → f.vid = none →
    f.dst.toNat / 16 ≠ 0x0180C200000 → f.dst ≠ Config.ownMac → f.src ≠ f.dst → s.netCfg.port? p = some c → c.ingressFilter = false →
    s.netCfg.pairOf? p = none → s.netCfg.pairOf? q = none → s.lookup f.dst c.pvid = ([q], false) → (s.netCfg.members c.pvid).contains q →
    q ≠ p → s.port? q = some y → y.link → y.adminDown = false → c.defaultPcp < y.queues.length →
    y.hasRoom c.defaultPcp (s.egressForm q c.pvid { f with pcp := c.defaultPcp }).len →
    ∃ t z, exec (.netFrameRx { port := p, frame := f }) s = .next t ∧ t.port? q = some z ∧
      nth z.queues c.defaultPcp [] = nth y.queues c.defaultPcp [] ++ [{ frame := s.egressForm q c.pvid { f with pcp := c.defaultPcp }, at_ := s.now }] ∧
      z.drops = y.drops ∧ (∀ r, r ≠ p → r ≠ q → t.port? r = s.port? r) ∧ OnlyTouches [.net] s t) ∧
  (∀ s : State, ∃ t, exec .netMacAge s = .next t ∧
    t.net = { s.net with macs := s.net.macs.filter fun m => !s.passed m.seen s.netCfg.ageTime } ∧ OnlyTouches [.net] s t) ∧
  ∀ (s : State) (p : Nat) (x : Port) (c : PortCfg) (g : Gcl), s.port? p = some x → s.netCfg.port? p = some c → c.gcl = some g →
    x.gclRestart = none → x.gclActive → x.gclEnd ≤ s.ltc → ∃ t y, exec (.netGclEntry p) s = .next t ∧ t.port? p = some y ∧
      y.gclEntry = (if x.gclEntry + 1 < g.entries.length then x.gclEntry + 1 else 0) ∧
      y.gclEnd = x.gclEnd + (nth g.entries y.gclEntry { gates := 0, interval := 0 }).interval ∧ y.queues = x.queues ∧ OnlyTouches [.net] s t

/-- R438, R439: a pair sends its supervision frame each LIFE_CHECK under the next sequence number; it opens on a cause and closes when the causes have
ended; duplicate entries go after 400 ms, an unmatched one counted on its port, and nodes after 60 s. -/
def Obligations.PairsSuperviseAndForget : Prop :=
  (∀ (s : State) (k : Nat) (c : PairCfg) (x : Pair), s.pairCfg? k = some c → s.netCfg.pairOf? c.first = some c → s.pair? k = some x →
    s.passed x.lifeSent s.netCfg.lifeCheck → 6 ≤ s.sys.stage → s.sys.stage ≤ 11 →
    ∃ t y, exec (.hsrSupervisionSend k) s = .next t ∧ t.pair? k = some y ∧ y.lifeSent = s.now ∧ y.seq = (x.seq + 1) % 65536 ∧
      t.net.sent = s.net.sent ++ [.supervision k x.seq] ∧ OnlyTouches [.net] s t) ∧
  (∀ (s : State) (k p : Nat) (c : PairCfg) (x : Pair), s.pairCfg? k = some c → s.pair? k = some x → s.openCause c x = some p → x.open_ = false →
    ∃ t, exec (.netRingOpen k) s = .next t ∧ t.pair? k = some { x with open_ := true } ∧ t.net.event = s.net.event.raise 1 ∧
      t.log = (s.report .netRingOpen k [p]).log ∧ OnlyTouches [.log, .net] s t) ∧
  (∀ (s : State) (k : Nat) (c : PairCfg) (x : Pair), s.pairCfg? k = some c → s.pair? k = some x → s.openCause c x = none → x.open_ →
    ∃ t, exec (.netRingOpen k) s = .next t ∧ t.pair? k = some { x with open_ := false } ∧ t.net.event.bits.getLsbD 2 = true ∧
      OnlyTouches [.log, .net] s t) ∧
  (∀ (s : State) (k : Nat) (c : PairCfg) (x : Pair), s.pairCfg? k = some c → s.pair? k = some x → ∃ t y, exec (.hsrDupExpiry k) s = .next t ∧
    t.pair? k = some y ∧ y.table = x.table.filter (fun e => !s.passed e.at_ (msec 400)) ∧
    y.onlyFirst = satAdd 16 x.onlyFirst (x.table.filter fun e => s.passed e.at_ (msec 400) && !e.both && e.port == c.first).length ∧
    y.onlySecond = satAdd 16 x.onlySecond (x.table.filter fun e => s.passed e.at_ (msec 400) && !e.both && e.port == c.second).length ∧
    y.nodes = x.nodes ∧ OnlyTouches [.net] s t) ∧
  ∀ (s : State) (k : Nat) (x : Pair), s.pair? k = some x → ∃ t, exec (.hsrNodeExpiry k) s = .next t ∧
    t.pair? k = some { x with nodes := x.nodes.filter fun e => !s.passed e.seen (secs 60) } ∧ OnlyTouches [.net] s t

/-- R445 to R448: an accepted Sync steers the servo within ±200 ppm, or, beyond the step limit, waits as a candidate until a second one confirms it
and the counter steps; before time is known the first one steps. One that is not accepted changes nothing. A slew ends with its part closed. -/
def Obligations.SyncsSteerOrStep : Prop :=
  (∀ (s : State) (x : SyncIn), s.syncAccepted x = false → exec (.ptpSyncRx x) s = .next s) ∧
  (∀ (s : State) (x : SyncIn), s.syncAccepted x → s.ptp.degraded = false → s.ptp.timeKnown → (s.measured x).mag ≤ (s.ptpCfg.stepLimit : Sys2Proof.Num) →
    ∃ t, exec (.ptpSyncRx x) s = .next t ∧ t.ptp.phase = .tracking ∧ t.ptp.offsetLast = s.measured x ∧ t.ptp.eLast = s.measured x ∧
      t.ptp.tLast = s.now ∧ t.ptp.syncAt = s.now ∧ t.ptp.candidate = none ∧ -200 ≤ t.ptp.servoPpm ∧ t.ptp.servoPpm ≤ 200 ∧
      (t.ptp.slew = none ↔ (s.measured x).mag ≤ 1000) ∧ t.ptp.lockRun = (if (s.measured x).mag ≤ 1000 then s.ptp.lockRun + 1 else 0) ∧
      OnlyTouches [.diff, .log, .ptp] s t) ∧
  (∀ (s : State) (x : SyncIn), s.syncAccepted x → s.ptp.degraded = false → s.ptp.timeKnown → (s.ptpCfg.stepLimit : Sys2Proof.Num) < (s.measured x).mag →
    s.ptp.candidate = none → ∃ t, exec (.ptpSyncRx x) s = .next t ∧ t.ptp.candidate = some (s.measured x) ∧ t.ptp.lockRun = 0 ∧
      t.ptp.phase = .tracking ∧ t.ptp.eLast = s.ptp.eLast ∧ t.ptp.servoPpm = s.ptp.servoPpm ∧ t.ptp.steps = s.ptp.steps ∧
      OnlyTouches [.diff, .log, .ptp] s t) ∧
  (∀ (s : State) (x : SyncIn), s.syncAccepted x → s.ptp.degraded = false →
    s.ptp.timeKnown = false ∨ (s.ptpCfg.stepLimit : Sys2Proof.Num) < (s.measured x).mag ∧ s.ptp.candidate.isSome →
    ∃ t, exec (.ptpSyncRx x) s = .next t ∧ t.ltc = ((s.ltc : Int) + roundInt (-s.measured x)).toNat ∧ t.ptp.steps = satInc 16 s.ptp.steps ∧
      t.ptp.lastStep = -s.measured x ∧ t.ptp.timeKnown = true ∧ t.ptp.candidate = none ∧ t.ptp.slew = none ∧ t.ptp.eLast = 0 ∧
      t.ptp.event.bits.getLsbD 5 = true ∧ 
      OnlyTouches [.ltc, .fresh, .clk, .tide, .acq, .prot, .diff, .fio, .capt, .log, .net, .ptp, .diag] s t) ∧
  ∀ (s : State) (x : Slew), s.ptp.slew = some x → s.passed x.start x.length → ∃ t, exec .ptpSlewDone s = .next t ∧
    t.ptp = { s.ptp with slew := none, eLast := s.ptp.eLast - x.offset } ∧ OnlyTouches [.diff, .log, .ptp] s t

/-- R441 to R444, R446, R447: LOCKED sets after 8 Syncs near and clears when the estimate is not; two-step entries without their Follow_Up go after 1
s; peer delays are asked for, answered and measured; a master port sends its Announce and Sync; holdover starts without Syncs and ends FREE. -/
def Obligations.PlantTimeLocksMeasuresAndHolds : Prop :=
  (∀ s : State, s.ptp.locked → s.ptpNear = false ∨ s.ptp.degraded → ∃ t, exec .ptpLockChange s = .next t ∧
    t.ptp = { s.ptp with locked := false, event := s.ptp.event.raise 1 } ∧ t.log = (s.report .ptpUnlock).log ∧ OnlyTouches [.tide, .log, .ptp] s t) ∧
  (∀ s : State, s.ptp.locked = false → 8 ≤ s.ptp.lockRun → s.ptpNear → s.ptp.degraded = false → ∃ t, exec .ptpLockChange s = .next t ∧
    t.ptp = { s.ptp with locked := true, event := s.ptp.event.raise 0 } ∧ t.log = (s.report .ptpLock).log ∧ OnlyTouches [.tide, .log, .ptp] s t) ∧
  (∀ (s : State) (e : FollowEntry), e ∈ s.ptp.follow → s.passed e.at_ (secs 1) → ∃ t, exec .ptpFollowupLost s = .next t ∧
    t.ptp.follow = s.ptp.follow.filter (fun e => !s.passed e.at_ (secs 1)) ∧
    t.ptp.followLost = s.ptp.followLost + (s.ptp.follow.filter fun e => s.passed e.at_ (secs 1)).length ∧
    t.ptp.event = s.ptp.event.raise 7 ∧ OnlyTouches [.ptp] s t) ∧
  (∀ (s : State) (p : Nat) (q : PtpPort), s.ptpPort? p = some q → s.ptpRuns p → s.portUp p → s.ptp.phase ≠ .off →
    s.passed q.pdelayAt (logNs s.ptpCfg.logPdelay) → ∃ t, exec (.ptpPdelay (.send p)) s = .next t ∧
      t.ptpPort? p = some { q with pdelayAt := s.now } ∧ t.net.sent = s.net.sent ++ [.pdelayReq p] ∧ OnlyTouches [.net, .ptp] s t) ∧
  (∀ (s : State) (p : Nat), s.ptpRuns p → s.portUp p → s.ptp.phase ≠ .off → ∃ t, exec (.ptpPdelay (.request p)) s = .next t ∧
    t.net.sent = s.net.sent ++ [.pdelayResp p] ∧ OnlyTouches [.net] s t) ∧
  (∀ (s : State) (p : Nat) (q : PtpPort) (c : PortCfg) (tOut tIn turn : Sys2Proof.Num), s.ptpPort? p = some q → s.netCfg.port? p = some c →
    s.ptpRuns p → s.portUp p → s.ptp.phase ≠ .off → ∃ t, exec (.ptpPdelay (.done p tOut tIn turn)) s = .next t ∧
      t.ptpPort? p = some { q with
        meanDelay := some (((tIn - (c.delayIn : Sys2Proof.Num)) - (tOut + (c.delayOut : Sys2Proof.Num)) - turn) / 2) } ∧ OnlyTouches [.ptp] s t) ∧
  (∀ (s : State) (p k : Nat) (q : PtpPort), s.ptpPort? p = some q → s.bcClass = some k → s.ptpCfg.role = .bc → q.portState = 6 → s.portUp p →
    s.passed q.announceAt (secs 1) → s.passed q.syncAt (logNs s.ptpCfg.logSync) → ∃ t, exec (.ptpSend p) s = .next t ∧
      t.ptpPort? p = some { q with announceAt := s.now, syncAt := s.now } ∧
      t.net.sent = s.net.sent ++ [.announce p k (s.ptp.gmSteps + 1) (s.ptp.gmInacc.map (· + 50)), .sync p] ∧ OnlyTouches [.net, .ptp] s t) ∧
  (∀ s : State, s.ptp.phase = .tracking → s.passed s.ptp.syncAt (3 * logNs s.ptp.logSync) → ∃ t, exec .holdoverStart s = .next t ∧
    t.ptp.phase = .holdover ∧ t.ptp.holdSince = s.now ∧ t.ptp.servoPpm = s.meanRate ∧ t.ptp.event = s.ptp.event.raise 2 ∧
    t.log = (s.report .holdoverStart).log ∧ OnlyTouches [.log, .ptp] s t) ∧
  ∀ s : State, s.ptp.phase = .holdover → s.passed s.ptp.holdSince s.ptpCfg.holdoverMax → ∃ t, exec .ptpFree s = .next t ∧
    t.ptp = { s.ptp with phase := .free, event := s.ptp.event.raise 4 } ∧ t.log = (s.report .ptpFree).log ∧ OnlyTouches [.log, .ptp] s t

/-- R450, R451, R454: within the rate, a frame that agrees with the declaration replaces the values when its stNum is newer and only restarts the time
allowed to live when its sqNum is; one that does not agree makes the subscription INVALID, one beyond the rate is counted. Without frames for the
time allowed to live the values become INVALID. -/
def Obligations.GooseFramesReplaceValues : Prop :=
  (∀ (s : State) (f : GooseFrame) (c : GooseSub) (g : Gsub) (b : Bucket), s.net.intakeOpen →
    s.netCfg.gooseSubs.find? (fun c => c.dst == f.dst && c.appid == f.appid && c.gocbRef == f.gocbRef) = some c → s.gsub? c.sub = some g →
    (g.bucket.refill s.now c.rate 32).take = some b →
    (c.agrees f → (f.test → c.testAccept) → (f.simulation → c.simAccept) → g.anyNext ∨ newer f.stNum g.stNum →
      ∃ t h, exec (.gooseFrameRx f) s = .next t ∧ t.gsub? c.sub = some h ∧ h.values = c.read f ∧ h.valid = true ∧ h.stNum = f.stNum ∧
        h.sqNum = f.sqNum ∧ h.tal = f.tal ∧ h.lastRx = some s.now ∧ h.talExpired = false ∧ h.cfgBad = false ∧ h.bucket = b ∧
        OnlyTouches [.prot, .logic, .capt, .log, .net, .host] s t) ∧
    (c.agrees f → (f.test → c.testAccept) → (f.simulation → c.simAccept) → g.anyNext = false → f.stNum = g.stNum → newer f.sqNum g.sqNum →
      ∃ t h, exec (.gooseFrameRx f) s = .next t ∧ t.gsub? c.sub = some h ∧ h.values = g.values ∧ h.valid = g.valid ∧ h.sqNum = f.sqNum ∧
        h.lastRx = some s.now ∧ h.discarded = g.discarded ∧ OnlyTouches [.net] s t) ∧
    (c.agrees f = false → ∃ t h, exec (.gooseFrameRx f) s = .next t ∧ t.gsub? c.sub = some h ∧ h.valid = false ∧ h.cfgBad = true ∧
      h.anyNext = true ∧ h.values = g.values ∧ t.net.event = s.net.event.raise 5 ∧ OnlyTouches [.capt, .log, .net] s t)) ∧
  (∀ (s : State) (f : GooseFrame) (c : GooseSub) (g : Gsub), s.net.intakeOpen →
    s.netCfg.gooseSubs.find? (fun c => c.dst == f.dst && c.appid == f.appid && c.gocbRef == f.gocbRef) = some c → s.gsub? c.sub = some g →
    (g.bucket.refill s.now c.rate 32).take = none → ∃ t h, exec (.gooseFrameRx f) s = .next t ∧ t.gsub? c.sub = some h ∧
      h.rateRefused = satInc 16 g.rateRefused ∧ h.values = g.values ∧ h.lastRx = g.lastRx ∧ t.net.rateGoose = satInc 16 s.net.rateGoose ∧
      t.net.event = s.net.event.raise 8 ∧ OnlyTouches [.log, .net] s t) ∧
  (∀ (s : State) (f : GooseFrame), s.net.intakeOpen = false → exec (.gooseFrameRx f) s = .next s) ∧
  ∀ (s : State) (n : Nat) (g : Gsub), s.gsub? n = some g → s.passedSince g.lastRx g.tal → g.talExpired = false →
    ∃ t, exec (.gooseTalExpired n) s = .next t ∧ t.gsub? n = some { g with valid := false, talExpired := true, anyNext := true } ∧
      t.net.event = s.net.event.raise 6 ∧ t.log = (s.report .netGooseTal n).log ∧ OnlyTouches [.capt, .log, .net] s t

/-- R452, R453, R585: a changed member makes a publisher send under a new stNum, the interval's end under the next sqNum with the interval doubled up
to its limit, and the health publisher does the same; an SV stream is RECEIVING with an accepted frame and LOST 10 ms after the last one. -/
def Obligations.PublishersSendAndStreamsLive : Prop :=
  (∀ (s : State) (n : Nat) (g : Gpub) (c : GoosePub), s.gpub? n = some g → s.gpubCfg? n = some c → g.nextAt.isSome →
    c.members.map s.pubValue ≠ g.values → g.changeIdx ≠ some s.acq.fastIdx → ∃ t h, exec (.goosePublishChange n) s = .next t ∧
      t.gpub? n = some h ∧ h.stNum = g.stNum + 1 ∧ h.sqNum = 0 ∧ h.values = c.members.map s.pubValue ∧ h.interval = c.minTime ∧
      h.nextAt = some (s.now + c.minTime) ∧ h.changeAt = s.ltc ∧
      t.net.sent = s.net.sent ++ [.goose n s.ltc (g.stNum + 1) 0 (2 * c.minTime) (c.members.map s.pubValue)] ∧ OnlyTouches [.net] s t) ∧
  (∀ (s : State) (n a : Nat) (g : Gpub) (c : GoosePub), s.gpub? n = some g → s.gpubCfg? n = some c → g.nextAt = some a → a ≤ s.now →
    ∃ t h, exec (.gooseRetransmit n) s = .next t ∧ t.gpub? n = some h ∧ h.stNum = g.stNum ∧ h.sqNum = g.sqNum + 1 ∧ h.values = g.values ∧
      h.interval = min (2 * g.interval) c.maxTime ∧ h.nextAt = some (s.now + min (2 * g.interval) c.maxTime) ∧
      t.net.sent = s.net.sent ++ [.goose n g.changeAt g.stNum (g.sqNum + 1) (2 * min (2 * g.interval) c.maxTime) g.values] ∧ OnlyTouches [.net] s t) ∧
  (∀ (s : State) (a : Ns), s.healthMay → s.net.health.nextAt = some a →
    (s.healthValues ≠ s.net.health.values → ∃ t, exec .healthGoosePublish s = .next t ∧ t.net.health.stNum = s.net.health.stNum + 1 ∧
      t.net.health.sqNum = 0 ∧ t.net.health.values = s.healthValues ∧ t.net.health.nextAt = some (s.now + s.netCfg.healthMinTime) ∧
      t.net.sent.length = s.net.sent.length + 1 ∧ OnlyTouches [.net] s t) ∧
    (s.healthValues = s.net.health.values → a ≤ s.now → ∃ t, exec .healthGoosePublish s = .next t ∧ t.net.health.stNum = s.net.health.stNum ∧
      t.net.health.sqNum = s.net.health.sqNum + 1 ∧ t.net.health.interval = min (2 * s.net.health.interval) s.netCfg.healthMaxTime ∧
      t.net.sent.length = s.net.sent.length + 1 ∧ OnlyTouches [.net] s t)) ∧
  (∀ (s : State) (f : SvFrame) (a : Asdu) (c : SvSub) (x : Svsub) (b : Bucket), s.net.intakeOpen →
    s.netCfg.svSubs.find? (fun c => c.dst == f.dst && c.appid == f.appid && c.svId == f.svId) = some c → s.svsub? c.sub = some x →
    (x.bucket.refill s.now 2448 16).take = some b → f.confRev = c.confRev → f.noAsdu = c.noAsdu → f.asdus.length = c.noAsdu →
    f.asdus.getLast? = some a → (∀ y ∈ f.asdus, y.samples.length = c.channels.length) → (f.test → c.testAccept) → (f.simulation → c.simAccept) →
    (f.asdus.map (·.smpCnt)).Nodup → (∀ u ∈ f.asdus, x.seen.any (fun y => y.1 == u.smpCnt && decide (s.now < y.2 + secs 1)) = false) →
    ∃ t y, exec (.svFrameRx f) s = .next t ∧ t.svsub? c.sub = some y ∧ y.phase = .receiving ∧ y.smpSynch = a.smpSynch ∧ y.lastRx = some s.now ∧
      y.cfgBad = false ∧ y.discarded = x.discarded ∧ OnlyTouches [.acq, .net] s t) ∧
  (∀ (s : State) (f : SvFrame) (c : SvSub) (x : Svsub) (b : Bucket), s.net.intakeOpen →
    s.netCfg.svSubs.find? (fun c => c.dst == f.dst && c.appid == f.appid && c.svId == f.svId) = some c → s.svsub? c.sub = some x →
    (x.bucket.refill s.now 2448 16).take = some b → f.confRev ≠ c.confRev → ∃ t y, exec (.svFrameRx f) s = .next t ∧
      t.svsub? c.sub = some y ∧ y.cfgBad = true ∧ y.discarded = satInc 16 x.discarded ∧ y.phase = x.phase ∧
      t.net.event = s.net.event.raise 5 ∧ OnlyTouches [.net] s t) ∧
  ∀ (s : State) (n : Nat) (x : Svsub), s.svsub? n = some x → x.phase = .receiving → s.passedSince x.lastRx (msec 10) →
    ∃ t, exec (.netSvLost n) s = .next t ∧ t.svsub? n = some { x with phase := .lost } ∧ t.net.event = s.net.event.raise 7 ∧
      t.log = (s.report .netSvLost n).log ∧ OnlyTouches [.log, .net] s t

/-- R473 to R475, R478: GO starts an idle engine, a length outside 1 to 2^30 ends it at once with ERR, and while it is BUSY a write is counted and
changes no engine. A run ends with RESULT the finished CRC of the bytes, or with its error. The known-answer test runs once per second. -/
def Obligations.ChkEnginesRunToTheirResult : Prop :=
  (∀ (s : State) (n : Nat) (v : Word) (x : ChkEngine), n < 8 → s.chk.engines[n]? = some x → x.busy = false → x.len.toNat ≠ 0 → x.len.toNat ≤ 2 ^ 30 →
    ∃ t y, exec (.chkEGo n v) s = .next t ∧ t.chk.engines[n]? = some y ∧ y.busy = true ∧ y.done = false ∧ y.err = .none ∧ y.ctrl = v &&& 0x1E ||| 1 ∧
      y.start = (if y.continues then x.raw.toNat % 2 ^ y.alg.width else y.alg.init) ∧ y.result = x.result ∧
      (∀ k, k ≠ n → t.chk.engines[k]? = s.chk.engines[k]?) ∧ OnlyTouches [.chk] s t) ∧
  (∀ (s : State) (n : Nat) (v : Word) (x : ChkEngine), n < 8 → s.chk.engines[n]? = some x → x.busy = false →
    x.len.toNat = 0 ∨ 2 ^ 30 < x.len.toNat → ∃ t y, exec (.chkEGo n v) s = .next t ∧ t.chk.engines[n]? = some y ∧ y.busy = false ∧
      y.done = true ∧ y.err = .range ∧ y.result = x.result ∧ OnlyTouches [.chk] s t) ∧
  (∀ (s : State) (n : Nat) (v : Word) (x : ChkEngine), n < 8 → s.chk.engines[n]? = some x → x.busy → ∃ t, exec (.chkEGo n v) s = .next t ∧
    t.chk = { s.chk with busyWr := satInc 16 s.chk.busyWr, busyWrEngine := n, event := s.chk.event.raise 3 } ∧ OnlyTouches [.chk] s t) ∧
  (∀ (s : State) (n : Nat) (l : List (BitVec 8)) (x : ChkEngine), s.chk.engines[n]? = some x → x.busy → x.fromCapture = false →
    x.len.toNat ≤ l.length → ∃ t y, exec (.chkEDone { n := n, bytes := l }) s = .next t ∧ t.chk.engines[n]? = some y ∧ y.busy = false ∧
      y.done = true ∧ y.err = .none ∧ y.result = BitVec.ofNat 32 (x.alg.finish (x.alg.feed x.start (l.take x.len.toNat))) ∧
      y.raw = BitVec.ofNat 32 (x.alg.feed x.start (l.take x.len.toNat)) ∧ (∀ k, k ≠ n → t.chk.engines[k]? = s.chk.engines[k]?) ∧
      OnlyTouches [.chk] s t) ∧
  (∀ (s : State) (n : Nat) (l : List (BitVec 8)) (e : ChkErr) (x : ChkEngine), s.chk.engines[n]? = some x → x.busy → x.outside = false → e ≠ .none →
    ∃ t y, exec (.chkEDone { n := n, bytes := l, err := e }) s = .next t ∧ t.chk.engines[n]? = some y ∧ y.busy = false ∧ y.done = true ∧
      y.err = e ∧ y.result = x.result ∧ OnlyTouches [.chk] s t) ∧
  ∀ s : State, s.sys.held = false → s.passed s.chk.katAt (secs 1) → ∃ t, exec (.chkKat {}) s = .next t ∧ t.chk.katOk = true ∧ t.chk.katAt = s.now ∧
    t.chk.engines = s.chk.engines ∧ t.chk.event = s.chk.event ∧ OnlyTouches [.log, .chk, .diag] s t

/-- R482 to R484, R486, R512: a submission doorbell publishes entries, which are fetched while completion slots can be reserved; a completion doorbell
releases slots; an index beyond the ring puts it in ERROR. A ring starts empty when enabled; with the link gone every ring is disabled while the
berths run on. A frame doorbell publishes frames and frees descriptors. -/
def Obligations.RingsPublishFetchAndRelease : Prop :=
  (∀ (s : State) (r i k : Nat) (v : Word) (x : CmdRing), s.ring r = x → x.enable → x.error = false → i = (v.extractLsb' 0 12).toNat → i < x.entries →
    k = (i + x.entries - x.producer) % x.entries → x.unfetched + k ≤ x.entries → ∃ t y, exec (.hostSqDb r v) s = .next t ∧ t.ring r = y ∧
      y.producer = i ∧ y.unfetched + y.waiting = x.unfetched + k + x.waiting ∧ y.waiting = x.waiting + min (x.unfetched + k) x.slotsFree ∧
      y.reserved + x.waiting = x.reserved + y.waiting ∧ y.filled = x.filled ∧ y.error = false ∧
      (∀ q, q ≠ r → t.ring q = s.ring q) ∧ OnlyTouches [.host] s t) ∧
  (∀ (s : State) (r : Nat) (v : Word) (x : CmdRing), s.ring r = x → x.enable → x.error = false → x.entries ≤ (v.extractLsb' 0 12).toNat →
    (∃ t, exec (.hostSqDb r v) s = .next t ∧ t.ring r = { x with error := true } ∧ t.host.event.bits.getLsbD 5 = true ∧
      t.log = (s.report .hostRingError r).log ∧ OnlyTouches [.log, .host] s t) ∧
    ∃ t, exec (.hostCqDb r v) s = .next t ∧ t.ring r = { x with error := true } ∧ OnlyTouches [.log, .host] s t) ∧
  (∀ (s : State) (r i d : Nat) (v : Word) (x : CmdRing), s.ring r = x → x.enable → x.error = false → i = (v.extractLsb' 0 12).toNat → i < x.entries →
    d = (i + x.entries - x.consumer) % x.entries → d ≠ 0 → d ≤ x.filled → ∃ t y, exec (.hostCqDb r v) s = .next t ∧ t.ring r = y ∧
      y.consumer = i ∧ y.filled = x.filled - d ∧ y.unfetched + y.waiting = x.unfetched + x.waiting ∧
      (∀ q, q ≠ r → t.ring q = s.ring q) ∧ OnlyTouches [.host] s t) ∧
  (∀ (s : State) (r : Nat) (v : Word) (x : CmdRing), r < s.host.rings.length → s.ring r = x →
    (v.getLsbD 0 → x.enable = false → ∃ t y, exec (.hostRingCtrlWrite r v) s = .next t ∧ t.ring r = y ∧ y.enable = true ∧ y.error = false ∧
      y.filled = 0 ∧ y.unfetched = 0 ∧ y.waiting = 0 ∧ y.phase = true ∧ y.producer = 0 ∧ y.consumer = 0 ∧
      y.size = (if (v.extractLsb' 2 4).toNat ≤ 8 then (v.extractLsb' 2 4).toNat else x.size) ∧ OnlyTouches [.host] s t) ∧
    (v.getLsbD 0 = false → ∃ t y, exec (.hostRingCtrlWrite r v) s = .next t ∧ t.ring r = y ∧ y.enable = false ∧ y.unfetched = 0 ∧ y.waiting = 0 ∧
      y.reserved = x.reserved - x.waiting ∧ (x.enable → y.size = x.size) ∧ t.host.berths = s.host.berths ∧ OnlyTouches [.host] s t)) ∧
  (∀ s : State, s.sys.held = false → ∃ t, exec .hostLinkUp s = .next t ∧ t.host = { s.host with linkUp := true } ∧ OnlyTouches [.host] s t) ∧
  (∀ s : State, s.host.linkUp → ∃ t, exec .hostLinkDown s = .next t ∧ t.host.linkUp = false ∧ (∀ r, (t.ring r).enable = false) ∧
    t.host.berths = s.host.berths ∧ t.host.qCtl = s.host.qCtl ∧ t.host.event.bits.getLsbD 9 = true ∧
    t.log = (s.report .hostLinkDown).log ∧ OnlyTouches [.log, .host] s t) ∧
  (∀ (s : State) (x : FrDbIn), s.host.frTx = false → s.host.frRx → (x.v.extractLsb' 16 12).toNat < 2 ^ (s.host.frRxSize + 4) →
    ∃ t, exec (.hostFrDb x) s = .next t ∧ t.host.frRxCons = (x.v.extractLsb' 16 12).toNat ∧
      t.host.frRxFilled = s.host.frRxFilled - min s.host.frRxFilled
        (((x.v.extractLsb' 16 12).toNat + 2 ^ (s.host.frRxSize + 4) - s.host.frRxCons % 2 ^ (s.host.frRxSize + 4)) % 2 ^ (s.host.frRxSize + 4)) ∧
      OnlyTouches [.host] s t) ∧
  ∀ (s : State) (x : FrDbIn) (i n k : Nat), s.host.frTx → s.host.frRx = false → i = (x.v.extractLsb' 0 12).toNat → n = 2 ^ (s.host.frTxSize + 4) → i < n →
    k = (i + n - s.host.frTxProd % n) % n → 0 < k → ∃ t, exec (.hostFrDb x) s = .next t ∧ t.host.frTxHead = i ∧ t.host.frTxProd = i ∧
      t.host.frDone.map (·.len) = ((x.frames.take k).map (·.len)).reverse ++ s.host.frDone.map (·.len) ∧
      (t.host.frDone.take (min k x.frames.length)).all (fun d => !d.own) ∧ OnlyTouches [.log, .net, .ptp, .host] s t

/-- R484, R485, R487, R489, R490, R503: a fetched entry is decided when it arrives. `u` is the state with the entry taken from its ring: one that a
test refuses completes REFUSED with the test's reason and takes no berth; one that passes takes the lowest free berth, one place in each executor
it passes and one token; one for another node leaves in the forward table. An entry of a ring that has none waiting changes nothing. -/
def Obligations.EntriesAreDecidedOnArrival : Prop :=
  (∀ (s : State) (r : Nat) (e : Entry), 16 ≤ r ∨ (s.ring r).enable = false ∨ (s.ring r).waiting = 0 →
    exec (.hostEntryArrival r e) s = .next s) ∧
  (∀ (s u : State) (r : Nat) (e : Entry) (v : Verdict), r < 16 → (s.ring r).enable → (s.ring r).waiting ≠ 0 → s.host.linkUp → s.sys.lastwords = false →
    u = (s.onRing r fun x => { x with waiting := x.waiting - 1 }) → u.elsewhere e = false → u.admission r e (e.deadlineNs false) = some v →
    ∃ t, exec (.hostEntryArrival r e) s = .next t ∧
      (t.ring r).written = { u.refusedCompletion e v with phase := (s.ring r).phase } :: (s.ring r).written ∧ t.host.berths = s.host.berths ∧
      t.host.qCtl = s.host.qCtl ∧ t.host.event.bits.getLsbD 0 = true ∧ OnlyTouches [.tide, .log, .host] s t) ∧
  (∀ (s u : State) (r b : Nat) (res : Bool) (e : Entry), r < 16 → (s.ring r).enable → (s.ring r).waiting ≠ 0 →
    u = (s.onRing r fun x => { x with waiting := x.waiting - 1 }) → u.elsewhere e = false → u.admission r e (e.deadlineNs false) = none →
    s.host.freeBerth r = some (b, res) → r < s.host.sources.length → ∃ t it, exec (.hostEntryArrival r e) s = .next t ∧ t.item b = some it ∧
      it.entry = e ∧ it.src = r ∧ it.stage = e.firstStage ∧ it.tAdmit = s.now ∧ it.due = s.now + e.deadlineNs false ∧ it.ending = none ∧
      it.reserved = res ∧ (∀ k, k ≠ b → t.item k = s.item k) ∧ t.host.qCtl = s.host.qCtl ++ [b] ∧
      (nth t.host.sources r {}).tokens = s.tokensNow (nth s.host.sources r {}) - 1 ∧
      (nth t.host.sources r {}).accepted = (nth s.host.sources r {}).accepted + 1 ∧ OnlyTouches [.host, .sec] s t) ∧
  ∀ (s u : State) (r : Nat) (e : Entry), r < 16 → (s.ring r).enable → (s.ring r).waiting ≠ 0 →
    u = (s.onRing r fun x => { x with waiting := x.waiting - 1 }) → u.elsewhere e → u.forwardTest r e = none →
    ∃ t f, exec (.hostEntryArrival r e) s = .next t ∧ t.host.forwards = s.host.forwards ++ [f] ∧ f.entry = e ∧ f.ring = r ∧
      f.reqId = s.host.nextReq ∧ f.due = s.now + e.deadlineNs true ∧ t.host.berths = s.host.berths ∧ OnlyTouches [.host, .adeid] s t

/-- R486 to R488, R493, R529, R530: BULK hands its item on to SIG or CTL; SIG passes an item on and records its nonce, or ends it FAILED with SIG_FAIL
and no further stage; an ended item's completion is written to its ring with its status and its berth is free; a query returns its register. -/
def Obligations.StagesEndInACompletion : Prop :=
  (∀ (s : State) (b : Nat) (it : Item), s.item b = some it → it.stage = .bulk → s.host.qBulk.head? = some b →
    ∃ t, exec (.berthBulkDone b) s = .next t ∧ t.item b = some { it with stage := if it.entry.passesSig then .sig else .ctl } ∧
      b ∉ t.host.qBulk ∧ (∀ k, k ≠ b → t.item k = s.item k) ∧ OnlyTouches [.host] s t) ∧
  (∀ (s : State) (b : Nat) (ok : Bool) (it : Item), s.item b = some it → it.stage = .sig → s.host.qSig.head? = some b → s.sigPasses it.entry ok →
    it.entry.keySlot < s.sec.keys.length → ∃ t, exec (.berthSigDone b ok) s = .next t ∧ t.item b = some { it with stage := .ctl } ∧ b ∉ t.host.qSig ∧
      (nth t.sec.keys it.entry.keySlot {}).nonce = it.entry.nonce ∧ (∀ k, k ≠ b → t.item k = s.item k) ∧ OnlyTouches [.host, .sec] s t) ∧
  (∀ (s : State) (b : Nat) (ok : Bool) (it : Item), s.item b = some it → it.stage = .sig → s.host.qSig.head? = some b →
    s.sigPasses it.entry ok = false → ∃ t, exec (.berthSigDone b ok) s = .next t ∧
      t.endingOf b = some { status := .failed, reason := some .sigFail } ∧ b ∉ t.host.qSig ∧ b ∉ t.host.qCtl ∧
      t.sec.event.bits.getLsbD 9 = true ∧ t.sec.keys = s.sec.keys ∧ OnlyTouches [.acq, .log, .host, .sec] s t) ∧
  (∀ (s : State) (b : Nat) (it : Item) (e : Ending), s.item b = some it → it.ending = some e → it.reqId = none → s.host.linkUp →
    (s.ring it.src).enable → s.sys.lastwords = false → ∃ t c, exec (.hostCompletionWrite b) s = .next t ∧ t.item b = none ∧
      (∀ k, k ≠ b → t.item k = s.item k) ∧ (t.ring it.src).written = c :: (s.ring it.src).written ∧ c.tag = it.entry.tag ∧ c.berth = b ∧
      c.result = e.result ∧ c.reason = (e.reason.map (·.num)).getD 0 ∧ c.tDone = s.ts32 ∧
      c.status = (if e.status = .done ∧ s.clk.degraded ∧ it.due < s.now then .late else e.status) ∧
      (t.ring it.src).filled = (s.ring it.src).filled + 1 ∧ OnlyTouches [.log, .host] s t) ∧
  (∀ (s : State) (b : Nat) (it : Item) (e : Ending), s.item b = some it → it.ending = some e → it.reqId = none →
    s.host.linkUp = false ∨ (s.ring it.src).enable = false ∨ s.sys.lastwords →
    ∃ t, exec (.hostCompletionWrite b) s = .next t ∧ t.item b = none ∧ t.host.cplDropped = satInc 32 s.host.cplDropped ∧
      t.host.event.bits.getLsbD 7 = true ∧ (t.ring it.src).written = (s.ring it.src).written ∧ OnlyTouches [.log, .host] s t) ∧
  ∀ (s u : State) (b off : Nat) (it : Item), s.ctlCmd b = some (.query off) → s.item b = some it → it.reqId = none →
    s.blkStopped (blkAt off) = false → s.blkRealigns (blkAt off) = false → s.host.linkUp → (s.ring it.src).enable → s.sys.lastwords = false →
    s.clk.degraded = false → u = s.leaveCtl b →
    ∃ t c, exec (.hostCompletionWrite b) s = .next t ∧ t.item b = none ∧ (t.ring it.src).written = c :: (s.ring it.src).written ∧
      c.status = .done ∧ c.result = (u.liveReg (blkAt off) (off - blkBase (blkAt off))).zeroExtend 64 ∧ OnlyTouches [.log, .host] s t

/-- R480, R481, R503 to R505, R597: a forwarded command without an answer by its deadline completes NO_ANSWER. The harbour's access over BAR4 is
turned away with its cause, or leaves as a REG request that its answer, or 100 µs without one, completes; with 32 outstanding it waits. A node
answers a REG request not ready, refused, or with what its register gives. An offset of 256 MiB or more is outside the BAR, which the model stops
on by name. -/
def Obligations.RemoteAccessesComplete : Prop :=
  (∀ (s : State) (q : Word) (f : Forward), s.host.forwards.find? (·.reqId == q) = some f → f.due ≤ s.now → s.host.linkUp → (s.ring f.ring).enable →
    s.sys.lastwords = false → ∃ t c, exec (.hostForwardNoAnswer q) s = .next t ∧
      t.host.forwards = s.host.forwards.filter (·.reqId != q) ∧ t.host.noAnswer = satInc 16 s.host.noAnswer ∧
      t.host.event.bits.getLsbD 8 = true ∧ (t.ring f.ring).written = c :: (s.ring f.ring).written ∧ c.status = .noAnswer ∧
      c.tag = f.entry.tag ∧ c.node = f.entry.node ∧ OnlyTouches [.host] s t) ∧
  (∀ (s : State) (x : Bar4In), 268435456 ≤ x.offset → exec (.bar4Access x) s = .fault .outsideBar4) ∧
  (∀ (s : State) (x : Bar4In) (n : Nat), x.offset < 268435456 → n = x.offset / 4194304 →
    s.harbour = false ∨ s.host.winBar4 = false ∨ s.clusterSize ≤ n →
    ∃ t, exec (.bar4Access x) s = .next t ∧ t.host.err = 5 ∧ t.host.errBar = 2 ∧ t.host.errNode = n ∧ t.host.errWrite = x.write.isSome ∧
      t.host.accesses = (if x.write.isSome then .written else .abort) :: s.host.accesses ∧ OnlyTouches [.host] s t) ∧
  (∀ (s : State) (o n : Nat) (w : Option Word), o < 268435456 → n = o / 4194304 → n ≠ 0 → n < s.clusterSize → s.harbour → s.host.winBar4 →
    (w.isSome → s.host.winBar4Wr) → s.nodeReach n → s.host.regs.length < 32 → ∃ t, exec (.bar4Access { offset := o, write := w }) s = .next t ∧
      t.host.regs = s.host.regs ++ [{ reqId := s.host.nextReq, node := n, offset := o, write := w, sentAt := s.now }] ∧
      t.host.accesses = s.host.accesses ∧ t.host.nextReq = s.host.nextReq + 1 ∧
      t.adeid = (s.adeidSend n false (.reg s.host.nextReq (o % 4194304) w)).adeid ∧ OnlyTouches [.host, .adeid] s t) ∧
  (∀ (s : State) (x : Bar4In) (n : Nat), x.offset < 268435456 → n = x.offset / 4194304 → n ≠ 0 → n < s.clusterSize → s.harbour → s.host.winBar4 →
    (x.write.isSome → s.host.winBar4Wr) → s.nodeReach n → 32 ≤ s.host.regs.length → exec (.bar4Access x) s = .next s) ∧
  (∀ (s : State) (q : Word) (x : RegWait) (w : Word), s.host.regs.find? (·.reqId == q) = some x →
    (∃ t, exec (.regAnswerRx q (.data w)) s = .next t ∧
      t.host = { s.host with regs := s.host.regs.filter (·.reqId != q), accesses := .data w :: s.host.accesses } ∧ OnlyTouches [.host] s t) ∧
    (∃ t, exec (.regAnswerRx q .refused) s = .next t ∧ t.host.err = 4 ∧ t.host.regErrors = satInc 16 s.host.regErrors ∧
      t.host.regs = s.host.regs.filter (·.reqId != q) ∧ OnlyTouches [.host] s t) ∧
    (∃ t, exec (.regAnswerRx q .notReady) s = .next t ∧ t.host.err = 6 ∧ t.host.regErrors = satInc 16 s.host.regErrors ∧ OnlyTouches [.host] s t) ∧
    (s.passed x.sentAt (usec 100) → ∃ t, exec (.regTimeout q) s = .next t ∧ t.host.err = 3 ∧ t.host.errNode = x.node ∧
      t.host.regs = s.host.regs.filter (·.reqId != x.reqId) ∧ t.host.regErrors = satInc 16 s.host.regErrors ∧
      t.host.accesses = (if x.write.isSome then .written else .abort) :: s.host.accesses ∧ OnlyTouches [.host] s t)) ∧
  (∀ (s : State) (x : RegIn), s.regOpen (x.offset % 4194304) x.write.isSome = false →
    exec (.regRequestRx x) s = .next (s.adeidSend x.src false (.regDone x.reqId .notReady))) ∧
  (∀ (s : State) (x : RegIn) (v : Verdict), s.regOpen (x.offset % 4194304) x.write.isSome → s.rateTest 17 = some v →
    ∃ t, exec (.regRequestRx x) s = .next t ∧ t.adeid = (s.adeidSend x.src false (.regDone x.reqId .refused)).adeid ∧
      OnlyTouches [.log, .host, .adeid] s t) ∧
  ∀ (s u : State) (src o : Nat) (q : Word), s.regOpen (o % 4194304) false → s.rateTest 17 = none → u = s.spendToken 17 →
    u.blkStopped (blkAt (o % 4194304)) = false → u.blkRealigns (blkAt (o % 4194304)) = false →
    ∃ t, exec (.regRequestRx { src := src, reqId := q, offset := o }) s = .next t ∧
      t.adeid = (s.adeidSend src false (.regDone q (.data (u.readReg (.reader 1) (o % 4194304)).1))).adeid ∧
      OnlyTouches [.sys, .log, .chk, .host, .adeid, .snaps] s t

/-- R9, R10, R32, R108, R109, R113, R114, R591 to R593: a bit written 1 to an EVENT register clears and its counter stays; a read-only register
ignores a write, and a write of a register changes the register, over a crossing that is free; a write while the crossing holds a value goes to
its shadow, and one that replaces a value there counts; an item that is not created is recorded and nothing else; a low word read takes the
snapshot that its high words then return; a reader inside the device waits on a stopped domain and reads zero with an error flag while a crossing
realigns, and a write from inside is then discarded and counted. Beyond BAR0 the model stops by name. -/
def Obligations.RegistersReadAndWrite : Prop :=
  (∀ (s : State) (b : Blk) (v : Word), s.itemCreated b (eventAt b) → s.bar0Blocked (blkBase b + eventAt b) true = none → s.wayOpen (blkBase b + eventAt b) →
    ∃ t, exec (.w1cWrite (blkBase b + eventAt b) v) s = .next t ∧ (t.eventOf b).bits = (s.eventOf b).bits &&& ~~~v ∧
      (t.eventOf b).cnt = (s.eventOf b).cnt ∧ t.host.accesses = .written :: s.host.accesses ∧ OnlyTouches [blkPart b, .clk, .host] s t) ∧
  (∀ (s : State) (v : Word), s.bar0Blocked (blkBase .host + 0x20) true = none → ∃ t, exec (.registerWrite (blkBase .host + 0x20) v .host) s = .next t ∧
    t.host = { s.host with irqMask := v &&& 0x3FF, accesses := .written :: s.host.accesses } ∧ OnlyTouches [.host] s t) ∧
  (∀ (s : State) (o : Nat) (b : Blk) (v : Word), o < 4194304 → b = blkAt (o / 4 * 4) →
    b ∈ [.sys, .clk, .diff, .form, .gate, .logic, .capt, .net, .ptp, .adeid, .sec, .diag] → o / 4 * 4 ≠ blkBase b + eventAt b →
    s.itemCreated b (o / 4 * 4 - blkBase b) → s.bar0Blocked (o / 4 * 4) true = none → ∃ t, exec (.registerWrite o v .host) s = .next t ∧
      t.host = { s.host with accesses := .written :: s.host.accesses } ∧
      (s.wayOpen (o / 4 * 4) → t.clk = { s.clk with xings := t.clk.xings }) ∧ OnlyTouches [.clk, .host] s t) ∧
  (∀ (s : State) (o : Nat) (b : Blk) (v : Word), o < 4194304 → b = blkAt (o / 4 * 4) → s.itemCreated b (o / 4 * 4 - blkBase b) = false →
    s.bar0Blocked (o / 4 * 4) true = none → s.wayOpen (o / 4 * 4) → ∃ t, exec (.registerWrite o v .host) s = .next t ∧ t.sys.uninstBlock = b.num ∧
      t.sys.uninstCount = satInc 16 s.sys.uninstCount ∧ t.sys.event = s.sys.event.raise 5 ∧ OnlyTouches [.sys, .clk, .host] s t) ∧
  (∀ (s : State) (o p : Nat) (v : Word) (x : Xing), o < 4194304 → p = o / 4 * 4 → s.bar0Blocked p true = none → blkDomain (blkAt p) ≠ 3 →
    s.regXing 3 p = x → x.held.isSome → ∃ t, exec (.registerWrite o v .host) s = .next t ∧
      t.host = { s.host with accesses := .written :: s.host.accesses } ∧
      (x.shadow = none → t.regXing 3 p = { x with shadow := some (p, v) } ∧ t.clk.overwriteCount = s.clk.overwriteCount) ∧
      (x.shadow.isSome → t.regXing 3 p = { x with shadow := some (p, v), overwrite := satInc 8 x.overwrite } ∧
        t.clk.overwriteCount = satInc 16 s.clk.overwriteCount ∧ t.clk.overwriteId = x.id ∧ t.clk.event = s.clk.event.raise 9) ∧
      OnlyTouches [.clk, .host] s t) ∧
  (∀ (s : State) (b : Blk), ∃ t, exec (.uninstAccess b) s = .next t ∧
    t.sys = { s.sys with uninstBlock := b.num, uninstCount := satInc 16 s.sys.uninstCount, event := s.sys.event.raise 5 } ∧
    t.host.accesses = .data 0 :: s.host.accesses ∧ OnlyTouches [.sys, .host] s t) ∧
  (∀ s : State, ∃ t, exec .bar0BadWrite s = .next t ∧
    t.host = { s.host with bar0Bad := satInc 16 s.host.bar0Bad, accesses := .written :: s.host.accesses } ∧ OnlyTouches [.host] s t) ∧
  (∀ (s : State) (who : Requester) (o p : Nat) (b : Blk), o < 4194304 → o % 4 = 0 → b = blkAt o → s.bar0Blocked o false = none →
    s.oldestSnapped who b (o - blkBase b) = false → snapLow b (o - blkBase b) = false → p ∈ snapGroup b (o - blkBase b) →
    ∃ t, exec (.snapshotLowWordRead who o) s = .next t ∧ t.snapOf who (blkBase b + p) = s.liveReg b p ∧
      t.host.accesses = .data (s.liveReg b (o - blkBase b)) :: s.host.accesses ∧ OnlyTouches [.sys, .log, .chk, .host, .snaps] s t) ∧
  (∀ (s : State) (who : Requester) (o : Nat) (b : Blk), o < 4194304 → o % 4 = 0 → b = blkAt o → s.bar0Blocked o false = none →
    snapLow b (o - blkBase b) → s.itemCreated b (o - blkBase b) → ∃ t, exec (.snapshotLowWordRead who o) s = .next t ∧
      t.host.accesses = .data (s.snapOf who (blkBase b + (o - blkBase b))) :: s.host.accesses ∧ OnlyTouches [.sys, .log, .chk, .host, .snaps] s t) ∧
  (∀ (s : State) (who : Requester) (o : Nat), o < 4194304 → who ≠ .host →
    (s.blkStopped (servingBlk (o / 4 * 4)) → exec (.snapshotLowWordRead who o) s = .next s) ∧
    (s.blkStopped (servingBlk (o / 4 * 4)) = false → s.blkRealigns (servingBlk (o / 4 * 4)) → ∃ t, exec (.snapshotLowWordRead who o) s = .next t ∧
      t.host = { s.host with accesses := .zeroErr :: s.host.accesses } ∧ OnlyTouches [.host] s t)) ∧
  (∀ (s : State) (who : Requester) (n : Nat), n < 1024 → s.bar0Blocked (0x8000 + 0x20 * n) false = none →
    ∃ t, exec (.evcntWord0Read who n) s = .next t ∧ t.host.accesses = .data (s.liveReg .sys (0x8000 + 0x20 * n)) :: s.host.accesses ∧
      (∀ i, 1 ≤ i → i < 8 → t.snapOf who (0x8000 + 0x20 * n + 4 * i) = s.liveReg .sys (0x8000 + 0x20 * n + 4 * i)) ∧
      OnlyTouches [.sys, .log, .host, .snaps] s t) ∧
  (∀ s : State, s.bar0Blocked (blkBase .host + 0x14) false = none → ∃ t, exec .hostBerthUseRead s = .next t ∧
    t.host.accesses = .data (s.liveReg .host 0x14) :: s.host.accesses ∧ t.host.peak = s.host.inUse ∧ OnlyTouches [.sys, .log, .host, .snaps] s t) ∧
  (∀ (s : State) (o d : Nat) (v : Word), o < 4194304 → blkDomain (blkAt (o / 4 * 4)) ≠ d → s.blkRealigns (blkAt (o / 4 * 4)) →
    ∃ t, exec (.registerWrite o v (.inner d)) s = .next t ∧ t.clk = { s.clk with presetDropped := satInc 8 s.clk.presetDropped } ∧
      OnlyTouches [.clk] s t) ∧
  (∀ (s : State) (o : Nat) (b : Blk) (v : Word), o < 4194304 → b = blkAt (o / 4 * 4) →
    b ∈ [.sys, .clk, .diff, .form, .gate, .logic, .capt, .net, .ptp, .adeid, .sec, .diag] → o / 4 * 4 ≠ blkBase b + eventAt b →
    s.itemCreated b (o / 4 * 4 - blkBase b) → exec (.registerWrite o v (.inner (blkDomain b))) s = .next s) ∧
  ∀ (s : State) (o : Nat) (v : Word) (who : Requester) (z : Writer), 4194304 ≤ o → exec (.registerWrite o v z) s = .fault .outsideBar0 ∧
    exec (.w1cWrite o v) s = .fault .outsideBar0 ∧ exec (.snapshotLowWordRead who o) s = .fault .outsideBar0

/-- R497, R498, R500, R501: a link goes down without block lock or 4 µs after its last LINK frame, trains with block lock, comes up after 3 valid LINK
frames in sequence, and is held down by a neighbour behind its expected position. A LINK frame leaves ahead of what waits every 0.5 µs, TOPO every
1 ms, a node unheard for 3 ms is unreachable on that ring, and a REQ_ID is forgotten after 1 ms. -/
def Obligations.LinksTrainAndFall : Prop :=
  (∀ (s : State) (x : AdeidLinkIn), x.q < s.adeid.links.length → (s.link x.q).phase ≠ .down →
    x.lock = false ∨ s.lanesOpen x.q = false ∨ (s.link x.q).phase = .up ∧ s.passed (s.link x.q).lastLink 4000 →
    ∃ t, exec (.adeidLink x) s = .next t ∧
      t.link x.q = { s.link x.q with phase := .down, downs := satInc 16 (s.link x.q).downs, valid := 0, egress := [] } ∧
      t.adeid.event.bits.getLsbD 0 = true ∧ OnlyTouches [.log, .adeid] s t) ∧
  (∀ (s : State) (x : AdeidLinkIn), x.q < s.adeid.links.length → x.lock → s.lanesOpen x.q → (s.link x.q).phase = .down →
    ∃ t, exec (.adeidLink x) s = .next t ∧ t.link x.q = { s.link x.q with phase := .training, valid := 0 } ∧ OnlyTouches [.adeid] s t) ∧
  (∀ (s : State) (x : AdeidLinkIn), x.q < s.adeid.links.length → x.lock → s.lanesOpen x.q → (s.link x.q).phase = .training →
    3 ≤ (s.link x.q).valid →
    (s.linkBehind x.q = false → ∃ t, exec (.adeidLink x) s = .next t ∧ (t.link x.q).phase = .up ∧
      (t.link x.q).aliveRx = List.replicate 7 {} ∧ (t.link x.q).downs = (s.link x.q).downs ∧ t.adeid.event.bits.getLsbD 0 = true ∧
      OnlyTouches [.log, .adeid] s t) ∧
    (s.linkBehind x.q → ∃ t, exec (.adeidLink x) s = .next t ∧ t.link x.q = { s.link x.q with phase := .miswired, valid := 0 } ∧
      t.adeid.event = s.adeid.event.raise 1 ∧ OnlyTouches [.log, .adeid] s t)) ∧
  (∀ (s : State) (q : Nat), q < s.adeid.links.length → s.lanesOpen q → (s.link q).phase ≠ .down → s.passed (s.link q).linkAt 500 →
    ∃ t f, exec (.adeidLinkFrameSend q) s = .next t ∧ (t.link q).egress = f :: (s.link q).egress ∧ (t.link q).linkAt = s.now ∧
      f.src = s.adeid.node ∧ f.payload = some (.link s.adeid.node s.sec.device (s.link q).freed) ∧ (t.link q).phase = (s.link q).phase ∧
      (∀ k, k ≠ q → t.link k = s.link k) ∧ OnlyTouches [.adeid] s t) ∧
  (∀ s : State, s.clustered → s.passed s.adeid.topoAt (msec 1) → ∃ t, exec .topoHeartbeat s = .next t ∧
    t.adeid.topoSeq = wrapInc 32 s.adeid.topoSeq ∧ t.adeid.topoAt = s.now ∧
    (s.linkUp 0 → ∃ f, (t.link 0).egress.getLast? = some f ∧ f.bcast = true ∧ f.src = s.adeid.node ∧
      f.payload = some (.topo (wrapInc 32 s.adeid.topoSeq) ((List.range 4).map s.linkUp))) ∧
    t.adeid.event = s.adeid.event ∧ OnlyTouches [.adeid] s t) ∧
  (∀ (s : State) (n : Nat) (secondary : Bool), s.clustered → s.heard n secondary = false → n < s.clusterSize → n < s.adeid.states.length →
    ∃ t, exec (.adeidHeartbeatLoss n secondary) s = .next t ∧
      (if secondary then (nth t.adeid.states n {}).reachS else (nth t.adeid.states n {}).reachP) = false ∧
      t.adeid.links = s.adeid.links ∧ OnlyTouches [.log, .adeid] s t) ∧
  ∀ s : State, ∃ t, exec .adeidReqIdExpiry s = .next t ∧ (∀ x, x ∈ t.adeid.seen ↔ x ∈ s.adeid.seen ∧ s.now < x.at_ + msec 1) ∧
    t.adeid.links = s.adeid.links ∧ OnlyTouches [.adeid] s t

/-- R471, R496, R497, R499 to R501: a frame whose CHECK fails is counted and goes no further; one without a known class is discarded; a repeated frame
is a duplicate. A frame for another node goes on through the other port with HOPS one more, and wrapped, back out of its own when that one is
down. A REQ_ID already seen makes a duplicate; TOPO renews its node's heartbeat. A closed door's lanes carry nothing. -/
def Obligations.FramesAreTakenForwardedOrWrapped : Prop :=
  (∀ (s : State) (x : AdeidIn), s.lanesOpen x.q = false ∨ (s.link x.q).phase = .down → exec (.adeidFrameRx x) s = .next s) ∧
  (∀ (s : State) (x : AdeidIn), x.q < s.adeid.links.length → s.lanesOpen x.q → (s.link x.q).phase ≠ .down → x.frame.checkOk = false →
    2 < s.chk.pathFail.length →
    ∃ t, exec (.adeidFrameRx x) s = .next t ∧ (t.link x.q).checkFails = satInc 16 (s.link x.q).checkFails ∧
      (t.link x.q).phase = (s.link x.q).phase ∧ ((s.link x.q).phase ≠ .up → (t.link x.q).valid = 0) ∧ t.adeid.event = s.adeid.event.raise 6 ∧
      nth t.chk.pathFail 2 0 = satInc 32 (nth s.chk.pathFail 2 0) ∧ OnlyTouches [.chk, .adeid] s t) ∧
  (∀ (s : State) (x : AdeidIn), s.lanesOpen x.q → s.linkUp x.q → x.frame.checkOk → x.frame.payload = none →
    ∃ t, exec (.adeidFrameRx x) s = .next t ∧ t.adeid = { s.adeid with discard := satInc 16 s.adeid.discard } ∧ OnlyTouches [.adeid] s t) ∧
  (∀ (s : State) (x : AdeidIn) (n d : Nat) (l : List (BitVec 16)), x.q < s.adeid.links.length → s.lanesOpen x.q →
    (s.link x.q).phase = .training → x.frame.checkOk → x.frame.payload = some (.link n d l) →
    (s.linkValid n d → ∃ t, exec (.adeidFrameRx x) s = .next t ∧ (t.link x.q).valid = (s.link x.q).valid + 1 ∧ (t.link x.q).lastLink = s.now ∧
      (t.link x.q).neighbour = n ∧ (t.link x.q).device = d ∧ (t.link x.q).phase = .training ∧ OnlyTouches [.adeid] s t) ∧
    (s.linkValid n d = false → ∃ t, exec (.adeidFrameRx x) s = .next t ∧ (t.link x.q).valid = 0 ∧ (t.link x.q).phase = .training ∧
      OnlyTouches [.adeid] s t)) ∧
  (∀ (s : State) (x : AdeidIn) (p : AdeidPayload), x.q < s.adeid.links.length → s.lanesOpen x.q → s.linkUp x.q → x.frame.checkOk →
    x.frame.payload = some p → x.frame.alive < 16 → (nth (s.link x.q).aliveRx p.cls.num {}).last = some x.frame.alive →
    p.cls.num < (s.link x.q).aliveRx.length → ∃ t, exec (.adeidFrameRx x) s = .next t ∧ t.adeid.dups = satInc 16 s.adeid.dups ∧
      (t.link x.q).rx = (s.link x.q).rx ∧ t.adeid.event = s.adeid.event ∧ OnlyTouches [.adeid] s t) ∧
  (∀ (s : State) (x : AdeidIn) (p : AdeidPayload), s.adeid.links.length = 4 → x.q < 4 → s.lanesOpen x.q → s.linkUp x.q → x.frame.checkOk →
    x.frame.payload = some p → p.cls ≠ .link → p.cls ≠ .sum → ((nth (s.link x.q).aliveRx p.cls.num {}).test 4 7 true x.frame.alive).1.accepted →
    x.frame.bcast = false → x.frame.dst ≠ s.adeid.node → x.frame.hops < 255 →
    (s.linkUp (otherLink x.q) → ∃ t, exec (.adeidFrameRx x) s = .next t ∧
      (t.link (otherLink x.q)).egress = (s.link (otherLink x.q)).egress ++ [{ x.frame with hops := x.frame.hops + 1, alive := 0 }] ∧
      (t.link x.q).egress = (s.link x.q).egress ∧ t.adeid.wraps = s.adeid.wraps ∧ OnlyTouches [.chk, .log, .adeid] s t) ∧
    (s.linkUp (otherLink x.q) = false → x.frame.wraps < 2 → ∃ t, exec (.adeidFrameRx x) s = .next t ∧
      (t.link x.q).egress = (s.link x.q).egress ++
        [{ x.frame with hops := x.frame.hops + 1, alive := 0, wrap := true, wraps := x.frame.wraps + 1 }] ∧
      t.adeid.wraps = satInc 32 s.adeid.wraps ∧ OnlyTouches [.chk, .log, .adeid] s t)) ∧
  (∀ (s : State) (x : AdeidIn) (p : AdeidPayload) (id : Word × Nat), x.q < s.adeid.links.length → s.lanesOpen x.q → s.linkUp x.q →
    x.frame.checkOk → x.frame.payload = some p → p.reqId = some id →
    ((nth (s.link x.q).aliveRx p.cls.num {}).test 4 7 true x.frame.alive).1.accepted → x.frame.bcast = false → x.frame.dst = s.adeid.node →
    s.adeidSeen x.frame.src p.cls id → ∃ t, exec (.adeidFrameRx x) s = .next t ∧ t.adeid.dups = satInc 16 s.adeid.dups ∧
      t.adeid.seen = s.adeid.seen ∧ OnlyTouches [.chk, .log, .adeid] s t) ∧
  ∀ (s : State) (x : AdeidIn) (n : Nat) (l : List Bool), s.adeid.links.length = 4 → x.q < 4 → s.lanesOpen x.q → s.linkUp x.q → x.frame.checkOk →
    x.frame.payload = some (.topo n l) → ((nth (s.link x.q).aliveRx AdeidClass.topo.num {}).test 4 7 true x.frame.alive).1.accepted →
    x.frame.bcast → x.frame.src ≠ s.adeid.node → x.frame.src < s.adeid.states.length → ∃ t, exec (.adeidFrameRx x) s = .next t ∧
      (if x.frame.secondary then (nth t.adeid.states x.frame.src {}).beatS else (nth t.adeid.states x.frame.src {}).beatP) = some s.now ∧
      (nth t.adeid.states x.frame.src {}).seq = n ∧ OnlyTouches [.chk, .log, .adeid] s t

/-- R506, R510, R558, R560: a renewed hold starts a lapsed one anew with the schedule of openings; a hold unrenewed for 1 ms closes every door. A door
opens when its time comes, unless something bars it; DOOR_CLOSE and DOOR_OPEN close and open a door and are refused where R510 says. -/
def Obligations.DoorsOpenAndClose : Prop :=
  (∀ s : State, nth s.clk.stopped 0 false = false → s.sys.held = false → s.sys.lastwords = false → s.passed s.adeid.holdRenewed 100000 →
    ∃ t, exec .doorHoldRenew s = .next t ∧ t.adeid.holdRenewed = s.now ∧ t.adeid.holdLapsed = false ∧ OnlyTouches [.adeid] s t ∧
      (s.adeid.holdLapsed = false → t.adeid.doors = s.adeid.doors) ∧
      (s.adeid.holdLapsed → 8 ≤ s.sys.stage → s.sys.stage ≤ 11 → s.adeid.doors.length = 6 → ∀ i d, s.doorsWanted[i]? = some d →
        t.door d = if (s.door d).open_ then s.door d
          else { s.door d with openAt := some (s.now + msec 300 + s.holdOff s.doorsWanted.length + msec (20 * i)) })) ∧
  (∀ s : State, s.adeid.holdLapsed = false → s.passed s.adeid.holdRenewed (msec 1) → s.adeid.doors.any (·.open_) → s.adeid.doors.length = 6 →
    ∃ t, exec .doorHoldLapse s = .next t ∧ t.adeid.holdLapsed = true ∧ (∀ d, d < 6 → t.door d = { s.door d with open_ := false, openAt := none }) ∧
      t.adeid.lastCause = 4 ∧ t.adeid.event.bits.getLsbD 7 = true ∧ OnlyTouches [.log, .net, .ptp, .adeid] s t) ∧
  (∀ (s : State) (d : Nat) (a : Ns), d < s.adeid.doors.length → (s.door d).openAt = some a → a ≤ s.now → (s.door d).open_ = false →
    ((s.door d).cmdClosed = false → s.doorBarred d = false → ∃ t, exec (.doorOpenScheduled d) s = .next t ∧
      t.door d = { s.door d with open_ := true, openAt := none } ∧ t.adeid.event = s.adeid.event.raise 7 ∧
      t.log = (s.report .doorOpen d [d]).log ∧ (∀ k, k ≠ d → t.door k = s.door k) ∧ OnlyTouches [.log, .adeid] s t) ∧
    ((s.door d).cmdClosed ∨ s.doorBarred d → ∃ t, exec (.doorOpenScheduled d) s = .next t ∧ t.door d = { s.door d with openAt := none } ∧
      (∀ k, k ≠ d → t.door k = s.door k) ∧ OnlyTouches [.adeid] s t)) ∧
  (∀ (s : State) (b d : Nat), s.ctlCmd b = some (.doorClose d) → d < s.adeid.doors.length →
    (s.refuseClose d = none → ∃ t, exec (.doorClose b) s = .next t ∧ DoneOn b 0 t ∧ (t.door d).open_ = false ∧ (t.door d).cmdClosed = true ∧
      (t.door d).openAt = none ∧ ((s.door d).open_ → t.adeid.lastCause = 1 ∧ t.adeid.lastDoor = d ∧ t.adeid.event.bits.getLsbD 7 = true) ∧
      (∀ k, k ≠ d → t.door k = s.door k) ∧ OnlyTouches [.log, .net, .ptp, .host, .adeid] s t) ∧
    (s.doorHasZone d ∨ s.harbour ∧ d < 2 → ∃ t, exec (.doorClose b) s = .next t ∧ RefusedOn b s.adeid.doorWord t ∧ t.adeid.doors = s.adeid.doors)) ∧
  ∀ (s : State) (b d : Nat), s.ctlCmd b = some (.doorOpen d) → d < s.adeid.doors.length →
    (s.refuseOpen d = none → ∃ t, exec (.doorOpen b) s = .next t ∧ DoneOn b 0 t ∧ (t.door d).open_ = true ∧ (t.door d).cmdClosed = false ∧
      ((s.door d).open_ = false → (t.door d).openAt = none) ∧ (∀ k, k ≠ d → t.door k = s.door k) ∧ OnlyTouches [.log, .host, .adeid] s t) ∧
    (s.doorBarred d → ∃ t, exec (.doorOpen b) s = .next t ∧ RefusedOn b s.adeid.doorWord t ∧ t.adeid.doors = s.adeid.doors)

/-- R526, R527, R531, R534 to R537, R545: PROVISION_ROOT burns the root once; KEY_INSTALL fills an empty slot and keeps its last nonce; MANIFEST_LOAD
writes a slot and clears its overlay, and verification makes it VALID or rejects it. MANIFEST_ACTIVATE waits for the next protection-cycle
boundary, where the slot goes live and every proposal lapses. MANIFEST_PROMOTE raises the floor by the counts it consumes and copies slot B into
slot A. R540 to R542: PROPOSE, CONFIRM by another key with the digest proposed, PROPOSE_WITHDRAW and the end of the window complete: PENDING,
COMMITTING, and EMPTY by each. -/
def Obligations.KeysSlotsAndActivation : Prop :=
  (∀ (s : State) (b : Nat) (k : BitVec 256), s.ctlCmd b = some (.provisionRoot k) →
    (s.sec.root = none → ∃ t, exec (.provisionRoot b) s = .next t ∧ DoneOn b 0 t ∧ t.sec = { s.sec with root := some k } ∧
      OnlyTouches [.log, .host, .sec] s t) ∧
    (s.sec.root.isSome → ∃ t, exec (.provisionRoot b) s = .next t ∧ RefusedOn b s.sec.status t ∧ t.sec = s.sec)) ∧
  (∀ (s : State) (b : Nat) (c : KeyCert), s.ctlCmd b = some (.keyInstall c) → c.slot < s.sec.keys.length →
    (s.sec.certOk c → (nth s.sec.keys c.slot {}).present = false → ∃ t, exec (.keyInstall b) s = .next t ∧ DoneOn b 0 t ∧
      nth t.sec.keys c.slot {} =
        { present := true, bad := false, role := c.role, key := c.key, nonce := (nth s.sec.keys c.slot {}).nonce } ∧
      (∀ i, i ≠ c.slot → nth t.sec.keys i {} = nth s.sec.keys i {}) ∧ t.sec.event = s.sec.event.raise 11 ∧ t.sec.tallyKey = s.sec.tallyKey ∧
      OnlyTouches [.log, .host, .sec] s t) ∧
    (s.sec.certOk c = false ∨ (nth s.sec.keys c.slot {}).present → ∃ t, exec (.keyInstall b) s = .next t ∧ RefusedOn b s.sec.status t ∧ t.sec = s.sec)) ∧
  (∀ (s : State) (b : Nat) (slot : Bool) (m : Image), s.ctlCmd b = some (.manifestLoad slot m) →
    (s.refuseLoad slot = none → ∃ t, exec (.manifestLoad b) s = .next t ∧ DoneOn b 0 t ∧
      t.sec.slot slot = { phase := .verifying, image := some m, cause := (s.sec.slot slot).cause, shown := (s.sec.slot slot).shown
                          section_ := (s.sec.slot slot).section_ } ∧ t.sec.slot (!slot) = s.sec.slot (!slot) ∧
      OnlyTouches [.log, .host, .sec] s t) ∧
    (s.sec.live ∧ s.sec.liveB = slot ∨ s.sec.slotA.loading ∨ s.sec.slotB.loading → ∃ t, exec (.manifestLoad b) s = .next t ∧
      RefusedOn b s.sec.status t ∧ t.sec = s.sec)) ∧
  (∀ (s : State) (slot : Bool), (s.sec.slot slot).phase = .verifying →
    (s.sec.rejectSlot slot = none → ∃ t, exec (.manifestVerifyDone slot) s = .next t ∧
      t.sec.slot slot = { s.sec.slot slot with phase := .valid, rejected := false } ∧
      t.sec.slot (!slot) = s.sec.slot (!slot) ∧ t.sec.event = s.sec.event ∧ OnlyTouches [.log, .sec] s t) ∧
    ∀ r, s.sec.rejectSlot slot = some r → ∃ t, exec (.manifestVerifyDone slot) s = .next t ∧
      (t.sec.slot slot).phase = .empty ∧ (t.sec.slot slot).rejected = true ∧ (t.sec.slot slot).cause = r.cause ∧
      (t.sec.slot slot).image = (s.sec.slot slot).image ∧ t.sec.slot (!slot) = s.sec.slot (!slot) ∧
      (r.cause ≠ 9 → (t.sec.slot slot).shown = r.cause ∧ (t.sec.slot slot).section_ = r.sect ∧ t.sec.event = s.sec.event.raise 0) ∧
      (r.cause = 9 → (t.sec.slot slot).shown = (s.sec.slot slot).shown ∧ t.sec.event = s.sec.event) ∧ OnlyTouches [.log, .chk, .sec] s t) ∧
  (∀ (s : State) (b : Nat) (slot : Bool), s.ctlCmd b = some (.manifestActivate slot) →
    (s.refuseActivate slot = none → ∃ t it, exec (.manifestActivate b) s = .next t ∧
      t.sec.activations = s.sec.activations ++ [{ slotB := slot, berth := b, boundary := s.prot.boundary }] ∧
      t.item b = some it ∧ it.stage = .target ∧ it.ending = none ∧ b ∉ t.host.qCtl ∧ t.sec.liveB = s.sec.liveB ∧
      OnlyTouches [.log, .host, .sec] s t) ∧
    ((s.sec.slot slot).phase ≠ .valid ∨ s.sec.live ∧ s.sec.liveB = slot → ∃ t, exec (.manifestActivate b) s = .next t ∧
      RefusedOn b s.sec.status t ∧ t.sec = s.sec)) ∧
  (∀ (s : State) (a : Activation) (l : List Activation), s.sec.activations = a :: l → a.boundary < s.prot.boundary → (s.item a.berth).isSome →
    (s.refuseActivate a.slotB = none → ∃ t, exec .manifestActivateEffect s = .next t ∧ t.sec.live = true ∧ t.sec.liveB = a.slotB ∧
      t.sec.bare = false ∧ t.sec.activations = l ∧ t.sec.event.bits.getLsbD 3 = true ∧ (∀ i, (t.proposal i).phase = .empty ∨ 4 ≤ i) ∧
      t.endingOf a.berth = some { status := .done } ∧
      t.manifest = (if s.fullRestart a.slotB then (s.sec.slot a.slotB).manifest else s.reloaded a.slotB) ∧ t.pending = s.pending) ∧
    ((s.sec.slot a.slotB).phase ≠ .valid → ∃ t, exec .manifestActivateEffect s = .next t ∧ RefusedOn a.berth t.sec.status t ∧
      t.sec = { s.sec with activations := l } ∧ OnlyTouches [.log, .host, .sec] s t)) ∧
  (∀ (s : State) (b n : Nat), s.ctlCmd b = some .manifestPromote → s.sec.live → s.sec.liveB → s.sec.floorNeed ≤ s.sec.tallyRollback →
    (n = 0 → ({ s.sec with slotA := { s.sec.slotB with
        phase := .verifying, cause := s.sec.slotA.cause, shown := s.sec.slotA.shown, section_ := s.sec.slotA.section_ } } : SecState).rejectSlot false = none →
      ∃ t, exec (.manifestPromote b n) s = .next t ∧ DoneOn b 0 t ∧ t.sec.liveB = false ∧ t.sec.floor = s.sec.floor + s.sec.floorNeed ∧
        t.sec.tallyRollback = s.sec.tallyRollback - s.sec.floorNeed ∧
        t.sec.slotA = { s.sec.slotB with phase := .valid, rejected := false, cause := s.sec.slotA.cause, shown := s.sec.slotA.shown
                                         section_ := s.sec.slotA.section_ } ∧
        (0 < s.sec.floorNeed → t.sec.event.bits.getLsbD 10 = true) ∧ OnlyTouches [.log, .chk, .host, .sec] s t) ∧
    (0 < n → n ≤ s.sec.floorNeed → ∃ t, exec (.manifestPromote b n) s = .next t ∧ RefusedOn b t.sec.status t ∧
      t.sec = { s.sec with tallyRollback := s.sec.tallyRollback - n, event := s.sec.event.raise 10 } ∧ OnlyTouches [.log, .host, .sec] s t)) ∧
  (∀ (s : State) (b i : Nat) (p : Propose) (it : Item), s.ctlCmd b = some (.propose p) → s.item b = some it → s.refusePropose p = none →
    s.sec.proposals.findIdx? (fun q => q.phase == .empty) = some i → ∃ t, exec (.propose b) s = .next t ∧ (t.proposal i).phase = .pending ∧
      (t.proposal i).id = p.id ∧ (t.proposal i).propSlot = it.entry.keySlot ∧ DoneOn b 0 t) ∧
  (∀ (s : State) (b i : Nat) (id : BitVec 64) (g : BitVec 128) (it : Item) (x : Propose), s.ctlCmd b = some (.confirm id g) → s.item b = some it →
    s.proposalOf? id = some i → (s.proposal i).waits s.now → (s.proposal i).body = some x → it.entry.keySlot ≠ (s.proposal i).propSlot →
    x.digest = g → ∃ t, exec (.confirm b) s = .next t ∧ (t.proposal i).phase = .committing ∧ (t.proposal i).confBerth = some b) ∧
  (∀ (s : State) (b i : Nat) (id : BitVec 64), s.ctlCmd b = some (.proposeWithdraw id) → s.proposalOf? id = some i →
    (s.proposal i).waits s.now → ∃ t, exec (.proposeWithdraw b) s = .next t ∧ (t.proposal i).phase = .empty ∧ DoneOn b 0 t) ∧
  ∀ (s : State) (i : Nat), i < s.sec.proposals.length → (s.proposal i).phase = .pending → (s.proposal i).windowEnd < s.now →
    (s.proposal i).stopped = none → ∃ t, exec (.proposalWindowLapse i) s = .next t ∧ (t.proposal i).phase = .empty

/-- R134, R540 to R542: PROPOSE completes: it takes the first EMPTY proposal and starts its window; CONFIRM by another key slot with the digest
proposed makes it COMMITTING, by the same slot or with another digest it fails and the proposal stays PENDING; PROPOSE_WITHDRAW and the end of the
window make it EMPTY. After the end of the window a CONFIRM and a PROPOSE_WITHDRAW are refused. -/
def Obligations.ProposalsPendConfirmAndLapse : Prop :=
  (∀ (s : State) (b : Nat) (p : Propose) (it : Item), s.ctlCmd b = some (.propose p) → s.item b = some it →
    (s.refusePropose p = none → ∃ t i, exec (.propose b) s = .next t ∧ s.sec.proposals.findIdx? (fun q => q.phase == .empty) = some i ∧
      DoneOn b 0 t ∧ t.proposal i = { phase := .pending, lastEnd := (s.proposal i).lastEnd, id := p.id, body := some p
                                      propSlot := it.entry.keySlot, propNonce := it.entry.nonce
                                      windowEnd := s.now + s.manifest.struct.confirmWindow } ∧
      (∀ j, j ≠ i → t.proposal j = s.proposal j) ∧ t.sec.event = s.sec.event.raise 4 ∧ OnlyTouches [.acq, .log, .host, .sec] s t) ∧
    (s.sec.proposals.all (fun q => q.phase != .empty) ∨ (s.proposalOf? p.id).isSome → ∃ t, exec (.propose b) s = .next t ∧
      RefusedOn b s.sec.status t ∧ t.sec = s.sec)) ∧
  (∀ (s : State) (b i : Nat) (id : BitVec 64) (digest : BitVec 128) (it : Item) (x : Propose), s.ctlCmd b = some (.confirm id digest) → s.item b = some it →
    s.proposalOf? id = some i → (s.proposal i).phase = .pending → (s.proposal i).body = some x →
    ((s.proposal i).waits s.now → it.entry.keySlot ≠ (s.proposal i).propSlot → x.digest = digest → ∃ t u, exec (.confirm b) s = .next t ∧
      t.proposal i = { s.proposal i with
                       phase := .committing, stopped := none, confSlot := it.entry.keySlot, confNonce := it.entry.nonce
                       confBerth := some b, confOrder := it.tAdmit } ∧
      t.item b = some u ∧ u.stage = .target ∧ u.ending = none ∧ b ∉ t.host.qCtl ∧ (∀ j, j ≠ i → t.proposal j = s.proposal j) ∧
      t.sec.event = s.sec.event.raise 5 ∧ OnlyTouches [.log, .host, .sec] s t) ∧
    (s.now ≤ (s.proposal i).windowEnd → it.entry.keySlot = (s.proposal i).propSlot → ∃ t, exec (.confirm b) s = .next t ∧
      t.endingOf b = some { status := .failed, reason := some .sigFail } ∧ (t.proposal i).phase = .pending ∧
      (t.proposal i).confBerth = (s.proposal i).confBerth ∧ t.sec.event = s.sec.event ∧ OnlyTouches [.log, .host, .sec] s t) ∧
    (s.now ≤ (s.proposal i).windowEnd → it.entry.keySlot ≠ (s.proposal i).propSlot → x.digest ≠ digest → ∃ t, exec (.confirm b) s = .next t ∧
      t.endingOf b = some { status := .failed, reason := some .execError } ∧ (t.proposal i).phase = .pending ∧
      t.sec.event = s.sec.event ∧ OnlyTouches [.log, .host, .sec] s t)) ∧
  (∀ (s : State) (b : Nat) (id : BitVec 64) (digest : BitVec 128), s.ctlCmd b = some (.confirm id digest) →
    (∀ i, s.proposalOf? id = some i → (s.proposal i).waits s.now = false) →
    ∃ t, exec (.confirm b) s = .next t ∧ RefusedOn b s.sec.status t ∧ t.sec = s.sec) ∧
  (∀ (s : State) (b : Nat) (id : BitVec 64), s.ctlCmd b = some (.proposeWithdraw id) →
    (∀ i, s.proposalOf? id = some i → (s.proposal i).waits s.now = false) →
    ∃ t, exec (.proposeWithdraw b) s = .next t ∧ RefusedOn b s.sec.status t ∧ t.sec = s.sec) ∧
  (∀ (s : State) (b i : Nat) (id : BitVec 64), s.ctlCmd b = some (.proposeWithdraw id) → s.proposalOf? id = some i → (s.proposal i).waits s.now →
    ∃ t, exec (.proposeWithdraw b) s = .next t ∧ DoneOn b 0 t ∧ (t.proposal i).phase = .empty ∧ (t.proposal i).lastEnd = .withdraw ∧
      (∀ j, j ≠ i → t.proposal j = s.proposal j) ∧ t.sec.event = s.sec.event.raise 7 ∧ OnlyTouches [.acq, .log, .host, .sec] s t) ∧
  ∀ (s : State) (i : Nat), i < s.sec.proposals.length → (s.proposal i).phase = .pending → (s.proposal i).windowEnd < s.now →
    (s.proposal i).stopped = none → ∃ t, exec (.proposalWindowLapse i) s = .next t ∧ (t.proposal i).phase = .empty ∧
      (t.proposal i).lastEnd = .window ∧ (∀ j, j ≠ i → t.proposal j = s.proposal j) ∧ t.sec.event = s.sec.event.raise 7 ∧
      OnlyTouches [.acq, .log, .sec] s t

/-- R575, R576, R583, R584: a periodic self-test runs at its interval, its failure sets its bit and stands until a pass, and the crypto test stops
signatures; a memory error is counted, an uncorrectable one flagged. HEALTH is the highest severity present, and ALERT_N follows. -/
def Obligations.SelfTestsAndErrorsMoveHealth : Prop :=
  (∀ (s : State) (x : SelfTest) (l : LoopId) (d : Ns) (pass : Bool), x.interval = some d → s.sys.held = false →
    s.passed (nth s.diag.ranAt x.bit 0) d → x.bit < s.diag.ranAt.length → ∃ t, exec (.diagSelftestPeriodic x l pass) s = .next t ∧
      nth t.diag.ranAt x.bit 0 = s.now ∧ (pass → t.diag.testFail = s.diag.testFail ∧ x ∉ t.diag.failing) ∧
      (pass = false → t.diag.testFail = s.diag.testFail ||| flag x.bit true ∧ x ∈ t.diag.failing ∧ t.diag.event.bits.getLsbD 0 = true) ∧
      (∀ y, y ≠ x → (y ∈ t.diag.failing ↔ y ∈ s.diag.failing)) ∧ t.sec = (if x = .crypto then { s.sec with cryptoFail := !pass } else s.sec) ∧
      t.diag.health = t.healthNow ∧ t.diag.alertLow = t.alertDriven ∧ (x ≠ .clkGuard ∨ pass → OnlyTouches [.log, .sec, .diag] s t)) ∧
  (∀ (s : State) (x : SelfTest) (l : LoopId) (pass : Bool), x.interval = none ∨ s.sys.held →
    exec (.diagSelftestPeriodic x l pass) s = .next s) ∧
  (∀ (s : State) (x : EccIn), x.m < 8 → x.m < s.diag.ecc.length →
    (x.corrected → ∃ t, exec (.diagEccError x) s = .next t ∧
      (nth t.diag.ecc x.m {}).corrected = satInc 16 (nth s.diag.ecc x.m {}).corrected ∧
      (nth t.diag.ecc x.m {}).uncorrected = (nth s.diag.ecc x.m {}).uncorrected ∧ t.diag.health = t.healthNow ∧
      t.diag.alertLow = t.alertDriven ∧ (∀ i, i ≠ x.m → nth t.diag.ecc i {} = nth s.diag.ecc i {}) ∧ OnlyTouches [.log, .diag] s t) ∧
    (x.corrected = false → ∃ t, exec (.diagEccError x) s = .next t ∧
      (nth t.diag.ecc x.m {}).uncorrected = satInc 16 (nth s.diag.ecc x.m {}).uncorrected ∧
      (nth t.diag.ecc x.m {}).uncorrAt = some s.now ∧ t.diag.event.bits.getLsbD 1 = true ∧ t.diag.health = t.healthNow ∧
      t.diag.alertLow = t.alertDriven ∧ (∀ i, i ≠ x.m → nth t.diag.ecc i {} = nth s.diag.ecc i {}) ∧
      (x.m = 2 → (t.prot.lane .a).ecc = true) ∧ (∀ b, 6 ≤ x.m → x.place = .slot b → (t.sec.slot b).memError = true) ∧
      OnlyTouches [.prot, .logic, .fio, .capt, .log, .sec, .diag] s t)) ∧
  ∀ (s : State) (b : Nat), s.ctlCmd b = some .diagBundle → ∃ t, exec (.diagBundle b) s = .next t ∧ DoneOn b 0 t ∧
    (∃ u, t.diag = { s.diag with bundles := s.diag.bundles + 1, bundle := some u } ∧ u.device = s.sec.device ∧ u.ts = s.ts32 ∧
      u.ledger = s.diag.ledger ∧ u.ecc = s.diag.ecc ∧ u.ages = s.diag.ages ∧ u.temps = s.diag.temps) ∧ OnlyTouches [.log, .host, .diag] s t

/-- R577 to R582: a refresh pass starts 450 days after the last one, rewrites a line every 2 s in sequence, taking the lines passed over in their
turn, and counts when the last is done; sensors are read every 100 ms with their peaks, delay drifts daily; OPSEC is committed each second, the
ledger each minute. -/
def Obligations.RefreshTemperatureAndLedger : Prop :=
  (∀ s : State, s.diag.refresh.active = false → s.refreshMay → refreshInterval ≤ s.refreshAge → ∃ t, exec .mramRefreshStart s = .next t ∧
    t.diag.refresh.active = true ∧ t.diag.refresh.cursor = 0 ∧ t.diag.refresh.skipped = [] ∧ t.diag.refresh.startOps = s.diag.ledger.opsec ∧
    t.diag.refresh.startPtp = (if s.ptp.timeKnown then s.ptpSec else 0) ∧
    t.diag.refresh.lateInPass = decide (refreshInterval < s.refreshAge) ∧ (refreshInterval < s.refreshAge → t.diag.event.bits.getLsbD 2 = true) ∧
    t.diag.ledger = s.diag.ledger ∧ t.diag.health = t.healthNow ∧ OnlyTouches [.log, .diag] s t) ∧
  (∀ s : State, s.diag.refresh.active ∨ s.refreshMay = false ∨ s.refreshAge < refreshInterval → exec .mramRefreshStart s = .next s) ∧
  (∀ (s : State) (corrected : Bool), s.diag.refresh.active → s.refreshMay → s.diag.refresh.skipped = [] →
    s.passed s.diag.refresh.lineAt (secs 2) → s.diag.refresh.cursor < mramLines → ∃ t, exec (.mramRefreshLine s.diag.refresh.cursor corrected) s = .next t ∧
      t.diag.refresh.cursor = s.diag.refresh.cursor + 1 ∧ t.diag.refresh.lineAt = s.now ∧
      t.diag.refresh.corrected = s.diag.refresh.corrected + b2n corrected ∧
      t.diag.refresh.active = decide (s.diag.refresh.cursor + 1 ≠ mramLines) ∧
      t.diag.ledger.refreshPasses = s.diag.ledger.refreshPasses + (if s.diag.refresh.cursor + 1 = mramLines then 1 else 0) ∧
      OnlyTouches [.log, .diag] s t) ∧
  (∀ (s : State) (line : Nat) (corrected : Bool), s.diag.refresh.active → s.refreshMay → s.passed s.diag.refresh.lineAt (secs 2) →
    line ∈ s.diag.refresh.skipped → s.diag.refresh.cursor < mramLines → ∃ t, exec (.mramRefreshLine line corrected) s = .next t ∧
      t.diag.refresh.cursor = s.diag.refresh.cursor ∧ line ∉ t.diag.refresh.skipped ∧ t.diag.refresh.active = true ∧
      (∀ k, k ≠ line → (k ∈ t.diag.refresh.skipped ↔ k ∈ s.diag.refresh.skipped)) ∧ OnlyTouches [.log, .diag] s t) ∧
  (∀ (s : State) (x : List Int), s.sys.held = false → s.passed s.diag.tempAt (msec 100) → x.length = 5 → s.diag.temps.length = 5 →
    ∃ t, exec (.diagTempRead x) s = .next t ∧
      (∀ i, i < 5 → nth t.diag.temps i {} = { now_ := nth x i 0, peak := if s.diag.tempAt = 0 then nth x i 0 else max (nth s.diag.temps i {}).peak (nth x i 0) }) ∧
      (t.diag.tempWarn ↔ 850 < nth x 4 0 ∨ ∃ i, i < 4 ∧ 1100 < nth x i 0) ∧ t.diag.tempAt = s.now ∧ t.diag.health = t.healthNow ∧
      OnlyTouches [.log, .diag] s t) ∧
  (∀ (s : State) (x : List Nat), s.sys.held = false → (∀ a, s.diag.ageAt = some a → s.passed a (secs 86400)) → x.length = 5 →
    ∃ t, exec (.diagAgeMeasure x) s = .next t ∧ t.diag.ages = x ∧ t.diag.ageAt = some s.now ∧
      (t.diag.ageWarn ↔ ∃ a ∈ x, 500 ≤ a) ∧ (t.diag.ageAlarm ↔ ∃ a ∈ x, 800 ≤ a) ∧ t.diag.health = t.healthNow ∧ OnlyTouches [.log, .diag] s t) ∧
  ∀ s : State, s.sys.held = false → s.sys.lastwords = false → s.passed s.diag.opsAt (secs 1) →
    ∃ t, exec .ledgerCommit s = .next t ∧ t.diag.ledger.opsec = satInc 32 s.diag.ledger.opsec ∧
      t.diag.stored.opsec = satInc 32 s.diag.ledger.opsec ∧ t.diag.opsAt = s.now ∧
      t.diag.ledger.hist = updAt s.diag.ledger.hist (tempBin (nth s.diag.temps 4 {}).now_) (satInc 32) ∧
      t.diag.ledger.switches = s.diag.ledger.switches ∧
      (s.diag.opsRun + 1 < 60 → t.diag.ledger.age = s.diag.ledger.age ∧ t.diag.opsRun = s.diag.opsRun + 1 ∧
        t.diag.stored = { s.diag.stored with opsec := satInc 32 s.diag.ledger.opsec }) ∧
      (60 ≤ s.diag.opsRun + 1 → t.diag.stored = t.diag.ledger ∧ t.diag.opsRun = 0 ∧ t.diag.tempCount = 0 ∧
        t.diag.lifeUsed = t.diag.ledger.lifeUsed ∧ (800 ≤ t.diag.lifeUsed → t.diag.lifeWarn = true) ∧
        (1000 ≤ t.diag.lifeUsed → t.diag.lifeEnd = true) ∧ t.diag.health = t.healthNow) ∧ OnlyTouches [.log, .diag] s t

/-- A step takes the command at the front of the queue, first in, first out, and is that command's effect on the state with the queue's rest. -/
def Obligations.StepRunsTheFrontCommand : Prop :=
  ∀ (c : Instr) (s : State) (l : List Instr), step { s with pending := c :: l } = exec c { s with pending := l }

/-- R526, R537, R545: whatever a step does, the root once set stays, the floor does not fall, and no Tally count comes back. -/
def Obligations.StepsKeepAntifuses : Prop :=
  ∀ s t : State, step s = .next t → SecKept s.sec t.sec

/-- R69, R487: every step keeps the 128 berths and the 256 marks. -/
def Obligations.StepsKeepTheShape : Prop :=
  ∀ s t : State, Shape s → step s = .next t → Shape t

/-- R69, R487, R527, R540, R545, R554, R571, R572: reset has the shape that steps keep: no command waits, power-on reset is held, the supplies read
ABSENT, no Manifest is live, every door is closed, every Tally is full and every proposal EMPTY. -/
def Obligations.ResetHasItsShapeAndValues : Prop :=
  Shape State.reset ∧ State.reset.pending = [] ∧ State.reset.sys.held = true ∧ State.reset.liveReg .sys 4 = 0 ∧ State.reset.sysSupply = 15 ∧
  State.reset.sec.live = false ∧ State.reset.sec.root = none ∧ State.reset.sec.tallyRollback = 255 ∧ State.reset.sec.tallyEpoch = 63 ∧
  (∀ k, k < 8 → nth State.reset.sec.tallyKey k 0 = 15 ∧ (nth State.reset.sec.keys k {}).present = false) ∧
  (∀ i, (State.reset.proposal i).phase = .empty) ∧ (∀ d, (State.reset.door d).open_ = false) ∧ ∀ b, State.reset.endingOf b = none

/-- R10, stated: the read of a low word takes a snapshot, and a later read by the same requester of a further word of the same quantity returns the
value that the word had then, whatever has happened meanwhile but a new snapshot. -/
def Obligations.HighWordsReturnTheSnapshot : Prop :=
  ∀ (s : State) (who : Requester) (o p : Nat) (b : Blk), o < 4194304 → o % 4 = 0 → b = blkAt o → s.bar0Blocked o false = none →
    s.oldestSnapped who b (o - blkBase b) = false → snapLow b (o - blkBase b) = false → p ∈ snapGroup b (o - blkBase b) →
    ∃ t, exec (.snapshotLowWordRead who o) s = .next t ∧ t.host.accesses = .data (s.liveReg b (o - blkBase b)) :: s.host.accesses ∧
      ∀ u : State, u.snaps = t.snaps → u.itemCreated b p → u.bar0Blocked (blkBase b + p) false = none →
        ∃ v, exec (.snapshotLowWordRead who (blkBase b + p)) u = .next v ∧ v.host.accesses = .data (s.liveReg b p) :: u.host.accesses

/-- R571, stated: the fields of SYS_STATUS, and what they read at reset. -/
def Obligations.SysStatusHoldsItsFields : Prop :=
  (∀ s : State, s.sys.stage < 16 → (s.liveReg .sys 4).extractLsb' 0 4 = BitVec.ofNat 4 s.sys.stage ∧
    (s.liveReg .sys 4).extractLsb' 4 2 = BitVec.ofNat 2 s.sys.profile.num ∧ (s.liveReg .sys 4).getLsbD 6 = s.sys.live ∧
    (s.liveReg .sys 4).getLsbD 7 = s.sys.lastwords ∧ (s.liveReg .sys 4).extractLsb' 8 24 = 0) ∧
  State.reset.liveReg .sys 4 = 0
end

