-- ==== Sys2Proof/Laws/State.lean ====
section
/-! SUPPORT. Every field of the state after every named update: one lemma per field per update. -/

namespace Sys2Proof.Machine

open Sys2Proof

variable (s : State)

/-! ### onSys -/

@[simp] theorem State.onSys_now (f : SysState → SysState) : (s.onSys f).now = s.now := rfl
@[simp] theorem State.onSys_ltc (f : SysState → SysState) : (s.onSys f).ltc = s.ltc := rfl
@[simp] theorem State.onSys_fresh (f : SysState → SysState) : (s.onSys f).fresh = s.fresh := rfl
@[simp] theorem State.onSys_manifest (f : SysState → SysState) : (s.onSys f).manifest = s.manifest := rfl
@[simp] theorem State.onSys_sys (f : SysState → SysState) : (s.onSys f).sys = f s.sys := rfl
@[simp] theorem State.onSys_clk (f : SysState → SysState) : (s.onSys f).clk = s.clk := rfl
@[simp] theorem State.onSys_tide (f : SysState → SysState) : (s.onSys f).tide = s.tide := rfl
@[simp] theorem State.onSys_acq (f : SysState → SysState) : (s.onSys f).acq = s.acq := rfl
@[simp] theorem State.onSys_prot (f : SysState → SysState) : (s.onSys f).prot = s.prot := rfl
@[simp] theorem State.onSys_diff (f : SysState → SysState) : (s.onSys f).diff = s.diff := rfl
@[simp] theorem State.onSys_form (f : SysState → SysState) : (s.onSys f).form = s.form := rfl
@[simp] theorem State.onSys_gate (f : SysState → SysState) : (s.onSys f).gate = s.gate := rfl
@[simp] theorem State.onSys_logic (f : SysState → SysState) : (s.onSys f).logic = s.logic := rfl
@[simp] theorem State.onSys_fio (f : SysState → SysState) : (s.onSys f).fio = s.fio := rfl
@[simp] theorem State.onSys_capt (f : SysState → SysState) : (s.onSys f).capt = s.capt := rfl
@[simp] theorem State.onSys_log (f : SysState → SysState) : (s.onSys f).log = s.log := rfl
@[simp] theorem State.onSys_net (f : SysState → SysState) : (s.onSys f).net = s.net := rfl
@[simp] theorem State.onSys_ptp (f : SysState → SysState) : (s.onSys f).ptp = s.ptp := rfl
@[simp] theorem State.onSys_chk (f : SysState → SysState) : (s.onSys f).chk = s.chk := rfl
@[simp] theorem State.onSys_host (f : SysState → SysState) : (s.onSys f).host = s.host := rfl
@[simp] theorem State.onSys_adeid (f : SysState → SysState) : (s.onSys f).adeid = s.adeid := rfl
@[simp] theorem State.onSys_sec (f : SysState → SysState) : (s.onSys f).sec = s.sec := rfl
@[simp] theorem State.onSys_diag (f : SysState → SysState) : (s.onSys f).diag = s.diag := rfl
@[simp] theorem State.onSys_snaps (f : SysState → SysState) : (s.onSys f).snaps = s.snaps := rfl
@[simp] theorem State.onSys_pending (f : SysState → SysState) : (s.onSys f).pending = s.pending := rfl

/-! ### onClk -/

@[simp] theorem State.onClk_now (f : ClkState → ClkState) : (s.onClk f).now = s.now := rfl
@[simp] theorem State.onClk_ltc (f : ClkState → ClkState) : (s.onClk f).ltc = s.ltc := rfl
@[simp] theorem State.onClk_fresh (f : ClkState → ClkState) : (s.onClk f).fresh = s.fresh := rfl
@[simp] theorem State.onClk_manifest (f : ClkState → ClkState) : (s.onClk f).manifest = s.manifest := rfl
@[simp] theorem State.onClk_sys (f : ClkState → ClkState) : (s.onClk f).sys = s.sys := rfl
@[simp] theorem State.onClk_clk (f : ClkState → ClkState) : (s.onClk f).clk = f s.clk := rfl
@[simp] theorem State.onClk_tide (f : ClkState → ClkState) : (s.onClk f).tide = s.tide := rfl
@[simp] theorem State.onClk_acq (f : ClkState → ClkState) : (s.onClk f).acq = s.acq := rfl
@[simp] theorem State.onClk_prot (f : ClkState → ClkState) : (s.onClk f).prot = s.prot := rfl
@[simp] theorem State.onClk_diff (f : ClkState → ClkState) : (s.onClk f).diff = s.diff := rfl
@[simp] theorem State.onClk_form (f : ClkState → ClkState) : (s.onClk f).form = s.form := rfl
@[simp] theorem State.onClk_gate (f : ClkState → ClkState) : (s.onClk f).gate = s.gate := rfl
@[simp] theorem State.onClk_logic (f : ClkState → ClkState) : (s.onClk f).logic = s.logic := rfl
@[simp] theorem State.onClk_fio (f : ClkState → ClkState) : (s.onClk f).fio = s.fio := rfl
@[simp] theorem State.onClk_capt (f : ClkState → ClkState) : (s.onClk f).capt = s.capt := rfl
@[simp] theorem State.onClk_log (f : ClkState → ClkState) : (s.onClk f).log = s.log := rfl
@[simp] theorem State.onClk_net (f : ClkState → ClkState) : (s.onClk f).net = s.net := rfl
@[simp] theorem State.onClk_ptp (f : ClkState → ClkState) : (s.onClk f).ptp = s.ptp := rfl
@[simp] theorem State.onClk_chk (f : ClkState → ClkState) : (s.onClk f).chk = s.chk := rfl
@[simp] theorem State.onClk_host (f : ClkState → ClkState) : (s.onClk f).host = s.host := rfl
@[simp] theorem State.onClk_adeid (f : ClkState → ClkState) : (s.onClk f).adeid = s.adeid := rfl
@[simp] theorem State.onClk_sec (f : ClkState → ClkState) : (s.onClk f).sec = s.sec := rfl
@[simp] theorem State.onClk_diag (f : ClkState → ClkState) : (s.onClk f).diag = s.diag := rfl
@[simp] theorem State.onClk_snaps (f : ClkState → ClkState) : (s.onClk f).snaps = s.snaps := rfl
@[simp] theorem State.onClk_pending (f : ClkState → ClkState) : (s.onClk f).pending = s.pending := rfl

/-! ### onTide -/

@[simp] theorem State.onTide_now (f : TideState → TideState) : (s.onTide f).now = s.now := rfl
@[simp] theorem State.onTide_ltc (f : TideState → TideState) : (s.onTide f).ltc = s.ltc := rfl
@[simp] theorem State.onTide_fresh (f : TideState → TideState) : (s.onTide f).fresh = s.fresh := rfl
@[simp] theorem State.onTide_manifest (f : TideState → TideState) : (s.onTide f).manifest = s.manifest := rfl
@[simp] theorem State.onTide_sys (f : TideState → TideState) : (s.onTide f).sys = s.sys := rfl
@[simp] theorem State.onTide_clk (f : TideState → TideState) : (s.onTide f).clk = s.clk := rfl
@[simp] theorem State.onTide_tide (f : TideState → TideState) : (s.onTide f).tide = f s.tide := rfl
@[simp] theorem State.onTide_acq (f : TideState → TideState) : (s.onTide f).acq = s.acq := rfl
@[simp] theorem State.onTide_prot (f : TideState → TideState) : (s.onTide f).prot = s.prot := rfl
@[simp] theorem State.onTide_diff (f : TideState → TideState) : (s.onTide f).diff = s.diff := rfl
@[simp] theorem State.onTide_form (f : TideState → TideState) : (s.onTide f).form = s.form := rfl
@[simp] theorem State.onTide_gate (f : TideState → TideState) : (s.onTide f).gate = s.gate := rfl
@[simp] theorem State.onTide_logic (f : TideState → TideState) : (s.onTide f).logic = s.logic := rfl
@[simp] theorem State.onTide_fio (f : TideState → TideState) : (s.onTide f).fio = s.fio := rfl
@[simp] theorem State.onTide_capt (f : TideState → TideState) : (s.onTide f).capt = s.capt := rfl
@[simp] theorem State.onTide_log (f : TideState → TideState) : (s.onTide f).log = s.log := rfl
@[simp] theorem State.onTide_net (f : TideState → TideState) : (s.onTide f).net = s.net := rfl
@[simp] theorem State.onTide_ptp (f : TideState → TideState) : (s.onTide f).ptp = s.ptp := rfl
@[simp] theorem State.onTide_chk (f : TideState → TideState) : (s.onTide f).chk = s.chk := rfl
@[simp] theorem State.onTide_host (f : TideState → TideState) : (s.onTide f).host = s.host := rfl
@[simp] theorem State.onTide_adeid (f : TideState → TideState) : (s.onTide f).adeid = s.adeid := rfl
@[simp] theorem State.onTide_sec (f : TideState → TideState) : (s.onTide f).sec = s.sec := rfl
@[simp] theorem State.onTide_diag (f : TideState → TideState) : (s.onTide f).diag = s.diag := rfl
@[simp] theorem State.onTide_snaps (f : TideState → TideState) : (s.onTide f).snaps = s.snaps := rfl
@[simp] theorem State.onTide_pending (f : TideState → TideState) : (s.onTide f).pending = s.pending := rfl

/-! ### onAcq -/

@[simp] theorem State.onAcq_now (f : AcqState → AcqState) : (s.onAcq f).now = s.now := rfl
@[simp] theorem State.onAcq_ltc (f : AcqState → AcqState) : (s.onAcq f).ltc = s.ltc := rfl
@[simp] theorem State.onAcq_fresh (f : AcqState → AcqState) : (s.onAcq f).fresh = s.fresh := rfl
@[simp] theorem State.onAcq_manifest (f : AcqState → AcqState) : (s.onAcq f).manifest = s.manifest := rfl
@[simp] theorem State.onAcq_sys (f : AcqState → AcqState) : (s.onAcq f).sys = s.sys := rfl
@[simp] theorem State.onAcq_clk (f : AcqState → AcqState) : (s.onAcq f).clk = s.clk := rfl
@[simp] theorem State.onAcq_tide (f : AcqState → AcqState) : (s.onAcq f).tide = s.tide := rfl
@[simp] theorem State.onAcq_acq (f : AcqState → AcqState) : (s.onAcq f).acq = f s.acq := rfl
@[simp] theorem State.onAcq_prot (f : AcqState → AcqState) : (s.onAcq f).prot = s.prot := rfl
@[simp] theorem State.onAcq_diff (f : AcqState → AcqState) : (s.onAcq f).diff = s.diff := rfl
@[simp] theorem State.onAcq_form (f : AcqState → AcqState) : (s.onAcq f).form = s.form := rfl
@[simp] theorem State.onAcq_gate (f : AcqState → AcqState) : (s.onAcq f).gate = s.gate := rfl
@[simp] theorem State.onAcq_logic (f : AcqState → AcqState) : (s.onAcq f).logic = s.logic := rfl
@[simp] theorem State.onAcq_fio (f : AcqState → AcqState) : (s.onAcq f).fio = s.fio := rfl
@[simp] theorem State.onAcq_capt (f : AcqState → AcqState) : (s.onAcq f).capt = s.capt := rfl
@[simp] theorem State.onAcq_log (f : AcqState → AcqState) : (s.onAcq f).log = s.log := rfl
@[simp] theorem State.onAcq_net (f : AcqState → AcqState) : (s.onAcq f).net = s.net := rfl
@[simp] theorem State.onAcq_ptp (f : AcqState → AcqState) : (s.onAcq f).ptp = s.ptp := rfl
@[simp] theorem State.onAcq_chk (f : AcqState → AcqState) : (s.onAcq f).chk = s.chk := rfl
@[simp] theorem State.onAcq_host (f : AcqState → AcqState) : (s.onAcq f).host = s.host := rfl
@[simp] theorem State.onAcq_adeid (f : AcqState → AcqState) : (s.onAcq f).adeid = s.adeid := rfl
@[simp] theorem State.onAcq_sec (f : AcqState → AcqState) : (s.onAcq f).sec = s.sec := rfl
@[simp] theorem State.onAcq_diag (f : AcqState → AcqState) : (s.onAcq f).diag = s.diag := rfl
@[simp] theorem State.onAcq_snaps (f : AcqState → AcqState) : (s.onAcq f).snaps = s.snaps := rfl
@[simp] theorem State.onAcq_pending (f : AcqState → AcqState) : (s.onAcq f).pending = s.pending := rfl

/-! ### onProt -/

@[simp] theorem State.onProt_now (f : ProtState → ProtState) : (s.onProt f).now = s.now := rfl
@[simp] theorem State.onProt_ltc (f : ProtState → ProtState) : (s.onProt f).ltc = s.ltc := rfl
@[simp] theorem State.onProt_fresh (f : ProtState → ProtState) : (s.onProt f).fresh = s.fresh := rfl
@[simp] theorem State.onProt_manifest (f : ProtState → ProtState) : (s.onProt f).manifest = s.manifest := rfl
@[simp] theorem State.onProt_sys (f : ProtState → ProtState) : (s.onProt f).sys = s.sys := rfl
@[simp] theorem State.onProt_clk (f : ProtState → ProtState) : (s.onProt f).clk = s.clk := rfl
@[simp] theorem State.onProt_tide (f : ProtState → ProtState) : (s.onProt f).tide = s.tide := rfl
@[simp] theorem State.onProt_acq (f : ProtState → ProtState) : (s.onProt f).acq = s.acq := rfl
@[simp] theorem State.onProt_prot (f : ProtState → ProtState) : (s.onProt f).prot = f s.prot := rfl
@[simp] theorem State.onProt_diff (f : ProtState → ProtState) : (s.onProt f).diff = s.diff := rfl
@[simp] theorem State.onProt_form (f : ProtState → ProtState) : (s.onProt f).form = s.form := rfl
@[simp] theorem State.onProt_gate (f : ProtState → ProtState) : (s.onProt f).gate = s.gate := rfl
@[simp] theorem State.onProt_logic (f : ProtState → ProtState) : (s.onProt f).logic = s.logic := rfl
@[simp] theorem State.onProt_fio (f : ProtState → ProtState) : (s.onProt f).fio = s.fio := rfl
@[simp] theorem State.onProt_capt (f : ProtState → ProtState) : (s.onProt f).capt = s.capt := rfl
@[simp] theorem State.onProt_log (f : ProtState → ProtState) : (s.onProt f).log = s.log := rfl
@[simp] theorem State.onProt_net (f : ProtState → ProtState) : (s.onProt f).net = s.net := rfl
@[simp] theorem State.onProt_ptp (f : ProtState → ProtState) : (s.onProt f).ptp = s.ptp := rfl
@[simp] theorem State.onProt_chk (f : ProtState → ProtState) : (s.onProt f).chk = s.chk := rfl
@[simp] theorem State.onProt_host (f : ProtState → ProtState) : (s.onProt f).host = s.host := rfl
@[simp] theorem State.onProt_adeid (f : ProtState → ProtState) : (s.onProt f).adeid = s.adeid := rfl
@[simp] theorem State.onProt_sec (f : ProtState → ProtState) : (s.onProt f).sec = s.sec := rfl
@[simp] theorem State.onProt_diag (f : ProtState → ProtState) : (s.onProt f).diag = s.diag := rfl
@[simp] theorem State.onProt_snaps (f : ProtState → ProtState) : (s.onProt f).snaps = s.snaps := rfl
@[simp] theorem State.onProt_pending (f : ProtState → ProtState) : (s.onProt f).pending = s.pending := rfl

/-! ### onDiff -/

@[simp] theorem State.onDiff_now (f : DiffState → DiffState) : (s.onDiff f).now = s.now := rfl
@[simp] theorem State.onDiff_ltc (f : DiffState → DiffState) : (s.onDiff f).ltc = s.ltc := rfl
@[simp] theorem State.onDiff_fresh (f : DiffState → DiffState) : (s.onDiff f).fresh = s.fresh := rfl
@[simp] theorem State.onDiff_manifest (f : DiffState → DiffState) : (s.onDiff f).manifest = s.manifest := rfl
@[simp] theorem State.onDiff_sys (f : DiffState → DiffState) : (s.onDiff f).sys = s.sys := rfl
@[simp] theorem State.onDiff_clk (f : DiffState → DiffState) : (s.onDiff f).clk = s.clk := rfl
@[simp] theorem State.onDiff_tide (f : DiffState → DiffState) : (s.onDiff f).tide = s.tide := rfl
@[simp] theorem State.onDiff_acq (f : DiffState → DiffState) : (s.onDiff f).acq = s.acq := rfl
@[simp] theorem State.onDiff_prot (f : DiffState → DiffState) : (s.onDiff f).prot = s.prot := rfl
@[simp] theorem State.onDiff_diff (f : DiffState → DiffState) : (s.onDiff f).diff = f s.diff := rfl
@[simp] theorem State.onDiff_form (f : DiffState → DiffState) : (s.onDiff f).form = s.form := rfl
@[simp] theorem State.onDiff_gate (f : DiffState → DiffState) : (s.onDiff f).gate = s.gate := rfl
@[simp] theorem State.onDiff_logic (f : DiffState → DiffState) : (s.onDiff f).logic = s.logic := rfl
@[simp] theorem State.onDiff_fio (f : DiffState → DiffState) : (s.onDiff f).fio = s.fio := rfl
@[simp] theorem State.onDiff_capt (f : DiffState → DiffState) : (s.onDiff f).capt = s.capt := rfl
@[simp] theorem State.onDiff_log (f : DiffState → DiffState) : (s.onDiff f).log = s.log := rfl
@[simp] theorem State.onDiff_net (f : DiffState → DiffState) : (s.onDiff f).net = s.net := rfl
@[simp] theorem State.onDiff_ptp (f : DiffState → DiffState) : (s.onDiff f).ptp = s.ptp := rfl
@[simp] theorem State.onDiff_chk (f : DiffState → DiffState) : (s.onDiff f).chk = s.chk := rfl
@[simp] theorem State.onDiff_host (f : DiffState → DiffState) : (s.onDiff f).host = s.host := rfl
@[simp] theorem State.onDiff_adeid (f : DiffState → DiffState) : (s.onDiff f).adeid = s.adeid := rfl
@[simp] theorem State.onDiff_sec (f : DiffState → DiffState) : (s.onDiff f).sec = s.sec := rfl
@[simp] theorem State.onDiff_diag (f : DiffState → DiffState) : (s.onDiff f).diag = s.diag := rfl
@[simp] theorem State.onDiff_snaps (f : DiffState → DiffState) : (s.onDiff f).snaps = s.snaps := rfl
@[simp] theorem State.onDiff_pending (f : DiffState → DiffState) : (s.onDiff f).pending = s.pending := rfl

/-! ### onForm -/

@[simp] theorem State.onForm_now (f : FormState → FormState) : (s.onForm f).now = s.now := rfl
@[simp] theorem State.onForm_ltc (f : FormState → FormState) : (s.onForm f).ltc = s.ltc := rfl
@[simp] theorem State.onForm_fresh (f : FormState → FormState) : (s.onForm f).fresh = s.fresh := rfl
@[simp] theorem State.onForm_manifest (f : FormState → FormState) : (s.onForm f).manifest = s.manifest := rfl
@[simp] theorem State.onForm_sys (f : FormState → FormState) : (s.onForm f).sys = s.sys := rfl
@[simp] theorem State.onForm_clk (f : FormState → FormState) : (s.onForm f).clk = s.clk := rfl
@[simp] theorem State.onForm_tide (f : FormState → FormState) : (s.onForm f).tide = s.tide := rfl
@[simp] theorem State.onForm_acq (f : FormState → FormState) : (s.onForm f).acq = s.acq := rfl
@[simp] theorem State.onForm_prot (f : FormState → FormState) : (s.onForm f).prot = s.prot := rfl
@[simp] theorem State.onForm_diff (f : FormState → FormState) : (s.onForm f).diff = s.diff := rfl
@[simp] theorem State.onForm_form (f : FormState → FormState) : (s.onForm f).form = f s.form := rfl
@[simp] theorem State.onForm_gate (f : FormState → FormState) : (s.onForm f).gate = s.gate := rfl
@[simp] theorem State.onForm_logic (f : FormState → FormState) : (s.onForm f).logic = s.logic := rfl
@[simp] theorem State.onForm_fio (f : FormState → FormState) : (s.onForm f).fio = s.fio := rfl
@[simp] theorem State.onForm_capt (f : FormState → FormState) : (s.onForm f).capt = s.capt := rfl
@[simp] theorem State.onForm_log (f : FormState → FormState) : (s.onForm f).log = s.log := rfl
@[simp] theorem State.onForm_net (f : FormState → FormState) : (s.onForm f).net = s.net := rfl
@[simp] theorem State.onForm_ptp (f : FormState → FormState) : (s.onForm f).ptp = s.ptp := rfl
@[simp] theorem State.onForm_chk (f : FormState → FormState) : (s.onForm f).chk = s.chk := rfl
@[simp] theorem State.onForm_host (f : FormState → FormState) : (s.onForm f).host = s.host := rfl
@[simp] theorem State.onForm_adeid (f : FormState → FormState) : (s.onForm f).adeid = s.adeid := rfl
@[simp] theorem State.onForm_sec (f : FormState → FormState) : (s.onForm f).sec = s.sec := rfl
@[simp] theorem State.onForm_diag (f : FormState → FormState) : (s.onForm f).diag = s.diag := rfl
@[simp] theorem State.onForm_snaps (f : FormState → FormState) : (s.onForm f).snaps = s.snaps := rfl
@[simp] theorem State.onForm_pending (f : FormState → FormState) : (s.onForm f).pending = s.pending := rfl

/-! ### onGate -/

@[simp] theorem State.onGate_now (f : GateState → GateState) : (s.onGate f).now = s.now := rfl
@[simp] theorem State.onGate_ltc (f : GateState → GateState) : (s.onGate f).ltc = s.ltc := rfl
@[simp] theorem State.onGate_fresh (f : GateState → GateState) : (s.onGate f).fresh = s.fresh := rfl
@[simp] theorem State.onGate_manifest (f : GateState → GateState) : (s.onGate f).manifest = s.manifest := rfl
@[simp] theorem State.onGate_sys (f : GateState → GateState) : (s.onGate f).sys = s.sys := rfl
@[simp] theorem State.onGate_clk (f : GateState → GateState) : (s.onGate f).clk = s.clk := rfl
@[simp] theorem State.onGate_tide (f : GateState → GateState) : (s.onGate f).tide = s.tide := rfl
@[simp] theorem State.onGate_acq (f : GateState → GateState) : (s.onGate f).acq = s.acq := rfl
@[simp] theorem State.onGate_prot (f : GateState → GateState) : (s.onGate f).prot = s.prot := rfl
@[simp] theorem State.onGate_diff (f : GateState → GateState) : (s.onGate f).diff = s.diff := rfl
@[simp] theorem State.onGate_form (f : GateState → GateState) : (s.onGate f).form = s.form := rfl
@[simp] theorem State.onGate_gate (f : GateState → GateState) : (s.onGate f).gate = f s.gate := rfl
@[simp] theorem State.onGate_logic (f : GateState → GateState) : (s.onGate f).logic = s.logic := rfl
@[simp] theorem State.onGate_fio (f : GateState → GateState) : (s.onGate f).fio = s.fio := rfl
@[simp] theorem State.onGate_capt (f : GateState → GateState) : (s.onGate f).capt = s.capt := rfl
@[simp] theorem State.onGate_log (f : GateState → GateState) : (s.onGate f).log = s.log := rfl
@[simp] theorem State.onGate_net (f : GateState → GateState) : (s.onGate f).net = s.net := rfl
@[simp] theorem State.onGate_ptp (f : GateState → GateState) : (s.onGate f).ptp = s.ptp := rfl
@[simp] theorem State.onGate_chk (f : GateState → GateState) : (s.onGate f).chk = s.chk := rfl
@[simp] theorem State.onGate_host (f : GateState → GateState) : (s.onGate f).host = s.host := rfl
@[simp] theorem State.onGate_adeid (f : GateState → GateState) : (s.onGate f).adeid = s.adeid := rfl
@[simp] theorem State.onGate_sec (f : GateState → GateState) : (s.onGate f).sec = s.sec := rfl
@[simp] theorem State.onGate_diag (f : GateState → GateState) : (s.onGate f).diag = s.diag := rfl
@[simp] theorem State.onGate_snaps (f : GateState → GateState) : (s.onGate f).snaps = s.snaps := rfl
@[simp] theorem State.onGate_pending (f : GateState → GateState) : (s.onGate f).pending = s.pending := rfl

/-! ### onLogic -/

@[simp] theorem State.onLogic_now (f : LogicState → LogicState) : (s.onLogic f).now = s.now := rfl
@[simp] theorem State.onLogic_ltc (f : LogicState → LogicState) : (s.onLogic f).ltc = s.ltc := rfl
@[simp] theorem State.onLogic_fresh (f : LogicState → LogicState) : (s.onLogic f).fresh = s.fresh := rfl
@[simp] theorem State.onLogic_manifest (f : LogicState → LogicState) : (s.onLogic f).manifest = s.manifest := rfl
@[simp] theorem State.onLogic_sys (f : LogicState → LogicState) : (s.onLogic f).sys = s.sys := rfl
@[simp] theorem State.onLogic_clk (f : LogicState → LogicState) : (s.onLogic f).clk = s.clk := rfl
@[simp] theorem State.onLogic_tide (f : LogicState → LogicState) : (s.onLogic f).tide = s.tide := rfl
@[simp] theorem State.onLogic_acq (f : LogicState → LogicState) : (s.onLogic f).acq = s.acq := rfl
@[simp] theorem State.onLogic_prot (f : LogicState → LogicState) : (s.onLogic f).prot = s.prot := rfl
@[simp] theorem State.onLogic_diff (f : LogicState → LogicState) : (s.onLogic f).diff = s.diff := rfl
@[simp] theorem State.onLogic_form (f : LogicState → LogicState) : (s.onLogic f).form = s.form := rfl
@[simp] theorem State.onLogic_gate (f : LogicState → LogicState) : (s.onLogic f).gate = s.gate := rfl
@[simp] theorem State.onLogic_logic (f : LogicState → LogicState) : (s.onLogic f).logic = f s.logic := rfl
@[simp] theorem State.onLogic_fio (f : LogicState → LogicState) : (s.onLogic f).fio = s.fio := rfl
@[simp] theorem State.onLogic_capt (f : LogicState → LogicState) : (s.onLogic f).capt = s.capt := rfl
@[simp] theorem State.onLogic_log (f : LogicState → LogicState) : (s.onLogic f).log = s.log := rfl
@[simp] theorem State.onLogic_net (f : LogicState → LogicState) : (s.onLogic f).net = s.net := rfl
@[simp] theorem State.onLogic_ptp (f : LogicState → LogicState) : (s.onLogic f).ptp = s.ptp := rfl
@[simp] theorem State.onLogic_chk (f : LogicState → LogicState) : (s.onLogic f).chk = s.chk := rfl
@[simp] theorem State.onLogic_host (f : LogicState → LogicState) : (s.onLogic f).host = s.host := rfl
@[simp] theorem State.onLogic_adeid (f : LogicState → LogicState) : (s.onLogic f).adeid = s.adeid := rfl
@[simp] theorem State.onLogic_sec (f : LogicState → LogicState) : (s.onLogic f).sec = s.sec := rfl
@[simp] theorem State.onLogic_diag (f : LogicState → LogicState) : (s.onLogic f).diag = s.diag := rfl
@[simp] theorem State.onLogic_snaps (f : LogicState → LogicState) : (s.onLogic f).snaps = s.snaps := rfl
@[simp] theorem State.onLogic_pending (f : LogicState → LogicState) : (s.onLogic f).pending = s.pending := rfl

/-! ### onFio -/

@[simp] theorem State.onFio_now (f : FioState → FioState) : (s.onFio f).now = s.now := rfl
@[simp] theorem State.onFio_ltc (f : FioState → FioState) : (s.onFio f).ltc = s.ltc := rfl
@[simp] theorem State.onFio_fresh (f : FioState → FioState) : (s.onFio f).fresh = s.fresh := rfl
@[simp] theorem State.onFio_manifest (f : FioState → FioState) : (s.onFio f).manifest = s.manifest := rfl
@[simp] theorem State.onFio_sys (f : FioState → FioState) : (s.onFio f).sys = s.sys := rfl
@[simp] theorem State.onFio_clk (f : FioState → FioState) : (s.onFio f).clk = s.clk := rfl
@[simp] theorem State.onFio_tide (f : FioState → FioState) : (s.onFio f).tide = s.tide := rfl
@[simp] theorem State.onFio_acq (f : FioState → FioState) : (s.onFio f).acq = s.acq := rfl
@[simp] theorem State.onFio_prot (f : FioState → FioState) : (s.onFio f).prot = s.prot := rfl
@[simp] theorem State.onFio_diff (f : FioState → FioState) : (s.onFio f).diff = s.diff := rfl
@[simp] theorem State.onFio_form (f : FioState → FioState) : (s.onFio f).form = s.form := rfl
@[simp] theorem State.onFio_gate (f : FioState → FioState) : (s.onFio f).gate = s.gate := rfl
@[simp] theorem State.onFio_logic (f : FioState → FioState) : (s.onFio f).logic = s.logic := rfl
@[simp] theorem State.onFio_fio (f : FioState → FioState) : (s.onFio f).fio = f s.fio := rfl
@[simp] theorem State.onFio_capt (f : FioState → FioState) : (s.onFio f).capt = s.capt := rfl
@[simp] theorem State.onFio_log (f : FioState → FioState) : (s.onFio f).log = s.log := rfl
@[simp] theorem State.onFio_net (f : FioState → FioState) : (s.onFio f).net = s.net := rfl
@[simp] theorem State.onFio_ptp (f : FioState → FioState) : (s.onFio f).ptp = s.ptp := rfl
@[simp] theorem State.onFio_chk (f : FioState → FioState) : (s.onFio f).chk = s.chk := rfl
@[simp] theorem State.onFio_host (f : FioState → FioState) : (s.onFio f).host = s.host := rfl
@[simp] theorem State.onFio_adeid (f : FioState → FioState) : (s.onFio f).adeid = s.adeid := rfl
@[simp] theorem State.onFio_sec (f : FioState → FioState) : (s.onFio f).sec = s.sec := rfl
@[simp] theorem State.onFio_diag (f : FioState → FioState) : (s.onFio f).diag = s.diag := rfl
@[simp] theorem State.onFio_snaps (f : FioState → FioState) : (s.onFio f).snaps = s.snaps := rfl
@[simp] theorem State.onFio_pending (f : FioState → FioState) : (s.onFio f).pending = s.pending := rfl

/-! ### onCapt -/

@[simp] theorem State.onCapt_now (f : CaptState → CaptState) : (s.onCapt f).now = s.now := rfl
@[simp] theorem State.onCapt_ltc (f : CaptState → CaptState) : (s.onCapt f).ltc = s.ltc := rfl
@[simp] theorem State.onCapt_fresh (f : CaptState → CaptState) : (s.onCapt f).fresh = s.fresh := rfl
@[simp] theorem State.onCapt_manifest (f : CaptState → CaptState) : (s.onCapt f).manifest = s.manifest := rfl
@[simp] theorem State.onCapt_sys (f : CaptState → CaptState) : (s.onCapt f).sys = s.sys := rfl
@[simp] theorem State.onCapt_clk (f : CaptState → CaptState) : (s.onCapt f).clk = s.clk := rfl
@[simp] theorem State.onCapt_tide (f : CaptState → CaptState) : (s.onCapt f).tide = s.tide := rfl
@[simp] theorem State.onCapt_acq (f : CaptState → CaptState) : (s.onCapt f).acq = s.acq := rfl
@[simp] theorem State.onCapt_prot (f : CaptState → CaptState) : (s.onCapt f).prot = s.prot := rfl
@[simp] theorem State.onCapt_diff (f : CaptState → CaptState) : (s.onCapt f).diff = s.diff := rfl
@[simp] theorem State.onCapt_form (f : CaptState → CaptState) : (s.onCapt f).form = s.form := rfl
@[simp] theorem State.onCapt_gate (f : CaptState → CaptState) : (s.onCapt f).gate = s.gate := rfl
@[simp] theorem State.onCapt_logic (f : CaptState → CaptState) : (s.onCapt f).logic = s.logic := rfl
@[simp] theorem State.onCapt_fio (f : CaptState → CaptState) : (s.onCapt f).fio = s.fio := rfl
@[simp] theorem State.onCapt_capt (f : CaptState → CaptState) : (s.onCapt f).capt = f s.capt := rfl
@[simp] theorem State.onCapt_log (f : CaptState → CaptState) : (s.onCapt f).log = s.log := rfl
@[simp] theorem State.onCapt_net (f : CaptState → CaptState) : (s.onCapt f).net = s.net := rfl
@[simp] theorem State.onCapt_ptp (f : CaptState → CaptState) : (s.onCapt f).ptp = s.ptp := rfl
@[simp] theorem State.onCapt_chk (f : CaptState → CaptState) : (s.onCapt f).chk = s.chk := rfl
@[simp] theorem State.onCapt_host (f : CaptState → CaptState) : (s.onCapt f).host = s.host := rfl
@[simp] theorem State.onCapt_adeid (f : CaptState → CaptState) : (s.onCapt f).adeid = s.adeid := rfl
@[simp] theorem State.onCapt_sec (f : CaptState → CaptState) : (s.onCapt f).sec = s.sec := rfl
@[simp] theorem State.onCapt_diag (f : CaptState → CaptState) : (s.onCapt f).diag = s.diag := rfl
@[simp] theorem State.onCapt_snaps (f : CaptState → CaptState) : (s.onCapt f).snaps = s.snaps := rfl
@[simp] theorem State.onCapt_pending (f : CaptState → CaptState) : (s.onCapt f).pending = s.pending := rfl

/-! ### onLog -/

@[simp] theorem State.onLog_now (f : LogState → LogState) : (s.onLog f).now = s.now := rfl
@[simp] theorem State.onLog_ltc (f : LogState → LogState) : (s.onLog f).ltc = s.ltc := rfl
@[simp] theorem State.onLog_fresh (f : LogState → LogState) : (s.onLog f).fresh = s.fresh := rfl
@[simp] theorem State.onLog_manifest (f : LogState → LogState) : (s.onLog f).manifest = s.manifest := rfl
@[simp] theorem State.onLog_sys (f : LogState → LogState) : (s.onLog f).sys = s.sys := rfl
@[simp] theorem State.onLog_clk (f : LogState → LogState) : (s.onLog f).clk = s.clk := rfl
@[simp] theorem State.onLog_tide (f : LogState → LogState) : (s.onLog f).tide = s.tide := rfl
@[simp] theorem State.onLog_acq (f : LogState → LogState) : (s.onLog f).acq = s.acq := rfl
@[simp] theorem State.onLog_prot (f : LogState → LogState) : (s.onLog f).prot = s.prot := rfl
@[simp] theorem State.onLog_diff (f : LogState → LogState) : (s.onLog f).diff = s.diff := rfl
@[simp] theorem State.onLog_form (f : LogState → LogState) : (s.onLog f).form = s.form := rfl
@[simp] theorem State.onLog_gate (f : LogState → LogState) : (s.onLog f).gate = s.gate := rfl
@[simp] theorem State.onLog_logic (f : LogState → LogState) : (s.onLog f).logic = s.logic := rfl
@[simp] theorem State.onLog_fio (f : LogState → LogState) : (s.onLog f).fio = s.fio := rfl
@[simp] theorem State.onLog_capt (f : LogState → LogState) : (s.onLog f).capt = s.capt := rfl
@[simp] theorem State.onLog_log (f : LogState → LogState) : (s.onLog f).log = f s.log := rfl
@[simp] theorem State.onLog_net (f : LogState → LogState) : (s.onLog f).net = s.net := rfl
@[simp] theorem State.onLog_ptp (f : LogState → LogState) : (s.onLog f).ptp = s.ptp := rfl
@[simp] theorem State.onLog_chk (f : LogState → LogState) : (s.onLog f).chk = s.chk := rfl
@[simp] theorem State.onLog_host (f : LogState → LogState) : (s.onLog f).host = s.host := rfl
@[simp] theorem State.onLog_adeid (f : LogState → LogState) : (s.onLog f).adeid = s.adeid := rfl
@[simp] theorem State.onLog_sec (f : LogState → LogState) : (s.onLog f).sec = s.sec := rfl
@[simp] theorem State.onLog_diag (f : LogState → LogState) : (s.onLog f).diag = s.diag := rfl
@[simp] theorem State.onLog_snaps (f : LogState → LogState) : (s.onLog f).snaps = s.snaps := rfl
@[simp] theorem State.onLog_pending (f : LogState → LogState) : (s.onLog f).pending = s.pending := rfl

/-! ### onNet -/

@[simp] theorem State.onNet_now (f : NetState → NetState) : (s.onNet f).now = s.now := rfl
@[simp] theorem State.onNet_ltc (f : NetState → NetState) : (s.onNet f).ltc = s.ltc := rfl
@[simp] theorem State.onNet_fresh (f : NetState → NetState) : (s.onNet f).fresh = s.fresh := rfl
@[simp] theorem State.onNet_manifest (f : NetState → NetState) : (s.onNet f).manifest = s.manifest := rfl
@[simp] theorem State.onNet_sys (f : NetState → NetState) : (s.onNet f).sys = s.sys := rfl
@[simp] theorem State.onNet_clk (f : NetState → NetState) : (s.onNet f).clk = s.clk := rfl
@[simp] theorem State.onNet_tide (f : NetState → NetState) : (s.onNet f).tide = s.tide := rfl
@[simp] theorem State.onNet_acq (f : NetState → NetState) : (s.onNet f).acq = s.acq := rfl
@[simp] theorem State.onNet_prot (f : NetState → NetState) : (s.onNet f).prot = s.prot := rfl
@[simp] theorem State.onNet_diff (f : NetState → NetState) : (s.onNet f).diff = s.diff := rfl
@[simp] theorem State.onNet_form (f : NetState → NetState) : (s.onNet f).form = s.form := rfl
@[simp] theorem State.onNet_gate (f : NetState → NetState) : (s.onNet f).gate = s.gate := rfl
@[simp] theorem State.onNet_logic (f : NetState → NetState) : (s.onNet f).logic = s.logic := rfl
@[simp] theorem State.onNet_fio (f : NetState → NetState) : (s.onNet f).fio = s.fio := rfl
@[simp] theorem State.onNet_capt (f : NetState → NetState) : (s.onNet f).capt = s.capt := rfl
@[simp] theorem State.onNet_log (f : NetState → NetState) : (s.onNet f).log = s.log := rfl
@[simp] theorem State.onNet_net (f : NetState → NetState) : (s.onNet f).net = f s.net := rfl
@[simp] theorem State.onNet_ptp (f : NetState → NetState) : (s.onNet f).ptp = s.ptp := rfl
@[simp] theorem State.onNet_chk (f : NetState → NetState) : (s.onNet f).chk = s.chk := rfl
@[simp] theorem State.onNet_host (f : NetState → NetState) : (s.onNet f).host = s.host := rfl
@[simp] theorem State.onNet_adeid (f : NetState → NetState) : (s.onNet f).adeid = s.adeid := rfl
@[simp] theorem State.onNet_sec (f : NetState → NetState) : (s.onNet f).sec = s.sec := rfl
@[simp] theorem State.onNet_diag (f : NetState → NetState) : (s.onNet f).diag = s.diag := rfl
@[simp] theorem State.onNet_snaps (f : NetState → NetState) : (s.onNet f).snaps = s.snaps := rfl
@[simp] theorem State.onNet_pending (f : NetState → NetState) : (s.onNet f).pending = s.pending := rfl

/-! ### onPtp -/

@[simp] theorem State.onPtp_now (f : PtpState → PtpState) : (s.onPtp f).now = s.now := rfl
@[simp] theorem State.onPtp_ltc (f : PtpState → PtpState) : (s.onPtp f).ltc = s.ltc := rfl
@[simp] theorem State.onPtp_fresh (f : PtpState → PtpState) : (s.onPtp f).fresh = s.fresh := rfl
@[simp] theorem State.onPtp_manifest (f : PtpState → PtpState) : (s.onPtp f).manifest = s.manifest := rfl
@[simp] theorem State.onPtp_sys (f : PtpState → PtpState) : (s.onPtp f).sys = s.sys := rfl
@[simp] theorem State.onPtp_clk (f : PtpState → PtpState) : (s.onPtp f).clk = s.clk := rfl
@[simp] theorem State.onPtp_tide (f : PtpState → PtpState) : (s.onPtp f).tide = s.tide := rfl
@[simp] theorem State.onPtp_acq (f : PtpState → PtpState) : (s.onPtp f).acq = s.acq := rfl
@[simp] theorem State.onPtp_prot (f : PtpState → PtpState) : (s.onPtp f).prot = s.prot := rfl
@[simp] theorem State.onPtp_diff (f : PtpState → PtpState) : (s.onPtp f).diff = s.diff := rfl
@[simp] theorem State.onPtp_form (f : PtpState → PtpState) : (s.onPtp f).form = s.form := rfl
@[simp] theorem State.onPtp_gate (f : PtpState → PtpState) : (s.onPtp f).gate = s.gate := rfl
@[simp] theorem State.onPtp_logic (f : PtpState → PtpState) : (s.onPtp f).logic = s.logic := rfl
@[simp] theorem State.onPtp_fio (f : PtpState → PtpState) : (s.onPtp f).fio = s.fio := rfl
@[simp] theorem State.onPtp_capt (f : PtpState → PtpState) : (s.onPtp f).capt = s.capt := rfl
@[simp] theorem State.onPtp_log (f : PtpState → PtpState) : (s.onPtp f).log = s.log := rfl
@[simp] theorem State.onPtp_net (f : PtpState → PtpState) : (s.onPtp f).net = s.net := rfl
@[simp] theorem State.onPtp_ptp (f : PtpState → PtpState) : (s.onPtp f).ptp = f s.ptp := rfl
@[simp] theorem State.onPtp_chk (f : PtpState → PtpState) : (s.onPtp f).chk = s.chk := rfl
@[simp] theorem State.onPtp_host (f : PtpState → PtpState) : (s.onPtp f).host = s.host := rfl
@[simp] theorem State.onPtp_adeid (f : PtpState → PtpState) : (s.onPtp f).adeid = s.adeid := rfl
@[simp] theorem State.onPtp_sec (f : PtpState → PtpState) : (s.onPtp f).sec = s.sec := rfl
@[simp] theorem State.onPtp_diag (f : PtpState → PtpState) : (s.onPtp f).diag = s.diag := rfl
@[simp] theorem State.onPtp_snaps (f : PtpState → PtpState) : (s.onPtp f).snaps = s.snaps := rfl
@[simp] theorem State.onPtp_pending (f : PtpState → PtpState) : (s.onPtp f).pending = s.pending := rfl

/-! ### onChk -/

@[simp] theorem State.onChk_now (f : ChkState → ChkState) : (s.onChk f).now = s.now := rfl
@[simp] theorem State.onChk_ltc (f : ChkState → ChkState) : (s.onChk f).ltc = s.ltc := rfl
@[simp] theorem State.onChk_fresh (f : ChkState → ChkState) : (s.onChk f).fresh = s.fresh := rfl
@[simp] theorem State.onChk_manifest (f : ChkState → ChkState) : (s.onChk f).manifest = s.manifest := rfl
@[simp] theorem State.onChk_sys (f : ChkState → ChkState) : (s.onChk f).sys = s.sys := rfl
@[simp] theorem State.onChk_clk (f : ChkState → ChkState) : (s.onChk f).clk = s.clk := rfl
@[simp] theorem State.onChk_tide (f : ChkState → ChkState) : (s.onChk f).tide = s.tide := rfl
@[simp] theorem State.onChk_acq (f : ChkState → ChkState) : (s.onChk f).acq = s.acq := rfl
@[simp] theorem State.onChk_prot (f : ChkState → ChkState) : (s.onChk f).prot = s.prot := rfl
@[simp] theorem State.onChk_diff (f : ChkState → ChkState) : (s.onChk f).diff = s.diff := rfl
@[simp] theorem State.onChk_form (f : ChkState → ChkState) : (s.onChk f).form = s.form := rfl
@[simp] theorem State.onChk_gate (f : ChkState → ChkState) : (s.onChk f).gate = s.gate := rfl
@[simp] theorem State.onChk_logic (f : ChkState → ChkState) : (s.onChk f).logic = s.logic := rfl
@[simp] theorem State.onChk_fio (f : ChkState → ChkState) : (s.onChk f).fio = s.fio := rfl
@[simp] theorem State.onChk_capt (f : ChkState → ChkState) : (s.onChk f).capt = s.capt := rfl
@[simp] theorem State.onChk_log (f : ChkState → ChkState) : (s.onChk f).log = s.log := rfl
@[simp] theorem State.onChk_net (f : ChkState → ChkState) : (s.onChk f).net = s.net := rfl
@[simp] theorem State.onChk_ptp (f : ChkState → ChkState) : (s.onChk f).ptp = s.ptp := rfl
@[simp] theorem State.onChk_chk (f : ChkState → ChkState) : (s.onChk f).chk = f s.chk := rfl
@[simp] theorem State.onChk_host (f : ChkState → ChkState) : (s.onChk f).host = s.host := rfl
@[simp] theorem State.onChk_adeid (f : ChkState → ChkState) : (s.onChk f).adeid = s.adeid := rfl
@[simp] theorem State.onChk_sec (f : ChkState → ChkState) : (s.onChk f).sec = s.sec := rfl
@[simp] theorem State.onChk_diag (f : ChkState → ChkState) : (s.onChk f).diag = s.diag := rfl
@[simp] theorem State.onChk_snaps (f : ChkState → ChkState) : (s.onChk f).snaps = s.snaps := rfl
@[simp] theorem State.onChk_pending (f : ChkState → ChkState) : (s.onChk f).pending = s.pending := rfl

/-! ### onHost -/

@[simp] theorem State.onHost_now (f : HostState → HostState) : (s.onHost f).now = s.now := rfl
@[simp] theorem State.onHost_ltc (f : HostState → HostState) : (s.onHost f).ltc = s.ltc := rfl
@[simp] theorem State.onHost_fresh (f : HostState → HostState) : (s.onHost f).fresh = s.fresh := rfl
@[simp] theorem State.onHost_manifest (f : HostState → HostState) : (s.onHost f).manifest = s.manifest := rfl
@[simp] theorem State.onHost_sys (f : HostState → HostState) : (s.onHost f).sys = s.sys := rfl
@[simp] theorem State.onHost_clk (f : HostState → HostState) : (s.onHost f).clk = s.clk := rfl
@[simp] theorem State.onHost_tide (f : HostState → HostState) : (s.onHost f).tide = s.tide := rfl
@[simp] theorem State.onHost_acq (f : HostState → HostState) : (s.onHost f).acq = s.acq := rfl
@[simp] theorem State.onHost_prot (f : HostState → HostState) : (s.onHost f).prot = s.prot := rfl
@[simp] theorem State.onHost_diff (f : HostState → HostState) : (s.onHost f).diff = s.diff := rfl
@[simp] theorem State.onHost_form (f : HostState → HostState) : (s.onHost f).form = s.form := rfl
@[simp] theorem State.onHost_gate (f : HostState → HostState) : (s.onHost f).gate = s.gate := rfl
@[simp] theorem State.onHost_logic (f : HostState → HostState) : (s.onHost f).logic = s.logic := rfl
@[simp] theorem State.onHost_fio (f : HostState → HostState) : (s.onHost f).fio = s.fio := rfl
@[simp] theorem State.onHost_capt (f : HostState → HostState) : (s.onHost f).capt = s.capt := rfl
@[simp] theorem State.onHost_log (f : HostState → HostState) : (s.onHost f).log = s.log := rfl
@[simp] theorem State.onHost_net (f : HostState → HostState) : (s.onHost f).net = s.net := rfl
@[simp] theorem State.onHost_ptp (f : HostState → HostState) : (s.onHost f).ptp = s.ptp := rfl
@[simp] theorem State.onHost_chk (f : HostState → HostState) : (s.onHost f).chk = s.chk := rfl
@[simp] theorem State.onHost_host (f : HostState → HostState) : (s.onHost f).host = f s.host := rfl
@[simp] theorem State.onHost_adeid (f : HostState → HostState) : (s.onHost f).adeid = s.adeid := rfl
@[simp] theorem State.onHost_sec (f : HostState → HostState) : (s.onHost f).sec = s.sec := rfl
@[simp] theorem State.onHost_diag (f : HostState → HostState) : (s.onHost f).diag = s.diag := rfl
@[simp] theorem State.onHost_snaps (f : HostState → HostState) : (s.onHost f).snaps = s.snaps := rfl
@[simp] theorem State.onHost_pending (f : HostState → HostState) : (s.onHost f).pending = s.pending := rfl

/-! ### onAdeid -/

@[simp] theorem State.onAdeid_now (f : AdeidState → AdeidState) : (s.onAdeid f).now = s.now := rfl
@[simp] theorem State.onAdeid_ltc (f : AdeidState → AdeidState) : (s.onAdeid f).ltc = s.ltc := rfl
@[simp] theorem State.onAdeid_fresh (f : AdeidState → AdeidState) : (s.onAdeid f).fresh = s.fresh := rfl
@[simp] theorem State.onAdeid_manifest (f : AdeidState → AdeidState) : (s.onAdeid f).manifest = s.manifest := rfl
@[simp] theorem State.onAdeid_sys (f : AdeidState → AdeidState) : (s.onAdeid f).sys = s.sys := rfl
@[simp] theorem State.onAdeid_clk (f : AdeidState → AdeidState) : (s.onAdeid f).clk = s.clk := rfl
@[simp] theorem State.onAdeid_tide (f : AdeidState → AdeidState) : (s.onAdeid f).tide = s.tide := rfl
@[simp] theorem State.onAdeid_acq (f : AdeidState → AdeidState) : (s.onAdeid f).acq = s.acq := rfl
@[simp] theorem State.onAdeid_prot (f : AdeidState → AdeidState) : (s.onAdeid f).prot = s.prot := rfl
@[simp] theorem State.onAdeid_diff (f : AdeidState → AdeidState) : (s.onAdeid f).diff = s.diff := rfl
@[simp] theorem State.onAdeid_form (f : AdeidState → AdeidState) : (s.onAdeid f).form = s.form := rfl
@[simp] theorem State.onAdeid_gate (f : AdeidState → AdeidState) : (s.onAdeid f).gate = s.gate := rfl
@[simp] theorem State.onAdeid_logic (f : AdeidState → AdeidState) : (s.onAdeid f).logic = s.logic := rfl
@[simp] theorem State.onAdeid_fio (f : AdeidState → AdeidState) : (s.onAdeid f).fio = s.fio := rfl
@[simp] theorem State.onAdeid_capt (f : AdeidState → AdeidState) : (s.onAdeid f).capt = s.capt := rfl
@[simp] theorem State.onAdeid_log (f : AdeidState → AdeidState) : (s.onAdeid f).log = s.log := rfl
@[simp] theorem State.onAdeid_net (f : AdeidState → AdeidState) : (s.onAdeid f).net = s.net := rfl
@[simp] theorem State.onAdeid_ptp (f : AdeidState → AdeidState) : (s.onAdeid f).ptp = s.ptp := rfl
@[simp] theorem State.onAdeid_chk (f : AdeidState → AdeidState) : (s.onAdeid f).chk = s.chk := rfl
@[simp] theorem State.onAdeid_host (f : AdeidState → AdeidState) : (s.onAdeid f).host = s.host := rfl
@[simp] theorem State.onAdeid_adeid (f : AdeidState → AdeidState) : (s.onAdeid f).adeid = f s.adeid := rfl
@[simp] theorem State.onAdeid_sec (f : AdeidState → AdeidState) : (s.onAdeid f).sec = s.sec := rfl
@[simp] theorem State.onAdeid_diag (f : AdeidState → AdeidState) : (s.onAdeid f).diag = s.diag := rfl
@[simp] theorem State.onAdeid_snaps (f : AdeidState → AdeidState) : (s.onAdeid f).snaps = s.snaps := rfl
@[simp] theorem State.onAdeid_pending (f : AdeidState → AdeidState) : (s.onAdeid f).pending = s.pending := rfl

/-! ### onSec -/

@[simp] theorem State.onSec_now (f : SecState → SecState) : (s.onSec f).now = s.now := rfl
@[simp] theorem State.onSec_ltc (f : SecState → SecState) : (s.onSec f).ltc = s.ltc := rfl
@[simp] theorem State.onSec_fresh (f : SecState → SecState) : (s.onSec f).fresh = s.fresh := rfl
@[simp] theorem State.onSec_manifest (f : SecState → SecState) : (s.onSec f).manifest = s.manifest := rfl
@[simp] theorem State.onSec_sys (f : SecState → SecState) : (s.onSec f).sys = s.sys := rfl
@[simp] theorem State.onSec_clk (f : SecState → SecState) : (s.onSec f).clk = s.clk := rfl
@[simp] theorem State.onSec_tide (f : SecState → SecState) : (s.onSec f).tide = s.tide := rfl
@[simp] theorem State.onSec_acq (f : SecState → SecState) : (s.onSec f).acq = s.acq := rfl
@[simp] theorem State.onSec_prot (f : SecState → SecState) : (s.onSec f).prot = s.prot := rfl
@[simp] theorem State.onSec_diff (f : SecState → SecState) : (s.onSec f).diff = s.diff := rfl
@[simp] theorem State.onSec_form (f : SecState → SecState) : (s.onSec f).form = s.form := rfl
@[simp] theorem State.onSec_gate (f : SecState → SecState) : (s.onSec f).gate = s.gate := rfl
@[simp] theorem State.onSec_logic (f : SecState → SecState) : (s.onSec f).logic = s.logic := rfl
@[simp] theorem State.onSec_fio (f : SecState → SecState) : (s.onSec f).fio = s.fio := rfl
@[simp] theorem State.onSec_capt (f : SecState → SecState) : (s.onSec f).capt = s.capt := rfl
@[simp] theorem State.onSec_log (f : SecState → SecState) : (s.onSec f).log = s.log := rfl
@[simp] theorem State.onSec_net (f : SecState → SecState) : (s.onSec f).net = s.net := rfl
@[simp] theorem State.onSec_ptp (f : SecState → SecState) : (s.onSec f).ptp = s.ptp := rfl
@[simp] theorem State.onSec_chk (f : SecState → SecState) : (s.onSec f).chk = s.chk := rfl
@[simp] theorem State.onSec_host (f : SecState → SecState) : (s.onSec f).host = s.host := rfl
@[simp] theorem State.onSec_adeid (f : SecState → SecState) : (s.onSec f).adeid = s.adeid := rfl
@[simp] theorem State.onSec_sec (f : SecState → SecState) : (s.onSec f).sec = f s.sec := rfl
@[simp] theorem State.onSec_diag (f : SecState → SecState) : (s.onSec f).diag = s.diag := rfl
@[simp] theorem State.onSec_snaps (f : SecState → SecState) : (s.onSec f).snaps = s.snaps := rfl
@[simp] theorem State.onSec_pending (f : SecState → SecState) : (s.onSec f).pending = s.pending := rfl

/-! ### onDiag -/

@[simp] theorem State.onDiag_now (f : DiagState → DiagState) : (s.onDiag f).now = s.now := rfl
@[simp] theorem State.onDiag_ltc (f : DiagState → DiagState) : (s.onDiag f).ltc = s.ltc := rfl
@[simp] theorem State.onDiag_fresh (f : DiagState → DiagState) : (s.onDiag f).fresh = s.fresh := rfl
@[simp] theorem State.onDiag_manifest (f : DiagState → DiagState) : (s.onDiag f).manifest = s.manifest := rfl
@[simp] theorem State.onDiag_sys (f : DiagState → DiagState) : (s.onDiag f).sys = s.sys := rfl
@[simp] theorem State.onDiag_clk (f : DiagState → DiagState) : (s.onDiag f).clk = s.clk := rfl
@[simp] theorem State.onDiag_tide (f : DiagState → DiagState) : (s.onDiag f).tide = s.tide := rfl
@[simp] theorem State.onDiag_acq (f : DiagState → DiagState) : (s.onDiag f).acq = s.acq := rfl
@[simp] theorem State.onDiag_prot (f : DiagState → DiagState) : (s.onDiag f).prot = s.prot := rfl
@[simp] theorem State.onDiag_diff (f : DiagState → DiagState) : (s.onDiag f).diff = s.diff := rfl
@[simp] theorem State.onDiag_form (f : DiagState → DiagState) : (s.onDiag f).form = s.form := rfl
@[simp] theorem State.onDiag_gate (f : DiagState → DiagState) : (s.onDiag f).gate = s.gate := rfl
@[simp] theorem State.onDiag_logic (f : DiagState → DiagState) : (s.onDiag f).logic = s.logic := rfl
@[simp] theorem State.onDiag_fio (f : DiagState → DiagState) : (s.onDiag f).fio = s.fio := rfl
@[simp] theorem State.onDiag_capt (f : DiagState → DiagState) : (s.onDiag f).capt = s.capt := rfl
@[simp] theorem State.onDiag_log (f : DiagState → DiagState) : (s.onDiag f).log = s.log := rfl
@[simp] theorem State.onDiag_net (f : DiagState → DiagState) : (s.onDiag f).net = s.net := rfl
@[simp] theorem State.onDiag_ptp (f : DiagState → DiagState) : (s.onDiag f).ptp = s.ptp := rfl
@[simp] theorem State.onDiag_chk (f : DiagState → DiagState) : (s.onDiag f).chk = s.chk := rfl
@[simp] theorem State.onDiag_host (f : DiagState → DiagState) : (s.onDiag f).host = s.host := rfl
@[simp] theorem State.onDiag_adeid (f : DiagState → DiagState) : (s.onDiag f).adeid = s.adeid := rfl
@[simp] theorem State.onDiag_sec (f : DiagState → DiagState) : (s.onDiag f).sec = s.sec := rfl
@[simp] theorem State.onDiag_diag (f : DiagState → DiagState) : (s.onDiag f).diag = f s.diag := rfl
@[simp] theorem State.onDiag_snaps (f : DiagState → DiagState) : (s.onDiag f).snaps = s.snaps := rfl
@[simp] theorem State.onDiag_pending (f : DiagState → DiagState) : (s.onDiag f).pending = s.pending := rfl

/-! ### Reports -/

@[simp] theorem State.report_now (n : Rec) (x : Nat) (l : List Int) : (s.report n x l).now = s.now := rfl
@[simp] theorem State.report_ltc (n : Rec) (x : Nat) (l : List Int) : (s.report n x l).ltc = s.ltc := rfl
@[simp] theorem State.report_fresh (n : Rec) (x : Nat) (l : List Int) : (s.report n x l).fresh = s.fresh := rfl
@[simp] theorem State.report_manifest (n : Rec) (x : Nat) (l : List Int) : (s.report n x l).manifest = s.manifest := rfl
@[simp] theorem State.report_sys (n : Rec) (x : Nat) (l : List Int) : (s.report n x l).sys = s.sys := rfl
@[simp] theorem State.report_clk (n : Rec) (x : Nat) (l : List Int) : (s.report n x l).clk = s.clk := rfl
@[simp] theorem State.report_tide (n : Rec) (x : Nat) (l : List Int) : (s.report n x l).tide = s.tide := rfl
@[simp] theorem State.report_acq (n : Rec) (x : Nat) (l : List Int) : (s.report n x l).acq = s.acq := rfl
@[simp] theorem State.report_prot (n : Rec) (x : Nat) (l : List Int) : (s.report n x l).prot = s.prot := rfl
@[simp] theorem State.report_diff (n : Rec) (x : Nat) (l : List Int) : (s.report n x l).diff = s.diff := rfl
@[simp] theorem State.report_form (n : Rec) (x : Nat) (l : List Int) : (s.report n x l).form = s.form := rfl
@[simp] theorem State.report_gate (n : Rec) (x : Nat) (l : List Int) : (s.report n x l).gate = s.gate := rfl
@[simp] theorem State.report_logic (n : Rec) (x : Nat) (l : List Int) : (s.report n x l).logic = s.logic := rfl
@[simp] theorem State.report_fio (n : Rec) (x : Nat) (l : List Int) : (s.report n x l).fio = s.fio := rfl
@[simp] theorem State.report_capt (n : Rec) (x : Nat) (l : List Int) : (s.report n x l).capt = s.capt := rfl
@[simp] theorem State.report_net (n : Rec) (x : Nat) (l : List Int) : (s.report n x l).net = s.net := rfl
@[simp] theorem State.report_ptp (n : Rec) (x : Nat) (l : List Int) : (s.report n x l).ptp = s.ptp := rfl
@[simp] theorem State.report_chk (n : Rec) (x : Nat) (l : List Int) : (s.report n x l).chk = s.chk := rfl
@[simp] theorem State.report_host (n : Rec) (x : Nat) (l : List Int) : (s.report n x l).host = s.host := rfl
@[simp] theorem State.report_adeid (n : Rec) (x : Nat) (l : List Int) : (s.report n x l).adeid = s.adeid := rfl
@[simp] theorem State.report_sec (n : Rec) (x : Nat) (l : List Int) : (s.report n x l).sec = s.sec := rfl
@[simp] theorem State.report_diag (n : Rec) (x : Nat) (l : List Int) : (s.report n x l).diag = s.diag := rfl
@[simp] theorem State.report_snaps (n : Rec) (x : Nat) (l : List Int) : (s.report n x l).snaps = s.snaps := rfl
@[simp] theorem State.report_pending (n : Rec) (x : Nat) (l : List Int) : (s.report n x l).pending = s.pending := rfl

/-! ### Reports with sized fields -/

@[simp] theorem State.reportSized_now (n : Rec) (x : Nat) (l : List (Nat × Nat)) : (s.reportSized n x l).now = s.now := rfl
@[simp] theorem State.reportSized_ltc (n : Rec) (x : Nat) (l : List (Nat × Nat)) : (s.reportSized n x l).ltc = s.ltc := rfl
@[simp] theorem State.reportSized_fresh (n : Rec) (x : Nat) (l : List (Nat × Nat)) : (s.reportSized n x l).fresh = s.fresh := rfl
@[simp] theorem State.reportSized_manifest (n : Rec) (x : Nat) (l : List (Nat × Nat)) : (s.reportSized n x l).manifest = s.manifest := rfl
@[simp] theorem State.reportSized_sys (n : Rec) (x : Nat) (l : List (Nat × Nat)) : (s.reportSized n x l).sys = s.sys := rfl
@[simp] theorem State.reportSized_clk (n : Rec) (x : Nat) (l : List (Nat × Nat)) : (s.reportSized n x l).clk = s.clk := rfl
@[simp] theorem State.reportSized_tide (n : Rec) (x : Nat) (l : List (Nat × Nat)) : (s.reportSized n x l).tide = s.tide := rfl
@[simp] theorem State.reportSized_acq (n : Rec) (x : Nat) (l : List (Nat × Nat)) : (s.reportSized n x l).acq = s.acq := rfl
@[simp] theorem State.reportSized_prot (n : Rec) (x : Nat) (l : List (Nat × Nat)) : (s.reportSized n x l).prot = s.prot := rfl
@[simp] theorem State.reportSized_diff (n : Rec) (x : Nat) (l : List (Nat × Nat)) : (s.reportSized n x l).diff = s.diff := rfl
@[simp] theorem State.reportSized_form (n : Rec) (x : Nat) (l : List (Nat × Nat)) : (s.reportSized n x l).form = s.form := rfl
@[simp] theorem State.reportSized_gate (n : Rec) (x : Nat) (l : List (Nat × Nat)) : (s.reportSized n x l).gate = s.gate := rfl
@[simp] theorem State.reportSized_logic (n : Rec) (x : Nat) (l : List (Nat × Nat)) : (s.reportSized n x l).logic = s.logic := rfl
@[simp] theorem State.reportSized_fio (n : Rec) (x : Nat) (l : List (Nat × Nat)) : (s.reportSized n x l).fio = s.fio := rfl
@[simp] theorem State.reportSized_capt (n : Rec) (x : Nat) (l : List (Nat × Nat)) : (s.reportSized n x l).capt = s.capt := rfl
@[simp] theorem State.reportSized_net (n : Rec) (x : Nat) (l : List (Nat × Nat)) : (s.reportSized n x l).net = s.net := rfl
@[simp] theorem State.reportSized_ptp (n : Rec) (x : Nat) (l : List (Nat × Nat)) : (s.reportSized n x l).ptp = s.ptp := rfl
@[simp] theorem State.reportSized_chk (n : Rec) (x : Nat) (l : List (Nat × Nat)) : (s.reportSized n x l).chk = s.chk := rfl
@[simp] theorem State.reportSized_host (n : Rec) (x : Nat) (l : List (Nat × Nat)) : (s.reportSized n x l).host = s.host := rfl
@[simp] theorem State.reportSized_adeid (n : Rec) (x : Nat) (l : List (Nat × Nat)) : (s.reportSized n x l).adeid = s.adeid := rfl
@[simp] theorem State.reportSized_sec (n : Rec) (x : Nat) (l : List (Nat × Nat)) : (s.reportSized n x l).sec = s.sec := rfl
@[simp] theorem State.reportSized_diag (n : Rec) (x : Nat) (l : List (Nat × Nat)) : (s.reportSized n x l).diag = s.diag := rfl
@[simp] theorem State.reportSized_snaps (n : Rec) (x : Nat) (l : List (Nat × Nat)) : (s.reportSized n x l).snaps = s.snaps := rfl
@[simp] theorem State.reportSized_pending (n : Rec) (x : Nat) (l : List (Nat × Nat)) : (s.reportSized n x l).pending = s.pending := rfl

/-! ### The end of an item -/

@[simp] theorem State.endItem_now (b : Nat) (e : Ending) : (s.endItem b e).now = s.now := rfl
@[simp] theorem State.endItem_ltc (b : Nat) (e : Ending) : (s.endItem b e).ltc = s.ltc := rfl
@[simp] theorem State.endItem_fresh (b : Nat) (e : Ending) : (s.endItem b e).fresh = s.fresh := rfl
@[simp] theorem State.endItem_manifest (b : Nat) (e : Ending) : (s.endItem b e).manifest = s.manifest := rfl
@[simp] theorem State.endItem_sys (b : Nat) (e : Ending) : (s.endItem b e).sys = s.sys := rfl
@[simp] theorem State.endItem_clk (b : Nat) (e : Ending) : (s.endItem b e).clk = s.clk := rfl
@[simp] theorem State.endItem_tide (b : Nat) (e : Ending) : (s.endItem b e).tide = s.tide := rfl
@[simp] theorem State.endItem_acq (b : Nat) (e : Ending) : (s.endItem b e).acq = s.acq := rfl
@[simp] theorem State.endItem_prot (b : Nat) (e : Ending) : (s.endItem b e).prot = s.prot := rfl
@[simp] theorem State.endItem_diff (b : Nat) (e : Ending) : (s.endItem b e).diff = s.diff := rfl
@[simp] theorem State.endItem_form (b : Nat) (e : Ending) : (s.endItem b e).form = s.form := rfl
@[simp] theorem State.endItem_gate (b : Nat) (e : Ending) : (s.endItem b e).gate = s.gate := rfl
@[simp] theorem State.endItem_logic (b : Nat) (e : Ending) : (s.endItem b e).logic = s.logic := rfl
@[simp] theorem State.endItem_fio (b : Nat) (e : Ending) : (s.endItem b e).fio = s.fio := rfl
@[simp] theorem State.endItem_capt (b : Nat) (e : Ending) : (s.endItem b e).capt = s.capt := rfl
@[simp] theorem State.endItem_log (b : Nat) (e : Ending) : (s.endItem b e).log = s.log := rfl
@[simp] theorem State.endItem_net (b : Nat) (e : Ending) : (s.endItem b e).net = s.net := rfl
@[simp] theorem State.endItem_ptp (b : Nat) (e : Ending) : (s.endItem b e).ptp = s.ptp := rfl
@[simp] theorem State.endItem_chk (b : Nat) (e : Ending) : (s.endItem b e).chk = s.chk := rfl
@[simp] theorem State.endItem_adeid (b : Nat) (e : Ending) : (s.endItem b e).adeid = s.adeid := rfl
@[simp] theorem State.endItem_sec (b : Nat) (e : Ending) : (s.endItem b e).sec = s.sec := rfl
@[simp] theorem State.endItem_diag (b : Nat) (e : Ending) : (s.endItem b e).diag = s.diag := rfl
@[simp] theorem State.endItem_snaps (b : Nat) (e : Ending) : (s.endItem b e).snaps = s.snaps := rfl
@[simp] theorem State.endItem_pending (b : Nat) (e : Ending) : (s.endItem b e).pending = s.pending := rfl

/-! ### DONE -/

@[simp] theorem State.done_now (b : Nat) (r : BitVec 64) : (s.done b r).now = s.now := rfl
@[simp] theorem State.done_ltc (b : Nat) (r : BitVec 64) : (s.done b r).ltc = s.ltc := rfl
@[simp] theorem State.done_fresh (b : Nat) (r : BitVec 64) : (s.done b r).fresh = s.fresh := rfl
@[simp] theorem State.done_manifest (b : Nat) (r : BitVec 64) : (s.done b r).manifest = s.manifest := rfl
@[simp] theorem State.done_sys (b : Nat) (r : BitVec 64) : (s.done b r).sys = s.sys := rfl
@[simp] theorem State.done_clk (b : Nat) (r : BitVec 64) : (s.done b r).clk = s.clk := rfl
@[simp] theorem State.done_tide (b : Nat) (r : BitVec 64) : (s.done b r).tide = s.tide := rfl
@[simp] theorem State.done_acq (b : Nat) (r : BitVec 64) : (s.done b r).acq = s.acq := rfl
@[simp] theorem State.done_prot (b : Nat) (r : BitVec 64) : (s.done b r).prot = s.prot := rfl
@[simp] theorem State.done_diff (b : Nat) (r : BitVec 64) : (s.done b r).diff = s.diff := rfl
@[simp] theorem State.done_form (b : Nat) (r : BitVec 64) : (s.done b r).form = s.form := rfl
@[simp] theorem State.done_gate (b : Nat) (r : BitVec 64) : (s.done b r).gate = s.gate := rfl
@[simp] theorem State.done_logic (b : Nat) (r : BitVec 64) : (s.done b r).logic = s.logic := rfl
@[simp] theorem State.done_fio (b : Nat) (r : BitVec 64) : (s.done b r).fio = s.fio := rfl
@[simp] theorem State.done_capt (b : Nat) (r : BitVec 64) : (s.done b r).capt = s.capt := rfl
@[simp] theorem State.done_log (b : Nat) (r : BitVec 64) : (s.done b r).log = s.log := rfl
@[simp] theorem State.done_net (b : Nat) (r : BitVec 64) : (s.done b r).net = s.net := rfl
@[simp] theorem State.done_ptp (b : Nat) (r : BitVec 64) : (s.done b r).ptp = s.ptp := rfl
@[simp] theorem State.done_chk (b : Nat) (r : BitVec 64) : (s.done b r).chk = s.chk := rfl
@[simp] theorem State.done_adeid (b : Nat) (r : BitVec 64) : (s.done b r).adeid = s.adeid := rfl
@[simp] theorem State.done_sec (b : Nat) (r : BitVec 64) : (s.done b r).sec = s.sec := rfl
@[simp] theorem State.done_diag (b : Nat) (r : BitVec 64) : (s.done b r).diag = s.diag := rfl
@[simp] theorem State.done_snaps (b : Nat) (r : BitVec 64) : (s.done b r).snaps = s.snaps := rfl
@[simp] theorem State.done_pending (b : Nat) (r : BitVec 64) : (s.done b r).pending = s.pending := rfl

/-! ### FAILED -/

@[simp] theorem State.failed_now (b : Nat) (r : Reason) : (s.failed b r).now = s.now := rfl
@[simp] theorem State.failed_ltc (b : Nat) (r : Reason) : (s.failed b r).ltc = s.ltc := rfl
@[simp] theorem State.failed_fresh (b : Nat) (r : Reason) : (s.failed b r).fresh = s.fresh := rfl
@[simp] theorem State.failed_manifest (b : Nat) (r : Reason) : (s.failed b r).manifest = s.manifest := rfl
@[simp] theorem State.failed_sys (b : Nat) (r : Reason) : (s.failed b r).sys = s.sys := rfl
@[simp] theorem State.failed_clk (b : Nat) (r : Reason) : (s.failed b r).clk = s.clk := rfl
@[simp] theorem State.failed_tide (b : Nat) (r : Reason) : (s.failed b r).tide = s.tide := rfl
@[simp] theorem State.failed_acq (b : Nat) (r : Reason) : (s.failed b r).acq = s.acq := rfl
@[simp] theorem State.failed_prot (b : Nat) (r : Reason) : (s.failed b r).prot = s.prot := rfl
@[simp] theorem State.failed_diff (b : Nat) (r : Reason) : (s.failed b r).diff = s.diff := rfl
@[simp] theorem State.failed_form (b : Nat) (r : Reason) : (s.failed b r).form = s.form := rfl
@[simp] theorem State.failed_gate (b : Nat) (r : Reason) : (s.failed b r).gate = s.gate := rfl
@[simp] theorem State.failed_logic (b : Nat) (r : Reason) : (s.failed b r).logic = s.logic := rfl
@[simp] theorem State.failed_fio (b : Nat) (r : Reason) : (s.failed b r).fio = s.fio := rfl
@[simp] theorem State.failed_capt (b : Nat) (r : Reason) : (s.failed b r).capt = s.capt := rfl
@[simp] theorem State.failed_log (b : Nat) (r : Reason) : (s.failed b r).log = s.log := rfl
@[simp] theorem State.failed_net (b : Nat) (r : Reason) : (s.failed b r).net = s.net := rfl
@[simp] theorem State.failed_ptp (b : Nat) (r : Reason) : (s.failed b r).ptp = s.ptp := rfl
@[simp] theorem State.failed_chk (b : Nat) (r : Reason) : (s.failed b r).chk = s.chk := rfl
@[simp] theorem State.failed_adeid (b : Nat) (r : Reason) : (s.failed b r).adeid = s.adeid := rfl
@[simp] theorem State.failed_sec (b : Nat) (r : Reason) : (s.failed b r).sec = s.sec := rfl
@[simp] theorem State.failed_diag (b : Nat) (r : Reason) : (s.failed b r).diag = s.diag := rfl
@[simp] theorem State.failed_snaps (b : Nat) (r : Reason) : (s.failed b r).snaps = s.snaps := rfl
@[simp] theorem State.failed_pending (b : Nat) (r : Reason) : (s.failed b r).pending = s.pending := rfl

/-! ### Waiting at the target -/

@[simp] theorem State.toTarget_now (b : Nat) : (s.toTarget b).now = s.now := rfl
@[simp] theorem State.toTarget_ltc (b : Nat) : (s.toTarget b).ltc = s.ltc := rfl
@[simp] theorem State.toTarget_fresh (b : Nat) : (s.toTarget b).fresh = s.fresh := rfl
@[simp] theorem State.toTarget_manifest (b : Nat) : (s.toTarget b).manifest = s.manifest := rfl
@[simp] theorem State.toTarget_sys (b : Nat) : (s.toTarget b).sys = s.sys := rfl
@[simp] theorem State.toTarget_clk (b : Nat) : (s.toTarget b).clk = s.clk := rfl
@[simp] theorem State.toTarget_tide (b : Nat) : (s.toTarget b).tide = s.tide := rfl
@[simp] theorem State.toTarget_acq (b : Nat) : (s.toTarget b).acq = s.acq := rfl
@[simp] theorem State.toTarget_prot (b : Nat) : (s.toTarget b).prot = s.prot := rfl
@[simp] theorem State.toTarget_diff (b : Nat) : (s.toTarget b).diff = s.diff := rfl
@[simp] theorem State.toTarget_form (b : Nat) : (s.toTarget b).form = s.form := rfl
@[simp] theorem State.toTarget_gate (b : Nat) : (s.toTarget b).gate = s.gate := rfl
@[simp] theorem State.toTarget_logic (b : Nat) : (s.toTarget b).logic = s.logic := rfl
@[simp] theorem State.toTarget_fio (b : Nat) : (s.toTarget b).fio = s.fio := rfl
@[simp] theorem State.toTarget_capt (b : Nat) : (s.toTarget b).capt = s.capt := rfl
@[simp] theorem State.toTarget_log (b : Nat) : (s.toTarget b).log = s.log := rfl
@[simp] theorem State.toTarget_net (b : Nat) : (s.toTarget b).net = s.net := rfl
@[simp] theorem State.toTarget_ptp (b : Nat) : (s.toTarget b).ptp = s.ptp := rfl
@[simp] theorem State.toTarget_chk (b : Nat) : (s.toTarget b).chk = s.chk := rfl
@[simp] theorem State.toTarget_adeid (b : Nat) : (s.toTarget b).adeid = s.adeid := rfl
@[simp] theorem State.toTarget_sec (b : Nat) : (s.toTarget b).sec = s.sec := rfl
@[simp] theorem State.toTarget_diag (b : Nat) : (s.toTarget b).diag = s.diag := rfl
@[simp] theorem State.toTarget_snaps (b : Nat) : (s.toTarget b).snaps = s.snaps := rfl
@[simp] theorem State.toTarget_pending (b : Nat) : (s.toTarget b).pending = s.pending := rfl

/-! ### Leaving CTL -/

@[simp] theorem State.leaveCtl_now (b : Nat) : (s.leaveCtl b).now = s.now := rfl
@[simp] theorem State.leaveCtl_ltc (b : Nat) : (s.leaveCtl b).ltc = s.ltc := rfl
@[simp] theorem State.leaveCtl_fresh (b : Nat) : (s.leaveCtl b).fresh = s.fresh := rfl
@[simp] theorem State.leaveCtl_manifest (b : Nat) : (s.leaveCtl b).manifest = s.manifest := rfl
@[simp] theorem State.leaveCtl_sys (b : Nat) : (s.leaveCtl b).sys = s.sys := rfl
@[simp] theorem State.leaveCtl_clk (b : Nat) : (s.leaveCtl b).clk = s.clk := rfl
@[simp] theorem State.leaveCtl_tide (b : Nat) : (s.leaveCtl b).tide = s.tide := rfl
@[simp] theorem State.leaveCtl_acq (b : Nat) : (s.leaveCtl b).acq = s.acq := rfl
@[simp] theorem State.leaveCtl_prot (b : Nat) : (s.leaveCtl b).prot = s.prot := rfl
@[simp] theorem State.leaveCtl_diff (b : Nat) : (s.leaveCtl b).diff = s.diff := rfl
@[simp] theorem State.leaveCtl_form (b : Nat) : (s.leaveCtl b).form = s.form := rfl
@[simp] theorem State.leaveCtl_gate (b : Nat) : (s.leaveCtl b).gate = s.gate := rfl
@[simp] theorem State.leaveCtl_logic (b : Nat) : (s.leaveCtl b).logic = s.logic := rfl
@[simp] theorem State.leaveCtl_fio (b : Nat) : (s.leaveCtl b).fio = s.fio := rfl
@[simp] theorem State.leaveCtl_capt (b : Nat) : (s.leaveCtl b).capt = s.capt := rfl
@[simp] theorem State.leaveCtl_log (b : Nat) : (s.leaveCtl b).log = s.log := rfl
@[simp] theorem State.leaveCtl_net (b : Nat) : (s.leaveCtl b).net = s.net := rfl
@[simp] theorem State.leaveCtl_ptp (b : Nat) : (s.leaveCtl b).ptp = s.ptp := rfl
@[simp] theorem State.leaveCtl_chk (b : Nat) : (s.leaveCtl b).chk = s.chk := rfl
@[simp] theorem State.leaveCtl_adeid (b : Nat) : (s.leaveCtl b).adeid = s.adeid := rfl
@[simp] theorem State.leaveCtl_sec (b : Nat) : (s.leaveCtl b).sec = s.sec := rfl
@[simp] theorem State.leaveCtl_diag (b : Nat) : (s.leaveCtl b).diag = s.diag := rfl
@[simp] theorem State.leaveCtl_snaps (b : Nat) : (s.leaveCtl b).snaps = s.snaps := rfl
@[simp] theorem State.leaveCtl_pending (b : Nat) : (s.leaveCtl b).pending = s.pending := rfl

/-! ### Host accesses -/

@[simp] theorem State.answer_now (a : AccessEnd) : (s.answer a).now = s.now := rfl
@[simp] theorem State.answer_ltc (a : AccessEnd) : (s.answer a).ltc = s.ltc := rfl
@[simp] theorem State.answer_fresh (a : AccessEnd) : (s.answer a).fresh = s.fresh := rfl
@[simp] theorem State.answer_manifest (a : AccessEnd) : (s.answer a).manifest = s.manifest := rfl
@[simp] theorem State.answer_sys (a : AccessEnd) : (s.answer a).sys = s.sys := rfl
@[simp] theorem State.answer_clk (a : AccessEnd) : (s.answer a).clk = s.clk := rfl
@[simp] theorem State.answer_tide (a : AccessEnd) : (s.answer a).tide = s.tide := rfl
@[simp] theorem State.answer_acq (a : AccessEnd) : (s.answer a).acq = s.acq := rfl
@[simp] theorem State.answer_prot (a : AccessEnd) : (s.answer a).prot = s.prot := rfl
@[simp] theorem State.answer_diff (a : AccessEnd) : (s.answer a).diff = s.diff := rfl
@[simp] theorem State.answer_form (a : AccessEnd) : (s.answer a).form = s.form := rfl
@[simp] theorem State.answer_gate (a : AccessEnd) : (s.answer a).gate = s.gate := rfl
@[simp] theorem State.answer_logic (a : AccessEnd) : (s.answer a).logic = s.logic := rfl
@[simp] theorem State.answer_fio (a : AccessEnd) : (s.answer a).fio = s.fio := rfl
@[simp] theorem State.answer_capt (a : AccessEnd) : (s.answer a).capt = s.capt := rfl
@[simp] theorem State.answer_log (a : AccessEnd) : (s.answer a).log = s.log := rfl
@[simp] theorem State.answer_net (a : AccessEnd) : (s.answer a).net = s.net := rfl
@[simp] theorem State.answer_ptp (a : AccessEnd) : (s.answer a).ptp = s.ptp := rfl
@[simp] theorem State.answer_chk (a : AccessEnd) : (s.answer a).chk = s.chk := rfl
@[simp] theorem State.answer_adeid (a : AccessEnd) : (s.answer a).adeid = s.adeid := rfl
@[simp] theorem State.answer_sec (a : AccessEnd) : (s.answer a).sec = s.sec := rfl
@[simp] theorem State.answer_diag (a : AccessEnd) : (s.answer a).diag = s.diag := rfl
@[simp] theorem State.answer_snaps (a : AccessEnd) : (s.answer a).snaps = s.snaps := rfl
@[simp] theorem State.answer_pending (a : AccessEnd) : (s.answer a).pending = s.pending := rfl

/-! ### Free values -/

@[simp] theorem State.drawNum_now : s.drawNum.2.now = s.now := rfl
@[simp] theorem State.drawNum_ltc : s.drawNum.2.ltc = s.ltc := rfl
@[simp] theorem State.drawNum_manifest : s.drawNum.2.manifest = s.manifest := rfl
@[simp] theorem State.drawNum_sys : s.drawNum.2.sys = s.sys := rfl
@[simp] theorem State.drawNum_clk : s.drawNum.2.clk = s.clk := rfl
@[simp] theorem State.drawNum_tide : s.drawNum.2.tide = s.tide := rfl
@[simp] theorem State.drawNum_acq : s.drawNum.2.acq = s.acq := rfl
@[simp] theorem State.drawNum_prot : s.drawNum.2.prot = s.prot := rfl
@[simp] theorem State.drawNum_diff : s.drawNum.2.diff = s.diff := rfl
@[simp] theorem State.drawNum_form : s.drawNum.2.form = s.form := rfl
@[simp] theorem State.drawNum_gate : s.drawNum.2.gate = s.gate := rfl
@[simp] theorem State.drawNum_logic : s.drawNum.2.logic = s.logic := rfl
@[simp] theorem State.drawNum_fio : s.drawNum.2.fio = s.fio := rfl
@[simp] theorem State.drawNum_capt : s.drawNum.2.capt = s.capt := rfl
@[simp] theorem State.drawNum_log : s.drawNum.2.log = s.log := rfl
@[simp] theorem State.drawNum_net : s.drawNum.2.net = s.net := rfl
@[simp] theorem State.drawNum_ptp : s.drawNum.2.ptp = s.ptp := rfl
@[simp] theorem State.drawNum_chk : s.drawNum.2.chk = s.chk := rfl
@[simp] theorem State.drawNum_host : s.drawNum.2.host = s.host := rfl
@[simp] theorem State.drawNum_adeid : s.drawNum.2.adeid = s.adeid := rfl
@[simp] theorem State.drawNum_sec : s.drawNum.2.sec = s.sec := rfl
@[simp] theorem State.drawNum_diag : s.drawNum.2.diag = s.diag := rfl
@[simp] theorem State.drawNum_snaps : s.drawNum.2.snaps = s.snaps := rfl
@[simp] theorem State.drawNum_pending : s.drawNum.2.pending = s.pending := rfl
@[simp] theorem State.drawNat_now : s.drawNat.2.now = s.now := rfl
@[simp] theorem State.drawNat_ltc : s.drawNat.2.ltc = s.ltc := rfl
@[simp] theorem State.drawNat_manifest : s.drawNat.2.manifest = s.manifest := rfl
@[simp] theorem State.drawNat_sys : s.drawNat.2.sys = s.sys := rfl
@[simp] theorem State.drawNat_clk : s.drawNat.2.clk = s.clk := rfl
@[simp] theorem State.drawNat_tide : s.drawNat.2.tide = s.tide := rfl
@[simp] theorem State.drawNat_acq : s.drawNat.2.acq = s.acq := rfl
@[simp] theorem State.drawNat_prot : s.drawNat.2.prot = s.prot := rfl
@[simp] theorem State.drawNat_diff : s.drawNat.2.diff = s.diff := rfl
@[simp] theorem State.drawNat_form : s.drawNat.2.form = s.form := rfl
@[simp] theorem State.drawNat_gate : s.drawNat.2.gate = s.gate := rfl
@[simp] theorem State.drawNat_logic : s.drawNat.2.logic = s.logic := rfl
@[simp] theorem State.drawNat_fio : s.drawNat.2.fio = s.fio := rfl
@[simp] theorem State.drawNat_capt : s.drawNat.2.capt = s.capt := rfl
@[simp] theorem State.drawNat_log : s.drawNat.2.log = s.log := rfl
@[simp] theorem State.drawNat_net : s.drawNat.2.net = s.net := rfl
@[simp] theorem State.drawNat_ptp : s.drawNat.2.ptp = s.ptp := rfl
@[simp] theorem State.drawNat_chk : s.drawNat.2.chk = s.chk := rfl
@[simp] theorem State.drawNat_host : s.drawNat.2.host = s.host := rfl
@[simp] theorem State.drawNat_adeid : s.drawNat.2.adeid = s.adeid := rfl
@[simp] theorem State.drawNat_sec : s.drawNat.2.sec = s.sec := rfl
@[simp] theorem State.drawNat_diag : s.drawNat.2.diag = s.diag := rfl
@[simp] theorem State.drawNat_snaps : s.drawNat.2.snaps = s.snaps := rfl
@[simp] theorem State.drawNat_pending : s.drawNat.2.pending = s.pending := rfl

/-! ### Event registers -/

@[simp] theorem State.raise_now (b : Blk) (i : Nat) : (s.raise b i).now = s.now := by
  cases b <;> (unfold State.raise State.onEvent; simp; try (split <;> rfl))
@[simp] theorem State.raise_ltc (b : Blk) (i : Nat) : (s.raise b i).ltc = s.ltc := by
  cases b <;> (unfold State.raise State.onEvent; simp; try (split <;> rfl))
@[simp] theorem State.raise_fresh (b : Blk) (i : Nat) : (s.raise b i).fresh = s.fresh := by
  cases b <;> (unfold State.raise State.onEvent; simp; try (split <;> rfl))
@[simp] theorem State.raise_manifest (b : Blk) (i : Nat) : (s.raise b i).manifest = s.manifest := by
  cases b <;> (unfold State.raise State.onEvent; simp; try (split <;> rfl))
@[simp] theorem State.raise_sys {b : Blk} (h : b ≠ .sys) (i : Nat) : (s.raise b i).sys = s.sys := by
  cases b <;> first | exact absurd rfl h | (unfold State.raise State.onEvent; simp; try (split <;> rfl))
@[simp] theorem State.raise_clk {b : Blk} (h : b ≠ .clk) (i : Nat) : (s.raise b i).clk = s.clk := by
  cases b <;> first | exact absurd rfl h | (unfold State.raise State.onEvent; simp; try (split <;> rfl))
@[simp] theorem State.raise_tide {b : Blk} (h : b ≠ .tide) (i : Nat) : (s.raise b i).tide = s.tide := by
  cases b <;> first | exact absurd rfl h | (unfold State.raise State.onEvent; simp; try (split <;> rfl))
@[simp] theorem State.raise_acq {b : Blk} (h : b ≠ .acq) (i : Nat) : (s.raise b i).acq = s.acq := by
  cases b <;> first | exact absurd rfl h | (unfold State.raise State.onEvent; simp; try (split <;> rfl))
@[simp] theorem State.raise_prot {b : Blk} (h : b ≠ .prot) (i : Nat) : (s.raise b i).prot = s.prot := by
  cases b <;> first | exact absurd rfl h | (unfold State.raise State.onEvent; simp; try (split <;> rfl))
@[simp] theorem State.raise_diff {b : Blk} (h : b ≠ .diff) (i : Nat) : (s.raise b i).diff = s.diff := by
  cases b <;> first | exact absurd rfl h | (unfold State.raise State.onEvent; simp; try (split <;> rfl))
@[simp] theorem State.raise_form {b : Blk} (h : b ≠ .form) (i : Nat) : (s.raise b i).form = s.form := by
  cases b <;> first | exact absurd rfl h | (unfold State.raise State.onEvent; simp; try (split <;> rfl))
@[simp] theorem State.raise_gate {b : Blk} (h : b ≠ .gate) (i : Nat) : (s.raise b i).gate = s.gate := by
  cases b <;> first | exact absurd rfl h | (unfold State.raise State.onEvent; simp; try (split <;> rfl))
@[simp] theorem State.raise_logic {b : Blk} (h : b ≠ .logic) (i : Nat) : (s.raise b i).logic = s.logic := by
  cases b <;> first | exact absurd rfl h | (unfold State.raise State.onEvent; simp; try (split <;> rfl))
@[simp] theorem State.raise_fio {b : Blk} (h : b ≠ .fio) (i : Nat) : (s.raise b i).fio = s.fio := by
  cases b <;> first | exact absurd rfl h | (unfold State.raise State.onEvent; simp; try (split <;> rfl))
@[simp] theorem State.raise_capt {b : Blk} (h : b ≠ .capt) (i : Nat) : (s.raise b i).capt = s.capt := by
  cases b <;> first | exact absurd rfl h | (unfold State.raise State.onEvent; simp; try (split <;> rfl))
@[simp] theorem State.raise_log {b : Blk} (h : b ≠ .log) (i : Nat) : (s.raise b i).log = s.log := by
  cases b <;> first | exact absurd rfl h | (unfold State.raise State.onEvent; simp; try (split <;> rfl))
@[simp] theorem State.raise_net {b : Blk} (h : b ≠ .net) (i : Nat) : (s.raise b i).net = s.net := by
  cases b <;> first | exact absurd rfl h | (unfold State.raise State.onEvent; simp; try (split <;> rfl))
@[simp] theorem State.raise_ptp {b : Blk} (h : b ≠ .ptp) (i : Nat) : (s.raise b i).ptp = s.ptp := by
  cases b <;> first | exact absurd rfl h | (unfold State.raise State.onEvent; simp; try (split <;> rfl))
@[simp] theorem State.raise_chk {b : Blk} (h : b ≠ .chk) (i : Nat) : (s.raise b i).chk = s.chk := by
  cases b <;> first | exact absurd rfl h | (unfold State.raise State.onEvent; simp; try (split <;> rfl))
@[simp] theorem State.raise_host {b : Blk} (h : b ≠ .host) (i : Nat) : (s.raise b i).host = s.host := by
  cases b <;> first | exact absurd rfl h | (unfold State.raise State.onEvent; simp)
@[simp] theorem State.raise_adeid {b : Blk} (h : b ≠ .adeid) (i : Nat) : (s.raise b i).adeid = s.adeid := by
  cases b <;> first | exact absurd rfl h | (unfold State.raise State.onEvent; simp; try (split <;> rfl))
@[simp] theorem State.raise_sec {b : Blk} (h : b ≠ .sec) (i : Nat) : (s.raise b i).sec = s.sec := by
  cases b <;> first | exact absurd rfl h | (unfold State.raise State.onEvent; simp; try (split <;> rfl))
@[simp] theorem State.raise_diag {b : Blk} (h : b ≠ .diag) (i : Nat) : (s.raise b i).diag = s.diag := by
  cases b <;> first | exact absurd rfl h | (unfold State.raise State.onEvent; simp; try (split <;> rfl))
@[simp] theorem State.raise_snaps (b : Blk) (i : Nat) : (s.raise b i).snaps = s.snaps := by
  cases b <;> (unfold State.raise State.onEvent; simp; try (split <;> rfl))
@[simp] theorem State.raise_pending (b : Blk) (i : Nat) : (s.raise b i).pending = s.pending := by
  cases b <;> (unfold State.raise State.onEvent; simp; try (split <;> rfl))

@[simp] theorem State.raise_at_sys (i : Nat) : (s.raise .sys i).sys = { s.sys with event := s.sys.event.raise i } := rfl
@[simp] theorem State.raise_at_clk (i : Nat) : (s.raise .clk i).clk = { s.clk with event := s.clk.event.raise i } := rfl
@[simp] theorem State.raise_at_tide (i : Nat) : (s.raise .tide i).tide = { s.tide with event := s.tide.event.raise i } := rfl
@[simp] theorem State.raise_at_acq (i : Nat) : (s.raise .acq i).acq = { s.acq with event := s.acq.event.raise i } := rfl
@[simp] theorem State.raise_at_prot (i : Nat) : (s.raise .prot i).prot = { s.prot with event := s.prot.event.raise i } := rfl
@[simp] theorem State.raise_at_diff (i : Nat) : (s.raise .diff i).diff = { s.diff with event := s.diff.event.raise i } := rfl
@[simp] theorem State.raise_at_form (i : Nat) : (s.raise .form i).form = { s.form with event := s.form.event.raise i } := rfl
@[simp] theorem State.raise_at_gate (i : Nat) : (s.raise .gate i).gate = { s.gate with event := s.gate.event.raise i } := rfl
@[simp] theorem State.raise_at_logic (i : Nat) : (s.raise .logic i).logic = { s.logic with event := s.logic.event.raise i } := rfl
@[simp] theorem State.raise_at_fio (i : Nat) : (s.raise .fio i).fio = { s.fio with event := s.fio.event.raise i } := rfl
@[simp] theorem State.raise_at_capt (i : Nat) : (s.raise .capt i).capt = { s.capt with event := s.capt.event.raise i } := rfl
@[simp] theorem State.raise_at_log (i : Nat) : (s.raise .log i).log = { s.log with event := s.log.event.raise i } := rfl
@[simp] theorem State.raise_at_net (i : Nat) : (s.raise .net i).net = { s.net with event := s.net.event.raise i } := rfl
@[simp] theorem State.raise_at_ptp (i : Nat) : (s.raise .ptp i).ptp = { s.ptp with event := s.ptp.event.raise i } := rfl
@[simp] theorem State.raise_at_chk (i : Nat) : (s.raise .chk i).chk = { s.chk with event := s.chk.event.raise i } := rfl
@[simp] theorem State.raise_at_adeid (i : Nat) : (s.raise .adeid i).adeid = { s.adeid with event := s.adeid.event.raise i } := rfl
@[simp] theorem State.raise_at_sec (i : Nat) : (s.raise .sec i).sec = { s.sec with event := s.sec.event.raise i } := rfl
@[simp] theorem State.raise_at_diag (i : Nat) : (s.raise .diag i).diag = { s.diag with event := s.diag.event.raise i } := rfl
/-- A vector that is raised changes nothing of HOST but its pending bits (R512). -/
theorem HostState.vector_eq (h : HostState) (v : Nat) :
    h.vector v = { h with pba := if (nth h.msix v {}).masked then h.pba ||| flag v true else h.pba } := by
  unfold HostState.vector
  split <;> rfl

@[simp] theorem State.raise_at_host (i : Nat) : (s.raise .host i).host =
    { s.host with
      event := s.host.event.raise i
      pba := if s.host.irqMask.getLsbD i ∧ (nth s.host.msix 18 {}).masked then s.host.pba ||| flag 18 true else s.host.pba } := by
  have e : (s.onEvent .host fun x => x.raise i).host = { s.host with event := s.host.event.raise i } := rfl
  unfold State.raise
  by_cases m : s.host.irqMask.getLsbD i = true
  · by_cases k : (nth s.host.msix 18 {}).masked = true
    · rw [if_pos ⟨rfl, m⟩, State.onHost_host, HostState.vector_eq, e, if_pos k, if_pos ⟨m, k⟩]
    · rw [if_pos ⟨rfl, m⟩, State.onHost_host, HostState.vector_eq, e, if_neg k, if_neg fun x => k x.2]
  · rw [if_neg fun x => m x.2, if_neg fun x => m x.1]
    rfl

@[simp] theorem State.report_log (n : Rec) (x : Nat) (l : List Int) : (s.report n x l).log =
    { s.log with reported := s.log.reported ++ [{ name := n, source := x, time := some s.ltc, payload := .values l }] } := rfl
@[simp] theorem State.reportSized_log (n : Rec) (x : Nat) (l : List (Nat × Nat)) : (s.reportSized n x l).log =
    { s.log with reported := s.log.reported ++ [{ name := n, source := x, time := some s.ltc, payload := .sized l }] } := rfl

/-! ### Conditions and loops -/

@[simp] theorem State.when_true (f : State → State) : s.when true f = f s := rfl
@[simp] theorem State.when_false (f : State → State) : s.when false f = s := rfl
@[simp] theorem State.forEach_nil {α : Type} (f : State → α → State) : s.forEach [] f = s := rfl
@[simp] theorem State.forEach_cons {α : Type} (x : α) (l : List α) (f : State → α → State) : s.forEach (x :: l) f = (f s x).forEach l f := rfl

end Sys2Proof.Machine
end

