-- ==== Sys2Proof/Laws/Berths.lean ====
section
/-! SUPPORT. Lists by index, clamped numbers, W1C bits, and what the operations on berths leave (R9, R486 to R489). -/

namespace Sys2Proof

theorem nth_updAt_self {α : Type} (l : List α) (i : Nat) (f : α → α) (d : α) (h : i < l.length) :
    nth (updAt l i f) i d = f (nth l i d) := by
  simp [nth, updAt, List.getElem?_eq_getElem h]

theorem nth_updAt_ne {α : Type} (l : List α) (i j : Nat) (f : α → α) (d : α) (h : i ≠ j) : nth (updAt l i f) j d = nth l j d := by
  simp [nth, updAt, h]

theorem nth_updAt_out {α : Type} (l : List α) (i j : Nat) (f : α → α) (d : α) (h : l.length ≤ i) : nth (updAt l i f) j d = nth l j d := by
  simp [nth, updAt, List.modify_eq_self h]

@[simp] theorem length_updAt {α : Type} (l : List α) (i : Nat) (f : α → α) : (updAt l i f).length = l.length := by simp [updAt]

/-- Changing the items that a test finds changes the one found, as long as the change keeps the test. -/
theorem find?_map_if {α : Type} (l : List α) (p : α → Bool) (f : α → α) (hf : ∀ x, p (f x) = p x) :
    (l.map fun x => if p x then f x else x).find? p = (l.find? p).map f := by
  induction l with
  | nil => rfl
  | cons x l ih =>
    rw [List.map_cons, List.find?_cons, List.find?_cons]
    cases k : p x
    · rw [if_neg (by simp), k]; exact ih
    · rw [if_pos rfl, hf, k]; rfl

theorem Num.clamp_le (lo hi x : Num) (h : lo ≤ hi) : Num.clamp lo hi x ≤ hi := by unfold Num.clamp; split; exact h; split <;> linarith

theorem Num.le_clamp (lo hi x : Num) (h : lo ≤ hi) : lo ≤ Num.clamp lo hi x := by unfold Num.clamp; split; exact le_rfl; split <;> linarith

end Sys2Proof

namespace Sys2Proof.Machine

open Sys2Proof

variable (s : State)

theorem State.passed_of (t d : Nat) (h : t + d ≤ s.now) : s.passed t d = true := decide_eq_true h

theorem State.passedSince_some (t d : Nat) : s.passedSince (some t) d = s.passed t d := rfl

theorem W1C.raise_bits (e : W1C) (i : Nat) (h : i < 32) : (e.raise i).bits.getLsbD i = true := by
  rw [W1C.raise, fld, BitVec.getLsbD_or, BitVec.getLsbD_ofNat]; simp [h]

theorem State.eventOf_raise (b : Blk) (i : Nat) : (s.raise b i).eventOf b = (s.eventOf b).raise i := by
  unfold State.raise
  by_cases h : b = .host
  · subst h
    dsimp only
    split
    · simp only [State.onEvent, State.onHost, State.eventOf, HostState.vector_eq]
    · rfl
  · rw [if_neg (fun k => h k.1)]
    cases b <;> rfl

/-! ### Berths -/

theorem State.ctlCmd_item {s : State} {b : Nat} {c : BerthCmd} (h : s.ctlCmd b = some c) :
    ∃ it, s.item b = some it ∧ it.stage = .ctl ∧ it.ending = none ∧ s.host.qCtl.head? = some b ∧ it.entry.cmd = some c := by
  unfold State.ctlCmd at h
  split at h
  · rename_i it q
    split at h
    · rename_i k; exact ⟨it, q, k.1, k.2.1, k.2.2, h⟩
    · cases h
  · cases h

theorem State.item_onItem (b : Nat) (f : Item → Item) (it : Item) (h : s.item b = some it) : (s.onItem b f).item b = some (f it) := by
  have hb : b < s.host.berths.length := by
    by_contra k
    simp [State.item, List.getElem?_eq_none (not_lt.mp k)] at h
  simp only [State.item, List.getElem?_eq_getElem hb] at h
  simp [State.item, State.onItem, State.onHost, updAt, List.getElem?_eq_getElem hb]
  exact ⟨it, by simpa using h, rfl⟩

theorem State.item_onItem_ne (b c : Nat) (f : Item → Item) (h : b ≠ c) : (s.onItem b f).item c = s.item c := by
  simp [State.item, State.onItem, State.onHost, updAt, h]

theorem State.endingOf_endItem (b : Nat) (e : Ending) (h : (s.item b).isSome) : (s.endItem b e).endingOf b = some e := by
  obtain ⟨it, q⟩ := Option.isSome_iff_exists.mp h
  simp [State.endingOf, State.endItem, State.item_onItem s b _ it q]

/-- An item that leaves CTL and is done is done, whatever the target did to the blocks other than HOST. -/
theorem State.doneOn (b : Nat) (r : BitVec 64) (h : (s.item b).isSome) (hq : b ∉ s.host.qCtl) : DoneOn b r (s.done b r) where
  ending := State.endingOf_endItem s b _ h
  left := hq

/-- Setting the HOST_EVENT bits of a refusal ends no item. -/
theorem State.endingOf_raiseRefused (b : Nat) : (s.raiseRefused).endingOf b = s.endingOf b := by
  simp [State.endingOf, State.item, State.raiseRefused]

theorem State.item_leaveCtl (b c : Nat) : (s.leaveCtl b).item c = s.item c := rfl

theorem State.not_mem_leaveCtl (b : Nat) : b ∉ (s.leaveCtl b).host.qCtl := by simp [State.leaveCtl, State.onHost]

end Sys2Proof.Machine
end

