-- ==== Sys2Proof/Laws/Kept.lean ====
section
/-! SUPPORT. What every operation of the model keeps: the queue, the antifuses of SEC, the numbers of berths and of Tide marks. -/

namespace Sys2Proof.Machine

set_option Elab.async false

open Sys2Proof

variable {M : Part → Prop} {a b c s : State}

/-- What holds of a state `b` that operations have made of `a` when they touch no part outside `M`. -/
structure Kept (M : Part → Prop) (a b : State) : Prop where
  parts : ∀ p, ¬M p → p.same a b
  queue : b.pending = a.pending
  sec : SecKept a.sec b.sec
  berths : a.host.berths.length = 128 → b.host.berths.length = 128
  marks : a.tide.marks.length = 256 → b.tide.marks.length = 256

theorem SecKept.refl (a : SecState) : SecKept a a := ⟨fun _ => rfl, le_rfl, le_rfl, le_rfl, fun _ => le_rfl⟩

theorem SecKept.trans {a b c : SecState} (h : SecKept a b) (k : SecKept b c) : SecKept a c :=
  ⟨fun r => (k.root (by rw [h.root r]; exact r)).trans (h.root r), h.floor.trans k.floor, k.rollback.trans h.rollback,
    k.epoch.trans h.epoch, fun i => (k.keys i).trans (h.keys i)⟩

/-- A change of SEC beside its antifuses. -/
theorem SecKept.same {a b : SecState} (r : b.root = a.root) (f : b.floor = a.floor) (t : b.tallyRollback = a.tallyRollback)
    (e : b.tallyEpoch = a.tallyEpoch) (k : b.tallyKey = a.tallyKey) : SecKept a b :=
  ⟨fun _ => r, f.ge, t.le, e.le, fun _ => by rw [k]⟩

theorem SecKept.setSlot (a : SecState) (b : Bool) (x : Slot) : SecKept a (a.setSlot b x) := by
  cases b <;> exact .same rfl rfl rfl rfl rfl

theorem Kept.refl (a : State) : Kept M a a := ⟨fun p _ => by cases p <;> rfl, rfl, .refl _, id, id⟩

theorem Part.same_trans {p : Part} (h : p.same a b) (k : p.same b c) : p.same a c := by
  cases p <;> exact Eq.trans k h

theorem Kept.trans (h : Kept M a b) (k : Kept M b c) : Kept M a c :=
  ⟨fun p n => Part.same_trans (h.parts p n) (k.parts p n), k.queue.trans h.queue, h.sec.trans k.sec, k.berths ∘ h.berths, k.marks ∘ h.marks⟩

/-- A change beside the queue, SEC, HOST and TIDE. -/
theorem Kept.same (h : Kept M a b) (p : c.pending = b.pending) (s : c.sec = b.sec) (o : c.host = b.host) (t : c.tide = b.tide)
    (x : ∀ p, ¬M p → p.same b c := by intro p n; cases p <;> first | rfl | exact absurd ‹_› n) : Kept M a c :=
  ⟨fun p n => Part.same_trans (h.parts p n) (x p n), p.trans h.queue, by rw [s]; exact h.sec, by rw [o]; exact h.berths,
    by rw [t]; exact h.marks⟩

/-- A change that replaces TIDE with its marks anew, SEC beside its antifuses, and HOST with its berths kept or anew. -/
theorem Kept.anew (h : Kept M a b) (p : c.pending = b.pending) (s : SecKept b.sec c.sec)
    (o : c.host.berths.length = 128 ∨ c.host = b.host) (t : c.tide.marks.length = 256 ∨ c.tide.marks.length = b.tide.marks.length)
    (x : ∀ p, ¬M p → p.same b c := by intro p n; cases p <;> first | rfl | exact absurd ‹_› n) : Kept M a c :=
  ⟨fun p n => Part.same_trans (h.parts p n) (x p n), p.trans h.queue, h.sec.trans s,
    fun k => o.elim id fun e => by rw [e]; exact h.berths k, fun k => t.elim id fun e => e.trans (h.marks k)⟩

theorem Kept.ite {p : Prop} [Decidable p] (h : p → Kept M a b) (k : ¬p → Kept M a c) : Kept M a (if p then b else c) := by
  split
  · exact h ‹_›
  · exact k ‹_›

theorem State.onSys_kept (h : Kept M a s) (f) (m : M .sys := by first | assumption | simp) : Kept M a (s.onSys f) := h.same rfl rfl rfl rfl
theorem State.onClk_kept (h : Kept M a s) (f) (m : M .clk := by first | assumption | simp) : Kept M a (s.onClk f) := h.same rfl rfl rfl rfl
theorem State.onAcq_kept (h : Kept M a s) (f) (m : M .acq := by first | assumption | simp) : Kept M a (s.onAcq f) := h.same rfl rfl rfl rfl
theorem State.onProt_kept (h : Kept M a s) (f) (m : M .prot := by first | assumption | simp) : Kept M a (s.onProt f) := h.same rfl rfl rfl rfl
theorem State.onDiff_kept (h : Kept M a s) (f) (m : M .diff := by first | assumption | simp) : Kept M a (s.onDiff f) := h.same rfl rfl rfl rfl
theorem State.onForm_kept (h : Kept M a s) (f) (m : M .form := by first | assumption | simp) : Kept M a (s.onForm f) := h.same rfl rfl rfl rfl
theorem State.onGate_kept (h : Kept M a s) (f) (m : M .gate := by first | assumption | simp) : Kept M a (s.onGate f) := h.same rfl rfl rfl rfl
theorem State.onLogic_kept (h : Kept M a s) (f) (m : M .logic := by first | assumption | simp) : Kept M a (s.onLogic f) := h.same rfl rfl rfl rfl
theorem State.onFio_kept (h : Kept M a s) (f) (m : M .fio := by first | assumption | simp) : Kept M a (s.onFio f) := h.same rfl rfl rfl rfl
theorem State.onCapt_kept (h : Kept M a s) (f) (m : M .capt := by first | assumption | simp) : Kept M a (s.onCapt f) := h.same rfl rfl rfl rfl
theorem State.onLog_kept (h : Kept M a s) (f) (m : M .log := by first | assumption | simp) : Kept M a (s.onLog f) := h.same rfl rfl rfl rfl
theorem State.onNet_kept (h : Kept M a s) (f) (m : M .net := by first | assumption | simp) : Kept M a (s.onNet f) := h.same rfl rfl rfl rfl
theorem State.onPtp_kept (h : Kept M a s) (f) (m : M .ptp := by first | assumption | simp) : Kept M a (s.onPtp f) := h.same rfl rfl rfl rfl
theorem State.onChk_kept (h : Kept M a s) (f) (m : M .chk := by first | assumption | simp) : Kept M a (s.onChk f) := h.same rfl rfl rfl rfl
theorem State.onAdeid_kept (h : Kept M a s) (f) (m : M .adeid := by first | assumption | simp) : Kept M a (s.onAdeid f) := h.same rfl rfl rfl rfl
theorem State.onDiag_kept (h : Kept M a s) (f) (m : M .diag := by first | assumption | simp) : Kept M a (s.onDiag f) := h.same rfl rfl rfl rfl

theorem State.onTide_kept (h : Kept M a s) {f : TideState → TideState} (k : ∀ x, x.marks.length = 256 → (f x).marks.length = 256)
    (m : M .tide := by first | assumption | simp) : Kept M a (s.onTide f) :=
  ⟨fun p n => Part.same_trans (h.parts p n) (by cases p <;> first | rfl | exact absurd m n), h.queue, h.sec, h.berths, fun m => k _ (h.marks m)⟩

theorem State.onHost_kept (h : Kept M a s) {f : HostState → HostState} (k : ∀ x, x.berths.length = 128 → (f x).berths.length = 128)
    (m : M .host := by first | assumption | simp) : Kept M a (s.onHost f) :=
  ⟨fun p n => Part.same_trans (h.parts p n) (by cases p <;> first | rfl | exact absurd m n), h.queue, h.sec, fun m => k _ (h.berths m), h.marks⟩

theorem State.onSec_kept (h : Kept M a s) {f : SecState → SecState} (k : SecKept s.sec (f s.sec)) (m : M .sec := by first | assumption | simp) :
    Kept M a (s.onSec f) :=
  ⟨fun p n => Part.same_trans (h.parts p n) (by cases p <;> first | rfl | exact absurd m n), h.queue, h.sec.trans k, h.berths, h.marks⟩

@[simp] theorem HostState.vector_berths (h : HostState) (v : Nat) : (h.vector v).berths = h.berths := by
  unfold HostState.vector
  split <;> rfl

theorem State.when_kept (h : Kept M a s) {c : Bool} {f : State → State} (k : ∀ s, Kept M a s → Kept M a (f s)) : Kept M a (s.when c f) := by
  cases c
  · exact h
  · exact k s h

theorem State.forEach_kept {α : Type} {f : State → α → State} (k : ∀ x s, Kept M a s → Kept M a (f s x)) :
    ∀ (l : List α) {s : State}, Kept M a s → Kept M a (s.forEach l f)
  | [], _, h => h
  | x :: l, _, h => State.forEach_kept k l (k x _ h)

/-- What a command keeps, when it answers a next state. -/
def KeptOut (M : Part → Prop) (a : State) (o : Out) : Prop := ∀ t, o = .next t → Kept M a t

theorem KeptOut.next (h : Kept M a s) : KeptOut M a (.next s) := fun _ e => by cases e; exact h

theorem KeptOut.fault (f : Fault) : KeptOut M a (.fault f) := fun _ e => nomatch e

/-- From a concrete list of parts to the frame that claims speak of. -/
theorem Kept.frame {l : List Part} (h : Kept (· ∈ l) a b) : OnlyTouches l a b := ⟨h.parts, h.queue⟩

theorem KeptOut.frame {l : List Part} {o : Out} {t : State} (h : KeptOut (· ∈ l) a o) (e : o = .next t) : OnlyTouches l a t := (h t e).frame

theorem KeptOut.ite {o p : Out} {c : Prop} [Decidable c] (h : c → KeptOut M a o) (k : ¬c → KeptOut M a p) : KeptOut M a (if c then o else p) := by
  split
  · exact h ‹_›
  · exact k ‹_›

end Sys2Proof.Machine
end

