-- ==== Sys2Proof/Laws/KeptOps.lean ====
section
/-! SUPPORT. What is kept, one lemma per operation: the operations of the small blocks, the logbook, the marks and the network. -/

namespace Sys2Proof.Machine

set_option Elab.async false

open Sys2Proof

variable {M : Part → Prop} {a s : State}

theorem State.onEvent_kept (b : Blk) (f : W1C → W1C) (h : Kept M a s) (m : M (blkPart b) := by first | assumption | simp) : Kept M a (State.onEvent s b f) := by
  cases b with
  | tide => exact State.onTide_kept (f := fun x => { x with event := f x.event }) h (fun _ k => k) m
  | host => exact State.onHost_kept (f := fun x => { x with event := f x.event }) h (fun _ k => k) m
  | sec => exact State.onSec_kept (f := fun x => { x with event := f x.event }) h (.same rfl rfl rfl rfl rfl) m
  | _ => exact h.same rfl rfl rfl rfl

theorem State.raise_kept (b : Blk) (i : Nat) (h : Kept M a s) (m : M (blkPart b) := by first | assumption | simp) : Kept M a (State.raise s b i) := by
  have hs : Kept M a (s.onEvent b fun e => e.raise i) := State.onEvent_kept _ _ h
  unfold State.raise
  refine Kept.ite (fun c => ?_) fun _ => hs
  have m' : M .host := by simpa [c.1] using m
  exact State.onHost_kept hs fun x k => by simpa using k

theorem State.report_kept (name : Rec) (source : Nat) (payload : List Int) (h : Kept M a s) (mLog : M .log := by first | assumption | simp) :
    Kept M a (State.report s name source payload) := by
  unfold State.report
  with_reducible repeat' first | assumption | intro _ | apply State.onLog_kept

theorem State.reportAt_kept (time : Nat) (name : Rec) (source : Nat) (payload : List Int) (h : Kept M a s) (mLog : M .log := by first | assumption | simp) :
    Kept M a (State.reportAt s time name source payload) := by
  unfold State.reportAt
  with_reducible repeat' first | assumption | intro _ | apply State.onLog_kept

theorem State.reportSized_kept (name : Rec) (source : Nat) (payload : List (Nat × Nat)) (h : Kept M a s) (mLog : M .log := by first | assumption | simp) :
    Kept M a (State.reportSized s name source payload) := by
  unfold State.reportSized
  with_reducible repeat' first | assumption | intro _ | apply State.onLog_kept

theorem State.drawNum_kept (h : Kept M a s) (mFresh : M .fresh := by first | assumption | simp) : Kept M a (State.drawNum s).2 := by
  unfold State.drawNum
  all_goals first | exact h.same rfl rfl rfl rfl

theorem State.drawNat_kept (h : Kept M a s) (mFresh : M .fresh := by first | assumption | simp) : Kept M a (State.drawNat s).2 := by
  unfold State.drawNat
  all_goals first | exact h.same rfl rfl rfl rfl

theorem State.onItem_kept (b : Nat) (f : Item → Item) (h : Kept M a s) (mHost : M .host := by first | assumption | simp) : Kept M a (State.onItem s b f) := by
  unfold State.onItem
  with_reducible repeat' first | assumption | intro _ | apply State.onHost_kept
  all_goals first | simpa [updAt] using ‹_›

theorem State.leaveCtl_kept (b : Nat) (h : Kept M a s) (mHost : M .host := by first | assumption | simp) : Kept M a (State.leaveCtl s b) := by
  unfold State.leaveCtl
  with_reducible repeat' first | assumption | intro _ | extract_lets | apply State.onHost_kept

theorem State.endItem_kept (b : Nat) (e : Ending) (h : Kept M a s) (mHost : M .host := by first | assumption | simp) : Kept M a (State.endItem s b e) := by
  unfold State.endItem
  with_reducible repeat' first | assumption | intro _ | apply State.onItem_kept

theorem State.done_kept (b : Nat) (result : BitVec 64) (h : Kept M a s) (mHost : M .host := by first | assumption | simp) :
    Kept M a (State.done s b result) := by
  unfold State.done
  with_reducible repeat' first | assumption | apply State.endItem_kept

theorem State.failed_kept (b : Nat) (r : Reason) (h : Kept M a s) (mHost : M .host := by first | assumption | simp) : Kept M a (State.failed s b r) := by
  unfold State.failed
  with_reducible repeat' first | assumption | apply State.endItem_kept

theorem State.toTarget_kept (b : Nat) (h : Kept M a s) (mHost : M .host := by first | assumption | simp) : Kept M a (State.toTarget s b) := by
  unfold State.toTarget
  with_reducible repeat' first | assumption | intro _ | apply State.onItem_kept

theorem State.answer_kept (az : AccessEnd) (h : Kept M a s) (mHost : M .host := by first | assumption | simp) : Kept M a (State.answer s az) := by
  unfold State.answer
  with_reducible repeat' first | assumption | intro _ | apply State.onHost_kept

theorem State.reportRefused_kept (r : Refuse) (opcode : Nat) (stage : RefStage) (az : Asker) (tag : Word) (h : Kept M a s)
    (mLog : M .log := by first | assumption | simp) :
    Kept M a (State.reportRefused s r opcode stage az tag) := by
  unfold State.reportRefused
  with_reducible repeat' first | assumption | apply State.reportSized_kept

theorem State.refuseInternal_kept (r : Refuse) (az : Asker) (h : Kept M a s) (mLog : M .log := by first | assumption | simp) :
    Kept M a (State.refuseInternal s r az) := by
  unfold State.refuseInternal
  with_reducible repeat' first | assumption | apply State.reportRefused_kept

theorem State.raiseRefused_kept (h : Kept M a s) (mHost : M .host := by first | assumption | simp) : Kept M a (State.raiseRefused s) := by
  unfold State.raiseRefused
  with_reducible repeat' first | assumption | apply State.raise_kept

theorem State.refuseItem_kept (b : Nat) (r : Refuse) (stage : RefStage) (h : Kept M a s) (mLog : M .log := by first | assumption | simp)
    (mHost : M .host := by first | assumption | simp) :
    Kept M a (State.refuseItem s b r stage) := by
  unfold State.refuseItem
  with_reducible repeat' first | assumption | apply State.reportRefused_kept | apply State.raiseRefused_kept | apply State.endItem_kept | split

theorem State.runCtl_kept (b : Nat) (r : Option Refuse) (f : State → State) (h : Kept M a s) (k : ∀ s, Kept M a s → Kept M a (f s))
    (mLog : M .log := by first | assumption | simp) (mHost : M .host := by first | assumption | simp) :
    Kept M a (State.runCtl s b r f) := by
  unfold State.runCtl
  with_reducible repeat' first | assumption | intro _ | apply State.refuseItem_kept | apply State.leaveCtl_kept | apply k | split

theorem State.onCh_kept (n : Nat) (f : FioCh → FioCh) (h : Kept M a s) (mFio : M .fio := by first | assumption | simp) : Kept M a (State.onCh s n f) := by
  unfold State.onCh
  with_reducible repeat' first | assumption | intro _ | apply State.onFio_kept

theorem State.onGroup_kept (g : Nat) (f : FioGroup → FioGroup) (h : Kept M a s) (mFio : M .fio := by first | assumption | simp) :
    Kept M a (State.onGroup s g f) := by
  unfold State.onGroup
  with_reducible repeat' first | assumption | intro _ | apply State.onFio_kept

theorem State.pushEdge_kept (n : Nat) (level : Bool) (ts : Word) (h : Kept M a s) (mFio : M .fio := by first | assumption | simp) (mLog : M .log := by first | assumption | simp) :
    Kept M a (State.pushEdge s n level ts) := by
  unfold State.pushEdge
  with_reducible repeat' first
    | assumption
    | intro _
    | extract_lets
    | apply State.onCh_kept
    | apply State.raise_kept
    | apply State.onGroup_kept
    | apply State.report_kept
    | apply Kept.ite

theorem State.switchDelay_kept (h : Kept M a s) (mFresh : M .fresh := by first | assumption | simp) : Kept M a (State.switchDelay s).2 := by
  unfold State.switchDelay
  with_reducible repeat' first | assumption | extract_lets | apply State.drawNat_kept

theorem State.drive_kept (n : Nat) (h : Kept M a s) (mFresh : M .fresh := by first | assumption | simp) (mFio : M .fio := by first | assumption | simp)
    (mLog : M .log := by first | assumption | simp) (mDiag : M .diag := by first | assumption | simp) :
    Kept M a (State.drive s n) := by
  unfold State.drive
  with_reducible repeat' first
    | assumption
    | intro _
    | extract_lets
    | apply State.switchDelay_kept
    | apply State.forEach_kept
    | apply State.onDiag_kept
    | apply State.onCh_kept
    | apply State.pushEdge_kept
    | apply Kept.ite

theorem State.driveGroup_kept (g : Nat) (h : Kept M a s) (mFresh : M .fresh := by first | assumption | simp) (mFio : M .fio := by first | assumption | simp)
    (mLog : M .log := by first | assumption | simp) (mDiag : M .diag := by first | assumption | simp) :
    Kept M a (State.driveGroup s g) := by
  unfold State.driveGroup
  with_reducible repeat' first | assumption | intro _ | apply State.forEach_kept | apply State.drive_kept

theorem State.sendFio_kept (n : Nat) (level : Bool) (h : Kept M a s) (mFio : M .fio := by first | assumption | simp) : Kept M a (State.sendFio s n level) := by
  unfold State.sendFio
  with_reducible repeat' first | assumption | intro _ | apply State.onCh_kept

theorem State.applyFio_kept (n : Nat) (level : Bool) (h : Kept M a s) (mFresh : M .fresh := by first | assumption | simp) (mFio : M .fio := by first | assumption | simp)
    (mLog : M .log := by first | assumption | simp) (mDiag : M .diag := by first | assumption | simp) :
    Kept M a (State.applyFio s n level) := by
  unfold State.applyFio
  with_reducible repeat' first | assumption | intro _ | extract_lets | apply State.drive_kept | apply State.onCh_kept

theorem State.fioDetect_kept (n : Nat) (bit : Nat) (h : Kept M a s) (mFio : M .fio := by first | assumption | simp) (mLog : M .log := by first | assumption | simp) :
    Kept M a (State.fioDetect s n bit) := by
  unfold State.fioDetect
  with_reducible repeat' first | assumption | intro _ | extract_lets | apply State.report_kept | apply State.raise_kept | apply State.onCh_kept

theorem State.applyEdge_kept (e : SchedEdge) (h : Kept M a s) (mFresh : M .fresh := by first | assumption | simp)
    (mFio : M .fio := by first | assumption | simp) (mLog : M .log := by first | assumption | simp)
    (mDiag : M .diag := by first | assumption | simp) :
    Kept M a (State.applyEdge s e) := by
  unfold State.applyEdge
  with_reducible repeat' first | assumption | intro _ | extract_lets | apply State.onCh_kept | apply State.drive_kept

theorem State.edgeLate_kept (e : SchedEdge) (h : Kept M a s) (mFresh : M .fresh := by first | assumption | simp) (mFio : M .fio := by first | assumption | simp)
    (mLog : M .log := by first | assumption | simp) (mDiag : M .diag := by first | assumption | simp) :
    Kept M a (State.edgeLate s e) := by
  unfold State.edgeLate
  with_reducible repeat' first
    | assumption
    | intro _
    | extract_lets
    | apply State.report_kept
    | apply State.raise_kept
    | apply State.onCh_kept
    | apply State.applyEdge_kept

theorem State.sendEdge_kept (e : SchedEdge) (h : Kept M a s) (mFresh : M .fresh := by first | assumption | simp) (mFio : M .fio := by first | assumption | simp)
    (mLog : M .log := by first | assumption | simp) (mDiag : M .diag := by first | assumption | simp) :
    Kept M a (State.sendEdge s e) := by
  unfold State.sendEdge
  with_reducible repeat' first | assumption | intro _ | extract_lets | apply State.edgeLate_kept | apply State.onGroup_kept | apply Kept.ite

theorem State.withdrawEdge_kept (id : Nat) (h : Kept M a s) (mFio : M .fio := by first | assumption | simp) : Kept M a (State.withdrawEdge s id) := by
  unfold State.withdrawEdge
  with_reducible repeat' first | assumption | intro _ | apply State.onFio_kept

theorem State.refillEdges_kept (gi : Nat) (h : Kept M a s) (mFresh : M .fresh := by first | assumption | simp) (mFio : M .fio := by first | assumption | simp)
    (mLog : M .log := by first | assumption | simp) (mDiag : M .diag := by first | assumption | simp) :
    Kept M a (State.refillEdges s gi) := by
  unfold State.refillEdges
  with_reducible repeat' first | assumption | intro _ | extract_lets | apply State.sendEdge_kept | apply State.onGroup_kept | apply Kept.ite | split

theorem State.fioSafe_kept (gi : Nat) (h : Kept M a s) (mFresh : M .fresh := by first | assumption | simp) (mFio : M .fio := by first | assumption | simp)
    (mLog : M .log := by first | assumption | simp) (mDiag : M .diag := by first | assumption | simp) :
    Kept M a (State.fioSafe s gi) := by
  unfold State.fioSafe
  with_reducible repeat' first
    | assumption
    | intro _
    | extract_lets
    | apply State.onGroup_kept
    | apply State.forEach_kept
    | apply State.onCh_kept
    | apply State.driveGroup_kept

theorem State.onUnit_kept (u : Nat) (f : FormUnit → FormUnit) (h : Kept M a s) (mForm : M .form := by first | assumption | simp) :
    Kept M a (State.onUnit s u f) := by
  unfold State.onUnit
  with_reducible repeat' first | assumption | intro _ | apply State.onForm_kept

theorem State.refreshHolds_kept (h : Kept M a s) (mTide : M .tide := by first | assumption | simp) : Kept M a (State.refreshHolds s) := by
  unfold State.refreshHolds
  with_reducible repeat' first | assumption | intro _ | apply State.onTide_kept

theorem State.pushHist_kept (h : Kept M a s) (mTide : M .tide := by first | assumption | simp) : Kept M a (State.pushHist s) := by
  unfold State.pushHist
  with_reducible repeat' first | assumption | intro _ | apply State.onTide_kept

theorem State.onEngine_kept (e : Nat) (f : Engine → Engine) (h : Kept M a s) (mCapt : M .capt := by first | assumption | simp) :
    Kept M a (State.onEngine s e f) := by
  unfold State.onEngine
  with_reducible repeat' first | assumption | intro _ | apply State.onCapt_kept

theorem State.captPut_kept (ei : Nat) (r : ChgRec) (h : Kept M a s) (mCapt : M .capt := by first | assumption | simp) : Kept M a (State.captPut s ei r) := by
  unfold State.captPut
  with_reducible repeat' first
    | assumption
    | intro _
    | extract_lets
    | apply State.onEngine_kept
    | apply State.when_kept
    | apply State.raise_kept
    | apply Kept.ite

theorem State.captEach_kept (t : Nat) (type : ChgType) (f : Engine → List (Nat × Word × Word)) (h : Kept M a s) (mCapt : M .capt := by first | assumption | simp) :
    Kept M a (State.captEach s t type f) := by
  unfold State.captEach
  with_reducible repeat' first | assumption | intro _ | extract_lets | apply State.forEach_kept | apply State.captPut_kept | apply Kept.ite

theorem State.captDigital_kept (src : DigSource) (level : Bool) (t : Nat) (h : Kept M a s) (mCapt : M .capt := by first | assumption | simp) :
    Kept M a (State.captDigital s src level t) := by
  unfold State.captDigital
  with_reducible repeat' first | assumption | intro _ | extract_lets | apply State.captEach_kept | apply State.onCapt_kept

theorem State.captStep_kept (d : Int) (h : Kept M a s) (mCapt : M .capt := by first | assumption | simp) : Kept M a (State.captStep s d) := by
  unfold State.captStep
  with_reducible repeat' first | assumption | intro _ | apply State.captEach_kept

theorem State.captDegraded_kept (start : Bool) (h : Kept M a s) (mCapt : M .capt := by first | assumption | simp) : Kept M a (State.captDegraded s start) := by
  unfold State.captDegraded
  with_reducible repeat' first | assumption | intro _ | apply State.captEach_kept

theorem State.captRow_kept (ei : Nat) (time : Nat) (samples : List (BitVec 24)) (h : Kept M a s) (mCapt : M .capt := by first | assumption | simp) :
    Kept M a (State.captRow s ei time samples) := by
  unfold State.captRow
  with_reducible repeat' first
    | assumption
    | intro _
    | extract_lets
    | apply State.when_kept
    | apply State.onEngine_kept
    | apply State.raise_kept
    | apply Kept.ite

theorem State.captResume_kept (ei : Nat) (h : Kept M a s) (mCapt : M .capt := by first | assumption | simp) : Kept M a (State.captResume s ei) := by
  unfold State.captResume
  with_reducible repeat' first
    | assumption
    | intro _
    | extract_lets
    | apply State.onEngine_kept
    | apply State.captPut_kept
    | split
    | (dsimp +zetaDelta only; split)

theorem State.captRecord_kept (r : Rec) (ei : Nat) (h : Kept M a s) (mLog : M .log := by first | assumption | simp) : Kept M a (State.captRecord s r ei) := by
  unfold State.captRecord
  with_reducible repeat' first | assumption | intro _ | extract_lets | apply State.onLog_kept

theorem State.captDiscard_kept (ei : Nat) (h : Kept M a s) (mLog : M .log := by first | assumption | simp) : Kept M a (State.captDiscard s ei) := by
  unfold State.captDiscard
  with_reducible repeat' first | assumption | intro _ | extract_lets | apply State.report_kept | apply Kept.ite

theorem State.captArmed_kept (ei : Nat) (h : Kept M a s) (mCapt : M .capt := by first | assumption | simp) (mLog : M .log := by first | assumption | simp) :
    Kept M a (State.captArmed s ei) := by
  unfold State.captArmed
  with_reducible repeat' first
    | assumption
    | intro _
    | extract_lets
    | apply State.captDiscard_kept
    | apply State.onEngine_kept
    | apply State.forEach_kept
    | apply State.captPut_kept
    | apply State.report_kept
    | apply State.raise_kept
    | apply Kept.ite

theorem State.captDisarmed_kept (ei : Nat) (h : Kept M a s) (mCapt : M .capt := by first | assumption | simp) (mLog : M .log := by first | assumption | simp) :
    Kept M a (State.captDisarmed s ei) := by
  unfold State.captDisarmed
  with_reducible repeat' first
    | assumption
    | intro _
    | apply State.report_kept
    | apply State.raise_kept
    | apply State.onEngine_kept
    | apply State.captDiscard_kept

theorem State.captMet_kept (ei : Nat) (cond : Nat) (t : Nat) (h : Kept M a s) (mCapt : M .capt := by first | assumption | simp) :
    Kept M a (State.captMet s ei cond t) := by
  unfold State.captMet
  with_reducible repeat' first | assumption | intro _ | extract_lets | apply State.onEngine_kept | apply Kept.ite

theorem State.captMetAll_kept (t : Nat) (p : CaptCond → Bool) (h : Kept M a s) (mCapt : M .capt := by first | assumption | simp) :
    Kept M a (State.captMetAll s t p) := by
  unfold State.captMetAll
  with_reducible repeat' first | assumption | intro _ | apply State.forEach_kept | apply State.captMet_kept

theorem State.fire_kept (p : EventSource → Bool) (h : Kept M a s) (mLogic : M .logic := by first | assumption | simp) : Kept M a (State.fire s p) := by
  unfold State.fire
  with_reducible repeat' first | assumption | intro _ | apply State.onLogic_kept

theorem State.captReport_kept (ei : Nat) (r : Report) (h : Kept M a s) (mLogic : M .logic := by first | assumption | simp) (mCapt : M .capt := by first | assumption | simp) :
    Kept M a (State.captReport s ei r) := by
  unfold State.captReport
  with_reducible repeat' first
    | assumption
    | intro _
    | extract_lets
    | apply State.fire_kept
    | apply State.onEngine_kept
    | apply State.captPut_kept
    | apply Kept.ite

theorem State.closeTail_kept (c : TailCause) (h : Kept M a s) (mLog : M .log := by first | assumption | simp) : Kept M a (State.closeTail s c) := by
  unfold State.closeTail
  with_reducible repeat' first | assumption | intro _ | extract_lets | apply State.onLog_kept | apply Kept.ite | split

theorem State.tailAfter_kept (e : StageEntry) (seq : Nat) (h : Kept M a s) (mLog : M .log := by first | assumption | simp) :
    Kept M a (State.tailAfter s e seq) := by
  unfold State.tailAfter
  with_reducible repeat' first | assumption | intro _ | extract_lets | apply State.onLog_kept | apply Kept.ite

theorem State.logLose_kept (r : LogRecord) (h : Kept M a s) (mLog : M .log := by first | assumption | simp) : Kept M a (State.logLose s r) := by
  unfold State.logLose
  with_reducible repeat' first | assumption | intro _ | extract_lets | apply State.raise_kept | apply State.onLog_kept | apply Kept.ite

theorem State.stagePut_kept (e : StageEntry) (h : Kept M a s) (mLog : M .log := by first | assumption | simp) : Kept M a (State.stagePut s e) := by
  unfold State.stagePut
  with_reducible repeat' first | assumption | intro _ | extract_lets | apply State.onLog_kept | apply State.when_kept | apply State.raise_kept

theorem State.endOverflow_kept (h : Kept M a s) (mLog : M .log := by first | assumption | simp) : Kept M a (State.endOverflow s) := by
  unfold State.endOverflow
  with_reducible repeat' first | assumption | intro _ | apply State.stagePut_kept | apply State.onLog_kept | apply Kept.ite | split

theorem State.logBothFail_kept (h : Kept M a s) (mLog : M .log := by first | assumption | simp) (mDiag : M .diag := by first | assumption | simp) :
    Kept M a (State.logBothFail s) := by
  unfold State.logBothFail
  with_reducible repeat' first | assumption | intro _ | apply State.onDiag_kept | apply State.raise_kept | apply State.onLog_kept

theorem State.logBankFail_kept (first : State → State) (cause : Nat) (kfirst : ∀ s, Kept M a s → Kept M a (first s)) (h : Kept M a s)
    (mLog : M .log := by first | assumption | simp) (mDiag : M .diag := by first | assumption | simp) :
    Kept M a (State.logBankFail s first cause) := by
  unfold State.logBankFail
  with_reducible repeat' first
    | assumption
    | intro _
    | extract_lets
    | apply State.onLog_kept
    | apply State.raise_kept
    | apply State.logBothFail_kept
    | apply State.closeTail_kept
    | apply kfirst
    | apply Kept.ite

theorem State.logCommit_kept (f : State → State) (readback : Bool) (kf : ∀ s, Kept M a s → Kept M a (f s)) (h : Kept M a s)
    (mLog : M .log := by first | assumption | simp) (mDiag : M .diag := by first | assumption | simp) :
    Kept M a (State.logCommit s f readback) := by
  unfold State.logCommit
  with_reducible repeat' first | assumption | intro _ | extract_lets | apply State.logBankFail_kept | apply kf | apply Kept.ite

theorem State.commitEntry_kept (e : StageEntry) (h : Kept M a s) (mLog : M .log := by first | assumption | simp) :
    Kept M a (State.commitEntry s e) := by
  unfold State.commitEntry
  with_reducible repeat' first | assumption | intro _ | extract_lets | apply State.onLog_kept | apply State.tailAfter_kept

theorem State.logDrain_kept (c : TailCause) (h : Kept M a s) (mLog : M .log := by first | assumption | simp) :
    Kept M a (State.logDrain s c) := by
  unfold State.logDrain
  with_reducible repeat' first
    | assumption
    | intro _
    | extract_lets
    | apply State.onLog_kept
    | apply State.forEach_kept
    | apply State.closeTail_kept
    | apply State.commitEntry_kept

theorem State.endCheckWindow_kept (h : Kept M a s) (mLog : M .log := by first | assumption | simp) : Kept M a (State.endCheckWindow s) := by
  unfold State.endCheckWindow
  with_reducible repeat' first | assumption | intro _ | apply State.onLog_kept | split

theorem State.logLastwords_kept (va : Nat) (vb : Nat) (h : Kept M a s) (mLog : M .log := by first | assumption | simp) :
    Kept M a (State.logLastwords s va vb) := by
  unfold State.logLastwords
  with_reducible repeat' first
    | assumption
    | intro _
    | extract_lets
    | apply State.endCheckWindow_kept
    | apply State.onLog_kept
    | apply State.logDrain_kept
    | apply Kept.ite
    | split
    | (dsimp +zetaDelta only; split)

theorem State.logBoot_kept (torn : Bool) (h : Kept M a s) (mLog : M .log := by first | assumption | simp) : Kept M a (State.logBoot s torn) := by
  unfold State.logBoot
  with_reducible repeat' first
    | assumption
    | intro _
    | extract_lets
    | apply State.onLog_kept
    | apply State.closeTail_kept
    | apply State.raise_kept
    | apply Kept.ite
    | split

theorem State.logClear_kept (propSlot : Nat) (confSlot : Nat) (tallyLeft : Nat) (bankAGood : Bool) (h : Kept M a s) (mLog : M .log := by first | assumption | simp) :
    Kept M a (State.logClear s propSlot confSlot tallyLeft bankAGood) := by
  unfold State.logClear
  with_reducible repeat' first | assumption | intro _ | extract_lets | apply State.logDrain_kept | apply State.onLog_kept | apply State.raise_kept

theorem State.onAin_kept (c : Nat) (f : Ain → Ain) (h : Kept M a s) (mAcq : M .acq := by first | assumption | simp) : Kept M a (State.onAin s c f) := by
  unfold State.onAin
  with_reducible repeat' first | assumption | intro _ | apply State.onAcq_kept

theorem State.bankWriteIgnored_kept (c : Nat) (h : Kept M a s) (mAcq : M .acq := by first | assumption | simp) : Kept M a (State.bankWriteIgnored s c) := by
  unfold State.bankWriteIgnored
  with_reducible repeat' first | assumption | intro _ | apply State.raise_kept | apply State.onAcq_kept

theorem State.commitSwap_kept (c : Nat) (h : Kept M a s) (mAcq : M .acq := by first | assumption | simp) : Kept M a (State.commitSwap s c) := by
  unfold State.commitSwap
  with_reducible repeat' first | assumption | intro _ | apply State.onAin_kept

theorem State.dropReleased_kept (lane : LaneRate) (i : Nat) (t : Nat) (h : Kept M a s) (mAcq : M .acq := by first | assumption | simp) :
    Kept M a (State.dropReleased s lane i t) := by
  unfold State.dropReleased
  with_reducible repeat' first | assumption | intro _ | extract_lets | apply State.onAcq_kept

theorem State.chainIn_kept (c : Nat) (bits : BitVec 768) (h : Kept M a s) (mAcq : M .acq := by first | assumption | simp)
    (mLog : M .log := by first | assumption | simp) :
    Kept M a (State.chainIn s c bits) := by
  unfold State.chainIn
  with_reducible repeat' first
    | assumption
    | intro _
    | extract_lets
    | apply State.onAcq_kept
    | apply State.raise_kept
    | apply State.when_kept
    | apply State.onAin_kept
    | apply State.report_kept
    | split

theorem State.overrangeEnd_kept (az : Ain) (h : Kept M a s) (mAcq : M .acq := by first | assumption | simp)
    (mLog : M .log := by first | assumption | simp) :
    Kept M a (State.overrangeEnd s az) := by
  unfold State.overrangeEnd
  with_reducible repeat' first
    | assumption
    | intro _
    | extract_lets
    | apply State.raise_kept
    | apply State.when_kept
    | apply State.onAin_kept
    | apply State.report_kept
    | apply Kept.ite

theorem State.phasorIn_kept (h : Kept M a s) (mAcq : M .acq := by first | assumption | simp) (mLog : M .log := by first | assumption | simp) :
    Kept M a (State.phasorIn s) := by
  unfold State.phasorIn
  with_reducible repeat' first
    | assumption
    | intro _
    | extract_lets
    | apply State.onAcq_kept
    | apply State.forEach_kept
    | apply State.onAin_kept
    | apply State.overrangeEnd_kept

theorem State.coefWrite_kept (c : Nat) (bankB : Bool) (i : Nat) (v : Word) (h : Kept M a s) (mAcq : M .acq := by first | assumption | simp) :
    Kept M a (State.coefWrite s c bankB i v) := by
  unfold State.coefWrite
  with_reducible repeat' first | assumption | intro _ | apply State.bankWriteIgnored_kept | apply State.onAin_kept | apply Kept.ite | split

theorem State.bankWrite_kept (c : Nat) (v : Word) (h : Kept M a s) (mAcq : M .acq := by first | assumption | simp) : Kept M a (State.bankWrite s c v) := by
  unfold State.bankWrite
  with_reducible repeat' first | assumption | intro _ | apply State.bankWriteIgnored_kept | apply State.onAin_kept | apply Kept.ite | split

theorem State.delaySwitch_kept (c : Nat) (w : Nat) (az : Ain) (h : Kept M a s) (mAcq : M .acq := by first | assumption | simp) (mLog : M .log := by first | assumption | simp) :
    Kept M a (State.delaySwitch s c w az) := by
  unfold State.delaySwitch
  with_reducible repeat' first
    | assumption
    | intro _
    | extract_lets
    | apply State.onAin_kept
    | apply State.when_kept
    | apply State.raise_kept
    | apply State.onAcq_kept
    | apply State.report_kept

theorem State.tideRecord_kept (r : Rec) (bit : Nat) (old : TideSrc) (new : TideSrc) (h : Kept M a s) (mTide : M .tide := by first | assumption | simp)
    (mLog : M .log := by first | assumption | simp) :
    Kept M a (State.tideRecord s r bit old new) := by
  unfold State.tideRecord
  with_reducible repeat' first | assumption | apply State.report_kept | apply State.raise_kept

theorem State.unbind_kept (h : Kept M a s) (mTide : M .tide := by first | assumption | simp) (mForm : M .form := by first | assumption | simp) : Kept M a (State.unbind s) := by
  unfold State.unbind
  with_reducible repeat' first | assumption | intro _ | apply State.onUnit_kept | apply State.onTide_kept | split

theorem State.bindRotor_kept (h : Kept M a s) (mTide : M .tide := by first | assumption | simp) (mForm : M .form := by first | assumption | simp) (mLog : M .log := by first | assumption | simp) :
    Kept M a (State.bindRotor s) := by
  unfold State.bindRotor
  with_reducible repeat' first
    | assumption
    | intro _
    | extract_lets
    | apply State.onUnit_kept
    | apply State.onTide_kept
    | apply State.unbind_kept
    | apply State.report_kept
    | apply State.raise_kept
    | apply Kept.ite
    | split

theorem State.convergeTo_kept (x1 : TideSrc) (h : Kept M a s) (mTide : M .tide := by first | assumption | simp) (mForm : M .form := by first | assumption | simp) :
    Kept M a (State.convergeTo s x1) := by
  unfold State.convergeTo
  with_reducible repeat' first | assumption | intro _ | extract_lets | apply State.unbind_kept | apply State.onTide_kept | apply Kept.ite

theorem State.coastFreq_kept (h : Kept M a s) (mFresh : M .fresh := by first | assumption | simp) : Kept M a (State.coastFreq s).2 := by
  unfold State.coastFreq
  with_reducible repeat' first | assumption | intro _ | extract_lets | apply State.drawNum_kept | apply Kept.ite | split

theorem State.setFreq_kept (f : Num) (h : Kept M a s) (mTide : M .tide := by first | assumption | simp) (mLog : M .log := by first | assumption | simp) :
    Kept M a (State.setFreq s f) := by
  unfold State.setFreq
  with_reducible repeat' first
    | assumption
    | intro _
    | extract_lets
    | apply State.report_kept
    | apply State.raise_kept
    | apply State.onTide_kept
    | apply Kept.ite

theorem State.coastStart_kept (h : Kept M a s) (mFresh : M .fresh := by first | assumption | simp) (mTide : M .tide := by first | assumption | simp)
    (mForm : M .form := by first | assumption | simp) (mLog : M .log := by first | assumption | simp) :
    Kept M a (State.coastStart s) := by
  unfold State.coastStart
  with_reducible repeat' first
    | assumption
    | intro _
    | extract_lets
    | apply State.coastFreq_kept
    | apply State.unbind_kept
    | apply State.setFreq_kept
    | apply State.onTide_kept
    | apply State.tideRecord_kept
    | apply State.pushHist_kept

theorem State.coastEnd_kept (h : Kept M a s) (mTide : M .tide := by first | assumption | simp) (mForm : M .form := by first | assumption | simp) (mLog : M .log := by first | assumption | simp) :
    Kept M a (State.coastEnd s) := by
  unfold State.coastEnd
  with_reducible repeat' first | assumption | intro _ | extract_lets | apply State.tideRecord_kept | apply State.convergeTo_kept | split

theorem State.pinLapse_kept (h : Kept M a s) (mTide : M .tide := by first | assumption | simp) (mLog : M .log := by first | assumption | simp) :
    Kept M a (State.pinLapse s) := by
  unfold State.pinLapse
  with_reducible repeat' first | assumption | intro _ | apply State.report_kept | apply State.onTide_kept | apply Kept.ite | split

theorem State.initAlign_kept (h : Kept M a s) (mTide : M .tide := by first | assumption | simp) (mLog : M .log := by first | assumption | simp) :
    Kept M a (State.initAlign s) := by
  unfold State.initAlign
  with_reducible repeat' first
    | assumption
    | intro _
    | extract_lets
    | apply State.onTide_kept
    | apply State.report_kept
    | apply State.raise_kept
    | apply State.pushHist_kept
    | apply Kept.ite
    | split

theorem State.checkSources_kept (h : Kept M a s) (mFresh : M .fresh := by first | assumption | simp) (mTide : M .tide := by first | assumption | simp)
    (mForm : M .form := by first | assumption | simp) (mLog : M .log := by first | assumption | simp) :
    Kept M a (State.checkSources s) := by
  unfold State.checkSources
  with_reducible repeat' first
    | assumption
    | intro _
    | extract_lets
    | apply State.pinLapse_kept
    | apply State.refreshHolds_kept
    | apply State.initAlign_kept
    | apply State.coastEnd_kept
    | apply State.coastStart_kept
    | apply Kept.ite
    | split

theorem State.countWindow_kept (h : Kept M a s) (mTide : M .tide := by first | assumption | simp) (mLog : M .log := by first | assumption | simp) :
    Kept M a (State.countWindow s) := by
  unfold State.countWindow
  with_reducible repeat' first | assumption | intro _ | extract_lets | apply State.onTide_kept | apply State.tideRecord_kept | apply Kept.ite

theorem State.applyLaw_kept (h : Kept M a s) (mTide : M .tide := by first | assumption | simp) (mLog : M .log := by first | assumption | simp) :
    Kept M a (State.applyLaw s) := by
  unfold State.applyLaw
  with_reducible repeat' first | assumption | intro _ | extract_lets | apply State.setFreq_kept | apply State.onTide_kept | split

theorem State.recompute_kept (h : Kept M a s) (mFresh : M .fresh := by first | assumption | simp) (mTide : M .tide := by first | assumption | simp)
    (mForm : M .form := by first | assumption | simp) (mLog : M .log := by first | assumption | simp) :
    Kept M a (State.recompute s) := by
  unfold State.recompute
  with_reducible repeat' first
    | assumption
    | apply State.bindRotor_kept
    | apply State.countWindow_kept
    | apply State.pushHist_kept
    | apply State.applyLaw_kept
    | apply State.checkSources_kept

theorem State.pilotStep_kept (x1 : PilotIn) (h : Kept M a s) (mTide : M .tide := by first | assumption | simp) (mLog : M .log := by first | assumption | simp) :
    Kept M a (State.pilotStep s x1) := by
  unfold State.pilotStep
  with_reducible repeat' first
    | assumption
    | intro _
    | extract_lets
    | apply State.report_kept
    | apply State.onTide_kept
    | apply State.raise_kept
    | apply Kept.ite
    | split
    | (dsimp +zetaDelta only; split)

theorem State.convGo_kept (dir : Bool) (h : Kept M a s) (mTide : M .tide := by first | assumption | simp) : Kept M a (State.convGo s dir) := by
  unfold State.convGo
  with_reducible repeat' first | assumption | intro _ | extract_lets | apply State.onTide_kept | apply Kept.ite | split

theorem State.onPort_kept (p : Nat) (f : Port → Port) (h : Kept M a s) (mNet : M .net := by first | assumption | simp) : Kept M a (State.onPort s p f) := by
  unfold State.onPort
  with_reducible repeat' first | assumption | intro _ | apply State.onNet_kept

theorem State.onPair_kept (kz : Nat) (f : Pair → Pair) (h : Kept M a s) (mNet : M .net := by first | assumption | simp) : Kept M a (State.onPair s kz f) := by
  unfold State.onPair
  with_reducible repeat' first | assumption | intro _ | apply State.onNet_kept

theorem State.enqueue_kept (p : Nat) (f : Frame) (h : Kept M a s) (mNet : M .net := by first | assumption | simp) : Kept M a (State.enqueue s p f) := by
  unfold State.enqueue
  with_reducible repeat' first | assumption | intro _ | apply State.onPort_kept | apply Kept.ite | split

theorem State.learn_kept (mac : BitVec 48) (vid : Nat) (p : Nat) (h : Kept M a s) (mNet : M .net := by first | assumption | simp) :
    Kept M a (State.learn s mac vid p) := by
  unfold State.learn
  with_reducible repeat' first | assumption | intro _ | extract_lets | apply State.onNet_kept | apply State.raise_kept | apply Kept.ite

theorem State.sendOn_kept (p : Nat) (f : Frame) (h : Kept M a s) (mNet : M .net := by first | assumption | simp) : Kept M a (State.sendOn s p f) := by
  unfold State.sendOn
  with_reducible repeat' first | assumption | intro _ | extract_lets | apply State.enqueue_kept | apply State.onPair_kept | split

theorem State.sendOwn_kept (f : Frame) (h : Kept M a s) (mNet : M .net := by first | assumption | simp) : Kept M a (State.sendOwn s f) := by
  unfold State.sendOwn
  with_reducible repeat' first | assumption | intro _ | extract_lets | apply State.forEach_kept | apply State.sendOn_kept

theorem State.dupEnter_kept (kz : Nat) (p : Nat) (f : Frame) (seq : Nat) (h : Kept M a s) (mNet : M .net := by first | assumption | simp) :
    Kept M a (State.dupEnter s kz p f seq) := by
  unfold State.dupEnter
  with_reducible repeat' first | assumption | intro _ | extract_lets | apply State.onPair_kept | apply State.raise_kept | apply Kept.ite | split

theorem State.dupCount_kept (kz : Nat) (f : Frame) (seq : Nat) (h : Kept M a s) (mNet : M .net := by first | assumption | simp) :
    Kept M a (State.dupCount s kz f seq) := by
  unfold State.dupCount
  with_reducible repeat' first | assumption | intro _ | apply State.onPair_kept

theorem State.closePairs_kept (h : Kept M a s) (mLog : M .log := by first | assumption | simp) (mNet : M .net := by first | assumption | simp) :
    Kept M a (State.closePairs s) := by
  unfold State.closePairs
  with_reducible repeat' first
    | assumption
    | intro _
    | apply State.forEach_kept
    | apply State.report_kept
    | apply State.raise_kept
    | apply State.onPair_kept
    | apply Kept.ite
    | split

theorem State.supervised_kept (kz : PairCfg) (p : Nat) (f : Frame) (h : Kept M a s) (mLog : M .log := by first | assumption | simp)
    (mNet : M .net := by first | assumption | simp) :
    Kept M a (State.supervised s kz p f) := by
  unfold State.supervised
  with_reducible repeat' first | assumption | intro _ | extract_lets | apply State.onPair_kept | apply State.closePairs_kept | apply Kept.ite

theorem State.onMark_kept (n : Nat) (f : Mark → Mark) (h : Kept M a s) (mTide : M .tide := by first | assumption | simp) : Kept M a (State.onMark s n f) := by
  unfold State.onMark
  with_reducible repeat' first | assumption | intro _ | apply State.onTide_kept
  all_goals first | simpa [updAt] using ‹_›

theorem State.markPast_kept (m : MarkSpec) (h : Kept M a s) (mTide : M .tide := by first | assumption | simp) (mLog : M .log := by first | assumption | simp) :
    Kept M a (State.markPast s m) := by
  unfold State.markPast
  with_reducible repeat' first | assumption | intro _ | extract_lets | apply State.when_kept | apply State.report_kept | apply State.raise_kept

theorem State.armMark_kept (n : Nat) (m : MarkSpec) (o : MarkOwner) (h : Kept M a s) (mTide : M .tide := by first | assumption | simp)
    (mFio : M .fio := by first | assumption | simp) :
    Kept M a (State.armMark s n m o) := by
  unfold State.armMark
  with_reducible repeat' first
    | assumption
    | intro _
    | extract_lets
    | apply State.when_kept
    | apply State.withdrawEdge_kept
    | apply State.onMark_kept

theorem State.sendMark_kept (n : Nat) (t : Nat) (h : Kept M a s) (mFresh : M .fresh := by first | assumption | simp) (mTide : M .tide := by first | assumption | simp)
    (mFio : M .fio := by first | assumption | simp) (mLog : M .log := by first | assumption | simp) (mDiag : M .diag := by first | assumption | simp) :
    Kept M a (State.sendMark s n t) := by
  unfold State.sendMark
  with_reducible repeat' first | assumption | intro _ | extract_lets | apply State.sendEdge_kept | apply State.onMark_kept

theorem State.sendDueMarks_kept (h : Kept M a s) (mFresh : M .fresh := by first | assumption | simp) (mTide : M .tide := by first | assumption | simp)
    (mFio : M .fio := by first | assumption | simp) (mLog : M .log := by first | assumption | simp) (mDiag : M .diag := by first | assumption | simp) :
    Kept M a (State.sendDueMarks s) := by
  unfold State.sendDueMarks
  with_reducible repeat' first | assumption | intro _ | extract_lets | apply State.forEach_kept | apply State.sendMark_kept | apply Kept.ite

theorem State.powEdgeMoved_kept (n : Nat) (t : Nat) (h : Kept M a s) (mTide : M .tide := by first | assumption | simp) :
    Kept M a (State.powEdgeMoved s n t) := by
  unfold State.powEdgeMoved
  with_reducible repeat' first | assumption | intro _ | extract_lets | apply State.onTide_kept | apply Kept.ite

theorem State.powStepped_kept (d : Int) (h : Kept M a s) (mTide : M .tide := by first | assumption | simp) :
    Kept M a (State.powStepped s d) := by
  unfold State.powStepped
  with_reducible repeat' first | assumption | intro _ | extract_lets | apply State.onTide_kept | apply Kept.ite

theorem State.tideMapStep_kept (d : Int) (h : Kept M a s) (mFresh : M .fresh := by first | assumption | simp)
    (mTide : M .tide := by first | assumption | simp) (mFio : M .fio := by first | assumption | simp) (mLog : M .log := by first | assumption | simp)
    (mDiag : M .diag := by first | assumption | simp) :
    Kept M a (State.tideMapStep s d) := by
  unfold State.tideMapStep
  with_reducible repeat' first
    | assumption
    | intro _
    | extract_lets
    | apply State.onTide_kept
    | apply State.raise_kept
    | apply State.forEach_kept
    | apply State.pushHist_kept
    | apply State.report_kept
    | apply State.powStepped_kept
    | apply State.withdrawEdge_kept
    | apply State.sendMark_kept
    | apply State.powEdgeMoved_kept
    | apply Kept.ite

theorem State.markAction_kept (n : Nat) (t : Nat) (h : Kept M a s) (mFresh : M .fresh := by first | assumption | simp) (mTide : M .tide := by first | assumption | simp)
    (mForm : M .form := by first | assumption | simp) (mLogic : M .logic := by first | assumption | simp) (mFio : M .fio := by first | assumption | simp) (mCapt : M .capt := by first | assumption | simp)
    (mLog : M .log := by first | assumption | simp) (mDiag : M .diag := by first | assumption | simp) :
    Kept M a (State.markAction s n t) := by
  unfold State.markAction
  with_reducible repeat' first
    | assumption
    | intro _
    | extract_lets
    | apply State.sendMark_kept
    | apply State.onLogic_kept
    | apply State.forEach_kept
    | apply State.captPut_kept
    | apply State.captMet_kept
    | apply State.onUnit_kept
    | apply Kept.ite
    | split

theorem State.fireMark_kept (x1 : Nat × Nat) (h : Kept M a s) (mFresh : M .fresh := by first | assumption | simp) (mTide : M .tide := by first | assumption | simp)
    (mForm : M .form := by first | assumption | simp) (mLogic : M .logic := by first | assumption | simp) (mFio : M .fio := by first | assumption | simp) (mCapt : M .capt := by first | assumption | simp)
    (mLog : M .log := by first | assumption | simp) (mDiag : M .diag := by first | assumption | simp) :
    Kept M a (State.fireMark s x1) := by
  unfold State.fireMark
  with_reducible repeat' first
    | assumption
    | intro _
    | extract_lets
    | apply State.markAction_kept
    | apply State.reportAt_kept
    | apply State.onMark_kept
    | apply Kept.ite

theorem State.onPow_kept (kz : Nat) (f : Pow → Pow) (h : Kept M a s) (mTide : M .tide := by first | assumption | simp) : Kept M a (State.onPow s kz f) := by
  unfold State.onPow
  with_reducible repeat' first | assumption | intro _ | apply State.onTide_kept

theorem State.powAccept_kept (kz : Nat) (az : Angle) (h : Kept M a s) (mTide : M .tide := by first | assumption | simp) :
    Kept M a (State.powAccept s kz az) := by
  unfold State.powAccept
  with_reducible repeat' first | assumption | intro _ | extract_lets | apply State.onMark_kept | apply State.onPow_kept | apply Kept.ite | split

theorem State.powAbort_kept (kz : Nat) (c : PowCfg) (p : PowPending) (why : Nat) (h : Kept M a s) (mTide : M .tide := by first | assumption | simp)
    (mFio : M .fio := by first | assumption | simp) (mLog : M .log := by first | assumption | simp) :
    Kept M a (State.powAbort s kz c p why) := by
  unfold State.powAbort
  with_reducible repeat' first
    | assumption
    | intro _
    | extract_lets
    | apply State.onMark_kept
    | apply State.report_kept
    | apply State.raise_kept
    | apply State.onPow_kept
    | apply State.sendFio_kept
    | split

theorem State.powUpdate_kept (h : Kept M a s) (mTide : M .tide := by first | assumption | simp) (mFio : M .fio := by first | assumption | simp) (mLog : M .log := by first | assumption | simp) :
    Kept M a (State.powUpdate s) := by
  unfold State.powUpdate
  with_reducible repeat' first
    | assumption
    | intro _
    | extract_lets
    | apply State.forEach_kept
    | apply State.onPow_kept
    | apply State.powAbort_kept
    | apply State.onMark_kept
    | apply Kept.ite
    | split

theorem State.captConds_kept (ei : Nat) (rate : LaneRate) (r : SampleSet) (h : Kept M a s) (mCapt : M .capt := by first | assumption | simp) :
    Kept M a (State.captConds s ei rate r) := by
  unfold State.captConds
  with_reducible repeat' first
    | assumption
    | intro _
    | extract_lets
    | apply State.forEach_kept
    | apply State.onEngine_kept
    | apply State.captMet_kept
    | apply Kept.ite
    | split

theorem State.captAnalog_kept (ei : Nat) (t : Nat) (h : Kept M a s) (mCapt : M .capt := by first | assumption | simp) : Kept M a (State.captAnalog s ei t) := by
  unfold State.captAnalog
  with_reducible repeat' first
    | assumption
    | intro _
    | extract_lets
    | apply State.forEach_kept
    | apply State.onEngine_kept
    | apply State.captPut_kept
    | apply Kept.ite

theorem State.captRelease_kept (rate : LaneRate) (r : SampleSet) (h : Kept M a s) (mCapt : M .capt := by first | assumption | simp) :
    Kept M a (State.captRelease s rate r) := by
  unfold State.captRelease
  with_reducible repeat' first
    | assumption
    | intro _
    | extract_lets
    | apply State.forEach_kept
    | apply State.captPut_kept
    | apply State.onEngine_kept
    | apply State.captRow_kept
    | apply State.captConds_kept
    | apply State.captAnalog_kept
    | apply Kept.ite

theorem State.pathFail_kept (i : Nat) (h : Kept M a s) (mChk : M .chk := by first | assumption | simp) : Kept M a (State.pathFail s i) := by
  unfold State.pathFail
  with_reducible repeat' first | assumption | intro _ | apply State.onChk_kept

theorem State.countAlive_kept (path : Nat) (az : Nat) (azz : AliveResult) (h : Kept M a s) (mLog : M .log := by first | assumption | simp)
    (mChk : M .chk := by first | assumption | simp) :
    Kept M a (State.countAlive s path az azz) := by
  unfold State.countAlive
  with_reducible repeat' first | assumption | intro _ | apply State.raise_kept | apply State.onChk_kept | apply State.report_kept | split

theorem execAcqIntegHoldEnd_kept (c : Nat) (h : Kept M a s) (mAcq : M .acq := by first | assumption | simp) : KeptOut M a (execAcqIntegHoldEnd c s) := by
  unfold execAcqIntegHoldEnd
  with_reducible repeat' first
    | assumption
    | intro _
    | apply State.onAin_kept
    | apply KeptOut.next
    | apply KeptOut.fault
    | apply KeptOut.ite
    | apply Kept.ite

theorem execAcqCoefWrite_kept (c : Nat) (bankB : Bool) (i : Nat) (v : Word) (h : Kept M a s) (mAcq : M .acq := by first | assumption | simp) :
    KeptOut M a (execAcqCoefWrite c bankB i v s) := by
  unfold execAcqCoefWrite
  with_reducible repeat' first | assumption | apply State.coefWrite_kept | apply KeptOut.next

theorem execAcqBankWrite_kept (c : Nat) (v : Word) (h : Kept M a s) (mAcq : M .acq := by first | assumption | simp) : KeptOut M a (execAcqBankWrite c v s) := by
  unfold execAcqBankWrite
  with_reducible repeat' first | assumption | apply State.bankWrite_kept | apply KeptOut.next

theorem execAcqSwap_kept (b : Nat) (h : Kept M a s) (mAcq : M .acq := by first | assumption | simp) (mLog : M .log := by first | assumption | simp)
    (mHost : M .host := by first | assumption | simp) :
    KeptOut M a (execAcqSwap b s) := by
  unfold execAcqSwap
  with_reducible repeat' first
    | assumption
    | intro _
    | extract_lets
    | apply State.runCtl_kept
    | apply State.done_kept
    | apply State.commitSwap_kept
    | apply KeptOut.next
    | apply KeptOut.fault
    | apply KeptOut.ite
    | apply Kept.ite
    | split

theorem execAcqSwapStart_kept (c : Nat) (h : Kept M a s) (mAcq : M .acq := by first | assumption | simp) (mLog : M .log := by first | assumption | simp) :
    KeptOut M a (execAcqSwapStart c s) := by
  unfold execAcqSwapStart
  with_reducible repeat' first
    | assumption
    | intro _
    | extract_lets
    | apply State.onAin_kept
    | apply State.delaySwitch_kept
    | apply KeptOut.next
    | apply KeptOut.fault
    | apply KeptOut.ite
    | apply Kept.ite
    | split

theorem execAcqFadeDone_kept (c : Nat) (h : Kept M a s) (mAcq : M .acq := by first | assumption | simp) (mLog : M .log := by first | assumption | simp) :
    KeptOut M a (execAcqFadeDone c s) := by
  unfold execAcqFadeDone
  with_reducible repeat' first
    | assumption
    | intro _
    | extract_lets
    | apply State.report_kept
    | apply State.raise_kept
    | apply State.onAin_kept
    | apply KeptOut.next
    | apply KeptOut.fault
    | apply KeptOut.ite
    | apply Kept.ite
    | split

theorem execAcqSettleEnd_kept (c : Nat) (h : Kept M a s) (mAcq : M .acq := by first | assumption | simp) : KeptOut M a (execAcqSettleEnd c s) := by
  unfold execAcqSettleEnd
  with_reducible repeat' first
    | assumption
    | intro _
    | apply State.onAin_kept
    | apply KeptOut.next
    | apply KeptOut.fault
    | apply KeptOut.ite
    | apply Kept.ite

theorem execHandoverStart_kept (h : Kept M a s) (mTide : M .tide := by first | assumption | simp) (mForm : M .form := by first | assumption | simp)
    (mLog : M .log := by first | assumption | simp) :
    KeptOut M a (execHandoverStart s) := by
  unfold execHandoverStart
  with_reducible repeat' first
    | assumption
    | intro _
    | extract_lets
    | apply State.tideRecord_kept
    | apply State.convergeTo_kept
    | apply KeptOut.next
    | apply KeptOut.fault
    | apply KeptOut.ite
    | apply Kept.ite
    | split

theorem execTideFallback_kept (h : Kept M a s) (mTide : M .tide := by first | assumption | simp) (mForm : M .form := by first | assumption | simp)
    (mLog : M .log := by first | assumption | simp) :
    KeptOut M a (execTideFallback s) := by
  unfold execTideFallback
  with_reducible repeat' first
    | assumption
    | intro _
    | extract_lets
    | apply State.convergeTo_kept
    | apply State.setFreq_kept
    | apply State.onTide_kept
    | apply State.tideRecord_kept
    | apply State.pushHist_kept
    | apply KeptOut.next
    | apply KeptOut.fault
    | apply KeptOut.ite
    | apply Kept.ite

theorem execPilotUpdate_kept (x0 : PilotIn) (h : Kept M a s) (mFresh : M .fresh := by first | assumption | simp) (mTide : M .tide := by first | assumption | simp)
    (mForm : M .form := by first | assumption | simp) (mLog : M .log := by first | assumption | simp) :
    KeptOut M a (execPilotUpdate x0 s) := by
  unfold execPilotUpdate
  with_reducible repeat' first
    | assumption
    | intro _
    | apply State.checkSources_kept
    | apply State.pilotStep_kept
    | apply KeptOut.next
    | apply KeptOut.fault
    | apply KeptOut.ite
    | apply Kept.ite

theorem execTidePin_kept (b : Nat) (h : Kept M a s) (mTide : M .tide := by first | assumption | simp) (mForm : M .form := by first | assumption | simp)
    (mLog : M .log := by first | assumption | simp) (mHost : M .host := by first | assumption | simp) :
    KeptOut M a (execTidePin b s) := by
  unfold execTidePin
  with_reducible repeat' first
    | assumption
    | intro _
    | extract_lets
    | apply State.runCtl_kept
    | apply State.onTide_kept
    | apply State.tideRecord_kept
    | apply State.convergeTo_kept
    | apply State.done_kept
    | apply KeptOut.next
    | apply KeptOut.fault
    | split
    | (dsimp +zetaDelta only; split)

theorem execTideUnpin_kept (b : Nat) (h : Kept M a s) (mTide : M .tide := by first | assumption | simp) (mLog : M .log := by first | assumption | simp)
    (mHost : M .host := by first | assumption | simp) :
    KeptOut M a (execTideUnpin b s) := by
  unfold execTideUnpin
  with_reducible repeat' first
    | assumption
    | intro _
    | apply State.runCtl_kept
    | apply State.done_kept
    | apply State.onTide_kept
    | apply KeptOut.next
    | apply KeptOut.fault
    | split

theorem execTideConvGo_kept (dir : Bool) (h : Kept M a s) (mTide : M .tide := by first | assumption | simp) : KeptOut M a (execTideConvGo dir s) := by
  unfold execTideConvGo
  with_reducible repeat' first | assumption | apply State.convGo_kept | apply KeptOut.next

theorem execTideConvDone_kept (h : Kept M a s) (mTide : M .tide := by first | assumption | simp) : KeptOut M a (execTideConvDone s) := by
  unfold execTideConvDone
  with_reducible repeat' first
    | assumption
    | intro _
    | extract_lets
    | apply State.onTide_kept
    | apply KeptOut.next
    | apply KeptOut.fault
    | apply KeptOut.ite
    | apply Kept.ite
    | split

end Sys2Proof.Machine
end

