-- ==== Sys2Proof/Laws/KeptProt.lean ====
section
/-! SUPPORT. What is kept, one lemma per operation: the operations of protection, the links, frames and capture. -/

namespace Sys2Proof.Machine

set_option Elab.async false

open Sys2Proof

variable {M : Part → Prop} {a s : State}

theorem State.onElem_kept (e : Nat) (f : Elem → Elem) (h : Kept M a s) (mProt : M .prot := by first | assumption | simp) : Kept M a (State.onElem s e f) := by
  unfold State.onElem
  with_reducible repeat' first | assumption | intro _ | apply State.onProt_kept

theorem State.onTrip_kept (kz : Nat) (f : Trip → Trip) (h : Kept M a s) (mProt : M .prot := by first | assumption | simp) : Kept M a (State.onTrip s kz f) := by
  unfold State.onTrip
  with_reducible repeat' first | assumption | intro _ | apply State.onProt_kept

theorem State.onLane_kept (l : LaneId) (f : Lane → Lane) (h : Kept M a s) (mProt : M .prot := by first | assumption | simp) : Kept M a (State.onLane s l f) := by
  unfold State.onLane
  with_reducible repeat' first | assumption | intro _ | apply State.onProt_kept

theorem State.elemChanged_kept (e : Nat) (t : Nat) (pu : Bool) (op : Bool) (pu' : Bool) (op' : Bool) (h : Kept M a s)
    (mLogic : M .logic := by first | assumption | simp) (mCapt : M .capt := by first | assumption | simp) :
    Kept M a (State.elemChanged s e t pu op pu' op') := by
  unfold State.elemChanged
  with_reducible repeat' first
    | assumption
    | intro _
    | extract_lets
    | apply State.when_kept
    | apply State.captDigital_kept
    | apply State.captMetAll_kept
    | apply State.fire_kept

theorem State.elemsOff_kept (l : List Elem) (h : Kept M a s) (mLogic : M .logic := by first | assumption | simp)
    (mCapt : M .capt := by first | assumption | simp) :
    Kept M a (State.elemsOff s l) := by
  unfold State.elemsOff
  with_reducible repeat' first | assumption | intro _ | extract_lets | apply State.forEach_kept | apply State.elemChanged_kept

theorem State.laneOut_kept (l : LaneId) (c : OutCause) (h : Kept M a s) (mProt : M .prot := by first | assumption | simp)
    (mLogic : M .logic := by first | assumption | simp) (mCapt : M .capt := by first | assumption | simp)
    (mLog : M .log := by first | assumption | simp) :
    Kept M a (State.laneOut s l c) := by
  unfold State.laneOut
  with_reducible repeat' first
    | assumption
    | intro _
    | extract_lets
    | apply State.onProt_kept
    | apply State.raise_kept
    | apply State.onLane_kept
    | apply State.report_kept
    | apply State.elemsOff_kept
    | apply Kept.ite

theorem State.startKat_kept (l : LaneId) (h : Kept M a s) (mProt : M .prot := by first | assumption | simp) : Kept M a (State.startKat s l) := by
  unfold State.startKat
  with_reducible repeat' first | assumption | intro _ | apply State.onLane_kept

theorem State.suspect_kept (e : Nat) (h : Kept M a s) (mProt : M .prot := by first | assumption | simp) (mLog : M .log := by first | assumption | simp) :
    Kept M a (State.suspect s e) := by
  unfold State.suspect
  with_reducible repeat' first
    | assumption
    | intro _
    | extract_lets
    | apply State.onLane_kept
    | apply State.report_kept
    | apply State.startKat_kept
    | apply Kept.ite

theorem State.laneIntake_kept (l : LaneId) (r : SampleSet) (bad : List ChanRef) (h : Kept M a s) (mProt : M .prot := by first | assumption | simp)
    (mLogic : M .logic := by first | assumption | simp) (mCapt : M .capt := by first | assumption | simp)
    (mLog : M .log := by first | assumption | simp) (mChk : M .chk := by first | assumption | simp) :
    Kept M a (State.laneIntake s l r bad) := by
  unfold State.laneIntake
  with_reducible repeat' first
    | assumption
    | intro _
    | extract_lets
    | apply State.raise_kept
    | apply State.when_kept
    | apply State.forEach_kept
    | apply State.onLane_kept
    | apply State.pathFail_kept
    | apply State.laneOut_kept
    | apply Kept.ite

theorem State.laneDeadline_kept (rate : LaneRate) (l : LaneId) (miss : Bool) (h : Kept M a s) (mProt : M .prot := by first | assumption | simp)
    (mLogic : M .logic := by first | assumption | simp) (mCapt : M .capt := by first | assumption | simp)
    (mLog : M .log := by first | assumption | simp) :
    Kept M a (State.laneDeadline s rate l miss) := by
  unfold State.laneDeadline
  with_reducible repeat' first
    | assumption
    | intro _
    | extract_lets
    | apply State.raise_kept
    | apply State.onLane_kept
    | apply State.report_kept
    | apply State.laneOut_kept
    | apply Kept.ite
    | split

theorem State.disagree_kept (c : ElemCfg) (az : ElemLane) (b : ElemLane) (h : Kept M a s) (mProt : M .prot := by first | assumption | simp)
    (mLog : M .log := by first | assumption | simp) :
    Kept M a (State.disagree s c az b) := by
  unfold State.disagree
  with_reducible repeat' first
    | assumption
    | intro _
    | extract_lets
    | apply State.onProt_kept
    | apply State.raise_kept
    | apply State.onElem_kept
    | apply State.when_kept
    | apply State.report_kept
    | apply State.suspect_kept
    | apply Kept.ite

theorem State.evalElem_kept (s0 : State) (rate : LaneRate) (t : Nat) (missA : Bool) (missB : Bool) (ups : List Upset) (zone : LaneId → Option ZoneQ) (c : ElemCfg)
    (h : Kept M a s) (mProt : M .prot := by first | assumption | simp) (mLogic : M .logic := by first | assumption | simp)
    (mCapt : M .capt := by first | assumption | simp) (mLog : M .log := by first | assumption | simp) :
    Kept M a (State.evalElem s0 rate t missA missB ups zone s c) := by
  unfold State.evalElem
  with_reducible repeat' first
    | assumption
    | intro _
    | extract_lets
    | apply State.when_kept
    | apply State.onElem_kept
    | apply State.disagree_kept
    | apply State.elemChanged_kept
    | apply Kept.ite
    | split

theorem State.stage5_kept (t : Nat) (c : TripCfg) (h : Kept M a s) (mProt : M .prot := by first | assumption | simp) (mFio : M .fio := by first | assumption | simp)
    (mCapt : M .capt := by first | assumption | simp) (mLog : M .log := by first | assumption | simp) :
    Kept M a (State.stage5 s t c) := by
  unfold State.stage5
  with_reducible repeat' first
    | assumption
    | intro _
    | extract_lets
    | apply State.onTrip_kept
    | apply State.when_kept
    | apply State.report_kept
    | apply State.sendFio_kept
    | apply State.captDigital_kept
    | apply State.captMetAll_kept
    | apply Kept.ite
    | split

theorem State.stage6_kept (h : Kept M a s) (mProt : M .prot := by first | assumption | simp) : Kept M a (State.stage6 s) := by
  unfold State.stage6
  with_reducible repeat' first | assumption | intro _ | extract_lets | apply State.onProt_kept

theorem State.supersede_kept (r : SgRequest) (h : Kept M a s) (mProt : M .prot := by first | assumption | simp)
    (mLog : M .log := by first | assumption | simp) :
    Kept M a (State.supersede s r) := by
  unfold State.supersede
  with_reducible repeat' first
    | assumption
    | intro _
    | extract_lets
    | apply State.onProt_kept
    | apply State.raise_kept
    | apply State.report_kept

theorem State.requestGroup_kept (r : SgRequest) (h : Kept M a s) (mProt : M .prot := by first | assumption | simp)
    (mLog : M .log := by first | assumption | simp) :
    Kept M a (State.requestGroup s r) := by
  unfold State.requestGroup
  with_reducible repeat' first
    | assumption
    | intro _
    | extract_lets
    | apply State.onProt_kept
    | apply State.supersede_kept
    | apply Kept.ite
    | split

theorem State.switchGroup_kept (g : Nat) (by_ : SgRequester) (waited : Ns) (h : Kept M a s) (mProt : M .prot := by first | assumption | simp)
    (mLog : M .log := by first | assumption | simp) :
    Kept M a (State.switchGroup s g by_ waited) := by
  unfold State.switchGroup
  with_reducible repeat' first
    | assumption
    | intro _
    | extract_lets
    | apply State.onProt_kept
    | apply State.forEach_kept
    | apply State.onElem_kept
    | apply State.report_kept
    | apply State.raise_kept

theorem State.applyDeferred_kept (h : Kept M a s) (mProt : M .prot := by first | assumption | simp) (mLog : M .log := by first | assumption | simp) :
    Kept M a (State.applyDeferred s) := by
  unfold State.applyDeferred
  with_reducible repeat' first | assumption | intro _ | extract_lets | apply State.switchGroup_kept | apply State.onProt_kept | split

theorem State.replacedDone_kept (h : Kept M a s) (mProt : M .prot := by first | assumption | simp) (mHost : M .host := by first | assumption | simp) :
    Kept M a (State.replacedDone s) := by
  unfold State.replacedDone
  with_reducible repeat' first
    | assumption
    | intro _
    | extract_lets
    | apply State.onProt_kept
    | apply State.forEach_kept
    | apply State.done_kept

theorem State.endRequest_kept (r : SgRequest) (bits : Nat) (h : Kept M a s) (mHost : M .host := by first | assumption | simp) :
    Kept M a (State.endRequest s r bits) := by
  unfold State.endRequest
  with_reducible repeat' first | assumption | intro _ | extract_lets | apply State.done_kept | split

theorem State.groupBoundary_kept (h : Kept M a s) (mProt : M .prot := by first | assumption | simp) (mLog : M .log := by first | assumption | simp)
    (mHost : M .host := by first | assumption | simp) :
    Kept M a (State.groupBoundary s) := by
  unfold State.groupBoundary
  with_reducible repeat' first
    | assumption
    | intro _
    | extract_lets
    | apply State.onProt_kept
    | apply State.replacedDone_kept
    | apply State.applyDeferred_kept
    | apply State.endRequest_kept
    | apply State.switchGroup_kept
    | apply Kept.ite
    | split

theorem State.mappedGroup_kept (src : BlockSource) (h : Kept M a s) (mProt : M .prot := by first | assumption | simp) (mLog : M .log := by first | assumption | simp)
    :
    Kept M a (State.mappedGroup s src) := by
  unfold State.mappedGroup
  with_reducible repeat' first
    | assumption
    | intro _
    | apply State.forEach_kept
    | apply State.requestGroup_kept
    | apply State.refuseInternal_kept
    | apply Kept.ite

theorem State.setEssential_kept (on : Bool) (h : Kept M a s) (mProt : M .prot := by first | assumption | simp)
    (mLogic : M .logic := by first | assumption | simp) (mCapt : M .capt := by first | assumption | simp)
    (mLog : M .log := by first | assumption | simp) :
    Kept M a (State.setEssential s on) := by
  unfold State.setEssential
  with_reducible repeat' first
    | assumption
    | intro _
    | extract_lets
    | apply State.onProt_kept
    | apply State.raise_kept
    | apply State.forEach_kept
    | apply State.elemsOff_kept
    | apply State.onElem_kept
    | apply State.report_kept
    | apply Kept.ite

theorem State.protReady_kept (h : Kept M a s) (mProt : M .prot := by first | assumption | simp) : Kept M a (State.protReady s) := by
  unfold State.protReady
  with_reducible repeat' first | assumption | intro _ | apply State.onProt_kept

theorem State.onPtpPort_kept (p : Nat) (f : PtpPort → PtpPort) (h : Kept M a s) (mPtp : M .ptp := by first | assumption | simp) :
    Kept M a (State.onPtpPort s p f) := by
  unfold State.onPtpPort
  with_reducible repeat' first | assumption | intro _ | apply State.onPtp_kept

theorem State.setLocked_kept (v : Bool) (h : Kept M a s) (mLog : M .log := by first | assumption | simp) (mPtp : M .ptp := by first | assumption | simp) :
    Kept M a (State.setLocked s v) := by
  unfold State.setLocked
  with_reducible repeat' first
    | assumption
    | intro _
    | extract_lets
    | apply State.onPtp_kept
    | apply State.report_kept
    | apply State.raise_kept
    | apply Kept.ite

theorem State.strobeRestart_kept (h : Kept M a s) (mClk : M .clk := by first | assumption | simp) (mAcq : M .acq := by first | assumption | simp) :
    Kept M a (State.strobeRestart s) := by
  unfold State.strobeRestart
  with_reducible repeat' first | assumption | intro _ | extract_lets | apply State.onClk_kept | apply State.onAcq_kept

theorem State.strobeStep_kept (d : Int) (h : Kept M a s) (mClk : M .clk := by first | assumption | simp)
    (mAcq : M .acq := by first | assumption | simp) (mProt : M .prot := by first | assumption | simp) :
    Kept M a (State.strobeStep s d) := by
  unfold State.strobeStep
  with_reducible repeat' first
    | assumption
    | intro _
    | extract_lets
    | apply State.onClk_kept
    | apply State.onAcq_kept
    | apply State.onProt_kept
    | apply State.strobeRestart_kept
    | apply Kept.ite

theorem State.gatesStep_kept (h : Kept M a s) (mNet : M .net := by first | assumption | simp) : Kept M a (State.gatesStep s) := by
  unfold State.gatesStep
  with_reducible repeat' first | assumption | intro _ | apply State.onNet_kept

theorem State.stepClock_kept (size : Num) (h : Kept M a s) (mLtc : M .ltc := by first | assumption | simp)
    (mFresh : M .fresh := by first | assumption | simp) (mClk : M .clk := by first | assumption | simp)
    (mTide : M .tide := by first | assumption | simp) (mAcq : M .acq := by first | assumption | simp)
    (mProt : M .prot := by first | assumption | simp) (mFio : M .fio := by first | assumption | simp)
    (mCapt : M .capt := by first | assumption | simp) (mLog : M .log := by first | assumption | simp) (mNet : M .net := by first | assumption | simp)
    (mPtp : M .ptp := by first | assumption | simp) (mDiag : M .diag := by first | assumption | simp) :
    Kept M a (State.stepClock s size) := by
  unfold State.stepClock
  with_reducible repeat' first
    | assumption
    | intro _
    | extract_lets
    | apply State.onPtp_kept
    | apply State.raise_kept
    | apply State.report_kept
    | apply State.tideMapStep_kept
    | apply State.strobeStep_kept
    | apply State.gatesStep_kept
    | apply State.captStep_kept
  all_goals first | assumption | exact h.same rfl rfl rfl rfl

theorem State.elect_kept (h : Kept M a s) (mLog : M .log := by first | assumption | simp) (mPtp : M .ptp := by first | assumption | simp) : Kept M a (State.elect s) := by
  unfold State.elect
  with_reducible repeat' first
    | assumption
    | intro _
    | extract_lets
    | apply State.onPtp_kept
    | apply State.when_kept
    | apply State.report_kept
    | apply State.raise_kept
    | apply Kept.ite
    | split

theorem State.announceRx_kept (p : Nat) (az : Announce) (h : Kept M a s) (mLog : M .log := by first | assumption | simp) (mPtp : M .ptp := by first | assumption | simp) :
    Kept M a (State.announceRx s p az) := by
  unfold State.announceRx
  with_reducible repeat' first | assumption | intro _ | apply State.elect_kept | apply State.onPtpPort_kept | apply Kept.ite

theorem State.enterHoldover_kept (h : Kept M a s) (mLog : M .log := by first | assumption | simp) (mPtp : M .ptp := by first | assumption | simp) :
    Kept M a (State.enterHoldover s) := by
  unfold State.enterHoldover
  with_reducible repeat' first | assumption | intro _ | extract_lets | apply State.onPtp_kept | apply State.report_kept | apply State.raise_kept

theorem State.onLink_kept (q : Nat) (f : AdeidLink → AdeidLink) (h : Kept M a s) (mAdeid : M .adeid := by first | assumption | simp) :
    Kept M a (State.onLink s q f) := by
  unfold State.onLink
  with_reducible repeat' first | assumption | intro _ | apply State.onAdeid_kept

theorem State.adeidPut_kept (q : Nat) (f : AdeidFrame) (h : Kept M a s) (mAdeid : M .adeid := by first | assumption | simp) :
    Kept M a (State.adeidPut s q f) := by
  unfold State.adeidPut
  with_reducible repeat' first | assumption | intro _ | apply State.onLink_kept

theorem State.adeidOwn_kept (q : Nat) (f : AdeidFrame) (h : Kept M a s) (mAdeid : M .adeid := by first | assumption | simp) :
    Kept M a (State.adeidOwn s q f) := by
  unfold State.adeidOwn
  with_reducible repeat' first | assumption | intro _ | extract_lets | apply State.adeidPut_kept | apply State.onAdeid_kept | apply Kept.ite

theorem State.adeidSend_kept (dst : Nat) (bcast : Bool) (p : AdeidPayload) (h : Kept M a s) (mAdeid : M .adeid := by first | assumption | simp) :
    Kept M a (State.adeidSend s dst bcast p) := by
  unfold State.adeidSend
  with_reducible repeat' first | assumption | extract_lets | apply State.adeidOwn_kept

theorem State.onZone_kept (z : Nat) (f : Zone → Zone) (h : Kept M a s) (mDiff : M .diff := by first | assumption | simp) : Kept M a (State.onZone s z f) := by
  unfold State.onZone
  with_reducible repeat' first | assumption | intro _ | apply State.onDiff_kept

theorem State.withhold_kept (zi : Nat) (c : WithheldCause) (h : Kept M a s) (mDiff : M .diff := by first | assumption | simp) :
    Kept M a (State.withhold s zi c) := by
  unfold State.withhold
  with_reducible repeat' first | assumption | intro _ | apply State.raise_kept | apply State.onZone_kept

theorem State.onInstant_kept (zi : Nat) (sec : Nat) (idx : Nat) (f : ZoneInstant → ZoneInstant) (h : Kept M a s) (mDiff : M .diff := by first | assumption | simp) :
    Kept M a (State.onInstant s zi sec idx f) := by
  unfold State.onInstant
  with_reducible repeat' first | assumption | intro _ | apply State.onZone_kept

theorem State.addOwn_kept (zi : Nat) (z : Zone) (f : SumFrame) (h : Kept M a s) (mDiff : M .diff := by first | assumption | simp) :
    Kept M a (State.addOwn s zi z f).1 := by
  unfold State.addOwn
  with_reducible repeat' first
    | assumption
    | intro _
    | extract_lets
    | apply State.raise_kept
    | apply State.withhold_kept
    | apply State.onZone_kept
    | apply State.onInstant_kept
    | apply Kept.ite
    | split

theorem State.sumOut_kept (r : ZoneRing) (i : Nat) (f : SumFrame) (spoilt : Bool) (h : Kept M a s) (mNet : M .net := by first | assumption | simp)
    (mAdeid : M .adeid := by first | assumption | simp) :
    Kept M a (State.sumOut s r i f spoilt) := by
  unfold State.sumOut
  with_reducible repeat' first
    | assumption
    | intro _
    | extract_lets
    | apply State.onNet_kept
    | apply State.onPort_kept
    | apply State.adeidPut_kept
    | apply Kept.ite
    | split

theorem State.hopLimit_kept (h : Kept M a s) (mDiff : M .diff := by first | assumption | simp) : Kept M a (State.hopLimit s) := by
  unfold State.hopLimit
  with_reducible repeat' first | assumption | intro _ | apply State.raise_kept | apply State.onDiff_kept

theorem State.sumForward_kept (r : ZoneRing) (i : Nat) (f : SumFrame) (h : Kept M a s) (mDiff : M .diff := by first | assumption | simp)
    (mNet : M .net := by first | assumption | simp) (mAdeid : M .adeid := by first | assumption | simp) :
    Kept M a (State.sumForward s r i f) := by
  unfold State.sumForward
  with_reducible repeat' first
    | assumption
    | intro _
    | extract_lets
    | apply State.sumOut_kept
    | apply State.hopLimit_kept
    | apply State.raise_kept
    | apply State.onDiff_kept
    | apply Kept.ite

theorem State.zoneBlock_kept (zi : Nat) (c : ZoneCause) (missing : BitVec 64) (h : Kept M a s) (mDiff : M .diff := by first | assumption | simp)
    (mLog : M .log := by first | assumption | simp) :
    Kept M a (State.zoneBlock s zi c missing) := by
  unfold State.zoneBlock
  with_reducible repeat' first
    | assumption
    | intro _
    | extract_lets
    | apply State.onZone_kept
    | apply State.report_kept
    | apply State.raise_kept
    | apply Kept.ite
    | split

theorem State.zoneEvaluated_kept (zi : Nat) (t : ZoneTotals) (h : Kept M a s) (mDiff : M .diff := by first | assumption | simp) (mLog : M .log := by first | assumption | simp) :
    Kept M a (State.zoneEvaluated s zi t) := by
  unfold State.zoneEvaluated
  with_reducible repeat' first
    | assumption
    | intro _
    | extract_lets
    | apply State.onZone_kept
    | apply State.report_kept
    | apply State.raise_kept
    | apply Kept.ite
    | split

theorem State.decideInstant_kept (zi : Nat) (x : ZoneInstant) (h : Kept M a s) (mDiff : M .diff := by first | assumption | simp) :
    Kept M a (State.decideInstant s zi x) := by
  unfold State.decideInstant
  with_reducible repeat' first | assumption | intro _ | extract_lets | apply State.onInstant_kept | apply State.onZone_kept

theorem State.instantIncomplete_kept (zi : Nat) (x : ZoneInstant) (c : ZoneCause) (h : Kept M a s) (mDiff : M .diff := by first | assumption | simp)
    (mLog : M .log := by first | assumption | simp) :
    Kept M a (State.instantIncomplete s zi x c) := by
  unfold State.instantIncomplete
  with_reducible repeat' first | assumption | intro _ | extract_lets | apply State.decideInstant_kept | apply State.zoneBlock_kept | split

theorem State.takeTotals_kept (zi : Nat) (z : Zone) (f : SumFrame) (h : Kept M a s) (mDiff : M .diff := by first | assumption | simp)
    (mLog : M .log := by first | assumption | simp) :
    Kept M a (State.takeTotals s zi z f) := by
  unfold State.takeTotals
  with_reducible repeat' first
    | assumption
    | intro _
    | extract_lets
    | apply State.onInstant_kept
    | apply State.instantIncomplete_kept
    | apply State.decideInstant_kept
    | apply State.onZone_kept
    | apply Kept.ite
    | split

theorem State.headChange_kept (zi : Nat) (old : Nat) (new : Nat) (h : Kept M a s) (mDiff : M .diff := by first | assumption | simp)
    (mLog : M .log := by first | assumption | simp) :
    Kept M a (State.headChange s zi old new) := by
  unfold State.headChange
  with_reducible repeat' first | assumption | apply State.report_kept | apply State.raise_kept

theorem State.headPasses_kept (zi : Nat) (z : Zone) (f : SumFrame) (h : Kept M a s) (mDiff : M .diff := by first | assumption | simp)
    (mLog : M .log := by first | assumption | simp) :
    Kept M a (State.headPasses s zi z f) := by
  unfold State.headPasses
  with_reducible repeat' first | assumption | intro _ | extract_lets | apply State.onZone_kept | apply State.headChange_kept | apply Kept.ite | split

theorem State.diffJoin_kept (h : Kept M a s) (mDiff : M .diff := by first | assumption | simp) (mLog : M .log := by first | assumption | simp) :
    Kept M a (State.diffJoin s) := by
  unfold State.diffJoin
  with_reducible repeat' first
    | assumption
    | intro _
    | extract_lets
    | apply State.onDiff_kept
    | apply State.when_kept
    | apply State.forEach_kept
    | apply State.zoneBlock_kept
    | apply Kept.ite

theorem State.diffContribute_kept (t : Nat) (sec : Nat) (idx : Nat) (h : Kept M a s) (mProt : M .prot := by first | assumption | simp)
    (mDiff : M .diff := by first | assumption | simp) (mLog : M .log := by first | assumption | simp) :
    Kept M a (State.diffContribute s t sec idx) := by
  unfold State.diffContribute
  with_reducible repeat' first
    | assumption
    | intro _
    | extract_lets
    | apply State.diffJoin_kept
    | apply State.onDiff_kept
    | apply State.forEach_kept
    | apply State.when_kept
    | apply State.disagree_kept
    | apply State.zoneBlock_kept
    | split

theorem State.followEnter_kept (e : FollowEntry) (h : Kept M a s) (mPtp : M .ptp := by first | assumption | simp) : Kept M a (State.followEnter s e) := by
  unfold State.followEnter
  with_reducible repeat' first | assumption | intro _ | extract_lets | apply State.onPtp_kept | apply State.raise_kept | apply Kept.ite

theorem State.tcForward_kept (p : Nat) (f : Frame) (h : Kept M a s) (mNet : M .net := by first | assumption | simp) (mPtp : M .ptp := by first | assumption | simp) :
    Kept M a (State.tcForward s p f) := by
  unfold State.tcForward
  with_reducible repeat' first | assumption | intro _ | apply State.forEach_kept | apply State.enqueue_kept | apply State.followEnter_kept | split

theorem State.ptpRx_kept (p : Nat) (f : Frame) (m : PtpMsg) (h : Kept M a s) (mLog : M .log := by first | assumption | simp) (mNet : M .net := by first | assumption | simp)
    (mPtp : M .ptp := by first | assumption | simp) :
    Kept M a (State.ptpRx s p f m) := by
  unfold State.ptpRx
  with_reducible repeat' first | assumption | intro _ | apply State.tcForward_kept | apply State.onPtpPort_kept | apply State.announceRx_kept | split

theorem State.countUnsubscribed_kept (f : Frame) (h : Kept M a s) (mNet : M .net := by first | assumption | simp) : Kept M a (State.countUnsubscribed s f) := by
  unfold State.countUnsubscribed
  with_reducible repeat' first | assumption | intro _ | extract_lets | apply State.when_kept | apply State.onNet_kept

theorem State.stormCount_kept (p : Nat) (len : Nat) (h : Kept M a s) (mNet : M .net := by first | assumption | simp) : Kept M a (State.stormCount s p len) := by
  unfold State.stormCount
  with_reducible repeat' first | assumption | intro _ | extract_lets | apply State.onPort_kept

theorem State.countFiltered_kept (p : Nat) (h : Kept M a s) (mNet : M .net := by first | assumption | simp) : Kept M a (State.countFiltered s p) := by
  unfold State.countFiltered
  with_reducible repeat' first | assumption | intro _ | apply State.onPort_kept

theorem State.proxyLearn_kept (q : Nat) (mac : BitVec 48) (h : Kept M a s) (mNet : M .net := by first | assumption | simp) :
    Kept M a (State.proxyLearn s q mac) := by
  unfold State.proxyLearn
  with_reducible repeat' first | assumption | intro _ | extract_lets | apply State.onPair_kept | apply Kept.ite | split

theorem State.forward_kept (p : Nat) (vid : Nat) (f : Frame) (h : Kept M a s) (mNet : M .net := by first | assumption | simp) :
    Kept M a (State.forward s p vid f) := by
  unfold State.forward
  with_reducible repeat' first
    | assumption
    | intro _
    | extract_lets
    | apply State.learn_kept
    | apply State.countFiltered_kept
    | apply State.when_kept
    | apply State.stormCount_kept
    | apply State.forEach_kept
    | apply State.sendOn_kept
    | apply State.proxyLearn_kept
    | apply Kept.ite

theorem State.deliver_kept (p : Nat) (vid : Nat) (f : Frame) (h : Kept M a s) (mNet : M .net := by first | assumption | simp) :
    Kept M a (State.deliver s p vid f) := by
  unfold State.deliver
  with_reducible repeat' first
    | assumption
    | intro _
    | extract_lets
    | apply State.countUnsubscribed_kept
    | apply State.learn_kept
    | apply State.forward_kept
    | apply Kept.ite

theorem State.pairRx_kept (kz : PairCfg) (p : Nat) (vid : Nat) (f : Frame) (tag : RedTag) (h : Kept M a s) (mLog : M .log := by first | assumption | simp)
    (mNet : M .net := by first | assumption | simp) :
    Kept M a (State.pairRx s kz p vid f tag) := by
  unfold State.pairRx
  with_reducible repeat' first
    | assumption
    | intro _
    | extract_lets
    | apply State.when_kept
    | apply State.onPair_kept
    | apply State.enqueue_kept
    | apply State.supervised_kept
    | apply State.dupCount_kept
    | apply State.dupEnter_kept
    | apply State.deliver_kept
    | apply Kept.ite
    | split

theorem State.fabricRx_kept (p : Nat) (vid : Nat) (f : Frame) (h : Kept M a s) (mLog : M .log := by first | assumption | simp) (mNet : M .net := by first | assumption | simp) :
    Kept M a (State.fabricRx s p vid f) := by
  unfold State.fabricRx
  with_reducible repeat' first
    | assumption
    | intro _
    | apply State.pairRx_kept
    | apply State.supervised_kept
    | apply State.deliver_kept
    | apply Kept.ite
    | split

theorem State.frameRx_kept (p : Nat) (f : Frame) (h : Kept M a s) (mLog : M .log := by first | assumption | simp) (mNet : M .net := by first | assumption | simp)
    (mPtp : M .ptp := by first | assumption | simp) :
    Kept M a (State.frameRx s p f) := by
  unfold State.frameRx
  with_reducible repeat' first
    | assumption
    | intro _
    | extract_lets
    | apply State.ptpRx_kept
    | apply State.fabricRx_kept
    | apply State.countFiltered_kept
    | apply Kept.ite
    | split

theorem State.portLink_kept (p : Nat) (up : Bool) (mbps : Nat) (h : Kept M a s) (mLog : M .log := by first | assumption | simp) (mNet : M .net := by first | assumption | simp)
    (mPtp : M .ptp := by first | assumption | simp) :
    Kept M a (State.portLink s p up mbps) := by
  unfold State.portLink
  with_reducible repeat' first
    | assumption
    | intro _
    | extract_lets
    | apply State.onPort_kept
    | apply State.elect_kept
    | apply State.closePairs_kept
    | apply State.report_kept
    | apply State.raise_kept
    | apply Kept.ite
    | split

theorem State.reachNode_kept (n : Nat) (p : Bool) (q : Bool) (h : Kept M a s) (mLog : M .log := by first | assumption | simp) (mAdeid : M .adeid := by first | assumption | simp) :
    Kept M a (State.reachNode s n p q) := by
  unfold State.reachNode
  with_reducible repeat' first
    | assumption
    | intro _
    | extract_lets
    | apply State.onAdeid_kept
    | apply State.when_kept
    | apply State.raise_kept
    | apply State.report_kept
    | apply Kept.ite

theorem State.wholeRing_kept (secondary : Bool) (new : Bool) (h : Kept M a s) (mLog : M .log := by first | assumption | simp) (mAdeid : M .adeid := by first | assumption | simp) :
    Kept M a (State.wholeRing s secondary new) := by
  unfold State.wholeRing
  with_reducible repeat' first
    | assumption
    | intro _
    | extract_lets
    | apply State.onAdeid_kept
    | apply State.report_kept
    | apply State.raise_kept
    | apply Kept.ite

theorem State.recomputeReach_kept (h : Kept M a s) (mLog : M .log := by first | assumption | simp) (mAdeid : M .adeid := by first | assumption | simp) :
    Kept M a (State.recomputeReach s) := by
  unfold State.recomputeReach
  with_reducible repeat' first
    | assumption
    | intro _
    | extract_lets
    | apply State.forEach_kept
    | apply State.reachNode_kept
    | apply State.wholeRing_kept
    | apply Kept.ite

theorem State.sendTopo_kept (h : Kept M a s) (mAdeid : M .adeid := by first | assumption | simp) : Kept M a (State.sendTopo s) := by
  unfold State.sendTopo
  with_reducible repeat' first | assumption | intro _ | extract_lets | apply State.onAdeid_kept | apply State.adeidSend_kept | apply Kept.ite

theorem State.linkChanged_kept (q : Nat) (h : Kept M a s) (mLog : M .log := by first | assumption | simp) (mAdeid : M .adeid := by first | assumption | simp) :
    Kept M a (State.linkChanged s q) := by
  unfold State.linkChanged
  with_reducible repeat' first
    | assumption
    | extract_lets
    | apply State.report_kept
    | apply State.raise_kept
    | apply State.sendTopo_kept
    | apply State.recomputeReach_kept

theorem State.adeidLinkDown_kept (q : Nat) (h : Kept M a s) (mLog : M .log := by first | assumption | simp) (mAdeid : M .adeid := by first | assumption | simp) :
    Kept M a (State.adeidLinkDown s q) := by
  unfold State.adeidLinkDown
  with_reducible repeat' first | assumption | intro _ | extract_lets | apply State.onLink_kept | apply State.linkChanged_kept | apply Kept.ite

theorem State.adeidLinkUp_kept (q : Nat) (h : Kept M a s) (mLog : M .log := by first | assumption | simp) (mAdeid : M .adeid := by first | assumption | simp) :
    Kept M a (State.adeidLinkUp s q) := by
  unfold State.adeidLinkUp
  with_reducible repeat' first | assumption | intro _ | extract_lets | apply State.onLink_kept | apply State.linkChanged_kept

theorem State.onDoor_kept (d : Nat) (f : Door → Door) (h : Kept M a s) (mAdeid : M .adeid := by first | assumption | simp) : Kept M a (State.onDoor s d f) := by
  unfold State.onDoor
  with_reducible repeat' first | assumption | intro _ | apply State.onAdeid_kept

theorem State.pairDown_kept (d : Nat) (h : Kept M a s) (mLog : M .log := by first | assumption | simp) (mNet : M .net := by first | assumption | simp)
    (mPtp : M .ptp := by first | assumption | simp) (mAdeid : M .adeid := by first | assumption | simp) :
    Kept M a (State.pairDown s d) := by
  unfold State.pairDown
  with_reducible repeat' first | assumption | intro _ | apply State.adeidLinkDown_kept | apply State.portLink_kept | apply Kept.ite

theorem State.closeDoor_kept (d : Nat) (cause : Nat) (h : Kept M a s) (mLog : M .log := by first | assumption | simp) (mNet : M .net := by first | assumption | simp)
    (mPtp : M .ptp := by first | assumption | simp) (mAdeid : M .adeid := by first | assumption | simp) :
    Kept M a (State.closeDoor s d cause) := by
  unfold State.closeDoor
  with_reducible repeat' first
    | assumption
    | intro _
    | extract_lets
    | apply State.onDoor_kept
    | apply State.onAdeid_kept
    | apply State.pairDown_kept
    | apply State.report_kept
    | apply State.raise_kept
    | apply Kept.ite

theorem State.closeDoors_kept (cause : Nat) (h : Kept M a s) (mLog : M .log := by first | assumption | simp) (mNet : M .net := by first | assumption | simp)
    (mPtp : M .ptp := by first | assumption | simp) (mAdeid : M .adeid := by first | assumption | simp) :
    Kept M a (State.closeDoors s cause) := by
  unfold State.closeDoors
  with_reducible repeat' first | assumption | intro _ | apply State.forEach_kept | apply State.closeDoor_kept

theorem State.openDoor_kept (d : Nat) (h : Kept M a s) (mLog : M .log := by first | assumption | simp) (mAdeid : M .adeid := by first | assumption | simp) :
    Kept M a (State.openDoor s d) := by
  unfold State.openDoor
  with_reducible repeat' first | assumption | intro _ | apply State.report_kept | apply State.raise_kept | apply State.onDoor_kept

theorem State.scheduleDoors_kept (origin : Ns) (h : Kept M a s) (mAdeid : M .adeid := by first | assumption | simp) :
    Kept M a (State.scheduleDoors s origin) := by
  unfold State.scheduleDoors
  with_reducible repeat' first | assumption | intro _ | extract_lets | apply State.forEach_kept | apply State.onDoor_kept

theorem State.onGateLink_kept (br : Nat) (f : GateLink → GateLink) (h : Kept M a s) (mGate : M .gate := by first | assumption | simp) :
    Kept M a (State.onGateLink s br f) := by
  unfold State.onGateLink
  with_reducible repeat' first | assumption | intro _ | apply State.onGate_kept

theorem State.halfOf_kept (ts : Ns) (h : Kept M a s) (mFresh : M .fresh := by first | assumption | simp) : Kept M a (State.halfOf s ts).2 := by
  unfold State.halfOf
  with_reducible repeat' first | assumption | intro _ | extract_lets | apply State.drawNat_kept | apply Kept.ite | split

theorem State.sendDownlink_kept (br : Nat) (n : Nat) (at_ : Ns) (ts : Ns) (block : Bool) (repeat_ : Bool) (falling : Bool) (half : Nat)
    (legs : List Leg) (h : Kept M a s) (mFresh : M .fresh := by first | assumption | simp) (mGate : M .gate := by first | assumption | simp) :
    Kept M a (State.sendDownlink s br n at_ ts block repeat_ falling half legs) := by
  unfold State.sendDownlink
  with_reducible repeat' first
    | assumption
    | intro _
    | extract_lets
    | apply State.drawNat_kept
    | apply State.onGateLink_kept
    | apply Kept.ite
    | split

theorem State.sendInstants_kept (br : Nat) (n : Nat) (at_ : Ns) (ts : Ns) (falling : Bool) (idx : List Num) (h : Kept M a s)
    (mFresh : M .fresh := by first | assumption | simp) (mGate : M .gate := by first | assumption | simp) :
    Kept M a (State.sendInstants s br n at_ ts falling idx) := by
  unfold State.sendInstants
  with_reducible repeat' first
    | assumption
    | intro _
    | extract_lets
    | apply State.halfOf_kept
    | apply State.sendDownlink_kept
    | apply Kept.ite
    | split

theorem State.sendBlock_kept (br : Nat) (n : Nat) (at_ : Ns) (ts : Ns) (falling : Bool) (h : Kept M a s)
    (mFresh : M .fresh := by first | assumption | simp) (mGate : M .gate := by first | assumption | simp) :
    Kept M a (State.sendBlock s br n at_ ts falling) := by
  unfold State.sendBlock
  with_reducible repeat' first | assumption | intro _ | extract_lets | apply State.halfOf_kept | apply State.sendDownlink_kept

theorem State.sendRepeat_kept (br : Nat) (n : Nat) (at_ : Ns) (ts : Ns) (falling : Bool) (h : Kept M a s)
    (mFresh : M .fresh := by first | assumption | simp) (mGate : M .gate := by first | assumption | simp) :
    Kept M a (State.sendRepeat s br n at_ ts falling) := by
  unfold State.sendRepeat
  with_reducible repeat' first
    | assumption
    | intro _
    | extract_lets
    | apply State.raise_kept
    | apply State.halfOf_kept
    | apply State.sendDownlink_kept
    | apply State.onGateLink_kept
    | split

theorem State.gateUnsync_kept (br : Nat) (h : Kept M a s) (mGate : M .gate := by first | assumption | simp) : Kept M a (State.gateUnsync s br) := by
  unfold State.gateUnsync
  with_reducible repeat' first
    | assumption
    | intro _
    | extract_lets
    | apply State.onGateLink_kept
    | apply State.when_kept
    | apply State.raise_kept
    | split

theorem State.gateDelay_kept (br : Nat) (d : Num) (h : Kept M a s) (mGate : M .gate := by first | assumption | simp) (mLog : M .log := by first | assumption | simp) :
    Kept M a (State.gateDelay s br d) := by
  unfold State.gateDelay
  with_reducible repeat' first
    | assumption
    | intro _
    | extract_lets
    | apply State.onGateLink_kept
    | apply State.when_kept
    | apply State.raise_kept
    | apply State.report_kept
    | apply Kept.ite
    | split

theorem State.gateDown_kept (br : Nat) (h : Kept M a s) (mGate : M .gate := by first | assumption | simp) (mLog : M .log := by first | assumption | simp) :
    Kept M a (State.gateDown s br) := by
  unfold State.gateDown
  with_reducible repeat' first
    | assumption
    | intro _
    | extract_lets
    | apply State.onGateLink_kept
    | apply State.report_kept
    | apply State.raise_kept
    | apply State.gateUnsync_kept
    | apply Kept.ite
    | split

theorem State.admitUplink_kept (br : Nat) (f : Uplink) (tRx : Num) (h : Kept M a s) (mGate : M .gate := by first | assumption | simp)
    (mLog : M .log := by first | assumption | simp) :
    Kept M a (State.admitUplink s br f tRx) := by
  unfold State.admitUplink
  with_reducible repeat' first
    | assumption
    | intro _
    | extract_lets
    | apply State.onGateLink_kept
    | apply State.gateDelay_kept
    | apply State.when_kept
    | apply State.report_kept
    | apply State.raise_kept
    | apply Kept.ite
    | split
    | (dsimp +zetaDelta only; split)

theorem State.uplinkMissing_kept (br : Nat) (h : Kept M a s) (mGate : M .gate := by first | assumption | simp) : Kept M a (State.uplinkMissing s br) := by
  unfold State.uplinkMissing
  with_reducible repeat' first
    | assumption
    | intro _
    | extract_lets
    | apply State.raise_kept
    | apply State.onGateLink_kept
    | apply State.gateUnsync_kept
    | apply Kept.ite

theorem State.onGsub_kept (i : Nat) (f : Gsub → Gsub) (h : Kept M a s) (mNet : M .net := by first | assumption | simp) : Kept M a (State.onGsub s i f) := by
  unfold State.onGsub
  with_reducible repeat' first | assumption | intro _ | apply State.onNet_kept

theorem State.onSvsub_kept (i : Nat) (f : Svsub → Svsub) (h : Kept M a s) (mNet : M .net := by first | assumption | simp) : Kept M a (State.onSvsub s i f) := by
  unfold State.onSvsub
  with_reducible repeat' first | assumption | intro _ | apply State.onNet_kept

theorem State.rateRefused_kept (i : Nat) (sv : Bool) (fresh : Bool) (h : Kept M a s) (mLog : M .log := by first | assumption | simp)
    (mNet : M .net := by first | assumption | simp) :
    Kept M a (State.rateRefused s i sv fresh) := by
  unfold State.rateRefused
  with_reducible repeat' first | assumption | intro _ | apply State.when_kept | apply State.raise_kept | apply State.report_kept

theorem State.gooseInvalid_kept (i : Nat) (h : Kept M a s) (mCapt : M .capt := by first | assumption | simp) (mNet : M .net := by first | assumption | simp) :
    Kept M a (State.gooseInvalid s i) := by
  unfold State.gooseInvalid
  with_reducible repeat' first | assumption | intro _ | apply State.captMetAll_kept | apply State.onGsub_kept | apply Kept.ite

theorem State.gooseChange_kept (i : Nat) (old : List MemberVal) (new : List MemberVal) (h : Kept M a s) (mProt : M .prot := by first | assumption | simp)
    (mLogic : M .logic := by first | assumption | simp) (mCapt : M .capt := by first | assumption | simp) (mLog : M .log := by first | assumption | simp) :
    Kept M a (State.gooseChange s i old new) := by
  unfold State.gooseChange
  with_reducible repeat' first
    | assumption
    | intro _
    | extract_lets
    | apply State.fire_kept
    | apply State.forEach_kept
    | apply State.captDigital_kept
    | apply State.captMetAll_kept
    | apply State.when_kept
    | apply State.mappedGroup_kept

theorem State.gooseTake_kept (c : GooseSub) (g : Gsub) (f : GooseFrame) (h : Kept M a s) (mProt : M .prot := by first | assumption | simp)
    (mLogic : M .logic := by first | assumption | simp) (mCapt : M .capt := by first | assumption | simp) (mLog : M .log := by first | assumption | simp) (mNet : M .net := by first | assumption | simp)
    :
    Kept M a (State.gooseTake s c g f) := by
  unfold State.gooseTake
  with_reducible repeat' first | assumption | intro _ | extract_lets | apply State.onGsub_kept | apply State.gooseChange_kept | apply Kept.ite

theorem State.onGpub_kept (q : Nat) (f : Gpub → Gpub) (h : Kept M a s) (mNet : M .net := by first | assumption | simp) : Kept M a (State.onGpub s q f) := by
  unfold State.onGpub
  with_reducible repeat' first | assumption | intro _ | apply State.onNet_kept

theorem State.sendGoose_kept (c : GoosePub) (h : Kept M a s) (mNet : M .net := by first | assumption | simp) : Kept M a (State.sendGoose s c) := by
  unfold State.sendGoose
  with_reducible repeat' first | assumption | intro _ | apply State.sendOwn_kept | apply State.onNet_kept | split

theorem State.startGoose_kept (h : Kept M a s) (mNet : M .net := by first | assumption | simp) : Kept M a (State.startGoose s) := by
  unfold State.startGoose
  with_reducible repeat' first | assumption | intro _ | apply State.forEach_kept | apply State.sendGoose_kept | apply State.onGpub_kept

theorem State.svSample_kept (lane : LaneRate) (ch : Nat) (t : Nat) (x4 : AsduSample) (synch : Nat) (test : Bool) (h : Kept M a s)
    (mAcq : M .acq := by first | assumption | simp) :
    Kept M a (State.svSample s lane ch t x4 synch test) := by
  unfold State.svSample
  with_reducible repeat' first | assumption | intro _ | extract_lets | apply State.raise_kept | apply State.onAcq_kept | apply Kept.ite

theorem State.svAsdu_kept (c : SvSub) (test : Bool) (az : Asdu) (h : Kept M a s) (mAcq : M .acq := by first | assumption | simp) (mNet : M .net := by first | assumption | simp) :
    Kept M a (State.svAsdu s c test az) := by
  unfold State.svAsdu
  with_reducible repeat' first
    | assumption
    | intro _
    | extract_lets
    | apply State.onSvsub_kept
    | apply State.forEach_kept
    | apply State.svSample_kept
    | apply Kept.ite
    | split

theorem State.captCloseRing_kept (e : Nat) (h : Kept M a s) (mCapt : M .capt := by first | assumption | simp) :
    Kept M a (State.captCloseRing s e) := by
  unfold State.captCloseRing
  with_reducible repeat' first | assumption | intro _ | extract_lets | apply State.raise_kept | apply State.onEngine_kept | split

theorem execCaptArm_kept (b : Nat) (h : Kept M a s) (mCapt : M .capt := by first | assumption | simp) (mLog : M .log := by first | assumption | simp)
    (mHost : M .host := by first | assumption | simp) :
    KeptOut M a (execCaptArm b s) := by
  unfold execCaptArm
  with_reducible repeat' first
    | assumption
    | intro _
    | apply State.runCtl_kept
    | apply State.done_kept
    | apply State.captArmed_kept
    | apply KeptOut.next
    | apply KeptOut.fault
    | split

theorem execCaptDisarm_kept (b : Nat) (h : Kept M a s) (mCapt : M .capt := by first | assumption | simp) (mLog : M .log := by first | assumption | simp)
    (mHost : M .host := by first | assumption | simp) :
    KeptOut M a (execCaptDisarm b s) := by
  unfold execCaptDisarm
  with_reducible repeat' first
    | assumption
    | intro _
    | apply State.runCtl_kept
    | apply State.done_kept
    | apply State.captDisarmed_kept
    | apply KeptOut.next
    | apply KeptOut.fault
    | split

theorem State.captTriggerNow_kept (ei : Nat) (t : Nat) (p : CaptCond → Bool) (h : Kept M a s) (mLogic : M .logic := by first | assumption | simp)
    (mCapt : M .capt := by first | assumption | simp) :
    Kept M a (State.captTriggerNow s ei t p) := by
  unfold State.captTriggerNow
  with_reducible repeat' first | assumption | intro _ | extract_lets | apply State.forEach_kept | apply State.captReport_kept

theorem execCaptManualTrigger_kept (b : Nat) (h : Kept M a s) (mLogic : M .logic := by first | assumption | simp)
    (mCapt : M .capt := by first | assumption | simp) (mLog : M .log := by first | assumption | simp)
    (mHost : M .host := by first | assumption | simp) :
    KeptOut M a (execCaptManualTrigger b s) := by
  unfold execCaptManualTrigger
  with_reducible repeat' first
    | assumption
    | apply KeptOut.next
    | intro _
    | extract_lets
    | apply State.runCtl_kept
    | apply State.captTriggerNow_kept
    | apply State.done_kept
    | split

theorem execCaptSet_kept (b : Nat) (h : Kept M a s) (mCapt : M .capt := by first | assumption | simp) (mLog : M .log := by first | assumption | simp)
    (mHost : M .host := by first | assumption | simp) :
    KeptOut M a (execCaptSet b s) := by
  unfold execCaptSet
  with_reducible repeat' first
    | assumption
    | intro _
    | extract_lets
    | apply State.runCtl_kept
    | apply State.onEngine_kept
    | apply State.done_kept
    | apply State.when_kept
    | apply State.report_kept
    | apply State.raise_kept
    | apply KeptOut.next
    | apply KeptOut.fault
    | split

theorem execCaptLock_kept (b : Nat) (h : Kept M a s) (mCapt : M .capt := by first | assumption | simp) (mLog : M .log := by first | assumption | simp)
    (mHost : M .host := by first | assumption | simp) :
    KeptOut M a (execCaptLock b s) := by
  unfold execCaptLock
  with_reducible repeat' first
    | assumption
    | intro _
    | apply State.runCtl_kept
    | apply State.done_kept
    | apply State.onEngine_kept
    | apply KeptOut.next
    | apply KeptOut.fault
    | split

theorem execCaptUnlock_kept (b : Nat) (h : Kept M a s) (mCapt : M .capt := by first | assumption | simp) (mLog : M .log := by first | assumption | simp)
    (mHost : M .host := by first | assumption | simp) :
    KeptOut M a (execCaptUnlock b s) := by
  unfold execCaptUnlock
  with_reducible repeat' first
    | assumption
    | intro _
    | apply State.runCtl_kept
    | apply State.done_kept
    | apply State.onEngine_kept
    | apply KeptOut.next
    | apply KeptOut.fault
    | split

theorem execCaptLockLapsed_kept (e : Nat) (h : Kept M a s) (mCapt : M .capt := by first | assumption | simp) (mLog : M .log := by first | assumption | simp) :
    KeptOut M a (execCaptLockLapsed e s) := by
  unfold execCaptLockLapsed
  with_reducible repeat' first
    | assumption
    | intro _
    | extract_lets
    | apply State.report_kept
    | apply State.raise_kept
    | apply State.onEngine_kept
    | apply KeptOut.next
    | apply KeptOut.fault
    | apply KeptOut.ite
    | apply Kept.ite

theorem execCaptConditionMet_kept (e : Nat) (cond : Nat) (h : Kept M a s) (mLogic : M .logic := by first | assumption | simp) (mCapt : M .capt := by first | assumption | simp) :
    KeptOut M a (execCaptConditionMet e cond s) := by
  unfold execCaptConditionMet
  with_reducible repeat' first
    | assumption
    | intro _
    | apply State.captReport_kept
    | apply State.onEngine_kept
    | apply KeptOut.next
    | apply KeptOut.fault
    | split

theorem execCaptWindowEnd_kept (e : Nat) (h : Kept M a s) (mCapt : M .capt := by first | assumption | simp) (mLog : M .log := by first | assumption | simp) :
    KeptOut M a (execCaptWindowEnd e s) := by
  unfold execCaptWindowEnd
  with_reducible repeat' first
    | assumption
    | intro _
    | extract_lets
    | apply State.onEngine_kept
    | apply State.captRecord_kept
    | apply State.raise_kept
    | apply KeptOut.next
    | apply KeptOut.fault
    | apply KeptOut.ite
    | apply Kept.ite

theorem execCaptDone_kept (e : Nat) (h : Kept M a s) (mCapt : M .capt := by first | assumption | simp) (mLog : M .log := by first | assumption | simp) :
    KeptOut M a (execCaptDone e s) := by
  unfold execCaptDone
  with_reducible repeat' first
    | assumption
    | intro _
    | extract_lets
    | apply State.captCloseRing_kept
    | apply State.onEngine_kept
    | apply State.captRecord_kept
    | apply State.raise_kept
    | apply KeptOut.next
    | apply KeptOut.fault
    | apply KeptOut.ite
    | apply Kept.ite

end Sys2Proof.Machine
end

