-- ==== Sys2Proof/Laws/Doors.lean ====
section
/-! SUPPORT. What the operations on links leave of the doors, and that closing a door closes it (R506). -/

namespace Sys2Proof.Machine

open Sys2Proof

variable (s : State)

theorem State.forEach_doors {α : Type} (f : State → α → State) (h : ∀ s x, (f s x).adeid.doors = s.adeid.doors) (l : List α) (s : State) :
    (s.forEach l f).adeid.doors = s.adeid.doors := by
  induction l generalizing s with
  | nil => rfl
  | cons x l ih => rw [State.forEach_cons, ih, h]

theorem State.reachNode_doors (n : Nat) (p q : Bool) : (s.reachNode n p q).adeid.doors = s.adeid.doors := by
  unfold State.reachNode State.when
  dsimp only
  repeat' split
  all_goals simp

theorem State.wholeRing_doors (x y : Bool) : (s.wholeRing x y).adeid.doors = s.adeid.doors := by
  unfold State.wholeRing
  dsimp only
  repeat' split
  all_goals simp

theorem State.adeidOwn_doors (q : Nat) (f : AdeidFrame) : (s.adeidOwn q f).adeid.doors = s.adeid.doors := by
  unfold State.adeidOwn
  dsimp only
  repeat' split
  all_goals rfl

theorem State.sendTopo_doors : s.sendTopo.adeid.doors = s.adeid.doors := by
  unfold State.sendTopo
  split
  · rfl
  · exact (adeidOwn_doors ..).trans (adeidOwn_doors ..)

theorem State.recomputeReach_doors : s.recomputeReach.adeid.doors = s.adeid.doors := by
  unfold State.recomputeReach
  split
  · rfl
  · exact (wholeRing_doors ..).trans ((wholeRing_doors ..).trans (forEach_doors _ (fun s x => reachNode_doors s x _ _) _ _))

theorem State.adeidLinkDown_doors (q : Nat) : (s.adeidLinkDown q).adeid.doors = s.adeid.doors := by
  unfold State.adeidLinkDown
  split
  · rfl
  · exact (sendTopo_doors _).trans (recomputeReach_doors _)

theorem State.pairDown_doors (d : Nat) : (s.pairDown d).adeid.doors = s.adeid.doors := by
  unfold State.pairDown
  split
  · rw [adeidLinkDown_doors, adeidLinkDown_doors]
  · have h : ∀ (s : State) p, (s.portLink p false 0).adeid = s.adeid := fun s p =>
      (State.portLink_kept (M := (· ∈ [.log, .net, .ptp])) p false 0 (.refl s)).parts .adeid (by simp)
    rw [h, h]

/-- A door that closes is closed, and no other door changes. -/
theorem State.closeDoor_doors (d c : Nat) : (s.closeDoor d c).adeid.doors = updAt s.adeid.doors d fun x => { x with open_ := false, openAt := none } := by
  unfold State.closeDoor
  dsimp only
  split
  · rfl
  · rw [pairDown_doors]
    simp [State.onDoor]

theorem State.door_closeDoor (d c e : Nat) : (s.closeDoor d c).door e =
    if e = d then { s.door e with open_ := false, openAt := none } else s.door e := by
  unfold State.door
  rw [closeDoor_doors]
  simp only [nth, updAt, List.getElem?_modify]
  by_cases h : e = d
  · cases x : s.adeid.doors[d]? with
    | none => subst h; simp [x]
    | some v => subst h; simp [x]
  · simp [h, Ne.symm h]

/-- Every door is closed after they have all been closed (R506). -/
theorem State.closeDoors_closed (c d : Nat) (h : d < 6) : ((s.closeDoors c).door d).open_ = false := by
  have stay : ∀ (l : List Nat) (s : State), (s.door d).open_ = false → ((s.forEach l fun s e => s.closeDoor e c).door d).open_ = false := by
    intro l
    induction l with
    | nil => exact fun _ h => h
    | cons x l ih =>
      intro s k
      rw [State.forEach_cons]
      refine ih _ ?_
      rw [door_closeDoor]
      split
      · rfl
      · exact k
  have all : ∀ (l : List Nat) (s : State), d ∈ l → ((s.forEach l fun s e => s.closeDoor e c).door d).open_ = false := by
    intro l
    induction l with
    | nil => exact fun _ m => nomatch m
    | cons x l ih =>
      intro s m
      rw [State.forEach_cons]
      by_cases e : d = x
      · refine stay _ _ ?_
        rw [door_closeDoor, if_pos e]
      · exact ih _ ((List.mem_cons.mp m).resolve_left e)
  exact all _ _ (List.mem_range.mpr h)

end Sys2Proof.Machine
end

