-- ==== Sys2Proof/Laws/KeptForm.lean ====
section
/-! SUPPORT. What is kept, one lemma per operation: the operations and commands of field I/O, FORM and LOGIC. -/

namespace Sys2Proof.Machine

set_option Elab.async false

open Sys2Proof

variable {M : Part → Prop} {a s : State}

theorem State.fioAccept_kept (g : Nat) (h : Kept M a s) (mFresh : M .fresh := by first | assumption | simp) (mFio : M .fio := by first | assumption | simp)
    (mLog : M .log := by first | assumption | simp) (mDiag : M .diag := by first | assumption | simp) :
    Kept M a (State.fioAccept s g) := by
  unfold State.fioAccept
  with_reducible repeat' first
    | assumption
    | intro _
    | extract_lets
    | apply State.onGroup_kept
    | apply State.forEach_kept
    | apply State.onCh_kept
    | apply State.driveGroup_kept

theorem State.fioExpiryLogged_kept (g : Nat) (h : Kept M a s) (mFio : M .fio := by first | assumption | simp) (mLog : M .log := by first | assumption | simp) :
    Kept M a (State.fioExpiryLogged s g) := by
  unfold State.fioExpiryLogged
  with_reducible repeat' first | assumption | intro _ | apply State.report_kept | apply State.raise_kept | apply State.onGroup_kept | split

theorem State.fioResendTrips_kept (g : Nat) (h : Kept M a s) (mFio : M .fio := by first | assumption | simp) : Kept M a (State.fioResendTrips s g) := by
  unfold State.fioResendTrips
  with_reducible repeat' first | assumption | intro _ | apply State.forEach_kept | apply State.sendFio_kept | split

theorem State.fioUnlock_kept (ch : Nat) (h : Kept M a s) (mFresh : M .fresh := by first | assumption | simp) (mFio : M .fio := by first | assumption | simp)
    (mLog : M .log := by first | assumption | simp) (mDiag : M .diag := by first | assumption | simp) :
    Kept M a (State.fioUnlock s ch) := by
  unfold State.fioUnlock
  with_reducible repeat' first | assumption | intro _ | extract_lets | apply State.drive_kept | apply State.onCh_kept

theorem State.fioMeanDelay_kept (n : Nat) (on : Bool) (h : Kept M a s) (mFresh : M .fresh := by first | assumption | simp) :
    Kept M a (State.fioMeanDelay s n on).2 := by
  unfold State.fioMeanDelay
  with_reducible repeat' first | assumption | intro _ | extract_lets | apply State.switchDelay_kept | apply Kept.ite | split

theorem State.fioPair_kept (n : Nat) (bitN : Nat) (m : Nat) (bitM : Nat) (h : Kept M a s) (mFio : M .fio := by first | assumption | simp)
    (mLog : M .log := by first | assumption | simp) :
    Kept M a (State.fioPair s n bitN m bitM) := by
  unfold State.fioPair
  with_reducible repeat' first | assumption | intro _ | extract_lets | apply State.fioDetect_kept | apply State.onCh_kept

theorem State.fioToLevel_kept (g : Nat) (l : LplusLevel) (mv : Nat) (h : Kept M a s) (mFresh : M .fresh := by first | assumption | simp)
    (mFio : M .fio := by first | assumption | simp) (mLog : M .log := by first | assumption | simp) (mDiag : M .diag := by first | assumption | simp) :
    Kept M a (State.fioToLevel s g l mv) := by
  unfold State.fioToLevel
  with_reducible repeat' first
    | assumption
    | intro _
    | extract_lets
    | apply State.onGroup_kept
    | apply State.forEach_kept
    | apply State.onCh_kept
    | apply State.driveGroup_kept
    | apply State.report_kept
    | apply State.raise_kept

theorem State.onBridge_kept (b : Nat) (f : Bridge → Bridge) (h : Kept M a s) (mForm : M .form := by first | assumption | simp) :
    Kept M a (State.onBridge s b f) := by
  unfold State.onBridge
  with_reducible repeat' first | assumption | intro _ | apply State.onForm_kept

theorem State.formTo_kept (u : Nat) (p : FormPhase) (r : Rec) (cause : Nat) (more : List Int) (h : Kept M a s)
    (mForm : M .form := by first | assumption | simp) (mCapt : M .capt := by first | assumption | simp)
    (mLog : M .log := by first | assumption | simp) :
    Kept M a (State.formTo s u p r cause more) := by
  unfold State.formTo
  with_reducible repeat' first
    | assumption
    | intro _
    | extract_lets
    | apply State.raise_kept
    | apply State.when_kept
    | apply State.onUnit_kept
    | apply State.report_kept
    | apply State.captMetAll_kept
    | split

theorem State.formBlocked_kept (u : Nat) (c : FormCause) (r : Rec) (more : List Int) (h : Kept M a s)
    (mForm : M .form := by first | assumption | simp) (mCapt : M .capt := by first | assumption | simp)
    (mLog : M .log := by first | assumption | simp) :
    Kept M a (State.formBlocked s u c r more) := by
  unfold State.formBlocked
  with_reducible repeat' first
    | assumption
    | intro _
    | extract_lets
    | apply State.raise_kept
    | apply State.onUnit_kept
    | apply State.formTo_kept
    | apply Kept.ite
    | split

theorem State.frtStart_kept (u : Nat) (cause : Nat) (h : Kept M a s) (mForm : M .form := by first | assumption | simp) (mCapt : M .capt := by first | assumption | simp)
    (mLog : M .log := by first | assumption | simp) :
    Kept M a (State.frtStart s u cause) := by
  unfold State.frtStart
  with_reducible repeat' first
    | assumption
    | intro _
    | extract_lets
    | apply State.onUnit_kept
    | apply State.raise_kept
    | apply State.formTo_kept
    | apply Kept.ite
    | split

theorem State.frtEnd_kept (u : Nat) (h : Kept M a s) (mForm : M .form := by first | assumption | simp) (mCapt : M .capt := by first | assumption | simp)
    (mLog : M .log := by first | assumption | simp) :
    Kept M a (State.frtEnd s u) := by
  unfold State.frtEnd
  with_reducible repeat' first
    | assumption
    | intro _
    | extract_lets
    | apply State.onUnit_kept
    | apply State.formTo_kept
    | apply State.raise_kept
    | apply Kept.ite
    | split

theorem State.takeAuto_kept (u : Nat) (v0 : AutoStep) (h : Kept M a s) (mForm : M .form := by first | assumption | simp)
    (mLogic : M .logic := by first | assumption | simp) (mCapt : M .capt := by first | assumption | simp)
    (mLog : M .log := by first | assumption | simp) :
    Kept M a (State.takeAuto s u v0) := by
  unfold State.takeAuto
  with_reducible repeat' first
    | assumption
    | intro _
    | extract_lets
    | apply State.raise_kept
    | apply State.onUnit_kept
    | apply State.formBlocked_kept
    | apply State.fire_kept
    | apply State.frtStart_kept
    | apply State.frtEnd_kept
    | apply State.formTo_kept
    | apply Kept.ite
    | split

theorem State.autoIf_kept (u : Nat) (p : AutoStep → Bool) (h : Kept M a s) (mForm : M .form := by first | assumption | simp)
    (mLogic : M .logic := by first | assumption | simp) (mCapt : M .capt := by first | assumption | simp)
    (mLog : M .log := by first | assumption | simp) :
    Kept M a (State.autoIf s u p) := by
  unfold State.autoIf
  with_reducible repeat' first | assumption | intro _ | extract_lets | apply State.takeAuto_kept | apply Kept.ite | split

theorem State.queueUnit_kept (u : Nat) (c : UnitCmd) (f : CmdFrom) (h : Kept M a s) (mForm : M .form := by first | assumption | simp) :
    Kept M a (State.queueUnit s u c f) := by
  unfold State.queueUnit
  with_reducible repeat' first | assumption | intro _ | apply State.onUnit_kept

theorem State.applyUnit_kept (u : Nat) (az : UnitCmd) (h : Kept M a s) (mForm : M .form := by first | assumption | simp) (mCapt : M .capt := by first | assumption | simp)
    (mLog : M .log := by first | assumption | simp) :
    Kept M a (State.applyUnit s u az) := by
  unfold State.applyUnit
  with_reducible repeat' first
    | assumption
    | intro _
    | apply State.formTo_kept
    | apply State.onUnit_kept
    | apply State.raise_kept
    | apply State.formBlocked_kept
    | apply State.onBridge_kept
    | split

theorem State.unitCommands_kept (u : Nat) (h : Kept M a s) (mForm : M .form := by first | assumption | simp) (mCapt : M .capt := by first | assumption | simp)
    (mLog : M .log := by first | assumption | simp) (mHost : M .host := by first | assumption | simp) :
    Kept M a (State.unitCommands s u) := by
  unfold State.unitCommands
  with_reducible repeat' first
    | assumption
    | intro _
    | extract_lets
    | apply State.onUnit_kept
    | apply State.forEach_kept
    | apply State.applyUnit_kept
    | apply State.done_kept
    | apply State.refuseItem_kept
    | apply State.refuseInternal_kept
    | split

theorem State.unitCtl_kept (b : Nat) (u : Nat) (c : UnitCmd) (h : Kept M a s) (mForm : M .form := by first | assumption | simp) (mLog : M .log := by first | assumption | simp)
    (mHost : M .host := by first | assumption | simp) :
    Kept M a (State.unitCtl s b u c) := by
  unfold State.unitCtl
  with_reducible repeat' first | assumption | intro _ | apply State.runCtl_kept | apply State.queueUnit_kept | apply State.toTarget_kept

theorem State.markedStart_kept (u : Nat) (h : Kept M a s) (mForm : M .form := by first | assumption | simp) (mCapt : M .capt := by first | assumption | simp)
    (mLog : M .log := by first | assumption | simp) :
    Kept M a (State.markedStart s u) := by
  unfold State.markedStart
  with_reducible repeat' first | assumption | intro _ | apply State.formTo_kept | apply State.onUnit_kept | apply Kept.ite | split

theorem State.closeRequest_kept (u : Nat) (h : Kept M a s) (mForm : M .form := by first | assumption | simp) (mLogic : M .logic := by first | assumption | simp) :
    Kept M a (State.closeRequest s u) := by
  unfold State.closeRequest
  with_reducible repeat' first
    | assumption
    | intro _
    | extract_lets
    | apply State.onUnit_kept
    | apply State.when_kept
    | apply State.fire_kept
    | split

theorem State.takeUplink_kept (x1 : FormUnit) (b : Nat) (h : Kept M a s) (mForm : M .form := by first | assumption | simp) (mGate : M .gate := by first | assumption | simp) :
    Kept M a (State.takeUplink s x1 b) := by
  unfold State.takeUplink
  with_reducible repeat' first | assumption | intro _ | extract_lets | apply State.onBridge_kept | apply State.uplinkMissing_kept | split

theorem State.loseBridges_kept (u : Nat) (h : Kept M a s) (mForm : M .form := by first | assumption | simp) (mCapt : M .capt := by first | assumption | simp)
    (mLog : M .log := by first | assumption | simp) :
    Kept M a (State.loseBridges s u) := by
  unfold State.loseBridges
  with_reducible repeat' first
    | assumption
    | intro _
    | extract_lets
    | apply State.forEach_kept
    | apply State.onBridge_kept
    | apply State.report_kept
    | apply State.raise_kept
    | apply State.formBlocked_kept
    | apply Kept.ite
    | split

theorem State.checkDc_kept (u : Nat) (h : Kept M a s) (mForm : M .form := by first | assumption | simp) (mCapt : M .capt := by first | assumption | simp)
    (mLog : M .log := by first | assumption | simp) :
    Kept M a (State.checkDc s u) := by
  unfold State.checkDc
  with_reducible repeat' first
    | assumption
    | intro _
    | extract_lets
    | apply State.onUnit_kept
    | apply State.when_kept
    | apply State.formBlocked_kept
    | apply Kept.ite
    | split

theorem State.setShares_kept (x1 : FormUnit) (h : Kept M a s) (mForm : M .form := by first | assumption | simp) : Kept M a (State.setShares s x1) := by
  unfold State.setShares
  with_reducible repeat' first | assumption | intro _ | extract_lets | apply State.forEach_kept | apply State.onBridge_kept

theorem State.circulate_kept (x1 : FormUnit) (h : Kept M a s) (mForm : M .form := by first | assumption | simp) : Kept M a (State.circulate s x1) := by
  unfold State.circulate
  with_reducible repeat' first
    | assumption
    | intro _
    | extract_lets
    | apply State.forEach_kept
    | apply State.onBridge_kept
    | apply State.when_kept
    | apply State.raise_kept

theorem State.computeUnit_kept (u : Nat) (h : Kept M a s) (mForm : M .form := by first | assumption | simp) : Kept M a (State.computeUnit s u) := by
  unfold State.computeUnit
  with_reducible repeat' first
    | assumption
    | intro _
    | extract_lets
    | apply State.setShares_kept
    | apply State.onUnit_kept
    | apply State.forEach_kept
    | apply State.onBridge_kept
    | apply State.circulate_kept
    | apply Kept.ite
    | split

theorem State.handOver_kept (u : Nat) (h : Kept M a s) (mFresh : M .fresh := by first | assumption | simp) (mForm : M .form := by first | assumption | simp)
    (mGate : M .gate := by first | assumption | simp) :
    Kept M a (State.handOver s u) := by
  unfold State.handOver
  with_reducible repeat' first
    | assumption
    | intro _
    | extract_lets
    | apply State.forEach_kept
    | apply State.sendInstants_kept
    | apply State.sendBlock_kept
    | apply State.onUnit_kept
    | apply Kept.ite
    | split

theorem State.formDegraded_kept (refLoss : Bool) (h : Kept M a s) (mForm : M .form := by first | assumption | simp) (mCapt : M .capt := by first | assumption | simp)
    (mLog : M .log := by first | assumption | simp) :
    Kept M a (State.formDegraded s refLoss) := by
  unfold State.formDegraded
  with_reducible repeat' first
    | assumption
    | intro _
    | extract_lets
    | apply State.onForm_kept
    | apply State.forEach_kept
    | apply State.formBlocked_kept
    | apply State.onUnit_kept
    | apply State.raise_kept
    | apply State.formTo_kept
    | apply Kept.ite

theorem State.formDegradedEnd_kept (h : Kept M a s) (mForm : M .form := by first | assumption | simp) (mCapt : M .capt := by first | assumption | simp)
    (mLog : M .log := by first | assumption | simp) :
    Kept M a (State.formDegradedEnd s) := by
  unfold State.formDegradedEnd
  with_reducible repeat' first
    | assumption
    | intro _
    | extract_lets
    | apply State.onForm_kept
    | apply State.forEach_kept
    | apply State.formBlocked_kept
    | apply State.formTo_kept
    | apply Kept.ite

theorem State.onTask_kept (t : Nat) (f : Task → Task) (h : Kept M a s) (mLogic : M .logic := by first | assumption | simp) : Kept M a (State.onTask s t f) := by
  unfold State.onTask
  with_reducible repeat' first | assumption | intro _ | apply State.onLogic_kept

theorem State.onTaskGroup_kept (m : Nat) (f : Group → Group) (h : Kept M a s) (mLogic : M .logic := by first | assumption | simp) :
    Kept M a (State.onTaskGroup s m f) := by
  unfold State.onTaskGroup
  with_reducible repeat' first | assumption | intro _ | apply State.onLogic_kept

theorem State.onStation_kept (i : Nat) (f : Station → Station) (h : Kept M a s) (mLogic : M .logic := by first | assumption | simp) :
    Kept M a (State.onStation s i f) := by
  unfold State.onStation
  with_reducible repeat' first | assumption | intro _ | apply State.onLogic_kept

theorem State.snapshot_kept (t : Nat) (h : Kept M a s) (mLogic : M .logic := by first | assumption | simp) : Kept M a (State.snapshot s t) := by
  unfold State.snapshot
  with_reducible repeat' first | assumption | intro _ | extract_lets | apply State.onLogic_kept | apply State.onTask_kept | apply Kept.ite | split

theorem State.startCommit_kept (m : Nat) (c : Commit) (h : Kept M a s) (mLogic : M .logic := by first | assumption | simp) :
    Kept M a (State.startCommit s m c) := by
  unfold State.startCommit
  with_reducible repeat' first | assumption | intro _ | apply State.onTaskGroup_kept

theorem State.askCommit_kept (m : Nat) (lines : List Nat) (h : Kept M a s) (mLogic : M .logic := by first | assumption | simp) :
    Kept M a (State.askCommit s m lines) := by
  unfold State.askCommit
  with_reducible repeat' first
    | assumption
    | intro _
    | extract_lets
    | apply State.onTaskGroup_kept
    | apply State.startCommit_kept
    | apply Kept.ite
    | split

theorem State.commitDone_kept (m : Nat) (h : Kept M a s) (mLogic : M .logic := by first | assumption | simp) : Kept M a (State.commitDone s m) := by
  unfold State.commitDone
  with_reducible repeat' first
    | assumption
    | intro _
    | extract_lets
    | apply State.onTaskGroup_kept
    | apply State.startCommit_kept
    | apply Kept.ite
    | split

theorem State.preempt_kept (h : Kept M a s) (mLogic : M .logic := by first | assumption | simp) : Kept M a (State.preempt s) := by
  unfold State.preempt
  with_reducible repeat' first | assumption | intro _ | apply State.onLogic_kept

theorem State.skipRelease_kept (t : Nat) (h : Kept M a s) (mLogic : M .logic := by first | assumption | simp) (mLog : M .log := by first | assumption | simp) :
    Kept M a (State.skipRelease s t) := by
  unfold State.skipRelease
  with_reducible repeat' first
    | assumption
    | intro _
    | extract_lets
    | apply State.raise_kept
    | apply State.onTask_kept
    | apply State.report_kept
    | apply Kept.ite
    | split

theorem State.skipReleases_kept (t : Nat) (n : Nat) (h : Kept M a s) (mLogic : M .logic := by first | assumption | simp) (mLog : M .log := by first | assumption | simp) :
    Kept M a (State.skipReleases s t n) := by
  unfold State.skipReleases
  with_reducible repeat' first
    | assumption
    | intro _
    | extract_lets
    | apply State.skipRelease_kept
    | apply State.onEvent_kept
    | apply State.onTask_kept
    | apply Kept.ite

theorem State.denyWrite_kept (ch : Nat) (h : Kept M a s) (mLogic : M .logic := by first | assumption | simp) : Kept M a (State.denyWrite s ch) := by
  unfold State.denyWrite
  with_reducible repeat' first | assumption | intro _ | apply State.raise_kept | apply State.onLogic_kept

theorem State.logicAsk_kept (r : Option Refuse) (f : State → State) (h : Kept M a s) (k : ∀ s, Kept M a s → Kept M a (f s))
    (mLog : M .log := by first | assumption | simp) :
    Kept M a (State.logicAsk s r f).1 := by
  unfold State.logicAsk
  with_reducible repeat' first | assumption | intro _ | apply State.refuseInternal_kept | apply k | split

theorem State.writeField_kept (ch : Nat) (level : Bool) (h : Kept M a s) (mLogic : M .logic := by first | assumption | simp) (mFio : M .fio := by first | assumption | simp) :
    Kept M a (State.writeField s ch level).1 := by
  unfold State.writeField
  with_reducible repeat' first
    | assumption
    | intro _
    | extract_lets
    | apply State.onLogic_kept
    | apply State.denyWrite_kept
    | apply State.sendFio_kept
    | apply Kept.ite
    | split

theorem State.dirtyLine_kept (m : Nat) (line : Nat) (h : Kept M a s) (mLogic : M .logic := by first | assumption | simp) :
    Kept M a (State.dirtyLine s m line) := by
  unfold State.dirtyLine
  with_reducible repeat' first | assumption | intro _ | apply State.onTaskGroup_kept

theorem State.convertFb_kept (path : String) (r : Option (Nat × Bool)) (h : Kept M a s) (mLogic : M .logic := by first | assumption | simp) :
    Kept M a (State.convertFb s path r) := by
  unfold State.convertFb
  with_reducible repeat' first | assumption | intro _ | extract_lets | apply State.onLogic_kept | split

theorem State.logicReq_kept (t : Nat) (m : Nat) (snapTick : Ns) (az : LogicReq) (h : Kept M a s) (mFresh : M .fresh := by first | assumption | simp)
    (mTide : M .tide := by first | assumption | simp) (mProt : M .prot := by first | assumption | simp) (mForm : M .form := by first | assumption | simp) (mLogic : M .logic := by first | assumption | simp)
    (mFio : M .fio := by first | assumption | simp) (mCapt : M .capt := by first | assumption | simp) (mLog : M .log := by first | assumption | simp)
    (mDiag : M .diag := by first | assumption | simp) :
    Kept M a (State.logicReq s t m snapTick az).1 := by
  unfold State.logicReq
  with_reducible repeat' first
    | assumption
    | intro _
    | extract_lets
    | apply State.writeField_kept
    | apply State.denyWrite_kept
    | apply State.onStation_kept
    | apply State.onTrip_kept
    | apply State.when_kept
    | apply State.raise_kept
    | apply State.onProt_kept
    | apply State.onElem_kept
    | apply State.logicAsk_kept
    | apply State.requestGroup_kept
    | apply State.queueUnit_kept
    | apply State.powAccept_kept
    | apply State.markPast_kept
    | apply State.armMark_kept
    | apply State.captArmed_kept
    | apply State.captTriggerNow_kept
    | apply State.convertFb_kept
    | apply State.fioUnlock_kept
    | apply State.onLogic_kept
    | apply State.dirtyLine_kept
    | apply Kept.ite
    | split

theorem State.sendStationOut_kept (slot : Nat) (h : Kept M a s) (mLogic : M .logic := by first | assumption | simp) (mAdeid : M .adeid := by first | assumption | simp) :
    Kept M a (State.sendStationOut s slot) := by
  unfold State.sendStationOut
  with_reducible repeat' first
    | assumption
    | intro _
    | extract_lets
    | apply State.raise_kept
    | apply State.onStation_kept
    | apply State.adeidSend_kept
    | apply Kept.ite

theorem State.outputWrite_kept (t : Nat) (reqs : List LogicReq) (h : Kept M a s) (mFresh : M .fresh := by first | assumption | simp)
    (mTide : M .tide := by first | assumption | simp) (mProt : M .prot := by first | assumption | simp) (mForm : M .form := by first | assumption | simp) (mLogic : M .logic := by first | assumption | simp)
    (mFio : M .fio := by first | assumption | simp) (mCapt : M .capt := by first | assumption | simp) (mLog : M .log := by first | assumption | simp)
    (mAdeid : M .adeid := by first | assumption | simp) (mDiag : M .diag := by first | assumption | simp) :
    Kept M a (State.outputWrite s t reqs) := by
  have fold : ∀ (t m : Nat) (k : Ns) (l : List LogicReq) (r : State × List Bool), Kept M a r.1 →
      Kept M a (l.foldl (fun (a : State × List Bool) q => ((a.1.logicReq t m k q).1, a.2 ++ [(a.1.logicReq t m k q).2])) r).1 := by
    intro t m k l
    induction l with
    | nil => exact fun _ h => h
    | cons q l ih => exact fun r hr => ih _ (State.logicReq_kept _ _ _ _ hr)
  unfold State.outputWrite
  split
  · exact h
  · exact State.askCommit_kept _ _ (State.onTask_kept _ _ (State.forEach_kept (fun _ _ k => State.sendStationOut_kept _ k) _ (fold _ _ _ _ _ h)))

theorem State.admitCycle_kept (t : Nat) (h : Kept M a s) (mFresh : M .fresh := by first | assumption | simp) (mTide : M .tide := by first | assumption | simp)
    (mProt : M .prot := by first | assumption | simp) (mForm : M .form := by first | assumption | simp) (mLogic : M .logic := by first | assumption | simp) (mFio : M .fio := by first | assumption | simp)
    (mCapt : M .capt := by first | assumption | simp) (mLog : M .log := by first | assumption | simp) (mAdeid : M .adeid := by first | assumption | simp)
    (mDiag : M .diag := by first | assumption | simp) :
    Kept M a (State.admitCycle s t) := by
  unfold State.admitCycle
  with_reducible repeat' first
    | assumption
    | intro _
    | extract_lets
    | apply State.outputWrite_kept
    | apply State.snapshot_kept
    | apply State.preempt_kept
    | apply State.onTask_kept
    | split
    | (dsimp +zetaDelta only; split)

theorem State.releaseTask_kept (t : Nat) (h : Kept M a s) (mFresh : M .fresh := by first | assumption | simp) (mTide : M .tide := by first | assumption | simp)
    (mProt : M .prot := by first | assumption | simp) (mForm : M .form := by first | assumption | simp) (mLogic : M .logic := by first | assumption | simp) (mFio : M .fio := by first | assumption | simp)
    (mCapt : M .capt := by first | assumption | simp) (mLog : M .log := by first | assumption | simp) (mAdeid : M .adeid := by first | assumption | simp)
    (mDiag : M .diag := by first | assumption | simp) :
    Kept M a (State.releaseTask s t) := by
  unfold State.releaseTask
  with_reducible repeat' first
    | assumption
    | intro _
    | extract_lets
    | apply State.onTask_kept
    | apply State.skipReleases_kept
    | apply State.when_kept
    | apply State.skipRelease_kept
    | apply State.admitCycle_kept
    | apply Kept.ite
    | split

theorem State.abandonCycles_kept (h : Kept M a s) (mLogic : M .logic := by first | assumption | simp) : Kept M a (State.abandonCycles s) := by
  unfold State.abandonCycles
  with_reducible repeat' first | assumption | intro _ | apply State.onLogic_kept

theorem State.commandSafe_kept (n : Nat) (h : Kept M a s) (mFio : M .fio := by first | assumption | simp) : Kept M a (State.commandSafe s n) := by
  unfold State.commandSafe
  with_reducible repeat' first | assumption | extract_lets | apply State.sendFio_kept

theorem State.logicQuiet_kept (h : Kept M a s) (mProt : M .prot := by first | assumption | simp) (mLogic : M .logic := by first | assumption | simp)
    (mFio : M .fio := by first | assumption | simp) :
    Kept M a (State.logicQuiet s) := by
  unfold State.logicQuiet
  with_reducible repeat' first
    | assumption
    | intro _
    | extract_lets
    | apply State.abandonCycles_kept
    | apply State.forEach_kept
    | apply State.commandSafe_kept
    | apply State.onProt_kept

theorem State.logicHalt_kept (c : HaltCause) (h : Kept M a s) (mProt : M .prot := by first | assumption | simp) (mLogic : M .logic := by first | assumption | simp)
    (mFio : M .fio := by first | assumption | simp) (mLog : M .log := by first | assumption | simp) :
    Kept M a (State.logicHalt s c) := by
  unfold State.logicHalt
  with_reducible repeat' first
    | assumption
    | intro _
    | extract_lets
    | apply State.onLogic_kept
    | apply State.report_kept
    | apply State.raise_kept
    | apply State.logicQuiet_kept

theorem State.startGroup_kept (warm : Bool) (mz : Nat) (h : Kept M a s) (mLogic : M .logic := by first | assumption | simp)
    (mLog : M .log := by first | assumption | simp) (mChk : M .chk := by first | assumption | simp) :
    Kept M a (State.startGroup s warm mz) := by
  unfold State.startGroup
  with_reducible repeat' first
    | assumption
    | intro _
    | extract_lets
    | apply State.onLogic_kept
    | apply State.raise_kept
    | apply State.when_kept
    | apply State.forEach_kept
    | apply State.pathFail_kept
    | apply State.onTaskGroup_kept
    | apply State.report_kept
    | apply Kept.ite

theorem State.startLogic_kept (warm : Bool) (h : Kept M a s) (mLogic : M .logic := by first | assumption | simp)
    (mLog : M .log := by first | assumption | simp) (mChk : M .chk := by first | assumption | simp) :
    Kept M a (State.startLogic s warm) := by
  unfold State.startLogic
  with_reducible repeat' first
    | assumption
    | intro _
    | extract_lets
    | apply State.onLogic_kept
    | apply State.raise_kept
    | apply State.forEach_kept
    | apply State.startGroup_kept
    | apply State.report_kept

theorem State.makeLogic_kept (images : List (Buffer × Buffer)) (h : Kept M a s) (mLogic : M .logic := by first | assumption | simp) :
    Kept M a (State.makeLogic s images) := by
  unfold State.makeLogic
  with_reducible repeat' first | assumption | intro _ | extract_lets | apply State.onLogic_kept

theorem State.commitExchange_kept (p : LogicCfg) (h : Kept M a s) (mLogic : M .logic := by first | assumption | simp) : Kept M a (State.commitExchange s p) := by
  unfold State.commitExchange
  with_reducible repeat' first | assumption | intro _ | apply State.onLogic_kept

theorem State.endExchange_kept (h : Kept M a s) (mLogic : M .logic := by first | assumption | simp) : Kept M a (State.endExchange s) := by
  unfold State.endExchange
  with_reducible repeat' first | assumption | intro _ | apply State.onLogic_kept | apply Kept.ite

theorem State.swapGroup_kept (m : Nat) (p : LogicCfg) (h : Kept M a s) (mFresh : M .fresh := by first | assumption | simp) (mLogic : M .logic := by first | assumption | simp)
    (mLog : M .log := by first | assumption | simp) :
    Kept M a (State.swapGroup s m p) := by
  unfold State.swapGroup
  with_reducible repeat' first
    | assumption
    | intro _
    | extract_lets
    | apply State.drawNat_kept
    | apply State.onTaskGroup_kept
    | apply State.onLogic_kept
    | apply State.askCommit_kept
    | apply State.endExchange_kept
    | apply State.report_kept
    | apply State.raise_kept

theorem State.stationDrop_kept (slot : Nat) (node : Bool) (h : Kept M a s) (mLogic : M .logic := by first | assumption | simp) (mLog : M .log := by first | assumption | simp) :
    Kept M a (State.stationDrop s slot node) := by
  unfold State.stationDrop
  with_reducible repeat' first | assumption | intro _ | extract_lets | apply State.onStation_kept | apply State.report_kept | apply State.raise_kept

theorem State.stationAccept_kept (slot : Nat) (p : RioPayload) (h : Kept M a s) (mLogic : M .logic := by first | assumption | simp)
    (mFio : M .fio := by first | assumption | simp) (mLog : M .log := by first | assumption | simp) :
    Kept M a (State.stationAccept s slot p) := by
  unfold State.stationAccept
  with_reducible repeat' first
    | assumption
    | intro _
    | extract_lets
    | apply State.onStation_kept
    | apply State.forEach_kept
    | apply State.sendFio_kept
    | apply State.when_kept
    | apply State.report_kept
    | apply State.raise_kept
    | apply Kept.ite

theorem State.rioRx_kept (src : Nat) (p : RioPayload) (h : Kept M a s) (mLogic : M .logic := by first | assumption | simp) (mFio : M .fio := by first | assumption | simp)
    (mLog : M .log := by first | assumption | simp) (mChk : M .chk := by first | assumption | simp) (mAdeid : M .adeid := by first | assumption | simp) :
    Kept M a (State.rioRx s src p) := by
  unfold State.rioRx
  with_reducible repeat' first
    | assumption
    | intro _
    | extract_lets
    | apply State.pathFail_kept
    | apply State.onStation_kept
    | apply State.onAdeid_kept
    | apply State.countAlive_kept
    | apply State.stationAccept_kept
    | apply State.when_kept
    | apply Kept.ite
    | split
    | (dsimp +zetaDelta only; split)

theorem execFioGroupLost_kept (g : Nat) (h : Kept M a s) (mFio : M .fio := by first | assumption | simp) (mLog : M .log := by first | assumption | simp) :
    KeptOut M a (execFioGroupLost g s) := by
  unfold execFioGroupLost
  with_reducible repeat' first
    | assumption
    | intro _
    | extract_lets
    | apply State.report_kept
    | apply State.raise_kept
    | apply State.onGroup_kept
    | apply KeptOut.next
    | apply KeptOut.fault
    | apply KeptOut.ite
    | apply Kept.ite

theorem execFioHandshake_kept (g : Nat) (ok : Bool) (h : Kept M a s) (mFresh : M .fresh := by first | assumption | simp) (mFio : M .fio := by first | assumption | simp)
    (mLog : M .log := by first | assumption | simp) (mChk : M .chk := by first | assumption | simp) (mDiag : M .diag := by first | assumption | simp) :
    KeptOut M a (execFioHandshake g ok s) := by
  unfold execFioHandshake
  with_reducible repeat' first
    | assumption
    | intro _
    | extract_lets
    | apply State.fioResendTrips_kept
    | apply State.fioExpiryLogged_kept
    | apply State.fioAccept_kept
    | apply State.onGroup_kept
    | apply State.report_kept
    | apply State.raise_kept
    | apply State.onChk_kept
    | apply State.driveGroup_kept
    | apply KeptOut.next
    | apply KeptOut.fault
    | apply KeptOut.ite
    | apply Kept.ite

theorem execFioTimeSync_kept (g : Nat) (h : Kept M a s) (mFio : M .fio := by first | assumption | simp) : KeptOut M a (execFioTimeSync g s) := by
  unfold execFioTimeSync
  with_reducible repeat' first
    | assumption
    | intro _
    | apply State.onGroup_kept
    | apply KeptOut.next
    | apply KeptOut.fault
    | apply KeptOut.ite
    | apply Kept.ite

theorem execFioSyncLost_kept (g : Nat) (h : Kept M a s) (mFio : M .fio := by first | assumption | simp) : KeptOut M a (execFioSyncLost g s) := by
  unfold execFioSyncLost
  with_reducible repeat' first
    | assumption
    | intro _
    | extract_lets
    | apply State.onGroup_kept
    | apply KeptOut.next
    | apply KeptOut.fault
    | apply KeptOut.ite
    | apply Kept.ite

theorem execFioOutputCommand_kept (ch : Nat) (h : Kept M a s) (mFresh : M .fresh := by first | assumption | simp) (mFio : M .fio := by first | assumption | simp)
    (mLog : M .log := by first | assumption | simp) (mDiag : M .diag := by first | assumption | simp) :
    KeptOut M a (execFioOutputCommand ch s) := by
  unfold execFioOutputCommand
  with_reducible repeat' first
    | assumption
    | intro _
    | apply State.applyFio_kept
    | apply State.onCh_kept
    | apply KeptOut.next
    | apply KeptOut.fault
    | apply KeptOut.ite
    | apply Kept.ite
    | split

theorem execFioSet_kept (b : Nat) (h : Kept M a s) (mFio : M .fio := by first | assumption | simp) (mLog : M .log := by first | assumption | simp)
    (mHost : M .host := by first | assumption | simp) :
    KeptOut M a (execFioSet b s) := by
  unfold execFioSet
  with_reducible repeat' first
    | assumption
    | intro _
    | apply State.runCtl_kept
    | apply State.done_kept
    | apply State.sendFio_kept
    | apply KeptOut.next
    | apply KeptOut.fault
    | split

theorem execFioOverload_kept (ch : Nat) (limit : Bool) (h : Kept M a s) (mFresh : M .fresh := by first | assumption | simp) (mFio : M .fio := by first | assumption | simp)
    (mLog : M .log := by first | assumption | simp) (mDiag : M .diag := by first | assumption | simp) :
    KeptOut M a (execFioOverload ch limit s) := by
  unfold execFioOverload
  with_reducible repeat' first
    | assumption
    | intro _
    | extract_lets
    | apply State.onCh_kept
    | apply State.fioDetect_kept
    | apply State.drive_kept
    | apply KeptOut.next
    | apply KeptOut.fault
    | apply KeptOut.ite
    | apply Kept.ite

theorem execFioOvlRetry_kept (ch : Nat) (h : Kept M a s) (mFresh : M .fresh := by first | assumption | simp) (mFio : M .fio := by first | assumption | simp)
    (mLog : M .log := by first | assumption | simp) (mDiag : M .diag := by first | assumption | simp) :
    KeptOut M a (execFioOvlRetry ch s) := by
  unfold execFioOvlRetry
  with_reducible repeat' first
    | assumption
    | intro _
    | extract_lets
    | apply State.drive_kept
    | apply State.onCh_kept
    | apply KeptOut.next
    | apply KeptOut.fault
    | apply KeptOut.ite
    | apply Kept.ite

theorem execFioClear_kept (b : Nat) (h : Kept M a s) (mFresh : M .fresh := by first | assumption | simp) (mFio : M .fio := by first | assumption | simp)
    (mLog : M .log := by first | assumption | simp) (mHost : M .host := by first | assumption | simp) (mDiag : M .diag := by first | assumption | simp) :
    KeptOut M a (execFioClear b s) := by
  unfold execFioClear
  with_reducible repeat' first
    | assumption
    | intro _
    | apply State.runCtl_kept
    | apply State.done_kept
    | apply State.fioUnlock_kept
    | apply KeptOut.next
    | apply KeptOut.fault
    | split

theorem execFioOvertemp_kept (ch : Nat) (hot : Bool) (h : Kept M a s) (mFresh : M .fresh := by first | assumption | simp) (mFio : M .fio := by first | assumption | simp)
    (mLog : M .log := by first | assumption | simp) (mDiag : M .diag := by first | assumption | simp) :
    KeptOut M a (execFioOvertemp ch hot s) := by
  unfold execFioOvertemp
  with_reducible repeat' first
    | assumption
    | intro _
    | extract_lets
    | apply State.fioDetect_kept
    | apply State.drive_kept
    | apply State.onCh_kept
    | apply KeptOut.next
    | apply KeptOut.fault
    | apply KeptOut.ite
    | apply Kept.ite

theorem execFioWatchdog_kept (g : Nat) (h : Kept M a s) (mFresh : M .fresh := by first | assumption | simp) (mFio : M .fio := by first | assumption | simp)
    (mLog : M .log := by first | assumption | simp) (mDiag : M .diag := by first | assumption | simp) :
    KeptOut M a (execFioWatchdog g s) := by
  unfold execFioWatchdog
  with_reducible repeat' first
    | assumption
    | intro _
    | extract_lets
    | apply State.fioSafe_kept
    | apply KeptOut.next
    | apply KeptOut.fault
    | apply KeptOut.ite
    | apply Kept.ite

theorem execFioSchedEdge_kept (g : Nat) (id : Nat) (h : Kept M a s) (mFresh : M .fresh := by first | assumption | simp) (mFio : M .fio := by first | assumption | simp)
    (mLog : M .log := by first | assumption | simp) (mDiag : M .diag := by first | assumption | simp) :
    KeptOut M a (execFioSchedEdge g id s) := by
  unfold execFioSchedEdge
  with_reducible repeat' first
    | assumption
    | intro _
    | extract_lets
    | apply State.fioMeanDelay_kept
    | apply State.refillEdges_kept
    | apply State.applyEdge_kept
    | apply State.onGroup_kept
    | apply KeptOut.next
    | apply KeptOut.fault
    | apply KeptOut.ite
    | apply Kept.ite
    | split

theorem execFioDarkPulse_kept (x0 : DarkIn) (h : Kept M a s) (mFresh : M .fresh := by first | assumption | simp) (mFio : M .fio := by first | assumption | simp)
    (mLog : M .log := by first | assumption | simp) (mDiag : M .diag := by first | assumption | simp) :
    KeptOut M a (execFioDarkPulse x0 s) := by
  unfold execFioDarkPulse
  with_reducible repeat' first
    | assumption
    | intro _
    | extract_lets
    | apply State.drive_kept
    | apply State.onCh_kept
    | apply State.fioPair_kept
    | apply State.fioDetect_kept
    | apply KeptOut.next
    | apply KeptOut.fault
    | apply KeptOut.ite
    | apply Kept.ite
    | split

theorem execFioBackfeedProbe_kept (x0 : ProbeIn) (h : Kept M a s) (mFio : M .fio := by first | assumption | simp) (mLog : M .log := by first | assumption | simp) :
    KeptOut M a (execFioBackfeedProbe x0 s) := by
  unfold execFioBackfeedProbe
  with_reducible repeat' first
    | assumption
    | intro _
    | extract_lets
    | apply State.fioPair_kept
    | apply State.fioDetect_kept
    | apply KeptOut.next
    | apply KeptOut.fault
    | apply KeptOut.ite
    | apply Kept.ite
    | split

theorem execFioOpenWire_kept (ch : Nat) (h : Kept M a s) (mFio : M .fio := by first | assumption | simp) (mLog : M .log := by first | assumption | simp) :
    KeptOut M a (execFioOpenWire ch s) := by
  unfold execFioOpenWire
  with_reducible repeat' first
    | assumption
    | intro _
    | extract_lets
    | apply State.fioDetect_kept
    | apply State.onCh_kept
    | apply KeptOut.next
    | apply KeptOut.fault
    | apply KeptOut.ite
    | apply Kept.ite

theorem execFioIndeterminate_kept (ch : Nat) (h : Kept M a s) (mFio : M .fio := by first | assumption | simp) (mLog : M .log := by first | assumption | simp) :
    KeptOut M a (execFioIndeterminate ch s) := by
  unfold execFioIndeterminate
  with_reducible repeat' first
    | assumption
    | intro _
    | apply State.fioDetect_kept
    | apply State.onCh_kept
    | apply KeptOut.next
    | apply KeptOut.fault
    | apply KeptOut.ite
    | apply Kept.ite

theorem execFioSupply_kept (g : Nat) (mv : Nat) (h : Kept M a s) (mFresh : M .fresh := by first | assumption | simp)
    (mFio : M .fio := by first | assumption | simp) (mLog : M .log := by first | assumption | simp)
    (mDiag : M .diag := by first | assumption | simp) :
    KeptOut M a (execFioSupply g mv s) := by
  unfold execFioSupply
  with_reducible repeat' first
    | assumption
    | apply KeptOut.next
    | intro _
    | extract_lets
    | apply State.report_kept
    | apply State.onGroup_kept
    | apply State.fioToLevel_kept
    | apply Kept.ite
    | split

theorem execFioResume_kept (b : Nat) (h : Kept M a s) (mFresh : M .fresh := by first | assumption | simp) (mFio : M .fio := by first | assumption | simp)
    (mLog : M .log := by first | assumption | simp) (mHost : M .host := by first | assumption | simp) (mDiag : M .diag := by first | assumption | simp) :
    KeptOut M a (execFioResume b s) := by
  unfold execFioResume
  with_reducible repeat' first
    | assumption
    | intro _
    | extract_lets
    | apply State.runCtl_kept
    | apply State.done_kept
    | apply State.drive_kept
    | apply State.onCh_kept
    | apply KeptOut.next
    | apply KeptOut.fault
    | split

end Sys2Proof.Machine
end

