-- ==== Sys2Proof/Laws/KeptBuild.lean ====
section
/-! SUPPORT. What is kept, one lemma per operation: clocks, diagnostics, instantiation and the security block. -/

namespace Sys2Proof.Machine

set_option Elab.async false

open Sys2Proof

variable {M : Part → Prop} {a s : State}

theorem State.onLoop_kept (i : LoopId) (f : Loop → Loop) (h : Kept M a s) (mClk : M .clk := by first | assumption | simp) : Kept M a (State.onLoop s i f) := by
  unfold State.onLoop
  with_reducible repeat' first | assumption | intro _ | apply State.onClk_kept

theorem State.drawNear_kept (target : Num) (tol : Num) (h : Kept M a s) (mFresh : M .fresh := by first | assumption | simp) :
    Kept M a (State.drawNear s target tol).2 := by
  unfold State.drawNear
  with_reducible repeat' first | assumption | extract_lets | apply State.drawNum_kept

theorem State.lanesDown_kept (h : Kept M a s) (mGate : M .gate := by first | assumption | simp) (mLog : M .log := by first | assumption | simp) (mNet : M .net := by first | assumption | simp)
    (mPtp : M .ptp := by first | assumption | simp) (mAdeid : M .adeid := by first | assumption | simp) :
    Kept M a (State.lanesDown s) := by
  unfold State.lanesDown
  with_reducible repeat' first
    | assumption
    | intro _
    | extract_lets
    | apply State.closeDoors_kept
    | apply State.forEach_kept
    | apply State.portLink_kept
    | apply State.adeidLinkDown_kept
    | apply State.gateDown_kept

theorem State.ptpDegraded_kept (refLoss : Bool) (h : Kept M a s) (mLog : M .log := by first | assumption | simp) (mPtp : M .ptp := by first | assumption | simp) :
    Kept M a (State.ptpDegraded s refLoss) := by
  unfold State.ptpDegraded
  with_reducible repeat' first
    | assumption
    | intro _
    | extract_lets
    | apply State.onPtp_kept
    | apply State.when_kept
    | apply State.setLocked_kept
    | apply State.enterHoldover_kept

theorem State.diffDegraded_kept (h : Kept M a s) (mDiff : M .diff := by first | assumption | simp) (mLog : M .log := by first | assumption | simp) :
    Kept M a (State.diffDegraded s) := by
  unfold State.diffDegraded
  with_reducible repeat' first
    | assumption
    | intro _
    | extract_lets
    | apply State.onDiff_kept
    | apply State.forEach_kept
    | apply State.zoneBlock_kept

theorem State.logicDegraded_kept (on : Bool) (h : Kept M a s) (mLogic : M .logic := by first | assumption | simp) : Kept M a (State.logicDegraded s on) := by
  unfold State.logicDegraded
  with_reducible repeat' first | assumption | intro _ | apply State.onLogic_kept

theorem State.measureBackup_kept (h : Kept M a s) (mFresh : M .fresh := by first | assumption | simp)
    (mClk : M .clk := by first | assumption | simp) :
    Kept M a (State.measureBackup s) := by
  unfold State.measureBackup
  with_reducible repeat' first | assumption | intro _ | extract_lets | apply State.onClk_kept | apply State.drawNear_kept

theorem State.degradedStart_kept (cause : DegCause) (h : Kept M a s) (mFresh : M .fresh := by first | assumption | simp)
    (mClk : M .clk := by first | assumption | simp) (mTide : M .tide := by first | assumption | simp)
    (mDiff : M .diff := by first | assumption | simp) (mForm : M .form := by first | assumption | simp)
    (mGate : M .gate := by first | assumption | simp) (mLogic : M .logic := by first | assumption | simp)
    (mCapt : M .capt := by first | assumption | simp) (mLog : M .log := by first | assumption | simp) (mNet : M .net := by first | assumption | simp)
    (mPtp : M .ptp := by first | assumption | simp) (mAdeid : M .adeid := by first | assumption | simp) :
    Kept M a (State.degradedStart s cause) := by
  unfold State.degradedStart
  with_reducible repeat' first
    | assumption
    | intro _
    | extract_lets
    | apply State.onClk_kept
    | apply State.onTide_kept
    | apply State.onGate_kept
    | apply State.raise_kept
    | apply State.when_kept
    | apply State.ptpDegraded_kept
    | apply State.lanesDown_kept
    | apply State.measureBackup_kept
    | apply State.report_kept
    | apply State.diffDegraded_kept
    | apply State.logicDegraded_kept
    | apply State.captDegraded_kept
    | apply State.formDegraded_kept
    | apply State.refreshHolds_kept
    | apply Kept.ite
  all_goals first | assumption | exact h.same rfl rfl rfl rfl | exact fun _ k => k | simpa [updAt] using ‹_›

theorem State.loopLost_kept (i : LoopId) (c : LolCause) (pfd : Num) (h : Kept M a s) (mFresh : M .fresh := by first | assumption | simp)
    (mClk : M .clk := by first | assumption | simp) (mTide : M .tide := by first | assumption | simp)
    (mDiff : M .diff := by first | assumption | simp) (mForm : M .form := by first | assumption | simp)
    (mGate : M .gate := by first | assumption | simp) (mLogic : M .logic := by first | assumption | simp)
    (mCapt : M .capt := by first | assumption | simp) (mLog : M .log := by first | assumption | simp) (mNet : M .net := by first | assumption | simp)
    (mPtp : M .ptp := by first | assumption | simp) (mAdeid : M .adeid := by first | assumption | simp) :
    Kept M a (State.loopLost s i c pfd) := by
  unfold State.loopLost
  with_reducible repeat' first
    | assumption
    | intro _
    | extract_lets
    | apply State.onClk_kept
    | apply State.raise_kept
    | apply State.onLoop_kept
    | apply State.report_kept
    | apply State.degradedStart_kept
    | apply Kept.ite

theorem State.mpllLost_kept (h : Kept M a s) (mClk : M .clk := by first | assumption | simp) (mLog : M .log := by first | assumption | simp) : Kept M a (State.mpllLost s) := by
  unfold State.mpllLost
  with_reducible repeat' first
    | assumption
    | intro _
    | extract_lets
    | apply State.onLoop_kept
    | apply State.onClk_kept
    | apply State.report_kept
    | apply State.raise_kept

theorem State.domainStop_kept (d : Nat) (h : Kept M a s) (mClk : M .clk := by first | assumption | simp)
    (mLog : M .log := by first | assumption | simp) :
    Kept M a (State.domainStop s d) := by
  unfold State.domainStop
  with_reducible repeat' first
    | assumption
    | intro _
    | extract_lets
    | apply State.onClk_kept
    | apply State.raise_kept
    | apply State.report_kept
    | apply Kept.ite

theorem State.noReference_kept (h : Kept M a s) (mFresh : M .fresh := by first | assumption | simp) (mClk : M .clk := by first | assumption | simp)
    (mTide : M .tide := by first | assumption | simp) (mDiff : M .diff := by first | assumption | simp)
    (mForm : M .form := by first | assumption | simp) (mGate : M .gate := by first | assumption | simp)
    (mLogic : M .logic := by first | assumption | simp) (mCapt : M .capt := by first | assumption | simp)
    (mLog : M .log := by first | assumption | simp) (mNet : M .net := by first | assumption | simp) (mPtp : M .ptp := by first | assumption | simp)
    (mAdeid : M .adeid := by first | assumption | simp) :
    Kept M a (State.noReference s) := by
  unfold State.noReference
  with_reducible repeat' first
    | assumption
    | intro _
    | extract_lets
    | apply State.onClk_kept
    | apply State.raise_kept
    | apply State.when_kept
    | apply State.report_kept
    | apply State.drawNum_kept
    | apply State.onLoop_kept
    | apply State.mpllLost_kept
    | apply State.domainStop_kept
    | apply State.degradedStart_kept
    | apply Kept.ite

theorem State.measureRef_kept (h : Kept M a s) (mFresh : M .fresh := by first | assumption | simp) (mClk : M .clk := by first | assumption | simp) :
    Kept M a (State.measureRef s) := by
  unfold State.measureRef
  with_reducible repeat' first
    | assumption
    | intro _
    | extract_lets
    | apply State.onClk_kept
    | apply State.drawNear_kept
    | apply Kept.ite
    | split

theorem State.refSwitch_kept (old : Nat) (new : RefSrc) (h : Kept M a s) (mFresh : M .fresh := by first | assumption | simp)
    (mClk : M .clk := by first | assumption | simp) (mLog : M .log := by first | assumption | simp) :
    Kept M a (State.refSwitch s old new) := by
  unfold State.refSwitch
  with_reducible repeat' first
    | assumption
    | intro _
    | extract_lets
    | apply State.onClk_kept
    | apply State.raise_kept
    | apply State.measureRef_kept
    | apply State.report_kept
    | apply Kept.ite

theorem State.refLost_kept (src : RefSrc) (h : Kept M a s) (mFresh : M .fresh := by first | assumption | simp) (mClk : M .clk := by first | assumption | simp)
    (mTide : M .tide := by first | assumption | simp) (mDiff : M .diff := by first | assumption | simp) (mForm : M .form := by first | assumption | simp) (mGate : M .gate := by first | assumption | simp)
    (mLogic : M .logic := by first | assumption | simp) (mCapt : M .capt := by first | assumption | simp) (mLog : M .log := by first | assumption | simp) (mNet : M .net := by first | assumption | simp)
    (mPtp : M .ptp := by first | assumption | simp) (mAdeid : M .adeid := by first | assumption | simp) :
    Kept M a (State.refLost s src) := by
  unfold State.refLost
  with_reducible repeat' first
    | assumption
    | intro _
    | extract_lets
    | apply State.onClk_kept
    | apply State.when_kept
    | apply State.report_kept
    | apply State.raise_kept
    | apply State.refSwitch_kept
    | apply State.noReference_kept
    | apply Kept.ite
    | split

theorem State.restartLoops_kept (h : Kept M a s) (mClk : M .clk := by first | assumption | simp) : Kept M a (State.restartLoops s) := by
  unfold State.restartLoops
  with_reducible repeat' first | assumption | intro _ | apply State.forEach_kept | apply State.onLoop_kept

theorem State.beginRetune_kept (i : LoopId) (m : RefMode) (berth : Option Nat) (h : Kept M a s) (mClk : M .clk := by first | assumption | simp) :
    Kept M a (State.beginRetune s i m berth) := by
  unfold State.beginRetune
  with_reducible repeat' first | assumption | intro _ | extract_lets | apply State.onClk_kept | apply State.onLoop_kept

theorem State.nextMove_kept (h : Kept M a s) (mClk : M .clk := by first | assumption | simp) : Kept M a (State.nextMove s) := by
  unfold State.nextMove
  with_reducible repeat' first | assumption | intro _ | apply State.beginRetune_kept | apply State.onClk_kept | apply Kept.ite | split

theorem State.startMoves_kept (h : Kept M a s) (mClk : M .clk := by first | assumption | simp) : Kept M a (State.startMoves s) := by
  unfold State.startMoves
  with_reducible repeat' first | assumption | intro _ | extract_lets | apply State.nextMove_kept | apply State.onClk_kept

theorem State.retuneFailed_kept (h : Kept M a s) (mClk : M .clk := by first | assumption | simp) (mHost : M .host := by first | assumption | simp) :
    Kept M a (State.retuneFailed s) := by
  unfold State.retuneFailed
  with_reducible repeat' first
    | assumption
    | intro _
    | extract_lets
    | apply State.onClk_kept
    | apply State.nextMove_kept
    | apply State.failed_kept
    | split

theorem State.retuneDone_kept (r : Retune) (h : Kept M a s) (mClk : M .clk := by first | assumption | simp) (mLog : M .log := by first | assumption | simp)
    (mHost : M .host := by first | assumption | simp) :
    Kept M a (State.retuneDone s r) := by
  unfold State.retuneDone
  with_reducible repeat' first
    | assumption
    | intro _
    | extract_lets
    | apply State.onClk_kept
    | apply State.report_kept
    | apply State.raise_kept
    | apply State.nextMove_kept
    | apply State.done_kept
    | split

theorem State.degradedEnd_kept (i : LoopId) (h : Kept M a s) (mClk : M .clk := by first | assumption | simp)
    (mTide : M .tide := by first | assumption | simp) (mDiff : M .diff := by first | assumption | simp)
    (mForm : M .form := by first | assumption | simp) (mGate : M .gate := by first | assumption | simp)
    (mLogic : M .logic := by first | assumption | simp) (mCapt : M .capt := by first | assumption | simp)
    (mLog : M .log := by first | assumption | simp) (mPtp : M .ptp := by first | assumption | simp) (mHost : M .host := by first | assumption | simp)
    (mAdeid : M .adeid := by first | assumption | simp) :
    Kept M a (State.degradedEnd s i) := by
  unfold State.degradedEnd
  with_reducible repeat' first
    | assumption
    | intro _
    | extract_lets
    | apply State.onClk_kept
    | apply State.onTide_kept
    | apply State.onDiff_kept
    | apply State.onGate_kept
    | apply State.onPtp_kept
    | apply State.onHost_kept
    | apply State.raise_kept
    | apply State.when_kept
    | apply State.report_kept
    | apply State.logicDegraded_kept
    | apply State.captDegraded_kept
    | apply State.formDegradedEnd_kept
    | apply State.scheduleDoors_kept
    | apply State.nextMove_kept
    | apply State.refreshHolds_kept
    | apply Kept.ite
  all_goals first | assumption | exact h.same rfl rfl rfl rfl | exact fun _ k => k | simpa [updAt] using ‹_›

theorem State.testFailed_kept (t : SelfTest) (part : Nat) (h : Kept M a s) (mLog : M .log := by first | assumption | simp) (mDiag : M .diag := by first | assumption | simp) :
    Kept M a (State.testFailed s t part) := by
  unfold State.testFailed
  with_reducible repeat' first | assumption | intro _ | extract_lets | apply State.onDiag_kept | apply State.report_kept | apply State.raise_kept

theorem State.testPassed_kept (t : SelfTest) (h : Kept M a s) (mDiag : M .diag := by first | assumption | simp) : Kept M a (State.testPassed s t) := by
  unfold State.testPassed
  with_reducible repeat' first | assumption | intro _ | apply State.onDiag_kept

theorem State.testResult_kept (t : SelfTest) (part : Nat) (pass : Bool) (h : Kept M a s) (mLog : M .log := by first | assumption | simp)
    (mDiag : M .diag := by first | assumption | simp) :
    Kept M a (State.testResult s t part pass) := by
  unfold State.testResult
  with_reducible repeat' first
    | assumption
    | intro _
    | extract_lets
    | apply State.onDiag_kept
    | apply State.testPassed_kept
    | apply State.testFailed_kept
    | apply Kept.ite

theorem State.chkKat_kept (bad : List Nat) (h : Kept M a s) (mLog : M .log := by first | assumption | simp) (mChk : M .chk := by first | assumption | simp)
    (mDiag : M .diag := by first | assumption | simp) :
    Kept M a (State.chkKat s bad) := by
  unfold State.chkKat
  with_reducible repeat' first
    | assumption
    | intro _
    | extract_lets
    | apply State.forEach_kept
    | apply State.report_kept
    | apply State.raise_kept
    | apply State.testResult_kept
    | apply State.onChk_kept

theorem State.eccCount_kept (m : Nat) (addr : Nat) (corrected : Bool) (h : Kept M a s) (mLog : M .log := by first | assumption | simp)
    (mDiag : M .diag := by first | assumption | simp) :
    Kept M a (State.eccCount s m addr corrected) := by
  unfold State.eccCount
  with_reducible repeat' first
    | assumption
    | intro _
    | extract_lets
    | apply State.onDiag_kept
    | apply State.when_kept
    | apply State.report_kept
    | apply State.raise_kept
    | apply Kept.ite

theorem State.updateHealth_kept (h : Kept M a s) (mLog : M .log := by first | assumption | simp) (mDiag : M .diag := by first | assumption | simp) :
    Kept M a (State.updateHealth s) := by
  unfold State.updateHealth
  with_reducible repeat' first
    | assumption
    | intro _
    | extract_lets
    | apply State.onDiag_kept
    | apply State.when_kept
    | apply State.report_kept
    | apply State.raise_kept

theorem State.make_kept (b : Blk) (f : State → State) (h : Kept M a s) (k : ∀ s, Kept M a s → Kept M a (f s)) : Kept M a (State.make s b f) := by
  unfold State.make
  with_reducible repeat' first | assumption | intro _ | apply k | apply Kept.ite

theorem State.makeTide_kept (h : Kept M a s) (mTide : M .tide := by first | assumption | simp) (mLog : M .log := by first | assumption | simp) :
    Kept M a (State.makeTide s) := by
  unfold State.makeTide
  refine State.report_kept _ _ _ (State.raise_kept _ _ (State.pushHist_kept (State.refreshHolds_kept (State.onTide_kept h ?_))))
  exact fun _ _ => List.length_replicate

theorem State.makeAcq_kept (h : Kept M a s) (mAcq : M .acq := by first | assumption | simp) : Kept M a (State.makeAcq s) := by
  unfold State.makeAcq
  with_reducible repeat' first | assumption | intro _ | extract_lets | apply State.onAcq_kept

theorem State.makeProt_kept (h : Kept M a s) (mProt : M .prot := by first | assumption | simp) : Kept M a (State.makeProt s) := by
  unfold State.makeProt
  with_reducible repeat' first | assumption | intro _ | extract_lets | apply State.onProt_kept

theorem State.makeDiff_kept (h : Kept M a s) (mDiff : M .diff := by first | assumption | simp) : Kept M a (State.makeDiff s) := by
  unfold State.makeDiff
  with_reducible repeat' first | assumption | intro _ | extract_lets | apply State.onDiff_kept

theorem State.makeForm_kept (h : Kept M a s) (mForm : M .form := by first | assumption | simp) : Kept M a (State.makeForm s) := by
  unfold State.makeForm
  with_reducible repeat' first | assumption | intro _ | extract_lets | apply State.onForm_kept | apply State.forEach_kept | apply State.raise_kept

theorem State.makeGate_kept (h : Kept M a s) (mGate : M .gate := by first | assumption | simp) : Kept M a (State.makeGate s) := by
  unfold State.makeGate
  with_reducible repeat' first | assumption | intro _ | apply State.onGate_kept

theorem State.makeLogicBlock_kept (h : Kept M a s) (mLogic : M .logic := by first | assumption | simp) : Kept M a (State.makeLogicBlock s) := by
  unfold State.makeLogicBlock
  with_reducible repeat' first | assumption | intro _ | extract_lets | apply State.makeLogic_kept | apply State.onLogic_kept

theorem State.makeFioGroup_kept (gi : Nat) (h : Kept M a s) (mFresh : M .fresh := by first | assumption | simp) (mFio : M .fio := by first | assumption | simp)
    (mLog : M .log := by first | assumption | simp) (mDiag : M .diag := by first | assumption | simp) :
    Kept M a (State.makeFioGroup s gi) := by
  unfold State.makeFioGroup
  with_reducible repeat' first
    | assumption
    | intro _
    | extract_lets
    | apply State.onGroup_kept
    | apply State.fioSafe_kept
    | apply State.forEach_kept
    | apply State.onCh_kept
    | apply Kept.ite

theorem State.makeFio_kept (h : Kept M a s) (mFresh : M .fresh := by first | assumption | simp) (mFio : M .fio := by first | assumption | simp) (mLog : M .log := by first | assumption | simp)
    (mDiag : M .diag := by first | assumption | simp) :
    Kept M a (State.makeFio s) := by
  unfold State.makeFio
  with_reducible repeat' first | assumption | intro _ | apply State.forEach_kept | apply State.makeFioGroup_kept

theorem State.makeCapt_kept (h : Kept M a s) (mCapt : M .capt := by first | assumption | simp) : Kept M a (State.makeCapt s) := by
  unfold State.makeCapt
  with_reducible repeat' first | assumption | intro _ | extract_lets | apply State.onCapt_kept

theorem State.makeLog_kept (h : Kept M a s) (mLog : M .log := by first | assumption | simp) : Kept M a (State.makeLog s) := by
  unfold State.makeLog
  with_reducible repeat' first | assumption | intro _ | apply State.onLog_kept

theorem State.makeNet_kept (h : Kept M a s) (mNet : M .net := by first | assumption | simp) : Kept M a (State.makeNet s) := by
  unfold State.makeNet
  with_reducible repeat' first | assumption | intro _ | extract_lets | apply State.onNet_kept

theorem State.makePtp_kept (h : Kept M a s) (mPtp : M .ptp := by first | assumption | simp) : Kept M a (State.makePtp s) := by
  unfold State.makePtp
  with_reducible repeat' first | assumption | intro _ | apply State.onPtp_kept

theorem State.makeHost_kept (h : Kept M a s) (mHost : M .host := by first | assumption | simp) : Kept M a (State.makeHost s) := by
  unfold State.makeHost
  with_reducible repeat' first | assumption | intro _ | apply State.onHost_kept

theorem State.makeAdeid_kept (h : Kept M a s) (mAdeid : M .adeid := by first | assumption | simp) : Kept M a (State.makeAdeid s) := by
  unfold State.makeAdeid
  with_reducible repeat' first | assumption | intro _ | extract_lets | apply State.onAdeid_kept

theorem State.reach_kept (n : Nat) (h : Kept M a s) (mSys : M .sys := by first | assumption | simp) : Kept M a (State.reach s n) := by
  unfold State.reach
  with_reducible repeat' first | assumption | intro _ | apply State.onSys_kept

theorem State.makeAll_kept (h : Kept M a s) (mFresh : M .fresh := by first | assumption | simp) (mTide : M .tide := by first | assumption | simp)
    (mAcq : M .acq := by first | assumption | simp) (mProt : M .prot := by first | assumption | simp) (mDiff : M .diff := by first | assumption | simp) (mForm : M .form := by first | assumption | simp)
    (mGate : M .gate := by first | assumption | simp) (mLogic : M .logic := by first | assumption | simp) (mFio : M .fio := by first | assumption | simp) (mCapt : M .capt := by first | assumption | simp)
    (mLog : M .log := by first | assumption | simp) (mNet : M .net := by first | assumption | simp) (mPtp : M .ptp := by first | assumption | simp) (mHost : M .host := by first | assumption | simp)
    (mAdeid : M .adeid := by first | assumption | simp) (mDiag : M .diag := by first | assumption | simp) :
    Kept M a (State.makeAll s) := by
  unfold State.makeAll
  with_reducible repeat' first
    | assumption
    | intro _
    | extract_lets
    | apply State.make_kept
    | apply State.makeTide_kept
    | apply State.makeAcq_kept
    | apply State.makeProt_kept
    | apply State.makeDiff_kept
    | apply State.makeForm_kept
    | apply State.makeGate_kept
    | apply State.makeLogicBlock_kept
    | apply State.makeFio_kept
    | apply State.makeCapt_kept
    | apply State.makeLog_kept
    | apply State.makeNet_kept
    | apply State.makePtp_kept
    | apply State.makeHost_kept
    | apply State.makeAdeid_kept

theorem State.xrefUnused_kept (h : Kept M a s) (mFresh : M .fresh := by first | assumption | simp) (mClk : M .clk := by first | assumption | simp)
    (mTide : M .tide := by first | assumption | simp) (mDiff : M .diff := by first | assumption | simp)
    (mForm : M .form := by first | assumption | simp) (mGate : M .gate := by first | assumption | simp)
    (mLogic : M .logic := by first | assumption | simp) (mCapt : M .capt := by first | assumption | simp)
    (mLog : M .log := by first | assumption | simp) (mNet : M .net := by first | assumption | simp) (mPtp : M .ptp := by first | assumption | simp)
    (mAdeid : M .adeid := by first | assumption | simp) :
    Kept M a (State.xrefUnused s) := by
  unfold State.xrefUnused
  with_reducible repeat' first
    | assumption
    | intro _
    | extract_lets
    | apply State.onClk_kept
    | apply State.refSwitch_kept
    | apply State.noReference_kept
    | apply Kept.ite

theorem State.instantiate_kept (h : Kept M a s) (mFresh : M .fresh := by first | assumption | simp) (mSys : M .sys := by first | assumption | simp)
    (mClk : M .clk := by first | assumption | simp) (mTide : M .tide := by first | assumption | simp) (mAcq : M .acq := by first | assumption | simp)
    (mProt : M .prot := by first | assumption | simp) (mDiff : M .diff := by first | assumption | simp)
    (mForm : M .form := by first | assumption | simp) (mGate : M .gate := by first | assumption | simp)
    (mLogic : M .logic := by first | assumption | simp) (mFio : M .fio := by first | assumption | simp)
    (mCapt : M .capt := by first | assumption | simp) (mLog : M .log := by first | assumption | simp) (mNet : M .net := by first | assumption | simp)
    (mPtp : M .ptp := by first | assumption | simp) (mHost : M .host := by first | assumption | simp)
    (mAdeid : M .adeid := by first | assumption | simp) (mDiag : M .diag := by first | assumption | simp) :
    Kept M a (State.instantiate s) := by
  unfold State.instantiate
  with_reducible repeat' first
    | assumption
    | intro _
    | extract_lets
    | apply State.onSys_kept
    | apply State.raise_kept
    | apply State.reach_kept
    | apply State.makeAll_kept
    | apply State.xrefUnused_kept
    | apply State.startMoves_kept
    | apply State.report_kept
  all_goals first | assumption | exact h.same rfl rfl rfl rfl

theorem State.clearStructure_kept (h : Kept M a s) (mTide : M .tide := by first | assumption | simp) (mAcq : M .acq := by first | assumption | simp)
    (mProt : M .prot := by first | assumption | simp) (mDiff : M .diff := by first | assumption | simp) (mForm : M .form := by first | assumption | simp) (mGate : M .gate := by first | assumption | simp)
    (mLogic : M .logic := by first | assumption | simp) (mFio : M .fio := by first | assumption | simp) (mCapt : M .capt := by first | assumption | simp) (mNet : M .net := by first | assumption | simp)
    (mPtp : M .ptp := by first | assumption | simp) (mAdeid : M .adeid := by first | assumption | simp) :
    Kept M a (State.clearStructure s) := by
  unfold State.clearStructure
  exact h.anew rfl (SecKept.refl _) (.inr rfl) (.inl List.length_replicate)

theorem State.structureRestart_kept (h : Kept M a s) (mFresh : M .fresh := by first | assumption | simp) (mSys : M .sys := by first | assumption | simp)
    (mClk : M .clk := by first | assumption | simp) (mTide : M .tide := by first | assumption | simp) (mAcq : M .acq := by first | assumption | simp) (mProt : M .prot := by first | assumption | simp)
    (mDiff : M .diff := by first | assumption | simp) (mForm : M .form := by first | assumption | simp) (mGate : M .gate := by first | assumption | simp) (mLogic : M .logic := by first | assumption | simp)
    (mFio : M .fio := by first | assumption | simp) (mCapt : M .capt := by first | assumption | simp) (mLog : M .log := by first | assumption | simp) (mNet : M .net := by first | assumption | simp)
    (mPtp : M .ptp := by first | assumption | simp) (mHost : M .host := by first | assumption | simp) (mAdeid : M .adeid := by first | assumption | simp) (mDiag : M .diag := by first | assumption | simp) :
    Kept M a (State.structureRestart s) := by
  unfold State.structureRestart
  with_reducible repeat' first
    | assumption
    | intro _
    | extract_lets
    | apply State.onAdeid_kept
    | apply State.closeDoors_kept
    | apply State.clearStructure_kept
    | apply State.onSys_kept
    | apply State.instantiate_kept
    | apply State.raise_kept
    | apply State.onHost_kept

theorem State.takeSnap_kept (who : Requester) (off : Nat) (v : Word) (h : Kept M a s) (mSnaps : M .snaps := by first | assumption | simp) :
    Kept M a (State.takeSnap s who off v) := by
  unfold State.takeSnap
  all_goals first | exact h.same rfl rfl rfl rfl

theorem State.takeGroup_kept (who : Requester) (b : Blk) (o : Nat) (h : Kept M a s) (mSnaps : M .snaps := by first | assumption | simp) :
    Kept M a (State.takeGroup s who b o) := by
  unfold State.takeGroup
  with_reducible repeat' first | assumption | intro _ | apply State.forEach_kept | apply State.takeSnap_kept

theorem State.noteLogRead_kept (who : Requester) (b : Blk) (o : Nat) (h : Kept M a s) (mSnaps : M .snaps := by first | assumption | simp) :
    Kept M a (State.noteLogRead s who b o) := by
  unfold State.noteLogRead
  with_reducible repeat' first | assumption | intro _ | apply State.when_kept | apply State.takeSnap_kept

theorem State.readSnap_kept (who : Requester) (b : Blk) (o : Nat) (h : Kept M a s) (mSnaps : M .snaps := by first | assumption | simp) :
    Kept M a (State.readSnap s who b o).2 := by
  unfold State.readSnap
  with_reducible repeat' first
    | assumption
    | intro _
    | extract_lets
    | apply State.noteLogRead_kept
    | apply State.takeGroup_kept
    | apply Kept.ite
    | split

theorem State.rejected_kept (b : Bool) (r : Reject) (h : Kept M a s) (mLog : M .log := by first | assumption | simp) (mSec : M .sec := by first | assumption | simp)
    (mChk : M .chk := by first | assumption | simp) :
    Kept M a (State.rejected s b r) := by
  unfold State.rejected
  extract_lets bad t u
  have hu : Kept M a u := State.onSec_kept (State.forEach_kept (fun _ _ k => State.pathFail_kept _ k) _ h) (SecKept.setSlot _ _ _)
  exact Kept.ite (fun _ => State.report_kept _ _ _ hu) fun _ => State.report_kept _ _ _ (State.raise_kept _ _ hu)

theorem State.verifySlot_kept (b : Bool) (h : Kept M a s) (mLog : M .log := by first | assumption | simp) (mSec : M .sec := by first | assumption | simp)
    (mChk : M .chk := by first | assumption | simp) :
    Kept M a (State.verifySlot s b) := by
  unfold State.verifySlot
  split
  · exact State.rejected_kept _ _ h
  · exact State.onSec_kept h (SecKept.setSlot _ _ _)

theorem State.setLive_kept (b : Bool) (h : Kept M a s) (mSec : M .sec := by first | assumption | simp) : Kept M a (State.setLive s b) := by
  unfold State.setLive
  with_reducible repeat' first | assumption | intro _ | extract_lets | apply State.onSec_kept
  all_goals first | exact SecKept.same rfl rfl rfl rfl rfl

theorem State.goBare_kept (h : Kept M a s) (mManifest : M .manifest := by first | assumption | simp) (mSys : M .sys := by first | assumption | simp)
    (mTide : M .tide := by first | assumption | simp) (mAcq : M .acq := by first | assumption | simp) (mProt : M .prot := by first | assumption | simp) (mDiff : M .diff := by first | assumption | simp)
    (mForm : M .form := by first | assumption | simp) (mGate : M .gate := by first | assumption | simp) (mLogic : M .logic := by first | assumption | simp) (mFio : M .fio := by first | assumption | simp)
    (mCapt : M .capt := by first | assumption | simp) (mLog : M .log := by first | assumption | simp) (mNet : M .net := by first | assumption | simp) (mPtp : M .ptp := by first | assumption | simp)
    (mHost : M .host := by first | assumption | simp) (mAdeid : M .adeid := by first | assumption | simp) (mSec : M .sec := by first | assumption | simp) :
    Kept M a (State.goBare s) := by
  unfold State.goBare
  extract_lets t1 t2 t3 t4 t5
  have h1 : Kept M a t1 := State.clearStructure_kept (State.closeDoors_kept _ h)
  clear_value t1
  have h2 : Kept M a t2 := State.forEach_kept (fun _ _ k => State.onGroup_kept _ _ k) _ h1
  clear_value t2
  have h3 : Kept M a t3 := State.onSec_kept h2 (SecKept.same rfl rfl rfl rfl rfl)
  clear_value t3
  have h4 : Kept M a t4 := h3.same rfl rfl rfl rfl
  clear_value t4
  have h5 : Kept M a t5 := State.onHost_kept (State.reach_kept _ (State.onSys_kept h4 _)) fun _ k => k
  exact State.report_kept _ _ _ (State.raise_kept _ _ h5)

theorem State.setKey_kept (c : KeyCert) (h : Kept M a s) (mLog : M .log := by first | assumption | simp) (mSec : M .sec := by first | assumption | simp) :
    Kept M a (State.setKey s c) := by
  unfold State.setKey
  with_reducible repeat' first | assumption | intro _ | extract_lets | apply State.onSec_kept | apply State.report_kept | apply State.raise_kept
  all_goals first | assumption | exact SecKept.same rfl rfl rfl rfl rfl

theorem State.onProposal_kept (i : Nat) (f : Proposal → Proposal) (h : Kept M a s) (mSec : M .sec := by first | assumption | simp) :
    Kept M a (State.onProposal s i f) := by
  unfold State.onProposal
  with_reducible repeat' first | assumption | intro _ | apply State.onSec_kept
  all_goals first | exact SecKept.same rfl rfl rfl rfl rfl

theorem State.secRecord_kept (bit : Nat) (r : Rec) (p : Proposal) (h : Kept M a s) (mLog : M .log := by first | assumption | simp) (mSec : M .sec := by first | assumption | simp) :
    Kept M a (State.secRecord s bit r p) := by
  unfold State.secRecord
  with_reducible repeat' first | assumption | apply State.report_kept | apply State.raise_kept

theorem State.lockStages_kept (p : Proposal) (on : Bool) (h : Kept M a s) (mAcq : M .acq := by first | assumption | simp) :
    Kept M a (State.lockStages s p on) := by
  unfold State.lockStages
  with_reducible repeat' first | assumption | intro _ | apply State.forEach_kept | apply State.onAin_kept

theorem State.endProposal_kept (i : Nat) (e : PropEnd) (h : Kept M a s) (mAcq : M .acq := by first | assumption | simp) (mSec : M .sec := by first | assumption | simp) :
    Kept M a (State.endProposal s i e) := by
  unfold State.endProposal
  with_reducible repeat' first | assumption | intro _ | apply State.onProposal_kept | apply State.lockStages_kept

theorem State.lapse_kept (i : Nat) (e : PropEnd) (h : Kept M a s) (mAcq : M .acq := by first | assumption | simp) (mLog : M .log := by first | assumption | simp)
    (mSec : M .sec := by first | assumption | simp) :
    Kept M a (State.lapse s i e) := by
  unfold State.lapse
  with_reducible repeat' first | assumption | apply State.secRecord_kept | apply State.endProposal_kept

theorem State.lapseAll_kept (h : Kept M a s) (mAcq : M .acq := by first | assumption | simp) (mLog : M .log := by first | assumption | simp) (mHost : M .host := by first | assumption | simp)
    (mSec : M .sec := by first | assumption | simp) :
    Kept M a (State.lapseAll s) := by
  unfold State.lapseAll
  with_reducible repeat' first
    | assumption
    | intro _
    | extract_lets
    | apply State.forEach_kept
    | apply State.lapse_kept
    | apply State.refuseItem_kept
    | apply Kept.ite
    | split

theorem State.stopWindow_kept (id : BitVec 64) (b : Nat) (h : Kept M a s) (mSec : M .sec := by first | assumption | simp) :
    Kept M a (State.stopWindow s id b) := by
  unfold State.stopWindow
  with_reducible repeat' first | assumption | intro _ | apply State.onProposal_kept | apply Kept.ite | split

theorem State.confirmFailed_kept (id : BitVec 64) (b : Nat) (h : Kept M a s) (mAcq : M .acq := by first | assumption | simp) (mLog : M .log := by first | assumption | simp)
    (mSec : M .sec := by first | assumption | simp) :
    Kept M a (State.confirmFailed s id b) := by
  unfold State.confirmFailed
  with_reducible repeat' first | assumption | intro _ | extract_lets | apply State.onProposal_kept | apply State.lapse_kept | apply Kept.ite | split

theorem State.consume_kept (i : PropItem) (good : Bool) (h : Kept M a s) (mSec : M .sec := by first | assumption | simp) :
    Kept M a (State.consume s i good) := by
  unfold State.consume
  refine State.raise_kept _ _ (State.onSec_kept h ?_)
  split
  · exact ⟨fun _ => rfl, le_rfl, le_rfl, Nat.sub_le _ _, fun _ => le_rfl⟩
  · rename_i c
    refine ⟨fun _ => rfl, le_rfl, le_rfl, le_rfl, fun k => ?_⟩
    simp only [nth, updAt, List.getElem?_modify]
    cases s.sec.tallyKey[k]? with
    | none => simp
    | some v => by_cases e : c.slot = k <;> simp [e]
  · split <;> exact SecKept.same rfl rfl rfl rfl rfl

theorem State.commitRefused_kept (i : Nat) (kz : Nat) (h : Kept M a s) (mAcq : M .acq := by first | assumption | simp) (mLog : M .log := by first | assumption | simp)
    (mHost : M .host := by first | assumption | simp) (mSec : M .sec := by first | assumption | simp) :
    Kept M a (State.commitRefused s i kz) := by
  unfold State.commitRefused
  with_reducible repeat' first
    | assumption
    | extract_lets
    | apply State.secRecord_kept
    | apply State.endProposal_kept
    | apply State.endItem_kept
    | apply State.refuseItem_kept
    | split

theorem State.persist_kept (p : Proposal) (h : Kept M a s) (mSec : M .sec := by first | assumption | simp) : Kept M a (State.persist s p) := by
  unfold State.persist
  exact State.onSec_kept h (SecKept.setSlot _ _ _)

theorem State.renumber_kept (n : Nat) (h : Kept M a s) (mFresh : M .fresh := by first | assumption | simp)
    (mManifest : M .manifest := by first | assumption | simp) (mSys : M .sys := by first | assumption | simp)
    (mClk : M .clk := by first | assumption | simp) (mTide : M .tide := by first | assumption | simp) (mAcq : M .acq := by first | assumption | simp)
    (mProt : M .prot := by first | assumption | simp) (mDiff : M .diff := by first | assumption | simp)
    (mForm : M .form := by first | assumption | simp) (mGate : M .gate := by first | assumption | simp)
    (mLogic : M .logic := by first | assumption | simp) (mFio : M .fio := by first | assumption | simp)
    (mCapt : M .capt := by first | assumption | simp) (mLog : M .log := by first | assumption | simp) (mNet : M .net := by first | assumption | simp)
    (mPtp : M .ptp := by first | assumption | simp) (mChk : M .chk := by first | assumption | simp) (mHost : M .host := by first | assumption | simp)
    (mAdeid : M .adeid := by first | assumption | simp) (mSec : M .sec := by first | assumption | simp)
    (mDiag : M .diag := by first | assumption | simp) :
    Kept M a (State.renumber s n) := by
  unfold State.renumber
  with_reducible repeat' first
    | assumption
    | intro _
    | extract_lets
    | apply State.onSec_kept
    | apply State.report_kept
    | apply State.rejected_kept
    | apply State.goBare_kept
    | apply State.structureRestart_kept
    | apply Kept.ite
    | split
  all_goals first | assumption | exact .same rfl rfl rfl rfl rfl

theorem State.applyItem_kept (p : Proposal) (bankAGood : Bool) (i : PropItem) (h : Kept M a s) (mFresh : M .fresh := by first | assumption | simp)
    (mManifest : M .manifest := by first | assumption | simp) (mSys : M .sys := by first | assumption | simp) (mClk : M .clk := by first | assumption | simp) (mTide : M .tide := by first | assumption | simp)
    (mAcq : M .acq := by first | assumption | simp) (mProt : M .prot := by first | assumption | simp) (mDiff : M .diff := by first | assumption | simp) (mForm : M .form := by first | assumption | simp)
    (mGate : M .gate := by first | assumption | simp) (mLogic : M .logic := by first | assumption | simp) (mFio : M .fio := by first | assumption | simp) (mCapt : M .capt := by first | assumption | simp)
    (mLog : M .log := by first | assumption | simp) (mNet : M .net := by first | assumption | simp) (mPtp : M .ptp := by first | assumption | simp) (mHost : M .host := by first | assumption | simp)
    (mAdeid : M .adeid := by first | assumption | simp) (mSec : M .sec := by first | assumption | simp) (mDiag : M .diag := by first | assumption | simp)
    (mChk : M .chk := by first | assumption | simp) :
    Kept M a (State.applyItem s p bankAGood i) := by
  unfold State.applyItem
  extract_lets t
  have ht : Kept M a t := Kept.same h rfl rfl rfl rfl
  clear_value t
  cases i with
  | zoneSetting z =>
    dsimp only
    split
    · exact State.onDiff_kept ht _
    · exact ht
  | unitSetting u => exact State.onForm_kept ht _
  | acqSwap c => exact State.commitSwap_kept _ ht
  | laneRestore l => exact State.startKat_kept _ (State.onLane_kept _ _ ht)
  | logicExchange =>
    dsimp only
    split
    · rename_i g _
      exact Kept.same (State.commitExchange_kept g.prog ht) rfl rfl rfl rfl
    · exact ht
  | logClear => exact State.logClear_kept _ _ _ _ ht
  | keyReplace c => exact State.setKey_kept _ ht
  | deviceNumber n => exact State.renumber_kept _ ht
  | _ => exact ht

theorem State.commitProposal_kept (i : Nat) (fuseBad : Bool) (bankAGood : Bool) (h : Kept M a s) (mFresh : M .fresh := by first | assumption | simp)
    (mManifest : M .manifest := by first | assumption | simp) (mSys : M .sys := by first | assumption | simp) (mClk : M .clk := by first | assumption | simp) (mTide : M .tide := by first | assumption | simp)
    (mAcq : M .acq := by first | assumption | simp) (mProt : M .prot := by first | assumption | simp) (mDiff : M .diff := by first | assumption | simp) (mForm : M .form := by first | assumption | simp)
    (mGate : M .gate := by first | assumption | simp) (mLogic : M .logic := by first | assumption | simp) (mFio : M .fio := by first | assumption | simp) (mCapt : M .capt := by first | assumption | simp)
    (mLog : M .log := by first | assumption | simp) (mNet : M .net := by first | assumption | simp) (mPtp : M .ptp := by first | assumption | simp) (mHost : M .host := by first | assumption | simp)
    (mAdeid : M .adeid := by first | assumption | simp) (mSec : M .sec := by first | assumption | simp) (mDiag : M .diag := by first | assumption | simp)
    (mChk : M .chk := by first | assumption | simp) :
    Kept M a (State.commitProposal s i fuseBad bankAGood) := by
  unfold State.commitProposal
  with_reducible repeat' first
    | assumption
    | intro _
    | extract_lets
    | apply State.commitRefused_kept
    | apply State.forEach_kept
    | apply State.consume_kept
    | apply State.report_kept
    | apply State.persist_kept
    | apply State.secRecord_kept
    | apply State.endProposal_kept
    | apply State.done_kept
    | apply State.applyItem_kept
    | split
    | (dsimp +zetaDelta only; split)

theorem State.commitBoundary_kept (fuseBad : List Nat) (bankAGood : Bool) (h : Kept M a s) (mFresh : M .fresh := by first | assumption | simp)
    (mManifest : M .manifest := by first | assumption | simp) (mSys : M .sys := by first | assumption | simp)
    (mClk : M .clk := by first | assumption | simp) (mTide : M .tide := by first | assumption | simp) (mAcq : M .acq := by first | assumption | simp)
    (mProt : M .prot := by first | assumption | simp) (mDiff : M .diff := by first | assumption | simp)
    (mForm : M .form := by first | assumption | simp) (mGate : M .gate := by first | assumption | simp)
    (mLogic : M .logic := by first | assumption | simp) (mFio : M .fio := by first | assumption | simp)
    (mCapt : M .capt := by first | assumption | simp) (mLog : M .log := by first | assumption | simp) (mNet : M .net := by first | assumption | simp)
    (mPtp : M .ptp := by first | assumption | simp) (mChk : M .chk := by first | assumption | simp) (mHost : M .host := by first | assumption | simp)
    (mAdeid : M .adeid := by first | assumption | simp) (mSec : M .sec := by first | assumption | simp)
    (mDiag : M .diag := by first | assumption | simp) :
    Kept M a (State.commitBoundary s fuseBad bankAGood) := by
  unfold State.commitBoundary
  with_reducible repeat' first
    | assumption
    | intro _
    | extract_lets
    | apply State.forEach_kept
    | apply State.commitProposal_kept
    | apply Kept.ite

theorem State.reloadProt_kept (h : Kept M a s) (mProt : M .prot := by first | assumption | simp) : Kept M a (State.reloadProt s) := by
  unfold State.reloadProt
  with_reducible repeat' first | assumption | intro _ | extract_lets | apply State.onProt_kept

theorem State.reloadMarks_kept (old : LogicCfg) (h : Kept M a s) (mTide : M .tide := by first | assumption | simp) (mFio : M .fio := by first | assumption | simp)
    (mLog : M .log := by first | assumption | simp) :
    Kept M a (State.reloadMarks s old) := by
  unfold State.reloadMarks
  with_reducible repeat' first
    | assumption
    | intro _
    | extract_lets
    | apply State.forEach_kept
    | apply State.onMark_kept
    | apply State.when_kept
    | apply State.armMark_kept
    | apply State.markPast_kept
    | apply Kept.ite

theorem State.reloadLogic_kept (old : LogicCfg) (h : Kept M a s) (mLogic : M .logic := by first | assumption | simp)
    (mLog : M .log := by first | assumption | simp) (mChk : M .chk := by first | assumption | simp) :
    Kept M a (State.reloadLogic s old) := by
  unfold State.reloadLogic
  with_reducible repeat' first
    | assumption
    | intro _
    | extract_lets
    | apply State.when_kept
    | apply State.commitExchange_kept
    | apply State.makeLogicBlock_kept
    | apply State.startLogic_kept
    | apply Kept.ite

theorem State.reloadNet_kept (h : Kept M a s) (mLog : M .log := by first | assumption | simp) (mNet : M .net := by first | assumption | simp) (mPtp : M .ptp := by first | assumption | simp)
    (mAdeid : M .adeid := by first | assumption | simp) :
    Kept M a (State.reloadNet s) := by
  unfold State.reloadNet
  with_reducible repeat' first
    | assumption
    | intro _
    | extract_lets
    | apply State.makePtp_kept
    | apply State.makeNet_kept
    | apply State.closeDoors_kept
    | apply State.when_kept
    | apply State.startGoose_kept
    | apply State.onNet_kept
    | apply State.scheduleDoors_kept

theorem State.keepRings_kept (p : ChanRef → Bool) (h : Kept M a s) (mProt : M .prot := by first | assumption | simp) :
    Kept M a (State.keepRings s p) := by
  unfold State.keepRings
  with_reducible repeat' first | assumption | intro _ | extract_lets | apply State.onLane_kept

theorem State.reloadSections_kept (b : Bool) (h : Kept M a s) (mFresh : M .fresh := by first | assumption | simp)
    (mManifest : M .manifest := by first | assumption | simp) (mTide : M .tide := by first | assumption | simp)
    (mAcq : M .acq := by first | assumption | simp) (mProt : M .prot := by first | assumption | simp)
    (mDiff : M .diff := by first | assumption | simp) (mForm : M .form := by first | assumption | simp)
    (mGate : M .gate := by first | assumption | simp) (mLogic : M .logic := by first | assumption | simp)
    (mFio : M .fio := by first | assumption | simp) (mCapt : M .capt := by first | assumption | simp) (mLog : M .log := by first | assumption | simp)
    (mNet : M .net := by first | assumption | simp) (mPtp : M .ptp := by first | assumption | simp) (mChk : M .chk := by first | assumption | simp)
    (mAdeid : M .adeid := by first | assumption | simp) (mDiag : M .diag := by first | assumption | simp) :
    Kept M a (State.reloadSections s b) := by
  unfold State.reloadSections
  with_reducible repeat' first
    | assumption
    | intro _
    | extract_lets
    | apply State.onAcq_kept
    | apply State.when_kept
    | apply State.forEach_kept
    | apply State.make_kept
    | apply State.makeAcq_kept
    | apply State.keepRings_kept
    | apply State.reloadProt_kept
    | apply State.makeDiff_kept
    | apply State.makeGate_kept
    | apply State.makeForm_kept
    | apply State.reloadMarks_kept
    | apply State.reloadLogic_kept
    | apply State.makeFioGroup_kept
    | apply State.makeCapt_kept
    | apply State.makeLog_kept
    | apply State.reloadNet_kept
  all_goals first | assumption | exact h.same rfl rfl rfl rfl

theorem State.leaveBare_kept (h : Kept M a s) (mFresh : M .fresh := by first | assumption | simp) (mSys : M .sys := by first | assumption | simp)
    (mClk : M .clk := by first | assumption | simp) (mTide : M .tide := by first | assumption | simp) (mAcq : M .acq := by first | assumption | simp) (mProt : M .prot := by first | assumption | simp)
    (mDiff : M .diff := by first | assumption | simp) (mForm : M .form := by first | assumption | simp) (mGate : M .gate := by first | assumption | simp) (mLogic : M .logic := by first | assumption | simp)
    (mFio : M .fio := by first | assumption | simp) (mCapt : M .capt := by first | assumption | simp) (mLog : M .log := by first | assumption | simp) (mNet : M .net := by first | assumption | simp)
    (mPtp : M .ptp := by first | assumption | simp) (mHost : M .host := by first | assumption | simp) (mAdeid : M .adeid := by first | assumption | simp) (mDiag : M .diag := by first | assumption | simp) :
    Kept M a (State.leaveBare s) := by
  unfold State.leaveBare
  with_reducible repeat' first | assumption | intro _ | apply State.instantiate_kept | apply State.onSys_kept

theorem State.activate_kept (az : Activation) (h : Kept M a s) (mFresh : M .fresh := by first | assumption | simp) (mManifest : M .manifest := by first | assumption | simp)
    (mSys : M .sys := by first | assumption | simp) (mClk : M .clk := by first | assumption | simp) (mTide : M .tide := by first | assumption | simp) (mAcq : M .acq := by first | assumption | simp)
    (mProt : M .prot := by first | assumption | simp) (mDiff : M .diff := by first | assumption | simp) (mForm : M .form := by first | assumption | simp) (mGate : M .gate := by first | assumption | simp)
    (mLogic : M .logic := by first | assumption | simp) (mFio : M .fio := by first | assumption | simp) (mCapt : M .capt := by first | assumption | simp) (mLog : M .log := by first | assumption | simp)
    (mNet : M .net := by first | assumption | simp) (mPtp : M .ptp := by first | assumption | simp) (mHost : M .host := by first | assumption | simp) (mAdeid : M .adeid := by first | assumption | simp)
    (mSec : M .sec := by first | assumption | simp) (mDiag : M .diag := by first | assumption | simp)
    (mChk : M .chk := by first | assumption | simp) :
    Kept M a (State.activate s az) := by
  have bare : ∀ (t : State) (b : Bool) (m : Manifest), Kept M a t →
      Kept M a (if b then { t with manifest := m }.leaveBare else { t with manifest := m }.structureRestart) := by
    intro t b m ht
    have hm : Kept M a { t with manifest := m } := Kept.same ht rfl rfl rfl rfl
    exact Kept.ite (fun _ => State.leaveBare_kept hm) fun _ => State.structureRestart_kept hm
  unfold State.activate
  split
  · exact State.refuseItem_kept _ _ _ h
  · have ht : Kept M a s.lapseAll := State.lapseAll_kept h
    exact State.done_kept _ _ (State.report_kept _ _ _ (State.raise_kept _ _
      (Kept.ite (fun _ => bare _ _ _ (State.setLive_kept _ ht)) fun _ => State.setLive_kept _ (State.reloadSections_kept _ ht))))

theorem State.promoted_kept (need : Nat) (h : Kept M a s) (mLog : M .log := by first | assumption | simp) (mSec : M .sec := by first | assumption | simp)
    (mChk : M .chk := by first | assumption | simp) :
    Kept M a (State.promoted s need) := by
  unfold State.promoted
  refine State.report_kept _ _ _ (State.when_kept (State.onSec_kept h ?_) fun _ k => State.verifySlot_kept _ k)
  exact ⟨fun _ => rfl, Nat.le_add_right _ _, le_rfl, le_rfl, fun _ => le_rfl⟩

theorem execProvisionRoot_kept (b : Nat) (h : Kept M a s) (mLog : M .log := by first | assumption | simp) (mHost : M .host := by first | assumption | simp)
    (mSec : M .sec := by first | assumption | simp) :
    KeptOut M a (execProvisionRoot b s) := by
  refine KeptOut.next ?_
  split
  · unfold State.runCtl
    split
    · exact State.refuseItem_kept _ _ _ (State.leaveCtl_kept _ h)
    · rename_i e
      have n : s.sec.root = none := by
        unfold State.refuseRoot at e
        split at e
        · cases e
        · exact Option.not_isSome_iff_eq_none.mp ‹_›
      refine State.done_kept _ _ (State.report_kept _ _ _ (State.onSec_kept (State.leaveCtl_kept _ h) ?_))
      refine ⟨fun r => ?_, le_rfl, le_rfl, le_rfl, fun _ => le_rfl⟩
      have : (s.leaveCtl b).sec.root = none := n
      rw [this] at r
      cases r
  · exact h

theorem execKeyInstall_kept (b : Nat) (h : Kept M a s) (mLog : M .log := by first | assumption | simp) (mHost : M .host := by first | assumption | simp)
    (mSec : M .sec := by first | assumption | simp) :
    KeptOut M a (execKeyInstall b s) := by
  unfold execKeyInstall
  with_reducible repeat' first
    | assumption
    | intro _
    | apply State.runCtl_kept
    | apply State.done_kept
    | apply State.setKey_kept
    | apply KeptOut.next
    | apply KeptOut.fault
    | split

theorem execManifestLoad_kept (b : Nat) (h : Kept M a s) (mLog : M .log := by first | assumption | simp) (mHost : M .host := by first | assumption | simp)
    (mSec : M .sec := by first | assumption | simp) :
    KeptOut M a (execManifestLoad b s) := by
  refine KeptOut.next ?_
  split
  · exact State.runCtl_kept _ _ _ h fun _ k => State.done_kept _ _ (State.onSec_kept k (.setSlot ..))
  · exact h

theorem execManifestVerifyDone_kept (slotB : Bool) (h : Kept M a s) (mLog : M .log := by first | assumption | simp)
    (mChk : M .chk := by first | assumption | simp) (mSec : M .sec := by first | assumption | simp) :
    KeptOut M a (execManifestVerifyDone slotB s) := by
  unfold execManifestVerifyDone
  with_reducible repeat' first
    | assumption
    | apply KeptOut.next
    | intro _
    | extract_lets
    | apply State.when_kept
    | apply State.verifySlot_kept
    | apply State.report_kept
    | apply Kept.ite

theorem execManifestActivate_kept (b : Nat) (h : Kept M a s) (mLog : M .log := by first | assumption | simp) (mHost : M .host := by first | assumption | simp)
    (mSec : M .sec := by first | assumption | simp) :
    KeptOut M a (execManifestActivate b s) := by
  unfold execManifestActivate
  with_reducible repeat' first
    | assumption
    | intro _
    | apply State.runCtl_kept
    | apply State.toTarget_kept
    | apply State.onSec_kept
    | apply KeptOut.next
    | apply KeptOut.fault
    | split
  all_goals first | exact SecKept.same rfl rfl rfl rfl rfl

theorem execManifestActivateEffect_kept (h : Kept M a s) (mFresh : M .fresh := by first | assumption | simp)
    (mManifest : M .manifest := by first | assumption | simp) (mSys : M .sys := by first | assumption | simp)
    (mClk : M .clk := by first | assumption | simp) (mTide : M .tide := by first | assumption | simp) (mAcq : M .acq := by first | assumption | simp)
    (mProt : M .prot := by first | assumption | simp) (mDiff : M .diff := by first | assumption | simp)
    (mForm : M .form := by first | assumption | simp) (mGate : M .gate := by first | assumption | simp)
    (mLogic : M .logic := by first | assumption | simp) (mFio : M .fio := by first | assumption | simp)
    (mCapt : M .capt := by first | assumption | simp) (mLog : M .log := by first | assumption | simp) (mNet : M .net := by first | assumption | simp)
    (mPtp : M .ptp := by first | assumption | simp) (mChk : M .chk := by first | assumption | simp) (mHost : M .host := by first | assumption | simp)
    (mAdeid : M .adeid := by first | assumption | simp) (mSec : M .sec := by first | assumption | simp)
    (mDiag : M .diag := by first | assumption | simp) :
    KeptOut M a (execManifestActivateEffect s) := by
  unfold execManifestActivateEffect
  with_reducible repeat' first
    | assumption
    | apply KeptOut.next
    | intro _
    | extract_lets
    | apply State.onSec_kept
    | apply State.activate_kept
    | apply Kept.ite
    | split
  all_goals first | assumption | exact .same rfl rfl rfl rfl rfl

theorem execManifestPromote_kept (b : Nat) (fuses : Nat) (h : Kept M a s) (mLog : M .log := by first | assumption | simp) (mHost : M .host := by first | assumption | simp)
    (mSec : M .sec := by first | assumption | simp)
    (mChk : M .chk := by first | assumption | simp) :
    KeptOut M a (execManifestPromote b fuses s) := by
  refine KeptOut.next ?_
  split
  · refine State.runCtl_kept _ _ _ h fun s k => Kept.ite (fun _ => ?_) fun _ => Kept.ite (fun _ => ?_) fun _ => ?_
    · exact State.refuseItem_kept _ _ _ (State.report_kept _ _ _ (State.raise_kept _ _ (State.onSec_kept k
        ⟨fun _ => rfl, le_rfl, Nat.sub_le _ _, le_rfl, fun _ => le_rfl⟩)))
    · refine State.done_kept _ _ (State.promoted_kept _ (State.when_kept (State.onSec_kept (State.verifySlot_kept _
        (State.onSec_kept k (.same rfl rfl rfl rfl rfl))) ?_) fun _ k => State.raise_kept _ _ k))
      exact ⟨fun _ => rfl, le_rfl, Nat.sub_le _ _, le_rfl, fun _ => le_rfl⟩
    · exact State.failed_kept _ _ (State.verifySlot_kept _ (State.onSec_kept k (.same rfl rfl rfl rfl rfl)))
  · exact h

theorem execPropose_kept (b : Nat) (h : Kept M a s) (mAcq : M .acq := by first | assumption | simp) (mLog : M .log := by first | assumption | simp)
    (mHost : M .host := by first | assumption | simp) (mSec : M .sec := by first | assumption | simp) :
    KeptOut M a (execPropose b s) := by
  unfold execPropose
  with_reducible repeat' first
    | assumption
    | intro _
    | extract_lets
    | apply State.runCtl_kept
    | apply State.onProposal_kept
    | apply State.done_kept
    | apply State.secRecord_kept
    | apply State.lockStages_kept
    | apply KeptOut.next
    | apply KeptOut.fault
    | split

theorem execConfirm_kept (b : Nat) (h : Kept M a s) (mAcq : M .acq := by first | assumption | simp) (mLog : M .log := by first | assumption | simp)
    (mHost : M .host := by first | assumption | simp) (mSec : M .sec := by first | assumption | simp) :
    KeptOut M a (execConfirm b s) := by
  unfold execConfirm
  with_reducible repeat' first
    | assumption
    | intro _
    | extract_lets
    | apply State.runCtl_kept
    | apply State.confirmFailed_kept
    | apply State.report_kept
    | apply State.failed_kept
    | apply State.onProposal_kept
    | apply State.toTarget_kept
    | apply State.secRecord_kept
    | apply KeptOut.next
    | apply KeptOut.fault
    | apply KeptOut.ite
    | apply Kept.ite
    | split

theorem execProposeWithdraw_kept (b : Nat) (h : Kept M a s) (mAcq : M .acq := by first | assumption | simp) (mLog : M .log := by first | assumption | simp)
    (mHost : M .host := by first | assumption | simp) (mSec : M .sec := by first | assumption | simp) :
    KeptOut M a (execProposeWithdraw b s) := by
  unfold execProposeWithdraw
  with_reducible repeat' first
    | assumption
    | intro _
    | apply State.runCtl_kept
    | apply State.done_kept
    | apply State.lapse_kept
    | apply KeptOut.next
    | apply KeptOut.fault
    | split

theorem execProposalWindowLapse_kept (p : Nat) (h : Kept M a s) (mAcq : M .acq := by first | assumption | simp) (mLog : M .log := by first | assumption | simp)
    (mSec : M .sec := by first | assumption | simp) :
    KeptOut M a (execProposalWindowLapse p s) := by
  unfold execProposalWindowLapse
  with_reducible repeat' first
    | assumption
    | intro _
    | apply State.lapse_kept
    | apply KeptOut.next
    | apply KeptOut.fault
    | apply KeptOut.ite
    | apply Kept.ite

end Sys2Proof.Machine
end

