-- ==== Sys2Proof/Laws/KeptHost.lean ====
section
/-! SUPPORT. What is kept, one lemma per operation: registers, boot and reset, and the host interface. -/

namespace Sys2Proof.Machine

set_option Elab.async false

open Sys2Proof

variable {M : Part → Prop} {a s : State}

theorem inBar0_kept (off : Nat) (h : Kept M a s) : KeptOut M a (inBar0 off s) := by
  unfold inBar0
  with_reducible repeat' first | assumption | intro _ | apply KeptOut.next | apply KeptOut.fault | apply KeptOut.ite

theorem State.uplinkBad_kept (br : Nat) (check : Bool) (h : Kept M a s) (mGate : M .gate := by first | assumption | simp) (mChk : M .chk := by first | assumption | simp) :
    Kept M a (State.uplinkBad s br check) := by
  unfold State.uplinkBad
  with_reducible repeat' first
    | assumption
    | intro _
    | extract_lets
    | apply State.raise_kept
    | apply State.onGateLink_kept
    | apply State.when_kept
    | apply State.pathFail_kept

theorem State.formOverrun_kept (x1 : FormUnit) (h : Kept M a s) (mForm : M .form := by first | assumption | simp) (mCapt : M .capt := by first | assumption | simp)
    (mLog : M .log := by first | assumption | simp) :
    Kept M a (State.formOverrun s x1) := by
  unfold State.formOverrun
  with_reducible repeat' first
    | assumption
    | intro _
    | extract_lets
    | apply State.onUnit_kept
    | apply State.report_kept
    | apply State.raise_kept
    | apply State.when_kept
    | apply State.formBlocked_kept
    | apply Kept.ite

theorem State.newBoundary_kept (x1 : FormUnit) (h : Kept M a s) (mForm : M .form := by first | assumption | simp) (mGate : M .gate := by first | assumption | simp) :
    Kept M a (State.newBoundary s x1) := by
  unfold State.newBoundary
  with_reducible repeat' first
    | assumption
    | intro _
    | extract_lets
    | apply State.forEach_kept
    | apply State.onGateLink_kept
    | apply State.onUnit_kept

theorem State.cursorWrite_kept (hz : Nat) (lo : Word) (h : Kept M a s) (mLog : M .log := by first | assumption | simp) :
    Kept M a (State.cursorWrite s hz lo) := by
  unfold State.cursorWrite
  with_reducible repeat' first | assumption | intro _ | apply State.onLog_kept

theorem State.checkFailed_kept (n : Nat) (h : Kept M a s) (mLog : M .log := by first | assumption | simp)
    (mChk : M .chk := by first | assumption | simp) :
    Kept M a (State.checkFailed s n) := by
  unfold State.checkFailed
  with_reducible repeat' first
    | assumption
    | intro _
    | extract_lets
    | apply State.onLog_kept
    | apply State.raise_kept
    | apply State.pathFail_kept
    | split

theorem State.hostErr_kept (cause : Nat) (bar : Nat) (write : Bool) (node : Nat) (addr : Nat) (h : Kept M a s) (mHost : M .host := by first | assumption | simp) :
    Kept M a (State.hostErr s cause bar write node addr) := by
  unfold State.hostErr
  with_reducible repeat' first | assumption | intro _ | apply State.raise_kept | apply State.onHost_kept

theorem State.accessErr_kept (b : Blk) (write : Bool) (h : Kept M a s) (mClk : M .clk := by first | assumption | simp) :
    Kept M a (State.accessErr s b write) := by
  unfold State.accessErr
  with_reducible repeat' first | assumption | intro _ | apply State.onClk_kept

theorem State.bar0Blocked_kept (off : Nat) (write : Bool) (h : Kept M a s) {t : State} (e : State.bar0Blocked s off write = some t)
    (mClk : M .clk := by first | assumption | simp) (mHost : M .host := by first | assumption | simp) :
    Kept M a t := by
  unfold State.bar0Blocked at e
  dsimp only at e
  split at e
  · cases e
    exact State.answer_kept _ (State.hostErr_kept _ _ _ _ _ (State.accessErr_kept _ _ h))
  · split at e
    · cases e
      exact State.answer_kept _ (State.hostErr_kept _ _ _ _ _ h)
    · cases e

theorem State.noteUninst_kept (b : Blk) (h : Kept M a s) (mSys : M .sys := by first | assumption | simp) : Kept M a (State.noteUninst s b) := by
  unfold State.noteUninst
  with_reducible repeat' first | assumption | intro _ | apply State.raise_kept | apply State.onSys_kept

theorem State.readEffect_kept (b : Blk) (o : Nat) (h : Kept M a s) (mLog : M .log := by first | assumption | simp)
    (mChk : M .chk := by first | assumption | simp) (mHost : M .host := by first | assumption | simp) :
    Kept M a (State.readEffect s b o) := by
  unfold State.readEffect
  with_reducible repeat' first
    | assumption
    | intro _
    | extract_lets
    | apply State.onLog_kept
    | apply State.onHost_kept
    | apply State.forEach_kept
    | apply State.checkFailed_kept
    | apply Kept.ite
    | split
  all_goals first | assumption | exact fun _ k => k | simpa [updAt] using ‹_›

theorem State.readReg_kept (who : Requester) (off : Nat) (h : Kept M a s) (mSys : M .sys := by first | assumption | simp)
    (mLog : M .log := by first | assumption | simp) (mChk : M .chk := by first | assumption | simp) (mHost : M .host := by first | assumption | simp)
    (mSnaps : M .snaps := by first | assumption | simp) :
    Kept M a (State.readReg s who off).2 := by
  unfold State.readReg
  with_reducible repeat' first
    | assumption
    | intro _
    | extract_lets
    | apply State.readSnap_kept
    | apply State.readEffect_kept
    | apply State.noteUninst_kept
    | apply Kept.ite

theorem State.internalRead_kept (who : Requester) (off : Nat) (h : Kept M a s) (mSys : M .sys := by first | assumption | simp)
    (mLog : M .log := by first | assumption | simp) (mChk : M .chk := by first | assumption | simp) (mHost : M .host := by first | assumption | simp)
    (mSnaps : M .snaps := by first | assumption | simp) :
    Kept M a (State.internalRead s who off) := by
  unfold State.internalRead
  with_reducible repeat' first | assumption | intro _ | extract_lets | apply State.answer_kept | apply State.readReg_kept | apply Kept.ite

theorem State.bar0Read_kept (who : Requester) (off : Nat) (h : Kept M a s) (mSys : M .sys := by first | assumption | simp)
    (mClk : M .clk := by first | assumption | simp) (mLog : M .log := by first | assumption | simp) (mChk : M .chk := by first | assumption | simp)
    (mHost : M .host := by first | assumption | simp) (mSnaps : M .snaps := by first | assumption | simp) :
    Kept M a (State.bar0Read s who off) := by
  unfold State.bar0Read
  split
  · split
    · exact State.bar0Blocked_kept _ _ h ‹_›
    · exact State.answer_kept _ (State.readReg_kept _ _ h)
  · exact State.internalRead_kept _ _ h

theorem State.snapWord_kept (off : Nat) (h : Kept M a s) (mSnaps : M .snaps := by first | assumption | simp) : Kept M a (State.snapWord s off).2 := by
  unfold State.snapWord
  with_reducible repeat' first | assumption | intro _ | extract_lets | apply State.readSnap_kept | apply Kept.ite | split

theorem State.snapWords_kept (l : List Nat) (h : Kept M a s) (mSnaps : M .snaps := by first | assumption | simp) : Kept M a (State.snapWords l s).2 := by
  induction l generalizing s with
  | nil => exact h
  | cons o l ih =>
    unfold State.snapWords
    exact ih (State.snapWord_kept _ h)

theorem State.takeRecord_kept (e : Event) (h : Kept M a s) (mSnaps : M .snaps := by first | assumption | simp) : Kept M a (State.takeRecord s e).2 := by
  unfold State.takeRecord
  with_reducible repeat' first | assumption | extract_lets | apply State.snapWords_kept | split

theorem State.countMerge_kept (h : Kept M a s) (mLog : M .log := by first | assumption | simp) : Kept M a (State.countMerge s) := by
  unfold State.countMerge
  with_reducible repeat' first | assumption | intro _ | apply State.onLog_kept

theorem State.logMerge_kept (r : LogRecord) (h : Kept M a s) {t : State} (e : State.logMerge s r = some t) (mLog : M .log := by first | assumption | simp) :
    Kept M a t := by
  unfold State.logMerge at e
  split at e
  · cases e
  · split at e
    · split at e
      · cases e
        exact State.countMerge_kept (State.onLog_kept h _)
      · cases e
    · split at e
      · cases e
      · split at e
        · cases e
          refine State.when_kept (State.countMerge_kept (State.onLog_kept ?_ _)) fun _ k => State.onLog_kept k _
          exact Kept.ite (fun _ => State.closeTail_kept _ h) fun _ => h
        · cases e

theorem State.logTake_kept (e : Event) (h : Kept M a s) (mLog : M .log := by first | assumption | simp) (mSnaps : M .snaps := by first | assumption | simp) :
    Kept M a (State.logTake s e) := by
  unfold State.logTake
  refine Kept.ite (fun _ => State.onLog_kept h _) fun _ => Kept.ite (fun _ => State.onLog_kept h _) fun _ => ?_
  have hx := State.takeRecord_kept e h
  refine Kept.ite (fun _ => State.logLose_kept _ hx) fun _ => Kept.ite (fun _ => State.onLog_kept hx _) fun _ => ?_
  split
  · exact State.logMerge_kept _ hx ‹_›
  · exact Kept.ite (fun _ => State.logLose_kept _ hx) fun _ => State.stagePut_kept _ hx

theorem State.logIntake_kept (h : Kept M a s) (mLog : M .log := by first | assumption | simp) (mSnaps : M .snaps := by first | assumption | simp) :
    Kept M a (State.logIntake s) := by
  unfold State.logIntake
  with_reducible repeat' first | assumption | intro _ | apply State.logTake_kept | apply State.onLog_kept | split

theorem State.logIntakeAll_kept (h : Kept M a s) (mLog : M .log := by first | assumption | simp) (mSnaps : M .snaps := by first | assumption | simp) :
    Kept M a (State.logIntakeAll s) := by
  unfold State.logIntakeAll
  with_reducible repeat' first | assumption | intro _ | apply State.forEach_kept | apply State.onLog_kept | apply State.logTake_kept

theorem State.openStaging_kept (h : Kept M a s) (mLog : M .log := by first | assumption | simp) (mSnaps : M .snaps := by first | assumption | simp) :
    Kept M a (State.openStaging s) := by
  unfold State.openStaging
  with_reducible repeat' first
    | assumption
    | intro _
    | extract_lets
    | apply State.logIntakeAll_kept
    | apply State.onLog_kept
    | apply State.stagePut_kept
    | split

theorem State.supplyDual_kept (h : Kept M a s) (mSys : M .sys := by first | assumption | simp) (mLog : M .log := by first | assumption | simp) :
    Kept M a (State.supplyDual s) := by
  unfold State.supplyDual
  with_reducible repeat' first | assumption | intro _ | apply State.report_kept | apply State.raise_kept | apply State.onSys_kept | apply Kept.ite

theorem State.hostGone_kept (h : Kept M a s) (mLog : M .log := by first | assumption | simp) (mHost : M .host := by first | assumption | simp) :
    Kept M a (State.hostGone s) := by
  unfold State.hostGone
  with_reducible repeat' first | assumption | intro _ | extract_lets | apply State.onHost_kept | apply State.report_kept | apply State.raise_kept

theorem State.coreReset_kept (well : Bool) (h : Kept M a s) (mManifest : M .manifest := by first | assumption | simp) (mSys : M .sys := by first | assumption | simp)
    (mClk : M .clk := by first | assumption | simp) (mTide : M .tide := by first | assumption | simp) (mAcq : M .acq := by first | assumption | simp) (mProt : M .prot := by first | assumption | simp)
    (mDiff : M .diff := by first | assumption | simp) (mForm : M .form := by first | assumption | simp) (mGate : M .gate := by first | assumption | simp) (mLogic : M .logic := by first | assumption | simp)
    (mFio : M .fio := by first | assumption | simp) (mCapt : M .capt := by first | assumption | simp) (mLog : M .log := by first | assumption | simp) (mNet : M .net := by first | assumption | simp)
    (mPtp : M .ptp := by first | assumption | simp) (mChk : M .chk := by first | assumption | simp) (mHost : M .host := by first | assumption | simp) (mAdeid : M .adeid := by first | assumption | simp)
    (mSec : M .sec := by first | assumption | simp) (mDiag : M .diag := by first | assumption | simp) (mSnaps : M .snaps := by first | assumption | simp) :
    Kept M a (State.coreReset s well) := by
  unfold State.coreReset
  exact h.anew rfl (SecKept.same rfl rfl rfl rfl rfl) (.inl List.length_replicate) (.inl List.length_replicate)

theorem State.powerReset_kept (h : Kept M a s) (mLtc : M .ltc := by first | assumption | simp) (mManifest : M .manifest := by first | assumption | simp)
    (mSys : M .sys := by first | assumption | simp) (mClk : M .clk := by first | assumption | simp) (mTide : M .tide := by first | assumption | simp) (mAcq : M .acq := by first | assumption | simp)
    (mProt : M .prot := by first | assumption | simp) (mDiff : M .diff := by first | assumption | simp) (mForm : M .form := by first | assumption | simp) (mGate : M .gate := by first | assumption | simp)
    (mLogic : M .logic := by first | assumption | simp) (mFio : M .fio := by first | assumption | simp) (mCapt : M .capt := by first | assumption | simp) (mLog : M .log := by first | assumption | simp)
    (mNet : M .net := by first | assumption | simp) (mPtp : M .ptp := by first | assumption | simp) (mChk : M .chk := by first | assumption | simp) (mHost : M .host := by first | assumption | simp)
    (mAdeid : M .adeid := by first | assumption | simp) (mSec : M .sec := by first | assumption | simp) (mDiag : M .diag := by first | assumption | simp) (mSnaps : M .snaps := by first | assumption | simp) :
    Kept M a (State.powerReset s) := by
  unfold State.powerReset
  exact Kept.same (State.coreReset_kept s.powered h) rfl rfl rfl rfl

theorem State.restart_kept (c : ResetCause) (longRst : Bool) (h : Kept M a s) (mFresh : M .fresh := by first | assumption | simp)
    (mManifest : M .manifest := by first | assumption | simp) (mSys : M .sys := by first | assumption | simp)
    (mClk : M .clk := by first | assumption | simp) (mTide : M .tide := by first | assumption | simp) (mAcq : M .acq := by first | assumption | simp)
    (mProt : M .prot := by first | assumption | simp) (mDiff : M .diff := by first | assumption | simp)
    (mForm : M .form := by first | assumption | simp) (mGate : M .gate := by first | assumption | simp)
    (mLogic : M .logic := by first | assumption | simp) (mFio : M .fio := by first | assumption | simp)
    (mCapt : M .capt := by first | assumption | simp) (mLog : M .log := by first | assumption | simp) (mNet : M .net := by first | assumption | simp)
    (mPtp : M .ptp := by first | assumption | simp) (mChk : M .chk := by first | assumption | simp) (mHost : M .host := by first | assumption | simp)
    (mAdeid : M .adeid := by first | assumption | simp) (mSec : M .sec := by first | assumption | simp)
    (mDiag : M .diag := by first | assumption | simp) (mSnaps : M .snaps := by first | assumption | simp) :
    Kept M a (State.restart s c longRst) := by
  unfold State.restart
  exact Kept.same (State.measureBackup_kept (State.coreReset_kept true h)) rfl rfl rfl rfl

theorem State.stageLoops_kept (h : Kept M a s) (mSys : M .sys := by first | assumption | simp) (mClk : M .clk := by first | assumption | simp) :
    Kept M a (State.stageLoops s) := by
  unfold State.stageLoops
  with_reducible repeat' first | assumption | intro _ | extract_lets | apply State.onSys_kept | apply State.onClk_kept

theorem State.stageLate_kept (h : Kept M a s) (mSys : M .sys := by first | assumption | simp) (mLog : M .log := by first | assumption | simp) :
    Kept M a (State.stageLate s) := by
  unfold State.stageLate
  with_reducible repeat' first
    | assumption
    | intro _
    | extract_lets
    | apply State.report_kept
    | apply State.raise_kept
    | apply State.onSys_kept
    | apply Kept.ite

theorem State.connectLoop_kept (h : Kept M a s) (mClk : M .clk := by first | assumption | simp) :
    Kept M a (State.connectLoop s) := by
  unfold State.connectLoop
  with_reducible repeat' first | assumption | intro _ | apply State.measureDomains_kept | apply State.onClk_kept | apply Kept.ite

theorem State.bootLane_kept (l : LaneId) (pass : Bool) (dead : Bool) (h : Kept M a s) (mProt : M .prot := by first | assumption | simp)
    (mLogic : M .logic := by first | assumption | simp) (mCapt : M .capt := by first | assumption | simp)
    (mLog : M .log := by first | assumption | simp) :
    Kept M a (State.bootLane s l pass dead) := by
  unfold State.bootLane
  with_reducible repeat' first
    | assumption
    | intro _
    | extract_lets
    | apply State.when_kept
    | apply State.onLane_kept
    | apply State.laneOut_kept
    | apply State.report_kept
    | apply Kept.ite

theorem State.bootMram_kept (x : BootIn) (h : Kept M a s) (mLog : M .log := by first | assumption | simp)
    (mSec : M .sec := by first | assumption | simp) (mDiag : M .diag := by first | assumption | simp) :
    Kept M a (State.bootMram s x) := by
  unfold State.bootMram
  with_reducible repeat' first
    | assumption
    | intro _
    | extract_lets
    | apply State.onSec_kept
    | apply State.when_kept
    | apply State.testResult_kept
    | apply State.logBoot_kept
    | apply State.logBankFail_kept
    | apply Kept.ite
  all_goals first | assumption | exact .same rfl rfl rfl rfl rfl

theorem State.loopGuarded_kept (i : LoopId) (h : Kept M a s) (mFresh : M .fresh := by first | assumption | simp)
    (mClk : M .clk := by first | assumption | simp) (mTide : M .tide := by first | assumption | simp)
    (mDiff : M .diff := by first | assumption | simp) (mForm : M .form := by first | assumption | simp)
    (mGate : M .gate := by first | assumption | simp) (mLogic : M .logic := by first | assumption | simp)
    (mCapt : M .capt := by first | assumption | simp) (mLog : M .log := by first | assumption | simp) (mNet : M .net := by first | assumption | simp)
    (mPtp : M .ptp := by first | assumption | simp) (mAdeid : M .adeid := by first | assumption | simp) :
    Kept M a (State.loopGuarded s i) := by
  unfold State.loopGuarded
  with_reducible repeat' first | assumption | intro _ | extract_lets | apply State.drawNum_kept | apply State.loopLost_kept

theorem State.bootTests_kept (x : BootIn) (h : Kept M a s) (mFresh : M .fresh := by first | assumption | simp)
    (mSys : M .sys := by first | assumption | simp) (mClk : M .clk := by first | assumption | simp) (mTide : M .tide := by first | assumption | simp)
    (mProt : M .prot := by first | assumption | simp) (mDiff : M .diff := by first | assumption | simp)
    (mForm : M .form := by first | assumption | simp) (mGate : M .gate := by first | assumption | simp)
    (mLogic : M .logic := by first | assumption | simp) (mCapt : M .capt := by first | assumption | simp)
    (mLog : M .log := by first | assumption | simp) (mNet : M .net := by first | assumption | simp) (mPtp : M .ptp := by first | assumption | simp)
    (mChk : M .chk := by first | assumption | simp) (mAdeid : M .adeid := by first | assumption | simp)
    (mSec : M .sec := by first | assumption | simp) (mDiag : M .diag := by first | assumption | simp) :
    Kept M a (State.bootTests s x) := by
  unfold State.bootTests
  with_reducible repeat' first
    | assumption
    | intro _
    | extract_lets
    | apply State.onSys_kept
    | apply State.onSec_kept
    | apply State.when_kept
    | apply State.forEach_kept
    | apply State.testFailed_kept
    | apply State.bootMram_kept
    | apply State.testResult_kept
    | apply State.bootLane_kept
    | apply State.chkKat_kept
    | apply State.mpllLost_kept
    | apply State.loopGuarded_kept
    | apply Kept.ite
    | split
  all_goals first | assumption | exact h.same rfl rfl rfl rfl | exact .same rfl rfl rfl rfl rfl

theorem State.bootKeys_kept (bad : List Nat) (h : Kept M a s) (mLog : M .log := by first | assumption | simp) (mSec : M .sec := by first | assumption | simp) :
    Kept M a (State.bootKeys s bad) := by
  unfold State.bootKeys
  with_reducible repeat' first
    | assumption
    | intro _
    | extract_lets
    | apply State.forEach_kept
    | apply State.onSec_kept
    | apply State.when_kept
    | apply State.report_kept
    | apply Kept.ite
  all_goals first | exact SecKept.same rfl rfl rfl rfl rfl

theorem State.bootLive_kept (b : Bool) (h : Kept M a s) (mManifest : M .manifest := by first | assumption | simp) (mLog : M .log := by first | assumption | simp)
    (mSec : M .sec := by first | assumption | simp) :
    Kept M a (State.bootLive s b) := by
  unfold State.bootLive
  exact State.report_kept _ _ _ ((State.setLive_kept b h).same rfl rfl rfl rfl)

theorem State.bootChoice_kept (x : BootIn) (h : Kept M a s) (mManifest : M .manifest := by first | assumption | simp)
    (mLog : M .log := by first | assumption | simp) (mChk : M .chk := by first | assumption | simp) (mSec : M .sec := by first | assumption | simp) :
    Kept M a (State.bootChoice s x) := by
  unfold State.bootChoice
  with_reducible repeat' first
    | assumption
    | intro _
    | extract_lets
    | apply State.raise_kept
    | apply State.bootKeys_kept
    | apply State.verifySlot_kept
    | apply State.bootLive_kept
    | apply State.report_kept
    | apply Kept.ite

theorem State.bootLockstep_kept (bad : List Nat) (h : Kept M a s) (mForm : M .form := by first | assumption | simp) (mCapt : M .capt := by first | assumption | simp)
    (mLog : M .log := by first | assumption | simp) (mDiag : M .diag := by first | assumption | simp) :
    Kept M a (State.bootLockstep s bad) := by
  unfold State.bootLockstep
  with_reducible repeat' first
    | assumption
    | intro _
    | apply State.forEach_kept
    | apply State.onUnit_kept
    | apply State.formBlocked_kept
    | apply State.testFailed_kept

theorem State.leaveReset_kept (h : Kept M a s) (mClk : M .clk := by first | assumption | simp) :
    Kept M a (State.leaveReset s) := by
  unfold State.leaveReset
  with_reducible repeat' first | assumption | intro _ | extract_lets | apply State.onClk_kept | apply Kept.ite

theorem State.stageStructure_kept (x : BootIn) (h : Kept M a s) (mFresh : M .fresh := by first | assumption | simp)
    (mManifest : M .manifest := by first | assumption | simp) (mSys : M .sys := by first | assumption | simp)
    (mClk : M .clk := by first | assumption | simp) (mTide : M .tide := by first | assumption | simp) (mAcq : M .acq := by first | assumption | simp)
    (mProt : M .prot := by first | assumption | simp) (mDiff : M .diff := by first | assumption | simp)
    (mForm : M .form := by first | assumption | simp) (mGate : M .gate := by first | assumption | simp)
    (mLogic : M .logic := by first | assumption | simp) (mFio : M .fio := by first | assumption | simp)
    (mCapt : M .capt := by first | assumption | simp) (mLog : M .log := by first | assumption | simp) (mNet : M .net := by first | assumption | simp)
    (mPtp : M .ptp := by first | assumption | simp) (mHost : M .host := by first | assumption | simp)
    (mAdeid : M .adeid := by first | assumption | simp) (mSec : M .sec := by first | assumption | simp)
    (mDiag : M .diag := by first | assumption | simp) :
    Kept M a (State.stageStructure s x) := by
  unfold State.stageStructure
  with_reducible repeat' first
    | assumption
    | intro _
    | extract_lets
    | apply State.leaveReset_kept
    | apply State.instantiate_kept
    | apply State.bootLockstep_kept
    | apply State.goBare_kept
    | apply Kept.ite

theorem State.tideReady_kept (h : Kept M a s) (mTide : M .tide := by first | assumption | simp) (mForm : M .form := by first | assumption | simp)
    (mLog : M .log := by first | assumption | simp) :
    Kept M a (State.tideReady s) := by
  unfold State.tideReady
  with_reducible repeat' first
    | assumption
    | intro _
    | extract_lets
    | apply State.onTide_kept
    | apply State.setFreq_kept
    | apply State.convergeTo_kept
    | apply State.tideRecord_kept
    | apply Kept.ite
    | split

theorem State.protBegin_kept (h : Kept M a s) (mProt : M .prot := by first | assumption | simp) :
    Kept M a (State.protBegin s) := by
  unfold State.protBegin
  with_reducible repeat' first | assumption | intro _ | extract_lets | apply State.when_kept | apply State.protReady_kept

theorem State.stageProt_kept (h : Kept M a s) (mTide : M .tide := by first | assumption | simp) (mProt : M .prot := by first | assumption | simp)
    (mForm : M .form := by first | assumption | simp) (mFio : M .fio := by first | assumption | simp)
    (mCapt : M .capt := by first | assumption | simp) (mLog : M .log := by first | assumption | simp) :
    Kept M a (State.stageProt s) := by
  unfold State.stageProt
  with_reducible repeat' first
    | assumption
    | intro _
    | extract_lets
    | apply State.forEach_kept
    | apply State.protBegin_kept
    | apply State.tideReady_kept
    | apply State.armMark_kept
    | apply State.markPast_kept
    | apply State.captArmed_kept
    | apply Kept.ite

theorem State.stageLogic_kept (h : Kept M a s) (mSys : M .sys := by first | assumption | simp) (mLogic : M .logic := by first | assumption | simp)
    (mLog : M .log := by first | assumption | simp) (mChk : M .chk := by first | assumption | simp) :
    Kept M a (State.stageLogic s) := by
  unfold State.stageLogic
  with_reducible repeat' first
    | assumption
    | intro _
    | extract_lets
    | apply State.onSys_kept
    | apply State.when_kept
    | apply State.report_kept
    | apply State.startLogic_kept
  all_goals first | assumption | exact h.same rfl rfl rfl rfl

theorem State.stageAction_kept (n : Nat) (x2 : BootIn) (h : Kept M a s) (mFresh : M .fresh := by first | assumption | simp)
    (mManifest : M .manifest := by first | assumption | simp) (mSys : M .sys := by first | assumption | simp) (mClk : M .clk := by first | assumption | simp) (mTide : M .tide := by first | assumption | simp)
    (mAcq : M .acq := by first | assumption | simp) (mProt : M .prot := by first | assumption | simp) (mDiff : M .diff := by first | assumption | simp) (mForm : M .form := by first | assumption | simp)
    (mGate : M .gate := by first | assumption | simp) (mLogic : M .logic := by first | assumption | simp) (mFio : M .fio := by first | assumption | simp) (mCapt : M .capt := by first | assumption | simp)
    (mLog : M .log := by first | assumption | simp) (mNet : M .net := by first | assumption | simp) (mPtp : M .ptp := by first | assumption | simp) (mChk : M .chk := by first | assumption | simp)
    (mHost : M .host := by first | assumption | simp) (mAdeid : M .adeid := by first | assumption | simp) (mSec : M .sec := by first | assumption | simp) (mDiag : M .diag := by first | assumption | simp)
    (mSnaps : M .snaps := by first | assumption | simp) :
    Kept M a (State.stageAction s n x2) := by
  unfold State.stageAction
  with_reducible repeat' first
    | assumption
    | intro _
    | apply State.stageLoops_kept
    | apply State.reach_kept
    | apply State.bootTests_kept
    | apply State.openStaging_kept
    | apply State.connectLoop_kept
    | apply State.stageLate_kept
    | apply State.bootChoice_kept
    | apply State.stageStructure_kept
    | apply State.stageProt_kept
    | apply State.scheduleDoors_kept
    | apply State.startGoose_kept
    | apply State.onNet_kept
    | apply State.stageLogic_kept
    | apply State.onAdeid_kept
    | apply State.onHost_kept
    | split

theorem State.missReference_kept (h : Kept M a s) (mFresh : M .fresh := by first | assumption | simp) (mClk : M .clk := by first | assumption | simp)
    (mTide : M .tide := by first | assumption | simp) (mDiff : M .diff := by first | assumption | simp) (mForm : M .form := by first | assumption | simp) (mGate : M .gate := by first | assumption | simp)
    (mLogic : M .logic := by first | assumption | simp) (mCapt : M .capt := by first | assumption | simp) (mLog : M .log := by first | assumption | simp) (mNet : M .net := by first | assumption | simp)
    (mPtp : M .ptp := by first | assumption | simp) (mAdeid : M .adeid := by first | assumption | simp) :
    Kept M a (State.missReference s) := by
  unfold State.missReference
  with_reducible repeat' first | assumption | intro _ | apply State.noReference_kept | apply Kept.ite

theorem State.blockBridges_kept (h : Kept M a s) (mFresh : M .fresh := by first | assumption | simp) (mGate : M .gate := by first | assumption | simp) :
    Kept M a (State.blockBridges s) := by
  unfold State.blockBridges
  with_reducible repeat' first | assumption | intro _ | apply State.forEach_kept | apply State.sendBlock_kept

theorem State.finishCommits_kept (h : Kept M a s) (mLogic : M .logic := by first | assumption | simp) : Kept M a (State.finishCommits s) := by
  unfold State.finishCommits
  with_reducible repeat' first | assumption | intro _ | apply State.forEach_kept | apply State.commitDone_kept

theorem State.lastWords_kept (h : Kept M a s) (mFresh : M .fresh := by first | assumption | simp) (mSys : M .sys := by first | assumption | simp)
    (mClk : M .clk := by first | assumption | simp) (mAcq : M .acq := by first | assumption | simp) (mGate : M .gate := by first | assumption | simp)
    (mLogic : M .logic := by first | assumption | simp) (mFio : M .fio := by first | assumption | simp)
    (mCapt : M .capt := by first | assumption | simp) (mLog : M .log := by first | assumption | simp) (mNet : M .net := by first | assumption | simp)
    (mPtp : M .ptp := by first | assumption | simp) (mAdeid : M .adeid := by first | assumption | simp)
    (mDiag : M .diag := by first | assumption | simp) (mSnaps : M .snaps := by first | assumption | simp) :
    Kept M a (State.lastWords s) := by
  unfold State.lastWords
  with_reducible repeat' first
    | assumption
    | intro _
    | extract_lets
    | apply State.onSys_kept
    | apply State.onClk_kept
    | apply State.onAcq_kept
    | apply State.onCapt_kept
    | apply State.onLog_kept
    | apply State.onDiag_kept
    | apply State.forEach_kept
    | apply State.endCheckWindow_kept
    | apply State.logIntakeAll_kept
    | apply State.closeDoors_kept
    | apply State.blockBridges_kept
    | apply State.fioSafe_kept
    | apply State.abandonCycles_kept
    | apply State.finishCommits_kept
    | apply State.logLastwords_kept
    | apply Kept.ite
  all_goals first | assumption | exact h.same rfl rfl rfl rfl

theorem State.onRing_kept (r : Nat) (f : CmdRing → CmdRing) (h : Kept M a s) (mHost : M .host := by first | assumption | simp) :
    Kept M a (State.onRing s r f) := by
  unfold State.onRing
  with_reducible repeat' first | assumption | intro _ | apply State.onHost_kept

theorem State.ringVector_kept (r : Nat) (h : Kept M a s) (mHost : M .host := by first | assumption | simp) : Kept M a (State.ringVector s r) := by
  unfold State.ringVector
  with_reducible repeat' first | assumption | intro _ | extract_lets | apply State.onRing_kept | apply State.onHost_kept | apply Kept.ite
  all_goals first | simpa [updAt] using ‹_›

theorem State.ringComplete_kept (r : Nat) (c : Completion) (notify : Bool) (h : Kept M a s) (mHost : M .host := by first | assumption | simp) :
    Kept M a (State.ringComplete s r c notify) := by
  unfold State.ringComplete
  with_reducible repeat' first
    | assumption
    | intro _
    | apply State.when_kept
    | apply State.onRing_kept
    | apply State.ringVector_kept
    | apply State.raise_kept
    | apply State.onHost_kept
    | apply Kept.ite

theorem State.countRefusal_kept (src : Nat) (v : Verdict) (h : Kept M a s) (mLog : M .log := by first | assumption | simp) (mHost : M .host := by first | assumption | simp) :
    Kept M a (State.countRefusal s src v) := by
  unfold State.countRefusal
  with_reducible repeat' first
    | assumption
    | intro _
    | extract_lets
    | apply State.onHost_kept
    | apply State.raise_kept
    | apply State.when_kept
    | apply State.report_kept
    | split
    | (dsimp +zetaDelta only; split)

theorem State.stateRefused_kept (src : Nat) (e : Entry) (r : Refuse) (h : Kept M a s) (mTide : M .tide := by first | assumption | simp)
    (mLog : M .log := by first | assumption | simp) (mHost : M .host := by first | assumption | simp) :
    Kept M a (State.stateRefused s src e r) := by
  unfold State.stateRefused
  with_reducible repeat' first
    | assumption
    | intro _
    | extract_lets
    | apply State.raiseRefused_kept
    | apply State.markPast_kept
    | apply State.reportRefused_kept
    | apply Kept.ite
    | split
    | (dsimp +zetaDelta only; split)

theorem State.noteRefusal_kept (src : Nat) (e : Entry) (v : Verdict) (h : Kept M a s) (mTide : M .tide := by first | assumption | simp)
    (mLog : M .log := by first | assumption | simp) (mHost : M .host := by first | assumption | simp) :
    Kept M a (State.noteRefusal s src e v) := by
  unfold State.noteRefusal
  with_reducible repeat' first | assumption | apply State.stateRefused_kept | apply State.countRefusal_kept | split

theorem State.spendToken_kept (src : Nat) (h : Kept M a s) (mHost : M .host := by first | assumption | simp) : Kept M a (State.spendToken s src) := by
  unfold State.spendToken
  with_reducible repeat' first | assumption | intro _ | extract_lets | apply State.onHost_kept

theorem State.admitItem_kept (src : Nat) (e : Entry) (d : Ns) (req : Option Word) (h : Kept M a s) (mHost : M .host := by first | assumption | simp)
    (mSec : M .sec := by first | assumption | simp) :
    Kept M a (State.admitItem s src e d req) := by
  unfold State.admitItem
  split
  · exact h
  · extract_lets p it t
    have ht : Kept M a t := State.onHost_kept (State.spendToken_kept _ h) fun x hx => by simpa using hx
    clear_value t
    split
    · exact State.stopWindow_kept _ _ ht
    · exact ht

theorem State.forwardEntry_kept (r : Nat) (e : Entry) (h : Kept M a s) (mHost : M .host := by first | assumption | simp) (mAdeid : M .adeid := by first | assumption | simp) :
    Kept M a (State.forwardEntry s r e) := by
  unfold State.forwardEntry
  with_reducible repeat' first
    | assumption
    | intro _
    | extract_lets
    | apply State.onHost_kept
    | apply State.spendToken_kept
    | apply State.adeidSend_kept
    | apply State.forEach_kept

theorem State.forwardDone_kept (req : Word) (c : Completion) (h : Kept M a s) (mHost : M .host := by first | assumption | simp) :
    Kept M a (State.forwardDone s req c) := by
  unfold State.forwardDone
  with_reducible repeat' first | assumption | intro _ | apply State.ringComplete_kept | apply State.onHost_kept | split

theorem State.ringEntry_kept (r : Nat) (e : Entry) (h : Kept M a s) (mTide : M .tide := by first | assumption | simp) (mLog : M .log := by first | assumption | simp)
    (mHost : M .host := by first | assumption | simp) (mAdeid : M .adeid := by first | assumption | simp) (mSec : M .sec := by first | assumption | simp) :
    Kept M a (State.ringEntry s r e) := by
  unfold State.ringEntry
  with_reducible repeat' first
    | assumption
    | intro _
    | extract_lets
    | apply State.ringComplete_kept
    | apply State.noteRefusal_kept
    | apply State.forwardEntry_kept
    | apply State.admitItem_kept
    | apply Kept.ite
    | split

theorem State.cmdArrives_kept (from_ : Nat) (req : Word) (e : Entry) (h : Kept M a s) (mTide : M .tide := by first | assumption | simp)
    (mLog : M .log := by first | assumption | simp) (mHost : M .host := by first | assumption | simp) (mAdeid : M .adeid := by first | assumption | simp) (mSec : M .sec := by first | assumption | simp) :
    Kept M a (State.cmdArrives s from_ req e) := by
  unfold State.cmdArrives
  with_reducible repeat' first
    | assumption
    | extract_lets
    | apply State.adeidSend_kept
    | apply State.noteRefusal_kept
    | apply State.admitItem_kept
    | split

theorem State.runQuery_kept (b : Nat) (h : Kept M a s) (mHost : M .host := by first | assumption | simp) : Kept M a (State.runQuery s b) := by
  unfold State.runQuery
  with_reducible repeat' first
    | assumption
    | intro _
    | extract_lets
    | apply State.leaveCtl_kept
    | apply State.failed_kept
    | apply State.done_kept
    | apply Kept.ite
    | split

theorem State.noteLate_kept (st : Status) (src : Nat) (h : Kept M a s) (mLog : M .log := by first | assumption | simp) (mHost : M .host := by first | assumption | simp) :
    Kept M a (State.noteLate s st src) := by
  unfold State.noteLate
  with_reducible repeat' first
    | assumption
    | intro _
    | extract_lets
    | apply State.onHost_kept
    | apply State.raise_kept
    | apply State.when_kept
    | apply State.report_kept
    | apply Kept.ite

theorem State.completeItem_kept (b : Nat) (h : Kept M a s) (mLog : M .log := by first | assumption | simp) (mHost : M .host := by first | assumption | simp)
    (mAdeid : M .adeid := by first | assumption | simp) :
    Kept M a (State.completeItem s b) := by
  unfold State.completeItem
  with_reducible repeat' first
    | assumption
    | intro _
    | extract_lets
    | apply State.onHost_kept
    | apply State.noteLate_kept
    | apply State.adeidSend_kept
    | apply State.ringComplete_kept
    | split
    | (dsimp +zetaDelta only; split)
  all_goals first | simpa [updAt] using ‹_›

theorem State.sigFailed_kept (b : Nat) (e : Entry) (h : Kept M a s) (mAcq : M .acq := by first | assumption | simp) (mLog : M .log := by first | assumption | simp)
    (mHost : M .host := by first | assumption | simp) (mSec : M .sec := by first | assumption | simp) :
    Kept M a (State.sigFailed s b e) := by
  unfold State.sigFailed
  with_reducible repeat' first
    | assumption
    | extract_lets
    | apply State.report_kept
    | apply State.raise_kept
    | apply State.failed_kept
    | apply State.leaveCtl_kept
    | apply State.confirmFailed_kept
    | split

theorem State.ringError_kept (r : Nat) (h : Kept M a s) (mLog : M .log := by first | assumption | simp) (mHost : M .host := by first | assumption | simp) :
    Kept M a (State.ringError s r) := by
  unfold State.ringError
  with_reducible repeat' first | assumption | intro _ | apply State.report_kept | apply State.raise_kept | apply State.onRing_kept

theorem State.sqDoorbell_kept (r : Nat) (v : Word) (h : Kept M a s) (mLog : M .log := by first | assumption | simp) (mHost : M .host := by first | assumption | simp) :
    Kept M a (State.sqDoorbell s r v) := by
  unfold State.sqDoorbell
  with_reducible repeat' first | assumption | intro _ | extract_lets | apply State.ringError_kept | apply State.onRing_kept | apply Kept.ite

theorem State.cqDoorbell_kept (r : Nat) (v : Word) (h : Kept M a s) (mLog : M .log := by first | assumption | simp) (mHost : M .host := by first | assumption | simp) :
    Kept M a (State.cqDoorbell s r v) := by
  unfold State.cqDoorbell
  with_reducible repeat' first
    | assumption
    | intro _
    | extract_lets
    | apply State.ringError_kept
    | apply State.raise_kept
    | apply State.onRing_kept
    | apply Kept.ite

theorem State.ringCtrl_kept (r : Nat) (v : Word) (h : Kept M a s) (mHost : M .host := by first | assumption | simp) : Kept M a (State.ringCtrl s r v) := by
  unfold State.ringCtrl
  with_reducible repeat' first
    | assumption
    | intro _
    | extract_lets
    | apply State.when_kept
    | apply State.raise_kept
    | apply State.onRing_kept
    | apply Kept.ite

theorem State.captEcc_kept (off : Nat) (h : Kept M a s) (mCapt : M .capt := by first | assumption | simp) (mLog : M .log := by first | assumption | simp) :
    Kept M a (State.captEcc s off) := by
  unfold State.captEcc
  with_reducible repeat' first
    | assumption
    | intro _
    | extract_lets
    | apply State.onEngine_kept
    | apply State.report_kept
    | apply State.raise_kept
    | split
    | (dsimp +zetaDelta only; split)

theorem State.onChkEngine_kept (n : Nat) (f : ChkEngine → ChkEngine) (h : Kept M a s) (mChk : M .chk := by first | assumption | simp) :
    Kept M a (State.onChkEngine s n f) := by
  unfold State.onChkEngine
  with_reducible repeat' first | assumption | intro _ | apply State.onChk_kept

theorem State.chkBusyWrite_kept (n : Nat) (h : Kept M a s) (mChk : M .chk := by first | assumption | simp) : Kept M a (State.chkBusyWrite s n) := by
  unfold State.chkBusyWrite
  with_reducible repeat' first | assumption | intro _ | apply State.raise_kept | apply State.onChk_kept

theorem State.chkWrite_kept (n : Nat) (o : Nat) (v : Word) (h : Kept M a s) (mChk : M .chk := by first | assumption | simp) :
    Kept M a (State.chkWrite s n o v) := by
  unfold State.chkWrite
  with_reducible repeat' first | assumption | intro _ | extract_lets | apply State.chkBusyWrite_kept | apply State.onChkEngine_kept | apply Kept.ite

theorem State.frSend_kept (f : Frame) (h : Kept M a s) (mLog : M .log := by first | assumption | simp) (mNet : M .net := by first | assumption | simp)
    (mPtp : M .ptp := by first | assumption | simp) (mHost : M .host := by first | assumption | simp) :
    Kept M a (State.frSend s f) := by
  unfold State.frSend
  with_reducible repeat' first | assumption | intro _ | extract_lets | apply State.onHost_kept | apply State.when_kept | apply State.frameRx_kept

theorem State.frDoorbell_kept (v : Word) (frames : List Frame) (h : Kept M a s) (mLog : M .log := by first | assumption | simp) (mNet : M .net := by first | assumption | simp)
    (mPtp : M .ptp := by first | assumption | simp) (mHost : M .host := by first | assumption | simp) :
    Kept M a (State.frDoorbell s v frames) := by
  unfold State.frDoorbell
  with_reducible repeat' first
    | assumption
    | intro _
    | extract_lets
    | apply State.raise_kept
    | apply State.when_kept
    | apply State.onHost_kept
    | apply State.forEach_kept
    | apply State.frSend_kept
    | apply Kept.ite
  all_goals first | assumption | simpa [updAt] using ‹_›

theorem State.ringBase_kept (r : Nat) (f : CmdRing → CmdRing) (h : Kept M a s) (mHost : M .host := by first | assumption | simp) :
    Kept M a (State.ringBase s r f) := by
  unfold State.ringBase
  with_reducible repeat' first | assumption | intro _ | apply State.raise_kept | apply State.onRing_kept | apply Kept.ite

theorem State.ringWrite_kept (r : Nat) (o : Nat) (v : Word) (h : Kept M a s) (mLog : M .log := by first | assumption | simp) (mHost : M .host := by first | assumption | simp) :
    Kept M a (State.ringWrite s r o v) := by
  unfold State.ringWrite
  with_reducible repeat' first
    | assumption
    | intro _
    | apply State.ringCtrl_kept
    | apply State.ringBase_kept
    | apply State.sqDoorbell_kept
    | apply State.cqDoorbell_kept
    | apply Kept.ite

theorem State.hostWrite_kept (o : Nat) (v : Word) (h : Kept M a s) (mLog : M .log := by first | assumption | simp) (mNet : M .net := by first | assumption | simp)
    (mPtp : M .ptp := by first | assumption | simp) (mHost : M .host := by first | assumption | simp) :
    Kept M a (State.hostWrite s o v) := by
  have on : ∀ (f : HostState → HostState), (∀ x, (f x).berths = x.berths) → Kept M a (s.onHost f) := fun f hf =>
    State.onHost_kept h fun x k => (congrArg List.length (hf x)).trans k
  have sel : ∀ (c : Prop) [Decidable c] (p q r : HostState), p.berths = r.berths → q.berths = r.berths →
      (if c then p else q).berths = r.berths := by
    intro c _ p q r hp hq
    split
    · exact hp
    · exact hq
  have msix : ∀ (i o : ℕ) (v : Word), Kept M a (s.onHost fun x => x.msixWrite i o v) := fun i o v => on _ fun x => sel _ _ _ x rfl rfl
  unfold State.hostWrite
  with_reducible repeat' first | apply Kept.ite | intro _
  · exact on _ fun _ => rfl
  · exact State.ringWrite_kept _ _ _ h
  · exact on _ fun _ => rfl
  · exact on _ fun _ => rfl
  · exact on _ fun _ => rfl
  · exact on _ fun _ => rfl
  · exact on _ fun _ => rfl
  · exact State.frDoorbell_kept _ _ h
  · exact msix _ _ _
  · exact on _ fun _ => rfl
  · exact h

theorem State.convWrite_kept (o : Nat) (v : Word) (h : Kept M a s) (mTide : M .tide := by first | assumption | simp) : Kept M a (State.convWrite s o v) := by
  unfold State.convWrite
  with_reducible repeat' first
    | assumption
    | intro _
    | extract_lets
    | apply State.onTide_kept
    | apply State.when_kept
    | apply State.convGo_kept
    | apply Kept.ite

theorem State.w1cWrite_kept (b : Blk) (o : Nat) (v : Word) (h : Kept M a s) {t : State} (e : State.w1cWrite s b o v = some t)
    (mSys : M .sys := by first | assumption | simp) (mClk : M .clk := by first | assumption | simp) (mTide : M .tide := by first | assumption | simp) (mAcq : M .acq := by first | assumption | simp)
    (mProt : M .prot := by first | assumption | simp) (mDiff : M .diff := by first | assumption | simp) (mForm : M .form := by first | assumption | simp) (mGate : M .gate := by first | assumption | simp)
    (mLogic : M .logic := by first | assumption | simp) (mFio : M .fio := by first | assumption | simp) (mCapt : M .capt := by first | assumption | simp) (mLog : M .log := by first | assumption | simp)
    (mNet : M .net := by first | assumption | simp) (mPtp : M .ptp := by first | assumption | simp) (mChk : M .chk := by first | assumption | simp) (mHost : M .host := by first | assumption | simp)
    (mAdeid : M .adeid := by first | assumption | simp) (mSec : M .sec := by first | assumption | simp) (mDiag : M .diag := by first | assumption | simp) :
    Kept M a t := by
  unfold State.w1cWrite at e
  split at e
  · cases e
    exact State.onEvent_kept _ _ h (m := by cases b <;> assumption)
  · split at e
    · cases e
      exact State.onCh_kept _ _ h
    · cases e

theorem State.blkWrite_kept (b : Blk) (o : Nat) (v : Word) (h : Kept M a s) (mSys : M .sys := by first | assumption | simp) (mClk : M .clk := by first | assumption | simp)
    (mTide : M .tide := by first | assumption | simp) (mAcq : M .acq := by first | assumption | simp) (mProt : M .prot := by first | assumption | simp) (mDiff : M .diff := by first | assumption | simp)
    (mForm : M .form := by first | assumption | simp) (mGate : M .gate := by first | assumption | simp) (mLogic : M .logic := by first | assumption | simp) (mFio : M .fio := by first | assumption | simp)
    (mCapt : M .capt := by first | assumption | simp) (mLog : M .log := by first | assumption | simp) (mNet : M .net := by first | assumption | simp) (mPtp : M .ptp := by first | assumption | simp)
    (mChk : M .chk := by first | assumption | simp) (mHost : M .host := by first | assumption | simp) (mAdeid : M .adeid := by first | assumption | simp) (mSec : M .sec := by first | assumption | simp)
    (mDiag : M .diag := by first | assumption | simp) :
    Kept M a (State.blkWrite s b o v) := by
  unfold State.blkWrite
  split
  · exact State.w1cWrite_kept _ _ _ h ‹_›
  · split
    · exact State.convWrite_kept _ _ h
    · exact Kept.ite (fun _ => State.bankWrite_kept _ _ h) fun _ => Kept.ite (fun _ => State.coefWrite_kept _ _ _ _ h) fun _ => h
    · exact Kept.ite (fun _ => State.onProt_kept h _) fun _ => h
    · exact Kept.ite (fun _ => State.cursorWrite_kept _ _ h) fun _ => Kept.ite (fun _ => State.onLog_kept h _) fun _ => h
    · exact Kept.ite (fun _ => State.chkWrite_kept _ _ _ h) fun _ => h
    · exact State.hostWrite_kept _ _ h
    · exact h

theorem State.storeReg_kept (off : Nat) (v : Word) (h : Kept M a s) (mSys : M .sys := by first | assumption | simp) (mClk : M .clk := by first | assumption | simp)
    (mTide : M .tide := by first | assumption | simp) (mAcq : M .acq := by first | assumption | simp) (mProt : M .prot := by first | assumption | simp) (mDiff : M .diff := by first | assumption | simp)
    (mForm : M .form := by first | assumption | simp) (mGate : M .gate := by first | assumption | simp) (mLogic : M .logic := by first | assumption | simp) (mFio : M .fio := by first | assumption | simp)
    (mCapt : M .capt := by first | assumption | simp) (mLog : M .log := by first | assumption | simp) (mNet : M .net := by first | assumption | simp) (mPtp : M .ptp := by first | assumption | simp)
    (mChk : M .chk := by first | assumption | simp) (mHost : M .host := by first | assumption | simp) (mAdeid : M .adeid := by first | assumption | simp) (mSec : M .sec := by first | assumption | simp)
    (mDiag : M .diag := by first | assumption | simp) :
    Kept M a (State.storeReg s off v) := by
  unfold State.storeReg
  with_reducible repeat' first | assumption | intro _ | extract_lets | apply State.blkWrite_kept | apply State.noteUninst_kept | apply Kept.ite

theorem State.onXing_kept (x : Xing) (h : Kept M a s) (mClk : M .clk := by first | assumption | simp) :
    Kept M a (State.onXing s x) := by
  unfold State.onXing
  with_reducible repeat' first | assumption | intro _ | extract_lets | apply State.onClk_kept

theorem State.xingShadow_kept (x : Xing) (off : Nat) (v : Word) (h : Kept M a s) (mClk : M .clk := by first | assumption | simp) :
    Kept M a (State.xingShadow s x off v) := by
  unfold State.xingShadow
  with_reducible repeat' first
    | assumption
    | intro _
    | extract_lets
    | apply State.onClk_kept
    | apply State.raise_kept
    | apply State.onXing_kept
    | apply Kept.ite

theorem State.xingCapture_kept (x : Xing) (h : Kept M a s) (mSys : M .sys := by first | assumption | simp)
    (mClk : M .clk := by first | assumption | simp) (mTide : M .tide := by first | assumption | simp) (mAcq : M .acq := by first | assumption | simp)
    (mProt : M .prot := by first | assumption | simp) (mDiff : M .diff := by first | assumption | simp)
    (mForm : M .form := by first | assumption | simp) (mGate : M .gate := by first | assumption | simp)
    (mLogic : M .logic := by first | assumption | simp) (mFio : M .fio := by first | assumption | simp)
    (mCapt : M .capt := by first | assumption | simp) (mLog : M .log := by first | assumption | simp) (mNet : M .net := by first | assumption | simp)
    (mPtp : M .ptp := by first | assumption | simp) (mChk : M .chk := by first | assumption | simp) (mHost : M .host := by first | assumption | simp)
    (mAdeid : M .adeid := by first | assumption | simp) (mSec : M .sec := by first | assumption | simp)
    (mDiag : M .diag := by first | assumption | simp) :
    Kept M a (State.xingCapture s x) := by
  unfold State.xingCapture
  with_reducible repeat' first | assumption | intro _ | extract_lets | apply State.onXing_kept | apply State.storeReg_kept | split

theorem State.xingStart_kept (x : Xing) (off : Nat) (v : Word) (h : Kept M a s) (mSys : M .sys := by first | assumption | simp)
    (mClk : M .clk := by first | assumption | simp) (mTide : M .tide := by first | assumption | simp) (mAcq : M .acq := by first | assumption | simp)
    (mProt : M .prot := by first | assumption | simp) (mDiff : M .diff := by first | assumption | simp)
    (mForm : M .form := by first | assumption | simp) (mGate : M .gate := by first | assumption | simp)
    (mLogic : M .logic := by first | assumption | simp) (mFio : M .fio := by first | assumption | simp)
    (mCapt : M .capt := by first | assumption | simp) (mLog : M .log := by first | assumption | simp) (mNet : M .net := by first | assumption | simp)
    (mPtp : M .ptp := by first | assumption | simp) (mChk : M .chk := by first | assumption | simp) (mHost : M .host := by first | assumption | simp)
    (mAdeid : M .adeid := by first | assumption | simp) (mSec : M .sec := by first | assumption | simp)
    (mDiag : M .diag := by first | assumption | simp) :
    Kept M a (State.xingStart s x off v) := by
  unfold State.xingStart
  with_reducible repeat' first
    | assumption
    | intro _
    | extract_lets
    | apply State.onXing_kept
    | apply State.xingCapture_kept
    | apply Kept.ite

theorem State.crossWrite_kept (src : Nat) (off : Nat) (v : Word) (h : Kept M a s) (mSys : M .sys := by first | assumption | simp)
    (mClk : M .clk := by first | assumption | simp) (mTide : M .tide := by first | assumption | simp) (mAcq : M .acq := by first | assumption | simp)
    (mProt : M .prot := by first | assumption | simp) (mDiff : M .diff := by first | assumption | simp)
    (mForm : M .form := by first | assumption | simp) (mGate : M .gate := by first | assumption | simp)
    (mLogic : M .logic := by first | assumption | simp) (mFio : M .fio := by first | assumption | simp)
    (mCapt : M .capt := by first | assumption | simp) (mLog : M .log := by first | assumption | simp) (mNet : M .net := by first | assumption | simp)
    (mPtp : M .ptp := by first | assumption | simp) (mChk : M .chk := by first | assumption | simp) (mHost : M .host := by first | assumption | simp)
    (mAdeid : M .adeid := by first | assumption | simp) (mSec : M .sec := by first | assumption | simp)
    (mDiag : M .diag := by first | assumption | simp) :
    Kept M a (State.crossWrite s src off v) := by
  unfold State.crossWrite
  with_reducible repeat' first
    | assumption
    | intro _
    | extract_lets
    | apply State.storeReg_kept
    | apply State.xingShadow_kept
    | apply State.xingStart_kept
    | apply Kept.ite

theorem State.bar0Write_kept (off : Nat) (v : Word) (h : Kept M a s) (mSys : M .sys := by first | assumption | simp)
    (mClk : M .clk := by first | assumption | simp) (mTide : M .tide := by first | assumption | simp) (mAcq : M .acq := by first | assumption | simp)
    (mProt : M .prot := by first | assumption | simp) (mDiff : M .diff := by first | assumption | simp)
    (mForm : M .form := by first | assumption | simp) (mGate : M .gate := by first | assumption | simp)
    (mLogic : M .logic := by first | assumption | simp) (mFio : M .fio := by first | assumption | simp)
    (mCapt : M .capt := by first | assumption | simp) (mLog : M .log := by first | assumption | simp) (mNet : M .net := by first | assumption | simp)
    (mPtp : M .ptp := by first | assumption | simp) (mChk : M .chk := by first | assumption | simp) (mHost : M .host := by first | assumption | simp)
    (mAdeid : M .adeid := by first | assumption | simp) (mSec : M .sec := by first | assumption | simp)
    (mDiag : M .diag := by first | assumption | simp) :
    Kept M a (State.bar0Write s off v) := by
  unfold State.bar0Write
  split
  · exact State.bar0Blocked_kept _ _ h ‹_›
  · exact State.answer_kept _ (State.crossWrite_kept _ _ _ h)

theorem State.xingDropped_kept (h : Kept M a s) (mClk : M .clk := by first | assumption | simp) :
    Kept M a (State.xingDropped s) := by
  unfold State.xingDropped
  with_reducible repeat' first | assumption | intro _ | extract_lets | apply State.onClk_kept

theorem State.innerWrite_kept (d off : Nat) (v : Word) (h : Kept M a s) (mSys : M .sys := by first | assumption | simp)
    (mClk : M .clk := by first | assumption | simp) (mTide : M .tide := by first | assumption | simp) (mAcq : M .acq := by first | assumption | simp)
    (mProt : M .prot := by first | assumption | simp) (mDiff : M .diff := by first | assumption | simp)
    (mForm : M .form := by first | assumption | simp) (mGate : M .gate := by first | assumption | simp)
    (mLogic : M .logic := by first | assumption | simp) (mFio : M .fio := by first | assumption | simp)
    (mCapt : M .capt := by first | assumption | simp) (mLog : M .log := by first | assumption | simp) (mNet : M .net := by first | assumption | simp)
    (mPtp : M .ptp := by first | assumption | simp) (mChk : M .chk := by first | assumption | simp) (mHost : M .host := by first | assumption | simp)
    (mAdeid : M .adeid := by first | assumption | simp) (mSec : M .sec := by first | assumption | simp)
    (mDiag : M .diag := by first | assumption | simp) :
    Kept M a (State.innerWrite s d off v) := by
  unfold State.innerWrite
  exact Kept.ite (fun _ => State.xingDropped_kept h) fun _ => State.crossWrite_kept _ _ _ h

theorem State.bar4Error_kept (cause : Nat) (node : Nat) (off : Nat) (write : Bool) (h : Kept M a s) (mHost : M .host := by first | assumption | simp) :
    Kept M a (State.bar4Error s cause node off write) := by
  unfold State.bar4Error
  with_reducible repeat' first | assumption | apply State.answer_kept | apply State.hostErr_kept

theorem State.regSend_kept (node : Nat) (off : Nat) (w : Option Word) (h : Kept M a s) (mHost : M .host := by first | assumption | simp)
    (mAdeid : M .adeid := by first | assumption | simp) :
    Kept M a (State.regSend s node off w) := by
  unfold State.regSend
  with_reducible repeat' first | assumption | intro _ | extract_lets | apply State.onHost_kept | apply State.adeidSend_kept

theorem State.regServe_kept (off : Nat) (w : Option Word) (h : Kept M a s) (mSys : M .sys := by first | assumption | simp)
    (mClk : M .clk := by first | assumption | simp) (mTide : M .tide := by first | assumption | simp) (mAcq : M .acq := by first | assumption | simp)
    (mProt : M .prot := by first | assumption | simp) (mDiff : M .diff := by first | assumption | simp)
    (mForm : M .form := by first | assumption | simp) (mGate : M .gate := by first | assumption | simp)
    (mLogic : M .logic := by first | assumption | simp) (mFio : M .fio := by first | assumption | simp)
    (mCapt : M .capt := by first | assumption | simp) (mLog : M .log := by first | assumption | simp) (mNet : M .net := by first | assumption | simp)
    (mPtp : M .ptp := by first | assumption | simp) (mChk : M .chk := by first | assumption | simp) (mHost : M .host := by first | assumption | simp)
    (mAdeid : M .adeid := by first | assumption | simp) (mSec : M .sec := by first | assumption | simp)
    (mDiag : M .diag := by first | assumption | simp) (mSnaps : M .snaps := by first | assumption | simp) :
    Kept M a (State.regServe s off w).2 := by
  unfold State.regServe
  with_reducible repeat' first
    | assumption
    | intro _
    | extract_lets
    | apply State.xingDropped_kept
    | apply State.crossWrite_kept
    | apply State.readReg_kept
    | apply Kept.ite
    | split

theorem State.regRequest_kept (x1 : RegIn) (h : Kept M a s) (mSys : M .sys := by first | assumption | simp) (mClk : M .clk := by first | assumption | simp)
    (mTide : M .tide := by first | assumption | simp) (mAcq : M .acq := by first | assumption | simp) (mProt : M .prot := by first | assumption | simp) (mDiff : M .diff := by first | assumption | simp)
    (mForm : M .form := by first | assumption | simp) (mGate : M .gate := by first | assumption | simp) (mLogic : M .logic := by first | assumption | simp) (mFio : M .fio := by first | assumption | simp)
    (mCapt : M .capt := by first | assumption | simp) (mLog : M .log := by first | assumption | simp) (mNet : M .net := by first | assumption | simp) (mPtp : M .ptp := by first | assumption | simp)
    (mChk : M .chk := by first | assumption | simp) (mHost : M .host := by first | assumption | simp) (mAdeid : M .adeid := by first | assumption | simp) (mSec : M .sec := by first | assumption | simp)
    (mDiag : M .diag := by first | assumption | simp) (mSnaps : M .snaps := by first | assumption | simp) :
    Kept M a (State.regRequest s x1) := by
  unfold State.regRequest
  with_reducible repeat' first
    | assumption
    | intro _
    | extract_lets
    | apply State.adeidSend_kept
    | apply State.countRefusal_kept
    | apply State.regServe_kept
    | apply State.spendToken_kept
    | apply Kept.ite
    | split

theorem State.regEnd_kept (req : Word) (h : Kept M a s) (mHost : M .host := by first | assumption | simp) : Kept M a (State.regEnd s req) := by
  unfold State.regEnd
  with_reducible repeat' first | assumption | intro _ | apply State.onHost_kept

theorem State.regError_kept (x1 : RegWait) (cause : Nat) (h : Kept M a s) (mHost : M .host := by first | assumption | simp) :
    Kept M a (State.regError s x1 cause) := by
  unfold State.regError
  with_reducible repeat' first | assumption | intro _ | apply State.bar4Error_kept | apply State.onHost_kept | apply State.regEnd_kept

theorem State.regAnswer_kept (req : Word) (az : RegAnswer) (h : Kept M a s) (mHost : M .host := by first | assumption | simp) :
    Kept M a (State.regAnswer s req az) := by
  unfold State.regAnswer
  with_reducible repeat' first | assumption | apply State.answer_kept | apply State.regEnd_kept | apply State.regError_kept | split

theorem execGateUplinkRx_kept (x0 : UplinkIn) (h : Kept M a s) (mGate : M .gate := by first | assumption | simp) (mLog : M .log := by first | assumption | simp)
    (mChk : M .chk := by first | assumption | simp) :
    KeptOut M a (execGateUplinkRx x0 s) := by
  unfold execGateUplinkRx
  with_reducible repeat' first
    | assumption
    | intro _
    | extract_lets
    | apply State.uplinkBad_kept
    | apply State.countAlive_kept
    | apply State.onGateLink_kept
    | apply State.admitUplink_kept
    | apply KeptOut.next
    | apply KeptOut.fault
    | apply KeptOut.ite
    | apply Kept.ite
    | split

theorem execGateRepeat_kept (br : Nat) (h : Kept M a s) (mFresh : M .fresh := by first | assumption | simp) (mForm : M .form := by first | assumption | simp)
    (mGate : M .gate := by first | assumption | simp) (mCapt : M .capt := by first | assumption | simp) (mLog : M .log := by first | assumption | simp) :
    KeptOut M a (execGateRepeat br s) := by
  unfold execGateRepeat
  with_reducible repeat' first
    | assumption
    | intro _
    | extract_lets
    | apply State.formOverrun_kept
    | apply State.sendRepeat_kept
    | apply State.sendBlock_kept
    | apply KeptOut.next
    | apply KeptOut.fault
    | apply KeptOut.ite
    | apply Kept.ite
    | split

theorem execGateBlockIdleSend_kept (br : Nat) (h : Kept M a s) (mFresh : M .fresh := by first | assumption | simp) (mGate : M .gate := by first | assumption | simp) :
    KeptOut M a (execGateBlockIdleSend br s) := by
  unfold execGateBlockIdleSend
  with_reducible repeat' first
    | assumption
    | intro _
    | extract_lets
    | apply State.onGateLink_kept
    | apply State.sendBlock_kept
    | apply KeptOut.next
    | apply KeptOut.fault
    | apply KeptOut.ite
    | apply Kept.ite
    | split

theorem execGateLinkDown_kept (br : Nat) (h : Kept M a s) (mGate : M .gate := by first | assumption | simp) (mLog : M .log := by first | assumption | simp) :
    KeptOut M a (execGateLinkDown br s) := by
  unfold execGateLinkDown
  with_reducible repeat' first | assumption | apply State.gateDown_kept | apply KeptOut.next

theorem execGateLinkUp_kept (br : Nat) (h : Kept M a s) (mGate : M .gate := by first | assumption | simp) (mLog : M .log := by first | assumption | simp) :
    KeptOut M a (execGateLinkUp br s) := by
  unfold execGateLinkUp
  with_reducible repeat' first
    | assumption
    | intro _
    | extract_lets
    | apply State.onGateLink_kept
    | apply State.report_kept
    | apply State.raise_kept
    | apply KeptOut.next
    | apply KeptOut.fault
    | apply KeptOut.ite
    | apply Kept.ite
    | split

theorem execGateClear_kept (b : Nat) (h : Kept M a s) (mGate : M .gate := by first | assumption | simp) (mLog : M .log := by first | assumption | simp)
    (mHost : M .host := by first | assumption | simp) :
    KeptOut M a (execGateClear b s) := by
  unfold execGateClear
  with_reducible repeat' first
    | assumption
    | intro _
    | apply State.runCtl_kept
    | apply State.done_kept
    | apply State.onGateLink_kept
    | apply KeptOut.next
    | apply KeptOut.fault
    | split

theorem execFormControlCycle_kept (u : Nat) (h : Kept M a s) (mForm : M .form := by first | assumption | simp)
    (mGate : M .gate := by first | assumption | simp) (mLogic : M .logic := by first | assumption | simp)
    (mCapt : M .capt := by first | assumption | simp) (mLog : M .log := by first | assumption | simp)
    (mHost : M .host := by first | assumption | simp) :
    KeptOut M a (execFormControlCycle u s) := by
  unfold execFormControlCycle
  with_reducible repeat' first
    | assumption
    | apply KeptOut.next
    | intro _
    | extract_lets
    | apply State.newBoundary_kept
    | apply State.onUnit_kept
    | apply State.autoIf_kept
    | apply State.markedStart_kept
    | apply State.unitCommands_kept
    | apply State.closeRequest_kept
    | apply Kept.ite
    | split
  all_goals first | assumption | exact h.same rfl rfl rfl rfl

theorem execFormCompute_kept (u : Nat) (h : Kept M a s) (mFresh : M .fresh := by first | assumption | simp) (mForm : M .form := by first | assumption | simp)
    (mGate : M .gate := by first | assumption | simp) (mLogic : M .logic := by first | assumption | simp) (mCapt : M .capt := by first | assumption | simp) (mLog : M .log := by first | assumption | simp) :
    KeptOut M a (execFormCompute u s) := by
  unfold execFormCompute
  with_reducible repeat' first
    | assumption
    | intro _
    | extract_lets
    | apply State.onUnit_kept
    | apply State.forEach_kept
    | apply State.takeUplink_kept
    | apply State.autoIf_kept
    | apply State.checkDc_kept
    | apply State.loseBridges_kept
    | apply State.handOver_kept
    | apply State.computeUnit_kept
    | apply KeptOut.next
    | apply KeptOut.fault
    | apply KeptOut.ite
    | apply Kept.ite
    | split

theorem execFormLockstep_kept (u : Nat) (h : Kept M a s) (mFresh : M .fresh := by first | assumption | simp) (mForm : M .form := by first | assumption | simp)
    (mGate : M .gate := by first | assumption | simp) (mCapt : M .capt := by first | assumption | simp) (mLog : M .log := by first | assumption | simp) :
    KeptOut M a (execFormLockstep u s) := by
  unfold execFormLockstep
  with_reducible repeat' first
    | assumption
    | intro _
    | extract_lets
    | apply State.report_kept
    | apply State.raise_kept
    | apply State.onUnit_kept
    | apply State.formBlocked_kept
    | apply State.handOver_kept
    | apply KeptOut.next
    | apply KeptOut.fault
    | apply KeptOut.ite
    | apply Kept.ite
    | split

theorem execFrtEnd_kept (u : Nat) (h : Kept M a s) (mForm : M .form := by first | assumption | simp) (mLogic : M .logic := by first | assumption | simp)
    (mCapt : M .capt := by first | assumption | simp) (mLog : M .log := by first | assumption | simp) :
    KeptOut M a (execFrtEnd u s) := by
  unfold execFrtEnd
  with_reducible repeat' first | assumption | intro _ | apply State.autoIf_kept | apply KeptOut.next

theorem execFrtEnvelope_kept (u : Nat) (h : Kept M a s) (mForm : M .form := by first | assumption | simp) (mLogic : M .logic := by first | assumption | simp)
    (mCapt : M .capt := by first | assumption | simp) (mLog : M .log := by first | assumption | simp) :
    KeptOut M a (execFrtEnvelope u s) := by
  unfold execFrtEnvelope
  with_reducible repeat' first | assumption | intro _ | apply State.autoIf_kept | apply KeptOut.next

theorem execFormReady_kept (u : Nat) (h : Kept M a s) (mForm : M .form := by first | assumption | simp) (mLogic : M .logic := by first | assumption | simp)
    (mCapt : M .capt := by first | assumption | simp) (mLog : M .log := by first | assumption | simp) :
    KeptOut M a (execFormReady u s) := by
  unfold execFormReady
  with_reducible repeat' first | assumption | intro _ | apply State.autoIf_kept | apply KeptOut.next

theorem execFormConnectDone_kept (u : Nat) (h : Kept M a s) (mForm : M .form := by first | assumption | simp) (mLogic : M .logic := by first | assumption | simp)
    (mCapt : M .capt := by first | assumption | simp) (mLog : M .log := by first | assumption | simp) :
    KeptOut M a (execFormConnectDone u s) := by
  unfold execFormConnectDone
  with_reducible repeat' first | assumption | intro _ | apply State.autoIf_kept | apply KeptOut.next

theorem execFormEnergiseTimeout_kept (u : Nat) (h : Kept M a s) (mForm : M .form := by first | assumption | simp) (mLogic : M .logic := by first | assumption | simp)
    (mCapt : M .capt := by first | assumption | simp) (mLog : M .log := by first | assumption | simp) :
    KeptOut M a (execFormEnergiseTimeout u s) := by
  unfold execFormEnergiseTimeout
  with_reducible repeat' first | assumption | intro _ | apply State.autoIf_kept | apply KeptOut.next

theorem execFormResyncTimeout_kept (u : Nat) (h : Kept M a s) (mForm : M .form := by first | assumption | simp) (mLogic : M .logic := by first | assumption | simp)
    (mCapt : M .capt := by first | assumption | simp) (mLog : M .log := by first | assumption | simp) :
    KeptOut M a (execFormResyncTimeout u s) := by
  unfold execFormResyncTimeout
  with_reducible repeat' first | assumption | intro _ | apply State.autoIf_kept | apply KeptOut.next

theorem execFormStopped_kept (u : Nat) (h : Kept M a s) (mForm : M .form := by first | assumption | simp) (mLogic : M .logic := by first | assumption | simp)
    (mCapt : M .capt := by first | assumption | simp) (mLog : M .log := by first | assumption | simp) :
    KeptOut M a (execFormStopped u s) := by
  unfold execFormStopped
  with_reducible repeat' first | assumption | intro _ | apply State.autoIf_kept | apply KeptOut.next

theorem execFormCircTrip_kept (u : Nat) (h : Kept M a s) (mForm : M .form := by first | assumption | simp) (mLogic : M .logic := by first | assumption | simp)
    (mCapt : M .capt := by first | assumption | simp) (mLog : M .log := by first | assumption | simp) :
    KeptOut M a (execFormCircTrip u s) := by
  unfold execFormCircTrip
  with_reducible repeat' first | assumption | intro _ | apply State.autoIf_kept | apply KeptOut.next

theorem execFormHoldTimeout_kept (u : Nat) (h : Kept M a s) (mForm : M .form := by first | assumption | simp) (mLogic : M .logic := by first | assumption | simp)
    (mCapt : M .capt := by first | assumption | simp) (mLog : M .log := by first | assumption | simp) :
    KeptOut M a (execFormHoldTimeout u s) := by
  unfold execFormHoldTimeout
  with_reducible repeat' first | assumption | intro _ | apply State.autoIf_kept | apply KeptOut.next

theorem execFormStart_kept (b : Nat) (h : Kept M a s) (mForm : M .form := by first | assumption | simp) (mLog : M .log := by first | assumption | simp)
    (mHost : M .host := by first | assumption | simp) :
    KeptOut M a (execFormStart b s) := by
  unfold execFormStart
  with_reducible repeat' first | assumption | apply State.unitCtl_kept | apply KeptOut.next | apply KeptOut.fault | split

theorem execFormBlackStart_kept (b : Nat) (h : Kept M a s) (mForm : M .form := by first | assumption | simp) (mLog : M .log := by first | assumption | simp)
    (mHost : M .host := by first | assumption | simp) :
    KeptOut M a (execFormBlackStart b s) := by
  unfold execFormBlackStart
  with_reducible repeat' first | assumption | apply State.unitCtl_kept | apply KeptOut.next | apply KeptOut.fault | split

theorem execFormResync_kept (b : Nat) (h : Kept M a s) (mForm : M .form := by first | assumption | simp) (mLog : M .log := by first | assumption | simp)
    (mHost : M .host := by first | assumption | simp) :
    KeptOut M a (execFormResync b s) := by
  unfold execFormResync
  with_reducible repeat' first | assumption | apply State.unitCtl_kept | apply KeptOut.next | apply KeptOut.fault | split

theorem execFormResyncCancel_kept (b : Nat) (h : Kept M a s) (mForm : M .form := by first | assumption | simp) (mLog : M .log := by first | assumption | simp)
    (mHost : M .host := by first | assumption | simp) :
    KeptOut M a (execFormResyncCancel b s) := by
  unfold execFormResyncCancel
  with_reducible repeat' first | assumption | apply State.unitCtl_kept | apply KeptOut.next | apply KeptOut.fault | split

theorem execFormStop_kept (b : Nat) (h : Kept M a s) (mForm : M .form := by first | assumption | simp) (mLog : M .log := by first | assumption | simp)
    (mHost : M .host := by first | assumption | simp) :
    KeptOut M a (execFormStop b s) := by
  unfold execFormStop
  with_reducible repeat' first | assumption | apply State.unitCtl_kept | apply KeptOut.next | apply KeptOut.fault | split

theorem execFormBlock_kept (b : Nat) (h : Kept M a s) (mForm : M .form := by first | assumption | simp) (mLog : M .log := by first | assumption | simp)
    (mHost : M .host := by first | assumption | simp) :
    KeptOut M a (execFormBlock b s) := by
  unfold execFormBlock
  with_reducible repeat' first | assumption | apply State.unitCtl_kept | apply KeptOut.next | apply KeptOut.fault | split

theorem execFormReset_kept (b : Nat) (h : Kept M a s) (mForm : M .form := by first | assumption | simp) (mLog : M .log := by first | assumption | simp)
    (mHost : M .host := by first | assumption | simp) :
    KeptOut M a (execFormReset b s) := by
  unfold execFormReset
  with_reducible repeat' first | assumption | apply State.unitCtl_kept | apply KeptOut.next | apply KeptOut.fault | split

theorem execFormSetpoint_kept (b : Nat) (h : Kept M a s) (mForm : M .form := by first | assumption | simp) (mLog : M .log := by first | assumption | simp)
    (mHost : M .host := by first | assumption | simp) :
    KeptOut M a (execFormSetpoint b s) := by
  unfold execFormSetpoint
  with_reducible repeat' first | assumption | apply State.unitCtl_kept | apply KeptOut.next | apply KeptOut.fault | split

theorem execFormStage_kept (b : Nat) (h : Kept M a s) (mForm : M .form := by first | assumption | simp) (mLog : M .log := by first | assumption | simp)
    (mHost : M .host := by first | assumption | simp) :
    KeptOut M a (execFormStage b s) := by
  unfold execFormStage
  with_reducible repeat' first | assumption | apply State.unitCtl_kept | apply KeptOut.next | apply KeptOut.fault | split

theorem execBridgeRestore_kept (b : Nat) (h : Kept M a s) (mForm : M .form := by first | assumption | simp) (mLog : M .log := by first | assumption | simp)
    (mHost : M .host := by first | assumption | simp) :
    KeptOut M a (execBridgeRestore b s) := by
  refine KeptOut.next ?_
  split
  · split
    · exact State.unitCtl_kept _ _ _ h
    · exact State.runCtl_kept _ _ _ h fun _ k => k
  · exact h

theorem execFormStepApply_kept (u : Nat) (h : Kept M a s) (mForm : M .form := by first | assumption | simp) (mLog : M .log := by first | assumption | simp) :
    KeptOut M a (execFormStepApply u s) := by
  unfold execFormStepApply
  with_reducible repeat' first
    | assumption
    | intro _
    | apply State.onUnit_kept
    | apply State.report_kept
    | apply State.raise_kept
    | apply KeptOut.next
    | apply KeptOut.fault
    | apply KeptOut.ite
    | apply Kept.ite
    | split

theorem execFormAutostart_kept (u : Nat) (h : Kept M a s) (mForm : M .form := by first | assumption | simp) (mLog : M .log := by first | assumption | simp) :
    KeptOut M a (execFormAutostart u s) := by
  unfold execFormAutostart
  with_reducible repeat' first
    | assumption
    | intro _
    | extract_lets
    | apply State.onUnit_kept
    | apply State.refuseInternal_kept
    | apply State.queueUnit_kept
    | apply KeptOut.next
    | apply KeptOut.fault
    | apply KeptOut.ite
    | apply Kept.ite
    | split

theorem execLogCommitDone_kept (readback : Bool) (h : Kept M a s) (mLog : M .log := by first | assumption | simp)
    (mDiag : M .diag := by first | assumption | simp) :
    KeptOut M a (execLogCommitDone readback s) := by
  unfold execLogCommitDone
  with_reducible repeat' first
    | assumption
    | apply KeptOut.next
    | intro _
    | extract_lets
    | apply State.onLog_kept
    | apply State.logCommit_kept
    | apply State.closeTail_kept
    | apply State.commitEntry_kept
    | apply State.endOverflow_kept
    | apply Kept.ite
    | split

theorem execLogTailUpdate_kept (h : Kept M a s) (mLog : M .log := by first | assumption | simp) : KeptOut M a (execLogTailUpdate s) := by
  unfold execLogTailUpdate
  with_reducible repeat' first
    | assumption
    | intro _
    | extract_lets
    | apply State.onLog_kept
    | apply KeptOut.next
    | apply KeptOut.fault
    | apply KeptOut.ite
    | apply Kept.ite

theorem execLogTailFold_kept (h : Kept M a s) (mLog : M .log := by first | assumption | simp) : KeptOut M a (execLogTailFold s) := by
  unfold execLogTailFold
  with_reducible repeat' first
    | assumption
    | intro _
    | apply State.closeTail_kept
    | apply KeptOut.next
    | apply KeptOut.fault
    | apply KeptOut.ite
    | apply Kept.ite
    | split

theorem execLogHCursorWrite_kept (hz : Nat) (lo : Word) (h : Kept M a s) (mLog : M .log := by first | assumption | simp) :
    KeptOut M a (execLogHCursorWrite hz lo s) := by
  unfold execLogHCursorWrite
  with_reducible repeat' first | assumption | apply State.cursorWrite_kept | apply KeptOut.next

theorem execLogHStatRead_kept (hz : Nat) (h : Kept M a s) (mLog : M .log := by first | assumption | simp)
    (mChk : M .chk := by first | assumption | simp) (mHost : M .host := by first | assumption | simp) :
    KeptOut M a (execLogHStatRead hz s) := by
  unfold execLogHStatRead
  with_reducible repeat' first
    | assumption
    | apply KeptOut.next
    | intro _
    | extract_lets
    | apply State.onLog_kept
    | apply State.forEach_kept
    | apply State.checkFailed_kept
    | apply State.answer_kept
    | apply Kept.ite

theorem execLogCheckFailWindowEnd_kept (h : Kept M a s) (mLog : M .log := by first | assumption | simp) : KeptOut M a (execLogCheckFailWindowEnd s) := by
  unfold execLogCheckFailWindowEnd
  with_reducible repeat' first
    | assumption
    | intro _
    | apply State.endCheckWindow_kept
    | apply KeptOut.next
    | apply KeptOut.fault
    | apply KeptOut.ite
    | apply Kept.ite

theorem execLogStageRead_kept (h : Kept M a s) (mLog : M .log := by first | assumption | simp) (mHost : M .host := by first | assumption | simp) :
    KeptOut M a (execLogStageRead s) := by
  unfold execLogStageRead
  with_reducible repeat' first | assumption | intro _ | apply State.answer_kept | apply State.onLog_kept | apply KeptOut.next

theorem execBar2Read_kept (offset : Nat) (ecc : Bool) (h : Kept M a s) (mCapt : M .capt := by first | assumption | simp) (mLog : M .log := by first | assumption | simp)
    (mHost : M .host := by first | assumption | simp) :
    KeptOut M a (execBar2Read offset ecc s) := by
  unfold execBar2Read
  with_reducible repeat' first
    | assumption
    | intro _
    | extract_lets
    | apply State.answer_kept
    | apply State.hostErr_kept
    | apply State.onHost_kept
    | apply State.captEcc_kept
    | apply KeptOut.next
    | apply KeptOut.fault
    | apply KeptOut.ite
    | apply Kept.ite

theorem execChkEGo_kept (n : Nat) (v : Word) (h : Kept M a s) (mChk : M .chk := by first | assumption | simp) : KeptOut M a (execChkEGo n v s) := by
  unfold execChkEGo
  with_reducible repeat' first | assumption | apply State.chkWrite_kept | apply KeptOut.next

theorem execChkEDone_kept (x0 : ChkIn) (h : Kept M a s) (mChk : M .chk := by first | assumption | simp) : KeptOut M a (execChkEDone x0 s) := by
  unfold execChkEDone
  with_reducible repeat' first
    | assumption
    | intro _
    | extract_lets
    | apply State.onChkEngine_kept
    | apply KeptOut.next
    | apply KeptOut.fault
    | apply KeptOut.ite
    | apply Kept.ite

theorem execChkKat_kept (x0 : ChkKatIn) (h : Kept M a s) (mLog : M .log := by first | assumption | simp) (mChk : M .chk := by first | assumption | simp)
    (mDiag : M .diag := by first | assumption | simp) :
    KeptOut M a (execChkKat x0 s) := by
  unfold execChkKat
  with_reducible repeat' first
    | assumption
    | intro _
    | apply State.chkKat_kept
    | apply KeptOut.next
    | apply KeptOut.fault
    | apply KeptOut.ite
    | apply Kept.ite

theorem execSnapshotLowWordRead_kept (who : Requester) (offset : Nat) (h : Kept M a s) (mSys : M .sys := by first | assumption | simp)
    (mClk : M .clk := by first | assumption | simp) (mLog : M .log := by first | assumption | simp) (mChk : M .chk := by first | assumption | simp)
    (mHost : M .host := by first | assumption | simp) (mSnaps : M .snaps := by first | assumption | simp) :
    KeptOut M a (execSnapshotLowWordRead who offset s) := by
  unfold execSnapshotLowWordRead
  exact inBar0_kept _ (State.bar0Read_kept _ _ h)

theorem execEvcntWord0Read_kept (who : Requester) (slot : Nat) (h : Kept M a s) (mSys : M .sys := by first | assumption | simp)
    (mClk : M .clk := by first | assumption | simp) (mLog : M .log := by first | assumption | simp) (mChk : M .chk := by first | assumption | simp)
    (mHost : M .host := by first | assumption | simp) (mSnaps : M .snaps := by first | assumption | simp) :
    KeptOut M a (execEvcntWord0Read who slot s) := by
  unfold execEvcntWord0Read
  with_reducible repeat' first | assumption | apply KeptOut.next | intro _ | extract_lets | apply State.bar0Read_kept

theorem execHostBerthUseRead_kept (h : Kept M a s) (mSys : M .sys := by first | assumption | simp) (mClk : M .clk := by first | assumption | simp)
    (mLog : M .log := by first | assumption | simp) (mChk : M .chk := by first | assumption | simp) (mHost : M .host := by first | assumption | simp)
    (mSnaps : M .snaps := by first | assumption | simp) :
    KeptOut M a (execHostBerthUseRead s) := by
  unfold execHostBerthUseRead
  with_reducible repeat' first | assumption | apply KeptOut.next | intro _ | extract_lets | apply State.bar0Read_kept

theorem execBar0BadWrite_kept (h : Kept M a s) (mHost : M .host := by first | assumption | simp) : KeptOut M a (execBar0BadWrite s) := by
  unfold execBar0BadWrite
  with_reducible repeat' first | assumption | intro _ | apply State.answer_kept | apply State.onHost_kept | apply KeptOut.next

theorem execUninstAccess_kept (blk : Blk) (h : Kept M a s) (mSys : M .sys := by first | assumption | simp) (mHost : M .host := by first | assumption | simp) :
    KeptOut M a (execUninstAccess blk s) := by
  unfold execUninstAccess
  with_reducible repeat' first | assumption | apply State.answer_kept | apply State.noteUninst_kept | apply KeptOut.next

theorem execStoppedDomainAccess_kept (offset : Nat) (write : Bool) (h : Kept M a s) (mClk : M .clk := by first | assumption | simp)
    (mHost : M .host := by first | assumption | simp) :
    KeptOut M a (execStoppedDomainAccess offset write s) := by
  refine KeptOut.ite (fun _ => KeptOut.next ?_) fun _ => KeptOut.fault _
  cases e : s.bar0Blocked offset write with
  | none => exact h
  | some t => exact State.bar0Blocked_kept _ _ h e

theorem execLogIntake_kept (h : Kept M a s) (mLog : M .log := by first | assumption | simp) (mSnaps : M .snaps := by first | assumption | simp) :
    KeptOut M a (execLogIntake s) := by
  unfold execLogIntake
  with_reducible repeat' first | assumption | apply State.logIntake_kept | apply KeptOut.next

theorem execBar2Write_kept (offset : Nat) (h : Kept M a s) (mHost : M .host := by first | assumption | simp) : KeptOut M a (execBar2Write offset s) := by
  unfold execBar2Write
  with_reducible repeat' first
    | assumption
    | intro _
    | apply State.answer_kept
    | apply State.onHost_kept
    | apply KeptOut.next
    | apply KeptOut.fault
    | apply KeptOut.ite

theorem execHostLinkUp_kept (h : Kept M a s) (mHost : M .host := by first | assumption | simp) : KeptOut M a (execHostLinkUp s) := by
  unfold execHostLinkUp
  with_reducible repeat' first
    | assumption
    | intro _
    | apply State.onHost_kept
    | apply KeptOut.next
    | apply KeptOut.fault
    | apply KeptOut.ite
    | apply Kept.ite

theorem execHostLinkDown_kept (h : Kept M a s) (mLog : M .log := by first | assumption | simp) (mHost : M .host := by first | assumption | simp) :
    KeptOut M a (execHostLinkDown s) := by
  unfold execHostLinkDown
  with_reducible repeat' first
    | assumption
    | intro _
    | apply State.hostGone_kept
    | apply KeptOut.next
    | apply KeptOut.fault
    | apply KeptOut.ite
    | apply Kept.ite

theorem execHostSqDb_kept (r : Nat) (v : Word) (h : Kept M a s) (mLog : M .log := by first | assumption | simp) (mHost : M .host := by first | assumption | simp) :
    KeptOut M a (execHostSqDb r v s) := by
  unfold execHostSqDb
  with_reducible repeat' first | assumption | apply State.sqDoorbell_kept | apply KeptOut.next

theorem execHostCqDb_kept (r : Nat) (v : Word) (h : Kept M a s) (mLog : M .log := by first | assumption | simp) (mHost : M .host := by first | assumption | simp) :
    KeptOut M a (execHostCqDb r v s) := by
  unfold execHostCqDb
  with_reducible repeat' first | assumption | apply State.cqDoorbell_kept | apply KeptOut.next

theorem execHostRingCtrlWrite_kept (r : Nat) (v : Word) (h : Kept M a s) (mHost : M .host := by first | assumption | simp) :
    KeptOut M a (execHostRingCtrlWrite r v s) := by
  unfold execHostRingCtrlWrite
  with_reducible repeat' first | assumption | apply State.ringCtrl_kept | apply KeptOut.next

theorem execHostFrDb_kept (x0 : FrDbIn) (h : Kept M a s) (mLog : M .log := by first | assumption | simp) (mNet : M .net := by first | assumption | simp)
    (mPtp : M .ptp := by first | assumption | simp) (mHost : M .host := by first | assumption | simp) :
    KeptOut M a (execHostFrDb x0 s) := by
  unfold execHostFrDb
  with_reducible repeat' first | assumption | apply State.frDoorbell_kept | apply KeptOut.next

theorem execHostEntryArrival_kept (r : Nat) (e : Entry) (h : Kept M a s) (mTide : M .tide := by first | assumption | simp) (mLog : M .log := by first | assumption | simp)
    (mHost : M .host := by first | assumption | simp) (mAdeid : M .adeid := by first | assumption | simp) (mSec : M .sec := by first | assumption | simp) :
    KeptOut M a (execHostEntryArrival r e s) := by
  unfold execHostEntryArrival
  with_reducible repeat' first
    | assumption
    | intro _
    | apply State.ringEntry_kept
    | apply State.onRing_kept
    | apply KeptOut.next
    | apply KeptOut.fault
    | apply KeptOut.ite
    | apply Kept.ite

theorem execBerthBulkDone_kept (b : Nat) (h : Kept M a s) (mHost : M .host := by first | assumption | simp) : KeptOut M a (execBerthBulkDone b s) := by
  unfold execBerthBulkDone
  with_reducible repeat' first
    | assumption
    | intro _
    | extract_lets
    | apply State.onHost_kept
    | apply State.onItem_kept
    | apply KeptOut.next
    | apply KeptOut.fault
    | apply KeptOut.ite
    | apply Kept.ite
    | split

theorem execBerthSigDone_kept (b : Nat) (valid : Bool) (h : Kept M a s) (mAcq : M .acq := by first | assumption | simp) (mLog : M .log := by first | assumption | simp)
    (mHost : M .host := by first | assumption | simp) (mSec : M .sec := by first | assumption | simp) :
    KeptOut M a (execBerthSigDone b valid s) := by
  unfold execBerthSigDone
  with_reducible repeat' first
    | assumption
    | intro _
    | extract_lets
    | apply State.onHost_kept
    | apply State.when_kept
    | apply State.onSec_kept
    | apply State.onItem_kept
    | apply State.sigFailed_kept
    | apply KeptOut.next
    | apply KeptOut.fault
    | apply KeptOut.ite
    | apply Kept.ite
    | split
  all_goals first | exact SecKept.same rfl rfl rfl rfl rfl

theorem execHostCompletionWrite_kept (b : Nat) (h : Kept M a s) (mLog : M .log := by first | assumption | simp) (mHost : M .host := by first | assumption | simp)
    (mAdeid : M .adeid := by first | assumption | simp) :
    KeptOut M a (execHostCompletionWrite b s) := by
  unfold execHostCompletionWrite
  with_reducible repeat' first | assumption | apply State.completeItem_kept | apply State.runQuery_kept | apply KeptOut.next

theorem execHostForwardNoAnswer_kept (req : Word) (h : Kept M a s) (mHost : M .host := by first | assumption | simp) :
    KeptOut M a (execHostForwardNoAnswer req s) := by
  unfold execHostForwardNoAnswer
  with_reducible repeat' first
    | assumption
    | intro _
    | extract_lets
    | apply State.raise_kept
    | apply State.onHost_kept
    | apply State.forwardDone_kept
    | apply KeptOut.next
    | apply KeptOut.fault
    | apply KeptOut.ite
    | apply Kept.ite
    | split

theorem execBar4Access_kept (x0 : Bar4In) (h : Kept M a s) (mSys : M .sys := by first | assumption | simp) (mClk : M .clk := by first | assumption | simp)
    (mTide : M .tide := by first | assumption | simp) (mAcq : M .acq := by first | assumption | simp) (mProt : M .prot := by first | assumption | simp) (mDiff : M .diff := by first | assumption | simp)
    (mForm : M .form := by first | assumption | simp) (mGate : M .gate := by first | assumption | simp) (mLogic : M .logic := by first | assumption | simp) (mFio : M .fio := by first | assumption | simp)
    (mCapt : M .capt := by first | assumption | simp) (mLog : M .log := by first | assumption | simp) (mNet : M .net := by first | assumption | simp) (mPtp : M .ptp := by first | assumption | simp)
    (mChk : M .chk := by first | assumption | simp) (mHost : M .host := by first | assumption | simp) (mAdeid : M .adeid := by first | assumption | simp) (mSec : M .sec := by first | assumption | simp)
    (mDiag : M .diag := by first | assumption | simp) (mSnaps : M .snaps := by first | assumption | simp) :
    KeptOut M a (execBar4Access x0 s) := by
  unfold execBar4Access
  with_reducible repeat' first
    | assumption
    | intro _
    | extract_lets
    | apply State.bar4Error_kept
    | apply State.bar0Write_kept
    | apply State.bar0Read_kept
    | apply State.regSend_kept
    | apply KeptOut.next
    | apply KeptOut.fault
    | apply KeptOut.ite
    | apply Kept.ite
    | split

theorem execRegRequestRx_kept (x0 : RegIn) (h : Kept M a s) (mSys : M .sys := by first | assumption | simp) (mClk : M .clk := by first | assumption | simp)
    (mTide : M .tide := by first | assumption | simp) (mAcq : M .acq := by first | assumption | simp) (mProt : M .prot := by first | assumption | simp) (mDiff : M .diff := by first | assumption | simp)
    (mForm : M .form := by first | assumption | simp) (mGate : M .gate := by first | assumption | simp) (mLogic : M .logic := by first | assumption | simp) (mFio : M .fio := by first | assumption | simp)
    (mCapt : M .capt := by first | assumption | simp) (mLog : M .log := by first | assumption | simp) (mNet : M .net := by first | assumption | simp) (mPtp : M .ptp := by first | assumption | simp)
    (mChk : M .chk := by first | assumption | simp) (mHost : M .host := by first | assumption | simp) (mAdeid : M .adeid := by first | assumption | simp) (mSec : M .sec := by first | assumption | simp)
    (mDiag : M .diag := by first | assumption | simp) (mSnaps : M .snaps := by first | assumption | simp) :
    KeptOut M a (execRegRequestRx x0 s) := by
  unfold execRegRequestRx
  with_reducible repeat' first | assumption | apply State.regRequest_kept | apply KeptOut.next

theorem execRegAnswerRx_kept (req : Word) (az : RegAnswer) (h : Kept M a s) (mHost : M .host := by first | assumption | simp) :
    KeptOut M a (execRegAnswerRx req az s) := by
  unfold execRegAnswerRx
  with_reducible repeat' first | assumption | apply State.regAnswer_kept | apply KeptOut.next

theorem execRegTimeout_kept (req : Word) (h : Kept M a s) (mHost : M .host := by first | assumption | simp) : KeptOut M a (execRegTimeout req s) := by
  unfold execRegTimeout
  with_reducible repeat' first
    | assumption
    | intro _
    | apply State.regError_kept
    | apply KeptOut.next
    | apply KeptOut.fault
    | apply KeptOut.ite
    | apply Kept.ite
    | split

theorem execW1cWrite_kept (offset : Nat) (v : Word) (h : Kept M a s) (mSys : M .sys := by first | assumption | simp) (mClk : M .clk := by first | assumption | simp)
    (mTide : M .tide := by first | assumption | simp) (mAcq : M .acq := by first | assumption | simp) (mProt : M .prot := by first | assumption | simp) (mDiff : M .diff := by first | assumption | simp)
    (mForm : M .form := by first | assumption | simp) (mGate : M .gate := by first | assumption | simp) (mLogic : M .logic := by first | assumption | simp) (mFio : M .fio := by first | assumption | simp)
    (mCapt : M .capt := by first | assumption | simp) (mLog : M .log := by first | assumption | simp) (mNet : M .net := by first | assumption | simp) (mPtp : M .ptp := by first | assumption | simp)
    (mChk : M .chk := by first | assumption | simp) (mHost : M .host := by first | assumption | simp) (mAdeid : M .adeid := by first | assumption | simp) (mSec : M .sec := by first | assumption | simp)
    (mDiag : M .diag := by first | assumption | simp) :
    KeptOut M a (execW1cWrite offset v s) := by
  unfold execW1cWrite
  with_reducible repeat' first | assumption | apply inBar0_kept | apply State.bar0Write_kept

theorem execRegisterWrite_kept (offset : Nat) (v : Word) (who : Writer) (h : Kept M a s) (mSys : M .sys := by first | assumption | simp)
    (mClk : M .clk := by first | assumption | simp) (mTide : M .tide := by first | assumption | simp) (mAcq : M .acq := by first | assumption | simp)
    (mProt : M .prot := by first | assumption | simp) (mDiff : M .diff := by first | assumption | simp)
    (mForm : M .form := by first | assumption | simp) (mGate : M .gate := by first | assumption | simp)
    (mLogic : M .logic := by first | assumption | simp) (mFio : M .fio := by first | assumption | simp)
    (mCapt : M .capt := by first | assumption | simp) (mLog : M .log := by first | assumption | simp) (mNet : M .net := by first | assumption | simp)
    (mPtp : M .ptp := by first | assumption | simp) (mChk : M .chk := by first | assumption | simp) (mHost : M .host := by first | assumption | simp)
    (mAdeid : M .adeid := by first | assumption | simp) (mSec : M .sec := by first | assumption | simp)
    (mDiag : M .diag := by first | assumption | simp) :
    KeptOut M a (execRegisterWrite offset v who s) := by
  unfold execRegisterWrite
  refine inBar0_kept _ ?_
  split
  · exact State.bar0Write_kept _ _ h
  · exact State.innerWrite_kept _ _ _ h

end Sys2Proof.Machine
end

