-- ==== Sys2Proof/Laws/KeptRows.lean ====
section
/-! SUPPORT. What is kept, one lemma per operation: the other commands and the tick. -/

namespace Sys2Proof.Machine

set_option Elab.async false

open Sys2Proof

variable {M : Part → Prop} {a s : State}

theorem State.sumMember_kept (zi : Nat) (z : Zone) (r : ZoneRing) (port : Nat) (f : SumFrame) (h : Kept M a s)
    (mDiff : M .diff := by first | assumption | simp) (mLog : M .log := by first | assumption | simp) (mNet : M .net := by first | assumption | simp)
    (mAdeid : M .adeid := by first | assumption | simp) :
    Kept M a (State.sumMember s zi z r port f) := by
  unfold State.sumMember
  with_reducible repeat' first
    | assumption
    | intro _
    | extract_lets
    | apply State.onDiff_kept
    | apply State.raise_kept
    | apply State.onZone_kept
    | apply State.onInstant_kept
    | apply State.headPasses_kept
    | apply State.withhold_kept
    | apply State.sumForward_kept
    | apply State.takeTotals_kept
    | apply State.addOwn_kept
    | apply Kept.ite
    | split

theorem State.sumSpoil_kept (r : ZoneRing) (i : Nat) (f : SumFrame) (h : Kept M a s) (mNet : M .net := by first | assumption | simp)
    (mAdeid : M .adeid := by first | assumption | simp) :
    Kept M a (State.sumSpoil s r i f) := by
  unfold State.sumSpoil
  with_reducible repeat' first | assumption | intro _ | extract_lets | apply State.when_kept | apply State.sumOut_kept

theorem State.sumRx_kept (x : SumIn) (h : Kept M a s) (mDiff : M .diff := by first | assumption | simp)
    (mLog : M .log := by first | assumption | simp) (mNet : M .net := by first | assumption | simp) (mChk : M .chk := by first | assumption | simp)
    (mAdeid : M .adeid := by first | assumption | simp) :
    Kept M a (State.sumRx s x) := by
  unfold State.sumRx
  with_reducible repeat' first
    | assumption
    | intro _
    | extract_lets
    | apply State.onDiff_kept
    | apply State.raise_kept
    | apply State.diffJoin_kept
    | apply State.onZone_kept
    | apply State.pathFail_kept
    | apply State.sumSpoil_kept
    | apply State.hopLimit_kept
    | apply State.sumForward_kept
    | apply State.sumMember_kept
    | apply Kept.ite
    | split
    | (dsimp +zetaDelta only; split)

theorem State.linkRx_kept (q : Nat) (node : Nat) (device : Nat) (freed : List (BitVec 16)) (h : Kept M a s) (mAdeid : M .adeid := by first | assumption | simp) :
    Kept M a (State.linkRx s q node device freed) := by
  unfold State.linkRx
  with_reducible repeat' first | assumption | intro _ | apply State.onLink_kept | apply Kept.ite

theorem State.linkMiswired_kept (q : Nat) (h : Kept M a s) (mLog : M .log := by first | assumption | simp) (mAdeid : M .adeid := by first | assumption | simp) :
    Kept M a (State.linkMiswired s q) := by
  unfold State.linkMiswired
  with_reducible repeat' first | assumption | intro _ | extract_lets | apply State.report_kept | apply State.raise_kept | apply State.onLink_kept

theorem State.adeidDiscard_kept (h : Kept M a s) (mAdeid : M .adeid := by first | assumption | simp) : Kept M a (State.adeidDiscard s) := by
  unfold State.adeidDiscard
  with_reducible repeat' first | assumption | intro _ | apply State.onAdeid_kept

theorem State.adeidDup_kept (h : Kept M a s) (mAdeid : M .adeid := by first | assumption | simp) : Kept M a (State.adeidDup s) := by
  unfold State.adeidDup
  with_reducible repeat' first | assumption | intro _ | apply State.onAdeid_kept

theorem State.adeidForward_kept (q : Nat) (f : AdeidFrame) (h : Kept M a s) (mAdeid : M .adeid := by first | assumption | simp) :
    Kept M a (State.adeidForward s q f) := by
  unfold State.adeidForward
  with_reducible repeat' first
    | assumption
    | intro _
    | extract_lets
    | apply State.adeidDiscard_kept
    | apply State.adeidPut_kept
    | apply State.onAdeid_kept
    | apply Kept.ite

theorem State.adeidRemember_kept (src : Nat) (c : AdeidClass) (id : Word × Nat) (h : Kept M a s) (mAdeid : M .adeid := by first | assumption | simp) :
    Kept M a (State.adeidRemember s src c id) := by
  unfold State.adeidRemember
  with_reducible repeat' first | assumption | intro _ | apply State.onAdeid_kept

theorem State.topoRx_kept (src : Nat) (secondary : Bool) (seq : Nat) (links : List Bool) (h : Kept M a s) (mLog : M .log := by first | assumption | simp)
    (mAdeid : M .adeid := by first | assumption | simp) :
    Kept M a (State.topoRx s src secondary seq links) := by
  unfold State.topoRx
  with_reducible repeat' first
    | assumption
    | intro _
    | extract_lets
    | apply State.onAdeid_kept
    | apply State.recomputeReach_kept
    | apply State.when_kept
    | apply State.adeidDup_kept

theorem State.adeidTake_kept (f : AdeidFrame) (az : AdeidPayload) (h : Kept M a s) (mSys : M .sys := by first | assumption | simp)
    (mClk : M .clk := by first | assumption | simp) (mTide : M .tide := by first | assumption | simp) (mAcq : M .acq := by first | assumption | simp) (mProt : M .prot := by first | assumption | simp)
    (mDiff : M .diff := by first | assumption | simp) (mForm : M .form := by first | assumption | simp) (mGate : M .gate := by first | assumption | simp) (mLogic : M .logic := by first | assumption | simp)
    (mFio : M .fio := by first | assumption | simp) (mCapt : M .capt := by first | assumption | simp) (mLog : M .log := by first | assumption | simp) (mNet : M .net := by first | assumption | simp)
    (mPtp : M .ptp := by first | assumption | simp) (mChk : M .chk := by first | assumption | simp) (mHost : M .host := by first | assumption | simp) (mAdeid : M .adeid := by first | assumption | simp)
    (mSec : M .sec := by first | assumption | simp) (mDiag : M .diag := by first | assumption | simp) (mSnaps : M .snaps := by first | assumption | simp) :
    Kept M a (State.adeidTake s f az) := by
  unfold State.adeidTake
  with_reducible repeat' first
    | assumption
    | apply State.topoRx_kept
    | apply State.rioRx_kept
    | apply State.cmdArrives_kept
    | apply State.forwardDone_kept
    | apply State.regRequest_kept
    | apply State.regAnswer_kept
    | split

theorem State.adeidAccept_kept (f : AdeidFrame) (p : AdeidPayload) (h : Kept M a s) (mSys : M .sys := by first | assumption | simp)
    (mClk : M .clk := by first | assumption | simp) (mTide : M .tide := by first | assumption | simp) (mAcq : M .acq := by first | assumption | simp) (mProt : M .prot := by first | assumption | simp)
    (mDiff : M .diff := by first | assumption | simp) (mForm : M .form := by first | assumption | simp) (mGate : M .gate := by first | assumption | simp) (mLogic : M .logic := by first | assumption | simp)
    (mFio : M .fio := by first | assumption | simp) (mCapt : M .capt := by first | assumption | simp) (mLog : M .log := by first | assumption | simp) (mNet : M .net := by first | assumption | simp)
    (mPtp : M .ptp := by first | assumption | simp) (mChk : M .chk := by first | assumption | simp) (mHost : M .host := by first | assumption | simp) (mAdeid : M .adeid := by first | assumption | simp)
    (mSec : M .sec := by first | assumption | simp) (mDiag : M .diag := by first | assumption | simp) (mSnaps : M .snaps := by first | assumption | simp) :
    Kept M a (State.adeidAccept s f p) := by
  unfold State.adeidAccept
  with_reducible repeat' first
    | assumption
    | intro _
    | apply State.adeidTake_kept
    | apply State.adeidDup_kept
    | apply State.adeidRemember_kept
    | apply Kept.ite
    | split

theorem State.adeidRoute_kept (q : Nat) (f : AdeidFrame) (p : AdeidPayload) (h : Kept M a s) (mSys : M .sys := by first | assumption | simp)
    (mClk : M .clk := by first | assumption | simp) (mTide : M .tide := by first | assumption | simp) (mAcq : M .acq := by first | assumption | simp) (mProt : M .prot := by first | assumption | simp)
    (mDiff : M .diff := by first | assumption | simp) (mForm : M .form := by first | assumption | simp) (mGate : M .gate := by first | assumption | simp) (mLogic : M .logic := by first | assumption | simp)
    (mFio : M .fio := by first | assumption | simp) (mCapt : M .capt := by first | assumption | simp) (mLog : M .log := by first | assumption | simp) (mNet : M .net := by first | assumption | simp)
    (mPtp : M .ptp := by first | assumption | simp) (mChk : M .chk := by first | assumption | simp) (mHost : M .host := by first | assumption | simp) (mAdeid : M .adeid := by first | assumption | simp)
    (mSec : M .sec := by first | assumption | simp) (mDiag : M .diag := by first | assumption | simp) (mSnaps : M .snaps := by first | assumption | simp) :
    Kept M a (State.adeidRoute s q f p) := by
  unfold State.adeidRoute
  with_reducible repeat' first | assumption | intro _ | apply State.adeidForward_kept | apply State.adeidAccept_kept | apply Kept.ite

theorem State.adeidAlive_kept (x1 : AdeidIn) (p : AdeidPayload) (h : Kept M a s) (mSys : M .sys := by first | assumption | simp) (mClk : M .clk := by first | assumption | simp)
    (mTide : M .tide := by first | assumption | simp) (mAcq : M .acq := by first | assumption | simp) (mProt : M .prot := by first | assumption | simp) (mDiff : M .diff := by first | assumption | simp)
    (mForm : M .form := by first | assumption | simp) (mGate : M .gate := by first | assumption | simp) (mLogic : M .logic := by first | assumption | simp) (mFio : M .fio := by first | assumption | simp)
    (mCapt : M .capt := by first | assumption | simp) (mLog : M .log := by first | assumption | simp) (mNet : M .net := by first | assumption | simp) (mPtp : M .ptp := by first | assumption | simp)
    (mChk : M .chk := by first | assumption | simp) (mHost : M .host := by first | assumption | simp) (mAdeid : M .adeid := by first | assumption | simp) (mSec : M .sec := by first | assumption | simp)
    (mDiag : M .diag := by first | assumption | simp) (mSnaps : M .snaps := by first | assumption | simp) :
    Kept M a (State.adeidAlive s x1 p) := by
  unfold State.adeidAlive
  with_reducible repeat' first
    | assumption
    | intro _
    | extract_lets
    | apply State.countAlive_kept
    | apply State.onLink_kept
    | apply State.when_kept
    | apply State.adeidDup_kept
    | apply State.linkRx_kept
    | apply State.sumRx_kept
    | apply State.adeidRoute_kept
    | apply Kept.ite
    | split

theorem State.adeidFree_kept (q : Nat) (f : AdeidFrame) (h : Kept M a s) (mAdeid : M .adeid := by first | assumption | simp) :
    Kept M a (State.adeidFree s q f) := by
  unfold State.adeidFree
  with_reducible repeat' first | assumption | intro _ | apply State.when_kept | apply State.onLink_kept | split

theorem State.testAction_kept (t : SelfTest) (l : LoopId) (pass : Bool) (h : Kept M a s) (mFresh : M .fresh := by first | assumption | simp)
    (mClk : M .clk := by first | assumption | simp) (mTide : M .tide := by first | assumption | simp)
    (mDiff : M .diff := by first | assumption | simp) (mForm : M .form := by first | assumption | simp)
    (mGate : M .gate := by first | assumption | simp) (mLogic : M .logic := by first | assumption | simp)
    (mCapt : M .capt := by first | assumption | simp) (mLog : M .log := by first | assumption | simp) (mNet : M .net := by first | assumption | simp)
    (mPtp : M .ptp := by first | assumption | simp) (mAdeid : M .adeid := by first | assumption | simp)
    (mSec : M .sec := by first | assumption | simp) :
    Kept M a (State.testAction s t l pass) := by
  unfold State.testAction
  with_reducible repeat' first
    | assumption
    | intro _
    | extract_lets
    | apply State.onSec_kept
    | apply State.mpllLost_kept
    | apply State.loopGuarded_kept
    | apply Kept.ite
    | split
  all_goals first | assumption | exact .same rfl rfl rfl rfl rfl

theorem State.mramError_kept (bankB : Bool) (v0 : MramPlace) (h : Kept M a s) (mLogic : M .logic := by first | assumption | simp)
    (mLog : M .log := by first | assumption | simp) (mSec : M .sec := by first | assumption | simp)
    (mDiag : M .diag := by first | assumption | simp) :
    Kept M a (State.mramError s bankB v0) := by
  unfold State.mramError
  split
  · exact Kept.ite (fun _ => State.logBankFail_kept _ _ (fun _ k => k) (State.onLog_kept h _)) fun _ => State.onLog_kept h _
  · exact State.onSec_kept h (SecKept.setSlot _ _ _)
  · exact State.onTaskGroup_kept _ _ h
  · exact h

theorem State.eccOwner_kept (x1 : EccIn) (h : Kept M a s) (mProt : M .prot := by first | assumption | simp) (mLogic : M .logic := by first | assumption | simp)
    (mFio : M .fio := by first | assumption | simp) (mCapt : M .capt := by first | assumption | simp) (mLog : M .log := by first | assumption | simp) (mSec : M .sec := by first | assumption | simp)
    (mDiag : M .diag := by first | assumption | simp) :
    Kept M a (State.eccOwner s x1) := by
  unfold State.eccOwner
  with_reducible repeat' first
    | assumption
    | intro _
    | apply State.captEcc_kept
    | apply State.laneOut_kept
    | apply State.onLane_kept
    | apply State.logicHalt_kept
    | apply State.mramError_kept
    | apply Kept.ite
    | split

theorem State.ageMinute_kept (h : Kept M a s) (mLog : M .log := by first | assumption | simp) (mDiag : M .diag := by first | assumption | simp) :
    Kept M a (State.ageMinute s) := by
  unfold State.ageMinute
  with_reducible repeat' first
    | assumption
    | intro _
    | extract_lets
    | apply State.onDiag_kept
    | apply State.updateHealth_kept
    | apply State.when_kept
    | apply State.report_kept
    | apply State.raise_kept

theorem State.inputLevel_kept (ch : Nat) (level : Bool) (h : Kept M a s) (mProt : M .prot := by first | assumption | simp) (mLogic : M .logic := by first | assumption | simp)
    (mLog : M .log := by first | assumption | simp) :
    Kept M a (State.inputLevel s ch level) := by
  unfold State.inputLevel
  with_reducible repeat' first | assumption | intro _ | apply State.fire_kept | apply State.when_kept | apply State.mappedGroup_kept

theorem State.touched_kept (names : TouchSource → Bool) (t : Nat) (h : Kept M a s) (mTide : M .tide := by first | assumption | simp) :
    Kept M a (State.touched s names t) := by
  unfold State.touched
  with_reducible repeat' first
    | assumption
    | intro _
    | extract_lets
    | apply State.when_kept
    | apply State.forEach_kept
    | apply State.onPow_kept
    | split

theorem State.auxTouch_kept (ch : Nat) (level : Bool) (t : Nat) (h : Kept M a s) (mTide : M .tide := by first | assumption | simp) :
    Kept M a (State.auxTouch s ch level t) := by
  unfold State.auxTouch
  with_reducible repeat' first | assumption | intro _ | extract_lets | apply State.touched_kept | split

theorem State.edgeArrives_kept (e : EdgeRec) (h : Kept M a s) (mTide : M .tide := by first | assumption | simp)
    (mCapt : M .capt := by first | assumption | simp) :
    Kept M a (State.edgeArrives s e) := by
  unfold State.edgeArrives
  with_reducible repeat' first
    | assumption
    | intro _
    | extract_lets
    | apply State.auxTouch_kept
    | apply State.captDigital_kept
    | apply State.captMetAll_kept
    | split

theorem State.diagArrives_kept (g : Nat) (h : Kept M a s) (mCapt : M .capt := by first | assumption | simp) : Kept M a (State.diagArrives s g) := by
  unfold State.diagArrives
  with_reducible repeat' first
    | assumption
    | intro _
    | extract_lets
    | apply State.forEach_kept
    | apply State.captDigital_kept
    | apply Kept.ite
    | split

theorem State.fioMeasure_kept (m : ChMeasure) (h : Kept M a s) (mFio : M .fio := by first | assumption | simp) : Kept M a (State.fioMeasure s m) := by
  unfold State.fioMeasure
  with_reducible repeat' first | assumption | intro _ | apply State.onCh_kept

theorem State.takeEdges_kept (g : Nat) (h : Kept M a s) (mTide : M .tide := by first | assumption | simp)
    (mFio : M .fio := by first | assumption | simp) (mCapt : M .capt := by first | assumption | simp) :
    Kept M a (State.takeEdges s g) := by
  unfold State.takeEdges
  with_reducible repeat' first
    | assumption
    | intro _
    | extract_lets
    | apply State.forEach_kept
    | apply State.onGroup_kept
    | apply State.edgeArrives_kept
    | apply Kept.ite

theorem State.pubSample_kept (kz : Nat) (p : Pub) (h : Kept M a s) (mAcq : M .acq := by first | assumption | simp) (mNet : M .net := by first | assumption | simp) :
    Kept M a (State.pubSample s kz p) := by
  unfold State.pubSample
  with_reducible repeat' first
    | assumption
    | intro _
    | extract_lets
    | apply State.onAcq_kept
    | apply State.onNet_kept
    | apply State.sendOwn_kept
    | apply Kept.ite
    | split

theorem State.publish_kept (k fuel : Nat) (h : Kept M a s) (mAcq : M .acq := by first | assumption | simp)
    (mNet : M .net := by first | assumption | simp) : Kept M a (State.publish k fuel s) := by
  induction fuel generalizing s with
  | zero => exact h
  | succ n ih =>
    unfold State.publish
    split
    · exact Kept.ite (fun _ => ih (State.pubSample_kept _ _ h)) fun _ => h
    · exact h

theorem State.publishAll_kept (lane : LaneRate) (h : Kept M a s) (mAcq : M .acq := by first | assumption | simp) (mNet : M .net := by first | assumption | simp) :
    Kept M a (State.publishAll s lane) := by
  unfold State.publishAll
  with_reducible repeat' first | assumption | intro _ | apply State.forEach_kept | apply State.publish_kept | apply Kept.ite

theorem State.restoreLane_kept (l : LaneId) (h : Kept M a s) (mProt : M .prot := by first | assumption | simp) (mLog : M .log := by first | assumption | simp) :
    Kept M a (State.restoreLane s l) := by
  unfold State.restoreLane
  with_reducible repeat' first
    | assumption
    | intro _
    | extract_lets
    | apply State.onProt_kept
    | apply State.onLane_kept
    | apply State.report_kept
    | apply State.when_kept
    | apply State.protReady_kept
    | apply Kept.ite

theorem State.essentialBoundary_kept (h : Kept M a s) (mProt : M .prot := by first | assumption | simp)
    (mLogic : M .logic := by first | assumption | simp) (mCapt : M .capt := by first | assumption | simp)
    (mLog : M .log := by first | assumption | simp) :
    Kept M a (State.essentialBoundary s) := by
  unfold State.essentialBoundary
  with_reducible repeat' first | assumption | intro _ | extract_lets | apply State.setEssential_kept | apply Kept.ite

theorem State.boundary_kept (x : StrobeIn) (h : Kept M a s) (mFresh : M .fresh := by first | assumption | simp)
    (mManifest : M .manifest := by first | assumption | simp) (mSys : M .sys := by first | assumption | simp)
    (mClk : M .clk := by first | assumption | simp) (mTide : M .tide := by first | assumption | simp) (mAcq : M .acq := by first | assumption | simp)
    (mProt : M .prot := by first | assumption | simp) (mDiff : M .diff := by first | assumption | simp)
    (mForm : M .form := by first | assumption | simp) (mGate : M .gate := by first | assumption | simp)
    (mLogic : M .logic := by first | assumption | simp) (mFio : M .fio := by first | assumption | simp)
    (mCapt : M .capt := by first | assumption | simp) (mLog : M .log := by first | assumption | simp) (mNet : M .net := by first | assumption | simp)
    (mPtp : M .ptp := by first | assumption | simp) (mChk : M .chk := by first | assumption | simp) (mHost : M .host := by first | assumption | simp)
    (mAdeid : M .adeid := by first | assumption | simp) (mSec : M .sec := by first | assumption | simp)
    (mDiag : M .diag := by first | assumption | simp) :
    Kept M a (State.boundary s x).1 := by
  unfold State.boundary
  have h0 := State.onProt_kept h fun p => { p with boundary := s.acq.fastIdx / 3, boundaryAt := s.now }
  have h1 := State.commitBoundary_kept x.fuseBad x.bankAGood h0
  dsimp only
  split
  · exact h
  · split
    · exact h1
    · exact State.essentialBoundary_kept (State.protBegin_kept (State.restoreLane_kept _ (State.restoreLane_kept _ (State.groupBoundary_kept h1))))

theorem State.onset_kept (c : ChanRef) (l : List (Nat × Num)) (h : Kept M a s) (mTide : M .tide := by first | assumption | simp) :
    Kept M a (State.onset s c l) := by
  unfold State.onset
  with_reducible repeat' first
    | assumption
    | intro _
    | extract_lets
    | apply State.when_kept
    | apply State.forEach_kept
    | apply State.touched_kept

theorem State.waveOnset_kept (c : Nat) (w0 : Nat) (h : Kept M a s) (mTide : M .tide := by first | assumption | simp) :
    Kept M a (State.waveOnset s c w0) := by
  unfold State.waveOnset
  with_reducible repeat' first | assumption | intro _ | extract_lets | apply State.onset_kept | apply Kept.ite | split

theorem State.latchOutputs_kept (h : Kept M a s) (mProt : M .prot := by first | assumption | simp) :
    Kept M a (State.latchOutputs s) := by
  unfold State.latchOutputs
  with_reducible repeat' first | assumption | intro _ | extract_lets | apply State.onProt_kept

theorem State.intake_kept (x : StrobeIn) (h : Kept M a s) (mTide : M .tide := by first | assumption | simp)
    (mAcq : M .acq := by first | assumption | simp) (mProt : M .prot := by first | assumption | simp) (mLog : M .log := by first | assumption | simp)
    (mNet : M .net := by first | assumption | simp) :
    Kept M a (State.intake s x) := by
  unfold State.intake
  with_reducible repeat' first
    | assumption
    | intro _
    | extract_lets
    | apply State.onAcq_kept
    | apply State.forEach_kept
    | apply State.latchOutputs_kept
    | apply State.chainIn_kept
    | apply State.waveOnset_kept
    | apply State.publishAll_kept

theorem State.svOnset_kept (lane : LaneRate) (r : SampleSet) (h : Kept M a s) (mTide : M .tide := by first | assumption | simp) :
    Kept M a (State.svOnset s lane r) := by
  unfold State.svOnset
  with_reducible repeat' first
    | assumption
    | intro _
    | extract_lets
    | apply State.when_kept
    | apply State.forEach_kept
    | apply State.onset_kept
    | split

theorem State.release_kept (lane : LaneRate) (i : Nat) (x : StrobeIn) (h : Kept M a s) (mTide : M .tide := by first | assumption | simp)
    (mAcq : M .acq := by first | assumption | simp) (mProt : M .prot := by first | assumption | simp)
    (mLogic : M .logic := by first | assumption | simp) (mCapt : M .capt := by first | assumption | simp)
    (mLog : M .log := by first | assumption | simp) (mChk : M .chk := by first | assumption | simp) :
    Kept M a (State.release s lane i x).1 := by
  unfold State.release
  with_reducible repeat' first
    | assumption
    | intro _
    | extract_lets
    | apply State.onAcq_kept
    | apply State.dropReleased_kept
    | apply State.laneIntake_kept
    | apply State.captRelease_kept
    | apply State.svOnset_kept
    | split

theorem State.phasorsOut_kept (h : Kept M a s) (mTide : M .tide := by first | assumption | simp) :
    Kept M a (State.phasorsOut s) := by
  unfold State.phasorsOut
  with_reducible repeat' first | assumption | intro _ | extract_lets | apply State.onTide_kept

theorem State.evaluateAll_kept (rate : LaneRate) (t : Nat) (x : StrobeIn) (l : List ElemCfg) (zone : LaneId → Option ZoneQ) (h : Kept M a s)
    (mTide : M .tide := by first | assumption | simp) (mProt : M .prot := by first | assumption | simp)
    (mLogic : M .logic := by first | assumption | simp) (mCapt : M .capt := by first | assumption | simp)
    (mLog : M .log := by first | assumption | simp) :
    Kept M a (State.evaluateAll s rate t x l zone) := by
  unfold State.evaluateAll
  exact State.forEach_kept (fun c _ k => State.evalElem_kept _ _ _ _ _ _ _ c k) _ (State.phasorsOut_kept h)

theorem State.evaluate_kept (rate : LaneRate) (t : Nat) (x : StrobeIn) (l : List ElemCfg) (h : Kept M a s)
    (mTide : M .tide := by first | assumption | simp) (mProt : M .prot := by first | assumption | simp)
    (mLogic : M .logic := by first | assumption | simp) (mCapt : M .capt := by first | assumption | simp)
    (mLog : M .log := by first | assumption | simp) :
    Kept M a (State.evaluate s rate t x l) := by
  unfold State.evaluate
  with_reducible repeat' first | assumption | intro _ | extract_lets | apply State.laneDeadline_kept | apply State.evaluateAll_kept

theorem State.tripStages_kept (t : Nat) (h : Kept M a s) (mProt : M .prot := by first | assumption | simp)
    (mFio : M .fio := by first | assumption | simp) (mCapt : M .capt := by first | assumption | simp)
    (mLog : M .log := by first | assumption | simp) :
    Kept M a (State.tripStages s t) := by
  unfold State.tripStages
  with_reducible repeat' first
    | assumption
    | intro _
    | extract_lets
    | apply State.onProt_kept
    | apply State.forEach_kept
    | apply State.stage5_kept
    | apply State.stage6_kept

theorem State.fastPart_kept (x : StrobeIn) (h : Kept M a s) (mTide : M .tide := by first | assumption | simp)
    (mAcq : M .acq := by first | assumption | simp) (mProt : M .prot := by first | assumption | simp)
    (mLogic : M .logic := by first | assumption | simp) (mFio : M .fio := by first | assumption | simp)
    (mCapt : M .capt := by first | assumption | simp) (mLog : M .log := by first | assumption | simp)
    (mChk : M .chk := by first | assumption | simp) :
    Kept M a (State.fastPart s x) := by
  unfold State.fastPart
  with_reducible repeat' first
    | assumption
    | intro _
    | extract_lets
    | apply State.onAcq_kept
    | apply State.when_kept
    | apply State.tripStages_kept
    | apply State.release_kept
    | apply State.evaluate_kept
    | split

theorem State.badTotals_kept (l : LaneId) (bad : Bool) (h : Kept M a s) (mProt : M .prot := by first | assumption | simp)
    (mChk : M .chk := by first | assumption | simp) :
    Kept M a (State.badTotals s l bad) := by
  unfold State.badTotals
  with_reducible repeat' first
    | assumption
    | intro _
    | extract_lets
    | apply State.raise_kept
    | apply State.when_kept
    | apply State.onLane_kept
    | apply State.pathFail_kept

theorem State.takeTotalsDue_kept (t : Nat) (x : StrobeIn) (z : Nat) (d : ZoneTotals) (h : Kept M a s)
    (mTide : M .tide := by first | assumption | simp) (mProt : M .prot := by first | assumption | simp)
    (mDiff : M .diff := by first | assumption | simp) (mLogic : M .logic := by first | assumption | simp)
    (mCapt : M .capt := by first | assumption | simp) (mLog : M .log := by first | assumption | simp)
    (mChk : M .chk := by first | assumption | simp) :
    Kept M a (State.takeTotalsDue s t x z d) := by
  unfold State.takeTotalsDue
  with_reducible repeat' first
    | assumption
    | intro _
    | extract_lets
    | apply State.when_kept
    | apply State.onZone_kept
    | apply State.badTotals_kept
    | apply State.evaluateAll_kept
    | apply State.zoneEvaluated_kept
    | split

theorem State.phasorPart_kept (x : StrobeIn) (h : Kept M a s) (mTide : M .tide := by first | assumption | simp)
    (mAcq : M .acq := by first | assumption | simp) (mProt : M .prot := by first | assumption | simp)
    (mDiff : M .diff := by first | assumption | simp) (mLogic : M .logic := by first | assumption | simp)
    (mCapt : M .capt := by first | assumption | simp) (mLog : M .log := by first | assumption | simp) (mNet : M .net := by first | assumption | simp)
    (mChk : M .chk := by first | assumption | simp) :
    Kept M a (State.phasorPart s x) := by
  have tail : ∀ (t : State) (i : Nat), Kept M a t → Kept M a (let r := t.release .phasor i x
      let s := r.1
      let s := match sumInstant r.2.time with
        | some (sec, idx) => (s.diffContribute r.2.time sec idx).when (!s.diff.zones.isEmpty) State.phasorsOut
        | none => s
      s) := by
    intro t i ht
    extract_lets r u v
    have hu : Kept M a u := State.release_kept _ _ _ ht
    show Kept M a v
    clear_value u
    unfold v
    split
    · exact State.when_kept (State.diffContribute_kept _ _ _ hu) fun _ k => State.phasorsOut_kept k
    · exact hu
  unfold State.phasorPart
  extract_lets t
  have ht : Kept M a t := State.publishAll_kept _ (State.phasorIn_kept (State.onAcq_kept h _))
  clear_value t
  split
  · exact ht
  · rename_i i _
    have hv := tail t i ht
    extract_lets r u at hv ⊢
    have hw : Kept M a u := State.when_kept hv fun _ k => State.onProt_kept (State.evaluate_kept _ _ _ _ k) _
    exact State.forEach_kept (fun d _ k => State.takeTotalsDue_kept _ _ _ _ k) _ hw

theorem State.katEnds_kept (l : LaneId) (pass : Bool) (h : Kept M a s) (mProt : M .prot := by first | assumption | simp)
    (mLogic : M .logic := by first | assumption | simp) (mCapt : M .capt := by first | assumption | simp)
    (mLog : M .log := by first | assumption | simp) :
    Kept M a (State.katEnds s l pass) := by
  unfold State.katEnds
  with_reducible repeat' first
    | assumption
    | intro _
    | extract_lets
    | apply State.onLane_kept
    | apply State.report_kept
    | apply State.laneOut_kept
    | apply Kept.ite
    | split

theorem State.syncPhase_kept (x1 : SyncIn) (h : Kept M a s) (mLog : M .log := by first | assumption | simp) (mPtp : M .ptp := by first | assumption | simp) :
    Kept M a (State.syncPhase s x1) := by
  unfold State.syncPhase
  with_reducible repeat' first
    | assumption
    | intro _
    | extract_lets
    | apply State.onPtp_kept
    | apply State.when_kept
    | apply State.report_kept
    | apply State.raise_kept

theorem State.dropCandidate_kept (h : Kept M a s) (mLog : M .log := by first | assumption | simp) (mPtp : M .ptp := by first | assumption | simp) :
    Kept M a (State.dropCandidate s) := by
  unfold State.dropCandidate
  with_reducible repeat' first
    | assumption
    | intro _
    | extract_lets
    | apply State.onPtp_kept
    | apply State.when_kept
    | apply State.report_kept
    | split

theorem State.steer_kept (o : Num) (h : Kept M a s) (mPtp : M .ptp := by first | assumption | simp) : Kept M a (State.steer s o) := by
  unfold State.steer
  with_reducible repeat' first | assumption | intro _ | extract_lets | apply State.onPtp_kept

theorem State.syncStep_kept (o : Num) (h : Kept M a s) (mLtc : M .ltc := by first | assumption | simp)
    (mFresh : M .fresh := by first | assumption | simp) (mClk : M .clk := by first | assumption | simp)
    (mTide : M .tide := by first | assumption | simp) (mAcq : M .acq := by first | assumption | simp)
    (mProt : M .prot := by first | assumption | simp) (mFio : M .fio := by first | assumption | simp)
    (mCapt : M .capt := by first | assumption | simp) (mLog : M .log := by first | assumption | simp) (mNet : M .net := by first | assumption | simp)
    (mPtp : M .ptp := by first | assumption | simp) (mDiag : M .diag := by first | assumption | simp) :
    Kept M a (State.syncStep s o) := by
  unfold State.syncStep
  with_reducible repeat' first | assumption | intro _ | extract_lets | apply State.onPtp_kept | apply State.stepClock_kept

theorem State.sendPeerDelay_kept (p : Nat) (h : Kept M a s) (mNet : M .net := by first | assumption | simp) : Kept M a (State.sendPeerDelay s p) := by
  unfold State.sendPeerDelay
  with_reducible repeat' first | assumption | apply State.enqueue_kept

theorem State.sendPtp_kept (p : Nat) (m : PtpMsg) (f : SentFrame) (h : Kept M a s) (mNet : M .net := by first | assumption | simp) :
    Kept M a (State.sendPtp s p m f) := by
  unfold State.sendPtp
  with_reducible repeat' first | assumption | intro _ | apply State.enqueue_kept | apply State.onNet_kept

theorem State.countHeld_kept (p : Nat) (h : Kept M a s) (mNet : M .net := by first | assumption | simp) : Kept M a (State.countHeld s p) := by
  unfold State.countHeld
  with_reducible repeat' first | assumption | intro _ | extract_lets | apply State.onPort_kept | apply Kept.ite | split

theorem State.tcLeave_kept (p : Nat) (hz : Queued) (h : Kept M a s) (mNet : M .net := by first | assumption | simp) (mPtp : M .ptp := by first | assumption | simp) :
    Kept M a (State.tcLeave s p hz) := by
  unfold State.tcLeave
  with_reducible repeat' first
    | assumption
    | intro _
    | extract_lets
    | apply State.onPtpPort_kept
    | apply State.onNet_kept
    | apply State.onPtp_kept
    | apply Kept.ite
    | split

theorem State.portStart_kept (p : Nat) (q : Nat) (hz : Queued) (h : Kept M a s) (mNet : M .net := by first | assumption | simp) (mPtp : M .ptp := by first | assumption | simp)
    (mHost : M .host := by first | assumption | simp) :
    Kept M a (State.portStart s p q hz) := by
  unfold State.portStart
  extract_lets t
  have ht : Kept M a t := State.onPort_kept _ _ h
  refine Kept.ite (fun _ => State.onHost_kept ht fun x hx => ?_) fun _ => State.tcLeave_kept _ _ ht
  simpa [HostState.frReceive] using hx

theorem State.portServe_kept (p : Nat) (h : Kept M a s) (mNet : M .net := by first | assumption | simp) (mPtp : M .ptp := by first | assumption | simp)
    (mHost : M .host := by first | assumption | simp) :
    Kept M a (State.portServe s p) := by
  unfold State.portServe
  with_reducible repeat' first | assumption | intro _ | apply State.portStart_kept | apply Kept.ite | split

theorem State.netTick_kept (h : Kept M a s) (mNet : M .net := by first | assumption | simp) (mPtp : M .ptp := by first | assumption | simp) (mHost : M .host := by first | assumption | simp) :
    Kept M a (State.netTick s) := by
  unfold State.netTick
  with_reducible repeat' first | assumption | intro _ | apply State.forEach_kept | apply State.portServe_kept | apply State.countHeld_kept

theorem State.adeidLeave_kept (q : Nat) (f : AdeidFrame) (h : Kept M a s) (mAdeid : M .adeid := by first | assumption | simp) :
    Kept M a (State.adeidLeave s q f) := by
  unfold State.adeidLeave
  with_reducible repeat' first | assumption | intro _ | extract_lets | apply State.onLink_kept | apply State.onAdeid_kept

theorem State.adeidTick_kept (h : Kept M a s) (mAdeid : M .adeid := by first | assumption | simp) : Kept M a (State.adeidTick s) := by
  unfold State.adeidTick
  with_reducible repeat' first | assumption | intro _ | apply State.forEach_kept | apply State.adeidLeave_kept | apply Kept.ite | split

theorem State.vectorTick_kept (h : Kept M a s) (mHost : M .host := by first | assumption | simp) : Kept M a (State.vectorTick s) := by
  unfold State.vectorTick
  with_reducible repeat' first | assumption | intro _ | apply State.forEach_kept | apply State.ringVector_kept | apply Kept.ite

theorem State.countTick_kept (h : Kept M a s) (mNow : M .now := by first | assumption | simp) (mLtc : M .ltc := by first | assumption | simp) (mTide : M .tide := by first | assumption | simp) :
    Kept M a (State.countTick s) := by
  unfold State.countTick
  have ht : Kept M a { s with now := s.now + 10 } := h.same rfl rfl rfl rfl
  exact Kept.ite (fun _ => ht) fun _ => ht.anew rfl (SecKept.refl _) (.inr rfl) (.inr rfl)

theorem State.xingTick_kept (id : Nat) (h : Kept M a s) (mSys : M .sys := by first | assumption | simp)
    (mClk : M .clk := by first | assumption | simp) (mTide : M .tide := by first | assumption | simp) (mAcq : M .acq := by first | assumption | simp)
    (mProt : M .prot := by first | assumption | simp) (mDiff : M .diff := by first | assumption | simp)
    (mForm : M .form := by first | assumption | simp) (mGate : M .gate := by first | assumption | simp)
    (mLogic : M .logic := by first | assumption | simp) (mFio : M .fio := by first | assumption | simp)
    (mCapt : M .capt := by first | assumption | simp) (mLog : M .log := by first | assumption | simp) (mNet : M .net := by first | assumption | simp)
    (mPtp : M .ptp := by first | assumption | simp) (mChk : M .chk := by first | assumption | simp) (mHost : M .host := by first | assumption | simp)
    (mAdeid : M .adeid := by first | assumption | simp) (mSec : M .sec := by first | assumption | simp)
    (mDiag : M .diag := by first | assumption | simp) :
    Kept M a (State.xingTick s id) := by
  unfold State.xingTick
  with_reducible repeat' first
    | assumption
    | intro _
    | extract_lets
    | apply State.xingCapture_kept
    | apply State.onXing_kept
    | apply State.xingStart_kept
    | apply Kept.ite
    | split
    | (dsimp +zetaDelta only; split)

theorem State.xingsTick_kept (h : Kept M a s) (mSys : M .sys := by first | assumption | simp) (mClk : M .clk := by first | assumption | simp)
    (mTide : M .tide := by first | assumption | simp) (mAcq : M .acq := by first | assumption | simp)
    (mProt : M .prot := by first | assumption | simp) (mDiff : M .diff := by first | assumption | simp)
    (mForm : M .form := by first | assumption | simp) (mGate : M .gate := by first | assumption | simp)
    (mLogic : M .logic := by first | assumption | simp) (mFio : M .fio := by first | assumption | simp)
    (mCapt : M .capt := by first | assumption | simp) (mLog : M .log := by first | assumption | simp) (mNet : M .net := by first | assumption | simp)
    (mPtp : M .ptp := by first | assumption | simp) (mChk : M .chk := by first | assumption | simp) (mHost : M .host := by first | assumption | simp)
    (mAdeid : M .adeid := by first | assumption | simp) (mSec : M .sec := by first | assumption | simp)
    (mDiag : M .diag := by first | assumption | simp) :
    Kept M a (State.xingsTick s) := by
  unfold State.xingsTick
  with_reducible repeat' first | assumption | intro _ | extract_lets | apply State.forEach_kept | apply State.xingTick_kept

theorem tick_kept (h : Kept M a s) (mNow : M .now := by first | assumption | simp) (mLtc : M .ltc := by first | assumption | simp)
    (mSys : M .sys := by first | assumption | simp)
    (mClk : M .clk := by first | assumption | simp) (mTide : M .tide := by first | assumption | simp) (mAcq : M .acq := by first | assumption | simp)
    (mProt : M .prot := by first | assumption | simp) (mDiff : M .diff := by first | assumption | simp)
    (mForm : M .form := by first | assumption | simp) (mGate : M .gate := by first | assumption | simp)
    (mLogic : M .logic := by first | assumption | simp) (mFio : M .fio := by first | assumption | simp)
    (mCapt : M .capt := by first | assumption | simp) (mLog : M .log := by first | assumption | simp) (mNet : M .net := by first | assumption | simp)
    (mPtp : M .ptp := by first | assumption | simp) (mChk : M .chk := by first | assumption | simp) (mHost : M .host := by first | assumption | simp)
    (mAdeid : M .adeid := by first | assumption | simp) (mSec : M .sec := by first | assumption | simp)
    (mDiag : M .diag := by first | assumption | simp) :
    Kept M a (tick s) := by
  unfold tick
  with_reducible repeat' first
    | assumption
    | intro _
    | extract_lets
    | apply State.countTick_kept
    | apply State.xingsTick_kept
    | apply State.netTick_kept
    | apply State.adeidTick_kept
    | apply State.vectorTick_kept
    | apply State.updateHealth_kept
    | apply Kept.ite

theorem execTideRateRecompute_kept (h : Kept M a s) (mFresh : M .fresh := by first | assumption | simp)
    (mTide : M .tide := by first | assumption | simp) (mForm : M .form := by first | assumption | simp)
    (mFio : M .fio := by first | assumption | simp) (mLog : M .log := by first | assumption | simp)
    (mDiag : M .diag := by first | assumption | simp) :
    KeptOut M a (execTideRateRecompute s) := by
  unfold execTideRateRecompute
  with_reducible repeat' first
    | assumption
    | apply KeptOut.next
    | intro _
    | extract_lets
    | apply State.onTide_kept
    | apply State.recompute_kept
    | apply State.powUpdate_kept
    | apply State.sendDueMarks_kept
    | apply Kept.ite
  all_goals first | assumption | exact h.same rfl rfl rfl rfl | exact fun _ k => k | simpa [updAt] using ‹_›

theorem execTideCycleCarry_kept (h : Kept M a s) (mTide : M .tide := by first | assumption | simp) : KeptOut M a (execTideCycleCarry s) := by
  unfold execTideCycleCarry
  with_reducible repeat' first
    | assumption
    | intro _
    | apply State.onTide_kept
    | apply KeptOut.next
    | apply KeptOut.fault
    | apply KeptOut.ite
    | apply Kept.ite

theorem execTideMarkArm_kept (b : Nat) (h : Kept M a s) (mTide : M .tide := by first | assumption | simp) (mFio : M .fio := by first | assumption | simp)
    (mLog : M .log := by first | assumption | simp) (mHost : M .host := by first | assumption | simp) :
    KeptOut M a (execTideMarkArm b s) := by
  unfold execTideMarkArm
  with_reducible repeat' first
    | assumption
    | intro _
    | extract_lets
    | apply State.runCtl_kept
    | apply State.markPast_kept
    | apply State.done_kept
    | apply State.armMark_kept
    | apply KeptOut.next
    | apply KeptOut.fault
    | apply KeptOut.ite
    | apply Kept.ite
    | split

theorem State.overrule_kept (x : Nat × Nat) (h : Kept M a s) (mTide : M .tide := by first | assumption | simp)
    (mFio : M .fio := by first | assumption | simp) :
    Kept M a (State.overrule s x) := by
  unfold State.overrule
  with_reducible repeat' first
    | assumption
    | intro _
    | extract_lets
    | apply State.raise_kept
    | apply State.withdrawEdge_kept
    | apply State.onMark_kept

theorem State.fireMarks_kept (mFresh : M .fresh := by first | assumption | simp) (mTide : M .tide := by first | assumption | simp)
    (mForm : M .form := by first | assumption | simp) (mLogic : M .logic := by first | assumption | simp)
    (mFio : M .fio := by first | assumption | simp) (mCapt : M .capt := by first | assumption | simp) (mLog : M .log := by first | assumption | simp)
    (mDiag : M .diag := by first | assumption | simp) : ∀ (n : Nat) {s : State}, Kept M a s → Kept M a (State.fireMarks n s)
  | 0, _, h => h
  | n + 1, s, h => by
    unfold State.fireMarks
    dsimp only
    split
    · exact h
    · exact State.fireMarks_kept mFresh mTide mForm mLogic mFio mCapt mLog mDiag n
        (State.fireMark_kept _ (State.when_kept h fun _ k => State.overrule_kept _ k))

theorem execTideMarkFire_kept (h : Kept M a s) (mFresh : M .fresh := by first | assumption | simp) (mTide : M .tide := by first | assumption | simp)
    (mForm : M .form := by first | assumption | simp) (mLogic : M .logic := by first | assumption | simp)
    (mFio : M .fio := by first | assumption | simp) (mCapt : M .capt := by first | assumption | simp) (mLog : M .log := by first | assumption | simp)
    (mDiag : M .diag := by first | assumption | simp) :
    KeptOut M a (execTideMarkFire s) := by
  unfold execTideMarkFire
  with_reducible repeat' first
    | assumption
    | apply KeptOut.next
    | intro _
    | extract_lets
    | apply State.onTide_kept
    | apply State.fireMarks_kept
  all_goals first | assumption | exact h.same rfl rfl rfl rfl | exact fun _ k => k | simpa [updAt] using ‹_›

theorem execPowCloseRequest_kept (b : Nat) (h : Kept M a s) (mTide : M .tide := by first | assumption | simp) (mLog : M .log := by first | assumption | simp)
    (mHost : M .host := by first | assumption | simp) :
    KeptOut M a (execPowCloseRequest b s) := by
  unfold execPowCloseRequest
  with_reducible repeat' first
    | assumption
    | intro _
    | apply State.runCtl_kept
    | apply State.done_kept
    | apply State.powAccept_kept
    | apply KeptOut.next
    | apply KeptOut.fault
    | split

theorem execPowTouch_kept (k touch : Nat) (h : Kept M a s) (mTide : M .tide := by first | assumption | simp)
    (mLog : M .log := by first | assumption | simp) :
    KeptOut M a (execPowTouch k touch s) := by
  unfold execPowTouch
  with_reducible repeat' first
    | assumption
    | apply KeptOut.next
    | intro _
    | extract_lets
    | apply State.raise_kept
    | apply State.onPow_kept
    | apply State.report_kept
    | apply Kept.ite
    | split

theorem execPowNoTouch_kept (kz : Nat) (h : Kept M a s) (mTide : M .tide := by first | assumption | simp) (mLog : M .log := by first | assumption | simp) :
    KeptOut M a (execPowNoTouch kz s) := by
  unfold execPowNoTouch
  with_reducible repeat' first
    | assumption
    | intro _
    | apply State.report_kept
    | apply State.onPow_kept
    | apply KeptOut.next
    | apply KeptOut.fault
    | apply KeptOut.ite
    | apply Kept.ite
    | split

theorem execLogicTaskRelease_kept (t : Nat) (h : Kept M a s) (mFresh : M .fresh := by first | assumption | simp) (mTide : M .tide := by first | assumption | simp)
    (mProt : M .prot := by first | assumption | simp) (mForm : M .form := by first | assumption | simp) (mLogic : M .logic := by first | assumption | simp) (mFio : M .fio := by first | assumption | simp)
    (mCapt : M .capt := by first | assumption | simp) (mLog : M .log := by first | assumption | simp) (mAdeid : M .adeid := by first | assumption | simp)
    (mDiag : M .diag := by first | assumption | simp) :
    KeptOut M a (execLogicTaskRelease t s) := by
  unfold execLogicTaskRelease
  with_reducible repeat' first
    | assumption
    | intro _
    | apply State.releaseTask_kept
    | apply State.onTask_kept
    | apply State.skipRelease_kept
    | apply KeptOut.next
    | apply KeptOut.fault
    | apply KeptOut.ite
    | apply Kept.ite
    | split

theorem execLogicEventSource_kept (t : Nat) (src : Nat) (h : Kept M a s) (mFresh : M .fresh := by first | assumption | simp) (mTide : M .tide := by first | assumption | simp)
    (mProt : M .prot := by first | assumption | simp) (mForm : M .form := by first | assumption | simp) (mLogic : M .logic := by first | assumption | simp) (mFio : M .fio := by first | assumption | simp)
    (mCapt : M .capt := by first | assumption | simp) (mLog : M .log := by first | assumption | simp) (mAdeid : M .adeid := by first | assumption | simp)
    (mDiag : M .diag := by first | assumption | simp) :
    KeptOut M a (execLogicEventSource t src s) := by
  unfold execLogicEventSource
  with_reducible repeat' first
    | assumption
    | intro _
    | extract_lets
    | apply State.onLogic_kept
    | apply State.onTask_kept
    | apply State.releaseTask_kept
    | apply KeptOut.next
    | apply KeptOut.fault
    | apply KeptOut.ite
    | apply Kept.ite
    | split

theorem execLogicOutputWrite_kept (x0 : WriteIn) (h : Kept M a s) (mFresh : M .fresh := by first | assumption | simp) (mTide : M .tide := by first | assumption | simp)
    (mProt : M .prot := by first | assumption | simp) (mForm : M .form := by first | assumption | simp) (mLogic : M .logic := by first | assumption | simp) (mFio : M .fio := by first | assumption | simp)
    (mCapt : M .capt := by first | assumption | simp) (mLog : M .log := by first | assumption | simp) (mAdeid : M .adeid := by first | assumption | simp)
    (mDiag : M .diag := by first | assumption | simp) :
    KeptOut M a (execLogicOutputWrite x0 s) := by
  unfold execLogicOutputWrite
  with_reducible repeat' first
    | assumption
    | intro _
    | extract_lets
    | apply State.onTask_kept
    | apply State.outputWrite_kept
    | apply State.preempt_kept
    | apply KeptOut.next
    | apply KeptOut.fault
    | apply KeptOut.ite
    | apply Kept.ite
    | split

theorem execLogicCommitDone_kept (m : Nat) (h : Kept M a s) (mLogic : M .logic := by first | assumption | simp) : KeptOut M a (execLogicCommitDone m s) := by
  unfold execLogicCommitDone
  with_reducible repeat' first
    | assumption
    | intro _
    | apply State.commitDone_kept
    | apply KeptOut.next
    | apply KeptOut.fault
    | apply KeptOut.ite
    | apply Kept.ite

theorem execLogicHalt_kept (ecc : Bool) (h : Kept M a s) (mProt : M .prot := by first | assumption | simp) (mLogic : M .logic := by first | assumption | simp)
    (mFio : M .fio := by first | assumption | simp) (mLog : M .log := by first | assumption | simp) :
    KeptOut M a (execLogicHalt ecc s) := by
  unfold execLogicHalt
  with_reducible repeat' first
    | assumption
    | intro _
    | apply State.logicHalt_kept
    | apply KeptOut.next
    | apply KeptOut.fault
    | apply KeptOut.ite
    | apply Kept.ite

theorem execLogicStart_kept (b : Nat) (h : Kept M a s) (mLogic : M .logic := by first | assumption | simp)
    (mLog : M .log := by first | assumption | simp) (mChk : M .chk := by first | assumption | simp)
    (mHost : M .host := by first | assumption | simp) :
    KeptOut M a (execLogicStart b s) := by
  unfold execLogicStart
  with_reducible repeat' first
    | assumption
    | apply KeptOut.next
    | intro _
    | extract_lets
    | apply State.runCtl_kept
    | apply State.startLogic_kept
    | apply State.done_kept
    | split

theorem execLogicStop_kept (b : Nat) (h : Kept M a s) (mProt : M .prot := by first | assumption | simp) (mLogic : M .logic := by first | assumption | simp)
    (mFio : M .fio := by first | assumption | simp) (mLog : M .log := by first | assumption | simp) (mHost : M .host := by first | assumption | simp) :
    KeptOut M a (execLogicStop b s) := by
  unfold execLogicStop
  with_reducible repeat' first
    | assumption
    | intro _
    | apply State.runCtl_kept
    | apply State.done_kept
    | apply State.report_kept
    | apply State.raise_kept
    | apply State.logicQuiet_kept
    | apply State.onLogic_kept
    | apply KeptOut.next
    | apply KeptOut.fault
    | split

theorem execLogicRead_kept (b : Nat) (h : Kept M a s) (mLog : M .log := by first | assumption | simp) (mHost : M .host := by first | assumption | simp) :
    KeptOut M a (execLogicRead b s) := by
  unfold execLogicRead
  with_reducible repeat' first
    | assumption
    | intro _
    | apply State.runCtl_kept
    | apply State.done_kept
    | apply KeptOut.next
    | apply KeptOut.fault
    | split

theorem execLogicWrite_kept (b : Nat) (h : Kept M a s) (mLogic : M .logic := by first | assumption | simp) (mLog : M .log := by first | assumption | simp)
    (mHost : M .host := by first | assumption | simp) :
    KeptOut M a (execLogicWrite b s) := by
  unfold execLogicWrite
  with_reducible repeat' first
    | assumption
    | intro _
    | apply State.runCtl_kept
    | apply State.done_kept
    | apply State.onLogic_kept
    | apply KeptOut.next
    | apply KeptOut.fault
    | split

theorem execLogicEvent_kept (b : Nat) (h : Kept M a s) (mLogic : M .logic := by first | assumption | simp) (mLog : M .log := by first | assumption | simp)
    (mHost : M .host := by first | assumption | simp) :
    KeptOut M a (execLogicEvent b s) := by
  refine KeptOut.next ?_
  split
  · dsimp only
    split
    · exact State.runCtl_kept _ _ _ h fun _ k => State.done_kept _ _ (State.onLogic_kept k _)
    · exact State.runCtl_kept _ _ _ h fun _ k => k
  · exact h

theorem execLogicStage_kept (b : Nat) (h : Kept M a s) (mLogic : M .logic := by first | assumption | simp) (mLog : M .log := by first | assumption | simp)
    (mHost : M .host := by first | assumption | simp) :
    KeptOut M a (execLogicStage b s) := by
  unfold execLogicStage
  with_reducible repeat' first
    | assumption
    | intro _
    | apply State.runCtl_kept
    | apply State.done_kept
    | apply State.onLogic_kept
    | apply KeptOut.next
    | apply KeptOut.fault
    | split

theorem execLogicExchange_kept (m : Nat) (h : Kept M a s) (mFresh : M .fresh := by first | assumption | simp) (mLogic : M .logic := by first | assumption | simp)
    (mLog : M .log := by first | assumption | simp) :
    KeptOut M a (execLogicExchange m s) := by
  unfold execLogicExchange
  with_reducible repeat' first
    | assumption
    | intro _
    | apply State.swapGroup_kept
    | apply KeptOut.next
    | apply KeptOut.fault
    | apply KeptOut.ite
    | apply Kept.ite
    | split

theorem execLogicExchFail_kept (m : Nat) (h : Kept M a s) (mLogic : M .logic := by first | assumption | simp) (mLog : M .log := by first | assumption | simp) :
    KeptOut M a (execLogicExchFail m s) := by
  unfold execLogicExchFail
  with_reducible repeat' first
    | assumption
    | intro _
    | extract_lets
    | apply State.onTaskGroup_kept
    | apply State.onLogic_kept
    | apply State.endExchange_kept
    | apply State.report_kept
    | apply State.raise_kept
    | apply KeptOut.next
    | apply KeptOut.fault
    | apply KeptOut.ite
    | apply Kept.ite
    | split

theorem execNetLink_kept (p : Nat) (up : Bool) (mbps : Nat) (h : Kept M a s) (mLog : M .log := by first | assumption | simp) (mNet : M .net := by first | assumption | simp)
    (mPtp : M .ptp := by first | assumption | simp) :
    KeptOut M a (execNetLink p up mbps s) := by
  unfold execNetLink
  with_reducible repeat' first
    | assumption
    | intro _
    | apply State.portLink_kept
    | apply KeptOut.next
    | apply KeptOut.fault
    | apply KeptOut.ite
    | apply Kept.ite

theorem State.badFcs_kept (p : Nat) (f : Frame) (h : Kept M a s) (mNet : M .net := by first | assumption | simp)
    (mChk : M .chk := by first | assumption | simp) :
    Kept M a (State.badFcs s p f) := by
  unfold State.badFcs
  with_reducible repeat' first
    | assumption
    | intro _
    | extract_lets
    | apply State.forEach_kept
    | apply State.onPort_kept
    | apply State.pathFail_kept
    | apply State.enqueue_kept

theorem execNetFrameRx_kept (x : FrameIn) (h : Kept M a s) (mLog : M .log := by first | assumption | simp)
    (mNet : M .net := by first | assumption | simp) (mPtp : M .ptp := by first | assumption | simp) (mChk : M .chk := by first | assumption | simp) :
    KeptOut M a (execNetFrameRx x s) := by
  unfold execNetFrameRx
  with_reducible repeat' first
    | assumption
    | apply KeptOut.next
    | intro _
    | extract_lets
    | apply State.onPort_kept
    | apply State.badFcs_kept
    | apply State.frameRx_kept
    | apply Kept.ite

theorem execNetMacAge_kept (h : Kept M a s) (mNet : M .net := by first | assumption | simp) : KeptOut M a (execNetMacAge s) := by
  unfold execNetMacAge
  with_reducible repeat' first | assumption | intro _ | apply State.onNet_kept | apply KeptOut.next

theorem execNetGclEntry_kept (p : Nat) (h : Kept M a s) (mNet : M .net := by first | assumption | simp) : KeptOut M a (execNetGclEntry p s) := by
  unfold execNetGclEntry
  with_reducible repeat' first
    | assumption
    | intro _
    | extract_lets
    | apply State.onPort_kept
    | apply KeptOut.next
    | apply KeptOut.fault
    | apply KeptOut.ite
    | apply Kept.ite
    | split

theorem execNetPortAdmin_kept (b : Nat) (h : Kept M a s) (mLog : M .log := by first | assumption | simp) (mNet : M .net := by first | assumption | simp)
    (mHost : M .host := by first | assumption | simp) :
    KeptOut M a (execNetPortAdmin b s) := by
  unfold execNetPortAdmin
  with_reducible repeat' first
    | assumption
    | intro _
    | apply State.runCtl_kept
    | apply State.done_kept
    | apply State.closePairs_kept
    | apply State.report_kept
    | apply State.onPort_kept
    | apply KeptOut.next
    | apply KeptOut.fault
    | split

theorem execHsrSupervisionSend_kept (kz : Nat) (h : Kept M a s) (mNet : M .net := by first | assumption | simp) : KeptOut M a (execHsrSupervisionSend kz s) := by
  unfold execHsrSupervisionSend
  with_reducible repeat' first
    | assumption
    | intro _
    | extract_lets
    | apply State.onPair_kept
    | apply State.sendOn_kept
    | apply State.onNet_kept
    | apply KeptOut.next
    | apply KeptOut.fault
    | apply KeptOut.ite
    | apply Kept.ite
    | split

theorem execNetRingOpen_kept (kz : Nat) (h : Kept M a s) (mLog : M .log := by first | assumption | simp) (mNet : M .net := by first | assumption | simp) :
    KeptOut M a (execNetRingOpen kz s) := by
  unfold execNetRingOpen
  with_reducible repeat' first
    | assumption
    | intro _
    | apply State.report_kept
    | apply State.raise_kept
    | apply State.onPair_kept
    | apply State.closePairs_kept
    | apply KeptOut.next
    | apply KeptOut.fault
    | apply KeptOut.ite
    | apply Kept.ite
    | split

theorem execHsrDupExpiry_kept (kz : Nat) (h : Kept M a s) (mNet : M .net := by first | assumption | simp) : KeptOut M a (execHsrDupExpiry kz s) := by
  unfold execHsrDupExpiry
  with_reducible repeat' first | assumption | intro _ | extract_lets | apply State.onPair_kept | apply KeptOut.next | apply KeptOut.fault | split

theorem execHsrNodeExpiry_kept (kz : Nat) (h : Kept M a s) (mNet : M .net := by first | assumption | simp) : KeptOut M a (execHsrNodeExpiry kz s) := by
  unfold execHsrNodeExpiry
  with_reducible repeat' first | assumption | intro _ | apply State.onPair_kept | apply KeptOut.next

theorem execRioInSend_kept (slot : Nat) (h : Kept M a s) (mLogic : M .logic := by first | assumption | simp) (mAdeid : M .adeid := by first | assumption | simp) :
    KeptOut M a (execRioInSend slot s) := by
  unfold execRioInSend
  with_reducible repeat' first
    | assumption
    | intro _
    | extract_lets
    | apply State.onStation_kept
    | apply State.adeidSend_kept
    | apply KeptOut.next
    | apply KeptOut.fault
    | apply KeptOut.ite
    | apply Kept.ite

theorem execRioPayloadRx_kept (src : Nat) (p : RioPayload) (h : Kept M a s) (mLogic : M .logic := by first | assumption | simp) (mFio : M .fio := by first | assumption | simp)
    (mLog : M .log := by first | assumption | simp) (mChk : M .chk := by first | assumption | simp) (mAdeid : M .adeid := by first | assumption | simp) :
    KeptOut M a (execRioPayloadRx src p s) := by
  unfold execRioPayloadRx
  with_reducible repeat' first | assumption | apply State.rioRx_kept | apply KeptOut.next

theorem execLogicStationDrop_kept (slot : Nat) (h : Kept M a s) (mLogic : M .logic := by first | assumption | simp) (mLog : M .log := by first | assumption | simp) :
    KeptOut M a (execLogicStationDrop slot s) := by
  unfold execLogicStationDrop
  with_reducible repeat' first
    | assumption
    | intro _
    | extract_lets
    | apply State.stationDrop_kept
    | apply KeptOut.next
    | apply KeptOut.fault
    | apply KeptOut.ite
    | apply Kept.ite

theorem execLogicStationSafe_kept (slot : Nat) (h : Kept M a s) (mLogic : M .logic := by first | assumption | simp) (mFio : M .fio := by first | assumption | simp)
    (mLog : M .log := by first | assumption | simp) :
    KeptOut M a (execLogicStationSafe slot s) := by
  unfold execLogicStationSafe
  with_reducible repeat' first
    | assumption
    | intro _
    | extract_lets
    | apply State.forEach_kept
    | apply State.commandSafe_kept
    | apply State.onStation_kept
    | apply State.report_kept
    | apply State.raise_kept
    | apply KeptOut.next
    | apply KeptOut.fault
    | apply KeptOut.ite
    | apply Kept.ite

theorem execDiffLaunch_kept (z : Nat) (h : Kept M a s) (mDiff : M .diff := by first | assumption | simp) (mLog : M .log := by first | assumption | simp)
    (mNet : M .net := by first | assumption | simp) (mAdeid : M .adeid := by first | assumption | simp) :
    KeptOut M a (execDiffLaunch z s) := by
  unfold execDiffLaunch
  with_reducible repeat' first
    | assumption
    | intro _
    | extract_lets
    | apply State.onZone_kept
    | apply State.diffJoin_kept
    | apply State.when_kept
    | apply State.headChange_kept
    | apply State.addOwn_kept
    | apply State.sumForward_kept
    | apply KeptOut.next
    | apply KeptOut.fault
    | apply KeptOut.ite
    | apply Kept.ite
    | split

theorem execSumFrameRx_kept (x0 : SumIn) (h : Kept M a s) (mDiff : M .diff := by first | assumption | simp) (mLog : M .log := by first | assumption | simp)
    (mNet : M .net := by first | assumption | simp) (mChk : M .chk := by first | assumption | simp) (mAdeid : M .adeid := by first | assumption | simp) :
    KeptOut M a (execSumFrameRx x0 s) := by
  unfold execSumFrameRx
  with_reducible repeat' first | assumption | apply State.sumRx_kept | apply KeptOut.next

theorem execDiffDeadline_kept (z : Nat) (h : Kept M a s) (mDiff : M .diff := by first | assumption | simp)
    (mLog : M .log := by first | assumption | simp) :
    KeptOut M a (execDiffDeadline z s) := by
  unfold execDiffDeadline
  with_reducible repeat' first
    | assumption
    | apply KeptOut.next
    | intro _
    | extract_lets
    | apply State.onZone_kept
    | apply State.instantIncomplete_kept
    | apply State.decideInstant_kept
    | apply Kept.ite
    | split

theorem execDoorHoldRenew_kept (h : Kept M a s) (mAdeid : M .adeid := by first | assumption | simp) : KeptOut M a (execDoorHoldRenew s) := by
  unfold execDoorHoldRenew
  with_reducible repeat' first
    | assumption
    | intro _
    | extract_lets
    | apply State.onAdeid_kept
    | apply State.when_kept
    | apply State.scheduleDoors_kept
    | apply KeptOut.next
    | apply KeptOut.fault
    | apply KeptOut.ite
    | apply Kept.ite

theorem execDoorHoldLapse_kept (h : Kept M a s) (mLog : M .log := by first | assumption | simp) (mNet : M .net := by first | assumption | simp) (mPtp : M .ptp := by first | assumption | simp)
    (mAdeid : M .adeid := by first | assumption | simp) :
    KeptOut M a (execDoorHoldLapse s) := by
  unfold execDoorHoldLapse
  with_reducible repeat' first
    | assumption
    | intro _
    | apply State.closeDoors_kept
    | apply State.onAdeid_kept
    | apply KeptOut.next
    | apply KeptOut.fault
    | apply KeptOut.ite
    | apply Kept.ite

theorem execDoorOpenScheduled_kept (d : Nat) (h : Kept M a s) (mLog : M .log := by first | assumption | simp) (mAdeid : M .adeid := by first | assumption | simp) :
    KeptOut M a (execDoorOpenScheduled d s) := by
  unfold execDoorOpenScheduled
  with_reducible repeat' first
    | assumption
    | intro _
    | apply State.onDoor_kept
    | apply State.openDoor_kept
    | apply KeptOut.next
    | apply KeptOut.fault
    | apply KeptOut.ite
    | apply Kept.ite

theorem execDoorClose_kept (b : Nat) (h : Kept M a s) (mLog : M .log := by first | assumption | simp) (mNet : M .net := by first | assumption | simp)
    (mPtp : M .ptp := by first | assumption | simp) (mHost : M .host := by first | assumption | simp) (mAdeid : M .adeid := by first | assumption | simp) :
    KeptOut M a (execDoorClose b s) := by
  unfold execDoorClose
  with_reducible repeat' first
    | assumption
    | intro _
    | apply State.runCtl_kept
    | apply State.done_kept
    | apply State.onDoor_kept
    | apply State.closeDoor_kept
    | apply KeptOut.next
    | apply KeptOut.fault
    | split

theorem execDoorOpen_kept (b : Nat) (h : Kept M a s) (mLog : M .log := by first | assumption | simp) (mHost : M .host := by first | assumption | simp)
    (mAdeid : M .adeid := by first | assumption | simp) :
    KeptOut M a (execDoorOpen b s) := by
  unfold execDoorOpen
  with_reducible repeat' first
    | assumption
    | intro _
    | extract_lets
    | apply State.runCtl_kept
    | apply State.onDoor_kept
    | apply State.done_kept
    | apply State.openDoor_kept
    | apply KeptOut.next
    | apply KeptOut.fault
    | apply KeptOut.ite
    | apply Kept.ite
    | split

theorem execAdeidLink_kept (x0 : AdeidLinkIn) (h : Kept M a s) (mLog : M .log := by first | assumption | simp) (mAdeid : M .adeid := by first | assumption | simp) :
    KeptOut M a (execAdeidLink x0 s) := by
  unfold execAdeidLink
  with_reducible repeat' first
    | assumption
    | intro _
    | extract_lets
    | apply State.adeidLinkDown_kept
    | apply State.onLink_kept
    | apply State.when_kept
    | apply State.linkMiswired_kept
    | apply State.adeidLinkUp_kept
    | apply KeptOut.next
    | apply KeptOut.fault
    | apply KeptOut.ite
    | apply Kept.ite
    | split

theorem execAdeidLinkFrameSend_kept (q : Nat) (h : Kept M a s) (mAdeid : M .adeid := by first | assumption | simp) :
    KeptOut M a (execAdeidLinkFrameSend q s) := by
  unfold execAdeidLinkFrameSend
  with_reducible repeat' first
    | assumption
    | intro _
    | extract_lets
    | apply State.onLink_kept
    | apply KeptOut.next
    | apply KeptOut.fault
    | apply KeptOut.ite
    | apply Kept.ite

theorem execAdeidFrameRx_kept (x0 : AdeidIn) (h : Kept M a s) (mSys : M .sys := by first | assumption | simp) (mClk : M .clk := by first | assumption | simp)
    (mTide : M .tide := by first | assumption | simp) (mAcq : M .acq := by first | assumption | simp) (mProt : M .prot := by first | assumption | simp) (mDiff : M .diff := by first | assumption | simp)
    (mForm : M .form := by first | assumption | simp) (mGate : M .gate := by first | assumption | simp) (mLogic : M .logic := by first | assumption | simp) (mFio : M .fio := by first | assumption | simp)
    (mCapt : M .capt := by first | assumption | simp) (mLog : M .log := by first | assumption | simp) (mNet : M .net := by first | assumption | simp) (mPtp : M .ptp := by first | assumption | simp)
    (mChk : M .chk := by first | assumption | simp) (mHost : M .host := by first | assumption | simp) (mAdeid : M .adeid := by first | assumption | simp) (mSec : M .sec := by first | assumption | simp)
    (mDiag : M .diag := by first | assumption | simp) (mSnaps : M .snaps := by first | assumption | simp) :
    KeptOut M a (execAdeidFrameRx x0 s) := by
  unfold execAdeidFrameRx
  with_reducible repeat' first
    | assumption
    | intro _
    | extract_lets
    | apply State.adeidFree_kept
    | apply State.pathFail_kept
    | apply State.raise_kept
    | apply State.onLink_kept
    | apply State.adeidDiscard_kept
    | apply State.adeidAlive_kept
    | apply State.linkRx_kept
    | apply KeptOut.next
    | apply KeptOut.fault
    | apply KeptOut.ite
    | apply Kept.ite
    | split

theorem execTopoHeartbeat_kept (h : Kept M a s) (mAdeid : M .adeid := by first | assumption | simp) : KeptOut M a (execTopoHeartbeat s) := by
  unfold execTopoHeartbeat
  with_reducible repeat' first
    | assumption
    | intro _
    | apply State.sendTopo_kept
    | apply KeptOut.next
    | apply KeptOut.fault
    | apply KeptOut.ite
    | apply Kept.ite

theorem execAdeidHeartbeatLoss_kept (n : Nat) (secondary : Bool) (h : Kept M a s) (mLog : M .log := by first | assumption | simp)
    (mAdeid : M .adeid := by first | assumption | simp) :
    KeptOut M a (execAdeidHeartbeatLoss n secondary s) := by
  unfold execAdeidHeartbeatLoss
  with_reducible repeat' first
    | assumption
    | intro _
    | apply State.recomputeReach_kept
    | apply KeptOut.next
    | apply KeptOut.fault
    | apply KeptOut.ite
    | apply Kept.ite

theorem execAdeidReqIdExpiry_kept (h : Kept M a s) (mAdeid : M .adeid := by first | assumption | simp) : KeptOut M a (execAdeidReqIdExpiry s) := by
  unfold execAdeidReqIdExpiry
  with_reducible repeat' first | assumption | intro _ | apply State.onAdeid_kept | apply KeptOut.next

theorem State.xrefMeasured_kept (ppm : Num) (h : Kept M a s) (mClk : M .clk := by first | assumption | simp) :
    Kept M a (State.xrefMeasured s ppm) := by
  unfold State.xrefMeasured
  with_reducible repeat' first | assumption | intro _ | extract_lets | apply State.onClk_kept | apply State.when_kept

theorem execXrefLoss_kept (h : Kept M a s) (mFresh : M .fresh := by first | assumption | simp)
    (mClk : M .clk := by first | assumption | simp) (mTide : M .tide := by first | assumption | simp)
    (mDiff : M .diff := by first | assumption | simp) (mForm : M .form := by first | assumption | simp)
    (mGate : M .gate := by first | assumption | simp) (mLogic : M .logic := by first | assumption | simp)
    (mCapt : M .capt := by first | assumption | simp) (mLog : M .log := by first | assumption | simp) (mNet : M .net := by first | assumption | simp)
    (mPtp : M .ptp := by first | assumption | simp) (mAdeid : M .adeid := by first | assumption | simp) :
    KeptOut M a (execXrefLoss s) := by
  unfold execXrefLoss
  with_reducible repeat' first
    | assumption
    | apply KeptOut.next
    | intro _
    | extract_lets
    | apply State.refLost_kept
    | apply Kept.ite
    | split

theorem execTcxoLoss_kept (h : Kept M a s) (mFresh : M .fresh := by first | assumption | simp) (mClk : M .clk := by first | assumption | simp) (mTide : M .tide := by first | assumption | simp)
    (mDiff : M .diff := by first | assumption | simp) (mForm : M .form := by first | assumption | simp) (mGate : M .gate := by first | assumption | simp) (mLogic : M .logic := by first | assumption | simp)
    (mCapt : M .capt := by first | assumption | simp) (mLog : M .log := by first | assumption | simp) (mNet : M .net := by first | assumption | simp) (mPtp : M .ptp := by first | assumption | simp)
    (mAdeid : M .adeid := by first | assumption | simp) :
    KeptOut M a (execTcxoLoss s) := by
  unfold execTcxoLoss
  with_reducible repeat' first
    | assumption
    | intro _
    | apply State.refLost_kept
    | apply KeptOut.next
    | apply KeptOut.fault
    | apply KeptOut.ite
    | apply Kept.ite

theorem execXrefQualified_kept (ppm : Num) (h : Kept M a s) (mFresh : M .fresh := by first | assumption | simp)
    (mClk : M .clk := by first | assumption | simp) (mTide : M .tide := by first | assumption | simp)
    (mDiff : M .diff := by first | assumption | simp) (mForm : M .form := by first | assumption | simp)
    (mGate : M .gate := by first | assumption | simp) (mLogic : M .logic := by first | assumption | simp)
    (mCapt : M .capt := by first | assumption | simp) (mLog : M .log := by first | assumption | simp) (mNet : M .net := by first | assumption | simp)
    (mPtp : M .ptp := by first | assumption | simp) (mAdeid : M .adeid := by first | assumption | simp) :
    KeptOut M a (execXrefQualified ppm s) := by
  unfold execXrefQualified
  with_reducible repeat' first
    | assumption
    | apply KeptOut.next
    | intro _
    | extract_lets
    | apply State.onClk_kept
    | apply State.refLost_kept
    | apply State.xrefMeasured_kept
    | apply Kept.ite
    | split

theorem execTcxoQualified_kept (h : Kept M a s) (mFresh : M .fresh := by first | assumption | simp) (mClk : M .clk := by first | assumption | simp) :
    KeptOut M a (execTcxoQualified s) := by
  unfold execTcxoQualified
  with_reducible repeat' first
    | assumption
    | apply KeptOut.next
    | intro _
    | extract_lets
    | apply State.onClk_kept
    | apply State.when_kept
    | apply State.measureRef_kept
    | apply State.restartLoops_kept
    | apply Kept.ite

theorem execXrefReturn_kept (h : Kept M a s) (mFresh : M .fresh := by first | assumption | simp) (mClk : M .clk := by first | assumption | simp)
    (mLog : M .log := by first | assumption | simp) :
    KeptOut M a (execXrefReturn s) := by
  unfold execXrefReturn
  with_reducible repeat' first | assumption | apply KeptOut.next | intro _ | extract_lets | apply State.refSwitch_kept | apply Kept.ite

theorem execRefQualified_kept (q : RefSeen) (h : Kept M a s) (mFresh : M .fresh := by first | assumption | simp)
    (mClk : M .clk := by first | assumption | simp) (mLog : M .log := by first | assumption | simp) :
    KeptOut M a (execRefQualified q s) := by
  unfold execRefQualified
  with_reducible repeat' first
    | assumption
    | apply KeptOut.next
    | intro _
    | extract_lets
    | apply State.onClk_kept
    | apply State.refSwitch_kept
    | apply State.restartLoops_kept
    | apply Kept.ite

theorem execSpllLocked_kept (l : LoopId) (h : Kept M a s) (mFresh : M .fresh := by first | assumption | simp)
    (mClk : M .clk := by first | assumption | simp) :
    KeptOut M a (execSpllLocked l s) := by
  unfold execSpllLocked
  refine KeptOut.next (Kept.ite (fun _ => h) fun _ => ?_)
  dsimp only
  refine State.onLoop_kept _ _ ?_
  split
  · exact h
  · exact State.drawNear_kept _ _ h

theorem execSpllQualified_kept (l : LoopId) (h : Kept M a s) (mClk : M .clk := by first | assumption | simp)
    (mLog : M .log := by first | assumption | simp) (mHost : M .host := by first | assumption | simp) :
    KeptOut M a (execSpllQualified l s) := by
  unfold execSpllQualified
  with_reducible repeat' first
    | assumption
    | intro _
    | extract_lets
    | apply State.onLoop_kept
    | apply State.report_kept
    | apply State.when_kept
    | apply State.measureDomains_kept
    | apply State.onClk_kept
    | apply State.retuneDone_kept
    | apply State.nextMove_kept
    | apply KeptOut.next
    | apply KeptOut.fault
    | apply KeptOut.ite
    | apply Kept.ite
    | split

theorem execSpllLossOfLock_kept (x : LossSeen) (h : Kept M a s) (mFresh : M .fresh := by first | assumption | simp)
    (mClk : M .clk := by first | assumption | simp) (mTide : M .tide := by first | assumption | simp)
    (mDiff : M .diff := by first | assumption | simp) (mForm : M .form := by first | assumption | simp)
    (mGate : M .gate := by first | assumption | simp) (mLogic : M .logic := by first | assumption | simp)
    (mCapt : M .capt := by first | assumption | simp) (mLog : M .log := by first | assumption | simp) (mNet : M .net := by first | assumption | simp)
    (mPtp : M .ptp := by first | assumption | simp) (mAdeid : M .adeid := by first | assumption | simp) :
    KeptOut M a (execSpllLossOfLock x s) := by
  unfold execSpllLossOfLock
  with_reducible repeat' first
    | assumption
    | apply KeptOut.next
    | intro _
    | extract_lets
    | apply State.mpllLost_kept
    | apply State.loopLost_kept
    | apply Kept.ite

theorem execSpllRetry_kept (l : LoopId) (h : Kept M a s) (mFresh : M .fresh := by first | assumption | simp) (mClk : M .clk := by first | assumption | simp)
    (mTide : M .tide := by first | assumption | simp) (mDiff : M .diff := by first | assumption | simp) (mForm : M .form := by first | assumption | simp) (mGate : M .gate := by first | assumption | simp)
    (mLogic : M .logic := by first | assumption | simp) (mCapt : M .capt := by first | assumption | simp) (mLog : M .log := by first | assumption | simp) (mNet : M .net := by first | assumption | simp)
    (mPtp : M .ptp := by first | assumption | simp) (mHost : M .host := by first | assumption | simp) (mAdeid : M .adeid := by first | assumption | simp) :
    KeptOut M a (execSpllRetry l s) := by
  unfold execSpllRetry
  with_reducible repeat' first
    | assumption
    | intro _
    | extract_lets
    | apply State.onLoop_kept
    | apply State.report_kept
    | apply State.raise_kept
    | apply State.when_kept
    | apply State.retuneFailed_kept
    | apply State.degradedStart_kept
    | apply KeptOut.next
    | apply KeptOut.fault
    | apply KeptOut.ite
    | apply Kept.ite

theorem execClkGuard_kept (d : Nat) (h : Kept M a s) (mFresh : M .fresh := by first | assumption | simp)
    (mClk : M .clk := by first | assumption | simp) (mTide : M .tide := by first | assumption | simp)
    (mDiff : M .diff := by first | assumption | simp) (mForm : M .form := by first | assumption | simp)
    (mGate : M .gate := by first | assumption | simp) (mLogic : M .logic := by first | assumption | simp)
    (mCapt : M .capt := by first | assumption | simp) (mLog : M .log := by first | assumption | simp) (mNet : M .net := by first | assumption | simp)
    (mPtp : M .ptp := by first | assumption | simp) (mAdeid : M .adeid := by first | assumption | simp) :
    KeptOut M a (execClkGuard d s) := by
  unfold execClkGuard
  with_reducible repeat' first
    | assumption
    | apply KeptOut.next
    | intro _
    | extract_lets
    | apply State.onClk_kept
    | apply State.raise_kept
    | apply State.when_kept
    | apply State.report_kept
    | apply State.loopGuarded_kept

theorem execClkRetune_kept (b : Nat) (h : Kept M a s) (mClk : M .clk := by first | assumption | simp) (mLog : M .log := by first | assumption | simp)
    (mHost : M .host := by first | assumption | simp) :
    KeptOut M a (execClkRetune b s) := by
  unfold execClkRetune
  with_reducible repeat' first
    | assumption
    | intro _
    | apply State.runCtl_kept
    | apply State.beginRetune_kept
    | apply State.toTarget_kept
    | apply KeptOut.next
    | apply KeptOut.fault
    | split

theorem execRetuneTimeout_kept (h : Kept M a s) (mClk : M .clk := by first | assumption | simp) (mHost : M .host := by first | assumption | simp) :
    KeptOut M a (execRetuneTimeout s) := by
  unfold execRetuneTimeout
  with_reducible repeat' first
    | assumption
    | intro _
    | apply State.retuneFailed_kept
    | apply KeptOut.next
    | apply KeptOut.fault
    | apply KeptOut.ite
    | apply Kept.ite
    | split

theorem execClkLoopReset_kept (b : Nat) (h : Kept M a s) (mClk : M .clk := by first | assumption | simp) (mLog : M .log := by first | assumption | simp)
    (mHost : M .host := by first | assumption | simp) :
    KeptOut M a (execClkLoopReset b s) := by
  unfold execClkLoopReset
  with_reducible repeat' first
    | assumption
    | intro _
    | apply State.runCtl_kept
    | apply State.done_kept
    | apply State.onLoop_kept
    | apply KeptOut.next
    | apply KeptOut.fault
    | apply KeptOut.ite
    | apply Kept.ite
    | split

theorem execMeasStrobe_kept (steer : Num) (h : Kept M a s) (mClk : M .clk := by first | assumption | simp) (mAcq : M .acq := by first | assumption | simp) :
    KeptOut M a (execMeasStrobe steer s) := by
  unfold execMeasStrobe
  with_reducible repeat' first
    | assumption
    | apply KeptOut.next
    | intro _
    | extract_lets
    | apply State.onClk_kept
    | apply State.strobeRestart_kept
    | apply Kept.ite

theorem execMpllLol_kept (h : Kept M a s) (mClk : M .clk := by first | assumption | simp) (mLog : M .log := by first | assumption | simp) : KeptOut M a (execMpllLol s) := by
  unfold execMpllLol
  with_reducible repeat' first
    | assumption
    | intro _
    | apply State.mpllLost_kept
    | apply KeptOut.next
    | apply KeptOut.fault
    | apply KeptOut.ite
    | apply Kept.ite

theorem execMpllRequalified_kept (h : Kept M a s) (mClk : M .clk := by first | assumption | simp) : KeptOut M a (execMpllRequalified s) := by
  unfold execMpllRequalified
  with_reducible repeat' first
    | assumption
    | intro _
    | apply State.onClk_kept
    | apply KeptOut.next
    | apply KeptOut.fault
    | apply KeptOut.ite
    | apply Kept.ite

theorem execDegradedEnd_kept (h : Kept M a s) (mClk : M .clk := by first | assumption | simp)
    (mTide : M .tide := by first | assumption | simp) (mDiff : M .diff := by first | assumption | simp) (mForm : M .form := by first | assumption | simp) (mGate : M .gate := by first | assumption | simp)
    (mLogic : M .logic := by first | assumption | simp) (mCapt : M .capt := by first | assumption | simp) (mLog : M .log := by first | assumption | simp) (mPtp : M .ptp := by first | assumption | simp)
    (mHost : M .host := by first | assumption | simp) (mAdeid : M .adeid := by first | assumption | simp) :
    KeptOut M a (execDegradedEnd s) := by
  unfold execDegradedEnd
  with_reducible repeat' first | assumption | apply State.degradedEnd_kept | apply KeptOut.next | apply KeptOut.fault | split

theorem execDramRetrainDone_kept (h : Kept M a s) (mClk : M .clk := by first | assumption | simp) (mCapt : M .capt := by first | assumption | simp) :
    KeptOut M a (execDramRetrainDone s) := by
  unfold execDramRetrainDone
  with_reducible repeat' first
    | assumption
    | intro _
    | extract_lets
    | apply State.onClk_kept
    | apply State.forEach_kept
    | apply State.captResume_kept
    | apply KeptOut.next
    | apply KeptOut.fault
    | apply KeptOut.ite
    | apply Kept.ite

theorem execPartnerReset_kept (x src d token : Nat) (aligned : Bool) (h : Kept M a s) (mClk : M .clk := by first | assumption | simp)
    (mLog : M .log := by first | assumption | simp) :
    KeptOut M a (execPartnerReset x src d token aligned s) := by
  unfold execPartnerReset
  with_reducible repeat' first
    | assumption
    | apply KeptOut.next
    | intro _
    | extract_lets
    | apply State.onClk_kept
    | apply State.raise_kept
    | apply State.onXing_kept
    | apply State.report_kept
    | apply Kept.ite

theorem execDomainStopped_kept (d : Nat) (h : Kept M a s) (mClk : M .clk := by first | assumption | simp)
    (mLog : M .log := by first | assumption | simp) :
    KeptOut M a (execDomainStopped d s) := by
  unfold execDomainStopped
  with_reducible repeat' first | assumption | apply KeptOut.next | intro _ | extract_lets | apply State.domainStop_kept

theorem execDomainClockReturn_kept (d : Nat) (h : Kept M a s) (mClk : M .clk := by first | assumption | simp) : KeptOut M a (execDomainClockReturn d s) := by
  unfold execDomainClockReturn
  with_reducible repeat' first
    | assumption
    | intro _
    | apply State.onClk_kept
    | apply KeptOut.next
    | apply KeptOut.fault
    | apply KeptOut.ite
    | apply Kept.ite

theorem execFormLockstepTestDone_kept (u : Nat) (pass : Bool) (h : Kept M a s) (mForm : M .form := by first | assumption | simp) (mLog : M .log := by first | assumption | simp)
    (mDiag : M .diag := by first | assumption | simp) :
    KeptOut M a (execFormLockstepTestDone u pass s) := by
  unfold execFormLockstepTestDone
  with_reducible repeat' first
    | assumption
    | intro _
    | extract_lets
    | apply State.testResult_kept
    | apply State.when_kept
    | apply State.onUnit_kept
    | apply KeptOut.next
    | apply KeptOut.fault
    | apply KeptOut.ite
    | apply Kept.ite
    | split

theorem execDiagSelftestPeriodic_kept (t : SelfTest) (l : LoopId) (pass : Bool) (h : Kept M a s) (mFresh : M .fresh := by first | assumption | simp)
    (mClk : M .clk := by first | assumption | simp) (mTide : M .tide := by first | assumption | simp) (mDiff : M .diff := by first | assumption | simp) (mForm : M .form := by first | assumption | simp)
    (mGate : M .gate := by first | assumption | simp) (mLogic : M .logic := by first | assumption | simp) (mCapt : M .capt := by first | assumption | simp) (mLog : M .log := by first | assumption | simp)
    (mNet : M .net := by first | assumption | simp) (mPtp : M .ptp := by first | assumption | simp) (mAdeid : M .adeid := by first | assumption | simp) (mSec : M .sec := by first | assumption | simp)
    (mDiag : M .diag := by first | assumption | simp) :
    KeptOut M a (execDiagSelftestPeriodic t l pass s) := by
  unfold execDiagSelftestPeriodic
  with_reducible repeat' first
    | assumption
    | intro _
    | apply State.updateHealth_kept
    | apply State.testAction_kept
    | apply State.testResult_kept
    | apply KeptOut.next
    | apply KeptOut.fault
    | apply KeptOut.ite
    | apply Kept.ite
    | split

theorem execDiagEccError_kept (x0 : EccIn) (h : Kept M a s) (mProt : M .prot := by first | assumption | simp) (mLogic : M .logic := by first | assumption | simp)
    (mFio : M .fio := by first | assumption | simp) (mCapt : M .capt := by first | assumption | simp) (mLog : M .log := by first | assumption | simp) (mSec : M .sec := by first | assumption | simp)
    (mDiag : M .diag := by first | assumption | simp) :
    KeptOut M a (execDiagEccError x0 s) := by
  unfold execDiagEccError
  with_reducible repeat' first
    | assumption
    | intro _
    | extract_lets
    | apply State.eccCount_kept
    | apply State.updateHealth_kept
    | apply State.eccOwner_kept
    | apply KeptOut.next
    | apply KeptOut.fault
    | apply KeptOut.ite
    | apply Kept.ite

theorem execMramRefreshStart_kept (h : Kept M a s) (mLog : M .log := by first | assumption | simp) (mDiag : M .diag := by first | assumption | simp) :
    KeptOut M a (execMramRefreshStart s) := by
  unfold execMramRefreshStart
  with_reducible repeat' first
    | assumption
    | intro _
    | extract_lets
    | apply State.onDiag_kept
    | apply State.updateHealth_kept
    | apply State.when_kept
    | apply State.report_kept
    | apply State.raise_kept
    | apply KeptOut.next
    | apply KeptOut.fault
    | apply KeptOut.ite
    | apply Kept.ite

theorem execMramRefreshLine_kept (line : Nat) (corrected : Bool) (h : Kept M a s) (mLog : M .log := by first | assumption | simp)
    (mDiag : M .diag := by first | assumption | simp) :
    KeptOut M a (execMramRefreshLine line corrected s) := by
  unfold execMramRefreshLine
  with_reducible repeat' first
    | assumption
    | intro _
    | extract_lets
    | apply State.onDiag_kept
    | apply State.when_kept
    | apply State.eccCount_kept
    | apply State.report_kept
    | apply KeptOut.next
    | apply KeptOut.fault
    | apply KeptOut.ite
    | apply Kept.ite

theorem execDiagTempRead_kept (x0 : List Int) (h : Kept M a s) (mLog : M .log := by first | assumption | simp) (mDiag : M .diag := by first | assumption | simp) :
    KeptOut M a (execDiagTempRead x0 s) := by
  unfold execDiagTempRead
  with_reducible repeat' first
    | assumption
    | intro _
    | extract_lets
    | apply State.onDiag_kept
    | apply State.updateHealth_kept
    | apply State.when_kept
    | apply State.report_kept
    | apply KeptOut.next
    | apply KeptOut.fault
    | apply KeptOut.ite
    | apply Kept.ite

theorem execDiagAgeMeasure_kept (x0 : List Nat) (h : Kept M a s) (mLog : M .log := by first | assumption | simp) (mDiag : M .diag := by first | assumption | simp) :
    KeptOut M a (execDiagAgeMeasure x0 s) := by
  unfold execDiagAgeMeasure
  with_reducible repeat' first
    | assumption
    | intro _
    | extract_lets
    | apply State.onDiag_kept
    | apply State.updateHealth_kept
    | apply State.when_kept
    | apply State.report_kept
    | apply State.raise_kept
    | apply KeptOut.next
    | apply KeptOut.fault
    | apply KeptOut.ite
    | apply Kept.ite

theorem execLedgerCommit_kept (h : Kept M a s) (mLog : M .log := by first | assumption | simp) (mDiag : M .diag := by first | assumption | simp) :
    KeptOut M a (execLedgerCommit s) := by
  unfold execLedgerCommit
  with_reducible repeat' first
    | assumption
    | intro _
    | extract_lets
    | apply State.onDiag_kept
    | apply State.ageMinute_kept
    | apply KeptOut.next
    | apply KeptOut.fault
    | apply KeptOut.ite
    | apply Kept.ite

theorem execDiagBundle_kept (b : Nat) (h : Kept M a s) (mLog : M .log := by first | assumption | simp) (mHost : M .host := by first | assumption | simp)
    (mDiag : M .diag := by first | assumption | simp) :
    KeptOut M a (execDiagBundle b s) := by
  unfold execDiagBundle
  with_reducible repeat' first
    | assumption
    | intro _
    | apply State.runCtl_kept
    | apply State.done_kept
    | apply State.onDiag_kept
    | apply KeptOut.next
    | apply KeptOut.fault
    | split

theorem execHealthGoosePublish_kept (h : Kept M a s) (mNet : M .net := by first | assumption | simp) : KeptOut M a (execHealthGoosePublish s) := by
  unfold execHealthGoosePublish
  with_reducible repeat' first
    | assumption
    | intro _
    | extract_lets
    | apply State.sendOwn_kept
    | apply State.onNet_kept
    | apply KeptOut.next
    | apply KeptOut.fault
    | apply KeptOut.ite
    | apply Kept.ite

theorem execFioInputEdge_kept (ch : Nat) (level : Bool) (stamp : Word) (stable : Ns) (h : Kept M a s) (mProt : M .prot := by first | assumption | simp)
    (mLogic : M .logic := by first | assumption | simp) (mFio : M .fio := by first | assumption | simp) (mLog : M .log := by first | assumption | simp) :
    KeptOut M a (execFioInputEdge ch level stamp stable s) := by
  unfold execFioInputEdge
  with_reducible repeat' first
    | assumption
    | intro _
    | extract_lets
    | apply State.inputLevel_kept
    | apply State.pushEdge_kept
    | apply State.onCh_kept
    | apply KeptOut.next
    | apply KeptOut.fault
    | apply KeptOut.ite
    | apply Kept.ite

theorem execFioCouplerFrame_kept (x : CouplerIn) (h : Kept M a s) (mTide : M .tide := by first | assumption | simp)
    (mFio : M .fio := by first | assumption | simp) (mCapt : M .capt := by first | assumption | simp)
    (mChk : M .chk := by first | assumption | simp) :
    KeptOut M a (execFioCouplerFrame x s) := by
  unfold execFioCouplerFrame
  with_reducible repeat' first
    | assumption
    | apply KeptOut.next
    | intro _
    | extract_lets
    | apply State.onChk_kept
    | apply State.forEach_kept
    | apply State.onGroup_kept
    | apply State.pathFail_kept
    | apply State.fioMeasure_kept
    | apply State.takeEdges_kept
    | apply State.diagArrives_kept
    | apply Kept.ite
  all_goals first | assumption | exact h.same rfl rfl rfl rfl

theorem execGooseFrameRx_kept (f : GooseFrame) (h : Kept M a s) (mProt : M .prot := by first | assumption | simp) (mLogic : M .logic := by first | assumption | simp)
    (mCapt : M .capt := by first | assumption | simp) (mLog : M .log := by first | assumption | simp) (mNet : M .net := by first | assumption | simp) :
    KeptOut M a (execGooseFrameRx f s) := by
  unfold execGooseFrameRx
  with_reducible repeat' first
    | assumption
    | intro _
    | extract_lets
    | apply State.onGsub_kept
    | apply State.rateRefused_kept
    | apply State.onNet_kept
    | apply State.raise_kept
    | apply State.gooseInvalid_kept
    | apply State.report_kept
    | apply State.gooseTake_kept
    | apply KeptOut.next
    | apply KeptOut.fault
    | apply KeptOut.ite
    | apply Kept.ite
    | split

theorem execGooseTalExpired_kept (i : Nat) (h : Kept M a s) (mCapt : M .capt := by first | assumption | simp) (mLog : M .log := by first | assumption | simp)
    (mNet : M .net := by first | assumption | simp) :
    KeptOut M a (execGooseTalExpired i s) := by
  unfold execGooseTalExpired
  with_reducible repeat' first
    | assumption
    | intro _
    | apply State.report_kept
    | apply State.raise_kept
    | apply State.onGsub_kept
    | apply State.gooseInvalid_kept
    | apply KeptOut.next
    | apply KeptOut.fault
    | apply KeptOut.ite
    | apply Kept.ite
    | split

theorem execGoosePublishChange_kept (q : Nat) (h : Kept M a s) (mNet : M .net := by first | assumption | simp) : KeptOut M a (execGoosePublishChange q s) := by
  unfold execGoosePublishChange
  with_reducible repeat' first
    | assumption
    | intro _
    | extract_lets
    | apply State.sendGoose_kept
    | apply State.onGpub_kept
    | apply KeptOut.next
    | apply KeptOut.fault
    | apply KeptOut.ite
    | apply Kept.ite
    | split

theorem execGooseRetransmit_kept (q : Nat) (h : Kept M a s) (mNet : M .net := by first | assumption | simp) : KeptOut M a (execGooseRetransmit q s) := by
  unfold execGooseRetransmit
  with_reducible repeat' first
    | assumption
    | intro _
    | apply State.sendGoose_kept
    | apply State.onGpub_kept
    | apply KeptOut.next
    | apply KeptOut.fault
    | apply KeptOut.ite
    | apply Kept.ite
    | split

theorem execSvFrameRx_kept (f : SvFrame) (h : Kept M a s) (mAcq : M .acq := by first | assumption | simp) (mLog : M .log := by first | assumption | simp)
    (mNet : M .net := by first | assumption | simp) :
    KeptOut M a (execSvFrameRx f s) := by
  unfold execSvFrameRx
  with_reducible repeat' first
    | assumption
    | intro _
    | extract_lets
    | apply State.onSvsub_kept
    | apply State.rateRefused_kept
    | apply State.onNet_kept
    | apply State.raise_kept
    | apply State.forEach_kept
    | apply State.svAsdu_kept
    | apply KeptOut.next
    | apply KeptOut.fault
    | apply KeptOut.ite
    | apply Kept.ite
    | split

theorem execNetSvLost_kept (i : Nat) (h : Kept M a s) (mLog : M .log := by first | assumption | simp) (mNet : M .net := by first | assumption | simp) :
    KeptOut M a (execNetSvLost i s) := by
  unfold execNetSvLost
  with_reducible repeat' first
    | assumption
    | intro _
    | apply State.report_kept
    | apply State.raise_kept
    | apply State.onSvsub_kept
    | apply KeptOut.next
    | apply KeptOut.fault
    | apply KeptOut.ite
    | apply Kept.ite
    | split

theorem execFastLanePeriod_kept (x0 : FastIn) (h : Kept M a s) (mFresh : M .fresh := by first | assumption | simp) (mManifest : M .manifest := by first | assumption | simp)
    (mSys : M .sys := by first | assumption | simp) (mClk : M .clk := by first | assumption | simp) (mTide : M .tide := by first | assumption | simp) (mAcq : M .acq := by first | assumption | simp)
    (mProt : M .prot := by first | assumption | simp) (mDiff : M .diff := by first | assumption | simp) (mForm : M .form := by first | assumption | simp) (mGate : M .gate := by first | assumption | simp)
    (mLogic : M .logic := by first | assumption | simp) (mFio : M .fio := by first | assumption | simp) (mCapt : M .capt := by first | assumption | simp) (mLog : M .log := by first | assumption | simp)
    (mNet : M .net := by first | assumption | simp) (mPtp : M .ptp := by first | assumption | simp) (mChk : M .chk := by first | assumption | simp) (mHost : M .host := by first | assumption | simp)
    (mAdeid : M .adeid := by first | assumption | simp) (mSec : M .sec := by first | assumption | simp) (mDiag : M .diag := by first | assumption | simp) :
    KeptOut M a (execFastLanePeriod x0 s) := by
  unfold execFastLanePeriod
  with_reducible repeat' first
    | assumption
    | intro _
    | extract_lets
    | apply State.fastPart_kept
    | apply State.boundary_kept
    | apply State.intake_kept
    | apply KeptOut.next
    | apply KeptOut.fault
    | apply KeptOut.ite
    | apply Kept.ite

theorem execPhasorLanePeriod_kept (x0 : PhasorIn) (h : Kept M a s) (mFresh : M .fresh := by first | assumption | simp) (mManifest : M .manifest := by first | assumption | simp)
    (mSys : M .sys := by first | assumption | simp) (mClk : M .clk := by first | assumption | simp) (mTide : M .tide := by first | assumption | simp) (mAcq : M .acq := by first | assumption | simp)
    (mProt : M .prot := by first | assumption | simp) (mDiff : M .diff := by first | assumption | simp) (mForm : M .form := by first | assumption | simp) (mGate : M .gate := by first | assumption | simp)
    (mLogic : M .logic := by first | assumption | simp) (mFio : M .fio := by first | assumption | simp) (mCapt : M .capt := by first | assumption | simp) (mLog : M .log := by first | assumption | simp)
    (mNet : M .net := by first | assumption | simp) (mPtp : M .ptp := by first | assumption | simp) (mChk : M .chk := by first | assumption | simp) (mHost : M .host := by first | assumption | simp)
    (mAdeid : M .adeid := by first | assumption | simp) (mSec : M .sec := by first | assumption | simp) (mDiag : M .diag := by first | assumption | simp) :
    KeptOut M a (execPhasorLanePeriod x0 s) := by
  unfold execPhasorLanePeriod
  with_reducible repeat' first
    | assumption
    | intro _
    | extract_lets
    | apply State.boundary_kept
    | apply State.phasorPart_kept
    | apply State.intake_kept
    | apply KeptOut.next
    | apply KeptOut.fault
    | apply KeptOut.ite
    | apply Kept.ite

theorem execLaneDisagreeEpisodeEnd_kept (e : Nat) (h : Kept M a s) (mProt : M .prot := by first | assumption | simp) :
    KeptOut M a (execLaneDisagreeEpisodeEnd e s) := by
  unfold execLaneDisagreeEpisodeEnd
  with_reducible repeat' first
    | assumption
    | intro _
    | apply State.onElem_kept
    | apply KeptOut.next
    | apply KeptOut.fault
    | apply KeptOut.ite
    | apply Kept.ite

theorem execProtKatDone_kept (x : KatIn) (h : Kept M a s) (mProt : M .prot := by first | assumption | simp)
    (mLogic : M .logic := by first | assumption | simp) (mCapt : M .capt := by first | assumption | simp)
    (mLog : M .log := by first | assumption | simp) (mDiag : M .diag := by first | assumption | simp) :
    KeptOut M a (execProtKatDone x s) := by
  unfold execProtKatDone
  with_reducible repeat' first
    | assumption
    | apply KeptOut.next
    | intro _
    | extract_lets
    | apply State.onProt_kept
    | apply State.raise_kept
    | apply State.testResult_kept
    | apply State.katEnds_kept
    | apply State.suspect_kept
    | apply State.report_kept
    | apply Kept.ite

theorem execProtKatPeriodic_kept (h : Kept M a s) (mProt : M .prot := by first | assumption | simp) : KeptOut M a (execProtKatPeriodic s) := by
  unfold execProtKatPeriodic
  with_reducible repeat' first
    | assumption
    | intro _
    | apply State.forEach_kept
    | apply State.startKat_kept
    | apply KeptOut.next
    | apply KeptOut.fault
    | apply KeptOut.ite
    | apply Kept.ite

theorem execSgSelect_kept (b : Nat) (h : Kept M a s) (mProt : M .prot := by first | assumption | simp) (mLog : M .log := by first | assumption | simp)
    (mHost : M .host := by first | assumption | simp) :
    KeptOut M a (execSgSelect b s) := by
  unfold execSgSelect
  with_reducible repeat' first
    | assumption
    | intro _
    | apply State.runCtl_kept
    | apply State.requestGroup_kept
    | apply State.toTarget_kept
    | apply KeptOut.next
    | apply KeptOut.fault
    | split

theorem execSgDeferExpiry_kept (h : Kept M a s) (mProt : M .prot := by first | assumption | simp) (mLog : M .log := by first | assumption | simp) :
    KeptOut M a (execSgDeferExpiry s) := by
  unfold execSgDeferExpiry
  with_reducible repeat' first
    | assumption
    | intro _
    | apply State.applyDeferred_kept
    | apply KeptOut.next
    | apply KeptOut.fault
    | apply KeptOut.ite
    | apply Kept.ite

theorem State.takeSync_kept (x : SyncIn) (h : Kept M a s) (mLtc : M .ltc := by first | assumption | simp)
    (mFresh : M .fresh := by first | assumption | simp) (mClk : M .clk := by first | assumption | simp)
    (mTide : M .tide := by first | assumption | simp) (mAcq : M .acq := by first | assumption | simp)
    (mProt : M .prot := by first | assumption | simp) (mFio : M .fio := by first | assumption | simp)
    (mCapt : M .capt := by first | assumption | simp) (mLog : M .log := by first | assumption | simp) (mNet : M .net := by first | assumption | simp)
    (mPtp : M .ptp := by first | assumption | simp) (mDiag : M .diag := by first | assumption | simp) :
    Kept M a (State.takeSync s x) := by
  unfold State.takeSync
  with_reducible repeat' first
    | assumption
    | intro _
    | extract_lets
    | apply State.onPtp_kept
    | apply State.syncPhase_kept
    | apply State.syncStep_kept
    | apply State.dropCandidate_kept
    | apply State.steer_kept
    | apply Kept.ite
    | split

theorem execPtpSyncRx_kept (x : SyncIn) (h : Kept M a s) (mLtc : M .ltc := by first | assumption | simp)
    (mFresh : M .fresh := by first | assumption | simp) (mClk : M .clk := by first | assumption | simp)
    (mTide : M .tide := by first | assumption | simp) (mAcq : M .acq := by first | assumption | simp)
    (mProt : M .prot := by first | assumption | simp) (mDiff : M .diff := by first | assumption | simp)
    (mFio : M .fio := by first | assumption | simp) (mCapt : M .capt := by first | assumption | simp) (mLog : M .log := by first | assumption | simp)
    (mNet : M .net := by first | assumption | simp) (mPtp : M .ptp := by first | assumption | simp)
    (mDiag : M .diag := by first | assumption | simp) :
    KeptOut M a (execPtpSyncRx x s) := by
  unfold execPtpSyncRx
  with_reducible repeat' first
    | assumption
    | apply KeptOut.next
    | intro _
    | extract_lets
    | apply State.diffJoin_kept
    | apply State.takeSync_kept
    | apply Kept.ite

theorem execPtpSlewDone_kept (h : Kept M a s) (mDiff : M .diff := by first | assumption | simp) (mLog : M .log := by first | assumption | simp)
    (mPtp : M .ptp := by first | assumption | simp) :
    KeptOut M a (execPtpSlewDone s) := by
  unfold execPtpSlewDone
  with_reducible repeat' first
    | assumption
    | apply KeptOut.next
    | intro _
    | extract_lets
    | apply State.onPtp_kept
    | apply State.diffJoin_kept
    | apply Kept.ite
    | split

theorem execPtpLockChange_kept (h : Kept M a s) (mTide : M .tide := by first | assumption | simp) (mLog : M .log := by first | assumption | simp) (mPtp : M .ptp := by first | assumption | simp) :
    KeptOut M a (execPtpLockChange s) := by
  unfold execPtpLockChange
  with_reducible repeat' first
    | assumption
    | intro _
    | apply State.refreshHolds_kept
    | apply State.setLocked_kept
    | apply KeptOut.next
    | apply KeptOut.fault
    | apply KeptOut.ite
    | apply Kept.ite

theorem execPtpFollowupLost_kept (h : Kept M a s) (mPtp : M .ptp := by first | assumption | simp) : KeptOut M a (execPtpFollowupLost s) := by
  unfold execPtpFollowupLost
  with_reducible repeat' first
    | assumption
    | intro _
    | extract_lets
    | apply State.when_kept
    | apply State.raise_kept
    | apply State.onPtp_kept
    | apply KeptOut.next

theorem execPtpPdelay_kept (x0 : PdelayIn) (h : Kept M a s) (mNet : M .net := by first | assumption | simp) (mPtp : M .ptp := by first | assumption | simp) :
    KeptOut M a (execPtpPdelay x0 s) := by
  unfold execPtpPdelay
  with_reducible repeat' first
    | assumption
    | intro _
    | extract_lets
    | apply State.onNet_kept
    | apply State.onPtpPort_kept
    | apply State.sendPeerDelay_kept
    | apply KeptOut.next
    | apply KeptOut.fault
    | apply KeptOut.ite
    | apply Kept.ite
    | split

theorem execPtpSend_kept (p : Nat) (h : Kept M a s) (mNet : M .net := by first | assumption | simp) (mPtp : M .ptp := by first | assumption | simp) :
    KeptOut M a (execPtpSend p s) := by
  unfold execPtpSend
  with_reducible repeat' first
    | assumption
    | intro _
    | extract_lets
    | apply State.when_kept
    | apply State.sendPtp_kept
    | apply State.onPtpPort_kept
    | apply KeptOut.next
    | apply KeptOut.fault
    | apply KeptOut.ite
    | apply Kept.ite
    | split

theorem execHoldoverStart_kept (h : Kept M a s) (mLog : M .log := by first | assumption | simp) (mPtp : M .ptp := by first | assumption | simp) :
    KeptOut M a (execHoldoverStart s) := by
  unfold execHoldoverStart
  with_reducible repeat' first
    | assumption
    | intro _
    | apply State.enterHoldover_kept
    | apply State.elect_kept
    | apply KeptOut.next
    | apply KeptOut.fault
    | apply KeptOut.ite
    | apply Kept.ite

theorem execPtpFree_kept (h : Kept M a s) (mLog : M .log := by first | assumption | simp) (mPtp : M .ptp := by first | assumption | simp) : KeptOut M a (execPtpFree s) := by
  unfold execPtpFree
  with_reducible repeat' first
    | assumption
    | intro _
    | apply State.report_kept
    | apply State.raise_kept
    | apply State.onPtp_kept
    | apply KeptOut.next
    | apply KeptOut.fault
    | apply KeptOut.ite
    | apply Kept.ite

theorem execSupplyLevelChange_kept (vlb : Bool) (mv : Nat) (h : Kept M a s) (mSys : M .sys := by first | assumption | simp) (mLog : M .log := by first | assumption | simp)
    (mDiag : M .diag := by first | assumption | simp) :
    KeptOut M a (execSupplyLevelChange vlb mv s) := by
  unfold execSupplyLevelChange
  with_reducible repeat' first
    | assumption
    | intro _
    | extract_lets
    | apply State.onSys_kept
    | apply State.when_kept
    | apply State.onLog_kept
    | apply State.report_kept
    | apply State.raise_kept
    | apply State.onDiag_kept
    | apply State.supplyDual_kept
    | apply KeptOut.next

theorem execSupplyValid_kept (h : Kept M a s) (mLtc : M .ltc := by first | assumption | simp) (mFresh : M .fresh := by first | assumption | simp)
    (mSys : M .sys := by first | assumption | simp) (mClk : M .clk := by first | assumption | simp)
    (mDiag : M .diag := by first | assumption | simp) :
    KeptOut M a (execSupplyValid s) := by
  refine KeptOut.next (Kept.ite (fun _ => h) fun _ => ?_)
  exact Kept.same (State.measureBackup_kept (State.onDiag_kept (State.onSys_kept h _) _)) rfl rfl rfl rfl

theorem execSupplySingle_kept (h : Kept M a s) (mSys : M .sys := by first | assumption | simp) (mLog : M .log := by first | assumption | simp) (mDiag : M .diag := by first | assumption | simp) :
    KeptOut M a (execSupplySingle s) := by
  unfold execSupplySingle
  with_reducible repeat' first
    | assumption
    | intro _
    | extract_lets
    | apply State.onSys_kept
    | apply State.onDiag_kept
    | apply State.report_kept
    | apply State.raise_kept
    | apply KeptOut.next
    | apply KeptOut.fault
    | apply KeptOut.ite
    | apply Kept.ite

theorem execStartupStage_kept (x0 : BootIn) (h : Kept M a s) (mFresh : M .fresh := by first | assumption | simp) (mManifest : M .manifest := by first | assumption | simp)
    (mSys : M .sys := by first | assumption | simp) (mClk : M .clk := by first | assumption | simp) (mTide : M .tide := by first | assumption | simp) (mAcq : M .acq := by first | assumption | simp)
    (mProt : M .prot := by first | assumption | simp) (mDiff : M .diff := by first | assumption | simp) (mForm : M .form := by first | assumption | simp) (mGate : M .gate := by first | assumption | simp)
    (mLogic : M .logic := by first | assumption | simp) (mFio : M .fio := by first | assumption | simp) (mCapt : M .capt := by first | assumption | simp) (mLog : M .log := by first | assumption | simp)
    (mNet : M .net := by first | assumption | simp) (mPtp : M .ptp := by first | assumption | simp) (mChk : M .chk := by first | assumption | simp) (mHost : M .host := by first | assumption | simp)
    (mAdeid : M .adeid := by first | assumption | simp) (mSec : M .sec := by first | assumption | simp) (mDiag : M .diag := by first | assumption | simp) (mSnaps : M .snaps := by first | assumption | simp) :
    KeptOut M a (execStartupStage x0 s) := by
  unfold execStartupStage
  with_reducible repeat' first
    | assumption
    | intro _
    | extract_lets
    | apply State.missReference_kept
    | apply State.stageAction_kept
    | apply KeptOut.next
    | apply KeptOut.fault
    | apply KeptOut.ite
    | apply Kept.ite

theorem execLastwordsEntry_kept (h : Kept M a s) (mFresh : M .fresh := by first | assumption | simp) (mSys : M .sys := by first | assumption | simp)
    (mClk : M .clk := by first | assumption | simp) (mAcq : M .acq := by first | assumption | simp) (mGate : M .gate := by first | assumption | simp) (mLogic : M .logic := by first | assumption | simp)
    (mFio : M .fio := by first | assumption | simp) (mCapt : M .capt := by first | assumption | simp) (mLog : M .log := by first | assumption | simp) (mNet : M .net := by first | assumption | simp)
    (mPtp : M .ptp := by first | assumption | simp) (mAdeid : M .adeid := by first | assumption | simp) (mDiag : M .diag := by first | assumption | simp) (mSnaps : M .snaps := by first | assumption | simp) :
    KeptOut M a (execLastwordsEntry s) := by
  unfold execLastwordsEntry
  with_reducible repeat' first
    | assumption
    | intro _
    | apply State.lastWords_kept
    | apply KeptOut.next
    | apply KeptOut.fault
    | apply KeptOut.ite
    | apply Kept.ite

theorem execLastwordsEnd_kept (h : Kept M a s) (mLtc : M .ltc := by first | assumption | simp) (mManifest : M .manifest := by first | assumption | simp)
    (mSys : M .sys := by first | assumption | simp) (mClk : M .clk := by first | assumption | simp) (mTide : M .tide := by first | assumption | simp) (mAcq : M .acq := by first | assumption | simp)
    (mProt : M .prot := by first | assumption | simp) (mDiff : M .diff := by first | assumption | simp) (mForm : M .form := by first | assumption | simp) (mGate : M .gate := by first | assumption | simp)
    (mLogic : M .logic := by first | assumption | simp) (mFio : M .fio := by first | assumption | simp) (mCapt : M .capt := by first | assumption | simp) (mLog : M .log := by first | assumption | simp)
    (mNet : M .net := by first | assumption | simp) (mPtp : M .ptp := by first | assumption | simp) (mChk : M .chk := by first | assumption | simp) (mHost : M .host := by first | assumption | simp)
    (mAdeid : M .adeid := by first | assumption | simp) (mSec : M .sec := by first | assumption | simp) (mDiag : M .diag := by first | assumption | simp) (mSnaps : M .snaps := by first | assumption | simp) :
    KeptOut M a (execLastwordsEnd s) := by
  unfold execLastwordsEnd
  with_reducible repeat' first
    | assumption
    | intro _
    | apply State.powerReset_kept
    | apply KeptOut.next
    | apply KeptOut.fault
    | apply KeptOut.ite
    | apply Kept.ite

theorem execRstNReset_kept (held : Ns) (h : Kept M a s) (mFresh : M .fresh := by first | assumption | simp)
    (mManifest : M .manifest := by first | assumption | simp) (mSys : M .sys := by first | assumption | simp)
    (mClk : M .clk := by first | assumption | simp) (mTide : M .tide := by first | assumption | simp) (mAcq : M .acq := by first | assumption | simp)
    (mProt : M .prot := by first | assumption | simp) (mDiff : M .diff := by first | assumption | simp)
    (mForm : M .form := by first | assumption | simp) (mGate : M .gate := by first | assumption | simp)
    (mLogic : M .logic := by first | assumption | simp) (mFio : M .fio := by first | assumption | simp)
    (mCapt : M .capt := by first | assumption | simp) (mLog : M .log := by first | assumption | simp) (mNet : M .net := by first | assumption | simp)
    (mPtp : M .ptp := by first | assumption | simp) (mChk : M .chk := by first | assumption | simp) (mHost : M .host := by first | assumption | simp)
    (mAdeid : M .adeid := by first | assumption | simp) (mSec : M .sec := by first | assumption | simp)
    (mDiag : M .diag := by first | assumption | simp) (mSnaps : M .snaps := by first | assumption | simp) :
    KeptOut M a (execRstNReset held s) := by
  unfold execRstNReset
  with_reducible repeat' first | assumption | apply KeptOut.next | intro _ | extract_lets | apply State.restart_kept | apply Kept.ite

theorem execSystemWatchdogExpiry_kept (h : Kept M a s) (mFresh : M .fresh := by first | assumption | simp)
    (mManifest : M .manifest := by first | assumption | simp) (mSys : M .sys := by first | assumption | simp)
    (mClk : M .clk := by first | assumption | simp) (mTide : M .tide := by first | assumption | simp) (mAcq : M .acq := by first | assumption | simp)
    (mProt : M .prot := by first | assumption | simp) (mDiff : M .diff := by first | assumption | simp)
    (mForm : M .form := by first | assumption | simp) (mGate : M .gate := by first | assumption | simp)
    (mLogic : M .logic := by first | assumption | simp) (mFio : M .fio := by first | assumption | simp)
    (mCapt : M .capt := by first | assumption | simp) (mLog : M .log := by first | assumption | simp) (mNet : M .net := by first | assumption | simp)
    (mPtp : M .ptp := by first | assumption | simp) (mChk : M .chk := by first | assumption | simp) (mHost : M .host := by first | assumption | simp)
    (mAdeid : M .adeid := by first | assumption | simp) (mSec : M .sec := by first | assumption | simp)
    (mDiag : M .diag := by first | assumption | simp) (mSnaps : M .snaps := by first | assumption | simp) :
    KeptOut M a (execSystemWatchdogExpiry s) := by
  unfold execSystemWatchdogExpiry
  with_reducible repeat' first
    | assumption
    | apply KeptOut.next
    | intro _
    | extract_lets
    | apply State.onHost_kept
    | apply State.restart_kept
    | apply Kept.ite
  all_goals first | assumption | exact fun _ k => k | simpa [updAt] using ‹_›

theorem execHotReset_kept (h : Kept M a s) (mLog : M .log := by first | assumption | simp) (mHost : M .host := by first | assumption | simp) :
    KeptOut M a (execHotReset s) := KeptOut.next (State.hostGone_kept (State.onHost_kept h fun _ k => k))

theorem execPerstReset_kept (h : Kept M a s) (mLog : M .log := by first | assumption | simp) (mHost : M .host := by first | assumption | simp) :
    KeptOut M a (execPerstReset s) := KeptOut.next (State.hostGone_kept (State.onHost_kept h fun _ k => k))

end Sys2Proof.Machine
end

