-- ==== Sys2Proof/Tests/Slice0.lean ====
section
/-! SUPPORT. Tests: ill-formed commands that WellFormed refuses, states and operands that meet the hypotheses of every statement, and numbers of
the manual's examples. -/

open Sys2Proof Sys2Proof.Machine

namespace Sys2Proof.Tests

set_option Elab.async false

/-! ### Ill-formed commands: one for each check of WellFormed, refused; beside it the last index that the check allows -/

theorem wf_berth : Instr.wf (.fioSet 128) = false ∧ Instr.wf (.fioSet 127) = true := by decide
theorem wf_unit : Instr.wf (.formReady 4) = false ∧ Instr.wf (.formReady 3) = true := by decide
theorem wf_bridge : Instr.wf (.gateRepeat 8) = false ∧ Instr.wf (.gateRepeat 7) = true := by decide
theorem wf_field_group : Instr.wf (.fioWatchdog 12) = false ∧ Instr.wf (.fioWatchdog 11) = true := by decide
theorem wf_field : Instr.wf (.fioOpenWire 192) = false ∧ Instr.wf (.fioOpenWire 191) = true := by decide
theorem wf_channel : Instr.wf (.acqFadeDone 24) = false ∧ Instr.wf (.acqFadeDone 23) = true := by decide
theorem wf_coefficient : Instr.wf (.acqCoefWrite 0 true 192 0) = false ∧ Instr.wf (.acqCoefWrite 0 true 191 0) = true := by decide
theorem wf_element : Instr.wf (.laneDisagreeEpisodeEnd 4096) = false ∧ Instr.wf (.laneDisagreeEpisodeEnd 4095) = true := by decide
theorem wf_zone : Instr.wf (.diffLaunch 64) = false ∧ Instr.wf (.diffLaunch 63) = true := by decide
theorem wf_task : Instr.wf (.logicTaskRelease 8) = false ∧ Instr.wf (.logicTaskRelease 7) = true := by decide
theorem wf_task_group : Instr.wf (.logicExchange 8) = false ∧ Instr.wf (.logicExchange 7) = true := by decide
theorem wf_station : Instr.wf (.rioInSend 36) = false ∧ Instr.wf (.rioInSend 35) = true := by decide
theorem wf_event_source : Instr.wf (.logicEventSource 0 16) = false ∧ Instr.wf (.logicEventSource 0 15) = true := by decide
theorem wf_engine : Instr.wf (.captDone 4) = false ∧ Instr.wf (.captDone 3) = true := by decide
theorem wf_condition : Instr.wf (.captConditionMet 0 64) = false ∧ Instr.wf (.captConditionMet 0 63) = true := by decide
theorem wf_hatch : Instr.wf (.logHStatRead 4) = false ∧ Instr.wf (.logHStatRead 3) = true := by decide
theorem wf_port : Instr.wf (.netGclEntry 45) = false ∧ Instr.wf (.netGclEntry 44) = true := by decide
theorem wf_pair : Instr.wf (.netRingOpen 8) = false ∧ Instr.wf (.netRingOpen 7) = true := by decide
theorem wf_goose_sub : Instr.wf (.gooseTalExpired 512) = false ∧ Instr.wf (.gooseTalExpired 511) = true := by decide
theorem wf_sv_sub : Instr.wf (.netSvLost 128) = false ∧ Instr.wf (.netSvLost 127) = true := by decide
theorem wf_publisher : Instr.wf (.gooseRetransmit 64) = false ∧ Instr.wf (.gooseRetransmit 63) = true := by decide
theorem wf_check_engine : Instr.wf (.chkEGo 8 0) = false ∧ Instr.wf (.chkEGo 7 0) = true := by decide
theorem wf_ring : Instr.wf (.hostSqDb 16 0) = false ∧ Instr.wf (.hostSqDb 15 0) = true := by decide
theorem wf_proposal : Instr.wf (.proposalWindowLapse 4) = false ∧ Instr.wf (.proposalWindowLapse 3) = true := by decide
theorem wf_memory : Instr.wf (.diagEccError { m := 8, addr := 0, corrected := true }) = false ∧
    Instr.wf (.diagEccError { m := 7, addr := 0, corrected := true }) = true := by decide
theorem wf_mram_line : Instr.wf (.mramRefreshLine (2 ^ 21) false) = false ∧ Instr.wf (.mramRefreshLine (2 ^ 21 - 1) false) = true := by decide +kernel
theorem wf_evcnt : Instr.wf (.evcntWord0Read (.reader 0) 1024) = false ∧ Instr.wf (.evcntWord0Read (.reader 0) 1023) = true := by decide
theorem wf_domain : Instr.wf (.domainStopped 8) = false ∧ Instr.wf (.domainStopped 7) = true := by decide
theorem wf_point_on_wave : Instr.wf (.powNoTouch 8) = false ∧ Instr.wf (.powNoTouch 7) = true := by decide
theorem wf_link : Instr.wf (.adeidLinkFrameSend 4) = false ∧ Instr.wf (.adeidLinkFrameSend 3) = true := by decide
theorem wf_node : Instr.wf (.adeidHeartbeatLoss 64 false) = false ∧ Instr.wf (.adeidHeartbeatLoss 63 false) = true := by decide
theorem wf_door : Instr.wf (.doorOpenScheduled 6) = false ∧ Instr.wf (.doorOpenScheduled 5) = true := by decide
theorem wf_bar0 : Instr.wf (.w1cWrite (4 * 2 ^ 20) 0) = false ∧ Instr.wf (.w1cWrite (4 * 2 ^ 20 - 1) 0) = true := by decide +kernel
theorem wf_bar2 : Instr.wf (.bar2Write (8 * 2 ^ 30)) = false ∧ Instr.wf (.bar2Write (8 * 2 ^ 30 - 1)) = true := by decide +kernel
theorem wf_bar4 : Instr.wf (.bar4Access { offset := 256 * 2 ^ 20 }) = false ∧ Instr.wf (.bar4Access { offset := 256 * 2 ^ 20 - 1 }) = true := by decide +kernel
theorem wf_crossing : Instr.wf (.partnerReset 65536 3 0 0 false) = false ∧ Instr.wf (.partnerReset 65535 3 7 3 false) = true := by decide

/-! ### States and operands that meet the hypotheses of the statements, clause by clause -/

/-- A device at local time `n`, at stage OPEN, with nothing created. -/
def up (n : Nat) : State := { State.reset with now := n, sys := { held := false, stage := 11 }, clk := { inReset := List.replicate 8 false } }

/-- The state with a command at its CTL stage in berth 0, from ring 0. -/
def withCmd (c : BerthCmd) (s : State) (keySlot : Nat := 0) : State :=
  s.onHost fun h =>
    { h with
      ready := true, linkUp := true, qCtl := [0]
      berths := h.berths.set 0 (some { src := 0, entry := { cmd := some c, keySlot }, tAdmit := 0, due := 1000000 }) }

theorem wit_supply_levels : (∃ (x : Supply) (n u : Ns), x.level = .low ∧ x.okSince = some u ∧ u + msec 10 ≤ n ∧ (x.measure 16800 n).level = .ok) ∧
    ∃ s t : State, s.sys.single ∧ exec (.supplyLevelChange false 24000) s = .next t ∧ t.sys.dual :=
  ⟨⟨{ level := .low, mv := 16000, okSince := some 0 }, msec 10, 0, by decide⟩,
    { up (msec 10) with
      sys := { held := false, single := true, vla := { level := .low, mv := 16000, okSince := some 0 }, vlb := { level := .ok, mv := 24000 } } },
    _, by decide, rfl, by decide⟩

theorem wit_supply_valid : ∃ (s : State) (u : Ns), s.sys.held ∧ s.sys.vla.okSince = some u ∧ u + msec 10 ≤ s.now ∧ 16800 ≤ s.sys.vla.mv :=
  ⟨{ State.reset with now := msec 10, sys := { vla := { mv := 16800, okSince := some 0 } } }, 0, by decide⟩

theorem wit_supply_single : ∃ (s : State) (u : Ns), s.sys.single = false ∧ s.sys.onlyOne ∧ s.sys.singleSince = some u ∧ u + msec 10 ≤ s.now :=
  ⟨{ up (msec 10) with sys := { held := false, singleSince := some 0, vla := { level := .ok, mv := 24000 }, vlb := { level := .low, mv := 9000 } } }, 0, by decide⟩

theorem wit_stages : (∃ s : State, s.passed s.sys.t0 (stageDue (s.sys.stage + 1) + s.sys.delay) = false) ∧
    (∃ s : State, s.sys.held = false ∧ s.sys.lastwords = false ∧ s.sys.stage = 10 ∧ s.passed s.sys.t0 (stageDue 11 + s.sys.delay)) ∧
    ∃ s : State, s.sys.held = false ∧ s.sys.lastwords = false ∧ s.sys.stage = 4 ∧ s.passed s.sys.t0 (stageDue 5 + s.sys.delay) :=
  ⟨⟨State.reset, by decide⟩, ⟨{ up (msec 600) with sys := { held := false, stage := 10 } }, by decide⟩,
    { up (msec 100) with sys := { held := false, stage := 4 } }, by decide⟩

theorem wit_lastwords : (∃ s : State, s.sys.held = false ∧ s.sys.lastwords = false ∧ s.sys.vla.mv < 16000 ∧ s.sys.vlb.mv < 16000) ∧
    ∃ s : State, s.sys.lastwords = true :=
  ⟨⟨{ up 0 with sys := { held := false, vla := { mv := 15999 }, vlb := { mv := 15999 } } }, by decide⟩,
    { up 0 with sys := { lastwords := true } }, by decide⟩

theorem wit_resets : ∃ (s : State) (d : Ns), s.sys.held = false ∧ s.sys.lastwords = false ∧ msec 1 ≤ d := ⟨up 0, msec 1, by decide⟩

theorem wit_host_link : ∃ s : State, s.host.linkUp = true ∧ s.sys.held = false := ⟨withCmd .logicStop (up 0), by decide⟩

/-- The device with a CLK block of its own. -/
def clkAt (n : Nat) (c : ClkState) : State := { up n with clk := c }

/-- The same with a command at its CTL stage in berth 0. -/
def clkCmd (n : Nat) (c : ClkState) (b : BerthCmd) : State := withCmd b (clkAt n c)

theorem wit_references : (∃ (s : State) (p : Sys2Proof.Num), s.clkCfg.xrefUsed ∧ s.clk.refNone = false ∧ s.clk.xrefOk ∧ s.clk.ref = .xref ∧ s.clk.tcxoOk ∧ 20 < p.mag) ∧
    (∃ (s : State) (x : Sys2Proof.Num), s.clkCfg.xrefUsed ∧ s.clk.refNone = false ∧ s.clk.xrefOk ∧ s.clk.tcxoOk ∧ x.mag ≤ 20) ∧
    (∃ s : State, s.clk.ref = .tcxo ∧ s.clkCfg.xrefUsed ∧ s.clk.xrefOk ∧ s.clk.refNone = false ∧ 4 ≤ s.sys.stage ∧
      s.passedSince s.clk.xrefSince s.clkCfg.xrefReturnHold) ∧
    (∃ (s : State) (ppm : Sys2Proof.Num), s.clkCfg.xrefUsed ∧ s.clk.xrefOk = false ∧ s.clk.refNone = false ∧ ppm.mag ≤ 20) ∧
    (∃ s : State, s.clk.tcxoOk = false ∧ s.clk.refNone = false ∧ s.sys.held = false ∧ s.passed s.sys.t0 (msec 21) ∧ s.clk.spll0.waitRef = false) ∧
    ∃ (s : State) (q : RefSeen), s.clk.refNone ∧ (q.hasTcxo ∨ q.hasXref ∧ s.clkCfg.xrefUsed) :=
  ⟨⟨{ clkAt 0 { xrefOk := true, ref := .xref, tcxoOk := true } with manifest := { struct := { clk := { xrefUsed := true } } } }, 21, by decide +kernel⟩,
   ⟨{ clkAt 0 { xrefOk := true, ref := .xref, tcxoOk := true } with manifest := { struct := { clk := { xrefUsed := true } } } }, 20, by decide +kernel⟩,
   ⟨{ clkAt (secs 60) { xrefOk := true, xrefSince := some 0 } with manifest := { struct := { clk := { xrefUsed := true, xrefReturnHold := secs 60 } } } }, by decide⟩,
   ⟨{ clkAt 0 {} with manifest := { struct := { clk := { xrefUsed := true } } } }, 20, by decide⟩, ⟨clkAt (msec 21) {}, by decide⟩,
   clkAt 0 { refNone := true }, .tcxo, by decide⟩

theorem wit_degraded : (∃ s : State, s.clk.tcxoOk ∧ s.clk.ref = .tcxo ∧ s.clk.xrefOk = false ∧ s.clk.degraded = false) ∧
    (∃ (s : State) (f : Bool) (e : Sys2Proof.Num), s.clk.spll0.phase = .locked ∧ s.clk.connected ∧ s.clk.active1 = false ∧ s.clk.spll1.qualified ∧
      (f ∨ 2 < e.mag)) ∧
    (∃ s : State, s.clk.spll1.phase = .locked ∧ s.clk.connected ∧ s.clk.active1 = false) ∧
    (∃ s : State, s.clk.spll0.phase = .locked ∧ s.clk.connected ∧ s.clk.active1 = false ∧ s.clk.spll1.qualified = false ∧ s.clk.degraded = false) ∧
    (∃ s : State, s.clk.degraded ∧ s.clk.refNone = false ∧ s.clk.degCause = .loopFail ∧ s.clk.active1 = false ∧ s.clk.spll0.qualified ∧
      s.passedSince s.clk.spll0.qualSince s.clkCfg.degradedReturn) ∧ ∃ s : State, s.clk.dramRetraining :=
  ⟨⟨clkAt 0 { tcxoOk := true }, by decide⟩, ⟨clkAt 0 { spll0 := { phase := .locked }, connected := true, spll1 := { qualified := true } }, false, 3, by decide +kernel⟩,
   ⟨clkAt 0 { spll1 := { phase := .locked }, connected := true }, by decide⟩, ⟨clkAt 0 { spll0 := { phase := .locked }, connected := true }, by decide⟩,
   ⟨clkAt (secs 1000) { degraded := true, degCause := .loopFail, spll0 := { phase := .locked, qualified := true, qualSince := some 0 } }, by decide⟩,
   clkAt 0 { dramRetraining := true }, by decide⟩

theorem wit_loops : (∃ (s : State) (l : LoopId), (s.loop l).phase = .locked) ∧ (∃ (s : State) (l : LoopId), (s.loop l).phase = .acquiring ∧ s.clk.refNone = false ∧
      s.passed (s.loop l).acqAt (1024 * (s.loop l).mode.pfdNs)) ∧
    (∃ (s : State) (l : LoopId), (s.loop l).phase = .locked ∧ (s.loop l).qualified = false ∧ s.passed (s.loop l).lockAt 10000 ∧
      s.clk.connected ∧ s.clk.retune = none ∧ s.clk.moves = []) ∧
    (∃ (s : State) (l : LoopId), (s.loop l).phase = .acquiring ∧ s.clk.refNone = false ∧ s.passed (s.loop l).acqAt (msec 1) ∧ (s.loop l).retries < 16) ∧
    ∃ (s : State) (l : LoopId), (s.loop l).phase = .acquiring ∧ s.clk.refNone = false ∧ s.passed (s.loop l).acqAt (msec 1) ∧
      (s.loop l).retries = 16 ∧ s.clk.retune = none ∧ s.clk.connected :=
  ⟨⟨clkAt 0 { spll0 := { phase := .locked } }, .spll0, by decide⟩, ⟨clkAt 100000 { spll1 := { phase := .acquiring } }, .spll1, by decide⟩,
   ⟨clkAt 10000 { connected := true, spll1 := { phase := .locked } }, .spll1, by decide⟩,
   ⟨clkAt (msec 1) { mpll := { phase := .acquiring, retries := 15 } }, .mpll, by decide⟩,
   clkAt (msec 1) { connected := true, spll1 := { phase := .acquiring, retries := 16 } }, .spll1, by decide⟩

theorem wit_meas : (∃ s : State, s.clk.mpll.phase = .locked ∧ s.clk.degraded = false) ∧
    (∃ s : State, s.clk.mpll.qualified ∧ s.clk.meas = .alt ∧ s.clk.degraded = false) ∧
    (∃ s : State, s.prot.ready = false ∧ s.clk.strobeRestarted = false ∧ 20 < s.strobeError.natAbs) ∧
    ∃ s : State, s.prot.ready ∧ s.clk.measSlew = false ∧ 0 ≤ s.clkCfg.measSteerMax :=
  ⟨⟨clkAt 0 { mpll := { phase := .locked } }, by decide⟩, ⟨clkAt 0 { mpll := { qualified := true }, meas := .alt }, by decide⟩,
   ⟨{ clkAt 0 {} with ltc := 100 }, by decide +kernel⟩, { clkAt 0 {} with prot := { ready := true } }, by decide⟩

theorem wit_retune : (∃ (s : State) (b : Nat) (m : RefMode), s.ctlCmd b = some (.clkRetune .spll1 m) ∧ s.refuseRetune .spll1 = none ∧ s.clk.active1 = false) ∧
    (∃ (s : State) (r : Retune) (b : Nat), s.clk.retune = some r ∧ r.berth = some b ∧ s.passed r.start (msec 18) ∧ s.clk.moves = []) ∧
    ∃ (s : State) (b : Nat) (l : LoopId), s.ctlCmd b = some (.clkLoopReset l) ∧ (s.loop l).phase = .failed ∧ s.clk.refNone = false :=
  ⟨⟨clkCmd 0 { connected := true, spll0 := { phase := .locked, qualified := true }, spll1 := { phase := .locked, qualified := true } } (.clkRetune .spll1 .x1), 0, .x1, by decide⟩,
   ⟨clkAt (msec 18) { retune := some { loop := .spll1, oldMode := .x1, newMode := .x1, berth := some 0, start := 0 } }, _, 0, rfl, by decide⟩,
   clkCmd 0 { spll1 := { phase := .failed } } (.clkLoopReset .spll1), 0, .spll1, by decide⟩

theorem wit_crossings : (∃ (s : State) (x d : Nat), x < 65536 ∧ d < 8 ∧ (s.clk.xing x 3 d).partnerReset = false ∧ nth s.clk.inReset d false) ∧
    (∃ (s : State) (x r d k : Nat), x < 65536 ∧ d < 8 ∧ (s.clk.xing x r d).partnerReset = false ∧ k = nth s.clk.tokens d 0 ∧ (s.clk.xing x r d).token ≠ k) ∧
    (∃ (s : State) (x d : Nat), x < 65536 ∧ d < 8 ∧ (s.clk.xing x 3 d).partnerReset = false ∧ nth s.clk.inReset d false = false ∧
      (s.clk.xing x 3 d).token = nth s.clk.tokens d 0) ∧
    ∃ (s : State) (x d : Nat), x < 65536 ∧ d < 8 ∧ (s.clk.xing x 3 d).partnerReset ∧ s.clk.isStopped d = false :=
  ⟨⟨clkAt 0 { inReset := List.replicate 8 true }, 65535, 7, by decide⟩,
   ⟨clkAt 0 { inReset := List.replicate 8 false, tokens := [1, 0, 0, 0, 0, 0, 0, 0] }, 0, 3, 0, 1, by decide⟩,
   ⟨clkAt 0 { inReset := List.replicate 8 false }, 65535, 7, by decide⟩,
   clkAt 0 { inReset := List.replicate 8 false, xings := [{ id := 0, domain := 0, partnerReset := true }] }, 0, 0, by decide⟩

theorem wit_domains : (∃ (s : State) (d : Nat), d < 8 ∧ s.clk.isStopped d = false) ∧
    (∃ (s : State) (d : Nat), s.sys.held = false ∧ s.sys.lastwords = false ∧ (d ≠ 7 ∨ s.clk.refNone = false)) ∧
    (∃ (s : State) (o : Nat), o < 4194304 ∧ s.blkStopped (servingBlk o)) ∧ ∃ s : State, s.returnLoop = some s.activeLoop :=
  ⟨⟨clkAt 0 { inReset := List.replicate 8 false }, 7, by decide⟩, ⟨up 0, 7, by decide⟩,
   ⟨{ clkAt 0 { stopped := List.replicate 8 true } with sys := { held := false, stage := 11, live := true } }, 4194300, by decide⟩,
   clkAt (secs 1000) { degraded := true, degCause := .loopFail, spll0 := { phase := .locked, qualified := true, qualSince := some 0 } }, by decide⟩

/-- The device with a Tide of its own. -/
def tideUp (n : Nat) (x : TideState) : State := { up n with ltc := n, tide := x }

/-- The same with a point-on-wave breaker on channel 5. -/
def powUp (n : Nat) (x : TideState) : State :=
  { tideUp n x with
    manifest := { struct := { tide := { nominalFreq := 50, pow := [{ closeCh := 5, tNom := msec 50, touch := .aux 6 .rising }] } } } }

theorem wit_handover : (∃ (s : State) (y : TideSrc), (s.tide.phase = .aligned ∨ s.tide.phase = .converging) ∧ s.tide.pin = none ∧
      s.highest (fun y => decide (s.rank y < s.rank s.tide.followed) && s.passedSince (s.tide.eligibleSince y) s.tideCfg.returnHold) = some y) ∧
    (∃ s : State, s.tide.carried < s.tide.cycle) ∧
    (∃ (s : State) (y : TideSrc), s.tide.phase = .coasting ∧ s.tide.coastLeft = 0 ∧ s.highest (fun _ => true) = some y ∧ y = .freerun) ∧
    ∃ (s : State) (y : TideSrc), s.tide.phase = .coasting ∧ s.tide.coastLeft = 0 ∧ s.highest (fun _ => true) = some y ∧ y ≠ .freerun :=
  ⟨⟨tideUp (secs 10) { phase := .aligned, src := .freerun, pilot := { phase := .tracking }, holds := [{ src := .pilot, since := some 0 }] }, .pilot, by decide +kernel⟩,
   ⟨tideUp 0 { posQ := 2 ^ 64 }, by decide +kernel⟩, ⟨tideUp 0 { phase := .coasting }, .freerun, by decide +kernel⟩,
   tideUp 0 { phase := .coasting, pilot := { phase := .tracking } }, .pilot, by decide +kernel⟩

/-- A lane with a released instant that the Pilot has not taken, and a Pilot. -/
def pilotUp (p : Pilot) : State := { tideUp 0 { pilot := p } with acq := { lastFast := some 1 } }

theorem wit_rate : (∃ s : State, s.tide.rateAt = some s.rateMark) ∧ ∃ s : State, s.tide.rateAt ≠ some s.rateMark :=
  ⟨⟨tideUp 0 { rateAt := some (none, 0) }, by decide +kernel⟩, tideUp 0 {}, by decide +kernel⟩

theorem wit_pilot : (∃ s : State, s.pilotDue = false) ∧
    (∃ (s : State) (x : PilotIn), s.pilotDue ∧ pilotJump s.tideCfg s.tide.pilot x = none) ∧
    (∃ (s : State) (x : PilotIn) (j : Sys2Proof.Num), s.pilotDue ∧ pilotJump s.tideCfg s.tide.pilot x = some j) ∧
    ∃ (s : State) (x : PilotIn), s.pilotDue ∧ s.tide.pilot.phase = .tracking ∧ s.pilotValid = false ∧ s.tideCfg.pilotLossLevel ≤ x.mag ∧
      40 ≤ x.freq ∧ x.freq ≤ 70 ∧ x.jump = none :=
  ⟨⟨pilotUp { phase := .tracking, sampled := some 1 }, by decide +kernel⟩,
   ⟨pilotUp { phase := .acquiring }, { angle := 0, freq := 50, rocof := 0, mag := 1, perr := 0 }, by decide +kernel⟩,
   ⟨pilotUp { phase := .tracking }, { angle := 0, freq := 50, rocof := 0, mag := 1, perr := 0, jump := some 7 }, 7, by decide +kernel⟩,
   { pilotUp { phase := .tracking } with manifest := { struct := { tide := { nominalFreq := 50, pilotInput := [.ain 0] } } } },
     { angle := 0, freq := 40, rocof := 0, mag := 1 / 5, perr := 0 }, by decide +kernel⟩

theorem wit_pins : (∃ (s : State) (b : Nat) (x : TideSrc), s.ctlCmd b = some (.tidePin x) ∧ s.refusePin x = none ∧ s.tide.phase = .init) ∧
    (∃ (s : State) (b : Nat) (x : TideSrc), s.ctlCmd b = some (.tidePin x) ∧ s.refusePin x = none ∧ s.tide.phase ≠ .init) ∧
    ∃ (s : State) (b : Nat) (x : TideSrc), s.ctlCmd b = some .tideUnpin ∧ s.tide.pin = some x :=
  ⟨⟨withCmd (.tidePin .freerun) (tideUp 0 {}), 0, .freerun, by decide +kernel⟩,
   ⟨withCmd (.tidePin .freerun) (tideUp 0 { phase := .coasting }), 0, .freerun, by decide +kernel⟩,
   withCmd .tideUnpin (tideUp 0 { pin := some .plant }), 0, .plant, by decide +kernel⟩

theorem wit_mark_arm : (∃ (s : State) (b n : Nat) (m : MarkSpec), s.ctlCmd b = some (.tideMark n m) ∧ s.refuseMark n m .host = none ∧
      n < s.tide.marks.length ∧ m.period = none ∧ m.cycle < 2 ^ 48) ∧
    ∃ (s : State) (b n : Nat) (m : MarkSpec), s.ctlCmd b = some (.tideMark n m) ∧ m.period = none ∧
      ((m.cycle * 2 ^ 32 + m.angle.toNat : Nat) : Sys2Proof.Num) < (s.tide.posN : Sys2Proof.Num) + s.travel (markLead m.action) :=
  ⟨⟨withCmd (.tideMark 255 { cycle := 1000, angle := 0, period := none, action := .logRecord, level := false, target := 0, log := true }) (tideUp 0 { rate := 1 }), 0, 255, _, by rfl, by decide +kernel⟩,
   withCmd (.tideMark 0 { cycle := 0, angle := 0, period := none, action := .logRecord, level := false, target := 0, log := true }) (tideUp 0 { posQ := 2 ^ 64 }), 0, 0, _, by rfl, by decide +kernel⟩

/-- Besides a mark that fires there are one not armed and one not crossed; no mark is periodic. -/
theorem wit_mark_fire : ∃ s : State, (∀ k < 256, (s.mark k).period = none) ∧ s.tide.marks.length = 256 ∧ (s.mark 0).armed = false ∧ (s.mark 1).armed ∧ s.tide.fired.toNat < (s.mark 1).pos ∧
    (s.mark 1).pos ≤ s.tide.posN ∧ (s.mark 2).armed ∧ s.tide.posN < (s.mark 2).pos :=
  ⟨tideUp 0
    { posQ := 2 ^ 65
      marks := [{}, { armed := true, cycle := 2 }, { armed := true, cycle := 2, angle := 1 }] ++ List.replicate 253 {} }, by decide +kernel⟩

theorem wit_pow : (∃ (s : State) (b k : Nat) (a : Angle) (c : PowCfg), s.ctlCmd b = some (.powClose k a) ∧ s.powCfg? k = some c ∧
      s.refusePow k = none ∧ k < s.tide.pow.length ∧ s.tide.marks.length = 256) ∧
    (∃ (s : State) (k touch : Nat) (c : PowCfg) (p : PowPending), s.powCfg? k = some c ∧ (s.pow k).pending = some p ∧ p.touch = some touch ∧
      k < s.tide.pow.length) ∧
    ∃ (s : State) (k : Nat) (c : PowCfg) (p : PowPending), s.powCfg? k = some c ∧ (s.pow k).pending = some p ∧ p.sent ∧ p.touch = none ∧
      p.tEdge + c.tNom + msec 20 + s.touchLatency c.touch ≤ s.ltc ∧ k < s.tide.pow.length :=
  let p : PowPending := { reqAngle := 0, mark := 0, cycle := 0, tTarget := 0, tEdge := 0, sent := true }
  ⟨⟨withCmd (.powClose 0 0) (powUp 0 { phase := .aligned, src := .pilot, pilot := { phase := .tracking, freq := 50 }, rate := 1 }), 0, 0, 0, _, by rfl, by rfl, by decide +kernel⟩,
   ⟨powUp 0 { pow := [{ pending := some { p with touch := some (msec 70) } }] }, 0, msec 70, _, _, by rfl, by rfl, by decide +kernel⟩,
   powUp (msec 100) { pow := [{ pending := some p }] }, 0, _, p, by rfl, by rfl, by decide +kernel⟩

theorem wit_conversions : (∃ s : State, s.tide.conv.go = false) ∧ (∃ s : State, s.tide.conv.go ∧ s.tide.conv.runDir = false ∧
      s.convToPos s.tide.conv.runNs.toNat = none) ∧ ∃ s : State, s.tide.conv.go ∧ s.tide.conv.runDir :=
  ⟨⟨up 0, by decide +kernel⟩, ⟨tideUp 0 { conv := { go := true } }, by decide +kernel⟩, tideUp 0 { conv := { go := true, runDir := true } }, by decide +kernel⟩

/-- The device with a running ACQ. -/
def acqAt (n : Nat) (x : AcqState) : State := { up n with ltc := n, acq := x }

/-- A channel whose staged bank holds the unit sample, one tap. -/
def unitTap : Ain := { ch := 3, bankB := { taps := 1, coef := [8388607] }, stageTaps := 1 }

/-- PROT as given, with one element of SG1 and one trip output. -/
def protUp (n : Nat) (x : ProtState) : State :=
  { up n with
    ltc := n, prot := x, acq := { running := true }
    manifest := { prot := { elements := [{ index := 0, type := .e50P, sgMask := [true, false] }], trips := [{ index := 0, channel := 7 }] } } }

theorem wit_fast_period : ∃ (s : State) (c : TripCfg) (t : State) (y : Trip), s.strobeDue ∧ s.acq.fastDone = s.acq.fastIdx ∧
    (s.acq.fastIdx + 1) % 3 ≠ 0 ∧ (s.protCfg.trips.map (·.index)).Nodup ∧ c ∈ s.protCfg.trips ∧ exec (.fastLanePeriod {}) s = .next t ∧
    t.trip? c.index = some y :=
  ⟨protUp 70000 { ready := true, trips := [{ index := 0 }] }, _, _, _, by decide, by decide, by decide, by decide, List.mem_singleton_self _, rfl, by rfl⟩

theorem wit_phasor_period : ∃ (s : State) (k i : Nat), s.acq.running ∧ s.acq.fastIdx = 3 * k ∧ s.acq.phasorDone < k ∧ k ≤ s.prot.boundary ∧ s.prot.ready ∧
    s.dueInstant .phasor = some i :=
  ⟨{ acqAt 0 { running := true, fastIdx := 3 } with prot := { ready := true, boundary := 1 } }, 1, 1, by decide⟩

theorem wit_banks : (∃ (s : State) (c : Nat) (a : Ain) (bankB : Bool), s.ain? c = some a ∧ a.activeB ≠ bankB ∧ a.stageLock = false) ∧
    (∃ (s : State) (c : Nat) (a : Ain) (bankB : Bool), s.ain? c = some a ∧ (a.activeB = bankB ∨ a.stageLock)) ∧
    (∃ (s : State) (b c : Nat) (crc : Word) (a : Ain), s.ctlCmd b = some (.acqSwap c crc) ∧ s.ain? c = some a ∧ a.protected_ = false ∧
      s.refuseSwap c crc = none) ∧
    (∃ (s : State) (b c : Nat) (crc : Word) (a : Ain), s.ctlCmd b = some (.acqSwap c crc) ∧ s.ain? c = some a ∧ a.protected_) ∧
    ∃ (s : State) (c : Nat) (a : Ain) (u : Ns), s.ain? c = some a ∧ a.integHold = some u ∧ u ≤ s.now :=
  ⟨⟨acqAt 0 { chans := [{ ch := 3 }] }, 3, _, true, by rfl, by decide⟩, ⟨acqAt 0 { chans := [{ ch := 3, stageLock := true }] }, 3, _, true, by rfl, by decide⟩,
   ⟨withCmd (.acqSwap 3 unitTap.stageCrc) (acqAt 0 { chans := [unitTap], alignFast := msec 10, alignPhasor := msec 10 }), 0, 3, unitTap.stageCrc, unitTap, by decide +kernel⟩,
   ⟨withCmd (.acqSwap 3 0) (acqAt 0 { chans := [{ unitTap with protected_ := true }] }), 0, 3, 0, _, by rfl, by rfl, by decide⟩,
   acqAt 5 { chans := [{ ch := 3, integHold := some 5 }] }, 3, _, 5, by rfl, by decide⟩

theorem wit_swaps : (∃ (s : State) (c w : Nat) (a : Ain), s.ain? c = some a ∧ a.swap = .committed ∧ w % 12 = 0 ∧ a.chain.nextWave ≤ w ∧
      w < a.chain.nextWave + 4 ∧ a.stageTaps = a.active.taps) ∧
    (∃ (s : State) (c w : Nat) (a : Ain), s.ain? c = some a ∧ a.swap = .committed ∧ w % 12 = 0 ∧ a.chain.nextWave ≤ w ∧
      w < a.chain.nextWave + 4 ∧ a.stageTaps ≠ a.active.taps) ∧
    (∃ (s : State) (c w n : Nat) (a : Ain), s.ain? c = some a ∧ a.swap = .fading w n ∧ w + n ≤ a.chain.nextWave) ∧
    ∃ (s : State) (c : Nat) (a : Ain), s.ain? c = some a ∧ a.settle ∧ a.switchAt / 12 + skipCount a.delta 2304 + 16 ≤ a.chain.nextPhasor :=
  ⟨⟨acqAt 0 { chans := [{ ch := 3, swap := .committed, chain := { nextWave := 9 } }] }, 3, 12, _, by rfl, by decide⟩,
   ⟨acqAt 0 { chans := [{ ch := 3, swap := .committed, stageTaps := 1, chain := { nextWave := 12 } }] }, 3, 12, _, by rfl, by decide⟩,
   ⟨acqAt 0 { chans := [{ ch := 3, swap := .fading 12 0, chain := { nextWave := 12 } }] }, 3, 12, 0, _, by rfl, by decide⟩,
   acqAt 0 { chans := [{ ch := 3, settle := true, chain := { nextPhasor := 16 } }] }, 3, _, by rfl, by decide⟩

theorem wit_lanes : (∃ s : State, s.prot.ready ∧ s.passed (nth s.diag.ranAt SelfTest.protKat.bit 0) (secs 1)) ∧
    (∃ s : State, s.prot.laneA.katRunning ∧ s.prot.laneB.katRunning ∧ s.prot.laneA.phase = .suspect ∧ s.prot.laneB.phase = .suspect) ∧
    (∃ s : State, s.prot.laneA.katRunning ∧ s.prot.laneB.katRunning = false ∧ s.prot.laneA.phase = .in_) ∧
    ∃ (s : State) (e : Nat) (y : Elem) (u : Ns), s.elem? e = some y ∧ y.episode = some u ∧ s.passed u (secs 1) :=
  ⟨⟨protUp (secs 1) { ready := true }, by decide⟩,
   ⟨protUp 0 { laneA := { phase := .suspect, katRunning := true }, laneB := { phase := .suspect, katRunning := true } }, by decide⟩,
   ⟨protUp 0 { laneA := { katRunning := true } }, by decide⟩, protUp (secs 1) { elems := [{ index := 4, episode := some 0 }] }, 4, _, 0, by rfl, by decide⟩

theorem wit_groups : (∃ (s : State) (b g : Nat), s.ctlCmd b = some (.sgSelect g) ∧ s.groupUsed g ∧ s.prot.request = none) ∧
    ∃ (s : State) (r : SgRequest), s.prot.deferred ∧ s.passed s.prot.deferSince s.protCfg.sgDeferMax ∧ s.prot.request = some r ∧
      ∃ c ∈ s.protCfg.elements, nth c.sgMask r.group false = false :=
  ⟨⟨withCmd (.sgSelect 0) (protUp 0 {}), 0, 0, by decide⟩,
   protUp (secs 2) { deferred := true, request := some { group := 1, by_ := .host } }, _, by decide, by decide, by rfl, _, List.mem_singleton_self _, by decide⟩

/-- A zone of two members on the Adeid ring, with ZONE_LAUNCH 1 ms. -/
def zoneCfg : ZoneCfg := { zoneId := 9, members := [1, 2], ring := .adeid, iBase := 1000, vBase := 100000, launch := msec 1 }

/-- The device with that zone, and all links up. -/
def zoneUp (n : Nat) (z : Zone) : State :=
  { up n with ltc := n, diff := { zones := [z], hist := [{ sec := 0, idx := 0 }] }, adeid := { links := List.replicate 4 { phase := .up } } }

/-- A sum frame of that zone on its second lap. -/
def sumFrame : SumFrame := { zoneId := 9, headDev := 1, headRank := 0, alive := 0, nmemb := 2, sec := 0, idx := 0, cfgTag := 0, convDev := 7, lap2 := true }

theorem wit_launch : ∃ (s : State) (z : Nat) (x : Zone) (e : DiffEntry), s.zone? z = some x ∧ s.launchDue x = some e ∧ x.rank.isSome :=
  ⟨zoneUp (msec 1) { cfg := { zoneCfg with heads := [(0, 0)] }, member := some 0 }, 0, _, _, by rfl, by rfl, by decide⟩

theorem wit_sum_frames : (∃ (s : State) (x : SumIn), s.ringUp x.ring x.port ∧ (∀ z ∈ s.diff.zones, z.cfg.zoneId ≠ x.frame.zoneId ∨ z.cfg.ring ≠ x.ring) ∧
      x.checkOk ∧ x.frame.alive = sumNumber x.frame.sec x.frame.idx % 256 ∧ x.frame.hops < 255 ∧
      s.ringUp x.ring (ringOther x.port)) ∧
    (∃ (s : State) (x : SumIn), s.ringUp x.ring x.port ∧ (∀ z ∈ s.diff.zones, nth z.admitted x.port 0 < 8) ∧ x.checkOk = false ∧ s.ptpErr.mag ≤ 2000 ∧
      (s.diff.passOnly ∨ s.ringUp x.ring (ringOther x.port) = false)) ∧
    (∃ (s : State) (x : SumIn), s.ringUp x.ring x.port ∧ (∀ z ∈ s.diff.zones, nth z.admitted x.port 0 < 8) ∧ x.checkOk = false ∧ s.ptpErr.mag ≤ 2000 ∧
      s.diff.passOnly = false ∧ s.ringUp x.ring (ringOther x.port)) ∧
    ∃ (s : State) (x : SumIn) (zi : Nat) (z : Zone), s.ringUp x.ring x.port ∧
      s.diff.zones.findIdx (fun z => decide (z.cfg.zoneId = x.frame.zoneId ∧ z.cfg.ring = x.ring)) = zi ∧ s.zone? zi = some z ∧
      nth z.admitted x.port 0 < 8 ∧ x.checkOk ∧ x.frame.alive = sumNumber x.frame.sec x.frame.idx % 256 ∧ x.frame.hops < 255 ∧ x.frame.lap2 ∧
      x.frame.incomplete = false ∧ x.frame.sat = false ∧ x.frame.cfgTag = z.cfgTag ∧ x.frame.convDev ≠ s.sec.device ∧
      (∀ i ∈ z.instants, i.sec ≠ x.frame.sec ∨ i.idx ≠ x.frame.idx) ∧ s.ltc ≤ sumTime x.frame.sec x.frame.idx + z.cfg.deadlineNs ∧
      s.ptpErr.mag ≤ 2000 :=
  ⟨⟨zoneUp 0 { cfg := { zoneCfg with zoneId := 8 } }, { ring := .adeid, port := 3, frame := { sumFrame with hops := 254 } }, by decide +kernel⟩,
   ⟨{ zoneUp 0 { cfg := zoneCfg, admitted := [7, 0, 0, 0] } with diff := { passOnly := true } }, { ring := .adeid, port := 0, frame := sumFrame, check := ~~~sumFrame.check }, by decide +kernel⟩,
   ⟨zoneUp 0 { cfg := zoneCfg, admitted := [7, 0, 0, 0] }, { ring := .adeid, port := 0, frame := sumFrame, tcheck := ~~~sumFrame.tcheck }, by decide +kernel⟩,
   zoneUp (msec 1 + usec 1500) { cfg := zoneCfg }, { ring := .adeid, port := 0, frame := sumFrame }, 0, _, by decide, by decide, by rfl, by decide +kernel⟩

theorem wit_zone_deadline : (∃ (s : State) (z : Nat) (x : Zone) (i : ZoneInstant), s.zone? z = some x ∧
      x.instants.reverse.find? (fun i => !i.done && decide (i.time + x.cfg.deadlineNs ≤ s.ltc)) = some i ∧ x.phase = .healthy ∧ i.foreign = false) ∧
    (∃ (s : State) (z : Nat) (x : Zone) (i : ZoneInstant), s.zone? z = some x ∧
      x.instants.reverse.find? (fun i => !i.done && decide (i.time + x.cfg.deadlineNs ≤ s.ltc)) = some i ∧ x.phase = .healthy ∧ i.foreign ∧ 2 ≤ x.cfgRun) ∧
    ∃ (s : State) (z : Nat) (x : Zone) (i : ZoneInstant), s.zone? z = some x ∧
      x.instants.reverse.find? (fun i => !i.done && decide (i.time + x.cfg.deadlineNs ≤ s.ltc)) = some i ∧ i.foreign ∧ x.cfgRun < 2 :=
  let i : ZoneInstant := { sec := 0, idx := 0, time := 0 }
  ⟨⟨zoneUp (msec 3) { cfg := zoneCfg, phase := .healthy, instants := [i] }, 0, _, i, by rfl, by rfl, by decide⟩,
   ⟨zoneUp (msec 3) { cfg := zoneCfg, phase := .healthy, cfgRun := 2, instants := [{ i with anyFrame := true, cfgBad := true }] }, 0, _, _, by rfl, by rfl, by decide⟩,
   zoneUp (msec 3) { cfg := zoneCfg, phase := .healthy, cfgRun := 1, instants := [{ i with anyFrame := true, cfgBad := true }] }, 0, _, _, by rfl, by rfl, by decide⟩

/-- Unit 0 with bridge 2, at 10 kHz. -/
def unitCfg : UnitCfg :=
  { unit := 0, bridges := [(2, 1)], sNom := 1000000, vNom := 400, bridgeVNom := 400, vdcMin := 600, vdcMax := 900, vset := [0, 1, 2] }

/-- The device with that unit and its gate-link. -/
def unitUp (n : Nat) (x : FormUnit) (g : GateLink := { cfg := { bridge := 2, port := 40 } }) : State :=
  { up n with
    ltc := n, form := { units := [x] }, gate := { links := [g] }
    manifest := { form := [unitCfg] }, tide := { phase := .aligned, src := .pilot } }

theorem wit_unit_commands : (∃ (s : State) (b u : Nat) (x : FormUnit), s.fu? u = some x ∧ s.ctlCmd b = some (.unit u .block) ∧ s.unitAccepts x .block) ∧
    (∃ (s : State) (b u : Nat) (x : FormUnit), s.fu? u = some x ∧ s.ctlCmd b = some (.unit u .start) ∧ s.unitAccepts x .start) ∧
    (∃ (s : State) (b u : Nat) (x : FormUnit), s.fu? u = some x ∧ s.ctlCmd b = some (.unit u (.blackStart none)) ∧ s.unitAccepts x (.blackStart none)) ∧
    (∃ (s : State) (b u : Nat) (x : FormUnit), s.fu? u = some x ∧ s.ctlCmd b = some (.unit u .resync) ∧ s.unitAccepts x .resync) ∧
    (∃ (s : State) (b u : Nat) (x : FormUnit), s.fu? u = some x ∧ s.ctlCmd b = some (.unit u .resyncCancel) ∧ s.unitAccepts x .resyncCancel) ∧
    (∃ (s : State) (b u : Nat) (x : FormUnit), s.fu? u = some x ∧ s.ctlCmd b = some (.unit u .stop) ∧ s.unitAccepts x .stop) ∧
    (∃ (s : State) (b u : Nat) (x : FormUnit), s.fu? u = some x ∧ s.ctlCmd b = some (.unit u .reset) ∧ s.unitAccepts x .reset) ∧
    ∃ (s : State) (b u : Nat) (x : FormUnit), s.fu? u = some x ∧ s.ctlCmd b = some (.unit u .reset) ∧ s.unitAccepts x .reset = false :=
  ⟨⟨withCmd (.unit 0 .block) (unitUp 0 { cfg := unitCfg, phase := .ready }), 0, 0, _, by rfl, by decide +kernel⟩,
   ⟨withCmd (.unit 0 .start) (unitUp 0 { cfg := unitCfg, phase := .ready, meas := { v1Mag := 1 } }), 0, 0, _, by rfl, by decide +kernel⟩,
   ⟨withCmd (.unit 0 (.blackStart none)) (unitUp (secs 1) { cfg := unitCfg, phase := .ready, meas := { deadSince := some 0 } }), 0, 0, _, by rfl, by decide +kernel⟩,
   ⟨withCmd (.unit 0 .resync) (unitUp 0 { cfg := unitCfg, phase := .formingIsland, meas := { gridValid := true, gridMag := 1 } }), 0, 0, _, by rfl, by decide +kernel⟩,
   ⟨withCmd (.unit 0 .resyncCancel) (unitUp 0 { cfg := unitCfg, phase := .resync }), 0, 0, _, by rfl, by decide +kernel⟩,
   ⟨withCmd (.unit 0 .stop) (unitUp 0 { cfg := unitCfg, phase := .rideThrough }), 0, 0, _, by rfl, by decide +kernel⟩,
   ⟨withCmd (.unit 0 .reset) (unitUp 0 { cfg := unitCfg, phase := .blocked, causes := [.command] }), 0, 0, _, by rfl, by decide +kernel⟩,
   withCmd (.unit 0 .reset) (unitUp 0 { cfg := unitCfg, phase := .ready }), 0, 0, _, by rfl, by decide +kernel⟩

theorem wit_targets : (∃ (s : State) (b u : Nat) (x : FormUnit) (g : Targets), s.fu? u = some x ∧ s.ctlCmd b = some (.unitSetpoint u g) ∧ s.targetsOk g) ∧
    (∃ (s : State) (b u : Nat) (x : FormUnit) (g : Staged), s.fu? u = some x ∧ s.ctlCmd b = some (.unitStage u g) ∧ s.targetsOk g.targets) ∧
    ∃ (s : State) (b u br : Nat) (x : FormUnit), s.ctlCmd b = some (.bridgeRestore br) ∧ s.form.units.find? (fun x => x.bridgeNos.contains br) = some x ∧
      x.cfg.unit = u ∧ s.fu? u = some x ∧ s.unitAccepts x (.restore br) :=
  ⟨⟨withCmd (.unitSetpoint 0 { v := 11 / 10, f := 52 }) (unitUp 0 { cfg := unitCfg }), 0, 0, _, { v := 11 / 10, f := 52 }, by rfl, by decide +kernel⟩,
   ⟨withCmd (.unitStage 0 { targets := {} }) (unitUp 0 { cfg := unitCfg }), 0, 0, _, { targets := {} }, by rfl, by decide +kernel⟩,
   withCmd (.bridgeRestore 2) { unitUp 0 { cfg := unitCfg } with
     form := { units := [{ cfg := unitCfg }], bridges := [{}, {}, { lost := true, goodRun := 1000 }] } }, 0, 0, 2, _, by decide, by rfl, by rfl, by rfl,
     by decide +kernel⟩

theorem wit_transitions : (∃ (s : State) (u : Nat) (x : FormUnit), s.fu? u = some x ∧ s.blockCause x = none ∧ x.phase = .preparing ∧ x.waitLink = false ∧
      x.waitDc = false ∧ x.waitStage = false) ∧
    (∃ (s : State) (u : Nat) (x : FormUnit), s.fu? u = some x ∧ s.blockCause x = none ∧ x.phase = .connecting ∧ x.frtCause = none ∧
      s.passed x.stateSince x.cfg.policy.tConnect) ∧
    (∃ (s : State) (u : Nat) (x : FormUnit), s.fu? u = some x ∧ s.blockCause x = none ∧ x.phase = .resync ∧ x.frtCause = none ∧
      s.gridClosed x ≠ some true ∧ x.meas.gridValid ∧ s.passed x.stateSince x.cfg.policy.resyncTimeout) ∧
    (∃ (s : State) (u : Nat) (x : FormUnit), s.fu? u = some x ∧ s.blockCause x = none ∧ x.phase = .stopping ∧ s.passed x.stateSince (secs 10)) ∧
    ∃ (s : State) (u : Nat) (x : FormUnit), s.fu? u = some x ∧ s.blockCause x = none ∧ x.phase = .rideThrough ∧
      s.passedSince x.frt.exitSince x.cfg.frt.tFrtExit :=
  ⟨⟨unitUp 0 { cfg := unitCfg, phase := .preparing, waitLink := false, waitDc := false }, 0, _, by rfl, by decide +kernel⟩,
   ⟨unitUp (msec 100) { cfg := unitCfg, phase := .connecting, meas := { v1Mag := 1, any_ := true } }, 0, _, by rfl, by decide +kernel⟩,
   ⟨unitUp (secs 120) { cfg := unitCfg, phase := .resync, meas := { v1Mag := 1, gridValid := true } }, 0, _, by rfl, by decide +kernel⟩,
   ⟨unitUp (secs 10) { cfg := unitCfg, phase := .stopping }, 0, _, by rfl, by decide +kernel⟩,
   unitUp (msec 20) { cfg := unitCfg, phase := .rideThrough, frt := { exitSince := some 0 } }, 0, _, by rfl, by decide +kernel⟩

theorem wit_causes : (∃ (s : State) (u : Nat) (x : FormUnit), s.fu? u = some x ∧ s.blockCause x = some .energiseFail) ∧
    (∃ (s : State) (u : Nat) (x : FormUnit), s.fu? u = some x ∧ s.blockCause x = some .circ) ∧
    (∃ (s : State) (u : Nat) (x : FormUnit), s.fu? u = some x ∧ s.blockCause x = some .loc) ∧
    (∃ (s : State) (u : Nat) (x : FormUnit), s.fu? u = some x ∧ s.blockCause x = some .envelope) ∧
    (∃ (s : State) (u : Nat) (x : FormUnit), s.fu? u = some x ∧ x.phase ≠ .off ∧ x.handed) ∧
    ∃ (s : State) (u : Nat) (x : FormUnit), s.fu? u = some x ∧ x.lockstepTest :=
  ⟨⟨unitUp (secs 35) { cfg := unitCfg, phase := .energising }, 0, _, by rfl, by decide +kernel⟩,
   ⟨{ unitUp (msec 10) { cfg := unitCfg, phase := .formingGrid } with
      form := { units := [{ cfg := unitCfg, phase := .formingGrid }], bridges := [{}, {}, { active := true, circSince := some 0 }] } }, 0, _, by rfl, by decide +kernel⟩,
   ⟨unitUp (secs 1) { cfg := unitCfg, phase := .hold }, 0, _, by rfl, by decide +kernel⟩,
   ⟨unitUp (msec 5) { cfg := unitCfg, phase := .rideThrough, frt := { envSince := some 0 } }, 0, _, by rfl, by decide +kernel⟩,
   ⟨unitUp 0 { cfg := unitCfg, phase := .hold }, 0, _, by rfl, by decide⟩, unitUp 0 { cfg := unitCfg, lockstepTest := true }, 0, _, by rfl, by decide⟩

theorem wit_cycles : (∃ (s : State) (u : Nat) (y : FormUnit), s.fu? u = some y ∧ s.gridEdge y ≠ y.edge) ∧
    ∃ (s : State) (u : Nat) (x : FormUnit), s.fu? u = some x ∧ s.mayCompute x ∧ x.phase.pulses = false :=
  ⟨⟨unitUp 100000 { cfg := unitCfg }, 0, _, by rfl, by decide +kernel⟩, unitUp 0 { cfg := unitCfg, phase := .ready, computed := false }, 0, _, by rfl, by decide +kernel⟩

theorem wit_staged : (∃ (s : State) (u : Nat) (x : FormUnit) (st : Staged), s.fu? u = some x ∧ x.stepDue ∧ s.atUnitBoundary x ∧ x.staged = some st) ∧
    (∃ (s : State) (u : Nat) (x : FormUnit), s.fu? u = some x ∧ x.stepDue ∧ s.atUnitBoundary x ∧ x.staged = none) ∧
    (∃ (s : State) (u : Nat) (x : FormUnit) (c : UnitCmd), s.fu? u = some x ∧ autostartCmd x.cfg.policy.autostart = some c ∧ x.phase = .ready ∧
      x.autoAt = none ∧ s.passedSince x.readySince x.cfg.policy.autostartDelay ∧ s.unitAccepts x c) ∧
    ∃ (s : State) (u : Nat) (x : FormUnit) (c : UnitCmd), s.fu? u = some x ∧ autostartCmd x.cfg.policy.autostart = some c ∧ x.phase = .ready ∧
      x.autoAt = none ∧ s.passedSince x.readySince x.cfg.policy.autostartDelay ∧ s.unitAccepts x c = false :=
  let y : FormUnit := { cfg := { unitCfg with policy := { autostart := .start } }, phase := .ready, readySince := some 0 }
  ⟨⟨unitUp 0 { cfg := unitCfg, stepDue := true, staged := some { targets := {} } }, 0, _, _, by rfl, by decide, by decide +kernel, by rfl⟩,
   ⟨unitUp 0 { cfg := unitCfg, stepDue := true }, 0, _, by rfl, by decide +kernel⟩,
   ⟨unitUp (secs 30) { y with meas := { v1Mag := 4 / 5 } }, 0, _, .start, by rfl, by rfl, by decide +kernel⟩,
   unitUp (secs 30) y, 0, _, .start, by rfl, by rfl, by decide +kernel⟩

theorem wit_gate_frames : (∃ (s : State) (x : UplinkIn) (g : GateLink) (y : FormUnit), s.gateLink? x.br = some g ∧ s.unitOfBridge x.br = some y ∧ g.up ∧
      x.checkOk ∧ (g.alive? x.frame).accepted ∧ g.accepts y.cycle x.frame ∧ g.uplink = none ∧ y.computed = false) ∧
    (∃ (s : State) (x : UplinkIn) (g : GateLink) (y : FormUnit), s.gateLink? x.br = some g ∧ s.unitOfBridge x.br = some y ∧ g.up ∧
      x.checkOk ∧ (g.alive? x.frame).accepted ∧ g.accepts y.cycle x.frame ∧ g.uplink = none ∧ y.computed) ∧
    (∃ (s : State) (x : UplinkIn) (g : GateLink), s.gateLink? x.br = some g ∧ g.up ∧ x.checkOk = false) ∧
    (∃ (s : State) (br : Nat) (g : GateLink) (x : FormUnit), s.gateLink? br = some g ∧ s.unitOfBridge br = some x ∧ s.fu? x.cfg.unit = some x ∧
      x.handed = false ∧ s.passed x.t0 (x.ts / 2) ∧ g.sentFor ≠ x.cycle + 1 ∧ x.phase.pulses = false) ∧
    (∃ (s : State) (br : Nat) (g : GateLink) (x : FormUnit), s.gateLink? br = some g ∧ s.unitOfBridge br = some x ∧ s.fu? x.cfg.unit = some x ∧
      x.handed = false ∧ s.passed x.t0 (x.ts / 2) ∧ g.sentFor ≠ x.cycle + 1 ∧ x.phase.pulses ∧ x.overrunRun = 0 ∧ (s.bridge br).active) ∧
    ∃ (s : State) (br : Nat) (g : GateLink), s.gateLink? br = some g ∧ g.up ∧ s.unitOfBridge br = none ∧ s.passed g.idleAt 100000 :=
  let l : GateLink := { cfg := { bridge := 2, port := 40 }, up := true, ulAlive := some 5 }
  let f : UplinkIn := { br := 2, frame := { bridge := 2, alive := 21, cycle := 8 }, tRx := 0 }
  ⟨⟨unitUp 0 { cfg := unitCfg, cycle := 8, computed := false } l, f, l, _, by rfl, by rfl, by decide +kernel⟩,
   ⟨unitUp 0 { cfg := unitCfg, cycle := 8 } l, f, l, _, by rfl, by rfl, by decide +kernel⟩,
   ⟨unitUp 0 { cfg := unitCfg } l, { f with check := ~~~f.frame.check }, l, by rfl, by decide +kernel⟩,
   ⟨unitUp 50000 { cfg := unitCfg, handed := false } l, 2, l, _, by rfl, by rfl, by rfl, by decide⟩,
   ⟨{ unitUp 50000 {cfg := unitCfg} l with
      form := { units := [{ cfg := unitCfg, handed := false, phase := .hold }], bridges := [{}, {}, { active := true }] } }, 2, l, _, by rfl, by rfl, by rfl, by decide⟩,
   { unitUp 100000 { cfg := unitCfg } l with form := {} }, 2, l, by rfl, by decide⟩

theorem wit_gate_links : (∃ (s : State) (b br : Nat) (g : GateLink), s.ctlCmd b = some (.gateClear br) ∧ s.gateLink? br = some g ∧ g.blockSent) ∧
    (∃ (s : State) (b br : Nat) (g : GateLink), s.ctlCmd b = some (.gateClear br) ∧ s.gateLink? br = some g ∧ g.blockSent = false) ∧
    (∃ (s : State) (br : Nat) (g : GateLink), s.gateLink? br = some g ∧ g.up) ∧
    ∃ (s : State) (br : Nat) (g : GateLink), s.gateLink? br = some g ∧ g.up = false ∧ s.clk.refNone = false ∧ 6 ≤ s.sys.stage ∧ s.sys.stage ≤ 11 :=
  let l : GateLink := { cfg := { bridge := 2, port := 40 } }
  ⟨⟨withCmd (.gateClear 2) (unitUp 0 { cfg := unitCfg } l), 0, 2, l, by decide, by rfl, by decide⟩,
   ⟨withCmd (.gateClear 2) (unitUp 0 { cfg := unitCfg } { l with blockSent := false }), 0, 2, _, by decide, by rfl, by decide⟩,
   ⟨unitUp 0 { cfg := unitCfg } { l with up := true }, 2, _, by rfl, by decide⟩, unitUp 0 { cfg := unitCfg } l, 2, l, by rfl, by decide⟩

/-- A device with field group 0 and the channels given, at local time `n`. -/
def fieldUp (n : Nat) (g : FioGroup) (l : List FioCh) : State := { up n with fio := { groups := [g], chans := l } }

/-- A field input and a field output. -/
def chIn : FioCh := { cfg := some { ch := 0, mode := .input 1000 } }
def chOut (o : Owner := .host) : FioCh := { cfg := some { ch := 0, mode := .output o .single .hold true true 2 0 } }

theorem wit_groups_live : (∃ (s : State) (x : CouplerIn), (s.fioGroup x.g).created ∧ x.valid) ∧
    (∃ (s : State) (x : CouplerIn), (s.fioGroup x.g).created ∧ x.valid = false) ∧
    (∃ (s : State) (g : Nat), (s.fioGroup g).created ∧ (s.fioGroup g).lost = false ∧ s.passed (s.fioGroup g).lastRx (msec 1)) ∧
    (∃ (s : State) (ch : Nat) (level : Bool) (stable : Ns), (s.fioCh ch).isInput ∧ (s.fioGroup (groupOf ch)).accepted ∧
      (s.fioCh ch).level ≠ level ∧ (s.fioCh ch).debounce ≤ stable) ∧
    (∃ (s : State) (g : Nat), (s.fioGroup g).syncOk ∧ (s.fioGroup g).lastSync + msec 5 < s.now) ∧
    (∃ (s : State) (g : Nat), (s.fioGroup g).accepted ∧ (s.fioGroup g).wdSafe = false ∧ s.passed (s.fioGroup g).lastTx (s.fioGroup g).cfg.wdTime) ∧
    ∃ (s : State) (g mv : Nat), g < s.fio.groups.length ∧ (s.fioGroup g).level.num < (lplusLevel mv).num :=
  ⟨⟨fieldUp 0 { created := true } [], { g := 0 }, by decide⟩, ⟨fieldUp 0 { created := true } [], { g := 0, valid := false }, by decide⟩,
   ⟨fieldUp (msec 1) { created := true } [], 0, by decide⟩, ⟨fieldUp 0 { accepted := true } [chIn], 0, true, 1000, by decide⟩,
   ⟨fieldUp (msec 5 + 1) { syncOk := true } [], 0, by decide⟩, ⟨fieldUp (msec 10) { accepted := true } [], 0, by decide⟩,
   fieldUp 0 { level := .normal } [], 0, 0, by decide⟩

theorem wit_handshake : ∃ (s : State) (g : Nat), (s.fioGroup g).created ∧ 5 ≤ s.sys.stage ∧ s.sys.stage < 12 ∧ (s.fioGroup g).accepted = false ∧
    (s.fioGroup g).handshakeFail = false ∧ ∃ n ∈ groupChans g, (s.fioCh n).isOutput ∧ (s.fioCh n).lead :=
  ⟨fieldUp 0 { created := true } [chOut], 0, by decide, by decide, by decide, by decide, by decide, 0, by decide⟩

theorem wit_outputs : (∃ (s : State) (ch : Nat) (level : Bool) (u : Ns) (l : List (Bool × Ns)), (s.fioCh ch).sent = (level, u) :: l ∧ s.passed u 1200) ∧
    (∃ (s : State) (b ch : Nat) (level : Bool), s.ctlCmd b = some (.fioSet ch level) ∧ s.gangLead ch < s.fio.chans.length) ∧
    (∃ (s : State) (ch n : Nat), s.gangLead ch = n ∧ (s.fioCh n).isOutput ∧ (s.fioCh n).driven) ∧
    (∃ (s : State) (ch n : Nat), s.gangLead ch = n ∧ (s.fioCh n).lockOverload ∧ (s.fioCh n).cmd ∧ (s.fioCh n).retries < (s.fioCh n).ovlRetry ∧
      s.passedSince (s.fioCh n).lockedOff (secs 1)) ∧
    (∃ (s : State) (b ch n : Nat), s.ctlCmd b = some (.fioClear ch) ∧ s.gangLead ch = n ∧ n < s.fio.chans.length) ∧
    (∃ (s : State) (b ch n : Nat), s.ctlCmd b = some (.fioResume ch) ∧ s.gangLead ch = n ∧ n < s.fio.chans.length) ∧
    (∃ (s : State) (ch n : Nat), s.gangLead ch = n ∧ (s.fioCh n).isOutput ∧ (s.fioCh n).overtemp = false) ∧
    (∃ (s : State) (ch n : Nat), s.gangLead ch = n ∧ (s.fioCh n).isOutput ∧ (s.fioCh n).overtemp ∧ (s.fioCh n).cmd ∧
      2 ≤ ((s.fioCh n).restarts.filter fun u => s.now < u + secs 60).length) ∧
    ∃ (s : State) (g id n : Nat) (e : SchedEdge), (s.fioGroup g).sched.find? (·.id == id) = some e ∧ (s.fioGroup g).schedWait = [] ∧
      s.gangLead e.ch = n ∧ n < s.fio.chans.length ∧ e.time ≤ s.ltc :=
  ⟨⟨fieldUp 1200 {} [{ chOut with sent := [(true, 0)] }], 0, true, 0, [], by decide⟩,
   ⟨withCmd (.fioSet 0 true) (fieldUp 0 {} [chOut]), 0, 0, true, by decide⟩, ⟨fieldUp 0 {} [{ chOut with driven := true }], 0, 0, by decide⟩,
   ⟨fieldUp (secs 1) {} [{ chOut with lockOverload := true, cmd := true, lockedOff := some 0, retries := 1 }], 0, 0, by decide⟩,
   ⟨withCmd (.fioClear 0) (fieldUp 0 {} [chOut]), 0, 0, 0, by decide⟩, ⟨withCmd (.fioResume 0) (fieldUp 0 {} [chOut]), 0, 0, 0, by decide⟩,
   ⟨fieldUp 0 {} [chOut], 0, 0, by decide⟩, ⟨fieldUp 10 {} [{ chOut with overtemp := true, cmd := true, restarts := [5, 1] }], 0, 0, by decide⟩,
   fieldUp 0 { sched := [{ id := 7, ch := 0, level := true, time := 0 }] } [chOut], 0, 7, 0, _, by rfl, by decide⟩

theorem wit_diagnosis : (∃ (s : State) (ch n : Nat), s.gangLead ch = n ∧ (s.fioCh n).darkPulse ∧ (s.fioCh n).driven ∧
      (s.fioGroup (groupOf n)).testing ∧ s.edgeNear n = false ∧ s.pulseFree n) ∧
    (∃ (s : State) (ch n : Nat), s.gangLead ch = n ∧ (s.fioCh n).pulse = .dark ∧
      s.passedSince (s.fioCh n).pulseAt (s.fioGroup (groupOf n)).cfg.dpWidth) ∧
    (∃ (s : State) (ch n m : Nat), s.gangLead ch = n ∧ (s.fioCh n).pulse = .dark ∧ (s.fioGroup (groupOf n)).testing ∧
      s.passedSince (s.fioCh n).pulseAt (s.fioGroup (groupOf n)).cfg.dpWidth ∧ s.gangLead m = m ∧ m ≠ n ∧ m < s.fio.chans.length ∧ 10000 ≤ (s.fioCh n).current) ∧
    (∃ (s : State) (ch n : Nat), s.gangLead ch = n ∧ (s.fioCh n).isOutput ∧ (s.fioCh n).cmd = false ∧ (s.fioGroup (groupOf n)).testing) ∧
    (∃ (s : State) (ch n : Nat), s.gangLead ch = n ∧ s.owActive n) ∧
    ∃ (s : State) (ch : Nat), (s.fioCh ch).isInput ∧ (s.fioGroup (groupOf ch)).testing :=
  let g : FioGroup := { accepted := true, level := .sag }
  ⟨⟨fieldUp 0 g [{ chOut with driven := true }], 0, 0, by decide⟩, ⟨fieldUp (secs 1) g [{ chOut with pulse := .dark, pulseAt := some 0 }], 0, 0, by decide⟩,
   ⟨fieldUp (secs 1) g [{ chOut with pulse := .dark, pulseAt := some 0, current := 10000 }, chOut], 0, 0, 1, by decide⟩, ⟨fieldUp 0 g [chOut], 0, 0, by decide⟩,
   ⟨fieldUp 0 g [chIn], 0, 0, by decide⟩, fieldUp 0 g [chIn], 0, by decide⟩

/-- A device whose LOGIC runs the tasks given, with one task group, at local time `n`. -/
def logicUp (n : Nat) (l : List Task) (g : Group := {}) : State := { up n with logic := { phase := .running, tasks := l, groups := [g] } }

/-- A TIME task of 1 ms and an EVENT task with a command source. -/
def timeTask : TaskCfg := { task := 3, kind := .time 1000000 0, core := 0, priority := 0, group := 0 }
def eventTask : TaskCfg := { task := 4, kind := .event 1000 [.field 0 .rising, .command], core := 0, priority := 0, group := 0 }

theorem wit_releases : (∃ (s : State) (n : Nat) (x : Task), s.logic.phase = .running ∧ s.task? n = some x ∧ x.suspended = false ∧ x.held = false ∧
      s.instantDue x ∧ x.running = false ∧ x.heldWrite = none ∧ (s.taskGroup x.cfg.group).swapEnd ≤ s.now) ∧
    (∃ (s : State) (n : Nat) (x : Task), s.logic.phase = .running ∧ s.task? n = some x ∧ x.suspended = false ∧ x.held = false ∧
      s.instantDue x ∧ x.running ∧ x.cfg.kind.index s.ltc ≤ x.relIdx + 1 ∧ (s.taskGroup x.cfg.group).swapEnd ≤ s.now ∧ x.overrun) ∧
    (∃ (s : State) (n src mi : Nat) (l : List EventSource) (x : Task), s.task? n = some x ∧ (n, src) ∈ s.logic.fired ∧ x.cfg.kind = .event mi l ∧ x.latched) ∧
    (∃ (s : State) (n src mi : Nat) (l : List EventSource) (x : Task), s.task? n = some x ∧ (n, src) ∈ s.logic.fired ∧ x.cfg.kind = .event mi l ∧
      x.latched = false ∧ x.running) ∧
    ∃ (s : State) (n src mi : Nat) (l : List EventSource) (x : Task), s.task? n = some x ∧ (n, src) ∈ s.logic.fired ∧ x.cfg.kind = .event mi l ∧
      x.latched = false ∧ s.logic.phase = .running ∧ x.suspended = false ∧ x.running = false ∧ x.lastRel.all (fun a => s.passed a mi) ∧
      x.heldWrite = none ∧ (s.taskGroup x.cfg.group).swapEnd ≤ s.now :=
  let fired (n : Nat) (x : Task) : State := (logicUp n [x]).onLogic fun l => { l with fired := [(4, 1)] }
  ⟨⟨logicUp 0 [{ cfg := timeTask }], 3, _, by rfl, by rfl, by decide⟩,
   ⟨logicUp 0 [{ cfg := timeTask, running := true, overrun := true }], 3, _, by rfl, by rfl, by decide⟩,
   ⟨fired 0 { cfg := eventTask, latched := true }, 4, 1, _, _, _, by rfl, by decide, by rfl, by rfl⟩,
   ⟨fired 0 { cfg := eventTask, running := true }, 4, 1, _, _, _, by rfl, by decide, by rfl, by decide⟩,
   fired 1000 { cfg := eventTask, lastRel := some 0 }, 4, 1, _, _, _, by rfl, by decide, by rfl, by decide⟩

theorem wit_writes : (∃ (s : State) (n : Nat) (k : Task), s.logic.phase = .running ∧ s.task? n = some k ∧ k.running ∧ k.preempted = false ∧ k.cfg.writeAtNext) ∧
    (∃ (s : State) (w ch : Nat) (k : Task), s.logic.phase = .running ∧ s.task? w = some k ∧ k.running ∧
      k.preempted = false ∧ k.cfg.writeAtNext = false ∧ (s.fioCh (s.gangLead ch)).owner = some .trip) ∧
    (∃ (s : State) (w ch m : Nat) (k : Task), s.logic.phase = .running ∧ s.task? w = some k ∧ k.running ∧
      k.preempted = false ∧ k.cfg.writeAtNext = false ∧ m = s.gangLead ch ∧ (s.fioCh m).owner = some .logic ∧ s.exportedOut m = false ∧
      s.gangLead m = m ∧ m < s.fio.chans.length) ∧
    ∃ (s : State) (m : Nat) (g : Group) (c : Commit), m < s.logic.groups.length ∧ s.taskGroup m = g ∧ g.busy = some c ∧ g.waiting = none ∧
      s.passed g.busySince g.commitTime :=
  let outs (o : Owner) (x : Task) : State := { logicUp 0 [x] with fio := { chans := [chOut o] } }
  ⟨⟨logicUp 0 [{ cfg := { timeTask with writeAtNext := true }, running := true }], 3, _, by rfl, by rfl, by decide⟩,
   ⟨outs .trip { cfg := timeTask, running := true }, 3, 0, _, by rfl, by rfl, by decide⟩,
   ⟨outs .logic { cfg := timeTask, running := true }, 3, 0, 0, _, by rfl, by rfl, by decide⟩,
   logicUp 2250 [] { busy := some { vars := [], insts := [], lines := [], layout := 0, cycles := 0 }, busyLines := 1 }, 0, _, _, by decide, by rfl, by rfl, by decide⟩

theorem wit_engine : (∃ s : State, s.logic.phase = .running ∧ s.logic.tasks.any (fun x => x.running && s.passedSince x.lastRel (8 * s.taskPeriod x))) ∧
    (∃ (s : State) (n : Nat), s.logic.phase = .running ∧ n < 192 ∧ n < s.fio.chans.length ∧ (s.fioCh n).owner = some .logic ∧ s.gangLead n = n) ∧
    (∃ (s : State) (b : Nat), s.ctlCmd b = some .logicStop ∧ s.logic.phase = .running) ∧
    (∃ (s : State) (b : Nat), s.ctlCmd b = some .logicStop ∧ s.logic.phase ≠ .running) ∧
    (∃ (s : State) (b : Nat) (warm : Bool), s.ctlCmd b = some (.logicStart warm) ∧ (s.logic.phase = .stopped ∨ s.logic.phase = .halted)) ∧
    ∃ (s : State) (b : Nat) (warm : Bool), s.ctlCmd b = some (.logicStart warm) ∧ (s.logic.phase = .running ∨ s.logic.phase = .idle) :=
  ⟨⟨logicUp 8000000 [{ cfg := timeTask, running := true, lastRel := some 0 }], by decide +kernel⟩,
   ⟨{ logicUp 0 [] with fio := { chans := [chOut .logic] } }, 0, by decide⟩, ⟨withCmd .logicStop (logicUp 0 []), 0, by decide⟩,
   ⟨withCmd .logicStop (up 0), 0, by decide⟩, ⟨withCmd (.logicStart true) { up 0 with logic := { phase := .halted } }, 0, true, by decide⟩,
   withCmd (.logicStart true) (up 0), 0, true, by decide⟩

theorem wit_programs : (∃ (s : State) (b : Nat) (l : List Nat), s.ctlCmd b = some (.logicRead l)) ∧
    (∃ (s : State) (b a : Nat) (v : Int), s.ctlCmd b = some (.logicWrite a v)) ∧
    (∃ (s : State) (b n mi p : Nat) (l : List EventSource) (x : Task), s.ctlCmd b = some (.logicEvent n p) ∧ s.task? n = some x ∧
      x.cfg.kind = .event mi l ∧ .command ∈ l) ∧
    (∃ (s : State) (b : Nat) (p : LogicCfg) (ok : Bool), s.ctlCmd b = some (.logicStage p ok)) ∧
    (∃ (s : State) (m : Nat) (x : Exchange), s.logic.exch = some x ∧ (s.taskGroup m).exchPending ∧ s.groupQuiet m) ∧
    ∃ (s : State) (m : Nat) (x : Exchange), s.logic.exch = some x ∧ (s.taskGroup m).exchPending ∧ s.passed x.committedAt (secs 1) :=
  let e (n : Nat) : State := (logicUp n [] { exchPending := true }).onLogic fun l => { l with exch := some { prog := {}, committedAt := 0 } }
  ⟨⟨withCmd (.logicRead [8]) (up 0), 0, [8], by decide⟩, ⟨withCmd (.logicWrite 8 5) (up 0), 0, 8, 5, by decide⟩,
   ⟨withCmd (.logicEvent 4 0) (logicUp 0 [{ cfg := eventTask }]), 0, 4, 1000, 0, [.field 0 .rising, .command], { cfg := eventTask }, by decide⟩,
   ⟨withCmd (.logicStage {} false) (up 0), 0, {}, false, by decide⟩,
   ⟨e 0, 0, _, by rfl, by decide⟩, e (secs 1), 0, _, by rfl, by decide⟩

theorem wit_stations : (∃ (s : State) (n : Nat) (x : Station), s.station n = x ∧ x.isStation ∧ 9 ≤ s.sys.stage ∧ s.passed x.lastTx x.period) ∧
    (∃ (s : State) (src n : Nat) (p : RioPayload) (x : Station), s.logic.stations.zipIdx.find? (fun x => x.1.phase != .none && x.1.node == src &&
        x.1.isStation == p.out && (if p.out then p.station == s.sec.device else x.1.device == p.station)) = some (x, n) ∧
      p.checkOk ∧ x.mismatch = false ∧ p.out ∧ s.logic.phase ≠ .idle ∧ (x.aliveRx.test 8 16 true p.alive).1.accepted) ∧
    (∃ (s : State) (src n : Nat) (p : RioPayload) (x : Station), s.logic.stations.zipIdx.find? (fun x => x.1.phase != .none && x.1.node == src &&
        x.1.isStation == p.out && (if p.out then p.station == s.sec.device else x.1.device == p.station)) = some (x, n) ∧ p.checkOk = false) ∧
    (∃ (s : State) (n : Nat) (x : Station), s.station n = x ∧ x.isStation = false ∧ x.phase = .up ∧
      (s.nodeReach x.node = false ∨ s.passed x.since x.timeout)) ∧
    ∃ (s : State) (n : Nat) (x : Station), s.station n = x ∧ x.isStation ∧ x.safe = false ∧ s.logic.phase ≠ .idle ∧ s.passed x.since x.timeout :=
  let st (x : Station) : State := { up (msec 3) with logic := { phase := .running, stations := [x] } }
  let p : RioPayload := { out := false, alive := 15, station := 9, ts := 0, values := 1, valid := 1, quest := 0 }
  let x : Station := { phase := .up, node := 2, device := 9, timeout := msec 3, aliveRx := { last := some 255 } }
  ⟨⟨st { x with isStation := true, period := msec 1 }, 0, _, by rfl, by decide⟩,
   ⟨st { x with isStation := true }, 2, 0, { out := true, alive := 15, station := State.reset.sec.device, ts := 0, values := 1, valid := 1, quest := 0 }, _, by rfl, by decide +kernel⟩,
   ⟨st x, 2, 0, { p with check := ~~~p.check }, _, by rfl, by decide +kernel⟩, ⟨st x, 0, _, by rfl, by decide⟩,
   st { x with isStation := true }, 0, _, by rfl, by decide⟩

/-- A device with capture engine 0, at local time `n`. -/
def captUp (n : Nat) (x : Engine) : State := { up n with capt := { engines := [x] } }

/-- A created engine of one channel: 64 MiB, 32 MiB of them rows. -/
def capt0 : Engine :=
  { created := true, cfg := { engine := 0, partMib := 64, waveMib := 32, chans := [{ src := .ain 0 }], conds := [.edge 3 .rising, .manual] } }

theorem wit_engines : (∃ (s : State) (b e : Nat), s.ctlCmd b = some (.captArm e) ∧ s.refuseArm e = none) ∧
    (∃ (s : State) (b e : Nat) (r : Refuse), s.ctlCmd b = some (.captArm e) ∧ s.refuseArm e = some r) ∧
    (∃ (s : State) (b e : Nat), s.ctlCmd b = some (.captDisarm e) ∧ s.refuseDisarm e = none) ∧
    (∃ (s : State) (b e pre post : Nat), s.ctlCmd b = some (.captSet e pre post) ∧ s.refuseCaptSet e = none ∧ (s.engine e).maxRows - pre < post) ∧
    (∃ (s : State) (b e : Nat), s.ctlCmd b = some (.captLock e) ∧ s.refuseLock e = none) ∧
    (∃ (s : State) (b e : Nat), s.ctlCmd b = some (.captUnlock e)) ∧
    ∃ (s : State) (e : Nat), s.passedSince (s.engine e).locked (s.engine e).cfg.lockMax :=
  ⟨⟨withCmd (.captArm 0) (captUp 0 capt0), 0, 0, by decide⟩, ⟨withCmd (.captArm 0) (captUp 0 { capt0 with phase := .armed }), 0, 0, _, by decide, by rfl⟩,
   ⟨withCmd (.captDisarm 0) (captUp 0 { capt0 with phase := .armed }), 0, 0, by decide⟩,
   ⟨withCmd (.captSet 0 (2 ^ 23) (2 ^ 22)) (captUp 0 capt0), 0, 0, 2 ^ 23, 2 ^ 22, by decide +kernel⟩,
   ⟨withCmd (.captLock 0) (captUp 0 { capt0 with phase := .done }), 0, 0, by decide⟩, ⟨withCmd (.captUnlock 0) (captUp 0 capt0), 0, 0, by decide⟩,
   captUp (secs 600) { capt0 with locked := some 0 }, 0, by decide⟩

theorem wit_triggers : (∃ (s : State) (b e : Nat) (it : Item), s.ctlCmd b = some (.captTrigger e) ∧ s.item b = some it ∧ s.refuseTrigger e = none) ∧
    (∃ (s : State) (e c : Nat) (r : Report), (s.engine e).met.find? (·.cond == c) = some r ∧ (s.engine e).phase = .armed) ∧
    (∃ (s : State) (e c : Nat) (r : Report), (s.engine e).met.find? (·.cond == c) = some r ∧ (s.engine e).phase = .triggered ∧ (s.engine e).window) ∧
    (∃ (s : State) (e c : Nat) (r : Report), (s.engine e).met.find? (·.cond == c) = some r ∧ (s.engine e).phase = .triggered ∧ (s.engine e).window = false) ∧
    (∃ (s : State) (e : Nat) (r : Report), (s.engine e).window ∧ (s.engine e).phase = .triggered ∧ s.passed (s.engine e).firstAt (msec 25) ∧
      r ∈ (s.engine e).reports ∧ r.cond < 64 ∧ (s.engine e).idxOf r.time = (s.engine e).trigIdx) ∧
    ∃ (s : State) (e : Nat), (s.engine e).phase = .triggered ∧ (s.engine e).window = false ∧ (s.engine e).post ≤ (s.engine e).fill :=
  let r : Report := { cond := 0, time := 0, tag := 0 }
  ⟨⟨withCmd (.captTrigger 0) (captUp 0 { capt0 with phase := .armed }), 0, 0, _, by decide, by rfl, by decide⟩,
   ⟨captUp 0 { capt0 with phase := .armed, met := [r] }, 0, 0, r, by decide⟩,
   ⟨captUp 0 { capt0 with phase := .triggered, window := true, met := [r] }, 0, 0, r, by decide⟩,
   ⟨captUp 0 { capt0 with phase := .triggered, met := [r] }, 0, 0, r, by decide⟩,
   ⟨captUp (msec 25) { capt0 with phase := .triggered, window := true, reports := [r] }, 0, r, by decide +kernel⟩,
   captUp 0 { capt0 with phase := .triggered, post := 1440, rowCount := 1440 }, 0, by decide⟩

theorem wit_bar2 : (∃ (s : State) (o : Nat), o < 2 ^ 33 ∧ s.clk.dramRetraining = false ∧ s.clk.isStopped 5 = false) ∧
    (∃ (s : State) (o : Nat), o < 2 ^ 33 ∧ s.clk.dramRetraining) ∧
    (∃ (s : State) (o e : Nat), o < 2 ^ 33 ∧ s.clk.dramRetraining = false ∧ s.clk.isStopped 5 = false ∧ s.captAt (o / 4 * 4) = some e) ∧
    ∃ o : Nat, 2 ^ 33 ≤ o :=
  ⟨⟨up 0, 2 ^ 33 - 1, by decide +kernel⟩, ⟨(up 0).onClk fun c => { c with dramRetraining := true }, 0, by decide +kernel⟩,
   ⟨captUp 0 capt0, 2 ^ 26 - 1, 0, by decide +kernel⟩, 2 ^ 33, by decide +kernel⟩

/-- A device whose LOG is ready, at local time `n`, changed by `f`. -/
def logUp (n : Nat) (f : LogState → LogState) : State := { up n with log := f { stagingOpen := true, ready := true } }

/-- A staged TIDE_REFUSED, which R621 gives severity INFO, a tail of it, and a setting without merging. -/
def staged0 : StageEntry := { rcd := { name := .refused .tide, source := 3 } }
def tail0 : Tail := { seq := 0, name := .refused .tide, sev := .info, source := 3, count := 1 }
def unmerged : LogCfg := { codes := [(.refused .tide, { merge := false })] }

theorem wit_intake : (∃ (s : State) (e : Event) (l : List Event), s.log.reported = e :: l ∧ s.log.lastwords = false ∧ (s.logSetting e.name).record ∧
      s.log.stagingOpen ∧ s.log.bothFail = false ∧ (s.logSetting e.name).merge = false ∧ s.log.overflow = none ∧ s.log.staging.length < 255) ∧
    (∃ (s : State) (e : Event) (l : List Event) (n : StageEntry), s.log.reported = e :: l ∧ s.log.lastwords = false ∧
      (s.logSetting e.name).record ∧ s.log.stagingOpen ∧ s.log.bothFail = false ∧ (s.logSetting e.name).merge ∧
      s.log.staging.getLast? = some n ∧ n.rcd.name = e.name ∧ n.rcd.source = e.source) ∧
    (∃ (s : State) (e : Event) (l : List Event), s.log.reported = e :: l ∧ s.log.lastwords = false ∧ (s.logSetting e.name).record = false) ∧
    ∃ (s : State) (e : Event) (l : List Event), s.log.reported = e :: l ∧ s.log.lastwords = false ∧ (s.logSetting e.name).record ∧
      s.log.bothFail = false ∧ (s.logSetting e.name).merge = false ∧ 255 ≤ s.log.staging.length :=
  let e : Event := { name := .refused .tide, source := 3 }
  ⟨⟨logUp 0 fun x => { x with reported := [e], cfg := unmerged }, e, [], by decide⟩,
   ⟨logUp 0 fun x => { x with reported := [e], staging := [staged0] }, e, [], staged0, by decide⟩,
   ⟨logUp 0 fun x => { x with reported := [e], cfg := { codes := [(.refused .tide, { record := false })] } }, e, [], by decide⟩,
   logUp 0 fun x => { x with reported := [e], cfg := unmerged, staging := List.replicate 255 staged0 }, e, [], by decide +kernel⟩

theorem wit_commits : (∃ (s : State) (e : StageEntry) (l : List StageEntry), s.log.ready ∧ s.log.bothFail = false ∧ s.log.staging = e :: l ∧
      s.log.tail = none ∧ s.log.overflow = none ∧ s.log.reserve = false ∧ e.count = 0) ∧
    (∃ (s : State) (e : StageEntry) (l : List StageEntry), s.log.ready ∧ s.log.bothFail = false ∧ s.log.staging = e :: l ∧
      s.log.tail = none ∧ s.log.overflow = none ∧ s.log.reserve = false ∧ e.count ≠ 0 ∧ (s.logSetting e.rcd.name).merge) ∧
    (∃ (s : State) (e : StageEntry) (l : List StageEntry) (x : Tail), s.log.ready ∧ s.log.bothFail = false ∧ s.log.staging = e :: l ∧
      s.log.tail = some x ∧ x.count ≠ 0) ∧
    (∃ (s : State) (e : StageEntry) (l : List StageEntry), s.log.ready ∧ s.log.bothFail = false ∧ s.log.staging = e :: l ∧ s.log.reserve) ∧
    (∃ (s : State) (x : Tail), s.log.tail = some x ∧ x.count ≠ 0 ∧ s.log.currentTail.tail ≠ some x ∧ s.passed s.log.tailWritten 100000) ∧
    ∃ (s : State) (x : Tail), s.log.tail = some x ∧ x.count ≠ 0 ∧ s.passed x.openedAt s.log.cfg.tailFoldMax :=
  ⟨⟨logUp 0 fun x => { x with staging := [staged0] }, staged0, [], by decide⟩,
   ⟨logUp 0 fun x => { x with staging := [{ staged0 with count := 1 }] }, { staged0 with count := 1 }, [], by decide⟩,
   ⟨logUp 0 fun x => { x with staging := [staged0], tail := some tail0 }, staged0, [], tail0, by decide⟩,
   ⟨logUp 0 fun x => { x with staging := [staged0], reserve := true }, staged0, [], by decide⟩,
   ⟨logUp 100000 fun x => { x with tail := some tail0 }, tail0, by decide⟩,
   logUp (secs 60) fun x => { x with tail := some tail0 }, tail0, by decide⟩

theorem wit_hatches : (∃ (s : State) (h : Nat), h < s.log.hatches.length ∧ h < 4 ∧
      ∀ i < 8, s.log.status ((nth s.log.hatches h {}).cursor.toNat + i) ≠ 1) ∧
    ∃ (s : State) (a : Ns) (tm n c : Nat), s.log.cfWindow = some (a, tm, n, c) ∧ s.passed a (secs 1) :=
  ⟨⟨up 0, 3, by decide⟩, logUp (secs 1) fun x => { x with cfWindow := some (0, 0, 7, 1) }, 0, 0, 7, 1, by decide⟩

/-- A device with the NET section and the NET and PTP state given, at local time `n`. -/
def netUp (n : Nat) (c : NetCfg) (x : NetState) (q : PtpState := {}) : State := { up n with manifest := { net := c }, net := x, ptp := q }

/-- Two ports, 8 and 9, up; the pair of both. -/
def ports0 : List PortCfg := [{ port := 8, mode := .base1000x, ingressFilter := false, ptpEn := some true }, { port := 9, mode := .base1000x, ingressFilter := false }]
def fabric0 : NetState := { ports := [{ port := 8, link := true, speed := 1 }, { port := 9, link := true, speed := 1 }] }
def ring0 : PairCfg := { pair := 0, kind := .hsr, first := 8, second := 9 }

theorem wit_ports : (∃ (s : State) (p : Nat) (x : Port), s.port? p = some x ∧ x.link) ∧
    (∃ (s : State) (p : Nat) (x : Port), s.port? p = some x ∧ x.link = false ∧ s.laneUsable p) ∧
    (∃ (s : State) (p : Nat), s.laneUsable p = false) ∧
    (∃ (s : State) (b p : Nat) (up : Bool), s.ctlCmd b = some (.netPortAdmin p up) ∧ s.refusePort p = none) ∧
    (∃ (s : State) (b p : Nat) (up : Bool) (r : Refuse), s.ctlCmd b = some (.netPortAdmin p up) ∧ s.refusePort p = some r) ∧
    (∃ (s : State) (p : Nat) (f : Frame) (x : Port), s.takesFrames p ∧ s.port? p = some x ∧ 64 ≤ f.len ∧ f.len ≤ 2048) ∧
    ∃ (s : State) (p : Nat) (x : Port) (c : PortCfg) (g : Gcl), s.port? p = some x ∧ s.netCfg.port? p = some c ∧ c.gcl = some g ∧
      x.gclRestart = none ∧ x.gclActive ∧ x.gclEnd ≤ s.ltc :=
  let gate : PortCfg := { port := 40, mode := .gateLink }
  let g : Gcl := { entries := [{ gates := 1, interval := 500 }, { gates := 2, interval := 500 }] }
  ⟨⟨netUp 0 {} fabric0, 8, _, by rfl, by decide⟩, ⟨netUp 0 {} { ports := [{ port := 8 }] }, 8, _, by rfl, by decide⟩, ⟨up 0, 7, by decide⟩,
   ⟨withCmd (.netPortAdmin 8 false) (netUp 0 { ports := ports0 } fabric0), 0, 8, false, by decide⟩,
   ⟨withCmd (.netPortAdmin 40 false) (netUp 0 { ports := [gate] } {}), 0, 40, false, _, by decide, by rfl⟩,
   ⟨netUp 0 { ports := ports0 } fabric0, 9, { dst := 2, src := 4, len := 2048 }, _, by decide, by rfl, by decide⟩,
   netUp 0 { ports := [{ port := 8, mode := .base1000x, gcl := some g }] } { ports := [{ port := 8, gclActive := true, gclEntry := 1 }] }, 8, _, _, g,
    by rfl, by rfl, by decide⟩

/-- The hypotheses of the forwarding clause, for a destination `d`. -/
def Forwards (d : BitVec 48) : Prop := ∃ (s : State) (p q : Nat) (f : Frame) (c : PortCfg) (y : Port), s.takesFrames p ∧ 64 ≤ f.len ∧ f.len ≤ 2048 ∧
    f.kind = .plain ∧ f.vid = none ∧ f.dst.toNat / 16 ≠ 0x0180C200000 ∧ f.dst = d ∧ f.src ≠ f.dst ∧ s.netCfg.port? p = some c ∧
    c.ingressFilter = false ∧ s.netCfg.pairOf? p = none ∧ s.netCfg.pairOf? q = none ∧ s.lookup f.dst c.pvid = ([q], false) ∧
    (s.netCfg.members c.pvid).contains q ∧ q ≠ p ∧ s.port? q = some y ∧ y.link ∧ y.adminDown = false ∧ c.defaultPcp < y.queues.length ∧
    y.hasRoom c.defaultPcp (s.egressForm q c.pvid { f with pcp := c.defaultPcp }).len

theorem wit_forwards_2 : Forwards 2 :=
  ⟨netUp 0 { ports := ports0 } { fabric0 with macs := [{ mac := 2, vid := 1, port := 9, seen := 0 }] }, 8, 9, { dst := 2, src := 6 }, _, _,
   by decide, by decide, by decide, by decide, by decide, by decide, by rfl, by decide, by rfl, by decide, by decide, by decide, by decide, by decide,
   by decide, by rfl, by decide, by decide, by decide, by decide⟩

theorem wit_forwards_4 : Forwards 4 :=
  ⟨netUp 0 { ports := ports0 } { fabric0 with macs := [{ mac := 4, vid := 1, port := 9, seen := 0 }] }, 8, 9, { dst := 4, src := 6 }, _, _,
   by decide, by decide, by decide, by decide, by decide, by decide, by rfl, by decide, by rfl, by decide, by decide, by decide, by decide, by decide,
   by decide, by rfl, by decide, by decide, by decide, by decide⟩

/-- Whatever the device's own address is, a frame for another destination is forwarded. -/
theorem wit_forwards : ∃ d : BitVec 48, d ≠ Config.ownMac ∧ Forwards d :=
  if h : Config.ownMac = 2 then ⟨4, by rw [h]; decide, wit_forwards_4⟩ else ⟨2, fun e => h e.symm, wit_forwards_2⟩

theorem wit_pairs : (∃ (s : State) (k : Nat) (c : PairCfg) (x : Pair), s.pairCfg? k = some c ∧ s.netCfg.pairOf? c.first = some c ∧ s.pair? k = some x ∧
      s.passed x.lifeSent s.netCfg.lifeCheck ∧ 6 ≤ s.sys.stage ∧ s.sys.stage ≤ 11) ∧
    (∃ (s : State) (k p : Nat) (c : PairCfg) (x : Pair), s.pairCfg? k = some c ∧ s.pair? k = some x ∧ s.openCause c x = some p ∧ x.open_ = false) ∧
    ∃ (s : State) (k : Nat) (c : PairCfg) (x : Pair), s.pairCfg? k = some c ∧ s.pair? k = some x ∧ s.openCause c x = none ∧ x.open_ :=
  let c : NetCfg := { ports := ports0, pairs := [ring0] }
  ⟨⟨netUp (secs 2) c { fabric0 with pairs := [{ pair := 0 }] }, 0, _, _, by rfl, by rfl, by rfl, by decide⟩,
   ⟨netUp (secs 4) c { fabric0 with pairs := [{ pair := 0, lifeFirst := 1 }] }, 0, 9, _, _, by rfl, by rfl, by decide⟩,
   netUp 0 c { fabric0 with pairs := [{ pair := 0, open_ := true }] }, 0, _, _, by rfl, by rfl, by decide⟩

/-- A device whose PTP has port 8 as its slave port, with the state `q`. -/
def ptpUp (n : Nat) (q : PtpState) : State :=
  netUp n { ports := ports0, ptp := { role := .bc } } fabric0
    { q with slavePort := 8, ports := [{ port := 8, ann := some { gmId := 1 } }, { port := 9, portState := 6 }] }

theorem wit_syncs : (∃ (s : State) (x : SyncIn), s.syncAccepted x = false) ∧
    (∃ (s : State) (x : SyncIn), s.syncAccepted x ∧ s.ptp.degraded = false ∧ s.ptp.timeKnown ∧ (s.measured x).mag ≤ (s.ptpCfg.stepLimit : Sys2Proof.Num)) ∧
    (∃ (s : State) (x : SyncIn), s.syncAccepted x ∧ s.ptp.degraded = false ∧ s.ptp.timeKnown ∧ (s.ptpCfg.stepLimit : Sys2Proof.Num) < (s.measured x).mag ∧
      s.ptp.candidate = none) ∧
    (∃ (s : State) (x : SyncIn), s.syncAccepted x ∧ s.ptp.degraded = false ∧ s.ptp.timeKnown = false) ∧
    (∃ (s : State) (x : SyncIn), s.syncAccepted x ∧ s.ptp.degraded = false ∧ (s.ptpCfg.stepLimit : Sys2Proof.Num) < (s.measured x).mag ∧
      s.ptp.candidate.isSome) ∧
    ∃ (s : State) (x : Slew), s.ptp.slew = some x ∧ s.passed x.start x.length :=
  let q : PtpState := { phase := .tracking, timeKnown := true }
  let x : SyncIn := { port := 8, origin := 0, corr := 0, tRx := 0, logSync := -7 }
  ⟨⟨up 0, x, by decide⟩, ⟨ptpUp 0 q, { x with tRx := 10000 }, by decide +kernel⟩, ⟨ptpUp 0 q, { x with tRx := 10001 }, by decide +kernel⟩,
   ⟨ptpUp 0 { q with timeKnown := false }, x, by decide +kernel⟩, ⟨ptpUp 0 { q with candidate := some 10001 }, { x with tRx := 10001 }, by decide +kernel⟩,
   ptpUp 50 { q with slew := some { start := 0, length := 50, offset := 1 } }, { start := 0, length := 50, offset := 1 }, by decide⟩

theorem wit_plant_time : (∃ s : State, s.ptp.locked ∧ s.ptpNear = false) ∧
    (∃ s : State, s.ptp.locked = false ∧ 8 ≤ s.ptp.lockRun ∧ s.ptpNear ∧ s.ptp.degraded = false) ∧
    (∃ (s : State) (e : FollowEntry), e ∈ s.ptp.follow ∧ s.passed e.at_ (secs 1)) ∧
    (∃ (s : State) (p : Nat) (q : PtpPort) (c : PortCfg), s.ptpPort? p = some q ∧ s.netCfg.port? p = some c ∧ s.ptpRuns p ∧ s.portUp p ∧
      s.ptp.phase ≠ .off ∧ s.passed q.pdelayAt (logNs s.ptpCfg.logPdelay)) ∧
    (∃ (s : State) (p k : Nat) (q : PtpPort), s.ptpPort? p = some q ∧ s.bcClass = some k ∧ s.ptpCfg.role = .bc ∧ q.portState = 6 ∧ s.portUp p ∧
      s.passed q.announceAt (secs 1) ∧ s.passed q.syncAt (logNs s.ptpCfg.logSync)) ∧
    (∃ s : State, s.ptp.phase = .tracking ∧ s.passed s.ptp.syncAt (3 * logNs s.ptp.logSync)) ∧
    ∃ s : State, s.ptp.phase = .holdover ∧ s.passed s.ptp.holdSince s.ptpCfg.holdoverMax :=
  let f : FollowEntry := { egress := 9, portId := 0, seq := 0, corr := 0, at_ := 0 }
  ⟨⟨ptpUp 1 { locked := true, eLast := 1000 }, by decide +kernel⟩, ⟨ptpUp 0 { lockRun := 8, eLast := 1000 }, by decide +kernel⟩,
   ⟨ptpUp (secs 1) { follow := [f] }, f, by decide⟩, ⟨ptpUp (secs 1) { phase := .listening }, 8, _, _, by rfl, by rfl, by decide +kernel⟩,
   ⟨ptpUp (secs 1) { phase := .tracking, gmClass := 6 }, 9, 6, _, by rfl, by decide +kernel⟩, ⟨ptpUp (secs 3) { phase := .tracking }, by decide +kernel⟩,
   ptpUp (secs 3600) { phase := .holdover }, by decide⟩

theorem takes (b : Bucket) (h : 1 ≤ b.tokens) : b.take = some { b with tokens := b.tokens - 1 } := if_pos h
theorem takes_none (b : Bucket) (h : ¬1 ≤ b.tokens) : b.take = none := if_neg h

/-- A subscription, a frame that agrees with it, and a device that holds it, with the state `g` and the intake open. -/
def sub0 : GooseSub := { sub := 3, dst := 9, appid := 1, gocbRef := "a", datSet := "d", confRev := 1, members := [{}] }
def goose0 : GooseFrame :=
  { dst := 9, appid := 1, gocbRef := "a", datSet := "d", confRev := 1, numEntries := 1, stNum := 5, sqNum := 0, tal := msec 4, values := [1] }
def gooseUp (n : Nat) (g : Gsub) : State := netUp n { gooseSubs := [sub0] } { intakeOpen := true, gsubs := [{ g with sub := 3 }] }

theorem wit_goose : (∃ (s : State) (f : GooseFrame) (c : GooseSub) (g : Gsub) (b : Bucket), s.net.intakeOpen ∧
      s.netCfg.gooseSubs.find? (fun c => c.dst == f.dst && c.appid == f.appid && c.gocbRef == f.gocbRef) = some c ∧ s.gsub? c.sub = some g ∧
      (g.bucket.refill s.now c.rate 32).take = some b ∧ c.agrees f ∧ (f.test → c.testAccept) ∧ (f.simulation → c.simAccept) ∧ newer f.stNum g.stNum) ∧
    (∃ (s : State) (f : GooseFrame) (c : GooseSub) (g : Gsub) (b : Bucket), s.net.intakeOpen ∧
      s.netCfg.gooseSubs.find? (fun c => c.dst == f.dst && c.appid == f.appid && c.gocbRef == f.gocbRef) = some c ∧ s.gsub? c.sub = some g ∧
      (g.bucket.refill s.now c.rate 32).take = some b ∧ c.agrees f ∧ (f.test → c.testAccept) ∧ (f.simulation → c.simAccept) ∧ g.anyNext = false ∧
      f.stNum = g.stNum ∧ newer f.sqNum g.sqNum) ∧
    (∃ (s : State) (f : GooseFrame) (c : GooseSub) (g : Gsub) (b : Bucket), s.net.intakeOpen ∧
      s.netCfg.gooseSubs.find? (fun c => c.dst == f.dst && c.appid == f.appid && c.gocbRef == f.gocbRef) = some c ∧ s.gsub? c.sub = some g ∧
      (g.bucket.refill s.now c.rate 32).take = some b ∧ c.agrees f = false) ∧
    (∃ (s : State) (f : GooseFrame) (c : GooseSub) (g : Gsub), s.net.intakeOpen ∧
      s.netCfg.gooseSubs.find? (fun c => c.dst == f.dst && c.appid == f.appid && c.gocbRef == f.gocbRef) = some c ∧ s.gsub? c.sub = some g ∧
      (g.bucket.refill s.now c.rate 32).take = none) ∧
    ∃ (s : State) (n : Nat) (g : Gsub), s.gsub? n = some g ∧ s.passedSince g.lastRx g.tal ∧ g.talExpired = false :=
  let g : Gsub := { sub := 3, anyNext := false, bucket := { tokens := 1 } }
  ⟨⟨gooseUp 0 { g with stNum := 4 }, goose0, sub0, _, _, by rfl, by decide, by rfl, takes _ (by decide +kernel), by decide⟩,
   ⟨gooseUp 0 { g with stNum := 5, sqNum := 0xFFFFFFFF }, goose0, sub0, _, _, by rfl, by decide, by rfl, takes _ (by decide +kernel), by decide⟩,
   ⟨gooseUp 0 g, { goose0 with confRev := 2 }, sub0, _, _, by rfl, by decide, by rfl, takes _ (by decide +kernel), by decide⟩,
   ⟨gooseUp 0 { g with bucket := {} }, goose0, sub0, _, by rfl, by decide, by rfl, takes_none _ (by decide +kernel)⟩,
   gooseUp (msec 4) { g with lastRx := some 0, tal := msec 4 }, 3, _, by rfl, by decide⟩

/-- A publisher of one field input. -/
def pub0 : GoosePub := { pub := 2, dst := 9, appid := 1, gocbRef := "a", datSet := "d", goId := "g", confRev := 1, members := [.input 0] }

theorem wit_publishers : (∃ (s : State) (n : Nat) (g : Gpub) (c : GoosePub), s.gpub? n = some g ∧ s.gpubCfg? n = some c ∧ g.nextAt.isSome ∧
      c.members.map s.pubValue ≠ g.values ∧ g.changeIdx ≠ some s.acq.fastIdx) ∧
    (∃ (s : State) (n a : Nat) (g : Gpub) (c : GoosePub), s.gpub? n = some g ∧ s.gpubCfg? n = some c ∧ g.nextAt = some a ∧ a ≤ s.now) ∧
    (∃ (s : State) (a : Ns), s.healthMay ∧ s.net.health.nextAt = some a ∧ s.healthValues ≠ s.net.health.values) ∧
    ∃ (s : State) (a : Ns), s.healthMay ∧ s.net.health.nextAt = some a ∧ s.healthValues = s.net.health.values ∧ a ≤ s.now :=
  let live (v : List Word) : State :=
    { netUp 0 {} { fabric0 with health := { pub := 64, nextAt := some 0, values := v } } with sys := { held := false, stage := 11, live := true } }
  ⟨⟨netUp 0 { goosePubs := [pub0] } { gpubs := [{ pub := 2, nextAt := some 5 }] }, 2, _, _, by rfl, by rfl, by decide⟩,
   ⟨netUp 5 { goosePubs := [pub0] } { gpubs := [{ pub := 2, nextAt := some 5 }] }, 2, 5, _, _, by rfl, by rfl, by rfl, by decide⟩,
   ⟨live [], 0, by decide, by rfl, by simp [State.healthValues, live, netUp, up]⟩, live (live []).healthValues, 0, by decide, by rfl, by rfl, by decide⟩

/-- A PHASOR stream of one channel, two ASDUs a frame, and a device that subscribes to it. -/
def svSub0 : SvSub := { sub := 1, dst := 9, appid := 2, svId := "v", confRev := 1, rate := .phasor, channels := [7] }
def sv0 : SvFrame :=
  { dst := 9, appid := 2, svId := "v", confRev := 1, noAsdu := 2
    asdus := [{ smpCnt := 4799, smpSynch := 2, samples := [{ value := 1 }] }, { smpCnt := 0, smpSynch := 1, samples := [{ value := 2 }] }] }
def svUp (n : Nat) (x : Svsub) : State := netUp n { svSubs := [svSub0] } { intakeOpen := true, svsubs := [{ x with sub := 1 }] }

theorem wit_streams : (∃ (s : State) (f : SvFrame) (a : Asdu) (c : SvSub) (x : Svsub) (b : Bucket), s.net.intakeOpen ∧
      s.netCfg.svSubs.find? (fun c => c.dst == f.dst && c.appid == f.appid && c.svId == f.svId) = some c ∧ s.svsub? c.sub = some x ∧
      (x.bucket.refill s.now 2448 16).take = some b ∧ f.confRev = c.confRev ∧ f.noAsdu = c.noAsdu ∧ f.asdus.length = c.noAsdu ∧
      f.asdus.getLast? = some a ∧ (∀ y ∈ f.asdus, y.samples.length = c.channels.length) ∧ (f.test → c.testAccept) ∧ (f.simulation → c.simAccept) ∧
      (f.asdus.map (·.smpCnt)).Nodup ∧ ∀ u ∈ f.asdus, x.seen.any (fun y => y.1 == u.smpCnt && decide (s.now < y.2 + secs 1)) = false) ∧
    (∃ (s : State) (f : SvFrame) (c : SvSub) (x : Svsub) (b : Bucket), s.net.intakeOpen ∧
      s.netCfg.svSubs.find? (fun c => c.dst == f.dst && c.appid == f.appid && c.svId == f.svId) = some c ∧ s.svsub? c.sub = some x ∧
      (x.bucket.refill s.now 2448 16).take = some b ∧ f.confRev ≠ c.confRev) ∧
    ∃ (s : State) (n : Nat) (x : Svsub), s.svsub? n = some x ∧ x.phase = .receiving ∧ s.passedSince x.lastRx (msec 10) :=
  ⟨⟨svUp (secs 1) { sub := 1, bucket := { tokens := 16, at_ := secs 1 }, seen := [(0, 0)] }, sv0, _, svSub0, _, _, by rfl, by decide, by rfl, takes _ (by decide +kernel),
    by decide, by decide, by decide, by rfl, by decide⟩,
   ⟨svUp 0 { sub := 1, bucket := { tokens := 16 } }, { sv0 with confRev := 2 }, svSub0, _, _, by rfl, by decide, by rfl, takes _ (by decide +kernel), by decide⟩,
   svUp (msec 10) { sub := 1, phase := .receiving, lastRx := some 0 }, 1, _, by rfl, by decide⟩

theorem wit_check_engines : (∃ (s : State) (n : Nat) (x : ChkEngine), n < 8 ∧ s.chk.engines[n]? = some x ∧ x.busy = false ∧ x.len.toNat ≠ 0 ∧ x.len.toNat ≤ 2 ^ 30) ∧
    (∃ (s : State) (n : Nat) (x : ChkEngine), n < 8 ∧ s.chk.engines[n]? = some x ∧ x.busy = false ∧ (x.len.toNat = 0 ∨ 2 ^ 30 < x.len.toNat)) ∧
    (∃ (s : State) (n : Nat) (x : ChkEngine), n < 8 ∧ s.chk.engines[n]? = some x ∧ x.busy) ∧
    (∃ (s : State) (n : Nat) (l : List (BitVec 8)) (x : ChkEngine), s.chk.engines[n]? = some x ∧ x.busy ∧ x.fromCapture = false ∧ x.len.toNat ≤ l.length) ∧
    (∃ (s : State) (n : Nat) (e : ChkErr) (x : ChkEngine), s.chk.engines[n]? = some x ∧ x.busy ∧ x.outside = false ∧ e ≠ .none) ∧
    ∃ s : State, s.sys.held = false ∧ s.passed s.chk.katAt (secs 1) :=
  let e (x : ChkEngine) : State := { up (secs 1) with chk := { engines := List.replicate 7 {} ++ [x] } }
  ⟨⟨e { len := 0x40000000 }, 7, _, by decide, by rfl, by decide +kernel⟩, ⟨e { len := 0x40000001 }, 7, _, by decide, by rfl, by decide +kernel⟩,
   ⟨e { busy := true }, 7, _, by decide, by rfl, by decide⟩, ⟨e { busy := true, len := 1 }, 7, [0xA5], _, by rfl, by decide⟩,
   ⟨e { busy := true }, 7, .poisoned, _, by rfl, by decide⟩, e {}, by decide⟩

/-- A device whose host port has ring 0 as given and source 0 with one token. -/
def ringUp (x : CmdRing) (f : HostState → HostState := id) : State :=
  { up 0 with host := f { ready := true, linkUp := true, rings := x :: List.replicate 15 {}, sources := { tokens := 1 } :: List.replicate 17 {} } }

/-- A query of a SYS register. -/
def query0 : Entry := { cmd := some (.query 0) }

theorem wit_rings : (∃ (s : State) (r i k : Nat) (v : Word) (x : CmdRing), s.ring r = x ∧ x.enable ∧ x.error = false ∧ i = (v.extractLsb' 0 12).toNat ∧
      i < x.entries ∧ k = (i + x.entries - x.producer) % x.entries ∧ x.unfetched + k ≤ x.entries) ∧
    (∃ (s : State) (r : Nat) (v : Word) (x : CmdRing), s.ring r = x ∧ x.enable ∧ x.error = false ∧ x.entries ≤ (v.extractLsb' 0 12).toNat) ∧
    (∃ (s : State) (r i d : Nat) (v : Word) (x : CmdRing), s.ring r = x ∧ x.enable ∧ x.error = false ∧ i = (v.extractLsb' 0 12).toNat ∧ i < x.entries ∧
      d = (i + x.entries - x.consumer) % x.entries ∧ d ≠ 0 ∧ d ≤ x.filled) ∧
    (∃ (s : State) (r : Nat) (v : Word) (x : CmdRing), r < s.host.rings.length ∧ s.ring r = x ∧ v.getLsbD 0 ∧ x.enable = false) ∧
    (∃ (s : State) (r : Nat) (v : Word) (x : CmdRing), r < s.host.rings.length ∧ s.ring r = x ∧ v.getLsbD 0 = false ∧ x.enable) ∧
    (∃ s : State, s.sys.held = false) ∧ (∃ s : State, s.host.linkUp) ∧
    (∃ (s : State) (x : FrDbIn), s.host.frTx = false ∧ s.host.frRx ∧ (x.v.extractLsb' 16 12).toNat < 2 ^ (s.host.frRxSize + 4)) ∧
    ∃ (s : State) (x : FrDbIn) (i n k : Nat), s.host.frTx ∧ s.host.frRx = false ∧ i = (x.v.extractLsb' 0 12).toNat ∧ n = 2 ^ (s.host.frTxSize + 4) ∧ i < n ∧
      k = (i + n - s.host.frTxProd % n) % n ∧ 0 < k :=
  ⟨⟨ringUp { enable := true, producer := 14 }, 0, 15, 1, 15, _, by rfl, by decide⟩, ⟨ringUp { enable := true }, 0, 16, _, by rfl, by decide⟩,
   ⟨ringUp { enable := true, consumer := 15, filled := 1 }, 0, 0, 1, 0, _, by rfl, by decide⟩, ⟨ringUp {}, 15, 1, _, by decide, by rfl, by decide⟩,
   ⟨ringUp { enable := true }, 0, 0, _, by decide, by rfl, by decide⟩, ⟨up 0, by rfl⟩, ⟨ringUp {}, by rfl⟩,
   ⟨ringUp {} fun h => { h with frRx := true }, { v := 0xF0000 }, by decide⟩,
   ringUp {} fun h => { h with frTx := true }, { v := 15 }, 15, 16, 15, by decide⟩

theorem wit_arrivals : (∃ (s : State) (r : Nat), 16 ≤ r ∨ (s.ring r).enable = false ∨ (s.ring r).waiting = 0) ∧
    (∃ (s u : State) (r : Nat) (e : Entry) (v : Verdict), r < 16 ∧ (s.ring r).enable ∧ (s.ring r).waiting ≠ 0 ∧ s.host.linkUp ∧ s.sys.lastwords = false ∧
      u = (s.onRing r fun x => { x with waiting := x.waiting - 1 }) ∧ u.elsewhere e = false ∧ u.admission r e (e.deadlineNs false) = some v) ∧
    (∃ (s u : State) (r b : Nat) (res : Bool) (e : Entry), r < 16 ∧ (s.ring r).enable ∧ (s.ring r).waiting ≠ 0 ∧
      u = (s.onRing r fun x => { x with waiting := x.waiting - 1 }) ∧ u.elsewhere e = false ∧ u.admission r e (e.deadlineNs false) = none ∧
      s.host.freeBerth r = some (b, res) ∧ r < s.host.sources.length) ∧
    ∃ (s u : State) (r : Nat) (e : Entry), r < 16 ∧ (s.ring r).enable ∧ (s.ring r).waiting ≠ 0 ∧
      u = (s.onRing r fun x => { x with waiting := x.waiting - 1 }) ∧ u.elsewhere e ∧ u.forwardTest r e = none :=
  let x : CmdRing := { enable := true, waiting := 1, reserved := 1 }
  ⟨⟨up 0, 16, by decide⟩, ⟨ringUp x, _, 0, { cmd := none }, _, by decide, by decide, by decide, by decide, by decide, by rfl, by decide, by rfl⟩,
   ⟨ringUp x, _, 0, 0, true, query0, by decide, by decide, by decide, by rfl, by decide, by decide +kernel⟩,
   ⟨{ ringUp x with adeid := { nodes := [0, 1], states := [{}, { reachP := true }] } }, _, 0, { query0 with node := 1 }, by decide, by decide, by decide, by rfl,
    by decide, by decide +kernel⟩⟩

/-- The state with an item in berth 0, changed by `f`. -/
def withItem (it : Item) (s : State) (f : HostState → HostState := id) : State :=
  s.onHost fun h => f { h with berths := h.berths.set 0 (some it) }

theorem wit_berth_stages : (∃ (s : State) (b : Nat) (it : Item), s.item b = some it ∧ it.stage = .bulk ∧ s.host.qBulk.head? = some b) ∧
    (∃ (s : State) (b : Nat) (ok : Bool) (it : Item), s.item b = some it ∧ it.stage = .sig ∧ s.host.qSig.head? = some b ∧ s.sigPasses it.entry ok ∧
      it.entry.keySlot < s.sec.keys.length) ∧
    (∃ (s : State) (b : Nat) (ok : Bool) (it : Item), s.item b = some it ∧ it.stage = .sig ∧ s.host.qSig.head? = some b ∧ s.sigPasses it.entry ok = false) ∧
    (∃ (s : State) (b : Nat) (it : Item) (e : Ending), s.item b = some it ∧ it.ending = some e ∧ it.reqId = none ∧ s.host.linkUp ∧
      (s.ring it.src).enable ∧ s.sys.lastwords = false) ∧
    (∃ (s : State) (b : Nat) (it : Item) (e : Ending), s.item b = some it ∧ it.ending = some e ∧ it.reqId = none ∧
      (s.host.linkUp = false ∨ (s.ring it.src).enable = false ∨ s.sys.lastwords)) ∧
    ∃ (s u : State) (b off : Nat) (it : Item), s.ctlCmd b = some (.query off) ∧ s.item b = some it ∧ it.reqId = none ∧ s.blkStopped (blkAt off) = false ∧
      s.blkRealigns (blkAt off) = false ∧ s.host.linkUp ∧ (s.ring it.src).enable ∧ s.sys.lastwords = false ∧ s.clk.degraded = false ∧ u = s.leaveCtl b :=
  let it : Item := { src := 0, entry := query0, tAdmit := 0, due := 1000 }
  let q (s : State) : State := { s with sec := { keys := List.replicate 8 { present := true, role := .operator } } }
  let signed : Item := { it with stage := .sig, entry := { cmd := some (.fioSet 3 true), signed := true, nonce := 1 } }
  ⟨⟨withItem { it with stage := .bulk } (up 0) fun h => { h with qBulk := [0] }, 0, _, by rfl, by decide⟩,
   ⟨q (withItem signed (up 0) fun h => { h with qSig := [0] }), 0, true, _, by rfl, by decide +kernel⟩,
   ⟨q (withItem signed (up 0) fun h => { h with qSig := [0] }), 0, false, _, by rfl, by decide +kernel⟩,
   ⟨withItem { it with ending := some { status := .done } } (ringUp { enable := true }), 0, _, _, by rfl, by rfl, by decide⟩,
   ⟨withItem { it with ending := some { status := .done } } (up 0), 0, _, _, by rfl, by rfl, by decide⟩,
   withItem it (ringUp { enable := true }) fun h => { h with qCtl := [0] }, _, 0, 0, _, by decide, by rfl, by decide, by decide, by decide, by decide, by decide,
    by decide, by decide, by rfl⟩

theorem wit_remote : (∃ (s : State) (q : Word) (f : Forward), s.host.forwards.find? (·.reqId == q) = some f ∧ f.due ≤ s.now ∧ s.host.linkUp ∧
      (s.ring f.ring).enable ∧ s.sys.lastwords = false) ∧
    (∃ x : Bar4In, 268435456 ≤ x.offset) ∧
    (∃ (s : State) (x : Bar4In) (n : Nat), x.offset < 268435456 ∧ n = x.offset / 4194304 ∧ (s.harbour = false ∨ s.host.winBar4 = false ∨ s.clusterSize ≤ n)) ∧
    (∃ (s : State) (o n : Nat) (w : Option Word), o < 268435456 ∧ n = o / 4194304 ∧ n ≠ 0 ∧ n < s.clusterSize ∧ s.harbour ∧ s.host.winBar4 ∧
      (w.isSome → s.host.winBar4Wr) ∧ s.nodeReach n ∧ s.host.regs.length < 32) ∧
    (∃ (s : State) (x : Bar4In) (n : Nat), x.offset < 268435456 ∧ n = x.offset / 4194304 ∧ n ≠ 0 ∧ n < s.clusterSize ∧ s.harbour ∧ s.host.winBar4 ∧
      (x.write.isSome → s.host.winBar4Wr) ∧ s.nodeReach n ∧ 32 ≤ s.host.regs.length) ∧
    (∃ (s : State) (q : Word) (x : RegWait), s.host.regs.find? (·.reqId == q) = some x ∧ s.passed x.sentAt (usec 100)) ∧
    (∃ (s : State) (x : RegIn), s.regOpen (x.offset % 4194304) x.write.isSome = false) ∧
    (∃ (s : State) (x : RegIn) (v : Verdict), s.regOpen (x.offset % 4194304) x.write.isSome ∧ s.rateTest 17 = some v) ∧
    ∃ (s u : State) (o : Nat), s.regOpen (o % 4194304) false ∧ s.rateTest 17 = none ∧ u = s.spendToken 17 ∧ u.blkStopped (blkAt (o % 4194304)) = false ∧
      u.blkRealigns (blkAt (o % 4194304)) = false :=
  let w : RegWait := { reqId := 7, node := 1, offset := 0, sentAt := 0 }
  let c (l : List RegWait) : State :=
    { ringUp {} (fun h => { h with winBar4 := true, regs := l }) with adeid := { nodes := [0, 1], states := [{}, { reachP := true }] } }
  ⟨⟨ringUp { enable := true } fun h => { h with forwards := [{ reqId := 7, ring := 0, entry := query0, tAdmit := 0, due := 0 }] }, 7, _, by rfl, by decide⟩,
   ⟨{ offset := 268435456 }, by decide⟩, ⟨up 0, { offset := 268435455 }, 63, by decide +kernel⟩, ⟨c [], 8388607, 1, none, by decide +kernel⟩,
   ⟨c (List.replicate 32 w), { offset := 4194304 }, 1, by decide +kernel⟩, ⟨{ c [w] with now := usec 100 }, 7, w, by decide⟩,
   ⟨up 0, { src := 1, reqId := 0, offset := 0x80000 }, by decide⟩,
   ⟨up 0, { src := 1, reqId := 0, offset := 0 }, { reason := .rate }, by decide +kernel⟩,
   ringUp {} fun h => { h with sources := List.replicate 17 {} ++ [{ tokens := 1 }] }, _, 0, by decide, by decide +kernel, by rfl, by decide, by decide⟩

theorem wit_registers : (∃ (s : State) (b : Blk), s.itemCreated b (eventAt b) ∧ s.bar0Blocked (blkBase b + eventAt b) true = none ∧
      s.wayOpen (blkBase b + eventAt b)) ∧
    (∃ s : State, s.bar0Blocked (blkBase .host + 0x20) true = none) ∧
    (∃ (s : State) (o : Nat) (b : Blk), o < 4194304 ∧ b = blkAt (o / 4 * 4) ∧
      b ∈ [.sys, .clk, .diff, .form, .gate, .logic, .capt, .net, .ptp, .adeid, .sec, .diag] ∧ o / 4 * 4 ≠ blkBase b + eventAt b ∧
      s.itemCreated b (o / 4 * 4 - blkBase b) ∧ s.bar0Blocked (o / 4 * 4) true = none ∧ s.wayOpen (o / 4 * 4)) ∧
    (∃ (s : State) (o : Nat) (b : Blk), o < 4194304 ∧ b = blkAt (o / 4 * 4) ∧ s.itemCreated b (o / 4 * 4 - blkBase b) = false ∧
      s.bar0Blocked (o / 4 * 4) true = none ∧ s.wayOpen (o / 4 * 4)) ∧
    (∃ (s : State) (who : Requester) (o p : Nat) (b : Blk), o < 4194304 ∧ o % 4 = 0 ∧ b = blkAt o ∧ s.bar0Blocked o false = none ∧
      s.oldestSnapped who b (o - blkBase b) = false ∧ snapLow b (o - blkBase b) = false ∧ p ∈ snapGroup b (o - blkBase b)) ∧
    (∃ (s : State) (o : Nat) (b : Blk), o < 4194304 ∧ o % 4 = 0 ∧ b = blkAt o ∧ s.bar0Blocked o false = none ∧ snapLow b (o - blkBase b) ∧
      s.itemCreated b (o - blkBase b)) ∧
    (∃ (s : State) (n : Nat), n < 1024 ∧ s.bar0Blocked (0x8000 + 0x20 * n) false = none) ∧
    (∃ s : State, s.bar0Blocked (blkBase .host + 0x14) false = none) ∧ ∃ o : Nat, 4194304 ≤ o :=
  ⟨⟨up 0, .diag, by decide +kernel⟩, ⟨up 0, by decide +kernel⟩, ⟨up 0, 0x3FFFFF, .diag, by decide +kernel⟩, ⟨up 0, 0x80007, .prot, by decide +kernel⟩,
   ⟨up 0, .reader 0, 4, 0x14, .sys, by decide +kernel⟩, ⟨up 0, 0x14, .sys, by decide +kernel⟩, ⟨up 0, 1023, by decide +kernel⟩, ⟨up 0, by decide +kernel⟩,
   4194304, by decide⟩

/-- A device whose crossing into the domain of DIAG's last register holds a value, and its shadow that of `w`. -/
def crossUp (w : Option (Nat × Word)) : State :=
  { up 0 with
    clk := { inReset := List.replicate 8 false
             xings := [{ id := Config.xingId 3 0x3FFFFC % 65536, domain := 0, held := some (0, 0), shadow := w }] } }

theorem crossing_holds (w : Option (Nat × Word)) :
    (crossUp w).regXing 3 0x3FFFFC = { id := Config.xingId 3 0x3FFFFC % 65536, domain := 0, held := some (0, 0), shadow := w } := by
  simp [State.regXing, ClkState.xing, crossUp]

theorem wit_shadow : (∃ (s : State) (o p : Nat) (x : Xing), o < 4194304 ∧ p = o / 4 * 4 ∧ s.bar0Blocked p true = none ∧ blkDomain (blkAt p) ≠ 3 ∧
      s.regXing 3 p = x ∧ x.held.isSome ∧ x.shadow = none) ∧
    ∃ (s : State) (o p : Nat) (x : Xing), o < 4194304 ∧ p = o / 4 * 4 ∧ s.bar0Blocked p true = none ∧ blkDomain (blkAt p) ≠ 3 ∧
      s.regXing 3 p = x ∧ x.held.isSome ∧ x.shadow.isSome :=
  ⟨⟨crossUp none, 0x3FFFFC, 0x3FFFFC, _, by decide, by decide, by rfl, by decide, crossing_holds _, rfl, rfl⟩,
   crossUp (some (0, 1)), 0x3FFFFC, 0x3FFFFC, _, by decide, by decide, by rfl, by decide, crossing_holds _, rfl, rfl⟩

theorem wit_inside_reads : (∃ (s : State) (who : Requester) (o : Nat), o < 4194304 ∧ who ≠ .host ∧ s.blkStopped (servingBlk (o / 4 * 4))) ∧
    ∃ (s : State) (who : Requester) (o : Nat), o < 4194304 ∧ who ≠ .host ∧ s.blkStopped (servingBlk (o / 4 * 4)) = false ∧
      s.blkRealigns (servingBlk (o / 4 * 4)) :=
  ⟨⟨clkAt 0 {}, .reader 1, 0x3FFFFC, by decide +kernel⟩,
   clkAt 0 { inReset := List.replicate 8 false, xings := [{ id := 0, domain := 0, partnerReset := true }] }, .reader 1, 0x3FFFFC, by decide +kernel⟩

theorem wit_inside_writes : (∃ (s : State) (o d : Nat), o < 4194304 ∧ blkDomain (blkAt (o / 4 * 4)) ≠ d ∧ s.blkRealigns (blkAt (o / 4 * 4))) ∧
    ∃ (s : State) (o : Nat) (b : Blk), o < 4194304 ∧ b = blkAt (o / 4 * 4) ∧ b ∈ ([.sys, .clk] : List Blk) ∧ o / 4 * 4 ≠ blkBase b + eventAt b ∧
      s.itemCreated b (o / 4 * 4 - blkBase b) :=
  ⟨⟨clkAt 0 { inReset := List.replicate 8 false, xings := [{ id := 0, domain := blkDomain .sys, partnerReset := true }] }, 0, 9, by decide +kernel⟩,
   up 0, 0, .sys, by decide +kernel⟩

/-- Node 0 of a cluster of three with its doors open, link 0 as given and link 1 up, at local time `n`. -/
def ringNode (n : Nat) (l : AdeidLink) (f : AdeidState → AdeidState := id) : State :=
  { up n with adeid := f { nodes := [5, 6, 7], links := [l, { phase := .up }, {}, {}], states := [{}, {}, {}], doors := List.replicate 6 { open_ := true } } }

theorem wit_links : (∃ (s : State) (x : AdeidLinkIn), x.q < s.adeid.links.length ∧ (s.link x.q).phase ≠ .down ∧ x.lock = false) ∧
    (∃ (s : State) (x : AdeidLinkIn), x.q < s.adeid.links.length ∧ (s.link x.q).phase = .up ∧ s.passed (s.link x.q).lastLink 4000) ∧
    (∃ (s : State) (x : AdeidLinkIn), x.q < s.adeid.links.length ∧ x.lock ∧ s.lanesOpen x.q ∧ (s.link x.q).phase = .down) ∧
    (∃ (s : State) (x : AdeidLinkIn), x.q < s.adeid.links.length ∧ x.lock ∧ s.lanesOpen x.q ∧ (s.link x.q).phase = .training ∧
      3 ≤ (s.link x.q).valid ∧ s.linkBehind x.q = false) ∧
    (∃ (s : State) (x : AdeidLinkIn), x.q < s.adeid.links.length ∧ x.lock ∧ s.lanesOpen x.q ∧ (s.link x.q).phase = .training ∧
      3 ≤ (s.link x.q).valid ∧ s.linkBehind x.q) ∧
    (∃ (s : State) (q : Nat), q < s.adeid.links.length ∧ s.lanesOpen q ∧ (s.link q).phase ≠ .down ∧ s.passed (s.link q).linkAt 500) ∧
    (∃ s : State, s.clustered ∧ s.passed s.adeid.topoAt (msec 1) ∧ s.linkUp 0) ∧
    (∃ (s : State) (n : Nat) (secondary : Bool), s.clustered ∧ s.heard n secondary = false ∧ n < s.clusterSize ∧ n < s.adeid.states.length) ∧
    ∃ (s : State) (x y : SeenReq), x ∈ s.adeid.seen ∧ s.now < x.at_ + msec 1 ∧ y ∈ s.adeid.seen ∧ ¬s.now < y.at_ + msec 1 :=
  let a : SeenReq := { src := 1, cls := .cmd, id := 3, at_ := 1 }
  let b : SeenReq := { src := 1, cls := .cmd, id := 3, at_ := 0 }
  ⟨⟨ringNode 0 { phase := .up }, { q := 0, lock := false }, by decide⟩, ⟨ringNode 4000 { phase := .up }, { q := 0, lock := true }, by decide⟩,
   ⟨ringNode 0 {}, { q := 0, lock := true }, by decide⟩, ⟨ringNode 0 { phase := .training, valid := 3, neighbour := 2 }, { q := 0, lock := true }, by decide⟩,
   ⟨ringNode 0 { phase := .training, valid := 3, neighbour := 0 }, { q := 0, lock := true }, by decide⟩, ⟨ringNode 500 { phase := .training }, 0, by decide⟩,
   ⟨ringNode (msec 1) { phase := .up }, by decide⟩,
   ⟨ringNode (msec 3) {} fun x => { x with states := [{}, { beatS := some 0 }, {}] }, 1, true, by decide⟩,
   ringNode (msec 1) {} fun x => { x with seen := [a, b] }, a, b, by decide⟩

theorem wit_frames : (∃ (s : State) (x : AdeidIn), s.lanesOpen x.q = false) ∧
    (∃ (s : State) (x : AdeidIn), x.q < s.adeid.links.length ∧ s.lanesOpen x.q ∧ (s.link x.q).phase ≠ .down ∧ x.frame.checkOk = false ∧
      2 < s.chk.pathFail.length ∧ (s.link x.q).phase ≠ .up) ∧
    (∃ (s : State) (x : AdeidIn), s.lanesOpen x.q ∧ s.linkUp x.q ∧ x.frame.checkOk ∧ x.frame.payload = none) ∧
    (∃ (s : State) (x : AdeidIn) (n d : Nat) (l : List (BitVec 16)), x.q < s.adeid.links.length ∧ s.lanesOpen x.q ∧
      (s.link x.q).phase = .training ∧ x.frame.checkOk ∧ x.frame.payload = some (.link n d l) ∧ s.linkValid n d) ∧
    (∃ (s : State) (x : AdeidIn) (n d : Nat) (l : List (BitVec 16)), x.q < s.adeid.links.length ∧ s.lanesOpen x.q ∧
      (s.link x.q).phase = .training ∧ x.frame.checkOk ∧ x.frame.payload = some (.link n d l) ∧ s.linkValid n d = false) ∧
    (∃ (s : State) (x : AdeidIn) (p : AdeidPayload), x.q < s.adeid.links.length ∧ s.lanesOpen x.q ∧ s.linkUp x.q ∧ x.frame.checkOk ∧
      x.frame.payload = some p ∧ x.frame.alive < 16 ∧ (nth (s.link x.q).aliveRx p.cls.num {}).last = some x.frame.alive ∧
      p.cls.num < (s.link x.q).aliveRx.length) ∧
    (∃ (s : State) (x : AdeidIn) (p : AdeidPayload), s.adeid.links.length = 4 ∧ x.q < 4 ∧ s.lanesOpen x.q ∧ s.linkUp x.q ∧ x.frame.checkOk ∧
      x.frame.payload = some p ∧ p.cls ≠ .link ∧ p.cls ≠ .sum ∧ ((nth (s.link x.q).aliveRx p.cls.num {}).test 4 7 true x.frame.alive).1.accepted ∧
      x.frame.bcast = false ∧ x.frame.dst ≠ s.adeid.node ∧ x.frame.hops < 255 ∧ s.linkUp (otherLink x.q)) ∧
    (∃ (s : State) (x : AdeidIn) (p : AdeidPayload), s.adeid.links.length = 4 ∧ x.q < 4 ∧ s.lanesOpen x.q ∧ s.linkUp x.q ∧ x.frame.checkOk ∧
      x.frame.payload = some p ∧ p.cls ≠ .link ∧ p.cls ≠ .sum ∧ ((nth (s.link x.q).aliveRx p.cls.num {}).test 4 7 true x.frame.alive).1.accepted ∧
      x.frame.bcast = false ∧ x.frame.dst ≠ s.adeid.node ∧ x.frame.hops < 255 ∧ s.linkUp (otherLink x.q) = false ∧ x.frame.wraps < 2) ∧
    (∃ (s : State) (x : AdeidIn) (p : AdeidPayload) (id : Word × Nat), x.q < s.adeid.links.length ∧ s.lanesOpen x.q ∧ s.linkUp x.q ∧
      x.frame.checkOk ∧ x.frame.payload = some p ∧ p.reqId = some id ∧
      ((nth (s.link x.q).aliveRx p.cls.num {}).test 4 7 true x.frame.alive).1.accepted ∧ x.frame.bcast = false ∧ x.frame.dst = s.adeid.node ∧
      s.adeidSeen x.frame.src p.cls id) ∧
    ∃ (s : State) (x : AdeidIn) (n : Nat) (l : List Bool), s.adeid.links.length = 4 ∧ x.q < 4 ∧ s.lanesOpen x.q ∧ s.linkUp x.q ∧ x.frame.checkOk ∧
      x.frame.payload = some (.topo n l) ∧ ((nth (s.link x.q).aliveRx AdeidClass.topo.num {}).test 4 7 true x.frame.alive).1.accepted ∧
      x.frame.bcast ∧ x.frame.src ≠ s.adeid.node ∧ x.frame.src < s.adeid.states.length :=
  let u : AdeidLink := { phase := .up }
  let p : AdeidPayload := .reg 3 0 none
  let f : AdeidFrame := { alive := 15, src := 1, dst := 2, hops := 254, payload := some p }
  ⟨⟨up 0, { q := 0, frame := f }, by decide⟩, ⟨ringNode 0 { phase := .training }, { q := 0, frame := { f with checkOk := false } }, by decide⟩,
   ⟨ringNode 0 u, { q := 0, frame := { f with payload := none } }, by decide⟩,
   ⟨ringNode 0 { phase := .training }, { q := 0, frame := { f with payload := some (.link 2 7 []) } }, 2, 7, [], by decide⟩,
   ⟨ringNode 0 { phase := .training }, { q := 0, frame := { f with payload := some (.link 3 7 []) } }, 3, 7, [], by decide⟩,
   ⟨ringNode 0 { u with aliveRx := List.replicate 7 { last := some 15 } }, { q := 0, frame := f }, p, by decide⟩,
   ⟨ringNode 0 { u with aliveRx := List.replicate 7 { last := some 8 } }, { q := 0, frame := f }, p, by decide⟩,
   ⟨ringNode 0 u fun x => { x with links := [u, {}, {}, {}] }, { q := 0, frame := { f with wraps := 1 } }, p, by decide⟩,
   ⟨ringNode 0 u fun x => { x with seen := [{ src := 1, cls := .reg, id := 3, at_ := 0 }] }, { q := 0, frame := { f with dst := 0 } }, p, (3, 0), by decide⟩,
   ringNode 0 u, { q := 0, frame := { f with bcast := true, payload := some (.topo 0 []) } }, 0, [], by decide⟩

theorem wit_doors : (∃ s : State, nth s.clk.stopped 0 false = false ∧ s.sys.held = false ∧ s.sys.lastwords = false ∧ s.passed s.adeid.holdRenewed 100000 ∧
      s.adeid.holdLapsed = false) ∧
    (∃ (s : State) (i d : Nat), nth s.clk.stopped 0 false = false ∧ s.sys.held = false ∧ s.sys.lastwords = false ∧ s.passed s.adeid.holdRenewed 100000 ∧
      s.adeid.holdLapsed ∧ 8 ≤ s.sys.stage ∧ s.sys.stage ≤ 11 ∧ s.adeid.doors.length = 6 ∧ s.doorsWanted[i]? = some d) ∧
    (∃ s : State, s.adeid.holdLapsed = false ∧ s.passed s.adeid.holdRenewed (msec 1) ∧ s.adeid.doors.any (·.open_) ∧ s.adeid.doors.length = 6) ∧
    (∃ (s : State) (d : Nat) (a : Ns), d < s.adeid.doors.length ∧ (s.door d).openAt = some a ∧ a ≤ s.now ∧ (s.door d).open_ = false ∧
      (s.door d).cmdClosed = false ∧ s.doorBarred d = false) ∧
    (∃ (s : State) (d : Nat) (a : Ns), d < s.adeid.doors.length ∧ (s.door d).openAt = some a ∧ a ≤ s.now ∧ (s.door d).open_ = false ∧ s.doorBarred d) ∧
    (∃ (s : State) (b d : Nat), s.ctlCmd b = some (.doorClose d) ∧ d < s.adeid.doors.length ∧ s.refuseClose d = none ∧ (s.door d).open_) ∧
    (∃ (s : State) (b d : Nat), s.ctlCmd b = some (.doorClose d) ∧ d < s.adeid.doors.length ∧ s.harbour ∧ d < 2) ∧
    (∃ (s : State) (b d : Nat), s.ctlCmd b = some (.doorOpen d) ∧ d < s.adeid.doors.length ∧ s.refuseOpen d = none ∧ (s.door d).open_ = false) ∧
    ∃ (s : State) (b d : Nat), s.ctlCmd b = some (.doorOpen d) ∧ d < s.adeid.doors.length ∧ s.doorBarred d :=
  let live (s : State) : State := { s with sec := { live := true } }
  let shut (n : Nat) (d : Door) : State := live (ringNode n {} fun x => { x with doors := List.replicate 6 d })
  ⟨⟨ringNode 100000 {}, by decide⟩, ⟨live (ringNode 100000 {} fun x => { x with holdLapsed := true }), 1, 1, by decide⟩,
   ⟨ringNode (msec 1) {}, by decide⟩, ⟨shut 7 { openAt := some 7 }, 0, 7, by decide⟩, ⟨shut 7 { openAt := some 7 }, 2, 7, by decide⟩,
   ⟨withCmd (.doorClose 2) (ringNode 0 {}), 0, 2, by decide +kernel⟩, ⟨withCmd (.doorClose 1) (ringNode 0 {}), 0, 1, by decide +kernel⟩,
   ⟨withCmd (.doorOpen 0) (shut 0 { cmdClosed := true }), 0, 0, by decide +kernel⟩, withCmd (.doorOpen 5) (shut 0 {}), 0, 5, by decide +kernel⟩

/-- A device with the SEC state given, at local time `n`. -/
def secUp (n : Nat) (x : SecState) : State := { up n with sec := x }

/-- A certificate under the root 1, and an image that its key has signed. -/
def cert0 : KeyCert := { slot := 3, role := .operator, key := 7, systemId := Config.sha512id 1, root := 1 }
def imageBase : Image :=
  { systemId := Config.sha512id 1, sigs := [{ slot := 0, role := .engineer, cover := 0xFFE, key := 9 }], rollback := 2, flags := 1, totalLen := 448
    sects := { id := 1, offset := 320, length := 64 } :: ((List.range 10).map fun i => { id := i + 2 }) ++ [{ id := 12, offset := 384, length := 64 }] }
def image0 : Image := { imageBase with hdrCrc := imageCrc imageBase }
def sec0 : SecState := { root := some 1, keys := { present := true, key := 9 } :: List.replicate 7 {} }

theorem certifies : sec0.certOk cert0 = true := by
  have h : (sec0.keys.zipIdx.all fun k => k.2 == cert0.slot || !k.1.present || k.1.key != cert0.key) = true := by decide +kernel
  simp only [SecState.certOk, h, Bool.and_true]
  simp [sec0, cert0]

/-- The image passes the tests of R531 with the root, the keys and the device number of `sec0`. -/
theorem image_passes (x : SecState) (hr : x.root = some 1) (hk : x.keys = sec0.keys) (hf : x.floor = 0) (hd : x.devices = []) (hc : x.cryptoFail = false) :
    x.rejectImage image0 = none := by
  have he : envelopeExceeded image0.body = none := by decide +kernel
  have ho : outOfRange image0.body = none := by decide +kernel
  have hu : unsigned sec0.keys image0 = none := by decide +kernel
  have hv : deviceFits 0 image0 = true := by decide +kernel
  have hs : image0.systemId = Config.sha512id 1 := rfl
  have hl : layoutOk image0 = true := by decide +kernel
  have hg : (image0.sects.any fun e => !e.good) = false := by decide +kernel
  have hh : imageHeader image0 = imageHeader imageBase := by simp only [imageHeader, image0]
  have hc2 : image0.hdrCrc = imageCrc image0 := by
    change imageCrc imageBase = imageCrc image0
    rw [imageCrc, imageCrc, hh]
  have hm : image0.magic = 0x464D4E52 := rfl
  have hf1 : image0.format = 1 := rfl
  have hz : image0.body.diff = [] := rfl
  have hk1 : image0.otherChecks = true := rfl
  have hb : ¬ image0.rollback < 0 := Nat.not_lt_zero _
  rw [SecState.rejectImage, SecState.device, hd, List.headD_nil, hk, hf, hr, hu, he, ho, hv, hl, hg, hc, hs, hz, hk1, ← hc2, hm, hf1]
  simp

/-- So does a slot that holds it, with no overlay and no memory error. -/
theorem slot_passes (x : SecState) (b : Bool) (m : Image) (hi : (x.slot b).image = some m) (ho : (x.slot b).overlay = []) (hm : (x.slot b).memError = false)
    (h : x.rejectImage m = none) : x.rejectSlot b = none := by
  simp [SecState.rejectSlot, hi, ho, hm, h]

theorem wit_keys : (∃ (s : State) (b : Nat) (k : BitVec 256), s.ctlCmd b = some (.provisionRoot k) ∧ s.sec.root = none) ∧
    (∃ (s : State) (b : Nat) (k : BitVec 256), s.ctlCmd b = some (.provisionRoot k) ∧ s.sec.root.isSome) ∧
    (∃ (s : State) (b : Nat) (c : KeyCert), s.ctlCmd b = some (.keyInstall c) ∧ c.slot < s.sec.keys.length ∧ s.sec.certOk c ∧
      (nth s.sec.keys c.slot {}).present = false) ∧
    (∃ (s : State) (b : Nat) (c : KeyCert), s.ctlCmd b = some (.keyInstall c) ∧ c.slot < s.sec.keys.length ∧ (nth s.sec.keys c.slot {}).present) ∧
    (∃ (s : State) (b : Nat) (slot : Bool) (m : Image), s.ctlCmd b = some (.manifestLoad slot m) ∧ s.refuseLoad slot = none) ∧
    (∃ (s : State) (b : Nat) (slot : Bool) (m : Image), s.ctlCmd b = some (.manifestLoad slot m) ∧ s.sec.live ∧ s.sec.liveB = slot) ∧
    (∃ (s : State) (slot : Bool), (s.sec.slot slot).phase = .verifying ∧ s.sec.rejectSlot slot = none) ∧
    ∃ (s : State) (slot : Bool) (r : Reject), (s.sec.slot slot).phase = .verifying ∧ s.sec.rejectSlot slot = some r :=
  ⟨⟨withCmd (.provisionRoot 5) (up 0), 0, 5, by decide, by rfl⟩, ⟨withCmd (.provisionRoot 5) (secUp 0 sec0), 0, 5, by decide, by rfl⟩,
   ⟨withCmd (.keyInstall cert0) (secUp 0 sec0), 0, cert0, by rfl, by decide, certifies, by decide⟩,
   ⟨withCmd (.keyInstall { cert0 with slot := 0 }) (secUp 0 sec0), 0, { cert0 with slot := 0 }, by rfl, by decide, by decide⟩,
   ⟨withCmd (.manifestLoad true {}) (secUp 0 { sec0 with live := true }), 0, true, {}, by rfl, by rfl⟩,
   ⟨withCmd (.manifestLoad false {}) (secUp 0 { sec0 with live := true }), 0, false, {}, by rfl, by rfl, by rfl⟩,
   ⟨secUp 0 (({ sec0 with live := false } : SecState).setSlot true { phase := .verifying, image := some image0 }), true, by rfl,
    slot_passes _ _ image0 rfl rfl rfl (image_passes _ rfl rfl rfl rfl rfl)⟩,
   secUp 0 (sec0.setSlot false { phase := .verifying, image := some { image0 with magic := 0 } }), false, _, by rfl, by rfl⟩

theorem wit_activation : (∃ (s : State) (b : Nat) (slot : Bool), s.ctlCmd b = some (.manifestActivate slot) ∧ s.refuseActivate slot = none) ∧
    (∃ (s : State) (b : Nat) (slot : Bool), s.ctlCmd b = some (.manifestActivate slot) ∧ (s.sec.slot slot).phase ≠ .valid) ∧
    (∃ (s : State) (a : Activation) (l : List Activation), s.sec.activations = a :: l ∧ a.boundary < s.prot.boundary ∧ (s.item a.berth).isSome ∧
      s.refuseActivate a.slotB = none) ∧
    (∃ (s : State) (a : Activation) (l : List Activation), s.sec.activations = a :: l ∧ a.boundary < s.prot.boundary ∧ (s.item a.berth).isSome ∧
      (s.sec.slot a.slotB).phase ≠ .valid) ∧
    (∃ (s : State) (b : Nat), s.ctlCmd b = some .manifestPromote ∧ s.sec.live ∧ s.sec.liveB ∧ s.sec.floorNeed ≤ s.sec.tallyRollback ∧
      ({ s.sec with slotA := { s.sec.slotB with
        phase := .verifying, cause := s.sec.slotA.cause, shown := s.sec.slotA.shown, section_ := s.sec.slotA.section_ } } : SecState).rejectSlot false = none) ∧
    ∃ (s : State) (b n : Nat), s.ctlCmd b = some .manifestPromote ∧ s.sec.live ∧ s.sec.liveB ∧ s.sec.floorNeed ≤ s.sec.tallyRollback ∧ 0 < n ∧
      n ≤ s.sec.floorNeed :=
  let v : Slot := { phase := .valid, image := some image0 }
  let a (x : Slot) : State :=
    { withItem { src := 0, entry := query0, tAdmit := 0, due := 0 } (secUp 0 { sec0 with slotB := x, activations := [{ slotB := true, berth := 0, boundary := 0 }] }) with
      prot := { boundary := 1 } }
  let p : State := withCmd .manifestPromote (secUp 0 { sec0 with live := true, liveB := true, slotB := v })
  ⟨⟨withCmd (.manifestActivate true) (secUp 0 { sec0 with slotB := v }), 0, true, by rfl, by rfl⟩,
   ⟨withCmd (.manifestActivate true) (secUp 0 sec0), 0, true, by rfl, by decide⟩, ⟨a v, _, _, by rfl, by decide, by decide, by rfl⟩,
   ⟨a {}, _, _, by rfl, by decide, by decide, by decide⟩,
   ⟨p, 0, by rfl, by rfl, by rfl, by decide +kernel, slot_passes _ _ image0 rfl rfl rfl (image_passes _ rfl rfl rfl rfl rfl)⟩,
   p, 0, 2, by rfl, by rfl, by rfl, by decide +kernel, by decide, by decide +kernel⟩

theorem wit_proposals : (∃ (s : State) (b : Nat) (p : Propose) (it : Item), s.ctlCmd b = some (.propose p) ∧ s.item b = some it ∧ s.refusePropose p = none) ∧
    (∃ (s : State) (b : Nat) (p : Propose) (it : Item), s.ctlCmd b = some (.propose p) ∧ s.item b = some it ∧ (s.proposalOf? p.id).isSome) ∧
    (∃ (s : State) (b i : Nat) (id : BitVec 64) (digest : BitVec 128) (it : Item) (x : Propose), s.ctlCmd b = some (.confirm id digest) ∧ s.item b = some it ∧
      s.proposalOf? id = some i ∧ (s.proposal i).phase = .pending ∧ (s.proposal i).body = some x ∧ it.entry.keySlot ≠ (s.proposal i).propSlot ∧
      x.digest = digest ∧ s.now = (s.proposal i).windowEnd ∧ (s.proposal i).waits s.now) ∧
    (∃ (s : State) (b i : Nat) (id : BitVec 64) (digest : BitVec 128) (it : Item) (x : Propose), s.ctlCmd b = some (.confirm id digest) ∧ s.item b = some it ∧
      s.proposalOf? id = some i ∧ (s.proposal i).phase = .pending ∧ (s.proposal i).body = some x ∧ it.entry.keySlot = (s.proposal i).propSlot ∧
      s.now ≤ (s.proposal i).windowEnd) ∧
    (∃ (s : State) (b i : Nat) (id : BitVec 64) (digest : BitVec 128) (it : Item) (x : Propose), s.ctlCmd b = some (.confirm id digest) ∧ s.item b = some it ∧
      s.proposalOf? id = some i ∧ (s.proposal i).phase = .pending ∧ (s.proposal i).body = some x ∧ it.entry.keySlot ≠ (s.proposal i).propSlot ∧
      x.digest ≠ digest ∧ s.now ≤ (s.proposal i).windowEnd) ∧
    (∃ (s : State) (b : Nat) (id : BitVec 64) (digest : BitVec 128), s.ctlCmd b = some (.confirm id digest) ∧ s.proposalOf? id = none) ∧
    (∃ (s : State) (b i : Nat) (id : BitVec 64), s.ctlCmd b = some (.proposeWithdraw id) ∧ s.proposalOf? id = some i ∧ (s.proposal i).waits s.now) ∧
    (∃ (s : State) (b i : Nat) (id : BitVec 64), s.ctlCmd b = some (.proposeWithdraw id) ∧ s.proposalOf? id = some i ∧ (s.proposal i).waits s.now = false) ∧
    ∃ (s : State) (i : Nat), i < s.sec.proposals.length ∧ (s.proposal i).phase = .pending ∧ (s.proposal i).windowEnd < s.now ∧ (s.proposal i).stopped = none :=
  let x : Propose := { id := 4, items := [.deviceNumber 9], digest := 6 }
  let pend (n : Nat) : State :=
    secUp n { sec0 with proposals := [{}, { phase := .pending, id := 4, body := some x, propSlot := 2, windowEnd := 100 }, {}, {}] }
  ⟨⟨withCmd (.propose x) (secUp 0 sec0), 0, x, _, by rfl, by rfl, by decide +kernel⟩, ⟨withCmd (.propose x) (pend 0), 0, x, _, by rfl, by rfl, by decide +kernel⟩,
   ⟨withCmd (.confirm 4 6) (pend 100) 1, 0, 1, 4, 6, _, x, by rfl, by rfl, by decide +kernel⟩,
   ⟨withCmd (.confirm 4 6) (pend 100) 2, 0, 1, 4, 6, _, x, by rfl, by rfl, by decide +kernel⟩,
   ⟨withCmd (.confirm 4 5) (pend 100) 1, 0, 1, 4, 5, _, x, by rfl, by rfl, by decide +kernel⟩,
   ⟨withCmd (.confirm 3 6) (pend 0), 0, 3, 6, by rfl, by decide +kernel⟩, ⟨withCmd (.proposeWithdraw 4) (pend 100), 0, 1, 4, by rfl, by decide +kernel⟩,
   ⟨withCmd (.proposeWithdraw 4) (pend 101), 0, 1, 4, by rfl, by decide +kernel⟩,
   pend 101, 1, by decide +kernel⟩

theorem wit_selftests : (∃ (s : State) (x : SelfTest) (d : Ns), x.interval = some d ∧ s.sys.held = false ∧ s.passed (nth s.diag.ranAt x.bit 0) d ∧
      x.bit < s.diag.ranAt.length) ∧
    (∃ x : SelfTest, x.interval = none) ∧ (∃ (s : State) (x : EccIn), x.m < 8 ∧ x.m < s.diag.ecc.length ∧ x.corrected) ∧
    (∃ (s : State) (x : EccIn) (b : Bool), x.m < 8 ∧ x.m < s.diag.ecc.length ∧ x.corrected = false ∧ 6 ≤ x.m ∧ x.place = .slot b) ∧
    ∃ (s : State) (b : Nat), s.ctlCmd b = some .diagBundle :=
  ⟨⟨up (secs 86400), .scrub, _, by rfl, by decide⟩, ⟨.chk, by rfl⟩, ⟨up 0, { m := 0, addr := 0, corrected := true }, by decide⟩,
   ⟨up 0, { m := 7, addr := 0, corrected := false, place := .slot true }, true, by decide⟩, withCmd .diagBundle (up 0), 0, by decide⟩

theorem wit_refresh : (∃ s : State, s.diag.refresh.active = false ∧ s.refreshMay ∧ refreshInterval ≤ s.refreshAge) ∧
    (∃ s : State, s.diag.refresh.active ∧ s.refreshMay ∧ s.diag.refresh.skipped = [] ∧ s.passed s.diag.refresh.lineAt (secs 2) ∧
      s.diag.refresh.cursor + 1 = mramLines) ∧
    (∃ (s : State) (line : Nat), s.diag.refresh.active ∧ s.refreshMay ∧ s.passed s.diag.refresh.lineAt (secs 2) ∧ line ∈ s.diag.refresh.skipped ∧
      s.diag.refresh.cursor < mramLines) ∧
    (∃ (s : State) (x : List Int), s.sys.held = false ∧ s.passed s.diag.tempAt (msec 100) ∧ x.length = 5 ∧ s.diag.temps.length = 5) ∧
    (∃ (s : State) (x : List Nat), s.sys.held = false ∧ (∀ a, s.diag.ageAt = some a → s.passed a (secs 86400)) ∧ x.length = 5) ∧
    (∃ s : State, s.sys.held = false ∧ s.sys.lastwords = false ∧ s.passed s.diag.opsAt (secs 1) ∧ s.diag.opsRun + 1 < 60) ∧
    ∃ s : State, s.sys.held = false ∧ s.sys.lastwords = false ∧ s.passed s.diag.opsAt (secs 1) ∧ 60 ≤ s.diag.opsRun + 1 :=
  let d (n : Nat) (x : DiagState) : State := { up n with diag := x }
  ⟨⟨d 0 { ledger := { opsec := 38880000 } }, by decide +kernel⟩, ⟨d (secs 2) { refresh := { active := true, cursor := 2097151 } }, by decide +kernel⟩,
   ⟨d (secs 2) { refresh := { active := true, skipped := [3] } }, 3, by decide +kernel⟩, ⟨up (msec 100), [0, 0, 0, 0, 850], by decide⟩,
   ⟨d (secs 86400) { ageAt := some 0 }, [0, 0, 0, 0, 500], by decide, fun a h => by cases h; decide, by decide⟩, ⟨d (secs 1) { opsRun := 58 }, by decide⟩,
   d (secs 1) { opsRun := 59 }, by decide⟩

theorem wit_tick : (∃ s : State, s.pending = [] ∧ s.sys.held = false) ∧ (∃ s : State, s.pending = [] ∧ s.sys.held) :=
  ⟨⟨up 0, by decide⟩, State.reset, by decide⟩

theorem wit_step : ∃ s t : State, Shape s ∧ step s = .next t := ⟨State.reset, _, ⟨by decide +kernel, by decide +kernel⟩, by rfl⟩

theorem wit_high_words : ∃ (s : State) (who : Requester) (o p : Nat) (b : Blk), o < 4194304 ∧ o % 4 = 0 ∧ b = blkAt o ∧ s.bar0Blocked o false = none ∧
    s.oldestSnapped who b (o - blkBase b) = false ∧ snapLow b (o - blkBase b) = false ∧ p ∈ snapGroup b (o - blkBase b) ∧
    s.itemCreated b p ∧ s.bar0Blocked (blkBase b + p) false = none := ⟨up 0, .reader 0, 4, 0x10, .sys, by decide +kernel⟩

theorem wit_status_fields : ∃ s : State, s.sys.stage < 16 := ⟨up 0, by decide⟩

/-! ### Numbers of the manual's examples -/

/-- The nine ASCII bytes "123456789" and the check values of R465. -/
theorem test_check_values : ([.crc32c, .crc32, .crc16, .crc8] : List CrcAlg).map (fun a => a.check (((List.range 9).map fun i => BitVec.ofNat 8 (0x31 + i)))) =
    [0xE3069283, 0xCBF43926, 0x29B1, 0xDF] := by decide +kernel

/-- The example of R472: the uplink of BR2 after ALIVE = 250. -/
theorem test_alive_sequence : let f := fun (r : AliveRx) a => r.test 8 16 false a
    let a1 := f { last := some 250 } 251; let a2 := f a1.2 251; let a3 := f a2.2 4; let a4 := f a3.2 200; let a5 := f a4.2 5
    [a1.1, a2.1, a3.1, a4.1, a5.1] = [.next, .repeat_, .skip 8, .stale, .next] ∧ a4.2.last = some 4 ∧ a5.2.last = some 5 := by decide

/-- R472: on a remote-I/O path three STALE payloads in a row resynchronise at the third. -/
theorem test_alive_resync : let f := fun (r : AliveRx) a => r.test 8 16 true a
    let a1 := f { last := some 5 } 90; let a2 := f a1.2 91; let a3 := f a2.2 92
    a1.1 = .stale ∧ a2.1 = .stale ∧ a3.1.accepted ∧ a3.2.last = some 92 := by decide

/-- The example of R12: TS32 = 100,000,000 read after t_ref with t_ref mod 2^32 = 4,200,000,000 lies 194,967,296 ns later. -/
theorem test_stamp_extension : extendTs 4200000000 100000000 = 4200000000 + 194967296 := by decide

/-- R621: TIDE_REFUSED is 0x17F and SEC_REFUSED is 0x8FF. -/
theorem test_refused_codes : recCode (.refused .tide) = 0x17F ∧ recCode (.refused .sec) = 0x8FF := by decide

/-- The example under R558: devices 4,102 and 4,103 with 4 doors wait 120 ms and 140 ms. -/
theorem test_door_holdoff : (secUp 0 { devices := [4102] }).holdOff 4 = msec 120 ∧ (secUp 0 { devices := [4103] }).holdOff 4 = msec 140 := by decide

/-- The example of R56: a segment of 50 Hz, 1,000,000,100 ns after its start. -/
theorem test_plant_angle : plantGo 1000000100 0 0 [{ start := 0, freq := 50000000 }] = some (214748386274, 0) := by decide +kernel

/-- The example of R490: with F_SIG = 900.6 µs at t = 0.6 µs, a signed FIO_SET of 1 ms is refused DEADLINE with RETRY = 1; with F_SIG = 750.6 µs it passes. -/
theorem test_breakwater_deadline : let e : Entry := { cmd := some (.fioSet 3 true), signed := true }
    let s := fun fsig => ({ up 600 with host := { fSig := fsig, fCtl := fsig + 10000 } } : State)
    (s 900600).deadlineTest e (.fioSet 3 true) (msec 1) = some { reason := .deadline, retry := 1 } ∧ (s 750600).deadlineTest e (.fioSet 3 true) (msec 1) = none := by decide +kernel

/-- R571: SYS_STATUS is zero at reset and shows the stage. -/
theorem test_sys_status : State.reset.liveReg .sys 4 = 0 ∧ (up 0).liveReg .sys 4 = 11 := by decide +kernel

end Sys2Proof.Tests
end

section
/-! SUPPORT. BAR0: where the registers of a block lie, what a read returns and which snapshot it takes (spec/00_scope.md R10,
spec/19_register_map.md R590 to R592). -/

namespace Sys2Proof.Machine

open Sys2Proof

variable (s : State)

/-! ### Offsets (R590) -/

theorem blkBase_dvd (b : Blk) : 0x10000 ∣ blkBase b := by cases b <;> decide

/-- Every block has at least 64 KiB below the end of BAR0. -/
theorem blkBase_add_lt_bar0Size (b : Blk) {o : Nat} (h : o < 0x10000) : blkBase b + o < bar0Size := by
  cases b <;> simp only [blkBase, bar0Size] <;> omega

theorem blkAt_blkBase_add (b : Blk) {o : Nat} (h : o < 0x10000) : blkAt (blkBase b + o) = b := by
  have below (c : Blk) : blkBase c ≤ blkBase b + o ↔ blkBase c ≤ blkBase b := by
    obtain ⟨m, hm⟩ := blkBase_dvd c
    obtain ⟨n, hn⟩ := blkBase_dvd b
    omega
  simp only [blkAt, below]
  cases b <;> rfl

/-- The block at an offset is the last one whose base is not above it. -/
theorem blkBase_le_blkBase_blkAt {c : Blk} {off : Nat} (h : blkBase c ≤ off) : blkBase c ≤ blkBase (blkAt off) := by
  have sorted : allBlks.Pairwise fun x y => blkBase x ≤ blkBase y := by decide
  have mem : c ∈ allBlks.filter fun b => decide (blkBase b ≤ off) := by
    simp only [List.mem_filter, decide_eq_true_eq]
    exact ⟨by cases c <;> decide, h⟩
  have ne := List.ne_nil_of_mem mem
  rw [blkAt, List.getLastD_eq_getLast?, List.getLast?_eq_getLast_of_ne_nil ne, Option.getD_some]
  exact (sorted.filter _).rel_getLast_of_rel_getLast_getLast mem le_rfl

theorem lt_of_blkAt_eq_sys {off : Nat} (h : blkAt off = .sys) : off < 0x10000 := by
  by_contra k
  have le : blkBase .clk ≤ blkBase (blkAt off) := blkBase_le_blkBase_blkAt (not_lt.mp k)
  rw [h] at le
  exact absurd le (by decide)

theorem blkBase_add_word (b : Blk) {o : Nat} (h : o % 4 = 0) : (blkBase b + o) / 4 * 4 = blkBase b + o := by
  obtain ⟨k, hk⟩ := blkBase_dvd b
  omega

/-! ### Snapshots (R10, R111) -/

/-- The value of the requester's snapshot of an offset, when it has one. -/
def State.snapVal? (who : Requester) (off : Nat) : Option Word :=
  (s.snaps.find? fun x => x.who == who && x.offset == off).map (·.value)

theorem State.snapVal?_congr {s t : State} (h : t.snaps = s.snaps) (who : Requester) (off : Nat) : t.snapVal? who off = s.snapVal? who off := by
  rw [State.snapVal?, h, State.snapVal?]

theorem State.snapOf_eq (who : Requester) (off : Nat) : s.snapOf who off = (s.snapVal? who off).getD 0 := rfl

theorem State.lastLogRead_eq (who : Requester) : s.lastLogRead who = (s.snapVal? who bar0Size).map BitVec.toNat := by
  simp [State.lastLogRead, State.snapVal?, Function.comp_def]

theorem State.snapVal?_takeSnap_same (who : Requester) (off : Nat) (v : Word) : (s.takeSnap who off v).snapVal? who off = some v := by
  simp [State.snapVal?, State.takeSnap]

theorem State.snapVal?_takeSnap_ne (who : Requester) {off off' : Nat} (h : off ≠ off') (v : Word) :
    (s.takeSnap who off v).snapVal? who off' = s.snapVal? who off' := by
  simp only [State.snapVal?, State.takeSnap, List.find?_cons, beq_self_eq_true, beq_false_of_ne h, Bool.and_false, List.find?_filter]
  congr 2
  funext x
  rw [Bool.eq_iff_iff]
  by_cases e : x.offset = off'
  · simp [e, h.symm]
  · simp [e]

theorem State.forEach_concat {α : Type} (l : List α) (x : α) (f : State → α → State) : s.forEach (l ++ [x]) f = f (s.forEach l f) x :=
  List.foldl_concat ..

/-- Snapshots of distinct registers do not disturb one another. -/
theorem State.snapVal?_forEach_takeSnap (who : Requester) (base : Nat) (f : Nat → Word) (l : List Nat) {p : Nat} (hp : p ∈ l) :
    (s.forEach l fun t o => t.takeSnap who (base + o) (f o)).snapVal? who (base + p) = some (f p) := by
  induction l using List.reverseRecOn with
  | nil => cases hp
  | append_singleton l o ih =>
    rw [State.forEach_concat]
    by_cases e : o = p
    · rw [e, State.snapVal?_takeSnap_same]
    · rw [State.snapVal?_takeSnap_ne _ _ (by omega)]
      exact ih ((List.mem_append.mp hp).resolve_right fun k => e (List.mem_singleton.mp k).symm)

theorem State.snapVal?_forEach_takeSnap_ne (who : Requester) (base : Nat) (f : Nat → Word) (l : List Nat) {off : Nat}
    (h : ∀ p ∈ l, base + p ≠ off) : (s.forEach l fun t o => t.takeSnap who (base + o) (f o)).snapVal? who off = s.snapVal? who off := by
  induction l using List.reverseRecOn with
  | nil => rfl
  | append_singleton l o ih =>
    rw [State.forEach_concat, State.snapVal?_takeSnap_ne _ _ (h o (by simp)), ih fun p hp => h p (by simp [hp])]

theorem State.snapVal?_takeGroup {who : Requester} {b : Blk} {o p : Nat} (hp : p ∈ snapGroup b o) :
    (s.takeGroup who b o).snapVal? who (blkBase b + p) = some (s.liveReg b p) :=
  s.snapVal?_forEach_takeSnap who (blkBase b) (s.liveReg b) _ hp

theorem State.liveReg_log_takeSnap (who : Requester) (off : Nat) (v : Word) (o : Nat) :
    (s.takeSnap who off v).liveReg .log o = s.liveReg .log o := rfl

/-- Noting a read in LOG changes no register. -/
theorem State.liveReg_noteLogRead (who : Requester) (b : Blk) (o p : Nat) : (s.noteLogRead who b o).liveReg b p = s.liveReg b p := by
  unfold State.noteLogRead
  by_cases h : b = .log
  · rw [decide_eq_true h, State.when_true, h, State.liveReg_log_takeSnap]
  · rw [decide_eq_false h, State.when_false]

end Sys2Proof.Machine
end

section
/-! SUPPORT. Reads of registers: which reads reach their block, what they return, which snapshot they take, and what else they touch
(spec/00_scope.md R10, spec/03_clocks_and_crossings.md R111, R113, R115, spec/12_logbook.md R423, spec/19_register_map.md R591 to R594). -/

namespace Sys2Proof.Machine

open Sys2Proof

variable (s : State)

/-! ### Further words of a quantity (R10, R423) -/

/-- A register that a low-word read snapshots reads from the snapshot alone, but for LOG_OLDEST_LO, which does so after LOG_NEXT (R423). -/
theorem snapGroup_word {b : Blk} {o p : Nat} (hp : p ∈ snapGroup b o) (ho : b = .sys → o < 0x10000) :
    p < 0x10000 ∧ p % 4 = 0 ∧ (snapLow b p = true ∨ b = .log ∧ p = 0x10 ∧ o = 8) := by
  cases b
  case clk | acq | gate | net | diag => cases hp
  case sys =>
    simp only [snapGroup] at hp
    split_ifs at hp
    · simp only [List.mem_cons, List.not_mem_nil, or_false] at hp
      rcases hp with rfl | rfl <;> exact ⟨by decide, by decide, .inl rfl⟩
    · obtain ⟨i, hi, rfl⟩ := List.mem_map.mp hp
      have hi := List.mem_range.mp hi
      have ho := ho rfl
      simp only [snapLow, Bool.or_eq_true, Bool.and_eq_true, decide_eq_true_eq, bne_iff_ne]
      omega
    · cases hp
  case fio =>
    simp only [snapGroup] at hp
    split_ifs at hp
    · simp only [List.mem_append, List.mem_map, List.mem_range] at hp
      obtain (⟨i, hi, rfl⟩ | ⟨i, hi, rfl⟩) | ⟨i, hi, rfl⟩ := hp <;> simp only [snapLow, decide_eq_true_eq] <;> omega
    · cases hp
  all_goals
    simp only [snapGroup] at hp
    split_ifs at hp <;> simp [snapLow] at hp ⊢ <;> omega

/-- The same for the register at an offset of BAR0. -/
theorem snapGroup_word_at {b : Blk} {off p : Nat} (hb : b = blkAt off) (hp : p ∈ snapGroup b (off - blkBase b)) :
    p < 0x10000 ∧ p % 4 = 0 ∧ (snapLow b p = true ∨ b = .log ∧ p = 0x10 ∧ off - blkBase b = 8) :=
  snapGroup_word hp fun e => (Nat.sub_le ..).trans_lt (lt_of_blkAt_eq_sys (hb ▸ e))

/-! ### What a read leaves alone -/

@[simp] theorem State.answer_accesses (a : AccessEnd) : (s.answer a).host.accesses = a :: s.host.accesses := rfl

@[simp] theorem State.noteUninst_host (b : Blk) : (s.noteUninst b).host = s.host := State.raise_host _ (by decide) _
@[simp] theorem State.noteUninst_snaps (b : Blk) : (s.noteUninst b).snaps = s.snaps := State.raise_snaps ..

/-- Neither the side effects of a read nor the checks that it starts are accesses of the host. -/
theorem State.readEffect_accesses (b : Blk) (o : Nat) : (s.readEffect b o).host.accesses = s.host.accesses := by
  have checks (l : List Nat) : (s.forEach l State.checkFailed).host = s.host :=
    (State.forEach_kept (M := (· ∈ [.log, .chk])) (fun n _ => State.checkFailed_kept n) l (.refl s)).parts .host (by simp)
  cases b <;> simp only [State.readEffect]
  case log =>
    split
    · rfl
    · split
      · rw [State.onLog_host, checks]
      · rfl
  case host => split <;> rfl

theorem State.readEffect_snaps (b : Blk) (o : Nat) : (s.readEffect b o).snaps = s.snaps :=
  (State.readEffect_kept (M := (· ∈ [.log, .chk, .host])) b o (.refl s)).parts .snaps (by simp)

theorem State.readSnap_host (who : Requester) (b : Blk) (o : Nat) : (s.readSnap who b o).2.host = s.host :=
  (State.readSnap_kept (M := (· ∈ [.snaps])) who b o (.refl s)).parts .host (by simp)

theorem State.readReg_accesses (who : Requester) (off : Nat) : (s.readReg who off).2.host.accesses = s.host.accesses := by
  simp only [State.readReg]
  split
  · rw [State.readEffect_accesses, State.readSnap_host]
  · rw [State.noteUninst_host, State.readSnap_host]

theorem State.readReg_snaps (who : Requester) (off : Nat) :
    (s.readReg who off).2.snaps = (s.readSnap who (blkAt off) (off - blkBase (blkAt off))).2.snaps := by
  simp only [State.readReg]
  split
  · rw [State.readEffect_snaps]
  · rw [State.noteUninst_snaps]

variable {s}

/-! ### Reads that reach their block (R113, R115, R591, R592) -/

theorem State.bar0Blocked_eq_none {off : Nat} {w : Bool} :
    s.bar0Blocked off w = none ↔ s.blkStopped (servingBlk off) = false ∧ s.blkRealigns (servingBlk off) = false := by
  simp only [State.bar0Blocked]
  split_ifs with stopped realigns <;> simp [*]

/-- A read that nothing blocks is answered with what the register gives, whoever reads. -/
theorem State.bar0Read_of_free {off : Nat} (h : s.bar0Blocked off false = none) (who : Requester) :
    s.bar0Read who off = (s.readReg who off).2.answer (.data (s.readReg who off).1) := by
  obtain ⟨stopped, realigns⟩ := State.bar0Blocked_eq_none.mp h
  cases who with
  | host => simp only [State.bar0Read, h]
  | logicCore k | reader k => simp [State.bar0Read, State.internalRead, stopped, realigns]

theorem State.bar0Read_accesses {off : Nat} (h : s.bar0Blocked off false = none) (who : Requester) :
    (s.bar0Read who off).host.accesses =
      .data (s.readSnap who (blkAt off) (off - blkBase (blkAt off))).1 :: s.host.accesses := by
  rw [State.bar0Read_of_free h, State.answer_accesses, State.readReg_accesses]
  rfl

theorem State.bar0Read_snaps {off : Nat} (h : s.bar0Blocked off false = none) (who : Requester) :
    (s.bar0Read who off).snaps = (s.readSnap who (blkAt off) (off - blkBase (blkAt off))).2.snaps := by
  rw [State.bar0Read_of_free h, State.answer_snaps, State.readReg_snaps]

/-- A read that nothing blocks does not touch CLK. -/
theorem State.bar0Read_frame {off : Nat} (h : s.bar0Blocked off false = none) (who : Requester) :
    OnlyTouches [.sys, .log, .chk, .host, .snaps] s (s.bar0Read who off) := by
  rw [State.bar0Read_of_free h]
  exact (State.answer_kept _ (State.readReg_kept who off (.refl s))).frame

/-- A read outside LOG starts no check, so that it does not touch CHK either. -/
theorem State.bar0Read_frame_of_ne_log {off : Nat} (h : s.bar0Blocked off false = none) (hb : blkAt off ≠ .log) (who : Requester) :
    OnlyTouches [.sys, .log, .host, .snaps] s (s.bar0Read who off) := by
  have snap := State.readSnap_kept (M := (· ∈ [.sys, .log, .host, .snaps])) who (blkAt off) (off - blkBase (blkAt off)) (.refl s)
  have effect {t : State} (k : Kept (· ∈ [.sys, .log, .host, .snaps]) s t) (o : Nat) :
      Kept (· ∈ [.sys, .log, .host, .snaps]) s (t.readEffect (blkAt off) o) := by
    unfold State.readEffect
    split
    · contradiction
    · exact Kept.ite (fun _ => State.onHost_kept k fun _ l => l) fun _ => k
    · exact k
  rw [State.bar0Read_of_free h]
  exact (State.answer_kept _ (Kept.ite (fun _ => effect snap _) fun _ => State.noteUninst_kept _ snap)).frame

/-! ### What a read returns, and the snapshot that it takes (R10, R111, R423) -/

/-- A low word, or a register without further words, reads live. -/
theorem State.readSnap_live {who : Requester} {b : Blk} {o : Nat} (h : s.oldestSnapped who b o = false) (l : snapLow b o = false) :
    s.readSnap who b o = (s.liveReg b o, (s.noteLogRead who b o).takeGroup who b o) := by
  simp [State.readSnap, h, l]

theorem State.readSnap_snapped {who : Requester} {b : Blk} {o : Nat} (h : s.oldestSnapped who b o = true ∨ snapLow b o = true)
    (c : s.itemCreated b o) : (s.readSnap who b o).1 = s.snapOf who (blkBase b + o) := by
  simp [State.readSnap, h, c]

theorem State.bar0Read_snapVal? {who : Requester} {off p : Nat} {b : Blk} (hb : b = blkAt off) (h : s.bar0Blocked off false = none)
    (old : s.oldestSnapped who b (off - blkBase b) = false) (low : snapLow b (off - blkBase b) = false)
    (hp : p ∈ snapGroup b (off - blkBase b)) : (s.bar0Read who off).snapVal? who (blkBase b + p) = some (s.liveReg b p) := by
  subst hb
  rw [State.snapVal?_congr (State.bar0Read_snaps h who), State.readSnap_live old low, State.snapVal?_takeGroup _ hp, State.liveReg_noteLogRead]

/-- After a low-word read in LOG the requester's last read there is known (R423). -/
theorem State.bar0Read_lastLogRead {who : Requester} {off : Nat} (hb : blkAt off = .log) (h : s.bar0Blocked off false = none)
    (old : s.oldestSnapped who .log (off - blkBase .log) = false) (low : snapLow .log (off - blkBase .log) = false) :
    (s.bar0Read who off).lastLogRead who = some (BitVec.ofNat 32 (off - blkBase .log)).toNat := by
  have apart : ∀ p ∈ snapGroup .log (off - blkBase .log), blkBase .log + p ≠ bar0Size := fun p hp =>
    (blkBase_add_lt_bar0Size .log (snapGroup_word hp (by simp)).1).ne
  rw [State.lastLogRead_eq, State.snapVal?_congr (State.bar0Read_snaps h who), hb, State.readSnap_live old low, State.takeGroup,
    State.snapVal?_forEach_takeSnap_ne _ _ _ _ _ apart, State.noteLogRead, decide_eq_true rfl, State.when_true, State.snapVal?_takeSnap_same,
    Option.map_some]

/-- Once a low word has been read, a further word of the quantity returns its snapshot, whatever has become of the rest of the state. -/
theorem State.readSnap_further {who : Requester} {off p : Nat} {b : Blk} {u : State} (hb : b = blkAt off) (h : s.bar0Blocked off false = none)
    (old : s.oldestSnapped who b (off - blkBase b) = false) (low : snapLow b (off - blkBase b) = false)
    (hp : p ∈ snapGroup b (off - blkBase b)) (hu : u.snaps = (s.bar0Read who off).snaps) (c : u.itemCreated b p) :
    (u.readSnap who b p).1 = s.liveReg b p := by
  have val : u.snapOf who (blkBase b + p) = s.liveReg b p := by
    rw [State.snapOf_eq, State.snapVal?_congr hu, State.bar0Read_snapVal? hb h old low hp, Option.getD_some]
  obtain ⟨-, -, l | ⟨rfl, rfl, o8⟩⟩ := snapGroup_word_at hb hp
  · rw [State.readSnap_snapped (.inr l) c, val]
  · have last : u.lastLogRead who = some 8 := by
      rw [State.lastLogRead_eq, State.snapVal?_congr hu, ← State.lastLogRead_eq, State.bar0Read_lastLogRead hb.symm h old low, o8]
      rfl
    rw [State.readSnap_snapped (.inl (by simp [State.oldestSnapped, last])) c, val]

/-! ### The commands of a read -/

theorem exec_read {off p : Nat} (h : off < bar0Size) (hp : off / 4 * 4 = p) (who : Requester) :
    exec (.snapshotLowWordRead who off) s = .next (s.bar0Read who p) := by
  subst hp
  exact if_pos h

/-- A low-word read answers with the live value and leaves the snapshot of each further word (R10). -/
theorem exec_read_low {who : Requester} {o p : Nat} {b : Blk} (ho : o < bar0Size) (aligned : o % 4 = 0) (hb : b = blkAt o)
    (free : s.bar0Blocked o false = none) (old : s.oldestSnapped who b (o - blkBase b) = false) (low : snapLow b (o - blkBase b) = false)
    (hp : p ∈ snapGroup b (o - blkBase b)) :
    ∃ t, exec (.snapshotLowWordRead who o) s = .next t ∧ t.snapOf who (blkBase b + p) = s.liveReg b p ∧
      t.host.accesses = .data (s.liveReg b (o - blkBase b)) :: s.host.accesses ∧ OnlyTouches [.sys, .log, .chk, .host, .snaps] s t := by
  refine ⟨_, exec_read ho (Nat.div_mul_cancel (Nat.dvd_of_mod_eq_zero aligned)) who, ?_, ?_, State.bar0Read_frame free who⟩
  · rw [State.snapOf_eq, State.bar0Read_snapVal? hb free old low hp, Option.getD_some]
  · rw [State.bar0Read_accesses free, ← hb, State.readSnap_live old low]

/-- A further word answers with the requester's snapshot (R10, R111). -/
theorem exec_read_snapped {who : Requester} {o : Nat} {b : Blk} (ho : o < bar0Size) (aligned : o % 4 = 0) (hb : b = blkAt o)
    (free : s.bar0Blocked o false = none) (low : snapLow b (o - blkBase b) = true) (created : s.itemCreated b (o - blkBase b)) :
    ∃ t, exec (.snapshotLowWordRead who o) s = .next t ∧
      t.host.accesses = .data (s.snapOf who (blkBase b + (o - blkBase b))) :: s.host.accesses ∧
      OnlyTouches [.sys, .log, .chk, .host, .snaps] s t := by
  refine ⟨_, exec_read ho (Nat.div_mul_cancel (Nat.dvd_of_mod_eq_zero aligned)) who, ?_, State.bar0Read_frame free who⟩
  rw [State.bar0Read_accesses free, ← hb, State.readSnap_snapped (.inr low) created]

/-- A requester inside the device waits on a stopped domain, and reads zero with an error flag while a crossing re-aligns (R113, R114). -/
theorem exec_read_inner {who : Requester} {o : Nat} (ho : o < bar0Size) (inner : who ≠ .host) :
    (s.blkStopped (servingBlk (o / 4 * 4)) → exec (.snapshotLowWordRead who o) s = .next s) ∧
    (s.blkStopped (servingBlk (o / 4 * 4)) = false → s.blkRealigns (servingBlk (o / 4 * 4)) →
      ∃ t, exec (.snapshotLowWordRead who o) s = .next t ∧ t.host = { s.host with accesses := .zeroErr :: s.host.accesses } ∧
        OnlyTouches [.host] s t) := by
  have read : s.bar0Read who (o / 4 * 4) = s.internalRead who (o / 4 * 4) := by
    cases who
    case host => contradiction
    all_goals rfl
  rw [exec_read ho rfl who, read]
  refine ⟨fun stopped => ?_, fun runs realigns => ⟨s.answer .zeroErr, ?_, rfl, (State.answer_kept _ (.refl s)).frame⟩⟩
  · simp only [State.internalRead, stopped, if_true]
  · simp only [State.internalRead, runs, realigns, Bool.false_eq_true, if_false, if_true]

theorem exec_evcntWord0Read {n : Nat} (hn : n < 1024) (who : Requester) :
    exec (.evcntWord0Read who n) s = .next (s.bar0Read who (0x8000 + 0x20 * n)) :=
  congrArg (fun k => Host.Outcome.next (s.bar0Read who (0x8000 + 0x20 * k))) (Nat.mod_eq_of_lt hn)

/-- Word 0 of a counter slot reads live, and its words 1 to 7 are snapshotted (R593, R594). -/
theorem exec_evcntWord0Read_snaps {who : Requester} {n : Nat} (hn : n < 1024) (free : s.bar0Blocked (0x8000 + 0x20 * n) false = none) :
    ∃ t, exec (.evcntWord0Read who n) s = .next t ∧ t.host.accesses = .data (s.liveReg .sys (0x8000 + 0x20 * n)) :: s.host.accesses ∧
      (∀ i, 1 ≤ i → i < 8 → t.snapOf who (0x8000 + 0x20 * n + 4 * i) = s.liveReg .sys (0x8000 + 0x20 * n + 4 * i)) ∧
      OnlyTouches [.sys, .log, .host, .snaps] s t := by
  have base : blkBase .sys = 0 := rfl
  have hb : blkAt (0x8000 + 0x20 * n) = .sys := by simpa [base] using blkAt_blkBase_add .sys (o := 0x8000 + 0x20 * n) (by omega)
  have low : snapLow .sys (0x8000 + 0x20 * n) = false := by
    simp [snapLow]
    omega
  have group : snapGroup .sys (0x8000 + 0x20 * n) = (List.range 7).map fun i => 0x8000 + 0x20 * n + 4 * (i + 1) := by
    rw [snapGroup, if_neg (by omega), if_pos (by omega)]
  refine ⟨_, exec_evcntWord0Read hn who, ?_, fun i h1 h8 => ?_, State.bar0Read_frame_of_ne_log free (by simp [hb]) who⟩
  · rw [State.bar0Read_accesses free, hb, base, Nat.sub_zero, State.readSnap_live rfl low]
  · have mem : 0x8000 + 0x20 * n + 4 * i ∈ snapGroup .sys (0x8000 + 0x20 * n) := by
      rw [group, List.mem_map]
      exact ⟨i - 1, List.mem_range.mpr (by omega), by omega⟩
    have val := State.bar0Read_snapVal? (who := who) hb.symm free rfl low mem
    rw [base, Nat.zero_add] at val
    rw [State.snapOf_eq, val, Option.getD_some]

/-- A read of HOST_BERTH_USE starts the peak again from the berths in use (R512, R592). -/
theorem exec_hostBerthUseRead_peak (free : s.bar0Blocked (blkBase .host + 0x14) false = none) :
    ∃ t, exec .hostBerthUseRead s = .next t ∧ t.host.accesses = .data (s.liveReg .host 0x14) :: s.host.accesses ∧
      t.host.peak = s.host.inUse ∧ OnlyTouches [.sys, .log, .host, .snaps] s t := by
  have hb : blkAt (blkBase .host + 0x14) = .host := blkAt_blkBase_add .host (by decide)
  refine ⟨s.bar0Read .host (blkBase .host + 0x14), rfl, ?_, ?_, State.bar0Read_frame_of_ne_log free (by simp [hb]) .host⟩
  · rw [State.bar0Read_accesses free, hb, State.readSnap_live rfl rfl]
    rfl
  · rw [State.bar0Read_of_free free, State.readReg, hb]
    rfl

/-- Settles O59: the low-word read leaves the snapshot under each further word's offset, and such a word reads from snapshots alone. -/
theorem highWordsReturnTheSnapshot : Obligations.HighWordsReturnTheSnapshot := by
  intro s who o p b ho aligned hb free old low hp
  obtain ⟨hp16, hp4, -⟩ := snapGroup_word_at hb hp
  refine ⟨s.bar0Read who o, exec_read ho (Nat.div_mul_cancel (Nat.dvd_of_mod_eq_zero aligned)) who, ?_, fun u hu created free' => ?_⟩
  · rw [State.bar0Read_accesses free, ← hb, State.readSnap_live old low]
  · refine ⟨_, exec_read (blkBase_add_lt_bar0Size b hp16) (blkBase_add_word b hp4) who, ?_⟩
    rw [State.bar0Read_accesses free', blkAt_blkBase_add b hp16, Nat.add_sub_cancel_left, State.readSnap_further hb free old low hp hu created]

end Sys2Proof.Machine
end

section
/-! SUPPORT. Register writes over BAR0 and from inside: what reaches the block, what waits in a Lock crossing (spec/00_scope.md R9,
spec/03_clocks_and_crossings.md R108, R109, R113, R114, spec/19_register_map.md R591). -/

namespace Sys2Proof.Machine

open Sys2Proof

variable (s : State)

/-! ### EVENT registers -/

theorem eventAt_pos (b : Blk) : 0 < eventAt b := by cases b <;> decide
theorem eventAt_lt (b : Blk) : eventAt b < 0x10000 := by cases b <;> decide
theorem eventAt_aligned (b : Blk) : eventAt b % 4 = 0 := by cases b <;> rfl

/-- An offset that is not the block's EVENT register is not so within the block either. -/
theorem sub_blkBase_ne_eventAt {b : Blk} {off : Nat} (h : off ≠ blkBase b + eventAt b) : off - blkBase b ≠ eventAt b := by
  have := eventAt_pos b
  omega

theorem State.eventOf_onEvent (b : Blk) (f : W1C → W1C) : (s.onEvent b f).eventOf b = f (s.eventOf b) := by cases b <;> rfl

theorem State.onEvent_accesses (b : Blk) (f : W1C → W1C) : (s.onEvent b f).host.accesses = s.host.accesses := by cases b <;> rfl

theorem State.eventOf_answer (a : AccessEnd) (b : Blk) : (s.answer a).eventOf b = s.eventOf b := by cases b <;> rfl

/-! ### Writes that reach their block (R9, R32) -/

theorem State.blkWrite_event (b : Blk) (v : Word) : s.blkWrite b (eventAt b) v = s.onEvent b fun e => e.write v := by
  simp only [State.blkWrite, State.w1cWrite, if_pos]

/-- The blocks that have no register to write but EVENT: what they read comes from the hardware alone (R9). -/
def readOnlyBlks : List Blk := [.sys, .clk, .diff, .form, .gate, .logic, .capt, .net, .ptp, .adeid, .sec, .diag]

theorem State.blkWrite_readOnly {b : Blk} {o : Nat} (hb : b ∈ readOnlyBlks) (h : o ≠ eventAt b) (v : Word) : s.blkWrite b o v = s := by
  have notFio : b ≠ .fio := by rintro rfl; exact absurd hb (by decide)
  have noW1c : s.w1cWrite b o v = none := by rw [State.w1cWrite, if_neg h, if_neg fun k => notFio k.1]
  unfold State.blkWrite
  rw [noW1c]
  cases b
  case tide | acq | prot | fio | log | chk | host => exact absurd hb (by decide)
  all_goals rfl

variable {s} in
theorem State.storeReg_created {off : Nat} (c : s.itemCreated (blkAt off) (off - blkBase (blkAt off))) (v : Word) :
    s.storeReg off v = s.blkWrite (blkAt off) (off - blkBase (blkAt off)) v :=
  if_pos c

variable {s} in
theorem State.storeReg_uncreated {off : Nat} (c : s.itemCreated (blkAt off) (off - blkBase (blkAt off)) = false) (v : Word) :
    s.storeReg off v = s.noteUninst (blkAt off) :=
  if_neg (by simp [c])

variable {s} in
theorem State.storeReg_readOnly {off : Nat} (hb : blkAt off ∈ readOnlyBlks) (h : off ≠ blkBase (blkAt off) + eventAt (blkAt off))
    (c : s.itemCreated (blkAt off) (off - blkBase (blkAt off))) (v : Word) : s.storeReg off v = s := by
  rw [State.storeReg_created c, State.blkWrite_readOnly s hb (sub_blkBase_ne_eventAt h)]

/-! ### Lock crossings (R108, R109) -/

/-- The state with its crossings replaced: all that a transfer leaves of itself beside the write. -/
def State.withXings (s : State) (l : List Xing) : State := s.onClk fun c => { c with xings := l }

@[simp] theorem State.withXings_host (l : List Xing) : (s.withXings l).host = s.host := rfl

theorem State.eventOf_withXings (l : List Xing) (b : Blk) : (s.withXings l).eventOf b = s.eventOf b := by cases b <;> rfl

theorem State.itemCreated_withXings (l : List Xing) (b : Blk) (o : Nat) : (s.withXings l).itemCreated b o = s.itemCreated b o := by
  cases b <;> rfl

theorem State.withXings_kept {M : Part → Prop} (l : List Xing) (m : M .clk) : Kept M s (s.withXings l) := State.onClk_kept (.refl s) _

theorem State.crossWrite_own {src off : Nat} (d : blkDomain (blkAt off) = src) (v : Word) : s.crossWrite src off v = s.storeReg off v :=
  if_pos d

theorem State.crossWrite_of_held {src off : Nat} (d : blkDomain (blkAt off) ≠ src) (h : (s.regXing src off).held.isSome = true) (v : Word) :
    s.crossWrite src off v = s.xingShadow (s.regXing src off) off v :=
  (if_neg d).trans (if_pos h)

theorem State.crossWrite_of_free {src off : Nat} (d : blkDomain (blkAt off) ≠ src) (h : ¬(s.regXing src off).held.isSome = true) (v : Word) :
    s.crossWrite src off v = s.xingStart (s.regXing src off) off v :=
  (if_neg d).trans (if_neg h)

theorem State.xingStart_running {x : Xing} (h : s.clk.isStopped x.domain = false) (off : Nat) (v : Word) :
    ∃ l, s.xingStart x off v = (s.withXings l).storeReg off v := by
  simp only [State.xingStart, h, Bool.false_eq_true, if_false, State.xingCapture]
  exact ⟨_, rfl⟩

theorem State.xingStart_stopped {x : Xing} (h : s.clk.isStopped x.domain = true) (off : Nat) (v : Word) :
    ∃ y, s.xingStart x off v = s.onXing y := by
  simp only [State.xingStart, h, if_true]
  exact ⟨_, rfl⟩

variable {s} in
/-- Over an open way a write reaches its block at once. -/
theorem State.crossWrite_of_wayOpen {off : Nat} (h : s.wayOpen off) (v : Word) : ∃ l, s.crossWrite 3 off v = (s.withXings l).storeReg off v := by
  by_cases d : blkDomain (blkAt off) = 3
  · exact ⟨s.clk.xings, s.crossWrite_own d v⟩
  · simp only [State.wayOpen, d, decide_false, Bool.false_or, Bool.and_eq_true, Bool.not_eq_true'] at h
    obtain ⟨free, runs⟩ := h
    rw [s.crossWrite_of_free d (by simp [free])]
    exact s.xingStart_running runs off v

/-- A write reaches its block over an open way; over one that is not it stays in the shadow, or in the register for a stopped domain. -/
theorem State.crossWrite_cases (off : Nat) (v : Word) :
    (s.wayOpen off = true ∧ ∃ l, s.crossWrite 3 off v = (s.withXings l).storeReg off v) ∨
    (s.wayOpen off = false ∧ ∃ x, s.crossWrite 3 off v = s.xingShadow x off v ∨ s.crossWrite 3 off v = s.onXing x) := by
  cases h : s.wayOpen off
  · refine .inr ⟨rfl, ?_⟩
    simp only [State.wayOpen, Bool.or_eq_false_iff, decide_eq_false_iff_not, Bool.and_eq_false_iff, Bool.not_eq_false'] at h
    obtain ⟨d, shut⟩ := h
    by_cases held : (s.regXing 3 off).held.isSome = true
    · exact ⟨_, .inl (s.crossWrite_of_held d held v)⟩
    · obtain ⟨y, hy⟩ := s.xingStart_stopped (shut.resolve_left held) off v
      exact ⟨y, .inr ((s.crossWrite_of_free d held v).trans hy)⟩
  · exact .inl ⟨rfl, State.crossWrite_of_wayOpen h v⟩

theorem State.xingShadow_host (x : Xing) (off : Nat) (v : Word) : (s.xingShadow x off v).host = s.host :=
  (State.xingShadow_kept (M := (· ∈ [.clk])) x off v (.refl s)).parts .host (by simp)

theorem State.xingShadow_empty {x : Xing} (h : x.shadow = none) (off : Nat) (v : Word) :
    s.xingShadow x off v = s.onXing { x with shadow := some (off, v) } := by
  simp [State.xingShadow, h]

theorem State.xingShadow_full {x : Xing} (h : x.shadow.isSome) (off : Nat) (v : Word) :
    (s.xingShadow x off v).clk =
      { (s.onXing { x with shadow := some (off, v), overwrite := satInc 8 x.overwrite }).clk with
        overwriteCount := satInc 16 s.clk.overwriteCount, overwriteId := x.id, event := s.clk.event.raise 9 } := by
  have full : x.shadow.isNone = false := by simpa using h
  simp only [State.xingShadow, full, Bool.false_eq_true, if_false]
  rfl

theorem State.regXing_id (src off : Nat) : (s.regXing src off).id = Config.xingId src off % 65536 := by
  simp only [State.regXing, ClkState.xing]
  cases h : s.clk.xings.find? (·.id == Config.xingId src off % 65536) with
  | none => rfl
  | some x => simpa using List.find?_some h

variable {s} in
/-- The crossing that was stored last under an identifier is the one that serves its registers. -/
theorem State.regXing_of_stored {t : State} {x : Xing} (ht : t.clk.xings = (s.onXing x).clk.xings) {src off : Nat}
    (hx : x.id = Config.xingId src off % 65536) : t.regXing src off = x := by
  simp [State.regXing, ClkState.xing, ht, State.onXing, hx]

variable {s}

/-! ### The commands of a write -/

theorem exec_hostWrite {off p : Nat} (h : off < bar0Size) (hp : off / 4 * 4 = p) (free : s.bar0Blocked p true = none) (v : Word) :
    exec (.registerWrite off v .host) s = .next ((s.crossWrite 3 p v).answer .written) := by
  subst hp
  refine (if_pos h).trans ?_
  simp only [State.bar0Write, free]

theorem exec_w1cWrite_eq (off : Nat) (v : Word) : exec (.w1cWrite off v) s = exec (.registerWrite off v .host) s := rfl

theorem exec_innerWrite {off : Nat} (h : off < bar0Size) (d : Nat) (v : Word) :
    exec (.registerWrite off v (.inner d)) s = .next (s.innerWrite d (off / 4 * 4) v) :=
  if_pos h

/-- A bit written 1 to an EVENT register clears, and its counter stays (R9). -/
theorem exec_w1cWrite_clears {b : Blk} (created : s.itemCreated b (eventAt b)) (free : s.bar0Blocked (blkBase b + eventAt b) true = none)
    (way : s.wayOpen (blkBase b + eventAt b)) (v : Word) :
    ∃ t, exec (.w1cWrite (blkBase b + eventAt b) v) s = .next t ∧ (t.eventOf b).bits = (s.eventOf b).bits &&& ~~~v ∧
      (t.eventOf b).cnt = (s.eventOf b).cnt ∧ t.host.accesses = .written :: s.host.accesses ∧ OnlyTouches [blkPart b, .clk, .host] s t := by
  have hb := blkAt_blkBase_add b (eventAt_lt b)
  have ho := Nat.add_sub_cancel_left (blkBase b) (eventAt b)
  obtain ⟨l, hl⟩ := State.crossWrite_of_wayOpen way v
  have store : s.crossWrite 3 (blkBase b + eventAt b) v = (s.withXings l).onEvent b fun e => e.write v := by
    rw [hl, State.storeReg_created (by rw [hb, ho, State.itemCreated_withXings]; exact created), hb, ho, State.blkWrite_event]
  have event : (((s.withXings l).onEvent b fun e => e.write v).answer .written).eventOf b = (s.eventOf b).write v := by
    rw [State.eventOf_answer, State.eventOf_onEvent, State.eventOf_withXings]
  refine ⟨((s.withXings l).onEvent b fun e => e.write v).answer .written, ?_, ?_, ?_, ?_, ?_⟩
  · rw [exec_w1cWrite_eq, exec_hostWrite (blkBase_add_lt_bar0Size b (eventAt_lt b)) (blkBase_add_word b (eventAt_aligned b)) free, store]
  · rw [event]; rfl
  · rw [event]; rfl
  · rw [State.answer_accesses, State.onEvent_accesses, State.withXings_host]
  · exact (State.answer_kept _ (State.onEvent_kept b _ (s.withXings_kept l (by simp)))).frame

/-- The host writes HOST_IRQ_MASK, which lies in its own domain (R512). -/
theorem exec_registerWrite_irqMask (free : s.bar0Blocked (blkBase .host + 0x20) true = none) (v : Word) :
    ∃ t, exec (.registerWrite (blkBase .host + 0x20) v .host) s = .next t ∧
      t.host = { s.host with irqMask := v &&& 0x3FF, accesses := .written :: s.host.accesses } ∧ OnlyTouches [.host] s t := by
  have hb : blkAt (blkBase .host + 0x20) = .host := blkAt_blkBase_add .host (by decide)
  have store : s.crossWrite 3 (blkBase .host + 0x20) v = s.onHost fun h => { h with irqMask := v &&& 0x3FF } := by
    rw [s.crossWrite_own (by rw [hb]; rfl), State.storeReg_created (by rw [hb]; rfl), hb]
    rfl
  have kept : Kept (· ∈ [.host]) s (s.onHost fun h => { h with irqMask := v &&& 0x3FF }) := State.onHost_kept (.refl s) fun _ k => k
  refine ⟨_, (exec_hostWrite (p := blkBase .host + 0x20) (by decide) rfl free v).trans (by rw [store]), rfl, (State.answer_kept .written kept).frame⟩

/-- A host write of a register that is read-only leaves nothing but itself in the crossing and the access done (R9, R591). -/
theorem exec_registerWrite_readOnly {o : Nat} (ho : o < bar0Size) (hb : blkAt (o / 4 * 4) ∈ readOnlyBlks)
    (h : o / 4 * 4 ≠ blkBase (blkAt (o / 4 * 4)) + eventAt (blkAt (o / 4 * 4)))
    (created : s.itemCreated (blkAt (o / 4 * 4)) (o / 4 * 4 - blkBase (blkAt (o / 4 * 4))))
    (free : s.bar0Blocked (o / 4 * 4) true = none) (v : Word) :
    ∃ t, exec (.registerWrite o v .host) s = .next t ∧ t.host = { s.host with accesses := .written :: s.host.accesses } ∧
      (s.wayOpen (o / 4 * 4) → t.clk = { s.clk with xings := t.clk.xings }) ∧ OnlyTouches [.clk, .host] s t := by
  refine ⟨_, exec_hostWrite ho rfl free v, ?_⟩
  obtain ⟨way, l, hl⟩ | ⟨shut, x, hx | hx⟩ := s.crossWrite_cases (o / 4 * 4) v
  · rw [hl, State.storeReg_readOnly hb h (by rwa [State.itemCreated_withXings])]
    exact ⟨rfl, fun _ => rfl, (State.answer_kept _ (s.withXings_kept l (by simp))).frame⟩
  · rw [hx]
    refine ⟨?_, by simp [shut], (State.answer_kept _ (State.xingShadow_kept x _ _ (.refl s))).frame⟩
    rw [State.answer, State.onHost_host, State.xingShadow_host]
  · rw [hx]
    exact ⟨rfl, by simp [shut], (State.answer_kept _ (State.onXing_kept x (.refl s))).frame⟩

/-- A host write of an item that is not created is recorded, and has no other effect (R32). -/
theorem exec_registerWrite_uncreated {o : Nat} (ho : o < bar0Size)
    (created : s.itemCreated (blkAt (o / 4 * 4)) (o / 4 * 4 - blkBase (blkAt (o / 4 * 4))) = false)
    (free : s.bar0Blocked (o / 4 * 4) true = none) (way : s.wayOpen (o / 4 * 4)) (v : Word) :
    ∃ t, exec (.registerWrite o v .host) s = .next t ∧ t.sys.uninstBlock = (blkAt (o / 4 * 4)).num ∧
      t.sys.uninstCount = satInc 16 s.sys.uninstCount ∧ t.sys.event = s.sys.event.raise 5 ∧ OnlyTouches [.sys, .clk, .host] s t := by
  obtain ⟨l, hl⟩ := State.crossWrite_of_wayOpen way v
  refine ⟨_, exec_hostWrite ho rfl free v, ?_⟩
  rw [hl, State.storeReg_uncreated (by rwa [State.itemCreated_withXings])]
  exact ⟨rfl, rfl, rfl, (State.answer_kept _ (State.noteUninst_kept _ (s.withXings_kept l (by simp)))).frame⟩

/-- A write that finds its crossing held goes to the shadow; one that replaces a value there is counted (R109). -/
theorem exec_registerWrite_held {o p : Nat} {x : Xing} (ho : o < bar0Size) (hp : p = o / 4 * 4) (free : s.bar0Blocked p true = none)
    (d : blkDomain (blkAt p) ≠ 3) (hx : s.regXing 3 p = x) (held : x.held.isSome) (v : Word) :
    ∃ t, exec (.registerWrite o v .host) s = .next t ∧
      t.host = { s.host with accesses := .written :: s.host.accesses } ∧
      (x.shadow = none → t.regXing 3 p = { x with shadow := some (p, v) } ∧ t.clk.overwriteCount = s.clk.overwriteCount) ∧
      (x.shadow.isSome → t.regXing 3 p = { x with shadow := some (p, v), overwrite := satInc 8 x.overwrite } ∧
        t.clk.overwriteCount = satInc 16 s.clk.overwriteCount ∧ t.clk.overwriteId = x.id ∧ t.clk.event = s.clk.event.raise 9) ∧
      OnlyTouches [.clk, .host] s t := by
  subst hp hx
  have id := s.regXing_id 3 (o / 4 * 4)
  refine ⟨_, exec_hostWrite ho rfl free v, ?_, fun empty => ?_, fun full => ?_, ?_⟩ <;> rw [s.crossWrite_of_held d held]
  · rw [State.answer, State.onHost_host, State.xingShadow_host]
  · rw [s.xingShadow_empty empty]
    exact ⟨State.regXing_of_stored rfl id, rfl⟩
  · have clk := s.xingShadow_full full (o / 4 * 4) v
    refine ⟨State.regXing_of_stored (s := s) ?_ id, ?_, ?_, ?_⟩ <;> rw [State.answer_clk, clk]
  · exact (State.answer_kept _ (State.xingShadow_kept _ _ _ (.refl s))).frame

/-- A write from inside over a crossing that re-aligns is discarded and counted (R113). -/
theorem exec_innerWrite_realigns {o d : Nat} (ho : o < bar0Size) (hd : blkDomain (blkAt (o / 4 * 4)) ≠ d)
    (realigns : s.blkRealigns (blkAt (o / 4 * 4))) (v : Word) :
    ∃ t, exec (.registerWrite o v (.inner d)) s = .next t ∧ t.clk = { s.clk with presetDropped := satInc 8 s.clk.presetDropped } ∧
      OnlyTouches [.clk] s t := by
  refine ⟨s.xingDropped, ?_, rfl, (State.xingDropped_kept (.refl s)).frame⟩
  rw [exec_innerWrite ho, State.innerWrite, if_pos (by simp [hd, realigns])]

/-- A write from within the register's own domain needs no crossing: of a read-only register it changes nothing (R9, R108). -/
theorem exec_innerWrite_readOnly {o : Nat} (ho : o < bar0Size) (hb : blkAt (o / 4 * 4) ∈ readOnlyBlks)
    (h : o / 4 * 4 ≠ blkBase (blkAt (o / 4 * 4)) + eventAt (blkAt (o / 4 * 4)))
    (created : s.itemCreated (blkAt (o / 4 * 4)) (o / 4 * 4 - blkBase (blkAt (o / 4 * 4)))) (v : Word) :
    exec (.registerWrite o v (.inner (blkDomain (blkAt (o / 4 * 4))))) s = .next s := by
  rw [exec_innerWrite ho, State.innerWrite, if_neg (by simp), State.crossWrite, if_pos rfl, State.storeReg_readOnly hb h created]

/-! ### Accesses that reach no register -/

/-- Beyond BAR0 the model stops by name (R480). -/
theorem exec_outsideBar0 {o : Nat} (h : bar0Size ≤ o) (v : Word) (who : Requester) (z : Writer) :
    exec (.registerWrite o v z) s = .fault .outsideBar0 ∧ exec (.w1cWrite o v) s = .fault .outsideBar0 ∧
      exec (.snapshotLowWordRead who o) s = .fault .outsideBar0 :=
  ⟨if_neg h.not_gt, if_neg h.not_gt, if_neg h.not_gt⟩

/-- An access to an item that is not created reads zero and is recorded (R32). -/
theorem exec_uninstAccess_records (s : State) (b : Blk) : ∃ t, exec (.uninstAccess b) s = .next t ∧
    t.sys = { s.sys with uninstBlock := b.num, uninstCount := satInc 16 s.sys.uninstCount, event := s.sys.event.raise 5 } ∧
    t.host.accesses = .data 0 :: s.host.accesses ∧ OnlyTouches [.sys, .host] s t :=
  ⟨_, rfl, rfl, rfl, (State.answer_kept _ (State.noteUninst_kept b (.refl s))).frame⟩

/-- A write that BAR0 cannot take is dropped and counted (R591). -/
theorem exec_bar0BadWrite_counts (s : State) : ∃ t, exec .bar0BadWrite s = .next t ∧
    t.host = { s.host with bar0Bad := satInc 16 s.host.bar0Bad, accesses := .written :: s.host.accesses } ∧ OnlyTouches [.host] s t :=
  ⟨_, rfl, rfl, (execBar0BadWrite_kept (.refl s)).frame rfl⟩

/-- Settles O47, clause by clause. -/
theorem registersReadAndWrite : Obligations.RegistersReadAndWrite := by
  refine ⟨?_, ?_, ?_, ?_, ?_, ?_, ?_, ?_, ?_, ?_, ?_, ?_, ?_, ?_, ?_⟩
  · exact fun _ _ v created free way => exec_w1cWrite_clears created free way v
  · exact fun _ v free => exec_registerWrite_irqMask free v
  · rintro s o b v ho rfl hb h created free
    exact exec_registerWrite_readOnly ho hb h created free v
  · rintro s o b v ho rfl created free way
    exact exec_registerWrite_uncreated ho created free way v
  · exact fun _ _ _ v _ ho hp free d hx held => exec_registerWrite_held ho hp free d hx held v
  · exact exec_uninstAccess_records
  · exact exec_bar0BadWrite_counts
  · exact fun _ _ _ _ _ ho aligned hb free old low hp => exec_read_low ho aligned hb free old low hp
  · exact fun _ _ _ _ ho aligned hb free low created => exec_read_snapped ho aligned hb free low created
  · exact fun _ _ _ ho inner => exec_read_inner ho inner
  · exact fun _ _ _ hn free => exec_evcntWord0Read_snaps hn free
  · exact fun _ free => exec_hostBerthUseRead_peak free
  · exact fun _ _ _ v ho hd realigns => exec_innerWrite_realigns ho hd realigns v
  · rintro s o b v ho rfl hb h created
    exact exec_innerWrite_readOnly ho hb h created v
  · exact fun _ _ v who z h => exec_outsideBar0 h v who z

end Sys2Proof.Machine
end

section
/-! SUPPORT. What the stages of a lane period leave of the place of the lanes on the grid and of what PROT shows: the group, the trip outputs, the
counts of evaluations, the status vector (spec/01_architecture_and_profiles.md R19; spec/05_protection_engine.md R156). -/

namespace Sys2Proof.Machine

set_option Elab.async false

open Sys2Proof

variable (s : State)

/-- What orders the lane periods, and what only trip stages and boundaries change of PROT. -/
structure LaneView where
  running : Bool
  startIdx : Nat
  fastIdx : Nat
  fastDone : Nat
  phasorDone : Nat
  alignFast : Ns
  alignPhasor : Ns
  manifest : Manifest
  ready : Bool
  group : Nat
  trips : List Trip
  fastCount : Nat
  phasorCount : Nat
  vector : StatusVector

/-- The view of a state. -/
def State.laneView : LaneView where
  running := s.acq.running
  startIdx := s.acq.startIdx
  fastIdx := s.acq.fastIdx
  fastDone := s.acq.fastDone
  phasorDone := s.acq.phasorDone
  alignFast := s.acq.alignFast
  alignPhasor := s.acq.alignPhasor
  manifest := s.manifest
  ready := s.prot.ready
  group := s.prot.group
  trips := s.prot.trips
  fastCount := s.prot.fastCount
  phasorCount := s.prot.phasorCount
  vector := s.prot.vector

variable {s} in
/-- An operation that leaves ACQ, PROT and the Manifest alone leaves the view. -/
theorem Kept.laneView {t : State} (h : Kept (· ∉ [.manifest, .acq, .prot]) s t) : t.laneView = s.laneView := by
  have hm : t.manifest = s.manifest := h.parts .manifest (by simp)
  have ha : t.acq = s.acq := h.parts .acq (by simp)
  have hp : t.prot = s.prot := h.parts .prot (by simp)
  simp only [State.laneView, hm, ha, hp]

@[simp] theorem State.laneView_forEach {α : Type} {f : State → α → State} (hf : ∀ s x, (f s x).laneView = s.laneView) :
    ∀ (l : List α) (s : State), (s.forEach l f).laneView = s.laneView
  | [], _ => rfl
  | x :: l, s => (State.laneView_forEach hf l (f s x)).trans (hf s x)

@[simp] theorem State.laneView_when {f : State → State} (hf : ∀ s, (f s).laneView = s.laneView) (c : Bool) (s : State) :
    (s.when c f).laneView = s.laneView := by
  cases c
  · rfl
  · exact hf s

/-! ### One update -/

@[simp] theorem State.laneView_report (n : Rec) (x : Nat) (l : List Int) : (s.report n x l).laneView = s.laneView := rfl
@[simp] theorem State.laneView_onAin (c : Nat) (f : Ain → Ain) : (s.onAin c f).laneView = s.laneView := rfl
@[simp] theorem State.laneView_onElem (e : Nat) (f : Elem → Elem) : (s.onElem e f).laneView = s.laneView := rfl

@[simp] theorem State.laneView_onLane (l : LaneId) (f : Lane → Lane) : (s.onLane l f).laneView = s.laneView := by
  cases l <;> rfl

@[simp] theorem State.laneView_raise_acq (i : Nat) : (s.raise .acq i).laneView = s.laneView := rfl
@[simp] theorem State.laneView_raise_prot (i : Nat) : (s.raise .prot i).laneView = s.laneView := rfl

@[simp] theorem State.laneView_elemChanged (e t : Nat) (pu op pu' op' : Bool) : (s.elemChanged e t pu op pu' op').laneView = s.laneView :=
  (State.elemChanged_kept e t pu op pu' op' (.refl s)).laneView

@[simp] theorem State.laneView_elemsOff (l : List Elem) : (s.elemsOff l).laneView = s.laneView := (State.elemsOff_kept l (.refl s)).laneView

@[simp] theorem State.laneView_pathFail (i : Nat) : (s.pathFail i).laneView = s.laneView := rfl

/-! ### Acquisition -/

@[simp] theorem State.laneView_chainIn (c : Nat) (bits : BitVec 768) : (s.chainIn c bits).laneView = s.laneView := by
  unfold State.chainIn
  split
  · rfl
  · extract_lets
    rw [State.laneView_when]
    · rfl
    · simp

@[simp] theorem State.laneView_pubSample (k : Nat) (p : Pub) : (s.pubSample k p).laneView = s.laneView := by
  unfold State.pubSample
  extract_lets asdu l set y u v
  split
  · rfl
  · split
    · exact (State.sendOwn_kept _ (.refl _)).laneView
    · rfl

@[simp] theorem State.laneView_publish (k : Nat) : ∀ (fuel : Nat) (s : State), (State.publish k fuel s).laneView = s.laneView
  | 0, _ => rfl
  | fuel + 1, s => by
    unfold State.publish
    split
    · split
      · rw [State.laneView_publish k fuel, State.laneView_pubSample]
      · rfl
    · rfl

@[simp] theorem State.laneView_publishAll (lane : LaneRate) : (s.publishAll lane).laneView = s.laneView :=
  State.laneView_forEach (fun s p => by split <;> simp) _ s

@[simp] theorem State.laneView_overrangeEnd (a : Ain) : (s.overrangeEnd a).laneView = s.laneView := by
  unfold State.overrangeEnd
  extract_lets u q v
  split
  · rfl
  · rw [State.laneView_when]
    · rfl
    · simp

@[simp] theorem State.laneView_phasorIn : s.phasorIn.laneView = s.laneView := by
  refine State.laneView_forEach (fun t a => ?_) _ s
  extract_lets
  rw [State.laneView_overrangeEnd]
  rfl

@[simp] theorem State.laneView_waveOnset (c w : Nat) : (s.waveOnset c w).laneView = s.laneView := (State.waveOnset_kept c w (.refl s)).laneView

/-! ### Release to the lanes (R18, R143, R192) -/

@[simp] theorem State.laneView_laneOut (l : LaneId) (c : OutCause) : (s.laneOut l c).laneView = s.laneView := by
  unfold State.laneOut
  split
  · rfl
  · extract_lets u v w x
    have hw : w.laneView = s.laneView := s.laneView_onLane l _
    split
    · exact (w.laneView_elemsOff _).trans hw
    · exact hw

@[simp] theorem State.laneView_laneIntake (l : LaneId) (r : SampleSet) (bad : List ChanRef) : (s.laneIntake l r bad).laneView = s.laneView := by
  unfold State.laneIntake
  extract_lets out bad r u v w
  have hv : v.laneView = s.laneView := by simp [v, u]
  split
  · split <;> simp [w, hv]
  · exact hv

theorem State.laneView_release (lane : LaneRate) (i : Nat) (x : StrobeIn) : (s.release lane i x).1.laneView = s.laneView := by
  unfold State.release
  extract_lets r u
  have hu : u.laneView = s.laneView := by cases lane <;> rfl
  have hc : ∀ t : State, (t.captRelease lane r).laneView = t.laneView := fun t => (State.captRelease_kept lane r (.refl t)).laneView
  have ho : ∀ t : State, (t.svOnset lane r).laneView = t.laneView := fun t => (State.svOnset_kept lane r (.refl t)).laneView
  simp [hu, hc, ho]

/-! ### Evaluation (R155, R157, R191, R192) -/

@[simp] theorem State.laneView_laneDeadline (rate : LaneRate) (l : LaneId) (miss : Bool) : (s.laneDeadline rate l miss).laneView = s.laneView := by
  unfold State.laneDeadline
  split
  · rfl
  · extract_lets next u v x
    have hu : u.laneView = s.laneView := s.laneView_onLane l _
    split
    · exact hu
    · rw [apply_ite State.laneView, State.laneView_laneOut, ite_self]
      exact hu

@[simp] theorem State.laneView_suspect (e : Nat) : (s.suspect e).laneView = s.laneView := by
  unfold State.suspect
  split <;> rfl

@[simp] theorem State.laneView_disagree (c : ElemCfg) (a b : ElemLane) : (s.disagree c a b).laneView = s.laneView := by
  unfold State.disagree
  extract_lets bad fresh u v w
  have hw : w.laneView = s.laneView := by
    show (v.when fresh _).laneView = _
    rw [State.laneView_when fun _ => by rfl]
    rfl
  split
  · exact hw
  · rw [State.laneView_suspect, hw]

@[simp] theorem State.laneView_evalElem (s0 : State) (rate : LaneRate) (t : Nat) (missA missB : Bool) (ups : List Upset)
    (zone : LaneId → Option ZoneQ) (c : ElemCfg) : (State.evalElem s0 rate t missA missB ups zone s c).laneView = s.laneView := by
  unfold State.evalElem
  split
  · rfl
  · extract_lets _ _ _ _ _ _ _ _ _ _ _ u v
    have hv : v.laneView = u.laneView := by simp [v]
    rw [State.laneView_elemChanged, hv]
    rfl

@[simp] theorem State.laneView_evaluateAll (rate : LaneRate) (t : Nat) (x : StrobeIn) (l : List ElemCfg) (zone : LaneId → Option ZoneQ) :
    (s.evaluateAll rate t x l zone).laneView = s.laneView := by
  unfold State.evaluateAll
  rw [State.laneView_forEach fun u c => u.laneView_evalElem ..]
  rfl

@[simp] theorem State.laneView_evaluate (rate : LaneRate) (t : Nat) (x : StrobeIn) (l : List ElemCfg) : (s.evaluate rate t x l).laneView = s.laneView := by
  simp [State.evaluate]

/-! ### Sum frames (R212, R225) -/

@[simp] theorem State.laneView_diffContribute (t sec idx : Nat) : (s.diffContribute t sec idx).laneView = s.laneView := by
  have join : s.diffJoin.laneView = s.laneView := (State.diffJoin_kept (.refl s)).laneView
  unfold State.diffContribute
  extract_lets u zs con e v
  rw [State.laneView_forEach]
  · exact join
  · intro w z
    extract_lets a b
    refine State.laneView_when (fun q => ?_) _ w
    split
    · split
      · exact q.laneView_disagree ..
      · rfl
    · rfl

@[simp] theorem State.laneView_badTotals (l : LaneId) (bad : Bool) : (s.badTotals l bad).laneView = s.laneView := by
  simp [State.badTotals]

@[simp] theorem State.laneView_takeTotalsDue (t : Nat) (x : StrobeIn) (z : Nat) (d : ZoneTotals) :
    (s.takeTotalsDue t x z d).laneView = s.laneView := by
  unfold State.takeTotalsDue
  extract_lets u bad v own q w
  have hz : (w.zoneEvaluated z d).laneView = w.laneView := (State.zoneEvaluated_kept z d (.refl w)).laneView
  have hv : v.laneView = s.laneView := by
    simp only [v, State.laneView_badTotals]
    rfl
  have hw : w.laneView = v.laneView := by simp [w]
  rw [hz, hw, hv]

end Sys2Proof.Machine
end

section
/-! SUPPORT. Trip outputs over the stages that drive them, and what a lane period leaves (spec/01_architecture_and_profiles.md R19, R23, R26;
spec/05_protection_engine.md R156, R193). -/

namespace Sys2Proof.Machine

set_option Elab.async false

open Sys2Proof

variable (s : State)

/-! ### Stage 5 (R23) -/

/-- A trip output stands as the equations of R23 put it: its mask granted by the Manifest, its trip from its sources, mask and addition. -/
def Trip.Follows (y : Trip) (c : TripCfg) : Prop := y.mEff = (c.maskGrant && y.logicMask) ∧ y.trip = ((y.e && !y.mEff) || y.logicAdd)

theorem State.trip?_onTrip_self (k : Nat) {f : Trip → Trip} (hf : ∀ x, (f x).index = x.index) : (s.onTrip k f).trip? k = (s.trip? k).map f :=
  find?_map_if _ _ _ fun x => by rw [hf]

theorem State.trip?_onTrip_ne {j k : Nat} (h : j ≠ k) {f : Trip → Trip} (hf : ∀ x, (f x).index = x.index) :
    (s.onTrip k f).trip? j = s.trip? j := by
  have keeps (x : Trip) : (if x.index == k then f x else x).index = x.index := by split <;> simp [hf]
  simp only [State.trip?, State.onTrip, State.onProt, List.find?_map, Function.comp_def, keeps]
  cases found : s.prot.trips.find? (·.index == j) with
  | none => rfl
  | some x =>
    have hx : x.index = j := by simpa using List.find?_some found
    simp [hx, h]

/-- Stage 5 changes of PROT one trip output alone, which follows its equations afterwards. -/
theorem State.stage5_prot (t : Nat) (c : TripCfg) : ∃ f : Trip → Trip, (∀ x, (f x).index = x.index) ∧
    (∀ x, s.trip? c.index = some x → (f x).Follows c) ∧ (s.stage5 t c).prot = (s.onTrip c.index f).prot := by
  unfold State.stage5
  split
  case h_1 none => exact ⟨id, fun _ => rfl, by simp [none], by simp [State.onTrip]⟩
  case h_2 x found =>
    extract_lets cur rising sealEnd e mEff trip u v
    refine ⟨fun x => { x with e := e, trip := trip, sealEnd := sealEnd, mEff := mEff, sources := cur }, fun _ => rfl, fun y hy => ?_, ?_⟩
    · obtain rfl : x = y := Option.some.inj (found.symm.trans hy)
      exact ⟨rfl, rfl⟩
    · have hv : v.prot = u.prot := (State.when_kept (M := (· ∈ [.log])) (.refl u) fun _ k => State.report_kept _ _ _ k).parts .prot (by simp)
      rw [← show u.prot = _ from rfl, ← hv]
      split
      · rfl
      · have sent : Kept (· ∈ [.fio, .log, .capt]) v ((v.sendFio c.channel trip).report (if trip then .tripOn else .tripOff) c.index
            [c.index, sourceMask cur, b2n x.logicAdd]) := State.report_kept _ _ _ (State.sendFio_kept _ _ (.refl v))
        exact (State.when_kept (State.captDigital_kept _ _ t sent) fun _ k => State.captMetAll_kept _ _ k).parts .prot (by simp)

theorem State.stage5_follows {t : Nat} {c : TripCfg} {y : Trip} (h : (s.stage5 t c).trip? c.index = some y) : y.Follows c := by
  obtain ⟨f, index, follows, prot⟩ := s.stage5_prot t c
  rw [State.trip?, prot, ← State.trip?, s.trip?_onTrip_self _ index] at h
  obtain ⟨x, found, rfl⟩ := Option.map_eq_some_iff.mp h
  exact follows x found

theorem State.stage5_trip?_ne {t k : Nat} {c : TripCfg} (h : k ≠ c.index) : (s.stage5 t c).trip? k = s.trip? k := by
  obtain ⟨f, index, -, prot⟩ := s.stage5_prot t c
  rw [State.trip?, prot, ← State.trip?, s.trip?_onTrip_ne h index]

theorem State.forEach_stage5_trip?_ne {t k : Nat} : ∀ {l : List TripCfg} (s : State), k ∉ l.map (·.index) →
    (s.forEach l fun s c => s.stage5 t c).trip? k = s.trip? k
  | [], _, _ => rfl
  | c :: l, s, h => by
    obtain ⟨hc, hl⟩ := List.ne_and_not_mem_of_not_mem_cons h
    exact (State.forEach_stage5_trip?_ne (s.stage5 t c) hl).trans (s.stage5_trip?_ne hc)

/-- Trip outputs of distinct numbers all follow their equations once each has been served. -/
theorem State.forEach_stage5_follows {t : Nat} : ∀ {l : List TripCfg} (s : State), (l.map (·.index)).Nodup → ∀ c ∈ l, ∀ y,
    (s.forEach l fun s c => s.stage5 t c).trip? c.index = some y → y.Follows c
  | [], _, _, _, hc, _, _ => nomatch hc
  | d :: l, s, distinct, c, hc, y, hy => by
    obtain ⟨hd, hl⟩ := List.nodup_cons.mp distinct
    obtain rfl | hc := List.mem_cons.mp hc
    · rw [State.forEach_cons, State.forEach_stage5_trip?_ne _ hd] at hy
      exact s.stage5_follows hy
    · exact State.forEach_stage5_follows (s.stage5 t d) hl c hc y hy

theorem State.forEach_stage5_prot (t : Nat) : ∀ (l : List TripCfg) (s : State), ∃ trips,
    (s.forEach l fun s c => s.stage5 t c).prot = { s.prot with trips := trips }
  | [], _ => ⟨_, rfl⟩
  | c :: l, s => by
    obtain ⟨f, -, -, head⟩ := s.stage5_prot t c
    obtain ⟨trips, tail⟩ := State.forEach_stage5_prot t l (s.stage5 t c)
    exact ⟨trips, by rw [State.forEach_cons, tail, head]; rfl⟩

/-! ### Stages 5 and 6 -/

/-- What stages 5 and 6 leave of PROT: the trip outputs served, one more fast-lane evaluation, a new status vector (R30, R197). -/
theorem State.tripStages_prot (t : Nat) : ∃ trips vis, (s.tripStages t).prot =
    { s.prot with
      trips := trips, fastCount := s.prot.fastCount + 1, vector := { seq := wrapInc 16 s.prot.vector.seq, elems := vis } } := by
  obtain ⟨trips, served⟩ := State.forEach_stage5_prot t s.protCfg.trips s
  simp only [State.tripStages, State.stage6, State.onProt_prot, served]
  exact ⟨_, _, rfl⟩

theorem State.tripStages_acq (t : Nat) : (s.tripStages t).acq = s.acq :=
  (State.tripStages_kept (M := (· ∈ [.prot, .fio, .capt, .log])) t (.refl s)).parts .acq (by simp)

theorem State.tripStages_follows (t : Nat) (distinct : (s.protCfg.trips.map (·.index)).Nodup) :
    ∀ c ∈ s.protCfg.trips, ∀ y, (s.tripStages t).trip? c.index = some y → y.Follows c :=
  State.forEach_stage5_follows s distinct

/-! ### The parts of a period (R19, R156) -/

variable {s} in
/-- The instant that is due depends on the grid alone, and not on the phasor-lane periods that have run (R141, R143). -/
theorem State.dueInstant_congr {u : State} {n : Nat} (h : u.laneView = { s.laneView with phasorDone := n }) (lane : LaneRate) : u.dueInstant lane = s.dueInstant lane := by
  have running := congrArg LaneView.running h
  have start := congrArg LaneView.startIdx h
  have idx := congrArg LaneView.fastIdx h
  have fast := congrArg LaneView.alignFast h
  have phasor := congrArg LaneView.alignPhasor h
  simp only [State.laneView] at running start idx fast phasor
  cases lane <;> simp only [State.dueInstant, State.alignPeriods, running, start, idx, fast, phasor] <;> rfl

variable {s} in
theorem State.ready_congr {u : State} {n : Nat} (h : u.laneView = { s.laneView with phasorDone := n }) : u.prot.ready = s.prot.ready :=
  congrArg LaneView.ready h

/-- The fast-lane part ends in the trip stages, whether or not an instant is due, and PROT ready or not (R193). -/
theorem State.fastPart_eq (x : StrobeIn) : ∃ (u : State) (t : Nat), s.fastPart x = u.tripStages t ∧
    u.laneView = { s.laneView with fastDone := s.acq.fastIdx } := by
  unfold State.fastPart
  extract_lets d
  split
  case h_1 => exact ⟨d, _, rfl, rfl⟩
  case h_2 i _ =>
    refine ⟨_, _, rfl, ?_⟩
    rw [State.laneView_when (fun u => u.laneView_evaluate ..), State.laneView_release]
    rfl

theorem State.laneView_countPhasor : (s.onProt fun p => { p with phasorCount := p.phasorCount + 1 }).laneView =
    { s.laneView with phasorCount := s.laneView.phasorCount + 1 } := rfl

/-- The phasor-lane part drives no trip output; it counts an evaluation when PROT is ready and an instant is due. -/
theorem State.phasorPart_laneView (x : StrobeIn) : (s.phasorPart x).laneView =
    { s.laneView with
      phasorDone := s.acq.fastIdx / 3
      phasorCount := s.prot.phasorCount + b2n (s.prot.ready && (s.dueInstant .phasor).isSome) } := by
  unfold State.phasorPart
  extract_lets u
  have hu : u.laneView = { s.laneView with phasorDone := s.acq.fastIdx / 3 } := by
    rw [State.laneView_publishAll, State.laneView_phasorIn]
    rfl
  have due : u.dueInstant .phasor = s.dueInstant .phasor := State.dueInstant_congr hu .phasor
  rw [due]
  cases s.dueInstant .phasor with
  | none =>
    rw [Option.isSome_none, Bool.and_false]
    exact hu
  | some i =>
    rw [Option.isSome_some, Bool.and_true]
    dsimp -zeta only
    extract_lets r v w y
    have hv : v.laneView = u.laneView := u.laneView_release ..
    have hw : w.laneView = u.laneView := by
      unfold w
      split
      · rw [State.laneView_when fun _ => by rfl, State.laneView_diffContribute, hv]
      · exact hv
    have hr : w.prot.ready = s.prot.ready := State.ready_congr (hw.trans hu)
    rw [State.laneView_forEach fun _ _ => State.laneView_takeTotalsDue ..]
    unfold y
    rw [hr]
    cases s.prot.ready
    · rw [State.when_false, hw, hu]
      rfl
    · rw [State.when_true, State.laneView_countPhasor, State.laneView_evaluate, hw, hu]
      rfl

/-! ### Boundaries (R156) -/

variable {s}

theorem State.boundary_of_not_third (h : s.acq.fastIdx % 3 ≠ 0) (x : StrobeIn) : s.boundary x = (s, false) :=
  if_pos (by simp [h])

theorem State.boundary_of_served (h : s.acq.fastIdx / 3 ≤ s.prot.boundary) (x : StrobeIn) : s.boundary x = (s, false) :=
  if_pos (by simp [h])

variable (s) in
/-- Intake advances the grid index by the one strobe (R31, R127). -/
theorem State.intake_laneView (x : StrobeIn) : (s.intake x).laneView =
    { s.laneView with fastIdx := s.acq.fastIdx + 1, trips := s.prot.trips.map fun t => { t with was := t.trip } } := by
  unfold State.intake
  extract_lets u
  rw [State.laneView_publishAll, State.laneView_forEach]
  · rfl
  · simp

/-- At a due strobe between boundaries the whole of the period is the intake and the fast-lane part. -/
theorem exec_fastLanePeriod_between (due : s.strobeDue) (idle : s.acq.fastDone = s.acq.fastIdx) (third : (s.acq.fastIdx + 1) % 3 ≠ 0) (x : FastIn) :
    exec (.fastLanePeriod x) s = .next ((s.intake x).fastPart x) := by
  have idx : (s.intake x).acq.fastIdx = s.acq.fastIdx + 1 := congrArg LaneView.fastIdx (s.intake_laneView x)
  show execFastLanePeriod x s = _
  simp [execFastLanePeriod, idle, due, State.boundary_of_not_third (idx ▸ third) x]

/-- Once its boundary has been served, the whole of a phasor-lane period is the phasor-lane part. -/
theorem exec_phasorLanePeriod_served {k : Nat} (run : s.acq.running) (idx : s.acq.fastIdx = 3 * k) (waits : s.acq.phasorDone < k)
    (served : k ≤ s.prot.boundary) (x : PhasorIn) : exec (.phasorLanePeriod x) s = .next (s.phasorPart x) := by
  have place : s.acq.fastIdx / 3 = k := by omega
  show execPhasorLanePeriod x s = _
  simp [execPhasorLanePeriod, run, idx, waits, State.boundary_of_served (place ▸ served) x]

/-- What a fast-lane period between boundaries does. -/
theorem exec_fastLanePeriod_serves (s : State) (x : FastIn) (due : s.strobeDue) (idle : s.acq.fastDone = s.acq.fastIdx)
    (third : (s.acq.fastIdx + 1) % 3 ≠ 0) :
    ∃ t, exec (.fastLanePeriod x) s = .next t ∧ t.acq.fastIdx = s.acq.fastIdx + 1 ∧ t.acq.fastDone = s.acq.fastIdx + 1 ∧
      t.acq.phasorDone = s.acq.phasorDone ∧ t.prot.group = s.prot.group ∧ t.prot.fastCount = s.prot.fastCount + 1 ∧
      t.prot.vector.seq = wrapInc 16 s.prot.vector.seq ∧
      ((s.protCfg.trips.map (·.index)).Nodup → ∀ c ∈ s.protCfg.trips, ∀ y, t.trip? c.index = some y → y.Follows c) ∧
      OnlyTouches [.tide, .acq, .prot, .logic, .fio, .capt, .log, .net, .chk] s t := by
  obtain ⟨u, τ, part, view⟩ := (s.intake x).fastPart_eq x
  have taken := s.intake_laneView x
  have idx : (s.intake x).acq.fastIdx = s.acq.fastIdx + 1 := congrArg LaneView.fastIdx taken
  rw [taken, idx] at view
  obtain ⟨trips, vis, prot⟩ := u.tripStages_prot τ
  have acq := u.tripStages_acq τ
  refine ⟨_, exec_fastLanePeriod_between due idle third x, ?_, ?_, ?_, ?_, ?_, ?_, ?_, (State.fastPart_kept x (State.intake_kept x (.refl s))).frame⟩
  all_goals rw [part]
  · rw [acq]; exact congrArg LaneView.fastIdx view
  · rw [acq]; exact congrArg LaneView.fastDone view
  · rw [acq]; exact congrArg LaneView.phasorDone view
  · rw [prot]; exact congrArg LaneView.group view
  · rw [prot]; exact congrArg (LaneView.fastCount · + 1) view
  · rw [prot]; exact congrArg (fun v => wrapInc 16 v.vector.seq) view
  · have cfg : u.protCfg = s.protCfg := congrArg (·.manifest.prot) view
    exact cfg ▸ u.tripStages_follows τ

/-- What a phasor-lane period does once its boundary has been served. -/
theorem exec_phasorLanePeriod_serves (s : State) (x : PhasorIn) (k : Nat) (run : s.acq.running) (idx : s.acq.fastIdx = 3 * k)
    (waits : s.acq.phasorDone < k) (served : k ≤ s.prot.boundary) :
    ∃ t, exec (.phasorLanePeriod x) s = .next t ∧ t.acq.phasorDone = k ∧ t.acq.fastIdx = s.acq.fastIdx ∧ t.acq.fastDone = s.acq.fastDone ∧
      t.prot.trips = s.prot.trips ∧ t.prot.group = s.prot.group ∧
      (∀ i, s.prot.ready → s.dueInstant .phasor = some i → t.prot.phasorCount = s.prot.phasorCount + 1) ∧
      OnlyTouches [.tide, .acq, .prot, .diff, .logic, .capt, .log, .net, .chk] s t := by
  have view := s.phasorPart_laneView x
  refine ⟨_, exec_phasorLanePeriod_served run idx waits served x, ?_, congrArg LaneView.fastIdx view, congrArg LaneView.fastDone view,
    congrArg LaneView.trips view, congrArg LaneView.group view, fun i ready due => ?_, (State.phasorPart_kept x (.refl s)).frame⟩
  · have done : (s.phasorPart x).acq.phasorDone = s.acq.fastIdx / 3 := congrArg LaneView.phasorDone view
    omega
  · exact (congrArg LaneView.phasorCount view).trans (by rw [ready, due]; rfl)

/-- Settles O12: a lane period is the part of its lane, and the parts keep what the statement says. -/
theorem lanePeriodsServeTheirInstants : Obligations.LanePeriodsServeTheirInstants :=
  ⟨exec_fastLanePeriod_serves, exec_phasorLanePeriod_serves⟩

end Sys2Proof.Machine
end

section
/-! SUPPORT. The end of a logic cycle: what its write leaves in the tasks and in the field channels, and what a commit leaves in its group
(spec/10_logic_engine.md R348, R349, R361; spec/01_architecture_and_profiles.md R27). -/

namespace Sys2Proof.Machine

set_option Elab.async false

open Sys2Proof

variable (s : State)

/-! ### Tasks by number -/

theorem State.task?_onTask {t : Nat} {x : Task} (h : s.task? t = some x) (f : Task → Task) (hf : ∀ y, (f y).cfg = y.cfg := by exact fun _ => rfl) :
    (s.onTask t f).task? t = some (f x) :=
  (find?_map_if _ _ _ fun y => by rw [hf]).trans (congrArg _ h)

/-- Preemption is noted in every task and changes nothing else (R338). -/
theorem State.task?_preempt {t : Nat} {x : Task} (h : s.task? t = some x) : ∃ p, s.preempt.task? t = some { x with preempted := p } := by
  simp only [State.task?] at h
  simp only [State.task?, State.preempt, State.onLogic, List.find?_map, Function.comp_def, h, Option.map_some]
  exact ⟨_, rfl⟩

/-! ### The write of a field output (R27, R349) -/

variable {s}

theorem State.writeField_trip {ch : Nat} (h : (s.fioCh (s.gangLead ch)).owner = some .trip) (level : Bool) :
    s.writeField ch level = (s.onLogic fun l => { l with wrTripCh := satInc 16 l.wrTripCh, wrTripChLast := ch }, false) := by
  simp only [State.writeField, h]

theorem State.writeField_own {ch : Nat} (h : (s.fioCh (s.gangLead ch)).owner = some .logic) (free : s.exportedOut (s.gangLead ch) = false)
    (level : Bool) : s.writeField ch level = (s.sendFio (s.gangLead ch) level, true) := by
  simp only [State.writeField, h, free, Bool.false_eq_true, if_false]

/-- A command goes to the first member of the gang. -/
theorem State.fioCh_sendFio_self {m : Nat} (lead : s.gangLead m = m) (hm : m < s.fio.chans.length) (level : Bool) :
    (s.sendFio m level).fioCh m = { s.fioCh m with sent := (s.fioCh m).sent ++ [(level, s.now)] } := by
  rw [State.sendFio, lead]
  exact nth_updAt_self _ _ _ _ hm

/-- A command goes to no other channel. -/
theorem State.fioCh_sendFio_ne {m n : Nat} (lead : s.gangLead m = m) (hn : n ≠ m) (level : Bool) : (s.sendFio m level).fioCh n = s.fioCh n := by
  rw [State.sendFio, lead]
  exact nth_updAt_ne _ _ _ _ _ hn.symm

variable (s) in
/-- Asking for a commit changes the task group alone (R361). -/
theorem State.askCommit_eq (m : Nat) (lines : List Nat) : ∃ gs, s.askCommit m lines = s.onLogic fun l => { l with groups := gs } := by
  unfold State.askCommit
  dsimp only
  split
  · exact ⟨_, rfl⟩
  · split <;> exact ⟨_, rfl⟩

/-- A write of one field output: its acceptance is the task's one result (R349). -/
theorem State.outputWrite_field {t ch : Nat} {level ok : Bool} {x : Task} {u : State} (h : s.task? t = some x) (w : s.writeField ch level = (u, ok)) :
    ∃ gs, s.outputWrite t [.field ch level] =
      (u.onTask t fun x => { x with results := [ok] }).onLogic fun l => { l with groups := gs } := by
  obtain ⟨gs, hgs⟩ := (u.onTask t fun x => { x with results := [ok] }).askCommit_eq x.cfg.group
    ((u.onTask t fun x => { x with results := [ok] }).taskGroup x.cfg.group).dirty
  refine ⟨gs, ?_⟩
  rw [← hgs]
  simp only [State.outputWrite, h, List.foldl_cons, List.foldl_nil, State.logicReq, w, List.nil_append]
  rfl

/-! ### The end of the logic phase (R348) -/

/-- The task once its cycle has ended after a run of `e` ns (R372). -/
def Task.ended (k : Task) (e : Ns) : Task :=
  { k with running := false, preempted := false, exec := min (e / 1000) 65535, execMax := max (min (e / 1000) 65535) k.execMax }

variable (s) in
/-- The cycle of task `w` has ended after a run of `e` ns. -/
def State.cycleEnded (w : Nat) (e : Ns) : State := s.onTask w fun k => k.ended e

theorem State.task?_cycleEnded {w : Nat} {k : Task} (h : s.task? w = some k) (e : Ns) : (s.cycleEnded w e).task? w = some (k.ended e) :=
  s.task?_onTask h _

section
variable {x : WriteIn} {k : Task} (up : s.logic.phase = .running) (h : s.task? x.task = some k) (run : k.running) (pre : k.preempted = false)
include up h run pre

theorem exec_logicOutputWrite_held (hold : k.cfg.writeAtNext) : exec (.logicOutputWrite x) s =
    .next ((s.cycleEnded x.task x.exec).onTask x.task fun k => { k with heldWrite := some x.reqs }).preempt := by
  show execLogicOutputWrite x s = _
  simp [execLogicOutputWrite, h, up, run, pre, hold, State.cycleEnded, Task.ended]

theorem exec_logicOutputWrite_leaves (now : k.cfg.writeAtNext = false) : exec (.logicOutputWrite x) s =
    .next ((s.cycleEnded x.task x.exec).outputWrite x.task x.reqs).preempt := by
  show execLogicOutputWrite x s = _
  simp [execLogicOutputWrite, h, up, run, pre, now, State.cycleEnded, Task.ended]

end

/-- A write for the next release waits in its task (R348). -/
theorem exec_logicOutputWrite_waits (s : State) (x : WriteIn) (k : Task) (up : s.logic.phase = .running) (h : s.task? x.task = some k)
    (run : k.running) (pre : k.preempted = false) (hold : k.cfg.writeAtNext) :
    ∃ t y, exec (.logicOutputWrite x) s = .next t ∧ t.task? x.task = some y ∧ y.running = false ∧ y.heldWrite = some x.reqs ∧
      y.exec = min (x.exec / 1000) 65535 ∧ y.execMax = max (min (x.exec / 1000) 65535) k.execMax ∧ OnlyTouches [.logic] s t := by
  have holds := (s.cycleEnded x.task x.exec).task?_onTask (State.task?_cycleEnded h x.exec) fun k => { k with heldWrite := some x.reqs }
  obtain ⟨p, hp⟩ := State.task?_preempt _ holds
  exact ⟨_, _, exec_logicOutputWrite_held up h run pre hold, hp, rfl, rfl, rfl, rfl,
    (State.preempt_kept (State.onTask_kept _ _ (State.onTask_kept _ _ (.refl s)))).frame⟩

/-- The write of one field output that leaves with its cycle: what it does to LOGIC and FIO beside the tasks and groups is what `writeField`
does, and the task holds its acceptance (R348, R349). -/
theorem exec_logicOutputWrite_field {w ch : Nat} {e : Ns} {level ok : Bool} {k : Task} {u : State} (up : s.logic.phase = .running)
    (h : s.task? w = some k) (run : k.running) (pre : k.preempted = false) (now : k.cfg.writeAtNext = false)
    (wr : (s.cycleEnded w e).writeField ch level = (u, ok)) (tasks : u.logic.tasks = (s.cycleEnded w e).logic.tasks)
    {l : List Part} (kept : Kept (· ∈ l) (s.cycleEnded w e) u) (hl : .logic ∈ l := by simp) :
    ∃ t y, exec (.logicOutputWrite { task := w, exec := e, reqs := [.field ch level] }) s = .next t ∧ t.task? w = some y ∧
      y.running = false ∧ y.results = [ok] ∧ t.logic.wrTripCh = u.logic.wrTripCh ∧ t.logic.wrTripChLast = u.logic.wrTripChLast ∧
      t.fio = u.fio ∧ OnlyTouches l s t := by
  have ended := State.task?_cycleEnded h e
  obtain ⟨gs, hgs⟩ := State.outputWrite_field ended wr
  have hu : u.task? w = some (k.ended e) := (congrArg (List.find? _) tasks).trans ended
  have answered : ((u.onTask w fun x => { x with results := [ok] }).onLogic fun l => { l with groups := gs }).task? w = _ :=
    u.task?_onTask hu _
  obtain ⟨p, hp⟩ := State.task?_preempt _ answered
  refine ⟨_, _, (exec_logicOutputWrite_leaves up h run pre now).trans (by rw [hgs]), hp, rfl, rfl, rfl, rfl, rfl, ?_⟩
  exact (State.preempt_kept (State.onLogic_kept (State.onTask_kept _ _ ((State.onTask_kept _ _ (.refl s)).trans kept)) _)).frame

/-! ### Commits (R361) -/

theorem State.taskGroup_onTaskGroup {m : Nat} (hm : m < s.logic.groups.length) (f : Group → Group) :
    (s.onTaskGroup m f).taskGroup m = f (s.taskGroup m) :=
  nth_updAt_self _ _ _ _ hm

/-- The group once its commit `c` is complete: the buffer that did not hold S holds S + 1. -/
def Group.committed (g : Group) (c : Commit) : Group :=
  let b : Buffer := { valid := true, seq := g.seq + 1, layout := c.layout, cycles := c.cycles, vars := c.vars, insts := c.insts }
  { g with
    seq := g.seq + 1, inBuf1 := !g.inBuf1, buf0 := if g.inBuf1 then b else g.buf0, buf1 := if g.inBuf1 then g.buf1 else b
    busy := none, lastLines := g.busyLines }

theorem Group.committed_held (g : Group) (c : Commit) :
    (if g.inBuf1 then (g.committed c).buf1 else (g.committed c).buf0) = if g.inBuf1 then g.buf1 else g.buf0 := by
  cases h : g.inBuf1 <;> simp [Group.committed, h]

theorem Group.committed_other (g : Group) (c : Commit) : (if g.inBuf1 then (g.committed c).buf0 else (g.committed c).buf1) =
    { valid := true, seq := g.seq + 1, layout := c.layout, cycles := c.cycles, vars := c.vars, insts := c.insts } := by
  cases h : g.inBuf1 <;> simp [Group.committed, h]

theorem State.taskGroup_commitDone {m : Nat} {c : Commit} (hm : m < s.logic.groups.length) (busy : (s.taskGroup m).busy = some c)
    (alone : (s.taskGroup m).waiting = none) : (s.commitDone m).taskGroup m = (s.taskGroup m).committed c := by
  have waits : ((s.onTaskGroup m fun g => g.committed c).taskGroup m).waiting = none := by
    rw [State.taskGroup_onTaskGroup hm]
    exact alone
  have eq : s.commitDone m = s.onTaskGroup m fun g => g.committed c := by
    simp only [State.commitDone, busy]
    simp only [Group.committed] at waits ⊢
    simp only [waits]
  rw [eq, State.taskGroup_onTaskGroup hm]

theorem exec_logicCommitDone {m : Nat} (h : s.passed (s.taskGroup m).busySince (s.taskGroup m).commitTime) :
    exec (.logicCommitDone m) s = .next (s.commitDone m) :=
  congrArg _ (if_pos h)

/-- Settles O27, clause by clause. -/
theorem writesLeaveAndCommit : Obligations.WritesLeaveAndCommit := by
  refine ⟨exec_logicOutputWrite_waits, ?_, ?_, ?_⟩
  · intro s w ch e level k up h run pre now owner
    obtain ⟨t, y, ht, hy, ended, res, cnt, last, -, frame⟩ := exec_logicOutputWrite_field up h run pre now
      (State.writeField_trip (s := s.cycleEnded w e) owner level) rfl (l := [.logic]) (State.onLogic_kept (.refl _) _)
    exact ⟨t, y, ht, hy, ended, res, cnt, last, frame⟩
  · rintro s w ch _ e level k up h run pre now rfl owner free lead hm
    obtain ⟨t, y, ht, hy, ended, res, -, -, fio, frame⟩ := exec_logicOutputWrite_field up h run pre now
      (State.writeField_own (s := s.cycleEnded w e) owner free level) rfl (l := [.logic, .fio]) (State.sendFio_kept _ _ (.refl _))
    have sent (n : Nat) : t.fioCh n = ((s.cycleEnded w e).sendFio (s.gangLead ch) level).fioCh n := by rw [State.fioCh, fio]; rfl
    exact ⟨t, y, ht, hy, ended, res, (sent _).trans (State.fioCh_sendFio_self (s := s.cycleEnded w e) lead hm level),
      fun n hn => (sent n).trans (State.fioCh_sendFio_ne (s := s.cycleEnded w e) lead hn level), frame⟩
  · rintro s m _ c hm rfl busy alone due
    refine ⟨_, _, exec_logicCommitDone due, State.taskGroup_commitDone hm busy alone, rfl, rfl, rfl, rfl, ?_, ?_, ?_⟩
    · exact Group.committed_held _ c
    · exact Group.committed_other _ c
    · exact (State.commitDone_kept m (.refl s)).frame

end Sys2Proof.Machine
end

section
/-! SUPPORT. What every step keeps (spec/02_tide.md R69, spec/15_host_cluster_berths.md R487). -/

namespace Sys2Proof.Machine

open Sys2Proof

/-- Every command keeps the queue, the antifuses and the numbers of berths and marks, row by row of the dispatch. -/
theorem exec_kept (s : State) : ∀ c : Instr, KeptOut (fun _ => True) s (exec c s)
  | .supplyLevelChange vlb mv => execSupplyLevelChange_kept vlb mv (.refl s)
  | .supplyValid => execSupplyValid_kept (.refl s)
  | .supplySingle => execSupplySingle_kept (.refl s)
  | .startupStage x => execStartupStage_kept x (.refl s)
  | .lastwordsEntry => execLastwordsEntry_kept (.refl s)
  | .lastwordsEnd => execLastwordsEnd_kept (.refl s)
  | .rstNReset held => execRstNReset_kept held (.refl s)
  | .systemWatchdogExpiry => execSystemWatchdogExpiry_kept (.refl s)
  | .hotReset => execHotReset_kept (.refl s)
  | .perstReset => execPerstReset_kept (.refl s)
  | .xrefLoss => execXrefLoss_kept (.refl s)
  | .xrefReturn => execXrefReturn_kept (.refl s)
  | .refQualified q => execRefQualified_kept q (.refl s)
  | .tcxoLoss => execTcxoLoss_kept (.refl s)
  | .spllLocked l => execSpllLocked_kept l (.refl s)
  | .spllQualified l => execSpllQualified_kept l (.refl s)
  | .spllLossOfLock x => execSpllLossOfLock_kept x (.refl s)
  | .spllRetry l => execSpllRetry_kept l (.refl s)
  | .clkGuard d => execClkGuard_kept d (.refl s)
  | .clkRetune b => execClkRetune_kept b (.refl s)
  | .retuneTimeout => execRetuneTimeout_kept (.refl s)
  | .clkLoopReset b => execClkLoopReset_kept b (.refl s)
  | .measStrobe steer => execMeasStrobe_kept steer (.refl s)
  | .mpllLol => execMpllLol_kept (.refl s)
  | .mpllRequalified => execMpllRequalified_kept (.refl s)
  | .degradedEnd => execDegradedEnd_kept (.refl s)
  | .dramRetrainDone => execDramRetrainDone_kept (.refl s)
  | .partnerReset x src d token aligned => execPartnerReset_kept x src d token aligned (.refl s)
  | .domainStopped d => execDomainStopped_kept d (.refl s)
  | .stoppedDomainAccess offset write => execStoppedDomainAccess_kept offset write (.refl s)
  | .tideRateRecompute => execTideRateRecompute_kept (.refl s)
  | .handoverStart => execHandoverStart_kept (.refl s)
  | .tideCycleCarry => execTideCycleCarry_kept (.refl s)
  | .tideFallback => execTideFallback_kept (.refl s)
  | .pilotUpdate x => execPilotUpdate_kept x (.refl s)
  | .tidePin b => execTidePin_kept b (.refl s)
  | .tideUnpin b => execTideUnpin_kept b (.refl s)
  | .tideMarkArm b => execTideMarkArm_kept b (.refl s)
  | .tideMarkFire => execTideMarkFire_kept (.refl s)
  | .powCloseRequest b => execPowCloseRequest_kept b (.refl s)
  | .powTouch pw touch => execPowTouch_kept pw touch (.refl s)
  | .powNoTouch pw => execPowNoTouch_kept pw (.refl s)
  | .tideConvGo dir => execTideConvGo_kept dir (.refl s)
  | .tideConvDone => execTideConvDone_kept (.refl s)
  | .fastLanePeriod x => execFastLanePeriod_kept x (.refl s)
  | .phasorLanePeriod x => execPhasorLanePeriod_kept x (.refl s)
  | .acqIntegHoldEnd c => execAcqIntegHoldEnd_kept c (.refl s)
  | .acqCoefWrite c bankB k v => execAcqCoefWrite_kept c bankB k v (.refl s)
  | .acqBankWrite c v => execAcqBankWrite_kept c v (.refl s)
  | .acqSwap b => execAcqSwap_kept b (.refl s)
  | .acqSwapStart c => execAcqSwapStart_kept c (.refl s)
  | .acqFadeDone c => execAcqFadeDone_kept c (.refl s)
  | .acqSettleEnd c => execAcqSettleEnd_kept c (.refl s)
  | .laneDisagreeEpisodeEnd e => execLaneDisagreeEpisodeEnd_kept e (.refl s)
  | .protKatDone x => execProtKatDone_kept x (.refl s)
  | .protKatPeriodic => execProtKatPeriodic_kept (.refl s)
  | .sgSelect b => execSgSelect_kept b (.refl s)
  | .sgDeferExpiry => execSgDeferExpiry_kept (.refl s)
  | .diffLaunch z => execDiffLaunch_kept z (.refl s)
  | .sumFrameRx x => execSumFrameRx_kept x (.refl s)
  | .diffDeadline z => execDiffDeadline_kept z (.refl s)
  | .formControlCycle u => execFormControlCycle_kept u (.refl s)
  | .formCompute u => execFormCompute_kept u (.refl s)
  | .formLockstep u => execFormLockstep_kept u (.refl s)
  | .formLockstepTestDone u pass => execFormLockstepTestDone_kept u pass (.refl s)
  | .frtEnd u => execFrtEnd_kept u (.refl s)
  | .frtEnvelope u => execFrtEnvelope_kept u (.refl s)
  | .formReady u => execFormReady_kept u (.refl s)
  | .formStart b => execFormStart_kept b (.refl s)
  | .formBlackStart b => execFormBlackStart_kept b (.refl s)
  | .formConnectDone u => execFormConnectDone_kept u (.refl s)
  | .formEnergiseTimeout u => execFormEnergiseTimeout_kept u (.refl s)
  | .formResync b => execFormResync_kept b (.refl s)
  | .formResyncCancel b => execFormResyncCancel_kept b (.refl s)
  | .formResyncTimeout u => execFormResyncTimeout_kept u (.refl s)
  | .formStop b => execFormStop_kept b (.refl s)
  | .formStopped u => execFormStopped_kept u (.refl s)
  | .formBlock b => execFormBlock_kept b (.refl s)
  | .formReset b => execFormReset_kept b (.refl s)
  | .formSetpoint b => execFormSetpoint_kept b (.refl s)
  | .formStage b => execFormStage_kept b (.refl s)
  | .formStepApply u => execFormStepApply_kept u (.refl s)
  | .formAutostart u => execFormAutostart_kept u (.refl s)
  | .bridgeRestore b => execBridgeRestore_kept b (.refl s)
  | .formCircTrip u => execFormCircTrip_kept u (.refl s)
  | .formHoldTimeout u => execFormHoldTimeout_kept u (.refl s)
  | .gateUplinkRx x => execGateUplinkRx_kept x (.refl s)
  | .gateRepeat br => execGateRepeat_kept br (.refl s)
  | .gateBlockIdleSend br => execGateBlockIdleSend_kept br (.refl s)
  | .gateLinkDown br => execGateLinkDown_kept br (.refl s)
  | .gateLinkUp br => execGateLinkUp_kept br (.refl s)
  | .gateClear b => execGateClear_kept b (.refl s)
  | .fioCouplerFrame x => execFioCouplerFrame_kept x (.refl s)
  | .fioGroupLost g => execFioGroupLost_kept g (.refl s)
  | .fioHandshake g ok => execFioHandshake_kept g ok (.refl s)
  | .fioInputEdge ch level stamp stable => execFioInputEdge_kept ch level stamp stable (.refl s)
  | .fioTimeSync g => execFioTimeSync_kept g (.refl s)
  | .fioSyncLost g => execFioSyncLost_kept g (.refl s)
  | .fioOutputCommand ch => execFioOutputCommand_kept ch (.refl s)
  | .fioSet b => execFioSet_kept b (.refl s)
  | .fioOverload ch limit => execFioOverload_kept ch limit (.refl s)
  | .fioOvlRetry ch => execFioOvlRetry_kept ch (.refl s)
  | .fioClear b => execFioClear_kept b (.refl s)
  | .fioOvertemp ch hot => execFioOvertemp_kept ch hot (.refl s)
  | .fioWatchdog g => execFioWatchdog_kept g (.refl s)
  | .fioSchedEdge g id => execFioSchedEdge_kept g id (.refl s)
  | .fioDarkPulse x => execFioDarkPulse_kept x (.refl s)
  | .fioBackfeedProbe x => execFioBackfeedProbe_kept x (.refl s)
  | .fioOpenWire ch => execFioOpenWire_kept ch (.refl s)
  | .fioIndeterminate ch => execFioIndeterminate_kept ch (.refl s)
  | .fioSupply g mv => execFioSupply_kept g mv (.refl s)
  | .fioResume b => execFioResume_kept b (.refl s)
  | .logicTaskRelease t => execLogicTaskRelease_kept t (.refl s)
  | .logicEventSource t src => execLogicEventSource_kept t src (.refl s)
  | .logicOutputWrite x => execLogicOutputWrite_kept x (.refl s)
  | .logicCommitDone m => execLogicCommitDone_kept m (.refl s)
  | .logicHalt ecc => execLogicHalt_kept ecc (.refl s)
  | .logicStart b => execLogicStart_kept b (.refl s)
  | .logicStop b => execLogicStop_kept b (.refl s)
  | .logicRead b => execLogicRead_kept b (.refl s)
  | .logicWrite b => execLogicWrite_kept b (.refl s)
  | .logicEvent b => execLogicEvent_kept b (.refl s)
  | .logicStage b => execLogicStage_kept b (.refl s)
  | .logicExchange m => execLogicExchange_kept m (.refl s)
  | .logicExchFail m => execLogicExchFail_kept m (.refl s)
  | .rioInSend slot => execRioInSend_kept slot (.refl s)
  | .rioPayloadRx src p => execRioPayloadRx_kept src p (.refl s)
  | .logicStationDrop slot => execLogicStationDrop_kept slot (.refl s)
  | .logicStationSafe slot => execLogicStationSafe_kept slot (.refl s)
  | .captArm b => execCaptArm_kept b (.refl s)
  | .captDisarm b => execCaptDisarm_kept b (.refl s)
  | .captManualTrigger b => execCaptManualTrigger_kept b (.refl s)
  | .captSet b => execCaptSet_kept b (.refl s)
  | .captLock b => execCaptLock_kept b (.refl s)
  | .captUnlock b => execCaptUnlock_kept b (.refl s)
  | .captLockLapsed e => execCaptLockLapsed_kept e (.refl s)
  | .captConditionMet e cond => execCaptConditionMet_kept e cond (.refl s)
  | .captWindowEnd e => execCaptWindowEnd_kept e (.refl s)
  | .captDone e => execCaptDone_kept e (.refl s)
  | .bar2Read offset ecc => execBar2Read_kept offset ecc (.refl s)
  | .bar2Write offset => execBar2Write_kept offset (.refl s)
  | .logIntake => execLogIntake_kept (.refl s)
  | .logCommitDone readback => execLogCommitDone_kept readback (.refl s)
  | .logTailUpdate => execLogTailUpdate_kept (.refl s)
  | .logTailFold => execLogTailFold_kept (.refl s)
  | .logHCursorWrite h lo => execLogHCursorWrite_kept h lo (.refl s)
  | .logHStatRead h => execLogHStatRead_kept h (.refl s)
  | .logCheckFailWindowEnd => execLogCheckFailWindowEnd_kept (.refl s)
  | .logStageRead => execLogStageRead_kept (.refl s)
  | .netLink p up mbps => execNetLink_kept p up mbps (.refl s)
  | .netFrameRx x => execNetFrameRx_kept x (.refl s)
  | .netMacAge => execNetMacAge_kept (.refl s)
  | .netGclEntry p => execNetGclEntry_kept p (.refl s)
  | .netPortAdmin b => execNetPortAdmin_kept b (.refl s)
  | .hsrSupervisionSend k => execHsrSupervisionSend_kept k (.refl s)
  | .netRingOpen k => execNetRingOpen_kept k (.refl s)
  | .hsrDupExpiry k => execHsrDupExpiry_kept k (.refl s)
  | .hsrNodeExpiry k => execHsrNodeExpiry_kept k (.refl s)
  | .ptpSyncRx x => execPtpSyncRx_kept x (.refl s)
  | .ptpSlewDone => execPtpSlewDone_kept (.refl s)
  | .ptpLockChange => execPtpLockChange_kept (.refl s)
  | .ptpFollowupLost => execPtpFollowupLost_kept (.refl s)
  | .ptpPdelay x => execPtpPdelay_kept x (.refl s)
  | .ptpSend p => execPtpSend_kept p (.refl s)
  | .holdoverStart => execHoldoverStart_kept (.refl s)
  | .ptpFree => execPtpFree_kept (.refl s)
  | .gooseFrameRx f => execGooseFrameRx_kept f (.refl s)
  | .gooseTalExpired n => execGooseTalExpired_kept n (.refl s)
  | .goosePublishChange q => execGoosePublishChange_kept q (.refl s)
  | .gooseRetransmit q => execGooseRetransmit_kept q (.refl s)
  | .svFrameRx f => execSvFrameRx_kept f (.refl s)
  | .netSvLost n => execNetSvLost_kept n (.refl s)
  | .healthGoosePublish => execHealthGoosePublish_kept (.refl s)
  | .chkEGo n v => execChkEGo_kept n v (.refl s)
  | .chkEDone x => execChkEDone_kept x (.refl s)
  | .chkKat x => execChkKat_kept x (.refl s)
  | .hostSqDb r v => execHostSqDb_kept r v (.refl s)
  | .hostEntryArrival r e => execHostEntryArrival_kept r e (.refl s)
  | .berthBulkDone b => execBerthBulkDone_kept b (.refl s)
  | .berthSigDone b valid => execBerthSigDone_kept b valid (.refl s)
  | .hostCompletionWrite b => execHostCompletionWrite_kept b (.refl s)
  | .hostCqDb r v => execHostCqDb_kept r v (.refl s)
  | .hostRingCtrlWrite r v => execHostRingCtrlWrite_kept r v (.refl s)
  | .hostFrDb x => execHostFrDb_kept x (.refl s)
  | .hostLinkDown => execHostLinkDown_kept (.refl s)
  | .hostForwardNoAnswer req => execHostForwardNoAnswer_kept req (.refl s)
  | .bar4Access x => execBar4Access_kept x (.refl s)
  | .regRequestRx x => execRegRequestRx_kept x (.refl s)
  | .regAnswerRx req a => execRegAnswerRx_kept req a (.refl s)
  | .regTimeout req => execRegTimeout_kept req (.refl s)
  | .adeidFrameRx x => execAdeidFrameRx_kept x (.refl s)
  | .adeidLinkFrameSend q => execAdeidLinkFrameSend_kept q (.refl s)
  | .adeidLink x => execAdeidLink_kept x (.refl s)
  | .topoHeartbeat => execTopoHeartbeat_kept (.refl s)
  | .adeidHeartbeatLoss n secondary => execAdeidHeartbeatLoss_kept n secondary (.refl s)
  | .doorHoldRenew => execDoorHoldRenew_kept (.refl s)
  | .doorHoldLapse => execDoorHoldLapse_kept (.refl s)
  | .doorOpenScheduled d => execDoorOpenScheduled_kept d (.refl s)
  | .doorClose b => execDoorClose_kept b (.refl s)
  | .doorOpen b => execDoorOpen_kept b (.refl s)
  | .provisionRoot b => execProvisionRoot_kept b (.refl s)
  | .keyInstall b => execKeyInstall_kept b (.refl s)
  | .manifestLoad b => execManifestLoad_kept b (.refl s)
  | .manifestVerifyDone slotB => execManifestVerifyDone_kept slotB (.refl s)
  | .manifestActivate b => execManifestActivate_kept b (.refl s)
  | .manifestActivateEffect => execManifestActivateEffect_kept (.refl s)
  | .manifestPromote b fuses => execManifestPromote_kept b fuses (.refl s)
  | .propose b => execPropose_kept b (.refl s)
  | .confirm b => execConfirm_kept b (.refl s)
  | .proposeWithdraw b => execProposeWithdraw_kept b (.refl s)
  | .proposalWindowLapse p => execProposalWindowLapse_kept p (.refl s)
  | .diagSelftestPeriodic t l pass => execDiagSelftestPeriodic_kept t l pass (.refl s)
  | .diagEccError x => execDiagEccError_kept x (.refl s)
  | .mramRefreshLine line corrected => execMramRefreshLine_kept line corrected (.refl s)
  | .mramRefreshStart => execMramRefreshStart_kept (.refl s)
  | .diagTempRead x => execDiagTempRead_kept x (.refl s)
  | .diagAgeMeasure x => execDiagAgeMeasure_kept x (.refl s)
  | .ledgerCommit => execLedgerCommit_kept (.refl s)
  | .diagBundle b => execDiagBundle_kept b (.refl s)
  | .snapshotLowWordRead who offset => execSnapshotLowWordRead_kept who offset (.refl s)
  | .evcntWord0Read who slot => execEvcntWord0Read_kept who slot (.refl s)
  | .hostBerthUseRead => execHostBerthUseRead_kept (.refl s)
  | .w1cWrite offset v => execW1cWrite_kept offset v (.refl s)
  | .bar0BadWrite => execBar0BadWrite_kept (.refl s)
  | .uninstAccess blk => execUninstAccess_kept blk (.refl s)
  | .registerWrite offset v who => execRegisterWrite_kept offset v who (.refl s)
  | .tcxoQualified => execTcxoQualified_kept (.refl s)
  | .xrefQualified ppm => execXrefQualified_kept ppm (.refl s)
  | .hostLinkUp => execHostLinkUp_kept (.refl s)
  | .adeidReqIdExpiry => execAdeidReqIdExpiry_kept (.refl s)
  | .domainClockReturn d => execDomainClockReturn_kept d (.refl s)

/-- A step leaves in the queue what stood behind the front command; antifuses, berths and marks are kept as by a command. -/
theorem step_kept {s t : State} (h : step s = .next t) : Kept (fun _ => True) { s with pending := s.pending.tail } t := by
  unfold step at h
  split at h
  next empty =>
    cases h
    have same : { s with pending := s.pending.tail } = s := by rw [empty]; exact congrArg (fun l => { s with pending := l }) empty.symm
    rw [same]
    exact tick_kept (.refl s)
  next c rest front =>
    rw [front]
    exact exec_kept { s with pending := rest } c t h

/-- Settles O57: every operation keeps both numbers, so each command and the tick do. -/
theorem stepsKeepTheShape : Obligations.StepsKeepTheShape := fun _ _ shape h =>
  ⟨(step_kept h).berths shape.berths, (step_kept h).marks shape.marks⟩

end Sys2Proof.Machine
end

section
/-! SUPPORT. The values of reset (spec/16_manifest_and_two_party.md R527, R540, R545; spec/17_startup_power_reset.md R554, R571, R572). -/

namespace Sys2Proof.Machine

open Sys2Proof

/-- An index beyond the list reads as the items do. -/
theorem nth_replicate {α : Type} (n i : Nat) (d : α) : nth (List.replicate n d) i d = d := by
  rw [nth, List.getElem?_replicate]
  split <;> rfl

theorem reset_shape : Shape State.reset := ⟨List.length_replicate, List.length_replicate⟩

theorem reset_endingOf (b : Nat) : State.reset.endingOf b = none := by
  have empty : State.reset.item b = none := by
    show ((List.replicate 128 none)[b]?).join = none
    rw [List.getElem?_replicate]
    split <;> rfl
  rw [State.endingOf, empty, Option.bind_none]

/-- Settles O58. What reset lists for keys, proposals and doors are replicates of one value, so that every index reads it. -/
theorem resetHasItsShapeAndValues : Obligations.ResetHasItsShapeAndValues := by
  refine ⟨reset_shape, rfl, rfl, rfl, rfl, rfl, rfl, rfl, rfl, fun k hk => ⟨?_, ?_⟩, fun i => ?_, fun d => ?_, reset_endingOf⟩
  · show nth (List.replicate 8 15) k 0 = 15
    rw [nth, List.getElem?_replicate_of_lt hk, Option.getD_some]
  · exact congrArg KeySlot.present (nth_replicate 8 k {})
  · exact congrArg Proposal.phase (nth_replicate 4 i {})
  · exact congrArg Door.open_ (nth_replicate 6 d {})

end Sys2Proof.Machine
end

section
/-! SUPPORT. What the operations that change the source leave of TIDE, and what a command that CTL runs leaves of its berth (spec/02_tide.md R58 to
R64, spec/15_host_cluster_berths.md R486, R488). -/

namespace Sys2Proof.Machine

open Sys2Proof

variable (s : State)

/-! ### Sources and rate (R44, R58, R59, R61) -/

@[simp] theorem State.unbind_tide : s.unbind.tide = { s.tide with bound := none } := by
  unfold State.unbind
  split
  next free => rw [← free]
  next => rfl

@[simp] theorem State.tideRecord_tide (r : Rec) (bit : Nat) (x y : TideSrc) :
    (s.tideRecord r bit x y).tide = { s.tide with event := s.tide.event.raise bit } := rfl

theorem State.tideRecord_log (r : Rec) (bit : Nat) (x y : TideSrc) :
    (s.tideRecord r bit x y).log = (s.report r 0xFFFF [x.num, x.fu, y.num, y.fu, s.tide.offset]).log := rfl

@[simp] theorem State.tideRecord_host (r : Rec) (bit : Nat) (x y : TideSrc) : (s.tideRecord r bit x y).host = s.host := rfl

@[simp] theorem State.pushHist_tide : s.pushHist.tide = { s.tide with hist :=
    ({ tick := s.now / 10, rate := s.tide.rate, posQ := s.tide.posQ, time := s.ltc } :: s.tide.hist).take 4096 } := rfl

/-- Converging sets the state, the target and the terms of the handover law; on a change of the source followed df restarts at zero (R60, R61). -/
theorem State.convergeTo_tide (x : TideSrc) : ∃ b e d, (s.tide.followed ≠ x → d = 0) ∧ (s.convergeTo x).tide = { s.tide with
    phase := .converging, target := x, lost := none, bound := b, inWindow := 0, offset := e, df := d } := by
  unfold State.convergeTo
  extract_lets same u e
  have tide : u.tide = { s.tide with bound := u.tide.bound } := by
    unfold u
    split
    · rfl
    · rw [State.unbind_tide]
  refine ⟨u.tide.bound, e, if same then s.tide.df else 0, fun h => by simp [same, h], ?_⟩
  rw [State.onTide_tide, tide]

@[simp] theorem State.convergeTo_host (x : TideSrc) : (s.convergeTo x).host = s.host :=
  (State.convergeTo_kept (M := (· ∈ [.tide, .form])) x (.refl s)).parts .host (by simp)

/-- A frequency is set within the limits of Tide (R46). -/
theorem State.setFreq_tide (f : Num) : ∃ c ev, (s.setFreq f).tide =
    { s.tide with rate := rateWord (Num.clamp 40 70 f), rateClamp := c, event := ev } := by
  unfold State.setFreq
  extract_lets c u
  refine ⟨c, u.tide.event, ?_⟩
  have tide : u.tide = { s.tide with event := u.tide.event } := by
    unfold u
    split <;> rfl
  rw [State.onTide_tide, tide]

/-! ### Commands that CTL runs (R486, R488) -/

variable {s}

/-- A command that has left CTL and touched nothing else of HOST is done. -/
theorem State.doneOn_of_ctlCmd {b : Nat} {c : BerthCmd} {u : State} (h : s.ctlCmd b = some c) (hu : u.host = (s.leaveCtl b).host) :
    DoneOn b 0 (u.done b) := by
  obtain ⟨it, hit, -⟩ := State.ctlCmd_item h
  have item : u.item b = some it := by rw [State.item, hu]; exact hit
  exact u.doneOn b 0 (by rw [item]; rfl) (by rw [hu]; exact s.not_mem_leaveCtl b)

/-! ### The commands -/

theorem exec_handoverStart {y : TideSrc} (phase : s.tide.phase = .aligned ∨ s.tide.phase = .converging) (free : s.tide.pin = none)
    (hy : s.highest (fun y => decide (s.rank y < s.rank s.tide.followed) && s.passedSince (s.tide.eligibleSince y) s.tideCfg.returnHold) = some y) :
    exec .handoverStart s = .next ((s.convergeTo y).tideRecord .handoverStart 0 s.tide.followed y) := by
  show execHandoverStart s = _
  obtain p | p := phase <;> simp [execHandoverStart, p, free, hy]

/-- A higher source is not the one followed. -/
theorem State.followed_ne_of_highest {y : TideSrc} {p : TideSrc → Bool}
    (h : s.highest (fun y => decide (s.rank y < s.rank s.tide.followed) && p y) = some y) : s.tide.followed ≠ y := by
  rintro rfl
  have test := List.find?_some h
  simp at test

theorem exec_tideCycleCarry (h : s.tide.carried < s.tide.cycle) : exec .tideCycleCarry s = .next (s.onTide fun t =>
    { t with carried := t.carried + 1, coastLeft := if t.phase = .coasting then t.coastLeft - 1 else t.coastLeft }) :=
  congrArg _ (if_neg (not_le.mpr h))

/-- At zero Tide converges to the highest eligible source; on FREERUN it is ALIGNED at once, at the nominal rate (R64). -/
def State.fallBack (s : State) (y : TideSrc) : State :=
  if y = .freerun then ((s.convergeTo y).onTide fun t => { t with phase := .aligned, src := .freerun }).setFreq s.tideCfg.nominalFreq
  else s.convergeTo y

theorem exec_tideFallback {y : TideSrc} (phase : s.tide.phase = .coasting) (zero : s.tide.coastLeft = 0) (hy : s.highest (fun _ => true) = some y) :
    exec .tideFallback s = .next ((s.fallBack y).pushHist.tideRecord .fallback 4 s.tide.followed y) := by
  have cfg : ((s.convergeTo y).onTide fun t => { t with phase := .aligned, src := .freerun }).tideCfg = s.tideCfg :=
    congrArg (·.struct.tide) ((State.convergeTo_kept (M := (· ∈ [.tide, .form])) y (.refl s)).parts .manifest (by simp))
  show execTideFallback s = _
  simp only [execTideFallback, phase, zero, hy, State.fallBack, Option.getD_some]
  rw [← cfg]
  rfl

theorem State.fallBack_freerun_tide : ∃ b e d c ev, (s.fallBack .freerun).tide = { s.tide with
    phase := .aligned, src := .freerun, target := .freerun, lost := none, bound := b, inWindow := 0, offset := e, df := d
    rate := rateWord (Num.clamp 40 70 s.tideCfg.nominalFreq), rateClamp := c, event := ev } := by
  obtain ⟨b, e, d, -, conv⟩ := s.convergeTo_tide .freerun
  rw [State.fallBack, if_pos rfl]
  obtain ⟨c, ev, freq⟩ := ((s.convergeTo .freerun).onTide fun t => { t with phase := .aligned, src := .freerun }).setFreq_tide s.tideCfg.nominalFreq
  refine ⟨b, e, d, c, ev, ?_⟩
  rw [freq, State.onTide_tide, conv]

theorem State.fallBack_other_tide {y : TideSrc} (h : y ≠ .freerun) : ∃ b e d, (s.fallBack y).tide = { s.tide with
    phase := .converging, target := y, lost := none, bound := b, inWindow := 0, offset := e, df := d } := by
  obtain ⟨b, e, d, -, conv⟩ := s.convergeTo_tide y
  refine ⟨b, e, d, ?_⟩
  rw [State.fallBack, if_neg h, conv]

/-- A pin that is accepted in INIT is set (R58; log entry 58). -/
theorem exec_tidePin_of_init {b : Nat} {x : TideSrc} (h : s.ctlCmd b = some (.tidePin x)) (ok : s.refusePin x = none) (phase : s.tide.phase = .init) :
    exec (.tidePin b) s = .next (((s.leaveCtl b).onTide fun t => { t with pin := some x }).done b) := by
  show execTidePin b s = _
  simp [execTidePin, h, ok, State.runCtl, phase]

/-- Beyond INIT Tide converges to the pinned source too, which in COASTING ends coasting (R58, R61). -/
theorem exec_tidePin_of_running {b : Nat} {x : TideSrc} (h : s.ctlCmd b = some (.tidePin x)) (ok : s.refusePin x = none)
    (phase : s.tide.phase ≠ .init) :
    ∃ r, exec (.tidePin b) s = .next (((((s.leaveCtl b).onTide fun t => { t with pin := some x }).convergeTo x).tideRecord r
      (if s.tide.phase = .coasting then 3 else 0) s.tide.followed x).done b) := by
  show ∃ r, execTidePin b s = _
  cases p : s.tide.phase
  case init => exact absurd p phase
  case coasting => exact ⟨.coastEnd, by simp [execTidePin, h, ok, State.runCtl, p]⟩
  all_goals exact ⟨.handoverStart, by simp [execTidePin, h, ok, State.runCtl, p]⟩

theorem exec_tideUnpin {b : Nat} {x : TideSrc} (h : s.ctlCmd b = some .tideUnpin) (pin : s.tide.pin = some x) :
    exec (.tideUnpin b) s = .next (((s.leaveCtl b).onTide fun t => { t with pin := none }).done b) := by
  have ok : s.refuseUnpin = none := by simp [State.refuseUnpin, pin]
  show execTideUnpin b s = _
  simp only [execTideUnpin, h, ok, State.runCtl]

/-- What a handover leaves (R58, R60, R61). -/
theorem exec_handoverStart_converges (s : State) (y : TideSrc) (phase : s.tide.phase = .aligned ∨ s.tide.phase = .converging)
    (free : s.tide.pin = none)
    (hy : s.highest (fun y => decide (s.rank y < s.rank s.tide.followed) && s.passedSince (s.tide.eligibleSince y) s.tideCfg.returnHold) = some y) :
    ∃ t, exec .handoverStart s = .next t ∧ t.tide.phase = .converging ∧ t.tide.target = y ∧ t.tide.df = 0 ∧ t.tide.posQ = s.tide.posQ ∧
      t.tide.rate = s.tide.rate ∧ t.tide.event = s.tide.event.raise 0 ∧
      t.log = (s.report .handoverStart 0xFFFF [s.tide.followed.num, s.tide.followed.fu, y.num, y.fu, t.tide.offset]).log ∧
      OnlyTouches [.tide, .form, .log] s t := by
  have run := exec_handoverStart phase free hy
  have kept : Kept (· ∈ [.tide, .form]) s (s.convergeTo y) := State.convergeTo_kept y (.refl s)
  have ltc : (s.convergeTo y).ltc = s.ltc := kept.parts .ltc (by simp)
  have log : (s.convergeTo y).log = s.log := kept.parts .log (by simp)
  obtain ⟨b, e, d, restart, tide⟩ := s.convergeTo_tide y
  have record := (s.convergeTo y).tideRecord_log .handoverStart 0 s.tide.followed y
  rw [State.report_log, log, ltc] at record
  refine ⟨_, run, ?_, ?_, ?_, ?_, ?_, ?_, record, (execHandoverStart_kept (.refl s)).frame run⟩
  all_goals rw [State.tideRecord_tide, tide]
  exact restart (State.followed_ne_of_highest hy)

/-- What a fallback leaves (R64). -/
theorem exec_tideFallback_falls (s : State) (y : TideSrc) (phase : s.tide.phase = .coasting) (zero : s.tide.coastLeft = 0)
    (hy : s.highest (fun _ => true) = some y) :
    ∃ t, exec .tideFallback s = .next t ∧ t.tide.posQ = s.tide.posQ ∧ t.tide.lost = none ∧
      (y = .freerun → t.tide.phase = .aligned ∧ t.tide.src = .freerun ∧ t.tide.rate = rateWord (Num.clamp 40 70 s.tideCfg.nominalFreq)) ∧
      (y ≠ .freerun → t.tide.phase = .converging ∧ t.tide.target = y ∧ t.tide.rate = s.tide.rate ∧ t.tide.event = s.tide.event.raise 4) ∧
      OnlyTouches [.tide, .form, .log] s t := by
  have run := exec_tideFallback phase zero hy
  have frame := (execTideFallback_kept (M := (· ∈ [.tide, .form, .log])) (.refl s)).frame run
  by_cases h : y = .freerun
  · subst h
    obtain ⟨b, e, d, c, ev, tide⟩ := s.fallBack_freerun_tide
    refine ⟨_, run, ?_, ?_, fun _ => ⟨?_, ?_, ?_⟩, fun k => absurd rfl k, frame⟩
    all_goals rw [State.tideRecord_tide, State.pushHist_tide, tide]
  · obtain ⟨b, e, d, tide⟩ := s.fallBack_other_tide h
    refine ⟨_, run, ?_, ?_, fun k => absurd k h, fun _ => ⟨?_, ?_, ?_, ?_⟩, frame⟩
    all_goals rw [State.tideRecord_tide, State.pushHist_tide, tide]

/-- What a pin leaves beyond INIT (R58, R61). -/
theorem exec_tidePin_converges (s : State) (b : Nat) (x : TideSrc) (h : s.ctlCmd b = some (.tidePin x)) (ok : s.refusePin x = none)
    (phase : s.tide.phase ≠ .init) :
    ∃ t, exec (.tidePin b) s = .next t ∧ DoneOn b 0 t ∧ t.tide.pin = some x ∧ t.tide.phase = .converging ∧ t.tide.target = x ∧
      t.tide.lost = none ∧ t.tide.posQ = s.tide.posQ ∧
      t.tide.event = s.tide.event.raise (if s.tide.phase = .coasting then 3 else 0) ∧ OnlyTouches [.tide, .form, .log, .host] s t := by
  obtain ⟨r, run⟩ := exec_tidePin_of_running h ok phase
  obtain ⟨_, _, _, -, tide⟩ := ((s.leaveCtl b).onTide fun t => { t with pin := some x }).convergeTo_tide x
  refine ⟨_, run, State.doneOn_of_ctlCmd h (by simp), ?_, ?_, ?_, ?_, ?_, ?_, (execTidePin_kept b (.refl s)).frame run⟩
  all_goals simp [tide]

/-- In INIT the pin alone is set (log entry 58). -/
theorem exec_tidePin_init (s : State) (b : Nat) (x : TideSrc) (h : s.ctlCmd b = some (.tidePin x)) (ok : s.refusePin x = none)
    (phase : s.tide.phase = .init) :
    ∃ t, exec (.tidePin b) s = .next t ∧ DoneOn b 0 t ∧ t.tide = { s.tide with pin := some x } ∧ OnlyTouches [.tide, .host] s t := by
  exact ⟨_, exec_tidePin_of_init h ok phase, State.doneOn_of_ctlCmd h rfl, rfl,
    Kept.frame (State.done_kept b 0 (State.onTide_kept (State.leaveCtl_kept b (.refl s)) fun _ k => k))⟩

/-- Settles O9, clause by clause. -/
theorem sourcesHandOverWithoutAStep : Obligations.SourcesHandOverWithoutAStep := by
  refine ⟨exec_handoverStart_converges, fun s h => ?_, exec_tideFallback_falls, exec_tidePin_converges, exec_tidePin_init, fun s b x h pin => ?_⟩
  · exact ⟨_, exec_tideCycleCarry h, rfl, Kept.frame (State.onTide_kept (.refl s) fun _ k => k)⟩
  · exact ⟨_, exec_tideUnpin h pin, State.doneOn_of_ctlCmd h rfl, rfl,
      Kept.frame (State.done_kept b 0 (State.onTide_kept (State.leaveCtl_kept b (.refl s)) fun _ k => k))⟩

end Sys2Proof.Machine
end

section
/-! SUPPORT. Marks and pending closes by index; point-on-wave closings and conversions (spec/02_tide.md R75 to R77, R85). -/

namespace Sys2Proof.Machine

open Sys2Proof

variable {s : State}

/-! ### Marks and breakers by index -/

theorem State.mark_onMark_same {n : Nat} (h : n < s.tide.marks.length) (f : Mark → Mark) : (s.onMark n f).mark n = f (s.mark n) :=
  nth_updAt_self _ _ _ _ h

theorem State.mark_onMark_ne {n k : Nat} (h : k ≠ n) (f : Mark → Mark) : (s.onMark n f).mark k = s.mark k :=
  nth_updAt_ne _ _ _ _ _ h.symm

theorem State.pow_onPow_same {k : Nat} (h : k < s.tide.pow.length) (f : Pow → Pow) : (s.onPow k f).pow k = f (s.pow k) :=
  nth_updAt_self _ _ _ _ h

/-! ### An accepted close (R75, R76) -/

/-- A request is refused unless a mark is free. -/
theorem State.freeMark_of_refusePow {k : Nat} {c : PowCfg} (hc : s.powCfg? k = some c) (ok : s.refusePow k = none) :
    ∃ n, (List.range 256).find? (fun n => !(s.mark n).armed) = some n := by
  rw [← Option.isSome_iff_exists, List.find?_isSome]
  by_contra none
  have : (List.range 256).any (fun n => !(s.mark n).armed) = false := by simpa using none
  simp [State.refusePow, hc, this] at ok

/-- The mark that carries the edge of a close, from the mark as it was. -/
def powMark (c : PowCfg) (e : Nat) (x : Mark) : Mark :=
  { x with
    armed := true, action := .fioEdge, owner := .pow, period := none, level := true, target := c.closeCh, log := false,
    sent := none, cycle := e / 2 ^ 32 % 2 ^ 48, angle := BitVec.ofNat 32 e }

/-- An accepted close arms the first free mark and is then pending. -/
theorem State.powAccept_eq {k n : Nat} {c : PowCfg} (hc : s.powCfg? k = some c)
    (hn : (List.range 256).find? (fun n => !(s.mark n).armed) = some n) (a : Angle) : ∃ e q,
    s.powAccept k a = (s.onMark n (powMark c e)).onPow k (fun p => { p with pending := some q }) ∧
      q.reqAngle = a ∧ q.sent = false ∧ q.mark = n := by
  simp only [State.powAccept, hc, hn]
  exact ⟨_, _, rfl, rfl, rfl, rfl⟩

theorem exec_powCloseRequest {b k : Nat} {a : Angle} (h : s.ctlCmd b = some (.powClose k a)) (ok : s.refusePow k = none) :
    exec (.powCloseRequest b) s = .next (((s.leaveCtl b).powAccept k a).done b) := by
  show execPowCloseRequest b s = _
  simp only [execPowCloseRequest, h, ok, State.runCtl]

/-- What an accepted close leaves. -/
theorem exec_powCloseRequest_arms (s : State) (b k : Nat) (a : Angle) (c : PowCfg) (h : s.ctlCmd b = some (.powClose k a))
    (hc : s.powCfg? k = some c) (ok : s.refusePow k = none) (hk : k < s.tide.pow.length) (marks : s.tide.marks.length = 256) :
    ∃ t q, exec (.powCloseRequest b) s = .next t ∧ DoneOn b 0 t ∧
      (t.pow k).pending = some q ∧ q.reqAngle = a ∧ q.sent = false ∧ q.mark < 256 ∧ (s.mark q.mark).armed = false ∧
      (t.mark q.mark).armed = true ∧ (t.mark q.mark).owner = .pow ∧ (t.mark q.mark).action = .fioEdge ∧ (t.mark q.mark).target = c.closeCh ∧
      (∀ n, n ≠ q.mark → t.mark n = s.mark n) ∧ OnlyTouches [.tide, .host] s t := by
  obtain ⟨n, hn⟩ := State.freeMark_of_refusePow hc ok
  have free : (s.mark n).armed = false := by simpa using List.find?_some hn
  have range : n < 256 := List.mem_range.mp (List.mem_of_find?_eq_some hn)
  obtain ⟨e, q, accept, angle, unsent, rfl⟩ := State.powAccept_eq (s := s.leaveCtl b) hc hn a
  have run := exec_powCloseRequest h ok
  rw [accept] at run
  have armed : (((s.leaveCtl b).onMark q.mark (powMark c e)).onPow k fun p => { p with pending := some q }).mark q.mark =
      powMark c e (s.mark q.mark) := State.mark_onMark_same (s := s.leaveCtl b) (marks ▸ range) _
  have frame := State.done_kept (M := (· ∈ [.tide, .host])) b 0
    (State.powAccept_kept k a (State.leaveCtl_kept b (.refl s)))
  rw [accept] at frame
  refine ⟨_, q, run, State.doneOn_of_ctlCmd h rfl, ?_, angle, unsent, range, free, ?_, ?_, ?_, ?_, fun n hn => ?_, frame.frame⟩
  · exact congrArg Pow.pending (State.pow_onPow_same (s := (s.leaveCtl b).onMark q.mark (powMark c e)) hk _)
  · exact congrArg Mark.armed armed
  · exact congrArg Mark.owner armed
  · exact congrArg Mark.action armed
  · exact congrArg Mark.target armed
  · exact State.mark_onMark_ne (s := s.leaveCtl b) hn _

/-! ### Contact touch (R77) -/

/-- The close time after a touch that lies `d` ns late: learnt within 5 ms, kept beyond (R77). -/
def learntTb (c : PowCfg) (d tb : Num) : Num :=
  if d.mag ≤ 5000000 then
    Num.clamp (9 / 10 * (c.tNom : Num)) (11 / 10 * (c.tNom : Num)) (tb + Num.clamp (-2000000) 2000000 (c.gain * d))
  else tb

/-- How late a touch is: δ of R77. -/
def PowPending.late (p : PowPending) (touch : Nat) (tb : Num) : Num := ((touch : Int) : Num) - ((p.tEdge : Num) + tb)

/-- A touch that counts ends the close; before that, T_b alone has changed in TIDE. -/
theorem exec_powTouch {k touch : Nat} {c : PowCfg} {p : PowPending} (hc : s.powCfg? k = some c) (hp : (s.pow k).pending = some p)
    (ht : p.touch = some touch) (hk : k < s.tide.pow.length) :
    ∃ (u : State) (l : List Int), exec (.powTouch k touch) s = .next (((u.onPow k fun x => { x with pending := none }).raise .tide 12).report .powDone k l) ∧
      u.tide.event = s.tide.event ∧ k < u.tide.pow.length ∧ 
        (u.pow k).tb = learntTb c (p.late touch (s.pow k).tb) (s.pow k).tb := by
  show ∃ (u : State) (l : List Int), execPowTouch k touch s = _ ∧ _
  simp only [execPowTouch, hc, hp, ht, ne_eq, not_true_eq_false, if_false]
  refine ⟨_, _, rfl, ?_⟩
  unfold learntTb PowPending.late
  split
  · exact ⟨rfl, (length_updAt ..).symm ▸ hk, congrArg Pow.tb (State.pow_onPow_same hk _)⟩
  · exact ⟨rfl, hk, rfl⟩

/-- What a touch leaves. -/
theorem exec_powTouch_learns (s : State) (k touch : Nat) (c : PowCfg) (p : PowPending) (hc : s.powCfg? k = some c)
    (hp : (s.pow k).pending = some p) (ht : p.touch = some touch) (hk : k < s.tide.pow.length) :
    ∃ t, exec (.powTouch k touch) s = .next t ∧ (t.pow k).pending = none ∧ t.tide.event = s.tide.event.raise 12 ∧
      (t.pow k).tb = learntTb c (p.late touch (s.pow k).tb) (s.pow k).tb ∧ OnlyTouches [.tide, .log] s t := by
  obtain ⟨u, l, run, event, len, learnt⟩ := exec_powTouch hc hp ht hk
  have ended : (((u.onPow k fun x => { x with pending := none }).raise .tide 12).report .powDone k l).pow k = { u.pow k with pending := none } :=
    State.pow_onPow_same len _
  refine ⟨_, run, congrArg Pow.pending ended, congrArg (W1C.raise · 12) event, (congrArg Pow.tb ended).trans learnt, (execPowTouch_kept k touch (.refl s)).frame run⟩

theorem exec_powNoTouch {k : Nat} {c : PowCfg} {p : PowPending} (hc : s.powCfg? k = some c) (hp : (s.pow k).pending = some p) (sent : p.sent)
    (none : p.touch = none) (due : p.tEdge + c.tNom + msec 20 + s.touchLatency c.touch ≤ s.ltc) :
    exec (.powNoTouch k) s = .next ((s.onPow k fun x => { x with pending := Option.none }).report .powNoTouch k) := by
  show execPowNoTouch k s = _
  simp [execPowNoTouch, hc, hp, sent, none, due]

/-! ### Conversions (R85) -/

theorem exec_tideConvGo (idle : s.tide.conv.go = false) (dir : Bool) : exec (.tideConvGo dir) s = .next (s.onTide fun t =>
    { t with conv := { t.conv with
        go := true, dir := dir, done := false, errRange := false, predicted := false,
        runNs := t.conv.ns, runAngle := t.conv.angle, runCycle := t.conv.cycle, runDir := dir } }) := by
  show execTideConvGo dir s = _
  simp [execTideConvGo, State.convGo, State.onTide, idle]

/-- A conversion ends with its outputs, or with ERR_RANGE and the outputs as they were. -/
def TideConv.ended (c : TideConv) (dir : Bool) (r : Option (Nat × Bool)) : TideConv :=
  match r, dir with
  | none, _ => { c with go := false, done := true, errRange := true }
  | some (n, p), true => { c with go := false, done := true, predicted := p, ns := BitVec.ofNat 64 n }
  | some (m, p), false =>
    { c with go := false, done := true, predicted := p, angle := BitVec.ofNat 32 m, cycle := BitVec.ofNat 48 (m / 2 ^ 32) }

/-- What the running conversion comes to. -/
def State.converted (s : State) : Option (Nat × Bool) :=
  if s.tide.conv.runDir then s.convToTime (s.tide.conv.runCycle.toNat * 2 ^ 32 + s.tide.conv.runAngle.toNat)
  else s.convToPos s.tide.conv.runNs.toNat

theorem exec_tideConvDone (run : s.tide.conv.go) :
    exec .tideConvDone s = .next (s.onTide fun t => { t with conv := s.tide.conv.ended s.tide.conv.runDir s.converted }) := by
  show execTideConvDone s = _
  unfold execTideConvDone State.converted
  dsimp only
  generalize s.tide.conv.runCycle.toNat * 2 ^ 32 + s.tide.conv.runAngle.toNat = m
  cases dir : s.tide.conv.runDir
  · cases s.convToPos s.tide.conv.runNs.toNat <;> simp [run, dir, TideConv.ended]
  · cases s.convToTime m <;> simp [run, dir, TideConv.ended]

/-- Settles O11, clause by clause. -/
theorem closingsAndConversionsEndInTime : Obligations.ClosingsAndConversionsEndInTime := by
  refine ⟨exec_powCloseRequest_arms, ?_, ?_, ?_, ?_, ?_⟩
  · intro s k touch c p hc hp ht hk
    obtain ⟨t, run, ended, event, tb, frame⟩ := exec_powTouch_learns s k touch c p hc hp ht hk
    refine ⟨t, run, ended, event, ?_, frame⟩
    rintro d rfl
    exact ⟨fun near => tb.trans (if_pos near), fun far => tb.trans (if_neg (not_le.mpr far))⟩
  · intro s k c p hc hp sent none due hk
    have run := exec_powNoTouch hc hp sent none due
    have ended : ((s.onPow k fun x => { x with pending := Option.none }).report .powNoTouch k).pow k = { s.pow k with pending := Option.none } :=
      State.pow_onPow_same hk _
    exact ⟨_, run, congrArg Pow.pending ended, (congrArg Pow.tb ended :), rfl, (execPowNoTouch_kept k (.refl s)).frame run⟩
  · intro s dir idle
    exact ⟨_, exec_tideConvGo idle dir, rfl, Kept.frame (State.onTide_kept (.refl s) fun _ k => k)⟩
  · intro s run dir
    have done := exec_tideConvDone run
    rw [State.converted, dir, if_neg Bool.false_ne_true] at done
    cases r : s.convToPos s.tide.conv.runNs.toNat <;> rw [r] at done
    all_goals exact ⟨_, done, rfl, rfl, by rintro _ _ ⟨⟩ <;> exact ⟨rfl, rfl, rfl, rfl⟩, by rintro ⟨⟩ <;> exact ⟨rfl, rfl, rfl⟩, rfl,
      Kept.frame (State.onTide_kept (.refl s) fun _ k => k)⟩
  · intro s run dir
    have done := exec_tideConvDone run
    rw [State.converted, dir, if_pos rfl] at done
    cases r : s.convToTime (s.tide.conv.runCycle.toNat * 2 ^ 32 + s.tide.conv.runAngle.toNat) <;> rw [r] at done
    all_goals exact ⟨_, done, rfl, rfl, by rintro _ _ ⟨⟩ <;> exact ⟨rfl, rfl⟩, by rintro ⟨⟩ <;> exact ⟨rfl, rfl⟩, rfl, rfl,
      Kept.frame (State.onTide_kept (.refl s) fun _ k => k)⟩

end Sys2Proof.Machine
end

section
/-! SUPPORT. A tick of Tide, and what register writes, marks and closes leave of its course (spec/02_tide.md R43, R44, R45;
spec/17_startup_power_reset.md R554). -/

namespace Sys2Proof.Machine

open Sys2Proof

variable {s : State}

/-! ### The course of Tide -/

/-- TIDE beside what register writes, marks and closes change: conversions, marks, breakers and events. -/
def TideState.course (t : TideState) : TideState := { t with conv := {}, marks := [], pow := [], event := {} }

/-- The course is kept by an operation that touches no TIDE at all. -/
theorem Kept.tide {M : Part → Prop} {a b : State} (h : Kept M a b) (m : ¬M .tide := by simp) : b.tide = a.tide := h.parts .tide m

theorem State.forEach_course {α : Type} {f : State → α → State} (hf : ∀ s x, (f s x).tide.course = s.tide.course) :
    ∀ (l : List α) (s : State), (s.forEach l f).tide.course = s.tide.course
  | [], _ => rfl
  | x :: l, s => (State.forEach_course hf l (f s x)).trans (hf s x)

/-! ### Register writes (R85, R591) -/

theorem State.convGo_course (dir : Bool) : (s.convGo dir).tide.course = s.tide.course := by
  rw [State.convGo, State.onTide_tide]
  split <;> rfl

theorem State.convWrite_course (o : Nat) (v : Word) : (s.convWrite o v).tide.course = s.tide.course := by
  unfold State.convWrite
  extract_lets conv
  split_ifs
  · exact State.convGo_course _
  all_goals rfl

/-- A write within another block does not touch TIDE. -/
theorem State.blkWrite_kept_tide {b : Blk} (hb : b ≠ .tide) (o : Nat) (v : Word) : Kept (· ≠ .tide) s (s.blkWrite b o v) := by
  have h : Kept (· ≠ .tide) s s := .refl s
  have part : blkPart b ≠ .tide := by cases b <;> simp at hb ⊢
  unfold State.blkWrite
  split
  next t w =>
    unfold State.w1cWrite at w
    split_ifs at w <;> cases w
    · exact State.onEvent_kept _ _ h part
    · exact State.onCh_kept _ _ h
  next =>
    split
    · contradiction
    · exact Kept.ite (fun _ => State.bankWrite_kept _ _ h) fun _ => Kept.ite (fun _ => State.coefWrite_kept _ _ _ _ h) fun _ => h
    · exact Kept.ite (fun _ => State.onProt_kept h _) fun _ => h
    · exact Kept.ite (fun _ => State.cursorWrite_kept _ _ h) fun _ => Kept.ite (fun _ => State.onLog_kept h _) fun _ => h
    · exact Kept.ite (fun _ => State.chkWrite_kept _ _ _ h) fun _ => h
    · exact State.hostWrite_kept _ _ h
    · exact h

theorem State.blkWrite_course (b : Blk) (o : Nat) (v : Word) : (s.blkWrite b o v).tide.course = s.tide.course := by
  by_cases hb : b = .tide
  · subst hb
    by_cases ho : o = eventAt .tide
    · rw [ho, State.blkWrite_event]
      rfl
    · have plain : s.w1cWrite .tide o v = none := by simp [State.w1cWrite, ho]
      simp only [State.blkWrite, plain]
      exact State.convWrite_course o v
  · rw [(State.blkWrite_kept_tide hb o v).tide]

theorem State.storeReg_course (off : Nat) (v : Word) : (s.storeReg off v).tide.course = s.tide.course := by
  unfold State.storeReg
  extract_lets b o
  split
  · exact State.blkWrite_course b o v
  · rw [(State.noteUninst_kept (M := (· ∈ [.sys])) b (.refl s)).tide]

theorem State.xingCapture_course (x : Xing) : (s.xingCapture x).tide.course = s.tide.course := by
  unfold State.xingCapture
  split
  · exact State.storeReg_course _ _
  · rfl

theorem State.xingStart_course (x : Xing) (off : Nat) (v : Word) : (s.xingStart x off v).tide.course = s.tide.course := by
  unfold State.xingStart
  extract_lets y
  split
  · rfl
  · exact State.xingCapture_course y

theorem State.xingTick_course (s : State) (id : Nat) : (s.xingTick id).tide.course = s.tide.course := by
  unfold State.xingTick
  split
  · rfl
  · split_ifs
    · rfl
    · exact State.xingCapture_course _
    · rfl
    · extract_lets free
      split
      · rfl
      · exact State.xingStart_course _ _ _

theorem State.xingsTick_course : s.xingsTick.tide.course = s.tide.course := State.forEach_course State.xingTick_course _ s

/-- A crossing that holds no value rests. -/
theorem State.xingTick_rests (h : s.clk.xings.all (·.held.isNone)) (id : Nat) : s.xingTick id = s := by
  unfold State.xingTick
  split
  · rfl
  next x hx =>
    have free : x.held.isNone = true := List.all_eq_true.mp h x (List.mem_of_find?_eq_some hx)
    rw [if_pos (by rw [free]; rfl)]

theorem State.xingsTick_rests (h : s.clk.xings.all (·.held.isNone)) : s.xingsTick = s := by
  have rests : ∀ l : List Nat, s.forEach l State.xingTick = s := by
    intro l
    induction l with
    | nil => rfl
    | cons id l ih => rw [State.forEach_cons, State.xingTick_rests h, ih]
  exact rests _

/-! ### The tick (R43, R44, R554) -/

theorem TideState.tick_posQ (t : TideState) : t.tick.posQ.toNat = (t.posQ.toNat + t.rate.toNat) % 2 ^ 112 := by
  have rate := t.rate.isLt
  rw [TideState.tick, BitVec.toNat_add, BitVec.zeroExtend, BitVec.toNat_setWidth, Nat.mod_eq_of_lt (a := t.rate.toNat) (by omega)]

theorem TideState.cycle_eq (t : TideState) : t.cycle = t.posQ.toNat / 2 ^ 64 := by
  rw [TideState.cycle, BitVec.toNat_ushiftRight, Nat.shiftRight_eq_div_pow]

/-- The angle carries into the cycle count. -/
theorem TideState.tick_cycle (t : TideState) :
    t.tick.cycle = (t.cycle + (t.posQ.toNat % 2 ^ 64 + t.rate.toNat) / 2 ^ 64) % 2 ^ 48 := by
  have pos := t.posQ.isLt
  rw [TideState.cycle_eq, TideState.cycle_eq, TideState.tick_posQ]
  omega

theorem step_empty (h : s.pending = []) : step s = .next (tick s) := by
  simp only [step, h]

theorem tick_held (h : s.sys.held) : tick s = { s with now := s.now + 10 } := by
  simp [tick, State.countTick, h]

/-- The state as the counters leave it, before anything else of the tick. -/
def State.counted (s : State) : State := { s with now := s.now + 10, ltc := s.ltc + 10, tide := s.tide.tick }

theorem tick_running (h : s.sys.held = false) : tick s = s.counted.xingsTick.netTick.adeidTick.vectorTick.updateHealth := by
  simp [tick, State.countTick, h, State.counted]

/-- What follows the crossings in a tick touches neither the counters nor TIDE. -/
theorem State.afterXings_kept (u : State) :
    Kept (· ∈ [.net, .ptp, .host, .adeid, .log, .diag]) u u.netTick.adeidTick.vectorTick.updateHealth :=
  State.updateHealth_kept (State.vectorTick_kept (State.adeidTick_kept (State.netTick_kept (.refl u))))

theorem step_advances (h : s.pending = []) (up : s.sys.held = false) :
    ∃ t, step s = .next t ∧ t.now = s.now + 10 ∧ t.ltc = s.ltc + 10 ∧
    (s.clk.xings.all (·.held.isNone) → t.tide = { s.tide with posQ := t.tide.posQ }) ∧
    t.tide.posQ.toNat = (s.tide.posQ.toNat + s.tide.rate.toNat) % 2 ^ 112 ∧
    t.tide.cycle = (s.tide.cycle + (s.tide.posQ.toNat % 2 ^ 64 + s.tide.rate.toNat) / 2 ^ 64) % 2 ^ 48 ∧ t.pending = [] := by
  have after := s.counted.xingsTick.afterXings_kept
  have crossed := State.xingsTick_kept (M := (· ∉ [.now, .ltc])) (.refl s.counted)
  have course : (tick s).tide.course = s.tide.tick.course := by rw [tick_running up, after.tide]; exact State.xingsTick_course
  have pos : (tick s).tide.posQ = s.tide.tick.posQ := congrArg (·.posQ) course
  refine ⟨tick s, step_empty h, ?_, ?_, fun rest => ?_, ?_, ?_, ?_⟩
  · rw [tick_running up]; exact (after.parts .now (by simp)).trans (crossed.parts .now (by simp))
  · rw [tick_running up]; exact (after.parts .ltc (by simp)).trans (crossed.parts .ltc (by simp))
  · have tide : (tick s).tide = s.tide.tick := by rw [tick_running up, after.tide, State.xingsTick_rests (s := s.counted) rest]; rfl
    rw [tide]
    rfl
  · rw [pos, TideState.tick_posQ]
  · rw [← TideState.tick_cycle, TideState.cycle_eq, TideState.cycle_eq, pos]
  · rw [tick_running up]; exact (after.queue.trans crossed.queue).trans h

end Sys2Proof.Machine
end

section
/-! SUPPORT. What a recomputation and an update of the Pilot leave of TIDE (spec/02_tide.md R45 to R47, R50, R52, R53, R58 to R67). -/

namespace Sys2Proof.Machine

open Sys2Proof

variable {s : State}

/-! ### What sources, rate and history leave alone -/

/-- TIDE after changes of source, rate and history: the Pilot stays, no event bit clears, and, where initial alignment is fixed, the position
stays. -/
structure TideState.Steered (fixed : Prop) (a b : TideState) : Prop where
  posQ : fixed → b.posQ = a.posQ
  pilot : b.pilot = a.pilot
  bits : ∀ i, a.event.bits.getLsbD i → b.event.bits.getLsbD i

variable {fixed : Prop}

theorem TideState.Steered.refl (a : TideState) : a.Steered fixed a := ⟨fun _ => rfl, rfl, fun _ => id⟩

theorem TideState.Steered.trans {a b c : TideState} (h : a.Steered fixed b) (k : b.Steered fixed c) : a.Steered fixed c :=
  ⟨fun o => (k.posQ o).trans (h.posQ o), k.pilot.trans h.pilot, fun i => k.bits i ∘ h.bits i⟩

theorem W1C.bits_raise_of_set (e : W1C) (i : Nat) {j : Nat} (h : e.bits.getLsbD j) : (e.raise i).bits.getLsbD j := by
  rw [W1C.raise, BitVec.getLsbD_or, h, Bool.true_or]

theorem State.setFreq_steered (s : State) (f : Num) : s.tide.Steered fixed (s.setFreq f).tide := by
  unfold State.setFreq
  extract_lets c u
  have raised : s.tide.Steered fixed u.tide := by
    unfold u
    split
    · exact ⟨fun _ => rfl, rfl, fun _ => W1C.bits_raise_of_set _ _⟩
    · exact .refl _
  exact raised.trans ⟨fun _ => rfl, rfl, fun _ => id⟩

theorem State.tideRecord_steered (s : State) (r : Rec) (bit : Nat) (x y : TideSrc) : s.tide.Steered fixed (s.tideRecord r bit x y).tide :=
  ⟨fun _ => rfl, rfl, fun _ => W1C.bits_raise_of_set _ _⟩

theorem State.convergeTo_steered (s : State) (x : TideSrc) : s.tide.Steered fixed (s.convergeTo x).tide := by
  obtain ⟨b, e, d, -, tide⟩ := s.convergeTo_tide x
  rw [tide]
  exact ⟨fun _ => rfl, rfl, fun _ => id⟩

theorem State.refreshHolds_steered (s : State) : s.tide.Steered fixed s.refreshHolds.tide := ⟨fun _ => rfl, rfl, fun _ => id⟩

theorem State.pinLapse_tide (s : State) : ∃ p, s.pinLapse.tide = { s.tide with pin := p } := by
  unfold State.pinLapse
  split
  · exact ⟨_, rfl⟩
  · split
    · exact ⟨_, rfl⟩
    · exact ⟨none, rfl⟩

theorem State.coastFreq_tide (s : State) : s.coastFreq.2.tide = s.tide := (State.coastFreq_kept (M := (· ∈ [.fresh])) (.refl s)).tide

/-- At the start of coasting the mean frequency is held, within the limits of Tide (R46, R62). -/
theorem State.coastStart_rate (s : State) : s.coastStart.tide.rate = rateWord (Num.clamp 40 70 s.coastFreq.1) := by
  obtain ⟨r, ev, freq⟩ := s.coastFreq.2.setFreq_tide s.coastFreq.1
  show (s.coastFreq.2.setFreq s.coastFreq.1).unbind.tide.rate = _
  rw [State.unbind_tide, freq]

theorem State.coastStart_steered (s : State) : s.tide.Steered fixed s.coastStart.tide := by
  have freq : s.tide.Steered fixed (s.coastFreq.2.setFreq s.coastFreq.1).tide := s.coastFreq_tide ▸ State.setFreq_steered ..
  unfold State.coastStart
  extract_lets x m u v
  have held : s.tide.Steered fixed v.tide := by
    unfold v u
    rw [State.onTide_tide, State.unbind_tide]
    exact freq.trans ⟨fun _ => rfl, rfl, fun _ => id⟩
  refine held.trans (TideState.Steered.trans ?_ (State.tideRecord_steered _ _ _ _ _))
  rw [State.pushHist_tide]
  exact ⟨fun _ => rfl, rfl, fun _ => id⟩

/-- Coasting goes on, or Tide converges to a source (R63). -/
theorem State.coastEnd_cases (s : State) : s.coastEnd = s ∨ ∃ x, s.coastEnd = (s.convergeTo x).tideRecord .coastEnd 3 s.tide.followed x := by
  unfold State.coastEnd
  split
  · exact .inl rfl
  · exact .inr ⟨_, rfl⟩

theorem State.coastEnd_steered (s : State) : s.tide.Steered fixed s.coastEnd.tide := by
  obtain h | ⟨x, h⟩ := s.coastEnd_cases <;> rw [h]
  · exact .refl _
  · exact (State.convergeTo_steered s x).trans (State.tideRecord_steered _ _ _ _ _)

/-- Initial alignment is the only step, and comes once and before PROT is ready (R67). -/
theorem State.initAlign_steered (h : fixed → s.tide.aligned ∨ s.prot.ready) : s.tide.Steered fixed s.initAlign.tide := by
  unfold State.initAlign
  split
  · exact .refl _
  next early =>
    have step : ¬fixed := fun o => early (by obtain k | k := h o <;> simp [State.alignOver, k])
    split
    · exact .refl _
    · simp only [State.report_tide, State.raise_at_tide, State.pushHist_tide, State.onTide_tide]
      exact ⟨fun o => absurd o step, rfl, fun _ => W1C.bits_raise_of_set _ _⟩

/-- In INIT the state stays or is ALIGNED. -/
theorem State.initAlign_phase (h : s.tide.phase = .init) : s.initAlign.tide.phase ≠ .coasting := by
  unfold State.initAlign
  split
  · simp [h]
  · split
    · simp [h]
    · simp

/-! ### Changes of eligibility (R58, R61 to R63, R67) -/

/-- While Tide coasts, its rate is the one it had or that of a frequency within the limits (R46, R62). -/
def TideState.CoastsAt (t : TideState) (r : BitVec 64) : Prop :=
  t.phase = .coasting → t.rate = r ∨ ∃ f : Num, 40 ≤ f ∧ f ≤ 70 ∧ t.rate = rateWord f

theorem limited_clamp (f : Num) : ∃ g : Num, 40 ≤ g ∧ g ≤ 70 ∧ rateWord (Num.clamp 40 70 f) = rateWord g :=
  ⟨Num.clamp 40 70 f, Num.le_clamp 40 70 f (by norm_num), Num.clamp_le 40 70 f (by norm_num), rfl⟩

theorem State.coastEnd_coastsAt {r : BitVec 64} (h : s.tide.CoastsAt r) : s.coastEnd.tide.CoastsAt r := by
  obtain e | ⟨x, e⟩ := s.coastEnd_cases <;> rw [e]
  · exact h
  · obtain ⟨b, e, d, -, tide⟩ := s.convergeTo_tide x
    intro coasts
    rw [State.tideRecord_tide, tide] at coasts
    cases coasts

theorem State.checkSources_keeps (h : fixed → s.tide.aligned ∨ s.prot.ready) :
    s.tide.Steered fixed s.checkSources.tide ∧ s.checkSources.tide.CoastsAt s.tide.rate := by
  have prot : s.refreshHolds.pinLapse.prot = s.prot :=
    (State.pinLapse_kept (M := (· ∈ [.tide, .log])) (State.refreshHolds_kept (.refl s))).parts .prot (by simp)
  obtain ⟨p, tide⟩ := s.refreshHolds.pinLapse_tide
  have first : s.tide.Steered fixed s.refreshHolds.pinLapse.tide := by rw [tide]; exact ⟨fun _ => rfl, rfl, fun _ => id⟩
  have rate : s.refreshHolds.pinLapse.tide.rate = s.tide.rate := by rw [tide]; rfl
  have early : fixed → s.refreshHolds.pinLapse.tide.aligned ∨ s.refreshHolds.pinLapse.prot.ready := by rw [tide, prot]; exact h
  unfold State.checkSources
  extract_lets u
  split
  next ph => exact ⟨first.trans (State.initAlign_steered early), fun c => absurd c (State.initAlign_phase ph)⟩
  next => exact ⟨first.trans (State.coastEnd_steered _), State.coastEnd_coastsAt fun _ => .inl rate⟩
  all_goals
    split
    · exact ⟨first, fun c => by simp_all⟩
    · refine ⟨first.trans ((State.coastStart_steered _).trans (State.coastEnd_steered _)), State.coastEnd_coastsAt fun _ => .inr ?_⟩
      rw [State.coastStart_rate]
      exact limited_clamp _

/-! ### The rate (R45, R46, R60, R61) -/

/-- A rate after a recomputation: a coasting Tide may keep the one it had, and any other is that of a frequency within the limits. -/
def TideState.RateWithin (t : TideState) (r : BitVec 64) : Prop :=
  (t.phase = .coasting ∧ t.rate = r) ∨ ∃ f : Num, 40 ≤ f ∧ f ≤ 70 ∧ t.rate = rateWord f

theorem State.setFreq_within (s : State) (f : Num) (r : BitVec 64) : (s.setFreq f).tide.RateWithin r := by
  obtain ⟨_, _, tide⟩ := s.setFreq_tide f
  rw [tide]
  exact .inr (limited_clamp f)

theorem State.applyLaw_within {r : BitVec 64} (h : s.tide.CoastsAt r) : s.applyLaw.tide.RateWithin r := by
  unfold State.applyLaw
  split
  next coasts => exact (h coasts).imp (⟨coasts, ·⟩) id
  all_goals exact State.setFreq_within ..

theorem State.applyLaw_steered (s : State) : s.tide.Steered fixed s.applyLaw.tide := by
  unfold State.applyLaw
  split
  · exact .refl _
  · exact State.setFreq_steered _ _
  all_goals
    extract_lets x e df
    have set := State.setFreq_steered (fixed := fixed) (s.onTide fun t => { t with offset := e, df := df }) (s.srcFreq x + df)
    exact ⟨set.posQ, set.pilot, set.bits⟩

/-! ### What follows the entry in the history (R45, R47, R61, R72, R76) -/

/-- Position, rate and history stand, and a coasting Tide coasts on. -/
structure TideState.Stands (a b : TideState) : Prop where
  posQ : b.posQ = a.posQ
  rate : b.rate = a.rate
  hist : b.hist = a.hist
  coasts : a.phase = .coasting → b.phase = .coasting

theorem TideState.Stands.refl (a : TideState) : a.Stands a := ⟨rfl, rfl, rfl, id⟩

theorem TideState.Stands.trans {a b c : TideState} (h : a.Stands b) (k : b.Stands c) : a.Stands c :=
  ⟨k.posQ.trans h.posQ, k.rate.trans h.rate, k.hist.trans h.hist, k.coasts ∘ h.coasts⟩

theorem TideState.Stands.of_course {a b : TideState} (h : b.course = a.course) : a.Stands b :=
  ⟨congrArg (·.posQ) h, congrArg (·.rate) h, congrArg (·.hist) h, (congrArg (·.phase) h : b.phase = a.phase).trans⟩

theorem TideState.stands_rateAt (t : TideState) (m : Option (Option Nat × Nat)) : t.Stands { t with rateAt := m } := ⟨rfl, rfl, rfl, id⟩

theorem TideState.Stands.within {a b : TideState} (h : a.Stands b) {r : BitVec 64} (k : a.RateWithin r) : b.RateWithin r :=
  k.imp (fun c => ⟨h.coasts c.1, h.rate.trans c.2⟩) fun ⟨f, low, high, e⟩ => ⟨f, low, high, h.rate.trans e⟩

theorem State.countWindow_stands (s : State) : s.tide.Stands s.countWindow.tide := by
  unfold State.countWindow
  split
  · exact .refl _
  next conv =>
    have vacuous (p : TidePhase) : s.tide.phase = .coasting → p = .coasting := fun c => absurd c (by simp_all)
    extract_lets n u old
    split
    · exact ⟨rfl, rfl, rfl, id⟩
    · exact ⟨rfl, rfl, rfl, vacuous _⟩

theorem State.bindRotor_stands (s : State) : s.tide.Stands s.bindRotor.tide := by
  unfold State.bindRotor
  split
  · split
    · exact .refl _
    · simp only [State.report_tide, State.raise_tide, ne_eq, reduceCtorEq, not_false_eq_true, State.onUnit, State.onForm_tide, State.onTide_tide,
        State.unbind_tide]
      exact ⟨rfl, rfl, rfl, id⟩
  · exact .refl _

theorem State.onPow_course (s : State) (k : Nat) (f : Pow → Pow) : (s.onPow k f).tide.course = s.tide.course := rfl

theorem State.powAbort_course (s : State) (k : Nat) (c : PowCfg) (p : PowPending) (why : Nat) :
    (s.powAbort k c p why).tide.course = s.tide.course := by
  unfold State.powAbort
  extract_lets u v
  have flagged : v.tide.course = s.tide.course := by
    rw [State.report_tide, State.raise_at_tide]
    rfl
  clear_value v
  split
  · rw [State.onPow_course, flagged]
  · rw [State.onPow_course, ← flagged]
    rfl

theorem State.powUpdate_course (s : State) : s.powUpdate.tide.course = s.tide.course := by
  refine State.forEach_course (fun s k => ?_) _ s
  split
  · split_ifs
    · rfl
    · rfl
    · split
      · exact State.powAbort_course ..
      · rfl
  · rfl

theorem State.sendMark_tide (s : State) (n t : Nat) : (s.sendMark n t).tide = (s.onMark n fun m => { m with sent := some t }).tide :=
  (State.sendEdge_kept (M := (· ∈ [.fresh, .fio, .log, .diag])) _ (.refl _)).tide

theorem State.sendDueMarks_course (s : State) : s.sendDueMarks.tide.course = s.tide.course := by
  refine State.forEach_course (fun s n => ?_) _ s
  extract_lets m d
  split_ifs
  · rw [State.sendMark_tide]
    rfl
  · rfl
  · rfl

/-- What a recomputation does after the rate is entered in the history. -/
def State.afterHist (s : State) : State :=
  let u := s.countWindow.bindRotor.powUpdate.sendDueMarks.powUpdate
  u.onTide fun t => { t with rateAt := some u.rateMark }

theorem State.afterHist_stands (s : State) : s.tide.Stands s.afterHist.tide := by
  unfold State.afterHist
  extract_lets u
  have course : u.tide.course = s.countWindow.bindRotor.tide.course := by
    unfold u
    rw [State.powUpdate_course, State.sendDueMarks_course, State.powUpdate_course]
  have rest : s.countWindow.bindRotor.tide.Stands u.tide := .of_course course
  rw [State.onTide_tide]
  exact s.countWindow_stands.trans (s.countWindow.bindRotor_stands.trans (rest.trans (u.tide.stands_rateAt _)))

theorem exec_tideRateRecompute (h : s.tide.rateAt ≠ some s.rateMark) :
    exec .tideRateRecompute s = .next s.checkSources.applyLaw.pushHist.afterHist := by
  show execTideRateRecompute s = _
  rw [execTideRateRecompute, if_neg h, State.recompute, State.afterHist]

theorem exec_tideRateRecompute_within (s : State) (h : s.tide.rateAt ≠ some s.rateMark) : ∃ t, exec .tideRateRecompute s = .next t ∧
    t.tide.RateWithin s.tide.rate ∧ (s.tide.aligned ∨ s.prot.ready → t.tide.posQ = s.tide.posQ) ∧
    (∃ h l, t.tide.hist = h :: l ∧ h = { tick := s.now / 10, rate := t.tide.rate, posQ := t.tide.posQ, time := s.ltc }) ∧
    OnlyTouches [.fresh, .tide, .form, .fio, .log, .diag] s t := by
  have run := exec_tideRateRecompute h
  obtain ⟨steered, coasts⟩ := State.checkSources_keeps (s := s) (fixed := s.tide.aligned ∨ s.prot.ready) id
  have stands := s.checkSources.applyLaw.pushHist.afterHist_stands
  have kept : Kept (· ∈ [.fresh, .tide, .form, .log]) s s.checkSources.applyLaw := State.applyLaw_kept (State.checkSources_kept (.refl s))
  have now : s.checkSources.applyLaw.now = s.now := kept.parts .now (by simp)
  have ltc : s.checkSources.applyLaw.ltc = s.ltc := kept.parts .ltc (by simp)
  have within : s.checkSources.applyLaw.pushHist.tide.RateWithin s.tide.rate := State.applyLaw_within coasts
  refine ⟨_, run, stands.within within, fun o => ?_, ⟨_, s.checkSources.applyLaw.tide.hist.take 4095, ?_, rfl⟩, (execTideRateRecompute_kept (.refl s)).frame run⟩
  · exact stands.posQ.trans ((steered.trans (State.applyLaw_steered _)).posQ o)
  · rw [stands.hist, stands.rate, stands.posQ, State.pushHist_tide, now, ltc]
    rfl

/-! ### An update of the Pilot (R50, R52, R53) -/

/-- The Pilot beside its state and the counts and times that lead from one state to another: what the loop gives. -/
def Pilot.reading (p : Pilot) : Pilot :=
  { p with phase := .off, lostReason := .none, trackCycles := 0, cycleGood := false, cycleFreq := none, lowSince := none, goodSince := none }

theorem Pilot.countCycle_reading (p : Pilot) (old : Angle) (good next : Bool) : (p.countCycle old good next).reading = p.reading := by
  unfold Pilot.countCycle
  dsimp only
  split_ifs <;> rfl

/-- The Pilot once the loop's output has entered it and its cycles are counted. -/
def State.pilotTaken (s : State) (x : PilotIn) : Pilot :=
  let c := s.tideCfg
  let p0 := s.tide.pilot
  { (p0.take x (pilotJump c p0 x) s.now).countCycle p0.angle (pilotGood c p0 x s.pilotValid)
      (pilotGood c { p0 with cycleFreq := none } x s.pilotValid) with
    sampled := s.pilotInstant, lowSince := if x.mag < c.pilotLossLevel then some (p0.lowSince.getD s.now) else none }

theorem State.pilotTaken_reading (s : State) (x : PilotIn) : (s.pilotTaken x).reading =
    { (s.tide.pilot.take x (pilotJump s.tideCfg s.tide.pilot x) s.now).reading with sampled := s.pilotInstant } := by
  rw [← Pilot.countCycle_reading (s.tide.pilot.take ..)]
  rfl

/-- The state table of R52 changes nothing of what the loop gives. -/
theorem State.pilotStep_reading (s : State) (x : PilotIn) (on : s.tide.pilot.phase ≠ .off) :
    (s.pilotStep x).tide.pilot.reading = (s.pilotTaken x).reading := by
  unfold State.pilotStep
  extract_lets c p0 valid jump good counted at_ p u ok since cycle
  have taken : p = s.pilotTaken x := rfl
  rw [← taken]
  clear_value p
  split
  next off => exact absurd off on
  next => split <;> rfl
  next =>
    split
    · rfl
    · clear_value jump
      cases jump <;> rfl
  next => split <;> rfl

/-- A tracking Pilot with an invalid input, and with no other cause of loss, is LOST for its input (R52). -/
theorem State.pilotStep_loses (s : State) (x : PilotIn) (track : s.tide.pilot.phase = .tracking) (bad : s.pilotValid = false)
    (mag : s.tideCfg.pilotLossLevel ≤ x.mag) (low : 40 ≤ x.freq) (high : x.freq ≤ 70) (quiet : x.jump = none) :
    s.pilotStep x = ((s.onTide fun t => { t with pilot := { s.pilotTaken x with phase := .lost, lostReason := .input, goodSince := none } }).raise
      .tide 6).report .pilotLost 0xFFFF [LostReason.input.num, roundInt ((s.pilotTaken x).lastJump * 1000)] := by
  have jump : pilotJump s.tideCfg s.tide.pilot x = none := by simp [pilotJump, quiet]
  have since : (s.pilotTaken x).lowSince = none := if_neg (not_lt.mpr mag)
  have loss : pilotLoss s.tideCfg (s.pilotTaken x) x s.pilotValid (pilotJump s.tideCfg s.tide.pilot x) s.now = some .input := by
    simp [pilotLoss, jump, since, bad, not_lt.mpr low, not_lt.mpr high]
  unfold State.pilotStep
  extract_lets c p0 valid jump' good counted at_ p u
  have taken : p = s.pilotTaken x := rfl
  have lost : pilotLoss c p x valid jump' s.now = some .input := taken ▸ loss
  have tracking : p0.phase = .tracking := track
  clear_value p
  simp only [tracking, lost]
  rw [taken]

theorem exec_pilotUpdate (due : s.pilotDue) (x : PilotIn) : exec (.pilotUpdate x) s = .next (s.pilotStep x).checkSources :=
  congrArg _ (if_pos due)

/-- What an update leaves of the loop's output (R50, R53). -/
theorem exec_pilotUpdate_takes (s : State) (x : PilotIn) (due : s.pilotDue) : ∃ t, exec (.pilotUpdate x) s = .next t ∧
    t.tide.pilot.mag = x.mag ∧ t.tide.pilot.perr = x.perr ∧ t.tide.pilot.at_ = s.now ∧ t.tide.pilot.sampled = s.pilotInstant ∧
    (pilotJump s.tideCfg s.tide.pilot x = none →
      t.tide.pilot.angle = x.angle ∧ t.tide.pilot.freq = x.freq ∧ t.tide.pilot.rocof = x.rocof) ∧
    (∀ j, pilotJump s.tideCfg s.tide.pilot x = some j → t.tide.pilot.angle = x.angle + BitVec.ofInt 32 (roundInt (degAu j)) ∧
      t.tide.pilot.freq = s.tide.pilot.freq ∧ t.tide.pilot.rocof = s.tide.pilot.rocof ∧ t.tide.pilot.lastJump = j) ∧
    OnlyTouches [.fresh, .tide, .form, .log] s t := by
  have run := exec_pilotUpdate due x
  have on : s.tide.pilot.phase ≠ .off := by simp only [State.pilotDue, Bool.and_eq_true, decide_eq_true_eq] at due; exact due.1.1
  have pilot : (s.pilotStep x).checkSources.tide.pilot = (s.pilotStep x).tide.pilot :=
    (State.checkSources_keeps (fixed := False) False.elim).1.pilot
  have reads := (s.pilotStep_reading x on).trans (s.pilotTaken_reading x)
  rw [← pilot] at reads
  refine ⟨_, run, ?_, ?_, ?_, congrArg (·.sampled) reads, fun none => ?_, fun j jump => ?_, (execPilotUpdate_kept x (.refl s)).frame run⟩
  · exact (congrArg (·.mag) reads).trans (by unfold Pilot.take; split <;> rfl)
  · exact (congrArg (·.perr) reads).trans (by unfold Pilot.take; split <;> rfl)
  · exact (congrArg (·.at_) reads).trans (by unfold Pilot.take; split <;> rfl)
  · rw [none] at reads
    exact ⟨congrArg (·.angle) reads, congrArg (·.freq) reads, congrArg (·.rocof) reads⟩
  · rw [jump] at reads
    exact ⟨congrArg (·.angle) reads, congrArg (·.freq) reads, congrArg (·.rocof) reads, congrArg (·.lastJump) reads⟩

theorem exec_pilotUpdate_loses (s : State) (x : PilotIn) (due : s.pilotDue) (track : s.tide.pilot.phase = .tracking) (bad : s.pilotValid = false)
    (mag : s.tideCfg.pilotLossLevel ≤ x.mag) (low : 40 ≤ x.freq) (high : x.freq ≤ 70) (quiet : x.jump = none) :
    ∃ t, exec (.pilotUpdate x) s = .next t ∧ t.tide.pilot.phase = .lost ∧ t.tide.pilot.lostReason = .input ∧ t.tide.event.bits.getLsbD 6 = true := by
  have steered := (State.checkSources_keeps (s := s.pilotStep x) (fixed := False) False.elim).1
  have lost := s.pilotStep_loses x track bad mag low high quiet
  refine ⟨_, exec_pilotUpdate due x, ?_, ?_, steered.bits 6 ?_⟩
  · rw [steered.pilot, lost]
    rfl
  · rw [steered.pilot, lost]
    rfl
  · rw [lost, State.report_tide, State.raise_at_tide]
    exact W1C.raise_bits _ 6 (by decide)

/-- Settles O8, clause by clause. -/
theorem tideAdvancesWithinItsLimits : Obligations.TideAdvancesWithinItsLimits := by
  refine ⟨fun s => step_advances, fun s empty held => ?_, fun s done => ?_, exec_tideRateRecompute_within, fun s x idle => ?_, exec_pilotUpdate_takes,
    exec_pilotUpdate_loses⟩
  · rw [step_empty empty, tick_held held]
  · exact congrArg _ (if_pos done)
  · exact congrArg _ (if_neg (by rw [idle]; exact Bool.false_ne_true))

end Sys2Proof.Machine
end

section
/-! SUPPORT. Arming and firing of marks (spec/02_tide.md R69 to R72). -/

namespace Sys2Proof.Machine

open Sys2Proof

variable {s : State}

theorem State.mark_congr {s t : State} (h : t.tide.marks = s.tide.marks) (n : Nat) : t.mark n = s.mark n := by
  rw [State.mark, h, State.mark]

/-! ### Arming (R69, R71) -/

theorem exec_tideMarkArm_ok {b n : Nat} {m : MarkSpec} (h : s.ctlCmd b = some (.tideMark n m)) (ok : s.refuseMark n m .host = none) :
    exec (.tideMarkArm b) s = .next (((s.leaveCtl b).armMark n m .host).done b) := by
  show execTideMarkArm b s = _
  simp only [execTideMarkArm, h, ok, State.runCtl]
  rfl

/-- The mark that an arming leaves at position `p`, from the mark as it was. -/
def armedMark (m : MarkSpec) (o : MarkOwner) (p : Nat) (x : Mark) : Mark :=
  { x with
    armed := true, action := m.action, owner := o, period := m.period, level := m.level, target := m.target, log := m.log,
    sent := none, cycle := p / 2 ^ 32 % 2 ^ 48, angle := BitVec.ofNat 32 p }

/-- Arming withdraws an edge already sent, and changes the mark. -/
theorem State.armMark_tide (n : Nat) (m : MarkSpec) (o : MarkOwner) :
    (s.armMark n m o).tide = (s.onMark n (armedMark m o (s.armPos m))).tide := by
  unfold State.armMark
  cases (s.mark n).sent.isSome <;> rfl

/-- A one-shot mark is armed at the position asked for. -/
theorem State.armed_position {m : MarkSpec} (once : m.period = none) (range : m.cycle < 2 ^ 48) (o : MarkOwner) (x : Mark) :
    (armedMark m o (s.armPos m) x).cycle = m.cycle ∧ (armedMark m o (s.armPos m) x).angle = m.angle := by
  have angle := m.angle.isLt
  have pos : s.armPos m = m.cycle * 2 ^ 32 + m.angle.toNat := by simp only [State.armPos, once]
  simp only [armedMark, pos]
  refine ⟨by omega, BitVec.eq_of_toNat_eq ?_⟩
  rw [BitVec.toNat_ofNat]
  omega

theorem exec_tideMarkArm_arms (s : State) (b n : Nat) (m : MarkSpec) (h : s.ctlCmd b = some (.tideMark n m))
    (ok : s.refuseMark n m .host = none) (hn : n < s.tide.marks.length) :
    ∃ t, exec (.tideMarkArm b) s = .next t ∧ DoneOn b 0 t ∧ t.mark n = armedMark m .host (s.armPos m) (s.mark n) ∧
      (∀ k, k ≠ n → t.mark k = s.mark k) ∧ OnlyTouches [.tide, .fio, .log, .host] s t := by
  have run := exec_tideMarkArm_ok h ok
  have tide : (((s.leaveCtl b).armMark n m .host).done b).tide = (s.onMark n (armedMark m .host (s.armPos m))).tide :=
    State.armMark_tide (s := s.leaveCtl b) n m .host
  have mark (k : Nat) : (((s.leaveCtl b).armMark n m .host).done b).mark k = (s.onMark n (armedMark m .host (s.armPos m))).mark k :=
    State.mark_congr (congrArg (·.marks) tide) k
  have host : ((s.leaveCtl b).armMark n m .host).host = (s.leaveCtl b).host :=
    (State.armMark_kept (M := (· ∈ [.tide, .fio])) n m .host (.refl _)).parts .host (by simp)
  exact ⟨_, run, State.doneOn_of_ctlCmd h host, (mark n).trans (State.mark_onMark_same hn _), fun k hk => (mark k).trans (State.mark_onMark_ne hk _),
    (execTideMarkArm_kept b (.refl s)).frame run⟩

/-! ### A mark that is too near (R71) -/

/-- The one-shot position asked for lies nearer than the lead of its action. -/
def State.markNear (s : State) (m : MarkSpec) : Prop :=
  ((m.cycle * 2 ^ 32 + m.angle.toNat : Nat) : Num) < (s.tide.posN : Num) + s.travel (markLead m.action)

theorem State.refuseMark_near {m : MarkSpec} (once : m.period = none) (near : s.markNear m) (n : Nat) (o : MarkOwner) :
    s.refuseMark n m o = some { blk := .tide, src := n, st0 := s.tideStatus } := by
  rw [State.markNear] at near
  simp only [State.refuseMark, once, Option.isNone_none, near, decide_true, Bool.and_self, Bool.or_true, Bool.true_or, if_true]

theorem State.markPast_near {m : MarkSpec} (once : m.period = none) (near : s.markNear m) :
    s.markPast m = (s.raise .tide 7).report .markPast 0xFFFF [m.cycle, m.angle.toNat] := by
  rw [State.markNear] at near
  simp only [State.markPast, once, Option.isNone_none, near, decide_true, Bool.and_self, State.when_true]

/-- The refusal of a command that stands in its berth ends its item with the status of the block (R489, R492). -/
theorem State.refusedOn_refuseItem {b : Nat} {r : Refuse} (h : (s.item b).isSome) (stage : RefStage) :
    RefusedOn b r.st0 (s.refuseItem b r stage) := by
  obtain ⟨it, hit⟩ := Option.isSome_iff_exists.mp h
  have ended : (s.refuseItem b r stage).endingOf b =
      (s.endItem b { status := .refused, reason := some .stateRefused, result := r.st0.zeroExtend 64 }).raiseRefused.endingOf b := by
    simp only [State.refuseItem, hit]
    rfl
  rw [RefusedOn, ended, State.endingOf_raiseRefused, State.endingOf_endItem _ _ _ h]

theorem exec_tideMarkArm_refuses (s : State) (b n : Nat) (m : MarkSpec) (h : s.ctlCmd b = some (.tideMark n m)) (once : m.period = none)
    (near : s.markNear m) : ∃ t, exec (.tideMarkArm b) s = .next t ∧ t.tide.marks = s.tide.marks ∧
      t.tide.event = s.tide.event.raise 7 ∧ RefusedOn b s.tideStatus t := by
  let u := s.markPast m
  let r : Refuse := { blk := .tide, src := n, st0 := s.tideStatus }
  have run : exec (.tideMarkArm b) s = .next ((u.leaveCtl b).refuseItem b r .ctl) := by
    show execTideMarkArm b s = _
    simp only [execTideMarkArm, h, State.refuseMark_near once near, Option.isSome_some, if_true, State.runCtl]
    rfl
  have tide : ((u.leaveCtl b).refuseItem b r .ctl).tide = u.tide :=
    (State.refuseItem_kept (M := (· ∈ [.host, .log])) b r .ctl (.refl _)).tide
  have past : u.tide = { s.tide with event := s.tide.event.raise 7 } := by
    show (s.markPast m).tide = _
    rw [State.markPast_near once near]
    rfl
  obtain ⟨it, hit, -⟩ := State.ctlCmd_item h
  have item : ((u.leaveCtl b).item b).isSome := by
    show ((s.markPast m).item b).isSome
    rw [State.markPast_near once near]
    exact Option.isSome_iff_exists.mpr ⟨it, hit⟩
  refine ⟨_, run, ?_, ?_, State.refusedOn_refuseItem item .ctl⟩ <;> rw [tide, past]

/-! ### The firing of one mark (R69, R70, R72) -/

/-- A mark once it has fired at tick `t`: disarmed, or placed one period on (R70). -/
def Mark.afterFire (m : Mark) (t : Nat) : Mark :=
  match m.period with
  | some k => ({ m with fired := ts32of t, sent := none } : Mark).at_ (m.pos + k * 2 ^ 32)
  | none => { m with fired := ts32of t, sent := none, armed := false }

/-- The time sent with an edge does not outlast the firing. -/
theorem Mark.afterFire_sent (m : Mark) (x : Option Nat) (t : Nat) : ({ m with sent := x } : Mark).afterFire t = m.afterFire t := rfl

/-- What finds the crossings stands, and of the marks at most the time sent with the edge of mark `n` differs. -/
structure SentOnly (n : Nat) (a b : State) : Prop where
  ltc : b.ltc = a.ltc
  course : b.tide.course = a.tide.course
  marks : ∃ f : Mark → Option Nat, b.tide.marks = updAt a.tide.marks n fun m => { m with sent := f m }

theorem SentOnly.of_kept {M : Part → Prop} {a b : State} (h : Kept M a b) (n : Nat) (tide : ¬M .tide := by simp) (ltc : ¬M .ltc := by simp) :
    SentOnly n a b :=
  ⟨h.parts .ltc ltc, by rw [h.tide tide], Mark.sent, by rw [h.tide tide]; exact (List.modify_id ..).symm⟩

theorem SentOnly.trans {n : Nat} {a b c : State} (h : SentOnly n a b) (k : SentOnly n b c) : SentOnly n a c := by
  obtain ⟨f, hf⟩ := h.marks
  obtain ⟨g, hg⟩ := k.marks
  refine ⟨k.ltc.trans h.ltc, k.course.trans h.course, fun m => g { m with sent := f m }, ?_⟩
  rw [hg, hf]
  exact List.modify_modify_eq ..

theorem State.onMark_sentOnly (s : State) (n : Nat) (f : Mark → Option Nat) : SentOnly n s (s.onMark n fun m => { m with sent := f m }) :=
  ⟨rfl, rfl, f, rfl⟩

theorem State.sendMark_sentOnly (s : State) (n t : Nat) : SentOnly n s (s.sendMark n t) :=
  (s.onMark_sentOnly n fun _ => some t).trans
    (.of_kept (State.sendEdge_kept (M := (· ∈ [.fresh, .fio, .log, .diag])) _ (.refl _)) n)

theorem State.markAction_sentOnly (s : State) (n t : Nat) : SentOnly n s (s.markAction n t) := by
  have still : SentOnly n s s := .of_kept (M := (· ∈ [])) (.refl s) n
  unfold State.markAction
  extract_lets m e
  split
  · exact still
  · exact still
  · split
    · exact still
    · exact State.sendMark_sentOnly s n t
  · exact .of_kept (M := (· ∈ [.logic])) (State.onLogic_kept (.refl s) _) n
  · exact .of_kept (M := (· ∈ [.capt])) (State.forEach_kept (fun x _ h => State.captMet_kept _ x.2 t h) _ (State.captPut_kept _ _ (.refl s))) n
  · exact .of_kept (M := (· ∈ [.form])) (State.onUnit_kept _ _ (.refl s)) n

theorem State.overrule_sentOnly (s : State) (x : Nat × Nat) : SentOnly x.2 s (s.overrule x) := by
  have withdrawn : SentOnly x.2 s (s.withdrawEdge x.2) := .of_kept (M := (· ∈ [.fio])) (State.withdrawEdge_kept _ (.refl s)) x.2
  exact withdrawn.trans ((State.onMark_sentOnly _ x.2 fun m => some (m.sent.getD x.1)).trans ⟨rfl, rfl, Mark.sent, (List.modify_id ..).symm⟩)

/-- What finds the crossings stands, and of the marks the one of `x` has fired at its tick. -/
structure FiredOnly (x : Nat × Nat) (a b : State) : Prop where
  ltc : b.ltc = a.ltc
  course : b.tide.course = a.tide.course
  marks : b.tide.marks = updAt a.tide.marks x.2 fun m => m.afterFire x.1

theorem State.fireMark_firedOnly (s : State) (x : Nat × Nat) : FiredOnly x s (s.fireMark x) := by
  unfold State.fireMark
  extract_lets m u sent v
  have fires : SentOnly x.2 s v := by
    refine (s.markAction_sentOnly x.2 x.1).trans (.of_kept (M := (· ∈ [.log])) ?_ x.2)
    exact Kept.ite (fun _ => State.reportAt_kept _ _ _ _ (.refl _)) fun _ => .refl _
  obtain ⟨f, hf⟩ := fires.marks
  refine ⟨fires.ltc, fires.course, ?_⟩
  show updAt v.tide.marks x.2 (fun m => m.afterFire x.1) = _
  rw [hf]
  exact List.modify_modify_eq ..

/-- The firing of a mark, with the rule for marks of one tick and channel (R70). -/
def State.fireStep (s : State) (x : Nat × Nat) : State := (s.when (s.overruled s.dueMarks x) fun s => s.overrule x).fireMark x

theorem State.fireStep_firedOnly (s : State) (x : Nat × Nat) : FiredOnly x s (s.fireStep x) := by
  have ruled : SentOnly x.2 s (s.when (s.overruled s.dueMarks x) fun s => s.overrule x) := by
    cases s.overruled s.dueMarks x
    · exact .of_kept (M := (· ∈ [])) (.refl s) x.2
    · exact s.overrule_sentOnly x
  obtain ⟨f, hf⟩ := ruled.marks
  have fired := (s.when (s.overruled s.dueMarks x) fun s => s.overrule x).fireMark_firedOnly x
  refine ⟨fired.ltc.trans ruled.ltc, fired.course.trans ruled.course, fired.marks.trans ?_⟩
  rw [hf]
  exact List.modify_modify_eq ..

/-! ### The marks that have been crossed (R70) -/

theorem firstMark_none : ∀ {l : List (Nat × Nat)}, firstMark l = none → l = []
  | [], _ => rfl
  | x :: l, h => by
    rw [firstMark] at h
    split at h <;> cases h

theorem mem_of_firstMark : ∀ {l : List (Nat × Nat)} {x : Nat × Nat}, firstMark l = some x → x ∈ l
  | y :: l, x, h => by
    rw [firstMark] at h
    split at h
    next z hz =>
      have rest : z ∈ l := mem_of_firstMark hz
      obtain rfl := Option.some.inj h
      split
      · exact List.mem_cons_of_mem y rest
      · exact List.mem_cons_self
    next =>
      obtain rfl := Option.some.inj h
      exact List.mem_cons_self

/-- Mark `n` has been crossed and has not yet fired. -/
def State.markDue (s : State) (n : Nat) : Prop := s.tide.crossedMark (s.mark n) = true

theorem State.markDue_iff {n : Nat} : s.markDue n ↔ (s.mark n).armed ∧ s.tide.fired.toNat < (s.mark n).pos ∧ (s.mark n).pos ≤ s.tide.posN := by
  rw [State.markDue, TideState.crossedMark, Bool.and_eq_true, decide_eq_true_iff]

theorem State.mark_eq_getElem {n : Nat} (h : n < s.tide.marks.length) : s.mark n = s.tide.marks[n] := by
  rw [State.mark, nth, List.getElem?_eq_getElem h, Option.getD_some]

theorem State.markDue_lt {n : Nat} (h : s.markDue n) : n < s.tide.marks.length := by
  by_contra out
  have blank : s.mark n = {} := by rw [State.mark, nth, List.getElem?_eq_none (Nat.le_of_not_lt out), Option.getD_none]
  have armed := (State.markDue_iff.mp h).1
  rw [blank] at armed
  cases armed

theorem State.mem_dueMarks {x : Nat × Nat} : x ∈ s.dueMarks ↔ s.markDue x.2 ∧ x.1 = s.crossed (s.mark x.2).pos := by
  simp only [State.dueMarks, List.mem_map, List.mem_filter, List.mem_zipIdx_iff_getElem?]
  constructor
  · rintro ⟨⟨m, n⟩, ⟨at_n, due⟩, rfl⟩
    have mark : s.mark n = m := by rw [State.mark, nth, at_n, Option.getD_some]
    simp only [State.markDue, mark]
    exact ⟨due, trivial⟩
  · rintro ⟨due, time⟩
    have range := State.markDue_lt due
    refine ⟨(s.mark x.2, x.2), ⟨?_, due⟩, Prod.ext time.symm rfl⟩
    rw [State.mark_eq_getElem range]
    exact List.getElem?_eq_getElem range

/-- The number of marks that have been crossed. -/
def State.waiting (s : State) : Nat := s.tide.marks.countP s.tide.crossedMark

theorem State.waiting_pos {n : Nat} (h : s.markDue n) : 0 < s.waiting := by
  have range := State.markDue_lt h
  refine List.countP_pos_iff.mpr ⟨s.tide.marks[n], List.getElem_mem range, ?_⟩
  rw [← State.mark_eq_getElem range]
  exact h

/-- Every crossed mark stands for at least one crossing. -/
theorem State.waiting_le_crossings (s : State) : s.waiting ≤ s.crossings := by
  rw [State.waiting, List.countP_eq_length_filter, State.crossings]
  refine (List.length_map _).symm.le.trans (List.length_le_sum_of_one_le _ fun k hk => ?_)
  obtain ⟨m, -, rfl⟩ := List.mem_map.mp hk
  exact Nat.le_add_right ..

/-! ### The firing of one crossed mark leaves the others -/

theorem TideState.crossedMark_course {a b : TideState} (h : b.course = a.course) : b.crossedMark = a.crossedMark :=
  show b.course.crossedMark = _ from h ▸ rfl

theorem State.crossed_congr {a b : State} (ltc : b.ltc = a.ltc) (h : b.tide.course = a.tide.course) (p : Nat) : b.crossed p = a.crossed p := by
  have hist : b.history = a.history := show b.tide.course.hist = _ from h ▸ rfl
  rw [State.crossed, State.timeOf, hist, ltc, State.crossed, State.timeOf]

theorem FiredOnly.mark_same {x : Nat × Nat} {a b : State} (h : FiredOnly x a b) (range : x.2 < a.tide.marks.length) :
    b.mark x.2 = (a.mark x.2).afterFire x.1 := by
  rw [State.mark, h.marks]
  exact nth_updAt_self _ _ _ _ range

theorem FiredOnly.mark_ne {x : Nat × Nat} {a b : State} (h : FiredOnly x a b) {n : Nat} (hn : n ≠ x.2) : b.mark n = a.mark n := by
  rw [State.mark, h.marks]
  exact nth_updAt_ne _ _ _ _ _ hn.symm

/-- Where the mark that fires is not crossed again, one mark fewer waits. -/
theorem FiredOnly.waiting {x : Nat × Nat} {a b : State} (h : FiredOnly x a b) (due : a.markDue x.2) (once : ¬b.markDue x.2) :
    b.waiting + 1 = a.waiting := by
  have range := State.markDue_lt due
  have pos := State.waiting_pos due
  have cross := TideState.crossedMark_course h.course
  have before : a.tide.crossedMark a.tide.marks[x.2] = true := by
    rw [← State.mark_eq_getElem range]
    exact due
  have after : a.tide.crossedMark (a.tide.marks[x.2].afterFire x.1) = false := by
    rw [State.markDue, h.mark_same range, cross, State.mark_eq_getElem range] at once
    exact Bool.eq_false_of_not_eq_true once
  have set : b.tide.marks = a.tide.marks.set x.2 (a.tide.marks[x.2].afterFire x.1) := by
    rw [h.marks, updAt, List.modify_eq_set_getElem?, List.getElem?_eq_getElem range]
    rfl
  rw [State.waiting] at pos
  rw [State.waiting, State.waiting, set, cross, List.countP_set range, before, after]
  simp only [if_true, Bool.false_eq_true, if_false]
  omega

/-- What finds the crossings stands, and so does every mark that has not been crossed. -/
structure FireLeaves (a b : State) : Prop where
  ltc : b.ltc = a.ltc
  course : b.tide.course = a.tide.course
  length : b.tide.marks.length = a.tide.marks.length
  marks : ∀ n, ¬a.markDue n → b.mark n = a.mark n

theorem FireLeaves.refl (s : State) : FireLeaves s s := ⟨rfl, rfl, rfl, fun _ _ => rfl⟩

theorem FireLeaves.markDue_iff {a b : State} (h : FireLeaves a b) {n : Nat} (same : b.mark n = a.mark n) : b.markDue n ↔ a.markDue n := by
  rw [State.markDue, State.markDue, same, TideState.crossedMark_course h.course]

theorem FireLeaves.trans {a b c : State} (h : FireLeaves a b) (k : FireLeaves b c) : FireLeaves a c := by
  refine ⟨k.ltc.trans h.ltc, k.course.trans h.course, k.length.trans h.length, fun n hn => ?_⟩
  have same := h.marks n hn
  exact (k.marks n (mt (h.markDue_iff same).mp hn)).trans same

theorem FiredOnly.leaves {x : Nat × Nat} {a b : State} (h : FiredOnly x a b) (due : a.markDue x.2) : FireLeaves a b := by
  refine ⟨h.ltc, h.course, ?_, fun n hn => h.mark_ne fun same => hn (same ▸ due)⟩
  rw [h.marks, length_updAt]

/-! ### All crossed marks fire (R70) -/

theorem State.fireMarks_succ (fuel : Nat) (s : State) :
    s.dueMarks = [] ∧ State.fireMarks (fuel + 1) s = s ∨ ∃ x ∈ s.dueMarks, State.fireMarks (fuel + 1) s = State.fireMarks fuel (s.fireStep x) := by
  cases first : firstMark s.dueMarks with
  | none =>
    refine .inl ⟨firstMark_none first, ?_⟩
    simp only [State.fireMarks, first]
  | some x =>
    refine .inr ⟨x, mem_of_firstMark first, ?_⟩
    simp only [State.fireMarks, first]
    rfl

theorem State.fireMarks_leaves : ∀ (fuel : Nat) (s : State), FireLeaves s (State.fireMarks fuel s)
  | 0, s => .refl s
  | fuel + 1, s => by
    obtain ⟨-, rest⟩ | ⟨x, hx, rest⟩ := State.fireMarks_succ fuel s <;> rw [rest]
    · exact .refl s
    · exact ((s.fireStep_firedOnly x).leaves (State.mem_dueMarks.mp hx).1).trans (State.fireMarks_leaves fuel _)

/-- Mark `n` once it has fired at the tick of its crossing. -/
def State.firedMark (s : State) (n : Nat) : Mark := (s.mark n).afterFire (s.crossed (s.mark n).pos)

/-- No crossed mark is crossed again where its firing places it. -/
def State.crossedOnce (s : State) : Prop := ∀ n, s.markDue n → s.tide.crossedMark (s.firedMark n) = false

theorem State.fireMarks_fires : ∀ (fuel : Nat) (s : State), s.waiting ≤ fuel → s.crossedOnce →
    ∀ n, s.markDue n → (State.fireMarks fuel s).mark n = s.firedMark n
  | 0, s, enough, _, n, due => by
    have := State.waiting_pos due
    omega
  | fuel + 1, s, enough, once, n, due => by
    obtain ⟨none, -⟩ | ⟨x, hx, rest⟩ := State.fireMarks_succ fuel s
    · have mem : (s.crossed (s.mark n).pos, n) ∈ s.dueMarks := State.mem_dueMarks.mpr ⟨due, rfl⟩
      rw [none] at mem
      cases mem
    · obtain ⟨dueX, time⟩ := State.mem_dueMarks.mp hx
      have fired := s.fireStep_firedOnly x
      have leaves := fired.leaves dueX
      have same : (s.fireStep x).mark x.2 = s.firedMark x.2 := (fired.mark_same (State.markDue_lt dueX)).trans (by rw [time, State.firedMark])
      have served : ¬(s.fireStep x).markDue x.2 := by
        rw [State.markDue, same, TideState.crossedMark_course fired.course, once x.2 dueX]
        exact Bool.false_ne_true
      have other {k : Nat} (hk : k ≠ x.2) : (s.fireStep x).firedMark k = s.firedMark k := by
        rw [State.firedMark, fired.mark_ne hk, State.crossed_congr fired.ltc fired.course, State.firedMark]
      rw [rest]
      by_cases hn : n = x.2
      · subst hn
        exact ((State.fireMarks_leaves fuel _).marks x.2 served).trans same
      · have fewer := fired.waiting dueX served
        have onceLeft : (s.fireStep x).crossedOnce := fun k dueK => by
          have hk : k ≠ x.2 := fun same => served (same ▸ dueK)
          rw [other hk, TideState.crossedMark_course fired.course]
          exact once k ((leaves.markDue_iff (fired.mark_ne hk)).mp dueK)
        have dueN := (leaves.markDue_iff (fired.mark_ne hn)).mpr due
        exact (State.fireMarks_fires fuel _ (by omega) onceLeft n dueN).trans (other hn)

/-! ### A mark that has fired is not crossed again before its next position -/

theorem Mark.at_pos (m : Mark) {p : Nat} (h : p < 2 ^ 80) : (m.at_ p).pos = p := by
  simp only [Mark.at_, Mark.pos, BitVec.toNat_ofNat]
  omega

theorem Mark.afterFire_not_crossed {m : Mark} {t : TideState} (time : Nat)
    (next : ∀ p, m.period = some p → t.posN < m.pos + p * 2 ^ 32 ∧ m.pos + p * 2 ^ 32 < 2 ^ 80) : t.crossedMark (m.afterFire time) = false := by
  rw [Mark.afterFire]
  split
  next p hp =>
    obtain ⟨ahead, range⟩ := next p hp
    rw [TideState.crossedMark, Mark.at_pos _ range, decide_eq_false (by omega), Bool.and_false]
  next => rfl

theorem exec_tideMarkFire (s : State) : exec .tideMarkFire s = .next ((State.fireMarks s.crossings s).onTide fun t => { t with fired := t.pos }) := rfl

theorem exec_tideMarkFire_serves (s : State) : ∃ t, exec .tideMarkFire s = .next t ∧ t.tide.fired = s.tide.pos ∧
    t.tide.marks.length = s.tide.marks.length ∧ (∀ n, ¬s.markDue n → t.mark n = s.mark n) ∧
    (s.crossedOnce → ∀ n, s.markDue n → t.mark n = s.firedMark n) ∧
    OnlyTouches [.fresh, .tide, .form, .logic, .fio, .capt, .log, .diag] s t := by
  have leaves := State.fireMarks_leaves s.crossings s
  have pos : (State.fireMarks s.crossings s).tide.pos = s.tide.pos := show (State.fireMarks s.crossings s).tide.course.pos = _ from leaves.course ▸ rfl
  exact ⟨_, exec_tideMarkFire s, pos, leaves.length, leaves.marks, State.fireMarks_fires _ s s.waiting_le_crossings,
    (execTideMarkFire_kept (.refl s)).frame (exec_tideMarkFire s)⟩

/-- Settles O10: an accepted arming changes its mark alone, and at the position asked for; a near one is refused; and the marks fire one after the
other, each firing one mark and leaving the rest, until none is crossed, which the number of crossings allows. -/
theorem marksFireOnceWhenCrossed : Obligations.MarksFireOnceWhenCrossed := by
  unfold Obligations.MarksFireOnceWhenCrossed
  refine ⟨fun s b n m h ok range => ?_, exec_tideMarkArm_refuses, fun s full => ?_⟩
  · obtain ⟨t, run, done, mark, others, frame⟩ := exec_tideMarkArm_arms s b n m h ok range
    refine ⟨t, run, done, congrArg Mark.armed mark, congrArg Mark.action mark, congrArg Mark.owner mark, congrArg Mark.period mark,
      congrArg Mark.level mark, congrArg Mark.target mark, congrArg Mark.sent mark, fun once bound => ?_, others, frame⟩
    rw [mark]
    exact State.armed_position once bound .host _
  · obtain ⟨t, run, fired, length, kept, fires, frame⟩ := exec_tideMarkFire_serves s
    refine ⟨t, run, fired, length.trans full, fun n _ stays => kept n fun due => ?_, fun next n _ armed low high => ?_, frame⟩
    · obtain ⟨armed, low, high⟩ := State.markDue_iff.mp due
      rcases stays with off | ahead | behind
      · rw [off] at armed
        cases armed
      · omega
      · omega
    · have once : s.crossedOnce := fun k due => by
        obtain ⟨armed, low, high⟩ := State.markDue_iff.mp due
        exact Mark.afterFire_not_crossed _ fun p hp => next k (full ▸ State.markDue_lt due) p armed low high hp
      exact fires once n (State.markDue_iff.mpr ⟨armed, low, high⟩)

end Sys2Proof.Machine
end

section
/-! SUPPORT. What the operations of CLK leave: the loops, the reference, MEAS, a retune (spec/03_clocks_and_crossings.md R86 to R103). -/

namespace Sys2Proof.Machine

set_option Elab.async false

open Sys2Proof

variable {s : State}

theorem State.when_of_false {c : Bool} {f : State → State} (h : c = false) : s.when c f = s := by rw [h, State.when_false]

/-! ### The loops (R94, R95) -/

@[simp] theorem State.onLoop_clk (s : State) (i : LoopId) (f : Loop → Loop) : (s.onLoop i f).clk = s.clk.setLoop i (f (s.loop i)) := rfl

/-- What no change of a single loop touches: the references and DEGRADED. -/
structure ClkView where
  refNone : Bool
  tcxoOk : Bool
  connected : Bool
  degraded : Bool
  degCause : DegCause
  dramRetraining : Bool

def ClkState.view (c : ClkState) : ClkView where
  refNone := c.refNone
  tcxoOk := c.tcxoOk
  connected := c.connected
  degraded := c.degraded
  degCause := c.degCause
  dramRetraining := c.dramRetraining

@[simp] theorem ClkState.view_setLoop (c : ClkState) (i : LoopId) (l : Loop) : (c.setLoop i l).view = c.view := by cases i <;> rfl

theorem State.mpllLost_view (s : State) : s.mpllLost.clk.view = s.clk.view := by
  unfold State.mpllLost
  extract_lets u v
  show v.clk.view = s.clk.view
  unfold v
  rw [State.onClk_clk]
  split <;> rfl

theorem State.domainStop_view (s : State) (d : Nat) : (s.domainStop d).clk.view = s.clk.view := by
  unfold State.domainStop
  split <;> rfl

/-- A mode move starts, or nothing changes (R91). -/
theorem State.nextMove_cases (s : State) : s.nextMove = s ∨ ∃ i m, s.nextMove = s.beginRetune i m none := by
  unfold State.nextMove
  split
  · exact .inl rfl
  · split
    · exact .inl rfl
    · exact .inr ⟨_, _, rfl⟩

theorem State.nextMove_view (s : State) : s.nextMove.clk.view = s.clk.view := by
  obtain h | ⟨i, m, h⟩ := s.nextMove_cases <;> rw [h]
  rw [State.beginRetune, State.onLoop_clk, ClkState.view_setLoop]
  rfl

theorem State.nextMove_of_nil (h : s.clk.moves = []) : s.nextMove = s := by
  simp only [State.nextMove, h]

/-! ### The references (R86 to R90) -/

theorem State.measureRef_clk (s : State) : ∃ f, s.measureRef.clk = { s.clk with refFreq := f } := ⟨_, rfl⟩

/-- A switch of the reference: since when a reference is usable stays, and the measured frequency is a free value. -/
theorem State.refSwitch_clk (s : State) (old : Nat) (new : RefSrc) : ∃ f, (s.refSwitch old new).clk =
    { s.clk with
      ref := new, refFreq := f, refSince := if s.clk.refSince.isSome then s.clk.refSince else some s.now, event := s.clk.event.raise 4 } :=
  ⟨_, rfl⟩

theorem State.refSwitch_log (s : State) (old : Nat) (new : RefSrc) :
    (s.refSwitch old new).log = (s.report .refSwitch 0xFFFF [old, new.num, roundInt (s.clk.refPpm * 1000)]).log := rfl

theorem State.refSwitch_frame (s : State) (old : Nat) (new : RefSrc) : OnlyTouches [.fresh, .clk, .log] s (s.refSwitch old new) :=
  (State.refSwitch_kept old new (.refl s)).frame

/-- XREF is qualified no more. -/
def State.xrefDropped (s : State) : State := s.onClk fun c => { c with xrefOk := false, xrefSince := none }

theorem State.refLost_xref (active : s.clk.ref = .xref) (tcxo : s.clk.tcxoOk) : s.refLost .xref = s.xrefDropped.refSwitch 1 .tcxo :=
  (if_pos active).trans (if_pos tcxo)

/-- The active XREF is lost while the TCXO is qualified (R87). -/
theorem State.xrefDropped_switches (s : State) : ∃ f, (s.xrefDropped.refSwitch 1 .tcxo).clk =
      { s.clk with
        xrefOk := false, xrefSince := none, ref := .tcxo, refFreq := f
        refSince := if s.clk.refSince.isSome then s.clk.refSince else some s.now, event := s.clk.event.raise 4 } ∧
    (s.xrefDropped.refSwitch 1 .tcxo).log = (s.report .refSwitch 0xFFFF [1, 0, roundInt (s.clk.refPpm * 1000)]).log ∧
    Kept (· ∈ [.fresh, .clk, .log]) s (s.xrefDropped.refSwitch 1 .tcxo) :=
  ⟨_, rfl, rfl, State.refSwitch_kept _ _ (State.onClk_kept (.refl s) _)⟩

/-- The loss of the idle TCXO takes its qualification alone (R89). -/
theorem State.refLost_idle_tcxo (active : s.clk.ref = .xref) :
    s.refLost .tcxo = ((s.onClk fun c => { c with tcxoOk := false }).raise .clk 5).report .refLoss 0xFFFF [0] :=
  if_neg fun h => RefSrc.noConfusion (active.symm.trans h)

theorem State.restartLoops_clk (s : State) : ∃ a b m, s.restartLoops.clk = { s.clk with spll0 := a, spll1 := b, mpll := m } := ⟨_, _, _, rfl⟩

/-! ### Numbers -/

/-- Rounding moves a number by a half at most. -/
theorem roundInt_near (x : Num) : (roundInt x : Num) ≤ x + 1 / 2 ∧ x - 1 / 2 ≤ roundInt x := by
  unfold roundInt
  split
  · have low := Int.floor_le (x + 1 / 2)
    have high := Int.lt_floor_add_one (x + 1 / 2)
    have e : (x + 1 / 2).floor = ⌊x + 1 / 2⌋ := rfl
    rw [e]
    constructor <;> linarith
  · have low := Int.floor_le (1 / 2 - x)
    have high := Int.lt_floor_add_one (1 / 2 - x)
    have e : (1 / 2 - x).floor = ⌊1 / 2 - x⌋ := rfl
    rw [e]
    push_cast
    constructor <;> linarith

/-- A value rounded to the resolution of the steering (R101) lies by one step at most beyond the limits of the value. -/
theorem steered_within {m : Num} (h : 0 ≤ m) (x : Num) :
    -m - 1 / 1000000 ≤ (roundInt (Num.clamp (-m) m x * 1000000) : Num) / 1000000 ∧
      (roundInt (Num.clamp (-m) m x * 1000000) : Num) / 1000000 ≤ m + 1 / 1000000 := by
  have order : -m ≤ m := by linarith
  have low := Num.le_clamp (-m) m x order
  have high := Num.clamp_le (-m) m x order
  obtain ⟨up, down⟩ := roundInt_near (Num.clamp (-m) m x * 1000000)
  constructor
  · rw [le_div_iff₀ (by norm_num)]
    linarith
  · rw [div_le_iff₀ (by norm_num)]
    linarith

end Sys2Proof.Machine
end

section
/-! SUPPORT. The references and MEAS: the commands on XREF, the TCXO, the MPLL and the clock guard (spec/03_clocks_and_crossings.md R86 to R93,
R101 to R103). -/

namespace Sys2Proof.Machine

set_option Elab.async false

open Sys2Proof

variable {s : State}

/-! ### The references (R86 to R90) -/

/-- A measurement with both references qualified that lies outside the limit (R87). -/
theorem exec_xrefQualified_outside {p : Sys2Proof.Num} (used : s.clkCfg.xrefUsed) (usable : s.clk.refNone = false) (xref : s.clk.xrefOk)
    (active : s.clk.ref = .xref) (tcxo : s.clk.tcxoOk) (far : 20 < p.mag) :
    exec (.xrefQualified p) s = .next ((s.onClk fun c => { c with refPpm := p }).xrefDropped.refSwitch 1 .tcxo) := by
  have measured : s.xrefMeasured p = s.onClk fun c => { c with refPpm := p } := by rw [State.xrefMeasured, tcxo, State.when_true]
  have limit : (s.onClk fun c => { c with refPpm := p }).xrefInLimit p = false := by simp [State.xrefInLimit, tcxo, far]
  show execXrefQualified p s = _
  rw [← State.refLost_xref (s := s.onClk fun c => { c with refPpm := p }) active tcxo]
  simp [execXrefQualified, used, usable, measured, limit, xref]

/-- A measurement within the limit of 20 ppm: XREF is qualified, since now or since before (R86, R88). -/
theorem exec_xrefQualified_within {p : Sys2Proof.Num} (used : s.clkCfg.xrefUsed) (usable : s.clk.refNone = false) (near : p.mag ≤ 20) :
    exec (.xrefQualified p) s = .next (s.onClk fun c =>
      { c with
        xrefOk := true, xrefSince := if c.xrefOk then c.xrefSince else some s.now, refPpm := if c.tcxoOk then p else c.refPpm }) := by
  have limit (u : State) : u.xrefInLimit p = true := by
    rw [State.xrefInLimit, decide_eq_true_eq]
    split <;> linarith
  show execXrefQualified p s = _
  cases tcxo : s.clk.tcxoOk <;> simp [execXrefQualified, used, usable, State.xrefMeasured, limit, tcxo, State.onClk]

theorem exec_xrefReturn (active : s.clk.ref = .tcxo) (used : s.clkCfg.xrefUsed) (xref : s.clk.xrefOk) (usable : s.clk.refNone = false)
    (up : 4 ≤ s.sys.stage) (held : s.passedSince s.clk.xrefSince s.clkCfg.xrefReturnHold) : exec .xrefReturn s = .next (s.refSwitch 0 .xref) :=
  congrArg _ (if_pos (by simp [active, used, xref, usable, up, held]))

/-- The TCXO is qualified, and a usable reference there is since now or since before. -/
def State.tcxoTaken (s : State) : State :=
  s.onClk fun c => { c with tcxoOk := true, refSince := if c.refSince.isSome then c.refSince else some s.now }

theorem exec_tcxoQualified (unqualified : s.clk.tcxoOk = false) (usable : s.clk.refNone = false) (up : s.sys.held = false)
    (late : s.passed s.sys.t0 (msec 21)) (running : s.clk.spll0.waitRef = false) :
    exec .tcxoQualified s = .next (s.tcxoTaken.when (decide (s.clk.ref = .tcxo)) State.measureRef) := by
  have waits : (s.tcxoTaken.when (decide (s.clk.ref = .tcxo)) State.measureRef).clk.spll0.waitRef = false := by
    cases decide (s.clk.ref = .tcxo) <;> exact running
  exact congrArg Host.Outcome.next ((if_neg (by simp [unqualified, usable, up, late])).trans
    (State.when_of_false (Bool.and_eq_false_iff.mpr (.inl waits))))

/-- What the qualification of the TCXO leaves: its measurement alone is free (R89). -/
theorem exec_tcxoQualified_takes (s : State) (unqualified : s.clk.tcxoOk = false) (usable : s.clk.refNone = false) (up : s.sys.held = false)
    (late : s.passed s.sys.t0 (msec 21)) (running : s.clk.spll0.waitRef = false) : ∃ t f, exec .tcxoQualified s = .next t ∧
    t.clk = { s.clk with
      tcxoOk := true, refSince := if s.clk.refSince.isSome then s.clk.refSince else some s.now, refFreq := f } ∧ OnlyTouches [.fresh, .clk] s t := by
  have run := exec_tcxoQualified unqualified usable up late running
  have frame := (execTcxoQualified_kept (M := (· ∈ [.fresh, .clk])) (.refl s)).frame run
  cases active : decide (s.clk.ref = .tcxo) <;> rw [active] at run frame
  · exact ⟨_, s.clk.refFreq, run, rfl, frame⟩
  · exact ⟨_, _, run, s.tcxoTaken.measureRef_clk.choose_spec, frame⟩

/-- What a measurement qualifies while no reference exists. -/
def State.refFound (s : State) (q : RefSeen) : State :=
  s.onClk fun c =>
    { c with
      refNone := false, refSince := some s.now, xrefOk := c.xrefOk || (q.hasXref && s.clkCfg.xrefUsed), tcxoOk := c.tcxoOk || q.hasTcxo
      xrefSince := if q.hasXref && s.clkCfg.xrefUsed then some s.now else c.xrefSince, stopped := c.stopped.set 7 false }

theorem exec_refQualified {q : RefSeen} (lost : s.clk.refNone) (found : q.hasTcxo ∨ q.hasXref ∧ s.clkCfg.xrefUsed) :
    exec (.refQualified q) s =
      .next (((s.refFound q).refSwitch 2 (if q.hasXref && s.clkCfg.xrefUsed then .xref else .tcxo)).restartLoops) :=
  congrArg Host.Outcome.next (if_neg (by
    rcases found with tcxo | ⟨xref, used⟩
    · simp [lost, tcxo]
    · simp [lost, xref, used]))

/-- What is taken when a reference exists again: XREF when it is used, else the TCXO (R88, R90). -/
theorem exec_refQualified_takes (s : State) (q : RefSeen) (lost : s.clk.refNone) (found : q.hasTcxo ∨ q.hasXref ∧ s.clkCfg.xrefUsed) :
    ∃ t, exec (.refQualified q) s = .next t ∧
    t.clk.refNone = false ∧ t.clk.ref = (if q.hasXref ∧ s.clkCfg.xrefUsed then .xref else .tcxo) ∧ t.clk.tcxoOk = (s.clk.tcxoOk || q.hasTcxo) ∧
    t.clk.refSince = some s.now ∧ t.clk.xrefOk = (s.clk.xrefOk || q.hasXref && s.clkCfg.xrefUsed) ∧
    t.clk.event = s.clk.event.raise 4 ∧ OnlyTouches [.fresh, .clk, .log] s t := by
  have run := exec_refQualified lost found
  obtain ⟨f, switch⟩ := (s.refFound q).refSwitch_clk 2 (if q.hasXref && s.clkCfg.xrefUsed then .xref else .tcxo)
  obtain ⟨a, b, m, loops⟩ := ((s.refFound q).refSwitch 2 (if q.hasXref && s.clkCfg.xrefUsed then .xref else .tcxo)).restartLoops_clk
  refine ⟨_, run, ?_, ?_, ?_, ?_, ?_, ?_, (execRefQualified_kept q (.refl s)).frame run⟩
  all_goals rw [loops, switch]
  · rfl
  · simp only [Bool.and_eq_true]
  all_goals rfl

/-! ### MEAS and the strobe (R101 to R103) -/

theorem exec_mpllLol (locked : s.clk.mpll.phase = .locked) : exec .mpllLol s = .next s.mpllLost := congrArg _ (if_pos locked)

/-- A loss of the MPLL outside DEGRADED moves MEAS to the divider of the active loop (R103). -/
theorem State.mpllLost_clk (on : s.clk.degraded = false) :
    s.mpllLost.clk = { s.clk with mpll := s.clk.mpll.unlock s.now, meas := .alt, event := s.clk.event.raise 6 } := by
  have still : (s.onLoop .mpll fun l => l.unlock s.now).clk.degraded = false := on
  unfold State.mpllLost
  extract_lets u v
  have meas : v.clk = { u.clk with meas := .alt } := if_neg (by rw [still]; exact Bool.false_ne_true)
  rw [State.report_clk, State.raise_at_clk, meas]
  rfl

theorem State.mpllLost_log (s : State) : s.mpllLost.log = (s.report .mpllLol).log := rfl

theorem exec_mpllRequalified (ok : s.clk.mpll.qualified) (alt : s.clk.meas = .alt) (on : s.clk.degraded = false) :
    exec .mpllRequalified s = .next (s.onClk fun c => { c with meas := .mpll }) :=
  congrArg _ (if_pos (by simp [ok, alt, on]))

theorem exec_measStrobe_restarts {f : Sys2Proof.Num} (early : s.prot.ready = false) (first : s.clk.strobeRestarted = false)
    (far : 20 < s.strobeError.natAbs) : exec (.measStrobe f) s = .next s.strobeRestart :=
  congrArg _ (if_pos (by simp [early, first, far]))

theorem exec_measStrobe_steers {f : Sys2Proof.Num} (ready : s.prot.ready) : exec (.measStrobe f) s = .next (s.onClk fun c =>
    { c with
      pherr := s.strobeError, measSlew := s.clk.measSlew && decide (20 < s.strobeError.natAbs)
      steer := if s.clk.measSlew && decide (20 < s.strobeError.natAbs) then
          (if 0 < s.strobeError then s.clkCfg.measSteerMax else -s.clkCfg.measSteerMax)
        else (roundInt (Num.clamp (-s.clkCfg.measSteerMax) s.clkCfg.measSteerMax f * 1000000) : Sys2Proof.Num) / 1000000 }) :=
  congrArg _ (if_neg (by simp [ready]))

/-- The steering stays within its limits, and at them while the error is slewed (R101, R102). -/
theorem exec_measStrobe_within (s : State) (f : Sys2Proof.Num) (ready : s.prot.ready) : ∃ t, exec (.measStrobe f) s = .next t ∧
    t.clk.pherr = s.strobeError ∧
    (s.clk.measSlew = false → 0 ≤ s.clkCfg.measSteerMax →
      -s.clkCfg.measSteerMax - 1 / 1000000 ≤ t.clk.steer ∧ t.clk.steer ≤ s.clkCfg.measSteerMax + 1 / 1000000) ∧
    (s.clk.measSlew → 20 < s.strobeError.natAbs →
      t.clk.steer = if 0 < s.strobeError then s.clkCfg.measSteerMax else -s.clkCfg.measSteerMax) ∧ OnlyTouches [.clk] s t := by
  refine ⟨_, exec_measStrobe_steers ready, rfl, fun free range => ?_, fun slew far => if_pos (by simp [slew, far]),
    (State.onClk_kept (.refl s) _).frame⟩
  rw [State.onClk_clk, if_neg (by simp [free])]
  exact steered_within range f

/-! ### The clock guard (R93) -/

/-- A guard on a domain that no system loop feeds counts, and touches no loop. -/
theorem exec_clkGuard_unfed {d : Nat} (h : d = 5 ∨ d = 7) : exec (.clkGuard d) s = .next
    (((s.onClk fun c => { c with guardCount := satInc 16 c.guardCount, guardDomain := d }).raise .clk 8).report .clkGuard d) := by
  show execClkGuard d s = _
  obtain rfl | rfl := h <;> simp [execClkGuard]

/-- Settles O4: a loss of the active reference is one switch to the other, and each remaining clause changes the fields of its test alone. -/
theorem referencesAreTakenAndMeasFollows : Obligations.ReferencesAreTakenAndMeasFollows := by
  refine ⟨fun s xref active tcxo => ?_, fun s p used usable xref active tcxo far => ?_, fun s x used usable xref tcxo near => ?_,
    fun s tcxo active => ?_, fun s active used xref usable up held => ?_, fun s ppm used unqualified usable near => ?_, exec_tcxoQualified_takes,
    exec_refQualified_takes, fun s locked on => ?_, fun s ok alt on => ?_, fun s f early first far => ?_, exec_measStrobe_within, fun s d h => ?_⟩
  · obtain ⟨f, clk, log, kept⟩ := s.xrefDropped_switches
    exact ⟨_, f, (congrArg _ (if_pos xref)).trans (congrArg _ (State.refLost_xref active tcxo)), clk, log, kept.frame⟩
  · obtain ⟨f, clk, log, kept⟩ := (s.onClk fun c => { c with refPpm := p }).xrefDropped_switches
    exact ⟨_, f, exec_xrefQualified_outside used usable xref active tcxo far, clk, log, ((State.onClk_kept (.refl s) _).trans kept).frame⟩
  · refine ⟨_, exec_xrefQualified_within used usable near, ?_, (State.onClk_kept (.refl s) _).frame⟩
    simp [xref, tcxo]
  · exact ⟨_, (congrArg _ (if_pos tcxo)).trans (congrArg _ (State.refLost_idle_tcxo active)), rfl, rfl,
      (State.report_kept _ _ _ (State.raise_kept _ _ (State.onClk_kept (.refl s) _))).frame⟩
  · obtain ⟨f, clk⟩ := s.refSwitch_clk 0 .xref
    exact ⟨_, f, exec_xrefReturn active used xref usable up held, clk, s.refSwitch_log 0 .xref, s.refSwitch_frame 0 .xref⟩
  · refine ⟨_, exec_xrefQualified_within used usable near, ?_, (State.onClk_kept (.refl s) _).frame⟩
    simp [unqualified]
  · exact ⟨_, exec_mpllLol locked, State.mpllLost_clk on, s.mpllLost_log, (State.mpllLost_kept (.refl s)).frame⟩
  · exact ⟨_, exec_mpllRequalified ok alt on, rfl, (State.onClk_kept (.refl s) _).frame⟩
  · exact ⟨_, exec_measStrobe_restarts early first far, rfl, (State.strobeRestart_kept (.refl s)).frame⟩
  · exact ⟨_, exec_clkGuard_unfed h, rfl, rfl, (State.report_kept _ _ _ (State.raise_kept _ _ (State.onClk_kept (.refl s) _))).frame⟩

end Sys2Proof.Machine
end

section
/-! SUPPORT. The losses of loops and references; how DEGRADED starts and ends (spec/03_clocks_and_crossings.md R90, R94 to R97, R104 to R106). -/

namespace Sys2Proof.Machine

set_option Elab.async false

open Sys2Proof

variable {s : State}

/-! ### What conditions and loops over items keep -/

theorem State.when_keeps {α : Type} (g : State → α) {f : State → State} (h : ∀ s, g (f s) = g s) (s : State) (c : Bool) : g (s.when c f) = g s := by
  cases c
  · rfl
  · exact h s

theorem State.forEach_keeps {α β : Type} (g : State → β) {f : State → α → State} (h : ∀ s x, g (f s x) = g s) (l : List α) (s : State) :
    g (s.forEach l f) = g s := by
  induction l generalizing s with
  | nil => rfl
  | cons x l ih => rw [State.forEach_cons, ih, h]

theorem State.refreshHolds_degraded (s : State) : s.refreshHolds.tide.degraded = s.tide.degraded := rfl

theorem Kept.mono {M N : Part → Prop} {a b : State} (h : Kept M a b) (k : ∀ p, M p → N p) : Kept N a b :=
  { h with parts := fun p n => h.parts p fun m => n (k p m) }

/-! ### The start of DEGRADED (R104, R105) -/

theorem State.ptpDegraded_degraded (s : State) (r : Bool) : (s.ptpDegraded r).ptp.degraded = true := by
  have unlocked (u : State) : (u.setLocked false).ptp.degraded = u.ptp.degraded := rfl
  have holds (u : State) : u.enterHoldover.ptp.degraded = u.ptp.degraded := rfl
  unfold State.ptpDegraded
  extract_lets closed u v
  rw [State.when_keeps (·.ptp.degraded) holds]
  exact State.when_keeps (·.ptp.degraded) unlocked u u.ptp.locked

theorem State.zoneBlock_passOnly (s : State) (z : Nat) (c : ZoneCause) (m : BitVec 64) : (s.zoneBlock z c m).diff.passOnly = s.diff.passOnly := by
  unfold State.zoneBlock
  split
  · rfl
  · dsimp only
    split <;> rfl

theorem State.diffDegraded_passOnly (s : State) : s.diffDegraded.diff.passOnly = true :=
  State.forEach_keeps (·.diff.passOnly) (fun u z => u.zoneBlock_passOnly z .degraded 0) _ _

/-- The domains leave the loops for the backup oscillator, with a record (R104). -/
def State.onBackup (s : State) (cause : DegCause) : State :=
  let u := s.onClk fun c =>
    { c with degraded := true, degCause := cause, degSince := s.now, connected := false, meas := .backup, dramRetraining := true }
  (u.measureBackup.raise .clk 2).report .degradedStart 0xFFFF [cause.num, s.clk.spll0.phase.num, s.clk.spll1.phase.num]

theorem State.onBackup_clk (s : State) (cause : DegCause) : ∃ f, (s.onBackup cause).clk =
    { s.clk with
      degraded := true, degCause := cause, degSince := s.now, connected := false, meas := .backup, dramRetraining := true, backupFreq := f
      event := s.clk.event.raise 2 } := ⟨_, rfl⟩

/-- What the start of DEGRADED does to LOGIC, the captures and FORM. -/
def State.workDegraded (s : State) (ref : Bool) : State := ((s.logicDegraded true).captDegraded true).formDegraded ref

/-- What the start of DEGRADED does to TIDE and the gate-links. -/
def State.timeDegraded (s : State) (ref : Bool) : State :=
  (s.onTide fun t => { t with degraded := true }).onGate fun g => { g with degraded := !ref }

/-- What the start of DEGRADED does to the blocks beside CLK, before any lane goes down. -/
def State.blocksDegraded (s : State) (ref : Bool) : State := ((s.timeDegraded ref).ptpDegraded ref).diffDegraded.workDegraded ref

theorem State.degradedStart_eq (on : s.clk.degraded = false) (cause : DegCause) : s.degradedStart cause =
    (((s.onBackup cause).blocksDegraded (cause == .refLoss)).when (cause == .refLoss) State.lanesDown).refreshHolds :=
  if_neg (by rw [on]; exact Bool.false_ne_true)

theorem State.workDegraded_kept (s : State) (ref : Bool) : Kept (· ∈ [.form, .logic, .capt, .log]) s (s.workDegraded ref) :=
  State.formDegraded_kept _ (State.captDegraded_kept _ (State.logicDegraded_kept _ (.refl s)))

theorem State.blocksDegraded_kept (s : State) (ref : Bool) : Kept (· ∉ [.now, .clk]) s (s.blocksDegraded ref) := by
  have tide : Kept (· ∉ [.now, .clk]) s (s.onTide fun t => { t with degraded := true }) := State.onTide_kept (.refl s) fun _ k => k
  have time : Kept (· ∉ [.now, .clk]) s (s.timeDegraded ref) := State.onGate_kept (M := (· ∉ [.now, .clk])) tide _
  exact State.formDegraded_kept _ (State.captDegraded_kept _ (State.logicDegraded_kept _ (State.diffDegraded_kept (State.ptpDegraded_kept _ time))))

/-- When DEGRADED starts, CLK is that of the backup oscillator. -/
theorem State.degradedStart_clk (on : s.clk.degraded = false) (cause : DegCause) : ∃ f, (s.degradedStart cause).clk =
    { s.clk with
      degraded := true, degCause := cause, degSince := s.now, connected := false, meas := .backup, dramRetraining := true, backupFreq := f
      event := s.clk.event.raise 2 } := by
  obtain ⟨f, clk⟩ := s.onBackup_clk cause
  have kept := (s.onBackup cause).blocksDegraded_kept (cause == .refLoss)
  have rest : Kept (· ∉ [.now, .clk]) (s.onBackup cause) (s.degradedStart cause) :=
    State.degradedStart_eq on cause ▸ State.refreshHolds_kept (State.when_kept kept fun _ k => State.lanesDown_kept k)
  exact ⟨f, (rest.parts .clk (by simp)).trans clk⟩

/-- TIDE, the zones and PTP are in DEGRADED. -/
theorem State.blocksDegraded_degraded (s : State) (ref : Bool) : (s.blocksDegraded ref).tide.degraded = true ∧
    (s.blocksDegraded ref).diff.passOnly = true ∧ (s.blocksDegraded ref).ptp.degraded = true := by
  have ptp : Kept (· ∈ [.ptp, .log]) (s.timeDegraded ref) ((s.timeDegraded ref).ptpDegraded ref) := State.ptpDegraded_kept _ (.refl _)
  have diff : Kept (· ∈ [.diff, .log]) ((s.timeDegraded ref).ptpDegraded ref) ((s.timeDegraded ref).ptpDegraded ref).diffDegraded :=
    State.diffDegraded_kept (.refl _)
  have work : Kept (· ∈ [.form, .logic, .capt, .log]) ((s.timeDegraded ref).ptpDegraded ref).diffDegraded (s.blocksDegraded ref) :=
    State.workDegraded_kept _ ref
  refine ⟨?_, ?_, ?_⟩
  · rw [work.tide, diff.tide, ptp.tide]
    rfl
  · exact (congrArg DiffState.passOnly (work.parts .diff (by simp))).trans (State.diffDegraded_passOnly _)
  · have same : (s.blocksDegraded ref).ptp = ((s.timeDegraded ref).ptpDegraded ref).ptp :=
      Eq.trans (work.parts .ptp (by simp)) (diff.parts .ptp (by simp))
    rw [same]
    exact State.ptpDegraded_degraded _ _

/-- A failed loop takes TIDE, the zones and PTP into DEGRADED (R104). -/
theorem State.degradedStart_loopFail (on : s.clk.degraded = false) : (s.degradedStart .loopFail).tide.degraded = true ∧
    (s.degradedStart .loopFail).diff.passOnly = true ∧ (s.degradedStart .loopFail).ptp.degraded = true := by
  obtain ⟨tide, diff, ptp⟩ := (s.onBackup .loopFail).blocksDegraded_degraded false
  have holds : Kept (· ∈ [.tide]) _ ((s.onBackup .loopFail).blocksDegraded false).refreshHolds := State.refreshHolds_kept (.refl _)
  rw [State.degradedStart_eq on, show (DegCause.loopFail == DegCause.refLoss) = false from rfl, State.when_false]
  exact ⟨(State.refreshHolds_degraded _).trans tide, (congrArg DiffState.passOnly (holds.parts .diff (by simp))).trans diff,
    (congrArg PtpState.degraded (holds.parts .ptp (by simp))).trans ptp⟩

/-! ### A loop is declared unlocked (R94, R96, R97) -/

/-- CLK and the log once loop `i` has been declared unlocked, with the bit and the record of its role. -/
def State.unlocked (s : State) (i : LoopId) (bit : Nat) (r : Rec) (c : LolCause) (pfd : Sys2Proof.Num) : State :=
  ((s.onLoop i fun l => l.unlock s.now).raise .clk bit).report r i.num [i.num, c.num, roundInt (pfd * 1000)]

variable {i : LoopId} {c : LolCause} {pfd : Sys2Proof.Num}

theorem State.unlocked_kept (s : State) (i : LoopId) (bit : Nat) (r : Rec) (c : LolCause) (pfd : Sys2Proof.Num) :
    Kept (· ∈ [.clk, .log]) s (s.unlocked i bit r c pfd) :=
  State.report_kept _ _ _ (State.raise_kept _ _ (State.onLoop_kept _ _ (.refl s)))

theorem State.loopLost_idle (idle : s.feeds i = false) : s.loopLost i c pfd = s.unlocked i 1 .lolStby c pfd :=
  if_neg (by rw [idle]; exact Bool.false_ne_true)

theorem State.loopLost_standby (active : s.feeds i) (standby : s.stbyOk) :
    s.loopLost i c pfd = (s.unlocked i 0 .lolActive c pfd).onClk fun c => { c with active1 := !c.active1 } :=
  (if_pos active).trans (if_pos standby)

theorem State.loopLost_alone (active : s.feeds i) (alone : s.stbyOk = false) :
    s.loopLost i c pfd = (s.unlocked i 0 .lolActive c pfd).degradedStart .loopFail :=
  (if_pos active).trans (if_neg (by rw [alone]; exact Bool.false_ne_true))

theorem State.activeLoop_spll0 (h : s.clk.active1 = false) : s.activeLoop = .spll0 := by rw [State.activeLoop, h]; rfl

theorem State.feeds_spll0 (on : s.clk.connected) (active : s.clk.active1 = false) : s.feeds .spll0 = true := by
  rw [State.feeds, on, State.activeLoop_spll0 active]
  rfl

theorem State.feeds_spll1 (active : s.clk.active1 = false) : s.feeds .spll1 = false := by
  rw [State.feeds, State.activeLoop_spll0 active]
  exact Bool.and_false _

theorem State.stbyOk_spll1 (on : s.clk.connected) (active : s.clk.active1 = false) : s.stbyOk = s.clk.spll1.qualified := by
  rw [State.stbyOk, on, State.activeLoop_spll0 active]
  rfl

theorem LolCause.num_lost (f : Bool) : (if f then LolCause.freq else .phase).num = b2n f := by cases f <;> rfl

/-- A locked loop is declared unlocked by its frequency or by a phase error beyond 2 ns (R94). -/
theorem exec_spllLossOfLock {f : Bool} (locked : (s.loop i).phase = .locked) (lost : f ∨ 2 < pfd.mag) : exec (.spllLossOfLock ⟨i, f, pfd⟩) s =
    .next (if i = .mpll then s.mpllLost else s.loopLost i (if f then .freq else .phase) pfd) := by
  have far : f = false → 2 < pfd.mag := fun h => lost.resolve_left (by simp [h])
  exact congrArg Host.Outcome.next (if_neg (by simpa [locked] using far))

/-! ### No usable reference remains (R90, R92) -/

/-- A locked loop is declared unlocked for want of a reference; the PFD error is a free value. -/
def State.dropLoop (s : State) (i : LoopId) : State :=
  if (s.loop i).phase ≠ .locked then s else
    if s.feeds i then s.drawNum.2.unlocked i 0 .lolActive .refLost s.drawNum.1 else s.drawNum.2.unlocked i 1 .lolStby .refLost s.drawNum.1

theorem State.unlocked_view (s : State) (i : LoopId) (bit : Nat) (r : Rec) (c : LolCause) (pfd : Sys2Proof.Num) :
    (s.unlocked i bit r c pfd).clk.view = s.clk.view := by cases i <;> rfl

theorem State.dropLoop_view (s : State) (i : LoopId) : (s.dropLoop i).clk.view = s.clk.view := by
  unfold State.dropLoop
  split
  · rfl
  · split <;> exact State.unlocked_view ..

theorem State.dropLoop_kept {a : State} (i : LoopId) (h : Kept (· ∈ [.fresh, .clk, .log]) a s) : Kept (· ∈ [.fresh, .clk, .log]) a (s.dropLoop i) := by
  have dropped (bit : Nat) (r : Rec) : Kept (· ∈ [.fresh, .clk, .log]) a (s.drawNum.2.unlocked i bit r .refLost s.drawNum.1) :=
    State.report_kept _ _ _ (State.raise_kept _ _ (State.onLoop_kept _ _ (State.drawNum_kept h)))
  exact Kept.ite (fun _ => h) fun _ => Kept.ite (fun _ => dropped ..) fun _ => dropped ..

/-- The loss of the last reference is flagged and logged. -/
def State.refGone (s : State) : State :=
  ((s.onClk fun c => { c with refNone := true, refSince := none }).raise .clk 5).report .refLoss 0xFFFF [2]

/-- The loss of the last reference, up to the start of DEGRADED: the loops are unlocked, and the quad PLLs stop. -/
def State.loopsDropped (s : State) : State :=
  let u := (s.refGone.dropLoop s.refGone.activeLoop.other).dropLoop s.refGone.activeLoop
  (u.when (decide (u.clk.mpll.phase = .locked)) State.mpllLost).domainStop 7

theorem State.noReference_eq (s : State) : s.noReference = s.loopsDropped.degradedStart .refLoss := rfl

theorem State.loopsDropped_view (s : State) : s.loopsDropped.clk.view = { s.clk.view with refNone := true } := by
  unfold State.loopsDropped
  rw [State.domainStop_view, State.when_keeps (·.clk.view) State.mpllLost_view, State.dropLoop_view, State.dropLoop_view]
  rfl

theorem State.loopsDropped_kept (s : State) : Kept (· ∈ [.fresh, .clk, .log]) s s.loopsDropped :=
  State.domainStop_kept _ (State.when_kept (State.dropLoop_kept _ (State.dropLoop_kept _
    (State.report_kept _ _ _ (State.raise_kept _ _ (State.onClk_kept (.refl s) _))))) fun _ k => State.mpllLost_kept k)

/-- The loss of the last reference starts DEGRADED on the backup oscillator (R90, R104). -/
theorem State.noReference_degrades (on : s.clk.degraded = false) :
    s.noReference.clk.view = ⟨true, s.clk.tcxoOk, false, true, .refLoss, true⟩ ∧ s.noReference.clk.degSince = s.now ∧
      s.noReference.clk.meas = .backup := by
  have view := s.loopsDropped_view
  have still : s.loopsDropped.clk.degraded = false := (congrArg ClkView.degraded view).trans on
  have now : s.loopsDropped.now = s.now := s.loopsDropped_kept.parts .now (by simp)
  obtain ⟨f, clk⟩ := State.degradedStart_clk still .refLoss
  rw [State.noReference_eq, clk]
  refine ⟨?_, now, rfl⟩
  show ClkView.mk s.loopsDropped.clk.view.refNone s.loopsDropped.clk.view.tcxoOk _ _ _ _ = _
  rw [view]
  rfl

/-- The loss of the active TCXO without XREF (R89, R90). -/
theorem exec_tcxoLoss_last (tcxo : s.clk.tcxoOk) (active : s.clk.ref = .tcxo) (xref : s.clk.xrefOk = false) : exec .tcxoLoss s = .next
    (((s.onClk fun c => { c with tcxoOk := false }).raise .clk 5).report .refLoss 0xFFFF [0]).noReference :=
  congrArg Host.Outcome.next ((if_pos tcxo).trans ((if_pos active).trans (if_neg (by
    show ¬s.clk.xrefOk = true
    rw [xref]
    exact Bool.false_ne_true))))

/-! ### The end of DEGRADED (R104, R106) -/

/-- The domains are on loop `i` again, with a record. -/
def State.onLoopAgain (s : State) (i : LoopId) : State :=
  let u := s.onClk fun c =>
    { c with
      degraded := false, degCause := .none, connected := true, active1 := i == .spll1, dramRetraining := true
      meas := if c.mpll.qualified then .mpll else .alt }
  (u.raise .clk 3).report .degradedEnd 0xFFFF [((s.now - s.clk.degSince : Nat) : Int)]

/-- TIDE, the gate-links, PTP and the zones leave DEGRADED. -/
def State.timeReturns (s : State) : State :=
  (((s.onTide fun t => { t with degraded := false }).onGate fun g => { g with degraded := false }).onPtp fun q =>
    { q with degraded := false }).onDiff fun d => { d with passOnly := false }

/-- LOGIC, the captures, HOST and FORM leave DEGRADED. -/
def State.workReturns (s : State) : State :=
  (((s.logicDegraded false).captDegraded false).onHost fun h => { h with lateEpisode := false }).formDegradedEnd

theorem State.workReturns_kept (s : State) : Kept (· ∈ [.form, .logic, .capt, .log, .host]) s s.workReturns :=
  State.formDegradedEnd_kept (State.onHost_kept (State.captDegraded_kept _ (State.logicDegraded_kept _ (.refl s))) fun _ k => k)

theorem State.workReturns_lateEpisode (s : State) : s.workReturns.host.lateEpisode = false := by
  let u := ((s.logicDegraded false).captDegraded false).onHost fun h => { h with lateEpisode := false }
  have form : Kept (· ∈ [.form, .capt, .log]) u s.workReturns := State.formDegradedEnd_kept (.refl u)
  rw [show s.workReturns.host = u.host from form.parts .host (by simp)]
  rfl

/-- What follows once the blocks have left DEGRADED: doors, a mode move and the holds of the sources. -/
theorem State.degradedEnd_ends (s : State) (i : LoopId) :
    ∃ u, Kept (· ∈ [.adeid]) (s.onLoopAgain i).timeReturns.workReturns u ∧ s.degradedEnd i = u.nextMove.refreshHolds := by
  unfold State.degradedEnd
  extract_lets ref spent clk record tide time work host doors
  have returned : Kept (· ∈ [.adeid]) (s.onLoopAgain i).timeReturns.workReturns host := .refl _
  exact ⟨doors, State.when_kept returned fun _ k => State.scheduleDoors_kept _ k, rfl⟩

theorem State.degradedEnd_view (s : State) (i : LoopId) :
    (s.degradedEnd i).clk.view = ⟨s.clk.refNone, s.clk.tcxoOk, true, false, .none, true⟩ := by
  obtain ⟨u, doors, eq⟩ := s.degradedEnd_ends i
  have work : (s.onLoopAgain i).timeReturns.workReturns.clk = (s.onLoopAgain i).clk :=
    (s.onLoopAgain i).timeReturns.workReturns_kept.parts .clk (by simp)
  have clk : u.clk = (s.onLoopAgain i).clk := Eq.trans (doors.parts .clk (by simp)) work
  rw [eq]
  show u.nextMove.clk.view = _
  rw [State.nextMove_view, clk]
  rfl

/-- TIDE, PTP, the zones and HOST have left DEGRADED when it has ended. -/
theorem State.degradedEnd_blocks (s : State) (i : LoopId) : (s.degradedEnd i).tide.degraded = false ∧ (s.degradedEnd i).ptp.degraded = false ∧
    (s.degradedEnd i).diff.passOnly = false ∧ (s.degradedEnd i).host.lateEpisode = false := by
  obtain ⟨u, doors, eq⟩ := s.degradedEnd_ends i
  have work := (s.onLoopAgain i).timeReturns.workReturns_kept
  have move : Kept (· ∈ [.clk]) u u.nextMove := State.nextMove_kept (.refl u)
  have all : Kept (· ∈ [.clk, .adeid, .tide]) (s.onLoopAgain i).timeReturns.workReturns (s.degradedEnd i) :=
    eq ▸ State.refreshHolds_kept (State.nextMove_kept (doors.mono (by simp)))
  have tide : u.nextMove.tide = (s.onLoopAgain i).timeReturns.tide := move.tide.trans (doors.tide.trans work.tide)
  refine ⟨?_, ?_, ?_, ?_⟩
  · rw [eq]
    show u.nextMove.tide.degraded = false
    rw [tide]
    rfl
  · rw [show (s.degradedEnd i).ptp = (s.onLoopAgain i).timeReturns.ptp from Eq.trans (all.parts .ptp (by simp)) (work.parts .ptp (by simp))]
    rfl
  · rw [show (s.degradedEnd i).diff = (s.onLoopAgain i).timeReturns.diff from Eq.trans (all.parts .diff (by simp)) (work.parts .diff (by simp))]
    rfl
  · rw [show (s.degradedEnd i).host = (s.onLoopAgain i).timeReturns.workReturns.host from all.parts .host (by simp)]
    exact State.workReturns_lateEpisode _

theorem exec_degradedEnd (h : s.returnLoop = some i) : exec .degradedEnd s = .next (s.degradedEnd i) := by
  show execDegradedEnd s = _
  rw [execDegradedEnd, h]

/-- After a loop failure DEGRADED ends on the last active loop as soon as that has been QUALIFIED for DEGRADED_RETURN. -/
theorem State.returnLoop_spll0 (on : s.clk.degraded) (ref : s.clk.refNone = false) (cause : s.clk.degCause = .loopFail)
    (active : s.clk.active1 = false) (ok : s.clk.spll0.qualified) (held : s.passedSince s.clk.spll0.qualSince s.clkCfg.degradedReturn) :
    s.returnLoop = some .spll0 := by
  have returned : s.loopReturned .spll0 = true := (Bool.and_eq_true _ _).mpr ⟨ok, held⟩
  simp [State.returnLoop, on, ref, cause, State.activeLoop_spll0 active, returned]

theorem exec_dramRetrainDone (h : s.clk.dramRetraining) : exec .dramRetrainDone s = .next
    ((s.onClk fun c => { c with dramRetraining := false }).forEach (List.range s.capt.engines.length) fun s e => s.captResume e) :=
  congrArg _ (if_neg (by rw [h]; exact Bool.false_ne_true))

/-- The captures store again, and of CLK the retraining alone ends (R104, R381). -/
theorem exec_dramRetrainDone_stores (s : State) (h : s.clk.dramRetraining) : ∃ t, exec .dramRetrainDone s = .next t ∧
    t.clk = { s.clk with dramRetraining := false } ∧ OnlyTouches [.clk, .capt] s t := by
  have stores : Kept (· ∈ [.capt]) (s.onClk fun c => { c with dramRetraining := false }) _ :=
    State.forEach_kept (fun e _ k => State.captResume_kept e k) (List.range s.capt.engines.length) (.refl _)
  exact ⟨_, exec_dramRetrainDone h, stores.parts .clk (by simp), (execDramRetrainDone_kept (.refl s)).frame (exec_dramRetrainDone h)⟩

/-- The loss of the only reference starts DEGRADED (R90, R104). -/
theorem exec_tcxoLoss_degrades (s : State) (tcxo : s.clk.tcxoOk) (active : s.clk.ref = .tcxo) (xref : s.clk.xrefOk = false)
    (on : s.clk.degraded = false) : ∃ t, exec .tcxoLoss s = .next t ∧ t.clk.refNone = true ∧ t.clk.tcxoOk = false ∧ t.clk.degraded = true ∧
      t.clk.degCause = .refLoss ∧ t.clk.degSince = s.now ∧ t.clk.connected = false ∧ t.clk.meas = .backup ∧ t.clk.dramRetraining = true := by
  obtain ⟨view, since, meas⟩ := State.noReference_degrades
    (s := ((s.onClk fun c => { c with tcxoOk := false }).raise .clk 5).report .refLoss 0xFFFF [0]) on
  exact ⟨_, exec_tcxoLoss_last tcxo active xref, congrArg ClkView.refNone view, congrArg ClkView.tcxoOk view, congrArg ClkView.degraded view,
    congrArg ClkView.degCause view, since, congrArg ClkView.connected view, meas, congrArg ClkView.dramRetraining view⟩

/-- Settles O5: a lost loop hands over to its standby or starts DEGRADED, whose start and end leave CLK as no later operation changes it. -/
theorem lossesStartAndEndDegraded : Obligations.LossesStartAndEndDegraded := by
  refine ⟨exec_tcxoLoss_degrades, fun s f e locked on active standby lost => ?_, fun s f e locked on active lost => ?_,
    fun s f e locked on active alone up lost => ?_, fun s deg ref cause active ok held => ?_, exec_dramRetrainDone_stores⟩
  · have handed := State.loopLost_standby (c := if f then .freq else .phase) (pfd := e) (State.feeds_spll0 on active)
      ((State.stbyOk_spll1 on active).trans standby)
    have flip : (!s.clk.active1) = true := by rw [active]; rfl
    refine ⟨_, (exec_spllLossOfLock (i := .spll0) locked lost).trans (congrArg _ handed), ?_, ?_, (State.onClk_kept (s.unlocked_kept ..) _).frame⟩
    · exact congrArg (fun x => { s.clk with spll0 := s.clk.spll0.unlock s.now, active1 := x, event := s.clk.event.raise 0 }) flip
    · rw [← LolCause.num_lost f]
      rfl
  · have idle := State.loopLost_idle (c := if f then .freq else .phase) (pfd := e) (State.feeds_spll1 active)
    refine ⟨_, (exec_spllLossOfLock (i := .spll1) locked lost).trans (congrArg _ idle), rfl, ?_, (s.unlocked_kept ..).frame⟩
    rw [← LolCause.num_lost f]
    rfl
  · have degrades := State.loopLost_alone (c := if f then .freq else .phase) (pfd := e) (State.feeds_spll0 on active)
      ((State.stbyOk_spll1 on active).trans alone)
    have still : (s.unlocked .spll0 0 .lolActive (if f then .freq else .phase) e).clk.degraded = false := up
    obtain ⟨b, clk⟩ := State.degradedStart_clk still .loopFail
    obtain ⟨tide, diff, ptp⟩ := State.degradedStart_loopFail still
    refine ⟨_, (exec_spllLossOfLock (i := .spll0) locked lost).trans (congrArg _ degrades), ?_, ?_, ?_, ?_, tide, diff, ptp⟩
    all_goals rw [clk]
  · have run := exec_degradedEnd (State.returnLoop_spll0 deg ref cause active ok held)
    have view := s.degradedEnd_view .spll0
    obtain ⟨tide, ptp, diff, host⟩ := s.degradedEnd_blocks .spll0
    have kept : Kept (· ∉ [.sec, .fio, .prot]) s (s.degradedEnd .spll0) := State.degradedEnd_kept _ (.refl s)
    exact ⟨_, run, congrArg ClkView.degraded view, congrArg ClkView.connected view, congrArg ClkView.degCause view, tide, ptp, diff, host,
      kept.parts .sec (by simp), kept.parts .fio (by simp), kept.parts .prot (by simp)⟩

end Sys2Proof.Machine
end

section
/-! SUPPORT. The lock sequence of the loops (spec/03_clocks_and_crossings.md R94 to R96). -/

namespace Sys2Proof.Machine

set_option Elab.async false

open Sys2Proof

variable {s : State} {l : LoopId}

@[simp] theorem ClkState.retune_setLoop (c : ClkState) (i : LoopId) (l : Loop) : (c.setLoop i l).retune = c.retune := by cases i <;> rfl

@[simp] theorem ClkState.moves_setLoop (c : ClkState) (i : LoopId) (l : Loop) : (c.setLoop i l).moves = c.moves := by cases i <;> rfl

@[simp] theorem ClkState.connected_setLoop (c : ClkState) (i : LoopId) (l : Loop) : (c.setLoop i l).connected = c.connected := by cases i <;> rfl

/-! ### A loss of lock (R94, R96) -/

/-- A failed loop changes no loop when DEGRADED starts, or holds already. -/
theorem State.degradedStart_loop (s : State) (l : LoopId) : (s.degradedStart .loopFail).loop l = s.loop l := by
  cases on : s.clk.degraded
  · obtain ⟨f, clk⟩ := State.degradedStart_clk on .loopFail
    rw [State.loop, clk]
    cases l <;> rfl
  · rw [show s.degradedStart .loopFail = s from (if_pos on).trans (if_neg Bool.false_ne_true)]

theorem State.unlocked_loop (s : State) (bit : Nat) (r : Rec) (c : LolCause) (pfd : Sys2Proof.Num) :
    (s.unlocked l bit r c pfd).loop l = (s.loop l).unlock s.now := by cases l <;> rfl

/-- A loop that is declared unlocked acquires again, whatever its role (R94). -/
theorem State.loopLost_loop (s : State) (c : LolCause) (pfd : Sys2Proof.Num) : (s.loopLost l c pfd).loop l = (s.loop l).unlock s.now := by
  cases active : s.feeds l
  · rw [State.loopLost_idle active, State.unlocked_loop]
  · cases standby : s.stbyOk
    · rw [State.loopLost_alone active standby, State.degradedStart_loop, State.unlocked_loop]
    · rw [State.loopLost_standby active standby, ← State.unlocked_loop s 0 .lolActive c pfd]
      cases l <;> rfl

theorem exec_spllLossOfLock_within {f : Bool} {e : Sys2Proof.Num} (freq : f = false) (near : e.mag ≤ 2) :
    exec (.spllLossOfLock ⟨l, f, e⟩) s = .next s :=
  congrArg _ (if_pos (by simp [freq, near]))

theorem State.mpllLost_loop (s : State) : s.mpllLost.loop .mpll = (s.loop .mpll).unlock s.now := by
  unfold State.mpllLost
  extract_lets u v
  show v.clk.mpll = _
  unfold v
  rw [State.onClk_clk]
  split <;> rfl

/-- A loss of lock leaves the loop acquiring, and no time passes (R94). -/
theorem exec_spllLossOfLock_unlocks {f : Bool} {e : Sys2Proof.Num} (locked : (s.loop l).phase = .locked) (lost : f ∨ 2 < e.mag) :
    ∃ t, exec (.spllLossOfLock ⟨l, f, e⟩) s = .next t ∧ t.now = s.now ∧ t.loop l = (s.loop l).unlock s.now := by
  have now {t : State} (run : exec (.spllLossOfLock ⟨l, f, e⟩) s = .next t) : t.now = s.now :=
    ((execSpllLossOfLock_kept (M := (· ∉ [.now])) ⟨l, f, e⟩ (.refl s)) t run).parts .now (by simp)
  have run := exec_spllLossOfLock locked lost
  refine ⟨_, run, now run, ?_⟩
  split
  next mpll =>
    subst mpll
    exact s.mpllLost_loop
  next => exact s.loopLost_loop _ _

/-! ### Lock and qualification (R94, R95) -/

/-- A measured value lies within its tolerance (R92). -/
theorem State.drawNear_within (s : State) {target tol : Sys2Proof.Num} (h : 0 ≤ target) (k : 0 ≤ tol) :
    target * (1 - tol) ≤ (s.drawNear target tol).1 ∧ (s.drawNear target tol).1 ≤ target * (1 + tol) := by
  have order : target * (1 - tol) ≤ target * (1 + tol) := mul_le_mul_of_nonneg_left (by linarith) h
  exact ⟨Num.le_clamp _ _ _ order, Num.clamp_le _ _ _ order⟩

/-- Loop `l` of a state is locked at a frequency. -/
def State.locks (s : State) (l : LoopId) (f : Sys2Proof.Num) : State := s.onLoop l fun x => { x with phase := .locked, lockAt := s.now, freq := f }

theorem exec_spllLocked_locks (s : State) (l : LoopId) (acquires : (s.loop l).phase = .acquiring) (ref : s.clk.refNone = false)
    (held : s.passed (s.loop l).acqAt (1024 * (s.loop l).mode.pfdNs)) : ∃ t f, exec (.spllLocked l) s = .next t ∧
      t.clk = s.clk.setLoop l { s.loop l with phase := .locked, lockAt := s.now, freq := f } ∧
      (l ≠ .mpll → 5970 ≤ f ∧ f ≤ 6030) ∧ OnlyTouches [.fresh, .clk] s t := by
  have run {t : State} (h : t = (if l = .mpll then s.locks l (56623104 / 10000 * (1 + s.clk.steer / 1000000))
      else (s.drawNear 6000 (5 / 1000)).2.locks l (s.drawNear 6000 (5 / 1000)).1)) : exec (.spllLocked l) s = .next t := by
    refine congrArg Host.Outcome.next ((if_neg (by simp [acquires, ref, held])).trans ?_)
    rw [h]
    split <;> rfl
  by_cases h : l = .mpll
  · exact ⟨_, _, run (if_pos h).symm, rfl, fun k => absurd h k, (State.onLoop_kept l _ (.refl s)).frame⟩
  · obtain ⟨low, high⟩ := s.drawNear_within (target := 6000) (tol := 5 / 1000) (by norm_num) (by norm_num)
    refine ⟨_, _, run (if_neg h).symm, rfl, fun _ => ⟨?_, ?_⟩, (State.onLoop_kept l _ (State.drawNear_kept _ _ (.refl s))).frame⟩ <;> linarith

/-- Loop `l` is QUALIFIED now; after a declared loss that counts as a relock (R96). -/
def Loop.qualify (x : Loop) (now : Ns) : Loop :=
  { x with
    qualified := true, qualSince := some now, retries := 0, lossDeclared := false
    relocks := if x.lossDeclared then satInc 16 x.relocks else x.relocks }

/-- While a loop feeds the domains, and no retune or move waits, a qualification changes its loop alone. -/
theorem exec_spllQualified (locked : (s.loop l).phase = .locked) (fresh : (s.loop l).qualified = false)
    (held : s.passed (s.loop l).lockAt 10000) (on : s.clk.connected) (idle : s.clk.retune = none) (still : s.clk.moves = []) :
    exec (.spllQualified l) s = .next ((s.onLoop l fun x => x.qualify s.now).report .spllQualified l.num) := by
  show execSpllQualified l s = _
  simp [execSpllQualified, Loop.qualify, locked, fresh, held, on, idle, State.nextMove_of_nil, still]

/-! ### Retries (R94) -/

theorem exec_spllRetry_again (acquires : (s.loop l).phase = .acquiring) (ref : s.clk.refNone = false)
    (late : s.passed (s.loop l).acqAt (msec 1)) (few : (s.loop l).retries < 16) : exec (.spllRetry l) s = .next
    ((s.onLoop l fun x => { x with retries := (s.loop l).retries + 1, acqAt := s.now, phase := .acquiring }).report .spllRetry l.num
      [(s.loop l).retries + 1]) := by
  show execSpllRetry l s = _
  simp [execSpllRetry, acquires, ref, late, few]

/-- The sixteenth failed retry of a loop that no retune runs on, while a loop feeds the domains (R94). -/
theorem exec_spllRetry_fails (acquires : (s.loop l).phase = .acquiring) (ref : s.clk.refNone = false)
    (late : s.passed (s.loop l).acqAt (msec 1)) (last : (s.loop l).retries = 16) (idle : s.clk.retune = none) (on : s.clk.connected) :
    exec (.spllRetry l) s = .next
    (((s.onLoop l fun x => { x with retries := 17, acqAt := s.now, phase := .failed }).raise .clk 12).report .loopFailed l.num) := by
  show execSpllRetry l s = _
  simp [execSpllRetry, acquires, ref, late, last, idle, on]

/-- Settles O6: whatever its role, a lost loop is the loop unlocked; the other steps of the lock sequence change their loop alone. -/
theorem loopsLockQualifyAndRetry : Obligations.LoopsLockQualifyAndRetry := by
  refine ⟨fun s l f e locked => ?_, exec_spllLocked_locks, fun s l locked fresh held on idle still => ?_, fun s l acquires ref late few => ?_,
    fun s l acquires ref late last idle on => ?_⟩
  · by_cases lost : f ∨ 2 < e.mag
    · obtain ⟨t, run, now, loop⟩ := exec_spllLossOfLock_unlocks locked lost
      refine ⟨t, run, now, fun _ => by rw [loop]; exact ⟨rfl, rfl, rfl⟩, fun freq near => ?_⟩
      rcases lost with lost | far
      · simp [freq] at lost
      · exact absurd far (not_lt.mpr near)
    · have freq : f = false := by simpa using fun h => lost (.inl h)
      have near : e.mag ≤ 2 := not_lt.mp fun h => lost (.inr h)
      exact ⟨s, exec_spllLossOfLock_within freq near, rfl, fun h => absurd h lost, fun _ _ => rfl⟩
  · exact ⟨_, exec_spllQualified locked fresh held on idle still, rfl, rfl, (State.report_kept _ _ _ (State.onLoop_kept _ _ (.refl s))).frame⟩
  · refine ⟨_, exec_spllRetry_again acquires ref late few, ?_, rfl, (State.report_kept _ _ _ (State.onLoop_kept _ _ (.refl s))).frame⟩
    rw [State.report_clk, State.onLoop_clk, ← acquires]
  · refine ⟨_, exec_spllRetry_fails acquires ref late last idle on, ?_, ?_, rfl,
      (State.report_kept _ _ _ (State.raise_kept _ _ (State.onLoop_kept _ _ (.refl s)))).frame⟩
    · cases l <;> rfl
    · cases l <;> rfl

end Sys2Proof.Machine
end

section
/-! SUPPORT. Retunes, crossings with a partner in reset, and stopped domains (spec/03_clocks_and_crossings.md R94, R98, R99, R112 to R115). -/

namespace Sys2Proof.Machine

set_option Elab.async false

open Sys2Proof

variable {s : State}

/-! ### Retunes (R98, R99) -/

theorem exec_clkRetune {b : Nat} {i : LoopId} {m : RefMode} (h : s.ctlCmd b = some (.clkRetune i m)) (ok : s.refuseRetune i = none) :
    exec (.clkRetune b) s = .next (((s.leaveCtl b).toTarget b).beginRetune i m (some b)) := by
  show execClkRetune b s = _
  simp only [execClkRetune, h, ok, State.runCtl]

/-- An item that waits at its target has not ended (R488). -/
theorem State.endingOf_toTarget {b : Nat} {c : BerthCmd} (h : s.ctlCmd b = some c) : ((s.leaveCtl b).toTarget b).endingOf b = none := by
  obtain ⟨it, item, -, running, -⟩ := State.ctlCmd_item h
  rw [State.endingOf, State.toTarget, State.item_onItem (s.leaveCtl b) b _ it item]
  exact running

/-- A retune of the idle loop leaves the active one and the domains alone (R99). -/
theorem exec_clkRetune_standby (s : State) (b : Nat) (m : RefMode) (h : s.ctlCmd b = some (.clkRetune .spll1 m))
    (ok : s.refuseRetune .spll1 = none) (active : s.clk.active1 = false) :
    ∃ t, exec (.clkRetune b) s = .next t ∧ t.clk.spll0 = s.clk.spll0 ∧ t.clk.active1 = false ∧
      t.clk.spll1 = { s.clk.spll1 with
        phase := .acquiring, qualified := false, qualSince := none, mode := m, acqAt := s.now, lossDeclared := false } ∧
      t.clk.retune = some { loop := .spll1, oldMode := s.clk.spll1.mode, newMode := m, berth := some b, start := s.now } ∧
      t.endingOf b = none ∧ OnlyTouches [.clk, .log, .host] s t := by
  have run := exec_clkRetune h ok
  refine ⟨_, run, rfl, ?_, rfl, rfl, State.endingOf_toTarget h, (execClkRetune_kept b (.refl s)).frame run⟩
  show (if s.feeds .spll1 then !s.clk.active1 else s.clk.active1) = false
  rw [State.feeds_spll1 active]
  exact active

/-- A retune that times out fails its item, and no waiting move follows it (R99). -/
theorem exec_retuneTimeout {r : Retune} {b : Nat} (running : s.clk.retune = some r) (berth : r.berth = some b) (late : s.passed r.start (msec 18))
    (still : s.clk.moves = []) :
    exec .retuneTimeout s = .next ((s.onClk fun c => { c with retune := none }).failed b .execError) := by
  have next : ((s.onClk fun c => { c with retune := none }).failed b .execError).nextMove =
      (s.onClk fun c => { c with retune := none }).failed b .execError := State.nextMove_of_nil still
  show execRetuneTimeout s = _
  simp only [execRetuneTimeout, State.retuneFailed, running, berth, late, if_true]
  rw [next]

/-- CLK_LOOP_RESET of a FAILED loop while a reference exists: it acquires at once (R94). -/
theorem exec_clkLoopReset {b : Nat} {l : LoopId} (h : s.ctlCmd b = some (.clkLoopReset l)) (failed : (s.loop l).phase = .failed)
    (ref : s.clk.refNone = false) : exec (.clkLoopReset b) s = .next (((s.leaveCtl b).onLoop l fun x =>
      { x with phase := .acquiring, waitRef := false, retries := 0, acqAt := s.now, lossDeclared := false }).done b) := by
  have ok : s.refuseLoopReset l = none := if_pos failed
  show execClkLoopReset b s = _
  simp [execClkLoopReset, h, ok, State.runCtl, ref]

/-! ### Crossings with a partner in reset (R112) -/

/-- The partner's reset is flagged, counted and logged, and what the crossing `o` holds is discarded. -/
def State.partnerGone (s : State) (o : Xing) (x d : Nat) : State :=
  (((s.onXing { o with
    partnerReset := true, realign := true, token := nth s.clk.tokens d 0, held := none, shadow := none, captured := false }).onClk fun c =>
      { c with presetCount := satInc 8 c.presetCount, presetId := x }).raise .clk 10).report .partnerReset x
    [b2n (o.held.isSome && !o.captured) + b2n o.shadow.isSome]

theorem exec_partnerReset_gone {x r d k : Nat} (hx : x < 65536) (hd : d < 8) (first : (s.clk.xing x r d).partnerReset = false)
    (seen : nth s.clk.inReset d false ∨ k = nth s.clk.tokens d 0 ∧ (s.clk.xing x r d).token ≠ k) :
    exec (.partnerReset x r d k false) s = .next (s.partnerGone (s.clk.xing x r d) x d) := by
  have noticed : (nth s.clk.inReset d false || k == nth s.clk.tokens d 0 && (s.clk.xing x r d).token != nth s.clk.tokens d 0) = true := by
    rcases seen with reset | ⟨now, changed⟩
    · rw [reset, Bool.true_or]
    · simp [← now, changed]
  show execPartnerReset x r d k false s = _
  simp [execPartnerReset, State.partnerGone, Nat.mod_eq_of_lt hx, not_le.mpr hd, first, noticed]

/-- A token that the crossing has last seen, from a partner out of reset, is no reset. -/
theorem exec_partnerReset_seen {x r d k : Nat} (hx : x < 65536) (running : nth s.clk.inReset d false = false)
    (same : (s.clk.xing x r d).token = k) : exec (.partnerReset x r d k false) s = .next s := by
  have unnoticed : (k == nth s.clk.tokens d 0 && k != nth s.clk.tokens d 0) = false := by
    cases now : k == nth s.clk.tokens d 0 <;> simp_all
  show execPartnerReset x r d k false s = _
  simp [execPartnerReset, Nat.mod_eq_of_lt hx, running, same, unnoticed]

theorem exec_partnerReset_aligns {x r d k : Nat} (hx : x < 65536) (flagged : (s.clk.xing x r d).partnerReset)
    (running : s.clk.isStopped d = false) : exec (.partnerReset x r d k true) s = .next (s.onXing
      { s.clk.xing x r d with
        partnerReset := false, realign := false, token := nth s.clk.tokens d 0, req := (s.clk.xing x r d).ack }) := by
  show execPartnerReset x r d k true s = _
  simp [execPartnerReset, Nat.mod_eq_of_lt hx, flagged, running]

/-! ### Stopped domains (R113 to R115) -/

theorem exec_domainStopped {d : Nat} (hd : d < 8) (running : s.clk.isStopped d = false) : exec (.domainStopped d) s = .next
    (((s.onClk fun c => { c with stopped := c.stopped.set d true }).raise .clk 11).report .domainStopped d) :=
  congrArg Host.Outcome.next (if_neg (by simp [not_le.mpr hd, running]))

theorem exec_domainClockReturn {d : Nat} (up : s.sys.held = false) (on : s.sys.lastwords = false) (ref : d ≠ 7 ∨ s.clk.refNone = false) :
    exec (.domainClockReturn d) s = .next (s.onClk fun c => { c with stopped := c.stopped.set d false }) :=
  congrArg Host.Outcome.next (if_neg (by rcases ref with other | usable <;> simp [*]))

/-- An access to a stopped domain ends with an abort, or with a dropped write (R115). -/
theorem exec_stoppedDomainAccess_ends {o : Nat} (ho : o < 4194304) (stopped : s.blkStopped (servingBlk o)) (w : Bool) :
    ∃ t l, exec (.stoppedDomainAccess o w) s = .next t ∧ t.host.accesses = failedEnd w :: l ∧ OnlyTouches [.clk, .host] s t := by
  have blocked : s.bar0Blocked o w = some (((s.accessErr (servingBlk o) w).hostErr 1 0 w 0 o).answer (failedEnd w)) := if_pos stopped
  have run : exec (.stoppedDomainAccess o w) s = .next (((s.accessErr (servingBlk o) w).hostErr 1 0 w 0 o).answer (failedEnd w)) := by
    show inBar0 o ((s.bar0Blocked o w).getD s) = _
    rw [blocked]
    exact if_pos ho
  exact ⟨_, _, run, rfl, (execStoppedDomainAccess_kept o w (.refl s)).frame run⟩

/-- Settles O7: each command on a retune, a crossing or a domain changes the entry that it names. -/
theorem retunesAndCrossingsKeepTheirDomains : Obligations.RetunesAndCrossingsKeepTheirDomains := by
  refine ⟨exec_clkRetune_standby, fun s r b running berth late still => ?_, fun s b l h failed ref => ?_, fun s x r d k => ?_, fun s x r d k => ?_,
    fun s x r d k => ?_, fun s d hd running => ?_, fun s d up on ref => ?_, fun s o ho stopped => ?_, fun s o ho stopped => ?_,
    fun s h => ?_, fun s h => ?_, fun s o w ho => ?_⟩
  · exact ⟨_, exec_retuneTimeout running berth late still, rfl, rfl, (State.failed_kept _ _ (State.onClk_kept (.refl s) _)).frame⟩
  · exact ⟨_, exec_clkLoopReset h failed ref, State.doneOn_of_ctlCmd h rfl, rfl,
      (State.done_kept _ _ (State.onLoop_kept _ _ (State.leaveCtl_kept b (.refl s)))).frame⟩
  · intro o hx hd first seen
    exact ⟨_, exec_partnerReset_gone hx hd first seen, rfl, rfl,
      (State.report_kept _ _ _ (State.raise_kept _ _ (State.onClk_kept (State.onXing_kept _ (.refl s)) _))).frame⟩
  · intro o hx _ _ running same
    exact exec_partnerReset_seen hx running same
  · intro o hx _ flagged running
    exact ⟨_, exec_partnerReset_aligns hx flagged running, rfl, (State.onXing_kept _ (.refl s)).frame⟩
  · exact ⟨_, exec_domainStopped hd running, rfl, rfl, (State.report_kept _ _ _ (State.raise_kept _ _ (State.onClk_kept (.refl s) _))).frame⟩
  · exact ⟨_, exec_domainClockReturn up on ref, rfl, (State.onClk_kept (.refl s) _).frame⟩
  · exact exec_stoppedDomainAccess_ends ho stopped false
  · exact exec_stoppedDomainAccess_ends ho stopped true
  · have view := s.degradedEnd_view s.activeLoop
    have kept : Kept (· ∉ [.now]) s (s.degradedEnd s.activeLoop) := State.degradedEnd_kept _ (.refl s)
    exact ⟨_, exec_degradedEnd h, congrArg ClkView.degraded view, congrArg ClkView.connected view, congrArg ClkView.dramRetraining view,
      kept.parts .now (by simp)⟩
  · obtain ⟨t, run, clk, -⟩ := exec_dramRetrainDone_stores s h
    exact ⟨t, run, by rw [clk], by rw [clk]⟩
  · exact if_neg (not_lt.mpr ho)

end Sys2Proof.Machine
end

section
/-! SUPPORT. The lanes of PROT through their known-answer tests, the episodes of disagreement, and the setting groups that the host asks for or that
have waited (spec/05_protection_engine.md R187 to R193; spec/18_health_and_service_life.md R575). -/

namespace Sys2Proof.Machine

set_option Elab.async false

open Sys2Proof

variable {s : State}

/-! ### One lane of the two (R18) -/

@[simp] theorem ProtState.lane_setLane_self (p : ProtState) (l : LaneId) (x : Lane) : (p.setLane l x).lane l = x := by cases l <;> rfl

theorem ProtState.lane_setLane_ne (p : ProtState) (x : Lane) : ∀ {k l : LaneId}, k ≠ l → (p.setLane l x).lane k = p.lane k
  | .a, .b, _ | .b, .a, _ => rfl
  | .a, .a, h | .b, .b, h => absurd rfl h

@[simp] theorem ProtState.setLane_setLane (p : ProtState) (l : LaneId) (x y : Lane) : (p.setLane l x).setLane l y = p.setLane l y := by
  cases l <;> rfl

theorem ProtState.setLane_lane (p : ProtState) (l : LaneId) : p.setLane l (p.lane l) = p := by cases l <;> rfl

@[simp] theorem State.onLane_prot (s : State) (l : LaneId) (f : Lane → Lane) : (s.onLane l f).prot = s.prot.setLane l (f (s.prot.lane l)) := rfl

/-! ### A lane goes OUT (R192, R193) -/

/-- A lane that is OUT, as `laneOut` leaves it. -/
def Lane.wentOut (x : Lane) (c : OutCause) : Lane := { x with phase := .out, outCause := c, katRunning := false }

/-- The part of `laneOut` that concerns the lane alone: the lane is OUT, the disagreements are void, the event and the record are set. -/
def State.laneDropped (s : State) (l : LaneId) (c : OutCause) : State :=
  (((s.onLane l fun x => x.wentOut c).onProt fun p => { p with elems := p.elems.map fun e => { e with disagree := false } }).raise .prot 1).report
    .laneOut (laneNum l) [c.num]

theorem State.laneDropped_lane (s : State) (l : LaneId) (c : OutCause) (k : LaneId) :
    (s.laneDropped l c).prot.lane k = (s.prot.setLane l ((s.prot.lane l).wentOut c)).lane k := by cases k <;> rfl

theorem State.laneDropped_event (s : State) (l : LaneId) (c : OutCause) : (s.laneDropped l c).prot.event = s.prot.event.raise 1 := by cases l <;> rfl

/-- The combined outputs of every element are zero, the event and the record are set (R193). -/
def State.protDown (s : State) : State :=
  (((s.elemsOff s.prot.elems).onProt fun p =>
    { p with elems := p.elems.map fun e => { e with pickup := false, operate := false } }).raise .prot 10).report .protNoLane

theorem State.elemsOff_prot (s : State) (l : List Elem) : (s.elemsOff l).prot = s.prot :=
  (State.elemsOff_kept (M := (· ≠ .prot)) l (.refl s)).parts .prot (by simp)

theorem State.protDown_prot (s : State) : s.protDown.prot = { s.prot with
    elems := s.prot.elems.map fun e => { e with pickup := false, operate := false }, event := s.prot.event.raise 10 } := by
  simp only [State.protDown, State.report_prot, State.raise_at_prot, State.onProt_prot, State.elemsOff_prot]

theorem State.protDown_lane (s : State) (k : LaneId) : s.protDown.prot.lane k = s.prot.lane k := by
  rw [State.protDown_prot]
  cases k <;> rfl

/-- Beside the lane itself, a lane that goes OUT matters to the elements when it was the last one (R193). -/
theorem State.laneOut_cases (l : LaneId) (c : OutCause) (live : (s.prot.lane l).phase ≠ .out) :
    s.laneOut l c = s.laneDropped l c ∨ s.laneOut l c = (s.laneDropped l c).protDown := by
  have drops : s.laneOut l c = if (s.laneDropped l c).prot.noLane then (s.laneDropped l c).protDown else s.laneDropped l c := if_neg live
  rw [drops]
  split
  · exact .inr rfl
  · exact .inl rfl

theorem State.laneOut_lane (l : LaneId) (c : OutCause) (live : (s.prot.lane l).phase ≠ .out) (k : LaneId) :
    (s.laneOut l c).prot.lane k = (s.prot.setLane l ((s.prot.lane l).wentOut c)).lane k := by
  obtain eq | eq := State.laneOut_cases l c live
  · rw [eq, State.laneDropped_lane]
  · rw [eq, State.protDown_lane, State.laneDropped_lane]

theorem State.laneOut_flags (l : LaneId) (c : OutCause) (live : (s.prot.lane l).phase ≠ .out) :
    (s.laneOut l c).prot.event.bits.getLsbD 1 = true := by
  have set := W1C.raise_bits s.prot.event 1 (by decide)
  obtain eq | eq := State.laneOut_cases l c live
  · rw [eq, State.laneDropped_event, set]
  · rw [eq, State.protDown_prot, State.laneDropped_event, W1C.bits_raise_of_set _ _ set]

/-! ### The known-answer test of one lane (R192, R194, R575) -/

/-- The test of a lane that is not OUT starts; on a lane that is OUT it goes on as it did. -/
theorem State.startKat_unless_out (s : State) (l : LaneId) : (if (s.prot.lane l).phase = .out then s else s.startKat l).prot =
    s.prot.setLane l { s.prot.lane l with katRunning := (s.prot.lane l).katRunning || (s.prot.lane l).phase != .out } := by
  by_cases out : (s.prot.lane l).phase = .out
  · have same : ((s.prot.lane l).katRunning || (s.prot.lane l).phase != .out) = (s.prot.lane l).katRunning := by simp [out]
    rw [if_pos out, same]
    exact (s.prot.setLane_lane l).symm
  · rw [if_neg out, bne_iff_ne.mpr out, Bool.or_true]
    rfl

/-- A lane whose test has ended, with its result (R204). -/
def Lane.tested (x : Lane) (pass : Bool) : Lane := { x with katRunning := false, katPass := pass }

theorem State.katEnds_idle {l : LaneId} (idle : (s.prot.lane l).katRunning = false) (pass : Bool) : s.katEnds l pass = s := if_pos (by simp [idle])

/-- A lane that passes is IN (R192). -/
theorem State.katEnds_passes {l : LaneId} (runs : (s.prot.lane l).katRunning) (live : (s.prot.lane l).phase ≠ .out) :
    s.katEnds l true = (s.onLane l fun x => x.tested true).onLane l fun x => { x with phase := .in_ } := by
  rw [State.katEnds, if_neg (by simp [runs])]
  cases phase : (s.prot.lane l).phase with
  | in_ => rfl
  | suspect => rfl
  | out => exact absurd phase live

/-- A lane that fails goes OUT with the cause KAT (R192). -/
theorem State.katEnds_fails {l : LaneId} (runs : (s.prot.lane l).katRunning) (live : (s.prot.lane l).phase ≠ .out) :
    s.katEnds l false = (s.onLane l fun x => x.tested false).laneOut l .kat := by
  rw [State.katEnds, if_neg (by simp [runs])]
  cases phase : (s.prot.lane l).phase with
  | in_ => rfl
  | suspect => rfl
  | out => exact absurd phase live

/-- A lane that is OUT is tested for its restoration: it waits for the boundary, or stays OUT (R194). -/
theorem State.katEnds_out {l : LaneId} (runs : (s.prot.lane l).katRunning) (out : (s.prot.lane l).phase = .out) (pass : Bool) :
    s.katEnds l pass =
      if !(s.prot.lane l).restoring then s.onLane l fun x => x.tested pass
      else if pass then
        (s.onLane l fun x => x.tested pass).onLane l fun x => { x with restoring := false, restoreAtBoundary := true, bootKat := true }
      else ((s.onLane l fun x => x.tested pass).onLane l fun x => { x with restoring := false }).report .secCommit (laneNum l) [laneNum l, 0] := by
  rw [State.katEnds, if_neg (by simp [runs])]
  simp only [out]
  rfl

/-- The lane of a failed test before it goes OUT. -/
theorem State.tested_live {l : LaneId} (live : (s.prot.lane l).phase ≠ .out) (pass : Bool) :
    ((s.onLane l fun x => x.tested pass).prot.lane l).phase ≠ .out := by
  rw [State.onLane_prot, ProtState.lane_setLane_self]
  exact live

theorem State.katEnds_fails_lane {l : LaneId} (runs : (s.prot.lane l).katRunning) (live : (s.prot.lane l).phase ≠ .out) (k : LaneId) :
    (s.katEnds l false).prot.lane k = (s.prot.setLane l (((s.prot.lane l).tested false).wentOut .kat)).lane k := by
  rw [State.katEnds_fails runs live, State.laneOut_lane l .kat (State.tested_live live false), State.onLane_prot, ProtState.lane_setLane_self,
    ProtState.setLane_setLane]

/-- Of the two lanes the end of a test changes its own alone, and no test runs on it afterwards. -/
theorem State.katEnds_lane (s : State) (l : LaneId) (pass : Bool) : ∃ x : Lane, x.katRunning = false ∧
    ∀ k, (s.katEnds l pass).prot.lane k = (s.prot.setLane l x).lane k := by
  cases runs : (s.prot.lane l).katRunning
  · exact ⟨s.prot.lane l, runs, fun k => by rw [State.katEnds_idle runs, ProtState.setLane_lane]⟩
  by_cases out : (s.prot.lane l).phase = .out
  · rw [State.katEnds_out runs out]
    split
    · exact ⟨(s.prot.lane l).tested pass, rfl, fun _ => rfl⟩
    split
    · exact ⟨{ (s.prot.lane l).tested pass with restoring := false, restoreAtBoundary := true, bootKat := true }, rfl, fun k => by simp⟩
    · exact ⟨{ (s.prot.lane l).tested pass with restoring := false }, rfl, fun k => by simp⟩
  cases pass
  · exact ⟨((s.prot.lane l).tested false).wentOut .kat, rfl, State.katEnds_fails_lane runs out⟩
  · exact ⟨{ (s.prot.lane l).tested true with phase := .in_ }, rfl, fun k => by simp [State.katEnds_passes runs out]⟩

theorem State.katEnds_stops (s : State) (l : LaneId) (pass : Bool) : ((s.katEnds l pass).prot.lane l).katRunning = false := by
  obtain ⟨x, idle, lanes⟩ := State.katEnds_lane s l pass
  rw [lanes, ProtState.lane_setLane_self, idle]

/-- The test of one lane leaves the other lane alone. -/
theorem State.katEnds_lane_ne (s : State) {k l : LaneId} (h : k ≠ l) (pass : Bool) : (s.katEnds l pass).prot.lane k = s.prot.lane k := by
  obtain ⟨x, -, lanes⟩ := State.katEnds_lane s l pass
  rw [lanes, ProtState.lane_setLane_ne _ _ h]

/-! ### The known-answer tests of both lanes (R192, R575) -/

/-- DIAG has the result of the self-test: a test that ran and failed, of lane A before lane B (R575). -/
def State.katResult (s : State) (x : KatIn) : State :=
  let badA := s.prot.laneA.katRunning && !x.passA
  let badB := s.prot.laneB.katRunning && !x.passB
  s.testResult .protKat (b2n (!badA && badB)) (!badA && !badB)

theorem State.katResult_prot (s : State) (x : KatIn) : (s.katResult x).prot = s.prot :=
  (State.testResult_kept (M := (· ≠ .prot)) _ _ _ (.refl s)).parts .prot (by simp)

/-- Each lane has its own result. -/
def State.katTested (s : State) (x : KatIn) : State := ((s.katResult x).katEnds .a x.passA).katEnds .b x.passB

/-- Both lanes passed although they disagreed: the cause is counted, flagged and logged as unresolved (R192). -/
def State.katUnresolved (s : State) : State :=
  ((s.onProt fun p => { p with unresolved := satInc 16 p.unresolved }).raise .prot 2).report .laneUnresolved

theorem exec_protKatDone (runs : s.prot.laneA.katRunning ∨ s.prot.laneB.katRunning) (x : KatIn) : exec (.protKatDone x) s = .next
    (if s.prot.laneA.phase = .suspect ∧ s.prot.laneB.phase = .suspect ∧
        (s.katTested x).prot.laneA.phase = .in_ ∧ (s.katTested x).prot.laneB.phase = .in_ then (s.katTested x).katUnresolved
      else s.katTested x) :=
  congrArg Host.Outcome.next (if_neg (by simpa [or_iff_not_imp_left] using runs))

theorem State.katTested_stops (s : State) (x : KatIn) :
    (s.katTested x).prot.laneA.katRunning = false ∧ (s.katTested x).prot.laneB.katRunning = false :=
  ⟨(congrArg Lane.katRunning (State.katEnds_lane_ne _ (by decide : LaneId.a ≠ .b) x.passB)).trans (State.katEnds_stops _ .a x.passA),
    State.katEnds_stops _ .b x.passB⟩

theorem exec_protKatDone_stops (s : State) (x : KatIn) (runs : s.prot.laneA.katRunning ∨ s.prot.laneB.katRunning) :
    ∃ t, exec (.protKatDone x) s = .next t ∧ t.prot.laneA.katRunning = false ∧ t.prot.laneB.katRunning = false ∧
      OnlyTouches [.prot, .logic, .capt, .log, .diag] s t := by
  have run := exec_protKatDone runs x
  obtain ⟨a, b⟩ := State.katTested_stops s x
  refine ⟨_, run, ?_, ?_, (execProtKatDone_kept x (.refl s)).frame run⟩
  · split
    · exact a
    · exact a
  · split
    · exact b
    · exact b

/-- Both lanes pass: PROT differs in the two lanes alone. -/
theorem State.katTested_passes (runA : s.prot.laneA.katRunning) (runB : s.prot.laneB.katRunning) (liveA : s.prot.laneA.phase ≠ .out)
    (liveB : s.prot.laneB.phase ≠ .out) : (s.katTested { passA := true, passB := true }).prot = { s.prot with
      laneA := { s.prot.laneA.tested true with phase := .in_ }, laneB := { s.prot.laneB.tested true with phase := .in_ } } := by
  have same := State.katResult_prot s { passA := true, passB := true }
  have passA : (s.katResult { passA := true, passB := true }).katEnds .a true = _ :=
    State.katEnds_passes (by rw [same]; exact runA) (by rw [same]; exact liveA)
  rw [State.katTested, passA, State.katEnds_passes, State.onLane_prot, State.onLane_prot, State.onLane_prot, State.onLane_prot, same]
  · rfl
  · rw [State.onLane_prot, State.onLane_prot, same]
    exact runB
  · rw [State.onLane_prot, State.onLane_prot, same]
    exact liveB

/-- Where no test runs on lane B, that of lane A is all. -/
theorem State.katTested_idleB (idleB : s.prot.laneB.katRunning = false) (y : Bool) :
    s.katTested { passA := false, passB := y } = (s.katResult { passA := false, passB := y }).katEnds .a false := by
  refine State.katEnds_idle ?_ y
  rw [State.katEnds_lane_ne _ (by decide), State.katResult_prot]
  exact idleB

theorem exec_protKatDone_unresolved (s : State) (runA : s.prot.laneA.katRunning) (runB : s.prot.laneB.katRunning)
    (suspectA : s.prot.laneA.phase = .suspect) (suspectB : s.prot.laneB.phase = .suspect) :
    ∃ t, exec (.protKatDone { passA := true, passB := true }) s = .next t ∧ t.prot.laneA.phase = .in_ ∧ t.prot.laneB.phase = .in_ ∧
      t.prot.unresolved = satInc 16 s.prot.unresolved ∧ t.prot.event = s.prot.event.raise 2 := by
  have tested := State.katTested_passes runA runB (by simp [suspectA]) (by simp [suspectB])
  have run := exec_protKatDone (.inl runA) { passA := true, passB := true }
  rw [if_pos ⟨suspectA, suspectB, by rw [tested], by rw [tested]⟩] at run
  have judged : (s.katTested { passA := true, passB := true }).katUnresolved.prot =
      { (s.katTested { passA := true, passB := true }).prot with
        unresolved := satInc 16 (s.katTested { passA := true, passB := true }).prot.unresolved
        event := (s.katTested { passA := true, passB := true }).prot.event.raise 2 } := rfl
  rw [tested] at judged
  exact ⟨_, run, by rw [judged], by rw [judged], by rw [judged], by rw [judged]⟩

theorem exec_protKatDone_failsA (s : State) (y : Bool) (runA : s.prot.laneA.katRunning) (idleB : s.prot.laneB.katRunning = false)
    (inA : s.prot.laneA.phase = .in_) :
    ∃ t, exec (.protKatDone { passA := false, passB := y }) s = .next t ∧ t.prot.laneA.phase = .out ∧ t.prot.laneA.outCause = .kat ∧
      t.prot.laneB = s.prot.laneB ∧ t.prot.event.bits.getLsbD 1 = true := by
  have same := State.katResult_prot s { passA := false, passB := y }
  have live : ((s.katResult { passA := false, passB := y }).prot.lane .a).phase ≠ .out := by rw [same]; simp [ProtState.lane, inA]
  have runs : ((s.katResult { passA := false, passB := y }).prot.lane .a).katRunning := by rw [same]; exact runA
  have run := exec_protKatDone (.inl runA) { passA := false, passB := y }
  rw [if_neg (by simp [inA]), State.katTested_idleB idleB] at run
  have lanes := State.katEnds_fails_lane runs live
  rw [same] at lanes
  refine ⟨_, run, congrArg Lane.phase (lanes .a), congrArg Lane.outCause (lanes .a), lanes .b, ?_⟩
  rw [State.katEnds_fails runs live]
  exact State.laneOut_flags .a .kat (State.tested_live live false)

theorem exec_protKatPeriodic (ready : s.prot.ready) (due : s.passed (nth s.diag.ranAt SelfTest.protKat.bit 0) (secs 1)) :
    exec .protKatPeriodic s =
      .next (s.forEach [LaneId.a, LaneId.b] fun s l => if (s.prot.lane l).phase = .out then s else s.startKat l) :=
  congrArg Host.Outcome.next (if_neg (by simp [ready, due]))

theorem exec_protKatPeriodic_starts (s : State) (ready : s.prot.ready) (due : s.passed (nth s.diag.ranAt SelfTest.protKat.bit 0) (secs 1)) :
    ∃ t, exec .protKatPeriodic s = .next t ∧
      t.prot = { s.prot with
        laneA := { s.prot.laneA with katRunning := s.prot.laneA.katRunning || s.prot.laneA.phase != .out }
        laneB := { s.prot.laneB with katRunning := s.prot.laneB.katRunning || s.prot.laneB.phase != .out } } ∧ OnlyTouches [.prot] s t := by
  have run := exec_protKatPeriodic ready due
  refine ⟨_, run, ?_, (execProtKatPeriodic_kept (.refl s)).frame run⟩
  rw [State.forEach_cons, State.forEach_cons, State.forEach_nil, State.startKat_unless_out, State.startKat_unless_out]
  rfl

/-! ### Episodes of disagreement (R191) -/

theorem State.elem?_onElem_self (s : State) (e : Nat) {f : Elem → Elem} (hf : ∀ x, (f x).index = x.index) :
    (s.onElem e f).elem? e = (s.elem? e).map f :=
  find?_map_if _ _ _ fun x => by rw [hf]

theorem exec_laneDisagreeEpisodeEnd {e : Nat} {y : Elem} {u : Ns} (he : s.elem? e = some y) (running : y.episode = some u)
    (calm : s.passed u (secs 1)) : exec (.laneDisagreeEpisodeEnd e) s = .next (s.onElem e fun x => { x with episode := none }) := by
  have ended : ((s.elem? e).any fun x => s.passedSince x.episode (secs 1)) = true := by
    rw [he, Option.any_some, running, State.passedSince_some, calm]
  show execLaneDisagreeEpisodeEnd e s = _
  rw [execLaneDisagreeEpisodeEnd, if_pos ended]

/-! ### Setting groups (R187 to R189) -/

theorem exec_sgSelect {b g : Nat} (h : s.ctlCmd b = some (.sgSelect g)) (used : s.groupUsed g) :
    exec (.sgSelect b) s = .next (((s.leaveCtl b).toTarget b).requestGroup { group := g, by_ := .host, berth := some b }) := by
  have ok : s.refuseGroup g .host s.sgStatus = none := if_neg (by simp [used])
  show execSgSelect b s = _
  simp only [execSgSelect, h, ok, State.runCtl]

theorem State.requestGroup_first (free : s.prot.request = none) (r : SgRequest) :
    s.requestGroup r = s.onProt fun p => { p with request := some r, deferred := false } := by
  simp only [State.requestGroup, free]

/-- An element as a switch leaves it: one that is listed as disabled starts again, with its outputs zero (R189). -/
def Elem.switched (off : List ElemCfg) (x : Elem) : Elem := if off.any (·.index == x.index) then x.restart x.essOff else x

theorem Elem.switched_index (off : List ElemCfg) (x : Elem) : (x.switched off).index = x.index := by
  unfold Elem.switched
  split <;> rfl

theorem Elem.switched_cons (c : ElemCfg) (off : List ElemCfg) (x : Elem) :
    (if x.index == c.index then x.restart x.essOff else x).switched off = x.switched (c :: off) := by
  by_cases same : c.index = x.index
  · simp only [same, beq_self_eq_true, if_true, Elem.switched, List.any_cons, Bool.true_or]
    split <;> rfl
  · simp only [beq_eq_false_iff_ne.mpr same, beq_eq_false_iff_ne.mpr (Ne.symm same), Elem.switched, List.any_cons, Bool.false_or, Bool.false_eq_true,
      if_false]

theorem State.forEach_restart (off : List ElemCfg) (s : State) : (s.forEach off fun s c => s.onElem c.index fun e => e.restart e.essOff) =
    s.onProt fun p => { p with elems := p.elems.map (Elem.switched off) } := by
  induction off generalizing s with
  | nil =>
    have unlisted (x : Elem) : x.switched [] = x := rfl
    simp [State.onProt, funext unlisted]
  | cons c off ih =>
    rw [State.forEach_cons, ih]
    simp only [State.onElem, State.onProt, List.map_map, Function.comp_def, Elem.switched_cons]

/-- The elements that a group does not enable (R187). -/
def State.disabledIn (s : State) (g : Nat) : List ElemCfg := s.protCfg.elements.filter fun c => !nth c.sgMask g false

/-- The whole switch: one change of PROT, the event and the record (R189). -/
def State.groupSwitched (s : State) (g : Nat) (by_ : SgRequester) (waited : Ns) : State :=
  ((s.onProt fun p =>
    { p with group := g, switches := wrapInc 8 p.switches, elems := p.elems.map (Elem.switched (s.disabledIn g)) }).raise .prot 3).report
      .sgSwitch 0xFFFF [s.prot.group, g, by_.rank, waited]

theorem State.switchGroup_eq (s : State) (g : Nat) (by_ : SgRequester) (waited : Ns) : s.switchGroup g by_ waited = s.groupSwitched g by_ waited := by
  simp only [State.switchGroup, State.forEach_restart]
  rfl

/-- After a switch an element that the group does not enable has no output (R189). -/
theorem State.groupSwitched_silences {g : Nat} {by_ : SgRequester} {waited : Ns} {c : ElemCfg} (created : c ∈ s.protCfg.elements)
    (off : nth c.sgMask g false = false) {y : Elem} (hy : (s.groupSwitched g by_ waited).elem? c.index = some y) :
    y.pickup = false ∧ y.operate = false := by
  have listed : c ∈ s.disabledIn g := List.mem_filter.mpr ⟨created, by simp [off]⟩
  have found : (s.prot.elems.map (Elem.switched (s.disabledIn g))).find? (·.index == c.index) = some y := hy
  rw [List.find?_map] at found
  obtain ⟨x, hx, rfl⟩ := Option.map_eq_some_iff.mp found
  have index : x.index = c.index := by simpa [Elem.switched_index] using List.find?_some hx
  have restarts : x.switched (s.disabledIn g) = x.restart x.essOff := if_pos (List.any_eq_true.mpr ⟨c, listed, by simp [index]⟩)
  rw [restarts]
  exact ⟨rfl, rfl⟩

/-- The request is taken up as its switch begins (R188). -/
def State.requestTaken (s : State) : State := s.onProt fun p => { p with request := none, deferred := false }

theorem exec_sgDeferExpiry {r : SgRequest} (deferred : s.prot.deferred) (late : s.passed s.prot.deferSince s.protCfg.sgDeferMax)
    (request : s.prot.request = some r) :
    exec .sgDeferExpiry s = .next (s.requestTaken.groupSwitched r.group r.by_ (s.now - s.prot.deferSince)) := by
  have due : (s.prot.deferred && s.passed s.prot.deferSince s.protCfg.sgDeferMax) = true := by simp [deferred, late]
  show execSgDeferExpiry s = _
  simp only [execSgDeferExpiry, due, if_true, State.applyDeferred, request, State.switchGroup_eq]
  rfl

/-- A deferred switch that has waited SG_DEFER_MAX is applied (R188, R189). -/
theorem exec_sgDeferExpiry_applies (s : State) (r : SgRequest) (deferred : s.prot.deferred)
    (late : s.passed s.prot.deferSince s.protCfg.sgDeferMax) (request : s.prot.request = some r) :
    ∃ t, exec .sgDeferExpiry s = .next t ∧ t.prot.group = r.group ∧ t.prot.request = none ∧ t.prot.deferred = false ∧
      t.prot.switches = wrapInc 8 s.prot.switches ∧ t.prot.event = s.prot.event.raise 3 ∧ t.prot.trips = s.prot.trips ∧
      (∀ c ∈ s.protCfg.elements, nth c.sgMask r.group false = false → ∀ y, t.elem? c.index = some y → y.pickup = false ∧ y.operate = false) ∧
      t.log = (s.report .sgSwitch 0xFFFF [s.prot.group, r.group, r.by_.rank, (s.now - s.prot.deferSince : Nat)]).log ∧
      OnlyTouches [.prot, .log] s t := by
  have run := exec_sgDeferExpiry deferred late request
  exact ⟨_, run, rfl, rfl, rfl, rfl, rfl, rfl, fun _ created off _ => State.groupSwitched_silences (s := s.requestTaken) created off, rfl,
    (execSgDeferExpiry_kept (.refl s)).frame run⟩

/-- Settles O14: the known-answer tests judge each lane by itself, and a switch of groups is one change of PROT. -/
theorem lanesAndGroupsOfProtection : Obligations.LanesAndGroupsOfProtection := by
  refine ⟨exec_protKatPeriodic_starts, exec_protKatDone_stops, exec_protKatDone_unresolved, exec_protKatDone_failsA,
    fun s e y u he running calm => ?_, fun s b g h used free => ?_, exec_sgDeferExpiry_applies⟩
  · have ended := State.elem?_onElem_self s e (f := fun x => { x with episode := none }) fun _ => rfl
    exact ⟨_, exec_laneDisagreeEpisodeEnd he running calm, ended.trans (by rw [he]; rfl), (State.onElem_kept e _ (.refl s)).frame⟩
  · have run := exec_sgSelect h used
    have first := State.requestGroup_first (s := (s.leaveCtl b).toTarget b) free { group := g, by_ := .host, berth := some b }
    rw [first] at run
    exact ⟨_, run, rfl, State.endingOf_toTarget h, State.not_mem_leaveCtl s b,
      (State.onProt_kept (State.toTarget_kept b (State.leaveCtl_kept b (.refl s))) _).frame⟩

end Sys2Proof.Machine
end

section
/-! SUPPORT. Zones by slot, and what a block, the PTP estimate and a decided instant leave of them (spec/06_differential_sum_frames.md R222, R223, R227). -/

namespace Sys2Proof.Machine

set_option Elab.async false

open Sys2Proof

variable {s : State}

/-! ### Zones by slot -/

@[simp] theorem State.zone?_raise (s : State) (i z : Nat) : (s.raise .diff i).zone? z = s.zone? z := rfl
@[simp] theorem State.zone?_report (s : State) (n : Rec) (x : Nat) (l : List Int) (z : Nat) : (s.report n x l).zone? z = s.zone? z := rfl

@[simp] theorem State.zone?_onZone_self (s : State) (z : Nat) (f : Zone → Zone) : (s.onZone z f).zone? z = (s.zone? z).map f := by
  simp [State.onZone, State.zone?, updAt]

theorem State.zone?_onZone_of {z : Nat} {x : Zone} (hx : s.zone? z = some x) (f : Zone → Zone) : (s.onZone z f).zone? z = some (f x) := by
  rw [State.zone?_onZone_self, hx, Option.map_some]

theorem State.zone?_onZone_ne (s : State) {k z : Nat} (h : k ≠ z) (f : Zone → Zone) : (s.onZone k f).zone? z = s.zone? z := by
  simp [State.onZone, State.zone?, updAt, h]

theorem State.onZone_of_none {z : Nat} (h : s.zone? z = none) (f : Zone → Zone) : s.onZone z f = s := by
  have same : updAt s.diff.zones z f = s.diff.zones := List.modify_eq_self (List.getElem?_eq_none_iff.mp h)
  rw [State.onZone, State.onDiff, same]

/-- A change of one sum instant of a zone. -/
def Zone.onInstant (x : Zone) (sec idx : Nat) (f : ZoneInstant → ZoneInstant) : Zone :=
  { x with instants := x.instants.map fun i => if i.sec = sec ∧ i.idx = idx then f i else i }

@[simp] theorem State.zone?_onInstant_self (s : State) (z sec idx : Nat) (f : ZoneInstant → ZoneInstant) :
    (s.onInstant z sec idx f).zone? z = (s.zone? z).map (·.onInstant sec idx f) := State.zone?_onZone_self s z _

/-! ### Blocking (R227) -/

/-- The count of complete instants starts again (R227). -/
def Zone.countsAgain (x : Zone) : Zone := { x with unblockLeft := x.cfg.unblockCount }

/-- The zone is BLOCKED, with the cause, and counted (R227). -/
def Zone.entersBlocked (x : Zone) (c : ZoneCause) : Zone := { x with phase := .blocked, cause := c, blocks := satInc 16 x.blocks }

/-- A zone that a cause blocks: the count of complete instants starts again, and a HEALTHY zone is BLOCKED (R227). -/
def Zone.blockedBy (x : Zone) (c : ZoneCause) : Zone := if x.phase = .healthy then x.countsAgain.entersBlocked c else x.countsAgain

/-- What a cause of blocking can change of a zone. -/
theorem Zone.blockedBy_cases (x : Zone) (c : ZoneCause) : ∃ p k b, x.blockedBy c =
    { x with unblockLeft := x.cfg.unblockCount, phase := p, cause := k, blocks := b } := by
  unfold Zone.blockedBy
  split
  · exact ⟨_, _, _, rfl⟩
  · exact ⟨x.phase, x.cause, x.blocks, rfl⟩

theorem Zone.blockedBy_phase (x : Zone) (c : ZoneCause) : (x.blockedBy c).phase = if x.phase = .healthy then .blocked else x.phase := by
  unfold Zone.blockedBy
  split <;> rfl

/-- A zone that is not HEALTHY is left in its state, without event and record. -/
theorem State.zoneBlock_of_not_healthy {z : Nat} {x : Zone} (hx : s.zone? z = some x) (h : x.phase ≠ .healthy) (c : ZoneCause) (m : BitVec 64) :
    s.zoneBlock z c m = s.onZone z Zone.countsAgain := by
  simp only [State.zoneBlock, hx]
  exact if_pos h

/-- A HEALTHY zone blocks, with the event and the record. -/
theorem State.zoneBlock_of_healthy {z : Nat} {x : Zone} (hx : s.zone? z = some x) (h : x.phase = .healthy) (c : ZoneCause) (m : BitVec 64) :
    s.zoneBlock z c m =
      (((s.onZone z Zone.countsAgain).onZone z (·.entersBlocked c)).raise .diff 0).report .zoneBlock z [z, c.num, m.toNat] := by
  simp only [State.zoneBlock, hx]
  exact if_neg (not_not.mpr h)

theorem State.zone?_zoneBlock_self (s : State) (z : Nat) (c : ZoneCause) (m : BitVec 64) :
    (s.zoneBlock z c m).zone? z = (s.zone? z).map (·.blockedBy c) := by
  cases hx : s.zone? z with
  | none => simp [State.zoneBlock, hx]
  | some x =>
    by_cases h : x.phase = .healthy
    · simp [State.zoneBlock_of_healthy hx h, hx, Zone.blockedBy, h]
    · simp [State.zoneBlock_of_not_healthy hx h, hx, Zone.blockedBy, h]

theorem State.zone?_zoneBlock_ne (s : State) {k z : Nat} (h : k ≠ z) (c : ZoneCause) (m : BitVec 64) : (s.zoneBlock k c m).zone? z = s.zone? z := by
  cases hx : s.zone? k with
  | none => simp [State.zoneBlock, hx]
  | some x =>
    by_cases p : x.phase = .healthy
    · simp [State.zoneBlock_of_healthy hx p, State.zone?_onZone_ne _ h]
    · simp [State.zoneBlock_of_not_healthy hx p, State.zone?_onZone_ne _ h]

theorem State.zone?_zoneBlock_of_healthy {z : Nat} {x : Zone} (hx : s.zone? z = some x) (h : x.phase = .healthy) (c : ZoneCause) (m : BitVec 64) :
    (s.zoneBlock z c m).zone? z = some (x.countsAgain.entersBlocked c) := by
  rw [State.zone?_zoneBlock_self, hx, Option.map_some, Zone.blockedBy, if_pos h]

theorem State.zoneBlock_event {z : Nat} {x : Zone} (hx : s.zone? z = some x) (h : x.phase = .healthy) (c : ZoneCause) (m : BitVec 64) :
    (s.zoneBlock z c m).diff.event = s.diff.event.raise 0 := by
  rw [State.zoneBlock_of_healthy hx h]
  rfl

/-- Zones that are not listed stay as they are, those that are listed block once. -/
theorem State.zone?_forEach_zoneBlock (z : Nat) (c : ZoneCause) (m : BitVec 64) (l : List Nat) (once : l.Nodup) (s : State) :
    (s.forEach l fun s k => s.zoneBlock k c m).zone? z = if z ∈ l then (s.zone? z).map (·.blockedBy c) else s.zone? z := by
  induction l generalizing s with
  | nil => rfl
  | cons k l ih =>
    obtain ⟨fresh, once⟩ := List.nodup_cons.mp once
    rw [State.forEach_cons, ih once]
    by_cases h : k = z
    · subst h
      simp [fresh, State.zone?_zoneBlock_self]
    · simp [State.zone?_zoneBlock_ne _ h, Ne.symm h]

/-! ### The PTP estimate (R223, R227) -/

/-- The estimate and its hysteresis are taken (R223). -/
def State.ptpTaken (s : State) : State :=
  s.onDiff fun d =>
    { d with ptpErr := s.ptpErr, ptpJoin := if s.ptpErr.mag ≤ 1000 then true else if 2000 < s.ptpErr.mag then false else d.ptpJoin }

theorem State.diffJoin_of_near (near : s.ptpErr.mag ≤ 2000) : s.diffJoin = s.ptpTaken :=
  if_neg (by simpa only [decide_eq_true_eq, not_lt] using near)

theorem State.diffJoin_of_far (far : 2000 < s.ptpErr.mag) :
    s.diffJoin = s.ptpTaken.forEach (List.range s.diff.zones.length) fun s z => s.zoneBlock z .ptp 0 :=
  if_pos (decide_eq_true far)

/-- A zone after the judgement of the estimate: beyond ±2 µs it blocks (R227). -/
def Zone.ptpJudged (x : Zone) (e : Num) : Zone := if 2000 < e.mag then x.blockedBy .ptp else x

theorem Zone.ptpJudged_cases (x : Zone) (e : Num) : ∃ u p k b, x.ptpJudged e =
    { x with unblockLeft := u, phase := p, cause := k, blocks := b } := by
  unfold Zone.ptpJudged
  split
  · exact ⟨_, x.blockedBy_cases .ptp⟩
  · exact ⟨x.unblockLeft, x.phase, x.cause, x.blocks, rfl⟩

theorem Zone.ptpJudged_phase (x : Zone) (e : Num) :
    (x.ptpJudged e).phase = if 2000 < e.mag ∧ x.phase = .healthy then .blocked else x.phase := by
  by_cases far : 2000 < e.mag
  · simp [Zone.ptpJudged, far, Zone.blockedBy_phase]
  · simp [Zone.ptpJudged, far]

theorem Zone.ptpJudged_cfg (x : Zone) (e : Num) : (x.ptpJudged e).cfg = x.cfg := by
  obtain ⟨u, p, k, b, eq⟩ := x.ptpJudged_cases e
  rw [eq]

theorem State.diffJoin_zone? (s : State) (z : Nat) : s.diffJoin.zone? z = (s.zone? z).map (·.ptpJudged s.ptpErr) := by
  by_cases far : 2000 < s.ptpErr.mag
  · rw [State.diffJoin_of_far far, State.zone?_forEach_zoneBlock _ _ _ _ List.nodup_range]
    have same : s.ptpTaken.zone? z = s.zone? z := rfl
    have judged : (fun x : Zone => x.ptpJudged s.ptpErr) = (·.blockedBy .ptp) := funext fun x => if_pos far
    rw [same, judged, ite_eq_left_iff]
    intro out
    have absent : s.zone? z = none := by simpa [State.zone?] using out
    rw [absent, Option.map_none]
  · have judged : (fun x : Zone => x.ptpJudged s.ptpErr) = id := funext fun x => if_neg far
    rw [State.diffJoin_of_near (not_lt.mp far), judged, Option.map_id, id]
    rfl

theorem State.diffJoin_zones (s : State) : s.diffJoin.diff.zones = s.diff.zones.map (·.ptpJudged s.ptpErr) :=
  List.ext_getElem? fun z => (s.diffJoin_zone? z).trans List.getElem?_map.symm

/-- Beside DIFF and the logbook the estimate changes nothing. -/
theorem State.diffJoin_touches (s : State) : Kept (· ∈ [.diff, .log]) s s.diffJoin := State.diffJoin_kept (.refl s)

/-! ### Decided instants (R222, R236) -/

/-- A zone whose instant is decided: CONTRIBUTING shows whether this member has added to it. -/
def Zone.decided (x : Zone) (i : ZoneInstant) : Zone :=
  let y := x.onInstant i.sec i.idx fun j => { j with done := true }
  { y with contributing := (y.instant? i.sec i.idx).any (·.added) }

theorem Zone.decided_cases (x : Zone) (i : ZoneInstant) : ∃ l c, x.decided i = { x with instants := l, contributing := c } := ⟨_, _, rfl⟩

theorem State.zone?_decideInstant (s : State) (z : Nat) (i : ZoneInstant) :
    (s.decideInstant z i).zone? z = (s.zone? z).map (·.decided i) := by
  rw [State.decideInstant, State.zone?_onZone_self, State.zone?_onInstant_self, Option.map_map]
  rfl

theorem Zone.decided_done (x : Zone) (i : ZoneInstant) {j : ZoneInstant} (hj : j ∈ (x.decided i).instants) (sec : j.sec = i.sec)
    (idx : j.idx = i.idx) : j.done = true := by
  obtain ⟨k, -, rfl⟩ := List.mem_map.mp hj
  split at sec
  · rw [if_pos ‹_›]
  · rename_i other
    rw [if_neg other] at idx
    exact absurd ⟨sec, idx⟩ other

end Sys2Proof.Machine
end

section
/-! SUPPORT. The deadline of a sum instant, and the addition to a sum frame (spec/06_differential_sum_frames.md R213, R219, R222, R227). -/

namespace Sys2Proof.Machine

set_option Elab.async false

open Sys2Proof

variable {s : State}

/-! ### The deadline (R222, R227) -/

/-- The oldest undecided instant of a zone whose deadline has passed. -/
def State.overdue (s : State) (x : Zone) : Option ZoneInstant :=
  x.instants.reverse.find? fun i => !i.done && decide (i.time + x.cfg.deadlineNs ≤ s.ltc)

/-- The cause by which an instant that its deadline ends blocks a zone. -/
def ZoneInstant.cause (i : ZoneInstant) : ZoneCause :=
  if i.foreign then .cfg else if i.sat then .sat else if i.bad ≠ [] then .incomplete else .noFrame

/-- The instants in a row with foreign frames alone are counted. -/
def Zone.foreignCounted (x : Zone) (i : ZoneInstant) : Zone := { x with cfgRun := if i.foreign then x.cfgRun + 1 else 0 }

/-- An instant that ends at its deadline is counted as foreign or not, and decided. -/
def State.expired (s : State) (z : Nat) (i : ZoneInstant) : State := (s.onZone z (·.foreignCounted i)).decideInstant z i

theorem State.zone?_expired {z : Nat} {x : Zone} (hx : s.zone? z = some x) (i : ZoneInstant) : ∃ l c, (s.expired z i).zone? z =
      some { x with cfgRun := if i.foreign then x.cfgRun + 1 else 0, instants := l, contributing := c } ∧
    ∀ j ∈ l, j.sec = i.sec → j.idx = i.idx → j.done = true := by
  rw [State.expired, State.zone?_decideInstant, State.zone?_onZone_of hx, Option.map_some]
  exact ⟨_, _, rfl, fun j hj => Zone.decided_done _ i hj⟩

/-- An instant turns out incomplete at its deadline. -/
theorem State.instantIncomplete_expired {z : Nat} {x : Zone} (hx : s.zone? z = some x) (i : ZoneInstant) (c : ZoneCause) :
    (s.onZone z (·.foreignCounted i)).instantIncomplete z i c = (s.expired z i).zoneBlock z c (x.cfg.expected &&& ~~~i.contrib) := by
  simp only [State.instantIncomplete, State.zone?_onZone_of hx]
  rfl

/-- What the deadline of an instant does, by the frames that came for it. -/
theorem exec_diffDeadline {z : Nat} {x : Zone} {i : ZoneInstant} (hx : s.zone? z = some x) (due : s.overdue x = some i) :
    exec (.diffDeadline z) s = .next
      (let u := s.onZone z (·.foreignCounted i)
       if !i.foreign then u.instantIncomplete z i (if i.sat then .sat else if !i.bad.isEmpty then .incomplete else .noFrame)
       else if 2 ≤ x.cfgRun then u.instantIncomplete z i .cfg
       else (s.expired z i).onZone z Zone.countsAgain) := by
  show execDiffDeadline z s = _
  rw [State.overdue] at due
  simp only [execDiffDeadline, hx, due]
  rfl

/-- An instant that does not end on foreign frames, or is the third in a row that does, blocks its zone (R227). -/
theorem exec_diffDeadline_blocks {z : Nat} {x : Zone} {i : ZoneInstant} (hx : s.zone? z = some x) (due : s.overdue x = some i)
    (blocks : i.foreign = false ∨ 2 ≤ x.cfgRun) :
    exec (.diffDeadline z) s = .next ((s.expired z i).zoneBlock z i.cause (x.cfg.expected &&& ~~~i.contrib)) := by
  rw [exec_diffDeadline hx due]
  simp only [State.instantIncomplete_expired hx]
  cases foreign : i.foreign
  · simp [ZoneInstant.cause, foreign]
  · simp [ZoneInstant.cause, foreign, blocks.resolve_left (by simp [foreign])]

/-- The first and the second instant in a row with foreign frames alone only start the count of complete instants again. -/
theorem exec_diffDeadline_spares {z : Nat} {x : Zone} {i : ZoneInstant} (hx : s.zone? z = some x) (due : s.overdue x = some i)
    (foreign : i.foreign) (few : x.cfgRun < 2) :
    exec (.diffDeadline z) s = .next ((s.expired z i).onZone z Zone.countsAgain) := by
  rw [exec_diffDeadline hx due]
  simp [foreign, not_le.mpr few]

/-- Whatever blocks at a deadline, the count of complete instants starts again and no undecided instant stays at its place (R222, R227). -/
theorem exec_diffDeadline_decides (s : State) (z : Nat) (x : Zone) (i : ZoneInstant) (hx : s.zone? z = some x) (due : s.overdue x = some i) :
    ∃ t y, exec (.diffDeadline z) s = .next t ∧ t.zone? z = some y ∧ y.missing = x.missing ∧
      y.cfgRun = (if i.foreign then x.cfgRun + 1 else 0) ∧
      y.unblockLeft = x.cfg.unblockCount ∧ (∀ j ∈ y.instants, j.sec = i.sec → j.idx = i.idx → j.done = true) ∧
      (x.phase = .healthy → i.foreign = false ∨ 2 ≤ x.cfgRun →
        y.phase = .blocked ∧ y.cause = i.cause ∧ y.blocks = satInc 16 x.blocks ∧ t.diff.event = s.diff.event.raise 0) ∧
      (x.phase ≠ .healthy ∨ i.foreign ∧ x.cfgRun < 2 → y.phase = x.phase ∧ y.blocks = x.blocks ∧ t.diff.event = s.diff.event ∧ t.log = s.log) ∧
      OnlyTouches [.diff, .log] s t := by
  obtain ⟨l, c, closed, decides⟩ := State.zone?_expired hx i
  have again := State.zone?_onZone_of closed Zone.countsAgain
  by_cases blocks : i.foreign = false ∨ 2 ≤ x.cfgRun
  · have run := exec_diffDeadline_blocks hx due blocks
    have spared : ¬(i.foreign ∧ x.cfgRun < 2) := fun h => by simp [h.1, not_le.mpr h.2] at blocks
    by_cases healthy : x.phase = .healthy
    · have zone := State.zone?_zoneBlock_of_healthy closed healthy i.cause (x.cfg.expected &&& ~~~i.contrib)
      have event := State.zoneBlock_event closed healthy i.cause (x.cfg.expected &&& ~~~i.contrib)
      exact ⟨_, _, run, zone, rfl, rfl, rfl, decides, fun _ _ => ⟨rfl, rfl, rfl, event⟩,
        fun h => absurd (h.resolve_left (not_not.mpr healthy)) spared, (execDiffDeadline_kept z (.refl s)).frame run⟩
    · rw [State.zoneBlock_of_not_healthy closed healthy] at run
      exact ⟨_, _, run, again, rfl, rfl, rfl, decides, fun h => absurd h healthy,
        fun _ => ⟨rfl, rfl, rfl, rfl⟩, (execDiffDeadline_kept z (.refl s)).frame run⟩
  · obtain ⟨foreign, few⟩ : i.foreign = true ∧ x.cfgRun < 2 := by simpa using blocks
    have run := exec_diffDeadline_spares hx due foreign few
    exact ⟨_, _, run, again, rfl, rfl, rfl, decides, fun _ h => absurd h blocks,
      fun _ => ⟨rfl, rfl, rfl, rfl⟩, (execDiffDeadline_kept z (.refl s)).frame run⟩

/-! ### Addition (R213, R219) -/

theorem satAdd31_within (a b : Int) : -(2 ^ 31 - 1) ≤ (satAdd31 a b).1 ∧ (satAdd31 a b).1 ≤ 2 ^ 31 - 1 := by
  unfold satAdd31
  extract_lets x
  split
  · decide
  split
  · decide
  · omega

/-- Of CONTRIB a member sets its own bit alone. -/
theorem SumFrame.add_contrib (f : SumFrame) (m : Nat) (c : Contribution) (b : Int) (k : Nat) :
    (f.add m c b).contrib.getLsbD k = (f.contrib.getLsbD k || (decide (k < 64) && decide (m = k))) := by
  have bit : (BitVec.ofNat 64 (2 ^ m)).getLsbD k = (decide (k < 64) && decide (m = k)) := by rw [BitVec.getLsbD_ofNat, Nat.testBit_two_pow]
  rw [← bit, ← BitVec.getLsbD_or]
  rfl

theorem SumFrame.add_sum_within (f : SumFrame) (m : Nat) (c : Contribution) (b v : Int) (hv : v ∈ (f.add m c b).sum) :
    -(2 ^ 31 - 1) ≤ v ∧ v ≤ 2 ^ 31 - 1 := by
  obtain ⟨p, hp, rfl⟩ := List.mem_map.mp hv
  rw [← List.map_uncurry_zip_eq_zipWith] at hp
  obtain ⟨q, -, rfl⟩ := List.mem_map.mp hp
  exact satAdd31_within q.1 q.2

theorem SumFrame.add_sat (f : SumFrame) (m : Nat) (c : Contribution) (b : Int) (h : f.sat) : (f.add m c b).sat = true := by
  simp only [SumFrame.add, h, Bool.true_or]

end Sys2Proof.Machine
end

section
/-! SUPPORT. The launch of sum frames: what the sending of a frame leaves of the zones, and what the launch time decides
(spec/06_differential_sum_frames.md R214, R218, R221, R223, R224, R227). -/

namespace Sys2Proof.Machine

set_option Elab.async false

open Sys2Proof

variable {s : State}

/-! ### Sending (R221) -/

/-- A frame that leaves changes nothing of DIFF. -/
theorem State.sumOut_diff (s : State) (r : ZoneRing) (i : Nat) (f : SumFrame) (spoilt : Bool) : (s.sumOut r i f spoilt).diff = s.diff :=
  (State.sumOut_kept (M := (· ∈ [.net, .adeid])) r i f spoilt (.refl s)).parts .diff (by simp)

/-- Of DIFF the forwarding of a frame changes counters and the event register alone. -/
theorem State.zone?_sumForward (s : State) (r : ZoneRing) (i : Nat) (f : SumFrame) (z : Nat) : (s.sumForward r i f).zone? z = s.zone? z := by
  have out (u : State) (j : Nat) (g : SumFrame) : (u.sumOut r j g).zone? z = u.zone? z := by rw [State.zone?, State.sumOut_diff]; rfl
  unfold State.sumForward
  extract_lets o u
  split
  · exact out s o f
  split
  · rfl
  split
  · exact out u i _
  · rfl

/-- With its ring up, a frame goes on through the other port. -/
theorem State.sumForward_of_up {r : ZoneRing} {i : Nat} (up : s.ringUp r (ringOther i)) (f : SumFrame) :
    s.sumForward r i f = s.sumOut r (ringOther i) f := if_pos up

/-! ### What a launch decides of a zone (R223, R224) -/

/-- What a launch decides of a zone, and no sending of frames changes. -/
structure ZoneCourse where
  launched : Option Nat
  quiet : Nat
  stepDown : Bool
  heading : Bool
  phase : ZonePhase
  totals : List ZoneTotals

def Zone.course (x : Zone) : ZoneCourse where
  launched := x.launched
  quiet := x.quiet
  stepDown := x.stepDown
  heading := x.heading
  phase := x.phase
  totals := x.totals

/-- The course of a zone slot. -/
def State.zoneCourse (s : State) (z : Nat) : Option ZoneCourse := (s.zone? z).map Zone.course

theorem State.zoneCourse_onZone (s : State) (z : Nat) {f : Zone → Zone} (hf : ∀ x, (f x).course = x.course) :
    (s.onZone z f).zoneCourse z = s.zoneCourse z := by
  rw [State.zoneCourse, State.zone?_onZone_self, Option.map_map]
  exact congrArg (Option.map · _) (funext hf)

/-- Whether the member adds its contribution or withholds it, the course of the zone stays (R214). -/
theorem State.zoneCourse_addOwn (s : State) (z : Nat) (x : Zone) (f : SumFrame) : (s.addOwn z x f).1.zoneCourse z = s.zoneCourse z := by
  unfold State.addOwn
  split
  · rfl
  split
  · rfl
  split
  · exact State.zoneCourse_onZone s z fun _ => rfl
  · next c _ =>
    have added : ((s.onZone z fun y => { y with chgUncomp := !c.vValid }).onInstant z f.sec f.idx fun i => { i with added := true }).zoneCourse z =
        s.zoneCourse z := by
      rw [State.onInstant, State.zoneCourse_onZone _ _ fun _ => by rfl, State.zoneCourse_onZone _ _ fun _ => by rfl]
    extract_lets g u
    dsimp only
    split
    · exact added
    · exact added

/-! ### The launch (R218, R223) -/

/-- The launch time of a sum instant passes. -/
def Zone.launchPassed (x : Zone) (n : Nat) : Zone := { x with launched := some n, quiet := x.quiet + 1 }

/-- Whether the device heads from now on. -/
def Zone.heads (x : Zone) (h : Bool) : Zone := { x with heading := h, stepDown := false }

/-- A candidate's launch time: the estimate is judged, the time is counted, and whether the device heads is decided. -/
def State.launchDecided (s : State) (z n : Nat) (h : Bool) : State := (s.diffJoin.onZone z (·.launchPassed n)).onZone z (·.heads h)

/-- A head sends copies A and B with its own contribution (R218). -/
def State.headSends (s : State) (z : Nat) (x : Zone) (e : DiffEntry) : State :=
  let s := s.when (!x.heading) fun s => s.headChange z x.curHeadDev s.sec.device
  let f : SumFrame :=
    { zoneId := x.cfg.zoneId, headDev := s.sec.device, headRank := x.rank.getD 0, alive := sumNumber e.sec e.idx % 256
      nmemb := x.cfg.members.length, sec := e.sec, idx := e.idx, cfgTag := x.cfgTag }
  let r := s.addOwn z x f
  let s := r.1.sumForward x.cfg.ring 1 r.2
  s.sumForward x.cfg.ring (match x.cfg.ring with | .hsr _ => 0 | .adeid => 3) { r.2 with copyB := true }

theorem State.zoneCourse_headSends (s : State) (z : Nat) (x : Zone) (e : DiffEntry) : (s.headSends z x e).zoneCourse z = s.zoneCourse z := by
  have forwards (u : State) (r : ZoneRing) (i : Nat) (f : SumFrame) : (u.sumForward r i f).zoneCourse z = u.zoneCourse z :=
    congrArg (Option.map Zone.course) (u.zone?_sumForward r i f z)
  unfold State.headSends
  extract_lets u f r v
  rw [forwards, forwards, State.zoneCourse_addOwn]
  unfold u
  cases x.heading
  · rfl
  · rfl

/-- The conditions of heading do not ask for what blocks a zone (R223). -/
theorem State.canHead_ptpJudged (s : State) (x : Zone) (e : Num) (n : Nat) :
    s.canHead ((x.ptpJudged e).launchPassed n) = s.canHead (x.launchPassed n) := by
  obtain ⟨u, p, k, b, eq⟩ := x.ptpJudged_cases e
  rw [eq]
  rfl

/-- In DEGRADED no device heads (R104). -/
theorem State.canHead_of_degraded (h : s.clk.degraded) (x : Zone) : s.canHead x = false := by simp [State.canHead, h]

/-- A candidate's launch time in the words of the stages above. -/
theorem exec_diffLaunch {z : Nat} {x : Zone} {e : DiffEntry} (hx : s.zone? z = some x) (due : s.launchDue x = some e) (candidate : x.rank.isSome) :
    exec (.diffLaunch z) s = .next
      (let h := s.diffJoin.canHead (x.launchPassed (sumNumber e.sec e.idx))
       let u := s.launchDecided z (sumNumber e.sec e.idx) h
       if !h then u else u.headSends z x e) := by
  have judged : s.diffJoin.zone? z = some (x.ptpJudged s.ptpErr) := by rw [State.diffJoin_zone?, hx, Option.map_some]
  have heads : ((s.diffJoin.onZone z (·.launchPassed (sumNumber e.sec e.idx))).zone? z).any
      (s.diffJoin.onZone z (·.launchPassed (sumNumber e.sec e.idx))).canHead = s.diffJoin.canHead (x.launchPassed (sumNumber e.sec e.idx)) := by
    rw [State.zone?_onZone_of judged]
    exact State.canHead_ptpJudged ..
  rw [← heads]
  show execDiffLaunch z s = _
  simp -zeta only [execDiffLaunch, hx, due]
  exact congrArg Host.Outcome.next (if_neg (by simp [Option.isSome_iff_ne_none.mp candidate]))

/-- At ZONE_LAUNCH a candidate counts the launch time and decides whether it heads; only a head sends. -/
theorem exec_diffLaunch_decides (s : State) (z : Nat) (x : Zone) (e : DiffEntry) (hx : s.zone? z = some x) (due : s.launchDue x = some e)
    (candidate : x.rank.isSome) :
    ∃ t y, exec (.diffLaunch z) s = .next t ∧ t.zone? z = some y ∧ y.launched = some (sumNumber e.sec e.idx) ∧ y.quiet = x.quiet + 1 ∧
      y.stepDown = false ∧ y.totals = x.totals ∧
      y.phase = (if 2000 < s.ptpErr.mag ∧ x.phase = .healthy then .blocked else x.phase) ∧
      y.heading = s.diffJoin.canHead (x.launchPassed (sumNumber e.sec e.idx)) ∧
      (y.heading = false → t.net = s.net ∧ t.adeid = s.adeid ∧ y.instants = x.instants ∧ (s.ptpErr.mag ≤ 2000 → t.log = s.log)) ∧
      (s.clk.degraded → y.heading = false) ∧ OnlyTouches [.diff, .log, .net, .adeid] s t := by
  have run := exec_diffLaunch hx due candidate
  have frame := fun t (h : exec (.diffLaunch z) s = .next t) => (execDiffLaunch_kept (M := (· ∈ [.diff, .log, .net, .adeid])) z (.refl s)).frame h
  obtain ⟨u, p, k, b, judged⟩ := x.ptpJudged_cases s.ptpErr
  have phase := x.ptpJudged_phase s.ptpErr
  rw [judged] at phase
  have joined : s.diffJoin.zone? z = some { x with unblockLeft := u, phase := p, cause := k, blocks := b } := by
    rw [State.diffJoin_zone?, hx, Option.map_some, judged]
  have decided (h : Bool) := State.zone?_onZone_of (State.zone?_onZone_of joined (·.launchPassed (sumNumber e.sec e.idx))) (·.heads h)
  have headless : s.clk.degraded → s.diffJoin.canHead (x.launchPassed (sumNumber e.sec e.idx)) = false := fun d =>
    State.canHead_of_degraded (by rw [s.diffJoin_touches.parts .clk (by simp)]; exact d) _
  cases h : s.diffJoin.canHead (x.launchPassed (sumNumber e.sec e.idx))
  · rw [h] at run
    have near : s.ptpErr.mag ≤ 2000 → s.diffJoin.log = s.log := fun near => by rw [State.diffJoin_of_near near]; rfl
    exact ⟨_, _, run, decided false, rfl, rfl, rfl, rfl, phase, rfl,
      fun _ => ⟨s.diffJoin_touches.parts .net (by simp), s.diffJoin_touches.parts .adeid (by simp), rfl, near⟩, fun _ => rfl, frame _ run⟩
  · rw [h] at run
    have course : ((s.launchDecided z (sumNumber e.sec e.idx) true).headSends z x e).zoneCourse z = _ :=
      (State.zoneCourse_headSends ..).trans (congrArg (Option.map Zone.course) (decided true))
    obtain ⟨y, hy, same⟩ := Option.map_eq_some_iff.mp course
    have heading : y.heading = true := congrArg ZoneCourse.heading same
    exact ⟨_, y, run, hy, congrArg ZoneCourse.launched same, congrArg ZoneCourse.quiet same, congrArg ZoneCourse.stepDown same,
      congrArg ZoneCourse.totals same, (congrArg ZoneCourse.phase same).trans phase, heading, fun g => by simp [heading] at g,
      fun d => absurd (headless d) (by simp [h]), frame _ run⟩

end Sys2Proof.Machine
end

section
/-! SUPPORT. The reception of sum frames: frames of zones that are not created, frames with bad checks, complete totals
(spec/06_differential_sum_frames.md R215, R217, R219, R222, R229). -/

namespace Sys2Proof.Machine

set_option Elab.async false

open Sys2Proof

variable {s : State}

/-! ### Ports of a ring (R215, R221) -/

theorem State.ringUp_congr {u : State} (hm : u.manifest = s.manifest) (hn : u.net = s.net) (ha : u.adeid = s.adeid) (r : ZoneRing) (i : Nat) :
    u.ringUp r i = s.ringUp r i := by
  cases r with
  | hsr k => simp only [State.ringUp, State.pairCfg?, State.netCfg, State.portUp, State.port?, hm, hn]
  | adeid => exact congrArg (fun a => decide ((nth a.links i {}).phase = .up)) ha

/-- The ports of a ring do not change with the estimate. -/
theorem State.diffJoin_ringUp (s : State) (r : ZoneRing) (i : Nat) : s.diffJoin.ringUp r i = s.ringUp r i :=
  State.ringUp_congr (s.diffJoin_touches.parts .manifest (by simp)) (s.diffJoin_touches.parts .net (by simp))
    (s.diffJoin_touches.parts .adeid (by simp)) r i

/-- A sum frame with the header that a zone declaration gives it, or with the one it came with (R215). -/
def SumFrame.tx (f : SumFrame) (spoilt : Bool) : Option ZoneCfg → SumTx
  | some c => { frame := f, group := c.groupMac, vid := c.vid, etherType := c.etherType, spoilt := spoilt }
  | none => { frame := f, spoilt := spoilt }

/-- On a pair the header of a frame is that of the declaration of its zone (R215). -/
theorem State.sumOut_hsr {k : Nat} {p : PairCfg} (hp : s.pairCfg? k = some p) (i : Nat) (f : SumFrame) (spoilt : Bool) :
    s.sumOut (.hsr k) i f spoilt = (s.onNet fun x =>
      { x with
        sent := x.sent ++ [.sum (if i = 0 then p.first else p.second)
          (f.tx spoilt ((s.diff.zones.map (·.cfg)).find? fun c => decide (c.zoneId = f.zoneId ∧ c.ring = .hsr k)))] }).onPort
      (if i = 0 then p.first else p.second) fun x => { x with txFrames := x.txFrames + 1 } := by
  simp only [State.sumOut, hp, List.find?_map, Function.comp_def]
  cases s.diff.zones.find? fun z => decide (z.cfg.zoneId = f.zoneId ∧ z.cfg.ring = .hsr k) <;> rfl

/-- What leaves through a port is a matter of the Manifest, the ports and the declarations of the zones. -/
theorem State.sumOut_congr {u : State} (hm : u.manifest = s.manifest) (hn : u.net = s.net) (ha : u.adeid = s.adeid)
    (hz : u.diff.zones.map (·.cfg) = s.diff.zones.map (·.cfg)) (r : ZoneRing) (i : Nat) (f : SumFrame) (spoilt : Bool) :
    (u.sumOut r i f spoilt).net = (s.sumOut r i f spoilt).net ∧ (u.sumOut r i f spoilt).adeid = (s.sumOut r i f spoilt).adeid := by
  cases r with
  | hsr k =>
    have pair : u.pairCfg? k = s.pairCfg? k := by rw [State.pairCfg?, State.netCfg, hm]; rfl
    cases hp : s.pairCfg? k with
    | none =>
      simp only [State.sumOut, pair, hp]
      exact ⟨hn, ha⟩
    | some p =>
      rw [State.sumOut_hsr hp, State.sumOut_hsr (pair.trans hp), hz]
      simp only [State.onPort, State.onNet_net, State.onNet_adeid, hn, ha, and_self]
  | adeid => simp only [State.sumOut, State.adeidPut, State.onLink, State.onAdeid, hn, ha, and_self]

/-- A frame whose forwarding has begun ends spoilt (R217). -/
theorem State.sumSpoil_of_begun {r : ZoneRing} {i : Nat} (begun : s.diff.passOnly = false) (up : s.ringUp r (ringOther i)) (f : SumFrame) :
    s.sumSpoil r i f = s.sumOut r (ringOther i) { f with hops := (f.hops + 1) % 256 } true := if_pos (by simp [begun, up])

/-- Nothing leaves of a frame whose forwarding has not begun. -/
theorem State.sumSpoil_of_held {r : ZoneRing} {i : Nat} (held : s.diff.passOnly ∨ s.ringUp r (ringOther i) = false) (f : SumFrame) :
    s.sumSpoil r i f = s := if_neg (by simpa [or_iff_not_imp_left] using held)

theorem State.sumSpoil_diff (s : State) (r : ZoneRing) (i : Nat) (f : SumFrame) : (s.sumSpoil r i f).diff = s.diff :=
  State.when_keeps State.diff (fun _ => State.sumOut_diff ..) s _

/-! ### The tests of every device (R217, R229) -/

/-- The slot of the zone that a frame belongs to. -/
def State.slotOf (s : State) (x : SumIn) : Nat :=
  s.diff.zones.findIdx fun z => decide (z.cfg.zoneId = x.frame.zoneId ∧ z.cfg.ring = x.ring)

/-- A frame is admitted within the allowance of its zone and port (R229). -/
def State.frameCounted (s : State) (x : SumIn) : State := s.onZone (s.slotOf x) fun z => { z with admitted := updAt z.admitted x.port (· + 1) }

theorem State.frameCounted_cfgs (s : State) (x : SumIn) : (s.frameCounted x).diff.zones.map (·.cfg) = s.diff.zones.map (·.cfg) := by
  refine List.ext_getElem? fun i => ?_
  by_cases h : s.slotOf x = i <;> simp [State.frameCounted, State.onZone, updAt, h, Function.comp_def]

/-- A bad check value is counted, in DIFF and on its path (R217). -/
def State.sumCheckFailed (s : State) : State := ((s.onDiff fun d => { d with checkFail := satInc 32 d.checkFail }).raise .diff 3).pathFail 0

theorem State.sumCheckFailed_diff (s : State) : s.sumCheckFailed.diff =
    { s.diff with checkFail := satInc 32 s.diff.checkFail, event := s.diff.event.raise 3 } := rfl

/-- A frame has passed one more device. -/
def SumFrame.hop (f : SumFrame) : SumFrame := { f with hops := f.hops + 1 }

/-- A frame that has passed the tests goes to its zone, or goes on when the device has not created it (R219, R229). -/
def State.sumPassed (s : State) (x : SumIn) (zi : Nat) : Option Zone → State
  | none => s.sumForward x.ring x.port x.frame.hop
  | some z => s.sumMember zi z x.ring x.port x.frame.hop

/-- What a device does with a frame that its ring brings and the allowance admits, by its check value and by its zone. -/
theorem exec_sumFrameRx {x : SumIn} (up : s.ringUp x.ring x.port)
    (room : ∀ z, s.diffJoin.zone? (s.diffJoin.slotOf x) = some z → nth z.admitted x.port 0 < 8) :
    exec (.sumFrameRx x) s = .next
      (let u := s.diffJoin.frameCounted x
       if !x.checkOk then u.sumCheckFailed.sumSpoil x.ring x.port x.frame
       else if x.frame.alive ≠ sumNumber x.frame.sec x.frame.idx % 256 then
         ((u.onDiff fun d => { d with aliveBad := satInc 16 d.aliveBad }).raise .diff 4).sumSpoil x.ring x.port x.frame
       else if 255 ≤ x.frame.hops then u.hopLimit
       else u.sumPassed x (s.diffJoin.slotOf x) (s.diffJoin.zone? (s.diffJoin.slotOf x))) := by
  have allowed : ¬8 ≤ ((s.diffJoin.zone? (s.diffJoin.slotOf x)).map fun z => nth z.admitted x.port 0).getD 0 := by
    cases hz : s.diffJoin.zone? (s.diffJoin.slotOf x) with
    | none => simp
    | some z => simpa using room z hz
  show Host.Outcome.next (s.sumRx x) = _
  refine congrArg Host.Outcome.next ?_
  unfold State.sumRx
  rw [if_neg (by simp [up])]
  exact if_neg allowed

/-- A frame that passes the tests (R217). -/
theorem exec_sumFrameRx_passes {x : SumIn} (up : s.ringUp x.ring x.port)
    (room : ∀ z, s.diffJoin.zone? (s.diffJoin.slotOf x) = some z → nth z.admitted x.port 0 < 8) (check : x.checkOk)
    (alive : x.frame.alive = sumNumber x.frame.sec x.frame.idx % 256) (hops : x.frame.hops < 255) :
    exec (.sumFrameRx x) s = .next ((s.diffJoin.frameCounted x).sumPassed x (s.diffJoin.slotOf x) (s.diffJoin.zone? (s.diffJoin.slotOf x))) := by
  rw [exec_sumFrameRx up room]
  simp [check, alive, not_le.mpr hops]

/-! ### Frames of zones that are not created (R229) -/

theorem exec_sumFrameRx_uncreated (s : State) (x : SumIn) (up : s.ringUp x.ring x.port)
    (uncreated : ∀ z ∈ s.diff.zones, z.cfg.zoneId ≠ x.frame.zoneId ∨ z.cfg.ring ≠ x.ring) (check : x.checkOk)
    (alive : x.frame.alive = sumNumber x.frame.sec x.frame.idx % 256) (hops : x.frame.hops < 255) (on : s.ringUp x.ring (ringOther x.port)) :
    exec (.sumFrameRx x) s = .next (s.diffJoin.sumOut x.ring (ringOther x.port) x.frame.hop) := by
  have out : s.diffJoin.slotOf x = s.diffJoin.diff.zones.length := by
    rw [State.slotOf, List.findIdx_eq_length, State.diffJoin_zones]
    intro z hz
    obtain ⟨y, hy, rfl⟩ := List.mem_map.mp hz
    rw [Zone.ptpJudged_cfg, decide_eq_false_iff_not, not_and_or]
    exact uncreated y hy
  have absent : s.diffJoin.zone? (s.diffJoin.slotOf x) = none := by rw [State.zone?, out, List.getElem?_length]
  rw [exec_sumFrameRx_passes up (fun z hz => by simp [absent] at hz) check alive hops, absent, State.frameCounted, State.onZone_of_none absent]
  exact congrArg Host.Outcome.next (State.sumForward_of_up (by rw [State.diffJoin_ringUp, on]) _)

/-! ### Frames with bad checks (R217) -/

theorem exec_sumFrameRx_badCheck (s : State) (x : SumIn) (up : s.ringUp x.ring x.port) (room : ∀ z ∈ s.diff.zones, nth z.admitted x.port 0 < 8)
    (bad : x.checkOk = false) (near : s.ptpErr.mag ≤ 2000) :
    ∃ t, exec (.sumFrameRx x) s = .next t ∧ t.diff.checkFail = satInc 32 s.diff.checkFail ∧ t.diff.event = s.diff.event.raise 3 ∧
      (s.diff.passOnly ∨ s.ringUp x.ring (ringOther x.port) = false → t.net = s.net ∧ t.adeid = s.adeid) ∧
      (s.diff.passOnly = false → s.ringUp x.ring (ringOther x.port) →
        let u := s.sumOut x.ring (ringOther x.port) { x.frame with hops := (x.frame.hops + 1) % 256 } true
        t.net = u.net ∧ t.adeid = u.adeid) ∧ OnlyTouches [.diff, .log, .net, .chk, .adeid] s t := by
  have run := exec_sumFrameRx (s := s) up fun z hz => by
    rw [State.diffJoin_of_near near] at hz
    exact room z (List.mem_of_getElem? hz)
  simp only [bad, Bool.not_false, if_true, State.diffJoin_of_near near] at run
  have kept : Kept (· ∈ [.diff, .chk]) s (s.ptpTaken.frameCounted x).sumCheckFailed :=
    State.pathFail_kept _ (State.raise_kept _ _ (State.onDiff_kept (State.onZone_kept _ _ (State.onDiff_kept (.refl s) _)) _))
  have manifest := kept.parts .manifest (by simp)
  have net := kept.parts .net (by simp)
  have adeid := kept.parts .adeid (by simp)
  have ports := State.ringUp_congr manifest net adeid x.ring (ringOther x.port)
  have passOnly : (s.ptpTaken.frameCounted x).sumCheckFailed.diff.passOnly = s.diff.passOnly := by rw [State.sumCheckFailed_diff]; rfl
  refine ⟨_, run, ?_, ?_, fun held => ?_, fun begun on => ?_, (execSumFrameRx_kept x (.refl s)).frame run⟩
  · rw [State.sumSpoil_diff, State.sumCheckFailed_diff]
    rfl
  · rw [State.sumSpoil_diff, State.sumCheckFailed_diff]
    rfl
  · have spares := State.sumSpoil_of_held (f := x.frame) (passOnly.symm ▸ ports.symm ▸ held)
    rw [spares]
    exact ⟨net, adeid⟩
  · have spoilt := State.sumSpoil_of_begun (passOnly.trans begun) (ports.trans on) x.frame
    rw [spoilt]
    exact State.sumOut_congr manifest net adeid (s.ptpTaken.frameCounted_cfgs x) ..

/-! ### Complete totals (R219, R222) -/

/-- An instant that a zone does not hold yet is entered at its front. -/
theorem Zone.enter_fresh {x : Zone} {sec idx : Nat} (fresh : ∀ i ∈ x.instants, i.sec ≠ sec ∨ i.idx ≠ idx) :
    x.enter sec idx = { x with instants := { sec, idx, time := sumTime sec idx } :: x.instants.take 63 } := by
  rw [Zone.enter, if_neg]
  · rfl
  · simpa [or_iff_not_imp_left] using fresh

/-- The totals that a frame brings at a time (R222). -/
def SumFrame.totals (f : SumFrame) (t : Ns) : ZoneTotals :=
  { sec := f.sec, idx := f.idx, sum := f.sum, restr := f.restr, uncomp := f.uncomp, chgMask := f.chgMask, contrib := f.contrib
    headDev := f.headDev, headRank := f.headRank, at_ := t }

/-- Complete totals in time are kept for evaluation, and their instant is decided (R222). -/
def State.totalsKept (s : State) (zi : Nat) (i : ZoneInstant) (f : SumFrame) : State :=
  (s.decideInstant zi i).onZone zi fun z => { z with totals := z.totals ++ [f.totals s.now], cfgRun := 0 }

theorem State.takeTotals_complete {zi : Nat} {y : Zone} {i : ZoneInstant} {f : SumFrame} (hy : s.zone? zi = some y)
    (hi : y.instant? f.sec f.idx = some i) (undecided : i.done = false) (inTime : s.ltc ≤ i.time + y.cfg.deadlineNs)
    (complete : f.incomplete = false) (unsat : f.sat = false) : s.takeTotals zi y f = s.totalsKept zi i f := by
  have found : ((s.zone? zi).bind fun z => z.instant? f.sec f.idx) = some i := by rw [hy, Option.bind_some, hi]
  simp only [State.takeTotals, found, undecided, complete, unsat, Bool.false_eq_true, false_or, not_lt.mpr inTime, if_false, Bool.or_self]
  rfl

/-- What of the frames of an instant a zone notes: whether one with the own CFG_TAG has come, and one with another (R227). -/
def ZoneInstant.noted (i : ZoneInstant) (own : Bool) : ZoneInstant :=
  { i with anyFrame := true, cfgOk := i.cfgOk || own, cfgBad := i.cfgBad || !own }

/-- The first frame for an instant enters it, undecided. -/
theorem Zone.instant?_entered {x : Zone} {sec idx : Nat} (fresh : ∀ i ∈ x.instants, i.sec ≠ sec ∨ i.idx ≠ idx) (own : Bool) :
    ((x.enter sec idx).onInstant sec idx (·.noted own)).instant? sec idx =
      some (({ sec, idx, time := sumTime sec idx } : ZoneInstant).noted own) := by
  rw [Zone.enter_fresh fresh]
  simp [Zone.onInstant, Zone.instant?, ZoneInstant.noted]

/-- The instant of a frame is entered, and the frame noted. -/
def State.noteFrame (s : State) (zi : Nat) (f : SumFrame) (own : Bool) : State :=
  (s.onZone zi fun z => z.enter f.sec f.idx).onInstant zi f.sec f.idx fun i => i.noted own

theorem State.zone?_noteFrame {zi : Nat} {z : Zone} {f : SumFrame} (hz : s.zone? zi = some z)
    (fresh : ∀ i ∈ z.instants, i.sec ≠ f.sec ∨ i.idx ≠ f.idx) (own : Bool) : ∃ l, (s.noteFrame zi f own).zone? zi = some { z with instants := l } ∧
      { z with instants := l }.instant? f.sec f.idx =
        some (({ sec := f.sec, idx := f.idx, time := sumTime f.sec f.idx } : ZoneInstant).noted own) := by
  have entered := Zone.instant?_entered fresh own
  rw [Zone.enter_fresh fresh] at entered
  rw [State.noteFrame, State.zone?_onInstant_self, State.zone?_onZone_of hz, Option.map_some, Zone.enter_fresh fresh]
  exact ⟨_, rfl, entered⟩

/-- A second-lap frame with the own CFG_TAG that another device converted goes on, and its totals are taken when it is in time (R220, R222). -/
theorem State.sumMember_second_lap {zi : Nat} {z y : Zone} {i : ZoneInstant} {f : SumFrame} (lap2 : f.lap2) (own : f.cfgTag = z.cfgTag)
    (other : f.convDev ≠ s.sec.device) (hy : (s.noteFrame zi f true).zone? zi = some y) (hi : y.instant? f.sec f.idx = some i)
    (inTime : s.ltc ≤ i.time + y.cfg.deadlineNs) (r : ZoneRing) (port : Nat) :
    s.sumMember zi z r port f = ((s.noteFrame zi f true).takeTotals zi y f).sumForward r port f := by
  have stages : s.sumMember zi z r port f =
      (let u := s.noteFrame zi f true
       let w := (u.zone? zi).getD z
       if f.convDev = u.sec.device ∧ (f.turn = f.convTurn ∨ f.turn = f.convTurn + 2) then u
       else if (w.instant? f.sec f.idx).any fun i => decide (i.time + w.cfg.deadlineNs < u.ltc) then
         (u.onDiff fun d => { d with late := satInc 32 d.late }).raise .diff 6
       else (u.takeTotals zi w f).sumForward r port f) := by
    simp -zeta only [State.sumMember, decide_eq_true own, lap2]
    rfl
  have late : ((y.instant? f.sec f.idx).any fun i => decide (i.time + y.cfg.deadlineNs < (s.noteFrame zi f true).ltc)) = false := by
    rw [hi, Option.any_some]
    exact decide_eq_false (not_lt.mpr inTime)
  rw [stages]
  simp only [hy, Option.getD_some, late]
  exact if_neg fun h => other h.1

theorem State.zone?_totalsKept {zi : Nat} {y : Zone} (hy : s.zone? zi = some y) (i : ZoneInstant) (f : SumFrame) : ∃ l c,
    (s.totalsKept zi i f).zone? zi =
      some { y with instants := l, contributing := c, totals := y.totals ++ [f.totals s.now], cfgRun := 0 } := by
  obtain ⟨l, c, decided⟩ := y.decided_cases i
  rw [State.totalsKept, State.zone?_onZone_self, State.zone?_decideInstant, hy, Option.map_some, Option.map_some, decided]
  exact ⟨l, c, rfl⟩

/-- The first complete totals of an instant that come in time are kept for evaluation once, and the instant is decided. -/
theorem exec_sumFrameRx_complete (s : State) (x : SumIn) (zi : Nat) (z : Zone) (up : s.ringUp x.ring x.port) (slot : s.slotOf x = zi)
    (hz : s.zone? zi = some z) (room : nth z.admitted x.port 0 < 8) (check : x.checkOk)
    (alive : x.frame.alive = sumNumber x.frame.sec x.frame.idx % 256) (hops : x.frame.hops < 255) (lap2 : x.frame.lap2)
    (complete : x.frame.incomplete = false) (unsat : x.frame.sat = false) (own : x.frame.cfgTag = z.cfgTag)
    (other : x.frame.convDev ≠ s.sec.device) (fresh : ∀ i ∈ z.instants, i.sec ≠ x.frame.sec ∨ i.idx ≠ x.frame.idx)
    (inTime : s.ltc ≤ sumTime x.frame.sec x.frame.idx + z.cfg.deadlineNs) (near : s.ptpErr.mag ≤ 2000) :
    ∃ t y, exec (.sumFrameRx x) s = .next t ∧ t.zone? zi = some y ∧ y.cfgRun = 0 ∧ y.phase = z.phase ∧
      y.totals = z.totals ++ [x.frame.totals s.now] ∧ OnlyTouches [.diff, .net, .adeid] s t := by
  have join := State.diffJoin_of_near near
  have slot' : s.ptpTaken.slotOf x = zi := slot
  have zone' : s.ptpTaken.zone? zi = some z := hz
  have run := exec_sumFrameRx_passes (s := s) up
    (fun w hw => by rw [join, slot', zone', Option.some_inj] at hw; exact hw ▸ room) check alive hops
  simp only [join, slot', zone', State.sumPassed] at run
  have admitted : (s.ptpTaken.frameCounted x).zone? zi = some { z with admitted := updAt z.admitted x.port (· + 1) } := by
    rw [State.frameCounted, slot']
    exact State.zone?_onZone_of zone' _
  obtain ⟨l, noted, entered⟩ := State.zone?_noteFrame (f := x.frame.hop) admitted fresh true
  have seen : Kept (· ∈ [.diff, .net, .adeid]) s (s.ptpTaken.frameCounted x) := State.onZone_kept _ _ (State.onDiff_kept (.refl s) _)
  have touched : Kept (· ∈ [.diff, .net, .adeid]) s ((s.ptpTaken.frameCounted x).noteFrame zi x.frame.hop true) :=
    State.onInstant_kept _ _ _ _ (State.onZone_kept _ _ seen)
  have sec : (s.ptpTaken.frameCounted x).sec = s.sec := seen.parts .sec (by simp)
  have ltc : (s.ptpTaken.frameCounted x).ltc = s.ltc := seen.parts .ltc (by simp)
  have now : ((s.ptpTaken.frameCounted x).noteFrame zi x.frame.hop true).now = s.now := touched.parts .now (by simp)
  have timely : (s.ptpTaken.frameCounted x).ltc ≤ sumTime x.frame.sec x.frame.idx + z.cfg.deadlineNs := ltc.trans_le inTime
  have goes := State.sumMember_second_lap (z := z) (f := x.frame.hop) lap2 own (by rw [sec]; exact other) noted entered timely x.ring x.port
  have taken := State.takeTotals_complete noted entered rfl timely complete unsat
  rw [goes, taken] at run
  obtain ⟨l', c, kept⟩ := State.zone?_totalsKept noted
    (({ sec := x.frame.sec, idx := x.frame.idx, time := sumTime x.frame.sec x.frame.idx } : ZoneInstant).noted true) x.frame.hop
  rw [now] at kept
  exact ⟨_, _, run, (State.zone?_sumForward ..).trans kept, rfl, rfl, rfl,
    (State.sumForward_kept _ _ _ (State.onZone_kept _ _ (State.decideInstant_kept _ _ touched))).frame⟩

/-- Settles O15: a launch, a frame and a deadline are each one change of the zone they concern, and only a HEALTHY zone can block. -/
theorem zonesPassSumsAndBlockWhenLate : Obligations.ZonesPassSumsAndBlockWhenLate := by
  refine ⟨exec_diffLaunch_decides, exec_sumFrameRx_uncreated, exec_sumFrameRx_badCheck, exec_sumFrameRx_complete, fun f m c b hm => ?_,
    exec_diffDeadline_decides⟩
  refine ⟨?_, fun k hk => ?_, f.add_sum_within m c b, f.add_sat m c b⟩
  · rw [SumFrame.add_contrib, decide_eq_true hm, decide_eq_true rfl, Bool.and_self, Bool.or_true]
  · rw [SumFrame.add_contrib, decide_eq_false hk.symm, Bool.and_false, Bool.or_false]

end Sys2Proof.Machine
end

section
/-! SUPPORT. Forming units by their number: changes of one unit, transitions, the commands that wait for a boundary, and what the unit does by itself
(spec/07_forming_engine.md R258 to R265, R272). -/

namespace Sys2Proof.Machine

open Sys2Proof

variable {s : State} {u : Nat} {x : FormUnit}

/-! ### Units by their number -/

theorem State.fu?_onUnit {f : FormUnit → FormUnit} (hf : ∀ y, (f y).cfg = y.cfg) : (s.onUnit u f).fu? u = (s.fu? u).map f :=
  find?_map_if _ _ _ fun y => by rw [hf]

/-- A change that keeps the configuration changes the unit of that number. -/
theorem State.fu?_onUnit_of (hx : s.fu? u = some x) {f : FormUnit → FormUnit} (hf : ∀ y, (f y).cfg = y.cfg) :
    (s.onUnit u f).fu? u = some (f x) := by
  rw [State.fu?_onUnit hf, hx, Option.map_some]

/-! ### The unit as a transition leaves it (R244, R251, R259) -/

section
variable (x s) (p : FormPhase)

@[simp] theorem FormUnit.enter_cfg : (x.enter s p).cfg = x.cfg := by simp [FormUnit.enter, apply_ite FormUnit.cfg]
@[simp] theorem FormUnit.enter_phase : (x.enter s p).phase = p := by simp [FormUnit.enter, apply_ite FormUnit.phase]
@[simp] theorem FormUnit.enter_stateSince : (x.enter s p).stateSince = s.now := by simp [FormUnit.enter, apply_ite FormUnit.stateSince]
@[simp] theorem FormUnit.enter_frt : (x.enter s p).frt = x.frt := by simp [FormUnit.enter, apply_ite FormUnit.frt]
@[simp] theorem FormUnit.enter_readySince : (x.enter s p).readySince = if p = .ready then some s.now else none := by
  simp [FormUnit.enter, apply_ite FormUnit.readySince]

end

/-- A rotor that runs goes on as it is (R244). -/
theorem FormUnit.enter_rotor (runs : x.rotorRuns) (p : FormPhase) : (x.enter s p).rotor = x.rotor := by
  simp [FormUnit.enter, apply_ite FormUnit.rotor, runs]

/-- Pulses that stay enabled leave the controllers as they are. -/
theorem FormUnit.enter_loops {p : FormPhase} (before : x.phase.pulses) (after : p.pulses) : (x.enter s p).loops = x.loops := by
  simp [FormUnit.enter, apply_ite FormUnit.loops, before, after]

/-- With its pulses blocked the unit's limiter is free (R251). -/
theorem FormUnit.enter_limiter {p : FormPhase} (blocked : p.pulses = false) : (x.enter s p).loops.limiter = .free := by
  simp [FormUnit.enter, apply_ite FormUnit.loops, blocked]

/-! ### Transitions (R258, R259, R261) -/

/-- No capture condition names the entry into this state. -/
def FormPhase.quiet (p : FormPhase) : Bool := decide ¬(p = .rideThrough ∨ p = .blocked ∨ p = .hold)

/-- A transition into a quiet state is a change of the unit, its event and its record (R259). -/
theorem State.formTo_quiet (hx : s.fu? u = some x) {p : FormPhase} (quiet : p.quiet) (r : Rec) (cause : Nat) :
    s.formTo u p r cause = ((s.onUnit u fun y => y.enter s p).raise .form 0).report r u [x.phase.num, p.num, cause] := by
  have silent : decide (p = .rideThrough ∨ p = .blocked ∨ p = .hold) = false := decide_eq_false (of_decide_eq_true quiet)
  simp only [State.formTo, hx, silent, State.when_false, List.append_nil]

/-- What a state is when it has come from `s` by such a transition of the unit `u`, which was `x`. -/
structure Transited (s : State) (u : Nat) (x : FormUnit) (p : FormPhase) (r : Rec) (cause : Nat) (t : State) : Prop where
  unit : t.fu? u = some (x.enter s p)
  event : t.form.event = s.form.event.raise 0
  log : t.log = (s.report r u [x.phase.num, p.num, cause]).log
  kept : Kept (· ∈ [.form, .log]) s t

theorem State.formTo_transited (hx : s.fu? u = some x) {p : FormPhase} (quiet : p.quiet) (r : Rec) (cause : Nat) :
    Transited s u x p r cause (s.formTo u p r cause) := by
  rw [State.formTo_quiet hx quiet]
  exact ⟨State.fu?_onUnit_of hx fun y => y.enter_cfg s p, rfl, rfl,
    State.report_kept _ _ _ (State.raise_kept _ _ (State.onUnit_kept u _ (.refl s)))⟩

/-- The first applicable transition is taken when it is the one asked for. -/
theorem State.autoIf_takes (hx : s.fu? u = some x) {a : AutoStep} (first : s.autoStep x = some a) {p : AutoStep → Bool} (asked : p a) :
    s.autoIf u p = s.takeAuto u a := by
  simp only [State.autoIf, hx, Option.bind_some, first, asked, if_true]

/-! ### The timed transitions (R258, R259) -/

theorem exec_formReady_ready (s : State) (u : Nat) (x : FormUnit) (hx : s.fu? u = some x) (free : s.blockCause x = none)
    (phase : x.phase = .preparing) (link : x.waitLink = false) (dc : x.waitDc = false) (stage : x.waitStage = false) :
    ∃ t y, exec (.formReady u) s = .next t ∧ t.fu? u = some y ∧ y.phase = .ready ∧ y.readySince = some s.now ∧
      t.form.event = s.form.event.raise 0 ∧ t.log = (s.report .formReady u [1, 2, 0]).log ∧ OnlyTouches [.form, .log] s t := by
  have first : s.autoStep x = some .ready := by simp [State.autoStep, free, phase, FormPhase.mayRide, link, dc, stage]
  have run : exec (.formReady u) s = .next (s.takeAuto u .ready) := congrArg Host.Outcome.next (State.autoIf_takes hx first rfl)
  obtain ⟨unit, event, log, kept⟩ := State.formTo_transited hx (p := .ready) rfl .formReady 0
  rw [phase] at log
  exact ⟨_, _, run, unit, x.enter_phase s _, x.enter_readySince s _, event, log, kept.frame⟩

theorem exec_formConnectDone_forming (s : State) (u : Nat) (x : FormUnit) (hx : s.fu? u = some x) (free : s.blockCause x = none)
    (phase : x.phase = .connecting) (calm : x.frtCause = none) (late : s.passed x.stateSince x.cfg.policy.tConnect) :
    ∃ t y, exec (.formConnectDone u) s = .next t ∧ t.fu? u = some y ∧ y.phase = .formingGrid ∧ y.stateSince = s.now ∧ y.rotor = x.rotor ∧
      y.loops = x.loops ∧ t.form.event = s.form.event.raise 0 ∧ t.log = (s.report .formForming u [3, 5, 0]).log ∧
      OnlyTouches [.form, .log] s t := by
  have first : s.autoStep x = some .connected := by simp [State.autoStep, free, phase, calm, late]
  have run : exec (.formConnectDone u) s = .next (s.takeAuto u .connected) := congrArg Host.Outcome.next (State.autoIf_takes hx first rfl)
  have runs : x.rotorRuns := by simp [FormUnit.rotorRuns, phase]
  have pulses : x.phase.pulses := by simp [phase, FormPhase.pulses]
  obtain ⟨unit, event, log, kept⟩ := State.formTo_transited hx (p := .formingGrid) rfl .formForming 0
  rw [phase] at log
  exact ⟨_, _, run, unit, x.enter_phase s _, x.enter_stateSince s _, x.enter_rotor runs _, x.enter_loops pulses rfl, event, log, kept.frame⟩

theorem exec_formResyncTimeout_falls_back (s : State) (u : Nat) (x : FormUnit) (hx : s.fu? u = some x) (free : s.blockCause x = none)
    (phase : x.phase = .resync) (calm : x.frtCause = none) (apart : s.gridClosed x ≠ some true) (valid : x.meas.gridValid)
    (late : s.passed x.stateSince x.cfg.policy.resyncTimeout) :
    ∃ t y, exec (.formResyncTimeout u) s = .next t ∧ t.fu? u = some y ∧ y.phase = .formingIsland ∧ y.rotor = x.rotor ∧
      t.form.event = (s.form.event.raise 0).raise 7 ∧ t.log = (s.report .formResyncFail u [8, 6, 1]).log ∧ OnlyTouches [.form, .log] s t := by
  have first : s.autoStep x = some (.resyncFail true) := by simp [State.autoStep, free, phase, calm, apart, valid, late]
  have run : exec (.formResyncTimeout u) s = .next (s.takeAuto u (.resyncFail true)) :=
    congrArg Host.Outcome.next (State.autoIf_takes hx first rfl)
  have runs : x.rotorRuns := by simp [FormUnit.rotorRuns, phase]
  obtain ⟨unit, event, log, kept⟩ := State.formTo_transited hx (p := .formingIsland) rfl .formResyncFail 1
  rw [phase] at log
  exact ⟨_, _, run, unit, x.enter_phase s _, x.enter_rotor runs _, congrArg (W1C.raise · 7) event, log, (State.raise_kept .form 7 kept).frame⟩

theorem exec_formStopped_ready (s : State) (u : Nat) (x : FormUnit) (hx : s.fu? u = some x) (free : s.blockCause x = none)
    (phase : x.phase = .stopping) (late : s.passed x.stateSince (secs 10)) :
    ∃ t y, exec (.formStopped u) s = .next t ∧ t.fu? u = some y ∧ y.phase = .ready ∧ y.loops.limiter = .free ∧
      t.form.event = s.form.event.raise 0 ∧ t.log = (s.report .formStopped u [9, 2, 0]).log ∧ OnlyTouches [.form, .log] s t := by
  have first : s.autoStep x = some .stopped := by simp [State.autoStep, free, phase, FormPhase.mayRide, late]
  have run : exec (.formStopped u) s = .next (s.takeAuto u .stopped) := congrArg Host.Outcome.next (State.autoIf_takes hx first rfl)
  obtain ⟨unit, event, log, kept⟩ := State.formTo_transited hx (p := .ready) rfl .formStopped 0
  rw [phase] at log
  exact ⟨_, _, run, unit, x.enter_phase s _, x.enter_limiter rfl, event, log, kept.frame⟩

/-! ### The end of a ride-through (R258) -/

/-- The state to which a ride-through returns (R258). -/
def FormUnit.returnsTo (x : FormUnit) : FormPhase :=
  if x.frt.islanded ∨ x.frt.from_ = .formingIsland ∨ x.frt.from_ = .resync then .formingIsland else .formingGrid

theorem FormUnit.returnsTo_quiet (x : FormUnit) : x.returnsTo.quiet := by
  unfold FormUnit.returnsTo
  split <;> rfl

/-- A unit whose episode of `ms` milliseconds is over, before it changes state; its limit starts from |i_ref| (R255, R258). -/
def FormUnit.episodeClosed (x : FormUnit) (now : Ns) (ms : Nat) : FormUnit :=
  { x with
    frt := { x.frt with
      lastEnd := some now, lastElapsed := x.envClock now, duration := min ms 65535, envSince := none, exitSince := none, hv := false }
    loops := { x.loops with iLim := x.loops.iRef.abs } }

theorem State.frtEnd_eq (hx : s.fu? u = some x) {ms : Nat} (h : ms = (s.now - x.frt.start) / 1000000) :
    s.frtEnd u = ((s.onUnit u fun y => y.episodeClosed s.now ms).formTo u x.returnsTo .frtEnd ms).raise .form 3 := by
  subst h
  simp only [State.frtEnd, hx, FormUnit.returnsTo, Bool.or_eq_true, decide_eq_true_eq, or_assoc]
  rfl

theorem exec_frtEnd_returns (s : State) (u : Nat) (x : FormUnit) (hx : s.fu? u = some x) (free : s.blockCause x = none)
    (phase : x.phase = .rideThrough) (calm : s.passedSince x.frt.exitSince x.cfg.frt.tFrtExit) :
    ∃ t y, exec (.frtEnd u) s = .next t ∧ t.fu? u = some y ∧
      y.phase = (if x.frt.islanded ∨ x.frt.from_ = .formingIsland ∨ x.frt.from_ = .resync then .formingIsland else .formingGrid) ∧
      y.frt.lastEnd = some s.now ∧ y.frt.duration = min ((s.now - x.frt.start) / 1000000) 65535 ∧
      t.form.event = (s.form.event.raise 0).raise 3 ∧ OnlyTouches [.form, .log] s t := by
  have first : s.autoStep x = some .frtEnd := by simp [State.autoStep, free, phase, FormPhase.mayRide, calm]
  have run : exec (.frtEnd u) s = .next (s.frtEnd u) := congrArg Host.Outcome.next (State.autoIf_takes hx first rfl)
  obtain ⟨ms, hms⟩ : ∃ ms, ms = (s.now - x.frt.start) / 1000000 := ⟨_, rfl⟩
  have closed : (s.onUnit u fun y => y.episodeClosed s.now ms).fu? u = some (x.episodeClosed s.now ms) := State.fu?_onUnit_of hx fun _ => rfl
  obtain ⟨unit, event, -, kept⟩ := State.formTo_transited closed x.returnsTo_quiet .frtEnd ms
  rw [State.frtEnd_eq hx hms] at run
  rw [← hms]
  refine ⟨_, _, run, unit, FormUnit.enter_phase .., ?_, ?_, congrArg (W1C.raise · 3) event,
    ((State.onUnit_kept u _ (.refl s)).trans (State.raise_kept .form 3 kept)).frame⟩
  · rw [FormUnit.enter_frt]
    rfl
  · rw [FormUnit.enter_frt]
    rfl

/-- Settles O17: each row of the table is a transition into a state that no capture condition names, and RIDE_THROUGH closes its episode before. -/
theorem unitsFollowTheTransitionTable : Obligations.UnitsFollowTheTransitionTable :=
  ⟨exec_formReady_ready, exec_formConnectDone_forming, exec_formResyncTimeout_falls_back, exec_formStopped_ready, exec_frtEnd_returns⟩

/-! ### Commands that wait for the boundary (R261 to R264, R272) -/

theorem State.refuseUnit_accepted (hx : s.fu? u = some x) {c : UnitCmd} (ok : s.unitAccepts x c) : s.refuseUnit u c false = none := by
  simp [State.refuseUnit, hx, ok]

theorem State.refuseUnit_refused (hx : s.fu? u = some x) {c : UnitCmd} (no : s.unitAccepts x c = false) :
    s.refuseUnit u c false = some { blk := .form, src := u, st0 := s.unitStatus x } := by
  simp [State.refuseUnit, hx, no]

/-- A command that the unit accepts leaves CTL and waits (R261). -/
theorem State.unitCtl_waits {b : Nat} {k : BerthCmd} (h : s.ctlCmd b = some k) (hx : s.fu? u = some x) {c : UnitCmd} (ok : s.unitAccepts x c) :
    WaitsAtUnit b u x c s (s.unitCtl b u c) := by
  have waits : s.unitCtl b u c = ((s.leaveCtl b).toTarget b).queueUnit u c (.berth b) := by
    simp only [State.unitCtl, State.refuseUnit_accepted hx ok, State.runCtl]
  rw [waits]
  have same : ((s.leaveCtl b).toTarget b).fu? u = some x := hx
  exact ⟨State.fu?_onUnit_of same fun _ => rfl, State.endingOf_toTarget h, State.not_mem_leaveCtl s b,
    (State.queueUnit_kept u c _ (State.toTarget_kept b (State.leaveCtl_kept b (.refl s)))).frame⟩

/-- One that it does not accept is refused with the unit's status, and FORM stays as it is (R261, R262). -/
theorem State.unitCtl_refuses {b : Nat} {k : BerthCmd} (h : s.ctlCmd b = some k) (hx : s.fu? u = some x) {c : UnitCmd}
    (no : s.unitAccepts x c = false) : RefusedOn b (s.unitStatus x) (s.unitCtl b u c) ∧ (s.unitCtl b u c).form = s.form := by
  have refused : s.unitCtl b u c = (s.leaveCtl b).refuseItem b { blk := .form, src := u, st0 := s.unitStatus x } .ctl := by
    simp only [State.unitCtl, State.refuseUnit_refused hx no, State.runCtl]
  obtain ⟨it, hit, -⟩ := State.ctlCmd_item h
  have item : ((s.leaveCtl b).item b).isSome := Option.isSome_iff_exists.mpr ⟨it, hit⟩
  have kept := State.refuseItem_kept (M := (· ∈ [.host, .log])) b { blk := .form, src := u, st0 := s.unitStatus x } .ctl
    (State.leaveCtl_kept b (.refl s))
  rw [refused]
  exact ⟨State.refusedOn_refuseItem item .ctl, kept.parts .form (by simp)⟩

/-- The commands that name a unit and carry nothing but the command go to that unit (R262). -/
theorem exec_unitCommand {b : Nat} {k : Instr} {c : UnitCmd} (h : s.ctlCmd b = some (.unit u c))
    (row : (k = .formStart b ∧ c = .start) ∨ (k = .formBlackStart b ∧ ∃ m, c = .blackStart m) ∨ (k = .formResync b ∧ c = .resync) ∨
      (k = .formResyncCancel b ∧ c = .resyncCancel) ∨ (k = .formStop b ∧ c = .stop) ∨ (k = .formBlock b ∧ c = .block) ∨
      (k = .formReset b ∧ c = .reset)) : exec k s = .next (s.unitCtl b u c) := by
  obtain ⟨rfl, rfl⟩ | ⟨rfl, m, rfl⟩ | ⟨rfl, rfl⟩ | ⟨rfl, rfl⟩ | ⟨rfl, rfl⟩ | ⟨rfl, rfl⟩ | ⟨rfl, rfl⟩ := row
  · show execFormStart b s = _
    simp only [execFormStart, h]
  · show execFormBlackStart b s = _
    simp only [execFormBlackStart, h]
  · show execFormResync b s = _
    simp only [execFormResync, h]
  · show execFormResyncCancel b s = _
    simp only [execFormResyncCancel, h]
  · show execFormStop b s = _
    simp only [execFormStop, h]
  · show execFormBlock b s = _
    simp only [execFormBlock, h]
  · show execFormReset b s = _
    simp only [execFormReset, h]

theorem exec_formSetpoint {b : Nat} {g : Targets} (h : s.ctlCmd b = some (.unitSetpoint u g)) :
    exec (.formSetpoint b) s = .next (s.unitCtl b u (.setpoint g)) := by
  show execFormSetpoint b s = _
  simp only [execFormSetpoint, h]

theorem exec_formStage {b : Nat} {g : Staged} (h : s.ctlCmd b = some (.unitStage u g)) :
    exec (.formStage b) s = .next (s.unitCtl b u (.stage g)) := by
  show execFormStage b s = _
  simp only [execFormStage, h]

theorem exec_bridgeRestore {b br : Nat} (h : s.ctlCmd b = some (.bridgeRestore br))
    (owner : s.form.units.find? (fun x => x.bridgeNos.contains br) = some x) :
    exec (.bridgeRestore b) s = .next (s.unitCtl b x.cfg.unit (.restore br)) := by
  show execBridgeRestore b s = _
  simp only [execBridgeRestore, h, owner]

/-! ### Staged sets (R264) -/

theorem exec_formStepApply_staged (s : State) (u : Nat) (x : FormUnit) (st : Staged) (hx : s.fu? u = some x) (due : x.stepDue)
    (boundary : s.atUnitBoundary x) (staged : x.staged = some st) :
    ∃ t y, exec (.formStepApply u) s = .next t ∧ t.fu? u = some y ∧ y.staged = none ∧ y.stepDue = false ∧ y.target = st.targets ∧
      y.inForce.p = (if st.stepP then st.targets.p else x.inForce.p) ∧ y.inForce.q = (if st.stepQ then st.targets.q else x.inForce.q) ∧
      y.inForce.v = (if st.stepV then st.targets.v else x.inForce.v) ∧ y.inForce.f = (if st.stepF then st.targets.f else x.inForce.f) ∧
      y.phase = x.phase ∧ y.cfg = x.cfg ∧ OnlyTouches [.form] s t := by
  have run : exec (.formStepApply u) s = .next (s.onUnit u fun y => y.applyStaged st) := by
    show execFormStepApply u s = _
    simp [execFormStepApply, hx, due, boundary, staged]
  exact ⟨_, _, run, State.fu?_onUnit_of hx fun _ => rfl, rfl, rfl, rfl, rfl, rfl, rfl, rfl, rfl, rfl, (State.onUnit_kept u _ (.refl s)).frame⟩

theorem exec_formStepApply_empty (s : State) (u : Nat) (x : FormUnit) (hx : s.fu? u = some x) (due : x.stepDue)
    (boundary : s.atUnitBoundary x) (empty : x.staged = none) :
    ∃ t, exec (.formStepApply u) s = .next t ∧ t.fu? u = some { x with stepDue := false } ∧ t.form.event = s.form.event.raise 14 ∧
      t.log = (s.report .formStepEmpty u).log ∧ OnlyTouches [.form, .log] s t := by
  have run : exec (.formStepApply u) s =
      .next (((s.onUnit u fun y => { y with stepDue := false }).raise .form 14).report .formStepEmpty u) := by
    show execFormStepApply u s = _
    simp [execFormStepApply, hx, due, boundary, empty]
  exact ⟨_, run, State.fu?_onUnit_of hx fun _ => rfl, rfl, rfl,
    (State.report_kept _ _ _ (State.raise_kept _ _ (State.onUnit_kept u _ (.refl s)))).frame⟩

/-! ### Autostart (R265) -/

/-- The unit has tried its autostart now. -/
def State.autoTried (s : State) (u : Nat) : State := s.onUnit u fun y => { y with autoAt := some s.now }

theorem State.fu?_autoTried (hx : s.fu? u = some x) : (s.autoTried u).fu? u = some { x with autoAt := some s.now } :=
  State.fu?_onUnit_of hx fun _ => rfl

/-- Having tried does not change what the unit accepts of the commands that AUTOSTART issues. -/
theorem State.unitAccepts_autoTried (s : State) (u : Nat) (x : FormUnit) {a : Autostart} {c : UnitCmd} (own : autostartCmd a = some c) :
    (s.autoTried u).unitAccepts { x with autoAt := some s.now } c = s.unitAccepts x c := by
  cases a with
  | none => cases own
  | start =>
    cases own
    rfl
  | blackStart =>
    cases own
    have others : ((s.autoTried u).form.units.all fun y => y.cfg.unit == x.cfg.unit || decide (y.phase ≠ .formingGrid)) =
        s.form.units.all fun y => y.cfg.unit == x.cfg.unit || decide (y.phase ≠ .formingGrid) := by
      show (s.form.units.map _).all _ = _
      rw [List.all_map]
      congr 1
      funext y
      simp only [Function.comp_apply]
      split <;> rfl
    simp only [State.unitAccepts, others]
    rfl

/-- READY has held for AUTOSTART_DELAY, and the unit has not tried yet: its own command waits, or is refused and logged. -/
theorem exec_formAutostart_tries {c : UnitCmd} (hx : s.fu? u = some x) (own : autostartCmd x.cfg.policy.autostart = some c)
    (ready : x.phase = .ready) (first : x.autoAt = none) (held : s.passedSince x.readySince x.cfg.policy.autostartDelay) {r : Option Refuse}
    (judged : (s.autoTried u).refuseUnit u c false = r) : exec (.formAutostart u) s =
      .next (r.elim ((s.autoTried u).queueUnit u c .self) fun r => (s.autoTried u).refuseInternal r .internal) := by
  rw [State.autoTried] at judged
  show execFormAutostart u s = _
  simp only [execFormAutostart, hx, own, ready, first, held, judged, Option.isSome_none, Bool.false_eq_true, if_false, Bool.not_true,
    ne_eq, not_true_eq_false, decide_false, Bool.or_false]
  cases r <;> rfl

theorem exec_formAutostart_waits (s : State) (u : Nat) (x : FormUnit) (c : UnitCmd) (hx : s.fu? u = some x)
    (own : autostartCmd x.cfg.policy.autostart = some c) (ready : x.phase = .ready) (first : x.autoAt = none)
    (held : s.passedSince x.readySince x.cfg.policy.autostartDelay) (ok : s.unitAccepts x c) :
    ∃ t, exec (.formAutostart u) s = .next t ∧
      t.fu? u = some { x with autoAt := some s.now, pending := x.pending ++ [(c, .self)] } ∧ OnlyTouches [.form] s t := by
  have tried := State.fu?_autoTried hx
  have accepted := State.refuseUnit_accepted tried ((State.unitAccepts_autoTried s u x own).trans ok)
  have run := exec_formAutostart_tries hx own ready first held accepted
  exact ⟨_, run, State.fu?_onUnit_of tried fun _ => rfl, (State.queueUnit_kept u c _ (State.onUnit_kept u _ (.refl s))).frame⟩

theorem exec_formAutostart_refused (s : State) (u : Nat) (x : FormUnit) (c : UnitCmd) (hx : s.fu? u = some x)
    (own : autostartCmd x.cfg.policy.autostart = some c) (ready : x.phase = .ready) (first : x.autoAt = none)
    (held : s.passedSince x.readySince x.cfg.policy.autostartDelay) (no : s.unitAccepts x c = false) :
    ∃ t e l, exec (.formAutostart u) s = .next t ∧ t.fu? u = some { x with autoAt := some s.now } ∧
      t.log.reported = l ++ [e] ∧ e.name = .refused .form ∧ e.source = u ∧ OnlyTouches [.form, .log] s t := by
  have tried := State.fu?_autoTried hx
  have refused := State.refuseUnit_refused tried ((State.unitAccepts_autoTried s u x own).trans no)
  have run := exec_formAutostart_tries hx own ready first held refused
  exact ⟨_, _, _, run, tried, rfl, rfl, rfl, (State.refuseInternal_kept _ _ (State.onUnit_kept u _ (.refl s))).frame⟩

/-- Settles O16: every command of a unit goes through its CTL stage at the unit, a staged set is one change of the unit, and an autostart is judged
as a command of the host. -/
theorem unitsTakeCommandsAtBoundaries : Obligations.UnitsTakeCommandsAtBoundaries := by
  refine ⟨fun s b u x k c hx h row => ?_, fun s b u x g hx h ok => ⟨_, exec_formSetpoint h, State.unitCtl_waits h hx ok⟩,
    fun s b u x g hx h ok => ⟨_, exec_formStage h, State.unitCtl_waits h hx ok⟩, fun s b u br x h owner number hx ok => ?_,
    exec_formStepApply_staged, exec_formStepApply_empty, exec_formAutostart_waits, exec_formAutostart_refused⟩
  · exact ⟨fun ok => ⟨_, exec_unitCommand h row, State.unitCtl_waits h hx ok⟩,
      fun no => ⟨_, exec_unitCommand h row, State.unitCtl_refuses h hx no⟩⟩
  · subst number
    exact ⟨_, exec_bridgeRestore h owner, State.unitCtl_waits h hx ok⟩

/-! ### A boundary that takes committed settings (R263) -/

/-- FU0, for which settings of FU1 wait. -/
def misaddressedUnit : FormUnit :=
  let cfg : UnitCfg := { unit := 0, bridges := [], sNom := 1, vNom := 1, bridgeVNom := 1, vdcMin := 0, vdcMax := 1, vset := [] }
  { cfg := cfg, newCfg := some { cfg with unit := 1 } }

/-- A device with that unit alone, whose first boundary at 10 kHz has come. -/
def misaddressedState : State := { ltc := 100000, form := { units := [misaddressedUnit] } }

theorem exec_formControlCycle_misaddressed :
    exec (.formControlCycle 0) misaddressedState = .next (misaddressedState.newBoundary misaddressedUnit) := by rfl

theorem fu?_newBoundary_misaddressed : (misaddressedState.newBoundary misaddressedUnit).fu? 0 = none := by rfl

/-- Refutes O18, in its clause on the control cycle: the unit takes the settings that wait with the number they carry, so that one for which settings
of another unit wait is not found under its number after the boundary. The statement does not ask that they be its own, as every commit makes them. -/
theorem not_causesBlockTheUnitAndCyclesHandOver : ¬ Obligations.CausesBlockTheUnitAndCyclesHandOver := by
  intro h
  obtain ⟨-, -, -, -, cycle, -⟩ := h
  obtain ⟨t, z, run, found, -⟩ := cycle misaddressedState 0 misaddressedUnit rfl (by decide)
  rw [exec_formControlCycle_misaddressed, Host.Outcome.next.injEq] at run
  rw [← run, fu?_newBoundary_misaddressed] at found
  cases found

end Sys2Proof.Machine
end

section
/-! SUPPORT. Gate-links by their bridge: what leaves them alone, and what a downlink, a delay measurement and an uplink leave of them
(spec/08_gate_link.md R288 to R297, R302). -/

namespace Sys2Proof.Machine

open Sys2Proof

variable {s : State} {br : Nat} {g : GateLink}

/-! ### Links by their bridge -/

theorem State.gateLink?_congr {t : State} (h : t.gate = s.gate) (br : Nat) : t.gateLink? br = s.gateLink? br := by
  rw [State.gateLink?, h, State.gateLink?]

@[simp] theorem State.gateLink?_raise (s : State) (i br : Nat) : (s.raise .gate i).gateLink? br = s.gateLink? br := rfl

@[simp] theorem State.gateLink?_report (s : State) (r : Rec) (x : Nat) (l : List Int) (br : Nat) : (s.report r x l).gateLink? br = s.gateLink? br :=
  rfl

@[simp] theorem State.gateLink?_when_raise (s : State) (c : Bool) (i br : Nat) :
    (s.when c fun s => s.raise .gate i).gateLink? br = s.gateLink? br := by
  cases c <;> rfl

@[simp] theorem State.gateLink?_when_report (s : State) (c : Bool) (i : Nat) (r : Rec) (x : Nat) (l : List Int) (br : Nat) :
    (s.when c fun s => (s.raise .gate i).report r x l).gateLink? br = s.gateLink? br := by
  cases c <;> rfl

/-- A change that keeps the configuration changes the link of that bridge. -/
theorem State.gateLink?_onGateLink_of (hg : s.gateLink? br = some g) {f : GateLink → GateLink} (hf : ∀ x, (f x).cfg = x.cfg) :
    (s.onGateLink br f).gateLink? br = some (f g) :=
  (find?_map_if _ _ _ fun x => by rw [hf]).trans (congrArg (Option.map f) hg)

/-! ### Downlinks (R288, R289, R295 to R297) -/

/-- The link after the downlink `d` has left at `tx`. -/
def GateLink.sends (g : GateLink) (d : Downlink) (tx : Num) : GateLink :=
  { g with
    alive := d.alive, last := d, blockSent := d.block, clearLeft := g.clearLeft - 1, sent := wrapInc 32 g.sent
    departures := ((d.alive, tx) :: g.departures).take 256, levels := d.legs.map Leg.final, sentFor := d.cycle }

/-- The downlink of the link for the boundary `n` (R289). -/
def GateLink.downlink (g : GateLink) (n : Nat) (block rep falling degraded : Bool) (half : Nat) (lead : Int) (legs : List Leg) : Downlink where
  alive := (g.alive + 1) % 256
  block := block
  repeat_ := rep
  syncValid := g.syncValid
  clear := decide (g.clearLeft ≠ 0)
  degraded := degraded
  cycle := n
  lead := lead
  half := half
  falling := falling
  legs := if block then List.replicate 4 Leg.off else legs

theorem State.sendDownlink_link (hg : s.gateLink? br = some g) (n : Nat) (at_ ts : Ns) (block rep falling : Bool) (half : Nat) (legs : List Leg) :
    ∃ degraded lead tx, (s.sendDownlink br n at_ ts block rep falling half legs).gateLink? br =
      some (g.sends (g.downlink n block rep falling degraded half lead legs) tx) := by
  have drawn : s.drawNat.2.gateLink? br = some g := hg
  simp only [State.sendDownlink, hg]
  exact ⟨_, _, _, State.gateLink?_onGateLink_of drawn fun _ => rfl⟩

theorem State.halfOf_gate (s : State) (ts : Ns) : (s.halfOf ts).2.gate = s.gate :=
  (State.halfOf_kept (M := (· ∈ [.fresh])) ts (.refl s)).parts .gate (by simp)

theorem State.halfOf_gateLink? (hg : s.gateLink? br = some g) (ts : Ns) : (s.halfOf ts).2.gateLink? br = some g :=
  (State.gateLink?_congr (s.halfOf_gate ts) br).trans hg

theorem State.sendBlock_link (hg : s.gateLink? br = some g) (n : Nat) (at_ ts : Ns) (falling : Bool) :
    ∃ half degraded lead tx, (s.sendBlock br n at_ ts falling).gateLink? br =
      some (g.sends (g.downlink n true false falling degraded half lead []) tx) :=
  ⟨_, State.sendDownlink_link (State.halfOf_gateLink? hg ts) ..⟩

theorem State.sendRepeat_link (hg : s.gateLink? br = some g) (n : Nat) (at_ ts : Ns) (falling : Bool) :
    ∃ half degraded lead tx, (s.sendRepeat br n at_ ts falling).gateLink? br =
      some { g.sends (g.downlink n false true falling degraded half lead (g.last.legs.map fun l => l.mirror half)) tx with
        repeats := satInc 16 g.repeats } := by
  obtain ⟨degraded, lead, tx, sent⟩ := State.sendDownlink_link (State.halfOf_gateLink? hg ts) n at_ ts false true falling (s.halfOf ts).1
    (g.last.legs.map fun l => l.mirror (s.halfOf ts).1)
  simp only [State.sendRepeat, hg, State.gateLink?_raise]
  exact ⟨_, degraded, lead, tx, State.gateLink?_onGateLink_of sent fun _ => rfl⟩

theorem State.sendDownlink_event (s : State) (br n : Nat) (at_ ts : Ns) (block rep falling : Bool) (half : Nat) (legs : List Leg) :
    (s.sendDownlink br n at_ ts block rep falling half legs).gate.event = s.gate.event := by
  unfold State.sendDownlink
  split <;> rfl

theorem State.sendRepeat_event (hg : s.gateLink? br = some g) (n : Nat) (at_ ts : Ns) (falling : Bool) :
    (s.sendRepeat br n at_ ts falling).gate.event = s.gate.event.raise 6 := by
  simp only [State.sendRepeat, hg, State.raise_at_gate, State.onGateLink, State.onGate_gate, State.sendDownlink_event,
    State.halfOf_gate]

/-! ### Uplinks and the delay measurement (R292, R294) -/

/-- The links differ in the delay measurement alone. -/
def GateLink.Measures (g h : GateLink) : Prop :=
  ∃ l m n v far, h = { g with delays := l, d := m, syncCount := n, syncValid := v, delayExceeded := far }

theorem State.gateDelay_link (hg : s.gateLink? br = some g) (d : Num) : ∃ h, (s.gateDelay br d).gateLink? br = some h ∧ g.Measures h := by
  simp only [State.gateDelay, hg, State.gateLink?_when_raise, State.gateLink?_when_report]
  exact ⟨_, State.gateLink?_onGateLink_of hg fun _ => rfl, _, _, _, _, _, rfl⟩

/-- The link after the uplink `f` has been admitted, before the measurement of the delay. -/
def GateLink.admits (g : GateLink) (f : Uplink) : GateLink :=
  { g with
    ulAlive := some f.alive, uplink := some f, lastUp := some f, silent := 0, good := wrapInc 32 g.good, turnLast := f.turn
    turnMax := max g.turnMax f.turn, dlMiss := if f.dlMissed then satInc 16 g.dlMiss else g.dlMiss }

theorem State.admitUplink_link (hg : s.gateLink? br = some g) (f : Uplink) (tRx : Num) :
    ∃ h, (s.admitUplink br f tRx).gateLink? br = some h ∧ (g.admits f).Measures h := by
  have admitted : (s.onGateLink br (·.admits f)).gateLink? br = some (g.admits f) := State.gateLink?_onGateLink_of hg fun _ => rfl
  simp only [State.admitUplink, hg, State.gateLink?_when_report]
  cases g.departures.find? fun x => x.1 == f.dlAlive with
  | none => exact ⟨_, admitted, _, _, _, _, _, rfl⟩
  | some x => exact State.gateDelay_link admitted _

/-- The alive test counts in CHK and reports to the logbook. -/
theorem State.countAlive_gate (s : State) (p a : Nat) (r : AliveResult) : (s.countAlive p a r).gate = s.gate :=
  (State.countAlive_kept (M := (· ∈ [.log, .chk])) p a r (.refl s)).parts .gate (by simp)

/-! ### A link that goes down (R302) -/

theorem State.gateUnsync_link (hg : s.gateLink? br = some g) :
    (s.gateUnsync br).gateLink? br = some { g with syncValid := false, syncCount := 0 } := by
  simp only [State.gateUnsync, hg, State.gateLink?_when_raise]
  exact State.gateLink?_onGateLink_of hg fun _ => rfl

theorem State.gateDown_eq (hg : s.gateLink? br = some g) (up : g.up) : s.gateDown br =
    (((s.onGateLink br fun g => { g with up := false, uplink := none }).gateUnsync br).raise .gate 0).report .gateLinkDown br := by
  simp only [State.gateDown, hg, up, Bool.not_true, Bool.false_eq_true, if_false]

end Sys2Proof.Machine
end

section
/-! SUPPORT. Gate-links that go down and come up, and GATE_CLEAR (spec/08_gate_link.md R297, R302). -/

namespace Sys2Proof.Machine

open Sys2Proof

variable {s : State} {br : Nat} {g : GateLink}

/-! ### Link down and link up (R302) -/

theorem exec_gateLinkDown_down (s : State) (br : Nat) (g : GateLink) (hg : s.gateLink? br = some g) (up : g.up) :
    ∃ t h, exec (.gateLinkDown br) s = .next t ∧ t.gateLink? br = some h ∧ h.up = false ∧ h.uplink = none ∧ h.syncValid = false ∧
      t.gate.event.bits.getLsbD 0 = true ∧ t.log = (s.report .gateLinkDown br).log ∧ OnlyTouches [.gate, .log] s t := by
  let d := s.onGateLink br fun g => { g with up := false, uplink := none }
  have run : exec (.gateLinkDown br) s = .next (((d.gateUnsync br).raise .gate 0).report .gateLinkDown br) :=
    congrArg Host.Outcome.next (State.gateDown_eq hg up)
  have down : d.gateLink? br = some { g with up := false, uplink := none } := State.gateLink?_onGateLink_of hg fun _ => rfl
  have kept : Kept (· ∈ [.gate]) s (d.gateUnsync br) := State.gateUnsync_kept br (State.onGate_kept (.refl s) _)
  have ltc : (d.gateUnsync br).ltc = s.ltc := kept.parts .ltc (by simp)
  have log : (d.gateUnsync br).log = s.log := kept.parts .log (by simp)
  refine ⟨_, _, run, State.gateUnsync_link down, rfl, rfl, rfl, W1C.raise_bits _ 0 (by omega), ?_, (execGateLinkDown_kept br (.refl s)).frame run⟩
  simp [ltc, log]

theorem exec_gateUplinkRx_down (s : State) (x : UplinkIn) (g : GateLink) (hg : s.gateLink? x.br = some g) (down : g.up = false) :
    exec (.gateUplinkRx x) s = .next s := by
  show execGateUplinkRx x s = _
  simp [execGateUplinkRx, hg, down]

theorem exec_gateLinkUp_up (s : State) (br : Nat) (g : GateLink) (hg : s.gateLink? br = some g) (down : g.up = false) (ref : s.clk.refNone = false)
    (begun : 6 ≤ s.sys.stage) (open_ : s.sys.stage ≤ 11) :
    ∃ t h, exec (.gateLinkUp br) s = .next t ∧ t.gateLink? br = some h ∧ h.up = true ∧ h.delays = [] ∧ h.departures = [] ∧ h.syncCount = 0 ∧
      t.gate.event = s.gate.event.raise 1 ∧ t.log = (s.report .gateLinkUp br).log ∧ OnlyTouches [.gate, .log] s t := by
  have stage : ¬(s.sys.stage < 6 ∨ 11 < s.sys.stage) := by omega
  have run : exec (.gateLinkUp br) s = .next (((s.onGateLink br fun g =>
      { g with up := true, ulAlive := none, departures := [], delays := [], d := 0, syncCount := 0, silent := 0, idleAt := s.now }).raise
        .gate 1).report .gateLinkUp br) := by
    show execGateLinkUp br s = _
    simp only [execGateLinkUp, hg, down, ref, stage, decide_false, Bool.or_false, Bool.false_eq_true, if_false]
  exact ⟨_, _, run, State.gateLink?_onGateLink_of hg fun _ => rfl, rfl, rfl, rfl, rfl, rfl, rfl, (execGateLinkUp_kept br (.refl s)).frame run⟩

/-- Settles O21: going down clears SYNC_VALID and the uplink before its flag and record, a link that is down takes no uplink, and coming up empties
the delay measurement. -/
theorem gateLinksGoDownAndUp : Obligations.GateLinksGoDownAndUp :=
  ⟨exec_gateLinkDown_down, exec_gateUplinkRx_down, exec_gateLinkUp_up⟩

/-! ### GATE_CLEAR (R297) -/

theorem exec_gateClear {b : Nat} (h : s.ctlCmd b = some (.gateClear br)) : exec (.gateClear b) s =
    .next (s.runCtl b (s.refuseClear br) fun s => (s.onGateLink br fun g => { g with clearLeft := 16 }).done b) := by
  show execGateClear b s = _
  simp only [execGateClear, h]

theorem exec_gateClear_done (s : State) (b br : Nat) (g : GateLink) (h : s.ctlCmd b = some (.gateClear br)) (hg : s.gateLink? br = some g)
    (block : g.blockSent) : ∃ t, exec (.gateClear b) s = .next t ∧ DoneOn b 0 t ∧ t.gateLink? br = some { g with clearLeft := 16 } ∧
      OnlyTouches [.gate, .host] s t := by
  have accepted : s.refuseClear br = none := by simp only [State.refuseClear, hg, block, if_true]
  have run := exec_gateClear h
  simp only [accepted, State.runCtl] at run
  have left : (s.leaveCtl b).gateLink? br = some g := hg
  exact ⟨_, run, State.doneOn_of_ctlCmd h rfl, State.gateLink?_onGateLink_of left fun _ => rfl,
    (State.done_kept b 0 (State.onGateLink_kept br _ (State.leaveCtl_kept b (.refl s)))).frame⟩

theorem exec_gateClear_refused (s : State) (b br : Nat) (g : GateLink) (h : s.ctlCmd b = some (.gateClear br)) (hg : s.gateLink? br = some g)
    (pulses : g.blockSent = false) : ∃ t, exec (.gateClear b) s = .next t ∧ RefusedOn b g.status t ∧ t.gate = s.gate ∧
      OnlyTouches [.log, .host] s t := by
  have refused : s.refuseClear br = some { blk := .gate, src := br, st0 := g.status } := by
    simp only [State.refuseClear, hg, pulses, Bool.false_eq_true, if_false]
  have run := exec_gateClear h
  simp only [refused, State.runCtl] at run
  obtain ⟨it, hit, -⟩ := State.ctlCmd_item h
  have item : ((s.leaveCtl b).item b).isSome := Option.isSome_iff_exists.mpr ⟨it, hit⟩
  have kept := State.refuseItem_kept (M := (· ∈ [.log, .host])) b { blk := .gate, src := br, st0 := g.status } .ctl
    (State.leaveCtl_kept b (.refl s))
  exact ⟨_, run, State.refusedOn_refuseItem item .ctl, kept.parts .gate (by simp), kept.frame⟩

/-! ### CLEAR_ACTIVE (R297, R305) -/

theorem getLsbD_fld (p v i : Nat) : (fld p v).getLsbD i = (decide (i < 32) && (decide (p ≤ i) && v.testBit (i - p))) := by
  rw [fld, BitVec.getLsbD_ofNat, Nat.testBit_shiftLeft]

theorem getLsbD_flag_self {p : Nat} (h : p < 32) (b : Bool) : (flag p b).getLsbD p = b := by
  rw [flag, getLsbD_fld, decide_eq_true h, decide_eq_true le_rfl, Nat.sub_self]
  cases b <;> rfl

theorem getLsbD_flag_ne {p i : Nat} (h : i ≠ p) (b : Bool) : (flag p b).getLsbD i = false := by
  rw [flag, getLsbD_fld]
  by_cases le : p ≤ i
  · obtain ⟨k, rfl⟩ : ∃ k, i = p + (k + 1) := ⟨i - p - 1, by omega⟩
    cases b <;> simp [b2n, Nat.testBit_succ]
  · simp [le]

/-- The link state takes the two lowest bits of the status. -/
theorem GateLink.state_bit6 (g : GateLink) : (fld 0 (if g.up then (if g.syncValid then 2 else 1) else 0)).getLsbD 6 = false := by
  cases g.up <;> cases g.syncValid <;> rfl

theorem GateLink.status_clearActive (g : GateLink) : g.status.getLsbD 6 = decide (g.clearLeft ≠ 0) := by
  have faults : (fld 8 ((g.lastUp.map (·.faults)).getD 0)).getLsbD 6 = false := getLsbD_fld ..
  have count : (fld 16 g.syncCount).getLsbD 6 = false := getLsbD_fld ..
  have active := getLsbD_flag_self (p := 6) (by omega) (decide (g.clearLeft ≠ 0))
  simp only [GateLink.status, BitVec.getLsbD_or, g.state_bit6, faults, count, active, getLsbD_flag_ne (i := 6) (p := 2) (by omega),
    getLsbD_flag_ne (i := 6) (p := 3) (by omega), getLsbD_flag_ne (i := 6) (p := 4) (by omega), getLsbD_flag_ne (i := 6) (p := 5) (by omega),
    getLsbD_flag_ne (i := 6) (p := 7) (by omega), Bool.or_false, Bool.false_or]

/-- Settles O20: CTL judges the BLOCK of the link's last downlink, and every downlink carries CLEAR while it counts down. -/
theorem gateClearNeedsBlock : Obligations.GateClearNeedsBlock := by
  refine ⟨exec_gateClear_done, exec_gateClear_refused, fun s br n d ts block rep falling half legs g hg => ?_, GateLink.status_clearActive⟩
  obtain ⟨degraded, lead, tx, sent⟩ := State.sendDownlink_link hg n d ts block rep falling half legs
  exact ⟨_, sent, rfl, rfl⟩

end Sys2Proof.Machine
end

section
/-! SUPPORT. The reception of uplinks, the repeat or BLOCK of a bridge whose downlink is late, and the BLOCK downlinks of a port of no unit
(spec/08_gate_link.md R288, R294 to R296). -/

namespace Sys2Proof.Machine

open Sys2Proof

variable {s : State} {br : Nat} {g : GateLink} {x : FormUnit}

/-! ### Uplinks (R288, R294) -/

/-- The first valid uplink of the boundary comes to the unit: late once the unit has computed, else admitted. -/
theorem exec_gateUplinkRx_valid {x : UplinkIn} {y : FormUnit} (hg : s.gateLink? x.br = some g) (hu : s.unitOfBridge x.br = some y) (up : g.up)
    (check : x.checkOk) (alive : (g.alive? x.frame).accepted) (fits : g.accepts y.cycle x.frame) (first : g.uplink = none) :
    exec (.gateUplinkRx x) s = .next (if y.computed then (s.countAlive 1 x.frame.alive (g.alive? x.frame)).onGateLink x.br fun g =>
        { g with late := satInc 16 g.late, ulAlive := some x.frame.alive }
      else (s.countAlive 1 x.frame.alive (g.alive? x.frame)).admitUplink x.br x.frame x.tRx) := by
  show execGateUplinkRx x s = _
  simp [execGateUplinkRx, hg, hu, up, check, alive, fits, first]

theorem exec_gateUplinkRx_admits (s : State) (x : UplinkIn) (g : GateLink) (y : FormUnit) (hg : s.gateLink? x.br = some g)
    (hu : s.unitOfBridge x.br = some y) (up : g.up) (check : x.checkOk) (alive : (g.alive? x.frame).accepted) (fits : g.accepts y.cycle x.frame)
    (first : g.uplink = none) (waits : y.computed = false) :
    ∃ t h, exec (.gateUplinkRx x) s = .next t ∧ t.gateLink? x.br = some h ∧ h.uplink = some x.frame ∧ h.ulAlive = some x.frame.alive ∧
      h.good = wrapInc 32 g.good ∧ h.silent = 0 ∧ h.turnMax = max g.turnMax x.frame.turn ∧ OnlyTouches [.gate, .log, .chk] s t := by
  have run := exec_gateUplinkRx_valid hg hu up check alive fits first
  rw [waits, if_neg Bool.false_ne_true] at run
  have counted := (State.gateLink?_congr (s.countAlive_gate 1 x.frame.alive (g.alive? x.frame)) x.br).trans hg
  obtain ⟨h, admitted, l, m, n, v, far, rfl⟩ := State.admitUplink_link counted x.frame x.tRx
  exact ⟨_, _, run, admitted, rfl, rfl, rfl, rfl, rfl, (execGateUplinkRx_kept x (.refl s)).frame run⟩

theorem exec_gateUplinkRx_late (s : State) (x : UplinkIn) (g : GateLink) (y : FormUnit) (hg : s.gateLink? x.br = some g)
    (hu : s.unitOfBridge x.br = some y) (up : g.up) (check : x.checkOk) (alive : (g.alive? x.frame).accepted) (fits : g.accepts y.cycle x.frame)
    (first : g.uplink = none) (computed : y.computed) :
    ∃ t, exec (.gateUplinkRx x) s = .next t ∧
      t.gateLink? x.br = some { g with late := satInc 16 g.late, ulAlive := some x.frame.alive } ∧ OnlyTouches [.gate, .log, .chk] s t := by
  have run := exec_gateUplinkRx_valid hg hu up check alive fits first
  rw [if_pos computed] at run
  have counted := (State.gateLink?_congr (s.countAlive_gate 1 x.frame.alive (g.alive? x.frame)) x.br).trans hg
  exact ⟨_, run, State.gateLink?_onGateLink_of counted fun _ => rfl, (execGateUplinkRx_kept x (.refl s)).frame run⟩

theorem exec_gateUplinkRx_badCheck (s : State) (x : UplinkIn) (g : GateLink) (hg : s.gateLink? x.br = some g) (up : g.up)
    (bad : x.checkOk = false) : ∃ t, exec (.gateUplinkRx x) s = .next t ∧ t.gateLink? x.br = some { g with badCheck := satInc 16 g.badCheck } ∧
      t.gate.event = s.gate.event.raise 8 ∧ OnlyTouches [.gate, .log, .chk] s t := by
  have run : exec (.gateUplinkRx x) s =
      .next (((s.onGateLink x.br fun g => { g with badCheck := satInc 16 g.badCheck }).raise .gate 8).pathFail 1) := by
    show execGateUplinkRx x s = _
    simp [execGateUplinkRx, hg, up, bad, State.uplinkBad]
  exact ⟨_, run, State.gateLink?_onGateLink_of hg fun _ => rfl, rfl, (execGateUplinkRx_kept x (.refl s)).frame run⟩

/-! ### The overrun of a control cycle (R241, R260) -/

/-- Any transition leaves the unit in the state asked for. -/
theorem State.fu?_formTo {u : Nat} (hx : s.fu? u = some x) (p : FormPhase) (r : Rec) (cause : Nat) (more : List Int) :
    (s.formTo u p r cause more).fu? u = some (x.enter s p) := by
  have capt : ∀ (t : State) (q : CaptCond → Bool), (t.captMetAll t.ltc q).form = t.form := fun t q =>
    (State.captMetAll_kept (M := (· ∈ [.capt])) t.ltc q (.refl t)).parts .form (by simp)
  have units : ∀ t : State, (t.captMetAll t.ltc fun c => c == .form u).fu? u = t.fu? u := fun t => by rw [State.fu?, capt, State.fu?]
  simp only [State.formTo, hx]
  rw [State.when_keeps (·.fu? u) units]
  exact State.fu?_onUnit_of hx fun y => y.enter_cfg s p

/-- A cause of BLOCKED leaves no pulses enabled where none were (R260). -/
theorem State.formBlocked_pulses {u : Nat} (hx : s.fu? u = some x) (still : x.phase.pulses = false) (c : FormCause) (r : Rec) (more : List Int) :
    ∃ y, (s.formBlocked u c r more).fu? u = some y ∧ y.phase.pulses = false := by
  simp only [State.formBlocked, hx]
  split
  · exact ⟨x, hx, still⟩
  · have latched : (s.onUnit u fun x => { x with causes := if x.causes.contains c then x.causes else x.causes ++ [c] }).fu? u =
      some { x with causes := if x.causes.contains c then x.causes else x.causes ++ [c] } := State.fu?_onUnit_of hx fun _ => rfl
    refine ⟨_, State.fu?_formTo latched .blocked r c.bit more, ?_⟩
    rw [FormUnit.enter_phase]
    rfl

/-- The unit after its overrun has been counted. -/
def FormUnit.overruns (x : FormUnit) : FormUnit := { x with overran := true, overrun := satInc 16 x.overrun, overrunRun := x.overrunRun + 1 }

/-- The state after an overrun of unit `u`, before the block that a second one brings. -/
def State.overrunCounted (s : State) (u : Nat) : State := ((s.onUnit u (·.overruns)).raise .form 8).report .formOverrun u

theorem State.fu?_overrunCounted {u : Nat} (hx : s.fu? u = some x) : (s.overrunCounted u).fu? u = some x.overruns :=
  State.fu?_onUnit_of hx fun _ => rfl

theorem State.formOverrun_eq (s : State) (x : FormUnit) : s.formOverrun x = if x.overran then s else
    (s.overrunCounted x.cfg.unit).when (decide (1 ≤ x.overrunRun)) fun s => s.formBlocked x.cfg.unit .overrun := rfl

theorem State.formOverrun_pulses (hx : s.fu? x.cfg.unit = some x) (still : x.phase.pulses = false) :
    ∃ y, (s.formOverrun x).fu? x.cfg.unit = some y ∧ y.phase.pulses = false := by
  have counted := State.fu?_overrunCounted hx
  rw [State.formOverrun_eq]
  split
  · exact ⟨x, hx, still⟩
  · cases decide (1 ≤ x.overrunRun) with
    | false => exact ⟨_, counted, still⟩
    | true => exact State.formBlocked_pulses counted still .overrun .formBlocked []

/-- A first overrun blocks nothing. -/
theorem State.formOverrun_first (hx : s.fu? x.cfg.unit = some x) (first : x.overrunRun = 0) :
    ∃ y, (s.formOverrun x).fu? x.cfg.unit = some y ∧ y.overran = true ∧ y.phase = x.phase ∧ (s.formOverrun x).form.bridges = s.form.bridges := by
  have once : decide (1 ≤ x.overrunRun) = false := by simp [first]
  rw [State.formOverrun_eq]
  split
  next again => exact ⟨x, hx, again, rfl, rfl⟩
  next =>
    rw [once, State.when_false]
    exact ⟨_, State.fu?_overrunCounted hx, rfl, rfl, rfl⟩

theorem State.formOverrun_gate (s : State) (x : FormUnit) : (s.formOverrun x).gate = s.gate :=
  (State.formOverrun_kept (M := (· ∈ [.form, .capt, .log])) x (.refl s)).parts .gate (by simp)

/-! ### A downlink that is late (R295, R296) -/

theorem exec_gateRepeat {y : FormUnit} (hg : s.gateLink? br = some g) (hu : s.unitOfBridge br = some x) (handed : x.handed = false)
    (late : s.passed x.t0 (x.ts / 2)) (unsent : g.sentFor ≠ x.cycle + 1) (hy : (s.formOverrun x).fu? x.cfg.unit = some y) :
    exec (.gateRepeat br) s = .next (if y.phase.pulses && ((s.formOverrun x).bridge br).active
      then (s.formOverrun x).sendRepeat br (x.cycle + 1) (x.t0 + x.ts) x.ts x.nextFalling
      else (s.formOverrun x).sendBlock br (x.cycle + 1) (x.t0 + x.ts) x.ts x.nextFalling) := by
  show execGateRepeat br s = _
  simp only [execGateRepeat, hg, hu, handed, late, unsent, hy, Bool.not_true, Bool.or_self, decide_false, Bool.false_eq_true, if_false,
    Option.any_some]

theorem exec_gateRepeat_blocks (s : State) (br : Nat) (g : GateLink) (x : FormUnit) (hg : s.gateLink? br = some g)
    (hu : s.unitOfBridge br = some x) (hx : s.fu? x.cfg.unit = some x) (handed : x.handed = false) (late : s.passed x.t0 (x.ts / 2))
    (unsent : g.sentFor ≠ x.cycle + 1) (still : x.phase.pulses = false) :
    ∃ t h, exec (.gateRepeat br) s = .next t ∧ t.gateLink? br = some h ∧ h.last.block = true ∧ h.last.repeat_ = false ∧
      h.last.cycle = x.cycle + 1 ∧ h.sentFor = x.cycle + 1 ∧ h.repeats = g.repeats ∧ OnlyTouches [.fresh, .form, .gate, .capt, .log] s t := by
  obtain ⟨y, hy, stays⟩ := State.formOverrun_pulses hx still
  have run := exec_gateRepeat hg hu handed late unsent hy
  rw [stays, Bool.false_and, if_neg Bool.false_ne_true] at run
  have link := (State.gateLink?_congr (s.formOverrun_gate x) br).trans hg
  obtain ⟨half, degraded, lead, tx, sent⟩ := State.sendBlock_link link (x.cycle + 1) (x.t0 + x.ts) x.ts x.nextFalling
  exact ⟨_, _, run, sent, rfl, rfl, rfl, rfl, rfl, (execGateRepeat_kept br (.refl s)).frame run⟩

theorem exec_gateRepeat_repeats (s : State) (br : Nat) (g : GateLink) (x : FormUnit) (hg : s.gateLink? br = some g)
    (hu : s.unitOfBridge br = some x) (hx : s.fu? x.cfg.unit = some x) (handed : x.handed = false) (late : s.passed x.t0 (x.ts / 2))
    (unsent : g.sentFor ≠ x.cycle + 1) (pulses : x.phase.pulses) (first : x.overrunRun = 0) (active : (s.bridge br).active) :
    ∃ t h y, exec (.gateRepeat br) s = .next t ∧ t.gateLink? br = some h ∧ t.fu? x.cfg.unit = some y ∧ y.overran = true ∧ h.last.block = false ∧
      h.last.repeat_ = true ∧ h.last.legs = g.last.legs.map (fun l => l.mirror h.last.half) ∧ h.last.cycle = x.cycle + 1 ∧
      h.repeats = satInc 16 g.repeats ∧ t.gate.event = s.gate.event.raise 6 ∧ OnlyTouches [.fresh, .form, .gate, .capt, .log] s t := by
  obtain ⟨y, hy, overran, phase, bridges⟩ := State.formOverrun_first hx first
  have bridge : ((s.formOverrun x).bridge br).active = true := by
    rw [State.bridge, bridges]
    exact active
  have run := exec_gateRepeat hg hu handed late unsent hy
  rw [phase, pulses, bridge, Bool.and_self, if_pos rfl] at run
  have gate := s.formOverrun_gate x
  have link := (State.gateLink?_congr gate br).trans hg
  obtain ⟨half, degraded, lead, tx, sent⟩ := State.sendRepeat_link link (x.cycle + 1) (x.t0 + x.ts) x.ts x.nextFalling
  have form : ((s.formOverrun x).sendRepeat br (x.cycle + 1) (x.t0 + x.ts) x.ts x.nextFalling).form = (s.formOverrun x).form :=
    (State.sendRepeat_kept (M := (· ∈ [.fresh, .gate])) br (x.cycle + 1) (x.t0 + x.ts) x.ts x.nextFalling (.refl _)).parts .form (by simp)
  refine ⟨_, _, y, run, sent, ?_, overran, rfl, rfl, rfl, rfl, rfl, ?_, (execGateRepeat_kept br (.refl s)).frame run⟩
  · rw [State.fu?, form]
    exact hy
  · rw [State.sendRepeat_event link, gate]

/-! ### A port of no unit (R296) -/

theorem exec_gateBlockIdleSend_sends (s : State) (br : Nat) (g : GateLink) (hg : s.gateLink? br = some g) (up : g.up)
    (free : s.unitOfBridge br = none) (due : s.passed g.idleAt 100000) :
    ∃ t h, exec (.gateBlockIdleSend br) s = .next t ∧ t.gateLink? br = some h ∧ h.last.block = true ∧ h.blockSent = true ∧
      h.idleAt = s.now ∧ h.sent = wrapInc 32 g.sent ∧ OnlyTouches [.fresh, .gate] s t := by
  have run : exec (.gateBlockIdleSend br) s = .next ((s.onGateLink br fun g => { g with idleAt := s.now, uplink := none }).sendBlock br
      (wrapInc 32 g.sentFor) (s.now + 100000) 100000 (g.sentFor % 2 == 0)) := by
    show execGateBlockIdleSend br s = _
    simp only [execGateBlockIdleSend, hg, up, free, due, Bool.not_true, Option.isSome_none, Bool.or_self, Bool.false_eq_true, if_false,
      State.onGateLink, State.onGate_now]
  have link : (s.onGateLink br fun g => { g with idleAt := s.now, uplink := none }).gateLink? br =
    some { g with idleAt := s.now, uplink := none } := State.gateLink?_onGateLink_of hg fun _ => rfl
  obtain ⟨half, degraded, lead, tx, sent⟩ := State.sendBlock_link link (wrapInc 32 g.sentFor) (s.now + 100000) 100000 (g.sentFor % 2 == 0)
  exact ⟨_, _, run, sent, rfl, rfl, rfl, rfl, (execGateBlockIdleSend_kept br (.refl s)).frame run⟩

/-- Settles O19: a valid uplink goes to its link once, and a downlink that the unit has not handed over is the mirror of the last one or BLOCK. -/
theorem uplinksEnterAndDownlinksLeave : Obligations.UplinksEnterAndDownlinksLeave :=
  ⟨exec_gateUplinkRx_admits, exec_gateUplinkRx_late, exec_gateUplinkRx_badCheck, exec_gateRepeat_blocks, exec_gateRepeat_repeats,
    exec_gateBlockIdleSend_sends⟩

end Sys2Proof.Machine
end

section
/-! SUPPORT. Field channels and groups by their number, and what the switching of outputs leaves of them (spec/09_field_io.md R314, R315, R321, R323). -/

namespace Sys2Proof.Machine

set_option Elab.async false

open Sys2Proof

variable {s t u : State}

/-! ### Channels and groups by their number -/

/-- A channel that is not as at reset exists. -/
theorem State.fioCh_lt {n : Nat} (h : s.fioCh n ≠ {}) : n < s.fio.chans.length := by
  by_contra k
  exact h (by rw [State.fioCh, nth, List.getElem?_eq_none (not_lt.mp k), Option.getD_none])

/-- A group that is not as at reset exists. -/
theorem State.fioGroup_lt {g : Nat} (h : s.fioGroup g ≠ {}) : g < s.fio.groups.length := by
  by_contra k
  exact h (by rw [State.fioGroup, nth, List.getElem?_eq_none (not_lt.mp k), Option.getD_none])

theorem State.fioCh_onCh_self {n : Nat} (h : n < s.fio.chans.length) (f : FioCh → FioCh) : (s.onCh n f).fioCh n = f (s.fioCh n) :=
  nth_updAt_self _ _ _ _ h

theorem State.fioCh_onCh_ne {m n : Nat} (h : m ≠ n) (f : FioCh → FioCh) : (s.onCh n f).fioCh m = s.fioCh m :=
  nth_updAt_ne _ _ _ _ _ h.symm

theorem State.fioGroup_onGroup_self {g : Nat} (h : g < s.fio.groups.length) (f : FioGroup → FioGroup) :
    (s.onGroup g f).fioGroup g = f (s.fioGroup g) :=
  nth_updAt_self _ _ _ _ h

/-- What a change of a channel keeps of it, it keeps of every channel. -/
theorem State.fioCh_onCh_keeps {α : Type} (p : FioCh → α) (n m : Nat) {f : FioCh → FioCh} (hf : ∀ c, p (f c) = p c := by exact fun _ => rfl) :
    p ((s.onCh n f).fioCh m) = p (s.fioCh m) := by
  by_cases h : m = n
  · subst h
    by_cases k : m < s.fio.chans.length
    · rw [State.fioCh_onCh_self k, hf]
    · exact congrArg p (nth_updAt_out _ _ _ _ _ (not_lt.mp k))
  · rw [State.fioCh_onCh_ne h]

/-- What a change of a group keeps of it, it keeps of every group. -/
theorem State.fioGroup_onGroup_keeps {α : Type} (p : FioGroup → α) (g k : Nat) {f : FioGroup → FioGroup}
    (hf : ∀ x, p (f x) = p x := by exact fun _ => rfl) : p ((s.onGroup g f).fioGroup k) = p (s.fioGroup k) := by
  by_cases h : k = g
  · subst h
    by_cases r : k < s.fio.groups.length
    · rw [State.fioGroup_onGroup_self r, hf]
    · exact congrArg p (nth_updAt_out _ _ _ _ _ (not_lt.mp r))
  · exact congrArg p (nth_updAt_ne _ _ _ _ _ (Ne.symm h))

@[simp] theorem State.fioGroup_onCh (n : Nat) (f : FioCh → FioCh) (g : Nat) : (s.onCh n f).fioGroup g = s.fioGroup g := rfl
@[simp] theorem State.fioCh_onGroup (g : Nat) (f : FioGroup → FioGroup) (n : Nat) : (s.onGroup g f).fioCh n = s.fioCh n := rfl
@[simp] theorem State.event_onGroup (g : Nat) (f : FioGroup → FioGroup) : (s.onGroup g f).fio.event = s.fio.event := rfl

theorem State.length_chans_onCh (n : Nat) (f : FioCh → FioCh) : (s.onCh n f).fio.chans.length = s.fio.chans.length := length_updAt _ _ _

theorem State.fioCh_congr (h : t.fio.chans = s.fio.chans) (n : Nat) : t.fioCh n = s.fioCh n := by rw [State.fioCh, h]; rfl

theorem State.fioGroup_congr (h : t.fio.groups = s.fio.groups) (g : Nat) : t.fioGroup g = s.fioGroup g := by rw [State.fioGroup, h]; rfl

theorem FioCh.not_isOutput_of_isInput {c : FioCh} (h : c.isInput) : c.isOutput = false := by
  unfold FioCh.isInput at h
  split at h
  · simp_all [FioCh.isOutput, FioCh.owner]
  · cases h

/-! ### Edge records (R314, R315) -/

/-- An edge record leaves the stamp and UNSYNC in its channel. -/
theorem State.pushEdge_chans (n : Nat) (level : Bool) (ts : Word) : (s.pushEdge n level ts).fio.chans =
    updAt s.fio.chans n fun c => { c with lastEdge := ts, unsync := !(s.fioGroup (groupOf n)).syncOk } := by
  unfold State.pushEdge
  extract_lets gi g unsync u v
  have hv : v.fio.chans = u.fio.chans := by
    unfold v
    split <;> rfl
  split
  · exact hv
  · split <;> exact hv

theorem State.fioCh_pushEdge_self {n : Nat} (h : n < s.fio.chans.length) (level : Bool) (ts : Word) : (s.pushEdge n level ts).fioCh n =
    { s.fioCh n with lastEdge := ts, unsync := !(s.fioGroup (groupOf n)).syncOk } := by
  rw [State.fioCh, State.pushEdge_chans, nth_updAt_self _ _ _ _ h]
  rfl

theorem State.fioCh_pushEdge_ne {m n : Nat} (h : m ≠ n) (level : Bool) (ts : Word) : (s.pushEdge n level ts).fioCh m = s.fioCh m := by
  rw [State.fioCh, State.pushEdge_chans]
  exact nth_updAt_ne _ _ _ _ _ h.symm

/-- A channel without what a switching and its edge record change in it. -/
def FioCh.still (c : FioCh) : FioCh := { c with driven := false, level := false, delaysOn := [], delaysOff := [], lastEdge := 0, unsync := false }

/-- A group without what an edge record changes in it. -/
def FioGroup.still (g : FioGroup) : FioGroup :=
  { g with fifo := [], fifoEmptySince := none, unsyncSeen := false, edgeLost := 0, edgeLostEpisode := false }

/-- What `still` leaves is the same of two channels when `still` is. -/
theorem FioCh.of_still {α : Type} (p : FioCh → α) {c d : FioCh} (h : d.still = c.still)
    (hp : ∀ c : FioCh, p c.still = p c := by exact fun _ => rfl) : p d = p c := by
  rw [← hp d, h, hp]

theorem FioGroup.of_still {α : Type} (p : FioGroup → α) {g k : FioGroup} (h : k.still = g.still)
    (hp : ∀ g : FioGroup, p g.still = p g := by exact fun _ => rfl) : p k = p g := by
  rw [← hp k, h, hp]

theorem State.pushEdge_group (n : Nat) (level : Bool) (ts : Word) (g : Nat) :
    ((s.pushEdge n level ts).fioGroup g).still = (s.fioGroup g).still := by
  unfold State.pushEdge
  extract_lets gi x unsync u v
  have hv : (v.fioGroup g).still = (s.fioGroup g).still := by
    unfold v
    split
    · exact u.fioGroup_onGroup_keeps FioGroup.still gi g
    · rfl
  split
  · exact (State.fioGroup_onGroup_keeps FioGroup.still gi g).trans hv
  · split <;> exact (State.fioGroup_onGroup_keeps FioGroup.still gi g).trans hv

/-! ### Switching (R321, R323) -/

/-- Two states differ, in the field channels and groups, at most by switchings. -/
structure Switched (s t : State) : Prop where
  ch : ∀ n, (t.fioCh n).still = (s.fioCh n).still
  group : ∀ g, (t.fioGroup g).still = (s.fioGroup g).still
  len : t.fio.chans.length = s.fio.chans.length

theorem Switched.refl (s : State) : Switched s s := ⟨fun _ => rfl, fun _ => rfl, rfl⟩

theorem Switched.trans (h : Switched s t) (k : Switched t u) : Switched s u :=
  ⟨fun n => (k.ch n).trans (h.ch n), fun g => (k.group g).trans (h.group g), k.len.trans h.len⟩

/-- A change of a channel that a switching makes. -/
theorem State.onCh_switched (n : Nat) {f : FioCh → FioCh} (hf : ∀ c, (f c).still = c.still := by exact fun _ => rfl) : Switched s (s.onCh n f) :=
  ⟨fun m => State.fioCh_onCh_keeps FioCh.still n m hf, fun _ => rfl, State.length_chans_onCh n f⟩

theorem State.pushEdge_switched (n : Nat) (level : Bool) (ts : Word) : Switched s (s.pushEdge n level ts) where
  ch m := by
    have e : (s.pushEdge n level ts).fioCh m = (s.onCh n fun c =>
        { c with lastEdge := ts, unsync := !(s.fioGroup (groupOf n)).syncOk }).fioCh m := State.fioCh_congr (State.pushEdge_chans ..) m
    rw [e]
    exact State.fioCh_onCh_keeps FioCh.still n m
  group := State.pushEdge_group n level ts
  len := by rw [State.pushEdge_chans, length_updAt]

theorem State.forEach_switched {α : Type} {f : State → α → State} (hf : ∀ s x, Switched s (f s x)) :
    ∀ (l : List α) (s : State), Switched s (s.forEach l f)
  | [], s => .refl s
  | x :: l, s => (hf s x).trans (State.forEach_switched hf l (f s x))

/-- One switch takes the level, and its switching is counted (R321, R581). -/
def State.switchTo (on : Bool) (s : State) (m : Nat) : State :=
  (s.onCh m fun c => { c with driven := on, level := on }).onDiag fun x =>
    { x with ledger := { x.ledger with switches := updAt x.ledger.switches m (satInc 32) } }

theorem State.switchTo_switched (on : Bool) (m : Nat) : Switched s (s.switchTo on m) :=
  have h : Switched s (s.onCh m fun c => { c with driven := on, level := on }) := State.onCh_switched m
  ⟨h.ch, h.group, h.len⟩

/-- A switching delay joins the last 8 of its direction (R323). -/
def FioCh.delayed (on : Bool) (d : Ns) (c : FioCh) : FioCh :=
  if on then { c with delaysOn := (d :: c.delaysOn).take 8 } else { c with delaysOff := (d :: c.delaysOff).take 8 }

theorem FioCh.delayed_still (on : Bool) (d : Ns) (c : FioCh) : (c.delayed on d).still = c.still := by cases on <;> rfl

theorem FioCh.delayed_driven (on : Bool) (d : Ns) (c : FioCh) : (c.delayed on d).driven = c.driven := by cases on <;> rfl

theorem State.drive_governed_eq {n : Nat} (h : s.Governed n) : s.drive n = s := if_pos h.symm

/-- Switches that do not stand as R321 says are brought to the level that it gives. -/
theorem State.drive_switches {n : Nat} (h : ¬s.Governed n) : s.drive n =
    let on := (s.fioGroup (groupOf n)).drives (s.fioCh n)
    let u := s.switchDelay.2.forEach (s.gangMembers n) (State.switchTo on)
    (u.onCh n (FioCh.delayed on s.switchDelay.1)).pushEdge n on (ts32of (u.ltc + s.switchDelay.1)) :=
  if_neg fun e => h e.symm

theorem State.drive_switched (n : Nat) : Switched s (s.drive n) := by
  by_cases h : s.Governed n
  · rw [State.drive_governed_eq h]
    exact .refl s
  · rw [State.drive_switches h]
    have draw : Switched s s.switchDelay.2 := ⟨fun _ => rfl, fun _ => rfl, rfl⟩
    exact ((draw.trans (State.forEach_switched (fun _ => State.switchTo_switched _) _ _)).trans
      (State.onCh_switched n (FioCh.delayed_still _ _))).trans (State.pushEdge_switched ..)

/-- What R321 says of an output depends on nothing that a switching changes. -/
theorem FioGroup.drives_congr {g k : FioGroup} {c d : FioCh} (hg : k.still = g.still) (hc : d.still = c.still) : k.drives d = g.drives c :=
  (FioGroup.of_still (·.drives d) hg).trans (FioCh.of_still g.drives hc)

theorem Switched.drives (h : Switched s t) (n : Nat) : (t.fioGroup (groupOf n)).drives (t.fioCh n) = (s.fioGroup (groupOf n)).drives (s.fioCh n) :=
  FioGroup.drives_congr (h.group _) (h.ch n)

theorem Switched.gangLead (h : Switched s t) (n : Nat) : t.gangLead n = s.gangLead n :=
  FioCh.of_still (fun c => n - n % c.gang.size) (h.ch n)

theorem Switched.testing (h : Switched s t) (g : Nat) : (t.fioGroup g).testing = (s.fioGroup g).testing :=
  FioGroup.of_still FioGroup.testing (h.group g)

theorem State.switchTo_driven_self {m : Nat} (h : m < s.fio.chans.length) (on : Bool) : ((s.switchTo on m).fioCh m).driven = on :=
  congrArg FioCh.driven (State.fioCh_onCh_self h _)

theorem State.switchTo_fioCh_ne {m n : Nat} (h : n ≠ m) (on : Bool) : (s.switchTo on m).fioCh n = s.fioCh n := State.fioCh_onCh_ne h _

theorem State.forEach_switchTo_of_not_mem (on : Bool) {n : Nat} {l : List Nat} (s : State) (h : n ∉ l) :
    (s.forEach l (State.switchTo on)).fioCh n = s.fioCh n := by
  induction l generalizing s with
  | nil => rfl
  | cons m l ih =>
    rw [List.mem_cons, not_or] at h
    rw [State.forEach_cons, ih _ h.2, State.switchTo_fioCh_ne h.1]

theorem State.forEach_switchTo_driven (on : Bool) {n : Nat} {l : List Nat} (s : State) (h : n ∈ l) (r : n < s.fio.chans.length) :
    ((s.forEach l (State.switchTo on)).fioCh n).driven = on := by
  induction l generalizing s with
  | nil => cases h
  | cons m l ih =>
    rw [State.forEach_cons]
    by_cases k : n ∈ l
    · exact ih _ k (by rwa [(State.switchTo_switched on m).len])
    · obtain rfl := (List.mem_cons.mp h).resolve_right k
      rw [State.forEach_switchTo_of_not_mem on _ k, State.switchTo_driven_self r]

theorem Gang.size_pos (g : Gang) : 0 < g.size := by cases g <;> decide

theorem State.mem_gangMembers_self (n : Nat) : n ∈ s.gangMembers n :=
  List.mem_map.mpr ⟨0, List.mem_range.mpr (Gang.size_pos _), rfl⟩

theorem State.le_of_mem_gangMembers {m n : Nat} (h : m ∈ s.gangMembers n) : n ≤ m := by
  obtain ⟨i, -, rfl⟩ := List.mem_map.mp h
  exact Nat.le_add_right n i

theorem State.pushEdge_driven (n m : Nat) (level : Bool) (ts : Word) : ((s.pushEdge n level ts).fioCh m).driven = (s.fioCh m).driven := by
  rw [State.fioCh_congr (t := s.pushEdge n level ts) (s := s.onCh n _) (State.pushEdge_chans ..) m]
  exact State.fioCh_onCh_keeps FioCh.driven n m

/-- A channel that does not exist is off, and R321 says so. -/
theorem State.governed_of_le {n : Nat} (h : s.fio.chans.length ≤ n) : s.Governed n := by
  have e : s.fioCh n = {} := by rw [State.fioCh, nth, List.getElem?_eq_none h, Option.getD_none]
  rw [State.Governed, e]
  simp [FioGroup.drives]

/-- Once driven, the switches stand where R321 puts them. -/
theorem State.drive_governed (n : Nat) : (s.drive n).Governed n := by
  by_cases h : s.Governed n
  · rwa [State.drive_governed_eq h]
  · have hn : n < s.fio.chans.length := not_le.mp fun k => h (State.governed_of_le k)
    have on : ((s.drive n).fioCh n).driven = (s.fioGroup (groupOf n)).drives (s.fioCh n) := by
      rw [State.drive_switches h]
      dsimp only
      rw [State.pushEdge_driven, State.fioCh_onCh_keeps FioCh.driven _ _ (FioCh.delayed_driven _ _)]
      exact State.forEach_switchTo_driven _ _ (State.mem_gangMembers_self n) hn
    exact on.trans ((State.drive_switched n).drives n).symm

/-- A gang's first member has no say over the channels below it. -/
theorem State.drive_driven_below {m n : Nat} (h : m < n) : ((s.drive n).fioCh m).driven = (s.fioCh m).driven := by
  by_cases k : s.Governed n
  · rw [State.drive_governed_eq k]
  · rw [State.drive_switches k]
    dsimp only
    rw [State.pushEdge_driven, State.fioCh_onCh_keeps FioCh.driven _ _ (FioCh.delayed_driven _ _),
      State.forEach_switchTo_of_not_mem _ _ fun e => absurd (State.le_of_mem_gangMembers e) (not_le.mpr h)]
    rfl

/-- An output that R321 keeps off is off once driven. -/
theorem State.drive_off {n : Nat} (h : (s.fioGroup (groupOf n)).drives (s.fioCh n) = false) : ((s.drive n).fioCh n).driven = false :=
  (State.drive_governed n).trans (((State.drive_switched n).drives n).trans h)

/-! ### The outputs of a group (R321) -/

theorem State.forEach_drive_driven_below {m : Nat} {l : List Nat} (s : State) (h : ∀ n ∈ l, m < n) :
    ((s.forEach l State.drive).fioCh m).driven = (s.fioCh m).driven := by
  induction l generalizing s with
  | nil => rfl
  | cons n l ih =>
    rw [State.forEach_cons, ih _ fun k hk => h k (List.mem_cons_of_mem n hk), State.drive_driven_below (h n List.mem_cons_self)]

/-- Driven in ascending order, every output ends where R321 puts it, whatever the gangs. -/
theorem State.forEach_drive_governed {n : Nat} {l : List Nat} (s : State) (up : l.Pairwise (· < ·)) (h : n ∈ l) :
    (s.forEach l State.drive).Governed n := by
  induction l generalizing s with
  | nil => cases h
  | cons m l ih =>
    obtain ⟨above, up⟩ := List.pairwise_cons.mp up
    rw [State.forEach_cons]
    obtain rfl | h := List.mem_cons.mp h
    · have rest : Switched (s.drive n) ((s.drive n).forEach l State.drive) := State.forEach_switched (fun _ => State.drive_switched) l _
      exact (State.forEach_drive_driven_below _ above).trans ((State.drive_governed n).trans (rest.drives n).symm)
    · exact ih _ up h

theorem groupChans_pairwise_lt (g : Nat) : (groupChans g).Pairwise (· < ·) :=
  List.pairwise_lt_range.map _ fun _ _ => Nat.add_lt_add_left (k := 16 * g)

theorem groupOf_of_mem {g n : Nat} (h : n ∈ groupChans g) : groupOf n = g := by
  obtain ⟨i, hi, rfl⟩ := List.mem_map.mp h
  rw [List.mem_range] at hi
  rw [groupOf]
  omega

theorem State.driveGroup_switched (g : Nat) : Switched s (s.driveGroup g) := State.forEach_switched (fun _ => State.drive_switched) _ s

theorem State.driveGroup_governed {g n : Nat} (hn : n ∈ groupChans g) (out : (s.fioCh n).isOutput) (lead : (s.fioCh n).lead) :
    (s.driveGroup g).Governed n :=
  State.forEach_drive_governed s ((groupChans_pairwise_lt g).filter _) (List.mem_filter.mpr ⟨hn, by rw [out, lead]; rfl⟩)

/-- A change of every channel of a list reaches each of them once. -/
theorem State.forEach_onCh_of_not_mem (f : FioCh → FioCh) {n : Nat} {l : List Nat} (s : State) (h : n ∉ l) :
    (s.forEach l fun s m => s.onCh m f).fioCh n = s.fioCh n := by
  induction l generalizing s with
  | nil => rfl
  | cons m l ih =>
    rw [List.mem_cons, not_or] at h
    rw [State.forEach_cons, ih _ h.2, State.fioCh_onCh_ne h.1]

theorem State.forEach_onCh_self (f : FioCh → FioCh) {n : Nat} {l : List Nat} (s : State) (once : l.Nodup) (h : n ∈ l)
    (r : n < s.fio.chans.length) : (s.forEach l fun s m => s.onCh m f).fioCh n = f (s.fioCh n) := by
  induction l generalizing s with
  | nil => cases h
  | cons m l ih =>
    obtain ⟨out, once⟩ := List.nodup_cons.mp once
    rw [State.forEach_cons]
    obtain rfl | h := List.mem_cons.mp h
    · rw [State.forEach_onCh_of_not_mem f _ out, State.fioCh_onCh_self r]
    · have ne : n ≠ m := fun e => out (e ▸ h)
      rw [ih _ once h (by rwa [State.length_chans_onCh]), State.fioCh_onCh_ne ne]

theorem State.forEach_onCh_groups (f : FioCh → FioCh) (l : List Nat) : (s.forEach l fun s m => s.onCh m f).fio.groups = s.fio.groups :=
  State.forEach_keeps (fun s => s.fio.groups) (f := fun s m => s.onCh m f) (fun _ _ => rfl) l s

theorem State.fioCh_groupChans {g n : Nat} (hn : n ∈ groupChans g) (r : n < s.fio.chans.length) (f : FioCh → FioCh) :
    (s.forEach (groupChans g) fun s m => s.onCh m f).fioCh n = f (s.fioCh n) :=
  State.forEach_onCh_self f s ((groupChans_pairwise_lt g).imp Nat.ne_of_lt) hn r

end Sys2Proof.Machine
end

section
/-! SUPPORT. The outputs of field channels: commands, lockouts, overtemperature, scheduled edges, and their release
(spec/09_field_io.md R309, R318 to R321, R323, R329). -/

namespace Sys2Proof.Machine

set_option Elab.async false

open Sys2Proof

variable {s : State}

/-- A channel that shows what none does at reset exists. -/
theorem State.fioCh_lt_of {n : Nat} (p : FioCh → Bool) (h : p (s.fioCh n)) (d : p {} = false := by rfl) : n < s.fio.chans.length :=
  State.fioCh_lt fun e => by rw [e, d] at h; cases h

/-- A group that shows what none does at reset exists. -/
theorem State.fioGroup_lt_of {g : Nat} (p : FioGroup → Bool) (h : p (s.fioGroup g)) (d : p {} = false := by rfl) : g < s.fio.groups.length :=
  State.fioGroup_lt fun e => by rw [e, d] at h; cases h

/-! ### What keeps an output off (R321) -/

theorem FioGroup.drives_of_dead {g : FioGroup} (h : g.accepted = false ∨ g.level = .undervolt) (c : FioCh) : g.drives c = false :=
  if_pos (by obtain h | h := h <;> simp [h])

theorem FioGroup.drives_of_locked {c : FioCh} (h : c.lockedOff.isSome || c.overtemp) (g : FioGroup) : g.drives c = false := by
  show (if _ then false else if _ then false else _) = false
  rw [if_pos h, ite_self]

theorem FioGroup.drives_of_pulse {c : FioCh} (h : c.pulse ≠ .none) (g : FioGroup) : g.drives c = false := by
  show (if _ then false else if _ then false else if _ then false else _) = false
  rw [if_pos h, ite_self, ite_self]

/-! ### A change of a channel that its switches follow -/

section
variable {n : Nat} (r : n < s.fio.chans.length) (f : FioCh → FioCh)
include r

theorem State.still_drive_onCh : (((s.onCh n f).drive n).fioCh n).still = (f (s.fioCh n)).still := by
  rw [(State.drive_switched n).ch, State.fioCh_onCh_self r]

theorem State.drive_onCh_off (off : (s.fioGroup (groupOf n)).drives (f (s.fioCh n)) = false) : (((s.onCh n f).drive n).fioCh n).driven = false :=
  State.drive_off (by rw [State.fioCh_onCh_self r]; exact off)

theorem State.lt_drive_onCh : n < ((s.onCh n f).drive n).fio.chans.length := by
  rwa [(State.drive_switched n).len, State.length_chans_onCh]

omit f in
theorem State.fioCh_fioDetect_self (bit : Nat) : (s.fioDetect n bit).fioCh n = { s.fioCh n with diag := (s.fioCh n).diag.raise bit } :=
  State.fioCh_onCh_self r _

end

theorem State.fioCh_fioDetect_ne {m n : Nat} (h : m ≠ n) (bit : Nat) : (s.fioDetect n bit).fioCh m = s.fioCh m := State.fioCh_onCh_ne h _

theorem State.length_chans_fioDetect (n bit : Nat) : (s.fioDetect n bit).fio.chans.length = s.fio.chans.length := State.length_chans_onCh n _

/-! ### Commands (R309, R321) -/

theorem exec_fioOutputCommand {ch : Nat} {level : Bool} {u : Ns} {l : List (Bool × Ns)} (h : (s.fioCh ch).sent = (level, u) :: l)
    (due : s.passed u 1200) :
    exec (.fioOutputCommand ch) s = .next ((s.onCh ch fun c => { c with sent := l }).applyFio ch level) := by
  show execFioOutputCommand ch s = _
  simp only [execFioOutputCommand, h, due, if_true]

theorem exec_fioOutputCommand_applies (s : State) (ch : Nat) (level : Bool) (u : Ns) (l : List (Bool × Ns)) (h : (s.fioCh ch).sent = (level, u) :: l)
    (due : s.passed u 1200) : ∃ t, exec (.fioOutputCommand ch) s = .next t ∧
      (t.fioCh ch).cmd = (if (s.fioCh ch).edgeAt = some s.now then (s.fioCh ch).cmd else level) ∧ (t.fioCh ch).sent = l ∧ t.Governed ch ∧
      OnlyTouches [.fresh, .fio, .log, .diag] s t := by
  have r : ch < s.fio.chans.length := State.fioCh_lt fun e => by simp [e] at h
  have run := exec_fioOutputCommand h due
  have taken := State.fioCh_onCh_self r fun c => { c with sent := l }
  have applied := State.still_drive_onCh (s := s.onCh ch fun c => { c with sent := l }) (n := ch) (by rwa [State.length_chans_onCh])
  rw [taken] at applied
  exact ⟨_, run, FioCh.of_still FioCh.cmd (applied _), FioCh.of_still FioCh.sent (applied _), State.drive_governed ch,
    (execFioOutputCommand_kept ch (.refl s)).frame run⟩

theorem exec_fioSet {b ch : Nat} {level : Bool} (h : s.ctlCmd b = some (.fioSet ch level)) :
    exec (.fioSet b) s = .next (((s.leaveCtl b).sendFio ch level).done b) := by
  show execFioSet b s = _
  simp only [execFioSet, h, State.runCtl]

theorem exec_fioSet_sends (s : State) (b ch : Nat) (level : Bool) (h : s.ctlCmd b = some (.fioSet ch level))
    (r : s.gangLead ch < s.fio.chans.length) : ∃ t, exec (.fioSet b) s = .next t ∧ DoneOn b 0 t ∧
      t.fioCh (s.gangLead ch) = { s.fioCh (s.gangLead ch) with sent := (s.fioCh (s.gangLead ch)).sent ++ [(level, s.now)] } ∧
      OnlyTouches [.fio, .host] s t := by
  have run := exec_fioSet h
  exact ⟨_, run, State.doneOn_of_ctlCmd h rfl, State.fioCh_onCh_self r _,
    (State.done_kept b 0 (State.sendFio_kept ch level (State.leaveCtl_kept b (.refl s)))).frame⟩

/-! ### Lockouts (R318, R319) -/

/-- A channel that the current limit or its pulse budget has locked at `now` (R318). -/
def FioCh.overloaded (c : FioCh) (now : Ns) (limit : Bool) : FioCh :=
  { c with lockedOff := some now, lockOverload := true, budget := if limit then c.budget else 0 }

variable (s) in
/-- The lock of an output by OVERLOAD, with its detection (R318, R325). -/
def State.overloaded (n : Nat) (limit : Bool) : State := ((s.onCh n fun c => c.overloaded s.now limit).drive n).fioDetect n 0

theorem exec_fioOverload {ch n : Nat} (lead : s.gangLead ch = n) (out : (s.fioCh n).isOutput) (on : (s.fioCh n).driven) (limit : Bool) :
    exec (.fioOverload ch limit) s =
      .next (if limit then s.overloaded n limit else (s.overloaded n limit).onCh n fun c => { c with diag := c.diag.raise 1 }) := by
  show execFioOverload ch limit s = _
  simp only [execFioOverload, lead, out, on, Bool.and_self, Bool.not_true, Bool.false_eq_true, if_false, State.overloaded, FioCh.overloaded]

theorem exec_fioOverload_locks (s : State) (ch n : Nat) (limit : Bool) (lead : s.gangLead ch = n) (out : (s.fioCh n).isOutput)
    (on : (s.fioCh n).driven) : ∃ t, exec (.fioOverload ch limit) s = .next t ∧ (t.fioCh n).lockedOff = some s.now ∧
      (t.fioCh n).lockOverload = true ∧ (t.fioCh n).driven = false ∧ (t.fioCh n).diag.bits.getLsbD 0 = true ∧
      (t.fioCh n).cmd = (s.fioCh n).cmd ∧ (limit = false → (t.fioCh n).budget = 0 ∧ (t.fioCh n).diag.bits.getLsbD 1 = true) ∧
      OnlyTouches [.fresh, .fio, .log, .diag] s t := by
  have r : n < s.fio.chans.length := State.fioCh_lt_of FioCh.driven on
  have run := exec_fioOverload lead out on limit
  have still := State.still_drive_onCh r fun c => c.overloaded s.now limit
  have off := State.drive_onCh_off r (fun c => c.overloaded s.now limit) (FioGroup.drives_of_locked rfl _)
  have r' := State.lt_drive_onCh r fun c => c.overloaded s.now limit
  have found : (s.overloaded n limit).fioCh n = _ := State.fioCh_fioDetect_self r' 0
  refine ⟨_, run, ?_⟩
  cases limit with
  | true =>
    rw [if_pos rfl, found]
    exact ⟨FioCh.of_still FioCh.lockedOff still, FioCh.of_still FioCh.lockOverload still, off,
      W1C.raise_bits _ 0 (by decide), (FioCh.of_still FioCh.cmd still :), nofun, (execFioOverload_kept ch true (.refl s)).frame run⟩
  | false =>
    have r'' : n < (s.overloaded n false).fio.chans.length := by
      rw [State.overloaded, State.length_chans_fioDetect]
      exact r'
    rw [if_neg Bool.false_ne_true, State.fioCh_onCh_self r'', found]
    exact ⟨FioCh.of_still FioCh.lockedOff still, FioCh.of_still FioCh.lockOverload still, off,
      W1C.bits_raise_of_set _ 1 (W1C.raise_bits _ 0 (by decide)), (FioCh.of_still FioCh.cmd still :),
      fun _ => ⟨FioCh.of_still FioCh.budget still, W1C.raise_bits _ 1 (by decide)⟩, (execFioOverload_kept ch false (.refl s)).frame run⟩

theorem exec_fioOvlRetry {ch n : Nat} (lead : s.gangLead ch = n) (locked : (s.fioCh n).lockOverload) (cmd : (s.fioCh n).cmd)
    (left : (s.fioCh n).retries < (s.fioCh n).ovlRetry) (due : s.passedSince (s.fioCh n).lockedOff (secs 1)) : exec (.fioOvlRetry ch) s = .next
      ((s.onCh n fun c => { c with lockedOff := none, lockOverload := false, retries := c.retries + 1, diag := c.diag.raise 9 }).drive n) := by
  show execFioOvlRetry ch s = _
  simp only [execFioOvlRetry, lead, locked, cmd, left, due, decide_true, Bool.and_self, if_true]

theorem exec_fioOvlRetry_retries (s : State) (ch n : Nat) (lead : s.gangLead ch = n) (locked : (s.fioCh n).lockOverload) (cmd : (s.fioCh n).cmd)
    (left : (s.fioCh n).retries < (s.fioCh n).ovlRetry) (due : s.passedSince (s.fioCh n).lockedOff (secs 1)) :
    ∃ t, exec (.fioOvlRetry ch) s = .next t ∧ (t.fioCh n).lockedOff = none ∧ (t.fioCh n).retries = (s.fioCh n).retries + 1 ∧ t.Governed n ∧
      OnlyTouches [.fresh, .fio, .log, .diag] s t := by
  have run := exec_fioOvlRetry lead locked cmd left due
  have still := State.still_drive_onCh (State.fioCh_lt_of FioCh.lockOverload locked)
    fun c => { c with lockedOff := none, lockOverload := false, retries := c.retries + 1, diag := c.diag.raise 9 }
  exact ⟨_, run, FioCh.of_still FioCh.lockedOff still, FioCh.of_still FioCh.retries still, State.drive_governed n,
    (execFioOvlRetry_kept ch (.refl s)).frame run⟩

theorem exec_fioClear {b ch : Nat} (h : s.ctlCmd b = some (.fioClear ch)) :
    exec (.fioClear b) s = .next (((s.leaveCtl b).fioUnlock ch).done b) := by
  show execFioClear b s = _
  simp only [execFioClear, h, State.runCtl]

theorem exec_fioClear_unlocks (s : State) (b ch n : Nat) (h : s.ctlCmd b = some (.fioClear ch)) (lead : s.gangLead ch = n)
    (r : n < s.fio.chans.length) : ∃ t, exec (.fioClear b) s = .next t ∧ DoneOn b 0 t ∧ (t.fioCh n).lockedOff = none ∧
      (t.fioCh n).lockOverload = false ∧ (t.fioCh n).restarts = [] ∧ t.Governed n ∧ OnlyTouches [.fresh, .fio, .log, .host, .diag] s t := by
  subst lead
  have run := exec_fioClear h
  have kept := State.fioUnlock_kept (M := (· ∈ [.fresh, .fio, .log, .diag])) ch (.refl (s.leaveCtl b))
  have still := State.still_drive_onCh (s := s.leaveCtl b) r fun c => { c with lockedOff := none, lockOverload := false, restarts := [] }
  exact ⟨_, run, State.doneOn_of_ctlCmd h (kept.parts .host (by simp)), FioCh.of_still FioCh.lockedOff still, FioCh.of_still FioCh.lockOverload still,
    FioCh.of_still FioCh.restarts still, State.drive_governed (s := (s.leaveCtl b).onCh _ _) _,
    (State.done_kept b 0 (State.fioUnlock_kept ch (State.leaveCtl_kept b (.refl s)))).frame⟩

/-! ### Overtemperature (R320) -/

theorem exec_fioOvertemp_hot {ch n : Nat} (lead : s.gangLead ch = n) (out : (s.fioCh n).isOutput) (cool : (s.fioCh n).overtemp = false) :
    exec (.fioOvertemp ch true) s = .next (((s.onCh n fun c => { c with overtemp := true }).drive n).fioDetect n 3) := by
  show execFioOvertemp ch true s = _
  simp only [execFioOvertemp, lead, out, cool, Bool.not_true, Bool.false_eq_true, if_false, if_true]

theorem exec_fioOvertemp_opens (s : State) (ch n : Nat) (lead : s.gangLead ch = n) (out : (s.fioCh n).isOutput)
    (cool : (s.fioCh n).overtemp = false) : ∃ t, exec (.fioOvertemp ch true) s = .next t ∧ (t.fioCh n).overtemp = true ∧
      (t.fioCh n).driven = false ∧ (t.fioCh n).diag.bits.getLsbD 3 = true ∧ OnlyTouches [.fresh, .fio, .log, .diag] s t := by
  have r : n < s.fio.chans.length := State.fioCh_lt_of FioCh.isOutput out
  have run := exec_fioOvertemp_hot lead out cool
  have still := State.still_drive_onCh r fun c => { c with overtemp := true }
  have off := State.drive_onCh_off r (fun c => { c with overtemp := true }) (FioGroup.drives_of_locked (by simp) _)
  refine ⟨_, run, ?_⟩
  rw [State.fioCh_fioDetect_self (State.lt_drive_onCh r _)]
  exact ⟨FioCh.of_still FioCh.overtemp still, off, W1C.raise_bits _ 3 (by decide), (execFioOvertemp_kept ch true (.refl s)).frame run⟩

/-- A channel whose junction has cooled at `now`, with its restarts of the last 60 s before: a restart, or a lock at the third (R320). -/
def FioCh.cooled (c : FioCh) (now : Ns) (recent : List Ns) (third : Bool) : FioCh :=
  { c with
    overtemp := false
    restarts := if c.cmd then now :: recent else recent
    lockedOff := if third then some now else c.lockedOff
    lockOverload := c.lockOverload && !third }

variable (s) in
/-- The restarts of a channel within the last 60 s (R320). -/
def State.recentRestarts (n : Nat) : List Ns := (s.fioCh n).restarts.filter fun u => s.now < u + secs 60

theorem exec_fioOvertemp_cool {ch n : Nat} (lead : s.gangLead ch = n) (out : (s.fioCh n).isOutput) (hot : (s.fioCh n).overtemp) :
    exec (.fioOvertemp ch false) s = .next ((s.onCh n fun c =>
      c.cooled s.now (s.recentRestarts n) ((s.fioCh n).cmd && decide (2 ≤ (s.recentRestarts n).length))).drive n) := by
  show execFioOvertemp ch false s = _
  simp only [execFioOvertemp, lead, out, hot, Bool.not_true, Bool.false_eq_true, if_false]
  rfl

theorem exec_fioOvertemp_restarts (s : State) (ch n : Nat) (lead : s.gangLead ch = n) (out : (s.fioCh n).isOutput) (hot : (s.fioCh n).overtemp) :
    ∃ t, exec (.fioOvertemp ch false) s = .next t ∧ (t.fioCh n).overtemp = false ∧ t.Governed n ∧
      ((s.fioCh n).cmd → 2 ≤ ((s.fioCh n).restarts.filter fun u => s.now < u + secs 60).length → (t.fioCh n).lockedOff = some s.now) ∧
      OnlyTouches [.fresh, .fio, .log, .diag] s t := by
  have run := exec_fioOvertemp_cool lead out hot
  have still := State.still_drive_onCh (State.fioCh_lt_of FioCh.isOutput out) fun c =>
    c.cooled s.now (s.recentRestarts n) ((s.fioCh n).cmd && decide (2 ≤ (s.recentRestarts n).length))
  refine ⟨_, run, FioCh.of_still FioCh.overtemp still, State.drive_governed n, fun cmd third => ?_, (execFioOvertemp_kept ch false (.refl s)).frame run⟩
  exact (FioCh.of_still FioCh.lockedOff still).trans (if_pos (by rw [cmd, State.recentRestarts, decide_eq_true third]; rfl))

/-! ### Scheduled edges (R323) -/

theorem State.fioMeanDelay_fio (n : Nat) (on : Bool) : (s.fioMeanDelay n on).2.fio = s.fio := by
  unfold State.fioMeanDelay
  extract_lets l
  split <;> rfl

theorem State.refillEdges_of_none {g : Nat} (h : (s.fioGroup g).schedWait = []) : s.refillEdges g = s := by
  simp only [State.refillEdges, h]

variable (s) in
/-- A scheduled edge whose time has come leaves its group's queue (R323, R324). -/
def State.edgeTaken (g id : Nat) (e : SchedEdge) : State :=
  (s.fioMeanDelay (s.gangLead e.ch) e.level).2.onGroup g fun x => { x with sched := x.sched.filter (·.id != id) }

theorem State.edgeTaken_chans (g id : Nat) (e : SchedEdge) : (s.edgeTaken g id e).fio.chans = s.fio.chans :=
  (congrArg FioState.chans (s.fioMeanDelay_fio (s.gangLead e.ch) e.level) :)

theorem State.edgeTaken_group {g : Nat} (h : g < s.fio.groups.length) (id : Nat) (e : SchedEdge) :
    (s.edgeTaken g id e).fioGroup g = { s.fioGroup g with sched := (s.fioGroup g).sched.filter (·.id != id) } := by
  have fio := s.fioMeanDelay_fio (s.gangLead e.ch) e.level
  rw [State.edgeTaken, State.fioGroup_onGroup_self (by rwa [fio]), State.fioGroup, fio]
  rfl

theorem exec_fioSchedEdge {g id : Nat} {e : SchedEdge} (h : (s.fioGroup g).sched.find? (·.id == id) = some e) (due : e.time ≤ s.ltc) :
    exec (.fioSchedEdge g id) s = .next (((s.edgeTaken g id e).applyEdge e).refillEdges g) := by
  show execFioSchedEdge g id s = _
  simp only [execFioSchedEdge, h, State.edgeTaken]
  rw [if_pos (Nat.le_add_right_of_le due)]

theorem exec_fioSchedEdge_applies (s : State) (g id n : Nat) (e : SchedEdge) (h : (s.fioGroup g).sched.find? (·.id == id) = some e)
    (alone : (s.fioGroup g).schedWait = []) (lead : s.gangLead e.ch = n) (r : n < s.fio.chans.length) (due : e.time ≤ s.ltc) :
    ∃ t, exec (.fioSchedEdge g id) s = .next t ∧ (t.fioGroup g).sched = (s.fioGroup g).sched.filter (·.id != id) ∧ (t.fioCh n).cmd = e.level ∧
      t.Governed n ∧ OnlyTouches [.fresh, .fio, .log, .diag] s t := by
  have run := exec_fioSchedEdge h due
  have chans := s.edgeTaken_chans g id e
  have hg : g < s.fio.groups.length := State.fioGroup_lt fun k => by simp [k] at h
  have taken := State.edgeTaken_group hg id e
  have lead' : (s.edgeTaken g id e).gangLead e.ch = n := by rw [State.gangLead, State.fioCh_congr chans]; exact lead
  have applied : (s.edgeTaken g id e).applyEdge e = ((s.edgeTaken g id e).onCh n fun c => c.edged e.level (s.edgeTaken g id e).now).drive n := by
    rw [State.applyEdge, lead']
  have group : (((s.edgeTaken g id e).applyEdge e).fioGroup g).still =
      { s.fioGroup g with sched := (s.fioGroup g).sched.filter (·.id != id) }.still := by
    rw [applied, (State.drive_switched n).group, State.fioGroup_onCh, taken]
  rw [State.refillEdges_of_none (by exact (FioGroup.of_still FioGroup.schedWait group :).trans alone)] at run
  refine ⟨_, run, (FioGroup.of_still FioGroup.sched group :), ?_, ?_, (execFioSchedEdge_kept g id (.refl s)).frame run⟩
  · rw [applied]
    exact FioCh.of_still FioCh.cmd (State.still_drive_onCh (by rwa [chans]) _)
  · rw [applied]
    exact State.drive_governed n

/-! ### HELD_OFF (R329) -/

theorem exec_fioResume {b ch : Nat} (h : s.ctlCmd b = some (.fioResume ch)) : exec (.fioResume b) s = .next
    ((((s.leaveCtl b).onCh (s.gangLead ch) fun c => { c with heldOff := false, heldOffSeenOff := false }).drive (s.gangLead ch)).done b) := by
  show execFioResume b s = _
  simp only [execFioResume, h, State.runCtl]
  rfl

theorem exec_fioResume_releases (s : State) (b ch n : Nat) (h : s.ctlCmd b = some (.fioResume ch)) (lead : s.gangLead ch = n)
    (r : n < s.fio.chans.length) : ∃ t, exec (.fioResume b) s = .next t ∧ DoneOn b 0 t ∧ (t.fioCh n).heldOff = false ∧ t.Governed n ∧
      OnlyTouches [.fresh, .fio, .log, .host, .diag] s t := by
  subst lead
  have run := exec_fioResume h
  have still := State.still_drive_onCh (s := s.leaveCtl b) r fun c => { c with heldOff := false, heldOffSeenOff := false }
  have kept := State.drive_kept (M := (· ∈ [.fresh, .fio, .log, .diag])) (s.gangLead ch)
    (State.onCh_kept (s.gangLead ch) (fun c => { c with heldOff := false, heldOffSeenOff := false }) (.refl (s.leaveCtl b)))
  exact ⟨_, run, State.doneOn_of_ctlCmd h (kept.parts .host (by simp)), FioCh.of_still FioCh.heldOff still,
    State.drive_governed (s := (s.leaveCtl b).onCh _ _) _, (execFioResume_kept b (.refl s)).frame run⟩

/-- Settles O24, clause by clause: each change of a channel is followed by its switches, which then stand as R321 says. -/
theorem outputsFollowTheirGovernor : Obligations.OutputsFollowTheirGovernor :=
  ⟨exec_fioOutputCommand_applies, exec_fioSet_sends, exec_fioOverload_locks, exec_fioOvlRetry_retries, exec_fioClear_unlocks, exec_fioOvertemp_opens,
    exec_fioOvertemp_restarts, exec_fioSchedEdge_applies, exec_fioResume_releases⟩

end Sys2Proof.Machine
end

section
/-! SUPPORT. The groups of field channels: handshakes, the watchdog and the supply, and where they put the outputs
(spec/09_field_io.md R311, R321, R322, R328). -/

namespace Sys2Proof.Machine

set_option Elab.async false

open Sys2Proof

variable {s : State}

/-! ### A group and its channels change, and its outputs follow (R321) -/

variable (s) in
/-- A group changes by `f` and each of its channels by `k`; then its outputs are driven. -/
def State.regroup (g : Nat) (f : FioGroup → FioGroup) (k : FioCh → FioCh) : State :=
  ((s.onGroup g f).forEach (groupChans g) fun s n => s.onCh n k).driveGroup g

variable (s) in
theorem State.regroup_group {g : Nat} (h : g < s.fio.groups.length) (f : FioGroup → FioGroup) (k : FioCh → FioCh) :
    ((s.regroup g f k).fioGroup g).still = (f (s.fioGroup g)).still := by
  rw [State.regroup, (State.driveGroup_switched g).group, State.fioGroup, State.forEach_onCh_groups]
  exact congrArg FioGroup.still (State.fioGroup_onGroup_self h f)

variable (s) in
theorem State.regroup_ch {g n : Nat} (hn : n ∈ groupChans g) (r : n < s.fio.chans.length) (f : FioGroup → FioGroup) (k : FioCh → FioCh) :
    ((s.regroup g f k).fioCh n).still = (k (s.fioCh n)).still := by
  rw [State.regroup, (State.driveGroup_switched g).ch]
  exact congrArg FioCh.still (State.fioCh_groupChans (s := s.onGroup g f) hn r k)

variable (s) in
theorem State.regroup_governed {g n : Nat} (hn : n ∈ groupChans g) (out : (s.fioCh n).isOutput) (lead : (s.fioCh n).lead)
    (f : FioGroup → FioGroup) {k : FioCh → FioCh} (cfg : ∀ c, (k c).cfg = c.cfg := by exact fun _ => rfl)
    (leads : ∀ c, (k c).lead = c.lead := by exact fun _ => rfl) : (s.regroup g f k).Governed n := by
  have ch := State.fioCh_groupChans (s := s.onGroup g f) hn (State.fioCh_lt_of FioCh.isOutput out) k
  refine State.driveGroup_governed hn ?_ ?_
  · rw [ch, FioCh.isOutput, FioCh.owner, cfg]
    exact out
  · rw [ch, leads]
    exact lead

/-! ### Handshakes (R311) -/

/-- A group whose configuration the field side has accepted at `now`. -/
def FioGroup.handshaken (x : FioGroup) (now : Ns) : FioGroup :=
  { x with accepted := true, rehandshake := false, handshakeFail := false, link := true, wdSafe := false, lost := false, lastRx := now, lastTx := now }

/-- A group whose handshake has failed at `now`. -/
def FioGroup.refused (x : FioGroup) (now : Ns) : FioGroup :=
  { x with accepted := false, link := false, handshakeFail := true, handshakeAt := now }

/-- A channel after an accepted handshake: in its safe state, HOLD taken as OFF, with the factory's delays (R311, R323). -/
def FioCh.handshaken (c : FioCh) : FioCh := { c with safeState := c.isOutput, holdLevel := false, delaysOn := [], delaysOff := [] }

theorem State.fioAccept_eq (g : Nat) : s.fioAccept g = s.regroup g (FioGroup.handshaken · s.now) FioCh.handshaken := rfl

theorem State.fioAccept_group {g : Nat} (h : g < s.fio.groups.length) :
    ((s.fioAccept g).fioGroup g).still = ((s.fioGroup g).handshaken s.now).still := by
  rw [State.fioAccept_eq, s.regroup_group h]

theorem State.fioAccept_ch {g n : Nat} (hn : n ∈ groupChans g) (r : n < s.fio.chans.length) :
    ((s.fioAccept g).fioCh n).still = (s.fioCh n).handshaken.still := by
  rw [State.fioAccept_eq, s.regroup_ch hn r]

theorem State.fioAccept_governed {g n : Nat} (hn : n ∈ groupChans g) (out : (s.fioCh n).isOutput) (lead : (s.fioCh n).lead) :
    (s.fioAccept g).Governed n :=
  s.regroup_governed hn out lead (FioGroup.handshaken · s.now) (k := FioCh.handshaken)

theorem State.fioExpiryLogged_chans (g : Nat) : (s.fioExpiryLogged g).fio.chans = s.fio.chans := by
  unfold State.fioExpiryLogged
  split <;> rfl

theorem State.fioExpiryLogged_keeps {α : Type} (p : FioGroup → α) (g k : Nat)
    (hp : ∀ x e w, p { x with expiry := e, wdExpiries := w } = p x := by exact fun _ _ _ => rfl) :
    p ((s.fioExpiryLogged g).fioGroup k) = p (s.fioGroup k) := by
  unfold State.fioExpiryLogged
  split
  · rfl
  · exact State.fioGroup_onGroup_keeps p g k fun x => hp x _ _

theorem State.fioResendTrips_groups (g : Nat) : (s.fioResendTrips g).fio.groups = s.fio.groups :=
  State.forEach_keeps (fun s => s.fio.groups) (fun s t => by split <;> rfl) _ s

/-- The trips that are sent again wait on the couplers, and change nothing else of a channel (R322). -/
theorem State.fioResendTrips_keeps {α : Type} (p : FioCh → α) (g n : Nat) (hp : ∀ c l, p { c with sent := l } = p c := by exact fun _ _ => rfl) :
    p ((s.fioResendTrips g).fioCh n) = p (s.fioCh n) := by
  refine State.forEach_keeps (fun s => p (s.fioCh n)) (fun s t => ?_) _ s
  split
  · exact State.fioCh_onCh_keeps p _ n fun c => hp c _
  · rfl

variable (s) in
/-- After an accepted handshake the expiry before it is logged and the trips are sent again (R322). -/
def State.fioResumed (g : Nat) : State := (s.fioExpiryLogged g).fioResendTrips g

theorem State.fioResumed_group {α : Type} (p : FioGroup → α) (g : Nat)
    (hp : ∀ x e w, p { x with expiry := e, wdExpiries := w } = p x := by exact fun _ _ _ => rfl) :
    p ((s.fioResumed g).fioGroup g) = p (s.fioGroup g) := by
  rw [State.fioResumed, State.fioGroup_congr (State.fioResendTrips_groups g)]
  exact State.fioExpiryLogged_keeps p g g hp

theorem State.fioResumed_ch {α : Type} (p : FioCh → α) (g n : Nat) (hp : ∀ c l, p { c with sent := l } = p c := by exact fun _ _ => rfl) :
    p ((s.fioResumed g).fioCh n) = p (s.fioCh n) := by
  rw [State.fioResumed, State.fioResendTrips_keeps p g n hp, State.fioCh_congr (State.fioExpiryLogged_chans g)]

theorem State.Governed.resumed {g n : Nat} (h : s.Governed n) (hn : n ∈ groupChans g) : (s.fioResumed g).Governed n := by
  rw [State.Governed, groupOf_of_mem hn] at h ⊢
  rw [State.fioResumed_group (·.drives _)]
  exact Eq.mpr (State.fioResumed_ch (fun c => c.driven = (s.fioGroup g).drives c) g n) h

section
variable {g : Nat} (created : (s.fioGroup g).created) (early : 5 ≤ s.sys.stage) (late : s.sys.stage < 12) (new : (s.fioGroup g).accepted = false)
  (first : (s.fioGroup g).handshakeFail = false)
include created early late new first

theorem exec_fioHandshake_accepts : exec (.fioHandshake g true) s = .next ((s.fioAccept g).fioResumed g) := by
  show execFioHandshake g true s = _
  simp [execFioHandshake, created, early, late, new, first, State.fioResumed]

theorem exec_fioHandshake_fails : ∃ t, exec (.fioHandshake g false) s = .next t ∧
    t.fio.chans = ((s.onGroup g (FioGroup.refused · s.now)).driveGroup g).fio.chans ∧
    t.fio.groups = ((s.onGroup g (FioGroup.refused · s.now)).driveGroup g).fio.groups ∧ t.fio.event.bits.getLsbD 6 = true := by
  refine ⟨(((((s.onGroup g (FioGroup.refused · s.now)).driveGroup g).onChk fun c =>
    { c with pathFail := updAt c.pathFail 9 (satInc 32) }).raise .fio 6).report .fioHandshakeFail g), ?_, ?_, ?_, ?_⟩
  · show execFioHandshake g false s = _
    simp [execFioHandshake, created, early, late, new, first, FioGroup.refused]
  · rw [State.report_fio, State.raise_at_fio, State.onChk_fio]
  · rw [State.report_fio, State.raise_at_fio, State.onChk_fio]
  · rw [State.report_fio, State.raise_at_fio]
    exact W1C.raise_bits _ 6 (by decide)

end

theorem exec_fioHandshake_safe (s : State) (g : Nat) (created : (s.fioGroup g).created) (early : 5 ≤ s.sys.stage) (late : s.sys.stage < 12)
    (new : (s.fioGroup g).accepted = false) (first : (s.fioGroup g).handshakeFail = false) :
    ∃ t, exec (.fioHandshake g true) s = .next t ∧ (t.fioGroup g).accepted = true ∧ (t.fioGroup g).wdSafe = false ∧ (t.fioGroup g).link = true ∧
      (∀ n ∈ groupChans g, (s.fioCh n).isOutput → (t.fioCh n).safeState = true ∧ (t.fioCh n).holdLevel = false ∧
        ((s.fioCh n).lead → t.Governed n)) ∧ OnlyTouches [.fresh, .fio, .log, .chk, .diag] s t := by
  have run := exec_fioHandshake_accepts created early late new first
  have group := State.fioAccept_group (State.fioGroup_lt_of FioGroup.created created)
  refine ⟨_, run, (State.fioResumed_group FioGroup.accepted g).trans (FioGroup.of_still FioGroup.accepted group),
    (State.fioResumed_group FioGroup.wdSafe g).trans (FioGroup.of_still FioGroup.wdSafe group),
    (State.fioResumed_group FioGroup.link g).trans (FioGroup.of_still FioGroup.link group), fun n hn out => ?_,
    (execFioHandshake_kept g true (.refl s)).frame run⟩
  have still := State.fioAccept_ch hn (State.fioCh_lt_of FioCh.isOutput out)
  exact ⟨(State.fioResumed_ch FioCh.safeState g n).trans ((FioCh.of_still FioCh.safeState still).trans out),
    (State.fioResumed_ch FioCh.holdLevel g n).trans (FioCh.of_still FioCh.holdLevel still),
    fun lead => (State.fioAccept_governed hn out lead).resumed hn⟩

theorem exec_fioHandshake_opens (s : State) (g : Nat) (created : (s.fioGroup g).created) (early : 5 ≤ s.sys.stage) (late : s.sys.stage < 12)
    (new : (s.fioGroup g).accepted = false) (first : (s.fioGroup g).handshakeFail = false) :
    ∃ t, exec (.fioHandshake g false) s = .next t ∧ (t.fioGroup g).accepted = false ∧ (t.fioGroup g).handshakeFail = true ∧
      (t.fioGroup g).handshakeAt = s.now ∧ t.fio.event.bits.getLsbD 6 = true ∧
      (∀ n ∈ groupChans g, (s.fioCh n).isOutput → (s.fioCh n).lead → (t.fioCh n).driven = false) ∧
      OnlyTouches [.fresh, .fio, .log, .chk, .diag] s t := by
  obtain ⟨t, run, chans, groups, event⟩ := exec_fioHandshake_fails created early late new first
  have group : (t.fioGroup g).still = ((s.fioGroup g).refused s.now).still := by
    rw [State.fioGroup_congr groups, (State.driveGroup_switched g).group,
      State.fioGroup_onGroup_self (State.fioGroup_lt_of FioGroup.created created)]
  refine ⟨t, run, FioGroup.of_still FioGroup.accepted group, FioGroup.of_still FioGroup.handshakeFail group,
    FioGroup.of_still FioGroup.handshakeAt group, event, fun n hn out lead => ?_, (execFioHandshake_kept g false (.refl s)).frame run⟩
  have governed : t.Governed n := by
    rw [State.Governed, State.fioCh_congr chans, State.fioGroup_congr groups]
    exact State.driveGroup_governed (s := s.onGroup g (FioGroup.refused · s.now)) hn out lead
  rw [State.Governed, groupOf_of_mem hn] at governed
  exact governed.trans (FioGroup.drives_of_dead (.inl (FioGroup.of_still FioGroup.accepted group)) _)

/-! ### The watchdog (R322) -/

/-- A group whose watchdog has expired at `now`. -/
def FioGroup.expired (x : FioGroup) (ts : Word) (now : Ns) : FioGroup := { x with wdSafe := true, expiry := some (ts, now) }

/-- A channel when the watchdog of its group expires: HOLD keeps the level of that moment. -/
def FioCh.expired (c : FioCh) : FioCh := if c.isOutput then { c with safeState := true, holdLevel := c.driven } else c

theorem FioCh.expired_output {c : FioCh} (h : c.isOutput) : c.expired = { c with safeState := true, holdLevel := c.driven } := if_pos h

theorem FioCh.expired_cfg (c : FioCh) : c.expired.cfg = c.cfg := by
  unfold FioCh.expired
  split <;> rfl

theorem FioCh.expired_lead (c : FioCh) : c.expired.lead = c.lead := by
  unfold FioCh.expired
  split <;> rfl

theorem exec_fioWatchdog {g : Nat} (up : (s.fioGroup g).accepted) (armed : (s.fioGroup g).wdSafe = false)
    (due : s.passed (s.fioGroup g).lastTx (s.fioGroup g).cfg.wdTime) :
    exec (.fioWatchdog g) s = .next (s.regroup g (FioGroup.expired · s.ts32 s.now) FioCh.expired) := by
  show execFioWatchdog g s = _
  simp only [execFioWatchdog, up, armed, due, Bool.not_false, Bool.and_self, if_true]
  rfl

theorem exec_fioWatchdog_holds (s : State) (g : Nat) (up : (s.fioGroup g).accepted) (armed : (s.fioGroup g).wdSafe = false)
    (due : s.passed (s.fioGroup g).lastTx (s.fioGroup g).cfg.wdTime) :
    ∃ t, exec (.fioWatchdog g) s = .next t ∧ (t.fioGroup g).wdSafe = true ∧ (t.fioGroup g).expiry = some (s.ts32, s.now) ∧
      (∀ n ∈ groupChans g, (s.fioCh n).isOutput → (t.fioCh n).safeState = true ∧ (t.fioCh n).holdLevel = (s.fioCh n).driven ∧
        (t.fioCh n).cmd = (s.fioCh n).cmd ∧ ((s.fioCh n).lead → t.Governed n)) ∧ OnlyTouches [.fresh, .fio, .log, .diag] s t := by
  have run := exec_fioWatchdog up armed due
  have group := s.regroup_group (State.fioGroup_lt_of FioGroup.accepted up) (FioGroup.expired · s.ts32 s.now) FioCh.expired
  refine ⟨_, run, FioGroup.of_still FioGroup.wdSafe group, FioGroup.of_still FioGroup.expiry group, fun n hn out => ?_,
    (execFioWatchdog_kept g (.refl s)).frame run⟩
  have still := s.regroup_ch hn (State.fioCh_lt_of FioCh.isOutput out) (FioGroup.expired · s.ts32 s.now) FioCh.expired
  rw [FioCh.expired_output out] at still
  exact ⟨FioCh.of_still FioCh.safeState still, FioCh.of_still FioCh.holdLevel still, (FioCh.of_still FioCh.cmd still :),
    fun lead => s.regroup_governed hn out lead _ FioCh.expired_cfg FioCh.expired_lead⟩

/-! ### The supply (R328) -/

/-- A group at another supply level (R328). -/
def FioGroup.atLevel (x : FioGroup) (l : LplusLevel) : FioGroup :=
  { x with
    level := l
    undervolt := decide (l = .undervolt)
    undervoltEntries := if l = .undervolt then satInc 8 x.undervoltEntries else x.undervoltEntries
    diagSuspended := decide (l = .diagSuspended) }

/-- A channel whose group passes at `now` from the level `old` to the level `l` (R328, R329). -/
def FioCh.atLevel (c : FioCh) (old l : LplusLevel) (now : Ns) : FioCh :=
  { c with
    pulse := if l = .undervolt || l = .diagSuspended then .none else c.pulse
    goodAt := if old = .undervolt then now + c.debounce else c.goodAt
    heldOff := c.heldOff || (decide (old = .undervolt) && c.isOutput && c.cmd && c.resumeManual)
    heldOffSeenOff := c.heldOffSeenOff && c.heldOff }

/-- A change of channels takes no time. -/
theorem State.forEach_onCh_now (k : Ns → FioCh → FioCh) (l : List Nat) {s : State} {now : Ns} (h : s.now = now) :
    (s.forEach l fun s n => s.onCh n (k s.now)) = s.forEach l fun s n => s.onCh n (k now) := by
  induction l generalizing s with
  | nil => rfl
  | cons n l ih =>
    rw [State.forEach_cons, State.forEach_cons, h]
    exact ih (s := s.onCh n (k now)) h

theorem State.fioToLevel_eq (g : Nat) (l : LplusLevel) (mv : Nat) : s.fioToLevel g l mv =
    ((s.regroup g (FioGroup.atLevel · l) (FioCh.atLevel · (s.fioGroup g).level l s.now)).raise .fio 0).report .fioSupply g
      [(s.fioGroup g).level.num, l.num, mv] := by
  have time : (s.onGroup g (FioGroup.atLevel · l)).now = s.now := rfl
  rw [State.regroup, ← State.forEach_onCh_now (fun now c => c.atLevel (s.fioGroup g).level l now) _ time]
  rfl

/-- A group's channels and the group itself, at another supply level. -/
theorem State.fioToLevel_fio (g : Nat) (l : LplusLevel) (mv : Nat) :
    (s.fioToLevel g l mv).fio.chans = (s.regroup g (FioGroup.atLevel · l) (FioCh.atLevel · (s.fioGroup g).level l s.now)).fio.chans ∧
    (s.fioToLevel g l mv).fio.groups = (s.regroup g (FioGroup.atLevel · l) (FioCh.atLevel · (s.fioGroup g).level l s.now)).fio.groups := by
  simp only [State.fioToLevel_eq, State.report_fio, State.raise_at_fio, and_self]

theorem State.fioToLevel_group {g : Nat} (h : g < s.fio.groups.length) (l : LplusLevel) (mv : Nat) :
    ((s.fioToLevel g l mv).fioGroup g).still = ((s.fioGroup g).atLevel l).still := by
  rw [State.fioGroup_congr (State.fioToLevel_fio g l mv).2, s.regroup_group h]

theorem State.fioToLevel_governed {g n : Nat} (hn : n ∈ groupChans g) (out : (s.fioCh n).isOutput) (lead : (s.fioCh n).lead)
    (l : LplusLevel) (mv : Nat) : (s.fioToLevel g l mv).Governed n := by
  obtain ⟨chans, groups⟩ := State.fioToLevel_fio (s := s) g l mv
  rw [State.Governed, State.fioCh_congr chans, State.fioGroup_congr groups]
  exact s.regroup_governed hn out lead (FioGroup.atLevel · l) (k := (FioCh.atLevel · (s.fioGroup g).level l s.now))

theorem State.fioToLevel_event (g : Nat) (l : LplusLevel) (mv : Nat) : (s.fioToLevel g l mv).fio.event.bits.getLsbD 0 = true := by
  rw [State.fioToLevel_eq, State.report_fio, State.raise_at_fio]
  exact W1C.raise_bits _ 0 (by decide)

variable (s) in
/-- A group takes a mean of L+; above 32 V it is logged (R308, R328). -/
def State.supplyTaken (g mv : Nat) : State :=
  let s' := if decide (32000 < mv) && !(s.fioGroup g).overvolt then s.report .fioOvervolt g [mv] else s
  s'.onGroup g fun x =>
    { x with
      lplusMv := mv, overvolt := decide (32000 < mv), accepted := x.accepted && decide (9000 ≤ mv)
      riseSince := (lplusThreshold.zip x.riseSince).map fun y => if y.1.2 ≤ mv then some (y.2.getD s'.now) else none }

theorem State.supplyTaken_fio (g mv : Nat) : ∃ (o : Bool) (r : FioGroup → List (Option Ns)),
    (s.supplyTaken g mv).fio = { s.fio with groups := updAt s.fio.groups g fun x =>
    { x with lplusMv := mv, overvolt := o, accepted := x.accepted && decide (9000 ≤ mv), riseSince := r x } } := by
  unfold State.supplyTaken
  split
  · exact ⟨_, _, rfl⟩
  · exact ⟨_, _, rfl⟩

theorem State.supplyTaken_group {g : Nat} (h : g < s.fio.groups.length) (mv : Nat) : ∃ o r, (s.supplyTaken g mv).fioGroup g =
    { s.fioGroup g with lplusMv := mv, overvolt := o, accepted := (s.fioGroup g).accepted && decide (9000 ≤ mv), riseSince := r } := by
  obtain ⟨o, r, fio⟩ := s.supplyTaken_fio g mv
  refine ⟨o, r (s.fioGroup g), ?_⟩
  rw [State.fioGroup, fio]
  exact nth_updAt_self _ _ _ _ h

theorem exec_fioSupply_falls {g mv : Nat} (fall : (s.fioGroup g).level.num < (lplusLevel mv).num) : exec (.fioSupply g mv) s = .next
    (((s.supplyTaken g mv).fioToLevel g (lplusLevel mv) mv).onGroup g fun x => { x with recovering := !x.rises.isEmpty }) := by
  show execFioSupply g mv s = _
  simp only [execFioSupply, fall, if_true]
  rfl

theorem exec_fioSupply_governs (s : State) (g mv : Nat) (hg : g < s.fio.groups.length) (fall : (s.fioGroup g).level.num < (lplusLevel mv).num) :
    ∃ t, exec (.fioSupply g mv) s = .next t ∧ (t.fioGroup g).level = lplusLevel mv ∧ (t.fioGroup g).lplusMv = mv ∧
      (t.fioGroup g).accepted = ((s.fioGroup g).accepted && decide (9000 ≤ mv)) ∧ t.fio.event.bits.getLsbD 0 = true ∧
      (∀ n ∈ groupChans g, (s.fioCh n).isOutput → (s.fioCh n).lead →
        t.Governed n ∧ (lplusLevel mv = .undervolt → (t.fioCh n).driven = false)) ∧ OnlyTouches [.fresh, .fio, .log, .diag] s t := by
  have run := exec_fioSupply_falls fall
  obtain ⟨o, r, fio⟩ := s.supplyTaken_fio g mv
  obtain ⟨o', r', taken⟩ := State.supplyTaken_group hg mv
  have group := State.fioToLevel_group (s := s.supplyTaken g mv) (by rwa [fio, length_updAt]) (lplusLevel mv) mv
  rw [taken] at group
  have chan (n : Nat) : (s.supplyTaken g mv).fioCh n = s.fioCh n := State.fioCh_congr (by rw [fio]) n
  have keeps {α : Type} (p : FioGroup → α) (hp : ∀ x b, p { x with recovering := b } = p x := by exact fun _ _ => rfl) :=
    ((s.supplyTaken g mv).fioToLevel g (lplusLevel mv) mv).fioGroup_onGroup_keeps p g g
      (f := fun x => { x with recovering := !x.rises.isEmpty }) fun x => hp x _
  refine ⟨_, run, (keeps FioGroup.level).trans (FioGroup.of_still FioGroup.level group),
    (keeps FioGroup.lplusMv).trans (FioGroup.of_still FioGroup.lplusMv group),
    (keeps FioGroup.accepted).trans (FioGroup.of_still FioGroup.accepted group), ?_, fun n hn out lead => ?_,
    (execFioSupply_kept g mv (.refl s)).frame run⟩
  · rw [State.event_onGroup]
    exact State.fioToLevel_event g _ mv
  · have governed := State.fioToLevel_governed (s := s.supplyTaken g mv) hn (by rwa [chan]) (by rwa [chan]) (lplusLevel mv) mv
    rw [State.Governed, groupOf_of_mem hn] at governed
    rw [State.Governed, groupOf_of_mem hn, State.fioCh_onGroup, keeps fun x => x.drives _]
    exact ⟨governed, fun under => governed.trans (FioGroup.drives_of_dead (.inr ((FioGroup.of_still FioGroup.level group).trans under)) _)⟩

/-- Settles O23, clause by clause: each change of a group drives its outputs in ascending order, after which they stand as R321 says. -/
theorem groupsTakeTheirSafeStates : Obligations.GroupsTakeTheirSafeStates :=
  ⟨exec_fioHandshake_safe, exec_fioHandshake_opens, exec_fioWatchdog_holds, exec_fioSupply_governs⟩

end Sys2Proof.Machine
end

section
/-! SUPPORT. Diagnosis of field channels: detections, pairs, dark pulses, probes and conditions of the pins (spec/09_field_io.md R325 to R328). -/

namespace Sys2Proof.Machine

set_option Elab.async false

open Sys2Proof

variable {s : State}

/-! ### Detections (R325) and pairs (R326, R327) -/

theorem State.fioDetect_event (n bit : Nat) : (s.fioDetect n bit).fio.event = s.fio.event.raise 1 := rfl

theorem State.fioDetect_log (n bit : Nat) :
    (s.fioDetect n bit).log = (s.report .fioDiag n [bit, (s.fioCh n).pinMv, (s.fioCh n).current]).log := rfl

theorem State.fioPair_first {n m : Nat} (ne : m ≠ n) (r : n < s.fio.chans.length) (i j : Nat) :
    (s.fioPair n i m j).fioCh n = { s.fioCh n with partner := some m, diag := (s.fioCh n).diag.raise i } := by
  rw [State.fioPair, State.fioCh_fioDetect_ne ne.symm, State.fioCh_onCh_ne ne.symm, State.fioCh_fioDetect_self (by rwa [State.length_chans_onCh]),
    State.fioCh_onCh_self r]

theorem State.fioPair_second {n m : Nat} (ne : m ≠ n) (r : m < s.fio.chans.length) (i j : Nat) :
    (s.fioPair n i m j).fioCh m = { s.fioCh m with partner := some n, diag := (s.fioCh m).diag.raise j } := by
  have r' : m < ((s.onCh n fun c => { c with partner := some m }).fioDetect n i).fio.chans.length := by
    rwa [State.length_chans_fioDetect, State.length_chans_onCh]
  rw [State.fioPair, State.fioCh_fioDetect_self (by rwa [State.length_chans_onCh]), State.fioCh_onCh_self r', State.fioCh_fioDetect_ne ne,
    State.fioCh_onCh_ne ne]

theorem State.fioPair_event (n i m j : Nat) : (s.fioPair n i m j).fio.event.bits.getLsbD 1 = true := by
  rw [State.fioPair, State.fioDetect_event]
  exact W1C.raise_bits _ 1 (by decide)

/-! ### Dark pulses (R326) -/

theorem exec_fioDarkPulse (x : DarkIn) : exec (.fioDarkPulse x) s = execFioDarkPulse x s := rfl

theorem exec_fioDarkPulse_frame {x : DarkIn} {t : State} (run : exec (.fioDarkPulse x) s = .next t) : OnlyTouches [.fresh, .fio, .log, .diag] s t :=
  (execFioDarkPulse_kept x (.refl s)).frame run

theorem exec_fioDarkPulse_start {ch n : Nat} (l : List (Nat × Nat)) (lead : s.gangLead ch = n) (dark : (s.fioCh n).darkPulse)
    (on : (s.fioCh n).driven) (testing : (s.fioGroup (groupOf n)).testing) (far : s.edgeNear n = false) (free : s.pulseFree n) :
    exec (.fioDarkPulse { ch := ch, fell := none, rises := l }) s =
      .next ((s.onCh n fun c => { c with pulse := .dark, pulseAt := some s.now }).drive n) := by
  rw [exec_fioDarkPulse]
  simp only [execFioDarkPulse, lead, dark, on, testing, far, free, Bool.not_false, Bool.and_self, if_true]

theorem exec_fioDarkPulse_opens (s : State) (ch n : Nat) (l : List (Nat × Nat)) (lead : s.gangLead ch = n) (dark : (s.fioCh n).darkPulse)
    (on : (s.fioCh n).driven) (testing : (s.fioGroup (groupOf n)).testing) (far : s.edgeNear n = false) (free : s.pulseFree n) :
    ∃ t, exec (.fioDarkPulse { ch := ch, fell := none, rises := l }) s = .next t ∧ (t.fioCh n).pulse = .dark ∧
      (t.fioCh n).pulseAt = some s.now ∧ (t.fioCh n).driven = false ∧ (t.fioCh n).cmd = (s.fioCh n).cmd ∧
      OnlyTouches [.fresh, .fio, .log, .diag] s t := by
  have r : n < s.fio.chans.length := State.fioCh_lt_of FioCh.driven on
  have run := exec_fioDarkPulse_start l lead dark on testing far free
  have still := State.still_drive_onCh r fun c => { c with pulse := .dark, pulseAt := some s.now }
  exact ⟨_, run, FioCh.of_still FioCh.pulse still, FioCh.of_still FioCh.pulseAt still,
    State.drive_onCh_off r _ (FioGroup.drives_of_pulse (by simp) _), (FioCh.of_still FioCh.cmd still :),
    exec_fioDarkPulse_frame run⟩

variable (s) in
/-- The output of a dark pulse that is over is driven again. -/
def State.pulseOver (n : Nat) : State := (s.onCh n fun c => { c with pulse := .none }).drive n

theorem State.lt_of_pulse {n : Nat} (h : (s.fioCh n).pulse = .dark) : n < s.fio.chans.length :=
  State.fioCh_lt_of (fun c => decide (c.pulse = .dark)) (decide_eq_true h)

theorem State.pulseOver_gangLead {n : Nat} (m : Nat) : (s.pulseOver n).gangLead m = s.gangLead m :=
  (State.drive_switched n).gangLead m |>.trans (State.fioCh_onCh_keeps (fun c => m - m % c.gang.size) n m)

theorem State.pulseOver_testing (n g : Nat) : ((s.pulseOver n).fioGroup g).testing = (s.fioGroup g).testing :=
  (State.drive_switched (s := s.onCh n _) n).testing g

section
variable {ch n : Nat} (l : List (Nat × Nat)) (lead : s.gangLead ch = n) (pulse : (s.fioCh n).pulse = .dark)
  (due : s.passedSince (s.fioCh n).pulseAt (s.fioGroup (groupOf n)).cfg.dpWidth)
include lead pulse due

theorem exec_fioDarkPulse_fell : exec (.fioDarkPulse { ch := ch, fell := some true, rises := l }) s = .next (s.pulseOver n) := by
  rw [exec_fioDarkPulse]
  simp [execFioDarkPulse, lead, pulse, due, State.pulseOver]

theorem exec_fioDarkPulse_stuck {m : Nat} (testing : (s.fioGroup (groupOf n)).testing)
    (found : DarkIn.partner { ch := ch, fell := some false, rises := l } (s.fioCh n).current = some m) :
    exec (.fioDarkPulse { ch := ch, fell := some false, rises := l }) s = .next ((s.pulseOver n).fioPair n 5 (s.gangLead m) 5) := by
  have testing' := s.pulseOver_testing n (groupOf n)
  have lead' := s.pulseOver_gangLead (n := n) m
  rw [testing, State.pulseOver] at testing'
  rw [State.pulseOver] at lead'
  rw [exec_fioDarkPulse]
  simp [execFioDarkPulse, lead, pulse, due, testing', found, lead', State.pulseOver]

end

theorem exec_fioDarkPulse_ends (s : State) (ch n : Nat) (l : List (Nat × Nat)) (lead : s.gangLead ch = n) (pulse : (s.fioCh n).pulse = .dark)
    (due : s.passedSince (s.fioCh n).pulseAt (s.fioGroup (groupOf n)).cfg.dpWidth) :
    ∃ t, exec (.fioDarkPulse { ch := ch, fell := some true, rises := l }) s = .next t ∧ (t.fioCh n).pulse = .none ∧ t.Governed n ∧
      (t.fioCh n).diag = (s.fioCh n).diag ∧ OnlyTouches [.fresh, .fio, .log, .diag] s t := by
  have run := exec_fioDarkPulse_fell l lead pulse due
  have still := State.still_drive_onCh (State.lt_of_pulse pulse) fun c => { c with pulse := .none }
  exact ⟨_, run, FioCh.of_still FioCh.pulse still, State.drive_governed n, (FioCh.of_still FioCh.diag still :),
    exec_fioDarkPulse_frame run⟩

/-- A current that rose by all that the channel carried shows the partner (R326). -/
theorem DarkIn.partner_of_rise (ch m : Nat) {c : Nat} (h : 10000 ≤ c) :
    DarkIn.partner { ch := ch, fell := some false, rises := [(m, c)] } c = some m := by
  have rise : max 10000 (c / 2) ≤ c := by omega
  exact congrArg (Option.map Prod.fst) (List.find?_cons_of_pos (decide_eq_true rise))

theorem exec_fioDarkPulse_pairs (s : State) (ch n m : Nat) (lead : s.gangLead ch = n) (pulse : (s.fioCh n).pulse = .dark)
    (testing : (s.fioGroup (groupOf n)).testing) (due : s.passedSince (s.fioCh n).pulseAt (s.fioGroup (groupOf n)).cfg.dpWidth)
    (leadM : s.gangLead m = m) (ne : m ≠ n) (r : m < s.fio.chans.length) (rise : 10000 ≤ (s.fioCh n).current) :
    ∃ t, exec (.fioDarkPulse { ch := ch, fell := some false, rises := [(m, (s.fioCh n).current)] }) s = .next t ∧
      (t.fioCh n).partner = some m ∧ (t.fioCh m).partner = some n ∧ (t.fioCh n).diag.bits.getLsbD 5 = true ∧
      (t.fioCh m).diag.bits.getLsbD 5 = true ∧ t.fio.event.bits.getLsbD 1 = true ∧ OnlyTouches [.fresh, .fio, .log, .diag] s t := by
  have run := exec_fioDarkPulse_stuck _ lead pulse due testing (DarkIn.partner_of_rise ch m rise)
  have len : (s.pulseOver n).fio.chans.length = s.fio.chans.length := (State.drive_switched n).len.trans (State.length_chans_onCh n _)
  rw [leadM] at run
  have first := State.fioPair_first ne (len.symm ▸ State.lt_of_pulse pulse) 5 5
  have second := State.fioPair_second ne (len.symm ▸ r) 5 5
  refine ⟨_, run, ?_, ?_, ?_, ?_, State.fioPair_event n 5 m 5, exec_fioDarkPulse_frame run⟩
  · rw [first]
  · rw [second]
  · rw [first]
    exact W1C.raise_bits _ 5 (by decide)
  · rw [second]
    exact W1C.raise_bits _ 5 (by decide)

/-! ### Probes and pins (R325, R327) -/

theorem exec_fioBackfeedProbe_short {ch n : Nat} (lead : s.gangLead ch = n) (out : (s.fioCh n).isOutput) (off : (s.fioCh n).cmd = false)
    (testing : (s.fioGroup (groupOf n)).testing) :
    exec (.fioBackfeedProbe { ch := ch, fellDuring := [] }) s = .next (s.fioDetect n 4) := by
  show execFioBackfeedProbe { ch := ch, fellDuring := [] } s = _
  simp only [execFioBackfeedProbe, lead, out, off, testing, Bool.not_false, Bool.and_self, Bool.not_true, Bool.false_eq_true, if_false, List.find?_nil]

theorem exec_fioBackfeedProbe_detects (s : State) (ch n : Nat) (lead : s.gangLead ch = n) (out : (s.fioCh n).isOutput)
    (off : (s.fioCh n).cmd = false) (testing : (s.fioGroup (groupOf n)).testing) :
    ∃ t, exec (.fioBackfeedProbe { ch := ch, fellDuring := [] }) s = .next t ∧
      t.fioCh n = { s.fioCh n with diag := (s.fioCh n).diag.raise 4 } ∧ t.fio.event = s.fio.event.raise 1 ∧
      t.log = (s.report .fioDiag n [4, (s.fioCh n).pinMv, (s.fioCh n).current]).log ∧ OnlyTouches [.fio, .log] s t := by
  have run := exec_fioBackfeedProbe_short lead out off testing
  exact ⟨_, run, State.fioCh_fioDetect_self (State.fioCh_lt_of FioCh.isOutput out) 4, State.fioDetect_event n 4, State.fioDetect_log n 4,
    (execFioBackfeedProbe_kept { ch := ch, fellDuring := [] } (.refl s)).frame run⟩

theorem exec_fioOpenWire {ch n : Nat} (lead : s.gangLead ch = n) (active : s.owActive n) : exec (.fioOpenWire ch) s =
    .next ((if (s.fioCh n).isInput then s.onCh n fun c => { c with openWire := true } else s).fioDetect n 2) := by
  show execFioOpenWire ch s = _
  simp only [execFioOpenWire, lead, active, if_true]

theorem State.lt_of_owActive {n : Nat} (h : s.owActive n) : n < s.fio.chans.length :=
  State.fioCh_lt_of (fun c => c.cfg.any (·.owEnable)) (Bool.and_eq_true_iff.mp h).1

theorem exec_fioOpenWire_detects (s : State) (ch n : Nat) (lead : s.gangLead ch = n) (active : s.owActive n) :
    ∃ t, exec (.fioOpenWire ch) s = .next t ∧
      t.fioCh n = { s.fioCh n with diag := (s.fioCh n).diag.raise 2, openWire := (s.fioCh n).openWire || (s.fioCh n).isInput } ∧
      t.fio.event = s.fio.event.raise 1 ∧ t.log = (s.report .fioDiag n [2, (s.fioCh n).pinMv, (s.fioCh n).current]).log ∧
      OnlyTouches [.fio, .log] s t := by
  have r := State.lt_of_owActive active
  have run := exec_fioOpenWire lead active
  have frame := (execFioOpenWire_kept (M := (· ∈ [.fio, .log])) ch (.refl s)).frame run
  by_cases input : (s.fioCh n).isInput
  · rw [if_pos input] at run frame
    have ch := State.fioCh_onCh_self r fun c => { c with openWire := true }
    refine ⟨_, run, ?_, State.fioDetect_event n 2, ?_, frame⟩
    · rw [State.fioCh_fioDetect_self (by rwa [State.length_chans_onCh]), ch, input, Bool.or_true]
    · rw [State.fioDetect_log, ch]
      rfl
  · rw [if_neg input] at run frame
    refine ⟨_, run, ?_, State.fioDetect_event n 2, State.fioDetect_log n 2, frame⟩
    rw [State.fioCh_fioDetect_self r, Bool.eq_false_of_not_eq_true input, Bool.or_false]

theorem exec_fioIndeterminate {ch : Nat} (input : (s.fioCh ch).isInput) (testing : (s.fioGroup (groupOf ch)).testing) :
    exec (.fioIndeterminate ch) s = .next ((s.onCh ch fun c => { c with indeterminate := true }).fioDetect ch 7) := by
  show execFioIndeterminate ch s = _
  simp only [execFioIndeterminate, input, testing, Bool.and_self, if_true]

/-- An indeterminate input is not GOOD (R325). -/
theorem State.fioQuality_ne_good {n : Nat} (input : (s.fioCh n).isInput) (h : (s.fioCh n).indeterminate) : s.fioQuality n ≠ .good := by
  unfold State.fioQuality
  extract_lets c g
  have out : c.isOutput = false := FioCh.not_isOutput_of_isInput input
  have ind : (decide (g.level = .diagSuspended) || c.indeterminate) = true := by rw [show c.indeterminate = true from h, Bool.or_true]
  rw [out, ind]
  split
  · decide
  · rw [if_neg Bool.false_ne_true]
    split <;> decide

theorem exec_fioIndeterminate_detects (s : State) (ch : Nat) (input : (s.fioCh ch).isInput) (testing : (s.fioGroup (groupOf ch)).testing) :
    ∃ t, exec (.fioIndeterminate ch) s = .next t ∧
      t.fioCh ch = { s.fioCh ch with diag := (s.fioCh ch).diag.raise 7, indeterminate := true } ∧ t.fioQuality ch ≠ .good ∧
      t.fio.event = s.fio.event.raise 1 ∧ OnlyTouches [.fio, .log] s t := by
  have run := exec_fioIndeterminate input testing
  have r : ch < s.fio.chans.length := State.fioCh_lt_of FioCh.isInput input
  have chan : ((s.onCh ch fun c => { c with indeterminate := true }).fioDetect ch 7).fioCh ch =
      { s.fioCh ch with diag := (s.fioCh ch).diag.raise 7, indeterminate := true } := by
    rw [State.fioCh_fioDetect_self (by rwa [State.length_chans_onCh]), State.fioCh_onCh_self r]
  exact ⟨_, run, chan, State.fioQuality_ne_good (by rw [chan]; exact input) (by rw [chan]), State.fioDetect_event ch 7,
    (execFioIndeterminate_kept ch (.refl s)).frame run⟩

/-- Settles O25, clause by clause. -/
theorem diagnosisSetsItsBits : Obligations.DiagnosisSetsItsBits :=
  ⟨exec_fioDarkPulse_opens, exec_fioDarkPulse_ends, exec_fioDarkPulse_pairs, exec_fioBackfeedProbe_detects, exec_fioOpenWire_detects,
    exec_fioIndeterminate_detects⟩

end Sys2Proof.Machine
end

section
/-! SUPPORT. The life of field groups: coupler frames, loss, edges and synchronisation (spec/09_field_io.md R309, R313 to R315). -/

namespace Sys2Proof.Machine

set_option Elab.async false

open Sys2Proof

variable {s : State}

/-! ### Coupler frames (R309, R315) -/

/-- A group to which the logic side's own frame goes out, when frames go out at all (R309). -/
def FioGroup.sentTo (y : FioGroup) (s : State) : FioGroup := { y with lastTx := if !s.sys.held && !s.sys.lastwords then s.now else y.lastTx }

/-- A group that the frame `x` shows alive at `now` (R309). -/
def FioGroup.alive (y : FioGroup) (x : CouplerIn) (now : Ns) : FioGroup :=
  { y with
    lastRx := now, lost := false, link := y.accepted, temp := x.temp.getD y.temp
    ctrlOvertemp := decide (1250 < x.temp.getD y.temp) }

variable (s) in
/-- Its group has taken the frame `x`, but for measurements and edge records. -/
def State.groupAlive (x : CouplerIn) : State := (s.onGroup x.g (FioGroup.sentTo · s)).onGroup x.g (FioGroup.alive · x s.now)

section
variable {x : CouplerIn} (created : (s.fioGroup x.g).created)
include created

theorem exec_fioCouplerFrame_valid (valid : x.valid) : exec (.fioCouplerFrame x) s = .next
    ((((s.groupAlive x).forEach (x.chans.filter fun m => groupOf m.ch == x.g) State.fioMeasure).takeEdges x.g).diagArrives x.g) := by
  show execFioCouplerFrame x s = _
  simp only [execFioCouplerFrame, created, valid, Bool.not_true, Bool.false_eq_true, if_false]
  rfl

theorem exec_fioCouplerFrame_invalid (invalid : x.valid = false) : exec (.fioCouplerFrame x) s = .next
    ((s.onGroup x.g (FioGroup.sentTo · s)).onChk fun c => { c with pathFail := updAt c.pathFail 9 (satInc 32) }) := by
  show execFioCouplerFrame x s = _
  simp only [execFioCouplerFrame, created, invalid, Bool.not_true, Bool.not_false, Bool.false_eq_true, if_false, if_true]
  rfl

theorem State.groupAlive_group : (s.groupAlive x).fioGroup x.g = ((s.fioGroup x.g).sentTo s).alive x s.now := by
  have r : x.g < s.fio.groups.length := State.fioGroup_lt_of FioGroup.created created
  have r' : x.g < (s.onGroup x.g (FioGroup.sentTo · s)).fio.groups.length := (length_updAt ..).symm ▸ r
  rw [State.groupAlive, State.fioGroup_onGroup_self r', State.fioGroup_onGroup_self r]

end

theorem State.forEach_fioMeasure_groups (l : List ChMeasure) : (s.forEach l State.fioMeasure).fio.groups = s.fio.groups :=
  State.forEach_keeps (fun s => s.fio.groups) (f := State.fioMeasure) (fun _ _ => rfl) l s

theorem State.diagArrives_fio (g : Nat) : (s.diagArrives g).fio = s.fio :=
  (State.diagArrives_kept (M := (· ∈ [.capt])) g (.refl s)).parts .fio (by simp)

/-- Up to 8 edge records leave the group's FIFO, and nothing else of the group changes but the end of an episode of losses (R315). -/
theorem State.takeEdges_group {g : Nat} (r : g < s.fio.groups.length) : ∃ since episode, (s.takeEdges g).fioGroup g =
    { s.fioGroup g with fifo := (s.fioGroup g).fifo.drop 8, fifoEmptySince := since, edgeLostEpisode := episode } := by
  unfold State.takeEdges
  extract_lets x rest since
  have fio (u : State) (l : List EdgeRec) : (u.forEach l State.edgeArrives).fio = u.fio :=
    State.forEach_keeps State.fio (fun v e => (State.edgeArrives_kept (M := (· ∈ [.tide, .capt])) e (.refl v)).parts .fio (by simp)) l u
  refine ⟨since, x.edgeLostEpisode && !since.any fun t => s.passed t (msec 10), ?_⟩
  rw [State.fioGroup_congr (congrArg FioState.groups (fio _ _)), State.fioGroup_onGroup_self r]

theorem exec_fioCouplerFrame_shows (s : State) (x : CouplerIn) (created : (s.fioGroup x.g).created) (valid : x.valid) :
    ∃ t, exec (.fioCouplerFrame x) s = .next t ∧ (t.fioGroup x.g).lastRx = s.now ∧ (t.fioGroup x.g).lost = false ∧
      (t.fioGroup x.g).link = (s.fioGroup x.g).accepted ∧ (t.fioGroup x.g).fifo = (s.fioGroup x.g).fifo.drop 8 ∧
      OnlyTouches [.tide, .fio, .capt, .chk] s t := by
  have run := exec_fioCouplerFrame_valid created valid
  have alive := State.groupAlive_group created
  have measured := State.fioGroup_congr (State.forEach_fioMeasure_groups (s := s.groupAlive x) (x.chans.filter fun m => groupOf m.ch == x.g)) x.g
  obtain ⟨since, episode, taken⟩ := State.takeEdges_group (g := x.g)
    (State.fioGroup_lt_of FioGroup.created (by rw [measured, alive]; exact created))
  rw [measured, alive] at taken
  refine ⟨_, run, ?_⟩
  rw [State.fioGroup_congr (congrArg FioState.groups (State.diagArrives_fio x.g)), taken]
  exact ⟨rfl, rfl, rfl, rfl, (execFioCouplerFrame_kept x (.refl s)).frame run⟩

theorem exec_fioCouplerFrame_counts (s : State) (x : CouplerIn) (created : (s.fioGroup x.g).created) (invalid : x.valid = false) :
    ∃ t, exec (.fioCouplerFrame x) s = .next t ∧ (t.fioGroup x.g).lastRx = (s.fioGroup x.g).lastRx ∧
      t.chk = { s.chk with pathFail := updAt s.chk.pathFail 9 (satInc 32) } ∧ OnlyTouches [.fio, .chk] s t :=
  ⟨_, exec_fioCouplerFrame_invalid created invalid, s.fioGroup_onGroup_keeps FioGroup.lastRx x.g x.g, rfl,
    (State.onChk_kept (State.onGroup_kept _ _ (.refl s)) _).frame⟩

/-! ### Loss (R309) -/

theorem exec_fioGroupLost_loses (s : State) (g : Nat) (created : (s.fioGroup g).created) (here : (s.fioGroup g).lost = false)
    (due : s.passed (s.fioGroup g).lastRx (msec 1)) : ∃ t, exec (.fioGroupLost g) s = .next t ∧
      t.fioGroup g = { s.fioGroup g with lost := true, link := false } ∧ t.fio.event = s.fio.event.raise 3 ∧
      t.log = (s.report .fioGroupLost g).log ∧ OnlyTouches [.fio, .log] s t := by
  have run : exec (.fioGroupLost g) s =
      .next (((s.onGroup g fun x => { x with lost := true, link := false }).raise .fio 3).report .fioGroupLost g) := by
    show execFioGroupLost g s = _
    simp only [execFioGroupLost, created, here, due, Bool.not_false, Bool.and_self, if_true]
  exact ⟨_, run, State.fioGroup_onGroup_self (State.fioGroup_lt_of FioGroup.created created) _, rfl, rfl,
    (execFioGroupLost_kept g (.refl s)).frame run⟩

/-! ### Edges of inputs (R313, R314) -/

theorem exec_fioInputEdge {ch : Nat} {level : Bool} {stable : Ns} (stamp : Word) (input : (s.fioCh ch).isInput)
    (up : (s.fioGroup (groupOf ch)).accepted) (new : (s.fioCh ch).level ≠ level) (held : (s.fioCh ch).debounce ≤ stable) :
    exec (.fioInputEdge ch level stamp stable) s =
      .next (((s.onCh ch fun c => { c with level := level }).pushEdge ch level stamp).inputLevel ch level) := by
  show execFioInputEdge ch level stamp stable s = _
  simp only [execFioInputEdge, input, up, decide_eq_true new, decide_eq_true held, Bool.and_self, if_true]

theorem exec_fioInputEdge_records (s : State) (ch : Nat) (level : Bool) (stamp : Word) (stable : Ns) (input : (s.fioCh ch).isInput)
    (up : (s.fioGroup (groupOf ch)).accepted) (new : (s.fioCh ch).level ≠ level) (held : (s.fioCh ch).debounce ≤ stable) :
    ∃ t, exec (.fioInputEdge ch level stamp stable) s = .next t ∧ (t.fioCh ch).level = level ∧ (t.fioCh ch).lastEdge = stamp ∧
      (∀ n, n ≠ ch → t.fioCh n = s.fioCh n) ∧ OnlyTouches [.prot, .logic, .fio, .log, .host] s t := by
  have run := exec_fioInputEdge stamp input up new held
  have r : ch < s.fio.chans.length := State.fioCh_lt_of FioCh.isInput input
  have fio (u : State) : (u.inputLevel ch level).fio = u.fio :=
    (State.inputLevel_kept (M := (· ∈ [.prot, .logic, .log])) ch level (.refl u)).parts .fio (by simp)
  have chan (u : State) (n : Nat) : (u.inputLevel ch level).fioCh n = u.fioCh n := State.fioCh_congr (congrArg FioState.chans (fio u)) n
  have edge := State.fioCh_pushEdge_self (s := s.onCh ch fun c => { c with level := level }) (by rwa [State.length_chans_onCh]) level stamp
  rw [State.fioCh_onCh_self r] at edge
  refine ⟨_, run, ?_, ?_, fun n hn => ?_, (execFioInputEdge_kept ch level stamp stable (.refl s)).frame run⟩
  · rw [chan, edge]
  · rw [chan, edge]
  · rw [chan, State.fioCh_pushEdge_ne hn, State.fioCh_onCh_ne hn]

/-! ### Synchronisation (R314) -/

theorem exec_fioTimeSync_syncs (s : State) (g : Nat) (created : (s.fioGroup g).created) : ∃ t, exec (.fioTimeSync g) s = .next t ∧
    t.fioGroup g = { s.fioGroup g with lastSync := s.now, syncOk := true, unsyncSeen := false } ∧ OnlyTouches [.fio] s t := by
  have run : exec (.fioTimeSync g) s = .next (s.onGroup g fun x => { x with lastSync := s.now, syncOk := true, unsyncSeen := false }) :=
    congrArg _ (if_pos created)
  exact ⟨_, run, State.fioGroup_onGroup_self (State.fioGroup_lt_of FioGroup.created created) _, (execFioTimeSync_kept g (.refl s)).frame run⟩

theorem exec_fioSyncLost_ends (s : State) (g : Nat) (ok : (s.fioGroup g).syncOk) (old : (s.fioGroup g).lastSync + msec 5 < s.now) :
    ∃ t, exec (.fioSyncLost g) s = .next t ∧ t.fioGroup g = { s.fioGroup g with syncOk := false } ∧ OnlyTouches [.fio] s t := by
  have run : exec (.fioSyncLost g) s = .next (s.onGroup g fun x => { x with syncOk := false }) := by
    show execFioSyncLost g s = _
    simp only [execFioSyncLost, ok, decide_eq_true old, Bool.and_self, if_true]
  exact ⟨_, run, State.fioGroup_onGroup_self (State.fioGroup_lt_of FioGroup.syncOk ok) _, (execFioSyncLost_kept g (.refl s)).frame run⟩

/-- Settles O22, clause by clause. -/
theorem groupsLiveByTheirFrames : Obligations.GroupsLiveByTheirFrames :=
  ⟨exec_fioCouplerFrame_shows, exec_fioCouplerFrame_counts, exec_fioGroupLost_loses, exec_fioInputEdge_records, exec_fioTimeSync_syncs,
    exec_fioSyncLost_ends⟩

end Sys2Proof.Machine
end

section
/-! SUPPORT. The releases of a task: what is skipped, what a release that is admitted leaves in the task, and the events that release, latch or merge
(spec/10_logic_engine.md R341, R343 to R345). -/

namespace Sys2Proof.Machine

set_option Elab.async false

open Sys2Proof

variable {s : State} {n : Nat} {x : Task}

/-! ### Skipped releases (R343) -/

/-- The task once a release has been skipped. -/
def Task.missed (x : Task) : Task := { x with overrun := true, skipped := satInc 16 x.skipped, due := false }

theorem State.skipRelease_logic (h : s.task? n = some x) :
    (s.skipRelease n).logic = { (s.onTask n Task.missed).logic with event := s.logic.event.raise 0 } := by
  simp only [State.skipRelease, h]
  split <;> rfl

theorem State.skipRelease_log_of_overrun (h : s.task? n = some x) (again : x.overrun) : (s.skipRelease n).log = s.log := by
  simp only [State.skipRelease, h, again, if_true]
  rfl

theorem State.task?_skipRelease (h : s.task? n = some x) : (s.skipRelease n).task? n = some x.missed := by
  rw [State.task?, State.skipRelease_logic h]
  exact s.task?_onTask h Task.missed

theorem State.groups_skipRelease (s : State) (n : Nat) : (s.skipRelease n).logic.groups = s.logic.groups := by
  unfold State.skipRelease
  split
  · rfl
  · dsimp only
    split <;> rfl

/-- Releases skipped at one instant change nothing of the task but what is due of it, its overrun and their count (R343, R449). -/
theorem State.task?_skipReleases (h : s.task? n = some x) (k : Nat) :
    ∃ o c d, (s.skipReleases n k).task? n = some { x with overrun := o, skipped := c, due := d } := by
  unfold State.skipReleases
  split
  · exact ⟨_, _, _, h⟩
  · exact ⟨_, _, _, State.task?_onTask _ (State.task?_skipRelease h) _⟩

theorem State.taskGroup_skipReleases (s : State) (n k m : Nat) : (s.skipReleases n k).taskGroup m = s.taskGroup m := by
  unfold State.skipReleases
  split
  · rfl
  · exact congrArg (nth · m {}) (s.groups_skipRelease n)

/-! ### The snapshot (R345) -/

/-- A snapshot is that of the present tick and holds the sources fired since the last release (R345). -/
theorem State.task?_snapshot (h : s.task? n = some x) : ∃ p, (s.snapshot n).task? n = some { x with snap := p, results := [] } ∧
    p.tick = s.now ∧ p.time = s.ltc ∧ p.pos = s.tide.pos ∧ p.eventMask = x.mask := by
  simp only [State.snapshot, h]
  exact ⟨_, State.task?_onTask _ h _, rfl, rfl, rfl, rfl⟩

theorem State.fired_snapshot (h : s.task? n = some x) : (s.snapshot n).logic.fired = s.logic.fired := by
  simp only [State.snapshot, h]
  rfl

/-! ### A release that is admitted (R343, R344) -/

/-- The task as a release at the tick `t` with the time stamp `ts` leaves it, its snapshot apart. -/
def Task.released (t : Ns) (ts : Word) (x : Task) : Task :=
  { x with
    running := true, overrun := false, latched := false, held := false, due := false, heldWrite := none, mask := 0, lastMask := x.mask
    lastRel := some t, lastRelTs := ts, releases := wrapInc 32 x.releases }

theorem State.admitCycle_of_free (h : s.task? n = some x) (free : x.heldWrite = none) :
    s.admitCycle n = ((s.snapshot n).onTask n (Task.released s.now s.ts32)).preempt := by
  have kept : Kept (· ∈ [.logic]) s (s.snapshot n) := State.snapshot_kept n (.refl s)
  have now : (s.snapshot n).now = s.now := kept.parts .now (by simp)
  have ltc : (s.snapshot n).ltc = s.ltc := kept.parts .ltc (by simp)
  rw [State.ts32, ← now, ← ltc]
  simp only [State.admitCycle, h, free]
  rfl

/-- Without a write that waits, an admitted release touches the task alone: it runs, on the snapshot of this tick. -/
theorem State.task?_admitCycle (h : s.task? n = some x) (free : x.heldWrite = none) : ∃ p r, (s.admitCycle n).task? n =
      some { ({ x with snap := p, results := [] } : Task).released s.now s.ts32 with preempted := r } ∧
    p.tick = s.now ∧ p.time = s.ltc ∧ p.pos = s.tide.pos ∧ p.eventMask = x.mask := by
  obtain ⟨p, snap, at_⟩ := State.task?_snapshot h
  obtain ⟨r, run⟩ := State.task?_preempt _ ((s.snapshot n).task?_onTask snap (Task.released s.now s.ts32))
  rw [State.admitCycle_of_free h free]
  exact ⟨p, r, run, at_⟩

theorem State.admitCycle_of_free_kept (h : s.task? n = some x) (free : x.heldWrite = none) : Kept (· ∈ [.logic]) s (s.admitCycle n) := by
  rw [State.admitCycle_of_free h free]
  exact State.preempt_kept (State.onTask_kept _ _ (State.snapshot_kept n (.refl s)))

theorem State.fired_admitCycle (h : s.task? n = some x) (free : x.heldWrite = none) : (s.admitCycle n).logic.fired = s.logic.fired := by
  rw [State.admitCycle_of_free h free]
  exact State.fired_snapshot h

/-! ### Releases (R341, R343) -/

/-- A release instant that has been taken is no longer due, and a TIME task's next one follows it. -/
def State.instantTaken (s : State) (n : Nat) (x : Task) : State :=
  s.onTask n fun y => { y with relIdx := x.cfg.kind.index s.ltc, due := false }

theorem State.task?_instantTaken (h : s.task? n = some x) :
    (s.instantTaken n x).task? n = some { x with relIdx := x.cfg.kind.index s.ltc, due := false } :=
  s.task?_onTask h _

/-- A release that finds the cycle over is admitted, after the instants that a step of the counter has passed over (R341, R449). -/
theorem State.releaseTask_of_idle (h : s.task? n = some x) (idle : x.running = false) (swapped : (s.taskGroup x.cfg.group).swapEnd ≤ s.now) :
    s.releaseTask n = ((s.instantTaken n x).skipReleases n (x.cfg.kind.index s.ltc - x.relIdx - 1)).admitCycle n := by
  have now (k : Nat) : ((s.instantTaken n x).skipReleases n k).now = s.now :=
    (State.skipReleases_kept (M := (· ∈ [.logic, .log])) n k (.refl (s.instantTaken n x))).parts .now (by simp)
  have group (k : Nat) : ((s.instantTaken n x).skipReleases n k).taskGroup x.cfg.group = s.taskGroup x.cfg.group :=
    State.taskGroup_skipReleases ..
  have swap (k : Nat) : ¬((s.instantTaken n x).skipReleases n k).now <
      (((s.instantTaken n x).skipReleases n k).taskGroup x.cfg.group).swapEnd := by
    rw [now, group]
    exact not_lt.mpr swapped
  simp only [State.instantTaken] at swap ⊢
  simp only [State.releaseTask, h, swap, idle, Bool.false_eq_true, if_false]

/-- A release that finds the cycle still running is skipped (R343). -/
theorem State.releaseTask_of_running (h : s.task? n = some x) (run : x.running) (next : x.cfg.kind.index s.ltc ≤ x.relIdx + 1)
    (swapped : (s.taskGroup x.cfg.group).swapEnd ≤ s.now) : s.releaseTask n = (s.instantTaken n x).skipRelease n := by
  have noneMissed : x.cfg.kind.index s.ltc - x.relIdx - 1 = 0 := by omega
  have swap : ¬s.now < (s.taskGroup x.cfg.group).swapEnd := not_lt.mpr swapped
  simp only [State.releaseTask, h, noneMissed, State.skipReleases, run, if_true]
  exact if_neg swap

/-- What an admitted release leaves of the task. -/
theorem State.task?_releaseTask_of_idle (h : s.task? n = some x) (idle : x.running = false) (free : x.heldWrite = none)
    (swapped : (s.taskGroup x.cfg.group).swapEnd ≤ s.now) : ∃ y, (s.releaseTask n).task? n = some y ∧
      y.running = true ∧ y.due = false ∧ y.latched = false ∧ y.overrun = false ∧ y.lastRel = some s.now ∧ y.lastRelTs = s.ts32 ∧
      y.releases = wrapInc 32 x.releases ∧ y.lastMask = x.mask ∧ y.mask = 0 ∧ y.snap.tick = s.now ∧ y.snap.time = s.ltc ∧
      y.snap.pos = s.tide.pos ∧ y.snap.eventMask = x.mask ∧ OnlyTouches [.logic, .log] s (s.releaseTask n) := by
  let k := x.cfg.kind.index s.ltc - x.relIdx - 1
  let u := (s.instantTaken n x).skipReleases n k
  have skips : Kept (· ∈ [.logic, .log]) s u := State.skipReleases_kept n k (State.onTask_kept n _ (.refl s))
  obtain ⟨o, c, d, taken⟩ := State.task?_skipReleases (State.task?_instantTaken h) k
  obtain ⟨p, r, hy, tick, time, pos, mask⟩ := State.task?_admitCycle (s := u) taken free
  have now : u.now = s.now := skips.parts .now (by simp)
  have ltc : u.ltc = s.ltc := skips.parts .ltc (by simp)
  have tide : u.tide = s.tide := skips.parts .tide (by simp)
  have admits := (State.admitCycle_of_free_kept (s := u) taken free).mono (N := (· ∈ [.logic, .log])) (by simp)
  rw [State.releaseTask_of_idle h idle swapped]
  refine ⟨_, hy, rfl, rfl, rfl, rfl, congrArg some now, congrArg ts32of ltc, rfl, rfl, rfl, tick.trans now, time.trans ltc, ?_, mask,
    (skips.trans admits).frame⟩
  rw [← tide]
  exact pos

theorem exec_logicTaskRelease (up : s.logic.phase = .running) (h : s.task? n = some x) (active : x.suspended = false) (free : x.held = false)
    (due : s.instantDue x) : exec (.logicTaskRelease n) s = .next (s.releaseTask n) := by
  show execLogicTaskRelease n s = _
  simp [execLogicTaskRelease, h, up, active, free, due]

theorem exec_logicTaskRelease_releases (s : State) (n : Nat) (x : Task) (up : s.logic.phase = .running) (h : s.task? n = some x)
    (active : x.suspended = false) (free : x.held = false) (due : s.instantDue x) (idle : x.running = false) (left : x.heldWrite = none)
    (swapped : (s.taskGroup x.cfg.group).swapEnd ≤ s.now) :
    ∃ t y, exec (.logicTaskRelease n) s = .next t ∧ t.task? n = some y ∧ y.running = true ∧ y.due = false ∧ y.latched = false ∧
      y.overrun = false ∧ y.lastRel = some s.now ∧ y.lastRelTs = s.ts32 ∧ y.releases = wrapInc 32 x.releases ∧ y.lastMask = x.mask ∧
      y.mask = 0 ∧ y.snap.tick = s.now ∧ y.snap.time = s.ltc ∧ y.snap.pos = s.tide.pos ∧ OnlyTouches [.logic, .log] s t := by
  obtain ⟨y, hy, run, given, latch, overrun, rel, ts, count, last, mask, tick, time, pos, -, frame⟩ :=
    State.task?_releaseTask_of_idle h idle left swapped
  exact ⟨_, y, exec_logicTaskRelease up h active free due, hy, run, given, latch, overrun, rel, ts, count, last, mask, tick, time, pos, frame⟩

theorem exec_logicTaskRelease_skips (s : State) (n : Nat) (x : Task) (up : s.logic.phase = .running) (h : s.task? n = some x)
    (active : x.suspended = false) (free : x.held = false) (due : s.instantDue x) (run : x.running)
    (next : x.cfg.kind.index s.ltc ≤ x.relIdx + 1) (swapped : (s.taskGroup x.cfg.group).swapEnd ≤ s.now) :
    ∃ t y, exec (.logicTaskRelease n) s = .next t ∧ t.task? n = some y ∧ y.running = true ∧ y.overrun = true ∧
      y.skipped = satInc 16 x.skipped ∧ y.lastRel = x.lastRel ∧ y.releases = x.releases ∧ y.snap = x.snap ∧
      t.logic.event = s.logic.event.raise 0 ∧ (x.overrun → t.log = s.log) ∧ OnlyTouches [.logic, .log] s t := by
  have taken := State.task?_instantTaken h
  have frame : Kept (· ∈ [.logic, .log]) s ((s.instantTaken n x).skipRelease n) := State.skipRelease_kept n (State.onTask_kept n _ (.refl s))
  rw [exec_logicTaskRelease up h active free due, State.releaseTask_of_running h run next swapped]
  exact ⟨_, _, rfl, State.task?_skipRelease taken, run, rfl, rfl, rfl, rfl, rfl, congrArg LogicState.event (State.skipRelease_logic taken),
    fun again => State.skipRelease_log_of_overrun taken again, frame.frame⟩

/-! ### Event sources (R344) -/

variable {src : Nat}

/-- The fired source has been taken, and the task notes it in its mask. -/
def State.sourceTaken (s : State) (n src : Nat) : State :=
  (s.onLogic fun l => { l with fired := l.fired.erase (n, src) }).onTask n fun y => { y with mask := y.mask ||| 2 ^ src }

theorem State.task?_sourceTaken (h : s.task? n = some x) : (s.sourceTaken n src).task? n = some { x with mask := x.mask ||| 2 ^ src } :=
  State.task?_onTask (s.onLogic fun l => { l with fired := l.fired.erase (n, src) }) h _

theorem State.sourceTaken_kept (s : State) (n src : Nat) : Kept (· ∈ [.logic]) s (s.sourceTaken n src) :=
  State.onTask_kept n _ (State.onLogic_kept (.refl s) _)

section
variable {mi : Nat} {l : List EventSource} (h : s.task? n = some x) (fired : (n, src) ∈ s.logic.fired) (kind : x.cfg.kind = .event mi l)
include h fired kind

theorem exec_logicEventSource_of_latched (latched : x.latched) : exec (.logicEventSource n src) s =
    .next ((s.sourceTaken n src).onTask n fun y => { y with merged := satInc 16 y.merged }) := by
  show execLogicEventSource n src s = _
  simp [execLogicEventSource, h, fired, kind, latched, State.sourceTaken]

theorem exec_logicEventSource_of_running (free : x.latched = false) (run : x.running) : exec (.logicEventSource n src) s =
    .next ((s.sourceTaken n src).onTask n fun y => { y with latched := true }) := by
  show execLogicEventSource n src s = _
  simp [execLogicEventSource, h, fired, kind, free, run, State.sourceTaken]

theorem exec_logicEventSource_of_idle (free : x.latched = false) (up : s.logic.phase = .running) (active : x.suspended = false)
    (idle : x.running = false) (old : x.lastRel.all fun a => s.passed a mi) : exec (.logicEventSource n src) s =
    .next ((s.sourceTaken n src).releaseTask n) := by
  have old' : x.lastRel.all (fun a => (s.sourceTaken n src).passed a mi) = true := old
  simp only [State.sourceTaken] at old' ⊢
  show execLogicEventSource n src s = _
  simp only [execLogicEventSource, h, List.contains_iff_mem.mpr fired, kind, free, active, idle, old', Bool.not_true, Bool.not_false,
    Bool.false_eq_true, if_false]
  exact congrArg _ (if_pos (by simp [State.onTask, up]))
end

theorem exec_logicEventSource_merges (s : State) (n src mi : Nat) (l : List EventSource) (x : Task) (h : s.task? n = some x)
    (fired : (n, src) ∈ s.logic.fired) (kind : x.cfg.kind = .event mi l) (latched : x.latched) :
    ∃ t, exec (.logicEventSource n src) s = .next t ∧
      t.task? n = some { x with mask := x.mask ||| 2 ^ src, merged := satInc 16 x.merged } ∧
      t.logic.fired = s.logic.fired.erase (n, src) ∧ OnlyTouches [.logic] s t :=
  ⟨_, exec_logicEventSource_of_latched h fired kind latched, State.task?_onTask _ (State.task?_sourceTaken h) _, rfl,
    (State.onTask_kept n _ (s.sourceTaken_kept n src)).frame⟩

theorem exec_logicEventSource_latches (s : State) (n src mi : Nat) (l : List EventSource) (x : Task) (h : s.task? n = some x)
    (fired : (n, src) ∈ s.logic.fired) (kind : x.cfg.kind = .event mi l) (free : x.latched = false) (run : x.running) :
    ∃ t, exec (.logicEventSource n src) s = .next t ∧ t.task? n = some { x with mask := x.mask ||| 2 ^ src, latched := true } ∧
      t.logic.fired = s.logic.fired.erase (n, src) ∧ OnlyTouches [.logic] s t :=
  ⟨_, exec_logicEventSource_of_running h fired kind free run, State.task?_onTask _ (State.task?_sourceTaken h) _, rfl,
    (State.onTask_kept n _ (s.sourceTaken_kept n src)).frame⟩

/-- An EVENT task has no release instants to pass over. -/
theorem State.fired_releaseTask_of_event {mi : Nat} {l : List EventSource} (h : s.task? n = some x) (kind : x.cfg.kind = .event mi l)
    (idle : x.running = false) (free : x.heldWrite = none) (swapped : (s.taskGroup x.cfg.group).swapEnd ≤ s.now) :
    (s.releaseTask n).logic.fired = s.logic.fired := by
  have noneMissed : x.cfg.kind.index s.ltc - x.relIdx - 1 = 0 := by simp [kind, TaskKind.index]
  rw [State.releaseTask_of_idle h idle swapped, noneMissed]
  exact State.fired_admitCycle (State.task?_instantTaken h) free

theorem exec_logicEventSource_releases (s : State) (n src mi : Nat) (l : List EventSource) (x : Task) (h : s.task? n = some x)
    (fired : (n, src) ∈ s.logic.fired) (kind : x.cfg.kind = .event mi l) (free : x.latched = false) (up : s.logic.phase = .running)
    (active : x.suspended = false) (idle : x.running = false) (old : x.lastRel.all fun a => s.passed a mi) (left : x.heldWrite = none)
    (swapped : (s.taskGroup x.cfg.group).swapEnd ≤ s.now) : ∃ t y, exec (.logicEventSource n src) s = .next t ∧
      t.task? n = some y ∧ y.running = true ∧ y.lastMask = x.mask ||| 2 ^ src ∧ y.mask = 0 ∧ y.lastRel = some s.now ∧
      y.releases = wrapInc 32 x.releases ∧ y.snap.tick = s.now ∧ y.snap.eventMask = x.mask ||| 2 ^ src ∧
      t.logic.fired = s.logic.fired.erase (n, src) ∧ OnlyTouches [.logic, .log] s t := by
  have noted := State.task?_sourceTaken (src := src) h
  have takes := (s.sourceTaken_kept n src).mono (N := (· ∈ [.logic, .log])) (by simp)
  obtain ⟨y, hy, run, -, -, -, rel, -, count, last, mask, tick, -, -, eventMask, frame⟩ :=
    State.task?_releaseTask_of_idle noted idle left swapped
  have fired' := State.fired_releaseTask_of_event noted kind idle left swapped
  refine ⟨_, y, exec_logicEventSource_of_idle h fired kind free up active idle old, hy, run, last, mask, rel, count, tick, eventMask, fired', ?_⟩
  exact ⟨fun p hp => Part.same_trans (takes.parts p hp) (frame.parts p hp), frame.queue.trans takes.queue⟩

/-- Settles O26, clause by clause. -/
theorem tasksReleaseLatchAndSkip : Obligations.TasksReleaseLatchAndSkip :=
  ⟨exec_logicTaskRelease_releases, exec_logicTaskRelease_skips, exec_logicEventSource_merges, exec_logicEventSource_latches,
    exec_logicEventSource_releases⟩

end Sys2Proof.Machine
end

section
/-! SUPPORT. The stop, the halt and the start of the engine: outputs go to their SAFE settings, and the live program starts
(spec/10_logic_engine.md R356 to R358). -/

namespace Sys2Proof.Machine

set_option Elab.async false

open Sys2Proof

variable {s : State}

/-! ### Outputs at their SAFE settings (R322, R357) -/

/-- The level that the SAFE setting of an output commands, HOLD being its present level (R322). -/
def FioCh.safeNow (c : FioCh) : Bool :=
  match c.safe with
  | .off => false
  | .on => true
  | .hold => c.driven

theorem State.commandSafe_eq (s : State) (n : Nat) : s.commandSafe n = s.sendFio n (s.fioCh n).safeNow := rfl

/-- A command sent over a coupler leaves the gangs as they are. -/
theorem State.gangLead_sendFio (s : State) (n : Nat) (level : Bool) (m : Nat) : (s.sendFio n level).gangLead m = s.gangLead m :=
  State.fioCh_onCh_keeps (fun c => m - m % c.gang.size) _ m

theorem State.gangLead_commandSafe (s : State) (n m : Nat) : (s.commandSafe n).gangLead m = s.gangLead m := s.gangLead_sendFio ..

theorem State.fioCh_commandSafe_ne {m n : Nat} (lead : s.gangLead m = m) (ne : n ≠ m) : (s.commandSafe m).fioCh n = s.fioCh n :=
  State.fioCh_sendFio_ne lead ne _

theorem State.fioCh_forEach_commandSafe_of_not_mem {n : Nat} {l : List Nat} (s : State) (leads : ∀ m ∈ l, s.gangLead m = m) (out : n ∉ l) :
    (s.forEach l State.commandSafe).fioCh n = s.fioCh n := by
  induction l generalizing s with
  | nil => rfl
  | cons m l ih =>
    rw [List.mem_cons, not_or] at out
    rw [List.forall_mem_cons] at leads
    rw [State.forEach_cons, ih _ (fun k hk => (s.gangLead_commandSafe m k).trans (leads.2 k hk)) out.2, State.fioCh_commandSafe_ne leads.1 out.1]

/-- Every output of the list, each the first of its gang, is commanded once to its SAFE setting. -/
theorem State.fioCh_forEach_commandSafe {n : Nat} {l : List Nat} (s : State) (leads : ∀ m ∈ l, s.gangLead m = m) (once : l.Nodup) (h : n ∈ l)
    (r : n < s.fio.chans.length) : ((s.forEach l State.commandSafe).fioCh n).sent =
      (s.fioCh n).sent ++ [((s.fioCh n).safeNow, s.now)] := by
  induction l generalizing s with
  | nil => cases h
  | cons m l ih =>
    obtain ⟨out, once⟩ := List.nodup_cons.mp once
    rw [List.forall_mem_cons] at leads
    have leads' : ∀ k ∈ l, (s.commandSafe m).gangLead k = k := fun k hk => (s.gangLead_commandSafe m k).trans (leads.2 k hk)
    rw [State.forEach_cons]
    obtain rfl | h := List.mem_cons.mp h
    · rw [State.fioCh_forEach_commandSafe_of_not_mem _ leads' out, State.commandSafe_eq, State.fioCh_sendFio_self leads.1 r]
    · have ne : n ≠ m := fun e => out (e ▸ h)
      have len : (s.commandSafe m).fio.chans.length = s.fio.chans.length := State.length_chans_onCh _ _
      rw [ih _ leads' once h (by rwa [len]), State.fioCh_commandSafe_ne leads.1 ne]
      rfl

/-! ### The engine falls quiet (R357) -/

/-- The outputs of LOGIC, each by the first of its gang. -/
def State.logicOuts (s : State) : List Nat := (List.range 192).filter fun n => (s.fioCh n).owner == some .logic && s.gangLead n == n

theorem State.logic_logicQuiet (s : State) : s.logicQuiet.logic = s.abandonCycles.logic :=
  State.forEach_keeps State.logic (f := State.commandSafe) (fun _ _ => rfl) s.logicOuts s.abandonCycles

@[simp] theorem State.log_logicQuiet (s : State) : s.logicQuiet.log = s.log :=
  (State.logicQuiet_kept (M := (· ∈ [.prot, .logic, .fio])) (.refl s)).parts .log (by simp)

@[simp] theorem State.ltc_logicQuiet (s : State) : s.logicQuiet.ltc = s.ltc :=
  (State.logicQuiet_kept (M := (· ∈ [.prot, .logic, .fio])) (.refl s)).parts .ltc (by simp)

@[simp] theorem State.host_logicQuiet (s : State) : s.logicQuiet.host = s.host :=
  (State.logicQuiet_kept (M := (· ∈ [.prot, .logic, .fio])) (.refl s)).parts .host (by simp)

theorem State.sent_logicQuiet {n : Nat} (in_ : n < 192) (r : n < s.fio.chans.length) (owner : (s.fioCh n).owner = some .logic)
    (lead : s.gangLead n = n) : (s.logicQuiet.fioCh n).sent = (s.fioCh n).sent ++ [((s.fioCh n).safeNow, s.now)] := by
  have leads : ∀ m ∈ s.logicOuts, s.gangLead m = m := fun m hm => by simpa using (Bool.and_eq_true_iff.mp (List.mem_filter.mp hm).2).2
  have h : n ∈ s.logicOuts := List.mem_filter.mpr ⟨List.mem_range.mpr in_, by simp [owner, lead]⟩
  exact State.fioCh_forEach_commandSafe s.abandonCycles leads (List.nodup_range.filter _) h r

/-- No cycle runs, waits with its write, or is due. -/
theorem State.tasks_logicQuiet (s : State) : ∀ x ∈ s.logicQuiet.logic.tasks, x.running = false ∧ x.heldWrite = none ∧ x.due = false := by
  intro x hx
  rw [State.logic_logicQuiet] at hx
  obtain ⟨y, -, rfl⟩ := List.mem_map.mp hx
  exact ⟨rfl, rfl, rfl⟩

theorem State.trips_logicQuiet (s : State) : ∀ x ∈ s.logicQuiet.prot.trips, x.logicAdd = false ∧ x.logicMask = false := by
  intro x hx
  obtain ⟨y, -, rfl⟩ := List.mem_map.mp hx
  exact ⟨rfl, rfl⟩

theorem State.elems_logicQuiet (s : State) : ∀ x ∈ s.logicQuiet.prot.elems, x.logicBlock = false := by
  intro x hx
  obtain ⟨y, -, rfl⟩ := List.mem_map.mp hx
  rfl

/-! ### Halts (R343, R356) -/

/-- What halts the engine: an ECC error, or else a cycle that has run for 8 periods. -/
def haltCause (ecc : Bool) : HaltCause := if ecc then .ecc else .overlong

theorem exec_logicHalt {ecc : Bool} (up : s.logic.phase = .running)
    (why : ecc = true ∨ s.logic.tasks.any (fun x => x.running && s.passedSince x.lastRel (8 * s.taskPeriod x))) :
    exec (.logicHalt ecc) s = .next (s.logicHalt (haltCause ecc)) := by
  show execLogicHalt ecc s = _
  cases ecc
  · have long := why.resolve_left Bool.false_ne_true
    simp only [execLogicHalt, up, long, haltCause, ne_eq, not_true, Bool.false_eq_true, if_true, if_false]
  · simp only [execLogicHalt, up, haltCause, ne_eq, not_true, if_true, if_false]

theorem exec_logicHalt_halts (s : State) (ecc : Bool) (up : s.logic.phase = .running)
    (why : ecc = true ∨ s.logic.tasks.any (fun x => x.running && s.passedSince x.lastRel (8 * s.taskPeriod x))) :
    ∃ t, exec (.logicHalt ecc) s = .next t ∧ t.logic.phase = .halted ∧ t.logic.haltCause = (if ecc then .ecc else .overlong) ∧
      (∀ x ∈ t.logic.tasks, x.running = false ∧ x.heldWrite = none ∧ x.due = false) ∧
      (∀ x ∈ t.prot.trips, x.logicAdd = false ∧ x.logicMask = false) ∧ (∀ x ∈ t.prot.elems, x.logicBlock = false) ∧
      (∀ n < 192, n < s.fio.chans.length → (s.fioCh n).owner = some .logic → s.gangLead n = n →
        (t.fioCh n).sent = (s.fioCh n).sent ++ [((match (s.fioCh n).safe with
          | .off => false
          | .on => true
          | .hold => (s.fioCh n).driven), s.now)]) ∧
      t.logic.event = s.logic.event.raise 3 ∧ t.log = (s.report .logicHalt 0xFFFF [if ecc then 2 else 1]).log ∧
      OnlyTouches [.prot, .logic, .fio, .log] s t := by
  let u := s.onLogic fun l => { l with phase := .halted, haltCause := haltCause ecc }
  have logic : (s.logicHalt (haltCause ecc)).logic = { u.abandonCycles.logic with event := s.logic.event.raise 3 } := by
    show { u.logicQuiet.logic with event := u.logicQuiet.logic.event.raise 3 } = _
    rw [u.logic_logicQuiet]
    rfl
  refine ⟨_, exec_logicHalt up why, congrArg LogicState.phase logic, congrArg LogicState.haltCause logic, u.tasks_logicQuiet, u.trips_logicQuiet,
    u.elems_logicQuiet, fun n in_ r owner lead => State.sent_logicQuiet (s := u) in_ r owner lead, congrArg LogicState.event logic, ?_,
    (State.logicHalt_kept _ (.refl s)).frame⟩
  cases ecc <;> simp [State.logicHalt, haltCause, HaltCause.num]

/-! ### Stops (R356, R357) -/

theorem exec_logicStop {b : Nat} (h : s.ctlCmd b = some .logicStop) : exec (.logicStop b) s =
    .next (s.runCtl b (s.refuseLogic (s.logic.phase = .running)) fun s =>
      ((((s.onLogic fun l => { l with phase := .stopped }).logicQuiet).raise .logic 2).report .logicStop 0xFFFF []).done b) := by
  show execLogicStop b s = _
  simp only [execLogicStop, h]

theorem exec_logicStop_stops (s : State) (b : Nat) (h : s.ctlCmd b = some .logicStop) (up : s.logic.phase = .running) :
    ∃ t, exec (.logicStop b) s = .next t ∧ DoneOn b 0 t ∧ t.logic.phase = .stopped ∧
    (∀ x ∈ t.logic.tasks, x.running = false ∧ x.heldWrite = none) ∧
    (∀ x ∈ t.prot.trips, x.logicAdd = false ∧ x.logicMask = false) ∧ t.logic.event = s.logic.event.raise 2 ∧
    t.log = (s.report .logicStop 0xFFFF []).log ∧ OnlyTouches [.prot, .logic, .fio, .log, .host] s t := by
  let u := (s.leaveCtl b).onLogic fun l => { l with phase := .stopped }
  have run := exec_logicStop h
  simp only [State.refuseLogic, up, decide_true, if_true, State.runCtl] at run
  have logic : ((u.logicQuiet.raise .logic 2).report .logicStop).logic = { u.abandonCycles.logic with event := s.logic.event.raise 2 } := by
    show { u.logicQuiet.logic with event := u.logicQuiet.logic.event.raise 2 } = _
    rw [u.logic_logicQuiet]
    rfl
  have done : DoneOn b 0 (((u.logicQuiet.raise .logic 2).report .logicStop).done b) := State.doneOn_of_ctlCmd h u.host_logicQuiet
  refine ⟨_, run, done, congrArg LogicState.phase logic, fun x hx => ?_, u.trips_logicQuiet, congrArg LogicState.event logic, ?_,
    (execLogicStop_kept b (.refl s)).frame run⟩
  · obtain ⟨idle, free, -⟩ := u.tasks_logicQuiet x hx
    exact ⟨idle, free⟩
  · simp

/-! ### Refusals (R356, R489) -/

/-- What a refusal at the start of CTL leaves: the item's end, and nothing of the blocks but LOG and HOST. -/
theorem State.runCtl_refuses {b : Nat} {c : BerthCmd} (h : s.ctlCmd b = some c) (r : Refuse) (f : State → State) :
    RefusedOn b r.st0 (s.runCtl b (some r) f) ∧ (s.runCtl b (some r) f).logic = s.logic ∧
      OnlyTouches [.log, .host] s (s.runCtl b (some r) f) := by
  obtain ⟨it, hit, -⟩ := State.ctlCmd_item h
  have item : ((s.leaveCtl b).item b).isSome := Option.isSome_iff_exists.mpr ⟨it, hit⟩
  have kept : Kept (· ∈ [.log, .host]) s ((s.leaveCtl b).refuseItem b r .ctl) := State.refuseItem_kept b r .ctl (State.leaveCtl_kept b (.refl s))
  exact ⟨State.refusedOn_refuseItem item .ctl, kept.parts .logic (by simp), kept.frame⟩

theorem exec_logicStop_refused (s : State) (b : Nat) (h : s.ctlCmd b = some .logicStop) (down : s.logic.phase ≠ .running) :
    ∃ t, exec (.logicStop b) s = .next t ∧ RefusedOn b s.logicStatus t ∧ t.logic = s.logic ∧ OnlyTouches [.log, .host] s t := by
  have refused : s.refuseLogic (s.logic.phase = .running) = some { blk := .logic, st0 := s.logicStatus } := by simp [State.refuseLogic, down]
  have run := exec_logicStop h
  rw [refused] at run
  exact ⟨_, run, State.runCtl_refuses h _ _⟩

/-! ### Starts (R356, R358) -/

/-- What a start gives the engine: its state, the cause of a halt, the program and its tasks. -/
def LogicState.course (l : LogicState) : LogicPhase × HaltCause × LogicCfg × List Task := (l.phase, l.haltCause, l.prog, l.tasks)

/-- The start of a group leaves the course of the engine. -/
theorem State.course_startGroup (warm : Bool) (s : State) (m : Nat) : (s.startGroup warm m).logic.course = s.logic.course := by
  unfold State.startGroup
  dsimp only
  rw [State.when_keeps fun s => s.logic.course]
  · show LogicState.course (State.logic (State.forEach _ _ _)) = _
    rw [State.forEach_keeps fun s => s.logic.course]
    · rfl
    · exact fun _ _ => rfl
  · exact fun _ => rfl

theorem State.course_startLogic (s : State) (warm : Bool) : ∃ tasks,
    (s.startLogic warm).logic.course = (.running, .none, s.manifest.logic, tasks) ∧
      tasks.map (·.cfg) = s.manifest.logic.tasks ∧ ∀ x ∈ tasks, x.running = false := by
  refine ⟨_, State.forEach_keeps (fun s => s.logic.course) (State.course_startGroup warm) _ _, ?_, fun x hx => ?_⟩
  · exact (List.map_map ..).trans (List.map_id _)
  · obtain ⟨c, -, rfl⟩ := List.mem_map.mp hx
    rfl

theorem exec_logicStart {b : Nat} {warm : Bool} (h : s.ctlCmd b = some (.logicStart warm)) : exec (.logicStart b) s =
    .next (s.runCtl b (s.refuseLogic (s.logic.phase = .stopped || s.logic.phase = .halted)) fun s => (s.startLogic warm).done b) := by
  show execLogicStart b s = _
  simp only [execLogicStart, h]

theorem exec_logicStart_starts (s : State) (b : Nat) (warm : Bool) (h : s.ctlCmd b = some (.logicStart warm))
    (down : s.logic.phase = .stopped ∨ s.logic.phase = .halted) :
    ∃ t, exec (.logicStart b) s = .next t ∧ DoneOn b 0 t ∧ t.logic.phase = .running ∧ t.logic.haltCause = .none ∧
      t.logic.prog = s.manifest.logic ∧ t.logic.tasks.map (·.cfg) = s.manifest.logic.tasks ∧ (∀ x ∈ t.logic.tasks, x.running = false) ∧
      t.logic.event.bits.getLsbD 1 = true ∧ OnlyTouches [.logic, .log, .chk, .host] s t := by
  have run := exec_logicStart h
  have accepts : (decide (s.logic.phase = .stopped) || decide (s.logic.phase = .halted)) = true := by simpa using down
  simp only [State.refuseLogic, accepts, if_true, State.runCtl] at run
  obtain ⟨tasks, course, cfgs, idle⟩ := (s.leaveCtl b).course_startLogic warm
  obtain ⟨phase, cause, prog, rfl⟩ : _ ∧ _ ∧ _ ∧ _ = tasks := by simpa only [LogicState.course, Prod.mk.injEq] using course
  have host : ((s.leaveCtl b).startLogic warm).host = (s.leaveCtl b).host :=
    (State.startLogic_kept (M := (· ∈ [.logic, .log, .chk])) warm (.refl _)).parts .host (by simp)
  exact ⟨_, run, State.doneOn_of_ctlCmd h host, phase, cause, prog, cfgs, idle, W1C.raise_bits _ 1 (by omega),
    (execLogicStart_kept b (.refl s)).frame run⟩

theorem exec_logicStart_refused (s : State) (b : Nat) (warm : Bool) (h : s.ctlCmd b = some (.logicStart warm))
    (other : s.logic.phase = .running ∨ s.logic.phase = .idle) :
    ∃ t, exec (.logicStart b) s = .next t ∧ RefusedOn b s.logicStatus t ∧ t.logic = s.logic ∧ OnlyTouches [.log, .host] s t := by
  have refused : s.refuseLogic (s.logic.phase = .stopped || s.logic.phase = .halted) = some { blk := .logic, st0 := s.logicStatus } := by
    obtain p | p := other <;> simp [State.refuseLogic, p]
  have run := exec_logicStart h
  rw [refused] at run
  exact ⟨_, run, State.runCtl_refuses h _ _⟩

/-- Settles O28, clause by clause. -/
theorem engineStopsHaltsAndStarts : Obligations.EngineStopsHaltsAndStarts :=
  ⟨exec_logicHalt_halts, exec_logicStop_stops, exec_logicStop_refused, exec_logicStart_starts, exec_logicStart_refused⟩

end Sys2Proof.Machine
end

section
/-! SUPPORT. LOGIC commands of the host, and the exchange of a group's program (spec/10_logic_engine.md R340, R350, R363 to R365). -/

namespace Sys2Proof.Machine

set_option Elab.async false

open Sys2Proof

variable {s : State} {b m : Nat}

/-! ### The commands of the host (R340, R350, R363) -/

theorem exec_logicRead {l : List Nat} (h : s.ctlCmd b = some (.logicRead l)) : exec (.logicRead b) s =
    .next ((s.leaveCtl b).done b (BitVec.ofInt 64 ((s.logicValues l).headD 0))) := by
  show execLogicRead b s = _
  simp only [execLogicRead, h, State.runCtl]
  rfl

theorem exec_logicRead_answers (s : State) (b : Nat) (l : List Nat) (h : s.ctlCmd b = some (.logicRead l)) :
    ∃ t, exec (.logicRead b) s = .next t ∧ DoneOn b (BitVec.ofInt 64 ((s.logicValues l).headD 0)) t ∧ OnlyTouches [.host] s t := by
  obtain ⟨it, hit, -⟩ := State.ctlCmd_item h
  have item : ((s.leaveCtl b).item b).isSome := Option.isSome_iff_exists.mpr ⟨it, hit⟩
  exact ⟨_, exec_logicRead h, State.doneOn _ b _ item (s.not_mem_leaveCtl b), (State.done_kept b _ (State.leaveCtl_kept b (.refl s))).frame⟩

/-- A command that changes LOGIC alone is done, whatever the change. -/
theorem State.doneOn_onLogic {c : BerthCmd} (h : s.ctlCmd b = some c) (f : LogicState → LogicState) :
    DoneOn b 0 (((s.leaveCtl b).onLogic f).done b) ∧ (((s.leaveCtl b).onLogic f).done b).logic = f s.logic ∧
      OnlyTouches [.logic, .host] s (((s.leaveCtl b).onLogic f).done b) :=
  ⟨State.doneOn_of_ctlCmd h rfl, rfl, (State.done_kept b 0 (State.onLogic_kept (State.leaveCtl_kept b (.refl s)) f)).frame⟩

theorem exec_logicWrite {a : Nat} {v : Int} (h : s.ctlCmd b = some (.logicWrite a v)) : exec (.logicWrite b) s =
    .next (((s.leaveCtl b).onLogic fun l => { l with hostWrites := l.hostWrites.filter (·.1 != a) ++ [(a, v)] }).done b) := by
  show execLogicWrite b s = _
  simp only [execLogicWrite, h, State.runCtl]

theorem exec_logicEvent {n mi p : Nat} {l : List EventSource} {x : Task} (h : s.ctlCmd b = some (.logicEvent n p)) (hx : s.task? n = some x)
    (kind : x.cfg.kind = .event mi l) (source : .command ∈ l) : exec (.logicEvent b) s =
      .next (((s.leaveCtl b).onLogic fun y => { y with fired := y.fired ++ [(n, l.idxOf .command)] }).done b) := by
  show execLogicEvent b s = _
  simp only [execLogicEvent, h, hx, Option.bind_some, kind, List.contains_iff_mem.mpr source, if_true, State.runCtl]

theorem exec_logicStage {p : LogicCfg} {ok : Bool} (h : s.ctlCmd b = some (.logicStage p ok)) : exec (.logicStage b) s =
    .next (((s.leaveCtl b).onLogic fun l => { l with staged := some { prog := p, sigOk := ok } }).done b) := by
  show execLogicStage b s = _
  simp only [execLogicStage, h, State.runCtl]

/-! ### Groups by number -/

/-- A group that is not as at reset exists. -/
theorem State.taskGroup_lt (pending : (s.taskGroup m).exchPending) : m < s.logic.groups.length := by
  by_contra k
  rw [State.taskGroup, nth, List.getElem?_eq_none (not_lt.mp k)] at pending
  exact Bool.false_ne_true pending

theorem State.taskGroup_onTaskGroup_ne {k : Nat} (ne : k ≠ m) (f : Group → Group) : (s.onTaskGroup m f).taskGroup k = s.taskGroup k :=
  nth_updAt_ne _ _ _ _ _ ne.symm

theorem State.taskGroup_congr {t : State} (h : t.logic.groups = s.logic.groups) (k : Nat) : t.taskGroup k = s.taskGroup k :=
  congrArg (fun l => nth l k ({} : Group)) h

/-- A change of a group that leaves its program, and its part in an exchange, as they are. -/
def Group.ExchKept (f : Group → Group) : Prop :=
  ∀ g, (f g).prog = g.prog ∧ (f g).exchPending = g.exchPending ∧ (f g).swapEnd = g.swapEnd

theorem State.onTaskGroup_onTaskGroup (s : State) (m : Nat) (f g : Group → Group) :
    (s.onTaskGroup m f).onTaskGroup m g = s.onTaskGroup m fun x => g (f x) := by
  simp only [State.onTaskGroup, State.onLogic, updAt, List.modify_modify_eq]
  rfl

/-- Asking for a commit changes the commits of the group alone (R361). -/
theorem State.askCommit_group (s : State) (m : Nat) (lines : List Nat) :
    ∃ f, s.askCommit m lines = s.onTaskGroup m f ∧ Group.ExchKept f := by
  unfold State.askCommit
  dsimp only
  split
  · exact ⟨_, State.onTaskGroup_onTaskGroup .., fun _ => ⟨rfl, rfl, rfl⟩⟩
  · split
    · exact ⟨_, State.onTaskGroup_onTaskGroup .., fun _ => ⟨rfl, rfl, rfl⟩⟩
    · exact ⟨_, State.onTaskGroup_onTaskGroup .., fun _ => ⟨rfl, rfl, rfl⟩⟩

/-! ### The end of an exchange (R365) -/

/-- The end of an exchange changes MIXED and the exchange alone. -/
theorem State.endExchange_eq (s : State) : ∃ mx e, s.endExchange = s.onLogic fun l => { l with mixed := mx, exch := e } := by
  unfold State.endExchange
  split
  · exact ⟨s.logic.mixed, s.logic.exch, rfl⟩
  · exact ⟨_, _, rfl⟩

/-- MIXED stays while a group has kept its old program. -/
theorem State.mixed_endExchange {x : Exchange} (mixed : s.logic.mixed) (exch : s.logic.exch = some x) (failed : x.failed) :
    s.endExchange.logic.mixed = true := by
  unfold State.endExchange
  split
  · exact mixed
  · simp [mixed, exch, failed]

/-! ### A group swaps (R364) -/

/-- A swap changes group `m` alone, which runs the new program after at most 200 µs (R364). -/
theorem State.swapGroup_groups (s : State) (m : Nat) (p : LogicCfg) : ∃ f d, d ≤ 200000 ∧
    (s.swapGroup m p).logic.groups = updAt s.logic.groups m f ∧
    (∀ g, (f g).prog = p ∧ (f g).exchPending = false ∧ (f g).swapEnd = s.now + d) ∧
    (s.swapGroup m p).logic.prog = p ∧ (s.swapGroup m p).logic.event = s.logic.event.raise 5 := by
  unfold State.swapGroup
  extract_lets g oldV oldI d s0 s1 newV newI held heldI counts val inst s2 s3
  obtain ⟨f, ask, keeps⟩ : ∃ f, s3 = s2.onTaskGroup m f ∧ Group.ExchKept f := s2.askCommit_group ..
  obtain ⟨mx, e, ended⟩ := ((s3.raise .logic 5).report .logicExchange m
    [g.prog.hash.toNat, p.hash.toNat, counts.carried, counts.new, counts.dropped, counts.retyped]).endExchange_eq
  refine ⟨fun g => f { g with prog := p, exchPending := false, swapEnd := s.now + min d.1 200000 }, min d.1 200000, min_le_right _ _, ?_,
    fun g => keeps _, ?_, ?_⟩
  · rw [ended, ask]
    exact List.modify_modify_eq ..
  · rw [ended, ask]
    rfl
  · rw [ended, ask]
    rfl

theorem exec_logicExchange {x : Exchange} (exch : s.logic.exch = some x) (pending : (s.taskGroup m).exchPending) (quiet : s.groupQuiet m) :
    exec (.logicExchange m) s = .next (s.swapGroup m x.prog) := by
  show execLogicExchange m s = _
  simp only [execLogicExchange, exch, pending, quiet, Bool.and_self, if_true]

theorem exec_logicExchange_swaps (s : State) (m : Nat) (x : Exchange) (exch : s.logic.exch = some x) (pending : (s.taskGroup m).exchPending)
    (quiet : s.groupQuiet m) :
    ∃ t, exec (.logicExchange m) s = .next t ∧ (t.taskGroup m).prog = x.prog ∧ (t.taskGroup m).exchPending = false ∧
      s.now ≤ (t.taskGroup m).swapEnd ∧ (t.taskGroup m).swapEnd ≤ s.now + 200000 ∧ t.logic.prog = x.prog ∧
      t.logic.event = s.logic.event.raise 5 ∧ (∀ k, k ≠ m → t.taskGroup k = s.taskGroup k) ∧ OnlyTouches [.fresh, .logic, .log] s t := by
  obtain ⟨f, d, short, groups, swaps, prog, event⟩ := s.swapGroup_groups m x.prog
  have group (k : Nat) : (s.swapGroup m x.prog).taskGroup k = (s.onTaskGroup m f).taskGroup k := State.taskGroup_congr groups k
  obtain ⟨new, leaves, ends⟩ := swaps (s.taskGroup m)
  rw [← State.taskGroup_onTaskGroup (State.taskGroup_lt pending) f, ← group] at new leaves ends
  refine ⟨_, exec_logicExchange exch pending quiet, new, leaves, Nat.le.intro ends.symm, ends.le.trans (Nat.add_le_add_left short _), prog,
    event, fun k ne => ?_, (State.swapGroup_kept m x.prog (.refl s)).frame⟩
  rw [group, State.taskGroup_onTaskGroup_ne ne]

/-! ### A group keeps its old program (R365) -/

/-- The group takes no further part in an exchange. -/
def Group.leaveExch (g : Group) : Group := { g with exchPending := false }

/-- The exchange has failed in group `m`. -/
def State.exchFailed (s : State) (m : Nat) : State :=
  (((s.onTaskGroup m Group.leaveExch).onLogic fun l =>
    { l with mixed := true, exch := l.exch.map fun x => { x with failed := true } }).raise .logic 6).report .logicExchFail m [m]

theorem exec_logicExchFail {x : Exchange} (exch : s.logic.exch = some x) (pending : (s.taskGroup m).exchPending)
    (late : s.passed x.committedAt (secs 1)) : exec (.logicExchFail m) s = .next (s.exchFailed m).endExchange := by
  show execLogicExchFail m s = _
  simp only [execLogicExchFail, exch, pending, late, Bool.and_self, if_true]
  rfl

theorem exec_logicExchFail_keeps (s : State) (m : Nat) (x : Exchange) (exch : s.logic.exch = some x) (pending : (s.taskGroup m).exchPending)
    (late : s.passed x.committedAt (secs 1)) :
    ∃ t, exec (.logicExchFail m) s = .next t ∧ t.taskGroup m = { s.taskGroup m with exchPending := false } ∧ t.logic.mixed = true ∧
      t.logic.event = s.logic.event.raise 6 ∧ t.log = (s.report .logicExchFail m [m]).log ∧ t.logic.tasks = s.logic.tasks ∧
      OnlyTouches [.logic, .log] s t := by
  have run := exec_logicExchFail exch pending late
  have failed : (s.exchFailed m).logic.exch = some { x with failed := true } := congrArg (Option.map _) exch
  obtain ⟨mx, e, ended⟩ := (s.exchFailed m).endExchange_eq
  refine ⟨_, run, ?_, State.mixed_endExchange rfl failed rfl, ?_, ?_, ?_, (execLogicExchFail_kept m (.refl s)).frame run⟩ <;> rw [ended]
  · have groups : ((s.exchFailed m).onLogic fun l => { l with mixed := mx, exch := e }).logic.groups =
        (s.onTaskGroup m Group.leaveExch).logic.groups := rfl
    exact (State.taskGroup_congr groups m).trans (State.taskGroup_onTaskGroup (State.taskGroup_lt pending) _)
  all_goals rfl

/-- Settles O29, clause by clause. -/
theorem hostReachesProgramsAndExchanges : Obligations.HostReachesProgramsAndExchanges :=
  ⟨exec_logicRead_answers, fun _ _ _ _ h => ⟨_, exec_logicWrite h, State.doneOn_onLogic h _⟩,
    fun _ _ _ _ _ _ _ h hx kind source => ⟨_, exec_logicEvent h hx kind source, State.doneOn_onLogic h _⟩,
    fun _ _ _ _ h => ⟨_, exec_logicStage h, State.doneOn_onLogic h _⟩, exec_logicExchange_swaps, exec_logicExchFail_keeps⟩

end Sys2Proof.Machine
end

section
/-! SUPPORT. Remote stations: IN payloads sent, payloads received, the drop of a station and its safe state (spec/10_logic_engine.md R353 to R355). -/

namespace Sys2Proof.Machine

set_option Elab.async false

open Sys2Proof

variable {s : State} {n : Nat} {x : Station}

/-! ### Stations by their slot -/

/-- A station that is not as at reset exists. -/
theorem State.station_lt (h : s.station n ≠ {}) : n < s.logic.stations.length := by
  by_contra k
  exact h (by rw [State.station, nth, List.getElem?_eq_none (not_lt.mp k), Option.getD_none])

theorem State.station_lt_of_isStation (h : s.station n = x) (here : x.isStation) : n < s.logic.stations.length := by
  subst h
  exact State.station_lt fun e => by simp [e] at here

theorem State.station_onStation (hn : n < s.logic.stations.length) (f : Station → Station) : (s.onStation n f).station n = f (s.station n) :=
  nth_updAt_self _ _ _ _ hn

theorem State.station_congr {t : State} (h : t.logic.stations = s.logic.stations) (k : Nat) : t.station k = s.station k :=
  congrArg (fun l => nth l k ({} : Station)) h

/-! ### Payloads sent (R353) -/

theorem State.adeidOwn_onLogic (s : State) (g : LogicState → LogicState) (q : Nat) (f : AdeidFrame) :
    (s.onLogic g).adeidOwn q f = (s.adeidOwn q f).onLogic g := by
  have up (k : Nat) : (s.onLogic g).linkUp k = s.linkUp k := rfl
  simp only [State.adeidOwn, up]
  split
  · rfl
  · split <;> rfl

/-- What leaves on the rings does not depend on a station. -/
theorem State.adeidSend_onStation_adeid (s : State) (n : Nat) (f : Station → Station) (dst : Nat) (bcast : Bool) (p : AdeidPayload) :
    ((s.onStation n f).adeidSend dst bcast p).adeid = (s.adeidSend dst bcast p).adeid := by
  simp only [State.onStation, State.adeidSend, State.onLogic_adeid, State.adeidOwn_onLogic]

/-- The IN payload of a station (R353). -/
def State.inPayload (s : State) (x : Station) : RioPayload :=
  { out := false, alive := x.aliveTx, station := s.sec.device, ts := s.ts32
    values := (s.exportNow x).1, valid := (s.exportNow x).2.1, quest := (s.exportNow x).2.2 }

/-- The station once it has sent the values `v` in its IN payload. -/
def Station.inSent (now : Ns) (v : BitVec 64 × BitVec 64 × BitVec 64) (x : Station) : Station :=
  { x with aliveTx := wrapInc 8 x.aliveTx, lastTx := now, txValues := v.1, txValid := v.2.1, txQuest := v.2.2 }

theorem exec_rioInSend (h : s.station n = x) (here : x.isStation) (lanes : 9 ≤ s.sys.stage) (due : s.passed x.lastTx x.period) :
    exec (.rioInSend n) s =
      .next ((s.onStation n (Station.inSent s.now (s.exportNow x))).adeidSend x.node false (.rio (s.inPayload x))) := by
  subst h
  show execRioInSend n s = _
  simp only [execRioInSend, here, not_lt.mpr lanes, due, Bool.not_true, decide_false, Bool.or_true, Bool.false_or, Bool.false_eq_true, if_false]
  rfl

theorem exec_rioInSend_sends (s : State) (n : Nat) (x : Station) (h : s.station n = x) (here : x.isStation) (lanes : 9 ≤ s.sys.stage)
    (due : s.passed x.lastTx x.period) :
    ∃ t, exec (.rioInSend n) s = .next t ∧
      t.station n = { x with
        aliveTx := wrapInc 8 x.aliveTx, lastTx := s.now
        txValues := (s.exportNow x).1, txValid := (s.exportNow x).2.1, txQuest := (s.exportNow x).2.2 } ∧
      t.adeid = (s.adeidSend x.node false (.rio {
        out := false, alive := x.aliveTx, station := s.sec.device, ts := s.ts32
        values := (s.exportNow x).1, valid := (s.exportNow x).2.1, quest := (s.exportNow x).2.2 })).adeid ∧ OnlyTouches [.logic, .adeid] s t := by
  have run := exec_rioInSend h here lanes due
  let u := s.onStation n (Station.inSent s.now (s.exportNow x))
  have stations : (u.adeidSend x.node false (.rio (s.inPayload x))).logic.stations = u.logic.stations := congrArg LogicState.stations
    ((State.adeidSend_kept (M := (· ∈ [.adeid])) _ _ _ (.refl u)).parts .logic (by simp))
  refine ⟨_, run, ?_, ?_, (execRioInSend_kept n (.refl s)).frame run⟩
  · rw [State.station_congr stations, State.station_onStation (State.station_lt_of_isStation h here), h]
    rfl
  · exact State.adeidSend_onStation_adeid ..

/-! ### Payloads received (R353, R354) -/

/-- The slot that a payload from node `src` belongs to, with its number (R353). -/
def State.rioSlot (s : State) (src : Nat) (p : RioPayload) : Option (Station × Nat) :=
  s.logic.stations.zipIdx.find? fun x => x.1.phase != .none && x.1.node == src && x.1.isStation == p.out &&
    (if p.out then p.station == s.sec.device else x.1.device == p.station)

theorem State.rioSlot_some {src : Nat} {p : RioPayload} (h : s.rioSlot src p = some (x, n)) :
    n < s.logic.stations.length ∧ s.station n = x ∧ x.isStation = p.out := by
  obtain ⟨hn, hx⟩ := List.mem_zipIdx' (List.mem_of_find?_eq_some h)
  have test := List.find?_some h
  simp only [Bool.and_eq_true, beq_iff_eq] at test
  obtain ⟨⟨-, role⟩, -⟩ := test
  refine ⟨hn, ?_, role⟩
  rw [State.station, nth, List.getElem?_eq_getElem hn, Option.getD_some]
  exact hx.symm

theorem exec_rioPayloadRx_bad {src : Nat} {p : RioPayload} (h : s.rioSlot src p = some (x, n)) (bad : p.checkOk = false) :
    exec (.rioPayloadRx src p) s = .next ((s.onStation n fun x => { x with checkFails := satInc 8 x.checkFails }).pathFail 3) := by
  simp only [State.rioSlot] at h
  show execRioPayloadRx src p s = _
  simp only [execRioPayloadRx, State.rioRx, h, bad, Bool.not_false, if_true]

theorem exec_rioPayloadRx_counts (s : State) (src n : Nat) (p : RioPayload) (x : Station) (h : s.rioSlot src p = some (x, n))
    (bad : p.checkOk = false) : ∃ t, exec (.rioPayloadRx src p) s = .next t ∧ t.station n = { x with checkFails := satInc 8 x.checkFails } ∧
      t.chk = { s.chk with pathFail := updAt s.chk.pathFail 3 (satInc 32) } ∧ OnlyTouches [.logic, .chk] s t := by
  obtain ⟨hn, hx, -⟩ := State.rioSlot_some h
  refine ⟨_, exec_rioPayloadRx_bad h bad, ?_, rfl, (State.pathFail_kept 3 (State.onStation_kept n _ (.refl s))).frame⟩
  rw [← hx]
  exact State.station_onStation hn _

/-- The slot has tested the payload's alive counter, and the result has been counted (R469 to R472). -/
def State.aliveTested (s : State) (n : Nat) (x : Station) (p : RioPayload) : State :=
  (s.onStation n fun y => { y with aliveRx := (x.aliveRx.test 8 16 true p.alive).2 }).countAlive 3 p.alive (x.aliveRx.test 8 16 true p.alive).1

theorem exec_rioPayloadRx_accepted {src : Nat} {p : RioPayload} (h : s.rioSlot src p = some (x, n)) (good : p.checkOk)
    (fits : x.mismatch = false) (started : p.out → s.logic.phase ≠ .idle) (new : (x.aliveRx.test 8 16 true p.alive).1.accepted) :
    exec (.rioPayloadRx src p) s = .next ((s.aliveTested n x p).stationAccept n p) := by
  have early : ¬((p.out && decide (s.logic.phase = .idle)) = true) := by simpa using started
  simp only [State.rioSlot] at h
  show execRioPayloadRx src p s = _
  simp only [execRioPayloadRx, State.rioRx, h, good, fits, early, new, Bool.not_true, Bool.false_eq_true, if_true, if_false]
  rfl

/-- What is counted of an alive test leaves LOGIC. -/
theorem State.countAlive_logic (s : State) (path a : Nat) (r : AliveResult) : (s.countAlive path a r).logic = s.logic :=
  (State.countAlive_kept (M := (· ∈ [.chk, .log])) path a r (.refl s)).parts .logic (by simp)

/-- The slot as an accepted payload leaves it (R353). -/
def Station.accepting (now : Ns) (p : RioPayload) (x : Station) : Station :=
  { x with phase := .up, since := now, lastRxTs := p.ts, values := p.values, valid := p.valid, quest := p.quest, safe := false }

/-- The payload has been kept in its slot. -/
def State.payloadKept (s : State) (n : Nat) (p : RioPayload) : State := s.onStation n (Station.accepting s.now p)

/-- The written positions of an OUT payload move the outputs. -/
def State.moveOutputs (s : State) (x : Station) (p : RioPayload) : State :=
  s.forEach (x.outputs.zipIdx.filter fun o => p.valid.getLsbD o.2) fun s o => s.sendFio (s.gangLead o.1) (p.values.getLsbD o.2)

/-- The outputs move by the field channels and the time alone. -/
theorem State.moveOutputs_fio {t : State} (fio : t.fio = s.fio) (now : t.now = s.now) (x : Station) (p : RioPayload) :
    (t.moveOutputs x p).fio = (s.moveOutputs x p).fio := by
  unfold State.moveOutputs
  generalize x.outputs.zipIdx.filter _ = l
  induction l generalizing s t with
  | nil => exact fio
  | cons o l ih =>
    rw [State.forEach_cons, State.forEach_cons]
    refine ih ?_ now
    simp only [State.sendFio, State.onCh, State.onFio, State.gangLead, State.fioCh, fio, now]

theorem State.stationAccept_station (h : (s.station n).isStation) (p : RioPayload) :
    s.stationAccept n p = (s.payloadKept n p).moveOutputs (s.station n) p := by
  simp only [State.stationAccept, h, if_true]
  rfl

theorem State.stationAccept_master (h : (s.station n).isStation = false) (p : RioPayload) :
    s.stationAccept n p = (s.payloadKept n p).when ((s.station n).phase = .dropped)
      fun s => (s.raise .logic 8).report .logicStationBack n [n] := by
  simp only [State.stationAccept, h, Bool.false_eq_true, if_false]
  rfl

theorem State.station_stationAccept (hn : n < s.logic.stations.length) (p : RioPayload) :
    (s.stationAccept n p).station n = (s.station n).accepting s.now p := by
  have kept : (s.payloadKept n p).station n = (s.station n).accepting s.now p := State.station_onStation hn _
  rw [← kept]
  cases h : (s.station n).isStation
  · rw [State.stationAccept_master h]
    exact State.when_keeps (fun s => s.station n) (f := fun s => (s.raise .logic 8).report .logicStationBack n [n]) (fun _ => rfl) _ _
  · rw [State.stationAccept_station h]
    exact State.forEach_keeps (fun s => s.station n) (f := fun s o => s.sendFio _ _) (fun _ _ => rfl) _ _

theorem exec_rioPayloadRx_accepts (s : State) (src n : Nat) (p : RioPayload) (x : Station) (h : s.rioSlot src p = some (x, n)) (good : p.checkOk)
    (fits : x.mismatch = false) (started : p.out → s.logic.phase ≠ .idle) (new : (x.aliveRx.test 8 16 true p.alive).1.accepted) :
    ∃ t y, exec (.rioPayloadRx src p) s = .next t ∧ t.station n = y ∧ y.phase = .up ∧ y.since = s.now ∧ y.lastRxTs = p.ts ∧
      y.values = p.values ∧ y.valid = p.valid ∧ y.quest = p.quest ∧ y.safe = false ∧
      (p.out = false → t.fio = s.fio ∧ t.logic.event = if x.phase = .dropped then s.logic.event.raise 8 else s.logic.event) ∧
      (p.out → t.fio = (s.forEach (x.outputs.zipIdx.filter fun o => p.valid.getLsbD o.2) fun s o =>
        s.sendFio (s.gangLead o.1) (p.values.getLsbD o.2)).fio) ∧ OnlyTouches [.logic, .fio, .log, .chk, .adeid] s t := by
  obtain ⟨hn, hx, role⟩ := State.rioSlot_some h
  let u := s.aliveTested n x p
  have run := exec_rioPayloadRx_accepted h good fits started new
  have tests : Kept (· ∈ [.logic, .chk, .log]) s u := State.countAlive_kept _ _ _ (State.onStation_kept n _ (.refl s))
  have now : u.now = s.now := tests.parts .now (by simp)
  have fio : u.fio = s.fio := tests.parts .fio (by simp)
  have logic : u.logic = (s.onStation n fun y => { y with aliveRx := (x.aliveRx.test 8 16 true p.alive).2 }).logic := State.countAlive_logic ..
  have hu : n < u.logic.stations.length := by
    rw [logic]
    exact lt_of_lt_of_eq hn (length_updAt ..).symm
  have tested : u.station n = { x with aliveRx := (x.aliveRx.test 8 16 true p.alive).2 } := by
    rw [State.station_congr (congrArg LogicState.stations logic), State.station_onStation hn, hx]
  refine ⟨_, _, run, State.station_stationAccept hu p, rfl, now, rfl, rfl, rfl, rfl, rfl, fun in_ => ?_, fun out => ?_,
    (execRioPayloadRx_kept src p (.refl s)).frame run⟩
  · have master : (u.station n).isStation = false := by rw [tested]; exact role.trans in_
    have event : u.logic.event = s.logic.event := by rw [logic]; rfl
    rw [State.stationAccept_master master, tested]
    by_cases dropped : x.phase = .dropped
    · rw [decide_eq_true dropped, State.when_true, if_pos dropped]
      exact ⟨fio, congrArg (W1C.raise · 8) event⟩
    · rw [decide_eq_false dropped, State.when_false, if_neg dropped]
      exact ⟨fio, event⟩
  · have station : (u.station n).isStation := by rw [tested]; exact role.trans out
    rw [State.stationAccept_station station]
    have moves : ((u.payloadKept n p).moveOutputs (u.station n) p).fio = (s.moveOutputs (u.station n) p).fio :=
      State.moveOutputs_fio (t := u.payloadKept n p) fio now _ p
    rw [moves, tested]
    rfl

/-! ### Stations that drop (R354) -/

theorem exec_logicStationDrop (h : s.station n = x) (master : x.isStation = false) (up : x.phase = .up)
    (lost : s.nodeReach x.node = false ∨ s.passed x.since x.timeout) :
    exec (.logicStationDrop n) s = .next (s.stationDrop n !s.nodeReach x.node) := by
  subst h
  show execLogicStationDrop n s = _
  cases reach : s.nodeReach (s.station n).node
  · simp [execLogicStationDrop, master, up, reach]
  · have late := lost.resolve_left (by simp [reach])
    simp [execLogicStationDrop, master, up, reach, late]

theorem exec_logicStationDrop_drops (s : State) (n : Nat) (x : Station) (h : s.station n = x) (master : x.isStation = false) (up : x.phase = .up)
    (lost : s.nodeReach x.node = false ∨ s.passed x.since x.timeout) :
    ∃ t y, exec (.logicStationDrop n) s = .next t ∧ t.station n = y ∧
      y.phase = .dropped ∧ y.dropNode = !s.nodeReach x.node ∧ y.drops = satInc 8 x.drops ∧ y.values = x.values ∧
      t.logic.event = s.logic.event.raise 7 ∧ t.log = (s.report .logicStationDrop n [n, b2n (!s.nodeReach x.node)]).log ∧
      OnlyTouches [.logic, .log] s t := by
  have hn : n < s.logic.stations.length := State.station_lt fun e => by simp [← h, e] at up
  have dropped : (s.stationDrop n !s.nodeReach x.node).station n = _ := State.station_onStation hn _
  rw [h] at dropped
  exact ⟨_, _, exec_logicStationDrop h master up lost, dropped, rfl, rfl, rfl, rfl, rfl, rfl, (State.stationDrop_kept n _ (.refl s)).frame⟩

/-! ### The safe state of a station (R355) -/

/-- The exported outputs have been commanded to SAFE. -/
def State.exportsSafe (s : State) (x : Station) : State := s.forEach x.outputs fun s n => s.commandSafe (s.gangLead n)

theorem exec_logicStationSafe (h : s.station n = x) (here : x.isStation) (free : x.safe = false) (started : s.logic.phase ≠ .idle)
    (late : s.passed x.since x.timeout) : exec (.logicStationSafe n) s =
    .next ((((s.exportsSafe x).onStation n fun x => { x with safe := true, phase := .dropped, drops := satInc 8 x.drops, aliveRx := {} }).raise
      .logic 11).report .logicStationSafe n [n]) := by
  subst h
  show execLogicStationSafe n s = _
  simp only [execLogicStationSafe, here, free, started, late, Bool.not_true, Bool.or_self, decide_false, Bool.false_eq_true, if_false]
  rfl

theorem exec_logicStationSafe_commands (s : State) (n : Nat) (x : Station) (h : s.station n = x) (here : x.isStation) (free : x.safe = false)
    (started : s.logic.phase ≠ .idle) (late : s.passed x.since x.timeout) :
    ∃ t y, exec (.logicStationSafe n) s = .next t ∧ t.station n = y ∧ y.safe = true ∧ y.phase = .dropped ∧ y.drops = satInc 8 x.drops ∧
      t.fio = (s.forEach x.outputs fun s n => s.commandSafe (s.gangLead n)).fio ∧ t.logic.event = s.logic.event.raise 11 ∧
      t.log = (s.report .logicStationSafe n [n]).log ∧ OnlyTouches [.logic, .fio, .log] s t := by
  have run := exec_logicStationSafe h here free started late
  have outs : Kept (· ∈ [.fio]) s (s.exportsSafe x) := State.forEach_kept (fun _ _ => State.commandSafe_kept _) _ (.refl s)
  have logic : (s.exportsSafe x).logic = s.logic := outs.parts .logic (by simp)
  have log : (s.exportsSafe x).log = s.log := outs.parts .log (by simp)
  have ltc : (s.exportsSafe x).ltc = s.ltc := outs.parts .ltc (by simp)
  have hn : n < (s.exportsSafe x).logic.stations.length := by
    rw [logic]
    exact State.station_lt_of_isStation h here
  have same : (s.exportsSafe x).station n = x := (State.station_congr (congrArg LogicState.stations logic) n).trans h
  refine ⟨_, _, run, State.station_onStation hn _, rfl, rfl, ?_, rfl, ?_, ?_, (execLogicStationSafe_kept n (.refl s)).frame run⟩
  · rw [same]
  · rw [← logic]; rfl
  · simp [State.onStation, log, ltc]

/-- Settles O30, clause by clause. -/
theorem stationsExchangePayloads : Obligations.StationsExchangePayloads :=
  ⟨exec_rioInSend_sends, exec_rioPayloadRx_accepts, exec_rioPayloadRx_counts, exec_logicStationDrop_drops, exec_logicStationSafe_commands⟩

end Sys2Proof.Machine
end

section
/-! SUPPORT. What every step keeps of the antifuses, what a step runs, the fields of SYS_STATUS, and the levels of the logic supply
(spec/16_manifest_and_two_party.md R526, R537, R545; spec/17_startup_power_reset.md R553 to R555, R566, R571). -/

namespace Sys2Proof.Machine

set_option Elab.async false

open Sys2Proof

/-- Settles O56: every operation keeps the antifuses, so each command and the tick do. -/
theorem stepsKeepAntifuses : Obligations.StepsKeepAntifuses := fun _ _ h => (step_kept h).sec

/-- Settles O55: a queue with a front command is the second case of a step. -/
theorem stepRunsTheFrontCommand : Obligations.StepRunsTheFrontCommand := fun _ _ _ => rfl

/-! ### SYS_STATUS (R571) -/

/-- SYS_STATUS packs stage, profile, LIVE and LASTWORDS side by side. -/
theorem sysStatus_fields : ∀ (n : Fin 16) (p : Profile) (a b : Bool),
    let w := fld 0 n ||| fld 4 p.num ||| flag 6 a ||| flag 7 b
    w.extractLsb' 0 4 = BitVec.ofNat 4 n ∧ w.extractLsb' 4 2 = BitVec.ofNat 2 p.num ∧ w.getLsbD 6 = a ∧ w.getLsbD 7 = b ∧
      w.extractLsb' 8 24 = 0
  | n, .balanced, a, b => by revert n a b; decide +kernel
  | n, .protect, a, b => by revert n a b; decide +kernel
  | n, .form, a, b => by revert n a b; decide +kernel
  | n, .economy, a, b => by revert n a b; decide +kernel

/-- Settles O60: SYS_STATUS packs its fields side by side. -/
theorem sysStatusHoldsItsFields : Obligations.SysStatusHoldsItsFields :=
  ⟨fun s h => sysStatus_fields ⟨_, h⟩ s.sys.profile s.sys.live s.sys.lastwords, by decide +kernel⟩

/-! ### The level of an input (R553) -/

section
variable (x : Supply) {mv : Nat} (n : Ns)

theorem rawLevel_ok (lo : 16800 ≤ mv) (hi : mv ≤ 32000) : rawLevel mv = .ok := by
  simp [rawLevel, show ¬mv < 9000 by omega, show ¬mv < 16800 by omega, hi]

theorem rawLevel_counts (lo : 16800 ≤ mv) : (rawLevel mv).counts = true := by
  by_cases hi : mv ≤ 32000
  · rw [rawLevel_ok lo hi]; rfl
  · simp [rawLevel, show ¬mv < 9000 by omega, show ¬mv < 16800 by omega, hi, SupplyLevel.counts]

/-- A mean outside OK is the level at once. -/
theorem Supply.measure_level_of_not_ok (h : rawLevel mv ≠ .ok) : (x.measure mv n).level = rawLevel mv := by
  simp [Supply.measure, h]

/-- An input that counts takes the level of its mean at once. -/
theorem Supply.measure_level_of_counts (h : x.level.counts = true) : (x.measure mv n).level = rawLevel mv := by
  simp [Supply.measure, h]

theorem Supply.settle_of_late {u : Ns} (since : x.okSince = some u) (late : u + msec 10 ≤ n) :
    x.settle n = { x with level := rawLevel x.mv } := by
  rw [Supply.settle, since, Option.any_some]
  generalize msec 10 = d at late ⊢
  exact if_pos (decide_eq_true late)

theorem Supply.settle_of_early {u : Ns} (since : x.okSince = some u) (early : n < u + msec 10) : x.settle n = x := by
  rw [Supply.settle, since, Option.any_some]
  generalize msec 10 = d at early ⊢
  exact if_neg (Bool.eq_false_iff.mp (decide_eq_false early.not_ge))

theorem Supply.settle_mv : (x.settle n).mv = x.mv := by
  unfold Supply.settle
  split <;> rfl

/-- An input that does not count waits its 10 ms for OK. -/
theorem Supply.measure_of_waits (lo : 16800 ≤ mv) (hi : mv ≤ 32000) (h : x.level.counts = false) {u : Ns} (since : x.okSince = some u) :
    x.measure mv n = ({ x with mv := mv } : Supply).settle n := by
  have raw := rawLevel_ok lo hi
  have counts : SupplyLevel.ok.counts = true := rfl
  simp only [Supply.measure, raw, h, counts, since, Option.isSome_some, Bool.not_false, and_self, if_true]

theorem Supply.measure_mv : (x.measure mv n).mv = mv := by
  unfold Supply.measure
  extract_lets raw y
  by_cases h : raw = .ok ∧ !y.level.counts
  · rw [if_pos h, Supply.settle_mv]
  · rw [if_neg h]

end

/-- What the mean of an input leaves of its level (R553). -/
theorem Supply.measure_levels (x : Supply) (mv : Nat) (n : Ns) : (x.measure mv n).mv = mv ∧
    (mv < 9000 → (x.measure mv n).level = .absent) ∧ (9000 ≤ mv → mv < 16800 → (x.measure mv n).level = .low) ∧
    (32000 < mv → (x.measure mv n).level = .over) ∧
    (16800 ≤ mv → mv ≤ 32000 → x.level = .ok ∨ x.level = .over → (x.measure mv n).level = .ok) ∧
    (∀ u, 16800 ≤ mv → mv ≤ 32000 → x.level = .low ∨ x.level = .absent → x.okSince = some u →
      (u + msec 10 ≤ n → (x.measure mv n).level = .ok) ∧ (n < u + msec 10 → (x.measure mv n).level = x.level)) := by
  refine ⟨x.measure_mv n, fun lt => ?_, fun lo hi => ?_, fun gt => ?_, fun lo hi level => ?_, fun u lo hi level since => ?_⟩
  · have raw : rawLevel mv = .absent := if_pos lt
    rw [x.measure_level_of_not_ok n (by simp [raw]), raw]
  · have raw : rawLevel mv = .low := (if_neg lo.not_gt).trans (if_pos hi)
    rw [x.measure_level_of_not_ok n (by simp [raw]), raw]
  · have raw : rawLevel mv = .over := by simp [rawLevel, show ¬mv < 9000 by omega, show ¬mv < 16800 by omega, gt]
    rw [x.measure_level_of_not_ok n (by simp [raw]), raw]
  · rw [x.measure_level_of_counts n (by obtain h | h := level <;> rw [h] <;> rfl), rawLevel_ok lo hi]
  · have waits : x.level.counts = false := by obtain h | h := level <;> rw [h] <;> rfl
    rw [x.measure_of_waits n lo hi waits since]
    constructor
    · intro late
      rw [Supply.settle_of_late { x with mv := mv } n since late]
      exact rawLevel_ok lo hi
    · intro early
      rw [Supply.settle_of_early { x with mv := mv } n since early]

/-! ### The supply as a whole (R554) -/

section
variable (s : State)

@[simp] theorem SysState.supply_setSupply (y : SysState) (vlb : Bool) (x : Supply) : (y.setSupply vlb x).supply vlb = x := by cases vlb <;> rfl

@[simp] theorem SysState.supply_setSupply_other (y : SysState) (vlb : Bool) (x : Supply) :
    (y.setSupply vlb x).supply (!vlb) = y.supply (!vlb) := by cases vlb <;> rfl

/-- SUPPLY_DUAL leaves the inputs. -/
theorem State.supplyDual_supply (vlb : Bool) : s.supplyDual.sys.supply vlb = s.sys.supply vlb := by
  unfold State.supplyDual
  split <;> rfl

/-- With both inputs OK again, SINGLE clears, and SUPPLY_DUAL is set and logged. -/
theorem State.supplyDual_clears (single : s.sys.single) (dual : s.supplyDual.sys.dual) : s.supplyDual.sys.single = false ∧
    (∃ e : W1C, s.supplyDual.sys.event = e.raise 1) ∧ ∃ l e, s.supplyDual.log.reported = l ++ [e] ∧ e.name = .supplyDual := by
  have both : s.sys.dual := by
    have a : s.supplyDual.sys.vla = s.sys.vla := s.supplyDual_supply false
    have b : s.supplyDual.sys.vlb = s.sys.vlb := s.supplyDual_supply true
    rwa [SysState.dual, a, b] at dual
  simp only [State.supplyDual, single, both, Bool.and_self, if_true]
  exact ⟨rfl, ⟨_, rfl⟩, _, _, rfl, rfl⟩

/-- The two inputs of the supply, and SINGLE. -/
def State.inputs (s : State) : Supply × Supply × Bool := (s.sys.vla, s.sys.vlb, s.sys.single)

theorem State.supply_of_inputs {u : State} (h : u.inputs = s.inputs) (vlb : Bool) : u.sys.supply vlb = s.sys.supply vlb := by
  cases vlb
  · exact congrArg Prod.fst h
  · exact congrArg (·.2.1) h

/-- Once the input has its new level, what follows is flags and records until the supply is judged. -/
theorem exec_supplyLevelChange (vlb : Bool) (mv : Nat) : ∃ u : State, exec (.supplyLevelChange vlb mv) s = .next u.supplyDual ∧
    u.inputs = (s.onSys fun y => y.setSupply vlb ((s.sys.supply vlb).measure mv s.now)).inputs := by
  refine ⟨_, rfl, (State.when_keeps State.inputs ?_ _ _).trans ((State.when_keeps State.inputs ?_ _ _).trans rfl)⟩
  · exact fun _ => rfl
  · exact fun _ => rfl

theorem exec_supplyLevelChange_levels (vlb : Bool) (mv : Nat) : ∃ t, exec (.supplyLevelChange vlb mv) s = .next t ∧
    t.sys.supply vlb = (s.sys.supply vlb).measure mv s.now ∧ t.sys.supply (!vlb) = s.sys.supply (!vlb) ∧
    (s.sys.single → t.sys.dual →
      t.sys.single = false ∧ (∃ e : W1C, t.sys.event = e.raise 1) ∧ ∃ l e, t.log.reported = l ++ [e] ∧ e.name = .supplyDual) ∧
    OnlyTouches [.sys, .log, .diag] s t := by
  obtain ⟨u, run, inputs⟩ := exec_supplyLevelChange s vlb mv
  refine ⟨_, run, ?_, ?_, fun single dual => u.supplyDual_clears ?_ dual, (execSupplyLevelChange_kept vlb mv (.refl s)).frame run⟩
  · rw [State.supplyDual_supply, State.supply_of_inputs _ inputs, State.onSys_sys, SysState.supply_setSupply]
  · rw [State.supplyDual_supply, State.supply_of_inputs _ inputs, State.onSys_sys, SysState.supply_setSupply_other]
  · have same : u.sys.single = (s.sys.setSupply vlb _).single := congrArg (·.2.2) inputs
    rw [same]
    cases vlb <;> exact single

variable {s}

theorem exec_supplyValid (held : s.sys.held) (counts : (s.sys.vla.settle s.now).level.counts) : exec .supplyValid s = .next
    { ((s.onSys fun y => { y with
          vla := s.sys.vla.settle s.now, vlb := s.sys.vlb.settle s.now, supplyValid := true, held := false, t0 := s.now }).onDiag
        fun d => { d with ledger := { d.ledger with pwrcyc := satInc 32 d.ledger.pwrcyc } }).measureBackup with ltc := 0 } := by
  show execSupplyValid s = _
  simp only [execSupplyValid, held, counts, Bool.not_true, Bool.true_or, Bool.or_self, Bool.false_eq_true, if_false]

theorem exec_supplySingle (first : s.sys.single = false) (one : s.sys.onlyOne) (late : s.passedSince s.sys.singleSince (msec 10)) :
    exec .supplySingle s = .next ((((s.onSys fun y => { y with single := true }).onDiag fun d =>
      { d with ledger := { d.ledger with singles := d.ledger.singles + 1 } }).raise .sys 0).report .supplySingle 0xFFFF
        [s.sys.vla.mv, s.sys.vlb.mv]) := by
  show execSupplySingle s = _
  simp only [execSupplySingle, first, one, late, Bool.not_true, Bool.or_self, Bool.false_eq_true, if_false]
  rfl

end

/-- Settles O1, clause by clause. -/
theorem suppliesFollowTheirInputs : Obligations.SuppliesFollowTheirInputs := by
  refine ⟨Supply.measure_levels, exec_supplyLevelChange_levels, fun s u held since late lo => ?_, fun s u first one since late => ?_⟩
  · have level : (s.sys.vla.settle s.now).level.counts := by
      rw [Supply.settle_of_late _ _ since late]
      exact rawLevel_counts lo
    have run := exec_supplyValid held level
    exact ⟨_, run, rfl, rfl, rfl, (execSupplyValid_kept (.refl s)).frame run⟩
  · have run := exec_supplySingle first one (by rw [since, State.passedSince_some]; exact s.passed_of _ _ late)
    exact ⟨_, run, rfl, rfl, rfl, (execSupplySingle_kept (.refl s)).frame run⟩

end Sys2Proof.Machine
end

section
/-! SUPPORT. Intake of events into the logbook: what is recorded of an event, and whether it is staged, merged, lost or left unselected
(spec/12_logbook.md R407, R408, R410 to R412). -/

namespace Sys2Proof.Machine

set_option Elab.async false

open Sys2Proof

/-! ### What is recorded of an event (R402, R403, R413) -/

theorem State.logSetting_congr {s t : State} (h : t.log.cfg = s.log.cfg) (r : Rec) : t.logSetting r = s.logSetting r := by
  rw [State.logSetting, State.logSetting, h]

section
variable (s : State) (e : Event)

theorem State.takeRecord_record : ∃ w p, (s.takeRecord e).1 = { s.logRecord e.name e.source e.time e.payload with snap := w, snapPartial := p } := by
  unfold State.takeRecord
  cases e.words with
  | some w => exact ⟨w, false, rfl⟩
  | none => exact ⟨_, _, rfl⟩

theorem State.takeRecord_name : (s.takeRecord e).1.name = e.name ∧ (s.takeRecord e).1.source = e.source ∧
    (s.takeRecord e).1.time = e.time.getD s.ltc := by
  obtain ⟨w, p, record⟩ := s.takeRecord_record e
  rw [record]
  exact ⟨rfl, rfl, rfl⟩

theorem State.takeRecord_touches : Kept (· ∈ [.snaps]) s (s.takeRecord e).2 := State.takeRecord_kept e (.refl s)

theorem State.takeRecord_log : (s.takeRecord e).2.log = s.log := (s.takeRecord_touches e).parts .log (by simp)

end

/-! ### Merging (R408) -/

section
variable {s : State} {r : LogRecord}

theorem State.logMerge_of_single (single : (s.logSetting r.name).merge = false) : s.logMerge r = none := by
  rw [State.logMerge, single, Bool.not_false, if_pos rfl]

/-- An event merges into the newest entry of its identity. -/
theorem State.logMerge_newest {n : StageEntry} (merges : (s.logSetting r.name).merge) (newest : s.log.staging.getLast? = some n)
    (name : n.rcd.name = r.name) (source : n.rcd.source = r.source) :
    s.logMerge r = some ((s.onLog fun l => { l with staging := l.staging.dropLast ++ [n.merge r] }).countMerge) := by
  simp only [State.logMerge, merges, Bool.not_true, Bool.false_eq_true, if_false, newest, name, source, and_self, if_true]

end

/-! ### The intake of an event (R407) -/

/-- The events that wait for intake, replaced. -/
def State.withReported (s : State) (l : List Event) : State := s.onLog fun x => { x with reported := l }

@[simp] theorem State.withReported_log (s : State) (l : List Event) : (s.withReported l).log = { s.log with reported := l } := rfl

section
variable {s : State} {e : Event}

theorem exec_logIntake {l : List Event} (h : s.log.reported = e :: l) :
    exec .logIntake s = .next ((s.withReported l).logTake e) := by
  show execLogIntake s = _
  rw [execLogIntake, State.logIntake, h]
  rfl

theorem State.logTake_unselected (live : s.log.lastwords = false) (skip : (s.logSetting e.name).record = false) :
    s.logTake e = s.onLog fun l => { l with unselected := satInc 32 l.unselected } := by
  simp only [State.logTake, live, skip, Bool.false_eq_true, Bool.not_false, if_false, if_true]

variable (live : s.log.lastwords = false) (selected : (s.logSetting e.name).record)
include live selected

theorem State.logTake_merged (opened : s.log.stagingOpen) (works : s.log.bothFail = false) {t : State}
    (merges : (s.takeRecord e).2.logMerge (s.takeRecord e).1 = some t) : s.logTake e = t := by
  have log := s.takeRecord_log e
  simp only [State.logTake, live, selected, log, opened, works, merges, Bool.not_true, Bool.false_eq_true, if_false]

theorem State.logTake_staged (opened : s.log.stagingOpen) (works : s.log.bothFail = false) (single : (s.logSetting e.name).merge = false)
    (calm : s.log.overflow = none) (room : s.log.staging.length < 255) :
    s.logTake e = (s.takeRecord e).2.stagePut { rcd := (s.takeRecord e).1 } := by
  have log := s.takeRecord_log e
  have merge : (s.takeRecord e).2.logMerge (s.takeRecord e).1 = none :=
    State.logMerge_of_single (by rw [(s.takeRecord_name e).1, State.logSetting_congr (congrArg LogState.cfg log)]; exact single)
  have fits : decide (255 ≤ s.log.staging.length) = false := decide_eq_false room.not_ge
  simp only [State.logTake, live, selected, log, opened, works, merge, calm, fits, Option.isSome_none, Bool.or_self, Bool.not_true,
    Bool.false_eq_true, if_false]

theorem State.logTake_lost (works : s.log.bothFail = false) (single : (s.logSetting e.name).merge = false)
    (full : s.log.stagingOpen = false ∨ s.log.overflow.isSome ∨ 255 ≤ s.log.staging.length) :
    s.logTake e = (s.takeRecord e).2.logLose (s.takeRecord e).1 := by
  have log := s.takeRecord_log e
  have merge : (s.takeRecord e).2.logMerge (s.takeRecord e).1 = none :=
    State.logMerge_of_single (by rw [(s.takeRecord_name e).1, State.logSetting_congr (congrArg LogState.cfg log)]; exact single)
  cases opened : s.log.stagingOpen with
  | false => simp only [State.logTake, live, selected, log, opened, Bool.not_true, Bool.not_false, Bool.false_eq_true, if_false, if_true]
  | true =>
    have crowded : (s.log.overflow.isSome || decide (255 ≤ s.log.staging.length)) = true := by
      rw [Bool.or_eq_true, decide_eq_true_eq]
      exact full.resolve_left (by simp [opened])
    simp only [State.logTake, live, selected, log, opened, works, merge, crowded, Bool.not_true, Bool.false_eq_true, if_false, if_true]

end

/-! ### What the places of the ring and the loss of an event leave (R410, R411) -/

section
variable (s : State)

theorem State.stagePut_log (e : StageEntry) : (s.stagePut e).log.reported = s.log.reported ∧ (s.stagePut e).log.staging = s.log.staging ++ [e] ∧
    (s.stagePut e).log.lostTotal = s.log.lostTotal := by
  unfold State.stagePut State.when
  dsimp only
  split <;> exact ⟨rfl, rfl, rfl⟩

/-- An event that is lost is counted, in an episode that it starts unless one runs. -/
theorem State.logLose_log (r : LogRecord) : ∃ o, o.count = (s.log.overflow.map (·.count)).getD 0 + 1 ∧ (s.logLose r).log = { s.log with
    event := if s.log.overflow.isNone then s.log.event.raise 2 else s.log.event
    overflow := some o, lostTotal := satInc 32 s.log.lostTotal } := by
  unfold State.logLose
  extract_lets o o' u
  refine ⟨o', ?_, ?_⟩
  · cases h : s.log.overflow <;> simp [o', o, h]
  · simp only [u]
    split <;> rfl

end

/-! ### The intake, case by case -/

section
variable (s : State) (e : Event) (l : List Event) (h : s.log.reported = e :: l) (live : s.log.lastwords = false)
include h live

theorem exec_logIntake_stages (selected : (s.logSetting e.name).record) (opened : s.log.stagingOpen) (works : s.log.bothFail = false)
    (single : (s.logSetting e.name).merge = false) (calm : s.log.overflow = none) (room : s.log.staging.length < 255) :
    ∃ t n, exec .logIntake s = .next t ∧ t.log.reported = l ∧ t.log.staging = s.log.staging ++ [n] ∧ n.rcd.name = e.name ∧
      n.rcd.source = e.source ∧ n.rcd.time = e.time.getD s.ltc ∧ n.rcd.payload = e.payload ∧ n.rcd.sev = s.logSeverity e.name ∧
      n.rcd.tq = s.tq ∧ n.count = 0 ∧ t.log.lostTotal = s.log.lostTotal ∧ OnlyTouches [.log, .snaps] s t := by
  have run := exec_logIntake h
  rw [State.logTake_staged (s := s.withReported l) live selected opened works single calm room] at run
  have log := (s.withReported l).takeRecord_log e
  obtain ⟨w, p, record⟩ := (s.withReported l).takeRecord_record e
  obtain ⟨reported, staging, lost⟩ := ((s.withReported l).takeRecord e).2.stagePut_log
    { rcd := ((s.withReported l).takeRecord e).1 }
  rw [log] at reported staging lost
  refine ⟨_, _, run, reported, staging, ?_, ?_, ?_, ?_, ?_, ?_, rfl, lost, (execLogIntake_kept (.refl s)).frame run⟩
  all_goals rw [record]; rfl

theorem exec_logIntake_merges (n : StageEntry) (selected : (s.logSetting e.name).record) (opened : s.log.stagingOpen) (works : s.log.bothFail = false)
    (merges : (s.logSetting e.name).merge) (newest : s.log.staging.getLast? = some n) (name : n.rcd.name = e.name) (source : n.rcd.source = e.source) :
    ∃ t m, exec .logIntake s = .next t ∧ t.log.reported = l ∧ t.log.staging = s.log.staging.dropLast ++ [m] ∧ m.rcd = n.rcd ∧
      m.count = n.count + 1 ∧ m.lastTime = e.time.getD s.ltc ∧ t.log.merged = wrapInc 32 s.log.merged ∧
      t.log.lostTotal = s.log.lostTotal ∧ OnlyTouches [.log, .snaps] s t := by
  have log := (s.withReported l).takeRecord_log e
  obtain ⟨rname, rsource, rtime⟩ := (s.withReported l).takeRecord_name e
  have merge := State.logMerge_newest (s := ((s.withReported l).takeRecord e).2)
    (r := ((s.withReported l).takeRecord e).1) (n := n)
    (by rw [rname, State.logSetting_congr (congrArg LogState.cfg log)]; exact merges) (by rw [log]; exact newest) (name.trans rname.symm)
    (source.trans rsource.symm)
  have run := exec_logIntake h
  rw [State.logTake_merged (s := s.withReported l) live selected opened works merge] at run
  refine ⟨_, n.merge ((s.withReported l).takeRecord e).1, run, ?_, ?_, rfl, rfl, rtime, ?_, ?_,
    (execLogIntake_kept (.refl s)).frame run⟩
  all_goals simp [State.countMerge, log]

theorem exec_logIntake_loses (selected : (s.logSetting e.name).record) (works : s.log.bothFail = false)
    (single : (s.logSetting e.name).merge = false) (full : s.log.stagingOpen = false ∨ s.log.overflow.isSome ∨ 255 ≤ s.log.staging.length) :
    ∃ t o, exec .logIntake s = .next t ∧ t.log.reported = l ∧ t.log.staging = s.log.staging ∧
      t.log.lostTotal = satInc 32 s.log.lostTotal ∧ t.log.overflow = some o ∧ o.count = (s.log.overflow.map (·.count)).getD 0 + 1 ∧
      (s.log.overflow = none → t.log.event.bits.getLsbD 2 = true) ∧ OnlyTouches [.log, .snaps] s t := by
  have run := exec_logIntake h
  rw [State.logTake_lost (s := s.withReported l) live selected works single full] at run
  have log := (s.withReported l).takeRecord_log e
  obtain ⟨o, count, lose⟩ := ((s.withReported l).takeRecord e).2.logLose_log
    ((s.withReported l).takeRecord e).1
  rw [log] at count lose
  refine ⟨_, o, run, (congrArg LogState.reported lose :), (congrArg LogState.staging lose :),
    (congrArg LogState.lostTotal lose :), (congrArg LogState.overflow lose :), count, fun calm => ?_, (execLogIntake_kept (.refl s)).frame run⟩
  have raised : (s.withReported l).log.overflow.isNone = true := by rw [Option.isNone_iff_eq_none]; exact calm
  rw [congrArg LogState.event lose]
  simp only [raised, if_true]
  exact W1C.raise_bits _ 2 (by omega)

end

/-- Settles O34, clause by clause. -/
theorem eventsAreTakenMergedOrLost : Obligations.EventsAreTakenMergedOrLost := by
  refine ⟨fun s e l h live => exec_logIntake_stages s e l h live, ?_, fun s e l h live skip => ?_,
    fun s e l h live => exec_logIntake_loses s e l h live, fun s => ⟨_, rfl, rfl, rfl, (execLogStageRead_kept (.refl s)).frame rfl⟩⟩
  · exact fun s e l n h live selected opened works merges => exec_logIntake_merges s e l h live n selected opened works merges
  · have run := exec_logIntake h
    rw [State.logTake_unselected (s := s.withReported l) live skip] at run
    exact ⟨_, run, rfl, Kept.frame (State.onLog_kept (State.onLog_kept (.refl s) _) _)⟩

end Sys2Proof.Machine
end

section
/-! SUPPORT. Commits of the logbook: what a commit, a closing tail and a failing bank leave of the rings (spec/12_logbook.md R400, R405, R406, R409,
R420, R421). -/

namespace Sys2Proof.Machine

set_option Elab.async false

open Sys2Proof

/-! ### A record in its ring (R405, R406) -/

section
variable (l : LogState)

/-- The logbook with a record in the ring of the bank in use, before the header pair is rewritten. -/
def LogState.numbered (r : LogRecord) : LogState :=
  { l with
    bankA := if l.reserve then l.bankA else ({ r with seq := l.next } :: l.bankA).take 327680
    bankB := if l.reserve then ({ r with seq := l.next } :: l.bankB).take 32768 else l.bankB
    next := l.next + 1, oldest := if l.oldest + l.ring ≤ l.next then l.next + 1 - l.ring else l.oldest }

theorem LogState.checkpoint_eq : ∃ a b, l.checkpoint = { l with headA := a, headB := b } := by
  unfold LogState.checkpoint
  dsimp only
  split
  · exact ⟨l.headA, _, rfl⟩
  · exact ⟨_, l.headB, rfl⟩

theorem LogState.commit_eq (r : LogRecord) : ∃ a b, l.commit r = { l.numbered r with headA := a, headB := b } := by
  have bank : (if l.reserve then { l with bankB := ({ r with seq := l.next } :: l.bankB).take 32768 }
      else { l with bankA := ({ r with seq := l.next } :: l.bankA).take 327680 }) =
      { l with bankA := (l.numbered r).bankA, bankB := (l.numbered r).bankB } := by
    cases res : l.reserve <;> simp [LogState.numbered, res]
  unfold LogState.commit
  dsimp only
  rw [bank]
  split
  · obtain ⟨a, b, eq⟩ := LogState.checkpoint_eq (l.numbered r)
    exact ⟨a, b, eq⟩
  · exact ⟨l.headA, l.headB, rfl⟩

/-- What the writer leaves alone when it commits to the reserve log. -/
def LogState.course (l : LogState) : List StageEntry × Bool × Bool × Bool × Nat × Nat × List LogRecord × Option Overflow × W1C :=
  (l.staging, l.reserve, l.bankFail, l.bothFail, l.frozenFirst, l.switch, l.bankA, l.overflow, l.event)

theorem LogState.commit_course {l : LogState} (r : LogRecord) (res : l.reserve) : (l.commit r).course = l.course := by
  obtain ⟨a, b, eq⟩ := l.commit_eq r
  rw [eq]
  simp only [LogState.course, LogState.numbered, res, if_true]

theorem LogState.reserve_of_course {l m : LogState} (h : m.course = l.course) : m.reserve = l.reserve := congrArg (·.2.1) h

theorem LogState.commit_next (r : LogRecord) : (l.commit r).next = l.next + 1 := by
  obtain ⟨a, b, eq⟩ := l.commit_eq r
  rw [eq]
  rfl

/-- The ring has room for the records since LOG_OLDEST, which stays. -/
theorem LogState.commit_oldest {l : LogState} (r : LogRecord) (room : l.next < l.oldest + l.ring) : (l.commit r).oldest = l.oldest := by
  obtain ⟨a, b, eq⟩ := l.commit_eq r
  rw [eq]
  exact if_neg room.not_ge

/-- The newest records of the reserve log after a commit to it. -/
theorem LogState.commit_take {l : LogState} (r : LogRecord) (res : l.reserve) {k : Nat} (hk : k < 32768) :
    (l.commit r).bankB.take (k + 1) = { r with seq := l.next } :: l.bankB.take k := by
  obtain ⟨a, b, eq⟩ := l.commit_eq r
  have bank : (l.numbered r).bankB = ({ r with seq := l.next } :: l.bankB).take 32768 := if_pos res
  rw [eq]
  show (l.numbered r).bankB.take (k + 1) = _
  rw [bank, List.take_take, Nat.min_eq_left hk, List.take_succ_cons]

/-- The newest record of the bank in use. -/
theorem LogState.commit_newest (r : LogRecord) :
    (if l.reserve then (l.commit r).bankB else (l.commit r).bankA).head? = some { r with seq := l.next } := by
  obtain ⟨a, b, eq⟩ := l.commit_eq r
  rw [eq]
  cases res : l.reserve <;> simp [LogState.numbered, res]

end

/-! ### Tails (R409) -/

section
variable (s : State)

/-- The tail that stands after the commit of an entry under a sequence number. -/
def State.standing (s : State) (e : StageEntry) (seq : Nat) : Option Tail :=
  if (s.logSetting e.rcd.name).merge then
    some { seq := seq, name := e.rcd.name, sev := e.rcd.sev, source := e.rcd.source, count := e.count, lastTime := e.lastTime
           lastTq := e.lastTq, lastSnap := e.lastSnap, lastPartial := e.lastPartial, openedAt := s.now }
  else none

theorem State.tailAfter_log (e : StageEntry) (seq : Nat) : ∃ x n, (s.tailAfter e seq).log =
    { s.log with tail := s.standing e seq, tailSlots := x, tailWritten := n } := by
  cases merges : (s.logSetting e.rcd.name).merge with
  | false => exact ⟨_, _, by simp only [State.tailAfter, State.standing, merges]; rfl⟩
  | true =>
    by_cases none : e.count = 0
    · exact ⟨_, _, by simp only [State.tailAfter, State.standing, merges, none]; rfl⟩
    · exact ⟨_, _, by simp only [State.tailAfter, State.standing, merges, none]; rfl⟩

theorem State.commitEntry_log (e : StageEntry) : ∃ x n, (s.commitEntry e).log =
    { s.log.commit { e.rcd with lastwords := s.log.lastwords } with tail := s.standing e s.log.next, tailSlots := x, tailWritten := n } := by
  obtain ⟨x, n, log⟩ := (s.onLog fun l => l.commit { e.rcd with lastwords := l.lastwords }).tailAfter_log e s.log.next
  refine ⟨x, n, log.trans ?_⟩
  have cfg : (s.onLog fun l => l.commit { e.rcd with lastwords := l.lastwords }).log.cfg = s.log.cfg := by
    obtain ⟨a, b, eq⟩ := s.log.commit_eq { e.rcd with lastwords := s.log.lastwords }
    exact (congrArg LogState.cfg eq :)
  simp only [State.standing, State.logSetting_congr cfg]
  rfl

variable {s}

/-- The LOG_REPEAT record of a tail. -/
def State.repeatRecord (s : State) (x : Tail) (c : TailCause) : LogRecord :=
  { s.logRecord .logRepeat x.source none (x.payload c) with snap := x.lastSnap, snapPartial := x.lastPartial }

theorem State.closeTail_of_none (h : s.log.tail = none) (c : TailCause) : s.closeTail c = s := by
  rw [State.closeTail, h]

theorem State.closeTail_of_ready {x : Tail} (h : s.log.tail = some x) (unused : x.count = 0) (c : TailCause) :
    s.closeTail c = s.onLog fun l => { l with tail := none } := by
  simp only [State.closeTail, h, unused, if_true]

/-- An open tail closes with its LOG_REPEAT record; for age or count it stands ready on it. -/
theorem State.closeTail_of_open {x : Tail} (h : s.log.tail = some x) (opened : x.count ≠ 0) (c : TailCause) :
    ∃ y n, (s.closeTail c).log = { s.log.commit (s.repeatRecord x c) with
      tailSlots := y, tailWritten := n
      tail := if (c = .age ∨ c = .count) ∧ (s.logSetting x.name).merge then some { x with seq := s.log.next, count := 0 } else none } := by
  simp only [State.closeTail, h, opened, if_false, Bool.and_eq_true, Bool.or_eq_true, decide_eq_true_eq, State.onLog_log]
  exact ⟨_, _, rfl⟩

end

/-! ### The commit of the oldest entry (R405) -/

/-- The oldest entry has left its place for the writer. -/
def State.freed (s : State) (l : List StageEntry) : State := s.onLog fun x => { x with staging := l, tail := none }

section
variable {s : State} {e : StageEntry} {l : List StageEntry} (ready : s.log.ready) (works : s.log.bothFail = false) (h : s.log.staging = e :: l)
include ready works h

theorem exec_logCommitDone_entry (closed : ∀ x, s.log.tail = some x → x.count = 0) (ok : Bool) : exec (.logCommitDone ok) s = .next
    (if ((s.freed l).logCommit (fun s => s.commitEntry e) ok).log.bothFail then (s.freed l).logCommit (fun s => s.commitEntry e) ok
     else ((s.freed l).logCommit (fun s => s.commitEntry e) ok).endOverflow) := by
  have tail : (s.log.tail.any fun t => decide (t.count ≠ 0)) = false := by
    cases k : s.log.tail with
    | none => rfl
    | some x => simp [closed x k]
  show execLogCommitDone ok s = _
  simp only [execLogCommitDone, ready, works, h, tail, Bool.not_true, Bool.or_self, Bool.false_eq_true, if_false]
  rfl

theorem exec_logCommitDone_tail {x : Tail} (tail : s.log.tail = some x) (opened : x.count ≠ 0) (ok : Bool) :
    exec (.logCommitDone ok) s = .next (s.logCommit (fun s => s.closeTail .another) ok) := by
  show execLogCommitDone ok s = _
  simp only [execLogCommitDone, ready, works, h, tail, opened, Option.any_some, ne_eq, not_false_eq_true, decide_true, Bool.not_true, Bool.or_self,
    Bool.false_eq_true, if_false, if_true]

end

theorem State.endOverflow_of_calm {s : State} (calm : s.log.overflow = none) : s.endOverflow = s := by rw [State.endOverflow, calm]

/-- An entry that is committed gets the next number, and its tail stands (R405, R409). -/
theorem exec_logCommitDone_commits (s : State) (e : StageEntry) (l : List StageEntry) (ready : s.log.ready) (works : s.log.bothFail = false)
    (h : s.log.staging = e :: l) (closed : ∀ x, s.log.tail = some x → x.count = 0) (calm : s.log.overflow = none) :
    ∃ t, exec (.logCommitDone true) s = .next t ∧ t.log.staging = l ∧ t.log.next = s.log.next + 1 ∧
      (if s.log.reserve then t.log.bankB else t.log.bankA).head? = some { e.rcd with seq := s.log.next, lastwords := s.log.lastwords } ∧
      (t.log.tail.isSome ↔ (s.logSetting e.rcd.name).merge) ∧ OnlyTouches [.log] s t := by
  have run := exec_logCommitDone_entry ready works h closed true
  obtain ⟨x, n, log⟩ := (s.freed l).commitEntry_log e
  have newest := (s.freed l).log.commit_newest { e.rcd with lastwords := s.log.lastwords }
  obtain ⟨a, b, commit⟩ := (s.freed l).log.commit_eq { e.rcd with lastwords := s.log.lastwords }
  rw [show (s.freed l).logCommit (fun s => s.commitEntry e) true = (s.freed l).commitEntry e from rfl] at run
  have both : ((s.freed l).commitEntry e).log.bothFail = false := by
    rw [log]
    exact (congrArg LogState.bothFail commit).trans works
  have calm2 : ((s.freed l).commitEntry e).log.overflow = none := by
    rw [log]
    exact (congrArg LogState.overflow commit).trans calm
  rw [both, if_neg Bool.false_ne_true, State.endOverflow_of_calm calm2] at run
  refine ⟨_, run, ?_, ?_, ?_, ?_, (State.commitEntry_kept e (State.onLog_kept (.refl s) _)).frame⟩
  · rw [log]
    exact congrArg LogState.staging commit
  · rw [log]
    exact congrArg LogState.next commit
  · rw [log]
    exact newest
  · rw [log]
    show ((s.freed l).standing e _).isSome ↔ _
    have merge : (s.freed l).logSetting e.rcd.name = s.logSetting e.rcd.name := State.logSetting_congr rfl _
    rw [State.standing, merge]
    cases (s.logSetting e.rcd.name).merge <;> simp

/-- A tail that is open closes first, under a number of its own (R409). -/
theorem exec_logCommitDone_closes (s : State) (e : StageEntry) (l : List StageEntry) (x : Tail) (ready : s.log.ready) (works : s.log.bothFail = false)
    (h : s.log.staging = e :: l) (tail : s.log.tail = some x) (opened : x.count ≠ 0) :
    ∃ t r, exec (.logCommitDone true) s = .next t ∧ t.log.staging = e :: l ∧ t.log.tail = none ∧
      t.log.next = s.log.next + 1 ∧ (if s.log.reserve then t.log.bankB else t.log.bankA).head? = some r ∧ r.name = .logRepeat ∧
      r.seq = s.log.next ∧ r.source = x.source ∧ r.payload = x.payload .another ∧ OnlyTouches [.log] s t := by
  have run := exec_logCommitDone_tail ready works h tail opened true
  obtain ⟨y, n, log⟩ := State.closeTail_of_open tail opened .another
  have newest := s.log.commit_newest (s.repeatRecord x .another)
  obtain ⟨a, b, commit⟩ := s.log.commit_eq (s.repeatRecord x .another)
  refine ⟨s.closeTail .another, { s.repeatRecord x .another with seq := s.log.next }, run, ?_, ?_, ?_, ?_, rfl, rfl, rfl, rfl,
    (State.closeTail_kept .another (.refl s)).frame⟩
  · rw [log]
    exact (congrArg LogState.staging commit).trans h
  · rw [log]
    simp only [reduceCtorEq, or_self, false_and, if_false]
  · rw [log]
    exact congrArg LogState.next commit
  · rw [log]
    exact newest

/-! ### A bank that fails (R420, R421) -/

/-- The writer goes on in the reserve log, from the next number on. -/
def State.switched (s : State) : State :=
  (s.onLog fun l => { l with
    bankFail := true, aonA := true, reserve := true, frozenFirst := l.oldest, switch := s.log.next, oldest := s.log.next }).raise .log 0

/-- The LOG_BANK_FAIL record is committed, and no tail stands. -/
def State.bankRecorded (s : State) (seq cause : Nat) : State :=
  s.onLog fun l => { (l.commit (s.logRecord .logBankFail 0xFFFF none (.sized [(8, seq), (1, cause), (23, 0)]))).checkpoint with tail := none }

section
variable {s : State}

theorem State.logBankFail_main (main : s.log.reserve = false) (f : State → State) (cause : Nat) :
    s.logBankFail f cause = ((f s.switched).closeTail .another).bankRecorded s.log.next cause := by
  rw [State.logBankFail, if_neg (by simp [main])]
  rfl

theorem State.logBankFail_reserve (reserve : s.log.reserve) (f : State → State) (cause : Nat) : s.logBankFail f cause = s.logBothFail :=
  if_pos reserve

/-- A tail that is not open leaves no record as it closes. -/
theorem State.closeTail_of_closed (closed : ∀ x, s.log.tail = some x → x.count = 0) (c : TailCause) :
    ∃ y, (s.closeTail c).log = { s.log with tail := y } := by
  cases tail : s.log.tail with
  | none => exact ⟨s.log.tail, by rw [State.closeTail_of_none tail]⟩
  | some x => exact ⟨none, by rw [State.closeTail_of_ready tail (closed x tail)]; rfl⟩

theorem State.bankRecorded_log (s : State) (seq cause : Nat) : ∃ r a b, r.name = .logBankFail ∧
    (s.bankRecorded seq cause).log = { s.log.commit r with headA := a, headB := b, tail := none } := by
  obtain ⟨a, b, eq⟩ := (s.log.commit (s.logRecord .logBankFail 0xFFFF none (.sized [(8, seq), (1, cause), (23, 0)]))).checkpoint_eq
  exact ⟨_, a, b, rfl, congrArg (fun l : LogState => { l with tail := none }) eq⟩

end

/-- What a failing bank leaves once the entry is in the reserve log: `k` more records stand before the one of the failure. -/
structure BankFailed (s t : State) (k : Nat) : Prop where
  course : t.log.course = s.switched.log.course
  next : t.log.next = s.log.next + k
  oldest : t.log.oldest = s.log.next

section
variable {s t : State} {k : Nat}

theorem BankFailed.reserve (h : BankFailed s t k) : t.log.reserve = true := LogState.reserve_of_course (l := s.switched.log) h.course

/-- A record that is committed next. -/
theorem BankFailed.commit (h : BankFailed s t k) (few : k < 4) {u : State} {r : LogRecord}
    (course : u.log.course = (t.log.commit r).course) (next : u.log.next = (t.log.commit r).next) (oldest : u.log.oldest = (t.log.commit r).oldest) :
    BankFailed s u (k + 1) := by
  have res := h.reserve
  have room : t.log.next < t.log.oldest + t.log.ring := by
    rw [h.next, h.oldest, LogState.ring, res, if_pos rfl]
    omega
  exact ⟨course.trans ((LogState.commit_course r res).trans h.course), next.trans (by rw [LogState.commit_next, h.next, Nat.add_assoc]),
    oldest.trans ((LogState.commit_oldest r room).trans h.oldest)⟩

theorem State.switched_bankFailed (s : State) : BankFailed s s.switched 0 := ⟨rfl, rfl, rfl⟩

/-- The entry that did not read back is the first record of the reserve log. -/
theorem State.commitEntry_bankFailed (s : State) (e : StageEntry) : BankFailed s (s.switched.commitEntry e) 1 ∧
    ((s.switched.commitEntry e).log.bankB.take 1).map (fun r => (r.name, r.seq)) = [(e.rcd.name, s.log.next)] ∧
    (s.switched.commitEntry e).log.tail = s.switched.standing e s.log.next := by
  obtain ⟨x, n, log⟩ := s.switched.commitEntry_log e
  have take := LogState.commit_take (l := s.switched.log) { e.rcd with lastwords := s.switched.log.lastwords } rfl (k := 0) (by omega)
  refine ⟨s.switched_bankFailed.commit (r := { e.rcd with lastwords := s.switched.log.lastwords }) (by omega) ?_ ?_ ?_, ?_, ?_⟩
  · rw [log]; rfl
  · rw [log]
  · rw [log]
  · rw [log]
    show ((s.switched.log.commit { e.rcd with lastwords := s.switched.log.lastwords }).bankB.take 1).map _ = _
    rw [take]
    rfl
  · rw [log]; rfl

/-- The record of the failure is the newest one. -/
theorem BankFailed.recorded (h : BankFailed s t k) (few : k < 4) (seq cause : Nat) : BankFailed s (t.bankRecorded seq cause) (k + 1) ∧
    ((t.bankRecorded seq cause).log.bankB.take (k + 1)).map (fun r => (r.name, r.seq)) =
      (.logBankFail, s.log.next + k) :: (t.log.bankB.take k).map (fun r => (r.name, r.seq)) ∧ (t.bankRecorded seq cause).log.tail = none := by
  obtain ⟨r, a, b, name, log⟩ := t.bankRecorded_log seq cause
  have take := LogState.commit_take r h.reserve (k := k) (by omega)
  refine ⟨h.commit (r := r) few ?_ ?_ ?_, ?_, ?_⟩ <;> rw [log]
  · rfl
  · show ((t.log.commit r).bankB.take (k + 1)).map _ = _
    rw [take, List.map_cons, name, h.next]

end

/-- A bank that fails on an entry: the entry, the repeats of its tail and the failure are the first records of the reserve log. -/
theorem State.logBankFail_entry {s : State} (main : s.log.reserve = false) (e : StageEntry) :
    ∃ k, BankFailed s (s.logBankFail (fun s => s.commitEntry e) 1) k ∧ (s.logBankFail (fun s => s.commitEntry e) 1).log.tail = none ∧
      (e.count = 0 ∨ (s.logSetting e.rcd.name).merge = false →
        ((s.logBankFail (fun s => s.commitEntry e) 1).log.bankB.take 2).map (fun r => (r.name, r.seq)) =
          [(.logBankFail, s.log.next + 1), (e.rcd.name, s.log.next)]) ∧
      (e.count ≠ 0 → (s.logSetting e.rcd.name).merge →
        ((s.logBankFail (fun s => s.commitEntry e) 1).log.bankB.take 3).map (fun r => (r.name, r.seq)) =
          [(.logBankFail, s.log.next + 2), (.logRepeat, s.log.next + 1), (e.rcd.name, s.log.next)]) := by
  rw [State.logBankFail_main main]
  obtain ⟨failed, first, tail⟩ := s.commitEntry_bankFailed e
  have setting : s.switched.logSetting e.rcd.name = s.logSetting e.rcd.name := State.logSetting_congr rfl _
  by_cases opened : e.count ≠ 0 ∧ (s.logSetting e.rcd.name).merge
  · obtain ⟨count, merge⟩ := opened
    rw [State.standing, setting, if_pos merge] at tail
    obtain ⟨x, tail, opened⟩ : ∃ x, (s.switched.commitEntry e).log.tail = some x ∧ x.count ≠ 0 := ⟨_, tail, count⟩
    obtain ⟨y, n, log⟩ := State.closeTail_of_open tail opened .another
    have closed : BankFailed s ((s.switched.commitEntry e).closeTail .another) 2 := failed.commit (r := (s.switched.commitEntry e).repeatRecord x .another)
      (by omega) (by rw [log]; rfl) (by rw [log]) (by rw [log])
    obtain ⟨done, newest, none⟩ := closed.recorded (by omega) s.log.next 1
    refine ⟨3, done, none, fun h => absurd merge (by simp [h.resolve_left count]), fun _ _ => ?_⟩
    have take := LogState.commit_take ((s.switched.commitEntry e).repeatRecord x .another) failed.reserve (k := 1) (by omega)
    rw [newest, log]
    show _ :: (((s.switched.commitEntry e).log.commit _).bankB.take 2).map _ = _
    rw [take, List.map_cons, first, failed.next]
    rfl
  · have calm : ∀ x, (s.switched.commitEntry e).log.tail = some x → x.count = 0 := by
      intro x hx
      rw [tail, State.standing, setting] at hx
      split at hx
      next merge =>
        cases hx
        by_contra count
        exact opened ⟨count, merge⟩
      next => cases hx
    obtain ⟨y, log⟩ := State.closeTail_of_closed calm .another
    have closed : BankFailed s ((s.switched.commitEntry e).closeTail .another) 1 := by
      constructor <;> rw [log]
      exacts [failed.course, failed.next, failed.oldest]
    obtain ⟨done, newest, none⟩ := closed.recorded (by omega) s.log.next 1
    refine ⟨2, done, none, fun _ => ?_, fun count merge => absurd ⟨count, merge⟩ opened⟩
    rw [newest, log, first]

/-- A commit that does not read back changes the bank (R420). -/
theorem exec_logCommitDone_fails (s : State) (e : StageEntry) (l : List StageEntry) (ready : s.log.ready) (works : s.log.bothFail = false)
    (h : s.log.staging = e :: l) (closed : ∀ x, s.log.tail = some x → x.count = 0) (calm : s.log.overflow = none) (main : s.log.reserve = false) :
    ∃ t, exec (.logCommitDone false) s = .next t ∧ t.log.reserve = true ∧ t.log.bankFail = true ∧ t.log.frozenFirst = s.log.oldest ∧
      t.log.switch = s.log.next ∧ t.log.oldest = s.log.next ∧ t.log.bankA = s.log.bankA ∧ t.log.event = s.log.event.raise 0 ∧
      (e.count = 0 ∨ (s.logSetting e.rcd.name).merge = false →
        (t.log.bankB.take 2).map (fun r => (r.name, r.seq)) = [(.logBankFail, s.log.next + 1), (e.rcd.name, s.log.next)]) ∧
      (e.count ≠ 0 → (s.logSetting e.rcd.name).merge → (t.log.bankB.take 3).map (fun r => (r.name, r.seq)) =
        [(.logBankFail, s.log.next + 2), (.logRepeat, s.log.next + 1), (e.rcd.name, s.log.next)]) ∧ t.log.tail = none ∧
      OnlyTouches [.log] s t := by
  obtain ⟨k, failed, tail, single, merged⟩ := State.logBankFail_entry (s := s.freed l) main e
  have setting : (s.freed l).logSetting e.rcd.name = s.logSetting e.rcd.name := State.logSetting_congr rfl _
  rw [setting] at single merged
  have course := failed.course
  simp only [LogState.course, Prod.mk.injEq] at course
  obtain ⟨-, reserve, bankFail, bothFail, frozenFirst, switch, bankA, overflow, event⟩ := course
  have run := exec_logCommitDone_entry ready works h closed false
  rw [show (s.freed l).logCommit (fun s => s.commitEntry e) false = (s.freed l).logBankFail (fun s => s.commitEntry e) 1 from rfl,
    show ((s.freed l).logBankFail (fun s => s.commitEntry e) 1).log.bothFail = false from bothFail.trans works, if_neg Bool.false_ne_true,
    State.endOverflow_of_calm (overflow.trans calm)] at run
  refine ⟨_, run, reserve, bankFail, frozenFirst, switch, failed.oldest, bankA, event, single, merged, tail, ?_⟩
  rw [State.logBankFail_main (s := s.freed l) main]
  exact (State.onLog_kept (State.closeTail_kept _ (State.commitEntry_kept e (State.raise_kept _ _
    (State.onLog_kept (State.onLog_kept (.refl s) _) _)))) _).frame

/-- In the reserve log such a commit latches BOTH_FAIL (R421). -/
theorem exec_logCommitDone_latches (s : State) (e : StageEntry) (l : List StageEntry) (ready : s.log.ready) (works : s.log.bothFail = false)
    (h : s.log.staging = e :: l) (reserve : s.log.reserve) :
    ∃ t, exec (.logCommitDone false) s = .next t ∧ t.log.bothFail = true ∧ t.log.event = s.log.event.raise 1 ∧ t.log.next = s.log.next ∧
      t.diag = { s.diag with alertLow := true } ∧ OnlyTouches [.log, .diag] s t := by
  by_cases opened : ∃ x, s.log.tail = some x ∧ x.count ≠ 0
  · obtain ⟨x, tail, opened⟩ := opened
    have run := exec_logCommitDone_tail ready works h tail opened false
    rw [State.logCommit, if_neg Bool.false_ne_true, State.logBankFail_reserve reserve] at run
    exact ⟨_, run, rfl, rfl, rfl, rfl, (State.logBothFail_kept (.refl s)).frame⟩
  · have run := exec_logCommitDone_entry ready works h (fun x hx => by_contra fun k => opened ⟨x, hx, k⟩) false
    rw [State.logCommit, if_neg Bool.false_ne_true, State.logBankFail_reserve (s := s.freed l) reserve] at run
    exact ⟨_, run, rfl, rfl, rfl, rfl, (State.logBothFail_kept (State.onLog_kept (.refl s) _)).frame⟩

/-! ### Tails that stand (R409) -/

/-- The tail slot that was written last is the current one. -/
theorem LogState.currentTail_writeTail (l : LogState) (o : Bool) (n : Ns) : ∃ u, (l.writeTail o n).currentTail = { updates := u, isOpen := o, tail := l.tail } := by
  unfold LogState.writeTail LogState.currentTail
  dsimp only
  split
  · exact ⟨_, if_neg (Nat.not_lt.mpr (Nat.le_succ _))⟩
  · exact ⟨_, if_pos (Nat.lt_succ_self _)⟩

theorem exec_logTailUpdate_writes (s : State) (x : Tail) (tail : s.log.tail = some x) (opened : x.count ≠ 0)
    (stale : s.log.currentTail.tail ≠ some x) (late : s.passed s.log.tailWritten 100000) :
    ∃ t, exec .logTailUpdate s = .next t ∧ t.log.currentTail.tail = some x ∧ t.log.currentTail.isOpen = true ∧ t.log.tailWritten = s.now ∧
      t.log.tail = s.log.tail ∧ t.log.next = s.log.next ∧ OnlyTouches [.log] s t := by
  have run : exec .logTailUpdate s = .next (s.onLog fun l => l.writeTail true s.now) := by
    show execLogTailUpdate s = _
    simp [execLogTailUpdate, tail, opened, stale, late]
  obtain ⟨u, current⟩ := s.log.currentTail_writeTail true s.now
  refine ⟨_, run, ?_, ?_, rfl, rfl, rfl, Kept.frame (State.onLog_kept (.refl s) _)⟩ <;> rw [State.onLog_log, current]
  exact tail

/-- A tail that has stood its time closes, and stands ready on its record. -/
theorem exec_logTailFold_closes (s : State) (x : Tail) (tail : s.log.tail = some x) (opened : x.count ≠ 0)
    (late : s.passed x.openedAt s.log.cfg.tailFoldMax) :
    ∃ t, exec .logTailFold s = .next t ∧ t.log.next = s.log.next + 1 ∧
      t.log.tail = (if (s.logSetting x.name).merge then some { x with seq := s.log.next, count := 0 } else none) ∧ OnlyTouches [.log] s t := by
  obtain ⟨c, hc, run⟩ : ∃ c, (c = .age ∨ c = .count) ∧ exec .logTailFold s = .next (s.closeTail c) := by
    by_cases full : x.count = 2 ^ 32 - 1
    · refine ⟨.count, .inr rfl, ?_⟩
      show execLogTailFold s = _
      simp only [execLogTailFold, tail]
      rw [if_neg opened, if_pos full]
    · refine ⟨.age, .inl rfl, ?_⟩
      show execLogTailFold s = _
      simp only [execLogTailFold, tail]
      rw [if_neg opened, if_neg full, if_pos late]
  obtain ⟨y, n, log⟩ := State.closeTail_of_open tail opened c
  refine ⟨_, run, ?_, ?_, (State.closeTail_kept c (.refl s)).frame⟩ <;> rw [log]
  · exact LogState.commit_next ..
  · simp only [hc, true_and]

/-! ### Hatches (R414, R415, R417) -/

theorem exec_logHCursorWrite_sets (s : State) (h : Nat) (lo : Word) (exists_ : h < s.log.hatches.length) :
    ∃ t, exec (.logHCursorWrite h lo) s = .next t ∧
      (nth t.log.hatches h {}).cursor = (nth s.log.hatches h {}).cursorHi ++ lo ∧ (∀ k, k ≠ h → nth t.log.hatches k {} = nth s.log.hatches k {}) ∧
      OnlyTouches [.log] s t :=
  ⟨_, rfl, congrArg Hatch.cursor (nth_updAt_self _ _ _ _ exists_), fun _ ne => nth_updAt_ne _ _ _ _ _ ne.symm,
    (execLogHCursorWrite_kept h lo (.refl s)).frame rfl⟩

/-- A window of good records is shown, and counts no failure. -/
theorem exec_logHStatRead_shows (s : State) (h : Nat) (hatch : h < 4)
    (good : ∀ i < 8, s.log.status ((nth s.log.hatches h {}).cursor.toNat + i) ≠ 1) :
    ∃ t, exec (.logHStatRead h) s = .next t ∧ t.host.accesses = .data (s.log.hatchStat h) :: s.host.accesses ∧
      t.log.checkFail = s.log.checkFail ∧ OnlyTouches [.log, .host] s t := by
  have none : (((List.range 8).map ((nth s.log.hatches h {}).cursor.toNat + ·)).filter fun n => s.log.status n == 1) = [] := by
    simpa using good
  have run : exec (.logHStatRead h) s = .next ((s.onLog fun l =>
      { l with hatches := updAt l.hatches h fun x => { x with stat := s.log.hatchStat h } }).answer (.data (s.log.hatchStat h))) := by
    show execLogHStatRead h s = _
    simp only [execLogHStatRead, none, hatch, if_true, State.forEach_nil]
  exact ⟨_, run, rfl, rfl, (State.answer_kept _ (State.onLog_kept (.refl s) _)).frame⟩

theorem exec_logCheckFailWindowEnd_reports (s : State) (a : Ns) (tm n c : Nat) (h : s.log.cfWindow = some (a, tm, n, c)) (late : s.passed a (secs 1)) :
    ∃ t e, exec .logCheckFailWindowEnd s = .next t ∧ t.log.cfWindow = none ∧ t.log.reported = s.log.reported ++ [e] ∧
      e.name = .logCheckFail ∧ e.time = some tm ∧ e.payload = .sized [(8, n), (4, c), (20, 0)] ∧ OnlyTouches [.log] s t := by
  have run : exec .logCheckFailWindowEnd s = .next s.endCheckWindow := by
    show execLogCheckFailWindowEnd s = _
    rw [execLogCheckFailWindowEnd, h, Option.any_some, if_pos late]
  have ends : s.endCheckWindow = s.onLog fun l => { l with
      cfWindow := none
      reported := l.reported ++ [{ name := .logCheckFail, time := some tm, payload := .sized [(8, n), (4, c), (20, 0)] }] } := by
    simp only [State.endCheckWindow, h]
  rw [ends] at run
  exact ⟨_, _, run, rfl, rfl, rfl, rfl, rfl, Kept.frame (State.onLog_kept (.refl s) _)⟩

/-- Settles O35, clause by clause. -/
theorem commitsNumberRecordsAndTailsClose : Obligations.CommitsNumberRecordsAndTailsClose :=
  ⟨exec_logCommitDone_commits, exec_logCommitDone_closes, exec_logCommitDone_fails, exec_logCommitDone_latches, exec_logTailUpdate_writes,
    exec_logTailFold_closes, exec_logHCursorWrite_sets, exec_logHStatRead_shows, exec_logCheckFailWindowEnd_reports⟩

end Sys2Proof.Machine
end

section
/-! SUPPORT. The stages of start-up, last-words and the resets (spec/17_startup_power_reset.md R556, R562, R563, R565, R566, R568;
spec/15_host_cluster_berths.md R482, R494). -/

namespace Sys2Proof.Machine

set_option Elab.async false

open Sys2Proof

variable {s : State}

/-! ### Stages (R556) -/

theorem exec_startupStage_early (x : BootIn) (early : s.passed s.sys.t0 (stageDue (s.sys.stage + 1) + s.sys.delay) = false) :
    exec (.startupStage x) s = .next s := by
  show execStartupStage x s = _
  simp only [execStartupStage, early, Bool.not_false, Bool.or_true, if_true]

/-- Beyond stage 2 a stage begins at its time. -/
theorem exec_startupStage_begins {n : Nat} (x : BootIn) (up : s.sys.held = false) (on : s.sys.lastwords = false) (stage : s.sys.stage = n)
    (later : 2 ≤ n) (last : n ≤ 10) (due : s.passed s.sys.t0 (stageDue (n + 1) + s.sys.delay)) :
    exec (.startupStage x) s = .next (s.stageAction (n + 1) x) := by
  have reference : s.missReference = s := if_neg (by rw [stage]; omega)
  have more : decide (11 < n + 1) = false := decide_eq_false (by omega)
  have loops : ¬(n + 1 = 2 ∧ s.loopsReady = none) := fun h => absurd h.1 (by omega)
  show execStartupStage x s = _
  simp only [execStartupStage, up, on, stage, more, due, reference, loops, Bool.not_true, Bool.or_self, Bool.false_eq_true, if_false]

theorem exec_startupStage_open (s : State) (x : BootIn) (up : s.sys.held = false) (on : s.sys.lastwords = false) (stage : s.sys.stage = 10)
    (due : s.passed s.sys.t0 (stageDue 11 + s.sys.delay)) :
    ∃ t, exec (.startupStage x) s = .next t ∧ t.sys.stage = 11 ∧ t.host = { s.host with ready := true } ∧
      t.adeid = { s.adeid with ready := true } ∧ OnlyTouches [.sys, .host, .adeid] s t := by
  have reached : Kept (· ∈ [.sys, .host, .adeid]) s (s.reach 11) := State.reach_kept 11 (.refl s)
  have admits : Kept (· ∈ [.sys, .host, .adeid]) s ((s.reach 11).onHost fun h => { h with ready := true }) :=
    State.onHost_kept reached fun _ k => k
  have kept : Kept (· ∈ [.sys, .host, .adeid]) s (s.stageAction 11 x) :=
    State.onAdeid_kept admits fun a => { a with ready := true }
  exact ⟨_, exec_startupStage_begins x up on stage (by omega) le_rfl due, rfl, rfl, rfl, kept.frame⟩

theorem exec_startupStage_shown (s : State) (x : BootIn) (n : Nat) (up : s.sys.held = false) (on : s.sys.lastwords = false) (stage : s.sys.stage = n)
    (hn : n = 4 ∨ n = 5) (due : s.passed s.sys.t0 (stageDue (n + 1) + s.sys.delay)) :
    ∃ t, exec (.startupStage x) s = .next t ∧ t.sys.stage = n + 1 ∧ OnlyTouches [.sys] s t := by
  have run := exec_startupStage_begins x up on stage (by omega) (by omega) due
  have action : s.stageAction (n + 1) x = s.reach (n + 1) := by obtain rfl | rfl := hn <;> rfl
  rw [action] at run
  exact ⟨_, run, rfl, (State.reach_kept _ (.refl s)).frame⟩

/-! ### The logbook in last-words (R418) -/

theorem State.closeTail_lastwords (s : State) (c : TailCause) : (s.closeTail c).log.lastwords = s.log.lastwords := by
  by_cases opened : ∃ x, s.log.tail = some x ∧ x.count ≠ 0
  · obtain ⟨x, tail, opened⟩ := opened
    obtain ⟨y, n, log⟩ := State.closeTail_of_open tail opened c
    obtain ⟨a, b, commit⟩ := s.log.commit_eq (s.repeatRecord x c)
    rw [log]
    exact (congrArg LogState.lastwords commit :)
  · obtain ⟨y, log⟩ := State.closeTail_of_closed (fun x hx => by_contra fun k => opened ⟨x, hx, k⟩) c
    rw [log]

theorem State.commitEntry_lastwords (s : State) (e : StageEntry) : (s.commitEntry e).log.lastwords = s.log.lastwords := by
  obtain ⟨x, n, log⟩ := s.commitEntry_log e
  obtain ⟨a, b, commit⟩ := s.log.commit_eq { e.rcd with lastwords := s.log.lastwords }
  rw [log]
  exact (congrArg LogState.lastwords commit :)

theorem State.logDrain_lastwords (s : State) (c : TailCause) : (s.logDrain c).log.lastwords = s.log.lastwords := by
  rw [State.logDrain, State.closeTail_lastwords]
  exact State.forEach_keeps (fun s => s.log.lastwords) (fun s e => (State.commitEntry_lastwords _ e).trans (s.closeTail_lastwords _)) _ s

theorem State.logLastwords_lastwords (s : State) (va vb : Nat) : (s.logLastwords va vb).log.lastwords = true := by
  unfold State.logLastwords
  extract_lets refused flushed u v w p
  have hv : v.log.lastwords = true := u.logDrain_lastwords .lastwords
  have hw : w.log.lastwords = true := by
    unfold w
    split
    next o _ =>
      obtain ⟨a, b, commit⟩ := v.log.commit_eq (v.lostRecord o)
      exact (congrArg LogState.lastwords commit).trans hv
    next => exact hv
  split
  · rfl
  · obtain ⟨a, b, commit⟩ := w.log.commit_eq p
    exact (congrArg LogState.lastwords commit).trans hw

/-! ### Last-words (R562) -/

/-- The intake of the logbook closes, and last-words holds. -/
def State.lwEntered (s : State) : State := s.endCheckWindow.logIntakeAll.onSys fun y =>
  { y with lastwords := true, lastwordsAt := s.endCheckWindow.logIntakeAll.now }

/-- Outputs, captures and LOGIC fall quiet. -/
def State.lwQuiet (s : State) : State :=
  let s := s.blockBridges
  let s := s.forEach ((List.range 12).filter fun g => (s.fioGroup g).accepted) fun s g => s.fioSafe g
  (s.onCapt fun c => { c with engines := c.engines.map Engine.stop }).abandonCycles.finishCommits

/-- The domains are shed, and the ledger is stored. -/
def State.lwShed (s : State) : State :=
  ((s.onClk fun c => { c with stopped := c.stopped.zipIdx.map fun x => x.1 || shedDomains.contains x.2 }).onDiag fun d =>
    { d with ledger := { d.ledger with lastwords := d.ledger.lastwords + 1 } }).onDiag fun d => { d with stored := d.ledger }

/-- The logbook writes its last records, when it can. -/
def State.lwRecords (s : State) (records : Bool) (va vb : Nat) : State :=
  if records then s.logLastwords va vb else s.onLog fun l => { l with lastwords := true }

theorem State.lastWords_eq (s : State) : s.lastWords =
    ((((s.lwEntered.closeDoors 2).lwQuiet.lwShed.lwRecords (s.log.ready && s.sys.holdupOk) s.sys.vla.mv s.sys.vlb.mv).onAcq fun a =>
      { a with running := false }).onDiag fun d => { d with alertLow := true }) := rfl

theorem State.lwEntered_kept (s : State) : Kept (· ∈ [.log, .snaps, .sys]) s s.lwEntered :=
  State.onSys_kept (State.logIntakeAll_kept (State.endCheckWindow_kept (.refl s))) _

theorem State.lwQuiet_kept (s : State) : Kept (· ∈ [.fresh, .gate, .fio, .log, .diag, .capt, .logic]) s s.lwQuiet :=
  State.finishCommits_kept (State.abandonCycles_kept (State.onCapt_kept
    (State.forEach_kept (fun g _ => State.fioSafe_kept g) _ (State.blockBridges_kept (.refl s))) _))

theorem State.lwRecords_kept (s : State) (r : Bool) (va vb : Nat) : Kept (· ∈ [.log]) s (s.lwRecords r va vb) :=
  Kept.ite (fun _ => State.logLastwords_kept va vb (.refl s)) fun _ => State.onLog_kept (.refl s) _

theorem State.lwRecords_lastwords (s : State) (r : Bool) (va vb : Nat) : (s.lwRecords r va vb).log.lastwords = true := by
  cases r
  · rfl
  · exact s.logLastwords_lastwords va vb

theorem exec_lastwordsEntry_enters (s : State) (up : s.sys.held = false) (on : s.sys.lastwords = false) (a : s.sys.vla.mv < 16000)
    (b : s.sys.vlb.mv < 16000) :
    ∃ t, exec .lastwordsEntry s = .next t ∧ t.sys.lastwords = true ∧ t.sys.lastwordsAt = s.now ∧ t.log.lastwords = true ∧
      t.acq.running = false ∧ t.diag.alertLow = true ∧ t.diag.stored = t.diag.ledger ∧
      t.clk.stopped = s.clk.stopped.zipIdx.map (fun x => x.1 || [1, 2, 3, 4, 5, 7].contains x.2) ∧
      (∀ d < 6, (t.door d).open_ = false) ∧ t.sec = s.sec := by
  have run : exec .lastwordsEntry s = .next s.lastWords := by
    have low : decide (16000 ≤ max s.sys.vla.mv s.sys.vlb.mv) = false := decide_eq_false (Nat.not_le.mpr (max_lt a b))
    show execLastwordsEntry s = _
    rw [execLastwordsEntry, up, on, low]
    rfl
  have shut : Kept (· ∈ [.log, .net, .ptp, .adeid]) s.lwEntered (s.lwEntered.closeDoors 2) := State.closeDoors_kept 2 (.refl _)
  have quiet := (s.lwEntered.closeDoors 2).lwQuiet_kept
  have doors (d : Nat) (hd : d < 6) : ((s.lwEntered.closeDoors 2).lwQuiet.door d).open_ = false := by
    rw [State.door, quiet.parts .adeid (by simp)]
    exact State.closeDoors_closed _ 2 d hd
  have now : s.endCheckWindow.logIntakeAll.now = s.now :=
    (State.logIntakeAll_kept (M := (· ∈ [.log, .snaps])) (State.endCheckWindow_kept (.refl s))).parts .now (by simp)
  have sys : (s.lwEntered.closeDoors 2).lwQuiet.sys = s.lwEntered.sys := (quiet.parts .sys (by simp)).trans (shut.parts .sys (by simp))
  have clk : (s.lwEntered.closeDoors 2).lwQuiet.clk = s.clk :=
    (quiet.parts .clk (by simp)).trans ((shut.parts .clk (by simp)).trans (s.lwEntered_kept.parts .clk (by simp)))
  have sec : (s.lwEntered.closeDoors 2).lwQuiet.sec = s.sec :=
    (quiet.parts .sec (by simp)).trans ((shut.parts .sec (by simp)).trans (s.lwEntered_kept.parts .sec (by simp)))
  rw [State.lastWords_eq] at run
  generalize (s.lwEntered.closeDoors 2).lwQuiet = q at run doors sys clk sec
  have records := q.lwShed.lwRecords_kept (s.log.ready && s.sys.holdupOk) s.sys.vla.mv s.sys.vlb.mv
  have lastwords := q.lwShed.lwRecords_lastwords (s.log.ready && s.sys.holdupOk) s.sys.vla.mv s.sys.vlb.mv
  generalize q.lwShed.lwRecords (s.log.ready && s.sys.holdupOk) s.sys.vla.mv s.sys.vlb.mv = w at run records lastwords
  have sysW : w.sys = s.lwEntered.sys := (records.parts .sys (by simp)).trans sys
  have diagW : w.diag = q.lwShed.diag := records.parts .diag (by simp)
  have clkW : w.clk = q.lwShed.clk := records.parts .clk (by simp)
  have doorsW : w.adeid = q.adeid := records.parts .adeid (by simp)
  refine ⟨_, run, ?_, ?_, lastwords, rfl, rfl, ?_, ?_, fun d hd => ?_, (records.parts .sec (by simp)).trans sec⟩
  · show w.sys.lastwords = true
    rw [sysW]; rfl
  · show w.sys.lastwordsAt = s.now
    rw [sysW]; exact now
  · show w.diag.stored = w.diag.ledger
    rw [diagW]; rfl
  · show w.clk.stopped = _
    rw [clkW]
    show q.clk.stopped.zipIdx.map _ = _
    rw [clk]
    rfl
  · show (nth w.adeid.doors d {}).open_ = false
    rw [doorsW]
    exact doors d hd

/-! ### Resets (R563, R565, R566) -/

/-- Last-words runs to its end: power-on reset is held. -/
theorem exec_lastwordsEnd (h : s.sys.lastwords) : exec .lastwordsEnd s = .next s.powerReset := congrArg _ (if_pos h)

/-- Settles O2, clause by clause. -/
theorem stagesAndLastWordsRunTheirCourse : Obligations.StagesAndLastWordsRunTheirCourse :=
  ⟨by decide, fun _ x => exec_startupStage_early x, exec_startupStage_open, exec_startupStage_shown, exec_lastwordsEntry_enters,
    fun _ h => ⟨_, exec_lastwordsEnd h, rfl, rfl, rfl, rfl, rfl, rfl, rfl, rfl, rfl, rfl, rfl⟩⟩

/-- RST_N or the watchdog restarts the timeline while the device runs. -/
theorem exec_rstNReset {d : Ns} (up : s.sys.held = false) (on : s.sys.lastwords = false) (long : msec 1 ≤ d) :
    exec (.rstNReset d) s = .next (s.restart .rstN (decide (secs 2 ≤ d))) := by
  have short : decide (d < msec 1) = false := decide_eq_false long.not_gt
  show execRstNReset d s = _
  rw [execRstNReset, up, on, short]
  rfl

theorem exec_systemWatchdogExpiry (up : s.sys.held = false) (on : s.sys.lastwords = false) : exec .systemWatchdogExpiry s = .next
    ((s.restart .watchdog false).onHost fun _ => { s.host with
      ready := false, berths := List.replicate 128 none, qBulk := [], qSig := [], qCtl := [], fBulk := 0, fSig := 0, fCtl := 0
      forwards := [], regs := [], lateEpisode := false }) := by
  show execSystemWatchdogExpiry s = _
  rw [execSystemWatchdogExpiry, up, on]
  rfl

theorem State.hostGone_log (s : State) : s.hostGone.log = (s.report .hostLinkDown).log := by simp [State.hostGone]

/-- What the loss of the link leaves of HOST beside the event bit and its vector (R482). -/
theorem State.hostGone_host (s : State) : ∃ e p, s.hostGone.host =
    { s.host with linkUp := false, frTx := false, frRx := false, rings := s.host.rings.map CmdRing.off, event := e, pba := p } := by
  simp only [State.hostGone, State.report, State.onLog_host, State.raise_at_host, State.onHost_host]
  exact ⟨_, _, rfl⟩

theorem exec_hostLinkDown (up : s.host.linkUp) : exec .hostLinkDown s = .next s.hostGone := congrArg _ (if_pos up)

theorem exec_hostLinkUp (up : s.sys.held = false) : exec .hostLinkUp s = .next (s.onHost fun h => { h with linkUp := true }) := by
  show execHostLinkUp s = _
  rw [execHostLinkUp, up]
  rfl

/-- A PCI Express reset resets HOST alone, and the berths run on (R482, R566). -/
theorem State.hostReset_clears (s : State) : (s.onHost HostState.cleared).hostGone.host.rings = ({} : HostState).rings.map CmdRing.off ∧
    (s.onHost HostState.cleared).hostGone.host.linkUp = false ∧ (s.onHost HostState.cleared).hostGone.host.berths = s.host.berths ∧
    (s.onHost HostState.cleared).hostGone.host.qCtl = s.host.qCtl ∧
    (s.onHost HostState.cleared).hostGone.host.irqMask = ({} : HostState).irqMask ∧
    (s.onHost HostState.cleared).hostGone.host.msix = ({} : HostState).msix ∧
    (s.onHost HostState.cleared).hostGone.log = (s.report .hostLinkDown).log ∧ OnlyTouches [.host, .log] s (s.onHost HostState.cleared).hostGone := by
  obtain ⟨e, p, host⟩ := (s.onHost HostState.cleared).hostGone_host
  have kept : Kept (· ∈ [.host, .log]) s (s.onHost HostState.cleared).hostGone :=
    State.hostGone_kept (State.onHost_kept (.refl s) fun _ k => k)
  rw [host, State.hostGone_log]
  exact ⟨rfl, rfl, rfl, rfl, rfl, rfl, rfl, kept.frame⟩

/-- Settles O3, clause by clause. -/
theorem resetsKeepWhatSurvives : Obligations.ResetsKeepWhatSurvives := by
  refine ⟨fun s d up on long => ?_, fun s up on => ?_, ?_, fun s up => ?_, fun s up => ?_⟩
  · exact ⟨_, exec_rstNReset up on long, rfl, rfl, rfl, rfl, rfl, rfl, rfl, rfl, rfl, rfl, rfl, rfl, rfl, rfl, rfl, rfl, rfl, rfl⟩
  · exact ⟨_, exec_systemWatchdogExpiry up on, rfl, rfl, rfl, rfl, rfl, rfl, rfl, rfl, rfl, rfl, rfl, rfl, List.mem_cons_self⟩
  · rintro s c (rfl | rfl)
    · exact ⟨_, rfl, s.hostReset_clears⟩
    · exact ⟨_, rfl, s.hostReset_clears⟩
  · obtain ⟨e, p, host⟩ := s.hostGone_host
    refine ⟨_, exec_hostLinkDown up, ?_, ?_, ?_, s.hostGone_log, (State.hostGone_kept (.refl s)).frame⟩ <;> rw [host]
  · exact ⟨_, exec_hostLinkUp up, rfl, Kept.frame (State.onHost_kept (.refl s) fun _ k => k)⟩

end Sys2Proof.Machine
end

section
/-! SUPPORT. Capture engines: arming, conditions, the coincidence window, the end of a capture, and BAR2 (spec/11_capture.md R382 to R391,
spec/15_host_cluster_berths.md R480, spec/19_register_map.md R596). -/

namespace Sys2Proof.Machine

set_option Elab.async false

open Sys2Proof

variable {s : State}

/-! ### Engines by number -/

theorem State.engine_onEngine_self {e : Nat} (h : e < s.capt.engines.length) (f : Engine → Engine) : (s.onEngine e f).engine e = f (s.engine e) :=
  nth_updAt_self _ _ _ _ h

theorem State.engine_onEngine_ne {e k : Nat} (h : k ≠ e) (f : Engine → Engine) : (s.onEngine e f).engine k = s.engine k :=
  nth_updAt_ne _ _ _ _ _ (Ne.symm h)

theorem State.engine_of_updAt_self {t : State} {e : Nat} {f : Engine → Engine} (h : t.capt.engines = updAt s.capt.engines e f)
    (k : e < s.capt.engines.length) : t.engine e = f (s.engine e) := by
  rw [State.engine, h]
  exact nth_updAt_self _ _ _ _ k

theorem State.engine_of_updAt_ne {t : State} {e k : Nat} {f : Engine → Engine} (h : t.capt.engines = updAt s.capt.engines e f)
    (hk : k ≠ e) : t.engine k = s.engine k := by
  rw [State.engine, h]
  exact nth_updAt_ne _ _ _ _ _ (Ne.symm hk)

theorem State.engine_congr {t : State} (h : t.capt.engines = s.capt.engines) (e : Nat) : t.engine e = s.engine e := by
  rw [State.engine, State.engine, h]

theorem State.engine_out {e : Nat} (h : ¬e < s.capt.engines.length) : s.engine e = {} := by
  rw [State.engine, nth, List.getElem?_eq_none (not_lt.mp h), Option.getD_none]

/-- What an engine beyond the four does not show tells that the number is one of theirs. -/
theorem State.engine_lt {α : Type} {e : Nat} {x : α} (g : Engine → α) (h : g (s.engine e) = x) (k : g {} ≠ x) : e < s.capt.engines.length :=
  by_contra fun n => k (by rw [← h, State.engine_out n])

theorem State.captRefuse_none {e : Nat} {p : Bool} (h : s.captRefuse e p = none) : e < s.capt.engines.length ∧ p = true := by
  have both : (s.engine e).created && p := by
    by_contra k
    rw [State.captRefuse, if_neg k] at h
    cases h
  obtain ⟨created, hp⟩ := Bool.and_eq_true_iff.mp both
  exact ⟨State.engine_lt Engine.created created (by decide), hp⟩

/-! ### The change stream beside the rest of an engine (R379, R381, R387) -/

/-- An engine without its change stream, the FIFO before it, what was lost of it, and the descriptor under way. -/
def Engine.besideStream (e : Engine) : Engine :=
  { e with chg := [], chgCount := 0, fifo := [], lost := 0, lostRun := none, chgFull := false, desc := {} }

/-- A record put into engine `e` changes no other engine, and of `e` only the change stream; in ARMED the ring is never found full (R387). -/
structure StreamOnly (e : Nat) (a b : State) : Prop where
  self : (b.engine e).besideStream = (a.engine e).besideStream
  full : (a.engine e).phase = .armed → (b.engine e).chgFull = (a.engine e).chgFull
  others : ∀ k, k ≠ e → b.engine k = a.engine k
  length : b.capt.engines.length = a.capt.engines.length

theorem StreamOnly.refl (e : Nat) (s : State) : StreamOnly e s s := ⟨rfl, fun _ => rfl, fun _ _ => rfl, rfl⟩

theorem StreamOnly.phase {e : Nat} {a b : State} (h : StreamOnly e a b) : (b.engine e).phase = (a.engine e).phase :=
  (congrArg Engine.phase h.self :)

theorem StreamOnly.trans {e : Nat} {a b c : State} (h : StreamOnly e a b) (k : StreamOnly e b c) : StreamOnly e a c where
  self := k.self.trans h.self
  full armed := (k.full (h.phase.trans armed)).trans (h.full armed)
  others n hn := (k.others n hn).trans (h.others n hn)
  length := k.length.trans h.length

theorem StreamOnly.raise {e : Nat} {a b : State} (h : StreamOnly e a b) (i : Nat) : StreamOnly e a (b.raise .capt i) := ⟨h.1, h.2, h.3, h.4⟩

theorem StreamOnly.of_onEngine {e : Nat} {f : Engine → Engine} (beside : (f (s.engine e)).besideStream = (s.engine e).besideStream)
    (full : (s.engine e).phase = .armed → (f (s.engine e)).chgFull = (s.engine e).chgFull) : StreamOnly e s (s.onEngine e f) := by
  by_cases h : e < s.capt.engines.length
  · exact ⟨by rw [State.engine_onEngine_self h, beside], by rw [State.engine_onEngine_self h]; exact full,
      fun k hk => State.engine_onEngine_ne hk f, length_updAt _ _ _⟩
  · have same (k : Nat) : (s.onEngine e f).engine k = s.engine k := nth_updAt_out _ _ _ _ _ (not_lt.mp h)
    exact ⟨by rw [same], fun _ => by rw [same], fun k _ => same k, length_updAt _ _ _⟩

theorem Engine.put_besideStream (x : Engine) (r : ChgRec) (n : Ns) : (x.put r n).besideStream = x.besideStream := by
  unfold Engine.put
  split <;> rfl

theorem Engine.put_chgFull {x : Engine} (armed : x.phase = .armed) (r : ChgRec) (n : Ns) : (x.put r n).chgFull = x.chgFull := by
  rw [Engine.put, if_neg (by simp [armed])]
  rfl

theorem State.captPut_streamOnly (s : State) (e : Nat) (r : ChgRec) : StreamOnly e s (s.captPut e r) := by
  unfold State.captPut
  extract_lets x
  split
  · exact .refl e s
  split
  · exact .of_onEngine (Engine.put_besideStream _ r _) fun armed => Engine.put_chgFull armed r _
  split
  · exact .of_onEngine rfl fun _ => rfl
  have lost : StreamOnly e s (s.onEngine e fun x =>
      { x.lose r s.now with desc := { (x.lose r s.now).desc with chgGap := x.desc.chgGap || x.phase = .triggered } }) :=
    .of_onEngine rfl fun _ => rfl
  unfold State.when
  split
  · exact lost.raise 5
  · exact lost

theorem State.forEach_invariant {α : Type} {p : State → Prop} {f : State → α → State} (h : ∀ s x, p s → p (f s x)) (l : List α) :
    ∀ s, p s → p (s.forEach l f) := by
  induction l with
  | nil => exact fun s hs => hs
  | cons x l ih => exact fun s hs => ih (f s x) (h s x hs)

/-! ### Arming (R384) -/

theorem State.captDiscard_capt (s : State) (e : Nat) : (s.captDiscard e).capt = s.capt := by
  unfold State.captDiscard
  extract_lets x
  split <;> rfl

/-- An engine at its arming: both rings empty (R384). -/
def Engine.arm (x : Engine) (now : Ns) : Engine :=
  { x with
    phase := .armed, armedAt := now, rows := [], rowCount := 0, gapCount := 0, gapRun := none, chg := [], chgCount := 0
    fifo := [], lostRun := none, met := [], window := false, reports := [], trigIdx := 0
    desc := {}, written := none, lastAna := [], chgFull := false, lost := 0, waveGaps := 0 }

theorem State.captDiscard_now (s : State) (e : Nat) : (s.captDiscard e).now = s.now := by
  unfold State.captDiscard
  extract_lets x
  split <;> rfl

theorem State.captArmed_engines (s : State) (e : Nat) (h : e < s.capt.engines.length) :
    ((s.captArmed e).engine e).besideStream = ((s.engine e).arm s.now).besideStream ∧ ((s.captArmed e).engine e).chgFull = false ∧
      (∀ k, k ≠ e → (s.captArmed e).engine k = s.engine k) ∧ (s.captArmed e).capt.event.bits.getLsbD 0 = true := by
  unfold State.captArmed
  extract_lets u v w
  have length : e < u.capt.engines.length := by rw [State.captDiscard_capt]; exact h
  have same (k : Nat) : u.engine k = s.engine k := State.engine_congr (congrArg _ (s.captDiscard_capt e)) k
  have now : u.now = s.now := s.captDiscard_now e
  have hv : v.engine e = (s.engine e).arm s.now := by rw [← same e, ← now]; exact State.engine_onEngine_self length _
  have stream : StreamOnly e v w := State.forEach_invariant (p := StreamOnly e v) (fun t x ht => by
    split
    · exact ht
    · exact ht.trans (t.captPut_streamOnly e _)) _ v (.refl e v)
  clear_value w
  refine ⟨stream.self.trans (by rw [hv]), (stream.full (by rw [hv]; rfl)).trans (by rw [hv]; rfl), fun k hk => ?_, W1C.raise_bits _ _ (by decide)⟩
  exact (stream.others k hk).trans ((State.engine_onEngine_ne hk _).trans (same k))

theorem exec_captArm {b e : Nat} (h : s.ctlCmd b = some (.captArm e)) :
    exec (.captArm b) s = .next (s.runCtl b (s.refuseArm e) fun s => (s.captArmed e).done b) := by
  show execCaptArm b s = _
  rw [execCaptArm, h]

theorem exec_captArm_arms (s : State) (b e : Nat) (h : s.ctlCmd b = some (.captArm e)) (ok : s.refuseArm e = none) :
    ∃ t, exec (.captArm b) s = .next t ∧ DoneOn b 0 t ∧
    (t.engine e).phase = .armed ∧ (t.engine e).armedAt = s.now ∧ (t.engine e).rows = [] ∧ (t.engine e).rowCount = 0 ∧
    (t.engine e).window = false ∧ (t.engine e).chgFull = false ∧ (t.engine e).num = (s.engine e).num ∧ (t.engine e).pre = (s.engine e).pre ∧
    (t.engine e).post = (s.engine e).post ∧ t.capt.event.bits.getLsbD 0 = true ∧ (∀ k, k ≠ e → t.engine k = s.engine k) ∧
    OnlyTouches [.capt, .log, .host] s t := by
  have run := exec_captArm h
  rw [ok, State.runCtl] at run
  have kept : Kept (· ∉ [.host]) (s.leaveCtl b) ((s.leaveCtl b).captArmed e) := State.captArmed_kept e (.refl _)
  obtain ⟨self, full, others, event⟩ := (s.leaveCtl b).captArmed_engines e (State.captRefuse_none ok).1
  have frame : OnlyTouches [.capt, .log, .host] s _ := (execCaptArm_kept b (.refl s)).frame run
  generalize (s.leaveCtl b).captArmed e = u at run kept self full others event frame
  exact ⟨_, run, State.doneOn_of_ctlCmd h (kept.parts .host (by simp)), (congrArg Engine.phase self :), (congrArg Engine.armedAt self :),
    (congrArg Engine.rows self :), (congrArg Engine.rowCount self :), (congrArg Engine.window self :), full, (congrArg Engine.num self :),
    (congrArg Engine.pre self :), (congrArg Engine.post self :), event, others, frame⟩

/-! ### Disarming, setting and locking (R384, R386, R391) -/

theorem State.captDisarmed_capt (s : State) (e : Nat) : (s.captDisarmed e).capt =
    { s.capt with engines := updAt s.capt.engines e fun x => { x with phase := .disarmed }, event := s.capt.event.raise 3 } := by
  simp only [State.captDisarmed, State.report_capt, State.raise_at_capt, State.onEngine, State.onCapt_capt, State.captDiscard_capt]

theorem exec_captDisarm_disarms (s : State) (b e : Nat) (h : s.ctlCmd b = some (.captDisarm e)) (ok : s.refuseDisarm e = none) :
    ∃ t, exec (.captDisarm b) s = .next t ∧ DoneOn b 0 t ∧ t.engine e = { s.engine e with phase := .disarmed } ∧
      t.capt.event = s.capt.event.raise 3 ∧ (∀ k, k ≠ e → t.engine k = s.engine k) ∧ OnlyTouches [.capt, .log, .host] s t := by
  have run : exec (.captDisarm b) s = .next (((s.leaveCtl b).captDisarmed e).done b) := by
    show execCaptDisarm b s = _
    rw [execCaptDisarm, h]
    dsimp only
    rw [ok, State.runCtl]
  have kept : Kept (· ∉ [.host]) (s.leaveCtl b) ((s.leaveCtl b).captDisarmed e) := State.captDisarmed_kept e (.refl _)
  have capt : (((s.leaveCtl b).captDisarmed e).done b).capt = _ := (s.leaveCtl b).captDisarmed_capt e
  have engines := congrArg CaptState.engines capt
  exact ⟨_, run, State.doneOn_of_ctlCmd h (kept.parts .host (by simp)), State.engine_of_updAt_self engines (State.captRefuse_none ok).1,
    congrArg CaptState.event capt, fun k hk => State.engine_of_updAt_ne engines hk, (execCaptDisarm_kept b (.refl s)).frame run⟩

/-- An engine with its rows set, POST_ROWS clipped to the room left (R386). -/
def Engine.setRows (x : Engine) (pre post room : Nat) : Engine := { x with pre := pre, post := min post room, clampedCfg := decide (room < post) }

/-- An engine's rows are set; a clipped POST_ROWS is shown and logged (R386). -/
def State.setRows (s : State) (e pre post room : Nat) : State :=
  (s.onEngine e fun x => x.setRows pre post room).when (decide (room < post)) fun s => (s.raise .capt 6).report .captClamped e [post, room]

theorem State.setRows_engines (s : State) (e pre post room : Nat) :
    (s.setRows e pre post room).capt.engines = updAt s.capt.engines e fun x => x.setRows pre post room := by
  unfold State.setRows State.when
  split <;> rfl

theorem State.setRows_host (s : State) (e pre post room : Nat) : (s.setRows e pre post room).host = s.host := by
  unfold State.setRows State.when
  split <;> rfl

theorem State.setRows_event (s : State) {e pre post room : Nat} (clip : room < post) :
    (s.setRows e pre post room).capt.event = s.capt.event.raise 6 := by
  rw [State.setRows, decide_eq_true clip]
  rfl

theorem exec_captSet_sets (s : State) (b e pre post : Nat) (h : s.ctlCmd b = some (.captSet e pre post)) (ok : s.refuseCaptSet e = none) :
    ∃ t, exec (.captSet b) s = .next t ∧ DoneOn b 0 t ∧
      t.engine e = { s.engine e with
        pre := pre, post := min post ((s.engine e).maxRows - pre), clampedCfg := decide ((s.engine e).maxRows - pre < post) } ∧
      ((s.engine e).maxRows - pre < post → t.capt.event = s.capt.event.raise 6) ∧
      (∀ k, k ≠ e → t.engine k = s.engine k) ∧ OnlyTouches [.capt, .log, .host] s t := by
  obtain ⟨room, hroom⟩ : ∃ n, (s.engine e).maxRows - pre = n := ⟨_, rfl⟩
  have run : exec (.captSet b) s = .next (((s.leaveCtl b).setRows e pre post room).done b) := by
    show execCaptSet b s = _
    rw [execCaptSet, h, ← hroom]
    dsimp only
    rw [ok]
    rfl
  have engines : (((s.leaveCtl b).setRows e pre post room).done b).capt.engines = _ := (s.leaveCtl b).setRows_engines e pre post room
  rw [hroom]
  exact ⟨_, run, State.doneOn_of_ctlCmd h ((s.leaveCtl b).setRows_host ..), State.engine_of_updAt_self engines (State.captRefuse_none ok).1,
    fun clip => (s.leaveCtl b).setRows_event clip, fun k hk => State.engine_of_updAt_ne engines hk, (execCaptSet_kept b (.refl s)).frame run⟩

theorem exec_captLock_locks (s : State) (b e : Nat) (h : s.ctlCmd b = some (.captLock e)) (ok : s.refuseLock e = none) :
    ∃ t, exec (.captLock b) s = .next t ∧ DoneOn b 0 t ∧ t.engine e = { s.engine e with locked := some s.now } ∧
      (∀ k, k ≠ e → t.engine k = s.engine k) ∧ OnlyTouches [.capt, .host] s t := by
  obtain ⟨u, hu⟩ : ∃ u, (s.leaveCtl b).onEngine e (fun x => { x with locked := some s.now }) = u := ⟨_, rfl⟩
  have run : exec (.captLock b) s = .next (u.done b) := by
    show execCaptLock b s = _
    rw [execCaptLock, h, ← hu]
    dsimp only
    rw [ok, State.runCtl, State.leaveCtl_now]
  have kept : Kept (· ∈ [.capt, .host]) s u := by rw [← hu]; exact State.onEngine_kept e _ (State.leaveCtl_kept b (.refl s))
  have engines : u.capt.engines = updAt s.capt.engines e fun x => { x with locked := some s.now } := by rw [← hu]; rfl
  have host : u.host = (s.leaveCtl b).host := by rw [← hu]; rfl
  exact ⟨_, run, State.doneOn_of_ctlCmd h host, State.engine_of_updAt_self (t := u.done b) engines (State.captRefuse_none ok).1,
    fun k hk => State.engine_of_updAt_ne (t := u.done b) engines hk, (State.done_kept b 0 kept).frame⟩

theorem exec_captUnlock_unlocks (s : State) (b e : Nat) (h : s.ctlCmd b = some (.captUnlock e)) :
    ∃ t, exec (.captUnlock b) s = .next t ∧ DoneOn b 0 t ∧ (t.engine e).locked = none ∧
      (∀ k, k ≠ e → t.engine k = s.engine k) ∧ OnlyTouches [.capt, .host] s t := by
  obtain ⟨u, hu⟩ : ∃ u, (s.leaveCtl b).onEngine e (fun x => { x with locked := none }) = u := ⟨_, rfl⟩
  have run : exec (.captUnlock b) s = .next (u.done b) := by
    show execCaptUnlock b s = _
    rw [execCaptUnlock, h, ← hu]
    rfl
  have kept : Kept (· ∈ [.capt, .host]) s u := by rw [← hu]; exact State.onEngine_kept e _ (State.leaveCtl_kept b (.refl s))
  have engines : u.capt.engines = updAt s.capt.engines e fun x => { x with locked := none } := by rw [← hu]; rfl
  have host : u.host = (s.leaveCtl b).host := by rw [← hu]; rfl
  have unlocked : ((u.done b).engine e).locked = none := by
    by_cases length : e < s.capt.engines.length
    · rw [State.engine_of_updAt_self (t := u.done b) engines length]
    · rw [State.engine_out (s := u.done b) fun k => length (k.trans_eq ((congrArg List.length engines).trans (length_updAt ..)))]
  exact ⟨_, run, State.doneOn_of_ctlCmd h host, unlocked, fun k hk => State.engine_of_updAt_ne (t := u.done b) engines hk,
    (State.done_kept b 0 kept).frame⟩

theorem exec_captLockLapsed_unlocks (s : State) (e : Nat) (late : s.passedSince (s.engine e).locked (s.engine e).cfg.lockMax) :
    ∃ t, exec (.captLockLapsed e) s = .next t ∧ t.engine e = { s.engine e with locked := none } ∧ t.capt.event = s.capt.event.raise 7 ∧
      t.log = (s.report .captLockLapsed e).log ∧ (∀ k, k ≠ e → t.engine k = s.engine k) ∧ OnlyTouches [.capt, .log] s t := by
  obtain ⟨t, ht⟩ : ∃ t, ((s.onEngine e fun x => { x with locked := none }).raise .capt 7).report .captLockLapsed e = t := ⟨_, rfl⟩
  have run : exec (.captLockLapsed e) s = .next t := by rw [← ht]; exact congrArg _ (if_pos late)
  have capt : t.capt = { s.capt with engines := updAt s.capt.engines e fun x => { x with locked := none }, event := s.capt.event.raise 7 } := by
    rw [← ht]; rfl
  have log : t.log = (s.report .captLockLapsed e).log := by rw [← ht]; rfl
  have length : e < s.capt.engines.length := by
    by_contra k
    rw [State.engine_out k] at late
    cases late
  have engines := congrArg CaptState.engines capt
  exact ⟨t, run, State.engine_of_updAt_self engines length, congrArg CaptState.event capt, log, fun k hk => State.engine_of_updAt_ne engines hk,
    (execCaptLockLapsed_kept e (.refl s)).frame run⟩

theorem State.refuseArm_status {e : Nat} {r : Refuse} (h : s.refuseArm e = some r) : r.st0 = (s.engine e).status := by
  unfold State.refuseArm State.captRefuse at h
  extract_lets x at h
  split at h <;> cases h
  rfl

/-- Settles O31, clause by clause. -/
theorem enginesArmSetAndLock : Obligations.EnginesArmSetAndLock := by
  refine ⟨exec_captArm_arms, fun s b e r h refused => ?_, exec_captDisarm_disarms, exec_captSet_sets, exec_captLock_locks, exec_captUnlock_unlocks,
    exec_captLockLapsed_unlocks⟩
  have run := exec_captArm h
  rw [refused] at run
  obtain ⟨ending, -, frame⟩ := State.runCtl_refuses h r fun s => (s.captArmed e).done b
  rw [State.refuseArm_status refused] at ending
  exact ⟨_, run, ending, frame.parts .capt (by simp), frame⟩

end Sys2Proof.Machine
end

section
/-! SUPPORT. Triggers, the coincidence window and the end of a capture (spec/11_capture.md R382 to R384, R388 to R390); BAR2 (R391, R480, R596). -/

namespace Sys2Proof.Machine

set_option Elab.async false

open Sys2Proof

variable {s : State}

/-! ### Reports (R382, R383) -/

/-- The engine as its first report triggers it (R383, R384). -/
def Engine.trigger (x : Engine) (r : Report) (now : Ns) : Engine :=
  { x with phase := .triggered, firstAt := now, window := true, reports := [r], num := (x.num + 1) % 2 ^ 32, trigIdx := x.idxOf r.time }

/-- The engine with one report more in its window (R383). -/
def Engine.join (x : Engine) (r : Report) : Engine :=
  { x with reports := x.reports ++ [r], trigIdx := { x with reports := x.reports ++ [r] }.earliest }

theorem State.captReport_first {e : Nat} (armed : (s.engine e).phase = .armed) (r : Report) :
    ((s.captReport e r).engine e).besideStream = ((s.engine e).trigger r s.now).besideStream ∧
      ∀ k, k ≠ e → (s.captReport e r).engine k = s.engine k := by
  have length : e < s.capt.engines.length := State.engine_lt Engine.phase armed (by decide)
  have live : (!(s.engine e).live) = false := by simp [Engine.live, armed]
  unfold State.captReport
  extract_lets x first d u
  have hu : (u.engine e).besideStream = ((s.engine e).trigger r s.now).besideStream ∧ ∀ k, k ≠ e → u.engine k = s.engine k := by
    unfold u
    rw [if_pos (show first from armed)]
    exact ⟨(congrArg Engine.besideStream (State.engine_onEngine_self length _)).trans rfl, fun k hk => State.engine_onEngine_ne hk _⟩
  rw [if_neg (by rw [live]; decide)]
  clear_value u
  have stream := u.captPut_streamOnly e
    { tag := r.tag, type := .trigger, source := r.cond, lo := BitVec.ofNat 32 ((u.now - (u.engine e).firstAt) / 10) }
  exact ⟨stream.self.trans hu.1, fun k hk => (stream.others k hk).trans (hu.2 k hk)⟩

/-- A triggered engine after one report more: past the window it changes no decision (R383). -/
def State.reported (s : State) (e : Nat) (r : Report) : State := if (s.engine e).window then s.onEngine e fun x => x.join r else s

theorem State.captReport_later_eq {e : Nat} (triggered : (s.engine e).phase = .triggered) (r : Report) :
    ∃ c, s.captReport e r = (s.reported e r).captPut e c := by
  have live : (!(s.engine e).live) = false := by simp [Engine.live, triggered]
  have late : ¬(s.engine e).phase = .armed := by rw [triggered]; decide
  unfold State.captReport
  extract_lets x first d u
  have hu : u = s.reported e r := if_neg late
  rw [if_neg (by rw [live]; decide), hu]
  exact ⟨_, rfl⟩

theorem State.reported_engine {e : Nat} (triggered : (s.engine e).phase = .triggered) (r : Report) :
    (s.reported e r).engine e = (if (s.engine e).window then (s.engine e).join r else s.engine e) ∧
      ∀ k, k ≠ e → (s.reported e r).engine k = s.engine k := by
  unfold State.reported
  split
  · exact ⟨State.engine_onEngine_self (State.engine_lt Engine.phase triggered (by decide)) _, fun k hk => State.engine_onEngine_ne hk _⟩
  · exact ⟨rfl, fun _ _ => rfl⟩

theorem State.captReport_later {e : Nat} (triggered : (s.engine e).phase = .triggered) (r : Report) :
    ((s.captReport e r).engine e).besideStream = (if (s.engine e).window then (s.engine e).join r else s.engine e).besideStream ∧
      ∀ k, k ≠ e → (s.captReport e r).engine k = s.engine k := by
  obtain ⟨c, eq⟩ := State.captReport_later_eq triggered r
  obtain ⟨self, others⟩ := State.reported_engine triggered r
  have stream := (s.reported e r).captPut_streamOnly e c
  rw [eq, ← self]
  exact ⟨stream.self, fun k hk => (stream.others k hk).trans (others k hk)⟩

theorem State.captReport_later_kept {e : Nat} (triggered : (s.engine e).phase = .triggered) (r : Report) :
    Kept (· ∈ [.capt]) s (s.captReport e r) := by
  obtain ⟨c, eq⟩ := State.captReport_later_eq triggered r
  have reported : Kept (· ∈ [.capt]) s (s.reported e r) := by
    unfold State.reported
    split
    · exact State.onEngine_kept e _ (.refl s)
    · exact .refl s
  rw [eq]
  exact State.captPut_kept e c reported

/-! ### A trigger by hand (R382) -/

/-- Within the window of capture `n`, opened at `now`, the conditions `l` have been reported, all with the event time `t` (R383). -/
structure Engine.Reported (n : Nat) (now : Ns) (t : Nat) (l : List Nat) (x : Engine) : Prop where
  phase : x.phase = .triggered
  window : x.window = true
  firstAt : x.firstAt = now
  num : x.num = n
  conds : x.reports.map (·.cond) = l
  times : ∀ r ∈ x.reports, r.time = t

theorem Engine.Reported.beside {n t : Nat} {now : Ns} {l : List Nat} {x y : Engine} (h : x.Reported n now t l) (k : y.besideStream = x.besideStream) :
    y.Reported n now t l where
  phase := (congrArg Engine.phase k :).trans h.phase
  window := (congrArg Engine.window k :).trans h.window
  firstAt := (congrArg Engine.firstAt k :).trans h.firstAt
  num := (congrArg Engine.num k :).trans h.num
  conds := (congrArg (fun x => x.reports.map (·.cond)) k :).trans h.conds
  times r hr := h.times r ((congrArg (r ∈ ·.reports) k : (r ∈ y.reports) = (r ∈ x.reports)) ▸ hr)

theorem Engine.Reported.trigger (x : Engine) (r : Report) (now : Ns) : (x.trigger r now).Reported ((x.num + 1) % 2 ^ 32) now r.time [r.cond] :=
  ⟨rfl, rfl, rfl, rfl, rfl, fun _ h => by rw [List.mem_singleton.mp h]⟩

theorem Engine.Reported.join {n : Nat} {now : Ns} {l : List Nat} {x : Engine} {r : Report} (h : x.Reported n now r.time l) :
    (x.join r).Reported n now r.time (l ++ [r.cond]) where
  phase := h.phase
  window := h.window
  firstAt := h.firstAt
  num := h.num
  conds := (List.map_append ..).trans (congrArg (· ++ [r.cond]) h.conds)
  times y hy := (List.mem_append.mp hy).elim (h.times y) fun k => by rw [List.mem_singleton.mp k]

theorem State.captReport_reported {e n : Nat} {now : Ns} {l : List Nat} {r : Report} (h : (s.engine e).Reported n now r.time l) :
    ((s.captReport e r).engine e).Reported n now r.time (l ++ [r.cond]) :=
  have beside := (State.captReport_later h.phase r).1
  h.join.beside (by rw [beside, if_pos h.window])

/-- Each condition reported after the first joins the window (R383). -/
theorem State.forEach_captReport_reported {e n t : Nat} {now : Ns} (cs : List Nat) : ∀ (l : List Nat) (s : State),
    (s.engine e).Reported n now t l →
    ((s.forEach cs fun s c => s.captReport e { cond := c, time := t, tag := s.tagOf (s.engine e) t }).engine e).Reported n now t (l ++ cs) := by
  induction cs with
  | nil => exact fun l s h => by rw [List.append_nil]; exact h
  | cons c cs ih => 
    intro l s h
    rw [List.append_cons]
    exact ih _ _ (State.captReport_reported (r := { cond := c, time := t, tag := s.tagOf (s.engine e) t }) h)

theorem State.captReport_others (s : State) (e : Nat) (r : Report) {k : Nat} (hk : k ≠ e) : (s.captReport e r).engine k = s.engine k := by
  by_cases armed : (s.engine e).phase = .armed
  · exact (State.captReport_first armed r).2 k hk
  by_cases triggered : (s.engine e).phase = .triggered
  · exact (State.captReport_later triggered r).2 k hk
  · rw [State.captReport, if_pos (by simp [Engine.live, armed, triggered])]

theorem State.captTriggerNow_triggers {e t : Nat} {p : CaptCond → Bool} (armed : (s.engine e).phase = .armed) (some : (s.engine e).condsOf p ≠ []) :
    ((s.captTriggerNow e t p).engine e).Reported (((s.engine e).num + 1) % 2 ^ 32) s.now t ((s.engine e).condsOf p) := by
  obtain ⟨c, cs, conds⟩ := List.exists_cons_of_ne_nil some
  unfold State.captTriggerNow
  rw [conds]
  let r : Report := { cond := c, time := t, tag := s.tagOf (s.engine e) t }
  exact State.forEach_captReport_reported cs [c] _ ((Engine.Reported.trigger (s.engine e) r s.now).beside (State.captReport_first armed r).1)

theorem State.captTriggerNow_others (s : State) (e t : Nat) (p : CaptCond → Bool) {k : Nat} (hk : k ≠ e) :
    (s.captTriggerNow e t p).engine k = s.engine k :=
  State.forEach_keeps (fun s => s.engine k) (fun s _ => s.captReport_others e _ hk) _ s

theorem Engine.condsOf_manual {x : Engine} (h : x.cfg.conds.contains .manual) : x.condsOf (fun c => c == .manual) ≠ [] := by
  obtain ⟨i, hi, manual⟩ := List.mem_iff_getElem.mp (List.contains_iff_mem.mp h)
  refine List.ne_nil_of_mem (a := i) (List.mem_map.mpr ⟨(.manual, i), List.mem_filter.mpr ⟨?_, rfl⟩, rfl⟩)
  exact List.mem_zipIdx_iff_getElem?.mpr (by rw [List.getElem?_eq_getElem hi, manual])

theorem exec_captManualTrigger_triggers (s : State) (b e : Nat) (it : Item) (h : s.ctlCmd b = some (.captTrigger e)) (hit : s.item b = some it)
    (ok : s.refuseTrigger e = none) : ∃ t, exec (.captManualTrigger b) s = .next t ∧ DoneOn b 0 t ∧ (t.engine e).phase = .triggered ∧
      (t.engine e).window = true ∧ (t.engine e).firstAt = s.now ∧ (t.engine e).num = ((s.engine e).num + 1) % 2 ^ 32 ∧
      (t.engine e).reports.map (·.cond) = (s.engine e).condsOf (fun c => c == .manual) ∧
      (∀ r ∈ (t.engine e).reports, r.time = s.ltc - (s.now - it.tAdmit)) ∧ (∀ k, k ≠ e → t.engine k = s.engine k) ∧
      OnlyTouches [.logic, .capt, .host] s t := by
  obtain ⟨armed, manual⟩ := Bool.and_eq_true_iff.mp (State.captRefuse_none ok).2
  obtain ⟨u, hu⟩ : ∃ u, (s.leaveCtl b).captTriggerNow e (s.ltc - (s.now - it.tAdmit)) (fun c => c == .manual) = u := ⟨_, rfl⟩
  have run : exec (.captManualTrigger b) s = .next (u.done b) := by
    show execCaptManualTrigger b s = _
    rw [execCaptManualTrigger, h, hit, ← hu]
    dsimp only
    rw [ok]
    rfl
  have kept : Kept (· ∈ [.logic, .capt, .host]) s (u.done b) := by
    rw [← hu]; exact State.done_kept b 0 (State.captTriggerNow_kept e _ _ (State.leaveCtl_kept b (.refl s)))
  have untouched : Kept (· ∉ [.host]) (s.leaveCtl b) u := by rw [← hu]; exact State.captTriggerNow_kept e _ _ (.refl _)
  have here : (u.engine e).Reported (((s.engine e).num + 1) % 2 ^ 32) s.now (s.ltc - (s.now - it.tAdmit))
      ((s.engine e).condsOf fun c => c == .manual) := by
    rw [← hu]; exact State.captTriggerNow_triggers (s := s.leaveCtl b) (of_decide_eq_true armed) (Engine.condsOf_manual manual)
  have others (k : Nat) (hk : k ≠ e) : u.engine k = s.engine k := by rw [← hu]; exact (s.leaveCtl b).captTriggerNow_others e _ _ hk
  exact ⟨_, run, State.doneOn_of_ctlCmd h (untouched.parts .host (by simp)), here.phase, here.window, here.firstAt, here.num, here.conds, here.times,
    others, kept.frame⟩

/-! ### A condition that is met (R382, R383) -/

theorem exec_captConditionMet {e c : Nat} {r : Report} (h : (s.engine e).met.find? (·.cond == c) = some r) :
    exec (.captConditionMet e c) s = .next ((s.onEngine e fun x => { x with met := x.met.erase r }).captReport e r) := by
  show execCaptConditionMet e c s = _
  rw [execCaptConditionMet, h]

theorem State.engine_met {e c : Nat} {r : Report} (h : (s.engine e).met.find? (·.cond == c) = some r) :
    (s.onEngine e fun x => { x with met := x.met.erase r }).engine e = { s.engine e with met := (s.engine e).met.erase r } :=
  State.engine_onEngine_self (State.engine_lt (fun x => x.met.find? (·.cond == c)) h (Option.some_ne_none r).symm) _

theorem exec_captConditionMet_triggers (s : State) (e c : Nat) (r : Report) (h : (s.engine e).met.find? (·.cond == c) = some r)
    (armed : (s.engine e).phase = .armed) :
    ∃ t, exec (.captConditionMet e c) s = .next t ∧ (t.engine e).phase = .triggered ∧ (t.engine e).window = true ∧ (t.engine e).firstAt = s.now ∧
      (t.engine e).reports = [r] ∧ (t.engine e).num = ((s.engine e).num + 1) % 2 ^ 32 ∧ (t.engine e).met = (s.engine e).met.erase r ∧
      (t.engine e).trigIdx = (s.engine e).idxOf r.time ∧ (∀ k, k ≠ e → t.engine k = s.engine k) ∧ OnlyTouches [.logic, .capt] s t := by
  have run := exec_captConditionMet h
  have frame : OnlyTouches [.logic, .capt] s _ := (execCaptConditionMet_kept e c (.refl s)).frame run
  obtain ⟨self, others⟩ := State.captReport_first (s := s.onEngine e fun x => { x with met := x.met.erase r }) (by rw [State.engine_met h]; exact armed) r
  rw [State.engine_met h] at self
  generalize (s.onEngine e fun x => { x with met := x.met.erase r }).captReport e r = t at run frame self others
  exact ⟨t, run, (congrArg Engine.phase self :), (congrArg Engine.window self :), (congrArg Engine.firstAt self :), (congrArg Engine.reports self :),
    (congrArg Engine.num self :), (congrArg Engine.met self :), (congrArg Engine.trigIdx self :),
    fun k hk => (others k hk).trans (State.engine_onEngine_ne hk _), frame⟩

theorem exec_captConditionMet_joins (s : State) (e c : Nat) (r : Report) (h : (s.engine e).met.find? (·.cond == c) = some r)
    (triggered : (s.engine e).phase = .triggered) :
    ∃ t, exec (.captConditionMet e c) s = .next t ∧ (t.engine e).phase = .triggered ∧ (t.engine e).window = (s.engine e).window ∧
      (t.engine e).firstAt = (s.engine e).firstAt ∧ (t.engine e).num = (s.engine e).num ∧ (t.engine e).met = (s.engine e).met.erase r ∧
      (t.engine e).reports = (if (s.engine e).window then (s.engine e).reports ++ [r] else (s.engine e).reports) ∧
      ((s.engine e).window = false → (t.engine e).trigIdx = (s.engine e).trigIdx) ∧
      (∀ k, k ≠ e → t.engine k = s.engine k) ∧ OnlyTouches [.capt] s t := by
  have run := exec_captConditionMet h
  have still : ((s.onEngine e fun x => { x with met := x.met.erase r }).engine e).phase = .triggered := by rw [State.engine_met h]; exact triggered
  obtain ⟨self, others⟩ := State.captReport_later still r
  have kept : Kept (· ∈ [.capt]) s (s.onEngine e fun x => { x with met := x.met.erase r }) := State.onEngine_kept e _ (.refl s)
  have frame := (kept.trans (State.captReport_later_kept still r)).frame
  rw [State.engine_met h] at self
  generalize (s.onEngine e fun x => { x with met := x.met.erase r }).captReport e r = t at run frame self others
  have rest (k : Nat) (hk : k ≠ e) : t.engine k = s.engine k := (others k hk).trans (State.engine_onEngine_ne hk _)
  refine ⟨t, run, ?_⟩
  cases window : (s.engine e).window
  · rw [if_neg (by rw [window]; decide)] at self
    exact ⟨(congrArg Engine.phase self :).trans triggered, (congrArg Engine.window self :).trans window, (congrArg Engine.firstAt self :),
      (congrArg Engine.num self :), (congrArg Engine.met self :), (congrArg Engine.reports self :), fun _ => (congrArg Engine.trigIdx self :), rest, frame⟩
  · rw [if_pos window] at self
    exact ⟨(congrArg Engine.phase self :).trans triggered, (congrArg Engine.window self :).trans window, (congrArg Engine.firstAt self :),
      (congrArg Engine.num self :), (congrArg Engine.met self :), (congrArg Engine.reports self :), fun k => Bool.noConfusion k, rest, frame⟩

/-! ### The end of the window (R383, R388) -/

theorem foldl_or_getLsbD (l : List Report) : ∀ (m : BitVec 64) (i : Nat), i < 64 →
    (l.foldl (fun (m : BitVec 64) r => m ||| BitVec.ofNat 64 (2 ^ r.cond)) m).getLsbD i = (m.getLsbD i || l.any fun r => r.cond == i) := by
  induction l with
  | nil => simp
  | cons r l ih =>
    intro m i hi
    rw [List.foldl_cons, ih _ i hi, BitVec.getLsbD_or, List.any_cons, Bool.or_assoc]
    congr 2
    rw [BitVec.getLsbD_ofNat, Nat.testBit_two_pow, decide_eq_true hi, Bool.true_and]
    rfl

/-- The reports that met the trigger row (R383). -/
def Engine.hits (x : Engine) : List Report := x.reports.filter fun r => x.idxOf r.time == x.trigIdx

def hitMask (l : List Report) : BitVec 64 := l.foldl (fun (m : BitVec 64) r => m ||| BitVec.ofNat 64 (2 ^ r.cond)) 0

def hitPrimary (l : List Report) : Nat := (l.map (·.cond)).foldl min ((l.head?.map (·.cond)).getD 0)

theorem hitMask_of_mem {l : List Report} {r : Report} (h : r ∈ l) (hr : r.cond < 64) : (hitMask l).getLsbD r.cond = true := by
  rw [hitMask, foldl_or_getLsbD l 0 _ hr, List.any_eq_true.mpr ⟨r, h, beq_self_eq_true r.cond⟩, Bool.or_true]

theorem foldl_min_le (l : List Nat) : ∀ a, l.foldl min a ≤ a ∧ ∀ x ∈ l, l.foldl min a ≤ x := by
  induction l with
  | nil => exact fun a => ⟨le_rfl, fun _ h => absurd h List.not_mem_nil⟩
  | cons y l ih =>
    intro a
    obtain ⟨start, least⟩ := ih (min a y)
    refine ⟨start.trans (min_le_left a y), fun x hx => ?_⟩
    obtain rfl | hx := List.mem_cons.mp hx
    · exact start.trans (min_le_right a x)
    · exact least x hx

theorem hitPrimary_le {l : List Report} {r : Report} (h : r ∈ l) : hitPrimary l ≤ r.cond :=
  (foldl_min_le _ _).2 _ (List.mem_map_of_mem h)

/-- The engine with its decision final, on the reports `hits`, and the baseline taken (R383, R388). -/
def Engine.decided (x : Engine) (hits : List Report) (s : State) : Engine :=
  { x with
    window := false, mask := hitMask hits, primary := hitPrimary hits
    baseDigital := (List.range x.cfg.digital.length).map fun i => nth x.lastDig i false
    baseAnalog := (List.range x.cfg.analog.length).map fun i => (nth x.lastAna i (0, 0)).1
    desc := { x.desc with
      valid := false, captNum := x.num, mask := hitMask hits, primary := hitPrimary hits, fast := x.cfg.rate == .fast
      device := s.sec.device, nch := x.cfg.chans.length, ndig := x.cfg.digital.length, nana := x.cfg.analog.length
      manifestVer := s.sec.liveRollback, baseTag := s.tagNow x } }

/-- The engine with its descriptor brought up to date and written (R389). -/
def Engine.describe (x : Engine) (s : State) : Engine := { x with desc := s.captSpan x, written := some (s.captSpan x) }

def State.decided (s : State) (e : Nat) : State := s.onEngine e fun x => x.decided (s.engine e).hits s

/-- The state after a decision (R383, R388, R389). -/
def State.described (s : State) (e : Nat) : State := (s.decided e).onEngine e fun x => x.describe (s.decided e)

theorem exec_captWindowEnd {e : Nat} (opened : (s.engine e).window) (triggered : (s.engine e).phase = .triggered)
    (late : s.passed (s.engine e).firstAt (msec 25)) :
    exec (.captWindowEnd e) s = .next (((s.described e).raise .capt 1).captRecord .captTrigger e) := by
  have due : ¬(!((s.engine e).window && (s.engine e).phase = .triggered && s.passed (s.engine e).firstAt (msec 25))) = true := by
    rw [opened, late, triggered]; decide
  exact congrArg _ ((if_neg due).trans rfl)

theorem exec_captWindowEnd_decides (s : State) (e : Nat) (opened : (s.engine e).window) (triggered : (s.engine e).phase = .triggered)
    (late : s.passed (s.engine e).firstAt (msec 25)) :
    ∃ t, exec (.captWindowEnd e) s = .next t ∧ (t.engine e).window = false ∧ (t.engine e).phase = .triggered ∧
      (∀ r ∈ (s.engine e).reports, r.cond < 64 → (s.engine e).idxOf r.time = (s.engine e).trigIdx →
        (t.engine e).mask.getLsbD r.cond = true ∧ (t.engine e).primary ≤ r.cond) ∧
      (t.engine e).desc.valid = false ∧ (t.engine e).desc.captNum = (s.engine e).num ∧ (t.engine e).desc.mask = (t.engine e).mask ∧
      (t.engine e).desc.device = s.sec.device ∧ (t.engine e).written = some (t.engine e).desc ∧ t.capt.event = s.capt.event.raise 1 ∧
      (∀ k, k ≠ e → t.engine k = s.engine k) ∧ OnlyTouches [.capt, .log] s t := by
  have run := exec_captWindowEnd opened triggered late
  have frame : OnlyTouches [.capt, .log] s _ := (execCaptWindowEnd_kept e (.refl s)).frame run
  have length : e < s.capt.engines.length := State.engine_lt Engine.window opened (by decide)
  have decided : (s.decided e).engine e = (s.engine e).decided (s.engine e).hits s := State.engine_onEngine_self length _
  have self : (s.described e).engine e = ((s.engine e).decided (s.engine e).hits s).describe (s.decided e) := by
    rw [← decided]; exact State.engine_onEngine_self (length.trans_eq (length_updAt ..).symm) _
  have others (k : Nat) (hk : k ≠ e) : (s.described e).engine k = s.engine k :=
    (State.engine_onEngine_ne hk _).trans (State.engine_onEngine_ne hk _)
  have event : (s.described e).capt.event = s.capt.event := rfl
  generalize s.described e = u at run frame self others event
  have here : (((u.raise .capt 1).captRecord .captTrigger e).engine e) = _ := self
  refine ⟨_, run, ?_, ?_, fun r hr small row => ?_, ?_, ?_, ?_, ?_, ?_, congrArg (W1C.raise · 1) event, others, frame⟩ <;> rw [here]
  · rfl
  · exact triggered
  · have hit : r ∈ (s.engine e).hits := List.mem_filter.mpr ⟨hr, beq_iff_eq.mpr row⟩
    exact ⟨hitMask_of_mem hit small, hitPrimary_le hit⟩
  all_goals rfl

/-! ### The end of the capture (R384, R389, R390) -/

theorem State.captCloseRing_streamOnly (s : State) (e : Nat) : StreamOnly e s (s.captCloseRing e) := by
  unfold State.captCloseRing
  split
  · exact (StreamOnly.of_onEngine rfl fun _ => rfl).raise 5
  · exact .refl e s

/-- The engine at the end of its capture, with a valid descriptor (R384, R389). -/
def Engine.finish (x : Engine) (s : State) : Engine :=
  { x with phase := .done, desc := { s.captSpan x with valid := true }, written := some { s.captSpan x with valid := true } }

def State.captFinished (s : State) (e : Nat) : State := (s.captCloseRing e).onEngine e fun x => x.finish (s.captCloseRing e)

theorem exec_captDone {e : Nat} (triggered : (s.engine e).phase = .triggered) (closed : (s.engine e).window = false)
    (full : (s.engine e).post ≤ (s.engine e).fill) :
    exec (.captDone e) s = .next (((s.captFinished e).raise .capt 2).captRecord .captDone e) := by
  have due : ¬(!((s.engine e).phase = .triggered && !(s.engine e).window && decide ((s.engine e).post ≤ (s.engine e).fill))) = true := by
    rw [triggered, closed, decide_eq_true full]; decide
  exact congrArg _ ((if_neg due).trans rfl)

theorem exec_captDone_ends (s : State) (e : Nat) (triggered : (s.engine e).phase = .triggered) (closed : (s.engine e).window = false)
    (full : (s.engine e).post ≤ (s.engine e).fill) :
    ∃ t, exec (.captDone e) s = .next t ∧ (t.engine e).phase = .done ∧ (t.engine e).desc.valid = true ∧ (t.engine e).written = some (t.engine e).desc ∧
      (t.engine e).rows = (s.engine e).rows ∧
      (t.engine e).num = (s.engine e).num ∧ t.capt.event.bits.getLsbD 2 = true ∧
      (∀ k, k ≠ e → t.engine k = s.engine k) ∧ OnlyTouches [.capt, .log] s t := by
  have run := exec_captDone triggered closed full
  have frame : OnlyTouches [.capt, .log] s _ := (execCaptDone_kept e (.refl s)).frame run
  have stream := s.captCloseRing_streamOnly e
  have length : e < (s.captCloseRing e).capt.engines.length := stream.length ▸ State.engine_lt Engine.phase triggered (by decide)
  have self : (s.captFinished e).engine e = ((s.captCloseRing e).engine e).finish (s.captCloseRing e) := State.engine_onEngine_self length _
  have others (k : Nat) (hk : k ≠ e) : (s.captFinished e).engine k = s.engine k := (State.engine_onEngine_ne hk _).trans (stream.others k hk)
  have rows : ((s.captCloseRing e).engine e).rows = (s.engine e).rows := (congrArg Engine.rows stream.self :)
  have num : ((s.captCloseRing e).engine e).num = (s.engine e).num := (congrArg Engine.num stream.self :)
  generalize s.captFinished e = u at run frame self others
  have here : (((u.raise .capt 2).captRecord .captDone e).engine e) = _ := self
  refine ⟨_, run, ?_, ?_, ?_, ?_, ?_, W1C.raise_bits _ _ (by decide), others, frame⟩ <;> rw [here]
  · rfl
  · rfl
  · rfl
  · exact rows
  · exact num

/-- Settles O32, clause by clause. -/
theorem triggersOpenOneWindow : Obligations.TriggersOpenOneWindow :=
  ⟨exec_captManualTrigger_triggers, exec_captConditionMet_triggers, exec_captConditionMet_joins, exec_captWindowEnd_decides, exec_captDone_ends⟩

/-! ### BAR2 (R391, R480, R596) -/

theorem exec_bar2Read {o : Nat} (inside : o < 2 ^ 33) (b : Bool) : exec (.bar2Read o b) s = .next
    (if s.clk.dramRetraining || s.clk.isStopped 5 then (s.hostErr 1 1 false 0 (o / 4 * 4)).answer .abort
    else if b && (s.captAt (o / 4 * 4)).isSome then
      ((s.captEcc (o / 4 * 4)).onHost fun h => { h with bar2Poisoned := satInc 16 h.bar2Poisoned }).answer .poisoned
    else s.answer (.data (BitVec.ofNat 32 (ofLe (s.captBytes (o / 4 * 4) 4))))) := if_neg (not_le.mpr inside)

theorem exec_bar2Read_reads (s : State) (o : Nat) (inside : o < 2 ^ 33) (stores : s.clk.dramRetraining = false) (runs : s.clk.isStopped 5 = false) :
    ∃ t, exec (.bar2Read o false) s = .next t ∧
      t.host.accesses = .data (BitVec.ofNat 32 (ofLe ((List.range 4).map fun i => s.captByte (o / 4 * 4 + i)))) :: s.host.accesses ∧
      OnlyTouches [.host] s t := by
  have run := exec_bar2Read (s := s) inside false
  rw [stores, runs, Bool.or_self, if_neg (by decide), Bool.false_and, if_neg (by decide)] at run
  exact ⟨_, run, rfl, (State.answer_kept _ (.refl s)).frame⟩

theorem State.hostErr_host (s : State) (c b n a : Nat) (w : Bool) : ∃ p, (s.hostErr c b w n a).host = { s.host with
    err := c, errBar := b, errWrite := w, errNode := n, errAddr := BitVec.ofNat 64 a, errCount := satInc 16 s.host.errCount
    event := s.host.event.raise 6, pba := p } := by
  simp only [State.hostErr, State.raise_at_host, State.onHost_host]
  exact ⟨_, rfl⟩

theorem exec_bar2Read_aborts (s : State) (o : Nat) (b : Bool) (inside : o < 2 ^ 33) (retrains : s.clk.dramRetraining) :
    ∃ t, exec (.bar2Read o b) s = .next t ∧ t.host.accesses = .abort :: s.host.accesses ∧ t.host.err = 1 ∧ t.host.errBar = 1 ∧
      t.host.errWrite = false ∧ t.host.errCount = satInc 16 s.host.errCount ∧ t.host.event.bits.getLsbD 6 = true ∧ OnlyTouches [.host] s t := by
  have run := exec_bar2Read (s := s) inside b
  rw [retrains, Bool.true_or, if_pos rfl] at run
  have kept : Kept (· ∈ [.host]) s ((s.hostErr 1 1 false 0 (o / 4 * 4)).answer .abort) := State.answer_kept _ (State.hostErr_kept _ _ _ _ _ (.refl s))
  obtain ⟨p, host⟩ := s.hostErr_host 1 1 0 (o / 4 * 4) false
  refine ⟨_, run, ?_, ?_, ?_, ?_, ?_, ?_, kept.frame⟩ <;> rw [State.answer, State.onHost_host, host]
  exact W1C.raise_bits _ _ (by decide)

theorem State.captAt_lt {n e : Nat} (h : s.captAt n = some e) : e < s.capt.engines.length := by
  unfold State.captAt at h
  have found := List.find?_some h
  exact State.engine_lt Engine.created (Bool.and_eq_true_iff.mp found).1 (by decide)

/-- A change that leaves an engine's place leaves the map of the partition (R374). -/
theorem State.captAt_onEngine (s : State) (e n : Nat) {f : Engine → Engine} (created : ∀ x, (f x).created = x.created)
    (base : ∀ x, (f x).base = x.base) (cfg : ∀ x, (f x).cfg = x.cfg) : (s.onEngine e f).captAt n = s.captAt n := by
  have same (k : Nat) : ((s.onEngine e f).engine k).created = (s.engine k).created ∧ ((s.onEngine e f).engine k).base = (s.engine k).base ∧
      ((s.onEngine e f).engine k).cfg = (s.engine k).cfg := by
    by_cases hk : k = e
    · by_cases length : e < s.capt.engines.length
      · rw [hk, State.engine_onEngine_self length]
        exact ⟨created _, base _, cfg _⟩
      · have out : (s.onEngine e f).engine k = s.engine k := nth_updAt_out _ _ _ _ _ (not_lt.mp length)
        rw [out]
        exact ⟨rfl, rfl, rfl⟩
    · rw [State.engine_onEngine_ne hk]
      exact ⟨rfl, rfl, rfl⟩
  unfold State.captAt
  congr 1
  funext k
  obtain ⟨hc, hb, hg⟩ := same k
  dsimp only
  rw [hc, hb, hg]

/-- The mark of an uncorrectable error in an engine's descriptor (R391). -/
def Engine.markEcc (x : Engine) : Engine :=
  { x with desc := { x.desc with eccErr := true }, written := x.written.map fun (d : Descriptor) => { d with eccErr := true } }

theorem State.captEcc_eq {n e : Nat} (h : s.captAt n = some e) :
    s.captEcc n = ((s.onEngine e Engine.markEcc).raise .capt 8).report .captEcc e [n] := by
  have place : (s.onEngine e Engine.markEcc).captAt n = some e :=
    (s.captAt_onEngine e n (f := Engine.markEcc) (fun _ => rfl) (fun _ => rfl) (fun _ => rfl)).trans h
  unfold State.captEcc
  rw [h]
  exact congrArg (fun x => ((s.onEngine e Engine.markEcc).raise .capt 8).report .captEcc (x.getD 0xFFFF) [n]) place

theorem exec_bar2Read_poisons (s : State) (o e : Nat) (inside : o < 2 ^ 33) (stores : s.clk.dramRetraining = false) (runs : s.clk.isStopped 5 = false)
    (place : s.captAt (o / 4 * 4) = some e) :
    ∃ t, exec (.bar2Read o true) s = .next t ∧ t.host.accesses = .poisoned :: s.host.accesses ∧
      t.host.bar2Poisoned = satInc 16 s.host.bar2Poisoned ∧ (t.engine e).desc.eccErr = true ∧ t.capt.event = s.capt.event.raise 8 ∧
      t.log = (s.report .captEcc e [o / 4 * 4]).log ∧ OnlyTouches [.capt, .log, .host] s t := by
  have run := exec_bar2Read (s := s) inside true
  rw [stores, runs, place, Bool.or_self, if_neg (by decide), Bool.true_and, Option.isSome_some, if_pos rfl] at run
  have frame : OnlyTouches [.capt, .log, .host] s _ := (execBar2Read_kept o true (.refl s)).frame run
  rw [State.captEcc_eq place] at run frame
  have marked : ((s.onEngine e Engine.markEcc).engine e).desc.eccErr = true := by rw [State.engine_onEngine_self (State.captAt_lt place)]; rfl
  have cast : (o : Int) / 4 * 4 = (o / 4 * 4 : Nat) := by omega
  rw [cast]
  have host : (s.onEngine e Engine.markEcc).host = s.host := rfl
  have event : (s.onEngine e Engine.markEcc).capt.event = s.capt.event := rfl
  have log : (s.onEngine e Engine.markEcc).log = s.log := rfl
  have ltc : (s.onEngine e Engine.markEcc).ltc = s.ltc := rfl
  generalize s.onEngine e Engine.markEcc = u at run frame marked host event log ltc
  refine ⟨_, run, (congrArg (fun h : HostState => AccessEnd.poisoned :: h.accesses) host :),
    (congrArg (fun h : HostState => satInc 16 h.bar2Poisoned) host :), marked, (congrArg (W1C.raise · 8) event :), ?_, frame⟩
  simp [State.report_log, log, ltc]

/-- Settles O33, clause by clause. -/
theorem bar2ReadsAndDropsWrites : Obligations.Bar2ReadsAndDropsWrites := by
  refine ⟨exec_bar2Read_reads, exec_bar2Read_aborts, exec_bar2Read_poisons, fun s o inside => ?_, fun s o b outside => ⟨?_, ?_⟩⟩
  · have run : exec (.bar2Write o) s = .next ((s.onHost fun h => { h with bar2Drop := satInc 16 h.bar2Drop }).answer .written) := if_pos inside
    exact ⟨_, run, rfl, (execBar2Write_kept o (.refl s)).frame run⟩
  · exact if_pos outside
  · exact if_neg (not_lt.mpr outside)

end Sys2Proof.Machine
end

section
/-! SUPPORT. The switch: ports, frames, gates and pairs (spec/13_network_and_time.md R428 to R439). -/

namespace Sys2Proof.Machine

set_option Elab.async false

open Sys2Proof

variable {s : State}

/-! ### Lists by key -/

/-- Changing the items that one test finds leaves what another finds, when no item meets both. -/
theorem find?_map_if_of_disjoint {α : Type} (l : List α) {p q : α → Bool} {f : α → α} (hf : ∀ x, q (f x) = q x) (h : ∀ x, p x → q x = false) :
    (l.map fun x => if p x then f x else x).find? q = l.find? q := by
  induction l with
  | nil => rfl
  | cons x l ih =>
    rw [List.map_cons, List.find?_cons, List.find?_cons]
    by_cases k : p x
    · rw [if_pos k, hf, h x k]; exact ih
    · rw [if_neg k, ih]

theorem beq_false_of_beq {a j k : Nat} (h : j ≠ k) (e : (a == k) = true) : (a == j) = false :=
  beq_false_of_ne fun n => h (n.symm.trans (beq_iff_eq.mp e))

/-! ### Ports (R428) -/

theorem State.port?_onPort_self {p : Nat} {x : Port} (h : s.port? p = some x) {f : Port → Port} (hf : ∀ y, (f y).port = y.port := by exact fun _ => rfl) :
    (s.onPort p f).port? p = some (f x) :=
  (find?_map_if _ _ _ fun y => by rw [hf]).trans (congrArg (Option.map f) h)

theorem State.port?_onPort_ne {p q : Nat} (h : q ≠ p) {f : Port → Port} (hf : ∀ y, (f y).port = y.port := by exact fun _ => rfl) :
    (s.onPort p f).port? q = s.port? q :=
  find?_map_if_of_disjoint _ (fun y => by rw [hf]) fun _ => beq_false_of_beq h

theorem State.port?_map_onPort (s : State) (p : Nat) {f : Port → Port} (hf : ∀ y, (f y).port = y.port := by exact fun _ => rfl) :
    (s.onPort p f).port? p = (s.port? p).map f :=
  find?_map_if _ _ _ fun y => by rw [hf]

theorem State.port?_congr {t : State} (h : t.net.ports = s.net.ports) (p : Nat) : t.port? p = s.port? p := by rw [State.port?, State.port?, h]

/-- A frame that joins a queue, or is dropped, changes only its port (R433). -/
theorem State.enqueue_eq (s : State) (p : Nat) (f : Frame) : ∃ g : Port → Port, (∀ y, (g y).port = y.port) ∧
    (s.enqueue p f = s ∨ s.enqueue p f = s.onPort p g) := by
  unfold State.enqueue
  split
  · exact ⟨id, fun _ => rfl, .inl rfl⟩
  split
  · exact ⟨id, fun _ => rfl, .inl rfl⟩
  split
  · refine ⟨_, ?_, .inr rfl⟩
    exact fun _ => rfl
  · refine ⟨_, ?_, .inr rfl⟩
    exact fun _ => rfl

theorem State.enqueue_net (s : State) (p : Nat) (f : Frame) : ∃ l, (s.enqueue p f).net = { s.net with ports := l } := by
  obtain ⟨g, -, same | changed⟩ := s.enqueue_eq p f
  · exact ⟨s.net.ports, by rw [same]⟩
  · exact ⟨_, by rw [changed]; rfl⟩

theorem State.port?_enqueue_ne {p q : Nat} (h : q ≠ p) (s : State) (f : Frame) : (s.enqueue p f).port? q = s.port? q := by
  obtain ⟨g, hg, same | changed⟩ := s.enqueue_eq p f
  · rw [same]
  · rw [changed, State.port?_onPort_ne h hg]

theorem State.enqueue_takes {p : Nat} {f : Frame} {x : Port} (h : s.port? p = some x) (link : x.link) (up : x.adminDown = false)
    (room : x.hasRoom f.pcp f.len) :
    s.enqueue p f = s.onPort p fun x => { x with queues := updAt x.queues f.pcp fun l => l ++ [{ frame := f, at_ := s.now }] } := by
  rw [State.enqueue, h]
  dsimp only
  rw [link, up, room]
  rfl

/-! ### Pairs that close (R439) -/

theorem State.closePairs_ports (s : State) : s.closePairs.net.ports = s.net.ports := by
  refine State.forEach_keeps (fun s => s.net.ports) (fun s x => ?_) _ s
  split
  · rfl
  · split <;> rfl

theorem State.closePairs_event {i : Nat} (h : s.net.event.bits.getLsbD i = true) : s.closePairs.net.event.bits.getLsbD i = true := by
  refine State.forEach_invariant (p := fun s => s.net.event.bits.getLsbD i = true) (fun s x hs => ?_) _ s h
  split
  · exact hs
  · split
    · exact W1C.bits_raise_of_set _ 2 hs
    · exact hs

theorem State.elect_net (s : State) : s.elect.net = s.net :=
  (State.elect_kept (M := (· ∈ [.log, .ptp])) (.refl s)).parts .net (by simp)

/-! ### Links and administration (R428, R429) -/

/-- The port with its link `up` at `m` Mb/s, its queues discarded and counted as it goes down (R428). -/
def Port.linked (x : Port) (up : Bool) (m flushed : Nat) : Port :=
  { x with
    link := up, linkChanges := satInc 8 x.linkChanges
    speed := if up then speedCode m else x.speed
    queues := if up then x.queues else List.replicate 8 []
    drops := if up then x.drops else satAdd 16 x.drops flushed }

theorem State.portLink_changes {p : Nat} {x : Port} (h : s.port? p = some x) {up : Bool} (change : x.link ≠ up) (m : Nat) :
    (s.portLink p up m).port? p = some (x.linked up m (x.queues.map List.length).sum) ∧ (∀ q, q ≠ p → (s.portLink p up m).port? q = s.port? q) ∧
      (s.portLink p up m).net.event.bits.getLsbD 0 = true := by
  have eq : s.portLink p up m = ((((s.onPort p fun y => y.linked up m (x.queues.map List.length).sum).raise .net 0).report .netLink p [b2n up]).closePairs).elect := by
    rw [State.portLink, h]
    exact if_neg change
  have self := State.port?_onPort_self h (f := fun y => y.linked up m (x.queues.map List.length).sum)
  have other (q : Nat) (hq : q ≠ p) := State.port?_onPort_ne (s := s) hq (f := fun y => y.linked up m (x.queues.map List.length).sum)
  rw [eq]
  generalize (s.onPort p fun y => y.linked up m (x.queues.map List.length).sum) = u at self other
  have ports : (((u.raise .net 0).report .netLink p [b2n up]).closePairs).elect.net.ports = u.net.ports := by
    rw [State.elect_net, State.closePairs_ports]; rfl
  refine ⟨(State.port?_congr ports p).trans self, fun q hq => (State.port?_congr ports q).trans (other q hq), ?_⟩
  rw [State.elect_net]
  exact State.closePairs_event (W1C.raise_bits _ _ (by decide))

theorem exec_netLink_down (s : State) (p m : Nat) (x : Port) (h : s.port? p = some x) (link : x.link) :
    ∃ t, exec (.netLink p false m) s = .next t ∧ t.port? p = some { x with
      link := false, linkChanges := satInc 8 x.linkChanges, queues := List.replicate 8 []
      drops := satAdd 16 x.drops (x.queues.map List.length).sum } ∧
    (∀ q, q ≠ p → t.port? q = s.port? q) ∧ t.net.event.bits.getLsbD 0 = true ∧ OnlyTouches [.log, .net, .ptp] s t := by
  have run : exec (.netLink p false m) s = .next (s.portLink p false m) := rfl
  obtain ⟨self, others, event⟩ := State.portLink_changes h (up := false) (by rw [link]; decide) m
  exact ⟨_, run, self, others, event, (execNetLink_kept p false m (.refl s)).frame run⟩

theorem exec_netLink_up (s : State) (p m : Nat) (x : Port) (h : s.port? p = some x) (down : x.link = false) (usable : s.laneUsable p) :
    ∃ t, exec (.netLink p true m) s = .next t ∧ t.port? p = some { x with link := true, linkChanges := satInc 8 x.linkChanges, speed := speedCode m } ∧
    (∀ q, q ≠ p → t.port? q = s.port? q) ∧ t.net.event.bits.getLsbD 0 = true ∧ OnlyTouches [.log, .net, .ptp] s t := by
  have run : exec (.netLink p true m) s = .next (s.portLink p true m) := by
    show execNetLink p true m s = _
    rw [execNetLink, usable]
    rfl
  obtain ⟨self, others, event⟩ := State.portLink_changes h (up := true) (by rw [down]; decide) m
  exact ⟨_, run, self, others, event, (execNetLink_kept p true m (.refl s)).frame run⟩

theorem exec_netLink_unusable (s : State) (p m : Nat) (h : s.laneUsable p = false) : exec (.netLink p true m) s = .next s := by
  show execNetLink p true m s = _
  rw [execNetLink, h]
  rfl

theorem exec_netPortAdmin {b p : Nat} {up : Bool} (h : s.ctlCmd b = some (.netPortAdmin p up)) : exec (.netPortAdmin b) s =
    .next (s.runCtl b (s.refusePort p) fun s =>
      (((s.onPort p fun x => { x with adminDown := !up }).report .netPortAdmin p [b2n up]).closePairs).done b) := by
  show execNetPortAdmin b s = _
  rw [execNetPortAdmin, h]

theorem exec_netPortAdmin_sets (s : State) (b p : Nat) (up : Bool) (h : s.ctlCmd b = some (.netPortAdmin p up)) (ok : s.refusePort p = none) :
    ∃ t, exec (.netPortAdmin b) s = .next t ∧ DoneOn b 0 t ∧ t.port? p = (s.port? p).map (fun x => { x with adminDown := !up }) ∧
      (∀ q, q ≠ p → t.port? q = s.port? q) ∧ OnlyTouches [.log, .net, .host] s t := by
  have run := exec_netPortAdmin h
  rw [ok, State.runCtl] at run
  have frame : OnlyTouches [.log, .net, .host] s _ := (execNetPortAdmin_kept b (.refl s)).frame run
  have self : ((s.leaveCtl b).onPort p fun x => { x with adminDown := !up }).port? p = _ := State.port?_map_onPort _ p
  have other (q : Nat) (hq : q ≠ p) : ((s.leaveCtl b).onPort p fun x => { x with adminDown := !up }).port? q = s.port? q := State.port?_onPort_ne hq
  have host : ((s.leaveCtl b).onPort p fun x => { x with adminDown := !up }).host = (s.leaveCtl b).host := rfl
  generalize ((s.leaveCtl b).onPort p fun x => { x with adminDown := !up }) = u at run frame self other host
  have kept : Kept (· ∈ [.log, .net]) (u.report .netPortAdmin p [b2n up]) (u.report .netPortAdmin p [b2n up]).closePairs := State.closePairs_kept (.refl _)
  have ports : (((u.report .netPortAdmin p [b2n up]).closePairs).done b).net.ports = u.net.ports := State.closePairs_ports _
  exact ⟨_, run, State.doneOn_of_ctlCmd h ((kept.parts .host (by simp)).trans host), (State.port?_congr ports p).trans self,
    fun q hq => (State.port?_congr ports q).trans (other q hq), frame⟩

theorem State.refusePort_status {p : Nat} {r : Refuse} (h : s.refusePort p = some r) : r.st0 = s.netPStatus p := by
  unfold State.refusePort at h
  extract_lets gate zone at h
  split at h <;> cases h
  rfl

theorem exec_netPortAdmin_refused (s : State) (b p : Nat) (up : Bool) (r : Refuse) (h : s.ctlCmd b = some (.netPortAdmin p up))
    (refused : s.refusePort p = some r) : ∃ t, exec (.netPortAdmin b) s = .next t ∧ RefusedOn b (s.netPStatus p) t ∧ t.net = s.net ∧
      OnlyTouches [.log, .host] s t := by
  have run := exec_netPortAdmin h
  rw [refused] at run
  obtain ⟨ending, -, frame⟩ := State.runCtl_refuses h r fun s =>
    (((s.onPort p fun x => { x with adminDown := !up }).report .netPortAdmin p [b2n up]).closePairs).done b
  rw [State.refusePort_status refused] at ending
  exact ⟨_, run, ending, frame.parts .net (by simp), frame⟩

end Sys2Proof.Machine
end

section
/-! SUPPORT. Frames that arrive on a port, gate lists, learnt addresses, and the pairs' supervision (spec/13_network_and_time.md R430 to R439). -/

namespace Sys2Proof.Machine

set_option Elab.async false

open Sys2Proof

variable {s : State}

/-! ### A frame that is counted (R430) -/

/-- The port counts a frame that it takes (R428). -/
def State.countRx (s : State) (p : Nat) : State := s.onPort p fun q => { q with rxFrames := q.rxFrames + 1 }

theorem State.countRx_port? (s : State) (p q : Nat) : (s.countRx p).port? q =
    (s.port? q).map fun y => { y with rxFrames := if y.port == p then y.rxFrames + 1 else y.rxFrames } := by
  have same : (fun x : Port => if x.port == p then { x with rxFrames := x.rxFrames + 1 } else x) =
      fun y => { y with rxFrames := if y.port == p then y.rxFrames + 1 else y.rxFrames } := by
    funext y
    split <;> rfl
  simp only [State.countRx, State.onPort, State.port?, State.onNet_net, same, List.find?_map, Function.comp_def]

theorem State.countRx_cutThrough (s : State) (r p q : Nat) (f : Frame) : (s.countRx r).cutThrough p q f = s.cutThrough p q f := by
  unfold State.cutThrough
  rw [State.countRx_port?, State.countRx_port?]
  have cfg : (s.countRx r).netCfg = s.netCfg := rfl
  rw [cfg]
  cases s.port? p <;> cases s.port? q <;> cases s.netCfg.port? q <;> rfl

theorem State.countRx_cutTargets (s : State) (r p : Nat) (f : Frame) : (s.countRx r).cutTargets p f = s.cutTargets p f := by
  have cut : (fun q => decide (q ≠ 44) && (s.countRx r).cutThrough p q f) = fun q => decide (q ≠ 44) && s.cutThrough p q f := by
    funext q
    rw [State.countRx_cutThrough]
  unfold State.cutTargets
  rw [cut]
  rfl

theorem exec_netFrameRx {p : Nat} {f : Frame} (takes : s.takesFrames p) (long : 64 ≤ f.len) (short : f.len ≤ 2048) (ok : Bool) :
    exec (.netFrameRx { port := p, frame := f, fcsOk := ok }) s =
      .next (if !ok then (s.countRx p).badFcs p f else (s.countRx p).frameRx p f) := by
  have runs : ¬(!s.takesFrames p) = true := by rw [takes]; decide
  exact congrArg _ ((if_neg runs).trans (if_neg fun h => h.elim (not_lt.mpr long) (not_lt.mpr short)))

theorem State.forEach_enqueue_port? (f : Frame) {p : Nat} : ∀ (l : List Nat) (s : State), p ∉ l →
    (s.forEach l fun s q => s.enqueue q f).port? p = s.port? p
  | [], _, _ => rfl
  | _ :: l, s, h =>
    (State.forEach_enqueue_port? f l _ (List.not_mem_of_not_mem_cons h)).trans (State.port?_enqueue_ne (List.ne_of_not_mem_cons h) s f)

theorem State.enqueue_chk (s : State) (p : Nat) (f : Frame) : (s.enqueue p f).chk = s.chk :=
  (State.enqueue_kept (M := (· ∈ [.net])) p f (.refl s)).parts .chk (by simp)

theorem exec_netFrameRx_damaged (s : State) (p : Nat) (f : Frame) (x : Port) (takes : s.takesFrames p) (h : s.port? p = some x) (long : 64 ≤ f.len)
    (short : f.len ≤ 2048) (stays : p ∉ s.cutTargets p f) : ∃ t, exec (.netFrameRx { port := p, frame := f, fcsOk := false }) s = .next t ∧
      t.port? p = some { x with rxFrames := x.rxFrames + 1, fcsErr := satInc 32 x.fcsErr } ∧
      (∀ q, q ≠ p → q ∉ s.cutTargets p f → t.port? q = s.port? q) ∧
      t.chk = { s.chk with pathFail := updAt s.chk.pathFail 4 (satInc 32) } ∧ OnlyTouches [.net, .chk] s t := by
  have run := exec_netFrameRx takes long short false
  rw [if_pos (by decide), State.badFcs, State.countRx_cutTargets] at run
  let counted : State := ((s.countRx p).onPort p fun q => { q with fcsErr := satInc 32 q.fcsErr }).pathFail 4
  have self : counted.port? p = some { x with rxFrames := x.rxFrames + 1, fcsErr := satInc 32 x.fcsErr } :=
    State.port?_onPort_self (State.port?_onPort_self h)
  have other (q : Nat) (hq : q ≠ p) : counted.port? q = s.port? q := (State.port?_onPort_ne (s := s.countRx p) hq).trans (State.port?_onPort_ne hq)
  have start : Kept (· ∈ [.net, .chk]) s counted := State.pathFail_kept 4 (State.onPort_kept p _ (State.onPort_kept p _ (.refl s)))
  have kept : Kept (· ∈ [.net, .chk]) s (counted.forEach (s.cutTargets p f) fun s q => s.enqueue q { f with fcsBad := true }) :=
    State.forEach_kept (fun q _ => State.enqueue_kept q _) _ start
  refine ⟨_, run, (State.forEach_enqueue_port? _ _ _ stays).trans self, fun q hq out => (State.forEach_enqueue_port? _ _ _ out).trans (other q hq), ?_,
    kept.frame⟩
  exact (State.forEach_keeps State.chk (fun s q => s.enqueue_chk q _) _ _).trans rfl

/-! ### A frame that is forwarded (R431, R432, R434) -/

theorem State.frameRx_plain {p : Nat} {f : Frame} {c : PortCfg} (h : s.netCfg.port? p = some c) (plain : f.kind = .plain) (untagged : f.vid = none)
    (free : f.dst.toNat / 16 ≠ 0x0180C200000) (unfiltered : c.ingressFilter = false) :
    s.frameRx p f = s.fabricRx p c.pvid { f with pcp := c.defaultPcp } := by
  unfold State.frameRx
  rw [h]
  dsimp only
  rw [plain]
  dsimp only
  rw [if_neg free, untagged, unfiltered]
  rfl

theorem State.fabricRx_plain {p v : Nat} {f : Frame} (plain : f.kind = .plain) (alone : s.netCfg.pairOf? p = none) (foreign : f.dst ≠ Config.ownMac) :
    s.fabricRx p v f = s.forward p v f := by
  have counted : s.countUnsubscribed f = s := by
    unfold State.countUnsubscribed
    rw [plain]
    rfl
  have sum : ¬f.kind = .sum := by rw [plain]; nofun
  rw [State.fabricRx, if_neg sum, alone]
  dsimp only
  rw [State.deliver, counted, if_neg foreign]

theorem State.learn_manifest (s : State) (mac : BitVec 48) (v p : Nat) : (s.learn mac v p).manifest = s.manifest :=
  (State.learn_kept (M := (· ∈ [.net])) mac v p (.refl s)).parts .manifest (by simp)

/-- Learning one source leaves the entries of every other address, and every port (R432). -/
theorem State.learn_leaves (s : State) {src dst : BitVec 48} (h : src ≠ dst) (v w p : Nat) :
    (s.learn src v p).net.macs.find? (fun m => m.mac == dst && m.vid == w) = s.net.macs.find? (fun m => m.mac == dst && m.vid == w) ∧
      (s.learn src v p).net.ports = s.net.ports := by
  unfold State.learn
  extract_lets at_ bucket used
  split
  · exact ⟨rfl, rfl⟩
  split
  · refine ⟨find?_map_if_of_disjoint _ (fun m => rfl) fun m hm => ?_, rfl⟩
    rw [beq_iff_eq.mp (Bool.and_eq_true_iff.mp hm).1, beq_false_of_ne h, Bool.false_and]
  split
  · refine ⟨?_, rfl⟩
    simp only [State.onNet_net, List.find?_cons, beq_false_of_ne h, Bool.false_and]
  · exact ⟨rfl, rfl⟩

theorem State.learn_lookup (s : State) {src dst : BitVec 48} (h : src ≠ dst) (v w p : Nat) : (s.learn src v p).lookup dst w = s.lookup dst w := by
  unfold State.lookup State.netCfg
  rw [State.learn_manifest, (s.learn_leaves h v w p).1]

theorem State.learn_port? (s : State) {src dst : BitVec 48} (h : src ≠ dst) (v p q : Nat) : (s.learn src v p).port? q = s.port? q :=
  State.port?_congr (s.learn_leaves h v 0 p).2 q

/-- Between two ports that belong to no pair, a destination that is learnt leads to the one queue (R432). -/
theorem State.forward_learnt {p q v : Nat} {f : Frame} (alone : s.netCfg.pairOf? p = none) (alone' : s.netCfg.pairOf? q = none)
    (place : s.lookup f.dst v = ([q], false)) (member : (s.netCfg.members v).contains q) (hq : q ≠ p) (src : f.src ≠ f.dst) :
    s.forward p v f = (s.learn f.src v p).enqueue q (s.egressForm q v f) := by
  have cfg : (s.learn f.src v p).netCfg = s.netCfg := congrArg Manifest.net (s.learn_manifest f.src v p)
  have form : (s.learn f.src v p).egressForm q v f = s.egressForm q v f := by rw [State.egressForm, cfg]; rfl
  have lookup : (s.learn f.src v p).lookup f.dst v = ([q], false) := (s.learn_lookup src v v p).trans place
  have home : s.netCfg.learnPort p = p := by rw [NetCfg.learnPort, alone]; rfl
  have one : s.netCfg.onePerPair [q] = [q] := by simp [NetCfg.onePerPair, NetCfg.learnPort, alone']
  have cross : (s.learn f.src v p).mayCross p q = true := by simp only [State.mayCross, cfg, alone, alone', Bool.and_self]
  unfold State.forward
  extract_lets from_ u d w targets
  have hd : d = ([q], false) := lookup
  have hw : w = u := by unfold w; rw [hd]; rfl
  have ht : targets = [q] := by
    unfold targets
    rw [hd, hw, show u.netCfg = s.netCfg from cfg, show from_ = p from home]
    simp only [List.filter_cons, member, if_true, List.filter_nil, one, hq, cross, ne_eq, not_false_eq_true, decide_true, Bool.and_self, u]
  rw [hd, Bool.false_and, if_neg Bool.false_ne_true, hw, ht]
  simp only [State.forEach_cons, State.forEach_nil, State.sendOn, u, cfg, alone', Option.isSome_none, Bool.and_false, Bool.false_eq_true, if_false, form]

theorem exec_netFrameRx_forwards (s : State) (p q : Nat) (f : Frame) (c : PortCfg) (y : Port) (takes : s.takesFrames p) (long : 64 ≤ f.len)
    (short : f.len ≤ 2048) (plain : f.kind = .plain) (untagged : f.vid = none) (free : f.dst.toNat / 16 ≠ 0x0180C200000)
    (foreign : f.dst ≠ Config.ownMac) (src : f.src ≠ f.dst) (hc : s.netCfg.port? p = some c) (unfiltered : c.ingressFilter = false)
    (alone : s.netCfg.pairOf? p = none) (alone' : s.netCfg.pairOf? q = none) (place : s.lookup f.dst c.pvid = ([q], false))
    (member : (s.netCfg.members c.pvid).contains q) (hq : q ≠ p) (hy : s.port? q = some y) (link : y.link) (up : y.adminDown = false)
    (pcp : c.defaultPcp < y.queues.length) (room : y.hasRoom c.defaultPcp (s.egressForm q c.pvid { f with pcp := c.defaultPcp }).len) :
    ∃ t z, exec (.netFrameRx { port := p, frame := f }) s = .next t ∧ t.port? q = some z ∧
      nth z.queues c.defaultPcp [] = nth y.queues c.defaultPcp [] ++ [{ frame := s.egressForm q c.pvid { f with pcp := c.defaultPcp }, at_ := s.now }] ∧
      z.drops = y.drops ∧ (∀ r, r ≠ p → r ≠ q → t.port? r = s.port? r) ∧ OnlyTouches [.net] s t := by
  have run := exec_netFrameRx takes long short true
  let u : State := (s.countRx p).learn f.src c.pvid p
  have forwards : (s.countRx p).frameRx p f = u.enqueue q (s.egressForm q c.pvid { f with pcp := c.defaultPcp }) := by
    rw [State.frameRx_plain (s := s.countRx p) hc plain untagged free unfiltered]
    rw [State.fabricRx_plain (s := s.countRx p) (by exact plain) alone (by exact foreign)]
    exact State.forward_learnt (s := s.countRx p) alone alone' place member hq src
  rw [if_neg (by decide), forwards] at run
  have here : u.port? q = some y := ((s.countRx p).learn_port? src c.pvid p q).trans ((State.port?_onPort_ne hq).trans hy)
  have queued := State.enqueue_takes (f := s.egressForm q c.pvid { f with pcp := c.defaultPcp }) here link up room
  have start : Kept (· ∈ [.net]) s u := State.learn_kept _ _ _ (State.onPort_kept p _ (.refl s))
  have kept : Kept (· ∈ [.net]) s (u.enqueue q (s.egressForm q c.pvid { f with pcp := c.defaultPcp })) := State.enqueue_kept q _ start
  refine ⟨_, _, run, (congrArg (State.port? · q) queued).trans (State.port?_onPort_self here), ?_, rfl, fun r hp hr => ?_, kept.frame⟩
  · have now : u.now = s.now := start.parts .now (by simp)
    rw [← now]
    exact nth_updAt_self _ _ _ _ pcp
  · exact (State.port?_enqueue_ne hr u _).trans (((s.countRx p).learn_port? src c.pvid p r).trans (State.port?_onPort_ne hp))

/-! ### Gate lists and learnt addresses (R432, R435) -/

theorem exec_netGclEntry_goes_on (s : State) (p : Nat) (x : Port) (c : PortCfg) (g : Gcl) (h : s.port? p = some x) (hc : s.netCfg.port? p = some c)
    (list : c.gcl = some g) (settled : x.gclRestart = none) (active : x.gclActive) (due : x.gclEnd ≤ s.ltc) :
    ∃ t y, exec (.netGclEntry p) s = .next t ∧ t.port? p = some y ∧
      y.gclEntry = (if x.gclEntry + 1 < g.entries.length then x.gclEntry + 1 else 0) ∧
      y.gclEnd = x.gclEnd + (nth g.entries y.gclEntry { gates := 0, interval := 0 }).interval ∧ y.queues = x.queues ∧ OnlyTouches [.net] s t := by
  obtain ⟨k, hk⟩ : ∃ k, (if x.gclEntry + 1 < g.entries.length then x.gclEntry + 1 else 0) = k := ⟨_, rfl⟩
  have run : exec (.netGclEntry p) s = .next (s.onPort p fun x =>
      { x with gclEntry := k, gclEnd := x.gclEnd + (nth g.entries k { gates := 0, interval := 0 }).interval }) := by
    show execNetGclEntry p s = _
    rw [execNetGclEntry, h, hc, Option.bind_some, list]
    dsimp only
    rw [settled, active]
    dsimp only
    rw [Bool.not_true, if_neg Bool.false_ne_true, if_pos due, hk]
  rw [hk]
  exact ⟨_, _, run, State.port?_onPort_self h, rfl, rfl, rfl, (execNetGclEntry_kept p (.refl s)).frame run⟩

/-- Settles O36, clause by clause. -/
theorem portsLinkFilterAndForward : Obligations.PortsLinkFilterAndForward :=
  ⟨exec_netLink_down, exec_netLink_up, exec_netLink_unusable, exec_netPortAdmin_sets, exec_netPortAdmin_refused, exec_netFrameRx_damaged,
    exec_netFrameRx_forwards, fun s => ⟨_, rfl, rfl, (execNetMacAge_kept (.refl s)).frame rfl⟩, exec_netGclEntry_goes_on⟩

end Sys2Proof.Machine
end

section
/-! SUPPORT. The pairs: supervision, opening and closing, and what they forget (spec/13_network_and_time.md R438, R439). -/

namespace Sys2Proof.Machine

set_option Elab.async false

open Sys2Proof

variable {s : State}

/-! ### Pairs by number -/

theorem State.pair?_map_onPair (s : State) (k : Nat) {f : Pair → Pair} (hf : ∀ y, (f y).pair = y.pair := by exact fun _ => rfl) :
    (s.onPair k f).pair? k = (s.pair? k).map f :=
  find?_map_if _ _ _ fun y => by rw [hf]

theorem State.pair?_onPair_self {k : Nat} {x : Pair} (h : s.pair? k = some x) {f : Pair → Pair} (hf : ∀ y, (f y).pair = y.pair := by exact fun _ => rfl) :
    (s.onPair k f).pair? k = some (f x) :=
  (s.pair?_map_onPair k hf).trans (congrArg (Option.map f) h)

theorem State.pair?_onPair_ne {j k : Nat} (h : j ≠ k) {f : Pair → Pair} (hf : ∀ y, (f y).pair = y.pair := by exact fun _ => rfl) :
    (s.onPair k f).pair? j = s.pair? j :=
  find?_map_if_of_disjoint _ (fun y => by rw [hf]) fun _ => beq_false_of_beq h

theorem State.pair?_congr {t : State} (h : t.net.pairs = s.net.pairs) (k : Nat) : t.pair? k = s.pair? k := by rw [State.pair?, State.pair?, h]

theorem State.pairCfg?_pair {k : Nat} {c : PairCfg} (h : s.pairCfg? k = some c) : c.pair = k := by
  have found := List.find?_some h
  exact beq_iff_eq.mp found

theorem State.pair?_pair {k : Nat} {x : Pair} (h : s.pair? k = some x) : x.pair = k := by
  have found := List.find?_some h
  exact beq_iff_eq.mp found

/-! ### Supervision frames (R438, R439) -/

theorem exec_hsrSupervisionSend_sends (s : State) (k : Nat) (c : PairCfg) (x : Pair) (hc : s.pairCfg? k = some c)
    (home : s.netCfg.pairOf? c.first = some c) (h : s.pair? k = some x) (due : s.passed x.lifeSent s.netCfg.lifeCheck) (trained : 6 ≤ s.sys.stage)
    (stage : s.sys.stage ≤ 11) : ∃ t y, exec (.hsrSupervisionSend k) s = .next t ∧ t.pair? k = some y ∧ y.lifeSent = s.now ∧ y.seq = (x.seq + 1) % 65536 ∧
      t.net.sent = s.net.sent ++ [.supervision k x.seq] ∧ OnlyTouches [.net] s t := by
  let u : State := (s.onPair k fun x => { x with lifeSent := s.now }).onNet fun n => { n with sent := n.sent ++ [.supervision k x.seq] }
  let v : State := u.onPair k fun x => { x with seq := (x.seq + 1) % 65536 }
  have here : u.pair? k = some { x with lifeSent := s.now } := State.pair?_onPair_self h
  have bumped : v.pair? k = some { x with lifeSent := s.now, seq := (x.seq + 1) % 65536 } := State.pair?_onPair_self here
  have run : ∃ f, exec (.hsrSupervisionSend k) s = .next ((v.enqueue c.first f).enqueue c.second f) := by
    have sends : u.sendOn c.first supervisionFrame = (v.enqueue c.first { supervisionFrame with red := some { seq := x.seq }, len := supervisionFrame.len + 6 }).enqueue
        c.second { supervisionFrame with red := some { seq := x.seq }, len := supervisionFrame.len + 6 } := by
      have cfg : u.netCfg.pairOf? c.first = some c := home
      rw [State.sendOn, cfg]
      dsimp only [supervisionFrame]
      rw [State.pairCfg?_pair hc, here]
      rfl
    refine ⟨_, Eq.trans ?_ (congrArg (fun t => (.next t : Out)) sends)⟩
    show execHsrSupervisionSend k s = _
    rw [execHsrSupervisionSend, hc, h]
    dsimp only
    rw [due, decide_eq_true ⟨trained, stage⟩]
    rfl
  obtain ⟨f, run⟩ := run
  obtain ⟨l, first⟩ := v.enqueue_net c.first f
  obtain ⟨m, second⟩ := (v.enqueue c.first f).enqueue_net c.second f
  have net : ((v.enqueue c.first f).enqueue c.second f).net = { v.net with ports := m } := by rw [second, first]
  have kept : Kept (· ∈ [.net]) s ((v.enqueue c.first f).enqueue c.second f) :=
    State.enqueue_kept _ _ (State.enqueue_kept _ _ (State.onPair_kept k _ (State.onNet_kept (State.onPair_kept k _ (.refl s)) _)))
  refine ⟨_, { x with lifeSent := s.now, seq := (x.seq + 1) % 65536 }, run, ?_, rfl, rfl, ?_, kept.frame⟩
  · exact (State.pair?_congr (s := v) (congrArg NetState.pairs net :) k).trans bumped
  · rw [net]; rfl

/-! ### Opening and closing (R439) -/

theorem exec_netRingOpen_opens (s : State) (k p : Nat) (c : PairCfg) (x : Pair) (hc : s.pairCfg? k = some c) (h : s.pair? k = some x)
    (cause : s.openCause c x = some p) (closed : x.open_ = false) : ∃ t, exec (.netRingOpen k) s = .next t ∧
      t.pair? k = some { x with open_ := true } ∧ t.net.event = s.net.event.raise 1 ∧ t.log = (s.report .netRingOpen k [p]).log ∧
      OnlyTouches [.log, .net] s t := by
  have run : exec (.netRingOpen k) s = .next (((s.onPair k fun x => { x with open_ := true }).raise .net 1).report .netRingOpen k [p]) := by
    show execNetRingOpen k s = _
    rw [execNetRingOpen, hc, h]
    dsimp only
    rw [cause]
    dsimp only
    rw [closed]
    rfl
  exact ⟨_, run, State.pair?_onPair_self h, rfl, rfl, (execNetRingOpen_kept k (.refl s)).frame run⟩

/-- What the cause of an open pair rests on is no part of what closes (R439). -/
theorem State.openCause_congr {t : State} (ports : t.net.ports = s.net.ports) (cfg : t.netCfg = s.netCfg) (now : t.now = s.now) (c : PairCfg) (x : Pair) :
    t.openCause c x = s.openCause c x := by
  have up (p : Nat) : t.portUp p = s.portUp p := by rw [State.portUp, State.portUp, State.port?_congr ports]
  unfold State.openCause
  rw [up, up, cfg, now]

/-- One pair whose conditions for OPEN have ended closes (R439). -/
def State.closePair (s : State) (x : Pair) : State :=
  match s.pairCfg? x.pair with
  | none => s
  | some c => if x.open_ && (s.openCause c x).isNone then
      ((s.onPair x.pair fun x => { x with open_ := false }).raise .net 2).report .netRingClosed x.pair else s

theorem State.closePair_cases (s : State) (x : Pair) : s.closePair x = s ∨
    s.closePair x = ((s.onPair x.pair fun x => { x with open_ := false }).raise .net 2).report .netRingClosed x.pair := by
  unfold State.closePair
  split
  · exact .inl rfl
  · split
    · exact .inr rfl
    · exact .inl rfl

/-- How the pair `k` of a state stands to another at which the conditions for OPEN are the same: as it was, or closed (R439). -/
structure Closes (k : Nat) (x : Pair) (a b : State) : Prop where
  ports : b.net.ports = a.net.ports
  cfg : b.netCfg = a.netCfg
  now : b.now = a.now
  pair : b.pair? k = some x ∨ b.pair? k = some { x with open_ := false } ∧ b.net.event.bits.getLsbD 2 = true

theorem Closes.step {k : Nat} {x : Pair} {a b : State} (h : Closes k x a b) (y : Pair) : Closes k x a (b.closePair y) := by
  obtain same | closes := b.closePair_cases y
  · rw [same]; exact h
  · rw [closes]
    refine ⟨h.ports, h.cfg, h.now, ?_⟩
    by_cases hy : y.pair = k
    · refine .inr ⟨?_, W1C.raise_bits _ _ (by decide)⟩
      rw [hy]
      obtain stands | ⟨closed, -⟩ := h.pair
      · exact State.pair?_onPair_self stands
      · exact State.pair?_onPair_self closed
    · obtain stands | ⟨closed, event⟩ := h.pair
      · exact .inl ((State.pair?_onPair_ne (Ne.symm hy)).trans stands)
      · exact .inr ⟨(State.pair?_onPair_ne (Ne.symm hy)).trans closed, W1C.bits_raise_of_set _ 2 event⟩

/-- The pair `k` is closed, and its closing shown (R439). -/
def Closed (k : Nat) (x : Pair) (t : State) : Prop := t.pair? k = some { x with open_ := false } ∧ t.net.event.bits.getLsbD 2 = true

/-- Once closed, a pair stays closed while the others are looked at (R439). -/
theorem State.closePair_keeps_closed {k : Nat} {x : Pair} {t : State} (h : Closed k x t) (y : Pair) : Closed k x (t.closePair y) := by
  obtain same | closes := t.closePair_cases y
  · rw [same]; exact h
  · rw [closes]
    refine ⟨?_, W1C.bits_raise_of_set _ 2 h.2⟩
    by_cases hy : y.pair = k
    · rw [hy]; exact State.pair?_onPair_self h.1
    · exact (State.pair?_onPair_ne (Ne.symm hy)).trans h.1

theorem Closes.closePair {k : Nat} {c : PairCfg} {x : Pair} {a b : State} (h : Closes k x a b) (hc : a.pairCfg? k = some c) (hx : x.pair = k)
    (ended : a.openCause c x = none) (opened : x.open_) : Closed k x (b.closePair x) := by
  have cfg : b.pairCfg? x.pair = some c := by rw [hx, State.pairCfg?, h.cfg]; exact hc
  have closes : b.closePair x = ((b.onPair x.pair fun x => { x with open_ := false }).raise .net 2).report .netRingClosed x.pair := by
    rw [State.closePair, cfg]
    dsimp only
    rw [State.openCause_congr h.ports h.cfg h.now, ended, opened]
    rfl
  rw [closes, hx]
  refine ⟨?_, W1C.raise_bits _ _ (by decide)⟩
  obtain stands | ⟨closed, -⟩ := h.pair
  · exact State.pair?_onPair_self stands
  · exact State.pair?_onPair_self closed

theorem Closes.closePairs {k : Nat} {c : PairCfg} {x : Pair} {a : State} (hc : a.pairCfg? k = some c) (hx : x.pair = k) (ended : a.openCause c x = none)
    (opened : x.open_) (l : List Pair) : ∀ b, Closes k x a b → x ∈ l → Closed k x (b.forEach l State.closePair) := by
  induction l with
  | nil => exact fun _ _ mem => absurd mem List.not_mem_nil
  | cons y l ih =>
    intro b h mem
    rw [State.forEach_cons]
    obtain rfl | mem := List.mem_cons.mp mem
    · exact State.forEach_invariant (p := Closed k x) (fun t z ht => State.closePair_keeps_closed ht z) l _ (h.closePair hc hx ended opened)
    · exact ih _ (h.step y) mem

theorem exec_netRingOpen_closes (s : State) (k : Nat) (c : PairCfg) (x : Pair) (hc : s.pairCfg? k = some c) (h : s.pair? k = some x)
    (ended : s.openCause c x = none) (opened : x.open_) : ∃ t, exec (.netRingOpen k) s = .next t ∧ t.pair? k = some { x with open_ := false } ∧
      t.net.event.bits.getLsbD 2 = true ∧ OnlyTouches [.log, .net] s t := by
  have run : exec (.netRingOpen k) s = .next s.closePairs := by
    show execNetRingOpen k s = _
    rw [execNetRingOpen, hc, h]
    dsimp only
    rw [ended]
  obtain ⟨self, event⟩ := Closes.closePairs hc (State.pair?_pair h) ended opened s.net.pairs s ⟨rfl, rfl, rfl, .inl h⟩ (List.mem_of_find?_eq_some h)
  exact ⟨_, run, self, event, (execNetRingOpen_kept k (.refl s)).frame run⟩

/-! ### What a pair forgets (R438, R439) -/

theorem exec_hsrDupExpiry_forgets (s : State) (k : Nat) (c : PairCfg) (x : Pair) (hc : s.pairCfg? k = some c) (h : s.pair? k = some x) :
    ∃ t y, exec (.hsrDupExpiry k) s = .next t ∧ t.pair? k = some y ∧ y.table = x.table.filter (fun e => !s.passed e.at_ (msec 400)) ∧
    y.onlyFirst = satAdd 16 x.onlyFirst (x.table.filter fun e => s.passed e.at_ (msec 400) && !e.both && e.port == c.first).length ∧
    y.onlySecond = satAdd 16 x.onlySecond (x.table.filter fun e => s.passed e.at_ (msec 400) && !e.both && e.port == c.second).length ∧
    y.nodes = x.nodes ∧ OnlyTouches [.net] s t := by
  obtain ⟨d, hd⟩ : ∃ d, msec 400 = d := ⟨_, rfl⟩
  have run : exec (.hsrDupExpiry k) s = .next (s.onPair k fun y =>
      { y with
        table := y.table.filter fun e => !s.passed e.at_ d
        onlyFirst := satAdd 16 y.onlyFirst (((x.table.filter fun e => s.passed e.at_ d).filter fun e => !e.both).filter (·.port == c.first)).length
        onlySecond := satAdd 16 y.onlySecond
          (((x.table.filter fun e => s.passed e.at_ d).filter fun e => !e.both).filter (·.port == c.second)).length }) := by
    show execHsrDupExpiry k s = _
    rw [execHsrDupExpiry, hc, h, hd]
  have alone (p : Nat) : ((x.table.filter fun e => s.passed e.at_ d).filter fun e => !e.both).filter (·.port == p) =
      x.table.filter fun e => s.passed e.at_ d && !e.both && e.port == p := by
    rw [List.filter_filter, List.filter_filter]
    congr 1
    funext e
    cases s.passed e.at_ d <;> cases e.both <;> cases e.port == p <;> rfl
  rw [alone, alone] at run
  rw [hd]
  exact ⟨_, _, run, State.pair?_onPair_self h, rfl, rfl, rfl, rfl, (execHsrDupExpiry_kept k (.refl s)).frame run⟩

theorem exec_hsrNodeExpiry_forgets (s : State) (k : Nat) (x : Pair) (h : s.pair? k = some x) : ∃ t, exec (.hsrNodeExpiry k) s = .next t ∧
    t.pair? k = some { x with nodes := x.nodes.filter fun e => !s.passed e.seen (secs 60) } ∧ OnlyTouches [.net] s t :=
  ⟨_, rfl, State.pair?_onPair_self h, (execHsrNodeExpiry_kept k (.refl s)).frame rfl⟩

/-- Settles O37, clause by clause. -/
theorem pairsSuperviseAndForget : Obligations.PairsSuperviseAndForget :=
  ⟨exec_hsrSupervisionSend_sends, exec_netRingOpen_opens, exec_netRingOpen_closes, exec_hsrDupExpiry_forgets, exec_hsrNodeExpiry_forgets⟩

end Sys2Proof.Machine
end

section
/-! SUPPORT. Plant time: Sync, steps and slews, LOCKED, peer delays, a master port's messages, holdover (spec/13_network_and_time.md R441 to R448). -/

namespace Sys2Proof.Machine

set_option Elab.async false

open Sys2Proof

variable {s : State}

/-! ### The Sync that is taken (R445, R447) -/

theorem State.diffJoin_ptp (s : State) : s.diffJoin.ptp = s.ptp := s.diffJoin_touches.parts .ptp (by simp)

/-- The offset of a Sync and its acceptance rest on nothing that the differential zones keep (R443, R445). -/
theorem State.diffJoin_sync (s : State) (x : SyncIn) :
    s.diffJoin.syncAccepted x = s.syncAccepted x ∧ s.diffJoin.measured x = s.measured x ∧ s.diffJoin.ptpCfg = s.ptpCfg ∧ s.diffJoin.now = s.now := by
  have manifest : s.diffJoin.manifest = s.manifest := s.diffJoin_touches.parts .manifest (by simp)
  have ptp := s.diffJoin_ptp
  have net : s.diffJoin.net = s.net := s.diffJoin_touches.parts .net (by simp)
  have now : s.diffJoin.now = s.now := s.diffJoin_touches.parts .now (by simp)
  generalize s.diffJoin = t at manifest ptp net now
  have cfg : t.netCfg = s.netCfg := congrArg Manifest.net manifest
  have up (p : Nat) : t.portUp p = s.portUp p := by rw [State.portUp, State.portUp, State.port?, State.port?, net]
  have runs (p : Nat) : t.ptpRuns p = s.ptpRuns p := by unfold State.ptpRuns State.ptpCfg; rw [cfg]
  have stands (q : PtpPort) : t.annStands q = s.annStands q := by unfold State.annStands State.ptpCfg; rw [runs, up, cfg, now]
  refine ⟨?_, ?_, congrArg NetCfg.ptp cfg, now⟩
  · unfold State.syncAccepted State.ptpPort? State.ptpCfg
    simp only [ptp, cfg, stands]
  · unfold State.measured State.meanDelay State.ptpPort?
    rw [cfg, ptp]

/-- The state after an accepted Sync with its offset noted (R445, R447). -/
def State.syncNoted (s : State) (x : SyncIn) : State := (s.syncPhase x).onPtp fun q => { q with offsetLast := s.measured x }

/-- What an accepted Sync leaves of PTP before the servo acts (R447). -/
theorem State.syncNoted_ptp (s : State) (x : SyncIn) : ∃ e h l, (s.syncNoted x).ptp =
    { s.ptp with phase := .tracking, logSync := x.logSync, syncAt := s.now, synced := true, event := e, history := h, ports := l, offsetLast := s.measured x } := by
  unfold State.syncNoted State.syncPhase State.when
  extract_lets back u
  split
  · exact ⟨_, _, _, rfl⟩
  · exact ⟨_, _, _, rfl⟩

theorem State.syncNoted_kept (s : State) (x : SyncIn) : Kept (· ∈ [.log, .ptp]) s (s.syncNoted x) :=
  State.onPtp_kept (State.syncPhase_kept x (.refl s)) _

theorem State.takeSync_eq {x : SyncIn} (accepted : s.syncAccepted x) (normal : s.ptp.degraded = false) : s.takeSync x =
    if !s.ptp.timeKnown then (s.syncNoted x).syncStep (s.measured x)
    else if (s.ptpCfg.stepLimit : Sys2Proof.Num) < (s.measured x).mag then
      (if s.ptp.candidate.isSome then (s.syncNoted x).syncStep (s.measured x)
        else (s.syncNoted x).onPtp fun q => { q with candidate := some (s.measured x), lockRun := 0 })
    else (s.syncNoted x).dropCandidate.steer (s.measured x) := by
  obtain ⟨e, h, l, ptp⟩ := s.syncNoted_ptp x
  unfold State.takeSync
  rw [accepted, if_neg (by decide)]
  extract_lets o large u
  have hu : u.ptp.degraded = false ∧ u.ptp.timeKnown = s.ptp.timeKnown ∧ u.ptp.candidate = s.ptp.candidate := by
    rw [show u.ptp = _ from ptp]
    exact ⟨normal, rfl, rfl⟩
  rw [hu.1, hu.2.1, hu.2.2, if_neg Bool.false_ne_true]
  cases s.ptp.timeKnown
  · rfl
  · rw [Bool.not_true, if_neg Bool.false_ne_true, if_neg Bool.false_ne_true]
    by_cases far : (s.ptpCfg.stepLimit : Sys2Proof.Num) < (s.measured x).mag
    · rw [if_pos (decide_eq_true far), if_pos far]
      cases s.ptp.candidate <;> rfl
    · rw [if_neg (show ¬large = true from fun k => far (of_decide_eq_true k)), if_neg far]
      rfl

theorem exec_ptpSyncRx {x : SyncIn} (accepted : s.syncAccepted x) (normal : s.ptp.degraded = false) : exec (.ptpSyncRx x) s = .next
    (if !s.ptp.timeKnown then (s.diffJoin.syncNoted x).syncStep (s.measured x)
    else if (s.ptpCfg.stepLimit : Sys2Proof.Num) < (s.measured x).mag then
      (if s.ptp.candidate.isSome then (s.diffJoin.syncNoted x).syncStep (s.measured x)
        else (s.diffJoin.syncNoted x).onPtp fun q => { q with candidate := some (s.measured x), lockRun := 0 })
    else (s.diffJoin.syncNoted x).dropCandidate.steer (s.measured x)).diffJoin := by
  obtain ⟨same, offset, cfg, -⟩ := s.diffJoin_sync x
  have taken := State.takeSync_eq (same.trans accepted) ((congrArg PtpState.degraded s.diffJoin_ptp).trans normal)
  rw [offset, cfg, s.diffJoin_ptp] at taken
  rw [← taken]
  exact congrArg _ (if_pos accepted)

/-! ### The servo (R445, R446) -/

theorem State.dropCandidate_ptp (s : State) : ∃ n a, s.dropCandidate.ptp = { s.ptp with candidate := none, outliers := n, outlierLogAt := a } := by
  unfold State.dropCandidate
  split
  next none => exact ⟨s.ptp.outliers, s.ptp.outlierLogAt, by rw [← none]⟩
  next c _ =>
    extract_lets due u
    unfold State.when
    split <;> exact ⟨_, _, rfl⟩

theorem State.dropCandidate_touches (s : State) : Kept (· ∈ [.log, .ptp]) s s.dropCandidate := State.dropCandidate_kept (.refl s)

/-- PTP once a Sync is noted after the differential zones have seen the old estimate (R445, R447). -/
theorem State.syncTaken_ptp (s : State) (x : SyncIn) : ∃ e h l, (s.diffJoin.syncNoted x).ptp =
    { s.ptp with phase := .tracking, logSync := x.logSync, syncAt := s.now, synced := true, event := e, history := h, ports := l, offsetLast := s.measured x } := by
  obtain ⟨-, offset, -, now⟩ := s.diffJoin_sync x
  obtain ⟨e, h, l, ptp⟩ := s.diffJoin.syncNoted_ptp x
  rw [offset, now, s.diffJoin_ptp] at ptp
  exact ⟨e, h, l, ptp⟩

theorem State.syncTaken_kept (s : State) (x : SyncIn) : Kept (· ∈ [.diff, .log, .ptp]) s (s.diffJoin.syncNoted x) :=
  (s.diffJoin_touches.mono (by simp)).trans ((s.diffJoin.syncNoted_kept x).mono (by simp +contextual))

theorem exec_ptpSyncRx_steers (s : State) (x : SyncIn) (accepted : s.syncAccepted x) (normal : s.ptp.degraded = false) (known : s.ptp.timeKnown)
    (near : (s.measured x).mag ≤ (s.ptpCfg.stepLimit : Sys2Proof.Num)) :
    ∃ t, exec (.ptpSyncRx x) s = .next t ∧ t.ptp.phase = .tracking ∧ t.ptp.offsetLast = s.measured x ∧ t.ptp.eLast = s.measured x ∧
      t.ptp.tLast = s.now ∧ t.ptp.syncAt = s.now ∧ t.ptp.candidate = none ∧ -200 ≤ t.ptp.servoPpm ∧ t.ptp.servoPpm ≤ 200 ∧
      (t.ptp.slew = none ↔ (s.measured x).mag ≤ 1000) ∧ t.ptp.lockRun = (if (s.measured x).mag ≤ 1000 then s.ptp.lockRun + 1 else 0) ∧
      OnlyTouches [.diff, .log, .ptp] s t := by
  have run := exec_ptpSyncRx accepted normal
  rw [known, Bool.not_true, if_neg Bool.false_ne_true, if_neg (not_lt.mpr near)] at run
  obtain ⟨e, h, l, noted⟩ := s.syncTaken_ptp x
  obtain ⟨n, a, dropped⟩ := (s.diffJoin.syncNoted x).dropCandidate_ptp
  have kept : Kept (· ∈ [.diff, .log, .ptp]) s (s.diffJoin.syncNoted x).dropCandidate :=
    (s.syncTaken_kept x).trans ((s.diffJoin.syncNoted x).dropCandidate_touches.mono (by simp +contextual))
  rw [noted] at dropped
  generalize (s.diffJoin.syncNoted x).dropCandidate = u at run dropped kept
  generalize s.measured x = o at run dropped ⊢
  have now : u.now = s.now := kept.parts .now (by simp)
  have done : Kept (· ∈ [.diff, .log, .ptp]) s (u.steer o).diffJoin := State.diffJoin_kept (State.onPtp_kept kept _)
  refine ⟨_, run, ?_, ?_, ?_, ?_, ?_, ?_, ?_, ?_, ?_, ?_, done.frame⟩ <;> rw [State.diffJoin_ptp, State.steer, State.onPtp_ptp, dropped]
  · exact now
  · exact Num.le_clamp _ _ _ (by norm_num)
  · exact Num.clamp_le _ _ _ (by norm_num)
  · dsimp only
    split
    next small => exact ⟨fun _ => small, fun _ => rfl⟩
    next large => exact ⟨fun k => absurd k (Option.some_ne_none _), fun k => absurd k large⟩

theorem exec_ptpSyncRx_waits (s : State) (x : SyncIn) (accepted : s.syncAccepted x) (normal : s.ptp.degraded = false) (known : s.ptp.timeKnown)
    (far : (s.ptpCfg.stepLimit : Sys2Proof.Num) < (s.measured x).mag) (first : s.ptp.candidate = none) :
    ∃ t, exec (.ptpSyncRx x) s = .next t ∧ t.ptp.candidate = some (s.measured x) ∧ t.ptp.lockRun = 0 ∧
      t.ptp.phase = .tracking ∧ t.ptp.eLast = s.ptp.eLast ∧ t.ptp.servoPpm = s.ptp.servoPpm ∧ t.ptp.steps = s.ptp.steps ∧
      OnlyTouches [.diff, .log, .ptp] s t := by
  have run := exec_ptpSyncRx accepted normal
  rw [known, first, Bool.not_true, if_neg Bool.false_ne_true, if_pos far, Option.isSome_none, if_neg Bool.false_ne_true] at run
  obtain ⟨e, h, l, noted⟩ := s.syncTaken_ptp x
  have kept := s.syncTaken_kept x
  generalize s.diffJoin.syncNoted x = u at run noted kept
  have done : Kept (· ∈ [.diff, .log, .ptp]) s (u.onPtp fun q => { q with candidate := some (s.measured x), lockRun := 0 }).diffJoin :=
    State.diffJoin_kept (State.onPtp_kept kept _)
  refine ⟨_, run, ?_, ?_, ?_, ?_, ?_, ?_, done.frame⟩ <;> rw [State.diffJoin_ptp, State.onPtp_ptp, noted]

/-! ### Steps (R445, R446) -/

/-- What a step leaves of the counter and of PTP (R445, R449). -/
theorem State.stepClock_does (s : State) (size : Sys2Proof.Num) : (s.stepClock size).ltc = ((s.ltc : Int) + roundInt size).toNat ∧
    (s.stepClock size).ptp = { s.ptp with
      steps := satInc 16 s.ptp.steps, lastStep := size, slew := none, eLast := 0, tLast := s.now, event := s.ptp.event.raise 5 } := by
  unfold State.stepClock
  extract_lets d u v w
  have kept : Kept (· ∉ [.ltc, .ptp]) ((v.raise .ptp 5).report .ptpStep 0xFFFF [d]) (((w.strobeStep d).gatesStep).captStep d) :=
    State.captStep_kept d (State.gatesStep_kept (State.strobeStep_kept d (State.tideMapStep_kept d (.refl _))))
  exact ⟨(kept.parts .ltc (by simp)).trans rfl, (kept.parts .ptp (by simp)).trans rfl⟩

theorem exec_ptpSyncRx_steps (s : State) (x : SyncIn) (accepted : s.syncAccepted x) (normal : s.ptp.degraded = false)
    (due : s.ptp.timeKnown = false ∨ (s.ptpCfg.stepLimit : Sys2Proof.Num) < (s.measured x).mag ∧ s.ptp.candidate.isSome) :
    ∃ t, exec (.ptpSyncRx x) s = .next t ∧ t.ltc = ((s.ltc : Int) + roundInt (-s.measured x)).toNat ∧ t.ptp.steps = satInc 16 s.ptp.steps ∧
      t.ptp.lastStep = -s.measured x ∧ t.ptp.timeKnown = true ∧ t.ptp.candidate = none ∧ t.ptp.slew = none ∧ t.ptp.eLast = 0 ∧
      t.ptp.event.bits.getLsbD 5 = true ∧
      OnlyTouches [.ltc, .fresh, .clk, .tide, .acq, .prot, .diff, .fio, .capt, .log, .net, .ptp, .diag] s t := by
  have run : exec (.ptpSyncRx x) s = .next ((s.diffJoin.syncNoted x).syncStep (s.measured x)).diffJoin := by
    rw [exec_ptpSyncRx accepted normal]
    cases known : s.ptp.timeKnown
    · rfl
    · obtain ⟨far, again⟩ := due.resolve_left (by rw [known]; decide)
      rw [Bool.not_true, if_neg Bool.false_ne_true, if_pos far, if_pos again]
  obtain ⟨e, h, l, noted⟩ := s.syncTaken_ptp x
  have taken : Kept (· ∈ [.diff, .log, .ptp]) s (s.diffJoin.syncNoted x) := s.syncTaken_kept x
  have frame : OnlyTouches [.ltc, .fresh, .clk, .tide, .acq, .prot, .diff, .fio, .capt, .log, .net, .ptp, .diag] s _ := (execPtpSyncRx_kept x (.refl s)).frame run
  generalize s.diffJoin.syncNoted x = u at run noted taken frame
  generalize s.measured x = o at run noted frame ⊢
  obtain ⟨ltc, ptp⟩ := u.stepClock_does (-o)
  have counter : (u.syncStep o).diffJoin.ltc = (u.syncStep o).ltc := (u.syncStep o).diffJoin_touches.parts .ltc (by simp)
  rw [noted] at ptp
  have same : u.ltc = s.ltc := taken.parts .ltc (by simp)
  refine ⟨_, run, ?_, ?_, ?_, ?_, ?_, ?_, ?_, ?_, frame⟩
  · rw [counter, State.syncStep, State.onPtp_ltc, ltc, same]
  all_goals rw [State.diffJoin_ptp, State.syncStep, State.onPtp_ptp, ptp]
  exact W1C.raise_bits _ _ (by decide)

theorem exec_ptpSlewDone_closes (s : State) (x : Slew) (slew : s.ptp.slew = some x) (due : s.passed x.start x.length) :
    ∃ t, exec .ptpSlewDone s = .next t ∧ t.ptp = { s.ptp with slew := none, eLast := s.ptp.eLast - x.offset } ∧ OnlyTouches [.diff, .log, .ptp] s t := by
  have run : exec .ptpSlewDone s = .next (s.onPtp fun q => { q with slew := none, eLast := q.eLast - x.offset }).diffJoin := by
    show execPtpSlewDone s = _
    rw [execPtpSlewDone, slew]
    exact congrArg _ (if_pos due)
  exact ⟨_, run, State.diffJoin_ptp _, (execPtpSlewDone_kept (.refl s)).frame run⟩

/-- Settles O38, clause by clause. -/
theorem syncsSteerOrStep : Obligations.SyncsSteerOrStep :=
  ⟨fun _ _ refused => congrArg _ (if_neg (by rw [refused]; decide)), exec_ptpSyncRx_steers, exec_ptpSyncRx_waits, exec_ptpSyncRx_steps,
    exec_ptpSlewDone_closes⟩

/-! ### LOCKED and two-step entries (R444, R446) -/

theorem exec_ptpLockChange_clears (s : State) (locked : s.ptp.locked) (lost : s.ptpNear = false ∨ s.ptp.degraded) : ∃ t, exec .ptpLockChange s = .next t ∧
    t.ptp = { s.ptp with locked := false, event := s.ptp.event.raise 1 } ∧ t.log = (s.report .ptpUnlock).log ∧ OnlyTouches [.tide, .log, .ptp] s t := by
  have due : (s.ptp.locked && (!s.ptpNear || s.ptp.degraded)) = true := by
    obtain far | on := lost
    · rw [locked, far]; rfl
    · rw [locked, on, Bool.or_true]; rfl
  have run : exec .ptpLockChange s = .next (s.setLocked false).refreshHolds := congrArg _ (if_pos due)
  exact ⟨_, run, rfl, rfl, (execPtpLockChange_kept (.refl s)).frame run⟩

theorem exec_ptpLockChange_sets (s : State) (unlocked : s.ptp.locked = false) (long : 8 ≤ s.ptp.lockRun) (near : s.ptpNear) (normal : s.ptp.degraded = false) :
    ∃ t, exec .ptpLockChange s = .next t ∧ t.ptp = { s.ptp with locked := true, event := s.ptp.event.raise 0 } ∧ t.log = (s.report .ptpLock).log ∧
      OnlyTouches [.tide, .log, .ptp] s t := by
  have run : exec .ptpLockChange s = .next (s.setLocked true).refreshHolds := by
    show execPtpLockChange s = _
    rw [execPtpLockChange, unlocked, near, normal, decide_eq_true long]
    rfl
  exact ⟨_, run, rfl, rfl, (execPtpLockChange_kept (.refl s)).frame run⟩

theorem exec_ptpFollowupLost_forgets (s : State) (e : FollowEntry) (held : e ∈ s.ptp.follow) (late : s.passed e.at_ (secs 1)) :
    ∃ t, exec .ptpFollowupLost s = .next t ∧
    t.ptp.follow = s.ptp.follow.filter (fun e => !s.passed e.at_ (secs 1)) ∧
    t.ptp.followLost = s.ptp.followLost + (s.ptp.follow.filter fun e => s.passed e.at_ (secs 1)).length ∧
    t.ptp.event = s.ptp.event.raise 7 ∧ OnlyTouches [.ptp] s t := by
  generalize hd : secs 1 = d at late ⊢
  have some : (!(s.ptp.follow.filter fun e => s.passed e.at_ d).isEmpty) = true := by
    rw [Bool.not_eq_true', List.isEmpty_eq_false_iff]
    exact List.ne_nil_of_mem (List.mem_filter.mpr ⟨held, late⟩)
  have run : exec .ptpFollowupLost s = .next ((s.onPtp fun x =>
      { x with follow := x.follow.filter fun e => !s.passed e.at_ d, followLost := x.followLost + (s.ptp.follow.filter fun e => s.passed e.at_ d).length }).raise .ptp 7) := by
    show execPtpFollowupLost s = _
    rw [execPtpFollowupLost, hd]
    exact congrArg _ (if_pos some)
  exact ⟨_, run, rfl, rfl, rfl, (execPtpFollowupLost_kept (.refl s)).frame run⟩

end Sys2Proof.Machine
end

section
/-! SUPPORT. Peer delays, a master port's messages and holdover (spec/13_network_and_time.md R441 to R447). -/

namespace Sys2Proof.Machine

set_option Elab.async false

open Sys2Proof

variable {s : State}

theorem State.enqueue_sent (s : State) (p : Nat) (f : Frame) : (s.enqueue p f).net.sent = s.net.sent := by
  obtain ⟨l, net⟩ := s.enqueue_net p f
  rw [net]

theorem State.enqueue_ptp (s : State) (p : Nat) (f : Frame) : (s.enqueue p f).ptp = s.ptp :=
  (State.enqueue_kept (M := (· ∈ [.net])) p f (.refl s)).parts .ptp (by simp)

theorem State.ptpPort?_onPtpPort {p : Nat} {q : PtpPort} (h : s.ptpPort? p = some q) {f : PtpPort → PtpPort}
    (hf : ∀ x, (f x).port = x.port := by exact fun _ => rfl) : (s.onPtpPort p f).ptpPort? p = some (f q) :=
  (find?_map_if _ _ _ fun y => by rw [hf]).trans (congrArg (Option.map f) h)

theorem State.ptpPort?_congr {t : State} (h : t.ptp = s.ptp) (p : Nat) : t.ptpPort? p = s.ptpPort? p := by rw [State.ptpPort?, State.ptpPort?, h]

/-- The port takes part in the exchange of peer delays (R441). -/
theorem peerDelay_runs {p : Nat} (runs : s.ptpRuns p) (up : s.portUp p) (on : s.ptp.phase ≠ .off) :
    (s.ptpRuns p && s.portUp p && decide (s.ptp.phase ≠ .off)) = true := by rw [runs, up, decide_eq_true on]; rfl

theorem exec_ptpPdelay_send (s : State) (p : Nat) (q : PtpPort) (h : s.ptpPort? p = some q) (runs : s.ptpRuns p) (up : s.portUp p)
    (on : s.ptp.phase ≠ .off) (due : s.passed q.pdelayAt (logNs s.ptpCfg.logPdelay)) : ∃ t, exec (.ptpPdelay (.send p)) s = .next t ∧
      t.ptpPort? p = some { q with pdelayAt := s.now } ∧ t.net.sent = s.net.sent ++ [.pdelayReq p] ∧ OnlyTouches [.net, .ptp] s t := by
  have all : (s.ptpRuns p && s.portUp p && decide (s.ptp.phase ≠ .off) && s.passed q.pdelayAt (logNs s.ptpCfg.logPdelay)) = true := by
    rw [peerDelay_runs runs up on, due]; rfl
  have run : exec (.ptpPdelay (.send p)) s = .next
      (((s.onPtpPort p fun q => { q with pdelayAt := s.now }).onNet fun n => { n with sent := n.sent ++ [.pdelayReq p] }).sendPeerDelay p) := by
    show execPtpPdelay (.send p) s = _
    unfold execPtpPdelay
    dsimp only
    rw [h]
    exact congrArg _ (if_pos all)
  exact ⟨_, run, (State.ptpPort?_congr (State.enqueue_ptp _ _ _) p).trans (State.ptpPort?_onPtpPort h), State.enqueue_sent _ _ _,
    (execPtpPdelay_kept (.send p) (.refl s)).frame run⟩

theorem exec_ptpPdelay_request (s : State) (p : Nat) (runs : s.ptpRuns p) (up : s.portUp p) (on : s.ptp.phase ≠ .off) :
    ∃ t, exec (.ptpPdelay (.request p)) s = .next t ∧ t.net.sent = s.net.sent ++ [.pdelayResp p] ∧ OnlyTouches [.net] s t := by
  have run : exec (.ptpPdelay (.request p)) s = .next ((s.onNet fun n => { n with sent := n.sent ++ [.pdelayResp p] }).sendPeerDelay p) :=
    congrArg _ (if_pos (peerDelay_runs runs up on))
  have kept : Kept (· ∈ [.net]) s ((s.onNet fun n => { n with sent := n.sent ++ [.pdelayResp p] }).sendPeerDelay p) :=
    State.sendPeerDelay_kept p (State.onNet_kept (.refl s) _)
  exact ⟨_, run, State.enqueue_sent _ _ _, kept.frame⟩

theorem exec_ptpPdelay_done (s : State) (p : Nat) (q : PtpPort) (c : PortCfg) (tOut tIn turn : Sys2Proof.Num) (h : s.ptpPort? p = some q)
    (hc : s.netCfg.port? p = some c) (runs : s.ptpRuns p) (up : s.portUp p) (on : s.ptp.phase ≠ .off) :
    ∃ t, exec (.ptpPdelay (.done p tOut tIn turn)) s = .next t ∧ t.ptpPort? p = some { q with
        meanDelay := some (((tIn - (c.delayIn : Sys2Proof.Num)) - (tOut + (c.delayOut : Sys2Proof.Num)) - turn) / 2) } ∧ OnlyTouches [.ptp] s t := by
  have run : exec (.ptpPdelay (.done p tOut tIn turn)) s = .next (s.onPtpPort p fun q => { q with
      meanDelay := some (((tIn - (c.delayIn : Sys2Proof.Num)) - (tOut + (c.delayOut : Sys2Proof.Num)) - turn) / 2) }) := by
    show execPtpPdelay (.done p tOut tIn turn) s = _
    unfold execPtpPdelay
    dsimp only
    rw [hc, if_pos (peerDelay_runs runs up on)]
    rfl
  have kept : Kept (· ∈ [.ptp]) s (s.onPtpPort p fun q => { q with
      meanDelay := some (((tIn - (c.delayIn : Sys2Proof.Num)) - (tOut + (c.delayOut : Sys2Proof.Num)) - turn) / 2) }) := State.onPtpPort_kept p _ (.refl s)
  exact ⟨_, run, State.ptpPort?_onPtpPort h, kept.frame⟩

/-! ### A master port (R441, R442) -/

theorem State.sendPtp_sent (s : State) (p : Nat) (m : PtpMsg) (f : SentFrame) : (s.sendPtp p m f).net.sent = s.net.sent ++ [f] :=
  State.enqueue_sent _ _ _

theorem State.sendPtp_ptp (s : State) (p : Nat) (m : PtpMsg) (f : SentFrame) : (s.sendPtp p m f).ptp = s.ptp := State.enqueue_ptp _ _ _

/-- The Announce of a boundary clock's port (R442). -/
def State.bcAnnounce (s : State) (p k : Nat) : Announce :=
  { s.ptp.parent.getD { gmId := s.ptp.gmId } with
    clockClass := k, steps := s.ptp.gmSteps + 1, inacc := s.ptp.gmInacc.map (· + 50), domain := s.ptpCfg.domain, interval := secs 1
    sender := Config.ownPort p }

/-- A master port once its Announce is out (R441). -/
def State.announced (s : State) (p k : Nat) : State :=
  (s.onPtpPort p fun q => { q with announceAt := s.now }).sendPtp p (.announce (s.bcAnnounce p k))
    (.announce p k (s.ptp.gmSteps + 1) (s.ptp.gmInacc.map (· + 50)))

/-- A master port once its Sync is out (R441). -/
def State.synced (s : State) (p : Nat) : State := (s.onPtpPort p fun q => { q with syncAt := s.now }).sendPtp p (.sync 0 0 false 0) (.sync p)

theorem State.announced_kept (s : State) (p k : Nat) : Kept (· ∈ [.net, .ptp]) s (s.announced p k) :=
  State.sendPtp_kept _ _ _ (State.onPtpPort_kept p _ (.refl s))

theorem State.synced_kept (s : State) (p : Nat) : Kept (· ∈ [.net, .ptp]) s (s.synced p) :=
  State.sendPtp_kept _ _ _ (State.onPtpPort_kept p _ (.refl s))

theorem exec_ptpSend {p k : Nat} {q : PtpPort} (h : s.ptpPort? p = some q) (hk : s.bcClass = some k) (role : s.ptpCfg.role = .bc)
    (master : q.portState = 6) (up : s.portUp p) (announce : s.passed q.announceAt (secs 1)) (sync : s.passed q.syncAt (logNs s.ptpCfg.logSync)) :
    exec (.ptpSend p) s = .next ((s.announced p k).synced p) := by
  have on : ¬(!(s.ptpCfg.role = .bc && q.portState = 6 && s.portUp p)) = true := by rw [role, master, up]; decide
  have first (f : State → State) : s.when (s.passed q.announceAt (secs 1)) f = f s := by rw [announce, State.when_true]
  have still : (s.announced p k).passed q.syncAt (logNs (s.announced p k).ptpCfg.logSync) = true := by
    have manifest : (s.announced p k).manifest = s.manifest := (s.announced_kept p k).parts .manifest (by simp)
    have now : (s.announced p k).now = s.now := (s.announced_kept p k).parts .now (by simp)
    unfold State.passed State.ptpCfg State.netCfg
    rw [manifest, now]
    exact sync
  have second (f : State → State) : (s.announced p k).when ((s.announced p k).passed q.syncAt (logNs (s.announced p k).ptpCfg.logSync)) f =
      f (s.announced p k) := by rw [still, State.when_true]
  show execPtpSend p s = _
  unfold execPtpSend
  rw [h, hk]
  dsimp only
  rw [if_neg on, first]
  exact congrArg _ (second _)

theorem exec_ptpSend_sends (s : State) (p k : Nat) (q : PtpPort) (h : s.ptpPort? p = some q) (hk : s.bcClass = some k) (role : s.ptpCfg.role = .bc)
    (master : q.portState = 6) (up : s.portUp p) (announce : s.passed q.announceAt (secs 1)) (sync : s.passed q.syncAt (logNs s.ptpCfg.logSync)) :
    ∃ t, exec (.ptpSend p) s = .next t ∧ t.ptpPort? p = some { q with announceAt := s.now, syncAt := s.now } ∧
      t.net.sent = s.net.sent ++ [.announce p k (s.ptp.gmSteps + 1) (s.ptp.gmInacc.map (· + 50)), .sync p] ∧ OnlyTouches [.net, .ptp] s t := by
  have out : (s.announced p k).ptpPort? p = some { q with announceAt := s.now } :=
    (State.ptpPort?_congr (State.sendPtp_ptp _ _ _ _) p).trans (State.ptpPort?_onPtpPort h)
  have sent : (s.announced p k).net.sent = s.net.sent ++ [.announce p k (s.ptp.gmSteps + 1) (s.ptp.gmInacc.map (· + 50))] := State.sendPtp_sent _ _ _ _
  have now : (s.announced p k).now = s.now := (s.announced_kept p k).parts .now (by simp)
  have kept := (s.announced_kept p k).trans ((s.announced p k).synced_kept p)
  refine ⟨_, exec_ptpSend h hk role master up announce sync, ?_, ?_, kept.frame⟩
  · rw [← now]
    exact (State.ptpPort?_congr (State.sendPtp_ptp _ _ _ _) p).trans (State.ptpPort?_onPtpPort (now ▸ out))
  · refine (State.sendPtp_sent _ _ _ _).trans ?_
    rw [State.onPtpPort, State.onPtp_net, sent, List.append_assoc]
    rfl

theorem exec_holdoverStart_holds (s : State) (tracks : s.ptp.phase = .tracking) (late : s.passed s.ptp.syncAt (3 * logNs s.ptp.logSync)) :
    ∃ t, exec .holdoverStart s = .next t ∧ t.ptp.phase = .holdover ∧ t.ptp.holdSince = s.now ∧ t.ptp.servoPpm = s.meanRate ∧
      t.ptp.event = s.ptp.event.raise 2 ∧ t.log = (s.report .holdoverStart).log ∧ OnlyTouches [.log, .ptp] s t := by
  have run : exec .holdoverStart s = .next s.enterHoldover := by
    show execHoldoverStart s = _
    rw [execHoldoverStart, if_neg (not_not.mpr tracks), late]
    rfl
  exact ⟨_, run, rfl, rfl, rfl, rfl, rfl, (execHoldoverStart_kept (.refl s)).frame run⟩

theorem exec_ptpFree_frees (s : State) (holds : s.ptp.phase = .holdover) (late : s.passed s.ptp.holdSince s.ptpCfg.holdoverMax) :
    ∃ t, exec .ptpFree s = .next t ∧ t.ptp = { s.ptp with phase := .free, event := s.ptp.event.raise 4 } ∧ t.log = (s.report .ptpFree).log ∧
      OnlyTouches [.log, .ptp] s t := by
  have run : exec .ptpFree s = .next (((s.onPtp fun x => { x with phase := .free }).raise .ptp 4).report .ptpFree) := by
    show execPtpFree s = _
    rw [execPtpFree, holds, late]
    rfl
  exact ⟨_, run, rfl, rfl, (execPtpFree_kept (.refl s)).frame run⟩

/-- Settles O39, clause by clause. -/
theorem plantTimeLocksMeasuresAndHolds : Obligations.PlantTimeLocksMeasuresAndHolds :=
  ⟨exec_ptpLockChange_clears, exec_ptpLockChange_sets, exec_ptpFollowupLost_forgets, exec_ptpPdelay_send, exec_ptpPdelay_request, exec_ptpPdelay_done,
    exec_ptpSend_sends, exec_holdoverStart_holds, exec_ptpFree_frees⟩

end Sys2Proof.Machine
end

section
/-! SUPPORT. GOOSE subscriptions (spec/13_network_and_time.md R450, R451, R454). -/

namespace Sys2Proof.Machine

set_option Elab.async false

open Sys2Proof

variable {s : State}

/-! ### Subscriptions by number -/

theorem State.gsub?_onGsub {i : Nat} {g : Gsub} (h : s.gsub? i = some g) {f : Gsub → Gsub} (hf : ∀ x, (f x).sub = x.sub := by exact fun _ => rfl) :
    (s.onGsub i f).gsub? i = some (f g) :=
  (find?_map_if _ _ _ fun y => by rw [hf]).trans (congrArg (Option.map f) h)

theorem State.gsub?_congr {t : State} (h : t.net = s.net) (i : Nat) : t.gsub? i = s.gsub? i := by rw [State.gsub?, State.gsub?, h]

theorem State.gooseChange_net (s : State) (i : Nat) (a b : List MemberVal) : (s.gooseChange i a b).net = s.net :=
  (State.gooseChange_kept (M := (· ∉ [.net])) i a b (.refl s)).parts .net (by simp)

/-- A subscription is INVALID after it became so, or was so already (R451). -/
theorem State.gooseInvalid_invalid {i : Nat} {g : Gsub} (h : s.gsub? i = some g) : (s.gooseInvalid i).gsub? i = some { g with valid := false } := by
  unfold State.gooseInvalid
  rw [h, Option.any_some]
  split
  · exact (State.gsub?_congr ((State.captMetAll_kept (M := (· ∈ [.capt])) _ _ (.refl _)).parts .net (by simp)) i).trans (State.gsub?_onGsub h)
  · next invalid =>
    rw [h, ← Bool.eq_false_iff.mpr invalid]

theorem State.gooseInvalid_event (s : State) (i : Nat) : (s.gooseInvalid i).net.event = s.net.event := by
  unfold State.gooseInvalid
  split
  · exact (congrArg NetState.event ((State.captMetAll_kept (M := (· ∈ [.capt])) _ _ (.refl _)).parts .net (by simp))).trans rfl
  · rfl

theorem State.gooseInvalid_log (s : State) (i : Nat) : (s.gooseInvalid i).log = s.log ∧ (s.gooseInvalid i).ltc = s.ltc :=
  have kept : Kept (· ∈ [.capt, .net]) s (s.gooseInvalid i) := State.gooseInvalid_kept i (.refl s)
  ⟨kept.parts .log (by simp), kept.parts .ltc (by simp)⟩

/-! ### Frames (R450, R451, R454) -/

section
variable {f : GooseFrame} {c : GooseSub} {g : Gsub}

theorem exec_gooseFrameRx_admitted {b : Bucket} (intake : s.net.intakeOpen)
    (hc : s.netCfg.gooseSubs.find? (fun c => c.dst == f.dst && c.appid == f.appid && c.gocbRef == f.gocbRef) = some c) (h : s.gsub? c.sub = some g)
    (hb : (g.bucket.refill s.now c.rate 32).take = some b) : exec (.gooseFrameRx f) s = .next
      (if !c.agrees f then
        let t := (((s.onGsub c.sub fun g => { g with bucket := b }).gooseInvalid c.sub).onGsub c.sub fun g => { g with cfgBad := true, anyNext := true }).raise .net 5
        if g.cfgBad then t else t.report .netGooseConfig c.sub
      else ((s.onGsub c.sub fun g => { g with bucket := b }).onGsub c.sub fun g => { g with cfgBad := false }).gooseTake c g f) := by
  show execGooseFrameRx f s = _
  rw [execGooseFrameRx, intake, if_neg (by decide), hc]
  dsimp only
  rw [h]
  dsimp only
  rw [hb]

/-- A test or simulation frame is taken only where the subscription says so (R451). -/
theorem taken_of_accepts (test : f.test → c.testAccept) (sim : f.simulation → c.simAccept) :
    ¬((f.test && !c.testAccept) || (f.simulation && !c.simAccept)) = true := by
  cases ht : f.test <;> cases hs : f.simulation <;> simp_all

theorem newer_self (a : BitVec 32) : newer a a = false := by simp [newer]

theorem exec_gooseFrameRx_changes {b : Bucket} (intake : s.net.intakeOpen)
    (hc : s.netCfg.gooseSubs.find? (fun c => c.dst == f.dst && c.appid == f.appid && c.gocbRef == f.gocbRef) = some c) (h : s.gsub? c.sub = some g)
    (hb : (g.bucket.refill s.now c.rate 32).take = some b) (agrees : c.agrees f) (test : f.test → c.testAccept) (sim : f.simulation → c.simAccept)
    (change : g.anyNext ∨ newer f.stNum g.stNum) :
      ∃ t h, exec (.gooseFrameRx f) s = .next t ∧ t.gsub? c.sub = some h ∧ h.values = c.read f ∧ h.valid = true ∧ h.stNum = f.stNum ∧
        h.sqNum = f.sqNum ∧ h.tal = f.tal ∧ h.lastRx = some s.now ∧ h.talExpired = false ∧ h.cfgBad = false ∧ h.bucket = b ∧
        OnlyTouches [.prot, .logic, .capt, .log, .net, .host] s t := by
  have run := exec_gooseFrameRx_admitted intake hc h hb
  have due : (g.anyNext || newer f.stNum g.stNum) = true := Bool.or_eq_true_iff.mpr change
  rw [agrees, if_neg (by decide), State.gooseTake, if_neg (taken_of_accepts test sim), if_pos due] at run
  have kept : Kept (· ∈ [.prot, .logic, .capt, .log, .net, .host]) s _ := (execGooseFrameRx_kept f (.refl s)) _ run
  exact ⟨_, _, run, (State.gsub?_congr (State.gooseChange_net _ _ _ _) _).trans (State.gsub?_onGsub (State.gsub?_onGsub (State.gsub?_onGsub h))), rfl, rfl,
    rfl, rfl, rfl, rfl, rfl, rfl, rfl, kept.frame⟩

theorem exec_gooseFrameRx_repeats {b : Bucket} (intake : s.net.intakeOpen)
    (hc : s.netCfg.gooseSubs.find? (fun c => c.dst == f.dst && c.appid == f.appid && c.gocbRef == f.gocbRef) = some c) (h : s.gsub? c.sub = some g)
    (hb : (g.bucket.refill s.now c.rate 32).take = some b) (agrees : c.agrees f) (test : f.test → c.testAccept) (sim : f.simulation → c.simAccept)
    (settled : g.anyNext = false) (same : f.stNum = g.stNum) (next : newer f.sqNum g.sqNum) :
      ∃ t h, exec (.gooseFrameRx f) s = .next t ∧ t.gsub? c.sub = some h ∧ h.values = g.values ∧ h.valid = g.valid ∧ h.sqNum = f.sqNum ∧
        h.lastRx = some s.now ∧ h.discarded = g.discarded ∧ OnlyTouches [.net] s t := by
  have run := exec_gooseFrameRx_admitted intake hc h hb
  have still : ¬(g.anyNext || newer f.stNum g.stNum) = true := by rw [settled, same, newer_self]; decide
  have again : ((f.stNum = g.stNum) && newer f.sqNum g.sqNum) = true := by rw [decide_eq_true same, next]; rfl
  rw [agrees, if_neg (by decide), State.gooseTake, if_neg (taken_of_accepts test sim), if_neg still, if_pos again] at run
  have kept : Kept (· ∈ [.net]) s (((s.onGsub c.sub fun g => { g with bucket := b }).onGsub c.sub fun g => { g with cfgBad := false }).onGsub c.sub fun g =>
      g.accept f s.now s.ts32) := State.onGsub_kept _ _ (State.onGsub_kept _ _ (State.onGsub_kept _ _ (.refl s)))
  exact ⟨_, _, run, State.gsub?_onGsub (State.gsub?_onGsub (State.gsub?_onGsub h)), rfl, rfl, rfl, rfl, rfl, kept.frame⟩

theorem exec_gooseFrameRx_disagrees {b : Bucket} (intake : s.net.intakeOpen)
    (hc : s.netCfg.gooseSubs.find? (fun c => c.dst == f.dst && c.appid == f.appid && c.gocbRef == f.gocbRef) = some c) (h : s.gsub? c.sub = some g)
    (hb : (g.bucket.refill s.now c.rate 32).take = some b) (bad : c.agrees f = false) :
    ∃ t h, exec (.gooseFrameRx f) s = .next t ∧ t.gsub? c.sub = some h ∧ h.valid = false ∧ h.cfgBad = true ∧
      h.anyNext = true ∧ h.values = g.values ∧ t.net.event = s.net.event.raise 5 ∧ OnlyTouches [.capt, .log, .net] s t := by
  have run := exec_gooseFrameRx_admitted intake hc h hb
  rw [bad, if_pos (by decide)] at run
  let u : State := (s.onGsub c.sub fun g => { g with bucket := b }).gooseInvalid c.sub
  let t : State := (u.onGsub c.sub fun g => { g with cfgBad := true, anyNext := true }).raise .net 5
  have here : t.gsub? c.sub = some { g with bucket := b, valid := false, cfgBad := true, anyNext := true } :=
    State.gsub?_onGsub (State.gooseInvalid_invalid (State.gsub?_onGsub h))
  have event : t.net.event = s.net.event.raise 5 := congrArg (W1C.raise · 5) (State.gooseInvalid_event _ c.sub)
  have kept : Kept (· ∈ [.capt, .log, .net]) s t :=
    State.raise_kept .net 5 (State.onGsub_kept _ _ (State.gooseInvalid_kept _ (State.onGsub_kept _ _ (.refl s))))
  by_cases known : g.cfgBad
  · exact ⟨t, _, run.trans (congrArg _ (if_pos known)), here, rfl, rfl, rfl, rfl, event, kept.frame⟩
  · exact ⟨t.report .netGooseConfig c.sub, _, run.trans (congrArg _ (if_neg known)), here, rfl, rfl, rfl, rfl, event, (State.report_kept _ _ _ kept).frame⟩

theorem exec_gooseFrameRx_overRate (intake : s.net.intakeOpen)
    (hc : s.netCfg.gooseSubs.find? (fun c => c.dst == f.dst && c.appid == f.appid && c.gocbRef == f.gocbRef) = some c) (h : s.gsub? c.sub = some g)
    (hb : (g.bucket.refill s.now c.rate 32).take = none) : ∃ t h, exec (.gooseFrameRx f) s = .next t ∧ t.gsub? c.sub = some h ∧
      h.rateRefused = satInc 16 g.rateRefused ∧ h.values = g.values ∧ h.lastRx = g.lastRx ∧ t.net.rateGoose = satInc 16 s.net.rateGoose ∧
      t.net.event = s.net.event.raise 8 ∧ OnlyTouches [.log, .net] s t := by
  let u : State := (s.onGsub c.sub fun x => { x with
    bucket := { g.bucket.refill s.now c.rate 32 with refusedAt := some s.now }, rateRefused := satInc 16 x.rateRefused }).onNet fun n =>
      { n with rateGoose := satInc 16 n.rateGoose }
  have run : exec (.gooseFrameRx f) s = .next (u.rateRefused c.sub false ((g.bucket.refill s.now c.rate 32).newEpisode s.now)) := by
    show execGooseFrameRx f s = _
    rw [execGooseFrameRx, intake, if_neg (by decide), hc]
    dsimp only
    rw [h]
    dsimp only
    rw [hb]
    rfl
  have net (x : Bool) : (u.rateRefused c.sub false x).net = (u.raise .net 8).net := by cases x <;> rfl
  have here : u.gsub? c.sub = _ := State.gsub?_onGsub h
  have kept : Kept (· ∈ [.log, .net]) s (u.rateRefused c.sub false ((g.bucket.refill s.now c.rate 32).newEpisode s.now)) :=
    State.rateRefused_kept _ _ _ (State.onNet_kept (State.onGsub_kept _ _ (.refl s)) _)
  exact ⟨_, _, run, (State.gsub?_congr (s := u.raise .net 8) (net _) c.sub).trans here, rfl, rfl, rfl, (congrArg NetState.rateGoose (net _) :),
    (congrArg NetState.event (net _) :), kept.frame⟩

end

theorem exec_gooseTalExpired_invalidates (s : State) (n : Nat) (g : Gsub) (h : s.gsub? n = some g) (late : s.passedSince g.lastRx g.tal)
    (first : g.talExpired = false) : ∃ t, exec (.gooseTalExpired n) s = .next t ∧
      t.gsub? n = some { g with valid := false, talExpired := true, anyNext := true } ∧
      t.net.event = s.net.event.raise 6 ∧ t.log = (s.report .netGooseTal n).log ∧ OnlyTouches [.capt, .log, .net] s t := by
  have run : exec (.gooseTalExpired n) s = .next
      ((((s.gooseInvalid n).onGsub n fun g => { g with talExpired := true, anyNext := true }).raise .net 6).report .netGooseTal n) := by
    show execGooseTalExpired n s = _
    rw [execGooseTalExpired, h]
    dsimp only
    rw [late, first]
    rfl
  have frame : OnlyTouches [.capt, .log, .net] s _ := (execGooseTalExpired_kept n (.refl s)).frame run
  have here := State.gooseInvalid_invalid h
  have event := s.gooseInvalid_event n
  obtain ⟨log, ltc⟩ := s.gooseInvalid_log n
  generalize s.gooseInvalid n = u at run frame here event log ltc
  refine ⟨_, run, State.gsub?_onGsub here, congrArg (W1C.raise · 6) event, ?_, frame⟩
  simp [State.report_log, State.onGsub, log, ltc]

/-- Settles O40, clause by clause. -/
theorem gooseFramesReplaceValues : Obligations.GooseFramesReplaceValues :=
  ⟨fun _ _ _ _ _ intake hc h hb => ⟨exec_gooseFrameRx_changes intake hc h hb, exec_gooseFrameRx_repeats intake hc h hb,
    exec_gooseFrameRx_disagrees intake hc h hb⟩, fun _ _ _ _ => exec_gooseFrameRx_overRate, fun _ _ closed => congrArg _ (if_pos (by rw [closed]; rfl)),
    exec_gooseTalExpired_invalidates⟩

end Sys2Proof.Machine
end

section
/-! SUPPORT. The CHK engines (spec/14_check_values.md R473 to R475, R478). -/

namespace Sys2Proof.Machine

set_option Elab.async false

open Sys2Proof

variable {s : State}

/-! ### Engines by number -/

theorem State.chkEngine_of {n : Nat} {x : ChkEngine} (h : s.chk.engines[n]? = some x) : s.chkEngine n = x := by
  rw [State.chkEngine, nth, h, Option.getD_some]

theorem State.onChkEngine_self {n : Nat} {x : ChkEngine} (h : s.chk.engines[n]? = some x) (f : ChkEngine → ChkEngine) :
    (s.onChkEngine n f).chk.engines[n]? = some (f x) := by
  simp [State.onChkEngine, updAt, h]

theorem State.onChkEngine_ne {k n : Nat} (h : k ≠ n) (f : ChkEngine → ChkEngine) : (s.onChkEngine n f).chk.engines[k]? = s.chk.engines[k]? := by
  simp [State.onChkEngine, updAt, Ne.symm h]

theorem State.onChkEngine_frame (s : State) (n : Nat) (f : ChkEngine → ChkEngine) : OnlyTouches [.chk] s (s.onChkEngine n f) :=
  (State.onChkEngine_kept n f (.refl s)).frame

/-! ### GO (R474, R478) -/

/-- The bits of a CTRL write that the engine keeps; GO is none of them (R478). -/
theorem ctrl_kept (v : Word) : (v ||| 1) &&& 0x1E = v &&& 0x1E := by
  ext i
  simp only [BitVec.getElem_and, BitVec.getElem_or]
  by_cases h : i = 0
  · subst h; simp
  · have one : (1 : Word)[i] = false := by simp [BitVec.getElem_one, h]
    rw [one, Bool.or_false]

/-- Neither ALG nor CONTINUE is the bit of GO (R478). -/
theorem ChkEngine.alg_go (x : ChkEngine) : ({ x with ctrl := x.ctrl ||| 1 } : ChkEngine).alg = x.alg := by
  have bits : (x.ctrl ||| 1).extractLsb' 1 2 = x.ctrl.extractLsb' 1 2 := by
    rw [BitVec.extractLsb'_or, show (1 : Word).extractLsb' 1 2 = 0#2 from rfl, BitVec.or_zero]
  unfold ChkEngine.alg
  dsimp only
  rw [bits]

theorem ChkEngine.continues_go (x : ChkEngine) : ({ x with ctrl := x.ctrl ||| 1 } : ChkEngine).continues = x.continues := by
  unfold ChkEngine.continues
  dsimp only
  rw [BitVec.getLsbD_or, show (1 : Word).getLsbD 4 = false from rfl, Bool.or_false]

theorem exec_chkEGo {n : Nat} {x : ChkEngine} (v : Word) (hn : n < 8) (h : s.chk.engines[n]? = some x) (idle : x.busy = false) :
    exec (.chkEGo n v) s = .next (s.onChkEngine n fun e => { e with ctrl := v &&& 0x1E }.go) := by
  have go : (v ||| 1).getLsbD 0 = true := by rw [BitVec.getLsbD_or, show (1 : Word).getLsbD 0 = true from rfl, Bool.or_true]
  show execChkEGo n v s = _
  rw [execChkEGo, State.chkWrite, if_neg (not_le.mpr hn), State.chkEngine_of h, idle, Bool.false_and, if_neg Bool.false_ne_true]
  simp only [if_true, go, ctrl_kept]

theorem exec_chkEGo_starts (s : State) (n : Nat) (v : Word) (x : ChkEngine) (hn : n < 8) (h : s.chk.engines[n]? = some x) (idle : x.busy = false)
    (filled : x.len.toNat ≠ 0) (bounded : x.len.toNat ≤ 2 ^ 30) :
    ∃ t y, exec (.chkEGo n v) s = .next t ∧ t.chk.engines[n]? = some y ∧ y.busy = true ∧ y.done = false ∧ y.err = .none ∧ y.ctrl = v &&& 0x1E ||| 1 ∧
      y.start = (if y.continues then x.raw.toNat % 2 ^ y.alg.width else y.alg.init) ∧ y.result = x.result ∧
      (∀ k, k ≠ n → t.chk.engines[k]? = s.chk.engines[k]?) ∧ OnlyTouches [.chk] s t := by
  let c : ChkEngine := { x with ctrl := v &&& 0x1E }
  let y : ChkEngine := { c with
    ctrl := c.ctrl ||| 1, busy := true, done := false, err := .none, start := if c.continues then c.raw.toNat % 2 ^ c.alg.width else c.alg.init }
  have run : c.go = y := if_neg fun k => k.elim filled (not_lt.mpr bounded)
  have alg : y.alg = c.alg := c.alg_go
  have continues : y.continues = c.continues := c.continues_go
  refine ⟨_, y, exec_chkEGo v hn h idle, (State.onChkEngine_self h _).trans (congrArg _ run), rfl, rfl, rfl, rfl, ?_, rfl,
    fun k hk => State.onChkEngine_ne hk _, State.onChkEngine_frame _ _ _⟩
  rw [alg, continues]

theorem exec_chkEGo_range (s : State) (n : Nat) (v : Word) (x : ChkEngine) (hn : n < 8) (h : s.chk.engines[n]? = some x) (idle : x.busy = false)
    (bad : x.len.toNat = 0 ∨ 2 ^ 30 < x.len.toNat) : ∃ t y, exec (.chkEGo n v) s = .next t ∧ t.chk.engines[n]? = some y ∧ y.busy = false ∧
      y.done = true ∧ y.err = .range ∧ y.result = x.result ∧ OnlyTouches [.chk] s t := by
  have go : ∃ y, ({ x with ctrl := v &&& 0x1E } : ChkEngine).go = ChkEngine.finish y .range ∧ y.result = x.result := ⟨_, if_pos bad, rfl⟩
  obtain ⟨y, ended, result⟩ := go
  exact ⟨_, y.finish .range, exec_chkEGo v hn h idle, (State.onChkEngine_self h _).trans (congrArg _ ended), rfl, rfl, rfl, result,
    State.onChkEngine_frame _ _ _⟩

theorem exec_chkEGo_busy (s : State) (n : Nat) (v : Word) (x : ChkEngine) (hn : n < 8) (h : s.chk.engines[n]? = some x) (busy : x.busy) :
    ∃ t, exec (.chkEGo n v) s = .next t ∧
      t.chk = { s.chk with busyWr := satInc 16 s.chk.busyWr, busyWrEngine := n, event := s.chk.event.raise 3 } ∧ OnlyTouches [.chk] s t := by
  have run : exec (.chkEGo n v) s = .next (s.chkBusyWrite n) := by
    show execChkEGo n v s = _
    rw [execChkEGo, State.chkWrite, if_neg (not_le.mpr hn), State.chkEngine_of h, busy]
    rfl
  exact ⟨_, run, rfl, (execChkEGo_kept n v (.refl s)).frame run⟩

/-! ### The end of a run (R474) -/

theorem exec_chkEDone_result (s : State) (n : Nat) (l : List (BitVec 8)) (x : ChkEngine) (h : s.chk.engines[n]? = some x) (busy : x.busy)
    (host : x.fromCapture = false) (long : x.len.toNat ≤ l.length) :
    ∃ t y, exec (.chkEDone { n := n, bytes := l }) s = .next t ∧ t.chk.engines[n]? = some y ∧ y.busy = false ∧
      y.done = true ∧ y.err = .none ∧ y.result = BitVec.ofNat 32 (x.alg.finish (x.alg.feed x.start (l.take x.len.toNat))) ∧
      y.raw = BitVec.ofNat 32 (x.alg.feed x.start (l.take x.len.toNat)) ∧ (∀ k, k ≠ n → t.chk.engines[k]? = s.chk.engines[k]?) ∧
      OnlyTouches [.chk] s t := by
  have run : exec (.chkEDone { n := n, bytes := l }) s = .next (s.onChkEngine n fun e => { e.finish .none with
      raw := BitVec.ofNat 32 (x.alg.feed x.start (l.take x.len.toNat))
      result := BitVec.ofNat 32 (e.alg.finish (x.alg.feed x.start (l.take x.len.toNat))) }) := by
    show execChkEDone _ s = _
    simp only [execChkEDone, State.chkEngine_of h, busy, host, ChkEngine.outside, Bool.not_true, Bool.false_and, Bool.false_eq_true, if_false, ne_eq,
      not_true_eq_false, Bool.not_false, Bool.true_and, decide_eq_false (not_lt.mpr long)]
  exact ⟨_, _, run, State.onChkEngine_self h _, rfl, rfl, rfl, rfl, rfl, fun k hk => State.onChkEngine_ne hk _, State.onChkEngine_frame _ _ _⟩

theorem exec_chkEDone_error (s : State) (n : Nat) (l : List (BitVec 8)) (e : ChkErr) (x : ChkEngine) (h : s.chk.engines[n]? = some x) (busy : x.busy)
    (inside : x.outside = false) (bad : e ≠ .none) :
    ∃ t y, exec (.chkEDone { n := n, bytes := l, err := e }) s = .next t ∧ t.chk.engines[n]? = some y ∧ y.busy = false ∧ y.done = true ∧
      y.err = e ∧ y.result = x.result ∧ OnlyTouches [.chk] s t := by
  have run : exec (.chkEDone { n := n, bytes := l, err := e }) s = .next (s.onChkEngine n fun y => y.finish e) := by
    show execChkEDone _ s = _
    simp only [execChkEDone, State.chkEngine_of h, busy, inside, Bool.not_true, Bool.false_eq_true, if_false, if_pos bad]
  exact ⟨_, _, run, State.onChkEngine_self h _, rfl, rfl, rfl, rfl, State.onChkEngine_frame _ _ _⟩

/-! ### The known answer (R475) -/

theorem exec_chkKat_passes (s : State) (up : s.sys.held = false) (due : s.passed s.chk.katAt (secs 1)) : ∃ t, exec (.chkKat {}) s = .next t ∧
    t.chk.katOk = true ∧ t.chk.katAt = s.now ∧ t.chk.engines = s.chk.engines ∧ t.chk.event = s.chk.event ∧ OnlyTouches [.log, .chk, .diag] s t := by
  have run : exec (.chkKat {}) s = .next (s.chkKat []) := by
    show execChkKat {} s = _
    rw [execChkKat, up, due]
    rfl
  have chk : (s.chkKat []).chk = { s.chk with katOk := true, katAt := s.now } :=
    (State.testResult_kept (M := (· ∉ [.chk])) .chk 0 true (.refl _)).parts .chk (by simp)
  refine ⟨_, run, ?_, ?_, ?_, ?_, (execChkKat_kept {} (.refl s)).frame run⟩ <;> rw [chk]

/-- Settles O42, clause by clause. -/
theorem chkEnginesRunToTheirResult : Obligations.ChkEnginesRunToTheirResult :=
  ⟨exec_chkEGo_starts, exec_chkEGo_range, exec_chkEGo_busy, exec_chkEDone_result, exec_chkEDone_error, exec_chkKat_passes⟩

end Sys2Proof.Machine
end

section
/-! SUPPORT. Adeid links: training, falling, LINK and TOPO frames, reachability (spec/15_host_cluster_berths.md R497, R498, R500, R501). -/

namespace Sys2Proof.Machine

set_option Elab.async false

open Sys2Proof

variable {s : State}

/-! ### Links by number -/

theorem State.link_onLink_self {q : Nat} (h : q < s.adeid.links.length) (f : AdeidLink → AdeidLink) : (s.onLink q f).link q = f (s.link q) :=
  nth_updAt_self _ _ _ _ h

theorem State.link_onLink_ne {k q : Nat} (h : k ≠ q) (f : AdeidLink → AdeidLink) : (s.onLink q f).link k = s.link k :=
  nth_updAt_ne _ _ _ _ _ (Ne.symm h)

theorem State.onLink_touches (q : Nat) (f : AdeidLink → AdeidLink) : OnlyTouches [.adeid] s (s.onLink q f) :=
  (State.onLink_kept q f (.refl s)).frame

theorem State.link_congr {t : State} (h : t.adeid.links = s.adeid.links) (q : Nat) : t.link q = s.link q := by rw [State.link, State.link, h]

theorem State.linkUp_congr {t : State} (h : t.adeid.links = s.adeid.links) (q : Nat) : t.linkUp q = s.linkUp q := by
  rw [State.linkUp, State.linkUp, State.link_congr h]

/-- A link that is up is one of the four. -/
theorem State.linkUp_lt {q : Nat} (h : s.linkUp q) : q < s.adeid.links.length := by
  by_contra k
  rw [State.linkUp, State.link, nth, List.getElem?_eq_none (not_lt.mp k)] at h
  cases h

/-! ### Frames that join an egress (R495, R497) -/

theorem State.adeidPut_link (s : State) (q r : Nat) (f : AdeidFrame) : ∃ e, (s.adeidPut q f).link r = { s.link r with egress := e } := by
  by_cases hr : r = q
  · subst hr
    by_cases h : r < s.adeid.links.length
    · exact ⟨_, State.link_onLink_self h _⟩
    · exact ⟨_, nth_updAt_out _ _ _ _ _ (not_lt.mp h)⟩
  · exact ⟨_, State.link_onLink_ne hr _⟩

/-- Where a frame of this node goes: out of a link that is up, or nowhere (R495, R501). -/
theorem State.adeidOwn_cases (s : State) (q : Nat) (f : AdeidFrame) :
    s.linkUp q = true ∧ s.adeidOwn q f = s.adeidPut q { f with secondary := decide (2 ≤ q) } ∨
    s.linkUp q = false ∧ s.linkUp (otherLink q) = true ∧ (∃ g, s.adeidOwn q f =
      (s.onAdeid fun a => { a with wraps := satInc 32 a.wraps }).adeidPut (otherLink q) g) ∨
    s.linkUp q = false ∧ s.adeidOwn q f = s := by
  cases up : s.linkUp q with
  | true => exact .inl ⟨rfl, if_pos up⟩
  | false =>
    cases other : s.linkUp (otherLink q) with
    | true => exact .inr (.inl ⟨rfl, rfl, _, (if_neg (by rw [up]; decide)).trans (if_pos other)⟩)
    | false => exact .inr (.inr ⟨rfl, (if_neg (by rw [up]; decide)).trans (if_neg (by rw [other]; decide))⟩)

/-- What a frame of this node leaves of ADEID (R497). -/
theorem State.adeidOwn_adeid (s : State) (q : Nat) (f : AdeidFrame) : ∃ l w, (s.adeidOwn q f).adeid = { s.adeid with links := l, wraps := w } := by
  obtain ⟨-, eq⟩ | ⟨-, -, g, eq⟩ | ⟨-, eq⟩ := s.adeidOwn_cases q f
  · exact ⟨_, s.adeid.wraps, by rw [eq]; rfl⟩
  · exact ⟨_, _, by rw [eq]; rfl⟩
  · exact ⟨s.adeid.links, s.adeid.wraps, by rw [eq]⟩

theorem State.adeidOwn_link (s : State) (q r : Nat) (f : AdeidFrame) : ∃ e, (s.adeidOwn q f).link r = { s.link r with egress := e } := by
  obtain ⟨-, eq⟩ | ⟨-, -, g, eq⟩ | ⟨-, eq⟩ := s.adeidOwn_cases q f
  · rw [eq]; exact s.adeidPut_link q r _
  · rw [eq]; exact State.adeidPut_link _ (otherLink q) r g
  · exact ⟨(s.link r).egress, by rw [eq]⟩

theorem State.adeidOwn_link_down (s : State) (q : Nat) {r : Nat} (down : s.linkUp r = false) (f : AdeidFrame) : (s.adeidOwn q f).link r = s.link r := by
  have apart {k : Nat} (h : s.linkUp k = true) : r ≠ k := by
    rintro rfl
    rw [down] at h
    cases h
  obtain ⟨up, eq⟩ | ⟨-, up, g, eq⟩ | ⟨-, eq⟩ := s.adeidOwn_cases q f
  · rw [eq]; exact State.link_onLink_ne (apart up) _
  · rw [eq]; exact State.link_onLink_ne (apart up) _
  · rw [eq]

theorem State.adeidOwn_linkUp (s : State) (q r : Nat) (f : AdeidFrame) : (s.adeidOwn q f).linkUp r = s.linkUp r := by
  obtain ⟨e, link⟩ := s.adeidOwn_link q r f
  rw [State.linkUp, link]
  rfl

/-! ### TOPO (R501) -/

/-- The counter and the time of TOPO as a node broadcasts it (R501). -/
def State.topoCounted (s : State) : State := s.onAdeid fun a => { a with topoSeq := wrapInc 32 a.topoSeq, topoAt := s.now }

def State.topoFrame (s : State) : AdeidFrame :=
  { alive := 0, bcast := true, dst := 0, src := s.adeid.node, payload := some (.topo (wrapInc 32 s.adeid.topoSeq) ((List.range 4).map s.linkUp)) }

theorem State.sendTopo_eq (clustered : s.clustered) : s.sendTopo = (s.topoCounted.adeidOwn 0 s.topoFrame).adeidOwn 2 s.topoFrame := by
  have there : ¬(!s.clustered) = true := by rw [clustered]; decide
  exact if_neg there

/-- What TOPO leaves of ADEID (R501). -/
theorem State.sendTopo_adeid (s : State) : ∃ l w n a, s.sendTopo.adeid = { s.adeid with links := l, wraps := w, topoSeq := n, topoAt := a } := by
  cases clustered : s.clustered with
  | false => exact ⟨s.adeid.links, s.adeid.wraps, s.adeid.topoSeq, s.adeid.topoAt, by rw [State.sendTopo, clustered]; rfl⟩
  | true =>
    obtain ⟨l, w, first⟩ := s.topoCounted.adeidOwn_adeid 0 s.topoFrame
    obtain ⟨m, v, second⟩ := (s.topoCounted.adeidOwn 0 s.topoFrame).adeidOwn_adeid 2 s.topoFrame
    exact ⟨m, v, _, _, by rw [State.sendTopo_eq clustered, second, first]; rfl⟩

theorem State.sendTopo_link (s : State) (r : Nat) : ∃ e, s.sendTopo.link r = { s.link r with egress := e } := by
  cases clustered : s.clustered with
  | false => exact ⟨(s.link r).egress, by rw [State.sendTopo, clustered]; rfl⟩
  | true =>
    obtain ⟨e, first⟩ := s.topoCounted.adeidOwn_link 0 r s.topoFrame
    obtain ⟨f, second⟩ := (s.topoCounted.adeidOwn 0 s.topoFrame).adeidOwn_link 2 r s.topoFrame
    exact ⟨f, by rw [State.sendTopo_eq clustered, second, first]; rfl⟩

theorem State.sendTopo_link_down {r : Nat} (down : s.linkUp r = false) : s.sendTopo.link r = s.link r := by
  cases clustered : s.clustered with
  | false => rw [State.sendTopo, clustered]; rfl
  | true =>
    have still : (s.topoCounted.adeidOwn 0 s.topoFrame).linkUp r = false := (s.topoCounted.adeidOwn_linkUp 0 r _).trans down
    rw [State.sendTopo_eq clustered, State.adeidOwn_link_down _ 2 still, State.adeidOwn_link_down s.topoCounted 0 (by exact down)]
    rfl

/-! ### Reachability (R501) -/

/-- What a look at reachability leaves of ADEID: the nodes' two bits, the rings' wholeness and the events of both may change (R501). -/
structure Reached (a b : AdeidState) : Prop where
  rest : ∃ l e p q, b = { a with states := l, event := e, primaryWhole := p, secondaryWhole := q }
  nodes : ∀ k, ∃ p q, nth b.states k {} = { nth a.states k {} with reachP := p, reachS := q }
  events : ∀ i, a.event.bits.getLsbD i = true → b.event.bits.getLsbD i = true

theorem Reached.refl (a : AdeidState) : Reached a a := ⟨⟨_, _, _, _, rfl⟩, fun _ => ⟨_, _, rfl⟩, fun _ h => h⟩

theorem Reached.trans {a b c : AdeidState} (h : Reached a b) (k : Reached b c) : Reached a c := by
  obtain ⟨l, e, p, q, rest⟩ := h.rest
  obtain ⟨m, f, p', q', rest'⟩ := k.rest
  refine ⟨⟨m, f, p', q', by rw [rest', rest]⟩, fun n => ?_, fun i hi => k.events i (h.events i hi)⟩
  obtain ⟨p, q, first⟩ := h.nodes n
  obtain ⟨p', q', second⟩ := k.nodes n
  exact ⟨p', q', by rw [second, first]⟩

theorem Reached.links {a b : AdeidState} (h : Reached a b) : b.links = a.links := by
  obtain ⟨l, e, p, q, rest⟩ := h.rest
  rw [rest]

theorem Reached.raise {a : AdeidState} {t : State} (h : Reached a t.adeid) (i : Nat) : Reached a (t.raise .adeid i).adeid :=
  h.trans ⟨⟨_, _, _, _, rfl⟩, fun _ => ⟨_, _, rfl⟩, fun _ hi => W1C.bits_raise_of_set _ i hi⟩

theorem Reached.when {a : AdeidState} {t : State} (h : Reached a t.adeid) (c : Bool) (i : Nat) : Reached a (t.when c fun s => s.raise .adeid i).adeid := by
  cases c
  · exact h
  · exact h.raise i

/-- The two bits of a node as they are set (R501). -/
def NodeState.reach (x : NodeState) (p q : Bool) : NodeState := { x with reachP := p, reachS := q }

theorem nth_updAt_reach (l : List NodeState) (n k : Nat) (p q : Bool) :
    ∃ p' q', nth (updAt l n fun y => y.reach p q) k {} = (nth l k {}).reach p' q' := by
  by_cases hk : n = k
  · subst hk
    by_cases h : n < l.length
    · exact ⟨p, q, nth_updAt_self _ _ _ _ h⟩
    · exact ⟨_, _, nth_updAt_out _ _ _ _ _ (not_lt.mp h)⟩
  · exact ⟨_, _, nth_updAt_ne _ _ _ _ _ hk⟩

theorem State.reachNode_states (s : State) (n : Nat) (p q : Bool) : (s.reachNode n p q).adeid.states = updAt s.adeid.states n fun y => y.reach p q := by
  unfold State.reachNode State.when
  extract_lets x u v w
  split
  · rfl
  · unfold w v u
    repeat' split
    all_goals rfl

theorem State.reachNode_reached (s : State) (n : Nat) (p q : Bool) : Reached s.adeid (s.reachNode n p q).adeid := by
  unfold State.reachNode
  extract_lets x u v w
  have hu : Reached s.adeid u.adeid := ⟨⟨_, _, _, _, rfl⟩, fun k => nth_updAt_reach _ n k p q, fun _ h => h⟩
  split
  · exact hu
  · exact (hu.when _ 4).when _ 5

theorem State.wholeRing_reached (s : State) (x y : Bool) : Reached s.adeid (s.wholeRing x y).adeid := by
  unfold State.wholeRing
  extract_lets old u
  have hu : Reached s.adeid u.adeid := by
    unfold u
    cases x <;> exact ⟨⟨_, _, _, _, rfl⟩, fun k => ⟨_, _, rfl⟩, fun _ h => h⟩
  split
  · exact .refl _
  · exact hu.raise _

theorem State.wholeRing_states (s : State) (x y : Bool) : (s.wholeRing x y).adeid.states = s.adeid.states := by
  unfold State.wholeRing
  extract_lets old u
  split
  · rfl
  · unfold u
    cases x <;> rfl

theorem State.recomputeReach_reached (s : State) : Reached s.adeid s.recomputeReach.adeid := by
  unfold State.recomputeReach
  extract_lets p q u
  split
  · exact .refl _
  · have hu : Reached s.adeid u.adeid := State.forEach_invariant (p := fun t => Reached s.adeid t.adeid)
      (fun t n ht => ht.trans (t.reachNode_reached n _ _)) _ s (.refl _)
    exact hu.trans ((u.wholeRing_reached _ _).trans (State.wholeRing_reached _ _ _))

/-! ### Changes of a link (R500) -/

theorem State.linkChanged_link_down {q : Nat} (s : State) (down : s.linkUp q = false) : (s.linkChanged q).link q = s.link q := by
  unfold State.linkChanged
  extract_lets u
  have links : u.recomputeReach.adeid.links = s.adeid.links := u.recomputeReach_reached.links
  rw [State.sendTopo_link_down ((State.linkUp_congr links q).trans down)]
  exact State.link_congr links q

theorem State.linkChanged_link (s : State) (q r : Nat) : ∃ e, (s.linkChanged q).link r = { s.link r with egress := e } := by
  unfold State.linkChanged
  extract_lets u
  obtain ⟨e, link⟩ := u.recomputeReach.sendTopo_link r
  have links : u.recomputeReach.adeid.links = s.adeid.links := u.recomputeReach_reached.links
  exact ⟨e, by rw [link, State.link_congr links]⟩

theorem State.linkChanged_event (s : State) (q : Nat) : (s.linkChanged q).adeid.event.bits.getLsbD 0 = true := by
  unfold State.linkChanged
  extract_lets u
  obtain ⟨l, w, n, a, sent⟩ := u.recomputeReach.sendTopo_adeid
  rw [sent]
  exact u.recomputeReach_reached.events 0 (W1C.raise_bits _ _ (by decide))

theorem State.adeidLinkDown_falls {q : Nat} (h : q < s.adeid.links.length) (notDown : (s.link q).phase ≠ .down) :
    (s.adeidLinkDown q).link q = { s.link q with phase := .down, downs := satInc 16 (s.link q).downs, valid := 0, egress := [] } ∧
      (s.adeidLinkDown q).adeid.event.bits.getLsbD 0 = true := by
  rw [State.adeidLinkDown, if_neg notDown]
  have here := State.link_onLink_self h fun l : AdeidLink => { l with phase := .down, downs := satInc 16 l.downs, valid := 0, egress := [] }
  refine ⟨(State.linkChanged_link_down _ ?_).trans here, State.linkChanged_event _ q⟩
  rw [State.linkUp, here]
  rfl

theorem exec_adeidLink_falls (s : State) (x : AdeidLinkIn) (h : x.q < s.adeid.links.length) (notDown : (s.link x.q).phase ≠ .down)
    (cause : x.lock = false ∨ s.lanesOpen x.q = false ∨ (s.link x.q).phase = .up ∧ s.passed (s.link x.q).lastLink 4000) :
    ∃ t, exec (.adeidLink x) s = .next t ∧
      t.link x.q = { s.link x.q with phase := .down, downs := satInc 16 (s.link x.q).downs, valid := 0, egress := [] } ∧
      t.adeid.event.bits.getLsbD 0 = true ∧ OnlyTouches [.log, .adeid] s t := by
  have run : exec (.adeidLink x) s = .next (s.adeidLinkDown x.q) := by
    show execAdeidLink x s = _
    unfold execAdeidLink
    by_cases held : (!x.lock || !s.lanesOpen x.q) = true
    · exact congrArg _ (if_pos held)
    · obtain ⟨up, silent⟩ : (s.link x.q).phase = .up ∧ s.passed (s.link x.q).lastLink 4000 := by
        rw [Bool.or_eq_true, Bool.not_eq_true', Bool.not_eq_true', not_or] at held
        exact (cause.resolve_left held.1).resolve_left held.2
      refine congrArg _ ((if_neg held).trans ?_)
      rw [up]
      exact if_pos silent
  obtain ⟨link, event⟩ := State.adeidLinkDown_falls h notDown
  exact ⟨_, run, link, event, (execAdeidLink_kept x (.refl s)).frame run⟩

/-- With block lock and open lanes a link is judged by its state (R500). -/
theorem exec_adeidLink {x : AdeidLinkIn} (lock : x.lock) (lanes : s.lanesOpen x.q) : exec (.adeidLink x) s = .next
    (match (s.link x.q).phase with
      | .down => s.onLink x.q fun l => { l with phase := .training, valid := 0 }
      | .up => if s.passed (s.link x.q).lastLink 4000 then s.adeidLinkDown x.q else s
      | .training =>
        if (s.link x.q).valid < 3 then s.when (s.passed (s.link x.q).lastLink 4000) fun s => s.onLink x.q fun l => { l with valid := 0 }
        else if s.linkBehind x.q then s.linkMiswired x.q
        else s.adeidLinkUp x.q
      | .miswired => if 3 ≤ (s.link x.q).valid ∧ !s.linkBehind x.q then s.adeidLinkUp x.q else s) :=
  congrArg _ (if_neg (by rw [lock, lanes]; decide))

theorem exec_adeidLink_trains (s : State) (x : AdeidLinkIn) (h : x.q < s.adeid.links.length) (lock : x.lock) (lanes : s.lanesOpen x.q)
    (down : (s.link x.q).phase = .down) :
    ∃ t, exec (.adeidLink x) s = .next t ∧ t.link x.q = { s.link x.q with phase := .training, valid := 0 } ∧ OnlyTouches [.adeid] s t := by
  have run := exec_adeidLink lock lanes
  rw [down] at run
  exact ⟨_, run, State.link_onLink_self h _, State.onLink_touches x.q _⟩

/-- A trained link comes up or is held down, by its wiring (R500). -/
theorem exec_adeidLink_trained {x : AdeidLinkIn} (lock : x.lock) (lanes : s.lanesOpen x.q) (training : (s.link x.q).phase = .training)
    (valid : 3 ≤ (s.link x.q).valid) :
    exec (.adeidLink x) s = .next (if s.linkBehind x.q then s.linkMiswired x.q else s.adeidLinkUp x.q) := by
  rw [exec_adeidLink lock lanes, training]
  exact congrArg _ (if_neg (Nat.not_lt.mpr valid))

theorem exec_adeidLink_comesUp (s : State) (x : AdeidLinkIn) (h : x.q < s.adeid.links.length) (lock : x.lock) (lanes : s.lanesOpen x.q)
    (training : (s.link x.q).phase = .training) (valid : 3 ≤ (s.link x.q).valid) (fits : s.linkBehind x.q = false) :
    ∃ t, exec (.adeidLink x) s = .next t ∧ (t.link x.q).phase = .up ∧ (t.link x.q).aliveRx = List.replicate 7 {} ∧
      (t.link x.q).downs = (s.link x.q).downs ∧ t.adeid.event.bits.getLsbD 0 = true ∧ OnlyTouches [.log, .adeid] s t := by
  have run := exec_adeidLink_trained lock lanes training valid
  rw [fits] at run
  have here := State.link_onLink_self h fun l : AdeidLink => { l with phase := .up, aliveRx := List.replicate 7 {}, sentCls := l.theirs }
  obtain ⟨e, link⟩ := State.linkChanged_link
    (s.onLink x.q fun l : AdeidLink => { l with phase := .up, aliveRx := List.replicate 7 {}, sentCls := l.theirs }) x.q x.q
  rw [here] at link
  have frame : OnlyTouches [.log, .adeid] s (s.adeidLinkUp x.q) := (execAdeidLink_kept x (.refl s)).frame run
  exact ⟨_, run, (congrArg AdeidLink.phase link :), (congrArg AdeidLink.aliveRx link :), (congrArg AdeidLink.downs link :),
    State.linkChanged_event _ x.q, frame⟩

theorem exec_adeidLink_miswired (s : State) (x : AdeidLinkIn) (h : x.q < s.adeid.links.length) (lock : x.lock) (lanes : s.lanesOpen x.q)
    (training : (s.link x.q).phase = .training) (valid : 3 ≤ (s.link x.q).valid) (behind : s.linkBehind x.q) :
    ∃ t, exec (.adeidLink x) s = .next t ∧ t.link x.q = { s.link x.q with phase := .miswired, valid := 0 } ∧
      t.adeid.event = s.adeid.event.raise 1 ∧ OnlyTouches [.log, .adeid] s t := by
  have run := exec_adeidLink_trained lock lanes training valid
  rw [if_pos behind] at run
  have frame : OnlyTouches [.log, .adeid] s (s.linkMiswired x.q) := (execAdeidLink_kept x (.refl s)).frame run
  exact ⟨_, run, State.link_onLink_self h _, rfl, frame⟩

theorem exec_adeidLinkFrameSend_leads (s : State) (q : Nat) (h : q < s.adeid.links.length) (lanes : s.lanesOpen q) (up : (s.link q).phase ≠ .down)
    (due : s.passed (s.link q).linkAt 500) :
    ∃ t f, exec (.adeidLinkFrameSend q) s = .next t ∧ (t.link q).egress = f :: (s.link q).egress ∧ (t.link q).linkAt = s.now ∧
      f.src = s.adeid.node ∧ f.payload = some (.link s.adeid.node s.sec.device (s.link q).freed) ∧ (t.link q).phase = (s.link q).phase ∧
      (∀ k, k ≠ q → t.link k = s.link k) ∧ OnlyTouches [.adeid] s t := by
  let f : AdeidFrame :=
    { alive := 0, secondary := decide (2 ≤ q), src := s.adeid.node, payload := some (.link s.adeid.node s.sec.device (s.link q).freed) }
  have run : exec (.adeidLinkFrameSend q) s = .next (s.onLink q fun l => { l with linkAt := s.now, egress := f :: l.egress }) :=
    congrArg _ (if_neg (by simp [lanes, up, due]))
  have here := State.link_onLink_self h fun l : AdeidLink => { l with linkAt := s.now, egress := f :: l.egress }
  exact ⟨_, f, run, (congrArg AdeidLink.egress here :), (congrArg AdeidLink.linkAt here :), rfl, rfl, (congrArg AdeidLink.phase here :),
    fun k hk => State.link_onLink_ne hk _, (execAdeidLinkFrameSend_kept q (.refl s)).frame run⟩

/-! ### Heartbeats (R501) -/

/-- A frame of this node out of a port leaves the links of the other ring as they are (R497). -/
theorem State.adeidOwn_link_ne {q r : Nat} (s : State) (own : r ≠ q) (other : r ≠ otherLink q) (f : AdeidFrame) :
    (s.adeidOwn q f).link r = s.link r := by
  obtain ⟨-, eq⟩ | ⟨-, -, g, eq⟩ | ⟨-, eq⟩ := s.adeidOwn_cases q f
  · rw [eq]; exact State.link_onLink_ne own _
  · rw [eq]; exact State.link_onLink_ne other _
  · rw [eq]

theorem exec_topoHeartbeat_broadcasts (s : State) (clustered : s.clustered) (due : s.passed s.adeid.topoAt (msec 1)) :
    ∃ t, exec .topoHeartbeat s = .next t ∧ t.adeid.topoSeq = wrapInc 32 s.adeid.topoSeq ∧ t.adeid.topoAt = s.now ∧
      (s.linkUp 0 → ∃ f, (t.link 0).egress.getLast? = some f ∧ f.bcast = true ∧ f.src = s.adeid.node ∧
        f.payload = some (.topo (wrapInc 32 s.adeid.topoSeq) ((List.range 4).map s.linkUp))) ∧
      t.adeid.event = s.adeid.event ∧ OnlyTouches [.adeid] s t := by
  have run : exec .topoHeartbeat s = .next s.sendTopo := congrArg _ (if_neg (by simp [clustered, due]))
  have frame : OnlyTouches [.adeid] s s.sendTopo := (execTopoHeartbeat_kept (.refl s)).frame run
  obtain ⟨l, w, first⟩ := s.topoCounted.adeidOwn_adeid 0 s.topoFrame
  obtain ⟨m, v, second⟩ := (s.topoCounted.adeidOwn 0 s.topoFrame).adeidOwn_adeid 2 s.topoFrame
  rw [State.sendTopo_eq clustered] at run frame
  refine ⟨_, run, by rw [second, first]; rfl, by rw [second, first]; rfl, fun up => ?_, by rw [second, first]; rfl, frame⟩
  rw [State.adeidOwn_link_ne _ (by decide) (by decide), State.adeidOwn, if_pos (by exact up), State.adeidPut,
    State.link_onLink_self (by exact State.linkUp_lt up)]
  exact ⟨_, List.getLast?_concat, rfl, rfl, rfl⟩

/-! ### A node unheard (R501) -/

theorem State.mem_walk {n : Nat} {secondary up : Bool} {order : List Nat} {cur : Nat} (h : n ∈ s.walk secondary up cur order) :
    s.heard n secondary = true := by
  induction order generalizing cur with
  | nil => cases h
  | cons m rest ih =>
    rw [State.walk] at h
    split at h
    · exact ih h
    next heard =>
      generalize (if up = true then s.joined secondary cur m else s.joined secondary m cur) = c at h
      cases c
      · cases h
      · obtain rfl | h := List.mem_cons.mp h
        · simpa using heard
        · exact ih h

/-- A node unheard on a ring is not reachable on it (R501). -/
theorem State.not_mem_reachable {n : Nat} {secondary : Bool} (unheard : s.heard n secondary = false) : (s.reachable secondary).contains n = false := by
  have other : n ≠ s.adeid.node := by
    rintro rfl
    simp [State.heard] at unheard
  have walk (up : Bool) (order : List Nat) : n ∉ s.walk secondary up s.adeid.node order := fun h => by
    rw [State.mem_walk h] at unheard
    cases unheard
  unfold State.reachable
  split
  · rfl
  · simp [other, walk]

/-- The nodes' bits after each of `ns` has been looked at (R501). -/
theorem State.reachNodes_states (p q : List Nat) {n : Nat} (ns : List Nat) (h : n < s.adeid.states.length)
    (there : n ∈ ns ∨ ∃ y, nth s.adeid.states n {} = NodeState.reach y (p.contains n) (q.contains n)) :
    ∃ y, nth (s.forEach ns fun s n => s.reachNode n (p.contains n) (q.contains n)).adeid.states n {} =
      NodeState.reach y (p.contains n) (q.contains n) := by
  induction ns generalizing s with
  | nil => exact there.resolve_left (List.not_mem_nil)
  | cons m ms ih =>
    rw [State.forEach_cons]
    have states := s.reachNode_states m (p.contains m) (q.contains m)
    refine ih (by rw [states, updAt]; simpa using h) ?_
    by_cases hm : m = n
    · subst hm
      exact .inr ⟨_, by rw [states, nth_updAt_self _ _ _ _ h]⟩
    · refine there.imp (fun k => (List.mem_cons.mp k).resolve_left (Ne.symm hm)) fun ⟨y, k⟩ => ⟨y, ?_⟩
      rw [states, nth_updAt_ne _ _ _ _ _ hm, k]

theorem State.recomputeReach_node {n : Nat} (clustered : s.clustered) (member : n < s.clusterSize) (h : n < s.adeid.states.length) :
    ∃ y, nth s.recomputeReach.adeid.states n {} =
      NodeState.reach y ((s.reachable false).contains n) ((s.reachable true).contains n) := by
  have there : ¬(!s.clustered) = true := by rw [clustered]; decide
  rw [State.recomputeReach, if_neg there]
  simp only [State.wholeRing_states]
  exact State.reachNodes_states _ _ _ h (.inl (List.mem_range.mpr member))

theorem exec_adeidHeartbeatLoss_unreaches (s : State) (n : Nat) (secondary : Bool) (clustered : s.clustered) (unheard : s.heard n secondary = false)
    (member : n < s.clusterSize) (h : n < s.adeid.states.length) :
    ∃ t, exec (.adeidHeartbeatLoss n secondary) s = .next t ∧
      (if secondary then (nth t.adeid.states n {}).reachS else (nth t.adeid.states n {}).reachP) = false ∧
      t.adeid.links = s.adeid.links ∧ OnlyTouches [.log, .adeid] s t := by
  have run : exec (.adeidHeartbeatLoss n secondary) s = .next s.recomputeReach := congrArg _ (if_neg (by simp [clustered, unheard]))
  refine ⟨_, run, ?_, s.recomputeReach_reached.links, (execAdeidHeartbeatLoss_kept n secondary (.refl s)).frame run⟩
  obtain ⟨y, node⟩ := State.recomputeReach_node clustered member h
  rw [node]
  cases secondary <;> exact State.not_mem_reachable unheard

theorem exec_adeidReqIdExpiry_forgets (s : State) :
    ∃ t, exec .adeidReqIdExpiry s = .next t ∧ (∀ x, x ∈ t.adeid.seen ↔ x ∈ s.adeid.seen ∧ s.now < x.at_ + msec 1) ∧
      t.adeid.links = s.adeid.links ∧ OnlyTouches [.adeid] s t := by
  have mem (x : _) : x ∈ s.adeid.seen.filter (fun x => decide (s.now < x.at_ + msec 1)) ↔ x ∈ s.adeid.seen ∧ s.now < x.at_ + msec 1 := by
    rw [List.mem_filter, decide_eq_true_iff]
  exact ⟨_, rfl, mem, rfl, (execAdeidReqIdExpiry_kept (.refl s)).frame rfl⟩

/-- Settles O48, clause by clause. -/
theorem linksTrainAndFall : Obligations.LinksTrainAndFall :=
  ⟨exec_adeidLink_falls, exec_adeidLink_trains,
    fun s x h lock lanes training valid =>
      ⟨exec_adeidLink_comesUp s x h lock lanes training valid, exec_adeidLink_miswired s x h lock lanes training valid⟩,
    exec_adeidLinkFrameSend_leads, exec_topoHeartbeat_broadcasts, exec_adeidHeartbeatLoss_unreaches, exec_adeidReqIdExpiry_forgets⟩

end Sys2Proof.Machine
end

section
/-! SUPPORT. Adeid frames on their way in: free, alive test, taken, forwarded or wrapped (spec/15_host_cluster_berths.md R496 to R501). -/

namespace Sys2Proof.Machine

set_option Elab.async false

open Sys2Proof

variable {s : State}

/-! ### The place a frame frees, and its alive test (R469, R498) -/

theorem State.linkUp_phase {q : Nat} (up : s.linkUp q) : (s.link q).phase = .up := of_decide_eq_true up

/-- A frame that frees its place changes the freed counts of its link alone (R498). -/
theorem State.adeidFree_link (s : State) (q r : Nat) (f : AdeidFrame) : ∃ c, (s.adeidFree q f).link r = { s.link r with freed := c } := by
  unfold State.adeidFree State.when
  split
  · exact ⟨(s.link r).freed, rfl⟩
  · split
    · by_cases hr : r = q
      · subst hr
        by_cases h : r < s.adeid.links.length
        · exact ⟨_, State.link_onLink_self h _⟩
        · exact ⟨_, nth_updAt_out _ _ _ _ _ (not_lt.mp h)⟩
      · exact ⟨_, State.link_onLink_ne hr _⟩
    · exact ⟨(s.link r).freed, rfl⟩

theorem State.adeidFree_adeid (s : State) (q : Nat) (f : AdeidFrame) :
    ∃ l, (s.adeidFree q f).adeid = { s.adeid with links := l } ∧ l.length = s.adeid.links.length := by
  unfold State.adeidFree State.when
  split
  · exact ⟨s.adeid.links, rfl, rfl⟩
  · split
    · exact ⟨_, rfl, List.length_modify ..⟩
    · exact ⟨s.adeid.links, rfl, rfl⟩

/-- The alive test of a frame on its link and class (R470). -/
def State.adeidTest (s : State) (x : AdeidIn) (p : AdeidPayload) : AliveResult × AliveRx :=
  (nth (s.link x.q).aliveRx p.cls.num {}).test 4 7 true x.frame.alive

def State.adeidTested (s : State) (x : AdeidIn) (p : AdeidPayload) : State :=
  s.onLink x.q fun l => { l with aliveRx := updAt l.aliveRx p.cls.num fun _ => (s.adeidTest x p).2 }

/-- A link has heard a frame that its alive test accepts (R469 to R471). -/
def State.adeidHeard (s : State) (x : AdeidIn) (p : AdeidPayload) : State :=
  ((s.adeidTested x p).countAlive 2 x.frame.alive (s.adeidTest x p).1).onLink x.q fun l => { l with rx := l.rx + 1 }

theorem State.adeidAlive_repeat {x : AdeidIn} {p : AdeidPayload} (repeated : (s.adeidTest x p).1 = .repeat_) :
    s.adeidAlive x p = (s.adeidTested x p).adeidDup := by
  have rejected : (!(s.adeidTest x p).1.accepted) = true := by rw [repeated]; rfl
  refine (if_pos rejected).trans ((if_pos (decide_eq_true repeated)).trans ?_)
  exact congrArg (fun r => ((s.adeidTested x p).countAlive 2 x.frame.alive r).adeidDup) repeated

/-- A frame of the classes 2 to 6 that the alive test accepts goes its own way (R499). -/
theorem State.adeidAlive_routes {x : AdeidIn} {p : AdeidPayload} (accepted : (s.adeidTest x p).1.accepted) (notLink : p.cls ≠ .link)
    (notSum : p.cls ≠ .sum) : s.adeidAlive x p = (s.adeidHeard x p).adeidRoute x.q x.frame p := by
  have there : ¬(!(s.adeidTest x p).1.accepted) = true := by rw [accepted]; decide
  refine (if_neg there).trans ?_
  cases p with
  | link n d freed => exact absurd rfl notLink
  | sum f => exact absurd rfl notSum
  | rio | topo | cmd | cmdDone | reg | regDone | bulk => rfl

theorem AliveRx.test_repeat {r : AliveRx} {a : Nat} (last : r.last = some a) : (r.test 4 7 true a).1 = .repeat_ := by
  have zero : (a + 2 ^ 4 - a % 2 ^ 4) % 2 ^ 4 = 0 := by omega
  rw [AliveRx.test, last]
  exact congrArg Prod.fst (if_pos zero)

/-! ### What hearing a frame leaves as it is -/

/-- A state in which only what links count of the frames they heard differs from before. -/
structure Heard (s t : State) : Prop where
  adeid : ∃ l, t.adeid = { s.adeid with links := l } ∧ l.length = s.adeid.links.length
  egress : ∀ r, (t.link r).egress = (s.link r).egress
  phase : ∀ r, (t.link r).phase = (s.link r).phase
  kept : Kept (· ∈ [.chk, .log, .adeid]) s t

theorem Heard.trans {s t u : State} (h : Heard s t) (k : Heard t u) : Heard s u := by
  obtain ⟨l, first, len⟩ := h.adeid
  obtain ⟨m, second, len'⟩ := k.adeid
  exact ⟨⟨m, by rw [second, first], by rw [len', first, len]⟩, fun r => (k.egress r).trans (h.egress r), fun r => (k.phase r).trans (h.phase r),
    h.kept.trans k.kept⟩

theorem Heard.onLink {q : Nat} {f : AdeidLink → AdeidLink} (egress : ∀ l, (f l).egress = l.egress) (phase : ∀ l, (f l).phase = l.phase) :
    Heard s (s.onLink q f) := by
  have links (r : Nat) : (s.onLink q f).link r = f (s.link r) ∨ (s.onLink q f).link r = s.link r := by
    by_cases hr : r = q
    · subst hr
      by_cases h : r < s.adeid.links.length
      · exact .inl (State.link_onLink_self h _)
      · exact .inr (nth_updAt_out _ _ _ _ _ (not_lt.mp h))
    · exact .inr (State.link_onLink_ne hr _)
  refine ⟨⟨_, rfl, List.length_modify ..⟩, fun r => ?_, fun r => ?_, State.onLink_kept q f (.refl s)⟩
  · obtain h | h := links r <;> rw [h]
    exact egress _
  · obtain h | h := links r <;> rw [h]
    exact phase _

theorem Heard.free (q : Nat) (f : AdeidFrame) : Heard s (s.adeidFree q f) := by
  refine ⟨s.adeidFree_adeid q f, fun r => ?_, fun r => ?_, State.adeidFree_kept q f (.refl s)⟩
  · obtain ⟨c, link⟩ := s.adeidFree_link q r f
    rw [link]
  · obtain ⟨c, link⟩ := s.adeidFree_link q r f
    rw [link]

theorem Heard.countAlive (path a : Nat) (r : AliveResult) : Heard s (s.countAlive path a r) := by
  have kept : Kept (· ∈ [.chk, .log]) s (s.countAlive path a r) := State.countAlive_kept path a r (.refl s)
  have adeid : (s.countAlive path a r).adeid = s.adeid := kept.parts .adeid (by simp)
  have links (k : Nat) : (s.countAlive path a r).link k = s.link k := State.link_congr (congrArg AdeidState.links adeid) k
  exact ⟨⟨_, adeid, rfl⟩, fun k => by rw [links], fun k => by rw [links], State.countAlive_kept path a r (.refl s)⟩

theorem State.adeidHeard_heard (s : State) (x : AdeidIn) (p : AdeidPayload) : Heard s (s.adeidHeard x p) := by
  have tested : Heard s (s.adeidTested x p) := Heard.onLink (fun _ => rfl) fun _ => rfl
  have counted : Heard s ((s.adeidTested x p).countAlive 2 x.frame.alive (s.adeidTest x p).1) := tested.trans (Heard.countAlive 2 _ _)
  exact counted.trans (Heard.onLink (fun _ => rfl) fun _ => rfl)

theorem Heard.linkUp {s t : State} (h : Heard s t) (r : Nat) : t.linkUp r = s.linkUp r := by rw [State.linkUp, State.linkUp, h.phase]

theorem Heard.length {s t : State} (h : Heard s t) : t.adeid.links.length = s.adeid.links.length := by
  obtain ⟨l, adeid, len⟩ := h.adeid
  rw [adeid, len]

theorem Heard.node {s t : State} (h : Heard s t) : t.adeid.node = s.adeid.node := by
  obtain ⟨l, adeid, -⟩ := h.adeid
  rw [adeid]

theorem Heard.now {s t : State} (h : Heard s t) : t.now = s.now := h.kept.parts .now (by simp)

/-! ### Frames that arrive (R496 to R501) -/

theorem exec_adeidFrameRx_unheard (s : State) (x : AdeidIn) (h : s.lanesOpen x.q = false ∨ (s.link x.q).phase = .down) :
    exec (.adeidFrameRx x) s = .next s := congrArg _ (if_pos (by simpa using h))

/-- A link that hears with its lanes open goes by the frame's CHECK (R496). -/
theorem exec_adeidFrameRx_hears {x : AdeidIn} (lanes : s.lanesOpen x.q) (up : (s.link x.q).phase ≠ .down) : exec (.adeidFrameRx x) s = .next
    (if !x.frame.checkOk then
      let s := if s.linkUp x.q then s.adeidFree x.q x.frame else s
      ((s.onLink x.q fun l => { l with checkFails := satInc 16 l.checkFails, valid := if s.linkUp x.q then l.valid else 0 }).raise
        .adeid 6).pathFail 2
    else if s.linkUp x.q then
      match x.frame.payload with
      | none => s.adeidDiscard
      | some p => (s.adeidFree x.q x.frame).adeidAlive x p
    else match x.frame.payload with
      | some (.link n d freed) => (s.onLink x.q fun l => { l with rx := l.rx + 1 }).linkRx x.q n d freed
      | _ => s) :=
  congrArg _ (if_neg (by simp [lanes, up]))

theorem exec_adeidFrameRx_checkFails (s : State) (x : AdeidIn) (h : x.q < s.adeid.links.length) (lanes : s.lanesOpen x.q)
    (up : (s.link x.q).phase ≠ .down) (bad : x.frame.checkOk = false) (paths : 2 < s.chk.pathFail.length) :
    ∃ t, exec (.adeidFrameRx x) s = .next t ∧ (t.link x.q).checkFails = satInc 16 (s.link x.q).checkFails ∧
      (t.link x.q).phase = (s.link x.q).phase ∧ ((s.link x.q).phase ≠ .up → (t.link x.q).valid = 0) ∧ t.adeid.event = s.adeid.event.raise 6 ∧
      nth t.chk.pathFail 2 0 = satInc 32 (nth s.chk.pathFail 2 0) ∧ OnlyTouches [.chk, .adeid] s t := by
  have run := exec_adeidFrameRx_hears lanes up
  rw [bad] at run
  obtain ⟨u, hu⟩ : ∃ u, (if s.linkUp x.q then s.adeidFree x.q x.frame else s) = u := ⟨_, rfl⟩
  have kept : Kept (· ∈ [.chk, .adeid]) s u := by
    rw [← hu]
    split
    · exact State.adeidFree_kept _ _ (.refl s)
    · exact .refl s
  obtain ⟨c, link⟩ : ∃ c, u.link x.q = { s.link x.q with freed := c } := by
    rw [← hu]
    split
    · exact s.adeidFree_link x.q x.q x.frame
    · exact ⟨(s.link x.q).freed, rfl⟩
  obtain ⟨l, adeid, len⟩ : ∃ l, u.adeid = { s.adeid with links := l } ∧ l.length = s.adeid.links.length := by
    rw [← hu]
    split
    · exact s.adeidFree_adeid x.q x.frame
    · exact ⟨s.adeid.links, rfl, rfl⟩
  have chk : u.chk = s.chk := by
    rw [← hu]
    split
    · exact (State.adeidFree_kept (M := (· ∈ [Part.adeid])) _ _ (.refl s)).parts .chk (by simp)
    · rfl
  rw [if_pos (by decide), hu] at run
  have here := State.link_onLink_self (s := u) (q := x.q) (by rw [adeid, len]; exact h)
    fun l : AdeidLink => { l with checkFails := satInc 16 l.checkFails, valid := if u.linkUp x.q then l.valid else 0 }
  rw [link] at here
  refine ⟨_, run, (congrArg AdeidLink.checkFails here :), (congrArg AdeidLink.phase here :), fun notUp => ?_, ?_, ?_, ?_⟩
  · refine (congrArg AdeidLink.valid here).trans (if_neg ?_)
    rw [State.linkUp, link]
    simpa using notUp
  · exact (congrArg (fun a : AdeidState => a.event.raise 6) adeid :)
  · have failed : nth (updAt u.chk.pathFail 2 (satInc 32)) 2 0 = _ := nth_updAt_self u.chk.pathFail 2 (satInc 32) 0 (by rw [chk]; exact paths)
    exact failed.trans (by rw [chk])
  · exact (State.pathFail_kept 2 (State.raise_kept _ _ (State.onLink_kept x.q _ kept))).frame

theorem exec_adeidFrameRx_discards (s : State) (x : AdeidIn) (lanes : s.lanesOpen x.q) (up : s.linkUp x.q) (good : x.frame.checkOk)
    (none : x.frame.payload = none) :
    ∃ t, exec (.adeidFrameRx x) s = .next t ∧ t.adeid = { s.adeid with discard := satInc 16 s.adeid.discard } ∧ OnlyTouches [.adeid] s t := by
  have run := exec_adeidFrameRx_hears lanes (by rw [State.linkUp_phase up]; decide)
  rw [good, none, up] at run
  exact ⟨_, run, rfl, (State.adeidDiscard_kept (.refl s)).frame⟩

/-- A link in training takes LINK frames (R500). -/
theorem exec_adeidFrameRx_trains {x : AdeidIn} {n d : Nat} {l : List (BitVec 16)} (lanes : s.lanesOpen x.q)
    (training : (s.link x.q).phase = .training) (good : x.frame.checkOk) (link : x.frame.payload = some (.link n d l)) :
    exec (.adeidFrameRx x) s = .next ((s.onLink x.q fun l => { l with rx := l.rx + 1 }).linkRx x.q n d l) := by
  have notUp : s.linkUp x.q = false := by rw [State.linkUp, training]; rfl
  have run := exec_adeidFrameRx_hears lanes (by rw [training]; decide)
  rw [good, link, notUp] at run
  exact run

theorem exec_adeidFrameRx_linkValid (s : State) (x : AdeidIn) (n d : Nat) (l : List (BitVec 16)) (h : x.q < s.adeid.links.length)
    (lanes : s.lanesOpen x.q) (training : (s.link x.q).phase = .training) (good : x.frame.checkOk) (link : x.frame.payload = some (.link n d l))
    (valid : s.linkValid n d) :
    ∃ t, exec (.adeidFrameRx x) s = .next t ∧ (t.link x.q).valid = (s.link x.q).valid + 1 ∧ (t.link x.q).lastLink = s.now ∧
      (t.link x.q).neighbour = n ∧ (t.link x.q).device = d ∧ (t.link x.q).phase = .training ∧ OnlyTouches [.adeid] s t := by
  have run := exec_adeidFrameRx_trains lanes training good link
  have agreed : ¬(!(s.onLink x.q fun l => { l with rx := l.rx + 1 }).linkValid n d) = true := by
    rw [show (s.onLink x.q fun l => { l with rx := l.rx + 1 }).linkValid n d = true from valid]
    decide
  rw [State.linkRx, if_neg agreed] at run
  have counted := State.link_onLink_self h fun l : AdeidLink => { l with rx := l.rx + 1 }
  obtain ⟨u, hu⟩ : ∃ u, (s.onLink x.q fun l => { l with rx := l.rx + 1 }) = u := ⟨_, rfl⟩
  have kept : Kept (· ∈ [.adeid]) s u := hu ▸ State.onLink_kept x.q _ (.refl s)
  have len : x.q < u.adeid.links.length := by rw [← hu]; exact (List.length_modify ..).symm ▸ h
  rw [hu] at run counted
  have here := State.link_onLink_self len
    fun k : AdeidLink => { k with valid := k.valid + 1, lastLink := u.now, neighbour := n, device := d, theirs := l,
                                  skipped := decide (1 < u.linkSteps x.q n) }
  rw [counted] at here
  exact ⟨_, run, (congrArg AdeidLink.valid here :), (congrArg AdeidLink.lastLink here :).trans (kept.parts .now (by simp)),
    (congrArg AdeidLink.neighbour here :), (congrArg AdeidLink.device here :), (congrArg AdeidLink.phase here :).trans training,
    (State.onLink_kept x.q _ kept).frame⟩

theorem exec_adeidFrameRx_linkInvalid (s : State) (x : AdeidIn) (n d : Nat) (l : List (BitVec 16)) (h : x.q < s.adeid.links.length)
    (lanes : s.lanesOpen x.q) (training : (s.link x.q).phase = .training) (good : x.frame.checkOk) (link : x.frame.payload = some (.link n d l))
    (invalid : s.linkValid n d = false) :
    ∃ t, exec (.adeidFrameRx x) s = .next t ∧ (t.link x.q).valid = 0 ∧ (t.link x.q).phase = .training ∧ OnlyTouches [.adeid] s t := by
  have run := exec_adeidFrameRx_trains lanes training good link
  have disagreed : (!(s.onLink x.q fun l => { l with rx := l.rx + 1 }).linkValid n d) = true := by
    rw [show (s.onLink x.q fun l => { l with rx := l.rx + 1 }).linkValid n d = false from invalid]
    decide
  rw [State.linkRx, if_pos disagreed] at run
  have counted := State.link_onLink_self h fun l : AdeidLink => { l with rx := l.rx + 1 }
  obtain ⟨u, hu⟩ : ∃ u, (s.onLink x.q fun l => { l with rx := l.rx + 1 }) = u := ⟨_, rfl⟩
  have kept : Kept (· ∈ [.adeid]) s u := hu ▸ State.onLink_kept x.q _ (.refl s)
  have len : x.q < u.adeid.links.length := by rw [← hu]; exact (List.length_modify ..).symm ▸ h
  rw [hu] at run counted
  have here := State.link_onLink_self len fun k : AdeidLink => { k with valid := 0, neighbour := n, device := d }
  rw [counted] at here
  exact ⟨_, run, (congrArg AdeidLink.valid here :), (congrArg AdeidLink.phase here :).trans training, (State.onLink_kept x.q _ kept).frame⟩

/-- A frame of a class with a payload on a link that is up (R497, R498). -/
theorem exec_adeidFrameRx_up {x : AdeidIn} {p : AdeidPayload} (lanes : s.lanesOpen x.q) (up : s.linkUp x.q) (good : x.frame.checkOk)
    (payload : x.frame.payload = some p) : exec (.adeidFrameRx x) s = .next ((s.adeidFree x.q x.frame).adeidAlive x p) := by
  have run := exec_adeidFrameRx_hears lanes (by rw [State.linkUp_phase up]; decide)
  rw [good, payload, up] at run
  exact run

theorem State.adeidTest_free {x : AdeidIn} {p : AdeidPayload} : (s.adeidFree x.q x.frame).adeidTest x p = s.adeidTest x p := by
  obtain ⟨c, link⟩ := s.adeidFree_link x.q x.q x.frame
  rw [State.adeidTest, State.adeidTest, link]

theorem exec_adeidFrameRx_repeat (s : State) (x : AdeidIn) (p : AdeidPayload) (h : x.q < s.adeid.links.length) (lanes : s.lanesOpen x.q)
    (up : s.linkUp x.q) (good : x.frame.checkOk) (payload : x.frame.payload = some p)
    (last : (nth (s.link x.q).aliveRx p.cls.num {}).last = some x.frame.alive) :
    ∃ t, exec (.adeidFrameRx x) s = .next t ∧ t.adeid.dups = satInc 16 s.adeid.dups ∧ (t.link x.q).rx = (s.link x.q).rx ∧
      t.adeid.event = s.adeid.event ∧ OnlyTouches [.adeid] s t := by
  have run := exec_adeidFrameRx_up lanes up good payload
  rw [State.adeidAlive_repeat (State.adeidTest_free.symm ▸ AliveRx.test_repeat last)] at run
  obtain ⟨c, link⟩ := s.adeidFree_link x.q x.q x.frame
  obtain ⟨l, adeid, len⟩ := s.adeidFree_adeid x.q x.frame
  have kept : Kept (· ∈ [.adeid]) s (s.adeidFree x.q x.frame) := State.adeidFree_kept _ _ (.refl s)
  obtain ⟨u, hu⟩ : ∃ u, s.adeidFree x.q x.frame = u := ⟨_, rfl⟩
  rw [hu] at run link adeid kept
  have here := State.link_onLink_self (s := u) (q := x.q) (by rw [adeid, len]; exact h)
    fun l : AdeidLink => { l with aliveRx := updAt l.aliveRx p.cls.num fun _ => (u.adeidTest x p).2 }
  rw [link] at here
  exact ⟨_, run, (congrArg (fun a : AdeidState => satInc 16 a.dups) adeid :), (congrArg AdeidLink.rx here :),
    (congrArg AdeidState.event adeid :), (State.adeidDup_kept (State.onLink_kept x.q _ kept)).frame⟩

/-- A frame of the classes 2 to 6 that the alive test accepts goes its own way from a state that has only heard it (R499). -/
theorem exec_adeidFrameRx_routes {x : AdeidIn} {p : AdeidPayload} (lanes : s.lanesOpen x.q) (up : s.linkUp x.q) (good : x.frame.checkOk)
    (payload : x.frame.payload = some p) (notLink : p.cls ≠ .link) (notSum : p.cls ≠ .sum)
    (accepted : ((nth (s.link x.q).aliveRx p.cls.num {}).test 4 7 true x.frame.alive).1.accepted) :
    ∃ u, exec (.adeidFrameRx x) s = .next (u.adeidRoute x.q x.frame p) ∧ Heard s u := by
  have run := exec_adeidFrameRx_up lanes up good payload
  rw [State.adeidAlive_routes (State.adeidTest_free.symm ▸ accepted) notLink notSum] at run
  exact ⟨_, run, (Heard.free x.q x.frame).trans (State.adeidHeard_heard _ x p)⟩

theorem otherLink_ne (q : Nat) : otherLink q ≠ q := by
  unfold otherLink
  split <;> omega

theorem otherLink_lt {q : Nat} (h : q < 4) : otherLink q < 4 := by
  unfold otherLink
  split <;> omega

/-- A frame for another node is forwarded as it is heard (R499). -/
theorem State.adeidRoute_forwards {q : Nat} {f : AdeidFrame} {p : AdeidPayload} (cast : f.bcast = false) (other : f.dst ≠ s.adeid.node) :
    s.adeidRoute q f p = s.adeidForward q f := by
  rw [State.adeidRoute, cast]
  exact if_neg other

theorem exec_adeidFrameRx_forwards (s : State) (x : AdeidIn) (p : AdeidPayload) (links : s.adeid.links.length = 4) (h : x.q < 4)
    (lanes : s.lanesOpen x.q) (up : s.linkUp x.q) (good : x.frame.checkOk) (payload : x.frame.payload = some p) (notLink : p.cls ≠ .link)
    (notSum : p.cls ≠ .sum) (accepted : ((nth (s.link x.q).aliveRx p.cls.num {}).test 4 7 true x.frame.alive).1.accepted)
    (cast : x.frame.bcast = false) (away : x.frame.dst ≠ s.adeid.node) (hops : x.frame.hops < 255) (other : s.linkUp (otherLink x.q)) :
    ∃ t, exec (.adeidFrameRx x) s = .next t ∧
      (t.link (otherLink x.q)).egress = (s.link (otherLink x.q)).egress ++ [{ x.frame with hops := x.frame.hops + 1, alive := 0 }] ∧
      (t.link x.q).egress = (s.link x.q).egress ∧ t.adeid.wraps = s.adeid.wraps ∧ OnlyTouches [.chk, .log, .adeid] s t := by
  obtain ⟨u, run, heard⟩ := exec_adeidFrameRx_routes lanes up good payload notLink notSum accepted
  rw [State.adeidRoute_forwards cast (by rw [heard.node]; exact away), State.adeidForward, if_neg (Nat.not_le.mpr hops),
    if_pos (by rw [heard.linkUp]; exact other)] at run
  obtain ⟨l, adeid, len⟩ := heard.adeid
  refine ⟨_, run, ?_, ?_, (congrArg AdeidState.wraps adeid :), (State.adeidPut_kept _ _ heard.kept).frame⟩
  · rw [State.adeidPut, State.link_onLink_self (by rw [heard.length, links]; exact otherLink_lt h), heard.egress]
  · rw [State.adeidPut, State.link_onLink_ne (otherLink_ne x.q).symm, heard.egress]

theorem exec_adeidFrameRx_wraps (s : State) (x : AdeidIn) (p : AdeidPayload) (links : s.adeid.links.length = 4) (h : x.q < 4)
    (lanes : s.lanesOpen x.q) (up : s.linkUp x.q) (good : x.frame.checkOk) (payload : x.frame.payload = some p) (notLink : p.cls ≠ .link)
    (notSum : p.cls ≠ .sum) (accepted : ((nth (s.link x.q).aliveRx p.cls.num {}).test 4 7 true x.frame.alive).1.accepted)
    (cast : x.frame.bcast = false) (away : x.frame.dst ≠ s.adeid.node) (hops : x.frame.hops < 255) (other : s.linkUp (otherLink x.q) = false)
    (wraps : x.frame.wraps < 2) :
    ∃ t, exec (.adeidFrameRx x) s = .next t ∧
      (t.link x.q).egress = (s.link x.q).egress ++
        [{ x.frame with hops := x.frame.hops + 1, alive := 0, wrap := true, wraps := x.frame.wraps + 1 }] ∧
      t.adeid.wraps = satInc 32 s.adeid.wraps ∧ OnlyTouches [.chk, .log, .adeid] s t := by
  obtain ⟨u, run, heard⟩ := exec_adeidFrameRx_routes lanes up good payload notLink notSum accepted
  rw [State.adeidRoute_forwards cast (by rw [heard.node]; exact away), State.adeidForward, if_neg (Nat.not_le.mpr hops),
    if_neg (by rw [heard.linkUp, other]; decide), if_neg (Nat.not_le.mpr wraps)] at run
  obtain ⟨l, adeid, len⟩ := heard.adeid
  refine ⟨_, run, ?_, (congrArg (fun a : AdeidState => satInc 32 a.wraps) adeid :), (State.adeidPut_kept _ _ (State.onAdeid_kept heard.kept _)).frame⟩
  rw [State.adeidPut, State.link_onLink_self (s := u.onAdeid _) (by exact (heard.length.trans links).symm ▸ h)]
  exact congrArg (· ++ _) (heard.egress x.q)

theorem exec_adeidFrameRx_seen (s : State) (x : AdeidIn) (p : AdeidPayload) (id : Word × Nat) (lanes : s.lanesOpen x.q) (up : s.linkUp x.q)
    (good : x.frame.checkOk) (payload : x.frame.payload = some p) (reqId : p.reqId = some id)
    (accepted : ((nth (s.link x.q).aliveRx p.cls.num {}).test 4 7 true x.frame.alive).1.accepted) (cast : x.frame.bcast = false)
    (here : x.frame.dst = s.adeid.node) (seen : s.adeidSeen x.frame.src p.cls id) :
    ∃ t, exec (.adeidFrameRx x) s = .next t ∧ t.adeid.dups = satInc 16 s.adeid.dups ∧ t.adeid.seen = s.adeid.seen ∧
      OnlyTouches [.chk, .log, .adeid] s t := by
  have notLink : p.cls ≠ .link := by
    rintro cls
    cases p <;> cases cls
    cases reqId
  have notSum : p.cls ≠ .sum := by
    rintro cls
    cases p <;> cases cls
    cases reqId
  obtain ⟨u, run, heard⟩ := exec_adeidFrameRx_routes lanes up good payload notLink notSum accepted
  obtain ⟨l, adeid, len⟩ := heard.adeid
  have still : u.adeidSeen x.frame.src p.cls id = true := by
    rw [State.adeidSeen, adeid, heard.now]
    exact seen
  have dup : u.adeidRoute x.q x.frame p = u.adeidDup := by
    rw [State.adeidRoute, cast]
    refine (if_pos (here.trans heard.node.symm)).trans ?_
    rw [State.adeidAccept, reqId]
    exact if_pos still
  rw [dup] at run
  exact ⟨_, run, (congrArg (fun a : AdeidState => satInc 16 a.dups) adeid :), (congrArg AdeidState.seen adeid :),
    (State.adeidDup_kept heard.kept).frame⟩

/-- A forwarded frame leaves the nodes as heartbeats show them (R499). -/
theorem State.adeidForward_states (s : State) (q : Nat) (f : AdeidFrame) : (s.adeidForward q f).adeid.states = s.adeid.states := by
  unfold State.adeidForward
  extract_lets f
  repeat' split
  all_goals rfl

/-- TOPO renews its node's heartbeat on its ring, under its number (R501). -/
theorem State.topoRx_beat {src : Nat} (h : src < s.adeid.states.length) (secondary : Bool) (n : Nat) (l : List Bool) :
    (if secondary then (nth (s.topoRx src secondary n l).adeid.states src {}).beatS
      else (nth (s.topoRx src secondary n l).adeid.states src {}).beatP) = some s.now ∧
      (nth (s.topoRx src secondary n l).adeid.states src {}).seq = n := by
  unfold State.topoRx
  extract_lets x dup u
  obtain ⟨w, hw⟩ : ∃ w, u.when dup State.adeidDup = w := ⟨_, rfl⟩
  have states : w.adeid.states = u.adeid.states := by
    rw [← hw, State.when]
    split <;> rfl
  obtain ⟨p, q, reached⟩ := w.recomputeReach_reached.nodes src
  have here : nth u.adeid.states src {} = _ := nth_updAt_self s.adeid.states src _ {} h
  rw [hw, reached, states, here]
  refine ⟨?_, rfl⟩
  cases secondary <;> rfl

theorem exec_adeidFrameRx_topo (s : State) (x : AdeidIn) (n : Nat) (l : List Bool) (lanes : s.lanesOpen x.q) (up : s.linkUp x.q)
    (good : x.frame.checkOk) (payload : x.frame.payload = some (.topo n l))
    (accepted : ((nth (s.link x.q).aliveRx AdeidClass.topo.num {}).test 4 7 true x.frame.alive).1.accepted) (cast : x.frame.bcast)
    (other : x.frame.src ≠ s.adeid.node) (known : x.frame.src < s.adeid.states.length) :
    ∃ t, exec (.adeidFrameRx x) s = .next t ∧
      (if x.frame.secondary then (nth t.adeid.states x.frame.src {}).beatS else (nth t.adeid.states x.frame.src {}).beatP) = some s.now ∧
      (nth t.adeid.states x.frame.src {}).seq = n ∧ OnlyTouches [.chk, .log, .adeid] s t := by
  obtain ⟨u, run, heard⟩ := exec_adeidFrameRx_routes lanes up good payload (by exact nofun) (by exact nofun) accepted
  obtain ⟨k, adeid, len⟩ := heard.adeid
  have route : u.adeidRoute x.q x.frame (.topo n l) = (u.topoRx x.frame.src x.frame.secondary n l).adeidForward x.q x.frame := by
    rw [State.adeidRoute, if_pos cast, if_neg (by rw [heard.node]; exact other)]
    rfl
  obtain ⟨beat, seq⟩ := State.topoRx_beat (s := u) (src := x.frame.src) (by rw [adeid]; exact known) x.frame.secondary n l
  rw [route] at run
  refine ⟨_, run, ?_, ?_, (State.adeidForward_kept _ _ (State.topoRx_kept _ _ _ _ heard.kept)).frame⟩
  · rw [State.adeidForward_states, beat, heard.now]
  · rw [State.adeidForward_states, seq]

/-- Settles O49, clause by clause. -/
theorem framesAreTakenForwardedOrWrapped : Obligations.FramesAreTakenForwardedOrWrapped :=
  ⟨exec_adeidFrameRx_unheard, exec_adeidFrameRx_checkFails, exec_adeidFrameRx_discards,
    fun s x n d l h lanes training good link =>
      ⟨exec_adeidFrameRx_linkValid s x n d l h lanes training good link, exec_adeidFrameRx_linkInvalid s x n d l h lanes training good link⟩,
    fun s x p h lanes up good payload _ last _ => exec_adeidFrameRx_repeat s x p h lanes up good payload last,
    fun s x p links h lanes up good payload notLink notSum accepted cast away hops =>
      ⟨exec_adeidFrameRx_forwards s x p links h lanes up good payload notLink notSum accepted cast away hops,
        exec_adeidFrameRx_wraps s x p links h lanes up good payload notLink notSum accepted cast away hops⟩,
    fun s x p id _ => exec_adeidFrameRx_seen s x p id,
    fun s x n l _ _ => exec_adeidFrameRx_topo s x n l⟩

end Sys2Proof.Machine
end

section
/-! SUPPORT. The fall-doors: hold, schedule, closing and opening (spec/15_host_cluster_berths.md R506, R510; spec/17_startup_power_reset.md R558, R560). -/

namespace Sys2Proof.Machine

set_option Elab.async false

open Sys2Proof

variable {s : State}

/-! ### One door and the others -/

theorem State.door_onDoor_self {d : Nat} (h : d < s.adeid.doors.length) (f : Door → Door) : (s.onDoor d f).door d = f (s.door d) :=
  nth_updAt_self _ _ _ _ h

theorem State.door_onDoor_ne {d e : Nat} (h : e ≠ d) (f : Door → Door) : (s.onDoor d f).door e = s.door e :=
  nth_updAt_ne _ _ _ _ _ (Ne.symm h)

/-! ### What the lanes of a closed door change of ADEID (R500, R506) -/

/-- Links fall and the topology follows: the record of the last closure stays, and no event is cleared. -/
structure LinksFall (a b : AdeidState) : Prop where
  lapsed : b.holdLapsed = a.holdLapsed
  cause : b.lastCause = a.lastCause
  door : b.lastDoor = a.lastDoor
  events : ∀ i, a.event.bits.getLsbD i = true → b.event.bits.getLsbD i = true

theorem LinksFall.refl (a : AdeidState) : LinksFall a a := ⟨rfl, rfl, rfl, fun _ h => h⟩

theorem LinksFall.trans {a b c : AdeidState} (h : LinksFall a b) (k : LinksFall b c) : LinksFall a c :=
  ⟨k.lapsed.trans h.lapsed, k.cause.trans h.cause, k.door.trans h.door, fun i hi => k.events i (h.events i hi)⟩

theorem State.linkChanged_falls (s : State) (q : Nat) : LinksFall s.adeid (s.linkChanged q).adeid := by
  unfold State.linkChanged
  extract_lets u
  have raised : LinksFall s.adeid (s.raise .adeid 0).adeid := ⟨rfl, rfl, rfl, fun _ hi => W1C.bits_raise_of_set s.adeid.event 0 hi⟩
  have looked : LinksFall u.adeid u.recomputeReach.adeid := by
    obtain ⟨⟨l, e, p, q, rest⟩, -, events⟩ := u.recomputeReach_reached
    exact ⟨by rw [rest], by rw [rest], by rw [rest], events⟩
  obtain ⟨l, w, n, a, sent⟩ := u.recomputeReach.sendTopo_adeid
  exact raised.trans (looked.trans ⟨by rw [sent], by rw [sent], by rw [sent], fun i hi => by rw [sent]; exact hi⟩)

theorem State.adeidLinkDown_linksFall (s : State) (q : Nat) : LinksFall s.adeid (s.adeidLinkDown q).adeid := by
  unfold State.adeidLinkDown
  split
  · exact .refl _
  · next up =>
    extract_lets u
    have fell : LinksFall s.adeid u.adeid := ⟨rfl, rfl, rfl, fun _ h => h⟩
    exact fell.trans (u.linkChanged_falls q)

theorem State.pairDown_linksFall (s : State) (d : Nat) : LinksFall s.adeid (s.pairDown d).adeid := by
  unfold State.pairDown
  split
  · exact (s.adeidLinkDown_linksFall _).trans (State.adeidLinkDown_linksFall _ _)
  · have untouched (s : State) (p : Nat) : (s.portLink p false 0).adeid = s.adeid :=
      (State.portLink_kept (M := (· ∈ [.log, .net, .ptp])) p false 0 (.refl s)).parts .adeid (by simp)
    rw [untouched, untouched]
    exact .refl _

/-! ### Closing (R506) -/

theorem State.closeDoor_shut {d : Nat} (shut : (s.door d).open_ = false) (cause : Nat) :
    s.closeDoor d cause = s.onDoor d fun x => { x with open_ := false, openAt := none } :=
  if_pos (by rw [shut]; rfl)

/-- An open door has been closed, flagged and logged, before its lanes fall (R506). -/
def State.doorShut (s : State) (d cause : Nat) : State :=
  (((s.onDoor d fun x => { x with open_ := false, openAt := none }).onAdeid fun a => { a with lastCause := cause, lastDoor := d }).raise
    .adeid 7).report .doorClose d [d, cause]

theorem State.closeDoor_open {d : Nat} (opened : (s.door d).open_ = true) (cause : Nat) : s.closeDoor d cause = (s.doorShut d cause).pairDown d :=
  if_neg (by rw [opened]; decide)

/-- What the closing of an open door is to ADEID (R506). -/
structure DoorClosed (d cause : Nat) (a : AdeidState) : Prop where
  cause : a.lastCause = cause
  door : a.lastDoor = d
  event : a.event.bits.getLsbD 7 = true

theorem State.closeDoor_closed {d : Nat} (opened : (s.door d).open_ = true) (cause : Nat) : DoorClosed d cause (s.closeDoor d cause).adeid := by
  rw [State.closeDoor_open opened]
  obtain ⟨-, last, door, events⟩ := (s.doorShut d cause).pairDown_linksFall d
  exact ⟨last, door, events 7 (W1C.raise_bits _ _ (by decide))⟩

theorem State.closeDoor_lapsed (d cause : Nat) : (s.closeDoor d cause).adeid.holdLapsed = s.adeid.holdLapsed := by
  cases now : (s.door d).open_ with
  | false => rw [State.closeDoor_shut now]; rfl
  | true =>
    rw [State.closeDoor_open now]
    exact ((s.doorShut d cause).pairDown_linksFall d).lapsed

theorem State.forEach_closeDoor_door (l : List Nat) (cause d : Nat) : (s.forEach l fun s e => s.closeDoor e cause).door d =
    if d ∈ l then { s.door d with open_ := false, openAt := none } else s.door d := by
  induction l generalizing s with
  | nil => rfl
  | cons e l ih =>
    rw [State.forEach_cons, ih, State.door_closeDoor]
    by_cases de : d = e <;> by_cases dl : d ∈ l <;> simp [de, dl]

/-- After the doors of `l` have closed for a cause, the last closure has that cause, when one of them was open. -/
theorem State.forEach_closeDoor_closed (l : List Nat) (cause : Nat)
    (h : (∃ d ∈ l, (s.door d).open_ = true) ∨ s.adeid.lastCause = cause ∧ s.adeid.event.bits.getLsbD 7 = true) :
    (s.forEach l fun s e => s.closeDoor e cause).adeid.lastCause = cause ∧
      (s.forEach l fun s e => s.closeDoor e cause).adeid.event.bits.getLsbD 7 = true := by
  induction l generalizing s with
  | nil => exact h.resolve_left (by simp)
  | cons e l ih =>
    rw [State.forEach_cons]
    refine ih ?_
    cases now : (s.door e).open_ with
    | true =>
      obtain ⟨last, -, event⟩ := State.closeDoor_closed now cause
      exact .inr ⟨last, event⟩
    | false =>
      refine h.imp (fun ⟨d, member, opened⟩ => ?_) fun before => by rw [State.closeDoor_shut now]; exact before
      have other : d ≠ e := by
        rintro rfl
        rw [now] at opened
        cases opened
      exact ⟨d, (List.mem_cons.mp member).resolve_left other, by rw [State.door_closeDoor, if_neg other]; exact opened⟩

theorem exec_doorHoldLapse_closes (s : State) (held : s.adeid.holdLapsed = false) (unrenewed : s.passed s.adeid.holdRenewed (msec 1))
    (opened : s.adeid.doors.any (·.open_)) (six : s.adeid.doors.length = 6) :
    ∃ t, exec .doorHoldLapse s = .next t ∧ t.adeid.holdLapsed = true ∧
      (∀ d, d < 6 → t.door d = { s.door d with open_ := false, openAt := none }) ∧ t.adeid.lastCause = 4 ∧
      t.adeid.event.bits.getLsbD 7 = true ∧ OnlyTouches [.log, .net, .ptp, .adeid] s t := by
  have run : exec .doorHoldLapse s = .next ((s.onAdeid fun a => { a with holdLapsed := true }).closeDoors 4) :=
    congrArg _ (if_neg (by rw [held, unrenewed, opened]; decide))
  have frame : OnlyTouches [.log, .net, .ptp, .adeid] s _ := (execDoorHoldLapse_kept (.refl s)).frame run
  obtain ⟨x, member, isOpen⟩ := List.any_eq_true.mp opened
  obtain ⟨d, hd, rfl⟩ := List.mem_iff_getElem.mp member
  have first : ((s.onAdeid fun a => { a with holdLapsed := true }).door d).open_ = true := by
    rw [State.door, nth]
    exact (congrArg (fun o : Option Door => (o.getD {}).open_) (List.getElem?_eq_getElem hd)).trans isOpen
  obtain ⟨cause, event⟩ := State.forEach_closeDoor_closed (s := s.onAdeid fun a => { a with holdLapsed := true }) (List.range 6) 4
    (.inl ⟨d, List.mem_range.mpr (six ▸ hd), first⟩)
  have doors (e : Nat) := State.forEach_closeDoor_door (s := s.onAdeid fun a => { a with holdLapsed := true }) (List.range 6) 4 e
  have lapsed := State.forEach_keeps (fun t : State => t.adeid.holdLapsed) (f := fun s e => s.closeDoor e 4) (fun _ _ => State.closeDoor_lapsed _ _)
    (List.range 6) (s.onAdeid fun a => { a with holdLapsed := true })
  rw [State.closeDoors] at run frame
  generalize ((s.onAdeid fun a => { a with holdLapsed := true }).forEach (List.range 6) fun s e => s.closeDoor e 4) = u at *
  exact ⟨u, run, lapsed, fun e he => (doors e).trans (if_pos (List.mem_range.mpr he)), cause, event, frame⟩

/-! ### The hold and its schedule (R506, R558, R560) -/

/-- The door with its opening time set, unless it is open (R558). -/
def Door.scheduled (x : Door) (t : Ns) : Door := if x.open_ then x else { x with openAt := some t }

/-- The opening time of the `i`-th of `n` doors, from an origin (R558). -/
def State.openTime (s : State) (origin : Ns) (n i : Nat) : Ns := origin + msec 300 + s.holdOff n + msec (20 * i)

/-- The doors of `l` take the times of their places, counted from an origin among `n` (R558). -/
def State.scheduleIn (s : State) (origin : Ns) (n : Nat) (l : List (Nat × Nat)) : State :=
  s.forEach l fun s p => s.onDoor p.1 fun x => x.scheduled (s.openTime origin n p.2)

theorem State.scheduleIn_cons (origin : Ns) (n : Nat) (p : Nat × Nat) (l : List (Nat × Nat)) :
    s.scheduleIn origin n (p :: l) = (s.onDoor p.1 fun x => x.scheduled (s.openTime origin n p.2)).scheduleIn origin n l := rfl

theorem State.scheduleDoors_eq (origin : Ns) : s.scheduleDoors origin = s.scheduleIn origin s.doorsWanted.length s.doorsWanted.zipIdx := rfl

theorem State.scheduleIn_door_of_not_mem {origin : Ns} {n d : Nat} {l : List (Nat × Nat)} (out : d ∉ l.map Prod.fst) :
    (s.scheduleIn origin n l).door d = s.door d := by
  induction l generalizing s with
  | nil => rfl
  | cons p l ih =>
    rw [List.map_cons, List.mem_cons, not_or] at out
    rw [State.scheduleIn_cons, ih out.2, State.door_onDoor_ne out.1]

/-- Each door of a list without repetition takes the time of its place. -/
theorem State.scheduleIn_door {origin : Ns} {n d i : Nat} {l : List (Nat × Nat)} (distinct : (l.map Prod.fst).Nodup) (h : (d, i) ∈ l)
    (there : d < s.adeid.doors.length) : (s.scheduleIn origin n l).door d = (s.door d).scheduled (s.openTime origin n i) := by
  induction l generalizing s with
  | nil => cases h
  | cons p l ih =>
    obtain ⟨apart, distinct⟩ := List.nodup_cons.mp distinct
    rw [State.scheduleIn_cons]
    obtain rfl | later := List.mem_cons.mp h
    · rw [State.scheduleIn_door_of_not_mem apart, State.door_onDoor_self there]
    · have other : d ≠ p.1 := by
        rintro rfl
        exact apart (List.mem_map.mpr ⟨_, later, rfl⟩)
      have len : d < (s.onDoor p.1 fun x => x.scheduled (s.openTime origin n p.2)).adeid.doors.length := (List.length_modify ..).symm ▸ there
      rw [ih distinct later len, State.door_onDoor_ne other]
      rfl

theorem State.mem_doorsWanted {d i : Nat} (h : s.doorsWanted[i]? = some d) : d < 6 := by
  have member := List.mem_of_getElem? h
  exact List.mem_range.mp (List.mem_filter.mp member).1

theorem State.scheduleDoors_door (six : s.adeid.doors.length = 6) (origin : Ns) {i d : Nat} (h : s.doorsWanted[i]? = some d) :
    (s.scheduleDoors origin).door d = (s.door d).scheduled (s.openTime origin s.doorsWanted.length i) := by
  rw [State.scheduleDoors_eq]
  refine State.scheduleIn_door ?_ (List.mem_zipIdx_iff_getElem?.mpr h) (six ▸ State.mem_doorsWanted h)
  rw [List.zipIdx_map_fst]
  exact List.nodup_range.filter _

/-- CORE has renewed the hold (R506). -/
def State.holdKept (s : State) : State := s.onAdeid fun a => { a with holdRenewed := s.now, holdLapsed := false }

theorem State.scheduleDoors_adeid (origin : Ns) : ∃ l, (s.scheduleDoors origin).adeid = { s.adeid with doors := l } := by
  refine State.forEach_invariant (p := fun t => ∃ l, t.adeid = { s.adeid with doors := l }) (fun t p ⟨l, ht⟩ => ?_) _ s ⟨s.adeid.doors, rfl⟩
  exact ⟨updAt t.adeid.doors p.1 _, by rw [State.onDoor, State.onAdeid_adeid, ht]⟩

theorem exec_doorHoldRenew_renews (s : State) (clock : nth s.clk.stopped 0 false = false) (free : s.sys.held = false)
    (alive : s.sys.lastwords = false) (due : s.passed s.adeid.holdRenewed 100000) :
    ∃ t, exec .doorHoldRenew s = .next t ∧ t.adeid.holdRenewed = s.now ∧ t.adeid.holdLapsed = false ∧ OnlyTouches [.adeid] s t ∧
      (s.adeid.holdLapsed = false → t.adeid.doors = s.adeid.doors) ∧
      (s.adeid.holdLapsed → 8 ≤ s.sys.stage → s.sys.stage ≤ 11 → s.adeid.doors.length = 6 → ∀ i d, s.doorsWanted[i]? = some d →
        t.door d = if (s.door d).open_ then s.door d
          else { s.door d with openAt := some (s.now + msec 300 + s.holdOff s.doorsWanted.length + msec (20 * i)) }) := by
  have run : exec .doorHoldRenew s = .next
      (s.holdKept.when (s.adeid.holdLapsed && decide (8 ≤ s.sys.stage ∧ s.sys.stage ≤ 11)) fun s => s.scheduleDoors s.now) :=
    congrArg _ (if_neg (by rw [clock, free, alive, due]; decide))
  have frame : OnlyTouches [.adeid] s _ := (execDoorHoldRenew_kept (.refl s)).frame run
  obtain ⟨l, adeid⟩ : ∃ l, (s.holdKept.when (s.adeid.holdLapsed && decide (8 ≤ s.sys.stage ∧ s.sys.stage ≤ 11)) fun s =>
      s.scheduleDoors s.now).adeid = { s.holdKept.adeid with doors := l } := by
    rw [State.when]
    split
    · exact State.scheduleDoors_adeid _
    · exact ⟨s.adeid.doors, rfl⟩
  have renewed : s.holdKept.adeid.holdRenewed = s.now ∧ s.holdKept.adeid.holdLapsed = false := ⟨rfl, rfl⟩
  refine ⟨_, run, by rw [adeid]; exact renewed.1, by rw [adeid]; exact renewed.2, frame, fun held => ?_, fun lapsed first last six i d wanted => ?_⟩
  · rw [held]
    rfl
  · rw [lapsed, decide_eq_true ⟨first, last⟩]
    exact State.scheduleDoors_door (s := s.holdKept) six s.now wanted

/-! ### A scheduled opening (R558) -/

theorem exec_doorOpenScheduled (d : Nat) {a : Ns} (time : (s.door d).openAt = some a) (due : a ≤ s.now) (shut : (s.door d).open_ = false) :
    exec (.doorOpenScheduled d) s = .next
      (if (s.door d).cmdClosed || s.doorBarred d then s.onDoor d fun x => { x with openAt := none } else s.openDoor d) := by
  refine congrArg Host.Outcome.next ((if_neg ?_).trans ?_)
  · rw [time]
    simpa using due
  · rw [shut]
    rfl

theorem exec_doorOpenScheduled_opens (s : State) (d : Nat) (a : Ns) (h : d < s.adeid.doors.length) (time : (s.door d).openAt = some a)
    (due : a ≤ s.now) (shut : (s.door d).open_ = false) (free : (s.door d).cmdClosed = false) (unbarred : s.doorBarred d = false) :
    ∃ t, exec (.doorOpenScheduled d) s = .next t ∧ t.door d = { s.door d with open_ := true, openAt := none } ∧
      t.adeid.event = s.adeid.event.raise 7 ∧ t.log = (s.report .doorOpen d [d]).log ∧ (∀ k, k ≠ d → t.door k = s.door k) ∧
      OnlyTouches [.log, .adeid] s t := by
  have run := exec_doorOpenScheduled d time due shut
  rw [free, unbarred] at run
  have frame : OnlyTouches [.log, .adeid] s _ := (execDoorOpenScheduled_kept d (.refl s)).frame run
  exact ⟨_, run, State.door_onDoor_self h _, rfl, rfl, fun k hk => State.door_onDoor_ne hk _, frame⟩

theorem exec_doorOpenScheduled_barred (s : State) (d : Nat) (a : Ns) (h : d < s.adeid.doors.length) (time : (s.door d).openAt = some a)
    (due : a ≤ s.now) (shut : (s.door d).open_ = false) (barred : (s.door d).cmdClosed ∨ s.doorBarred d) :
    ∃ t, exec (.doorOpenScheduled d) s = .next t ∧ t.door d = { s.door d with openAt := none } ∧ (∀ k, k ≠ d → t.door k = s.door k) ∧
      OnlyTouches [.adeid] s t := by
  have run := exec_doorOpenScheduled d time due shut
  rw [if_pos (by simpa using barred)] at run
  exact ⟨_, run, State.door_onDoor_self h _, fun k hk => State.door_onDoor_ne hk _, (State.onDoor_kept d _ (.refl s)).frame⟩

/-! ### DOOR_CLOSE and DOOR_OPEN (R510) -/

theorem exec_doorClose {b d : Nat} (h : s.ctlCmd b = some (.doorClose d)) : exec (.doorClose b) s =
    .next (s.runCtl b (s.refuseClose d) fun s => ((s.closeDoor d 1).onDoor d fun x => { x with cmdClosed := true }).done b) := by
  show execDoorClose b s = _
  rw [execDoorClose, h]

theorem exec_doorClose_closes (s : State) (b d : Nat) (h : s.ctlCmd b = some (.doorClose d)) (there : d < s.adeid.doors.length)
    (ok : s.refuseClose d = none) :
    ∃ t, exec (.doorClose b) s = .next t ∧ DoneOn b 0 t ∧ (t.door d).open_ = false ∧ (t.door d).cmdClosed = true ∧ (t.door d).openAt = none ∧
      ((s.door d).open_ → t.adeid.lastCause = 1 ∧ t.adeid.lastDoor = d ∧ t.adeid.event.bits.getLsbD 7 = true) ∧
      (∀ k, k ≠ d → t.door k = s.door k) ∧ OnlyTouches [.log, .net, .ptp, .host, .adeid] s t := by
  have run := exec_doorClose h
  rw [ok, State.runCtl] at run
  have frame : OnlyTouches [.log, .net, .ptp, .host, .adeid] s _ := (execDoorClose_kept b (.refl s)).frame run
  have kept : Kept (· ∈ [.log, .net, .ptp, .adeid]) (s.leaveCtl b) ((s.leaveCtl b).closeDoor d 1) := State.closeDoor_kept d 1 (.refl _)
  have doors (k : Nat) : ((s.leaveCtl b).closeDoor d 1).door k = if k = d then { s.door k with open_ := false, openAt := none } else s.door k :=
    State.door_closeDoor (s := s.leaveCtl b) d 1 k
  have len : d < ((s.leaveCtl b).closeDoor d 1).adeid.doors.length := by
    rw [State.closeDoor_doors]
    exact (List.length_modify ..).symm ▸ there
  have closed (opened : (s.door d).open_) : DoorClosed d 1 ((s.leaveCtl b).closeDoor d 1).adeid :=
    State.closeDoor_closed (s := s.leaveCtl b) opened 1
  generalize (s.leaveCtl b).closeDoor d 1 = u at run frame kept doors len closed
  have self := State.door_onDoor_self len fun x : Door => { x with cmdClosed := true }
  rw [doors d, if_pos rfl] at self
  refine ⟨_, run, State.doneOn_of_ctlCmd h (kept.parts .host (by simp)), (congrArg Door.open_ self :), (congrArg Door.cmdClosed self :),
    (congrArg Door.openAt self :), fun opened => ?_, fun k hk => ?_, frame⟩
  · obtain ⟨cause, door, event⟩ := closed opened
    exact ⟨cause, door, event⟩
  · exact (State.door_onDoor_ne hk _).trans ((doors k).trans (if_neg hk))

/-- A refused door command leaves the doors as they are (R489, R510). -/
theorem State.runCtl_refuses_doors {b : Nat} {c : BerthCmd} (h : s.ctlCmd b = some c) (r : Refuse) (f : State → State) :
    RefusedOn b r.st0 (s.runCtl b (some r) f) ∧ (s.runCtl b (some r) f).adeid.doors = s.adeid.doors := by
  obtain ⟨refused, -, frame⟩ := State.runCtl_refuses h r f
  exact ⟨refused, congrArg AdeidState.doors (frame.parts .adeid (by simp))⟩

theorem exec_doorClose_refused (s : State) (b d : Nat) (h : s.ctlCmd b = some (.doorClose d)) (holds : s.doorHasZone d ∨ s.harbour ∧ d < 2) :
    ∃ t, exec (.doorClose b) s = .next t ∧ RefusedOn b s.adeid.doorWord t ∧ t.adeid.doors = s.adeid.doors := by
  have run := exec_doorClose h
  rw [State.refuseClose, if_pos (by simpa using holds)] at run
  exact ⟨_, run, State.runCtl_refuses_doors h _ _⟩

theorem exec_doorOpen {b d : Nat} (h : s.ctlCmd b = some (.doorOpen d)) : exec (.doorOpen b) s =
    .next (s.runCtl b (s.refuseOpen d) fun s =>
      let s := s.onDoor d fun x => { x with cmdClosed := false }
      (if (s.door d).open_ then s else s.openDoor d).done b) := by
  show execDoorOpen b s = _
  rw [execDoorOpen, h]

theorem State.openDoor_door_self {d : Nat} (s : State) (h : d < s.adeid.doors.length) :
    (s.openDoor d).door d = { s.door d with open_ := true, openAt := none } := State.door_onDoor_self h _

theorem State.openDoor_door_ne {d k : Nat} (s : State) (h : k ≠ d) : (s.openDoor d).door k = s.door k := State.door_onDoor_ne h _

theorem exec_doorOpen_opens (s : State) (b d : Nat) (h : s.ctlCmd b = some (.doorOpen d)) (there : d < s.adeid.doors.length)
    (ok : s.refuseOpen d = none) :
    ∃ t, exec (.doorOpen b) s = .next t ∧ DoneOn b 0 t ∧ (t.door d).open_ = true ∧ (t.door d).cmdClosed = false ∧
      ((s.door d).open_ = false → (t.door d).openAt = none) ∧ (∀ k, k ≠ d → t.door k = s.door k) ∧ OnlyTouches [.log, .host, .adeid] s t := by
  have run := exec_doorOpen h
  rw [ok, State.runCtl] at run
  have frame : OnlyTouches [.log, .host, .adeid] s _ := (execDoorOpen_kept b (.refl s)).frame run
  have freed : ((s.leaveCtl b).onDoor d fun x => { x with cmdClosed := false }).door d = { s.door d with cmdClosed := false } :=
    State.door_onDoor_self (s := s.leaveCtl b) there _
  have others (k : Nat) (hk : k ≠ d) : ((s.leaveCtl b).onDoor d fun x => { x with cmdClosed := false }).door k = s.door k :=
    State.door_onDoor_ne (s := s.leaveCtl b) hk _
  have len : d < ((s.leaveCtl b).onDoor d fun x => { x with cmdClosed := false }).adeid.doors.length := (List.length_modify ..).symm ▸ there
  obtain ⟨u, hu⟩ : ∃ u, ((s.leaveCtl b).onDoor d fun x => { x with cmdClosed := false }) = u := ⟨_, rfl⟩
  have host : u.host = (s.leaveCtl b).host := by rw [← hu]; rfl
  rw [hu] at freed len
  simp only [hu] at run frame others
  cases now : (s.door d).open_ with
  | true =>
    have opened : (u.door d).open_ = true := by rw [freed]; exact now
    rw [if_pos opened] at run frame
    exact ⟨_, run, State.doneOn_of_ctlCmd h host, opened, (congrArg Door.cmdClosed freed :), nofun, others, frame⟩
  | false =>
    have shut : ¬(u.door d).open_ = true := by rw [freed, now]; decide
    rw [if_neg shut] at run frame
    have self : ((u.openDoor d).done b).door d = { u.door d with open_ := true, openAt := none } :=
      u.openDoor_door_self len
    rw [freed] at self
    exact ⟨_, run, State.doneOn_of_ctlCmd h host, (congrArg Door.open_ self :), (congrArg Door.cmdClosed self :), fun _ => (congrArg Door.openAt self :),
      fun k hk => (u.openDoor_door_ne hk).trans (others k hk), frame⟩

theorem exec_doorOpen_refused (s : State) (b d : Nat) (h : s.ctlCmd b = some (.doorOpen d)) (barred : s.doorBarred d) :
    ∃ t, exec (.doorOpen b) s = .next t ∧ RefusedOn b s.adeid.doorWord t ∧ t.adeid.doors = s.adeid.doors := by
  have run := exec_doorOpen h
  rw [State.refuseOpen, if_pos (by rw [barred, Bool.or_true])] at run
  exact ⟨_, run, State.runCtl_refuses_doors h _ _⟩

/-- Settles O50, clause by clause. -/
theorem doorsOpenAndClose : Obligations.DoorsOpenAndClose :=
  ⟨exec_doorHoldRenew_renews, exec_doorHoldLapse_closes,
    fun s d a h time due shut =>
      ⟨exec_doorOpenScheduled_opens s d a h time due shut, exec_doorOpenScheduled_barred s d a h time due shut⟩,
    fun s b d h there => ⟨exec_doorClose_closes s b d h there, exec_doorClose_refused s b d h⟩,
    fun s b d h there => ⟨exec_doorOpen_opens s b d h there, exec_doorOpen_refused s b d h⟩⟩

end Sys2Proof.Machine
end

section
/-! SUPPORT. Self-tests, memory errors and the health state (spec/18_health_and_service_life.md R575, R576, R583, R584, R586). -/

namespace Sys2Proof.Machine

set_option Elab.async false

open Sys2Proof

variable {s : State}

/-! ### The health state (R583, R584) -/

/-- What the renewal of the health state leaves of DIAG: its health, its events and ALERT_N may change, and no event is cleared. -/
theorem State.updateHealth_diag (s : State) : ∃ e a, s.updateHealth.diag = { s.diag with health := s.healthNow, event := e, alertLow := a } ∧
    ∀ i, s.diag.event.bits.getLsbD i = true → e.bits.getLsbD i = true := by
  unfold State.updateHealth State.when
  extract_lets h u v
  by_cases change : decide (h ≠ s.diag.health) = true
  · exact ⟨s.diag.event.raise 3, _, by unfold v; rw [if_pos change]; rfl, fun i hi => W1C.bits_raise_of_set _ 3 hi⟩
  · exact ⟨s.diag.event, _, by unfold v; rw [if_neg change]; rfl, fun _ hi => hi⟩

theorem State.updateHealth_healthNow (s : State) : s.updateHealth.healthNow = s.healthNow := by
  unfold State.updateHealth
  extract_lets h u v
  have last : (v.onDiag fun d => { d with alertLow := v.alertDriven }).healthNow = v.healthNow := rfl
  have logged (s : State) : ((s.raise .diag 3).report .healthChange 0xFFFF [h.num]).healthNow = s.healthNow := rfl
  have set : u.healthNow = s.healthNow := rfl
  rw [last]
  exact (State.when_keeps State.healthNow logged u _).trans set

theorem State.updateHealth_health (s : State) : s.updateHealth.diag.health = s.updateHealth.healthNow := by
  obtain ⟨e, a, diag, -⟩ := s.updateHealth_diag
  rw [s.updateHealth_healthNow]
  exact congrArg DiagState.health diag

/-- ALERT_N follows the health state that has just been set (R584). -/
theorem State.updateHealth_alert (s : State) : s.updateHealth.diag.alertLow = s.updateHealth.alertDriven := by
  unfold State.updateHealth
  rfl

theorem State.updateHealth_frame (s : State) : OnlyTouches [.log, .diag] s s.updateHealth := (State.updateHealth_kept (.refl s)).frame

/-! ### Self-tests (R575) -/

theorem State.testAction_diag (s : State) (t : SelfTest) (l : LoopId) (pass : Bool) : (s.testAction t l pass).diag = s.diag := by
  have kept : Kept (· ∉ [.diag]) s (s.testAction t l pass) := State.testAction_kept t l pass (.refl s)
  exact kept.parts .diag (by simp)

/-- Only the crypto test acts on SEC (R575). -/
theorem State.testAction_sec (s : State) (t : SelfTest) (l : LoopId) (pass : Bool) :
    (s.testAction t l pass).sec = if t = .crypto then { s.sec with cryptoFail := !pass } else s.sec := by
  cases t with
  | crypto => rfl
  | clkGuard =>
    rw [if_neg (by decide)]
    unfold State.testAction
    dsimp only
    split
    · rfl
    · split
      · exact (State.mpllLost_kept (M := (· ∉ [.sec])) (.refl s)).parts .sec (by simp)
      · exact (State.loopGuarded_kept (M := (· ∉ [.sec])) l (.refl s)).parts .sec (by simp)
  | sram | dram | mram | protKat | chk | formLockstep | scrub => rfl

/-- The two lists of a test's result: it has run now, and it stands as failing exactly when it fails (R575). -/
structure Tested (t : SelfTest) (pass : Bool) (now : Ns) (d e : DiagState) : Prop where
  ran : e.ranAt = d.ranAt.set t.bit now
  passed : pass → e.testFail = d.testFail ∧ t ∉ e.failing
  failed : pass = false → e.testFail = d.testFail ||| flag t.bit true ∧ t ∈ e.failing ∧ e.event.bits.getLsbD 0 = true
  others : ∀ y, y ≠ t → (y ∈ e.failing ↔ y ∈ d.failing)

theorem State.testResult_tested (s : State) (t : SelfTest) (part : Nat) (pass : Bool) : Tested t pass s.now s.diag (s.testResult t part pass).diag := by
  cases pass with
  | true =>
    have passed : (s.testResult t part true).diag =
        { s.diag with ranAt := s.diag.ranAt.set t.bit s.now, failing := s.diag.failing.filter (· != t) } := rfl
    rw [passed]
    exact ⟨rfl, fun _ => ⟨rfl, by simp⟩, nofun, fun y hy => by simp [hy]⟩
  | false =>
    have failed : (s.testResult t part false).diag =
        { s.diag with
          ranAt := s.diag.ranAt.set t.bit s.now, testFail := s.diag.testFail ||| flag t.bit true
          failing := if s.diag.failing.contains t then s.diag.failing else s.diag.failing ++ [t], event := s.diag.event.raise 0 } := rfl
    rw [failed]
    refine ⟨rfl, nofun, fun _ => ⟨rfl, ?_, W1C.raise_bits _ _ (by decide)⟩, fun y hy => ?_⟩
    · by_cases h : t ∈ s.diag.failing <;> simp [h]
    · by_cases h : t ∈ s.diag.failing <;> simp [h, hy]

theorem State.testResult_sec (t : SelfTest) (part : Nat) (pass : Bool) : (s.testResult t part pass).sec = s.sec :=
  (State.testResult_kept (M := (· ∉ [.sec])) t part pass (.refl s)).parts .sec (by simp)

/-- A periodic self-test that is due runs, acts and moves the health state (R575, R583). -/
theorem exec_diagSelftestPeriodic {x : SelfTest} {d : Ns} (l : LoopId) (pass : Bool) (interval : x.interval = some d) (free : s.sys.held = false)
    (due : s.passed (nth s.diag.ranAt x.bit 0) d) : exec (.diagSelftestPeriodic x l pass) s =
      .next ((s.testResult x (if x = .clkGuard then l.num else 0) pass).testAction x l pass).updateHealth := by
  show execDiagSelftestPeriodic x l pass s = _
  rw [execDiagSelftestPeriodic, interval]
  exact congrArg Host.Outcome.next (if_neg (by rw [free, due]; decide))

theorem State.testAction_crypto_kept {M : Part → Prop} {a : State} {l : LoopId} {pass : Bool} (h : Kept M a s) (mSec : M .sec) :
    Kept M a (s.testAction .crypto l pass) :=
  State.onSec_kept (f := fun x => { x with cryptoFail := !pass }) h (SecKept.same rfl rfl rfl rfl rfl) mSec

/-- The action of a test but a failed clock guard calibration stays in SEC. -/
theorem State.testAction_kept_of {M : Part → Prop} {a : State} {x : SelfTest} {pass : Bool} (l : LoopId) (h : Kept M a s) (mild : x ≠ .clkGuard ∨ pass)
    (mSec : M .sec) : Kept M a (s.testAction x l pass) := by
  cases x with
  | crypto => exact State.testAction_crypto_kept h mSec
  | clkGuard =>
    obtain rfl : pass = true := mild.resolve_left (absurd rfl)
    exact h
  | sram | dram | mram | protKat | chk | formLockstep | scrub => exact h

theorem exec_diagSelftestPeriodic_runs (s : State) (x : SelfTest) (l : LoopId) (d : Ns) (pass : Bool) (interval : x.interval = some d)
    (free : s.sys.held = false) (due : s.passed (nth s.diag.ranAt x.bit 0) d) (there : x.bit < s.diag.ranAt.length) :
    ∃ t, exec (.diagSelftestPeriodic x l pass) s = .next t ∧ nth t.diag.ranAt x.bit 0 = s.now ∧
      (pass → t.diag.testFail = s.diag.testFail ∧ x ∉ t.diag.failing) ∧
      (pass = false → t.diag.testFail = s.diag.testFail ||| flag x.bit true ∧ x ∈ t.diag.failing ∧ t.diag.event.bits.getLsbD 0 = true) ∧
      (∀ y, y ≠ x → (y ∈ t.diag.failing ↔ y ∈ s.diag.failing)) ∧ t.sec = (if x = .crypto then { s.sec with cryptoFail := !pass } else s.sec) ∧
      t.diag.health = t.healthNow ∧ t.diag.alertLow = t.alertDriven ∧ (x ≠ .clkGuard ∨ pass → OnlyTouches [.log, .sec, .diag] s t) := by
  have run := exec_diagSelftestPeriodic l pass interval free due
  have tested := s.testResult_tested x (if x = .clkGuard then l.num else 0) pass
  have sec : (s.testResult x (if x = .clkGuard then l.num else 0) pass).sec = s.sec := State.testResult_sec _ _ _
  have kept : Kept (· ∈ [.log, .sec, .diag]) s (s.testResult x (if x = .clkGuard then l.num else 0) pass) := State.testResult_kept _ _ _ (.refl s)
  generalize s.testResult x (if x = .clkGuard then l.num else 0) pass = u at run tested sec kept
  obtain ⟨e, a, diag, events⟩ := (u.testAction x l pass).updateHealth_diag
  rw [State.testAction_diag] at diag events
  refine ⟨_, run, ?_, fun h => ?_, fun h => ?_, fun y hy => ?_, ?_, State.updateHealth_health _, State.updateHealth_alert _, fun mild => ?_⟩
  · rw [diag]
    simp [nth, tested.ran, there]
  · rw [diag]
    exact tested.passed h
  · obtain ⟨bit, stands, event⟩ := tested.failed h
    rw [diag]
    exact ⟨bit, stands, events 0 event⟩
  · rw [diag]
    exact tested.others y hy
  · rw [(State.updateHealth_frame _).parts .sec (by simp), State.testAction_sec, sec]
  · exact (State.updateHealth_kept (State.testAction_kept_of l kept mild (by simp))).frame

theorem exec_diagSelftestPeriodic_rests (s : State) (x : SelfTest) (l : LoopId) (pass : Bool) (h : x.interval = none ∨ s.sys.held) :
    exec (.diagSelftestPeriodic x l pass) s = .next s := by
  show execDiagSelftestPeriodic x l pass s = _
  rw [execDiagSelftestPeriodic]
  cases interval : x.interval with
  | none => rfl
  | some d =>
    have held : s.sys.held = true := h.resolve_left (by rw [interval]; nofun)
    exact congrArg Host.Outcome.next (if_pos (by rw [held]; rfl))

/-! ### Memory errors (R576) -/

/-- The owner of a memory changes nothing of DIAG but ALERT_N (R421, R576). -/
def AlertOnly (a b : DiagState) : Prop := ∃ l, b = { a with alertLow := l }

theorem AlertOnly.of_eq {a b : DiagState} (h : b = a) : AlertOnly a b := ⟨a.alertLow, h⟩

theorem State.logBankFail_diag (cause : Nat) : AlertOnly s.diag (s.logBankFail id cause).diag := by
  unfold State.logBankFail
  split
  · exact ⟨true, rfl⟩
  · extract_lets seq u v b
    have closed : v.diag = u.diag := (State.closeTail_kept (M := (· ∉ [.diag])) .another (.refl u)).parts .diag (by simp)
    exact .of_eq closed

theorem State.mramError_diag (s : State) (bankB : Bool) (p : MramPlace) : AlertOnly s.diag (s.mramError bankB p).diag := by
  cases p with
  | logbook slot =>
    have bank (u : State) (c : Bool) (h : u.diag = s.diag) : AlertOnly s.diag (if c then u.logBankFail id 2 else u).diag := by
      cases c
      · exact .of_eq h
      · exact h ▸ State.logBankFail_diag 2
    exact bank _ _ rfl
  | slot | retained | other => exact .of_eq rfl

theorem State.eccOwner_diag (s : State) (x : EccIn) : AlertOnly s.diag (s.eccOwner x).diag := by
  unfold State.eccOwner
  split
  · exact .of_eq ((State.captEcc_kept (M := (· ∉ [.diag])) _ (.refl s)).parts .diag (by simp))
  · exact .of_eq ((State.laneOut_kept (M := (· ∉ [.diag])) .a .ecc (.refl (s.onLane .a _))).parts .diag (by simp))
  · exact .of_eq ((State.laneOut_kept (M := (· ∉ [.diag])) .b .ecc (.refl (s.onLane .b _))).parts .diag (by simp))
  · split
    · exact .of_eq ((State.logicHalt_kept (M := (· ∉ [.diag])) .ecc (.refl s)).parts .diag (by simp))
    · exact .of_eq rfl
  · exact s.mramError_diag false _
  · exact s.mramError_diag true _
  · exact .of_eq rfl

/-- A lane that goes OUT keeps its ECC flag (R192). -/
theorem State.laneOut_ecc (s : State) (l : LaneId) (c : OutCause) : ((s.laneOut l c).prot.lane l).ecc = (s.prot.lane l).ecc := by
  unfold State.laneOut
  split
  · rfl
  · extract_lets u v w x
    have out : (w.prot.lane l).ecc = (s.prot.lane l).ecc := by cases l <;> rfl
    have off : (w.elemsOff w.prot.elems).prot = w.prot := (State.elemsOff_kept (M := (· ∉ [.prot])) _ (.refl w)).parts .prot (by simp)
    split
    · have quiet : ((x.raise .prot 10).report .protNoLane).prot.lane l = (w.elemsOff w.prot.elems).prot.lane l := by cases l <;> rfl
      rw [quiet, off, out]
    · exact out

theorem exec_diagEccError {x : EccIn} (h : x.m < 8) : exec (.diagEccError x) s = .next
    (if x.corrected then s.eccCount x.m x.addr x.corrected else (s.eccCount x.m x.addr x.corrected).eccOwner x).updateHealth :=
  congrArg Host.Outcome.next (if_neg (Nat.not_le.mpr h))

/-- A corrected error is counted (R576). -/
theorem State.eccCount_corrected (s : State) (m addr : Nat) : ∃ (at_ : EccMem → Option Ns) (n : EccMem → Nat), (s.eccCount m addr true).diag =
    { s.diag with ecc := updAt s.diag.ecc m fun e => { e with corrected := satInc 16 e.corrected, hourAt := at_ e, hourCount := n e } } := by
  obtain ⟨same, recent⟩ : ∃ c, ((nth s.diag.ecc m {}).hourAt.any fun t => decide (s.now < t + secs 3600)) = c := ⟨_, rfl⟩
  refine ⟨fun e => if same then e.hourAt else some s.now, fun e => if same then e.hourCount + 1 else 1, ?_⟩
  unfold State.eccCount
  rw [if_pos rfl]
  dsimp only
  rw [recent]
  cases same <;> rfl

theorem exec_diagEccError_corrected (s : State) (x : EccIn) (h : x.m < 8) (there : x.m < s.diag.ecc.length) (corrected : x.corrected) :
    ∃ t, exec (.diagEccError x) s = .next t ∧ (nth t.diag.ecc x.m {}).corrected = satInc 16 (nth s.diag.ecc x.m {}).corrected ∧
      (nth t.diag.ecc x.m {}).uncorrected = (nth s.diag.ecc x.m {}).uncorrected ∧ t.diag.health = t.healthNow ∧
      t.diag.alertLow = t.alertDriven ∧ (∀ i, i ≠ x.m → nth t.diag.ecc i {} = nth s.diag.ecc i {}) ∧ OnlyTouches [.log, .diag] s t := by
  have run := exec_diagEccError (s := s) h
  rw [if_pos corrected, corrected] at run
  obtain ⟨a, n, counted⟩ := s.eccCount_corrected x.m x.addr
  have kept : Kept (· ∈ [.log, .diag]) s (s.eccCount x.m x.addr true) := State.eccCount_kept _ _ _ (.refl s)
  generalize s.eccCount x.m x.addr true = u at run counted kept
  obtain ⟨e, al, diag, -⟩ := u.updateHealth_diag
  have here := nth_updAt_self s.diag.ecc x.m (fun e => { e with corrected := satInc 16 e.corrected, hourAt := a e, hourCount := n e }) {} there
  rw [counted] at diag
  refine ⟨_, run, ?_, ?_, State.updateHealth_health _, State.updateHealth_alert _, fun i hi => ?_, (State.updateHealth_kept kept).frame⟩
  · rw [diag]
    exact (congrArg EccMem.corrected here :)
  · rw [diag]
    exact (congrArg EccMem.uncorrected here :)
  · rw [diag]
    exact nth_updAt_ne _ _ _ _ _ (Ne.symm hi)

theorem exec_diagEccError_uncorrected (s : State) (x : EccIn) (h : x.m < 8) (there : x.m < s.diag.ecc.length) (uncorrected : x.corrected = false) :
    ∃ t, exec (.diagEccError x) s = .next t ∧ (nth t.diag.ecc x.m {}).uncorrected = satInc 16 (nth s.diag.ecc x.m {}).uncorrected ∧
      (nth t.diag.ecc x.m {}).uncorrAt = some s.now ∧ t.diag.event.bits.getLsbD 1 = true ∧ t.diag.health = t.healthNow ∧
      t.diag.alertLow = t.alertDriven ∧ (∀ i, i ≠ x.m → nth t.diag.ecc i {} = nth s.diag.ecc i {}) ∧
      (x.m = 2 → (t.prot.lane .a).ecc = true) ∧ (∀ b, 6 ≤ x.m → x.place = .slot b → (t.sec.slot b).memError = true) ∧
      OnlyTouches [.prot, .logic, .fio, .capt, .log, .sec, .diag] s t := by
  have run := exec_diagEccError (s := s) h
  rw [if_neg (by rw [uncorrected]; decide), uncorrected] at run
  have counted : (s.eccCount x.m x.addr false).diag = { s.diag with
      ecc := updAt s.diag.ecc x.m fun e => { e with uncorrected := satInc 16 e.uncorrected, uncorrAt := some s.now }
      event := s.diag.event.raise 1 } := rfl
  have kept : Kept (· ∈ [.prot, .logic, .fio, .capt, .log, .sec, .diag]) s (s.eccCount x.m x.addr false) := State.eccCount_kept _ _ _ (.refl s)
  generalize s.eccCount x.m x.addr false = u at run counted kept
  obtain ⟨l, owner⟩ := u.eccOwner_diag x
  obtain ⟨e, al, diag, events⟩ := (u.eccOwner x).updateHealth_diag
  have after := (u.eccOwner x).updateHealth_frame
  have here := nth_updAt_self s.diag.ecc x.m (fun e => { e with uncorrected := satInc 16 e.uncorrected, uncorrAt := some s.now }) {} there
  rw [owner, counted] at diag events
  refine ⟨_, run, ?_, ?_, ?_, State.updateHealth_health _, State.updateHealth_alert _, fun i hi => ?_, fun lane => ?_, fun b last slot => ?_,
    (State.updateHealth_kept (State.eccOwner_kept x kept)).frame⟩
  · rw [diag]
    exact (congrArg EccMem.uncorrected here :)
  · rw [diag]
    exact (congrArg EccMem.uncorrAt here :)
  · rw [diag]
    exact events 1 (W1C.raise_bits _ _ (by decide))
  · rw [diag]
    exact nth_updAt_ne _ _ _ _ _ (Ne.symm hi)
  · have out : u.eccOwner x = (u.onLane .a fun l => { l with ecc := true }).laneOut .a .ecc := by
      rw [State.eccOwner, lane]
      rfl
    rw [after.parts .prot (by simp), out, State.laneOut_ecc]
    rfl
  · have marked : ((u.eccOwner x).sec.slot b).memError = true := by
      obtain six | seven : x.m = 6 ∨ x.m = 7 := by omega
      · rw [State.eccOwner, six, slot]
        cases b <;> rfl
      · rw [State.eccOwner, seven, slot]
        cases b <;> rfl
    rw [after.parts .sec (by simp), marked]

/-! ### The bundle (R586) -/

theorem exec_diagBundle_writes (s : State) (b : Nat) (h : s.ctlCmd b = some .diagBundle) : ∃ t, exec (.diagBundle b) s = .next t ∧ DoneOn b 0 t ∧
    (∃ u, t.diag = { s.diag with bundles := s.diag.bundles + 1, bundle := some u } ∧ u.device = s.sec.device ∧ u.ts = s.ts32 ∧
      u.ledger = s.diag.ledger ∧ u.ecc = s.diag.ecc ∧ u.ages = s.diag.ages ∧ u.temps = s.diag.temps) ∧ OnlyTouches [.log, .host, .diag] s t := by
  have run : exec (.diagBundle b) s = .next
      (((s.leaveCtl b).onDiag fun d => { d with bundles := d.bundles + 1, bundle := some (s.leaveCtl b).bundleNow }).done b) := by
    show execDiagBundle b s = _
    rw [execDiagBundle, h]
    rfl
  have frame : OnlyTouches [.log, .host, .diag] s _ := (execDiagBundle_kept b (.refl s)).frame run
  exact ⟨_, run, State.doneOn_of_ctlCmd h rfl, ⟨(s.leaveCtl b).bundleNow, rfl, rfl, rfl, rfl, rfl, rfl, rfl⟩, frame⟩

/-- Settles O53, clause by clause. -/
theorem selfTestsAndErrorsMoveHealth : Obligations.SelfTestsAndErrorsMoveHealth :=
  ⟨exec_diagSelftestPeriodic_runs, exec_diagSelftestPeriodic_rests,
    fun s x h there => ⟨exec_diagEccError_corrected s x h there, exec_diagEccError_uncorrected s x h there⟩, exec_diagBundle_writes⟩

end Sys2Proof.Machine
end

section
/-! SUPPORT. The MRAM refresh, temperature, ageing and the life ledger (spec/18_health_and_service_life.md R577 to R582). -/

namespace Sys2Proof.Machine

set_option Elab.async false

open Sys2Proof

variable {s : State}

/-! ### The refresh pass (R577, R578) -/

theorem State.when_report_diag (c : Bool) (n : Rec) (x : Nat) (l : List Int) : (s.when c fun s => s.report n x l).diag = s.diag := by
  cases c <;> rfl

/-- A flagged and logged change leaves DIAG but for its event (R588). -/
theorem State.when_raise_report_diag (c : Bool) (i : Nat) (n : Rec) (x : Nat) (l : List Int) :
    (s.when c fun s => (s.raise .diag i).report n x l).diag = { s.diag with event := if c then s.diag.event.raise i else s.diag.event } := by
  cases c <;> rfl

/-- A pass starts (R577). -/
def State.refreshStarted (s : State) : State :=
  s.onDiag fun d =>
    { d with refresh :=
      { active := true, startPtp := if s.ptp.timeKnown then s.ptpSec else 0, startOps := d.ledger.opsec, lineAt := s.now
        lateInPass := decide (refreshInterval < s.refreshAge) } }

theorem exec_mramRefreshStart (idle : s.diag.refresh.active = false) (may : s.refreshMay) (old : refreshInterval ≤ s.refreshAge) :
    exec .mramRefreshStart s = .next (s.refreshStarted.when (decide (refreshInterval < s.refreshAge)) fun t =>
      (t.raise .diag 2).report .diagRefreshLate 0xFFFF [(s.refreshAge - refreshInterval) / 86400]).updateHealth :=
  congrArg Host.Outcome.next (if_neg (by rw [idle, may, decide_eq_false (Nat.not_lt.mpr old)]; decide))

theorem exec_mramRefreshStart_starts (s : State) (idle : s.diag.refresh.active = false) (may : s.refreshMay) (old : refreshInterval ≤ s.refreshAge) :
    ∃ t, exec .mramRefreshStart s = .next t ∧
      t.diag.refresh.active = true ∧ t.diag.refresh.cursor = 0 ∧ t.diag.refresh.skipped = [] ∧ t.diag.refresh.startOps = s.diag.ledger.opsec ∧
      t.diag.refresh.startPtp = (if s.ptp.timeKnown then s.ptpSec else 0) ∧
      t.diag.refresh.lateInPass = decide (refreshInterval < s.refreshAge) ∧ (refreshInterval < s.refreshAge → t.diag.event.bits.getLsbD 2 = true) ∧
      t.diag.ledger = s.diag.ledger ∧ t.diag.health = t.healthNow ∧ OnlyTouches [.log, .diag] s t := by
  have run := exec_mramRefreshStart idle may old
  have frame : OnlyTouches [.log, .diag] s _ := (execMramRefreshStart_kept (.refl s)).frame run
  have flagged := State.when_raise_report_diag (s := s.refreshStarted) (decide (refreshInterval < s.refreshAge)) 2 .diagRefreshLate 0xFFFF
    [(s.refreshAge - refreshInterval) / 86400]
  generalize (s.refreshStarted.when _ _) = u at run frame flagged
  obtain ⟨e, a, diag, events⟩ := u.updateHealth_diag
  rw [flagged] at diag events
  have refresh : u.updateHealth.diag.refresh = s.refreshStarted.diag.refresh := (congrArg DiagState.refresh diag :)
  refine ⟨_, run, (congrArg Refresh.active refresh :), (congrArg Refresh.cursor refresh :), (congrArg Refresh.skipped refresh :),
    (congrArg Refresh.startOps refresh :), (congrArg Refresh.startPtp refresh :), (congrArg Refresh.lateInPass refresh :), fun late => ?_,
    (congrArg DiagState.ledger diag :), State.updateHealth_health _, frame⟩
  rw [diag]
  refine events 2 ?_
  rw [decide_eq_true late]
  exact W1C.raise_bits _ _ (by decide)

theorem exec_mramRefreshStart_rests (s : State) (h : s.diag.refresh.active ∨ s.refreshMay = false ∨ s.refreshAge < refreshInterval) :
    exec .mramRefreshStart s = .next s := by
  refine congrArg Host.Outcome.next (if_pos ?_)
  obtain h | h | h := h
  · rw [h, Bool.true_or, Bool.true_or]
  · rw [h, Bool.not_false, Bool.or_true, Bool.true_or]
  · rw [decide_eq_true h, Bool.or_true]

/-- A line is rewritten and its corrected error, if any, is counted (R576, R578). -/
def State.lineRewritten (s : State) (line : Nat) (corrected : Bool) : State :=
  (s.onDiag fun d => { d with refresh := d.refresh.line line corrected s.now }).when corrected fun s =>
    s.eccCount (if line < mramLines / 2 then 6 else 7) (line * 64) true

theorem State.when_eccCount_diag (c : Bool) (m addr : Nat) : ∃ l, (s.when c fun s => s.eccCount m addr true).diag = { s.diag with ecc := l } := by
  cases c with
  | false => exact ⟨s.diag.ecc, rfl⟩
  | true =>
    obtain ⟨a, n, counted⟩ := s.eccCount_corrected m addr
    exact ⟨_, counted⟩

theorem State.lineRewritten_diag (s : State) (line : Nat) (corrected : Bool) : ∃ l, (s.lineRewritten line corrected).diag =
    { s.diag with refresh := s.diag.refresh.line line corrected s.now, ecc := l } := by
  exact State.when_eccCount_diag (s := s.onDiag fun d => { d with refresh := d.refresh.line line corrected s.now }) corrected _ _

/-- The last line has been rewritten: the pass is counted and logged (R577). -/
def State.refreshDone (s : State) : State :=
  (s.onDiag fun d =>
    { d with
      refresh := { d.refresh with active := false, stored := 0 }
      ledger := { d.ledger with refreshPasses := d.ledger.refreshPasses + 1 } }).report .diagRefreshDone 0xFFFF [s.diag.refresh.corrected]

theorem exec_mramRefreshLine {line : Nat} (corrected : Bool) (active : s.diag.refresh.active) (may : s.refreshMay)
    (turn : line ∈ s.diag.refresh.skipped ∨ s.diag.refresh.cursor ≤ line ∧ line < mramLines) (due : s.passed s.diag.refresh.lineAt (secs 2)) :
    exec (.mramRefreshLine line corrected) s = .next
      (let t := s.lineRewritten line corrected
       if t.diag.refresh.cursor = mramLines ∧ t.diag.refresh.skipped = [] then t.refreshDone else t) := by
  refine congrArg Host.Outcome.next (if_neg ?_)
  have now : (s.diag.refresh.skipped.contains line || decide (s.diag.refresh.cursor ≤ line ∧ line < mramLines)) = true := by
    rw [Bool.or_eq_true, List.contains_iff_mem, decide_eq_true_iff]
    exact turn
  rw [active, may, now, due]
  decide

theorem Refresh.line_skipped {r : Refresh} {line : Nat} (h : line ∈ r.skipped) (corrected : Bool) (now : Ns) : r.line line corrected now =
    { r with lineAt := now, corrected := r.corrected + b2n corrected, skipped := r.skipped.filter (· != line) } :=
  if_pos (List.contains_iff_mem.mpr h)

/-- The pass goes on to the next line when none has been passed over (R578). -/
theorem Refresh.line_next {r : Refresh} (none : r.skipped = []) (corrected : Bool) (now : Ns) : ∃ n, r.line r.cursor corrected now =
    { r with lineAt := now, corrected := r.corrected + b2n corrected, cursor := r.cursor + 1, stored := n } := by
  refine ⟨(r.line r.cursor corrected now).stored, ?_⟩
  simp [Refresh.line, none]

theorem exec_mramRefreshLine_next (s : State) (corrected : Bool) (active : s.diag.refresh.active) (may : s.refreshMay)
    (none : s.diag.refresh.skipped = []) (due : s.passed s.diag.refresh.lineAt (secs 2)) (more : s.diag.refresh.cursor < mramLines) :
    ∃ t, exec (.mramRefreshLine s.diag.refresh.cursor corrected) s = .next t ∧
      t.diag.refresh.cursor = s.diag.refresh.cursor + 1 ∧ t.diag.refresh.lineAt = s.now ∧
      t.diag.refresh.corrected = s.diag.refresh.corrected + b2n corrected ∧
      t.diag.refresh.active = decide (s.diag.refresh.cursor + 1 ≠ mramLines) ∧
      t.diag.ledger.refreshPasses = s.diag.ledger.refreshPasses + (if s.diag.refresh.cursor + 1 = mramLines then 1 else 0) ∧
      OnlyTouches [.log, .diag] s t := by
  have run := exec_mramRefreshLine corrected active may (.inr ⟨le_refl _, more⟩) due
  have frame : OnlyTouches [.log, .diag] s _ := (execMramRefreshLine_kept s.diag.refresh.cursor corrected (.refl s)).frame run
  obtain ⟨l, diag⟩ := s.lineRewritten_diag s.diag.refresh.cursor corrected
  obtain ⟨n, line⟩ := Refresh.line_next none corrected s.now
  rw [line] at diag
  generalize s.lineRewritten s.diag.refresh.cursor corrected = u at run frame diag
  have cursor : u.diag.refresh.cursor = s.diag.refresh.cursor + 1 := by rw [diag]
  have skipped : u.diag.refresh.skipped = [] := by rw [diag]; exact none
  have lineAt : u.diag.refresh.lineAt = s.now := by rw [diag]
  have counted : u.diag.refresh.corrected = s.diag.refresh.corrected + b2n corrected := by rw [diag]
  have passes : u.diag.ledger.refreshPasses = s.diag.ledger.refreshPasses := by rw [diag]
  have on : u.diag.refresh.active = true := by rw [diag]; exact active
  dsimp only at run frame
  by_cases last : s.diag.refresh.cursor + 1 = mramLines
  · rw [if_pos ⟨cursor.trans last, skipped⟩] at run frame
    refine ⟨_, run, cursor, lineAt, counted, ?_, ?_, frame⟩
    · exact (decide_eq_false (not_not.mpr last)).symm
    · rw [if_pos last, ← passes]
      rfl
  · rw [if_neg fun h => last (cursor.symm.trans h.1)] at run frame
    refine ⟨_, run, cursor, lineAt, counted, ?_, ?_, frame⟩
    · rw [on, decide_eq_true last]
    · rw [if_neg last, passes, Nat.add_zero]

theorem exec_mramRefreshLine_skipped (s : State) (line : Nat) (corrected : Bool) (active : s.diag.refresh.active) (may : s.refreshMay)
    (due : s.passed s.diag.refresh.lineAt (secs 2)) (waits : line ∈ s.diag.refresh.skipped) (more : s.diag.refresh.cursor < mramLines) :
    ∃ t, exec (.mramRefreshLine line corrected) s = .next t ∧
      t.diag.refresh.cursor = s.diag.refresh.cursor ∧ line ∉ t.diag.refresh.skipped ∧ t.diag.refresh.active = true ∧
      (∀ k, k ≠ line → (k ∈ t.diag.refresh.skipped ↔ k ∈ s.diag.refresh.skipped)) ∧ OnlyTouches [.log, .diag] s t := by
  have run := exec_mramRefreshLine corrected active may (.inl waits) due
  have frame : OnlyTouches [.log, .diag] s _ := (execMramRefreshLine_kept line corrected (.refl s)).frame run
  obtain ⟨l, diag⟩ := s.lineRewritten_diag line corrected
  rw [Refresh.line_skipped waits] at diag
  generalize s.lineRewritten line corrected = u at run frame diag
  have cursor : u.diag.refresh.cursor = s.diag.refresh.cursor := by rw [diag]
  have skipped : u.diag.refresh.skipped = s.diag.refresh.skipped.filter (· != line) := by rw [diag]
  have on : u.diag.refresh.active = true := by rw [diag]; exact active
  dsimp only at run frame
  rw [if_neg fun h => Nat.ne_of_lt more (cursor.symm.trans h.1)] at run frame
  refine ⟨_, run, cursor, ?_, on, fun k hk => ?_, frame⟩
  · rw [skipped]
    simp
  · rw [skipped]
    simp [hk]

/-! ### Temperature and ageing (R579, R580) -/

/-- A sensor warns beyond its limit: the baseplate above 85 °C, a die above 110 °C (R579). -/
def hot (x : List Int) : Bool := decide (850 < nth x 4 0) || (x.take 4).any fun t => decide (1100 < t)

theorem hot_iff {x : List Int} (h : x.length = 5) : hot x = true ↔ 850 < nth x 4 0 ∨ ∃ i, i < 4 ∧ 1100 < nth x i 0 := by
  rw [hot, Bool.or_eq_true, decide_eq_true_iff, List.any_eq_true]
  refine or_congr Iff.rfl ⟨fun ⟨t, member, warm⟩ => ?_, fun ⟨i, hi, warm⟩ => ?_⟩
  · obtain ⟨i, hi, rfl⟩ := List.mem_take_iff_getElem.mp member
    have lt : i < x.length := lt_of_lt_of_le hi (min_le_right ..)
    refine ⟨i, lt_of_lt_of_le hi (min_le_left ..), ?_⟩
    rw [nth, List.getElem?_eq_getElem lt]
    exact of_decide_eq_true warm
  · have lt : i < x.length := by omega
    rw [nth, List.getElem?_eq_getElem lt] at warm
    exact ⟨x[i], List.mem_take_iff_getElem.mpr ⟨i, by omega, rfl⟩, decide_eq_true warm⟩

/-- The sensors have been read (R579). -/
def State.tempsRead (s : State) (x : List Int) : State :=
  s.onDiag fun d =>
    { d with
      temps := (d.temps.zip x).map fun p => p.1.read (decide (s.diag.tempAt = 0)) p.2
      tempAt := s.now, tempWarn := hot x, tempSum := d.tempSum + nth x 4 0, tempCount := d.tempCount + 1 }

theorem exec_diagTempRead {x : List Int} (free : s.sys.held = false) (due : s.passed s.diag.tempAt (msec 100)) (five : x.length = 5) :
    exec (.diagTempRead x) s =
      .next ((s.tempsRead x).when (hot x && !s.diag.tempWarn) fun s => s.report .diagTemp 0xFFFF x).updateHealth := by
  refine congrArg Host.Outcome.next (if_neg ?_)
  rw [free, due, decide_eq_false (not_not.mpr five)]
  decide

theorem nth_read {l : List TempSensor} {x : List Int} (first : Bool) {i : Nat} (hl : i < l.length) (hx : i < x.length) :
    nth ((l.zip x).map fun p => p.1.read first p.2) i {} = (nth l i {}).read first (nth x i 0) := by
  simp [nth, hl, hx]

theorem exec_diagTempRead_reads (s : State) (x : List Int) (free : s.sys.held = false) (due : s.passed s.diag.tempAt (msec 100)) (five : x.length = 5)
    (sensors : s.diag.temps.length = 5) :
    ∃ t, exec (.diagTempRead x) s = .next t ∧
      (∀ i, i < 5 → nth t.diag.temps i {} = { now_ := nth x i 0, peak := if s.diag.tempAt = 0 then nth x i 0 else max (nth s.diag.temps i {}).peak (nth x i 0) }) ∧
      (t.diag.tempWarn ↔ 850 < nth x 4 0 ∨ ∃ i, i < 4 ∧ 1100 < nth x i 0) ∧ t.diag.tempAt = s.now ∧ t.diag.health = t.healthNow ∧
      OnlyTouches [.log, .diag] s t := by
  have run := exec_diagTempRead free due five
  have frame : OnlyTouches [.log, .diag] s _ := (execDiagTempRead_kept x (.refl s)).frame run
  have logged := State.when_report_diag (s := s.tempsRead x) (hot x && !s.diag.tempWarn) .diagTemp 0xFFFF x
  generalize ((s.tempsRead x).when _ _) = u at run frame logged
  obtain ⟨e, a, diag, -⟩ := u.updateHealth_diag
  rw [logged] at diag
  refine ⟨_, run, fun i hi => ?_, ?_, (congrArg DiagState.tempAt diag :), State.updateHealth_health _, frame⟩
  · have read : u.updateHealth.diag.temps = (s.diag.temps.zip x).map fun p => p.1.read (decide (s.diag.tempAt = 0)) p.2 :=
      (congrArg DiagState.temps diag :)
    rw [read, nth_read _ (by omega) (by omega), TempSensor.read]
    simp only [decide_eq_true_iff]
  · have warn : u.updateHealth.diag.tempWarn = hot x := (congrArg DiagState.tempWarn diag :)
    rw [warn, hot_iff five]

/-- The delay monitors have been measured (R580). -/
def State.agesMeasured (s : State) (x : List Nat) : State :=
  s.onDiag fun d =>
    { d with ages := x, ageAt := some s.now, ageWarn := x.any fun a => decide (500 ≤ a), ageAlarm := x.any fun a => decide (800 ≤ a) }

theorem exec_diagAgeMeasure {x : List Nat} (free : s.sys.held = false) (due : ∀ a, s.diag.ageAt = some a → s.passed a (secs 86400)) (five : x.length = 5) :
    ∃ c, exec (.diagAgeMeasure x) s = .next
      ((s.agesMeasured x).when c fun s => (s.raise .diag 4).report .diagAge 0xFFFF (x.map fun a => (a : Int))).updateHealth := by
  refine ⟨_, congrArg Host.Outcome.next (if_neg ?_)⟩
  have ready : s.diag.ageAt.all (fun t => s.passed t (secs 86400)) = true := (Option.all_eq_true ..).mpr due
  rw [free, ready, decide_eq_false (not_not.mpr five)]
  decide

theorem exec_diagAgeMeasure_measures (s : State) (x : List Nat) (free : s.sys.held = false)
    (due : ∀ a, s.diag.ageAt = some a → s.passed a (secs 86400)) (five : x.length = 5) :
    ∃ t, exec (.diagAgeMeasure x) s = .next t ∧ t.diag.ages = x ∧ t.diag.ageAt = some s.now ∧
      (t.diag.ageWarn ↔ ∃ a ∈ x, 500 ≤ a) ∧ (t.diag.ageAlarm ↔ ∃ a ∈ x, 800 ≤ a) ∧ t.diag.health = t.healthNow ∧ OnlyTouches [.log, .diag] s t := by
  obtain ⟨c, run⟩ := exec_diagAgeMeasure free due five
  have frame : OnlyTouches [.log, .diag] s _ := (execDiagAgeMeasure_kept x (.refl s)).frame run
  have flagged := State.when_raise_report_diag (s := s.agesMeasured x) c 4 .diagAge 0xFFFF (x.map fun a => (a : Int))
  generalize ((s.agesMeasured x).when c _) = u at run frame flagged
  obtain ⟨e, a, diag, -⟩ := u.updateHealth_diag
  rw [flagged] at diag
  have beyond (limit : Nat) : (x.any fun a => decide (limit ≤ a)) = true ↔ ∃ a ∈ x, limit ≤ a := by simp
  have warn : u.updateHealth.diag.ageWarn = x.any fun a => decide (500 ≤ a) := (congrArg DiagState.ageWarn diag :)
  have alarm : u.updateHealth.diag.ageAlarm = x.any fun a => decide (800 ≤ a) := (congrArg DiagState.ageAlarm diag :)
  refine ⟨_, run, (congrArg DiagState.ages diag :), (congrArg DiagState.ageAt diag :), ?_, ?_, State.updateHealth_health _, frame⟩
  · rw [warn, beyond]
  · rw [alarm, beyond]

/-! ### The ledger (R581, R582) -/

/-- One more operating second, committed (R581). -/
def State.ledgerSecond (s : State) : State :=
  s.onDiag fun d =>
    let l := d.ledger.second (nth d.temps 4 {}).now_
    { d with ledger := l, stored := { d.stored with opsec := l.opsec }, opsAt := s.now, opsRun := d.opsRun + 1 }

theorem exec_ledgerCommit (free : s.sys.held = false) (alive : s.sys.lastwords = false) (due : s.passed s.diag.opsAt (secs 1)) :
    exec .ledgerCommit s = .next (if 60 ≤ s.diag.opsRun + 1 then s.ledgerSecond.ageMinute else s.ledgerSecond) :=
  congrArg Host.Outcome.next (if_neg (by rw [free, alive, due]; decide))

/-- What the minute's commit makes of DIAG (R582): the equivalent age has grown, the whole ledger is committed, and LIFE_USED follows. -/
structure MinuteCommitted (a b : DiagState) : Prop where
  ledger : ∃ g, b.ledger = { a.ledger with age := g }
  stored : b.stored = b.ledger
  run : b.opsRun = 0
  count : b.tempCount = 0
  used : b.lifeUsed = b.ledger.lifeUsed
  warn : 800 ≤ b.lifeUsed → b.lifeWarn = true
  life : 1000 ≤ b.lifeUsed → b.lifeEnd = true
  time : b.opsAt = a.opsAt

theorem MinuteCommitted.event {a b : DiagState} (h : MinuteCommitted a b) (e : W1C) : MinuteCommitted a { b with event := e } :=
  ⟨h.ledger, h.stored, h.run, h.count, h.used, h.warn, h.life, h.time⟩

theorem State.ageMinute_committed (s : State) : MinuteCommitted s.diag s.ageMinute.diag ∧ s.ageMinute.diag.health = s.ageMinute.healthNow := by
  unfold State.ageMinute
  extract_lets d mean g l used warn lifeEnd u v
  refine ⟨?_, State.updateHealth_health _⟩
  have first : MinuteCommitted s.diag u.diag :=
    ⟨⟨_, rfl⟩, rfl, rfl, rfl, rfl, fun h => Bool.or_eq_true_iff.mpr (.inr (decide_eq_true h)),
      fun h => Bool.or_eq_true_iff.mpr (.inr (decide_eq_true h)), rfl⟩
  have flagged : v.diag = _ := State.when_raise_report_diag ..
  have second : MinuteCommitted s.diag v.diag := flagged ▸ first.event _
  obtain ⟨e, a, diag, -⟩ := (v.when (lifeEnd && decide (d.lifeUsed < 1000)) fun s => (s.raise .diag 5).report .diagLife 0xFFFF [used]).updateHealth_diag
  rw [State.when_raise_report_diag] at diag
  rw [diag]
  exact ⟨second.ledger, second.stored, second.run, second.count, second.used, second.warn, second.life, second.time⟩

theorem exec_ledgerCommit_commits (s : State) (free : s.sys.held = false) (alive : s.sys.lastwords = false) (due : s.passed s.diag.opsAt (secs 1)) :
    ∃ t, exec .ledgerCommit s = .next t ∧ t.diag.ledger.opsec = satInc 32 s.diag.ledger.opsec ∧
      t.diag.stored.opsec = satInc 32 s.diag.ledger.opsec ∧ t.diag.opsAt = s.now ∧
      t.diag.ledger.hist = updAt s.diag.ledger.hist (tempBin (nth s.diag.temps 4 {}).now_) (satInc 32) ∧
      t.diag.ledger.switches = s.diag.ledger.switches ∧
      (s.diag.opsRun + 1 < 60 → t.diag.ledger.age = s.diag.ledger.age ∧ t.diag.opsRun = s.diag.opsRun + 1 ∧
        t.diag.stored = { s.diag.stored with opsec := satInc 32 s.diag.ledger.opsec }) ∧
      (60 ≤ s.diag.opsRun + 1 → t.diag.stored = t.diag.ledger ∧ t.diag.opsRun = 0 ∧ t.diag.tempCount = 0 ∧
        t.diag.lifeUsed = t.diag.ledger.lifeUsed ∧ (800 ≤ t.diag.lifeUsed → t.diag.lifeWarn = true) ∧
        (1000 ≤ t.diag.lifeUsed → t.diag.lifeEnd = true) ∧ t.diag.health = t.healthNow) ∧ OnlyTouches [.log, .diag] s t := by
  have run := exec_ledgerCommit free alive due
  have frame : OnlyTouches [.log, .diag] s _ := (execLedgerCommit_kept (.refl s)).frame run
  by_cases full : 60 ≤ s.diag.opsRun + 1
  · rw [if_pos full] at run frame
    obtain ⟨⟨⟨g, ledger⟩, stored, ran, count, used, warn, life, time⟩, health⟩ := s.ledgerSecond.ageMinute_committed
    refine ⟨_, run, by rw [ledger]; rfl, by rw [stored, ledger]; rfl, time, by rw [ledger]; rfl, by rw [ledger]; rfl,
      fun early => absurd full (Nat.not_le.mpr early), fun _ => ⟨stored, ran, count, used, warn, life, health⟩, frame⟩
  · rw [if_neg full] at run frame
    exact ⟨_, run, rfl, rfl, rfl, rfl, rfl, fun _ => ⟨rfl, rfl, rfl⟩, fun late => absurd late full, frame⟩

/-- Settles O54, clause by clause. -/
theorem refreshTemperatureAndLedger : Obligations.RefreshTemperatureAndLedger :=
  ⟨exec_mramRefreshStart_starts, exec_mramRefreshStart_rests, exec_mramRefreshLine_next, exec_mramRefreshLine_skipped, exec_diagTempRead_reads,
    exec_diagAgeMeasure_measures, exec_ledgerCommit_commits⟩

end Sys2Proof.Machine
end

section
/-! SUPPORT. Root, keys, Manifest slots, promotion and proposals (spec/16_manifest_and_two_party.md R526, R527, R531, R534 to R537, R540 to R542). -/

namespace Sys2Proof.Machine

set_option Elab.async false

open Sys2Proof

variable {s : State}

/-- A refused command of SEC leaves SEC as it is (R489). -/
theorem State.runCtl_refuses_sec {b : Nat} {c : BerthCmd} (h : s.ctlCmd b = some c) (f : State → State) :
    RefusedOn b s.sec.status (s.runCtl b (some s.secRefuse) f) ∧ (s.runCtl b (some s.secRefuse) f).sec = s.sec := by
  obtain ⟨refused, -, frame⟩ := State.runCtl_refuses h s.secRefuse f
  exact ⟨refused, frame.parts .sec (by simp)⟩

/-! ### Root and keys (R526, R527) -/

theorem exec_provisionRoot {b : Nat} {k : BitVec 256} (h : s.ctlCmd b = some (.provisionRoot k)) : exec (.provisionRoot b) s =
    .next (s.runCtl b s.refuseRoot fun s => ((s.onSec fun x => { x with root := some k }).report .secRoot).done b) := by
  show execProvisionRoot b s = _
  rw [execProvisionRoot, h]

theorem exec_provisionRoot_burns (s : State) (b : Nat) (k : BitVec 256) (h : s.ctlCmd b = some (.provisionRoot k)) (empty : s.sec.root = none) :
    ∃ t, exec (.provisionRoot b) s = .next t ∧ DoneOn b 0 t ∧ t.sec = { s.sec with root := some k } ∧ OnlyTouches [.log, .host, .sec] s t := by
  have run := exec_provisionRoot h
  rw [State.refuseRoot, empty, if_neg (by decide), State.runCtl] at run
  have frame : OnlyTouches [.log, .host, .sec] s _ := (execProvisionRoot_kept b (.refl s)).frame run
  exact ⟨_, run, State.doneOn_of_ctlCmd h rfl, rfl, frame⟩

theorem exec_provisionRoot_refused (s : State) (b : Nat) (k : BitVec 256) (h : s.ctlCmd b = some (.provisionRoot k)) (burnt : s.sec.root.isSome) :
    ∃ t, exec (.provisionRoot b) s = .next t ∧ RefusedOn b s.sec.status t ∧ t.sec = s.sec := by
  have run := exec_provisionRoot h
  rw [State.refuseRoot, if_pos burnt] at run
  exact ⟨_, run, State.runCtl_refuses_sec h _⟩

theorem exec_keyInstall {b : Nat} {c : KeyCert} (h : s.ctlCmd b = some (.keyInstall c)) :
    exec (.keyInstall b) s = .next (s.runCtl b (s.refuseInstall c) fun s => (s.setKey c).done b) := by
  show execKeyInstall b s = _
  rw [execKeyInstall, h]

theorem exec_keyInstall_fills (s : State) (b : Nat) (c : KeyCert) (h : s.ctlCmd b = some (.keyInstall c)) (there : c.slot < s.sec.keys.length)
    (ok : s.sec.certOk c) (empty : (nth s.sec.keys c.slot {}).present = false) : ∃ t, exec (.keyInstall b) s = .next t ∧ DoneOn b 0 t ∧
      nth t.sec.keys c.slot {} =
        { present := true, bad := false, role := c.role, key := c.key, nonce := (nth s.sec.keys c.slot {}).nonce } ∧
      (∀ i, i ≠ c.slot → nth t.sec.keys i {} = nth s.sec.keys i {}) ∧ t.sec.event = s.sec.event.raise 11 ∧ t.sec.tallyKey = s.sec.tallyKey ∧
      OnlyTouches [.log, .host, .sec] s t := by
  have run := exec_keyInstall h
  rw [State.refuseInstall, ok, empty, if_pos (by decide), State.runCtl] at run
  have frame : OnlyTouches [.log, .host, .sec] s _ := (execKeyInstall_kept b (.refl s)).frame run
  exact ⟨_, run, State.doneOn_of_ctlCmd h rfl, nth_updAt_self _ _ _ _ there, fun i hi => nth_updAt_ne _ _ _ _ _ (Ne.symm hi), rfl, rfl, frame⟩

theorem exec_keyInstall_refused (s : State) (b : Nat) (c : KeyCert) (h : s.ctlCmd b = some (.keyInstall c))
    (bad : s.sec.certOk c = false ∨ (nth s.sec.keys c.slot {}).present) :
    ∃ t, exec (.keyInstall b) s = .next t ∧ RefusedOn b s.sec.status t ∧ t.sec = s.sec := by
  have run := exec_keyInstall h
  have refuse : s.refuseInstall c = some s.secRefuse := by
    refine if_neg ?_
    rw [Bool.and_eq_true, Bool.not_eq_true', not_and_or, Bool.not_eq_true, Bool.not_eq_false]
    exact bad
  rw [refuse] at run
  exact ⟨_, run, State.runCtl_refuses_sec h _⟩

/-! ### Manifest slots (R531, R534, R535) -/

theorem SecState.slot_setSlot_self (x : SecState) (b : Bool) (k : Slot) : (x.setSlot b k).slot b = k := by cases b <;> rfl
theorem SecState.slot_setSlot_other (x : SecState) (b : Bool) (k : Slot) : (x.setSlot b k).slot (!b) = x.slot (!b) := by cases b <;> rfl
theorem SecState.setSlot_event (x : SecState) (b : Bool) (k : Slot) : (x.setSlot b k).event = x.event := by cases b <;> rfl

theorem exec_manifestLoad {b : Nat} {slot : Bool} {m : Image} (h : s.ctlCmd b = some (.manifestLoad slot m)) : exec (.manifestLoad b) s =
    .next (s.runCtl b (s.refuseLoad slot) fun s =>
      (s.onSec fun x => x.setSlot slot
        { phase := .verifying, image := some m, cause := (x.slot slot).cause, shown := (x.slot slot).shown
          section_ := (x.slot slot).section_ }).done b) := by
  show execManifestLoad b s = _
  rw [execManifestLoad, h]

theorem exec_manifestLoad_writes (s : State) (b : Nat) (slot : Bool) (m : Image) (h : s.ctlCmd b = some (.manifestLoad slot m))
    (ok : s.refuseLoad slot = none) : ∃ t, exec (.manifestLoad b) s = .next t ∧ DoneOn b 0 t ∧
      t.sec.slot slot = { phase := .verifying, image := some m, cause := (s.sec.slot slot).cause, shown := (s.sec.slot slot).shown
                          section_ := (s.sec.slot slot).section_ } ∧ t.sec.slot (!slot) = s.sec.slot (!slot) ∧
      OnlyTouches [.log, .host, .sec] s t := by
  have run := exec_manifestLoad h
  rw [ok, State.runCtl] at run
  have frame : OnlyTouches [.log, .host, .sec] s _ := (execManifestLoad_kept b (.refl s)).frame run
  exact ⟨_, run, State.doneOn_of_ctlCmd h rfl, SecState.slot_setSlot_self _ _ _, SecState.slot_setSlot_other _ _ _, frame⟩

theorem exec_manifestLoad_refused (s : State) (b : Nat) (slot : Bool) (m : Image) (h : s.ctlCmd b = some (.manifestLoad slot m))
    (busy : s.sec.live ∧ s.sec.liveB = slot ∨ s.sec.slotA.loading ∨ s.sec.slotB.loading) :
    ∃ t, exec (.manifestLoad b) s = .next t ∧ RefusedOn b s.sec.status t ∧ t.sec = s.sec := by
  have run := exec_manifestLoad h
  rw [State.refuseLoad, if_pos (by simpa [or_assoc] using busy)] at run
  exact ⟨_, run, State.runCtl_refuses_sec h _⟩

/-- A slot passes its verification (R531). -/
def State.verified (s : State) (b : Bool) : State := s.onSec fun x => x.setSlot b { x.slot b with phase := .valid, rejected := false }

theorem State.verifySlot_valid {b : Bool} (ok : s.sec.rejectSlot b = none) : s.verifySlot b = s.verified b := by rw [State.verifySlot, ok]; rfl
theorem State.verifySlot_rejected {b : Bool} {r : Reject} (bad : s.sec.rejectSlot b = some r) : s.verifySlot b = s.rejected b r := by
  rw [State.verifySlot, bad]

/-- What a rejection leaves of SEC: the slot shows it, and but for the envelope's the event is set (R39, R531). -/
theorem State.rejected_sec (s : State) (b : Bool) (r : Reject) : (s.rejected b r).sec =
    { s.sec.setSlot b ((s.sec.slot b).reject r) with event := if r.cause = 9 then s.sec.event else s.sec.event.raise 0 } := by
  unfold State.rejected
  extract_lets bad u v
  have sec : u.sec = s.sec := State.forEach_keeps State.sec (fun s _ => (rfl : (s.pathFail 6).sec = s.sec)) _ s
  have slot : v.sec = s.sec.setSlot b ((s.sec.slot b).reject r) := by
    rw [← sec]
    rfl
  split
  · rw [State.report_sec, slot]
    cases b <;> rfl
  · rw [State.report_sec, State.raise_at_sec, slot, SecState.setSlot_event]

theorem exec_manifestVerifyDone {slot : Bool} (verifying : (s.sec.slot slot).phase = .verifying) : exec (.manifestVerifyDone slot) s =
    .next ((s.verifySlot slot).when (((s.verifySlot slot).sec.slot slot).phase == .valid) fun s => s.report .manifestLoaded 0xFFFF [b2n slot]) :=
  congrArg Host.Outcome.next (if_neg (not_not.mpr verifying))

theorem exec_manifestVerifyDone_valid (s : State) (slot : Bool) (verifying : (s.sec.slot slot).phase = .verifying)
    (ok : s.sec.rejectSlot slot = none) : ∃ t, exec (.manifestVerifyDone slot) s = .next t ∧
      t.sec.slot slot = { s.sec.slot slot with phase := .valid, rejected := false } ∧
      t.sec.slot (!slot) = s.sec.slot (!slot) ∧ t.sec.event = s.sec.event ∧ OnlyTouches [.log, .sec] s t := by
  have run := exec_manifestVerifyDone verifying
  have self : (s.verified slot).sec.slot slot = _ := SecState.slot_setSlot_self _ _ _
  rw [State.verifySlot_valid ok, self] at run
  have kept : Kept (· ∈ [.log, .sec]) s (s.verified slot) := State.onSec_kept (.refl s) (SecKept.setSlot _ _ _)
  exact ⟨_, run, self, SecState.slot_setSlot_other _ _ _, SecState.setSlot_event _ _ _, (State.report_kept _ _ _ kept).frame⟩

theorem exec_manifestVerifyDone_rejected (s : State) (slot : Bool) (verifying : (s.sec.slot slot).phase = .verifying) (r : Reject)
    (bad : s.sec.rejectSlot slot = some r) : ∃ t, exec (.manifestVerifyDone slot) s = .next t ∧
      (t.sec.slot slot).phase = .empty ∧ (t.sec.slot slot).rejected = true ∧ (t.sec.slot slot).cause = r.cause ∧
      (t.sec.slot slot).image = (s.sec.slot slot).image ∧ t.sec.slot (!slot) = s.sec.slot (!slot) ∧
      (r.cause ≠ 9 → (t.sec.slot slot).shown = r.cause ∧ (t.sec.slot slot).section_ = r.sect ∧ t.sec.event = s.sec.event.raise 0) ∧
      (r.cause = 9 → (t.sec.slot slot).shown = (s.sec.slot slot).shown ∧ t.sec.event = s.sec.event) ∧ OnlyTouches [.log, .chk, .sec] s t := by
  have run := exec_manifestVerifyDone verifying
  have frame : OnlyTouches [.log, .chk, .sec] s _ := (execManifestVerifyDone_kept slot (.refl s)).frame run
  have sec := s.rejected_sec slot r
  rw [State.verifySlot_rejected bad] at run frame
  have self : (s.rejected slot r).sec.slot slot = (s.sec.slot slot).reject r := by
    rw [sec]
    cases slot <;> rfl
  have other : (s.rejected slot r).sec.slot (!slot) = s.sec.slot (!slot) := by
    rw [sec]
    cases slot <;> rfl
  have event : (s.rejected slot r).sec.event = if r.cause = 9 then s.sec.event else s.sec.event.raise 0 := by rw [sec]
  generalize s.rejected slot r = u at run frame self other event
  rw [self] at run frame
  refine ⟨u, run, by rw [self]; rfl, by rw [self]; rfl, by rw [self]; rfl, by rw [self]; rfl, other, fun h => ?_, fun h => ?_, frame⟩
  · rw [self, event, if_neg h]
    exact ⟨if_neg h, if_neg h, rfl⟩
  · rw [self, event, if_pos h]
    exact ⟨if_pos h, rfl⟩

theorem exec_manifestActivate {b : Nat} {slot : Bool} (h : s.ctlCmd b = some (.manifestActivate slot)) : exec (.manifestActivate b) s =
    .next (s.runCtl b (s.refuseActivate slot) fun s =>
      (s.onSec fun x => { x with activations := x.activations ++ [{ slotB := slot, berth := b, boundary := s.prot.boundary }] }).toTarget b) := by
  show execManifestActivate b s = _
  rw [execManifestActivate, h]

theorem exec_manifestActivate_waits (s : State) (b : Nat) (slot : Bool) (h : s.ctlCmd b = some (.manifestActivate slot))
    (ok : s.refuseActivate slot = none) : ∃ t it, exec (.manifestActivate b) s = .next t ∧
      t.sec.activations = s.sec.activations ++ [{ slotB := slot, berth := b, boundary := s.prot.boundary }] ∧
      t.item b = some it ∧ it.stage = .target ∧ it.ending = none ∧ b ∉ t.host.qCtl ∧ t.sec.liveB = s.sec.liveB ∧
      OnlyTouches [.log, .host, .sec] s t := by
  have run := exec_manifestActivate h
  rw [ok, State.runCtl] at run
  have frame : OnlyTouches [.log, .host, .sec] s _ := (execManifestActivate_kept b (.refl s)).frame run
  obtain ⟨it, item, -, open_, -, -⟩ := State.ctlCmd_item h
  exact ⟨_, _, run, rfl, State.item_onItem (State.onSec (s.leaveCtl b) _) b _ it item, rfl, open_, State.not_mem_leaveCtl s b, rfl, frame⟩

theorem exec_manifestActivate_refused (s : State) (b : Nat) (slot : Bool) (h : s.ctlCmd b = some (.manifestActivate slot))
    (bad : (s.sec.slot slot).phase ≠ .valid ∨ s.sec.live ∧ s.sec.liveB = slot) :
    ∃ t, exec (.manifestActivate b) s = .next t ∧ RefusedOn b s.sec.status t ∧ t.sec = s.sec := by
  have run := exec_manifestActivate h
  have refuse : s.refuseActivate slot = some s.secRefuse := if_pos (by obtain h | ⟨h, k⟩ := bad <;> simp [*])
  rw [refuse] at run
  exact ⟨_, run, State.runCtl_refuses_sec h _⟩

/-! ### Proposals (R540 to R542) -/

theorem State.proposal_onProposal_self {i : Nat} (h : i < s.sec.proposals.length) (f : Proposal → Proposal) :
    (s.onProposal i f).proposal i = f (s.proposal i) := nth_updAt_self _ _ _ _ h

theorem State.lockStages_sec (p : Proposal) (on : Bool) : (s.lockStages p on).sec = s.sec :=
  (State.lockStages_kept (M := (· ∉ [.sec])) p on (.refl s)).parts .sec (by simp)

theorem State.lockStages_host (p : Proposal) (on : Bool) : (s.lockStages p on).host = s.host :=
  (State.lockStages_kept (M := (· ∉ [.host])) p on (.refl s)).parts .host (by simp)

theorem State.secRecord_proposal (bit : Nat) (r : Rec) (p : Proposal) (i : Nat) : (s.secRecord bit r p).proposal i = s.proposal i := rfl

theorem State.lockStages_proposal (p : Proposal) (on : Bool) (i : Nat) : (s.lockStages p on).proposal i = s.proposal i := by
  rw [State.proposal, State.lockStages_sec]
  rfl

/-- A proposal that ends keeps what it was proposed as (R542). -/
def Proposal.ended (p : Proposal) (e : PropEnd) : Proposal := { p with phase := .empty, lastEnd := e, stopped := none, confBerth := none }

theorem State.lapse_proposal (s : State) (i : Nat) (e : PropEnd) (h : i < s.sec.proposals.length) : (s.lapse i e).proposal i = (s.proposal i).ended e := by
  have len : i < (s.lockStages (s.proposal i) false).sec.proposals.length := by rw [State.lockStages_sec]; exact h
  rw [State.lapse, State.secRecord_proposal, State.endProposal, State.proposal_onProposal_self len, State.lockStages_proposal]
  rfl

theorem State.lapse_phase (s : State) (i : Nat) (e : PropEnd) (h : i < s.sec.proposals.length) : ((s.lapse i e).proposal i).phase = .empty := by
  rw [s.lapse_proposal i e h]
  rfl

theorem State.lapse_host (s : State) (i : Nat) (e : PropEnd) : (s.lapse i e).host = s.host :=
  (State.lapse_kept (M := (· ∉ [.host])) i e (.refl s)).parts .host (by simp)

theorem State.proposalOf?_lt {id : BitVec 64} {i : Nat} (h : s.proposalOf? id = some i) : i < s.sec.proposals.length := by
  obtain ⟨lt, -⟩ := List.findIdx?_eq_some_iff_getElem.mp h
  exact lt

/-- A proposal as PROPOSE makes it (R540). -/
def Proposal.propose (q : Proposal) (p : Propose) (it : Item) (windowEnd : Ns) : Proposal :=
  { phase := .pending, lastEnd := q.lastEnd, id := p.id, body := some p, propSlot := it.entry.keySlot, propNonce := it.entry.nonce, windowEnd }

/-- PROPOSE takes proposal `i` (R134, R540). -/
def State.proposed (s : State) (i : Nat) (p : Propose) (it : Item) : State :=
  s.onProposal i fun q => q.propose p it (s.now + s.manifest.struct.confirmWindow)

theorem exec_propose {b i : Nat} {p : Propose} {it : Item} (h : s.ctlCmd b = some (.propose p)) (item : s.item b = some it)
    (ok : s.refusePropose p = none) (first : s.sec.proposals.findIdx? (fun q => q.phase == .empty) = some i) : exec (.propose b) s = .next
      (let u := (s.leaveCtl b).proposed i p it
       ((u.lockStages (u.proposal i) true).secRecord 4 .secPropose (u.proposal i)).done b) := by
  show execPropose b s = _
  rw [execPropose, h, item]
  dsimp only
  rw [ok, State.runCtl]
  have here : (s.leaveCtl b).sec.proposals.findIdx? (fun q => q.phase == .empty) = some i := first
  rw [here]
  rfl

theorem exec_propose_pends (s : State) (b i : Nat) (p : Propose) (it : Item) (h : s.ctlCmd b = some (.propose p)) (item : s.item b = some it)
    (ok : s.refusePropose p = none) (first : s.sec.proposals.findIdx? (fun q => q.phase == .empty) = some i) :
    ∃ t, exec (.propose b) s = .next t ∧ (t.proposal i).phase = .pending ∧ (t.proposal i).id = p.id ∧
      (t.proposal i).propSlot = it.entry.keySlot ∧ DoneOn b 0 t := by
  obtain ⟨lt, -⟩ := List.findIdx?_eq_some_iff_getElem.mp first
  have run := exec_propose h item ok first
  have self : ((s.leaveCtl b).proposed i p it).proposal i = (s.proposal i).propose p it (s.now + s.manifest.struct.confirmWindow) :=
    State.proposal_onProposal_self (s := s.leaveCtl b) lt _
  have host : ((s.leaveCtl b).proposed i p it).host = (s.leaveCtl b).host := rfl
  dsimp only at run
  generalize (s.leaveCtl b).proposed i p it = u at run self host
  have same : ((u.lockStages (u.proposal i) true).secRecord 4 .secPropose (u.proposal i)).proposal i = _ :=
    (State.lockStages_proposal (u.proposal i) true i).trans self
  have untouched : ((u.lockStages (u.proposal i) true).secRecord 4 .secPropose (u.proposal i)).host = _ :=
    (State.lockStages_host (u.proposal i) true).trans host
  generalize (u.lockStages (u.proposal i) true).secRecord 4 .secPropose (u.proposal i) = v at run same untouched
  exact ⟨_, run, (congrArg Proposal.phase same :), (congrArg Proposal.id same :), (congrArg Proposal.propSlot same :),
    State.doneOn_of_ctlCmd h untouched⟩

/-- A CONFIRM or PROPOSE_WITHDRAW of a proposal that waits is not refused (R541, R542). -/
theorem State.refuseConfirm_none {id : BitVec 64} {i : Nat} (of : s.proposalOf? id = some i) (waits : (s.proposal i).waits s.now) :
    s.refuseConfirm id = none := by
  rw [State.refuseConfirm, of]
  exact if_pos waits

/-- A proposal as the CONFIRM in berth `b` commits it (R541). -/
def Proposal.commitBy (p : Proposal) (it : Item) (b : Nat) : Proposal :=
  { p with
    phase := .committing, stopped := none, confSlot := it.entry.keySlot, confNonce := it.entry.nonce, confBerth := some b, confOrder := it.tAdmit }

theorem exec_confirm_commits (s : State) (b i : Nat) (id : BitVec 64) (g : BitVec 128) (it : Item) (x : Propose)
    (h : s.ctlCmd b = some (.confirm id g)) (item : s.item b = some it) (of : s.proposalOf? id = some i) (waits : (s.proposal i).waits s.now)
    (body : (s.proposal i).body = some x) (another : it.entry.keySlot ≠ (s.proposal i).propSlot) (digest : x.digest = g) :
    ∃ t, exec (.confirm b) s = .next t ∧ (t.proposal i).phase = .committing ∧ (t.proposal i).confBerth = some b := by
  have run : exec (.confirm b) s = .next (((s.leaveCtl b).onProposal i fun p => p.commitBy it b).secRecord 5 .secConfirm
      (((s.leaveCtl b).onProposal i fun p => p.commitBy it b).proposal i) |>.toTarget b) := by
    show execConfirm b s = _
    rw [execConfirm, h, item]
    dsimp only
    rw [State.refuseConfirm_none of waits, State.runCtl]
    have here : (s.leaveCtl b).proposalOf? id = some i := of
    have agrees : ¬((s.leaveCtl b).proposal i).body.all (fun x => decide (x.digest ≠ g)) = true := by
      rw [show ((s.leaveCtl b).proposal i).body = some x from body]
      simpa using digest
    rw [here]
    exact congrArg Host.Outcome.next ((if_neg another).trans (if_neg agrees))
  have self : ((s.leaveCtl b).onProposal i fun p => p.commitBy it b).proposal i = (s.proposal i).commitBy it b :=
    State.proposal_onProposal_self (s := s.leaveCtl b) (State.proposalOf?_lt of) _
  exact ⟨_, run, (congrArg Proposal.phase self :), (congrArg Proposal.confBerth self :)⟩

theorem exec_proposeWithdraw_empties (s : State) (b i : Nat) (id : BitVec 64) (h : s.ctlCmd b = some (.proposeWithdraw id))
    (of : s.proposalOf? id = some i) (waits : (s.proposal i).waits s.now) :
    ∃ t, exec (.proposeWithdraw b) s = .next t ∧ (t.proposal i).phase = .empty ∧ DoneOn b 0 t := by
  have run : exec (.proposeWithdraw b) s = .next (((s.leaveCtl b).lapse i .withdraw).done b) := by
    show execProposeWithdraw b s = _
    rw [execProposeWithdraw, h]
    dsimp only
    rw [State.refuseConfirm_none of waits, State.runCtl]
    have here : (s.leaveCtl b).proposalOf? id = some i := of
    rw [here]
  exact ⟨_, run, State.lapse_phase (s.leaveCtl b) i .withdraw (State.proposalOf?_lt of), State.doneOn_of_ctlCmd h (State.lapse_host _ i _)⟩

theorem exec_proposalWindowLapse_empties (s : State) (i : Nat) (there : i < s.sec.proposals.length) (pending : (s.proposal i).phase = .pending)
    (late : (s.proposal i).windowEnd < s.now) (free : (s.proposal i).stopped = none) :
    ∃ t, exec (.proposalWindowLapse i) s = .next t ∧ (t.proposal i).phase = .empty :=
  ⟨_, congrArg Host.Outcome.next (if_pos ⟨pending, late, free⟩), State.lapse_phase s i .window there⟩

/-! ### Promotion (R536, R537, R545) -/

/-- Slot B as it is copied into slot A (R536). -/
def SecState.copyB (x : SecState) : SecState :=
  { x with slotA := { x.slotB with phase := .verifying, cause := x.slotA.cause, shown := x.slotA.shown, section_ := x.slotA.section_ } }

/-- The counts of the anti-rollback Tally have been burnt (R545). -/
def State.burnt (s : State) (need : Nat) : State :=
  (s.onSec fun x => { x with tallyRollback := x.tallyRollback - need }).when (decide (0 < need)) fun s => s.raise .sec 10

theorem exec_manifestPromote {b n : Nat} (h : s.ctlCmd b = some .manifestPromote) (live : s.sec.live) (liveB : s.sec.liveB)
    (enough : s.sec.floorNeed ≤ s.sec.tallyRollback) : exec (.manifestPromote b n) s = .next
      (if 0 < n ∧ n ≤ s.sec.floorNeed then
        let t := (((s.leaveCtl b).onSec fun x => { x with tallyRollback := x.tallyRollback - n }).raise .sec 10).report .secTallyFail 0xFFFF [n]
        t.refuseItem b t.secRefuse .ctl
      else
        let t := ((s.leaveCtl b).onSec SecState.copyB).verifySlot false
        if t.sec.slotA.phase = .valid then ((t.burnt s.sec.floorNeed).promoted s.sec.floorNeed).done b else t.failed b .execError) := by
  show execManifestPromote b n s = _
  rw [execManifestPromote, h]
  dsimp only
  rw [State.refusePromote, live, liveB, decide_eq_true enough, if_pos (by decide), State.runCtl]
  rfl

/-- What verifying slot B again leaves of SEC beside slot B: no event is cleared (R531, R537). -/
theorem State.verifyB_sec (s : State) : ∃ k e, (s.verifySlot true).sec = { s.sec with slotB := k, event := e } ∧
    ∀ i, s.sec.event.bits.getLsbD i = true → e.bits.getLsbD i = true := by
  cases reject : s.sec.rejectSlot true with
  | none => exact ⟨_, s.sec.event, by rw [State.verifySlot_valid reject]; rfl, fun _ h => h⟩
  | some r =>
    refine ⟨_, _, by rw [State.verifySlot_rejected reject, State.rejected_sec]; rfl, fun i h => ?_⟩
    split
    · exact h
    · exact W1C.bits_raise_of_set _ 0 h

theorem State.when_verifyB_sec (s : State) (c : Bool) : ∃ k e, (s.when c fun s => s.verifySlot true).sec = { s.sec with slotB := k, event := e } ∧
    ∀ i, s.sec.event.bits.getLsbD i = true → e.bits.getLsbD i = true := by
  cases c
  · exact ⟨s.sec.slotB, s.sec.event, rfl, fun _ h => h⟩
  · exact s.verifyB_sec

/-- What a promotion leaves of SEC beside the floor, the live slot and slot B (R536, R537). -/
theorem State.promoted_sec (s : State) (need : Nat) : ∃ k e, (s.promoted need).sec =
      { s.sec with floor := s.sec.floor + need, liveB := false, slotB := k, event := e } ∧
    ∀ i, s.sec.event.bits.getLsbD i = true → e.bits.getLsbD i = true := by
  unfold State.promoted
  extract_lets u v
  obtain ⟨k, e, sec, events⟩ := u.when_verifyB_sec (decide (0 < need) && u.sec.slotB.phase == .valid)
  exact ⟨k, e, sec, events⟩

theorem State.burnt_sec (s : State) (need : Nat) : (s.burnt need).sec =
    { s.sec with tallyRollback := s.sec.tallyRollback - need, event := if decide (0 < need) then s.sec.event.raise 10 else s.sec.event } := by
  unfold State.burnt
  cases decide (0 < need) <;> rfl

theorem State.burnt_host (s : State) (need : Nat) : (s.burnt need).host = s.host := by
  unfold State.burnt
  cases decide (0 < need) <;> rfl

theorem exec_manifestPromote_promotes (s : State) (b n : Nat) (h : s.ctlCmd b = some .manifestPromote) (live : s.sec.live) (liveB : s.sec.liveB)
    (enough : s.sec.floorNeed ≤ s.sec.tallyRollback) (all : n = 0) (good : s.sec.copyB.rejectSlot false = none) :
    ∃ t, exec (.manifestPromote b n) s = .next t ∧ DoneOn b 0 t ∧ t.sec.liveB = false ∧ t.sec.floor = s.sec.floor + s.sec.floorNeed ∧
      t.sec.tallyRollback = s.sec.tallyRollback - s.sec.floorNeed ∧
      t.sec.slotA = { s.sec.slotB with phase := .valid, rejected := false, cause := s.sec.slotA.cause, shown := s.sec.slotA.shown
                                       section_ := s.sec.slotA.section_ } ∧
      (0 < s.sec.floorNeed → t.sec.event.bits.getLsbD 10 = true) ∧ OnlyTouches [.log, .chk, .host, .sec] s t := by
  have run := exec_manifestPromote (n := n) h live liveB enough
  have frame := fun t (e : exec (.manifestPromote b n) s = .next t) =>
    (execManifestPromote_kept (M := (· ∈ [.log, .chk, .host, .sec])) b n (.refl s)).frame e
  have valid : ((s.leaveCtl b).onSec SecState.copyB).verifySlot false = ((s.leaveCtl b).onSec SecState.copyB).verified false :=
    State.verifySlot_valid good
  rw [if_neg (by omega)] at run
  dsimp only at run
  rw [valid] at run
  have copied : (((s.leaveCtl b).onSec SecState.copyB).verified false).sec = { s.sec with
      slotA := { s.sec.slotB with phase := .valid, rejected := false, cause := s.sec.slotA.cause, shown := s.sec.slotA.shown
                                  section_ := s.sec.slotA.section_ } } := rfl
  have host : (((s.leaveCtl b).onSec SecState.copyB).verified false).host = (s.leaveCtl b).host := rfl
  generalize ((s.leaveCtl b).onSec SecState.copyB).verified false = u at run copied host
  rw [if_pos (by rw [copied])] at run
  obtain ⟨k, e, sec, events⟩ := (u.burnt s.sec.floorNeed).promoted_sec s.sec.floorNeed
  have untouched : ((u.burnt s.sec.floorNeed).promoted s.sec.floorNeed).host = u.host :=
    ((State.promoted_kept (M := (· ∉ [.host])) _ (.refl _)).parts .host (by simp)).trans (u.burnt_host _)
  rw [State.burnt_sec, copied] at sec events
  have frame := frame _ run
  generalize (u.burnt s.sec.floorNeed).promoted s.sec.floorNeed = v at run frame sec untouched
  refine ⟨_, run, State.doneOn_of_ctlCmd h (untouched.trans host), (congrArg SecState.liveB sec :), (congrArg SecState.floor sec :),
    (congrArg SecState.tallyRollback sec :), (congrArg SecState.slotA sec :), fun need => ?_, frame⟩
  have event : v.sec.event = e := (congrArg SecState.event sec :)
  refine event ▸ events 10 ?_
  rw [decide_eq_true need]
  exact W1C.raise_bits _ _ (by decide)

/-- The first `n` burns took their counts, and the last of them does not read back (R545). -/
def State.burnLost (s : State) (n : Nat) : State :=
  ((s.onSec fun x => { x with tallyRollback := x.tallyRollback - n }).raise .sec 10).report .secTallyFail 0xFFFF [n]

theorem State.burnLost_kept {M : Part → Prop} {a : State} (n : Nat) (h : Kept M a s) (mLog : M .log) (mSec : M .sec) : Kept M a (s.burnLost n) :=
  State.report_kept _ _ _ (State.raise_kept _ _
    (State.onSec_kept (f := fun x => { x with tallyRollback := x.tallyRollback - n }) h ⟨fun _ => rfl, le_rfl, Nat.sub_le .., le_rfl, fun _ => le_rfl⟩))

theorem State.burnLost_host (s : State) (n : Nat) : (s.burnLost n).host = s.host := rfl

theorem exec_manifestPromote_fails (s : State) (b n : Nat) (h : s.ctlCmd b = some .manifestPromote) (live : s.sec.live) (liveB : s.sec.liveB)
    (enough : s.sec.floorNeed ≤ s.sec.tallyRollback) (burn : 0 < n) (within : n ≤ s.sec.floorNeed) :
    ∃ t, exec (.manifestPromote b n) s = .next t ∧ RefusedOn b t.sec.status t ∧
      t.sec = { s.sec with tallyRollback := s.sec.tallyRollback - n, event := s.sec.event.raise 10 } ∧ OnlyTouches [.log, .host, .sec] s t := by
  have run : exec (.manifestPromote b n) s = .next
      (((s.leaveCtl b).burnLost n).refuseItem b ((s.leaveCtl b).burnLost n).secRefuse .ctl) :=
    (exec_manifestPromote h live liveB enough).trans (congrArg Host.Outcome.next (if_pos ⟨burn, within⟩))
  obtain ⟨it, item, -⟩ := State.ctlCmd_item h
  have lost : ((s.leaveCtl b).burnLost n).sec = { s.sec with tallyRollback := s.sec.tallyRollback - n, event := s.sec.event.raise 10 } := rfl
  have there : (((s.leaveCtl b).burnLost n).item b).isSome := by
    rw [State.item, State.burnLost_host, ← State.item, State.item_leaveCtl, item]
    rfl
  have kept : Kept (· ∈ [.log, .host, .sec]) s ((s.leaveCtl b).burnLost n) :=
    State.burnLost_kept n (State.leaveCtl_kept b (.refl s)) (by simp) (by simp)
  generalize (s.leaveCtl b).burnLost n = u at run lost there kept
  have sec : (u.refuseItem b u.secRefuse .ctl).sec = u.sec :=
    (State.refuseItem_kept (M := (· ∉ [.sec])) _ _ _ (.refl u)).parts .sec (by simp)
  have refused : RefusedOn b u.sec.status (u.refuseItem b u.secRefuse .ctl) := State.refusedOn_refuseItem (r := u.secRefuse) there .ctl
  have frame : OnlyTouches [.log, .host, .sec] s (u.refuseItem b u.secRefuse .ctl) := (State.refuseItem_kept b _ .ctl kept).frame
  generalize u.refuseItem b u.secRefuse .ctl = v at run sec refused frame
  rw [← sec] at refused lost
  exact ⟨v, run, refused, lost, frame⟩

end Sys2Proof.Machine
end

section
/-! SUPPORT. MANIFEST_ACTIVATE takes effect: proposals lapse, the structure restarts or its sections reload, the slot goes live
(spec/16_manifest_and_two_party.md R535, R542). -/

namespace Sys2Proof.Machine

set_option Elab.async false

open Sys2Proof

variable {s : State}

/-! ### Berths that a restart keeps (R566, R567) -/

theorem State.item_congr {t : State} (h : t.host.berths = s.host.berths) (b : Nat) : t.item b = s.item b := by rw [State.item, State.item, h]

theorem State.make_host_berths (s : State) : (s.make .host State.makeHost).host.berths = s.host.berths := by
  unfold State.make
  split <;> rfl

/-- A state of which HOST has not been touched. -/
abbrev HostKept (s t : State) : Prop := Kept (· ∉ [.host]) s t

theorem HostKept.berths {s t : State} (h : HostKept s t) : t.host.berths = s.host.berths := by rw [h.parts .host (by simp)]

theorem State.makeAll_berths (s : State) : s.makeAll.host.berths = s.host.berths := by
  unfold State.makeAll
  extract_lets t p g c
  have ht : HostKept s t := State.make_kept _ _ (State.make_kept _ _ (.refl s) fun _ k => State.makeTide_kept k) fun _ k => State.makeAcq_kept k
  have hp : HostKept s p := State.make_kept _ _ (State.make_kept _ _ (State.make_kept _ _ ht fun _ k => State.makeProt_kept k)
    fun _ k => State.makeDiff_kept k) fun _ k => State.makeForm_kept k
  have hg : HostKept s g := State.make_kept _ _ (State.make_kept _ _ (State.make_kept _ _ hp fun _ k => State.makeGate_kept k)
    fun _ k => State.makeLogicBlock_kept k) fun _ k => State.makeFio_kept k
  have hc : HostKept s c := State.make_kept _ _ (State.make_kept _ _ (State.make_kept _ _ hg fun _ k => State.makeCapt_kept k)
    fun _ k => State.makeLog_kept k) fun _ k => State.makeNet_kept k
  have hn : HostKept s (c.make .ptp State.makePtp) := State.make_kept _ _ hc fun _ k => State.makePtp_kept k
  have ha : HostKept ((c.make .ptp State.makePtp).make .host State.makeHost) _ := State.make_kept .adeid State.makeAdeid (.refl _) fun _ k =>
    State.makeAdeid_kept k
  rw [ha.berths, State.make_host_berths, hn.berths]

theorem State.instantiate_berths (s : State) : s.instantiate.host.berths = s.host.berths := by
  unfold State.instantiate
  extract_lets u v w
  have hu : HostKept s u := State.onSys_kept (State.reach_kept 4 (.refl s)) _
  have hw : HostKept v w := State.startMoves_kept (State.xrefUnused_kept (.refl v))
  have berths : w.host.berths = s.host.berths := by rw [hw.berths, State.makeAll_berths, hu.berths]
  clear_value w
  exact berths

theorem State.leaveBare_berths (s : State) : s.leaveBare.host.berths = s.host.berths := by
  rw [State.leaveBare, State.instantiate_berths]
  have staged (f : SysState → SysState) : HostKept s (s.onSys f) := State.onSys_kept (.refl s) f
  exact (staged _).berths

theorem State.structureRestart_eq (s : State) : ∃ f g, s.structureRestart =
    ((((((s.closeDoors 5).onAdeid f).clearStructure).onSys g).onHost fun h => { h with ready := false }).raise .sys 4).instantiate :=
  ⟨_, _, rfl⟩

theorem State.structureRestart_berths (s : State) : s.structureRestart.host.berths = s.host.berths := by
  obtain ⟨f, g, restart⟩ := s.structureRestart_eq
  have shut : HostKept s ((((s.closeDoors 5).onAdeid f).clearStructure).onSys g) :=
    State.onSys_kept (State.clearStructure_kept (State.onAdeid_kept (State.closeDoors_kept 5 (.refl s)) f)) g
  have berths := shut.berths
  generalize (((s.closeDoors 5).onAdeid f).clearStructure).onSys g = u at restart berths
  rw [restart, State.instantiate_berths]
  exact berths

/-! ### The proposals lapse (R535, R542) -/

theorem State.lapse_sec (s : State) (i : Nat) (e : PropEnd) : (s.lapse i e).sec =
    { s.sec with proposals := updAt s.sec.proposals i fun p => p.ended e, event := s.sec.event.raise 7 } := by
  have locked := State.lockStages_sec (s := s) (s.proposal i) false
  generalize hu : s.lockStages (s.proposal i) false = u at locked
  have sec : (s.lapse i e).sec = { u.sec with proposals := updAt u.sec.proposals i fun p => p.ended e, event := u.sec.event.raise 7 } := by
    rw [State.lapse, State.endProposal, hu]
    rfl
  rw [sec, locked]

theorem State.item_refuseItem_isSome {b c : Nat} (r : Refuse) (stage : RefStage) (h : (s.item c).isSome) : ((s.refuseItem b r stage).item c).isSome := by
  cases item : s.item b with
  | none =>
    rw [State.refuseItem, item]
    exact h
  | some it =>
    have same : (s.refuseItem b r stage).item c =
        (s.endItem b { status := .refused, reason := some .stateRefused, result := r.st0.zeroExtend 64 }).raiseRefused.item c := by
      rw [State.refuseItem, item]
      rfl
    have raised (t : State) : t.raiseRefused.item c = t.item c := by simp [State.item, State.raiseRefused]
    rw [same, raised, State.endItem]
    by_cases bc : b = c
    · subst bc
      rw [State.item_onItem s b _ it item]
      rfl
    · rw [State.item_onItem_ne s b c _ bc]
      exact h

/-- One proposal lapses at an activation (R535). -/
def State.lapseOne (s : State) (i : Nat) : State :=
  if (s.proposal i).phase = .empty then s
  else match (s.proposal i).confBerth with
    | some b => (s.lapse i .activate).refuseItem b ((s.lapse i .activate).secRefuse (s.proposal i).id) .target
    | none => s.lapse i .activate

theorem State.lapseAll_eq (s : State) : s.lapseAll = s.forEach (List.range 4) State.lapseOne := rfl

theorem State.lapseOne_sec (s : State) (i : Nat) :
    (s.lapseOne i).sec = if (s.proposal i).phase = .empty then s.sec else (s.lapse i .activate).sec := by
  unfold State.lapseOne
  split
  · rfl
  · split
    · exact (State.refuseItem_kept (M := (· ∉ [.sec])) _ _ _ (.refl _)).parts .sec (by simp)
    · rfl

/-- What the lapse of proposals leaves: SEC but for its proposals and events, the Manifest, an item in its berth, and the queue. -/
structure Lapsed (c : Nat) (s t : State) : Prop where
  sec : ∃ l e, t.sec = { s.sec with proposals := l, event := e }
  manifest : t.manifest = s.manifest
  queue : t.pending = s.pending
  item : (s.item c).isSome → (t.item c).isSome

theorem Lapsed.refl (c : Nat) (s : State) : Lapsed c s s := ⟨⟨_, _, rfl⟩, rfl, rfl, id⟩

theorem Lapsed.trans {c : Nat} {s t u : State} (h : Lapsed c s t) (k : Lapsed c t u) : Lapsed c s u := by
  obtain ⟨l, e, first⟩ := h.sec
  obtain ⟨m, f, second⟩ := k.sec
  exact ⟨⟨m, f, by rw [second, first]⟩, k.manifest.trans h.manifest, k.queue.trans h.queue, k.item ∘ h.item⟩

theorem State.lapseOne_lapsed (s : State) (c i : Nat) : Lapsed c s (s.lapseOne i) := by
  have kept : Kept (· ∉ [.manifest]) s (s.lapseOne i) := by
    unfold State.lapseOne
    split
    · exact .refl s
    · split
      · exact State.refuseItem_kept _ _ _ (State.lapse_kept _ _ (.refl s))
      · exact State.lapse_kept _ _ (.refl s)
  refine ⟨?_, kept.parts .manifest (by simp), kept.queue, fun h => ?_⟩
  · rw [State.lapseOne_sec]
    split
    · exact ⟨_, _, rfl⟩
    · exact ⟨_, _, s.lapse_sec i .activate⟩
  · have still : ((s.lapse i .activate).item c).isSome := by
      rw [State.item, State.lapse_host]
      exact h
    unfold State.lapseOne
    split
    · exact h
    · split
      · exact State.item_refuseItem_isSome _ _ still
      · exact still

theorem State.lapseAll_lapsed (s : State) (c : Nat) : Lapsed c s s.lapseAll :=
  State.lapseAll_eq s ▸ State.forEach_invariant (p := Lapsed c s) (fun t i h => h.trans (t.lapseOne_lapsed c i)) _ s (.refl c s)

theorem State.proposal_out {i : Nat} (h : s.sec.proposals.length ≤ i) : s.proposal i = {} := by
  rw [State.proposal, nth, List.getElem?_eq_none h]
  rfl

theorem State.lapseOne_empty {i k : Nat} (h : k = i ∨ (s.proposal k).phase = .empty) : ((s.lapseOne i).proposal k).phase = .empty := by
  rw [State.proposal, State.lapseOne_sec]
  split
  case isTrue empty =>
    obtain rfl | h := h
    · exact empty
    · exact h
  case isFalse full =>
    have lt : i < s.sec.proposals.length := by
      by_contra out
      rw [State.proposal_out (not_lt.mp out)] at full
      exact full rfl
    rw [s.lapse_sec i .activate]
    by_cases ki : k = i
    · subst ki
      exact congrArg Proposal.phase (nth_updAt_self _ _ _ _ lt)
    · exact (congrArg Proposal.phase (nth_updAt_ne _ _ _ _ _ (Ne.symm ki))).trans (h.resolve_left ki)

theorem State.forEach_lapseOne_empty {k : Nat} (l : List Nat) (h : k ∈ l ∨ (s.proposal k).phase = .empty) :
    ((s.forEach l State.lapseOne).proposal k).phase = .empty := by
  induction l generalizing s with
  | nil => exact h.resolve_left List.not_mem_nil
  | cons i l ih =>
    rw [State.forEach_cons]
    refine ih ?_
    obtain member | empty := h
    · obtain rfl | later := List.mem_cons.mp member
      · exact .inr (State.lapseOne_empty (.inl rfl))
      · exact .inl later
    · exact .inr (State.lapseOne_empty (.inr empty))

theorem State.lapseAll_empty (s : State) (i : Nat) : (s.lapseAll.proposal i).phase = .empty ∨ 4 ≤ i := by
  by_cases h : i < 4
  · rw [State.lapseAll_eq]
    exact .inl (State.forEach_lapseOne_empty _ (.inl (List.mem_range.mpr h)))
  · exact .inr (Nat.le_of_not_lt h)

/-! ### The slot goes live (R532, R535) -/

/-- What an activation makes of a lapsed state before it is logged and completed: the slot is live, with its Manifest (R535). -/
structure WentLive (b : Bool) (m : Manifest) (s t : State) : Prop where
  sec : ∃ i r, t.sec = { s.sec with live := true, liveB := b, bare := false, liveId := i, liveRollback := r }
  manifest : t.manifest = m
  berths : t.host.berths = s.host.berths
  queue : t.pending = s.pending

/-- The slot is live and its Manifest is in force (R532). -/
def State.enforced (s : State) (b : Bool) : State := { s.setLive b with manifest := (s.sec.slot b).manifest }

theorem State.enforced_wentLive (s : State) (b : Bool) : WentLive b (s.sec.slot b).manifest s (s.enforced b) :=
  ⟨⟨_, _, rfl⟩, rfl, rfl, rfl⟩

/-- The slot goes live and the structure starts anew from its Manifest (R535). -/
def State.restartLive (s : State) (b bare : Bool) : State :=
  if bare then (s.enforced b).leaveBare else (s.enforced b).structureRestart

theorem State.restartLive_wentLive (s : State) (b bare : Bool) : WentLive b (s.sec.slot b).manifest s (s.restartLive b bare) := by
  unfold State.restartLive
  have live := s.enforced_wentLive b
  generalize s.enforced b = u at live ⊢
  have kept : Kept (· ∉ [.sec, .manifest]) u (if bare then u.leaveBare else u.structureRestart) := by
    split
    · exact State.leaveBare_kept (.refl u)
    · exact State.structureRestart_kept (.refl u)
  have berths : (if bare then u.leaveBare else u.structureRestart).host.berths = u.host.berths := by
    split
    · exact u.leaveBare_berths
    · exact u.structureRestart_berths
  obtain ⟨i, r, sec⟩ := live.sec
  have same : (if bare then u.leaveBare else u.structureRestart).sec = u.sec := kept.parts .sec (by simp)
  have force : (if bare then u.leaveBare else u.structureRestart).manifest = u.manifest := kept.parts .manifest (by simp)
  exact ⟨⟨i, r, same.trans sec⟩, force.trans live.manifest, berths.trans live.berths, kept.queue.trans live.queue⟩

/-- A state of which the Manifest has not been touched. -/
abbrev ForceKept (s t : State) : Prop := Kept (· ∉ [.manifest]) s t

/-- Once its Manifest is in force, a section reload leaves it in force (R535). -/
theorem State.reloadSections_manifest (s : State) (b : Bool) : (s.reloadSections b).manifest = s.reloaded b := by
  unfold State.reloadSections
  extract_lets d o force acq rings prot diff gate form logic fio capt log
  have reloads {t : State} (c : Bool) (k : Blk) {f : State → State} (h : ForceKept force t) (hf : ∀ u, ForceKept force u → ForceKept force (f u)) :
      ForceKept force (t.when c fun u => u.make k f) := State.when_kept h fun _ h => State.make_kept _ _ h hf
  have hAcq : ForceKept force acq := State.onAcq_kept (reloads _ .acq (.refl force) fun _ h => State.makeAcq_kept h) _
  have hRings : ForceKept force rings := State.when_kept hAcq fun _ h => State.keepRings_kept _ h
  have hProt : ForceKept force prot := reloads _ .prot hRings fun _ h => State.reloadProt_kept h
  have hDiff : ForceKept force diff := reloads _ .diff hProt fun _ h => State.makeDiff_kept h
  have hGate : ForceKept force gate := reloads _ .gate hDiff fun _ h => State.makeGate_kept h
  have hForm : ForceKept force form := reloads _ .form hGate fun _ h => State.makeForm_kept h
  have hLogic : ForceKept force logic := reloads _ .logic hForm fun _ h => State.reloadLogic_kept _ (State.reloadMarks_kept _ h)
  have hFio : ForceKept force fio := reloads _ .fio hLogic fun _ h => State.forEach_kept (fun g _ h => State.makeFioGroup_kept g h) _ h
  have hCapt : ForceKept force capt := reloads _ .capt hFio fun _ h => State.makeCapt_kept h
  have hLog : ForceKept force log := reloads _ .log hCapt fun _ h => State.makeLog_kept h
  have hNet : ForceKept force (log.when (d .net) fun u => (u.make .net State.reloadNet).keepRings fun c => !isSvChan c) :=
    State.when_kept hLog fun _ h => State.keepRings_kept _ (State.make_kept _ _ h fun _ h => State.reloadNet_kept h)
  exact hNet.parts .manifest (by simp)

theorem State.reload_wentLive (s : State) (b : Bool) : WentLive b (s.reloaded b) s ((s.reloadSections b).setLive b) := by
  have kept : Kept (· ∉ [.sec, .host]) s (s.reloadSections b) := State.reloadSections_kept b (.refl s)
  have sec : (s.reloadSections b).sec = s.sec := kept.parts .sec (by simp)
  have host : (s.reloadSections b).host = s.host := kept.parts .host (by simp)
  have queue := kept.queue
  have manifest := s.reloadSections_manifest b
  generalize s.reloadSections b = u at sec host queue manifest
  exact ⟨⟨_, _, by rw [← sec]; rfl⟩, manifest, congrArg HostState.berths host, queue⟩

/-! ### The activation takes effect (R535) -/

/-- What an accepted activation makes of the state, before it is logged and its command completes (R535). -/
def State.goneLive (s : State) (a : Activation) : State :=
  if s.fullRestart a.slotB then s.lapseAll.restartLive a.slotB (!s.sec.live) else (s.lapseAll.reloadSections a.slotB).setLive a.slotB

theorem State.activate_accepted {a : Activation} (ok : s.refuseActivate a.slotB = none) : s.activate a =
    (((s.goneLive a).raise .sec 3).report .manifestActivate 0xFFFF
      [b2n a.slotB, b2n (s.fullRestart a.slotB), s.changedMask a.slotB]).done a.berth := by
  rw [State.activate, ok]
  rfl

theorem State.reloaded_congr {t : State} {b : Bool} (sec : ∃ l e, t.sec = { s.sec with proposals := l, event := e }) (manifest : t.manifest = s.manifest) :
    t.reloaded b = s.reloaded b := by
  obtain ⟨l, e, sec⟩ := sec
  have differs (i : Section) : t.sectionDiffers b i = s.sectionDiffers b i := by
    rw [State.sectionDiffers, sec]
    rfl
  have slot : t.sec.slot b = s.sec.slot b := by
    rw [sec]
    rfl
  simp only [State.reloaded, differs, slot, manifest]

theorem State.goneLive_wentLive (s : State) (a : Activation) :
    WentLive a.slotB (if s.fullRestart a.slotB then (s.sec.slot a.slotB).manifest else s.reloaded a.slotB) s.lapseAll (s.goneLive a) := by
  obtain ⟨sec, manifest, -, -⟩ := s.lapseAll_lapsed a.berth
  unfold State.goneLive
  split
  · have slot : s.lapseAll.sec.slot a.slotB = s.sec.slot a.slotB := by
      obtain ⟨l, e, sec⟩ := sec
      rw [sec]
      rfl
    rw [← slot]
    exact s.lapseAll.restartLive_wentLive a.slotB _
  · rw [← State.reloaded_congr sec manifest]
    exact s.lapseAll.reload_wentLive a.slotB

/-- The first waiting activation leaves the list as it takes effect (R535). -/
def State.popActivation (s : State) (l : List Activation) : State := s.onSec fun x => { x with activations := l }

theorem exec_manifestActivateEffect {a : Activation} {l : List Activation} (waiting : s.sec.activations = a :: l)
    (due : a.boundary < s.prot.boundary) : exec .manifestActivateEffect s = .next ((s.popActivation l).activate a) := by
  show execManifestActivateEffect s = _
  rw [execManifestActivateEffect, waiting]
  exact congrArg Host.Outcome.next (if_pos (by rw [decide_eq_true due]; rfl))

theorem exec_manifestActivateEffect_goesLive (s : State) (a : Activation) (l : List Activation) (waiting : s.sec.activations = a :: l)
    (due : a.boundary < s.prot.boundary) (item : (s.item a.berth).isSome) (ok : s.refuseActivate a.slotB = none) :
    ∃ t, exec .manifestActivateEffect s = .next t ∧ t.sec.live = true ∧ t.sec.liveB = a.slotB ∧
      t.sec.bare = false ∧ t.sec.activations = l ∧ t.sec.event.bits.getLsbD 3 = true ∧ (∀ i, (t.proposal i).phase = .empty ∨ 4 ≤ i) ∧
      t.endingOf a.berth = some { status := .done } ∧
      t.manifest = (if s.fullRestart a.slotB then (s.sec.slot a.slotB).manifest else s.reloaded a.slotB) ∧ t.pending = s.pending := by
  have run := exec_manifestActivateEffect waiting due
  have accepted : (s.popActivation l).refuseActivate a.slotB = none := if_neg fun bad => by
    have refused : s.refuseActivate a.slotB = some s.secRefuse := if_pos bad
    rw [ok] at refused
    cases refused
  rw [State.activate_accepted accepted] at run
  obtain ⟨⟨p, e, lapsed⟩, -, lapsedQueue, there⟩ := (s.popActivation l).lapseAll_lapsed a.berth
  obtain ⟨⟨i, r, sec⟩, manifest, berths, queue⟩ := (s.popActivation l).goneLive_wentLive a
  have empty := (s.popActivation l).lapseAll_empty
  generalize (s.popActivation l).goneLive a = u at run sec manifest berths queue
  have present : (u.item a.berth).isSome := by
    rw [State.item_congr berths]
    exact there item
  have live : u.sec.live = true ∧ u.sec.liveB = a.slotB ∧ u.sec.bare = false ∧ u.sec.activations = l := by
    rw [sec, lapsed]
    exact ⟨rfl, rfl, rfl, rfl⟩
  have proposals (k : Nat) : u.proposal k = (s.popActivation l).lapseAll.proposal k := by
    rw [State.proposal, State.proposal, sec]
  obtain ⟨v, logged, sec', manifest', host', queue'⟩ : ∃ v, ((u.raise .sec 3).report .manifestActivate 0xFFFF
      [b2n a.slotB, b2n ((s.popActivation l).fullRestart a.slotB), (s.popActivation l).changedMask a.slotB]) = v ∧
      v.sec = { u.sec with event := u.sec.event.raise 3 } ∧ v.manifest = u.manifest ∧ v.host = u.host ∧ v.pending = u.pending :=
    ⟨_, rfl, rfl, rfl, rfl, rfl⟩
  rw [logged] at run
  refine ⟨v.done a.berth, run, ?_, ?_, ?_, ?_, ?_, fun k => ?_, ?_, ?_, ?_⟩
  · exact (congrArg SecState.live sec').trans live.1
  · exact (congrArg SecState.liveB sec').trans live.2.1
  · exact (congrArg SecState.bare sec').trans live.2.2.1
  · exact (congrArg SecState.activations sec').trans live.2.2.2
  · exact (congrArg (fun x : SecState => x.event.bits.getLsbD 3) sec').trans (W1C.raise_bits _ _ (by decide))
  · have same : (v.done a.berth).proposal k = u.proposal k := (congrArg (fun x : SecState => nth x.proposals k {}) sec' :)
    rw [same, proposals]
    exact empty k
  · refine State.endingOf_endItem v a.berth _ ?_
    rw [State.item_congr (congrArg HostState.berths host')]
    exact present
  · exact manifest'.trans manifest
  · exact queue'.trans (queue.trans lapsedQueue)

theorem exec_manifestActivateEffect_refused (s : State) (a : Activation) (l : List Activation) (waiting : s.sec.activations = a :: l)
    (due : a.boundary < s.prot.boundary) (item : (s.item a.berth).isSome) (bad : (s.sec.slot a.slotB).phase ≠ .valid) :
    ∃ t, exec .manifestActivateEffect s = .next t ∧ RefusedOn a.berth t.sec.status t ∧
      t.sec = { s.sec with activations := l } ∧ OnlyTouches [.log, .host, .sec] s t := by
  have run := exec_manifestActivateEffect waiting due
  have refuse : (s.popActivation l).refuseActivate a.slotB = some (s.popActivation l).secRefuse := if_pos (by
    rw [Bool.or_eq_true, Bool.or_eq_true]
    exact .inl (.inl (decide_eq_true bad)))
  rw [State.activate, refuse] at run
  have popped : (s.popActivation l).sec = { s.sec with activations := l } := rfl
  have kept : Kept (· ∈ [.log, .host, .sec]) s (s.popActivation l) :=
    State.onSec_kept (f := fun x => { x with activations := l }) (.refl s) (.same rfl rfl rfl rfl rfl)
  have there : ((s.popActivation l).item a.berth).isSome := item
  generalize s.popActivation l = u at run popped kept there
  have refused : RefusedOn a.berth u.sec.status (u.refuseItem a.berth u.secRefuse .target) :=
    State.refusedOn_refuseItem (r := u.secRefuse) there .target
  have sec : (u.refuseItem a.berth u.secRefuse .target).sec = u.sec :=
    (State.refuseItem_kept (M := (· ∉ [.sec])) _ _ _ (.refl u)).parts .sec (by simp)
  have frame : OnlyTouches [.log, .host, .sec] s (u.refuseItem a.berth u.secRefuse .target) := (State.refuseItem_kept _ _ .target kept).frame
  rw [← sec] at refused popped
  exact ⟨_, run, refused, popped, frame⟩

/-- Settles O51, clause by clause. -/
theorem keysSlotsAndActivation : Obligations.KeysSlotsAndActivation :=
  ⟨fun s b k h => ⟨exec_provisionRoot_burns s b k h, exec_provisionRoot_refused s b k h⟩,
    fun s b c h there => ⟨exec_keyInstall_fills s b c h there, exec_keyInstall_refused s b c h⟩,
    fun s b slot m h => ⟨exec_manifestLoad_writes s b slot m h, exec_manifestLoad_refused s b slot m h⟩,
    fun s slot verifying => ⟨exec_manifestVerifyDone_valid s slot verifying, exec_manifestVerifyDone_rejected s slot verifying⟩,
    fun s b slot h => ⟨exec_manifestActivate_waits s b slot h, exec_manifestActivate_refused s b slot h⟩,
    fun s a l waiting due item =>
      ⟨exec_manifestActivateEffect_goesLive s a l waiting due item, exec_manifestActivateEffect_refused s a l waiting due item⟩,
    fun s b n h live liveB enough =>
      ⟨exec_manifestPromote_promotes s b n h live liveB enough, exec_manifestPromote_fails s b n h live liveB enough⟩,
    exec_propose_pends, exec_confirm_commits, exec_proposeWithdraw_empties, exec_proposalWindowLapse_empties⟩

end Sys2Proof.Machine
end

section
/-! SUPPORT. Command rings: doorbells, control, the link, the frame rings (spec/15_host_cluster_berths.md R482 to R484, R486, R512). -/

namespace Sys2Proof.Machine

set_option Elab.async false

open Sys2Proof

variable {s : State}

/-! ### One ring and the others -/

theorem State.ring_onRing_self {r : Nat} (h : r < s.host.rings.length) (f : CmdRing → CmdRing) : (s.onRing r f).ring r = f (s.ring r) :=
  nth_updAt_self _ _ _ _ h

theorem State.ring_onRing_ne {q r : Nat} (h : q ≠ r) (f : CmdRing → CmdRing) : (s.onRing r f).ring q = s.ring q :=
  nth_updAt_ne _ _ _ _ _ (Ne.symm h)

theorem State.ring_congr {t : State} (h : t.host.rings = s.host.rings) (r : Nat) : t.ring r = s.ring r := by rw [State.ring, State.ring, h]

/-- An enabled ring is one that HOST has. -/
theorem State.ring_lt {r : Nat} (h : (s.ring r).enable = true) : r < s.host.rings.length := by
  by_contra k
  rw [State.ring, nth, List.getElem?_eq_none (not_lt.mp k)] at h
  cases h

theorem State.onHost_touches {f : HostState → HostState} (berths : ∀ h, (f h).berths = h.berths) : OnlyTouches [.host] s (s.onHost f) :=
  (State.onHost_kept (M := (· ∈ [Part.host])) (.refl s) (fun h k => (congrArg List.length (berths h)).trans k) (List.mem_singleton.mpr rfl)).frame

theorem State.onRing_touches (r : Nat) (f : CmdRing → CmdRing) : OnlyTouches [.host] s (s.onRing r f) := (State.onRing_kept r f (.refl s)).frame

/-- A flagged event of HOST leaves its rings and berths (R9, R512). -/
theorem State.raise_host_rings (i r : Nat) : (s.raise .host i).ring r = s.ring r := by
  rw [State.ring, State.raise_at_host]
  rfl

/-! ### Fetching (R484) -/

/-- What a fetch leaves of a ring, and how many entries it takes: as many as there are slots to reserve. -/
structure Fetched (x y : CmdRing) : Prop where
  producer : y.producer = x.producer
  consumer : y.consumer = x.consumer
  filled : y.filled = x.filled
  error : y.error = x.error
  entries : y.unfetched + y.waiting = x.unfetched + x.waiting
  waiting : y.waiting = x.waiting + min x.unfetched x.slotsFree
  reserved : y.reserved + x.waiting = x.reserved + y.waiting

theorem CmdRing.fetch_fetched {x : CmdRing} (on : x.enable) (ok : x.error = false) : Fetched x x.fetch := by
  have serves : ¬(!x.enable || x.error) = true := by rw [on, ok]; decide
  rw [CmdRing.fetch, if_neg serves]
  refine ⟨rfl, rfl, rfl, rfl, ?_, rfl, ?_⟩
  · dsimp only
    omega
  · dsimp only
    omega

/-! ### Doorbells (R484, R486) -/

/-- A ring that is enabled and not in ERROR is served. -/
theorem CmdRing.served {x : CmdRing} (on : x.enable) (ok : x.error = false) : ¬(!x.enable || x.error) = true := by rw [on, ok]; decide

theorem exec_hostSqDb_publishes (s : State) (r i k : Nat) (v : Word) (x : CmdRing) (ring : s.ring r = x) (on : x.enable) (ok : x.error = false)
    (index : i = (v.extractLsb' 0 12).toNat) (within : i < x.entries) (new : k = (i + x.entries - x.producer) % x.entries)
    (room : x.unfetched + k ≤ x.entries) : ∃ t y, exec (.hostSqDb r v) s = .next t ∧ t.ring r = y ∧
      y.producer = i ∧ y.unfetched + y.waiting = x.unfetched + k + x.waiting ∧ y.waiting = x.waiting + min (x.unfetched + k) x.slotsFree ∧
      y.reserved + x.waiting = x.reserved + y.waiting ∧ y.filled = x.filled ∧ y.error = false ∧
      (∀ q, q ≠ r → t.ring q = s.ring q) ∧ OnlyTouches [.host] s t := by
  subst ring index new
  have run : exec (.hostSqDb r v) s = .next (s.onRing r fun x => { x with
      producer := (v.extractLsb' 0 12).toNat
      unfetched := x.unfetched + ((v.extractLsb' 0 12).toNat + (s.ring r).entries - (s.ring r).producer) % (s.ring r).entries }.fetch) := by
    refine congrArg Host.Outcome.next ((if_neg (CmdRing.served on ok)).trans (if_neg ?_))
    rw [Bool.or_eq_true, decide_eq_true_iff, decide_eq_true_iff]
    omega
  have self := State.ring_onRing_self (State.ring_lt on) fun x : CmdRing => { x with
    producer := (v.extractLsb' 0 12).toNat
    unfetched := x.unfetched + ((v.extractLsb' 0 12).toNat + (s.ring r).entries - (s.ring r).producer) % (s.ring r).entries }.fetch
  obtain ⟨producer, -, filled, error, entries, waiting, reserved⟩ := CmdRing.fetch_fetched (x := { s.ring r with
    producer := (v.extractLsb' 0 12).toNat
    unfetched := (s.ring r).unfetched + ((v.extractLsb' 0 12).toNat + (s.ring r).entries - (s.ring r).producer) % (s.ring r).entries }) on ok
  exact ⟨_, _, run, self, producer, entries, waiting, reserved, filled, error.trans ok, fun q hq => State.ring_onRing_ne hq _,
    State.onRing_touches r _⟩

theorem State.ringError_ring {r : Nat} (h : r < s.host.rings.length) : (s.ringError r).ring r = { s.ring r with error := true } := by
  have raised : (s.ringError r).ring r = (s.onRing r fun x => { x with error := true }).ring r :=
    State.raise_host_rings (s := s.onRing r fun x => { x with error := true }) 5 r
  rw [raised, State.ring_onRing_self h]

theorem State.ringError_event (r : Nat) : (s.ringError r).host.event.bits.getLsbD 5 = true := by
  have raised : (s.ringError r).host = ((s.onRing r fun x => { x with error := true }).raise .host 5).host := rfl
  rw [raised, State.raise_at_host]
  exact W1C.raise_bits _ _ (by decide)

theorem State.ringError_log (r : Nat) : (s.ringError r).log = (s.report .hostRingError r).log := by
  have logged (t : State) (h : t.log = s.log) (n : t.ltc = s.ltc) : (t.report .hostRingError r).log = (s.report .hostRingError r).log := by
    rw [State.report_log, State.report_log, h, n]
  have kept : Kept (· ∈ [.host]) s ((s.onRing r fun x => { x with error := true }).raise .host 5) :=
    State.raise_kept _ _ (State.onRing_kept r _ (.refl s))
  exact logged _ (kept.parts .log (by simp)) (kept.parts .ltc (by simp))

theorem exec_doorbells_err (s : State) (r : Nat) (v : Word) (x : CmdRing) (ring : s.ring r = x) (on : x.enable) (ok : x.error = false)
    (beyond : x.entries ≤ (v.extractLsb' 0 12).toNat) :
    (∃ t, exec (.hostSqDb r v) s = .next t ∧ t.ring r = { x with error := true } ∧ t.host.event.bits.getLsbD 5 = true ∧
      t.log = (s.report .hostRingError r).log ∧ OnlyTouches [.log, .host] s t) ∧
    ∃ t, exec (.hostCqDb r v) s = .next t ∧ t.ring r = { x with error := true } ∧ OnlyTouches [.log, .host] s t := by
  subst ring
  have frame : OnlyTouches [.log, .host] s (s.ringError r) := (State.ringError_kept r (.refl s)).frame
  have submission : exec (.hostSqDb r v) s = .next (s.ringError r) :=
    congrArg Host.Outcome.next ((if_neg (CmdRing.served on ok)).trans (if_pos (by rw [decide_eq_true beyond]; rfl)))
  have completion : exec (.hostCqDb r v) s = .next (s.ringError r) :=
    congrArg Host.Outcome.next ((if_neg (CmdRing.served on ok)).trans (if_pos beyond))
  exact ⟨⟨_, submission, State.ringError_ring (State.ring_lt on), State.ringError_event r, State.ringError_log r, frame⟩,
    _, completion, State.ringError_ring (State.ring_lt on), frame⟩

theorem exec_hostCqDb_releases (s : State) (r i d : Nat) (v : Word) (x : CmdRing) (ring : s.ring r = x) (on : x.enable) (ok : x.error = false)
    (index : i = (v.extractLsb' 0 12).toNat) (within : i < x.entries) (released : d = (i + x.entries - x.consumer) % x.entries) (some_ : d ≠ 0)
    (filled : d ≤ x.filled) : ∃ t y, exec (.hostCqDb r v) s = .next t ∧ t.ring r = y ∧
      y.consumer = i ∧ y.filled = x.filled - d ∧ y.unfetched + y.waiting = x.unfetched + x.waiting ∧
      (∀ q, q ≠ r → t.ring q = s.ring q) ∧ OnlyTouches [.host] s t := by
  subst ring
  have run : exec (.hostCqDb r v) s = .next (s.onRing r fun x => { x with consumer := i, filled := x.filled - d }.fetch) := by
    refine congrArg Host.Outcome.next ((if_neg (CmdRing.served on ok)).trans ((if_neg (by omega)).trans ?_))
    dsimp only
    have whole : (if d = 0 ∧ (s.ring r).filled = (s.ring r).entries then (s.ring r).entries else d) = d := if_neg fun h => some_ h.1
    rw [← index, ← released, whole, if_neg (Nat.not_lt.mpr filled)]
  have self := State.ring_onRing_self (State.ring_lt on) fun x : CmdRing => { x with consumer := i, filled := x.filled - d }.fetch
  have fetched := CmdRing.fetch_fetched (x := { s.ring r with consumer := i, filled := (s.ring r).filled - d }) on ok
  exact ⟨_, _, run, self, fetched.consumer, fetched.filled, fetched.entries, fun q hq => State.ring_onRing_ne hq _, State.onRing_touches r _⟩

/-! ### Control and the link (R482, R483) -/

/-- A ring as a write of HOST_RING_CTRL sets it up before it starts or stops it (R483, R512). -/
def CmdRing.setUp (x : CmdRing) (v : Word) (sizeOk : Bool) : CmdRing :=
  { x with holdoff := min 1000 (v.extractLsb' 8 10).toNat, size := if sizeOk then (v.extractLsb' 2 4).toNat else x.size }

/-- A change of SIZE on an enabled ring is flagged as a bad doorbell (R483). -/
def State.sizeFlagged (s : State) (r : Nat) (v : Word) : State :=
  s.when ((s.ring r).enable && (v.extractLsb' 2 4).toNat != (s.ring r).size) fun s => s.raise .host 5

theorem State.ringCtrl_eq (s : State) (r : Nat) (v : Word) : s.ringCtrl r v =
    (let t := (s.sizeFlagged r v).onRing r fun x => x.setUp v (!(s.ring r).enable && decide ((v.extractLsb' 2 4).toNat ≤ 8))
     if v.getLsbD 0 then (if (s.ring r).enable then t else t.onRing r CmdRing.on) else t.onRing r CmdRing.off) := rfl

theorem State.sizeFlagged_host (s : State) (r : Nat) (v : Word) : ∃ e p, (s.sizeFlagged r v).host = { s.host with event := e, pba := p } := by
  unfold State.sizeFlagged State.when
  split
  · exact ⟨_, _, State.raise_at_host s 5⟩
  · exact ⟨_, _, rfl⟩

/-- A ring after a change on top of its set-up. -/
theorem State.onRing_setUp_ring {r : Nat} (h : r < s.host.rings.length) (v : Word) (ok : Bool) (f : CmdRing → CmdRing) :
    (((s.sizeFlagged r v).onRing r fun x => x.setUp v ok).onRing r f).ring r = f ((s.ring r).setUp v ok) := by
  obtain ⟨e, p, host⟩ := s.sizeFlagged_host r v
  have rings : (s.sizeFlagged r v).host.rings = s.host.rings := by rw [host]
  have len : r < (s.sizeFlagged r v).host.rings.length := rings ▸ h
  have len' : r < ((s.sizeFlagged r v).onRing r fun x => x.setUp v ok).host.rings.length := (length_updAt ..).symm ▸ len
  rw [State.ring_onRing_self len', State.ring_onRing_self len, State.ring_congr rings]

theorem exec_hostRingCtrlWrite_on (s : State) (r : Nat) (v : Word) (x : CmdRing) (h : r < s.host.rings.length) (ring : s.ring r = x)
    (bit : v.getLsbD 0) (off : x.enable = false) : ∃ t y, exec (.hostRingCtrlWrite r v) s = .next t ∧ t.ring r = y ∧ y.enable = true ∧
      y.error = false ∧ y.filled = 0 ∧ y.unfetched = 0 ∧ y.waiting = 0 ∧ y.phase = true ∧ y.producer = 0 ∧ y.consumer = 0 ∧
      y.size = (if (v.extractLsb' 2 4).toNat ≤ 8 then (v.extractLsb' 2 4).toNat else x.size) ∧ OnlyTouches [.host] s t := by
  subst ring
  have run : exec (.hostRingCtrlWrite r v) s = .next _ := congrArg Host.Outcome.next (s.ringCtrl_eq r v)
  have frame : OnlyTouches [.host] s _ := (execHostRingCtrlWrite_kept r v (.refl s)).frame run
  dsimp only at run frame
  rw [if_pos bit, if_neg (by rw [off]; decide)] at run frame
  have self := State.onRing_setUp_ring h v (!(s.ring r).enable && decide ((v.extractLsb' 2 4).toNat ≤ 8)) CmdRing.on
  refine ⟨_, _, run, self, rfl, rfl, rfl, rfl, rfl, rfl, rfl, rfl, ?_, frame⟩
  simp only [CmdRing.on, CmdRing.setUp, off, Bool.not_false, Bool.true_and, decide_eq_true_iff]

theorem exec_hostRingCtrlWrite_off (s : State) (r : Nat) (v : Word) (x : CmdRing) (h : r < s.host.rings.length) (ring : s.ring r = x)
    (bit : v.getLsbD 0 = false) : ∃ t y, exec (.hostRingCtrlWrite r v) s = .next t ∧ t.ring r = y ∧ y.enable = false ∧ y.unfetched = 0 ∧
      y.waiting = 0 ∧ y.reserved = x.reserved - x.waiting ∧ (x.enable → y.size = x.size) ∧ t.host.berths = s.host.berths ∧
      OnlyTouches [.host] s t := by
  subst ring
  have run : exec (.hostRingCtrlWrite r v) s = .next _ := congrArg Host.Outcome.next (s.ringCtrl_eq r v)
  have frame : OnlyTouches [.host] s _ := (execHostRingCtrlWrite_kept r v (.refl s)).frame run
  dsimp only at run frame
  rw [if_neg (by rw [bit]; decide)] at run frame
  have self := State.onRing_setUp_ring h v (!(s.ring r).enable && decide ((v.extractLsb' 2 4).toNat ≤ 8)) CmdRing.off
  obtain ⟨e, p, host⟩ := s.sizeFlagged_host r v
  refine ⟨_, _, run, self, rfl, rfl, rfl, rfl, fun on => ?_, (congrArg HostState.berths host :), frame⟩
  rw [on]
  rfl

theorem exec_hostLinkDown_disables (s : State) (up : s.host.linkUp) : ∃ t, exec .hostLinkDown s = .next t ∧ t.host.linkUp = false ∧
    (∀ r, (t.ring r).enable = false) ∧ t.host.berths = s.host.berths ∧ t.host.qCtl = s.host.qCtl ∧ t.host.event.bits.getLsbD 9 = true ∧
    t.log = (s.report .hostLinkDown).log ∧ OnlyTouches [.log, .host] s t := by
  obtain ⟨e, p, host⟩ := s.hostGone_host
  have event : s.hostGone.host.event.bits.getLsbD 9 = true := by
    simp only [State.hostGone, State.report, State.onLog_host, State.raise_at_host, State.onHost_host]
    exact W1C.raise_bits _ _ (by decide)
  have frame : OnlyTouches [.log, .host] s s.hostGone := (State.hostGone_kept (.refl s)).frame
  refine ⟨_, exec_hostLinkDown up, by rw [host], fun r => ?_, by rw [host], by rw [host], event, s.hostGone_log, frame⟩
  rw [State.ring, host, nth, List.getElem?_map]
  cases s.host.rings[r]? <;> rfl

/-! ### Frame rings (R434, R512) -/

theorem exec_hostFrDb_frees (s : State) (x : FrDbIn) (tx : s.host.frTx = false) (rx : s.host.frRx)
    (within : (x.v.extractLsb' 16 12).toNat < 2 ^ (s.host.frRxSize + 4)) :
    ∃ t, exec (.hostFrDb x) s = .next t ∧ t.host.frRxCons = (x.v.extractLsb' 16 12).toNat ∧
      t.host.frRxFilled = s.host.frRxFilled - min s.host.frRxFilled
        (((x.v.extractLsb' 16 12).toNat + 2 ^ (s.host.frRxSize + 4) - s.host.frRxCons % 2 ^ (s.host.frRxSize + 4)) % 2 ^ (s.host.frRxSize + 4)) ∧
      OnlyTouches [.host] s t := by
  have run : exec (.hostFrDb x) s = .next (s.onHost fun h => { h with
      frRxCons := (x.v.extractLsb' 16 12).toNat
      frRxFilled := h.frRxFilled - min s.host.frRxFilled
        (((x.v.extractLsb' 16 12).toNat + frEntries s.host.frRxSize - s.host.frRxCons % frEntries s.host.frRxSize) % frEntries s.host.frRxSize) }) := by
    show Host.Outcome.next (s.frDoorbell x.v x.frames) = _
    unfold State.frDoorbell
    dsimp only
    rw [tx, rx, decide_eq_false (Nat.not_le.mpr (show _ < frEntries s.host.frRxSize from within))]
    rfl
  exact ⟨_, run, rfl, rfl, State.onHost_touches fun _ => rfl⟩

/-- Frames that have been sent in order are written back, newest first (R512). -/
structure FramesSent (l : List Frame) (s t : State) : Prop where
  host : ∃ ds, t.host = { s.host with frDone := ds ++ s.host.frDone } ∧ ds.map (·.len) = (l.map (·.len)).reverse ∧ ds.all fun d => !d.own

theorem State.frSend_host (s : State) (f : Frame) : ∃ d, (s.frSend f).host = { s.host with frDone := d :: s.host.frDone } ∧ d.len = f.len ∧
    d.own = false := by
  unfold State.frSend
  extract_lets ok u
  have untouched : (u.when ok fun s => s.frameRx 44 f).host = u.host :=
    (State.when_kept (.refl u) fun _ k => State.frameRx_kept (M := (· ∉ [.host])) 44 f k).parts .host (by simp)
  exact ⟨_, untouched, rfl, rfl⟩

theorem State.forEach_frSend (l : List Frame) (s : State) : FramesSent l s (s.forEach l State.frSend) := by
  induction l generalizing s with
  | nil => exact ⟨[], rfl, rfl, rfl⟩
  | cons f l ih =>
    rw [State.forEach_cons]
    obtain ⟨d, first, len, own⟩ := s.frSend_host f
    obtain ⟨ds, host, lens, owns⟩ := (ih (s.frSend f)).host
    refine ⟨ds ++ [d], ?_, ?_, ?_⟩
    · rw [host, first]
      simp
    · simp [lens, len]
    · rw [List.all_append, owns]
      simp [own]

theorem exec_hostFrDb_sends (s : State) (x : FrDbIn) (i n k : Nat) (tx : s.host.frTx) (rx : s.host.frRx = false)
    (index : i = (x.v.extractLsb' 0 12).toNat) (entries : n = 2 ^ (s.host.frTxSize + 4)) (within : i < n)
    (new : k = (i + n - s.host.frTxProd % n) % n) (some_ : 0 < k) :
    ∃ t, exec (.hostFrDb x) s = .next t ∧ t.host.frTxHead = i ∧ t.host.frTxProd = i ∧
      t.host.frDone.map (·.len) = ((x.frames.take k).map (·.len)).reverse ++ s.host.frDone.map (·.len) ∧
      (t.host.frDone.take (min k x.frames.length)).all (fun d => !d.own) ∧ OnlyTouches [.log, .net, .ptp, .host] s t := by
  have size : frEntries s.host.frTxSize = n := entries.symm
  have run : exec (.hostFrDb x) s = .next
      (((s.onHost fun h => { h with frTxProd := i, frTxHead := i }).forEach (x.frames.take k) State.frSend).onHost fun h => h.vector 16) := by
    show Host.Outcome.next (s.frDoorbell x.v x.frames) = _
    unfold State.frDoorbell
    dsimp only
    rw [tx, rx, size, ← index, ← new, decide_eq_false (Nat.not_le.mpr within), decide_eq_true some_]
    rfl
  have frame : OnlyTouches [.log, .net, .ptp, .host] s _ := (execHostFrDb_kept x (.refl s)).frame run
  obtain ⟨ds, host, lens, owns⟩ := ((s.onHost fun h => { h with frTxProd := i, frTxHead := i }).forEach_frSend (x.frames.take k)).host
  generalize (s.onHost fun h => { h with frTxProd := i, frTxHead := i }).forEach (x.frames.take k) State.frSend = u at run frame host
  have done : (u.onHost fun h => h.vector 16).host.frDone = ds ++ s.host.frDone := by
    rw [State.onHost_host, HostState.vector_eq, host]
    rfl
  have prod : (u.onHost fun h => h.vector 16).host.frTxHead = i ∧ (u.onHost fun h => h.vector 16).host.frTxProd = i := by
    rw [State.onHost_host, HostState.vector_eq, host]
    exact ⟨rfl, rfl⟩
  have count : ds.length = min k x.frames.length := by simpa using congrArg List.length lens
  refine ⟨_, run, prod.1, prod.2, ?_, ?_, frame⟩
  · rw [done, List.map_append, lens]
  · rw [done, ← count, List.take_left]
    exact owns

/-- Settles O43, clause by clause. -/
theorem ringsPublishFetchAndRelease : Obligations.RingsPublishFetchAndRelease :=
  ⟨exec_hostSqDb_publishes, exec_doorbells_err, exec_hostCqDb_releases,
    fun s r v x h ring => ⟨exec_hostRingCtrlWrite_on s r v x h ring, exec_hostRingCtrlWrite_off s r v x h ring⟩,
    fun _ up => ⟨_, exec_hostLinkUp up, rfl, State.onHost_touches fun _ => rfl⟩,
    exec_hostLinkDown_disables, exec_hostFrDb_frees, exec_hostFrDb_sends⟩

end Sys2Proof.Machine
end

section
/-! SUPPORT. Completions in their rings, refusals, admission and forwarding of entries (spec/15_host_cluster_berths.md R484 to R492, R503). -/

namespace Sys2Proof.Machine

set_option Elab.async false

open Sys2Proof

variable {s : State}

/-! ### Completions (R482, R486) -/

/-- A completion has been written to ring `r`; beside the rings only the pending vectors of HOST differ (R486, R512). -/
structure Written (r : Nat) (c : Completion) (s t : State) : Prop where
  host : ∃ l p, t.host = { s.host with rings := l, pba := p }
  written : (t.ring r).written = { c with phase := (s.ring r).phase } :: (s.ring r).written
  filled : (t.ring r).filled = (s.ring r).filled + 1

theorem State.ringVector_host (s : State) (r : Nat) : ∃ l p, (s.ringVector r).host = { s.host with rings := l, pba := p } := by
  unfold State.ringVector
  extract_lets x
  split
  · exact ⟨_, s.host.pba, rfl⟩
  · exact ⟨_, _, (State.onHost_host _ _).trans (HostState.vector_eq _ r)⟩

/-- The vector of a ring changes what its ring holds of messages alone (R512). -/
theorem State.ringVector_ring (s : State) (r : Nat) : ∃ a b, (s.ringVector r).ring r = { s.ring r with irqAt := a, irqHeld := b } := by
  have change (f : CmdRing → CmdRing) (h : ∀ x, ∃ a b, f x = { x with irqAt := a, irqHeld := b }) :
      ∃ a b, (s.onRing r f).ring r = { s.ring r with irqAt := a, irqHeld := b } := by
    by_cases lt : r < s.host.rings.length
    · rw [State.ring_onRing_self lt]
      exact h _
    · exact ⟨_, _, nth_updAt_out _ _ _ _ _ (not_lt.mp lt)⟩
  unfold State.ringVector
  extract_lets x
  split
  · exact change _ fun x => ⟨_, _, rfl⟩
  · obtain ⟨a, b, ring⟩ := change (fun x => { x with irqAt := some s.now, irqHeld := false }) fun x => ⟨_, _, rfl⟩
    refine ⟨a, b, ?_⟩
    rw [← ring, State.ring, State.onHost_host, HostState.vector_eq]
    rfl

theorem State.ringComplete_written {r : Nat} (c : Completion) (notify : Bool) (up : s.host.linkUp) (on : (s.ring r).enable)
    (alive : s.sys.lastwords = false) : Written r c s (s.ringComplete r c notify) := by
  have can : (s.host.linkUp && (s.ring r).enable && !s.sys.lastwords) = true := by rw [up, on, alive]; rfl
  rw [State.ringComplete, if_pos can]
  have self := State.ring_onRing_self (State.ring_lt on) fun x : CmdRing => x.complete c
  cases notify with
  | false => exact ⟨⟨_, s.host.pba, rfl⟩, (congrArg CmdRing.written self :), (congrArg CmdRing.filled self :)⟩
  | true =>
    obtain ⟨l, p, host⟩ := (s.onRing r fun x => x.complete c).ringVector_host r
    obtain ⟨a, b, ring⟩ := (s.onRing r fun x => x.complete c).ringVector_ring r
    rw [self] at ring
    exact ⟨⟨l, p, host⟩, (congrArg CmdRing.written ring :), (congrArg CmdRing.filled ring :)⟩

/-! ### The traces of a refusal (R490, R492) -/

/-- A refusal leaves HOST but for its sources, its events and its pending vectors, sets the event of refusals and clears none. -/
structure RefusalNoted (s t : State) : Prop where
  host : ∃ l e p, t.host = { s.host with sources := l, event := e, pba := p }
  event : t.host.event.bits.getLsbD 0 = true
  sys : t.sys = s.sys

theorem State.raise_host_noted (s : State) (i : Nat) : ∃ e p, (s.raise .host i).host = { s.host with event := e, pba := p } ∧
    ∀ j, s.host.event.bits.getLsbD j = true → e.bits.getLsbD j = true :=
  ⟨_, _, State.raise_at_host s i, fun _ h => W1C.bits_raise_of_set _ i h⟩

theorem State.raise_host_event (s : State) {i : Nat} (h : i < 32) : (s.raise .host i).host.event.bits.getLsbD i = true := by
  rw [State.raise_at_host]
  exact W1C.raise_bits _ _ h

theorem State.countRefusal_noted (s : State) (src : Nat) (v : Verdict) : RefusalNoted s (s.countRefusal src v) := by
  have sys : (s.countRefusal src v).sys = s.sys := (State.countRefusal_kept (M := (· ∉ [.sys])) src v (.refl s)).parts .sys (by simp)
  suffices traced : (∃ l e p, (s.countRefusal src v).host = { s.host with sources := l, event := e, pba := p }) ∧
      (s.countRefusal src v).host.event.bits.getLsbD 0 = true from ⟨traced.1, traced.2, sys⟩
  clear sys
  unfold State.countRefusal
  extract_lets _ fresh t u
  obtain ⟨e, p, flagged⟩ : ∃ e p, u.host = { t.host with event := e, pba := p } := by
    unfold u
    split
    · exact ⟨_, _, State.raise_at_host t _⟩
    · exact ⟨_, _, rfl⟩
  obtain ⟨e', p', raised, -⟩ := u.raise_host_noted 0
  have event := u.raise_host_event (i := 0) (by decide)
  have logged : ((u.raise .host 0).when fresh fun s => s.report .hostRefusals src [src, v.reason.num]).host = (u.raise .host 0).host := by
    cases fresh <;> rfl
  refine ⟨⟨t.host.sources, e', p', ?_⟩, by rw [logged]; exact event⟩
  rw [logged, raised, flagged]
  rfl

theorem State.stateRefused_noted (s : State) (src : Nat) (e : Entry) (r : Refuse) : RefusalNoted s (s.stateRefused src e r) := by
  have sys : (s.stateRefused src e r).sys = s.sys := (State.stateRefused_kept (M := (· ∉ [.sys])) src e r (.refl s)).parts .sys (by simp)
  have traced : (s.stateRefused src e r).host = s.raiseRefused.host := by
    unfold State.stateRefused
    extract_lets t u
    have untouched : u.host = t.host := by
      unfold u
      split
      · exact (State.markPast_kept (M := (· ∉ [.host])) _ (.refl t)).parts .host (by simp)
      · rfl
    exact untouched
  obtain ⟨f, p, first, -⟩ := s.raise_host_noted 0
  obtain ⟨g, q, second, events⟩ := (s.raise .host 0).raise_host_noted 1
  have event := events 0 (s.raise_host_event (by decide))
  refine ⟨⟨s.host.sources, g, q, ?_⟩, ?_, sys⟩
  · rw [traced, State.raiseRefused, second, first]
  · rw [traced, State.raiseRefused, second]
    exact event

theorem State.noteRefusal_noted (s : State) (src : Nat) (e : Entry) (v : Verdict) : RefusalNoted s (s.noteRefusal src e v) := by
  unfold State.noteRefusal
  split
  · exact s.stateRefused_noted src e _
  · exact s.countRefusal_noted src v

theorem RefusalNoted.ring {s t : State} (h : RefusalNoted s t) (r : Nat) : t.ring r = s.ring r := by
  obtain ⟨l, e, p, host⟩ := h.host
  exact State.ring_congr (by rw [host]) r

/-! ### Arrival (R484, R489) -/

/-- The state with the entry taken from its ring (R484). -/
def State.taken (s : State) (r : Nat) : State := s.onRing r fun x => { x with waiting := x.waiting - 1 }

theorem exec_hostEntryArrival_rests (s : State) (r : Nat) (e : Entry) (h : 16 ≤ r ∨ (s.ring r).enable = false ∨ (s.ring r).waiting = 0) :
    exec (.hostEntryArrival r e) s = .next s := congrArg Host.Outcome.next (if_pos (by simpa [or_assoc] using h))

theorem exec_hostEntryArrival {r : Nat} (e : Entry) (lt : r < 16) (on : (s.ring r).enable) (waits : (s.ring r).waiting ≠ 0) :
    exec (.hostEntryArrival r e) s = .next ((s.taken r).ringEntry r e) := by
  refine congrArg Host.Outcome.next (if_neg ?_)
  rw [on, decide_eq_false waits, decide_eq_false (Nat.not_le.mpr lt)]
  decide

/-- An entry that this node carries out goes by its admission tests (R489). -/
theorem State.ringEntry_here {r : Nat} {e : Entry} (here : s.elsewhere e = false) : s.ringEntry r e =
    match s.admission r e (e.deadlineNs false) with
    | some v => (s.noteRefusal r e v).ringComplete r (s.refusedCompletion e v) e.notify
    | none => s.admitItem r e (e.deadlineNs false) none := by
  unfold State.ringEntry
  rw [here]
  rfl

theorem exec_hostEntryArrival_refused (s u : State) (r : Nat) (e : Entry) (v : Verdict) (lt : r < 16) (on : (s.ring r).enable)
    (waits : (s.ring r).waiting ≠ 0) (up : s.host.linkUp) (alive : s.sys.lastwords = false) (taken : u = s.taken r)
    (here : u.elsewhere e = false) (refused : u.admission r e (e.deadlineNs false) = some v) :
    ∃ t, exec (.hostEntryArrival r e) s = .next t ∧
      (t.ring r).written = { u.refusedCompletion e v with phase := (s.ring r).phase } :: (s.ring r).written ∧ t.host.berths = s.host.berths ∧
      t.host.qCtl = s.host.qCtl ∧ t.host.event.bits.getLsbD 0 = true ∧ OnlyTouches [.tide, .log, .host] s t := by
  have run := exec_hostEntryArrival e lt on waits
  rw [← taken, State.ringEntry_here here, refused] at run
  have ring : u.ring r = { s.ring r with waiting := (s.ring r).waiting - 1 } := taken ▸ State.ring_onRing_self (State.ring_lt on) _
  have berths : u.host.berths = s.host.berths ∧ u.host.qCtl = s.host.qCtl ∧ u.host.linkUp = s.host.linkUp ∧ u.sys = s.sys := by
    rw [taken]
    exact ⟨rfl, rfl, rfl, rfl⟩
  have kept : Kept (· ∈ [.tide, .log, .host]) s u := taken ▸ State.onRing_kept r _ (.refl s)
  have noted := u.noteRefusal_noted r e v
  have keptNoted : Kept (· ∈ [.tide, .log, .host]) s (u.noteRefusal r e v) := State.noteRefusal_kept r e v kept
  dsimp only at run
  generalize u.noteRefusal r e v = w at run noted keptNoted
  obtain ⟨l, ev, p, host⟩ := noted.host
  have same : w.ring r = u.ring r := noted.ring r
  have written := State.ringComplete_written (s := w) (r := r) (u.refusedCompletion e v) e.notify (by rw [host]; exact berths.2.2.1.trans up)
    (by rw [same, ring]; exact on) (by rw [noted.sys, berths.2.2.2]; exact alive)
  obtain ⟨k, q, completed⟩ := written.host
  refine ⟨_, run, ?_, ?_, ?_, ?_, (State.ringComplete_kept _ _ _ keptNoted).frame⟩
  · rw [written.written, same, ring]
  · rw [completed, host]
    exact berths.1
  · rw [completed, host]
    exact berths.2.1
  · rw [completed]
    exact noted.event

/-! ### Admission (R487, R490, R491) -/

theorem State.item_of_set_self {t : State} {b : Nat} {i : Option Item} (h : t.host.berths = s.host.berths.set b i) (lt : b < s.host.berths.length) :
    t.item b = i := by
  rw [State.item, h, List.getElem?_set_self lt]
  rfl

theorem State.item_of_set_ne {t : State} {b k : Nat} {i : Option Item} (h : t.host.berths = s.host.berths.set b i) (ne : k ≠ b) :
    t.item k = s.item k := by
  rw [State.item, State.item, h, List.getElem?_set_ne ne.symm]

theorem HostState.freeBerth_lt {h : HostState} {src b : Nat} {res : Bool} (free : h.freeBerth src = some (b, res)) : b < h.berths.length := by
  unfold HostState.freeBerth at free
  extract_lets res' at free
  split at free
  · obtain ⟨c, found, same⟩ := Option.map_eq_some_iff.mp free
    have eq : c = b := congrArg Prod.fst same
    exact eq ▸ (List.findIdx?_eq_some_iff_findIdx_eq.mp found).1
  · cases free

/-- The item that an entry becomes (R487). -/
def State.newItem (s : State) (src : Nat) (e : Entry) (d : Ns) (req : Option Word) (res : Bool) : Item :=
  { src, entry := e, reqId := req, reserved := res, tAdmit := s.now, tsAdmit := s.ts32, due := s.now + d, stage := e.firstStage }

/-- What HOST keeps of an admitted entry (R487, R490): its item in berth `b`, its place on CTL and the token that its source has spent. -/
structure Admitted (src b : Nat) (it : Item) (s t : State) : Prop where
  berths : t.host.berths = s.host.berths.set b (some it)
  qCtl : t.host.qCtl = s.host.qCtl ++ [b]
  sources : t.host.sources = (s.spendToken src).host.sources

theorem State.admitItem_admitted {src b : Nat} {res : Bool} (e : Entry) (d : Ns) (req : Option Word) (free : s.host.freeBerth src = some (b, res)) :
    Admitted src b (s.newItem src e d req res) s (s.admitItem src e d req) := by
  unfold State.admitItem
  rw [free]
  dsimp only
  have stopped (t : State) (id : BitVec 64) : (t.stopWindow id b).host = t.host :=
    (State.stopWindow_kept (M := (· ∉ [.host])) id b (.refl t)).parts .host (by simp)
  split
  · constructor <;> rw [stopped] <;> rfl
  · exact ⟨rfl, rfl, rfl⟩

theorem State.source_spendToken {src : Nat} (lt : src < s.host.sources.length) : nth (s.spendToken src).host.sources src {} =
    { nth s.host.sources src {} with
      tokens := s.tokensNow (nth s.host.sources src {}) - 1, tTok := s.now, accepted := (nth s.host.sources src {}).accepted + 1 } :=
  nth_updAt_self _ _ _ _ lt

theorem exec_hostEntryArrival_admitted (s u : State) (r b : Nat) (res : Bool) (e : Entry) (lt : r < 16) (on : (s.ring r).enable)
    (waits : (s.ring r).waiting ≠ 0) (taken : u = s.taken r) (here : u.elsewhere e = false) (passes : u.admission r e (e.deadlineNs false) = none)
    (free : s.host.freeBerth r = some (b, res)) (source : r < s.host.sources.length) :
    ∃ t it, exec (.hostEntryArrival r e) s = .next t ∧ t.item b = some it ∧ it.entry = e ∧ it.src = r ∧ it.stage = e.firstStage ∧
      it.tAdmit = s.now ∧ it.due = s.now + e.deadlineNs false ∧ it.ending = none ∧ it.reserved = res ∧ (∀ k, k ≠ b → t.item k = s.item k) ∧
      t.host.qCtl = s.host.qCtl ++ [b] ∧ (nth t.host.sources r {}).tokens = s.tokensNow (nth s.host.sources r {}) - 1 ∧
      (nth t.host.sources r {}).accepted = (nth s.host.sources r {}).accepted + 1 ∧ OnlyTouches [.host, .sec] s t := by
  have run := exec_hostEntryArrival e lt on waits
  rw [← taken, State.ringEntry_here here, passes] at run
  obtain ⟨now, host⟩ : u.now = s.now ∧ u.host = { s.host with rings := u.host.rings } := by
    rw [taken]
    exact ⟨rfl, rfl⟩
  have kept : Kept (· ∈ [.host, .sec]) s u := taken ▸ State.onRing_kept r _ (.refl s)
  have berths : u.host.berths = s.host.berths := by rw [host]
  have qCtl : u.host.qCtl = s.host.qCtl := by rw [host]
  have sources : u.host.sources = s.host.sources := by rw [host]
  have tokens (x : Source) : u.tokensNow x = s.tokensNow x := by rw [State.tokensNow, State.tokensNow, now]
  have admitted := State.admitItem_admitted (s := u) e (e.deadlineNs false) none ((by rw [host]; exact free : u.host.freeBerth r = some (b, res)))
  have frame := (State.admitItem_kept r e (e.deadlineNs false) none kept).frame
  have spent := State.source_spendToken (s := u) (src := r) (by rw [sources]; exact source)
  dsimp only at run
  generalize u.admitItem r e (e.deadlineNs false) none = t at run admitted frame
  rw [← admitted.sources, sources, tokens] at spent
  have set : t.host.berths = s.host.berths.set b (some (u.newItem r e (e.deadlineNs false) none res)) := berths ▸ admitted.berths
  exact ⟨t, _, run, State.item_of_set_self set (HostState.freeBerth_lt free), rfl, rfl, rfl, now, congrArg (· + _) now, rfl, rfl,
    fun _ ne => State.item_of_set_ne set ne, admitted.qCtl.trans (congrArg (· ++ [b]) qCtl), (congrArg Source.tokens spent :),
    (congrArg Source.accepted spent :), frame⟩

/-! ### Forwarding (R503) -/

/-- An entry for another node goes by the harbour's tests (R503). -/
theorem State.ringEntry_far {r : Nat} {e : Entry} (far : s.elsewhere e) : s.ringEntry r e =
    match s.forwardTest r e with
    | some v => (s.noteRefusal r e v).ringComplete r (s.refusedCompletion e v) e.notify
    | none => s.forwardEntry r e := by
  unfold State.ringEntry
  rw [far]
  rfl

/-- The forward table entry of a command (R503). -/
def State.newForward (s : State) (r : Nat) (e : Entry) : Forward :=
  { reqId := s.host.nextReq, ring := r, entry := e, tAdmit := s.now, tsAdmit := s.ts32, due := s.now + e.deadlineNs true }

theorem State.forwardEntry_host (s : State) (r : Nat) (e : Entry) : (s.forwardEntry r e).host.forwards = s.host.forwards ++ [s.newForward r e] ∧
    (s.forwardEntry r e).host.berths = s.host.berths := by
  unfold State.forwardEntry
  extract_lets req f t u
  have sent : (u.forEach (List.range (if e.bulk then (e.bulkLen + 255) / 256 else 0)) fun s i => s.adeidSend e.node false (.bulk req i)).host = t.host :=
    (State.forEach_kept (M := (· ∉ [.host])) (fun _ _ h => State.adeidSend_kept _ _ _ h) _ (State.adeidSend_kept _ _ _ (.refl t))).parts .host (by simp)
  rw [sent]
  exact ⟨rfl, rfl⟩

theorem exec_hostEntryArrival_forwarded (s u : State) (r : Nat) (e : Entry) (lt : r < 16) (on : (s.ring r).enable) (waits : (s.ring r).waiting ≠ 0)
    (taken : u = s.taken r) (far : u.elsewhere e) (passes : u.forwardTest r e = none) :
    ∃ t f, exec (.hostEntryArrival r e) s = .next t ∧ t.host.forwards = s.host.forwards ++ [f] ∧ f.entry = e ∧ f.ring = r ∧
      f.reqId = s.host.nextReq ∧ f.due = s.now + e.deadlineNs true ∧ t.host.berths = s.host.berths ∧ OnlyTouches [.host, .adeid] s t := by
  have run := exec_hostEntryArrival e lt on waits
  rw [← taken, State.ringEntry_far far, passes] at run
  obtain ⟨now, host⟩ : u.now = s.now ∧ u.host = { s.host with rings := u.host.rings } := by
    rw [taken]
    exact ⟨rfl, rfl⟩
  have kept : Kept (· ∈ [.host, .adeid]) s u := taken ▸ State.onRing_kept r _ (.refl s)
  have frame := (State.forwardEntry_kept r e kept).frame
  obtain ⟨forwards, berths⟩ := u.forwardEntry_host r e
  dsimp only at run
  generalize u.forwardEntry r e = t at run frame forwards berths
  refine ⟨t, u.newForward r e, run, ?_, rfl, rfl, ?_, congrArg (· + _) now, ?_, frame⟩
  · rw [forwards, host]
  · rw [State.newForward, host]
  · rw [berths, host]

/-- Settles O44, clause by clause. -/
theorem entriesAreDecidedOnArrival : Obligations.EntriesAreDecidedOnArrival :=
  ⟨exec_hostEntryArrival_rests, exec_hostEntryArrival_refused, exec_hostEntryArrival_admitted, exec_hostEntryArrival_forwarded⟩

end Sys2Proof.Machine
end

section
/-! SUPPORT. The stages of an admitted item and its completion (spec/15_host_cluster_berths.md R486 to R488, R493; spec/16_manifest_and_two_party.md R529, R530). -/

namespace Sys2Proof.Machine

set_option Elab.async false

open Sys2Proof

variable {s : State}

/-! ### BULK and SIG (R488, R530) -/

/-- The state with item `b` served by BULK (R488, R490). -/
def State.leaveBulk (s : State) (b : Nat) : State :=
  s.onHost fun h => { h with qBulk := h.qBulk.filter (· != b), fBulk := Machine.fallBack (h.qBulk.filter (· != b)) h.fBulk s.now }

/-- The state with item `b` served by SIG (R488, R490). -/
def State.leaveSig (s : State) (b : Nat) : State :=
  s.onHost fun h => { h with qSig := h.qSig.filter (· != b), fSig := Machine.fallBack (h.qSig.filter (· != b)) h.fSig s.now }

theorem not_mem_filter_bne (l : List Nat) (b : Nat) : b ∉ l.filter (· != b) := by simp

theorem exec_berthBulkDone_does (s : State) (b : Nat) (it : Item) (item : s.item b = some it) (stage : it.stage = .bulk)
    (front : s.host.qBulk.head? = some b) : ∃ t, exec (.berthBulkDone b) s = .next t ∧
      t.item b = some { it with stage := if it.entry.passesSig then .sig else .ctl } ∧ b ∉ t.host.qBulk ∧ (∀ k, k ≠ b → t.item k = s.item k) ∧
      OnlyTouches [.host] s t := by
  have run : exec (.berthBulkDone b) s =
      .next ((s.leaveBulk b).onItem b fun x => { x with stage := if it.entry.passesSig then .sig else .ctl }) := by
    show execBerthBulkDone b s = _
    have serves : ¬(it.stage ≠ .bulk ∨ s.host.qBulk.head? ≠ some b) := by simp [stage, front]
    rw [execBerthBulkDone, item]
    exact congrArg Host.Outcome.next (if_neg serves)
  have still (k : Nat) : (s.leaveBulk b).item k = s.item k := State.item_congr rfl k
  exact ⟨_, run, State.item_onItem _ b _ it ((still b).trans item), not_mem_filter_bne _ b,
    fun k ne => (State.item_onItem_ne _ b k _ ne.symm).trans (still k), (execBerthBulkDone_kept b (.refl s)).frame run⟩

theorem exec_berthSigDone {b : Nat} {it : Item} (ok : Bool) (item : s.item b = some it) (stage : it.stage = .sig) (front : s.host.qSig.head? = some b) :
    exec (.berthSigDone b ok) s = .next
      (if s.sigPasses it.entry ok then
        ((s.leaveSig b).when it.entry.signed fun s =>
          s.onSec fun x => { x with keys := updAt x.keys it.entry.keySlot fun k => { k with nonce := it.entry.nonce } }).onItem b fun x =>
            { x with stage := .ctl }
      else (s.leaveSig b).sigFailed b it.entry) := by
  show execBerthSigDone b ok s = _
  have serves : ¬(it.stage ≠ .sig ∨ s.host.qSig.head? ≠ some b) := by simp [stage, front]
  rw [execBerthSigDone, item]
  exact congrArg Host.Outcome.next (if_neg serves)

theorem State.signed_of_sigPasses {e : Entry} {ok : Bool} (h : s.sigPasses e ok) : e.signed := by
  simp only [State.sigPasses, Bool.and_eq_true] at h
  exact h.1.1.1.1.1

theorem exec_berthSigDone_passes (s : State) (b : Nat) (ok : Bool) (it : Item) (item : s.item b = some it) (stage : it.stage = .sig)
    (front : s.host.qSig.head? = some b) (passes : s.sigPasses it.entry ok) (slot : it.entry.keySlot < s.sec.keys.length) :
    ∃ t, exec (.berthSigDone b ok) s = .next t ∧ t.item b = some { it with stage := .ctl } ∧ b ∉ t.host.qSig ∧
      (nth t.sec.keys it.entry.keySlot {}).nonce = it.entry.nonce ∧ (∀ k, k ≠ b → t.item k = s.item k) ∧ OnlyTouches [.host, .sec] s t := by
  have run := exec_berthSigDone ok item stage front
  rw [if_pos passes, State.signed_of_sigPasses passes, State.when_true] at run
  obtain ⟨u, hu⟩ : ∃ u, u = (s.leaveSig b).onSec fun x =>
      { x with keys := updAt x.keys it.entry.keySlot fun k => { k with nonce := it.entry.nonce } } := ⟨_, rfl⟩
  have kept : Kept (· ∈ [.host, .sec]) s u := by
    have left : Kept (· ∈ [.host, .sec]) s (s.leaveSig b) := State.onHost_kept (.refl s) fun _ h => h
    rw [hu]
    exact State.onSec_kept left (SecKept.same rfl rfl rfl rfl rfl)
  have still (k : Nat) : u.item k = s.item k := State.item_congr (by rw [hu]; rfl) k
  have served : b ∉ u.host.qSig := by
    rw [hu]
    exact not_mem_filter_bne _ b
  have nonce : (nth u.sec.keys it.entry.keySlot {}).nonce = it.entry.nonce := by
    rw [hu]
    exact congrArg KeySlot.nonce (nth_updAt_self _ _ _ _ slot)
  rw [← hu] at run
  exact ⟨_, run, State.item_onItem _ b _ it ((still b).trans item), served, nonce, fun k ne => (State.item_onItem_ne _ b k _ ne.symm).trans (still k),
    (State.onItem_kept b _ kept).frame⟩

/-- The failure of a CONFIRM leaves HOST and the keys, and clears no event of SEC (R541). -/
theorem State.confirmFailed_keeps (s : State) (id : BitVec 64) (b : Nat) : (s.confirmFailed id b).host = s.host ∧
    (s.confirmFailed id b).sec.keys = s.sec.keys ∧ ∀ i, s.sec.event.bits.getLsbD i = true → (s.confirmFailed id b).sec.event.bits.getLsbD i = true := by
  refine ⟨(State.confirmFailed_kept (M := (· ∉ [.host])) id b (.refl s)).parts .host (by simp), ?_⟩
  unfold State.confirmFailed
  split
  next i _ =>
    split
    · extract_lets u
      have same : u.sec.keys = s.sec.keys ∧ u.sec.event = s.sec.event := ⟨rfl, rfl⟩
      split
      · rw [State.lapse_sec]
        exact ⟨same.1, fun j h => W1C.bits_raise_of_set _ 7 (same.2 ▸ h)⟩
      · exact ⟨same.1, fun j h => same.2 ▸ h⟩
    · exact ⟨rfl, fun _ h => h⟩
  next => exact ⟨rfl, fun _ h => h⟩

/-- An item that SIG fails has ended FAILED with SIG_FAIL, and no stage follows (R530). -/
theorem State.sigFailed_does (s : State) (b : Nat) (e : Entry) (there : (s.item b).isSome) :
    (s.sigFailed b e).endingOf b = some { status := .failed, reason := some .sigFail } ∧ (s.sigFailed b e).host.qSig = s.host.qSig ∧
      b ∉ (s.sigFailed b e).host.qCtl ∧ (s.sigFailed b e).sec.event.bits.getLsbD 9 = true ∧ (s.sigFailed b e).sec.keys = s.sec.keys := by
  unfold State.sigFailed
  extract_lets u
  have host : u.host = ((s.leaveCtl b).failed b .sigFail).host := rfl
  have sec : u.sec = { s.sec with event := s.sec.event.raise 9 } := rfl
  suffices kept : ∀ t : State, t.host = u.host ∧ t.sec.keys = u.sec.keys ∧ (∀ i, u.sec.event.bits.getLsbD i = true → t.sec.event.bits.getLsbD i = true) →
      t.endingOf b = some { status := .failed, reason := some .sigFail } ∧ t.host.qSig = s.host.qSig ∧ b ∉ t.host.qCtl ∧
      t.sec.event.bits.getLsbD 9 = true ∧ t.sec.keys = s.sec.keys by
    split
    · exact kept _ (u.confirmFailed_keeps _ b)
    · exact kept _ ⟨rfl, rfl, fun _ h => h⟩
  rintro t ⟨same, keys, events⟩
  refine ⟨?_, ?_, ?_, events 9 ?_, ?_⟩
  · rw [State.endingOf, State.item, same, host]
    exact State.endingOf_endItem (s := s.leaveCtl b) b { status := .failed, reason := some .sigFail } there
  · rw [same, host]
    rfl
  · rw [same, host]
    exact State.not_mem_leaveCtl (s := s) b
  · rw [sec]
    exact W1C.raise_bits _ _ (by decide)
  · rw [keys, sec]

theorem exec_berthSigDone_fails (s : State) (b : Nat) (ok : Bool) (it : Item) (item : s.item b = some it) (stage : it.stage = .sig)
    (front : s.host.qSig.head? = some b) (fails : s.sigPasses it.entry ok = false) : ∃ t, exec (.berthSigDone b ok) s = .next t ∧
      t.endingOf b = some { status := .failed, reason := some .sigFail } ∧ b ∉ t.host.qSig ∧ b ∉ t.host.qCtl ∧
      t.sec.event.bits.getLsbD 9 = true ∧ t.sec.keys = s.sec.keys ∧ OnlyTouches [.acq, .log, .host, .sec] s t := by
  have run := exec_berthSigDone ok item stage front
  rw [fails, if_neg Bool.false_ne_true] at run
  have kept : Kept (· ∈ [.acq, .log, .host, .sec]) s (s.leaveSig b) := State.onHost_kept (.refl s) fun _ h => h
  have still : (s.leaveSig b).item b = some it := (State.item_congr rfl b).trans item
  obtain ⟨ending, qSig, qCtl, event, keys⟩ := (s.leaveSig b).sigFailed_does b it.entry (by rw [still]; rfl)
  exact ⟨_, run, ending, qSig ▸ not_mem_filter_bne _ b, qCtl, event, keys, (State.sigFailed_kept b it.entry kept).frame⟩

/-! ### The completion of an item that has ended (R486, R493) -/

/-- The completion of item `it` with its ending `e`, as it is written in state `s` (R486). -/
def State.completionOf (s : State) (b : Nat) (it : Item) (e : Ending) : Completion :=
  { tag := it.entry.tag, opcode := it.entry.opcode, status := s.endStatus it e, reason := (e.reason.map (·.num)).getD 0, berth := b
    node := s.adeid.node, tAdmit := it.tsAdmit, tDone := s.ts32, result := e.result }

/-- Berth `b` is free (R487). -/
def State.vacate (s : State) (b : Nat) : State := s.onHost fun h => { h with berths := h.berths.set b none }

theorem State.completeItem_local {b : Nat} {it : Item} {e : Ending} (item : s.item b = some it) (ended : it.ending = some e) (own : it.reqId = none) :
    s.completeItem b =
      ((s.noteLate (s.endStatus it e) it.src).vacate b).ringComplete it.src (s.completionOf b it e) it.entry.notify := by
  rw [State.completeItem, item]
  dsimp only
  rw [ended]
  dsimp only
  rw [own]
  rfl

/-- What an ended item leaves of HOST before its completion goes to its ring. -/
structure Vacated (b : Nat) (s t : State) : Prop where
  host : ∃ ev p l, t.host = { s.host with event := ev, pba := p, lateEpisode := l, berths := s.host.berths.set b none }
  sys : t.sys = s.sys

theorem State.noteLate_host (s : State) (st : Status) (src : Nat) :
    ∃ ev p l, (s.noteLate st src).host = { s.host with event := ev, pba := p, lateEpisode := l } := by
  unfold State.noteLate
  split
  · exact ⟨s.host.event, s.host.pba, s.host.lateEpisode, rfl⟩
  · extract_lets u
    obtain ⟨ev, p, raised, -⟩ := s.raise_host_noted 4
    refine ⟨ev, p, true, ?_⟩
    have flagged : u.host = { s.host with event := ev, pba := p, lateEpisode := true } := by
      rw [show u.host = { (s.raise .host 4).host with lateEpisode := true } from rfl, raised]
    rw [← flagged]
    cases s.host.lateEpisode <;> rfl

theorem State.vacated (s : State) (st : Status) (src b : Nat) : Vacated b s ((s.noteLate st src).vacate b) := by
  obtain ⟨ev, p, l, host⟩ := s.noteLate_host st src
  refine ⟨⟨ev, p, l, ?_⟩, (State.noteLate_kept (M := (· ∉ [.sys])) st src (.refl s)).parts .sys (by simp)⟩
  rw [State.vacate, State.onHost_host, host]

theorem State.vacated_kept {st : Status} {src b : Nat} : Kept (· ∈ [.log, .host]) s ((s.noteLate st src).vacate b) :=
  State.onHost_kept (State.noteLate_kept st src (.refl s)) fun _ h => (List.length_set ..).trans h

theorem State.item_lt {b : Nat} {it : Item} (h : s.item b = some it) : b < s.host.berths.length := by
  by_contra out
  rw [State.item, List.getElem?_eq_none (not_lt.mp out)] at h
  cases h

theorem State.endStatus_eq (s : State) (it : Item) (e : Ending) :
    s.endStatus it e = if e.status = .done ∧ s.clk.degraded ∧ it.due < s.now then .late else e.status := by
  simp [State.endStatus, and_assoc]

/-- The completion of an item that has ended is written where its ring is up. -/
theorem State.completeItem_written {b : Nat} {it : Item} {e : Ending} (item : s.item b = some it) (ended : it.ending = some e) (own : it.reqId = none)
    (up : s.host.linkUp) (on : (s.ring it.src).enable) (alive : s.sys.lastwords = false) :
    (s.completeItem b).item b = none ∧ (∀ k, k ≠ b → (s.completeItem b).item k = s.item k) ∧
      ((s.completeItem b).ring it.src).written = { s.completionOf b it e with phase := (s.ring it.src).phase } :: (s.ring it.src).written ∧
      ((s.completeItem b).ring it.src).filled = (s.ring it.src).filled + 1 ∧ Kept (· ∈ [.log, .host]) s (s.completeItem b) := by
  rw [State.completeItem_local item ended own]
  have vacated := s.vacated (s.endStatus it e) it.src b
  have kept := State.vacated_kept (s := s) (st := s.endStatus it e) (src := it.src) (b := b)
  generalize (s.noteLate (s.endStatus it e) it.src).vacate b = w at vacated kept
  obtain ⟨ev, p, l, host⟩ := vacated.host
  have same : w.ring it.src = s.ring it.src := State.ring_congr (by rw [host]) it.src
  have written := State.ringComplete_written (s := w) (r := it.src) (s.completionOf b it e) it.entry.notify (by rw [host]; exact up)
    (by rw [same]; exact on) (by rw [vacated.sys]; exact alive)
  have keptDone := State.ringComplete_kept it.src (s.completionOf b it e) it.entry.notify kept
  generalize w.ringComplete it.src (s.completionOf b it e) it.entry.notify = t at written keptDone
  obtain ⟨m, q, completed⟩ := written.host
  have berths : t.host.berths = s.host.berths.set b none := by rw [completed, host]
  have lines := written.written
  rw [same] at lines
  exact ⟨State.item_of_set_self berths (State.item_lt item), fun k ne => State.item_of_set_ne berths ne, lines,
    written.filled.trans (congrArg (CmdRing.filled · + 1) same), keptDone⟩

/-- CTL carries no query out for an item that has ended. -/
theorem State.runQuery_ended {b : Nat} {it : Item} {e : Ending} (item : s.item b = some it) (ended : it.ending = some e) : s.runQuery b = s := by
  have idle : s.ctlCmd b = none := by simp [State.ctlCmd, item, ended]
  rw [State.runQuery, idle]

theorem exec_hostCompletionWrite_ended {b : Nat} {it : Item} {e : Ending} (item : s.item b = some it) (ended : it.ending = some e) :
    exec (.hostCompletionWrite b) s = .next (s.completeItem b) := by
  show execHostCompletionWrite b s = _
  rw [execHostCompletionWrite, State.runQuery_ended item ended]

theorem exec_hostCompletionWrite_written (s : State) (b : Nat) (it : Item) (e : Ending) (item : s.item b = some it) (ended : it.ending = some e)
    (own : it.reqId = none) (up : s.host.linkUp) (on : (s.ring it.src).enable) (alive : s.sys.lastwords = false) :
    ∃ t c, exec (.hostCompletionWrite b) s = .next t ∧ t.item b = none ∧ (∀ k, k ≠ b → t.item k = s.item k) ∧
      (t.ring it.src).written = c :: (s.ring it.src).written ∧ c.tag = it.entry.tag ∧ c.berth = b ∧ c.result = e.result ∧
      c.reason = (e.reason.map (·.num)).getD 0 ∧ c.tDone = s.ts32 ∧
      c.status = (if e.status = .done ∧ s.clk.degraded ∧ it.due < s.now then .late else e.status) ∧
      (t.ring it.src).filled = (s.ring it.src).filled + 1 ∧ OnlyTouches [.log, .host] s t := by
  have run : exec (.hostCompletionWrite b) s = .next (s.completeItem b) := exec_hostCompletionWrite_ended item ended
  obtain ⟨free, others, written, filled, kept⟩ := State.completeItem_written item ended own up on alive
  generalize s.completeItem b = t at run free others written filled kept
  exact ⟨t, _, run, free, others, written, rfl, rfl, rfl, rfl, rfl, s.endStatus_eq it e, filled, kept.frame⟩

/-! ### A completion that cannot be written (R482, R486) -/

theorem State.onRing_written (s : State) (q : Nat) {f : CmdRing → CmdRing} (keeps : ∀ x, (f x).written = x.written) (r : Nat) :
    ((s.onRing q f).ring r).written = (s.ring r).written := by
  by_cases lt : q < s.host.rings.length
  · by_cases eq : r = q
    · rw [eq, State.ring_onRing_self lt]
      exact keeps _
    · rw [State.ring_onRing_ne eq]
  · exact congrArg CmdRing.written (nth_updAt_out _ _ _ _ _ (not_lt.mp lt))

/-- A completion whose ring is not up is counted as dropped and flagged (R486). -/
theorem State.ringComplete_dropped {r : Nat} (c : Completion) (notify : Bool)
    (down : s.host.linkUp = false ∨ (s.ring r).enable = false ∨ s.sys.lastwords) :
    (s.ringComplete r c notify).host.berths = s.host.berths ∧ (s.ringComplete r c notify).host.cplDropped = satInc 32 s.host.cplDropped ∧
      (s.ringComplete r c notify).host.event.bits.getLsbD 7 = true ∧ ((s.ringComplete r c notify).ring r).written = (s.ring r).written := by
  have shut : ¬(s.host.linkUp && (s.ring r).enable && !s.sys.lastwords) = true := by
    rcases down with h | h | h <;> simp [h]
  rw [State.ringComplete, if_neg shut]
  obtain ⟨u, hu⟩ : ∃ u, u = (s.onRing r fun x => { x with reserved := x.reserved - 1 }).onHost fun h => { h with cplDropped := satInc 32 h.cplDropped } :=
    ⟨_, rfl⟩
  have berths : u.host.berths = s.host.berths := by rw [hu]; rfl
  have dropped : u.host.cplDropped = satInc 32 s.host.cplDropped := by rw [hu]; rfl
  have written : (u.ring r).written = (s.ring r).written := by
    rw [hu]
    exact s.onRing_written r (f := fun x => { x with reserved := x.reserved - 1 }) (fun _ => rfl) r
  rw [← hu]
  obtain ⟨ev, p, raised, -⟩ := u.raise_host_noted 7
  refine ⟨by rw [raised, ← berths], by rw [raised, ← dropped], u.raise_host_event (by decide), ?_⟩
  rw [State.ring_congr (s := u) (by rw [raised]), written]

theorem exec_hostCompletionWrite_dropped (s : State) (b : Nat) (it : Item) (e : Ending) (item : s.item b = some it) (ended : it.ending = some e)
    (own : it.reqId = none) (down : s.host.linkUp = false ∨ (s.ring it.src).enable = false ∨ s.sys.lastwords) :
    ∃ t, exec (.hostCompletionWrite b) s = .next t ∧ t.item b = none ∧ t.host.cplDropped = satInc 32 s.host.cplDropped ∧
      t.host.event.bits.getLsbD 7 = true ∧ (t.ring it.src).written = (s.ring it.src).written ∧ OnlyTouches [.log, .host] s t := by
  have run : exec (.hostCompletionWrite b) s = .next (s.completeItem b) := exec_hostCompletionWrite_ended item ended
  rw [State.completeItem_local item ended own] at run
  have vacated := s.vacated (s.endStatus it e) it.src b
  have kept := State.vacated_kept (s := s) (st := s.endStatus it e) (src := it.src) (b := b)
  generalize (s.noteLate (s.endStatus it e) it.src).vacate b = w at run vacated kept
  obtain ⟨ev, p, l, host⟩ := vacated.host
  have same : w.ring it.src = s.ring it.src := State.ring_congr (by rw [host]) it.src
  obtain ⟨berths, dropped, event, written⟩ := State.ringComplete_dropped (s := w) (r := it.src) (s.completionOf b it e) it.entry.notify
    (by rw [same, vacated.sys, host]; exact down)
  have frame := (State.ringComplete_kept it.src (s.completionOf b it e) it.entry.notify kept).frame
  have set := berths.trans (congrArg HostState.berths host)
  exact ⟨_, run, State.item_of_set_self (s := s) set (State.item_lt item), dropped.trans (congrArg (fun h => satInc 32 h.cplDropped) host), event,
    written.trans (congrArg CmdRing.written same), frame⟩

/-! ### A query (R488) -/

theorem State.runQuery_query {b off : Nat} (cmd : s.ctlCmd b = some (.query off)) (runs : s.blkStopped (blkAt off) = false)
    (aligned : s.blkRealigns (blkAt off) = false) :
    s.runQuery b = (s.leaveCtl b).done b (((s.leaveCtl b).liveReg (blkAt off) (off - blkBase (blkAt off))).zeroExtend 64) := by
  have serves : ¬((s.leaveCtl b).blkStopped (blkAt off) || (s.leaveCtl b).blkRealigns (blkAt off)) = true := by
    rw [show (s.leaveCtl b).blkStopped (blkAt off) = s.blkStopped (blkAt off) from rfl,
      show (s.leaveCtl b).blkRealigns (blkAt off) = s.blkRealigns (blkAt off) from rfl, runs, aligned]
    decide
  rw [State.runQuery, cmd]
  exact if_neg serves

theorem exec_hostCompletionWrite_query (s u : State) (b off : Nat) (it : Item) (cmd : s.ctlCmd b = some (.query off)) (item : s.item b = some it)
    (own : it.reqId = none) (runs : s.blkStopped (blkAt off) = false) (aligned : s.blkRealigns (blkAt off) = false) (up : s.host.linkUp)
    (on : (s.ring it.src).enable) (alive : s.sys.lastwords = false) (steady : s.clk.degraded = false) (left : u = s.leaveCtl b) :
    ∃ t c, exec (.hostCompletionWrite b) s = .next t ∧ t.item b = none ∧ (t.ring it.src).written = c :: (s.ring it.src).written ∧
      c.status = .done ∧ c.result = (u.liveReg (blkAt off) (off - blkBase (blkAt off))).zeroExtend 64 ∧ OnlyTouches [.log, .host] s t := by
  have run : exec (.hostCompletionWrite b) s = .next ((s.runQuery b).completeItem b) := rfl
  rw [State.runQuery_query cmd runs aligned, ← left] at run
  generalize (u.liveReg (blkAt off) (off - blkBase (blkAt off))).zeroExtend 64 = v at run ⊢
  have ended : (u.done b v).item b = some { it with ending := some { status := .done, result := v } } :=
    State.item_onItem u b _ it (by rw [left]; exact item)
  have kept : Kept (· ∈ [.log, .host]) s (u.done b v) := by
    rw [left]
    exact State.done_kept b v (State.leaveCtl_kept b (.refl s))
  have link : (u.done b v).host.linkUp = s.host.linkUp := by rw [left]; rfl
  have ring : (u.done b v).ring it.src = s.ring it.src := State.ring_congr (by rw [left]; rfl) _
  have sys : (u.done b v).sys = s.sys := by rw [left]; rfl
  have clk : (u.done b v).clk = s.clk := by rw [left]; rfl
  generalize u.done b v = w at run ended kept link ring sys clk
  obtain ⟨free, -, written, -, completed⟩ := State.completeItem_written ended rfl own (link.trans up) (by rw [ring]; exact on) (by rw [sys]; exact alive)
  refine ⟨_, _, run, free, written.trans (congrArg (_ :: CmdRing.written ·) ring), ?_, rfl, (kept.trans completed).frame⟩
  exact (w.endStatus_eq _ _).trans (if_neg fun late => by rw [clk, steady] at late; exact Bool.false_ne_true late.2.1)

/-- Settles O45, clause by clause. -/
theorem stagesEndInACompletion : Obligations.StagesEndInACompletion :=
  ⟨exec_berthBulkDone_does, exec_berthSigDone_passes, exec_berthSigDone_fails, exec_hostCompletionWrite_written, exec_hostCompletionWrite_dropped,
    exec_hostCompletionWrite_query⟩

end Sys2Proof.Machine
end

section
/-! SUPPORT. Forwarded commands without an answer, BAR4 and REG (spec/15_host_cluster_berths.md R480, R481, R503 to R505; spec/19_register_map.md R597). -/

namespace Sys2Proof.Machine

set_option Elab.async false

open Sys2Proof

variable {s : State}

/-! ### What leaves on the rings -/

theorem State.adeidPut_adeid (s : State) (q : Nat) (f : AdeidFrame) :
    (s.adeidPut q f).adeid = { s.adeid with links := updAt s.adeid.links q fun l => { l with egress := l.egress ++ [f] } } := rfl

theorem State.adeidOwn_congr {t : State} (h : t.adeid = s.adeid) (q : Nat) (f : AdeidFrame) : (t.adeidOwn q f).adeid = (s.adeidOwn q f).adeid := by
  have up (k : Nat) : t.linkUp k = s.linkUp k := by rw [State.linkUp, State.linkUp, State.link, State.link, h]
  unfold State.adeidOwn
  extract_lets g
  rw [up, up]
  split
  · rw [State.adeidPut_adeid, State.adeidPut_adeid, h]
  · split
    · rw [State.adeidPut_adeid, State.adeidPut_adeid, State.onAdeid_adeid, State.onAdeid_adeid, h]
    · exact h

/-- What leaves on the rings depends on ADEID alone. -/
theorem State.adeidSend_congr {t : State} (h : t.adeid = s.adeid) (dst : Nat) (bcast : Bool) (p : AdeidPayload) :
    (t.adeidSend dst bcast p).adeid = (s.adeidSend dst bcast p).adeid := by
  rw [State.adeidSend, State.adeidSend, h]
  exact State.adeidOwn_congr (State.adeidOwn_congr h 0 _) 2 _

/-! ### A forwarded command without an answer (R503) -/

/-- The completion of a forwarded command that no answer came for (R503). -/
def State.noAnswerOf (s : State) (f : Forward) : Completion :=
  { tag := f.entry.tag, opcode := f.entry.opcode, status := .noAnswer, node := f.entry.node, tAdmit := f.tsAdmit, tDone := s.ts32 }

/-- The state that counts and flags a missing answer (R503). -/
def State.missed (s : State) : State := (s.onHost fun h => { h with noAnswer := satInc 16 h.noAnswer }).raise .host 8

theorem exec_hostForwardNoAnswer {q : Word} {f : Forward} (found : s.host.forwards.find? (·.reqId == q) = some f) (late : f.due ≤ s.now) :
    exec (.hostForwardNoAnswer q) s = .next (s.missed.forwardDone q (s.missed.noAnswerOf f)) := by
  show execHostForwardNoAnswer q s = _
  rw [execHostForwardNoAnswer, found]
  exact congrArg Host.Outcome.next (if_neg (Nat.not_lt.mpr late))

theorem State.missed_host (s : State) : ∃ e p, s.missed.host = { s.host with noAnswer := satInc 16 s.host.noAnswer, event := e, pba := p } ∧
    e.bits.getLsbD 8 = true := by
  obtain ⟨e, p, raised, -⟩ := (s.onHost fun h => { h with noAnswer := satInc 16 h.noAnswer }).raise_host_noted 8
  have event := (s.onHost fun h => { h with noAnswer := satInc 16 h.noAnswer }).raise_host_event (i := 8) (by decide)
  rw [raised] at event
  exact ⟨e, p, raised, event⟩

theorem State.forwardDone_found {q : Word} {f : Forward} (c : Completion) (found : s.host.forwards.find? (·.reqId == q) = some f) :
    s.forwardDone q c = (s.onHost fun h => { h with forwards := h.forwards.filter (·.reqId != q) }).ringComplete f.ring
      { c with tag := f.entry.tag, opcode := f.entry.opcode } f.entry.notify := by rw [State.forwardDone, found]

theorem exec_hostForwardNoAnswer_does (s : State) (q : Word) (f : Forward) (found : s.host.forwards.find? (·.reqId == q) = some f) (late : f.due ≤ s.now)
    (up : s.host.linkUp) (on : (s.ring f.ring).enable) (alive : s.sys.lastwords = false) : ∃ t c, exec (.hostForwardNoAnswer q) s = .next t ∧
      t.host.forwards = s.host.forwards.filter (·.reqId != q) ∧ t.host.noAnswer = satInc 16 s.host.noAnswer ∧
      t.host.event.bits.getLsbD 8 = true ∧ (t.ring f.ring).written = c :: (s.ring f.ring).written ∧ c.status = .noAnswer ∧
      c.tag = f.entry.tag ∧ c.node = f.entry.node ∧ OnlyTouches [.host] s t := by
  have run := exec_hostForwardNoAnswer found late
  have frame : OnlyTouches [.host] s _ := (execHostForwardNoAnswer_kept q (.refl s)).frame run
  have sys : s.missed.sys = s.sys := State.raise_sys _ (by decide) 8
  obtain ⟨e, p, host, event⟩ := s.missed_host
  rw [State.forwardDone_found _ (by rw [host]; exact found)] at run frame
  obtain ⟨u, hu⟩ : ∃ u, u = s.missed.onHost fun h => { h with forwards := h.forwards.filter (·.reqId != q) } := ⟨_, rfl⟩
  have left : u.host = { s.host with
      forwards := s.host.forwards.filter (·.reqId != q), noAnswer := satInc 16 s.host.noAnswer, event := e, pba := p } := by
    rw [hu, State.onHost_host, host]
  have steady : u.sys = s.sys := by
    rw [hu]
    exact sys
  rw [← hu] at run frame
  have ring : u.ring f.ring = s.ring f.ring := State.ring_congr (by rw [left]) _
  have written := State.ringComplete_written (s := u) (r := f.ring) { s.missed.noAnswerOf f with tag := f.entry.tag, opcode := f.entry.opcode } f.entry.notify
    (by rw [left]; exact up) (by rw [ring]; exact on) (by rw [steady]; exact alive)
  generalize u.ringComplete f.ring { s.missed.noAnswerOf f with tag := f.entry.tag, opcode := f.entry.opcode } f.entry.notify = t at run frame written
  obtain ⟨l, k, completed⟩ := written.host
  refine ⟨t, _, run, ?_, ?_, ?_, written.written.trans (congrArg (_ :: CmdRing.written ·) ring), rfl, rfl, rfl, frame⟩
  · rw [completed, left]
  · rw [completed, left]
  · rw [completed, left]
    exact event

/-! ### BAR4 (R480, R481, R504, R597) -/

theorem exec_bar4Access_outside (s : State) (x : Bar4In) (h : 268435456 ≤ x.offset) : exec (.bar4Access x) s = .fault .outsideBar4 := if_pos h

/-- An access to slot `n` of BAR4 by its tests (R504, R597). -/
theorem exec_bar4Access {x : Bar4In} {n : Nat} (inside : x.offset < 268435456) (slot : n = x.offset / 4194304) : exec (.bar4Access x) s = .next (
    if !s.harbour || !s.host.winBar4 || decide (s.clusterSize ≤ n) then s.bar4Error 5 n x.offset x.write.isSome
    else if x.write.isSome && !s.host.winBar4Wr then s.bar4Error 4 n x.offset x.write.isSome
    else if n = 0 then
      match x.write with
      | some v => s.bar0Write (x.offset % bar0Size) v
      | none => s.bar0Read .host (x.offset % bar0Size)
    else if !s.nodeReach n then s.bar4Error 5 n x.offset x.write.isSome
    else if 32 ≤ s.host.regs.length then s
    else s.regSend n x.offset x.write) := by
  subst slot
  exact if_neg (Nat.not_le.mpr inside)

/-- The harbour's access to another node that it reaches passes every test but that of the 32 requests (R504). -/
theorem exec_bar4Access_remote {x : Bar4In} {n : Nat} (inside : x.offset < 268435456) (slot : n = x.offset / 4194304) (other : n ≠ 0)
    (member : n < s.clusterSize) (harbour : s.harbour) (window : s.host.winBar4) (writes : x.write.isSome → s.host.winBar4Wr) (reach : s.nodeReach n) :
    exec (.bar4Access x) s = .next (if 32 ≤ s.host.regs.length then s else s.regSend n x.offset x.write) := by
  have admitted : (!s.harbour || !s.host.winBar4 || decide (s.clusterSize ≤ n)) = false := by
    rw [harbour, window, decide_eq_false (Nat.not_le.mpr member)]
    rfl
  have writable : (x.write.isSome && !s.host.winBar4Wr) = false := by
    cases h : x.write.isSome with
    | false => rfl
    | true => rw [writes h]; rfl
  rw [exec_bar4Access inside slot, admitted, writable, if_neg other, reach]
  rfl

theorem State.bar4Error_host (s : State) (c n a : Nat) (w : Bool) : ∃ e p, (s.bar4Error c n a w).host = { s.host with
    err := c, errBar := 2, errWrite := w, errNode := n, errAddr := BitVec.ofNat 64 a, errCount := satInc 16 s.host.errCount
    event := e, pba := p, accesses := failedEnd w :: s.host.accesses } := by
  obtain ⟨p, host⟩ := s.hostErr_host c 2 n a w
  refine ⟨s.host.event.raise 6, p, ?_⟩
  rw [State.bar4Error, State.answer, State.onHost_host, host]

theorem exec_bar4Access_refused (s : State) (x : Bar4In) (n : Nat) (inside : x.offset < 268435456) (slot : n = x.offset / 4194304)
    (bars : s.harbour = false ∨ s.host.winBar4 = false ∨ s.clusterSize ≤ n) : ∃ t, exec (.bar4Access x) s = .next t ∧ t.host.err = 5 ∧
      t.host.errBar = 2 ∧ t.host.errNode = n ∧ t.host.errWrite = x.write.isSome ∧
      t.host.accesses = (if x.write.isSome then .written else .abort) :: s.host.accesses ∧ OnlyTouches [.host] s t := by
  have run := exec_bar4Access (s := s) inside slot
  have barred : (!s.harbour || !s.host.winBar4 || decide (s.clusterSize ≤ n)) = true := by
    rcases bars with h | h | h <;> simp [h]
  rw [if_pos barred] at run
  obtain ⟨e, p, host⟩ := s.bar4Error_host 5 n x.offset x.write.isSome
  refine ⟨_, run, ?_, ?_, ?_, ?_, ?_, (State.bar4Error_kept 5 n x.offset _ (.refl s)).frame⟩ <;> rw [host]
  rfl

/-- The REG request that waits for its answer (R504). -/
def State.regWait (s : State) (n o : Nat) (w : Option Word) : RegWait := { reqId := s.host.nextReq, node := n, offset := o, write := w, sentAt := s.now }

theorem State.regSend_host (s : State) (n o : Nat) (w : Option Word) : (s.regSend n o w).host =
    { s.host with nextReq := s.host.nextReq + 1, regSent := wrapInc 16 s.host.regSent, regs := s.host.regs ++ [s.regWait n o w] } := by
  unfold State.regSend
  extract_lets req u
  exact (State.adeidSend_kept (M := (· ∉ [.host])) n false _ (.refl u)).parts .host (by simp)

theorem State.regSend_adeid (s : State) (n o : Nat) (w : Option Word) :
    (s.regSend n o w).adeid = (s.adeidSend n false (.reg s.host.nextReq (o % 4194304) w)).adeid := by
  unfold State.regSend
  extract_lets req u
  exact State.adeidSend_congr (s := s) (t := u) rfl n false _

theorem exec_bar4Access_sends (s : State) (o n : Nat) (w : Option Word) (inside : o < 268435456) (slot : n = o / 4194304) (other : n ≠ 0)
    (member : n < s.clusterSize) (harbour : s.harbour) (window : s.host.winBar4) (writes : w.isSome → s.host.winBar4Wr) (reach : s.nodeReach n)
    (room : s.host.regs.length < 32) : ∃ t, exec (.bar4Access { offset := o, write := w }) s = .next t ∧
      t.host.regs = s.host.regs ++ [{ reqId := s.host.nextReq, node := n, offset := o, write := w, sentAt := s.now }] ∧
      t.host.accesses = s.host.accesses ∧ t.host.nextReq = s.host.nextReq + 1 ∧
      t.adeid = (s.adeidSend n false (.reg s.host.nextReq (o % 4194304) w)).adeid ∧ OnlyTouches [.host, .adeid] s t := by
  have run := exec_bar4Access_remote (x := { offset := o, write := w }) inside slot other member harbour window writes reach
  rw [if_neg (Nat.not_le.mpr room)] at run
  refine ⟨_, run, ?_, ?_, ?_, s.regSend_adeid n o w, (State.regSend_kept n o w (.refl s)).frame⟩ <;> rw [State.regSend_host]
  rfl

theorem exec_bar4Access_waits (s : State) (x : Bar4In) (n : Nat) (inside : x.offset < 268435456) (slot : n = x.offset / 4194304) (other : n ≠ 0)
    (member : n < s.clusterSize) (harbour : s.harbour) (window : s.host.winBar4) (writes : x.write.isSome → s.host.winBar4Wr) (reach : s.nodeReach n)
    (full : 32 ≤ s.host.regs.length) : exec (.bar4Access x) s = .next s := by
  rw [exec_bar4Access_remote inside slot other member harbour window writes reach, if_pos full]

/-! ### The answer to a REG request (R504) -/

theorem State.regError_host (s : State) (x : RegWait) (c : Nat) : ∃ e p, (s.regError x c).host = { s.host with
    regs := s.host.regs.filter (·.reqId != x.reqId), regErrors := satInc 16 s.host.regErrors
    err := c, errBar := 2, errWrite := x.write.isSome, errNode := x.node, errAddr := BitVec.ofNat 64 x.offset, errCount := satInc 16 s.host.errCount
    event := e, pba := p, accesses := failedEnd x.write.isSome :: s.host.accesses } :=
  State.bar4Error_host ((s.regEnd x.reqId).onHost fun h => { h with regErrors := satInc 16 h.regErrors }) c x.node x.offset x.write.isSome

/-- An answer ends the request that waits for it, with its value or in error (R504). -/
theorem State.regAnswer_found {q : Word} {x : RegWait} (found : s.host.regs.find? (·.reqId == q) = some x) :
    (∀ w, s.regAnswer q (.data w) = (s.regEnd q).answer (.data w)) ∧ s.regAnswer q .refused = s.regError x 4 ∧
      s.regAnswer q .notReady = s.regError x 6 := by
  simp only [State.regAnswer, found, implies_true, and_self]

theorem exec_regAnswerRx {q : Word} {a : RegAnswer} {t : State} (h : s.regAnswer q a = t) : exec (.regAnswerRx q a) s = .next t :=
  congrArg Host.Outcome.next h

theorem exec_regAnswerRx_does (s : State) (q : Word) (x : RegWait) (w : Word) (found : s.host.regs.find? (·.reqId == q) = some x) :
    (∃ t, exec (.regAnswerRx q (.data w)) s = .next t ∧
      t.host = { s.host with regs := s.host.regs.filter (·.reqId != q), accesses := .data w :: s.host.accesses } ∧ OnlyTouches [.host] s t) ∧
    (∃ t, exec (.regAnswerRx q .refused) s = .next t ∧ t.host.err = 4 ∧ t.host.regErrors = satInc 16 s.host.regErrors ∧
      t.host.regs = s.host.regs.filter (·.reqId != q) ∧ OnlyTouches [.host] s t) ∧
    (∃ t, exec (.regAnswerRx q .notReady) s = .next t ∧ t.host.err = 6 ∧ t.host.regErrors = satInc 16 s.host.regErrors ∧ OnlyTouches [.host] s t) ∧
    (s.passed x.sentAt (usec 100) → ∃ t, exec (.regTimeout q) s = .next t ∧ t.host.err = 3 ∧ t.host.errNode = x.node ∧
      t.host.regs = s.host.regs.filter (·.reqId != x.reqId) ∧ t.host.regErrors = satInc 16 s.host.regErrors ∧
      t.host.accesses = (if x.write.isSome then .written else .abort) :: s.host.accesses ∧ OnlyTouches [.host] s t) := by
  have same : x.reqId = q := eq_of_beq (List.find?_some found :)
  obtain ⟨data, refused, notReady⟩ := State.regAnswer_found found
  refine ⟨⟨_, exec_regAnswerRx (data w), rfl, (State.answer_kept (M := (· ∈ [.host])) _ (State.regEnd_kept q (.refl s))).frame⟩, ?_, ?_, fun late => ?_⟩
  · obtain ⟨e, p, host⟩ := s.regError_host x 4
    refine ⟨_, exec_regAnswerRx refused, ?_, ?_, ?_, (State.regError_kept x 4 (.refl s)).frame⟩ <;> rw [host]
    rw [same]
  · obtain ⟨e, p, host⟩ := s.regError_host x 6
    refine ⟨_, exec_regAnswerRx notReady, ?_, ?_, (State.regError_kept x 6 (.refl s)).frame⟩ <;> rw [host]
  · have run : exec (.regTimeout q) s = .next (s.regError x 3) := by
      show execRegTimeout q s = _
      rw [execRegTimeout, found]
      exact congrArg Host.Outcome.next (if_pos late)
    obtain ⟨e, p, host⟩ := s.regError_host x 3
    refine ⟨_, run, ?_, ?_, ?_, ?_, ?_, (State.regError_kept x 3 (.refl s)).frame⟩ <;> rw [host]
    rfl

/-! ### A REG request at its target (R504, R505) -/

theorem exec_regRequestRx_notReady (s : State) (x : RegIn) (shut : s.regOpen (x.offset % 4194304) x.write.isSome = false) :
    exec (.regRequestRx x) s = .next (s.adeidSend x.src false (.regDone x.reqId .notReady)) :=
  congrArg Host.Outcome.next (if_pos (by rw [show x.offset % bar0Size = x.offset % 4194304 from rfl, shut]; rfl))

/-- A REG request to a node that is open for it (R505). -/
theorem exec_regRequestRx_open {x : RegIn} (opened : s.regOpen (x.offset % 4194304) x.write.isSome) : exec (.regRequestRx x) s = .next
    (match s.rateTest 17 with
    | some v => (s.countRefusal 17 v).adeidSend x.src false (.regDone x.reqId .refused)
    | none =>
      match ((s.spendToken 17).regServe (x.offset % 4194304) x.write).1 with
      | some a => ((s.spendToken 17).regServe (x.offset % 4194304) x.write).2.adeidSend x.src false (.regDone x.reqId a)
      | none => ((s.spendToken 17).regServe (x.offset % 4194304) x.write).2) :=
  congrArg Host.Outcome.next (if_neg (by rw [show x.offset % bar0Size = x.offset % 4194304 from rfl, opened]; decide))

theorem exec_regRequestRx_refused (s : State) (x : RegIn) (v : Verdict) (opened : s.regOpen (x.offset % 4194304) x.write.isSome)
    (spent : s.rateTest 17 = some v) : ∃ t, exec (.regRequestRx x) s = .next t ∧
      t.adeid = (s.adeidSend x.src false (.regDone x.reqId .refused)).adeid ∧ OnlyTouches [.log, .host, .adeid] s t := by
  have run := exec_regRequestRx_open opened
  rw [spent] at run
  have same : (s.countRefusal 17 v).adeid = s.adeid := (State.countRefusal_kept (M := (· ∉ [.adeid])) 17 v (.refl s)).parts .adeid (by simp)
  exact ⟨_, run, State.adeidSend_congr same _ _ _, (State.adeidSend_kept _ _ _ (State.countRefusal_kept 17 v (.refl s))).frame⟩

theorem State.regServe_read {o : Nat} (runs : s.blkStopped (blkAt o) = false) (aligned : s.blkRealigns (blkAt o) = false) :
    s.regServe o none = (some (.data (s.readReg (.reader 1) o).1), (s.readReg (.reader 1) o).2) := by
  unfold State.regServe
  dsimp only
  rw [runs, aligned]
  rfl

theorem exec_regRequestRx_reads (s u : State) (src o : Nat) (q : Word) (opened : s.regOpen (o % 4194304) false) (token : s.rateTest 17 = none)
    (spent : u = s.spendToken 17) (runs : u.blkStopped (blkAt (o % 4194304)) = false) (aligned : u.blkRealigns (blkAt (o % 4194304)) = false) :
    ∃ t, exec (.regRequestRx { src := src, reqId := q, offset := o }) s = .next t ∧
      t.adeid = (s.adeidSend src false (.regDone q (.data (u.readReg (.reader 1) (o % 4194304)).1))).adeid ∧
      OnlyTouches [.sys, .log, .chk, .host, .adeid, .snaps] s t := by
  have run := exec_regRequestRx_open (s := s) (x := { src := src, reqId := q, offset := o }) opened
  rw [token, ← spent, State.regServe_read runs aligned] at run
  have kept : Kept (· ∈ [.sys, .log, .chk, .host, .adeid, .snaps]) s (u.readReg (.reader 1) (o % 4194304)).2 :=
    State.readReg_kept _ _ (spent ▸ State.spendToken_kept 17 (.refl s))
  have same : (u.readReg (.reader 1) (o % 4194304)).2.adeid = s.adeid :=
    (State.readReg_kept (M := (· ∉ [.adeid])) _ _ (spent ▸ State.spendToken_kept 17 (.refl s))).parts .adeid (by simp)
  exact ⟨_, run, State.adeidSend_congr same _ _ _, (State.adeidSend_kept _ _ _ kept).frame⟩

/-- Settles O46, clause by clause. -/
theorem remoteAccessesComplete : Obligations.RemoteAccessesComplete :=
  ⟨exec_hostForwardNoAnswer_does, exec_bar4Access_outside, exec_bar4Access_refused, exec_bar4Access_sends, exec_bar4Access_waits, exec_regAnswerRx_does,
    exec_regRequestRx_notReady, exec_regRequestRx_refused, exec_regRequestRx_reads⟩

end Sys2Proof.Machine
end
